-- ==== Sys2Proof/Word.lean ====
section
/-! DEFINITION. The words of the FD-6420 as bit vectors (R3: bit 0 is the least significant bit). -/

namespace Sys2Proof

/-- One byte of a memory structure (R3). -/
abbrev Byte := BitVec 8

/-- One 32-bit register: a general or uniform register of a core (R107), or a BAR0 register (R323). -/
abbrev Word := BitVec 32

/-- One 64-bit value: an instruction word (R146), the SR key (R103), a doorbell (R346). -/
abbrev Word64 := BitVec 64

/-- Bits `hi` to `lo` of a word, both inclusive, as a number (R3). -/
def bits {n : Nat} (w : BitVec n) (hi lo : Nat) : Nat := (w.toNat >>> lo) % 2 ^ (hi + 1 - lo)

/-- Bits `hi` to `lo` of a number. -/
def nbits (w hi lo : Nat) : Nat := (w >>> lo) % 2 ^ (hi + 1 - lo)

/-- Bit `i` of a number. -/
def nbit (w i : Nat) : Bool := (w >>> i) % 2 == 1

/-- `n` with bits `hi` to `lo` replaced by `v` (bits of `v` beyond the field are dropped). -/
def putBits (n hi lo v : Nat) : Nat :=
  n - ((n >>> lo) % 2 ^ (hi + 1 - lo)) * 2 ^ lo + (v % 2 ^ (hi + 1 - lo)) * 2 ^ lo

/-- A number of `w` bits read as two's complement. -/
def sext (w n : Nat) : Int := if n < 2 ^ (w - 1) then (n : Int) else (n : Int) - (2 : Int) ^ w

/-- An integer as `w` bits of two's complement. -/
def trunc (w : Nat) (i : Int) : Nat := (i % ((2 : Int) ^ w)).toNat

/-- `a + b` that stops at `top` ("saturating" of the counters). -/
def satAdd (top a b : Nat) : Nat := min top (a + b)

/-- `a ÷ b` rounded up. -/
def ceilDiv (a b : Nat) : Nat := (a + b - 1) / b

/-- Whether bit `i` of a 32-bit mask is set. -/
def maskHas (m : Word) (i : Nat) : Bool := m.getLsbD i

/-- The mask with only bit `i`. -/
def bitMask (i : Nat) : Word := BitVec.ofNat 32 (2 ^ i)

/-- The threads of a mask, ascending. -/
def maskList (m : Word) : List Nat := (List.range 32).filter (maskHas m)

/-- The mask of a list of threads. -/
def listMask (l : List Nat) : Word := l.foldl (fun m i => m ||| bitMask i) 0

end Sys2Proof
end

