-- ==== Sys2Proof/Syntax.lean ====
section
/-! DEFINITION. The commands the block takes, as data: one constructor per row of spec/opcode_table.json. Units are
numbered as the manual numbers them; a core instruction carries its 64-bit word (R146). -/

namespace Sys2Proof

/-- Physical core index (R18). -/
abbrev CoreId := Fin 576
/-- Cluster number (R17). -/
abbrev ClusterId := Fin 64
/-- LLC half h (R257). -/
abbrev HalfId := Fin 4
/-- Die, numbered as THM_DSTAT numbers them (R433). -/
abbrev DieId := Fin 7
/-- Class label (R364). -/
abbrev ClassId := Fin 16
/-- Interface: 0 CXL, 1 sideband (R63). -/
abbrev Iface := Fin 2
/-- Tower. -/
abbrev TowerId := Fin 2
/-- Firmware processor (R382). -/
abbrev ProcId := Fin 7
/-- Mailbox (R388). -/
abbrev MbxId := Fin 17
/-- Lupin link, 0 for link 1 (R470). -/
abbrev LinkId := Fin 8

/-- An error that the checks of a core's arrays find as an instruction issues (R293). -/
inductive ArrayErr where
  | none
  | icache                       -- parity, in the line of the fetched word
  | l1 (line : Nat)              -- parity, in this line of L1
  | localCe                      -- a local-store word, correctable
  | localUe (word : Fin 49152)   -- this 16-byte word of the local store, uncorrectable
  | regCe                        -- a register, correctable
  | regUe                        -- a register, uncorrectable
deriving DecidableEq, Repr

/-- The issue set that issues: the one holding this thread of this group on this core (R109); `err`: what the arrays' checks find. -/
structure Site where
  core   : CoreId
  group  : Fin 16
  thread : Fin 32
  err    : ArrayErr := .none
deriving DecidableEq, Repr

/-- Operations of IALU and IALUI (R156); the toolchain's file fixes their OP codes (R149). -/
inductive IaluOp where
  | add | sub | mul | mulhi | mad | and | or | xor | not | shl | shr | sar | min | max | abs | popc | clz | bswz
deriving DecidableEq, Repr

/-- Operations of IDIV (R156). -/
inductive IdivOp where
  | div | rem
deriving DecidableEq, Repr

/-- Operations of FALU and FALUI (R156). -/
inductive FaluOp where
  | add | sub | mul | fma | min | max | abs | neg
deriving DecidableEq, Repr

/-- Operations of FSPEC (R156). -/
inductive FspecOp where
  | rcp | rsqrt | sqrt | exp2 | log2 | tanh
deriving DecidableEq, Repr

/-- Operations of CMP and CMPI (R156). -/
inductive CmpOp where
  | eq | ne | lt | le | gt | ge | un
deriving DecidableEq, Repr

/-- Operations of PRED (R156). -/
inductive PredOp where
  | and | or | xor | not | any | all | ballot
deriving DecidableEq, Repr

/-- Operations of XLANE (R156). -/
inductive XlaneOp where
  | idx | up | down | xor
deriving DecidableEq, Repr

/-- Operations of MOVE (R156). -/
inductive MoveOp where
  | mov | mov64
deriving DecidableEq, Repr

/-- The two barrier kinds (R120, R121). -/
inductive BarScope where
  | group (g : Fin 16)
  | task
deriving DecidableEq, Repr

/-- A stored bit of a bank (R311): its mat, its row, and its place among the data and check positions of its word; in an HBM sector
only the place counts. -/
structure Cell where
  mat : Fin 16
  row : Fin 1024
  bit : Fin 576
deriving DecidableEq, Repr

/-- What a read of a line's array finds (R293, R294, R300, R301): an error in one 16-byte word, which the governing code corrects or not,
an error that a stack's own code corrected, or an error of the line's tag. -/
inductive Flaw where
  | word (w : Fin 8) (cell : Cell) (bad : Bool)
  | onDie
  | tag (bad : Bool)
deriving DecidableEq, Repr

/-- All that one read finds; nothing when it is clean. -/
abbrev EccRes := List Flaw

/-- A core, and what the array reads of its command find, by address. -/
structure CoreRead where
  core : CoreId
  errs : List (Nat × Flaw)
deriving DecidableEq, Repr

/-- A cluster, and what the array reads of its command find, by address. -/
structure ClusterRead where
  cluster : ClusterId
  errs    : List (Nat × Flaw)
deriving DecidableEq, Repr

/-- A bank, and what its read finds. -/
structure BankRead where
  bank : Fin 256
  ecc  : EccRes
deriving DecidableEq, Repr

/-- A row of a mat (R311). -/
structure MatRow where
  mat : Fin 16
  row : Fin 1024
deriving DecidableEq, Repr

/-- A training of bundles (R37): PWR's plan, and the lanes that the training finds failed. -/
structure Training where
  plan  : List (List Nat)
  lanes : List (TowerId × Fin 2 × Fin 12288 × Fin 39)
deriving DecidableEq, Repr

/-- A bring-up (R37, R437, R502): its training, and the dies A that fail the check of R437. -/
structure BringUp extends Training where
  suspect : Bool × Bool
deriving DecidableEq, Repr

/-- A unit that sends load notices: a core's grid or a cluster's attention engine (R198, R416). -/
inductive LoadUnit where
  | grid (c : CoreId)
  | attn (cl : ClusterId)
deriving DecidableEq, Repr

/-- What the check of a grid or of an attention engine found (R200, R290). -/
inductive GridFault where
  | parity | residue
deriving DecidableEq, Repr

/-- What a Lupin message carries after its header (R474): bytes, the operands of its type, or nothing. The manual gives no layout
for MGMT, so its contents are structured, and one message stands for a whole request or answer (DESIGN CHOICE, log 10). -/
inductive LPay where
  | none
  | data (bytes : List Nat)
  | atom (op operand compare : Nat)
  | lock (acq lost : Bool) (core group thread : Nat)
  | pin (unpin : Bool) (length : Nat)
  | red (oper etype : Nat) (bytes : List Nat)
  | word (v : Nat)
  | value (v : Nat) (flag : Bool)
  | mboxGo (mbx op : Nat) (req : List Nat) (plan : List (List Nat)) (num : Nat)
  | mboxAns (mbx status detail : Nat) (answer : List Nat)
  | routes (epoch : Bool) (table : List (Nat × Nat × Nat)) (members : List Nat)
  | failover (link : Nat) (table : List (Nat × Nat × Nat))
  | linkDown (module link : Nat)
  | mmio (off : Nat) (write : Option Nat)
deriving DecidableEq, Repr

/-- What the host link trains to (R319, R320): mode, rate code, log2 of the width, and whether it lies below what the host's
capabilities advertise. -/
structure HostTrain where
  mode  : Fin 3
  rate  : Fin 5
  width : Fin 5
  below : Bool
deriving DecidableEq, Repr

/-- The arbiters that act on labels (R365). -/
inductive ArbiterId where
  | missPort (c : CoreId)
  | bank (t : TowerId) (b : Fin 512)
  | group (t : TowerId) (b : Fin 512) (layer : Fin 2) (g : Fin 2)
  | bridge
  | hbm (stack : Fin 8)
  | cxl
  | link (l : LinkId)
deriving DecidableEq, Repr

/-- The masters that keep token buckets (R371), and every other source of requests. -/
inductive MasterId where
  | missPort (c : CoreId)
  | xfer (c : CoreId)
  | reduce (c : CoreId)
  | attn (c : ClusterId)
  | host
  | ingress (l : LinkId)
  | scrub
  | other
deriving DecidableEq, Repr

/-- A request that reaches an arbiter: message class, label, master, and, when it leaves its master now, the handshakes that the
master has made since its last one. -/
structure Arrival where
  mc     : Fin 4
  cls    : ClassId
  master : MasterId
  leaves : Option Nat
deriving DecidableEq, Repr

/-- What SUP or hardware finds at a counted restart (R384): a firmware exception, an uncorrectable error in the processor's SRAM, or
SUP forces it. -/
inductive RestartCause where
  | exception | sram | forced
deriving DecidableEq, Repr

/-- A Lupin message (R473): type, class label, log2 of the access size, destination and source module, hops left, route
epoch, TAG, address, and, in responses, status and NACK reason. Its CRC is checked on arrival and not kept. -/
structure LMsg where
  typ    : Nat
  label  : Nat
  size   : Nat
  dst    : Nat
  src    : Nat
  ttl    : Nat
  epoch  : Bool
  tag    : Nat
  addr   : Nat
  status : Nat
  reason : Nat
  pay    : LPay
deriving DecidableEq, Repr

/-- A configuration request (R321, R331, R336): any that changes no state that the manual gives, a write to MSI-X Message Control
(enable, function mask), or, in CXL 1.1 mode, to the DVSEC range base in units of 256 MiB (R319). -/
inductive CfgReq where
  | other
  | msix (enable mask : Bool)
  | rangeBase (base : Nat)
deriving DecidableEq, Repr

/-- An instruction at the JTAG port (R515). -/
inductive JtagIns where
  | bypass | idcode | sample | extest | other
deriving DecidableEq, Repr

/-- Host traffic that the module cannot serve (R333), but for what BAR2 and CXL.mem accesses themselves find. -/
inductive HostErr where
  | unsupported (posted : Bool)
  | badBar0 (write : Bool)
  | malformed
  | poisonBar0
  | badCxl
deriving DecidableEq, Repr

/-- Occurrences of a counted event (R520, R521): block (0 core, 1 cluster, 2 LLC half, 3 port), its index, the event code (a port's
direction), how many (a port's bytes and grants), and what the filters see. -/
structure PmcOcc where
  block  : Fin 4
  index  : Nat
  code   : Nat
  n      : Nat
  reqs   : Nat
  cls    : Fin 16
  origin : Fin 4
  master : Fin 5
  core   : Option (Fin 576)
  addr   : Option Nat
deriving DecidableEq, Repr

/-- The commands of the block: one constructor per row of the opcode table. -/
inductive Instr where
  /-- IALU (R156). Integer arithmetic, logic, shift or byte-swizzle instruction executed per thread. -/
  | ialu (x : Site) (op : (Option IaluOp)) (w : Word64)
  /-- IALUI (R156). Integer operation with a 32-bit immediate executed per thread. -/
  | ialui (x : Site) (op : (Option IaluOp)) (signed : Bool) (w : Word64)
  /-- IDIV (R156). Integer divide or remainder, faulting INT_DIV_ZERO on a zero divisor. -/
  | idiv (x : Site) (op : (Option IdivOp)) (w : Word64)
  /-- FALU (R156). Floating-point add, multiply, fused multiply-add, min, max, abs or neg per thread. -/
  | falu (x : Site) (op : (Option FaluOp)) (w : Word64)
  /-- FALUI (R156). Floating-point operation with an FP32 immediate. -/
  | falui (x : Site) (op : (Option FaluOp)) (w : Word64)
  /-- FSPEC (R156). Reciprocal, square root, exponential, logarithm or tanh as a fixed function. -/
  | fspec (x : Site) (op : (Option FspecOp)) (w : Word64)
  /-- CMP (R156). Compare that writes a predicate. -/
  | cmp (x : Site) (op : (Option CmpOp)) (w : Word64)
  /-- CMPI (R156). Compare with an integer immediate that writes a predicate. -/
  | cmpi (x : Site) (op : (Option CmpOp)) (signed : Bool) (w : Word64)
  /-- CVT (R156). Format conversion with round-to-nearest-even or stochastic rounding and saturation by SAT. -/
  | cvt (x : Site) (listed : Bool) (w : Word64)
  /-- MXQ (R156). MX block quantise of 32 values across an issue set, writing elements and one scale. -/
  | mxq (x : Site) (listed : Bool) (w : Word64)
  /-- PRED (R156). Predicate logic, vote or ballot over the issue set. -/
  | pred (x : Site) (op : (Option PredOp)) (w : Word64)
  /-- XLANE (R156). Exchange of a 32-bit value between threads of an issue set. -/
  | xlane (x : Site) (op : (Option XlaneOp)) (w : Word64)
  /-- MOVE (R156). Register move of one register or a register pair. -/
  | move (x : Site) (op : (Option MoveOp)) (w : Word64)
  /-- MOVI_MOV (R156). Load a 32-bit immediate into the destination register. -/
  | moviMov (x : Site) (w : Word64)
  /-- MOVI_MOVH (R156). Load an immediate into the upper 16 bits of the destination register. -/
  | moviMovh (x : Site) (w : Word64)
  /-- SRKEY_LO_I (R156). Set the low 32 bits of the group's SR key from the immediate. -/
  | srkeyLoI (x : Site) (w : Word64)
  /-- SRKEY_HI_I (R156). Set the high 32 bits of the group's SR key from the immediate. -/
  | srkeyHiI (x : Site) (w : Word64)
  /-- SRKEY_LO_G (R156). Set the low 32 bits of the group's SR key from a register. -/
  | srkeyLoG (x : Site) (w : Word64)
  /-- SRKEY_HI_G (R156). Set the high 32 bits of the group's SR key from a register. -/
  | srkeyHiG (x : Site) (w : Word64)
  /-- LDST_L_LD (R158). Zero-extending load from the core's local store. -/
  | ldstLLd (x : Site) (w : Word64)
  /-- LDST_L_LD_S (R158). Sign-extending load from the core's local store. -/
  | ldstLLdS (x : Site) (w : Word64)
  /-- LDST_L_ST (R158). Store to the core's local store. -/
  | ldstLSt (x : Site) (w : Word64)
  /-- LDST_G_LD (R158). Zero-extending global load through a context window, via L1 as CACHE selects. -/
  | ldstGLd (x : Site) (w : Word64)
  /-- LDST_G_LD_S (R158). Sign-extending global load through a context window. -/
  | ldstGLdS (x : Site) (w : Word64)
  /-- LDST_G_ST (R158). Global store through a context window, written through to the LLC. -/
  | ldstGSt (x : Site) (w : Word64)
  /-- ATOM_ADD (R158). Atomic integer add at the word's home, returning the old value. -/
  | atomAdd (x : Site) (w : Word64)
  /-- ATOM_FADD (R158). Atomic FP32 add at the word's home, returning the old value. -/
  | atomFadd (x : Site) (w : Word64)
  /-- ATOM_MIN_S (R158). Atomic signed minimum at the word's home. -/
  | atomMinS (x : Site) (w : Word64)
  /-- ATOM_MIN_U (R158). Atomic unsigned minimum at the word's home. -/
  | atomMinU (x : Site) (w : Word64)
  /-- ATOM_MAX_S (R158). Atomic signed maximum at the word's home. -/
  | atomMaxS (x : Site) (w : Word64)
  /-- ATOM_MAX_U (R158). Atomic unsigned maximum at the word's home. -/
  | atomMaxU (x : Site) (w : Word64)
  /-- ATOM_AND (R158). Atomic AND at the word's home. -/
  | atomAnd (x : Site) (w : Word64)
  /-- ATOM_OR (R158). Atomic OR at the word's home. -/
  | atomOr (x : Site) (w : Word64)
  /-- ATOM_XOR (R158). Atomic XOR at the word's home. -/
  | atomXor (x : Site) (w : Word64)
  /-- ATOM_EXCH (R158). Atomic exchange at the word's home. -/
  | atomExch (x : Site) (w : Word64)
  /-- ATOM_CAS (R158). Atomic compare-and-swap at the word's home. -/
  | atomCas (x : Site) (w : Word64)
  /-- LOCK_ACQ_L (R127). Attempt to acquire a lock word in the core's local store. -/
  | lockAcqL (x : Site) (w : Word64)
  /-- LOCK_ACQ_G (R127). Attempt to acquire a lock word served through an LLC. -/
  | lockAcqG (x : Site) (w : Word64)
  /-- LOCK_REL_L (R128). Release a local-store lock, handing it to a waiter or clearing it. -/
  | lockRelL (x : Site) (w : Word64)
  /-- LOCK_REL_G (R128). Release an LLC-served lock, handing it to a waiter or clearing it. -/
  | lockRelG (x : Site) (w : Word64)
  /-- LOCK_WAKE (R128). A waiting core receives the bank's wake message for a released lock. -/
  | lockWake (core : CoreId) (addr : Nat)
  /-- LOCK_RETRY (R128). A waiting core that the bank could not record retries after 256 of its handshakes. -/
  | lockRetry (core : CoreId) (addr : Nat)
  /-- FENCE_W (R133). Orders the thread's earlier write-throughs before its later memory instructions. -/
  | fenceW (x : Site) (w : Word64)
  /-- FENCE_A (R133). Invalidates every line of the core's L1. -/
  | fenceA (x : Site) (w : Word64)
  /-- FENCE_AW (R133). Performs FENCE.W and then FENCE.A. -/
  | fenceAw (x : Site) (w : Word64)
  /-- BRA (R161). Relative branch, with an optional join target, splitting the set by condition. -/
  | bra (x : Site) (w : Word64)
  /-- BRX (R161). Indirect branch that splits the set by target. -/
  | brx (x : Site) (w : Word64)
  /-- NOP (R161). Instruction with no effect. -/
  | nop (x : Site) (w : Word64)
  /-- EXIT (R161). The thread exits, releasing held locks and leaving barrier counts. -/
  | exit (x : Site) (w : Word64)
  /-- BAR_G (R120). Arrival at a group barrier, releasing it when every live thread has arrived. -/
  | barG (x : Site) (w : Word64)
  /-- BAR_T (R121). Arrival at a task barrier, possibly marking a segment boundary. -/
  | barT (x : Site) (w : Word64)
  /-- WAIT (R118). Blocks the executing threads until the named ticket completes. -/
  | wait (x : Site) (w : Word64)
  /-- PMC_READ (R524). Reads a core counter relative to its dispatch base, if user reads are allowed. -/
  | pmcRead (x : Site) (w : Word64)
  /-- MMA (R179). Issues a matrix product to the core's grid queue and writes a ticket. -/
  | mma (x : Site) (w : Word64)
  /-- ATTEND (R262). Issues an attention computation over a page list to the cluster's attention engine. -/
  | attend (x : Site) (w : Word64)
  /-- APPEND (R277). Issues a key/value append into a page record to the attention engine. -/
  | append (x : Site) (w : Word64)
  /-- XFER (R210). Issues a tensor box transfer between memory and local store. -/
  | xfer (x : Site) (w : Word64)
  /-- REDUCE (R166). Sends an in-cache reduction request per thread. -/
  | reduce (x : Site) (w : Word64)
  /-- PIN (R167). Pins the LLC lines of a range within set and class limits. -/
  | pin (x : Site) (w : Word64)
  /-- UNPIN (R167). Unpins the LLC lines of a range. -/
  | unpin (x : Site) (w : Word64)
  /-- GROUP_OVERDUE (R110). A ready group unselected for 256 consecutive slots becomes overdue. -/
  | groupOverdue (core : CoreId) (group : (Fin 16))
  /-- JOIN_TIMEOUT (R114). A set blocked at a join for 1,024 issue opportunities pops the join entry and proceeds. -/
  | joinTimeout (core : CoreId) (group : (Fin 16)) (thread : (Fin 32))
  /-- BARRIER_SPLIT (R123). The core detects that all live threads are blocked at mismatched barriers or a self-held lock. -/
  | barrierSplit (core : CoreId) (scope : BarScope)
  /-- LOAD_RESPONSE (R168). Data of a global load or atomic returns to the core and is written to registers. -/
  | loadResponse (core : CoreId)
  /-- WRITE_ACK (R133). An LLC acknowledges a write-through or REDUCE, possibly completing a fence. -/
  | writeAck (core : CoreId)
  /-- MMA_START (R184). The queued MMA at the head starts on the grid when its conditions hold. -/
  | mmaStart (core : CoreId)
  /-- MMA_LAST_PRODUCT (R185). Cell (63, 63) forms the MMA's last product; without DRAIN the ticket completes. -/
  | mmaLastProduct (read : CoreRead)
  /-- DRAIN_START (R186). A set with complete products starts draining when no other set drains. -/
  | drainStart (core : CoreId) (fault : (Option GridFault))
  /-- DRAIN_COMPLETE (R186). Local store acknowledges every drain write and the MMA ticket completes. -/
  | drainComplete (core : CoreId) (mismatch : Bool)
  /-- BURST_END (R196). The grid queue empties; the grid sends END and starts dummy operations. -/
  | burstEnd (unit : LoadUnit)
  /-- GRID_STOP (R197). 4 µs after END with no MMA, the power island answers STOP and the grid stops. -/
  | gridStop (unit : LoadUnit)
  /-- LOAD_NOTICE (R198). A grid or attention engine starting from a stop sends a load notice and the IVR pre-raises. -/
  | loadNotice (unit : LoadUnit)
  /-- LOAD_NOTICE_ACK (R198). The power island acknowledges the load notice and the grid may start fill. -/
  | loadNoticeAck (unit : LoadUnit)
  /-- PRE_RAISE_RETURN (R416). 2 µs after the burst starts, the IVR returns from its pre-raise to the setpoint. -/
  | preRaiseReturn (cluster : ClusterId)
  /-- XFER_START (R222). A queued XFER starts when fewer than 4 are in progress. -/
  | xferStart (core : CoreId)
  /-- XFER_COMPLETE (R222). All local-store bytes or memory writes of an XFER are done and its ticket completes. -/
  | xferComplete (read : CoreRead) (seq : Nat)
  /-- ATTN_QUANTUM (R260). The attention engine gives the next core in rotation a quantum of page slots or one APPEND. -/
  | attnQuantum (read : ClusterRead)
  /-- ATTEND_COMPLETE (R267). An ATTEND writes O, LSE and EPS and its ticket completes. -/
  | attendComplete (core : CoreId) (mismatch : Bool)
  /-- APPEND_WRITE_ACK (R281). One write phase of an APPEND is acknowledged and the next phase starts, or the ticket completes. -/
  | appendWriteAck (core : CoreId) (mismatch : Bool)
  /-- ATTN_ENGINE_FAULT (R290). An attention engine check mismatch replays its cores' ranks and starts a self-test. -/
  | attnEngineFault (cluster : ClusterId) (fault : GridFault)
  /-- ATTN_SELF_TEST_COMPLETE (R290). The engine's self-test ends, returning it to service or retiring the cluster. -/
  | attnSelfTestComplete (cluster : ClusterId) (pass : Bool)
  /-- LLC_ACCESS (R243). A request reaches a line's home half and is served in arrival order. -/
  | llcAccess (half : HalfId) (ecc : EccRes)
  /-- LLC_FILL_COMPLETE (R252). A fill from HBM is placed in a set with an available way. -/
  | llcFillComplete (line : Nat) (ecc : EccRes) (victim : EccRes)
  /-- REDUCTION_ENTRY_APPLIED (R250). A bank's reduction unit applies one queued entry and acknowledges a finished request. -/
  | reductionEntryApplied (half : HalfId) (read : BankRead)
  /-- MERGE_ENTRY_TIMEOUT (R307). A merge-buffer entry open for 64 bank handshakes is written by read-modify-write. -/
  | mergeEntryTimeout (half : HalfId) (group : (Fin 32)) (ecc : EccRes)
  /-- CORRECTED_REWRITE (R300). A corrected SRAM word or HBM sector is rewritten at the next idle handshake or via the write queue. -/
  | correctedRewrite (addr : Nat)
  /-- RESIDENT_REBUILD (R305). MEM rebuilds a poisoned sourced resident word from its source. -/
  | residentRebuild (addr : Nat)
  /-- ROW_SPARED (R312). An SRAM row repair copies the row into a spare and switches over. -/
  | rowSpared (half : HalfId) (bank : (Fin 256)) (row : MatRow) (pass : Bool)
  /-- COL_SPARED (R312). An SRAM column repair writes both columns, sweeps the mat and switches reads. -/
  | colSpared (half : HalfId) (bank : (Fin 256)) (mat : (Fin 16)) (bit : (Fin 576))
  /-- HBM_ROW_SPARED (R313). An HBM row is repaired by soft post-package repair. -/
  | hbmRowSpared (stack : (Fin 8)) (addr : Nat)
  /-- BUNDLE_PARITY_ERROR (R39). A receiver refuses a bundle transfer failing parity and the sender repeats it. -/
  | bundleParityError (tower : TowerId) (layer : (Fin 2)) (bundle : (Fin 12288))
  /-- CONTROL_COPY_DISAGREE (R39). Request or acknowledge copies disagree for 64 handshakes, starting a lane test. -/
  | controlCopyDisagree (tower : TowerId) (layer : (Fin 2)) (bundle : (Fin 12288))
  /-- BUNDLE_TEST_COMPLETE (R40). A lane test ends and moves the bundle down the repair ladder or counts a transient. -/
  | bundleTestComplete (tower : TowerId) (layer : (Fin 2)) (bundle : (Fin 12288)) (lanes : (List (Fin 39)))
  /-- REPAIR_PAUSE_START (R43). A pending repair pause starts once 1 ms has passed since the last one. -/
  | repairPauseStart
  /-- REPAIR_PAUSE_END (R40). A repair pause ends and the group's traffic resumes. -/
  | repairPauseEnd
  /-- BANK_WRITEBACK_COMPLETE (R47). The retired bank's dirty lines reach HBM and its sets are mapped away. -/
  | bankWritebackComplete (tower : TowerId) (bank : (Fin 512))
  /-- VBANK_RETIRED (R47). Resident contents are rebuilt, the relay ends and the retirement is logged. -/
  | vbankRetired (tower : TowerId) (bank : (Fin 512))
  /-- RECALIBRATION (R50). A tower processor recalibrates matched-delay margins at a band change or after 24 hours. -/
  | recalibration (tower : TowerId) (cause : (Fin 3)) (regions : (List (Fin 48 × Fin 16 × Nat × Fin 256)))
  /-- MARGIN_NARROW_APPLY (R50). A narrowed margin takes effect once the region has no handshake in flight. -/
  | marginNarrowApply (tower : TowerId) (region : (Fin 48))
  /-- MONITOR_SAMPLE (R65). Island 17 counts every monitor's rings every 50 µs and updates temperatures and the floor guard. -/
  | monitorSample (mons : (List (Fin 512 × Fin 512 × Fin 512))) (ioMons : (List (Fin 16 × Fin 512 × Fin 512))) (amps : (List (Fin 64 × Fin 4096))) (input : (Fin 4096)) (vin : (Fin 256))
  /-- SENSOR_FAILED (R434). A temperature ring deviating from its reference group for 1 ms is marked failed. -/
  | sensorFailed (monitor : (Fin 528))
  /-- SENSOR_SUSPECT (R437). Die A's reading stays 6 °C below the estimate for 5 ms and the die becomes SUSPECT. -/
  | sensorSuspect (tower : TowerId)
  /-- BAND_RISE_DELAYED (R440). 1 ms after the planning band rises on SUSPECT or BLIND, the band in force follows. -/
  | bandRiseDelayed (die : DieId)
  /-- BAND_FALL (R439). After 10 ms at least 2 °C below the band, the band in force falls and settings follow. -/
  | bandFall (die : DieId)
  /-- SETPOINT_SETTLED (R71). The IVR reports a new cluster setpoint settled and CHANGING clears. -/
  | setpointSettled (cluster : ClusterId)
  /-- IVR_PHASE_FAILED (R410). A phase out of share for 5 µs is disconnected and consequences apply by phases left. -/
  | ivrPhaseFailed (domain : (Fin 78)) (phase : (Fin 16))
  /-- PATH_CHECK (R413). Island 17 compares each domain's measured drop with its model every 10 µs. -/
  | pathCheck (domain : (Fin 78)) (drop : Nat) (expected : Nat)
  /-- PATH_STATE_CHANGE (R414). An excess persisting 100 µs moves a domain to PATH_DEGRADED, PATH_REDUCED or PATH_FAILED. -/
  | pathStateChange (domain : (Fin 78))
  /-- SENSE_ROUTE_FAILURE (R415). A sense route reads open or deviates, and the IVR follows the lower route. -/
  | senseRouteFailure (domain : (Fin 78)) (route : (Fin 2))
  /-- CONVERTER_FAILED (R409). A card converter fails; a second loss lowers the ceiling and sheds load. -/
  | converterFailed (unit : (Fin 4)) (plan : (List (List Nat)))
  /-- VVM_FAILED (R409). A vertical module fails; a second loss limits the tower's rail or shuts down. -/
  | vvmFailed (unit : (Fin 16)) (plan : (List (List Nat)))
  /-- DOMAIN_OVERCURRENT (R387). A domain's current limit holds for 10 µs and the domain is switched off. -/
  | domainOvercurrent (domain : (Fin 78))
  /-- INPUT_OVERVOLTAGE (R387). VIN36 reaches 42 V and all converters switch off within 10 µs. -/
  | inputOvervoltage
  /-- OVERVOLTAGE_RESTART (R387). After 100 ms below 40 V, the module starts as at a cold power-on. -/
  | overvoltageRestart (train : HostTrain)
  /-- UNDERVOLTAGE_LOCKOUT (R535). Input below 30 V for 100 µs switches off the converters and pulls PWR_OK low. -/
  | undervoltageLockout
  /-- UNDERVOLTAGE_RESTART (R535). After 100 ms at or above 31 V, the module starts as at a cold power-on. -/
  | undervoltageRestart (train : HostTrain)
  /-- POWER_APPLIED (R536). VIN36 is applied; the module charges its input, starts converters and releases PWR_OK. -/
  | powerApplied (train : HostTrain)
  /-- INRUSH_GRANT (R417). PWR grants one cluster inrush when the tower's plan leaves room. -/
  | inrushGrant (tower : TowerId)
  /-- CLUSTER_READY (R417). 60 µs after its grant, a powered-on cluster is ready. -/
  | clusterReady (cluster : ClusterId)
  /-- LIGHT_IDLE_ENTRY (R499). After 1 ms idle, or under curtailment or lowering, island 17 powers a cluster down to LI. -/
  | lightIdleEntry (cluster : ClusterId)
  /-- TARGET_EFFECTIVE (R423). A POWER_TARGET reaches its effective tick and its ceiling takes effect. -/
  | targetEffective (plan : (List (List Nat)))
  /-- CURTAIL_ENTER (R425). CURTAIL_N held low for 10 µs is counted as asserted and curtailment starts. -/
  | curtailEnter (plan : (List (List Nat)))
  /-- CURTAIL_EXIT (R425). CURTAIL_N held high for 100 µs is counted as deasserted and the ceiling rises under slew. -/
  | curtailExit (plan : (List (List Nat)))
  /-- POWER_STATE_ENTRY (R500). At the planned tick, or earlier when no work remains, the module enters DI or SB. -/
  | powerStateEntry
  /-- CLASS_SAMPLE (R373). Every 100 ticks the admission island samples each class for MISS. -/
  | classSample
  /-- EPOCH_END (R373). At each 10,000-tick epoch, missing epochs are judged and class derates adjusted. -/
  | epochEnd
  /-- ARBITER_GRANT (R368). An arbiter grants one request by message class, level and master. -/
  | arbiterGrant (arbiter : ArbiterId) (credits : (Fin 16)) (arrivals : (List Arrival))
  /-- MARK (R372). A master receives a mark and halves the named classes' rates. -/
  | mark (arbiter : ArbiterId)
  /-- RATE_RECOVERY (R372). Every 1,024 master handshakes without a mark, a class's rate rises by RATE_MAX ÷ 8. -/
  | rateRecovery (master : MasterId) (cls : ClassId)
  /-- LATENCY_WINDOW_EMPTY (R366). 1,024 slots without grant or waiting request empty a class's window. -/
  | latencyWindowEmpty (arbiter : ArbiterId) (cls : ClassId)
  /-- DOORBELL (R346). A 64-bit submission doorbell write is checked and queues descriptors for decision. -/
  | doorbell (word : Word64)
  /-- COMPLETION_HEAD_DOORBELL (R358). The host reports a new CQ head and spilled entries move to the ring. -/
  | completionHeadDoorbell (word : Word64)
  /-- REMOTE_DOORBELL (R490). A doorbell written for another module is forwarded by the lead as a DOORBELL message. -/
  | remoteDoorbell (module : (Fin 64)) (head : Bool) (word : Word64)
  /-- ADMISSION_DECISION (R351). The admission engine decides one descriptor: refuses it or accepts with a reservation. -/
  | admissionDecision (stall : Bool)
  /-- DESCRIPTOR_READ_COMPLETE (R348). The host's answer to a descriptor read arrives and the decision proceeds. -/
  | descriptorReadComplete (bytes : (List Byte)) (poison : Bool)
  /-- DESCRIPTOR_READ_TIMEOUT (R335). A descriptor read times out and ends as BAD_DESCRIPTOR. -/
  | descriptorReadTimeout
  /-- TASK_DISPATCH (R353). A task is dispatched once all its reserved cores have ended earlier reservations. -/
  | taskDispatch (task : Nat)
  /-- TASK_BOUNDARY (R136). A task ends on a core: tickets, drains, locks, L1 and registers are cleared. -/
  | taskBoundary (core : CoreId) (errs : (List (Nat × Flaw))) (ecc : EccRes)
  /-- TASK_END (R355). A task ends on every core and its progress area and completion entry are written. -/
  | taskEnd (task : Nat) (stall : Bool)
  /-- COMPLETION_STALL_TIMEOUT (R377). A completion unable to leave for 2 µs because of the host link is spilled. -/
  | completionStallTimeout (queue : (Fin 1048576))
  /-- SPILL_MOVE (R377). When the host link accepts posted writes again, spilled entries move to the ring. -/
  | spillMove
  /-- METER_EXCEEDED (R138). A meter exceeds its rank budget and the task stops OVERRUN. -/
  | meterExceeded (core : CoreId) (elapsed : Nat)
  /-- SEGMENT_LIMIT_EXCEEDED (R173). A segment meter exceeds SEGMENT and the task stops OVERRUN. -/
  | segmentLimitExceeded (core : CoreId) (elapsed : Nat)
  /-- RERUN (R361). An IDEMPOTENT task that would end PARTIAL is put to admission once more. -/
  | rerun (task : Nat)
  /-- CORE_FAULT (R139). A fault of the core itself starts a replay of its rank from the last checkpoint. -/
  | coreFault (core : CoreId)
  /-- REPLAY_EVENT (R452). The ranks of one task affected by a fault are stopped, fenced and moved. -/
  | replayEvent (task : Nat) (lost : (List Nat))
  /-- FENCE_COMPLETE (R451). Every request of a fenced core has been answered and its credits returned. -/
  | fenceComplete (core : CoreId)
  /-- RESTORE_COMPLETE (R452). A moved rank's state is restored on its target and the rank resumes. -/
  | restoreComplete (core : CoreId)
  /-- CHECKPOINT_WRITE_COMPLETE (R450). A checkpoint write finishes and the slot becomes the rank's checkpoint. -/
  | checkpointWriteComplete (core : CoreId)
  /-- RESERVATION_MOVE (R551). An undispatched reservation on a core leaving dispatch passes to a spare or target core. -/
  | reservationMove (task : Nat) (rank : Nat)
  /-- GRID_SELF_TEST_COMPLETE (R206). A grid self-test ends, returning, sparing or retiring the core. -/
  | gridSelfTestComplete (core : CoreId) (rows : (List (Fin 65))) (cols : (List (Fin 65))) (other : Bool)
  /-- GRID_SPARED (R206). A spare row or column switch completes after 10 µs and the core returns to service. -/
  | gridSpared (core : CoreId)
  /-- CLUSTER_RESET (R496). The tower processor resets an idle cluster before returning it to service or the cover pool. -/
  | clusterReset (cluster : ClusterId)
  /-- CLUSTER_RESET_COMPLETE (R454). A cluster reset finishes; a cover cluster clears HOSTING and sets COVER. -/
  | clusterResetComplete (cluster : ClusterId)
  /-- WATCHDOG_TRIP (R383). A processor's watchdog expires without a kick. -/
  | watchdogTrip (proc : ProcId) (detail : Word64) (stack : Nat)
  /-- PROC_RESTART_COUNTED (R384). A counted restart saves a dump and restarts the processor from its active slot. -/
  | procRestartCounted (proc : ProcId) (cause : RestartCause) (detail : Word64) (stack : Nat)
  /-- PROC_RUNNING (R386). A restarted processor runs again and serves commands accepted meanwhile. -/
  | procRunning (proc : ProcId) (pass : Bool) (other : Bool) (key : Bool)
  /-- SELF_CHECK_PASSED (R401). A newly activated image reports its self-check passed and the slot pointer is written. -/
  | selfCheckPassed (proc : ProcId)
  /-- ACTIVATION_FAILED (R403). No self-check within 5 s restarts the processor from its old slot. -/
  | activationFailed (proc : ProcId)
  /-- WRITE_WINDOW_OPEN (R445). The write window opens and waiting flash, fuse or repair writes proceed. -/
  | writeWindowOpen (resource : (Fin 4))
  /-- JOB_END (R390). A mailbox job ends with its final status. -/
  | jobEnd (job : Word) (failed : Bool) (detail : Word)
  /-- JOB_EXPIRY (R390). An ended job unread for 10 s is discarded. -/
  | jobExpiry (job : Word)
  /-- IDENTIFY (R396). Returns the identity and capability block. -/
  | identify (mbx : MbxId) (irq : Bool) (req : (List Byte))
  /-- GET_VERSION (R396). Returns interface and firmware slot versions. -/
  | getVersion (mbx : MbxId) (irq : Bool) (req : (List Byte))
  /-- OPEN_SESSION (R393). Opens a session at the lower common minor version or answers VERSION_MISMATCH. -/
  | openSession (mbx : MbxId) (irq : Bool) (req : (List Byte))
  /-- CLOSE_SESSION (R393). Ends the mailbox's session and releases its locks. -/
  | closeSession (mbx : MbxId) (irq : Bool) (req : (List Byte))
  /-- JOB_STATUS (R390). Returns the state and answer of a job. -/
  | jobStatus (mbx : MbxId) (irq : Bool) (req : (List Byte)) (progress : (Fin 1001))
  /-- LOCK (R395). Sets session-lock bits for register blocks. -/
  | lock (mbx : MbxId) (irq : Bool) (req : (List Byte))
  /-- UNLOCK (R395). Clears session-lock bits owned by the session. -/
  | unlock (mbx : MbxId) (irq : Bool) (req : (List Byte))
  /-- REGISTER_PROGRAM (R174). Checks a program image and registers it, returning a handle. -/
  | registerProgram (mbx : MbxId) (irq : Bool) (req : (List Byte))
  /-- WITHDRAW_PROGRAM (R396). Withdraws a program handle after its last accepted task. -/
  | withdrawProgram (mbx : MbxId) (irq : Bool) (req : (List Byte))
  /-- LOAD_CONTEXT (R231). Loads a model context's window table after checks. -/
  | loadContext (mbx : MbxId) (irq : Bool) (req : (List Byte))
  /-- UNLOAD_CONTEXT (R232). Unloads a model context after its accepted tasks complete. -/
  | unloadContext (mbx : MbxId) (irq : Bool) (req : (List Byte))
  /-- LOAD_GRANULES (R237). Loads granule table entries and optionally reloads them from sources. -/
  | loadGranules (mbx : MbxId) (irq : Bool) (req : (List Byte))
  /-- QUEUE_CREATE (R342). Creates and enables a queue from a context. -/
  | queueCreate (mbx : MbxId) (irq : Bool) (req : (List Byte))
  /-- QUEUE_MODIFY (R396). Modifies a queue's vector, class mask and rings. -/
  | queueModify (mbx : MbxId) (irq : Bool) (req : (List Byte))
  /-- QUEUE_RESET (R396). Resets a queue to creation values after its tasks complete. -/
  | queueReset (mbx : MbxId) (irq : Bool) (req : (List Byte))
  /-- QUEUE_DELETE (R396). Disables a queue after its tasks complete. -/
  | queueDelete (mbx : MbxId) (irq : Bool) (req : (List Byte))
  /-- QUEUE_QUERY (R396). Returns a queue's context as it stands. -/
  | queueQuery (mbx : MbxId) (irq : Bool) (req : (List Byte))
  /-- SCRUB (R309). Scrubs a range as a job and returns the summary. -/
  | scrub (mbx : MbxId) (irq : Bool) (req : (List Byte))
  /-- COMPUTE_RESET (R497). Resets both towers, ending their tasks FAULTED, and retrains them. -/
  | computeReset (mbx : MbxId) (irq : Bool) (req : (List Byte))
  /-- TOWER_RESET (R497). Resets one tower, ending its tasks FAULTED, and retrains it. -/
  | towerReset (mbx : MbxId) (irq : Bool) (req : (List Byte))
  /-- TOWER_READY (R497). A compute or tower reset completes and admission plans the towers again. -/
  | towerReady (tower : TowerId) (train : Training) (suspect : Bool)
  /-- MODULE_RESET (R496). Resets the whole module 1 ms after answering. -/
  | moduleReset (mbx : MbxId) (irq : Bool) (req : (List Byte))
  /-- POWER_STATE_RUN (R500). Starts exit from DI or SB back to run. -/
  | powerStateRun (mbx : MbxId) (irq : Bool) (rest : (List Byte))
  /-- POWER_STATE_DI (R500). Plans entry into deep idle H after acceptance. -/
  | powerStateDi (mbx : MbxId) (irq : Bool) (rest : (List Byte))
  /-- POWER_STATE_SB (R500). Plans entry into standby H after acceptance. -/
  | powerStateSb (mbx : MbxId) (irq : Bool) (rest : (List Byte))
  /-- POWER_TARGET (R424). Sets a future power ceiling with a notice and reports the committed floor. -/
  | powerTarget (mbx : MbxId) (irq : Bool) (req : (List Byte)) (plan : (List (List Nat)))
  /-- POWER_QUERY (R396). Returns the tick, ceiling, committed floor and profile. -/
  | powerQuery (mbx : MbxId) (irq : Bool) (req : (List Byte))
  /-- LICENCE_INSTALL (R512). Gathers licence chunks and installs a verified licence. -/
  | licenceInstall (mbx : MbxId) (irq : Bool) (req : (List Byte))
  /-- LICENCE_LIST (R513). Returns a record per installed licence. -/
  | licenceList (mbx : MbxId) (irq : Bool) (req : (List Byte))
  /-- ATTEST (R514). Builds and signs an attestation report, or returns part of it by offset. -/
  | attest (mbx : MbxId) (irq : Bool) (req : (List Byte))
  /-- DUMP_READ (R396). Returns bytes of a processor's crash dump. -/
  | dumpRead (mbx : MbxId) (irq : Bool) (req : (List Byte))
  /-- DUMP_CLEAR (R404). Clears a processor's crash dump. -/
  | dumpClear (mbx : MbxId) (irq : Bool) (req : (List Byte))
  /-- PROC_RESTART (R396). Restarts a processor, optionally from the other slot, clearing its counted restarts. -/
  | procRestart (mbx : MbxId) (irq : Bool) (req : (List Byte))
  /-- UPDATE_BEGIN (R401). Erases the inactive slot of a processor as a job. -/
  | updateBegin (mbx : MbxId) (irq : Bool) (req : (List Byte))
  /-- UPDATE_WRITE (R401). Writes image data into the inactive slot. -/
  | updateWrite (mbx : MbxId) (irq : Bool) (req : (List Byte))
  /-- UPDATE_VERIFY (R400). Verifies the staged image's header, digest, SVN and signature. -/
  | updateVerify (mbx : MbxId) (irq : Bool) (req : (List Byte))
  /-- UPDATE_ACTIVATE (R401). Activates a verified slot with handoff, restart and self-check as a job. -/
  | updateActivate (mbx : MbxId) (irq : Bool) (req : (List Byte))
  /-- UPDATE_ABORT (R396). Marks the staged slot empty. -/
  | updateAbort (mbx : MbxId) (irq : Bool) (req : (List Byte))
  /-- TARGET_UNREACHABLE (R492). A forwarded mailbox command's target stays unreachable for 10 ms and the command ends. -/
  | targetUnreachable (mbx : (Fin 16))
  /-- REGISTER_WRITE (R6). A write to a register without behaviour of its own, applied by access codes and locks. -/
  | registerWrite (iface : Iface) (off : Nat) (value : Word)
  /-- ADM_TICK_LO_READ (R63). A read of the tick counter's low word latches the high word for the interface. -/
  | admTickLoRead (iface : Iface)
  /-- PWR_PTICK_LO_READ (R432). A read latches the profile registers from one computation for the interface. -/
  | pwrPtickLoRead (iface : Iface)
  /-- LLC_RESCFG_WRITE (R257). A write starts re-dividing LLC and resident ways, or is dropped. -/
  | llcRescfgWrite (iface : Iface) (value : Word)
  /-- RESCFG_APPLIED (R257). A resident-way change completes and APPLYING clears. -/
  | rescfgApplied
  /-- LLC_PLACE_WRITE (R242). A placement entry write writes back, unpins and applies the new placement, or is dropped. -/
  | llcPlaceWrite (iface : Iface) (e : (Fin 16)) (attr : Bool) (value : Word)
  /-- ECC_RGN_RNG_WRITE (R297). A region range write is held until the next attribute write of the entry. -/
  | eccRgnRngWrite (iface : Iface) (e : (Fin 64)) (value : Word)
  /-- ECC_RGN_ATTR_WRITE (R297). A region attribute write starts re-encoding the affected ranges, or is dropped. -/
  | eccRgnAttrWrite (iface : Iface) (e : (Fin 64)) (value : Word)
  /-- REGION_APPLIED (R297). A region code change completes and APPLYING clears. -/
  | regionApplied (bad : (List Nat))
  /-- ECC_CCLR_WRITE (R317). Clears the error counters of the selected ECC units. -/
  | eccCclrWrite (value : Word)
  /-- ADM_CLMASK_WRITE (R363). A class cluster-mask write is applied or dropped by ownership checks. -/
  | admClmaskWrite (iface : Iface) (cls : ClassId) (hi : Bool) (value : Word)
  /-- ADM_CCFG_WRITE (R363). A class configuration write enables the class or sets its limit, or is dropped. -/
  | admCcfgWrite (iface : Iface) (cls : ClassId) (value : Word)
  /-- ADM_COVER_WRITE (R464). A cover-pool write is applied or dropped. -/
  | admCoverWrite (iface : Iface) (hi : Bool) (value : Word)
  /-- BIAS_TO_HOST (R330). A bias command writes back the range and sets host bias, or is refused. -/
  | biasToHost (count : (Fin 262144))
  /-- BIAS_TO_DEVICE (R330). A bias command sets device bias for the range. -/
  | biasToDevice (count : (Fin 262144))
  /-- BIAS_COMMAND_COMPLETE (R330). A bias command ends, setting DONE and RESULT. -/
  | biasCommandComplete
  /-- RETRAIN (R481). Writing RETRAIN retrains a Lupin link and ends quarantine. -/
  | retrain (iface : Iface) (link : (Fin 8))
  /-- LINK_DISABLE (R494). Setting DISABLE holds a Lupin link down and routes avoid it. -/
  | linkDisable (iface : Iface) (link : (Fin 8)) (on : Bool)
  /-- MBX_DSTAT_CLEAR (R404). Writing 1 to a HELD bit clears that processor's dump. -/
  | mbxDstatClear (value : Word)
  /-- FREEZE (R523). Writing FREEZE stops or restarts every counter group at one instant. -/
  | freeze (on : Bool) (occs : (List PmcOcc))
  /-- PMC_RINGCFG_WRITE (R526). Sets the dump ring size and resets head, tail and SEQ, or is dropped while dumping. -/
  | pmcRingcfgWrite (iface : Iface) (value : Word)
  /-- PMC_COUNTER_HI_WRITE (R518). A counter HI write is held for the next LO write. -/
  | pmcCounterHiWrite (off : Nat) (value : Word)
  /-- PMC_COUNTER_LO_WRITE (R518). A counter LO write applies the held HI as one 48-bit update. -/
  | pmcCounterLoWrite (off : Nat) (value : Word)
  /-- PMC_COUNTER_LO_READ (R518). A counter LO read latches HI for the interface. -/
  | pmcCounterLoRead (iface : Iface) (off : Nat) (occs : (List PmcOcc))
  /-- DUMP_INTERVAL (R528). Each interval the counter unit latches the selected groups and writes snapshots. -/
  | dumpInterval (occs : (List PmcOcc)) (late : (List (Fin 4 × Nat)))
  /-- BANDWIDTH_WINDOW_END (R522). At each window end, ports latch derived bandwidth. -/
  | bandwidthWindowEnd (occs : (List PmcOcc))
  /-- COUNTER_WRAP (R529). A core counter with OVF_INT wraps and takes a sample record. -/
  | counterWrap (core : CoreId) (m : (Fin 8)) (group : (Fin 16)) (pc : (Option Word)) (skid : (Fin 9)) (spaced : Bool)
  /-- BAR2_READ (R324). A host read through BAR2 is served at the target's home or aborted. -/
  | bar2Read (off : (Fin 1073741824)) (n : Nat) (ecc : EccRes)
  /-- BAR2_WRITE (R324). A host write through BAR2 is served at the home or dropped. -/
  | bar2Write (off : (Fin 1073741824)) (data : (List Byte)) (poison : Bool)
  /-- CXL_MEM_READ (R327). A host CXL.mem read is served at the line's home under bias rules. -/
  | cxlMemRead (addr : Nat) (n : Nat) (ecc : EccRes)
  /-- CXL_MEM_WRITE (R327). A host CXL.mem write is served at the line's home or dropped. -/
  | cxlMemWrite (addr : Nat) (data : (List Byte)) (poison : Bool)
  /-- HOST_REQUEST_ERROR (R333). Host traffic the module cannot serve is answered with an error and logged. -/
  | hostRequestError (kind : HostErr)
  /-- CONFIG_REQUEST (R336). A configuration request is answered with retry status or completed. -/
  | configRequest (req : CfgReq) (retry : Bool)
  /-- VIRAL (R334). Viral from the host poisons CXL.mem reads and drops writes until module reset. -/
  | viral
  /-- MSIX_UNMASK (R332). A vector's mask clears and one message is sent for its pending bit. -/
  | msixUnmask (vector : (Fin 2048))
  /-- PERST_ASSERT (R496). PERST_N asserted starts a module reset; tasks end without completions. -/
  | perstAssert
  /-- PERST_DEASSERT (R502). PERST_N deasserted starts bring-up toward readiness. -/
  | perstDeassert (modId : (Fin 64)) (train : HostTrain)
  /-- READY (R502). SUP records READY_TICK, sets READY and admission opens. -/
  | ready (boot : BringUp)
  /-- HOT_RESET (R337). A hot reset or link disable causes a module reset. -/
  | hotReset (linkDisable : Bool) (train : HostTrain)
  /-- CXL_RESET (R337). A CXL Reset through the DVSEC causes a compute reset. -/
  | cxlReset (memClear : Bool)
  /-- D3HOT (R337). A transition into or out of D3hot causes no internal change. -/
  | d3hot (enter : Bool)
  /-- FRAME_RECEIVED (R475). A Lupin frame is checked, acknowledged or NAKed, and its credits and flits taken. -/
  | frameReceived (link : (Fin 8)) (fseq : (Fin 4096)) (ack : (Fin 4096)) (hold : Bool) (good : Bool) (flits : (List (Fin 4 × Fin 21))) (crClass : (Fin 4)) (crCount : (Fin 1024))
  /-- NAK (R475). A NAK makes the sender resend from the NAKed frame. -/
  | nak (link : (Fin 8)) (ack : (Fin 4096))
  /-- RD (R474). A remote read is served at the home and answered with RDRESP. -/
  | rd (link : (Fin 8)) (msg : LMsg) (flaw : (Fin 8)) (ecc : EccRes)
  /-- WR (R474). A remote write is served at the home and acknowledged. -/
  | wr (link : (Fin 8)) (msg : LMsg) (flaw : (Fin 8))
  /-- ATOM (R474). A remote atomic is served at the home and answered with ATOMRESP. -/
  | atom (link : (Fin 8)) (msg : LMsg) (flaw : (Fin 8)) (ecc : EccRes)
  /-- LUPIN_LOCK (R474). A remote lock acquire or release is served at the home. -/
  | lupinLock (link : (Fin 8)) (msg : LMsg) (flaw : (Fin 8)) (ecc : EccRes)
  /-- LUPIN_PIN (R474). A remote PIN or UNPIN is served and acknowledged. -/
  | lupinPin (link : (Fin 8)) (msg : LMsg) (flaw : (Fin 8))
  /-- RED (R474). A remote reduction entry is queued at the home bank. -/
  | red (link : (Fin 8)) (msg : LMsg) (flaw : (Fin 8))
  /-- RDRESP (R474). Read data returns to the requester. -/
  | rdresp (link : (Fin 8)) (msg : LMsg) (flaw : (Fin 8))
  /-- ACK (R474). A write, reduction, pin or doorbell acknowledgement returns. -/
  | ack (link : (Fin 8)) (msg : LMsg) (flaw : (Fin 8))
  /-- ATOMRESP (R474). An atomic or lock answer returns. -/
  | atomresp (link : (Fin 8)) (msg : LMsg) (flaw : (Fin 8))
  /-- NACK (R480). A NACK with a reason returns for a dropped message. -/
  | nack (link : (Fin 8)) (msg : LMsg) (flaw : (Fin 8))
  /-- LUPIN_DOORBELL (R490). A forwarded doorbell takes effect at the target's admission island. -/
  | lupinDoorbell (link : (Fin 8)) (msg : LMsg) (flaw : (Fin 8))
  /-- HOSTRD (R490). The lead reads host memory for a remote queue's ring. -/
  | hostrd (link : (Fin 8)) (msg : LMsg) (flaw : (Fin 8)) (data : (List Byte))
  /-- HOSTWR (R490). The lead writes host memory for a remote queue's ring. -/
  | hostwr (link : (Fin 8)) (msg : LMsg) (flaw : (Fin 8))
  /-- LUPIN_MSIX (R490). The lead sends an MSI-X message for a remote queue. -/
  | lupinMsix (link : (Fin 8)) (msg : LMsg) (flaw : (Fin 8))
  /-- MGMT (R474). A management message carries mailbox forwarding, routes or MMIO access. -/
  | mgmt (link : (Fin 8)) (msg : LMsg) (flaw : (Fin 8))
  /-- MGMTRESP (R474). A management answer returns. -/
  | mgmtresp (link : (Fin 8)) (msg : LMsg) (flaw : (Fin 8))
  /-- LINK_TRAINING (R477). LNK trains a licensed Lupin link through sideband, lock, deskew and admission. -/
  | linkTraining (link : (Fin 8)) (peer : (Fin 64)) (fa : Bool) (lanes : (Fin 16)) (slow : Bool)
  /-- LUPIN_LINK_UP (R477). A trained link joins the next route epoch. -/
  | lupinLinkUp (link : (Fin 8)) (present : (List (Fin 64))) (tables : (List (Fin 64 × List (Fin 64 × Fin 9 × Fin 16))))
  /-- LUPIN_LANE_LOST (R479). A lane losing lock or exceeding the error rate is dropped at the next frame boundary. -/
  | lupinLaneLost (link : (Fin 8)) (lane : (Fin 4))
  /-- LUPIN_LINK_DOWN (R479). A link goes down and both ends switch to its failover table. -/
  | lupinLinkDown (link : (Fin 8)) (absent : Bool)
  /-- LINKDOWN_NOTICE (R486). A member receives a flooded LINKDOWN notice and switches to the failover table. -/
  | linkdownNotice (link : (Fin 8)) (module : (Fin 64)) (failed : (Fin 9))
  /-- FAILOVER_TABLES (R486). The lead computes and sends the next set of failover tables. -/
  | failoverTables (tables : (List (Fin 1024 × Fin 64 × List (Fin 64 × Fin 9 × Fin 16))))
  /-- REMOTE_TIMEOUT (R489). A remote response does not arrive within 1 ms and the rank replays. -/
  | remoteTimeout (module : (Fin 64)) (tag : (Fin 65536))
  /-- I3C_PRIVATE_WRITE (R398). A sideband private write sets an offset and writes mirror space. -/
  | i3cPrivateWrite (off : (Fin 65536)) (data : (List Byte))
  /-- I3C_PRIVATE_READ (R398). A sideband private read returns bytes from the current offset. -/
  | i3cPrivateRead (n : Nat)
  /-- SMBUS_BLOCK_WRITE (R398). An SMBus block write with code 0x01 writes mirror space. -/
  | smbusBlockWrite (off : (Fin 65536)) (data : (List Byte))
  /-- SMBUS_BLOCK_READ (R398). An SMBus block read with code 0x02 returns 32 bytes. -/
  | smbusBlockRead
  /-- ENTDAA (R539). The target accepts a dynamic address and enters I3C mode. -/
  | entdaa (addr : (Fin 128)) (v33 : Bool)
  /-- RSTDAA (R539). The target returns to SMBus mode. -/
  | rstdaa
  /-- JTAG_INSTRUCTION (R515). A JTAG instruction is executed or ignored by licence and reset state. -/
  | jtagInstruction (ins : JtagIns)
  /-- UART_INPUT (R515). UART input is used or ignored by the DEBUG licence, and first use is measured. -/
  | uartInput (data : (List Byte))
  /-- HOST_SNOOP (R328). The host snoops a host-bias line that the module holds in its 64 KiB I/O-die buffer, and the module answers it. -/
  | hostSnoop (line : Nat)
  /-- CXL_CACHE_RESPONSE (R328). The host answers a RdShared or RdOwn for a host-bias line, and the waiting device access is then served at the home. -/
  | cxlCacheResponse (line : Nat) (data : (List Byte)) (ecc : EccRes)
  /-- HDM_DECODER_COMMIT (R327). System software commits an HDM decoder, which then maps its range and locks when Lock On Commit is set. -/
  | hdmDecoderCommit (decoder : (Fin 2)) (base : Nat) (size : Nat) (lock : Bool)
  /-- SETDASA (R539). The sideband target accepts a dynamic address through SETDASA from its static address and enters I3C mode. -/
  | setdasa (static : (Fin 128)) (addr : (Fin 128)) (v33 : Bool)
  /-- LINK_SIDEBAND_REQUEST (R541). A Lupin partner acting as controller reads this module's link sideband target at address 0x50 for its module ID and rate capability. -/
  | linkSidebandRequest (link : (Fin 8))
deriving DecidableEq, Repr

end Sys2Proof
end

