-- ==== Sys2Proof/Decode.lean ====
section
/-! DEFINITION. Commands from table words. -/

namespace Sys2Proof

/-- The command that a word spells by the opcode table's bits. No row of the table gives bits, so no word spells a
command. -/
def decodeTableWord (_nbits _w : Nat) : Option Instr := none

end Sys2Proof
end

