-- ==== Sys2Proof/Config.lean ====
section
/-! DEFINITION. What the manual leaves open: free values, constants without a body, so that no proof can see what they are. -/

namespace Sys2Proof.Config

/-- The function value of the special functions (RCP 0, RSQRT 1, EXP2 3, LOG2 4, TANH 5) before the manual's
bound is applied: R156 fixes each only to within 2 units in the last place. UNVERIFIED, free value (log 3). -/
opaque fspecBits (op : Nat) (x : Word) : Word

/-- The code written by a conversion to UINT32 or to an MXINT8 element whose input has no place in the
destination: R99 states no result for these destinations. Free value (log 4). -/
opaque cvtOpen (dst : Nat) (x : Word) : Word

/-- Which NaN code the canonical NaN of FP8 E5M2 is: R99 names it without its bits. Free value (log 5). -/
opaque e5m2NaN : Nat

/-- A fresh byte for the `n`-th time a value is unspecified while the module goes on (R223, R233, R242, R276):
applied to the counter `State.fresh`. Free value (log 6). -/
opaque freeByte (n : Nat) : Byte

/-- The signature answer of ML-DSA-65 verification (FIPS 204, R400, R512): whether the signature bytes are good
for the message bytes under the key that the use selects. Free value (log 7). -/
opaque mldsaVerify (use : Nat) (msg sig : List Nat) : Bool

/-- A byte of the signature that the module makes with its own key, hedged, over the given bytes (R505, R514): `n` counts the
signatures made. Free value (log 7). -/
opaque mldsaSign (n : Nat) (msg : List Nat) (i : Nat) : Byte

/-- A number that the module gives to a session, a job or a program handle (R390, R393, R396): the manual fixes only that they
tell things apart. Free value (log 24). -/
opaque openId (n : Nat) : Word

/-- The program handle of the built-in scrub image (R308, R508). Free value (log 29). -/
opaque scrubHandle : Word

/-- The fixed cost record of the built-in scrub image for 64 MiB: COMPUTE, LLC, HBM, VERT and ATTN, and its TILES (R308). Free value (log 29). -/
opaque scrubCost (component : Nat) : Nat

/-- A byte of flash as shipped (R399): the images, their headers and the certificates. Free value (log 9). -/
opaque flashByte (addr : Nat) : Byte

/-- A byte of the fused items of R504: 0 identity key hash, 1 root key hash, 2 to 5 licensing key hashes, 6 revision. Free value
(log 9). -/
opaque fuseByte (item i : Nat) : Byte

/-- A byte of the digest of every fuse bank (R510), `n` distinguishing states of the fuses. Free value (log 9). -/
opaque fuseDigest (i : Nat) : Byte

/-- A byte of a crash dump that the manual leaves to firmware: registers, firmware log and stack (R404). `n` tells dumps apart.
Free value (log 25). -/
opaque dumpByte (n off : Nat) : Byte

/-- The register exponent L of a microscaled tile in which every block is zero in some operand, so that no combined scale
fixes it (R81, R84). Free value (log 8). -/
opaque zeroTileL (n : Nat) : Int

/-- The estimator's coefficients of a cluster of die A, fused at test (R436, R504): 0 wb in 1/65,536, 1 ka and 2 kb in 2^−32 half degrees
per 10 µW. Free value (log 104). -/
opaque estCoef (cluster i : Nat) : BitVec 16

/-- The reading tc of R436 where none of a cluster's four cache monitors is valid: R436 states none. Free value (log 104). -/
opaque freeTemp (n : Nat) : BitVec 9

/-- What FMA of FALUI adds for the `n`-th use: R156 gives the operation, and format B no third source. Free value (log 111). -/
opaque fmaAddend (n : Nat) : Word

end Sys2Proof.Config
end

