-- ==== Sys2Proof/Machine/State.lean ====
section
/-! DEFINITION. The state of the FD-6420 as plain data: every piece the manual names, and the queue of commands. -/

namespace Sys2Proof.Machine

/-- A sparse table: (key, value) pairs, keys strictly rising, no pair at the table's default value. -/
abbrev Tab (V : Type) := List (Nat × V)

/-! ## A core and what runs on it (chapters 05 to 08) -/

/-- An entry of a thread's held-lock list (R107, R126). -/
structure Held where
  glob : Bool
  addr : Nat
deriving DecidableEq, Repr

/-- Why a thread is blocked (R109, R114, R118, R120, R121, R127, R133); a join by the height of its entry in the stack. -/
inductive Block where
  | no
  | barG (id : Nat)
  | barT (id : Nat) (seg : Bool)
  | lock (glob : Bool) (addr pdst : Nat)
  | ticket (t : Nat)
  | join (opp depth : Nat)
  | fence (inval : Bool)
deriving DecidableEq, Repr

/-- A write to a register that a request in flight will make (R109: "write pending"). -/
structure Pend where
  req  : Nat
  regs : List Nat
  pred : Option Nat
  pc   : Nat
deriving DecidableEq, Repr

/-- One thread (R107), its write-throughs not yet acknowledged (R133) and its replay filter (R456). -/
structure Thread where
  live   : Bool
  gpr    : Tab Word
  preds  : BitVec 8
  pc     : Nat
  srCtr  : Word
  held   : List Held
  block  : Block
  pend   : List Pend
  mems   : List (Nat × Nat)      -- requests of its loads and ATOMs not yet executed, and their PCs (R125, R170)
  writes : Nat
  redSent : Nat
  redSkip : Nat
deriving DecidableEq, Repr

/-- An issue-set record: member mask and last-issue stamp (R107, R111); its PC is its members' PC. -/
structure ISet where
  mask  : Word
  stamp : Nat
deriving DecidableEq, Repr

/-- A join-stack entry (R114). -/
structure JoinE where
  pc   : Nat
  mask : Word
deriving DecidableEq, Repr

/-- One resident thread group (R107). Index 0 of the core's table is the oldest (R108). -/
structure Group where
  launch  : Nat
  urf     : Tab Word
  upend   : List Pend
  srKey   : Word64
  threads : Tab Thread
  sets    : List ISet
  joins   : List JoinE
  genG    : BitVec 16
  unsel   : Nat
  overdue : Bool
deriving DecidableEq, Repr

/-- The five meters (R138, R172). -/
structure Cost where
  compute : Nat
  llc     : Nat
  hbm     : Nat
  vert    : Nat
  attn    : Nat
deriving DecidableEq, Repr

/-- The issue-time record of an accumulator set (R183). -/
structure SetRec where
  atype : Nat
  btype : Nat
  mx    : Bool
deriving DecidableEq, Repr

/-- Content of one accumulator element: exact (a at the set's L), ordered (a = ±M at l), or FP32 bits (R81, R83, R88, R96). -/
structure AccElem where
  a    : Int
  l    : Int
  nan  : Bool
  pinf : Bool
  ninf : Bool
  f    : Word
deriving DecidableEq, Repr

/-- One accumulator set (R178): mode, L, product count and the 64 × 64 elements (index 64·i + j). -/
structure AccSet where
  ordered : Bool
  lexp    : Int
  count   : Nat
  elems   : Tab AccElem
deriving DecidableEq, Repr

/-- Where an MMA stands (R184 to R186). -/
inductive MmaPhase where
  | queued | streaming | products | draining
deriving DecidableEq, Repr

/-- Who issued a single-issue instruction (R119). -/
structure Origin where
  seq    : Nat
  pc     : Nat
  launch : Nat
  group  : Nat
  thread : Nat
deriving DecidableEq, Repr

/-- An accepted MMA (R184). -/
structure MmaOp where
  org    : Origin
  desc   : List Nat
  inLs   : Bool
  phase  : MmaPhase
deriving DecidableEq, Repr

/-- An accepted XFER (R222). -/
structure XferOp where
  org     : Origin
  desc    : List Nat
  started : Bool
  apps    : List Nat             -- APPENDs of the core outstanding when it issued (R283)
  reds    : List Nat             -- REDUCE requests of the core outstanding when it issued (R224)
  sent    : Nat                  -- requests to another module sent so far (R220)
  left    : Nat                  -- requests to another module not yet answered
  got     : Tab (List Nat)       -- lines read from another module
deriving DecidableEq, Repr

/-- Running state of one query row (R267). -/
structure RowSt where
  m : Word
  l : Word
  o : List Word
  bad : Bool
deriving DecidableEq, Repr

/-- An accepted ATTN (R260): the running state of an ATTEND, or the phase of an APPEND. -/
structure AttnOp where
  org     : Origin
  desc    : List Nat
  started : Bool
  pages   : Tab Nat       -- page addresses read from the list, by index (R273)
  todo    : List Nat      -- list indices still to attend, ascending
  rows    : List RowSt
  skipN   : List Nat      -- n_r of R286
  skipT   : List Word     -- θ_r of R286
  done    : Bool          -- every page attended
  aphase  : Nat           -- APPEND: steps of R281 written (0 none)
  left    : Nat           -- requests to another module not yet answered
  got     : Tab (List Nat)
  heads   : Tab (List Nat)   -- candidates: the header group at its first read, the summary, the header group at its second read (R284)
  sums    : Tab (List Nat)
  heads2  : Tab (List Nat)
  hdr     : List Nat      -- APPEND: the header group as it last wrote it (R281)
  quant   : List (List Nat × List Nat)   -- APPEND: scales and elements of the keys it wrote (R280)
deriving DecidableEq, Repr

/-- The grid's running state (R196 to R198). -/
inductive GridRun where
  | stopped | notice | acked | running | dummy
deriving DecidableEq, Repr

/-- A response on its way to a core (R168): data for a register, or a predicate; poison and fault marks. -/
structure Resp where
  req    : Nat
  group  : Nat
  thread : Nat
  addr   : Nat
  size   : Nat
  value  : Nat
  dst    : Nat
  words  : Nat
  uni    : Bool
  poison : Bool
  pred   : Option (Nat × Bool)
  fill   : List Nat      -- the line's bytes at the home, when L1 is to take it
deriving DecidableEq, Repr

/-- An acknowledgement on its way to a core (R133, R250). -/
structure Ack where
  group  : Nat
  thread : Nat
  red    : Bool
  poison : Bool
  window : Bool
  addr   : Nat
deriving DecidableEq, Repr

/-- One line copy of an L1 data cache (R234): line number, bytes at the time of the fill, and age. -/
structure L1Line where
  line  : Nat
  data  : List Nat
  stamp : Nat
deriving DecidableEq, Repr

/-- A logged ATOM value (R456). -/
structure AtomLog where
  group  : Nat
  thread : Nat
  value  : Nat
deriving DecidableEq, Repr

/-- A checkpoint slot (R134, R450): the thread state, ticket counters, barrier bits and meters of a rank. -/
structure Ckpt where
  groups : Tab Group
  genT   : BitVec 16
  ctrMma : Nat
  ctrXfer : Nat
  ctrAttn : Nat
  meters : Cost
  tcnt   : Tab Nat
deriving DecidableEq, Repr

/-- Where a core stands with its task (R136, R450 to R452). -/
inductive CorePhase where
  | idle | running | ckptWrite | stopped | fencing | restoring | ended
deriving DecidableEq, Repr

/-- What a core holds for its task, and its units. -/
structure Core where
  task    : Option Nat
  rank    : Nat
  phase   : CorePhase
  groups  : Tab Group
  genT    : BitVec 16
  slots   : Nat
  ctrMma  : Nat
  ctrXfer : Nat
  ctrAttn : Nat
  mmaQ    : List MmaOp
  xferQ   : List XferOp
  attnQ   : List AttnOp
  setRecs : Tab (Option SetRec)
  accs    : Tab AccSet
  grid    : GridRun
  meters  : Cost
  seg     : Cost
  ext     : Nat
  l1      : List L1Line
  icache  : List Nat     -- lines that the instruction cache holds, the last used first (R16)
  resps   : List Resp
  acks    : List Ack
  writes  : Nat
  redOut  : Nat
  atomLog : List AtomLog
  atomReplay : List AtomLog
  tookGlobalLock : Bool
  mirror  : List (Nat × Nat × Nat)
  ckpt    : Option Ckpt
  ckptNext : Option Ckpt
  fault   : Nat
  faultAt : Nat          -- tick of the core's fault (R140)
  lastOwner : Option Nat
  tcnt    : Tab Nat     -- task counters (R525)
  base    : Tab Nat     -- counter values recorded at dispatch (R524)
  out     : Nat
  rowSpare : Nat
  colSpare : Nat
  rowFix  : Bool
  colFix  : Bool
  gfaults : Nat
  test    : Nat         -- RAS code of the fault under self-test; 0 none (R206, R447)
  swap    : Option (Option Nat × Option Nat)   -- spare switch that runs: row and column (R206)
  movedFrom : Nat       -- physical core that the rank came from, while it is restored (R452)
  why     : Nat         -- cause of its move
  svc     : Nat         -- 0 in service or spare, 1 out of dispatch, 2 retired (R208)
deriving DecidableEq, Repr

/-! ## Programs, contexts and tasks (chapters 06, 09 and 13) -/

/-- A rank table entry (R171). -/
structure RankE where
  budget : Nat
  groups : Nat
  cgroup : Nat
  tgroup : Nat
deriving DecidableEq, Repr

/-- A registered program: the copies of R174. -/
structure Program where
  base     : Nat
  flags    : Nat
  tiles    : Nat
  entry    : Nat
  codeOff  : Nat
  codeSize : Nat
  ranks    : List RankE
  segment  : Cost
  budgets  : List Cost
  withdrawn : Bool
deriving DecidableEq, Repr

/-- A context window (R229). -/
structure Window where
  base   : Nat
  size   : Nat
  rights : Nat
deriving DecidableEq, Repr

/-- A model context (R229, R232). -/
structure Context where
  windows : List Window
  owner   : Nat
  invalid : Bool
deriving DecidableEq, Repr

/-- A fault record (R170). -/
structure FaultRec where
  cause  : Nat
  source : Nat
  rank   : Nat
  launch : Nat
  thread : Nat
  kind   : Nat
  pc     : Nat
  ticket : Nat
  addr   : Nat
  detail : Nat
  further : Nat
deriving DecidableEq, Repr

/-- How a stopped task will end (R356): status, code. -/
structure Stop where
  status : Nat
  code   : Nat
deriving DecidableEq, Repr

/-- An accepted task (R343, R351 to R361). -/
structure Task where
  queue    : Nat
  sqidx    : Nat
  v1       : Bool
  program  : Nat
  context  : Nat
  cls      : Nat
  flags    : Nat
  cd       : Nat          -- class derate at acceptance (R374)
  deadline : Nat          -- deadline tick (R351)
  args     : Nat
  tag      : Nat
  progress : Nat
  accept   : Nat
  bound    : Nat
  plan     : List Nat     -- logical core of each rank
  floors   : List Nat     -- floor of each rank that admission used
  running  : Bool
  ended    : List Nat     -- ranks that have ended
  stop     : Option Stop
  stopAt   : Nat          -- tick of the stop (R140)
  fault    : Option FaultRec
  committed : Nat
  replays  : Nat
  replayed : Bool
  rerun    : Bool
  tried    : Bool         -- R361 has judged a rerun
  moved    : List Nat     -- ranks of a replay event not yet resumed
  counters : Tab Nat      -- sums of the task counters over the ranks that ended (R525)
deriving DecidableEq, Repr

/-! ## The last-level cache (chapters 09 and 11) -/

/-- What a request asks of a line's home (R243). `uni` marks a uniform destination that this thread alone writes. -/
inductive ReqKind where
  | load (size : Nat) (signed uni alloc : Bool) (dst : Nat)
  | store (data : List Nat)
  | atom (op size : Nat) (uni : Bool) (dst : Nat) (operand compare : Nat)
  | lockAcq (pdst : Nat)
  | lockRel (lost : Bool)
  | reduce (oper etype : Nat) (data : List Nat) (parent : Nat)
  | pinLine (unpin : Bool) (cls parent : Nat)
  | engineRd (kind seq : Nat)
  | engineWr (kind seq : Nat)
  | hostRd (off n : Nat)
  | hostWr
  | scrubRd (task : Bool) (id : Nat) (hbm : Bool)   -- a scrub's read of a line, of its HBM copy or of its LLC copy (R309)
deriving DecidableEq, Repr

/-- A request on its way to, or waiting at, a home half; `id` is its place in the order of sending. -/
structure Req where
  id     : Nat
  core   : Nat
  group  : Nat
  thread : Nat
  addr   : Nat
  kind   : ReqKind
deriving DecidableEq, Repr

/-- A request that left over the Lupin links and is not answered: its TAG, the tick at which it left (R489), and what it asks (R487). -/
structure RemReq where
  tag : Nat
  at_ : Nat
  req : Req
  nofill : Bool    -- L1 must not keep the line that answers: the core has written or invalidated it since (R132, R133, R159)
deriving DecidableEq, Repr

/-- A line that an LLC half holds: dirty, class that pinned it, and whether a placement entry did (R247, R248). -/
structure Line where
  dirty : Bool
  pin   : Option Nat
  byPlace : Bool
  saved : List (Nat × List Nat)   -- good HBM bytes under words poisoned in SRAM while the line was clean (R301)
  under : List Nat                -- sectors whose HBM copy a scrub poisoned under this good copy (R309)
deriving DecidableEq, Repr

/-- A line just filled. -/
def Line.fresh : Line := ⟨false, none, false, [], []⟩

/-- An entry of a bank's reduction queue: its part of a REDUCE request (R250). -/
structure RedEntry where
  addr   : Nat
  oper   : Nat
  etype  : Nat
  data   : List Nat
  parent : Nat
deriving DecidableEq, Repr

/-- A REDUCE request of a thread: its entries not yet applied, and what its acknowledgement will carry (R250, R303,
R89). `away`: module, TAG and label of a request that came over the Lupin links. -/
structure RedReq where
  id     : Nat
  core   : Nat
  group  : Nat
  thread : Nat
  left   : Nat
  poison : Bool
  window : Bool
  addr   : Nat
  away   : Option (Nat × Nat × Nat)
deriving DecidableEq, Repr

/-- A PIN or UNPIN of a thread: lines not yet answered, and whether all were granted (R167). -/
structure PinReq where
  id     : Nat
  core   : Nat
  group  : Nat
  thread : Nat
  pdst   : Nat
  left   : Nat
  ok     : Bool
deriving DecidableEq, Repr

/-- An open merge-buffer entry (R306): 16-byte word address and byte mask. The bytes stand in memory at once. -/
structure MergeEntry where
  half  : Nat
  group : Nat
  word  : Nat
  mask  : Nat
deriving DecidableEq, Repr

/-- A thread that waits at an LLC for a lock (R128), and a wake message under way to it. `away`: module, TAG and label of a
request that came over the Lupin links (R474). -/
structure LockWait where
  addr   : Nat
  core   : Nat
  group  : Nat
  thread : Nat
  pdst   : Nat
  lost   : Bool
  away   : Option (Nat × Nat × Nat)
deriving DecidableEq, Repr

/-- A scrub request (R308). -/
structure ScrubReq where
  start   : Nat
  len     : Nat
  cls     : Nat
  flags   : Nat
  resv    : Nat
  summary : Nat
deriving DecidableEq, Repr

/-- A scrub under way, of a mailbox job or of a task: its request, the address after the last line scrubbed, what it has found, and the
repairs owed to it (R309 to R311). `atEnd`: it has read its last line, or stopped early. -/
structure ScrubRun where
  task  : Bool
  id    : Nat
  req   : ScrubReq
  began : Nat
  next  : Nat
  corr  : Nat
  unc   : Nat
  seen  : Nat
  rows  : Nat
  cols  : Nat
  first : Nat
  last  : Nat
  owed  : List (Nat × Nat × Nat)
  atEnd : Bool
deriving DecidableEq, Repr

/-- The LLC halves of the module. -/
structure Llc where
  nextReq : Nat
  reqs    : List Req
  lines   : Tab Line
  fills   : List Nat
  reds    : List RedEntry
  merges  : List MergeEntry
  waits   : List LockWait
  wakes   : List LockWait
  unrecorded : List LockWait
  redReqs : List RedReq
  pinReqs : List PinReq
  rewrites : List Nat               -- corrected words and sectors to be rewritten (R300)
  sources : Tab Nat                 -- granule number to its source address + 1; 0 none (R237)
  retired : List Nat                -- retired banks, 512·tower + bank (R47)
  reloc   : List (Nat × Nat × Nat)  -- relocated resident ways: bank, way, host bank (R254)
  remote  : List RemReq             -- requests sent over Lupin links and not yet answered (R228)
  rescfgNext : Option Nat
  scrubs  : List ScrubRun           -- scrubs under way (R309)
deriving DecidableEq, Repr

/-- Corrected errors of a unit in the second it last counted in (R316). -/
structure CeSec where
  sec : Nat
  cnt : Nat
deriving DecidableEq, Repr

/-- An error found in a row of a bank or of an HBM stack (R311): its mat, row and bit position, when, whether it could not be corrected,
and whether the code was LIGHT. -/
structure Find where
  mat   : Nat
  row   : Nat
  bit   : Nat
  tick  : Nat
  unc   : Bool
  light : Bool
deriving DecidableEq, Repr

/-- Spares and repairs of the stored-data arrays (R311 to R315): spare rows and columns used by tower bank, rows of HBM
stacks, soft repairs in the flash list. -/
structure Ecc where
  ce       : Tab CeSec
  rows     : Tab Nat
  cols     : Tab Nat
  hbmRows  : Tab Nat
  repairs  : List (Nat × Nat × Nat)   -- in-service repair list in flash: kind (1 SRAM row, 2 column, 3 HBM row, 4 bundle lane,
                                      -- 5 bank, 6 grid row, 7 grid column, 8 regulator phase), unit, index (R38)
  held     : List (Nat × Nat × Nat)   -- repairs that wait for the write window (R38)
  fused    : List (Nat × Nat × Nat)   -- soft repairs committed to fuses or by hard post-package repair (R314)
  lastHbm  : Option Nat               -- tick of the last HBM repair (R313)
  rngHeld  : Tab Nat                  -- held ECC_RGN_RNG writes by entry, value + 1 (R297)
  region   : Option (Nat × Nat × Nat) -- a change being applied: entry, new RNG, new ATTR (R297)
  bankCe   : Tab (List Nat)           -- ticks of a bank's corrected errors of the last hour (R315)
  finds    : Tab (List Find)          -- errors of the last 24 hours by tower bank, or 2048 + HBM stack (R311)
  owed     : List (Nat × Nat × Nat)   -- repairs that are due, as the repair list holds them (R311)
deriving DecidableEq, Repr

/-! ## Clusters (chapters 01, 03, 07, 10, 16) -/

/-- A cluster: its attention engine (burst state of R198, the core it served last, whether it is out for self-test, and the
cores whose ATTN its check stopped), and the raise of R416 that its IVR holds, in mV. -/
structure Cluster where
  attnRun  : GridRun
  attnTurn : Nat
  attnTest : Nat      -- RAS code of the engine fault under test; 0 none (R290)
  preRaise : Nat
  retired  : Bool
  mfgSlot  : Nat
  resetting : Bool      -- a cluster reset runs (R496)
  hostFrom : Nat        -- cluster whose ranks a cover cluster took over, plus 1; 0 none (R454)
deriving DecidableEq, Repr



/-! ## Queues and admission (chapter 13) -/

/-- A descriptor that waits for its decision (R348): queue, ring index, and its bytes once read (`none` inside: unreadable). -/
structure Undec where
  queue : Nat
  idx   : Nat
  data  : Option (Option (List Nat))
deriving DecidableEq, Repr

/-- A completion entry that has not left: queue, 32 bytes, and whether it is a refusal. -/
structure Entry where
  queue   : Nat
  bytes   : List Nat
  refusal : Bool
deriving DecidableEq, Repr

/-- The admission island: undecided descriptors in order of acceptance, doorbells not yet accepted (R348), the next task number,
core_free by logical core (R351), entries held by the host link (R377), and spilled ones with their slot (R358). -/
structure Adm where
  und      : List Undec
  backlog  : List Nat
  nextTask : Nat
  coreFree : Tab Nat
  stuck    : List Entry
  spill    : List (Nat × Entry)
  cached   : List Nat            -- queues whose contexts the queue cache holds, the last used first (R341)
deriving DecidableEq, Repr


/-! ## Vertical bundles (chapter 02) -/

/-- One bundle (R31, R40): failed lanes, the lanes that 32 and 33 replace (0x3F none), width, and its parity errors. -/
structure Bundle where
  failed  : List Nat
  s32     : Nat
  s33     : Nat
  half    : Bool
  retired : Bool
  testing : Bool
  found   : List Nat      -- lanes found failed, whose repair waits for its pause (R43)
  errs    : Nat
  hist    : List Nat      -- ticks of parity errors of the last second (R39)
deriving DecidableEq, Repr

/-- The repair state of both towers. Bundle keys: tower × 2^15 + layer × 2^14 + bundle; group keys: 4 × (512 × tower + bank) +
2 × layer + group. -/
structure Vert where
  bundles : Tab Bundle
  out     : List Nat             -- groups out of service
  queue   : List Nat             -- bundles whose repair waits (R43)
  pausing : Option Nat
  lastEnd : Option Nat           -- tick at which the last repair pause ended
  retiring : List (Nat × Bool)   -- banks under retirement (R47), and whether their write-back is complete
  calAt   : Tab Nat              -- tick of a tower's last recalibration
  calDue  : List Nat             -- towers with a band change since their last recalibration (R50)
  margins : Tab Nat              -- margin code of a region in force (R50)
  narrow  : Tab (Option Nat)     -- narrower code that waits until the region is idle (R50)
  share   : Tab Nat              -- share of the allowance used, by region, in 1/256 (R75)
  record  : Tab Nat              -- highest share of a die at the last 24-hour recalibration (R75)
deriving DecidableEq, Repr


/-! ## Power and thermal control (chapters 03, 16 and 17) -/

/-- What PWR and island 17 hold beside the registers, by cluster or domain (R408, R410 to R430). -/
structure Pwr where
  req    : Tab Nat              -- setpoint in mV that power control requests, by cluster (R70)
  guardV : Tab Nat              -- raise of the floor guard in mV, by cluster (R73)
  plan   : List (List Nat)      -- planned setpoints by interval of the horizon and cluster; 0 planned off (R422)
  planAt : Nat                  -- tick at which the plan begins
  profAt : Nat                  -- base tick of the profile (R430)
  target : Nat                  -- ceiling of the last effective POWER_TARGET; 0 the licensed tier (R423)
  pend   : Option (Nat × Nat)   -- pending ceiling and its effective tick (R424)
  cap    : Nat                  -- limit of R409 after a double converter fault; 0 none
  towerA : Tab Nat              -- core-rail ceiling of a tower in A (R409, R420)
  rise   : Option (Nat × Nat)   -- tick and watts from which the input may rise (R427)
  state  : Nat                  -- 0 running, 1 DI, 2 SB (R499)
  entry  : Option (Nat × Nat)   -- planned low-power entry: state and tick (R500)
  failed : Tab Nat              -- failed phases, a bit mask by domain (R410)
  dom    : Tab Nat              -- PWR_DSTAT.STATE by domain
  fabV   : Tab Nat              -- setpoint in mV of the die-fabric (64 to 67) and cache-logic (69, 71) domains (R55)
  path   : Tab Nat              -- 0 sound, 1 degraded, 2 reduced, 3 failed, by domain (R414)
  newPath : Tab Nat             -- tick + 1 since which a domain's excess lies above threshold j = 1 to 3 (R414), at 4·domain + j
  sense  : Tab Nat              -- failed sense routes, a bit mask by domain (R415)
  light  : List Nat             -- clusters in LI (R499)
  inrush : Tab (List Nat)       -- clusters that wait for inrush, by tower (R417)
  ramp   : Tab (Option (Nat × Nat))   -- cluster that powers on, and the tick of its grant, by tower
  exitAt : Tab Nat              -- exit tick reported for a cluster in LI (R418)
  curtailPin : Bool             -- CURTAIL_N is low
  pwrOk  : Bool
deriving DecidableEq, Repr

/-- The last sample of a monitor and its tick (R65). -/
structure Sample where
  speed : Nat
  temp  : Nat
  at_   : Nat
deriving DecidableEq, Repr

/-- The thermal record of a die (R435 to R440): samples taken since it was powered, tick since which the readings lie 6 °C under
the estimate, tick since which it stays cool enough to fall and the highest governing temperature since, and the tick
since which a step of judgement holds a higher band back. -/
structure DieTherm where
  seen    : Bool
  underAt : Option Nat
  coolAt  : Option Nat
  coolMax : Nat
  delayAt : Option Nat
  gap     : Nat          -- the band whose settings are in force (R441, R442)
deriving DecidableEq, Repr

/-- Sensors and bands (chapter 17). -/
structure Therm where
  mon    : Tab (Option Sample)
  failed : List Nat
  dies   : Tab DieTherm
deriving DecidableEq, Repr

/-! ## Arbiters and regulators (chapter 14) -/

/-- A request that waits at an arbiter: message class, class label, master, and the slot of its arrival (R366). -/
structure ArbReq where
  mc     : Nat
  cls    : Nat
  master : Nat
  slot   : Nat
deriving DecidableEq, Repr

/-- An arbiter (R366 to R372): slots so far, waiting requests in order of arrival, waits of the last 16 grants by class, the slot of a
class's last grant or last waiting request, the rotation pointer and the grants by message class, grants that a message class
has waited while it held a credit, the master granted last by class, the last 256 grants, all grants, and those at the last mark. -/
structure Arb where
  slots  : Nat
  queue  : List ArbReq
  waits  : Tab (List Nat)
  seen   : Tab Nat
  rot    : Tab Nat
  served : Tab Nat
  held   : Tab Nat
  turn   : Tab Nat
  recent : List (Nat × Nat)
  grants : Nat
  mark   : Option Nat
deriving DecidableEq, Repr

/-- Arbiters by number, current rates and tokens (in 1/1,024) of the masters' buckets at 16·master + class, and what the epoch
counts by class (R373): miss samples, consecutive missing epochs, consecutive clean epochs, highest level. -/
structure Cls where
  arbs   : Tab Arb
  rates  : Tab (Option Nat)
  tokens : Tab (Option Nat)
  sampled : Nat
  sampleAt : Option Nat
  misses : Tab Nat
  bad    : Tab Nat
  good   : Tab Nat
  top    : Tab Nat
deriving DecidableEq, Repr

/-! ## Logs and interrupts (chapters 12 and 18) -/

/-- The RAS log: the ring of 64-byte entries, the entries written since the module reset, and the persistent copies in
flash with those that wait for the write window (R465, R467). -/
structure Ras where
  ring : Tab (List Nat)
  seq  : Nat
  flash : List (List Nat)
  waiting : List (List Nat)
deriving DecidableEq, Repr

/-- MSI-X: enable and function mask of the capability, table entries (address, data, unmasked) and the pending bits (R331, R332). -/
structure Msix where
  enable : Bool
  fmask  : Bool
  addr   : Tab Nat
  data   : Tab Nat
  open_  : List Nat
  pba    : List Nat
deriving DecidableEq, Repr

/-! ## Firmware processors and mailboxes (chapters 15 and 20) -/

/-- A mailbox command that its mailbox has accepted and not yet answered (R389): mailbox, opcode, request bytes, IRQ, whether its
first part has taken effect and the answer waits for tasks to complete (R232, R396), the plan that PWR makes for it, the
progress that its processor reports, the lead module and TAG it came from, and the module and TAG it was forwarded to (R491). -/
structure Call where
  mbx   : Nat
  op    : Nat
  req   : List Nat
  irq   : Bool
  begun : Bool
  plan  : List (List Nat)
  num   : Nat
  src   : Option (Nat × Nat)
  fwd   : Option (Nat × Nat)
deriving DecidableEq, Repr

/-- A mailbox's session, or its mismatch (R393). -/
structure Session where
  id      : Nat
  version : Nat
  bad     : Bool
deriving DecidableEq, Repr

/-- A job (R390). `proc`: its serving processor; `arg`: the processor it updates; `req`: its request. -/
structure Job where
  id     : Nat
  mbx    : Nat
  op     : Nat
  proc   : Nat
  arg    : Nat
  req    : List Nat
  start  : Nat
  ended  : Option Nat
  status : Nat
  detail : Nat
  answer : List Nat
deriving DecidableEq, Repr

/-- A crash dump (R404); `seed` numbers the bytes that the manual does not give. -/
structure Dump where
  cause  : Nat
  tick   : Nat
  slot   : Nat
  trips  : Nat
  version : List Nat
  lost   : Nat
  detail : Nat
  stack  : Nat
  digest : List Nat
  seed   : Nat
deriving DecidableEq, Repr

/-- What the module keeps of a processor beside MBX_PSTAT: ticks of its counted restarts (R385), its dump region, the slot
pointer in flash (R399), its staged update (0 none, 1 being erased, 2 staged, 3 verified, 4 being activated) with the bytes
written (R401), and its fused SVN floor (R504). -/
structure Proc where
  trips  : List Nat
  dump   : Option Dump
  slot   : Nat
  stage  : Nat
  len    : Nat
  svn    : Nat
deriving DecidableEq, Repr

/-- The activation that runs (R401): processor, job, and whether its new image runs. -/
structure Act where
  proc : Nat
  job  : Nat
  runs : Bool
deriving DecidableEq, Repr

/-- The firmware's state: commands being served in GO order, payloads by mailbox, sessions, jobs, processors, image slots in flash
(2p + s; none: as shipped), processor of the last UPDATE_BEGIN by mailbox (plus 1), the activation, licences in flash, licence
chunks gathered by mailbox, the measurement log (R510) with its entries of bring-up, newest CHAIN and DROPPED, the reports of
R514 by mailbox, and recovery mode (R503). -/
structure Fw where
  calls   : List Call
  payload : Tab (List Nat)
  sess    : Tab (Option Session)
  jobs    : List Job
  procs   : Tab Proc
  slots   : Tab (Option (Tab Nat))
  last    : Tab Nat
  act     : Option Act
  lics    : List (List Nat)
  chunks  : Tab (Tab Nat)
  mlog    : List (List Nat)
  mboot   : Nat
  mchain  : List Nat
  mdrop   : Nat
  reports : Tab (List Nat)
  recovery : Bool
deriving DecidableEq, Repr


/-! ## The module as a whole, and its host (chapters 12, 20 and 22) -/

/-- A running compute or tower reset (R497), or the exit from DI or SB (R499): its towers not yet ready, CLEAN, and its job. -/
structure RunReset where
  towers : List Nat
  both   : Bool
  clean  : Bool
  exits  : Bool
  job    : Option Nat
deriving DecidableEq, Repr

/-- Power, pins, reset record and debug of the module (R496 to R516, R535, R536). -/
structure Md where
  input   : Bool          -- converters on
  off     : Bool          -- switched off by a shutdown of R387, until PERST_N or a cold power-on
  perst   : Bool          -- PERST_N asserted
  booting : Bool          -- between the deassertion and READY
  opened  : Bool          -- admission has opened since the last module reset (R349)
  straps  : Nat           -- MOD_ID pins
  ready   : Nat           -- READY_TICK
  kind    : Nat           -- RESET_KIND
  cause   : Nat           -- RESET_CAUSE
  clean   : Bool          -- RESET_CLEAN
  resets  : List RunReset
  waiting : List RunReset -- a compute reset that waits for a tower reset (R516)
  resetIn : Option Nat    -- MODULE_RESET answered: the reset takes hold at this tick (R396)
  debug   : Bool          -- DEBUGGED (R515)
  console : List Nat      -- UART input taken
  sbOff   : Nat           -- offset of the sideband mirror (R398)
  sbDyn   : Option Nat    -- dynamic address: I3C mode (R539)
deriving DecidableEq, Repr

/-- An access that waits for the host's answer for a host-bias line (R328, R329): its line, whether it asks to own it, and, for one of
another module, the link it came on and the message; none for a scrub or a rebuild. -/
structure BiasWait where
  line  : Nat
  own   : Bool
  link  : Nat
  msg   : Option LMsg
deriving DecidableEq, Repr

/-- An HDM decoder: size in units of 256 MiB, host base in the same units, committed and locked (R327). -/
structure Decoder where
  base   : Nat
  size   : Nat
  commit : Bool
  locked : Bool
deriving DecidableEq, Repr

/-- The host attachment: decoders, granules in host bias, a running bias command (to host, first granule, count), lines held
in the 64 KiB buffer, accesses that wait for the host, and D3hot (R327 to R330, R337). -/
structure HostIf where
  hdm     : List Decoder
  bias    : List Nat
  biasCmd : Option (Bool × Nat × Nat)
  held    : List (Nat × Bool)
  waits   : List BiasWait
  d3      : Bool
  latchTick : Tab Nat            -- ADM_TICK_HI by interface (R63)
  latchProf : Tab (List Nat)     -- PWR_PTICK_HI, PWR_CF and PWR_PROF by interface (R432)
  latchPmc  : Tab Nat            -- latched counter HI by interface (R518)
  latchRate : Tab (Option (Nat × Nat × Nat))   -- cluster, PWR_CFLOOR and PWR_CRATE at an interface's last read of PWR_CFLOOR (R74)
deriving DecidableEq, Repr

/-! ## Lupin links (chapter 19) -/

/-- One link: messages that wait for credits or frames, the retry buffer of frames not yet acknowledged, the next frame
numbers sent and expected, credits in use (dedicated pools 2·class + epoch, then the shared flits of class 8 + class),
flits to return by class, the counts of R462, R475 and R479, and the class whose credits went back last. A frame carries one message (DESIGN CHOICE, log 10). -/
structure LLink where
  txq     : List LMsg
  retry   : List (Nat × LMsg)
  txSeq   : Nat
  rxSeq   : Nat
  naking  : Bool
  used    : Tab Nat
  owed    : Tab Nat
  nakRun  : Nat
  retrySec : CeSec
  malMs   : CeSec
  malSec  : Nat
  crTurn  : Nat
deriving DecidableEq, Repr

/-- The module's place in its domain: routes by destination (link, hops), the failover tables by 16 · module + link, the routes of the
epoch before, the TAG counters and records, the members, the links, requests beyond 2,048 unanswered, descriptors asked
of the lead (TAG, queue, index), and the link failures since the lead's last tables (16 · module + link, and whether the routes have
switched for it; R486). -/
structure Lup where
  routes   : Tab (Nat × Nat)
  failover : Tab (Tab (Nat × Nat))
  old      : Tab (Nat × Nat)
  epoch    : Bool
  tags     : Tab Nat
  seen     : Tab (List Nat)
  members  : List Nat
  links    : Tab LLink
  port     : List LMsg
  asks     : List (Nat × Nat × Nat)
  failed   : List (Nat × Bool)
deriving DecidableEq, Repr

/-! ## Performance counters (chapter 21) -/

/-- The counters: 48-bit values by pair (the pair's offset from 0x0100_0000 divided by 8), held HI writes, records written since
PMC_RINGCFG was (SEQ), records dropped since the last one written, the BYTES values at which the window began, and core
counters with OVF_INT that have wrapped without their sample yet, and the towers that were in reset or without power in the window
(R517, R518, R522, R527, R529). -/
structure Pmc where
  cnt   : Tab Nat
  hold  : Tab (Option Nat)
  seq   : Nat
  lost  : Nat
  win   : Tab Nat
  wraps : List (Nat × Nat)
  off   : List Nat
deriving DecidableEq, Repr

/-! ## The whole block -/

/-- What leaves the module: each piece of traffic that a command causes, newest last in `State.out`. -/
inductive Out where
  | msix (vector : Nat)                        -- an MSI-X message (R332)
  | hostWrite (addr : Nat) (data : List Nat)   -- a write to host memory
  | hostRead (addr len : Nat)                  -- a read request to host memory (R335)
  | answer (data : List Nat) (poison : Bool)   -- data returned to a reader
  | abort (read : Bool)                        -- Completer Abort or dropped access (R333)
  | config (done : Bool)                         -- a configuration request completed, or answered with retry status (R336)
  | unsupported                                  -- Unsupported Request (R333)
  | lupin (link fseq : Nat) (msg : LMsg)       -- a frame sent on a Lupin link
  | control (link ack : Nat) (nak hold : Bool) (cls count : Nat)   -- frame control: ACKSEQ, NAK, HOLD and credits returned (R471)
  | cache (line : Nat) (own : Bool)            -- RdShared or RdOwn to the host (R328)
  | sideband (link id : Nat)                     -- module ID and rate capability on a link's sideband (R477, R541)
  | giveBack (line : Nat)                      -- a host-bias line returned to the host (R328)
deriving DecidableEq, Repr

/-- The admission tick counter (R60): its value, and whether it runs. -/
structure Clk where
  tick : Nat
  run  : Bool
deriving DecidableEq, Repr

/-- The module's state: everything the manual gives it, and the queue of waiting commands. -/
structure State where
  pending  : List Instr
  clk      : Clk
  fresh    : Nat
  out      : List Out
  modId    : Nat
  regs     : Tab Word
  mem      : List Host.Cell
  poison   : List Nat
  towersDown : List Nat
  cores    : Tab Core
  clusters : Tab Cluster
  lmap     : Tab (Option Nat)   -- logical ID to physical core, where it differs from R18's first assignment
  llc      : Llc
  ecc      : Ecc
  vert     : Vert
  pwr      : Pwr
  therm    : Therm
  adm      : Adm
  md       : Md
  host     : HostIf
  ras      : Ras
  msix     : Msix
  fw       : Fw
  cls      : Cls
  lup      : Lup
  pmc      : Pmc
  programs : Tab (Option Program)
  contexts : Tab (Option Context)
  tasks    : Tab (Option Task)
deriving DecidableEq, Repr

/-- Why a command has no effect that the model gives. -/
inductive Fault where
  /-- Raised by a meaning whose command is not well formed: a list operand of the wrong length, or an instruction word
  that spells another row. Safe: no command of the part has that form. -/
  | malformed
deriving DecidableEq, Repr

/-- Why the model gives a command no meaning. -/
inductive Refusal where
  /-- Raised by the dispatcher for a row of the opcode table without a meaning yet. Safe: nothing can be proved of it. -/
  | notModelled (mnemonic : String)
deriving DecidableEq, Repr

/-- The outcome of a command. -/
abbrev Outcome := Host.Outcome State Fault Refusal

/-- A thread that does not exist: every register zero (R108). -/
def Thread.dead : Thread :=
  ⟨false, [], 0, 0, 0, [], .no, [], [], 0, 0, 0⟩

/-- A group slot that holds nothing. -/
def Group.empty : Group := ⟨0, [], [], 0, [], [], [], 0, 0, false⟩

def Cost.zero : Cost := ⟨0, 0, 0, 0, 0⟩

/-- An accumulator element at zero (R182). -/
def AccElem.zero : AccElem := ⟨0, 0, false, false, false, 0⟩

def AccSet.empty : AccSet := ⟨false, 0, 0, []⟩

/-- A core without a task: caches and queues empty, its grid stopped, both spares unused (R175). -/
def Core.idle : Core :=
  { task := none, rank := 0, phase := .idle, groups := [], genT := 0, slots := 0, ctrMma := 0, ctrXfer := 0,
    ctrAttn := 0, mmaQ := [], xferQ := [], attnQ := [], setRecs := [], accs := [], grid := .stopped,
    meters := .zero, seg := .zero, ext := 0, l1 := [], icache := [], resps := [], acks := [], writes := 0, redOut := 0,
    atomLog := [], atomReplay := [], tookGlobalLock := false, mirror := [], ckpt := none, ckptNext := none,
    fault := 0, faultAt := 0, lastOwner := none, tcnt := [], base := [], out := 0, rowSpare := 64, colSpare := 64, rowFix := false,
    colFix := false, gfaults := 0, test := 0, swap := none, movedFrom := 0, why := 0,
    svc := 0 }

/-- A cluster whose nine slots work (R18). -/
def Cluster.fresh : Cluster := ⟨.stopped, 8, 0, 0, false, 0xF, false, 0⟩

/-- A link that nothing has used (R475, R476). -/
def LLink.fresh : LLink := ⟨[], [], 0, 0, false, [], [], 0, ⟨0, 0⟩, ⟨0, 0⟩, 0, 0⟩

/-- A module outside any domain. -/
def Lup.fresh : Lup := ⟨[], [], [], false, [], [], [], [], [], [], []⟩

/-- The caches after the fill of R298: no line, no request. -/
def Llc.empty : Llc :=
  { nextReq := 0, reqs := [], lines := [], fills := [], reds := [], merges := [], waits := [], wakes := [],
    unrecorded := [], redReqs := [], pinReqs := [], rewrites := [], sources := [], retired := [], reloc := [],
    remote := [], rescfgNext := none, scrubs := [] }

/-- A bundle as shipped with no spare used (R36, log 9). -/
def Bundle.fresh : Bundle := ⟨[], 0x3F, 0x3F, false, false, false, [], 0, []⟩

def Vert.fresh : Vert := ⟨[], [], [], none, none, [], [], [], [], [], [], []⟩

/-- A die of which no sample has been taken. -/
def DieTherm.fresh : DieTherm := ⟨false, none, none, 0, none, 0⟩

/-- Power control before the module starts: every domain off but 74 (R408, R536). -/
def Pwr.fresh : Pwr :=
  { req := [], guardV := [], plan := [], planAt := 0, profAt := 0, target := 0, pend := none, cap := 0, towerA := [],
    rise := none, state := 0, entry := none, failed := [],
    dom := ((List.range 78).filter (fun d => d != 74)).map (fun d => (d, 1)), fabV := [], path := [], newPath := [], sense := [], light := [],
    inrush := [], ramp := [], exitAt := [], curtailPin := false, pwrOk := true }

/-- The module with its input applied and PERST_N asserted: only domain 74 runs (R502, R536). -/
def Md.fresh : Md := ⟨true, false, true, false, false, 0, 0, 0, 0, false, [], [], none, false, [], 0, none⟩

/-- A processor as shipped: slot 0, nothing staged, no floor burned (log 9). -/
def Proc.fresh : Proc := ⟨[], none, 0, 0, 0, 0⟩

/-- No session, no job, no licence, an empty measurement log. -/
def Fw.fresh : Fw :=
  { calls := [], payload := [], sess := [], jobs := [], procs := [], slots := [], last := [], act := none, lics := [],
    chunks := [], mlog := [], mboot := 0, mchain := List.replicate 64 0, mdrop := 0, reports := [], recovery := false }

/-- An arbiter that nothing has used. -/
def Arb.fresh : Arb := ⟨0, [], [], [], [], [], [], [], [], 0, none⟩

/-- Every bucket full at RATE_MAX, no sample taken. -/
def Cls.fresh : Cls := ⟨[], [], [], 0, none, [], [], [], []⟩

/-- No error, no repair, nothing held. -/
def Ecc.fresh : Ecc :=
  { ce := [], rows := [], cols := [], hbmRows := [], repairs := [], held := [], fused := [], lastHbm := none, rngHeld := [], region := none,
    bankCe := [], finds := [], owed := [] }

def HostIf.fresh : HostIf := ⟨[], [], none, [], [], false, [], [], [], []⟩

def Pmc.fresh : Pmc := ⟨[], [], 0, 0, [], [], []⟩

/-- The module right after a cold power-on (R298: every array zero). -/
def State.reset : State :=
  { pending := [], clk := ⟨0, false⟩, fresh := 0, out := [], modId := 0, regs := [], mem := [], poison := [], towersDown := [],
    cores := [], clusters := [], lmap := [], llc := .empty, ecc := .fresh, vert := .fresh, pwr := .fresh, therm := ⟨[], [], []⟩,
    adm := ⟨[], [], 0, [], [], [], []⟩, md := .fresh, host := .fresh, ras := ⟨[], 0, [], []⟩, msix := ⟨false, false, [], [], [], []⟩, fw := .fresh, cls := .fresh, lup := .fresh, pmc := .fresh, programs := [], contexts := [], tasks := [] }

end Sys2Proof.Machine
end

