-- ==== Sys2Proof/Machine/Tab.lean ====
section
/-! DEFINITION. Sparse tables, byte memory and poison: the operations that every unit shares. -/

namespace Sys2Proof.Machine

/-- The value of a key: the first pair of the key, else the default. -/
def tget {V : Type} (d : V) : Tab V → Nat → V
  | [], _ => d
  | (a, v) :: t, k => if a = k then v else tget d t k

/-- Inserts a pair before the first larger key. -/
def tins {V : Type} (k : Nat) (v : V) : Tab V → Tab V
  | [] => [(k, v)]
  | (a, w) :: t => if k < a then (k, v) :: (a, w) :: t else (a, w) :: tins k v t

/-- Writes a key, keeping the canonical form: no pair of another value of the key, none at the default. -/
def tset {V : Type} [DecidableEq V] (d : V) (t : Tab V) (k : Nat) (v : V) : Tab V :=
  let t' := t.filter (fun p => decide (p.1 ≠ k))
  if v = d then t' else tins k v t'

/-- The canonical form: keys strictly rising, no value at the default. -/
def Tab.wf {V : Type} [DecidableEq V] (d : V) : Tab V → Bool
  | [] => true
  | [(_, v)] => decide (v ≠ d)
  | (a, v) :: (b, w) :: t => decide (v ≠ d) && decide (a < b) && Tab.wf d ((b, w) :: t)

/-! ## Bytes of the device's memory: every address reads zero until written (R298). -/

/-- One byte at a device address. -/
def memGet (m : List Host.Cell) (a : Nat) : Byte := tget 0#8 m a

def memSet (m : List Host.Cell) (a : Nat) (b : Byte) : List Host.Cell := tset 0#8 m a b

/-- The canonical form of the memory. -/
def Memory.wf (m : List Host.Cell) : Bool := Tab.wf (0#8 : Byte) m

/-- `n` bytes from an address, as numbers. -/
def readBytes (m : List Host.Cell) (a n : Nat) : List Nat :=
  (List.range n).map (fun i => (memGet m (a + i)).toNat)

/-- Writes bytes upward from an address. -/
def writeBytes (m : List Host.Cell) (a : Nat) : List Nat → List Host.Cell
  | [] => m
  | b :: bs => writeBytes (memSet m a (BitVec.ofNat 8 b)) (a + 1) bs

/-- A little-endian number (R3). -/
def leNat : List Nat → Nat
  | [] => 0
  | b :: bs => b % 256 + 256 * leNat bs

/-- `n` little-endian bytes of a number. -/
def natLe : Nat → Nat → List Nat
  | 0, _ => []
  | n + 1, v => v % 256 :: natLe n (v / 256)

/-- Bytes `a` to `a + n − 1` of a structure as a number. -/
def fieldLe (bs : List Nat) (a n : Nat) : Nat := leNat ((bs.drop a).take n)

/-- Bytes set to zero from `a`, `n` of them: the memory without those cells. -/
def clearBytes (m : List Host.Cell) (a n : Nat) : List Host.Cell :=
  m.filter (fun p => decide (p.1 < a ∨ a + n ≤ p.1))

/-! ## Poison (R301, R302): 16-byte words by word number, ascending. -/

/-- Words that an access of `n` bytes touches. -/
def wordsOf (a n : Nat) : List Nat :=
  if n = 0 then [] else (List.range ((a + n - 1) / 16 - a / 16 + 1)).map (· + a / 16)

/-- Whether a byte range meets a poisoned word. -/
def isPoisoned (p : List Nat) (a n : Nat) : Bool := p.any (fun w => decide (16 * w < a + n ∧ a < 16 * w + 16))

/-- The address of the lowest poisoned word of a range. -/
def firstPoison (p : List Nat) (a n : Nat) : Option Nat :=
  (p.find? (fun w => decide (16 * w < a + n ∧ a < 16 * w + 16))).map (16 * ·)

/-- Inserts a number in an ascending list without repeats. -/
def insNat (k : Nat) : List Nat → List Nat
  | [] => [k]
  | a :: t => if k < a then k :: a :: t else if k = a then a :: t else a :: insNat k t

/-- Words that a write covers whole lose their poison (R302). -/
def coverPoison (p : List Nat) (a n : Nat) : List Nat :=
  p.filter (fun w => decide (¬ (a ≤ 16 * w ∧ 16 * w + 16 ≤ a + n)))

end Sys2Proof.Machine
end

