-- ==== Sys2Proof/Machine/RegTable.lean ====
section
/-! DEFINITION. The BAR0 registers as the manual's register tables give them: offset, fields, access code, reset value and
the events a field is kept through (R6, R9, R322). Reset values that the tables leave to fuses or flash are those of a part
without faults or licences (log 9). -/

namespace Sys2Proof.Machine

/-- Access codes (R6). -/
inductive Access where
  | rw | ro | wo | w1c | rwl | rwf
deriving DecidableEq, Repr

/-- A register field: bits, access, reset value, and the kept-through mask (M 1, C 2, T 4, K 8, P 16, LI 32, DI 64,
SB 128; R9). A field that is loaded from fuses or flash has mask 511: it holds what those hold, across every event. -/
structure Field where
  hi    : Nat
  lo    : Nat
  acc   : Access
  reset : Nat
  kept  : Nat
deriving DecidableEq, Repr

/-- A register, or an array of registers at a stride. `alt` gives element 14 of a class array its own reset values. -/
structure RegDef where
  base   : Nat
  stride : Nat
  count  : Nat
  fields : List Field
  alt    : List Nat
deriving DecidableEq, Repr

/-- TWR_VSTAT. -/
def rTwrVstat : RegDef :=
  ⟨0x2008000, 0x1000, 2,
   [⟨8, 0, .ro, 256, 511⟩,
    ⟨17, 9, .ro, 256, 511⟩,
    ⟨27, 18, .ro, 0, 511⟩],
   []⟩

/-- TWR_VCNT. -/
def rTwrVcnt : RegDef :=
  ⟨0x2008004, 0x1000, 2,
   [⟨14, 0, .ro, 0, 511⟩,
    ⟨29, 15, .ro, 0, 511⟩],
   []⟩

/-- TWR_VGRP. -/
def rTwrVgrp : RegDef :=
  ⟨0x2008008, 0x1000, 2,
   [⟨9, 0, .ro, 0, 511⟩,
    ⟨24, 10, .ro, 0, 511⟩],
   []⟩

/-- TWR_BSEL. -/
def rTwrBsel : RegDef :=
  ⟨0x200800C, 0x1000, 2,
   [⟨13, 0, .rw, 0, 254⟩,
    ⟨14, 14, .rw, 0, 254⟩],
   []⟩

/-- TWR_BSTAT. -/
def rTwrBstat : RegDef :=
  ⟨0x2008010, 0x1000, 2,
   [⟨2, 0, .ro, 0, 511⟩,
    ⟨8, 3, .ro, 0, 511⟩,
    ⟨14, 9, .ro, 0, 511⟩,
    ⟨16, 15, .ro, 0, 511⟩,
    ⟨18, 17, .ro, 0, 511⟩,
    ⟨19, 19, .ro, 0, 511⟩,
    ⟨31, 20, .ro, 0, 56⟩],
   []⟩

/-- TWR_CAL. -/
def rTwrCal : RegDef :=
  ⟨0x2008014, 0x1000, 2,
   [⟨1, 0, .ro, 0, 56⟩,
    ⟨9, 2, .ro, 0, 56⟩,
    ⟨10, 10, .w1c, 0, 120⟩],
   []⟩

/-- ADM_TICK_LO. -/
def rAdmTickLo : RegDef :=
  ⟨0x200008, 0x4, 1,
   [⟨31, 0, .ro, 0, 254⟩],
   []⟩

/-- ADM_TICK_HI. -/
def rAdmTickHi : RegDef :=
  ⟨0x20000C, 0x4, 1,
   [⟨31, 0, .ro, 0, 254⟩],
   []⟩

/-- THM_MONSEL. -/
def rThmMonsel : RegDef :=
  ⟨0x302000, 0x4, 1,
   [⟨9, 0, .rw, 0, 254⟩],
   []⟩

/-- THM_MONDAT. -/
def rThmMondat : RegDef :=
  ⟨0x302004, 0x4, 1,
   [⟨8, 0, .ro, 0, 56⟩,
    ⟨17, 9, .ro, 0, 56⟩,
    ⟨18, 18, .ro, 0, 56⟩],
   []⟩

/-- PWR_CFLOOR. -/
def rPwrCfloor : RegDef :=
  ⟨0x301000, 0x8, 64,
   [⟨9, 0, .ro, 0, 56⟩,
    ⟨18, 10, .ro, 0, 56⟩,
    ⟨21, 19, .ro, 0, 56⟩,
    ⟨22, 22, .ro, 0, 56⟩,
    ⟨23, 23, .ro, 0, 56⟩,
    ⟨24, 24, .ro, 0, 511⟩],
   []⟩

/-- PWR_CRATE. -/
def rPwrCrate : RegDef :=
  ⟨0x301004, 0x8, 64,
   [⟨8, 0, .ro, 0, 56⟩,
    ⟨16, 9, .ro, 0, 56⟩,
    ⟨25, 17, .ro, 256, 56⟩],
   []⟩

/-- TWR_GSEL. -/
def rTwrGsel : RegDef :=
  ⟨0x2008018, 0x1000, 2,
   [⟨9, 0, .rw, 0, 254⟩],
   []⟩

/-- TWR_GSTAT. -/
def rTwrGstat : RegDef :=
  ⟨0x200801C, 0x1000, 2,
   [⟨6, 0, .ro, 0, 511⟩,
    ⟨13, 7, .ro, 0, 511⟩,
    ⟨14, 14, .ro, 0, 511⟩,
    ⟨15, 15, .ro, 0, 511⟩,
    ⟨17, 16, .ro, 0, 511⟩,
    ⟨25, 18, .ro, 0, 56⟩],
   []⟩

/-- LLC_RESCFG. -/
def rLlcRescfg : RegDef :=
  ⟨0x200C000, 0x4, 1,
   [⟨3, 0, .rwl, 0, 254⟩,
    ⟨7, 4, .rwl, 0, 254⟩,
    ⟨11, 8, .rwl, 0, 254⟩,
    ⟨15, 12, .rwl, 0, 254⟩,
    ⟨16, 16, .ro, 0, 254⟩],
   []⟩

/-- LLC_PINCFG. -/
def rLlcPincfg : RegDef :=
  ⟨0x200C004, 0x4, 1,
   [⟨3, 0, .rwl, 12, 254⟩],
   []⟩

/-- LLC_PINBUD. -/
def rLlcPinbud : RegDef :=
  ⟨0x200C040, 0x4, 16,
   [⟨13, 0, .rwl, 1024, 254⟩],
   []⟩

/-- LLC_PLACE_RNG. -/
def rLlcPlaceRng : RegDef :=
  ⟨0x200C100, 0x8, 16,
   [⟨12, 0, .rwl, 0, 254⟩,
    ⟨25, 13, .rwl, 0, 254⟩],
   []⟩

/-- LLC_PLACE_ATTR. -/
def rLlcPlaceAttr : RegDef :=
  ⟨0x200C104, 0x8, 16,
   [⟨1, 0, .rwl, 0, 254⟩,
    ⟨2, 2, .rwl, 0, 254⟩,
    ⟨6, 3, .rwl, 0, 254⟩,
    ⟨7, 7, .ro, 0, 254⟩],
   []⟩

/-- LLC_HSTAT. -/
def rLlcHstat : RegDef :=
  ⟨0x200C200, 0x4, 4,
   [⟨8, 0, .ro, 0, 511⟩,
    ⟨22, 9, .ro, 0, 56⟩,
    ⟨31, 23, .w1c, 0, 56⟩],
   []⟩

/-- ECC_RGN_RNG. -/
def rEccRgnRng : RegDef :=
  ⟨0x200E000, 0x8, 64,
   [⟨12, 0, .rwl, 0, 254⟩,
    ⟨25, 13, .rwl, 0, 254⟩],
   []⟩

/-- ECC_RGN_ATTR. -/
def rEccRgnAttr : RegDef :=
  ⟨0x200E004, 0x8, 64,
   [⟨1, 0, .rwl, 0, 254⟩,
    ⟨2, 2, .rwl, 0, 254⟩,
    ⟨3, 3, .ro, 0, 254⟩,
    ⟨4, 4, .ro, 0, 254⟩],
   []⟩

/-- ECC_UCE. -/
def rEccUce : RegDef :=
  ⟨0x200E400, 0x10, 15,
   [⟨31, 0, .ro, 0, 254⟩],
   []⟩

/-- ECC_UUE. -/
def rEccUue : RegDef :=
  ⟨0x200E404, 0x10, 15,
   [⟨15, 0, .ro, 0, 254⟩,
    ⟨31, 16, .ro, 0, 254⟩],
   []⟩

/-- ECC_USPR. -/
def rEccUspr : RegDef :=
  ⟨0x200E408, 0x10, 15,
   [⟨13, 0, .ro, 0, 511⟩,
    ⟨23, 14, .ro, 0, 511⟩,
    ⟨31, 24, .ro, 0, 511⟩],
   []⟩

/-- ECC_CCLR. -/
def rEccCclr : RegDef :=
  ⟨0x200E3FC, 0x4, 1,
   [⟨14, 0, .wo, 0, 0⟩],
   []⟩

/-- LNK_HSTAT. -/
def rLnkHstat : RegDef :=
  ⟨0xE000, 0x4, 1,
   [⟨1, 0, .ro, 0, 254⟩,
    ⟨4, 2, .ro, 0, 254⟩,
    ⟨9, 5, .ro, 0, 254⟩,
    ⟨10, 10, .ro, 0, 56⟩,
    ⟨11, 11, .ro, 0, 254⟩,
    ⟨12, 12, .ro, 0, 254⟩],
   []⟩

/-- LNK_B2BASE. -/
def rLnkB2base : RegDef :=
  ⟨0xE008, 0x4, 1,
   [⟨23, 0, .rw, 0, 254⟩],
   []⟩

/-- LNK_BIASRNG. -/
def rLnkBiasrng : RegDef :=
  ⟨0xE010, 0x4, 1,
   [⟨16, 0, .rw, 0, 254⟩],
   []⟩

/-- LNK_BIASCMD. -/
def rLnkBiascmd : RegDef :=
  ⟨0xE014, 0x4, 1,
   [⟨17, 0, .wo, 0, 0⟩,
    ⟨18, 18, .wo, 0, 0⟩],
   []⟩

/-- LNK_BIASSTAT. -/
def rLnkBiasstat : RegDef :=
  ⟨0xE018, 0x4, 1,
   [⟨0, 0, .ro, 0, 254⟩,
    ⟨1, 1, .w1c, 0, 254⟩,
    ⟨3, 2, .ro, 0, 254⟩],
   []⟩

/-- ADM_CTRL. -/
def rAdmCtrl : RegDef :=
  ⟨0x200000, 0x4, 1,
   [⟨15, 0, .rwl, 10000, 254⟩],
   []⟩

/-- ADM_STAT. -/
def rAdmStat : RegDef :=
  ⟨0x200004, 0x4, 1,
   [⟨16, 0, .ro, 0, 254⟩,
    ⟨17, 17, .ro, 0, 56⟩],
   []⟩

/-- ADM_QSEL. -/
def rAdmQsel : RegDef :=
  ⟨0x200010, 0x4, 1,
   [⟨19, 0, .rw, 0, 254⟩],
   []⟩

/-- ADM_QSTAT. -/
def rAdmQstat : RegDef :=
  ⟨0x200014, 0x4, 1,
   [⟨1, 0, .ro, 0, 254⟩,
    ⟨21, 2, .ro, 0, 254⟩,
    ⟨29, 22, .ro, 0, 254⟩],
   []⟩

/-- ADM_REFCNT. -/
def rAdmRefcnt : RegDef :=
  ⟨0x200044, 0x4, 9,
   [⟨31, 0, .ro, 0, 254⟩],
   []⟩

/-- ADM_CCFG. -/
def rAdmCcfg : RegDef :=
  ⟨0x200100, 0x10, 16,
   [⟨0, 0, .rwl, 0, 254⟩,
    ⟨17, 1, .rwl, 65536, 254⟩],
   []⟩

/-- ADM_CLMASK_LO. -/
def rAdmClmaskLo : RegDef :=
  ⟨0x200104, 0x10, 16,
   [⟨31, 0, .rwl, 0, 254⟩],
   []⟩

/-- ADM_CLMASK_HI. -/
def rAdmClmaskHi : RegDef :=
  ⟨0x200108, 0x10, 16,
   [⟨31, 0, .rwl, 0, 254⟩],
   []⟩

/-- ADM_CSTAT. -/
def rAdmCstat : RegDef :=
  ⟨0x20010C, 0x10, 16,
   [⟨16, 0, .ro, 0, 254⟩],
   []⟩

/-- ADM_CTGT. -/
def rAdmCtgt : RegDef :=
  ⟨0x200400, 0x10, 16,
   [⟨11, 0, .rwl, 64, 254⟩],
   [1024]⟩

/-- ADM_CRATE. -/
def rAdmCrate : RegDef :=
  ⟨0x200404, 0x10, 16,
   [⟨10, 0, .rwl, 1024, 254⟩,
    ⟨21, 11, .rwl, 64, 254⟩],
   [64, 16]⟩

/-- ADM_CREG. -/
def rAdmCreg : RegDef :=
  ⟨0x200408, 0x10, 16,
   [⟨8, 0, .ro, 256, 254⟩,
    ⟨17, 9, .rwl, 128, 254⟩,
    ⟨20, 18, .ro, 0, 254⟩,
    ⟨21, 21, .ro, 0, 254⟩],
   []⟩

/-- ADM_CMISS. -/
def rAdmCmiss : RegDef :=
  ⟨0x20040C, 0x10, 16,
   [⟨31, 0, .ro, 0, 254⟩],
   []⟩

/-- LNK_HCLASS. -/
def rLnkHclass : RegDef :=
  ⟨0xE020, 0x4, 1,
   [⟨3, 0, .rw, 13, 254⟩,
    ⟨7, 4, .rw, 13, 254⟩],
   []⟩

/-- MBX_CMD. -/
def rMbxCmd : RegDef :=
  ⟨0x10000, 0x2000, 16,
   [⟨15, 0, .rw, 0, 254⟩,
    ⟨16, 16, .rw, 0, 254⟩,
    ⟨29, 17, .rw, 0, 254⟩,
    ⟨31, 31, .wo, 0, 0⟩],
   []⟩

/-- MBX_STAT. -/
def rMbxStat : RegDef :=
  ⟨0x10004, 0x2000, 16,
   [⟨1, 0, .ro, 0, 254⟩,
    ⟨3, 2, .ro, 0, 254⟩,
    ⟨15, 8, .ro, 0, 254⟩,
    ⟨28, 16, .ro, 0, 254⟩],
   []⟩

/-- MBX_SESS. -/
def rMbxSess : RegDef :=
  ⟨0x10008, 0x2000, 16,
   [⟨15, 0, .ro, 0, 254⟩,
    ⟨31, 16, .ro, 0, 254⟩],
   []⟩

/-- MBX_LOCK. -/
def rMbxLock : RegDef :=
  ⟨0x30000, 0x4, 1,
   [⟨11, 0, .ro, 0, 254⟩,
    ⟨16, 12, .ro, 0, 254⟩],
   []⟩

/-- MBX_DSEL. -/
def rMbxDsel : RegDef :=
  ⟨0x30200, 0x4, 1,
   [⟨2, 0, .rw, 0, 254⟩],
   []⟩

/-- MBX_DSTAT. -/
def rMbxDstat : RegDef :=
  ⟨0x30204, 0x4, 1,
   [⟨6, 0, .w1c, 0, 255⟩],
   []⟩

/-- MBX_PSTAT. -/
def rMbxPstat : RegDef :=
  ⟨0x30100, 0x8, 7,
   [⟨2, 0, .ro, 4, 254⟩,
    ⟨3, 3, .ro, 0, 511⟩,
    ⟨5, 4, .ro, 0, 254⟩,
    ⟨6, 6, .ro, 0, 255⟩,
    ⟨7, 7, .ro, 0, 254⟩,
    ⟨31, 16, .ro, 0, 254⟩],
   []⟩

/-- MBX_WDT. -/
def rMbxWdt : RegDef :=
  ⟨0x30104, 0x8, 7,
   [⟨6, 0, .rwl, 20, 254⟩],
   []⟩

/-- PWR_CTRL. -/
def rPwrCtrl : RegDef :=
  ⟨0x300000, 0x4, 1,
   [⟨6, 0, .rwl, 35, 254⟩,
    ⟨12, 7, .rwl, 10, 254⟩],
   []⟩

/-- PWR_LIM. -/
def rPwrLim : RegDef :=
  ⟨0x300004, 0x4, 1,
   [⟨11, 0, .ro, 1800, 511⟩,
    ⟨23, 12, .ro, 1800, 511⟩,
    ⟨24, 24, .ro, 0, 254⟩,
    ⟨25, 25, .ro, 0, 254⟩,
    ⟨26, 26, .ro, 0, 254⟩],
   []⟩

/-- PWR_CF. -/
def rPwrCf : RegDef :=
  ⟨0x300008, 0x4, 1,
   [⟨11, 0, .ro, 0, 254⟩,
    ⟨23, 12, .ro, 0, 254⟩,
    ⟨31, 24, .ro, 0, 254⟩],
   []⟩

/-- PWR_PTICK_LO. -/
def rPwrPtickLo : RegDef :=
  ⟨0x300010, 0x4, 1,
   [⟨31, 0, .ro, 0, 254⟩],
   []⟩

/-- PWR_PTICK_HI. -/
def rPwrPtickHi : RegDef :=
  ⟨0x300014, 0x4, 1,
   [⟨31, 0, .ro, 0, 254⟩],
   []⟩

/-- PWR_EVT. -/
def rPwrEvt : RegDef :=
  ⟨0x300018, 0x4, 1,
   [⟨7, 0, .w1c, 0, 254⟩,
    ⟨15, 8, .rw, 0, 254⟩],
   []⟩

/-- PWR_PROF. -/
def rPwrProf : RegDef :=
  ⟨0x300040, 0x4, 16,
   [⟨11, 0, .ro, 0, 254⟩],
   []⟩

/-- PWR_CONV. -/
def rPwrConv : RegDef :=
  ⟨0x303010, 0x4, 1,
   [⟨3, 0, .ro, 15, 511⟩,
    ⟨19, 4, .ro, 65535, 511⟩],
   []⟩

/-- PWR_DSEL. -/
def rPwrDsel : RegDef :=
  ⟨0x303000, 0x4, 1,
   [⟨6, 0, .rw, 0, 254⟩],
   []⟩

/-- PWR_DSTAT. -/
def rPwrDstat : RegDef :=
  ⟨0x303004, 0x4, 1,
   [⟨15, 0, .ro, 0, 511⟩,
    ⟨18, 16, .ro, 0, 56⟩,
    ⟨26, 19, .ro, 0, 511⟩,
    ⟨27, 27, .ro, 0, 56⟩,
    ⟨28, 28, .ro, 0, 56⟩],
   []⟩

/-- THM_DSTAT. -/
def rThmDstat : RegDef :=
  ⟨0x302100, 0x4, 7,
   [⟨8, 0, .ro, 0, 56⟩,
    ⟨11, 9, .ro, 0, 56⟩,
    ⟨18, 12, .ro, 0, 56⟩,
    ⟨19, 19, .ro, 0, 255⟩,
    ⟨20, 20, .ro, 0, 56⟩,
    ⟨21, 21, .ro, 0, 56⟩],
   []⟩

/-- THM_EST. -/
def rThmEst : RegDef :=
  ⟨0x302120, 0x4, 2,
   [⟨8, 0, .ro, 0, 56⟩,
    ⟨17, 9, .ro, 0, 56⟩,
    ⟨26, 18, .ro, 0, 56⟩],
   []⟩

/-- THM_WWIN. -/
def rThmWwin : RegDef :=
  ⟨0x302140, 0x4, 1,
   [⟨6, 0, .rwl, 10, 254⟩,
    ⟨13, 7, .rwl, 85, 254⟩],
   []⟩

/-- THM_NVCFG. -/
def rThmNvcfg : RegDef :=
  ⟨0x302144, 0x4, 1,
   [⟨7, 0, .rwl, 255, 254⟩],
   []⟩

/-- THM_WSTAT. -/
def rThmWstat : RegDef :=
  ⟨0x302148, 0x4, 1,
   [⟨3, 0, .ro, 0, 56⟩,
    ⟨7, 4, .ro, 0, 56⟩],
   []⟩

/-- TWR_CLCORE. -/
def rTwrClcore : RegDef :=
  ⟨0x100, 0x4, 64,
   [⟨3, 0, .ro, 8, 511⟩,
    ⟨4, 4, .ro, 1, 511⟩,
    ⟨5, 5, .ro, 0, 511⟩,
    ⟨9, 6, .ro, 8, 511⟩,
    ⟨18, 10, .ro, 0, 511⟩,
    ⟨19, 19, .ro, 0, 511⟩,
    ⟨20, 20, .ro, 0, 254⟩,
    ⟨21, 21, .ro, 0, 254⟩,
    ⟨25, 22, .ro, 15, 511⟩],
   []⟩

/-- ADM_COVER_LO. -/
def rAdmCoverLo : RegDef :=
  ⟨0x200020, 0x4, 1,
   [⟨31, 0, .rwl, 0, 254⟩],
   []⟩

/-- ADM_COVER_HI. -/
def rAdmCoverHi : RegDef :=
  ⟨0x200024, 0x4, 1,
   [⟨31, 0, .rwl, 0, 254⟩],
   []⟩

/-- MBX_LOGHEAD. -/
def rMbxLoghead : RegDef :=
  ⟨0x2000000, 0x4, 1,
   [⟨11, 0, .ro, 0, 254⟩,
    ⟨31, 12, .ro, 0, 254⟩],
   []⟩

/-- MBX_LOGSTAT. -/
def rMbxLogstat : RegDef :=
  ⟨0x2000008, 0x4, 1,
   [⟨15, 0, .w1c, 0, 254⟩],
   []⟩

/-- MBX_ALERT. -/
def rMbxAlert : RegDef :=
  ⟨0x200000C, 0x4, 1,
   [⟨0, 0, .w1c, 0, 254⟩,
    ⟨1, 1, .ro, 0, 254⟩],
   []⟩

/-- LUP_LSTAT. -/
def rLupLstat : RegDef :=
  ⟨0x2010000, 0x10, 8,
   [⟨2, 0, .ro, 0, 254⟩,
    ⟨3, 3, .ro, 0, 254⟩,
    ⟨7, 4, .ro, 0, 254⟩,
    ⟨13, 8, .ro, 0, 254⟩,
    ⟨14, 14, .ro, 0, 254⟩,
    ⟨15, 15, .ro, 0, 254⟩],
   []⟩

/-- LUP_LERR. -/
def rLupLerr : RegDef :=
  ⟨0x2010004, 0x10, 8,
   [⟨15, 0, .ro, 0, 254⟩,
    ⟨31, 16, .ro, 0, 254⟩],
   []⟩

/-- LUP_LCTL. -/
def rLupLctl : RegDef :=
  ⟨0x2010008, 0x10, 8,
   [⟨0, 0, .rwl, 0, 254⟩,
    ⟨1, 1, .wo, 0, 0⟩],
   []⟩

/-- LUP_DSTAT. -/
def rLupDstat : RegDef :=
  ⟨0x2010100, 0x4, 1,
   [⟨5, 0, .ro, 0, 254⟩,
    ⟨6, 6, .ro, 0, 254⟩,
    ⟨7, 7, .ro, 0, 254⟩,
    ⟨14, 8, .ro, 0, 254⟩,
    ⟨15, 15, .ro, 0, 254⟩,
    ⟨16, 16, .ro, 0, 254⟩],
   []⟩

/-- LUP_REACH_LO. -/
def rLupReachLo : RegDef :=
  ⟨0x2010104, 0x4, 1,
   [⟨31, 0, .ro, 0, 254⟩],
   []⟩

/-- LUP_REACH_HI. -/
def rLupReachHi : RegDef :=
  ⟨0x2010108, 0x4, 1,
   [⟨31, 0, .ro, 0, 254⟩],
   []⟩

/-- LUP_RTSEL. -/
def rLupRtsel : RegDef :=
  ⟨0x201010C, 0x4, 1,
   [⟨5, 0, .rw, 0, 254⟩],
   []⟩

/-- LUP_RTE. -/
def rLupRte : RegDef :=
  ⟨0x2010110, 0x4, 1,
   [⟨3, 0, .ro, 0, 254⟩,
    ⟨7, 4, .ro, 15, 254⟩],
   []⟩

/-- LUP_MBXTGT. -/
def rLupMbxtgt : RegDef :=
  ⟨0x2010200, 0x4, 16,
   [⟨5, 0, .rw, 0, 254⟩],
   []⟩

/-- PMC_GCTL. -/
def rPmcGctl : RegDef :=
  ⟨0x1000000, 0x4, 1,
   [⟨0, 0, .rw, 0, 252⟩,
    ⟨1, 1, .rw, 0, 252⟩,
    ⟨2, 2, .rw, 0, 252⟩,
    ⟨31, 16, .w1c, 0, 252⟩],
   []⟩

/-- PMC_DUMPCFG. -/
def rPmcDumpcfg : RegDef :=
  ⟨0x1000004, 0x4, 1,
   [⟨19, 0, .rw, 1000, 252⟩,
    ⟨26, 20, .rw, 0, 252⟩,
    ⟨27, 27, .rw, 0, 252⟩,
    ⟨28, 28, .rw, 0, 252⟩],
   []⟩

/-- PMC_RINGCFG. -/
def rPmcRingcfg : RegDef :=
  ⟨0x1000008, 0x4, 1,
   [⟨4, 0, .rw, 16, 252⟩],
   []⟩

/-- PMC_RINGHEAD. -/
def rPmcRinghead : RegDef :=
  ⟨0x100000C, 0x4, 1,
   [⟨29, 0, .ro, 0, 252⟩],
   []⟩

/-- PMC_RINGTAIL. -/
def rPmcRingtail : RegDef :=
  ⟨0x1000010, 0x4, 1,
   [⟨29, 0, .rw, 0, 252⟩],
   []⟩

/-- PMC_RINGSTAT. -/
def rPmcRingstat : RegDef :=
  ⟨0x1000014, 0x4, 1,
   [⟨15, 0, .w1c, 0, 252⟩,
    ⟨31, 16, .w1c, 0, 252⟩],
   []⟩

/-- PMC_BWWIN. -/
def rPmcBwwin : RegDef :=
  ⟨0x1000018, 0x4, 1,
   [⟨19, 0, .rw, 100, 252⟩],
   []⟩

/-- PMC_FLTA. -/
def rPmcFlta : RegDef :=
  ⟨0x1000100, 0x10, 16,
   [⟨2, 0, .rw, 7, 252⟩,
    ⟨7, 3, .rw, 31, 252⟩,
    ⟨23, 8, .rw, 65535, 252⟩,
    ⟨24, 24, .rw, 0, 252⟩,
    ⟨25, 25, .rw, 0, 252⟩],
   []⟩

/-- PMC_FLTB. -/
def rPmcFltb : RegDef :=
  ⟨0x1000104, 0x10, 16,
   [⟨9, 0, .rw, 0, 252⟩,
    ⟨19, 10, .rw, 575, 252⟩],
   []⟩

/-- PMC_FABASE. -/
def rPmcFabase : RegDef :=
  ⟨0x1000108, 0x10, 16,
   [⟨26, 0, .rw, 0, 252⟩],
   []⟩

/-- PMC_FALIM. -/
def rPmcFalim : RegDef :=
  ⟨0x100010C, 0x10, 16,
   [⟨26, 0, .rw, 134217727, 252⟩],
   []⟩

def regTable0 : List RegDef :=
  [rTwrVstat, rTwrVcnt, rTwrVgrp, rTwrBsel, rTwrBstat, rTwrCal, rAdmTickLo, rAdmTickHi, rThmMonsel, rThmMondat, rPwrCfloor, rPwrCrate, rTwrGsel, rTwrGstat, rLlcRescfg, rLlcPincfg, rLlcPinbud, rLlcPlaceRng, rLlcPlaceAttr, rLlcHstat]

def regTable1 : List RegDef :=
  [rEccRgnRng, rEccRgnAttr, rEccUce, rEccUue, rEccUspr, rEccCclr, rLnkHstat, rLnkB2base, rLnkBiasrng, rLnkBiascmd, rLnkBiasstat, rAdmCtrl, rAdmStat, rAdmQsel, rAdmQstat, rAdmRefcnt, rAdmCcfg, rAdmClmaskLo, rAdmClmaskHi, rAdmCstat]

def regTable2 : List RegDef :=
  [rAdmCtgt, rAdmCrate, rAdmCreg, rAdmCmiss, rLnkHclass, rMbxCmd, rMbxStat, rMbxSess, rMbxLock, rMbxDsel, rMbxDstat, rMbxPstat, rMbxWdt, rPwrCtrl, rPwrLim, rPwrCf, rPwrPtickLo, rPwrPtickHi, rPwrEvt, rPwrProf]

def regTable3 : List RegDef :=
  [rPwrConv, rPwrDsel, rPwrDstat, rThmDstat, rThmEst, rThmWwin, rThmNvcfg, rThmWstat, rTwrClcore, rAdmCoverLo, rAdmCoverHi, rMbxLoghead, rMbxLogstat, rMbxAlert, rLupLstat, rLupLerr, rLupLctl, rLupDstat, rLupReachLo, rLupReachHi]

def regTable4 : List RegDef :=
  [rLupRtsel, rLupRte, rLupMbxtgt, rPmcGctl, rPmcDumpcfg, rPmcRingcfg, rPmcRinghead, rPmcRingtail, rPmcRingstat, rPmcBwwin, rPmcFlta, rPmcFltb, rPmcFabase, rPmcFalim]

/-- Every register of the tables, but for those of the counter blocks. -/
def regTable : List RegDef := regTable0 ++ regTable1 ++ regTable2 ++ regTable3 ++ regTable4

/-- The offset of element `i` of a register. -/
def RegDef.at (r : RegDef) (i : Nat) : Nat := r.base + i * r.stride

/-- Whether the offset is one of the register's, and which element. -/
def RegDef.hit (r : RegDef) (off : Nat) : Option Nat :=
  if r.base ≤ off ∧ (off - r.base) % r.stride = 0 ∧ (off - r.base) / r.stride < r.count then some ((off - r.base) / r.stride)
  else none

/-- Fields of a counter's select register (chapter 21); OVF_INT only for a core, EVENT not for a port. -/
def selFields (core port : Bool) : List Field :=
  let k := if core then 248 else 252
  (if port then [] else [⟨7, 0, .rw, 0, k⟩]) ++ [⟨11, 8, .rw, 0, k⟩, ⟨12, 12, .rw, 0, k⟩] ++
    (if core then [⟨13, 13, .rw, 0, k⟩] else []) ++ [⟨14, 14, .rw, 0, k⟩]

/-- Select registers and derived bandwidth of the counter blocks (R517 and chapter 21's register tables). -/
def pmcRegAt (off : Nat) : Option (RegDef × Nat) :=
  let el := fun (base stride lo hi count : Nat) (fs : List Field) =>
    let o := (off - base) % stride
    let i := (off - base) / stride
    if i < count ∧ lo ≤ o ∧ o < hi ∧ o % 4 = 0 then some (⟨base + o, stride, count, fs, []⟩, i) else none
  if off < 0x01034000 then el 0x01010000 0x100 0x60 0x80 576 (selFields true false)
  else if off < 0x01038000 then el 0x01034000 0x100 0x80 0xC0 4 (selFields false false)
  else if off < 0x01040000 then el 0x01038000 0x80 0x40 0x60 64 (selFields false false)
  else if (off - 0x01040000) % 0x40 = 0x28 then el 0x01040000 0x40 0x28 0x2C 4234 (selFields false true)
  else el 0x01040000 0x40 0x20 0x28 4234 [⟨31, 0, .ro, 0, 56⟩]

/-- The register that stands at an offset (R322: none elsewhere). -/
def regAt (off : Nat) : Option (RegDef × Nat) :=
  if 0x01010000 ≤ off ∧ off < 0x02000000 then pmcRegAt off
  else regTable.findSome? (fun r => (r.hit off).map (fun i => (r, i)))

/-- The reset value of element `i` of a register. -/
def RegDef.resetVal (r : RegDef) (i : Nat) : Word :=
  let vals := if i = 14 ∧ r.alt ≠ [] then r.alt else r.fields.map (·.reset)
  BitVec.ofNat 32 ((r.fields.zip vals).foldl (fun a (f, v) => a + v * 2 ^ f.lo) 0)

/-- The reset value at an offset; offsets without a register read zero (R322). -/
def regReset (off : Nat) : Word :=
  match regAt off with
  | none => 0
  | some (r, i) => r.resetVal i

/-- The stored value of a register. -/
def State.reg (s : State) (off : Nat) : Word := tget (regReset off) s.regs off

/-- Stores a register value. -/
def State.setReg (s : State) (off : Nat) (v : Word) : State := { s with regs := tset (regReset off) s.regs off v }

/-- A field of a stored register, and its change. -/
def State.regField (s : State) (off hi lo : Nat) : Nat := bits (s.reg off) hi lo
def State.setField (s : State) (off hi lo v : Nat) : State :=
  s.setReg off (BitVec.ofNat 32 (putBits (s.reg off).toNat hi lo v))
def State.regBit (s : State) (off i : Nat) : Bool := (s.reg off).getLsbD i

end Sys2Proof.Machine
end

