-- ==== Sys2Proof/Machine/Count.lean ====
section
/-! DEFINITION. Counting: the hardware counters, their events and filters (R517 to R521, R524). -/

namespace Sys2Proof.Machine

def oPmc : Nat := 0x01000000

/-- Pair numbers of the counters of a core, cluster, half and port, and of PMC_TCLS (R517). -/
def pairCore (c n : Nat) : Nat := 0x2000 + 0x20 * c + n
def pairCluster (c n : Nat) : Nat := 0x7000 + 0x10 * c + n
def pairHalf (h n : Nat) : Nat := 0x6800 + 0x20 * h + n
def pairPort (q n : Nat) : Nat := 0x8000 + 8 * q + n
def pairClass (c k : Nat) : Nat := 0x80 + 8 * c + k

/-- A counter's value, and an addition to it, which wraps at 2^48 (R518). -/
def State.count (s : State) (pair : Nat) : Nat := tget 0 s.pmc.cnt pair
def State.setCount (s : State) (pair v : Nat) : State :=
  { s with pmc := { s.pmc with cnt := tset 0 s.pmc.cnt pair (v % 2 ^ 48) } }
def bump (s : State) (pair n : Nat) : State := if n = 0 then s else s.setCount pair (s.count pair + n)

/-- Whether counting is enabled and not frozen (R519, R523). -/
def counting (s : State) : Bool := s.regBit oPmc 0 && !s.regBit oPmc 2

/-- The dimensions of an occurrence (R520): class label, origin (0 user, 1 system, 2 firmware, 3 host), master, issuing core and
address; none where the dimension does not apply. -/
structure Dims where
  cls    : Option Nat
  origin : Option Nat
  master : Option Nat
  core   : Option Nat
  addr   : Option Nat
deriving DecidableEq, Repr

/-- Whether a filter set matches an occurrence (R520). -/
def filterHit (s : State) (f : Nat) (d : Dims) : Bool :=
  let a := (s.reg (oPmc + 0x100 + 16 * f)).toNat
  let b := (s.reg (oPmc + 0x104 + 16 * f)).toNat
  let lo := s.regField (oPmc + 0x108 + 16 * f) 26 0
  let hi := s.regField (oPmc + 0x10C + 16 * f) 26 0
  d.cls.all (fun c => nbit a (8 + c)) && d.origin.all (fun o => o == 3 || nbit a o) && d.master.all (fun m => nbit a (3 + m)) &&
  (!nbit a 25 || d.core.all (fun c => decide (nbits b 9 0 ≤ c ∧ c ≤ nbits b 19 10))) &&
  (!nbit a 24 || d.addr.all (fun x => decide (lo ≤ nbits x 47 21 ∧ nbits x 47 21 ≤ hi)))

/-- Blocks of programmable counters: offset of their select registers, number of counters, pair of the first (R517). Block 0
core, 1 cluster, 2 LLC half. -/
def selAt (block i m : Nat) : Nat :=
  if block = 0 then 0x01010060 + 0x100 * i + 4 * m else if block = 1 then 0x01038040 + 0x80 * i + 4 * m
  else 0x01034080 + 0x100 * i + 4 * m
def progCount (block : Nat) : Nat := if block = 2 then 16 else 8
def progPair (block i m : Nat) : Nat :=
  if block = 0 then pairCore i (4 + m) else if block = 1 then pairCluster i m else pairHalf i m

/-- Whether a programmable counter counts an occurrence of an event (R520, R521). -/
def selHit (s : State) (block i m code : Nat) (d : Dims) : Bool :=
  let w := (s.reg (selAt block i m)).toNat
  nbit w 14 && nbits w 7 0 == code && (!nbit w 12 || filterHit s (nbits w 11 8) d)

/-- A programmable counter of its block adds what its selector picks; a core's counter that passes 48 bits owes a record (R519). -/
def countSel (s : State) (block i code n : Nat) (d : Dims) (m : Nat) : State :=
  if !selHit s block i m code d then s
  else
    let v := s.count (progPair block i m) + n
    let s := s.setCount (progPair block i m) v
    if block = 0 ∧ 2 ^ 48 ≤ v ∧ s.regBit (selAt 0 i m) 13 then
      { s with pmc := { s.pmc with wraps := (i, 4 + m) :: s.pmc.wraps.filter (· != (i, 4 + m)) } }
    else s

/-- `n` occurrences of an event in a block (R521); a core counter with OVF_INT that wraps waits for its sample (R529). -/
def countEvent (s : State) (block i code n : Nat) (d : Dims) : State :=
  if n = 0 ∨ ¬ counting s then s
  else (List.range (progCount block)).foldl (fun s m => countSel s block i code n d m) s

/-- The task that a core holds, for counting: its class and origin (R520). -/
def coreDims (s : State) (c : Nat) (addr : Option Nat) : Dims :=
  match (tget Core.idle s.cores c).task.bind (tget none s.tasks) with
  | none => ⟨none, none, none, none, addr⟩
  | some t => ⟨some t.cls, some (if nbit t.flags 4 then 1 else 0), none, none, addr⟩

/-- Occurrences of a core event. -/
def countCore (s : State) (c code n : Nat) (addr : Option Nat) : State := countEvent s 0 c code n (coreDims s c addr)

/-- Occurrences of an event of a cluster or an LLC half that a core's request causes (blocks 1 and 2). -/
def countUnit (s : State) (block i c code n : Nat) (addr : Option Nat) : State :=
  countEvent s block i code n { coreDims s c addr with core := some c }

/-- Occurrences of a fixed counter of a core that holds a task (R519). -/
def countFixed (s : State) (c id n : Nat) : State :=
  if counting s ∧ (tget Core.idle s.cores c).task.isSome then bump s (pairCore c id) n else s

/-- Events that the model counts where they happen; every other occurrence comes with a command that reads the counters
(DESIGN CHOICE, log 32). -/
def ownCode (code : Nat) : Bool := [0x05, 0x06, 0x07, 0x08, 0x09, 0x0A, 0x0B, 0x0C, 0x0D, 0x0F, 0x12, 0x41, 0x42, 0x43, 0x46, 0x48, 0x84, 0x85, 0x86].contains code

/-- Dimensions that apply to an event of R521's table: class and origin, master, core range, address. -/
def codeDims (code : Nat) (d : Dims) : Dims :=
  let cp := !([0x43, 0x46, 0x47, 0x48].contains code)
  let m := [0x44, 0x45, 0x80, 0x81, 0x82, 0x83, 0x88, 0x89, 0x8A, 0x8C, 0x8D].contains code
  let r := m || [0x40, 0x41, 0x42, 0x84, 0x85, 0x86, 0x87].contains code
  let a := [0x06, 0x07, 0x08, 0x09, 0x0A, 0x0B, 0x0C].contains code || (decide (0x80 ≤ code) && code != 0x8B)
  ⟨if cp then d.cls else none, if cp && code != 0x8B then d.origin else none, if m then d.master else none,
   if r then d.core else none, if a then d.addr else none⟩

/-- Whether R521 lists a code for a block. -/
def codeOfBlock (block code : Nat) : Bool :=
  if block = 0 then decide (1 ≤ code ∧ code ≤ 0x12) else if block = 1 then decide (0x40 ≤ code ∧ code ≤ 0x48)
  else decide (0x80 ≤ code ∧ code ≤ 0x8D)

/-- Takes an occurrence that a command reports. A port (block 3) counts payload bytes and grants of one direction under its own
filter (R517, R522). -/
def takeOcc (s : State) (o : PmcOcc) : State :=
  let d : Dims := ⟨some o.cls, some o.origin, some o.master, o.core.map (·.val), o.addr⟩
  if o.block.val = 3 then
    let w := (s.reg (0x01040028 + 0x40 * o.index)).toNat
    if counting s ∧ o.index < 4234 ∧ o.code < 2 ∧ nbit w 14 ∧ (¬ nbit w 12 ∨ filterHit s (nbits w 11 8) d) then
      bump (bump s (pairPort o.index o.code) o.n) (pairPort o.index (2 + o.code)) o.reqs
    else s
  else if codeOfBlock o.block o.code ∧ ¬ ownCode o.code ∧
      o.index < (if o.block.val = 0 then 576 else if o.block.val = 1 then 64 else 4) then
    countEvent s o.block o.index o.code o.n (codeDims o.code d)
  else s

def takeOccs (s : State) (l : List PmcOcc) : State := l.foldl takeOcc s

end Sys2Proof.Machine
end

