-- ==== Sys2Proof/Machine/Ops.lean ====
section
/-! DEFINITION. The shared operations on cores, groups, threads and tasks (chapter 05), and the one way in which an
instruction issues and a thread faults. -/

namespace Sys2Proof.Machine

/-! ## Reading and writing units -/

def State.core (s : State) (c : Nat) : Core := tget Core.idle s.cores c
def State.setCore (s : State) (c : Nat) (k : Core) : State := { s with cores := tset Core.idle s.cores c k }
def State.modCore (s : State) (c : Nat) (f : Core → Core) : State := s.setCore c (f (s.core c))

def grp (k : Core) (g : Nat) : Group := tget Group.empty k.groups g
def setGrp (k : Core) (g : Nat) (v : Group) : Core := { k with groups := tset Group.empty k.groups g v }
def thr (gr : Group) (t : Nat) : Thread := tget Thread.dead gr.threads t
def setThr (gr : Group) (t : Nat) (v : Thread) : Group := { gr with threads := tset Thread.dead gr.threads t v }
def modThr (gr : Group) (t : Nat) (f : Thread → Thread) : Group := setThr gr t (f (thr gr t))

/-- Applies a change to each listed thread. -/
def modThrs (gr : Group) (ts : List Nat) (f : Nat → Thread → Thread) : Group :=
  ts.foldl (fun gr t => modThr gr t (f t)) gr

def State.modGrp (s : State) (c g : Nat) (f : Group → Group) : State :=
  s.modCore c (fun k => setGrp k g (f (grp k g)))

def State.modThread (s : State) (c g t : Nat) (f : Thread → Thread) : State :=
  s.modGrp c g (fun gr => modThr gr t f)

/-- Physical cores and groups in ascending order. -/
def allCores : List Nat := List.range 576
def allGroups : List Nat := List.range 16
def allThreads : List Nat := List.range 32

/-- The groups that a core holds, oldest first. -/
def heldGroups (k : Core) : List Nat := allGroups.filter (fun g => k.groups.any (fun p => p.1 == g))

/-- The live threads of a group (R120: those that have not executed EXIT). -/
def liveThreads (gr : Group) : List Nat := allThreads.filter (fun t => (thr gr t).live)

def State.task (s : State) (i : Nat) : Option Task := tget none s.tasks i
def State.setTask (s : State) (i : Nat) (t : Option Task) : State := { s with tasks := tset none s.tasks i t }
def State.modTask (s : State) (i : Nat) (f : Task → Task) : State :=
  match s.task i with
  | none => s
  | some t => s.setTask i (some (f t))

/-- The built-in scrub image (R308): its cost record is fixed and not stated; its threads are not modelled, so its rank runs no
group, and its effect comes at the task boundary (log 29, log 30). -/
def scrubProgram : Program :=
  let c : Cost := ⟨Config.scrubCost 0, Config.scrubCost 1, Config.scrubCost 2, Config.scrubCost 3, Config.scrubCost 4⟩
  { base := 0, flags := 0, tiles := Config.scrubCost 5, entry := 0, codeOff := 0, codeSize := 0, ranks := [⟨0, 0, 0, 0⟩],
    segment := c, budgets := [c], withdrawn := false }

/-- A program by handle: a registered one, or the built-in scrub image. -/
def State.program (s : State) (h : Nat) : Option Program :=
  if h = Config.scrubHandle.toNat then some scrubProgram else tget none s.programs h
def State.context (s : State) (i : Nat) : Option Context := tget none s.contexts i

/-- The task that a core holds. -/
def coreTask (s : State) (c : Nat) : Option Task := (s.core c).task.bind s.task

/-- Changes the task that a core holds. -/
def State.modCoreTask (s : State) (c : Nat) (f : Task → Task) : State :=
  match (s.core c).task with
  | none => s
  | some i => s.modTask i f

/-! ## Meters (R138, R173, R204, R455) -/

def addCost (a b : Cost) : Cost :=
  ⟨a.compute + b.compute, a.llc + b.llc, a.hbm + b.hbm, a.vert + b.vert, a.attn + b.attn⟩

/-- Task flag bits (R343). -/
def flagIdempotent (f : Nat) : Bool := nbit f 0
def flagDual (f : Nat) : Bool := nbit f 1
def flagCounters (f : Nat) : Bool := nbit f 2
def flagOob (f : Nat) : Bool := nbit f 3
def flagSystem (f : Nat) : Bool := nbit f 4

/-- The budget and the segment limit of the core's rank: COMPUTE doubled under DUAL (R204), then scaled by the class derate
(R374). -/
def rankBudget (s : State) (c : Nat) : Option (Cost × Cost) := do
  let k := s.core c
  let t ← coreTask s c
  let p ← s.program t.program
  let e ← p.ranks[k.rank]?
  let b ← p.budgets[e.budget]?
  let dbl : Cost → Cost := fun x => if flagDual t.flags then { x with compute := 2 * x.compute } else x
  let dbl : Cost → Cost := fun x => if t.cd = 0 then dbl x else { dbl x with compute := (dbl x).compute * 256 / t.cd }
  some (dbl b, dbl p.segment)

/-- Whether `n` more handshakes would pass the budget or the segment limit of COMPUTE. -/
def overCompute (limits : Option (Cost × Cost)) (n : Nat) (k : Core) : Bool :=
  match limits with
  | none => false
  | some (b, g) => decide (b.compute < k.meters.compute + n ∨ g.compute < k.seg.compute + n)

/-- The compute meter of a core advanced by `n` handshakes: a count that would pass the budget or the segment limit draws on
the extension of a replay event first (R455). -/
def meterCompute (limits : Option (Cost × Cost)) (n : Nat) (k : Core) : Core :=
  if overCompute limits n k ∧ n ≤ k.ext then { k with ext := k.ext - n }
  else { k with meters := { k.meters with compute := k.meters.compute + n },
                seg := { k.seg with compute := k.seg.compute + n } }

/-- Counts `n` handshakes of COMPUTE on a core. -/
def tickCompute (s : State) (c n : Nat) : State :=
  (countFixed s c 0 n).modCore c (meterCompute (rankBudget s c) n)

/-- Adds to the meters counted at issue (R138), and counts them as events at an address (R521). -/
def addMeters (s : State) (c a : Nat) (x : Cost) : State :=
  let s := countCore (countCore (countCore s c 0x08 x.llc (some a)) c 0x09 x.hbm (some a)) c 0x0A x.vert (some a)
  s.modCore c (fun k => { k with meters := addCost k.meters x, seg := addCost k.seg x })

/-- Task counters of a core (R525): 0 window tiles, 1 drain saturations, 2 conversion NaNs, 3 dropped elements, 4 split
transfers, 5 locks lost. -/
def tcWindow : Nat := 0
def tcDrainSat : Nat := 1
def tcCvtNan : Nat := 2
def tcOob : Nat := 3
def tcSplit : Nat := 4
def tcLockLost : Nat := 5

/-- Adds to a task counter of a core (48 bits). -/
def addTaskCounter (s : State) (c k n : Nat) : State :=
  if n = 0 then s else s.modCore c (fun u => { u with tcnt := tset 0 u.tcnt k ((tget 0 u.tcnt k + n) % 2 ^ 48) })

/-! ## Issue sets, joins and barriers (R109 to R125) -/

/-- The PC of a set: that of its lowest member (all are equal). -/
def setPc (gr : Group) (st : ISet) : Nat :=
  match maskList st.mask with
  | [] => 0
  | t :: _ => (thr gr t).pc

/-- Whether a set is blocked (R109). -/
def setBlocked (gr : Group) (st : ISet) : Bool :=
  match maskList st.mask with
  | [] => true
  | t :: _ => decide ((thr gr t).block ≠ .no)

/-- A set split by its members' PC and blocked state, without the threads that exited (R112, R113). -/
def splitSet (gr : Group) (st : ISet) : List ISet :=
  let ms := (maskList st.mask).filter (fun t => (thr gr t).live)
  let key := fun t => ((thr gr t).pc, decide ((thr gr t).block = .no))
  (ms.map key).eraseDups.map (fun k => { st with mask := listMask (ms.filter (fun t => key t == k)) })

/-- Sets of one PC, none blocked, merge; the merged set keeps the older stamp (R113). -/
def mergeInto (gr : Group) (acc : List ISet) (st : ISet) : List ISet :=
  if setBlocked gr st then acc ++ [st]
  else if acc.any (fun a => !setBlocked gr a && setPc gr a == setPc gr st) then
    acc.map (fun a => if !setBlocked gr a && setPc gr a == setPc gr st
      then { mask := a.mask ||| st.mask, stamp := min a.stamp st.stamp } else a)
  else acc ++ [st]

def mergeSets (gr : Group) : Group := { gr with sets := gr.sets.foldl (mergeInto gr) [] }

/-- Whether a thread waits at a barrier or in LOCK.ACQ (R114, R123). -/
def atBarrier : Block → Bool
  | .barG _ => true
  | .barT _ _ => true
  | _ => false

def atLock : Block → Bool
  | .lock _ _ _ => true
  | _ => false

/-- Whether a thread waits at the join entry of the given height (R114). -/
def atJoin (depth : Nat) : Block → Bool
  | .join _ d => d == depth
  | _ => false

/-- The join stack with the heights of its entries, the top first. -/
def joinStack (gr : Group) : List (Nat × JoinE) := (gr.joins.reverse.zipIdx.map (fun e => (e.2, e.1))).reverse

/-- Blocks at the top join every unblocked set that has reached its PC (R114). -/
def joinMark (gr : Group) : Group :=
  match joinStack gr with
  | [] => gr
  | (d, j) :: _ =>
    let hit := gr.sets.filter (fun st => !setBlocked gr st && setPc gr st == j.pc && (st.mask &&& j.mask) != 0)
    modThrs gr (hit.flatMap (fun st => maskList st.mask)) (fun _ t => { t with block := .join 0 d })

/-- Whether a join entry is to be popped (R114): each live thread of its mask waits there, or at a barrier or in LOCK.ACQ. -/
def joinDone (gr : Group) (e : Nat × JoinE) : Bool :=
  let ms := (maskList e.2.mask).filter (fun t => (thr gr t).live)
  let here := fun t => atJoin e.1 (thr gr t).block
  ms.all (fun t => here t || atBarrier (thr gr t).block || atLock (thr gr t).block) &&
  (ms.isEmpty || (liveThreads gr).any here)

/-- A thread after the entry of height `d` has left the stack: one that waited there goes on, and the entries above stand one
lower. -/
def joinLeft (d : Nat) (t : Thread) : Thread :=
  match t.block with
  | .join n e => if e = d then { t with block := .no } else if d < e then { t with block := .join n (e - 1) } else t
  | _ => t

/-- Pops the entry of height `d`: every set that waits at it goes on, merged or not (R114). -/
def joinPop (gr : Group) (d : Nat) : Group :=
  modThrs { gr with joins := ((joinStack gr).filter (fun e => e.1 != d)).map (·.2) } (liveThreads gr) (fun _ t => joinLeft d t)

def joinSettle : Nat → Group → Group
  | 0, gr => gr
  | n + 1, gr =>
    let gr := joinMark gr
    match (joinStack gr).find? (joinDone gr) with
    | some e => joinSettle n (joinPop gr e.1)
    | none => gr

/-- A group after its threads moved: sets split, joins settled. -/
def normGroup (gr : Group) : Group :=
  let gr := { gr with sets := gr.sets.flatMap (splitSet gr) }
  let gr := joinSettle 9 gr
  { gr with sets := gr.sets.flatMap (splitSet gr) }

/-- Whether every memory instruction that a thread issued has executed (R125). -/
def Thread.settled (t : Thread) : Bool := t.pend.isEmpty && t.mems.isEmpty

/-- A thread waits at BAR.G `id` with every memory instruction it issued executed (R120, R125). -/
def arrivedG (id : Nat) (t : Thread) : Bool := t.block == .barG id && t.settled

def arrivedT (id : Nat) (t : Thread) : Bool :=
  (match t.block with
   | .barT i _ => i == id
   | _ => false) && t.settled

/-- Releases each group barrier of the group at which every live thread has arrived (R120, R122). -/
def releaseG (gr : Group) : Group :=
  let ls := liveThreads gr
  (List.range 16).foldl (fun gr id =>
    if !ls.isEmpty && ls.all (fun t => arrivedG id (thr gr t)) then
      normGroup (modThrs { gr with genG := gr.genG ^^^ BitVec.ofNat 16 (2 ^ id) } ls
        (fun _ t => { t with block := .no }))
    else gr) gr

/-- The live threads of a core, as (group, thread). -/
def coreLive (k : Core) : List (Nat × Nat) :=
  (heldGroups k).flatMap (fun g => (liveThreads (grp k g)).map (fun t => (g, t)))

/-- The task barrier at which every live thread of the core's groups has arrived (R121). -/
def fullBarT (k : Core) : Option Nat :=
  let ls := coreLive k
  if ls.isEmpty then none
  else (List.range 16).find? (fun id => ls.all (fun (g, t) => arrivedT id (thr (grp k g) t)))

/-- Whether an arrival at task barrier `id` carries the segment mark (R134). -/
def segMarked (k : Core) (id : Nat) : Bool :=
  (coreLive k).any (fun (g, t) => (thr (grp k g) t).block == .barT id true)

/-- Unblocks every live thread of the core (R121, R450). -/
def openThreads (k : Core) : Core :=
  (heldGroups k).foldl (fun k g =>
      let gr := grp k g
      setGrp k g (normGroup (modThrs gr (liveThreads gr) (fun _ t => { t with block := .no })))) k

/-- Unblocks every live thread of the core and flips the barrier's generation bit (R121, R122). -/
def openBarT (k : Core) (id : Nat) : Core := openThreads { k with genT := k.genT ^^^ BitVec.ofNat 16 (2 ^ id) }

/-- The state of a rank as a checkpoint slot holds it (R134, R450). -/
def ckptOf (k : Core) : Ckpt := ⟨k.groups, k.genT, k.ctrMma, k.ctrXfer, k.ctrAttn, k.meters, k.tcnt⟩

/-! ## Faults of threads and cores (R137, R139, R170, R304) -/

/-- Fault causes of R169. -/
def cILLEGAL_INSTRUCTION : Nat := 0x01
def cILLEGAL_OPERAND : Nat := 0x02
def cBAD_TARGET : Nat := 0x03
def cINT_DIV_ZERO : Nat := 0x10
def cWINDOW_FAULT : Nat := 0x20
def cRIGHTS_FAULT : Nat := 0x21
def cMISALIGNED : Nat := 0x22
def cLS_RANGE : Nat := 0x23
def cPOISONED : Nat := 0x24
def cLOCK_SELF : Nat := 0x30
def cLOCK_NOT_OWNER : Nat := 0x31
def cLOCK_LIMIT : Nat := 0x32
def cLOCK_SPACE : Nat := 0x33
def cLOCK_ACROSS_SEGMENT : Nat := 0x34
def cTICKET_INVALID : Nat := 0x40
def cBARRIER_SPLIT : Nat := 0x41
def cFORMAT_PAIR : Nat := 0x50
def cDESC_ALIGN : Nat := 0x51
def cDESC_INVALID : Nat := 0x52
def cCOUNTER_DENIED : Nat := 0x60

/-- What a faulting instruction reports (R170). -/
structure Cause where
  cause  : Nat
  addr   : Nat
  detail : Nat
deriving DecidableEq, Repr

/-- Status numbers of R355. -/
def stDONE : Nat := 0
def stDONE_REPLAYED : Nat := 1
def stPARTIAL : Nat := 2
def stOVERRUN : Nat := 3
def stFAULTED : Nat := 4
def stREFUSED : Nat := 5

/-- Whether a fault still decides how a task ends (R140): it has not stopped, or a budget stopped it in this tick. -/
def Task.judged (t : Task) (tick : Nat) : Bool :=
  match t.stop with
  | none => true
  | some st => st.status == stOVERRUN && t.stopAt == tick

/-- Takes a fault into the task's one record: the first is kept, later ones count in FURTHER until the stop is
complete; the task stops with the given status (R137, R170), which comes before a budget exceeded in the same tick (R140). -/
def stopTask (tick : Nat) (t : Task) (st : Stop) (r : FaultRec) : Task :=
  match t.fault with
  | some f => { t with fault := some { f with further := satAdd 0xFFFF f.further 1 } }
  | none => if t.judged tick then { t with fault := some r, stop := some st, stopAt := tick } else { t with fault := some r }

/-- Whether a core is stopped for a replay: its port consumes what still arrives (R451). -/
def replayHeld (k : Core) : Bool := k.phase == .stopped || k.phase == .fencing || k.phase == .restoring

/-- A core fault for a rank (R139, R304): its core issues nothing more, and the fault waits for the replay event. A
POISONED rank of a task that has already replayed stops the task PARTIAL instead (R304). A rank whose core is already stopped for
its replay meets nothing more (R451). -/
def rankFault (s : State) (c : Nat) (r : FaultRec) : State :=
  match coreTask s c with
  | none => s
  | some t =>
    if replayHeld (s.core c) then s
    else if r.cause = cPOISONED ∧ t.replays ≠ 0 then
      s.modCoreTask c (fun t => stopTask s.clk.tick t ⟨stPARTIAL, cPOISONED⟩ r)
    else s.modCore c (fun k => { k with phase := .stopped, fault := r.cause, faultAt := s.clk.tick })

/-- Whether a core fault of this tick comes before the task's other events (R140). -/
def replayFirst (s : State) (c : Nat) : Bool :=
  s.cores.any (fun p => p.2.task.isSome && p.2.task == (s.core c).task && p.2.phase == .stopped && p.2.fault != 0 &&
    p.2.faultAt == s.clk.tick)

/-- Reports a fault of a rank: POISONED replays the rank, every other cause ends the task FAULTED (R137, R169, R304), but where a core
fault of the same tick is replayed first (R140). -/
def raiseFault (s : State) (c : Nat) (r : FaultRec) : State :=
  if r.cause = cPOISONED then rankFault s c r
  else if replayFirst s c then s
  else s.modCoreTask c (fun t => stopTask s.clk.tick t ⟨stFAULTED, r.cause⟩ r)

/-- The record of a precise fault of a thread. -/
def threadRec (s : State) (c g t pc source : Nat) (x : Cause) : FaultRec :=
  { cause := x.cause, source := source, rank := (s.core c).rank, launch := (grp (s.core c) g).launch, thread := t,
    kind := 0, pc := pc, ticket := 0, addr := x.addr, detail := x.detail, further := 0 }

/-! ## Tickets (R116 to R119) -/

def kindMma : Nat := 1
def kindXfer : Nat := 2
def kindAttn : Nat := 3

/-- A ticket value (R116). -/
def ticketOf (kind seq : Nat) : Nat := kind + 4 * (seq % 2 ^ 24)

def inFlight (k : Core) (kind seq : Nat) : Bool :=
  if kind = kindMma then k.mmaQ.any (fun o => o.org.seq == seq)
  else if kind = kindXfer then k.xferQ.any (fun o => o.org.seq == seq)
  else k.attnQ.any (fun o => o.org.seq == seq)

def ticketCtr (k : Core) (kind : Nat) : Nat :=
  if kind = kindMma then k.ctrMma else if kind = kindXfer then k.ctrXfer else k.ctrAttn

/-- R118: none for a ticket that faults, else whether it is complete. -/
def ticketState (k : Core) (v : Nat) : Option Bool :=
  let kind := v % 4
  let seq := (v / 4) % 2 ^ 24
  let d := (ticketCtr k kind + 2 ^ 24 - seq) % 2 ^ 24
  if v / 2 ^ 26 ≠ 0 then none
  else if kind = 0 then some true
  else if d = 0 ∨ 2 ^ 23 < d then none
  else some (!inFlight k kind seq)

/-- Whether every ticket of the core has completed (R134). -/
def ticketsDone (k : Core) : Bool := k.mmaQ.isEmpty && k.xferQ.isEmpty && k.attnQ.isEmpty

/-- Whether some live thread of the core holds a lock. -/
def holdsLock (k : Core) : Option (Nat × Nat) :=
  (coreLive k).find? (fun (g, t) => !(thr (grp k g) t).held.isEmpty)

/-- Whether a uniform register still awaits a write, by a thread that has exited since: a checkpoint, which holds every register, waits
for it (R134; log 109). -/
def uniformPending (k : Core) : Bool := (heldGroups k).any (fun g => !(grp k g).upend.isEmpty)

/-- Releases the barriers whose conditions hold. A segment boundary waits for every ticket, faults the holder of a
lock, and writes the checkpoint before any thread goes on (R120 to R125, R134, R135, R450). -/
def settleBarriers (s : State) (c : Nat) : State :=
  let k := s.core c
  let k := (heldGroups k).foldl (fun k g => setGrp k g (releaseG (grp k g))) k
  let s := s.setCore c k
  if k.phase ≠ .running then s
  else match fullBarT k with
  | none => s
  | some id =>
    if !segMarked k id then s.setCore c (openBarT k id)
    else if !ticketsDone k ∨ uniformPending k then s
    else match holdsLock k with
    | some (g, t) =>
      raiseFault s c (threadRec s c g t ((thr (grp k g) t).pc - 8) 0 ⟨cLOCK_ACROSS_SEGMENT, 0, 0⟩)
    | none => s.setCore c { k with phase := .ckptWrite, ckptNext := some (ckptOf (openBarT k id)) }

/-- Unblocks the threads whose ticket has completed (R118), then the barriers that waited for it (R134). -/
def wakeTickets (s : State) (c : Nat) : State :=
  let k := s.core c
  let k := (heldGroups k).foldl (fun k g =>
    let gr := grp k g
    setGrp k g (normGroup (modThrs gr (liveThreads gr) (fun _ t =>
      match t.block with
      | .ticket v => if ticketState k v == some true then { t with block := .no } else t
      | _ => t)))) k
  settleBarriers (s.setCore c k) c

/-! ## Issue (R109 to R115, R147, R149) -/

/-- What an issuing set sees: core, group, PC, its members, those whose guard is true, and the word. -/
structure Ctx where
  c       : Nat
  g       : Nat
  pc      : Nat
  mask    : Word
  members : List Nat
  active  : List Nat
  w       : Word64
deriving DecidableEq, Repr

/-- P[GPRED] XOR GNEG (R145, R147). -/
def predVal (t : Thread) (p : Nat) : Bool := if p = 7 then true else t.preds.getLsbD p

def guardTrue (w : Word64) (t : Thread) : Bool := predVal t (bits w 54 52) != w.getLsbD 55

/-- The issue set that holds a thread. -/
def setOf (gr : Group) (t : Nat) : Option ISet := gr.sets.find? (fun st => maskHas st.mask t)

/-- Whether a set is ready whatever its next instruction is (R109): it is not blocked, none of its registers awaits a write, and every
unit can accept. Of a set that waits for less, only its next word tells, which the sender reads. -/
def surelyReady (k : Core) (gr : Group) (st : ISet) : Bool :=
  !setBlocked gr st && (maskList st.mask).all (fun t => (thr gr t).pend.isEmpty) && gr.upend.isEmpty &&
  decide (k.mmaQ.length < 8 ∧ k.xferQ.length < 16 ∧ k.attnQ.length < 4 ∧ k.redOut ≤ 32)

/-- The order of selection among ready groups (R110): overdue ones first, then the oldest. -/
def groupBefore (k : Core) (h g : Nat) : Bool :=
  if (grp k h).overdue = (grp k g).overdue then decide (h < g) else (grp k h).overdue

/-- The order of issue among ready sets of a group (R111): the oldest stamp first, then the lowest thread. -/
def setBefore (a b : ISet) : Bool :=
  if a.stamp = b.stamp then decide ((maskList a.mask).headD 32 < (maskList b.mask).headD 32) else decide (a.stamp < b.stamp)

/-- Whether the core would select something else than set `st` of group `g` (R110, R111). -/
def passedOver (k : Core) (g : Nat) (st : ISet) : Bool :=
  (heldGroups k).any (fun h => groupBefore k h g && (grp k h).sets.any (surelyReady k (grp k h))) ||
  (grp k g).sets.any (fun a => setBefore a st && surelyReady k (grp k g) a)

/-- Whether a register or predicate of the set still awaits a write (R109). Registers are operand codes of R142. -/
def srcPending (gr : Group) (ms : List Nat) (regs preds : List Nat) : Bool :=
  ms.any (fun t => (thr gr t).pend.any (fun p => p.regs.any (fun r => regs.contains r) ||
      (match p.pred with | some q => preds.contains q | none => false))) ||
  gr.upend.any (fun p => p.regs.any (fun r => regs.contains r))

/-- The start of a slot on a core: sets of every group merge (R113). -/
def mergeCore (k : Core) : Core := (heldGroups k).foldl (fun k g => setGrp k g (mergeSets (grp k g))) k

/-- Accounts a slot in which group `g` issues: its stamp, the other groups' unselected slots, its join waits (R110,
R111, R114). -/
def countSlot (k : Core) (g : Nat) (mask : Word) : Core :=
  let k := (heldGroups k).foldl (fun k h =>
    if h = g then k else setGrp k h { grp k h with unsel := (grp k h).unsel + 1 }) k
  let gr := grp k g
  let gr := { gr with unsel := 0, overdue := false,
                      sets := gr.sets.map (fun st => if st.mask = mask then { st with stamp := k.slots + 1 } else st) }
  let gr := modThrs gr (liveThreads gr) (fun _ t => match t.block with
    | .join n d => { t with block := .join (n + 1) d }
    | _ => t)
  { setGrp k g gr with slots := k.slots + 1 }

/-- Code address of a PC, when the task's program is known (R171, R303 instruction fetch). -/
def codeAddr (s : State) (c pc : Nat) : Option Nat := do
  let t ← coreTask s c
  let p ← s.program t.program
  some ((p.base + p.codeOff + pc) % 2 ^ 48)

/-- The code size of the core's task (R162). -/
def codeSize (s : State) (c : Nat) : Nat :=
  match (coreTask s c).bind (fun t => s.program t.program) with
  | none => 0
  | some p => p.codeSize

/-- Whether the core's task may issue: running, not stopped (R136, R137, R140). -/
def coreIssues (s : State) (c : Nat) : Bool :=
  (s.core c).phase == .running && (match coreTask s c with | none => false | some t => t.stop.isNone)

/-- Whether a fault on the core still decides how its task ends (R140). -/
def coreJudged (s : State) (c : Nat) : Bool :=
  (s.core c).phase == .running && (match coreTask s c with | none => false | some t => t.judged s.clk.tick)

/-- The context of an issue by the set that holds the site's thread, when the core can issue it now: the set exists, is
not blocked, and none of its sources awaits a write (R109). -/
def issueCtx (s : State) (x : Site) (w : Word64) (regs preds : List Nat) : Option Ctx :=
  let k := mergeCore (s.core x.core)
  let gr := grp k x.group
  match setOf gr x.thread with
  | none => none
  | some st =>
    let ms := maskList st.mask
    if coreIssues s x.core ∧ ¬ setBlocked gr st ∧ ¬ passedOver k x.group st ∧
        ¬ srcPending gr ms regs (bits w 54 52 :: preds) then
      some ⟨x.core, x.group, setPc gr st, st.mask, ms, ms.filter (fun t => guardTrue w (thr gr t)), w⟩
    else none

/-- More faults that reach a task whose record is taken (R170). -/
def countFurther (s : State) (c n : Nat) : State :=
  s.modCoreTask c (fun t => { t with fault := t.fault.map (fun f => { f with further := satAdd 0xFFFF f.further n }) })

/-- A fault in each listed thread: the lowest is recorded, the others count in FURTHER (R170). -/
def faultSet (s : State) (i : Ctx) (source : Nat) : List (Nat × Cause) → State
  | [] => s
  | (t, x) :: rest =>
    let s := raiseFault s i.c (threadRec s i.c i.g t i.pc source x)
    if rest.isEmpty then s else countFurther s i.c rest.length

/-- Moves the listed threads on to `pc`, then settles the group. -/
def advance (s : State) (i : Ctx) (ts : List Nat) (pc : Nat) : State :=
  s.modGrp i.c i.g (fun gr => normGroup (modThrs gr ts (fun _ t => { t with pc := pc })))

/-- The state in which an issuing instruction acts: the slot, its COMPUTE handshake and the fixed counters are counted (R109 to
R111, R138, R519). -/
def counted (s : State) (i : Ctx) : State :=
  let s := s.setCore i.c (countSlot (mergeCore (s.core i.c)) i.g i.mask)
  countFixed (countFixed (tickCompute s i.c 1) i.c 1 1) i.c 2 i.active.length

/-- What one thread's part of an instruction comes to. -/
inductive TRes (α : Type) where
  | ok (v : α)
  | fault (x : Cause)
deriving Repr

/-- Splits the active threads of an issue into those that complete and those that fault. -/
def runThreads {α : Type} (i : Ctx) (f : Nat → TRes α) : List (Nat × α) × List (Nat × Cause) :=
  i.active.foldr (fun t (a, b) => match f t with
    | .ok v => ((t, v) :: a, b)
    | .fault x => (a, (t, x) :: b)) ([], [])

/-- The members that go on: all but those that faulted. -/
def goOn (i : Ctx) (fs : List (Nat × Cause)) : List Nat := i.members.filter (fun t => fs.all (fun p => p.1 != t))

end Sys2Proof.Machine
end

