-- ==== Sys2Proof/Machine/Ras.lean ====
section
/-! DEFINITION. Interrupt messages, the RAS log and the error counters (R316, R317, R331, R332, R465 to R468, R548). -/

namespace Sys2Proof.Machine

/-- Appends what leaves the module. -/
def State.emit (s : State) (o : Out) : State := { s with out := s.out ++ [o] }

/-- Sends the MSI-X message of a vector, or sets its pending bit while it is masked (R332). Vectors 4 to 15 are never sent. -/
def sendMsix (s : State) (v : Nat) : State :=
  if 4 ≤ v ∧ v < 16 then s
  else if s.msix.enable ∧ ¬ s.msix.fmask ∧ s.msix.open_.contains v then s.emit (.msix v)
  else { s with msix := { s.msix with pba := insNat v s.msix.pba } }

/-- Severity of a log code (R466); codes of the Lupin range 0x06F0 to 0x06FF get theirs from the caller. -/
def severity (code : Nat) : Nat :=
  if [0x020D, 0x020E, 0x0702].contains code then 3
  else if [0x0106, 0x0205, 0x0208, 0x020A, 0x020B, 0x0302, 0x0407, 0x0408, 0x0502, 0x0504, 0x0505, 0x0506, 0x0508, 0x0509,
      0x050B, 0x050C, 0x050E, 0x050F, 0x0510, 0x0605, 0x0609].contains code then 2
  else if [0x0103, 0x0104, 0x0105, 0x0107, 0x0201, 0x0202, 0x0203, 0x0204, 0x0206, 0x0207, 0x0209, 0x020C, 0x0402, 0x0403,
      0x0503, 0x0507, 0x050A, 0x050D, 0x0601, 0x0604, 0x0608, 0x0701].contains code then 1
  else 0

/-- The UNIT field of a log entry (R465). -/
def unitOf (kind index : Nat) : Nat := kind * 2 ^ 24 + index % 2 ^ 24
def unitModule : Nat := 0

/-- What an event puts into its log entry (R465). -/
structure LogEv where
  code   : Nat
  sev    : Nat
  unit   : Nat
  queue  : Nat
  tag    : Nat
  addr   : Nat
  detail : List Nat
deriving DecidableEq, Repr

/-- An event of a unit, with a 32-bit status word in DETAIL. -/
def logEv (code unit status : Nat) : LogEv := ⟨code, severity code, unit, 0xFFFFFFFF, 0, 0, natLe 4 status⟩

/-- A detail field padded to 24 bytes. -/
def pad24 (l : List Nat) : List Nat := (l ++ List.replicate 24 0).take 24

/-- The 64 bytes of an entry (R465); `persisted` when the flash window is open. -/
def logBytes (tick seq : Nat) (e : LogEv) (persisted training : Bool) : List Nat :=
  natLe 8 tick ++ natLe 2 e.code ++ [e.sev,
    (if 2 ≤ e.sev then 1 else 0) + (if persisted then 2 else 0) + (if training then 4 else 0)] ++
  natLe 4 seq ++ natLe 4 e.unit ++ natLe 4 e.queue ++ natLe 8 e.tag ++ natLe 8 e.addr ++ pad24 e.detail

def rLogHead : Nat := 0x02000000
def rLogStat : Nat := 0x02000008
def rAlert : Nat := 0x0200000C
def rWstat : Nat := 0x00302148

/-- Whether the write window of the flash part is open (R445: resource 3). -/
def flashOpen (s : State) : Bool := s.regBit rWstat 3

/-- Writes an entry into the ring and moves MBX_LOGHEAD; severity 2 or 3 sets PENDING, asserts ALERT_N, sends vector 0
and copies the entry to flash, at once or when the window opens (R465 to R468). -/
def rasLogT (s : State) (e : LogEv) (training : Bool) : State :=
  let idx := s.regField rLogHead 11 0
  let per := decide (2 ≤ e.sev) && flashOpen s
  let bytes := logBytes s.clk.tick s.ras.seq e per training
  let full := decide (tget [] s.ras.ring idx ≠ [])
  let s := { s with ras := { s.ras with ring := tset [] s.ras.ring idx bytes, seq := (s.ras.seq + 1) % 2 ^ 32,
                                        flash := if per then s.ras.flash ++ [bytes] else s.ras.flash,
                                        waiting := if 2 ≤ e.sev ∧ ¬ per then s.ras.waiting ++ [bytes] else s.ras.waiting } }
  let s := if full then s.setField rLogStat 15 0 (satAdd 0xFFFF (s.regField rLogStat 15 0) 1) else s
  let s := s.setReg rLogHead (BitVec.ofNat 32
    (if idx = 4095 then ((s.regField rLogHead 31 12 + 1) % 2 ^ 20) * 2 ^ 12
     else s.regField rLogHead 31 12 * 2 ^ 12 + idx + 1))
  if 2 ≤ e.sev then sendMsix (s.setReg rAlert 3) 0 else s

def rasLog (s : State) (e : LogEv) : State := rasLogT s e false

/-- Records an in-service repair: in the flash list while the window is open, else held with THM_WSTAT.PENDING (R38, R445). -/
def addRepair (s : State) (r : Nat × Nat × Nat) : State :=
  if flashOpen s then { s with ecc := { s.ecc with repairs := s.ecc.repairs ++ [r] } }
  else { s with ecc := { s.ecc with held := s.ecc.held ++ [r] } }.setField rWstat 7 7 1

/-- Admission ticks in a millisecond (R60). -/
def ticksPerMs : Nat := 100000

/-- Whether a repair pause may start: none runs, and 1 ms has passed since the last ended (R43). -/
def pauseFree (s : State) : Bool :=
  s.vert.pausing.isNone && (match s.vert.lastEnd with
    | some t => decide (t + ticksPerMs ≤ s.clk.tick)
    | none => true)

/-! ## Error counters (R316, R317) -/

def rUce (u : Nat) : Nat := 0x0200E400 + 16 * u
def rUue (u : Nat) : Nat := 0x0200E404 + 16 * u
def rUspr (u : Nat) : Nat := 0x0200E408 + 16 * u

/-- Admission ticks in a second (R60), and in 24 hours. -/
def ticksPerSecond : Nat := 100000000
def ticksPerDay : Nat := 86400 * ticksPerSecond

/-- Counts a corrected error of a unit (saturating), and logs the first of a second with the previous second's count (R316). -/
def noteCe (s : State) (u addr : Nat) : State :=
  let s := s.setField (rUce u) 31 0 (satAdd 0xFFFFFFFF (s.regField (rUce u) 31 0) 1)
  let sec := s.clk.tick / ticksPerSecond
  let c := tget ⟨0, 0⟩ s.ecc.ce u
  if c.cnt ≠ 0 ∧ c.sec = sec then
    { s with ecc := { s.ecc with ce := tset ⟨0, 0⟩ s.ecc.ce u { c with cnt := satAdd 0xFFFFFFFF c.cnt 1 } } }
  else
    let prev := if c.sec + 1 = sec then c.cnt else 0
    let s := { s with ecc := { s.ecc with ce := tset ⟨0, 0⟩ s.ecc.ce u ⟨sec, 1⟩ } }
    rasLog s { logEv 0x0401 (unitOf 8 u) 0 with
      addr := addr, detail := natLe 4 (s.reg (rUce u)).toNat ++ natLe 4 prev }

/-- Counts an uncorrectable error of a unit and logs ECC_UE: the word or sector, its code and the source (0 read, 1 scrub,
2 read-modify-write). -/
def countUe (s : State) (u addr code source : Nat) : State :=
  let s := s.setField (rUue u) 15 0 (satAdd 0xFFFF (s.regField (rUue u) 15 0) 1)
  rasLog s { logEv 0x0402 (unitOf 8 u) (s.reg (rUue u)).toNat with
    addr := addr, detail := natLe 4 (s.reg (rUue u)).toNat ++ [code, source] }

/-- Counts a consumption of poison and logs it (R303, R316). -/
def countConsumed (s : State) (u addr : Nat) : State :=
  let s := s.setField (rUue u) 31 16 (satAdd 0xFFFF (s.regField (rUue u) 31 16) 1)
  rasLog s { logEv 0x0403 (unitOf 8 u) (s.reg (rUue u)).toNat with addr := addr }

/-- A dropped write of a locked or firmware-only field, or one that a rule drops in the same way: counted once (R6, R548).
Interface: 0 CXL, 1 sideband, 2 Lupin management. -/
def accessViolation (s : State) (iface off value : Nat) : State :=
  rasLog s { logEv 0x0607 unitModule 0 with addr := off, detail := natLe 4 value ++ [iface] }

/-- The error unit of a core: local stores and register files of its tower (R316). -/
def coreUnit (c : Nat) : Nat := 12 + c / 288

/-- Whether a firmware processor is down: its MBX_PSTAT.STATE is neither RUNNING nor SELFCHECK (R382). -/
def procDown (s : State) (p : Nat) : Bool :=
  let st := s.regField (0x00030100 + 8 * p) 2 0
  !(st == 0 || st == 3)

end Sys2Proof.Machine
end

