-- ==== Sys2Proof/Machine/Units.lean ====
section
/-! DEFINITION. Clusters and physical cores: logical IDs, spares, leaving dispatch, and core faults (R18, R19, R139, R206,
R447, R463, R552). -/

namespace Sys2Proof.Machine

def State.cluster (s : State) (c : Nat) : Cluster := tget Cluster.fresh s.clusters c
def State.modCluster (s : State) (c : Nat) (f : Cluster → Cluster) : State :=
  { s with clusters := tset Cluster.fresh s.clusters c (f (s.cluster c)) }

def clusterOf (c : Nat) : Nat := c / 9
/-- Die of a cluster in the order of THM_DSTAT (R64): towers 0 and 1, layers A and B: 16 clusters each. -/
def dieOfCluster (cl : Nat) : Nat := cl / 16

/-- First assignment of R18: logical ID 8c + i is the i-th slot of cluster c that manufacture left working. -/
def homeSlot (s : State) (l : Nat) : Nat :=
  let c := l / 8
  let i := l % 8
  9 * c + (if i < (s.cluster c).mfgSlot then i else i + 1)

/-- The physical core of a logical ID; none when the ID is absent. -/
def State.phys (s : State) (l : Nat) : Option Nat := tget (some (homeSlot s l)) s.lmap l
def State.setPhys (s : State) (l : Nat) (p : Option Nat) : State :=
  { s with lmap := tset (some (homeSlot s l)) s.lmap l p }

/-- The logical ID that a physical core serves. -/
def logicalOf (s : State) (c : Nat) : Option Nat :=
  (List.range 8).findSome? (fun i => if s.phys (8 * (c / 9) + i) = some c then some (8 * (c / 9) + i) else none)

/-- Whether a logical ID can take work: mapped, and its core in service. -/
def logicalUp (s : State) (l : Nat) : Bool :=
  !(s.cluster (l / 8)).retired && (match s.phys l with
    | some c => (s.core c).svc == 0
    | none => false)

/-- The spare available in a cluster: a working slot without a logical ID and without a rank (R18, R552). -/
def spareOf (s : State) (cl : Nat) : Option Nat :=
  ((List.range 9).map (9 * cl + ·)).find? (fun c =>
    c % 9 != (s.cluster cl).mfgSlot && (s.core c).svc == 0 && (s.core c).task.isNone && (logicalOf s c).isNone)

/-- PWR_CFLOOR of a cluster. -/
def rCfloor (c : Nat) : Nat := 0x00301000 + 8 * c
def rClcore (cl : Nat) : Nat := 0x100 + 4 * cl

/-- Enabled cores in service of a cluster. -/
def enabledOf (s : State) (cl : Nat) : Nat := ((List.range 8).filter (fun i => logicalUp s (8 * cl + i))).length

/-- TWR_CLCORE follows the cluster's cores (R448, R463). -/
def refreshClcore (s : State) (cl : Nat) : State :=
  let r := rClcore cl
  let s := s.setField r 3 0 (enabledOf s cl)
  let s := s.setField r 4 4 (if (spareOf s cl).isSome then 1 else 0)
  let s := s.setField r 9 6 (match spareOf s cl with | some c => c % 9 | none => 0xF)
  let s := s.setField r 18 10 (((List.range 9).map (fun i => if (s.core (9 * cl + i)).svc = 2 then 2 ^ i else 0)).sum)
  s.setField r 19 19 (if (s.cluster cl).retired then 1 else 0)

/-- The physical row or column of a logical one (R175): the bypassed one is passed over. -/
def physIndex (bypassed r : Nat) : Nat := if r < bypassed then r else r + 1

/-- The physical cell of a logical one in a core's grid (R175). -/
def physCell (k : Core) (i j : Nat) : Nat × Nat := (physIndex k.rowSpare i, physIndex k.colSpare j)

/-- The physical cell in which the shadow pass of a DUAL task forms an element (R202). -/
def shadowCell (k : Core) (i j : Nat) : Nat × Nat := physCell k ((i + 32) % 64) ((j + 32) % 64)

/-- TWR_GSTAT of a core (R208). -/
def gstat (s : State) (c : Nat) : Nat :=
  let k := s.core c
  k.rowSpare + 2 ^ 7 * k.colSpare + (if k.rowFix then 2 ^ 14 else 0) + (if k.colFix then 2 ^ 15 else 0) +
    2 ^ 16 * k.svc + 2 ^ 18 * k.gfaults

/-- Queue and tag of the task concerned in a log entry (R465). -/
def evTask (s : State) (c : Nat) (e : LogEv) : LogEv :=
  match coreTask s c with
  | some t => { e with queue := t.queue, tag := t.tag }
  | none => e

/-- A core leaves dispatch: the cluster's spare takes over its logical ID (R19, R453, R552). -/
def leaveDispatch (s : State) (c : Nat) : State :=
  let l := logicalOf s c
  let s := s.modCore c (fun k => { k with svc := max k.svc 1 })
  let s := match l, spareOf s (clusterOf c) with
    | some l, some p => s.setPhys l (some p)
    | _, _ => s
  refreshClcore s (clusterOf c)

/-- RAS codes of faults that a core or engine check finds (R466). -/
def rasGridParity : Nat := 0x0201
def rasGridResidue : Nat := 0x0202
def rasDualMismatch : Nat := 0x0203
def rasAttnParity : Nat := 0x0206
def rasAttnResidue : Nat := 0x0207
def rasCoreFault : Nat := 0x0209

/-- A program fault or an exceeded budget of the same tick gives way to a core fault: it recurs, or is judged again, in the replay
(R140). -/
def giveWay (tick : Nat) (t : Task) : Task :=
  match t.stop with
  | none => t
  | some st =>
    if (st.status = stOVERRUN ∨ (st.status = stFAULTED ∧ st.code < 0x80)) ∧ t.stopAt = tick ∧ t.running ∧ t.ended = []
    then { t with stop := none, fault := none } else t

/-- A core stops for a fault of its own: its rank waits for the replay event (R139, R140, R452). -/
def stopCore (s : State) (c code : Nat) : State :=
  if (s.core c).task.isSome then
    (s.modCoreTask c (giveWay s.clk.tick)).modCore c (fun k => { k with phase := .stopped, fault := code, faultAt := s.clk.tick })
  else s

/-- A fault of the core itself: logged, the core leaves dispatch and its rank waits for the replay event (R139, R200, R206,
R447). -/
def coreFault (s : State) (c code : Nat) : State :=
  let grid := decide (code < rasCoreFault)
  let s := s.modCore c (fun k => { k with test := code })
  let s := leaveDispatch s c
  let st := if grid then gstat s c else (s.reg (rClcore (clusterOf c))).toNat
  stopCore (rasLog s (evTask s c (logEv code (unitOf 4 c) st))) c code

end Sys2Proof.Machine
end

