-- ==== Sys2Proof/Machine/Floor.lean ====
section
/-! DEFINITION. The speed floor, the planning figures and PWR's plan (R66 to R73, R408 to R412, R418 to R423, R430). -/

namespace Sys2Proof.Machine

/-! ## Tables -/

/-- Linear interpolation in a table of (x, y) pairs at a point between two of them; y in hundredths. -/
def interp : List (Nat × Nat) → Nat → Nat
  | (x0, y0) :: (x1, y1) :: t, x =>
    if x < x1 then 100 * y0 + 100 * (y1 - y0) * (x - x0) / (x1 - x0) else interp ((x1, y1) :: t) x
  | [(_, y)], _ => 100 * y
  | [], _ => 0

/-- The base floor of R66 at a setpoint in mV, in 0.0001 G/s; zero below 0.55 V (R67). -/
def baseFloor (mv : Nat) : Nat :=
  if mv < 550 then 0
  else interp [(550, 90), (600, 110), (700, 155), (800, 200), (900, 235), (920, 240)] (min mv 920)

/-- Peak current of a cluster in hundredths of an ampere (R419). -/
def ipk (mv : Nat) : Nat :=
  interp [(520, 10), (550, 10), (600, 13), (700, 21), (800, 30), (900, 38), (920, 40)] (max 520 (min mv 920))

/-- Planning power of a cluster in 0.1 W: V × Ipk ÷ 0.84, rounded up (R419); nothing while it is planned off. -/
def planPower (mv : Nat) : Nat := if mv = 0 then 0 else ceilDiv (mv * ipk mv) 8400

/-- Floor derating of a band in per cent (R69). -/
def derate (band : Nat) : Nat := if band < 3 then 0 else if band = 3 then 6 else 10

/-- Band of a temperature in half degrees above −40 °C (R13 and the scope's table): 30, 60, 85 and 100 °C. -/
def bandOf (t : Nat) : Nat := if t < 140 then 0 else if t < 200 then 1 else if t < 250 then 2 else if t < 280 then 3 else 4

/-- The formula of R70, in 0.01 G/s, rounded down once. -/
def floorAt (mv band excess regf : Nat) : Nat :=
  baseFloor mv * (100 - derate band) * (256 - excess) * regf / (100 * 100 * 256 * 256)

/-! ## Registers of clusters and domains -/

def rCrate (c : Nat) : Nat := 0x00301004 + 8 * c
def commitOf (s : State) (c : Nat) : Nat := s.regField (rCrate c) 8 0
def excessOf (s : State) (c : Nat) : Nat := s.regField (rCrate c) 16 9
def planBand (s : State) (c : Nat) : Nat := s.regField (rCfloor c) 21 19
def floorReg (s : State) (c : Nat) : Nat := s.regField (rCfloor c) 18 10
def reqOf (s : State) (c : Nat) : Nat := tget 0 s.pwr.req c
def oPwrLim : Nat := 0x00300004
def oPwrCf : Nat := 0x00300008
def oPwrEvt : Nat := 0x00300018
def oPwrCtrl : Nat := 0x00300000
def oProf (i : Nat) : Nat := 0x00300040 + 4 * i
def oAdmCtrl : Nat := 0x00200000

/-- Phases built into a domain, the count it needs, and its current ceiling in A (R408). -/
def domPhases (d : Nat) : Nat :=
  if d < 64 then 6 else if d < 68 then 8 else if d = 68 ∨ d = 70 then 12 else if d = 69 ∨ d = 71 then 16
  else if d = 72 then 10 else if d = 73 then 6 else if d = 74 then 2 else 0
def domNeeded (d : Nat) : Nat :=
  if d < 64 then 5 else if d < 68 then 6 else if d = 68 ∨ d = 70 then 10 else if d = 69 ∨ d = 71 then 14
  else if d = 72 then 8 else if d = 73 then 5 else if d = 74 then 1 else 0
def domAmps (d : Nat) : Nat :=
  if d < 64 then 40 else if d < 68 then 45 else if d = 68 ∨ d = 70 then 72 else if d = 69 ∨ d = 71 then 100
  else if d = 72 then 60 else if d = 73 then 40 else if d = 74 then 8 else if d = 75 then 8 else if d = 76 then 60 else 40

/-- Working phases of a domain, as a mask and a count. -/
def phaseMask (s : State) (d : Nat) : Nat :=
  ((List.range (domPhases d)).map (fun i => if nbit (tget 0 s.pwr.failed d) i then 0 else 2 ^ i)).sum
def phasesUp (s : State) (d : Nat) : Nat :=
  ((List.range (domPhases d)).filter (fun i => !nbit (tget 0 s.pwr.failed d) i)).length

/-- PATH_REDUCED, from the comparison or from the loss of both sense routes (R414, R415). -/
def pathReduced (s : State) (d : Nat) : Bool := decide (2 ≤ tget 0 s.pwr.path d) || tget 0 s.pwr.sense d == 3

/-- Current ceiling in force (R410, R414): 26 A for a cluster that lost two phases or whose path is reduced, two thirds for
another domain whose path is reduced. -/
def ceilAmps (s : State) (d : Nat) : Nat :=
  if d < 64 then (if phasesUp s d ≤ 4 ∨ pathReduced s d then 26 else 40)
  else if pathReduced s d then 2 * domAmps d / 3 else domAmps d

/-- The regulator factor of R412 at a setpoint. -/
def regf (s : State) (c mv : Nat) : Nat := min 256 (256 * (100 * ceilAmps s c) / ipk mv)

/-- Whether a cluster's tower is under reset (R360). -/
def towerInReset (s : State) (c : Nat) : Bool := s.towersDown.contains (c / 32)

/-- Whether a cluster can have a floor: in service, and the module and its tower running. -/
def clusterRuns (s : State) (c : Nat) : Bool :=
  !(s.cluster c).retired && s.pwr.state == 0 && !towerInReset s c && tget 0 s.pwr.dom c != 3 && tget 0 s.pwr.dom c != 4

/-- floor(c) of R70 at a setpoint, in the planning band. -/
def floorOf (s : State) (c mv : Nat) : Nat := floorAt mv (planBand s c) (excessOf s c) (regf s c mv)

/-- The 5 mV steps from 0.55 V to 0.92 V. -/
def steps : List Nat := (List.range 75).map (fun i => 550 + 5 * i)

/-- V_B4 of R421 for a floor: the lowest step that meets it in band B4, else 0.92 V. -/
def vB4 (s : State) (c f : Nat) : Nat :=
  (steps.find? (fun v => f ≤ floorAt v 4 (excessOf s c) (regf s c v))).getD 920

/-- The lowest step whose floor in the planning band meets a rate (R72, R425). -/
def lowestStep (s : State) (c f : Nat) : Option Nat := steps.find? (fun v => f ≤ floorOf s c v)

/-! ## Commitments (R72, R353, R421, R430) -/

/-- Reservations that hold cluster `c` at a tick: floors used, of ranks that have not ended there. -/
def floorsOn (s : State) (c : Nat) (until_ : Task → Bool) : List Nat :=
  s.tasks.flatMap (fun p => match p.2 with
    | none => []
    | some t => if until_ t then
        ((List.range t.plan.length).filter (fun r => t.plan.getD r 0 / 8 == c && !t.ended.contains r)).map (fun r => t.floors.getD r 0)
      else [])

/-- COMMIT of a cluster: the highest floor among its reservations (R72). -/
def refreshCommit (s : State) (c : Nat) : State :=
  s.setField (rCrate c) 8 0 ((floorsOn s c (fun _ => true)).foldl max 0)

/-- The commitment of a cluster at a future tick: reservations that extend to it. -/
def commitAt (s : State) (c tick : Nat) : Nat := (floorsOn s c (fun t => decide (tick ≤ t.accept + t.bound))).foldl max 0

/-- The committed floor in W for given commitments (R421): 400 W and the worst-band power of each, rounded up to 1 W. -/
def committedFloor (s : State) (commit : Nat → Nat) : Nat :=
  ceilDiv (4000 + ((List.range 64).map (fun c => if commit c = 0 then 0 else planPower (vB4 s c (commit c)))).sum) 10

/-- H in ticks (R350). -/
def horizon (s : State) : Nat := 100 * s.regField oAdmCtrl 15 0

/-- Recomputes PWR_CF.NOW and the profile (R430): point i is the highest committed floor from base + i·H/16; commitments only
end, so it is the one at the interval's start. -/
def refreshProfile (s : State) : State :=
  let s := s.setField oPwrCf 11 0 (committedFloor s (commitOf s))
  let base := s.clk.tick
  let s := (List.range 16).foldl (fun s i =>
    s.setField (oProf i) 11 0 (committedFloor s (fun c => commitAt s c (base + i * horizon s / 16)))) s
  { s with pwr := { s.pwr with profAt := base } }

/-! ## The fabric's setpoints (R55) -/

/-- Planning band of a die: that of its governing temperature plus 5 °C (R70). -/
def dieBand (s : State) (die : Nat) : Nat := bandOf (s.regField (0x00302100 + 4 * die) 8 0 + 10)

/-- Die whose logic a die-fabric (64 to 67) or cache-logic (69, 71) domain serves, and the clusters that it must keep pace with:
those of its die, or of both compute dies of its tower. -/
def fabDie (d : Nat) : Nat := if d < 68 then d - 64 else 4 + (d - 68) / 2
def fabClusters (d : Nat) : List Nat :=
  if d < 68 then (List.range 16).map (16 * (d - 64) + ·) else (List.range 32).map (32 * ((d - 68) / 2) + ·)
def fabDomains : List Nat := [64, 65, 66, 67, 69, 71]

/-- Setpoint of such a domain in mV and the floor that it gives; 0.55 V until a cluster needs more. -/
def fabSetpoint (s : State) (d : Nat) : Nat := tget 550 s.pwr.fabV d
def fabFloor (s : State) (d mv : Nat) : Nat := floorAt mv (dieBand s (fabDie d)) 0 256

/-- The lowest step at which a fabric domain keeps pace with a floor (DESIGN CHOICE, log 103; R55 asks for at least that floor). -/
def setFabric (s : State) (d f : Nat) : State :=
  let v := (steps.find? (fun v => f ≤ fabFloor s d v)).getD 920
  { s with pwr := { s.pwr with fabV := tset 550 s.pwr.fabV d v } }

/-- A cluster's floor never passes that of its die's fabric and of its tower's cache logic (R55). -/
def holdFabric (s : State) (c f : Nat) : State :=
  [64 + dieOfCluster c, 69 + 2 * (c / 32)].foldl (fun s d =>
    if f ≤ fabFloor s d (fabSetpoint s d) then s else setFabric s d f) s

/-- Every fabric domain at the step that the highest cluster floor asks for. -/
def settleFabric (s : State) : State :=
  fabDomains.foldl (fun s d => setFabric s d ((fabClusters d).foldl (fun m c => max m (floorReg s c)) 0)) s

/-! ## Floors in force (R70, R71) -/

/-- PWR_CFLOOR.FLOOR, REGF and RETIRED follow the requested setpoint, which for a cluster in LI is that on which it resumes; during a
change the lower of the floors (R71). The fabric keeps pace (R55). -/
def refreshFloor (s : State) (c : Nat) : State :=
  let v := reqOf s c
  let f := if clusterRuns s c then floorOf s c v else 0
  let f := if s.regBit (rCfloor c) 22 ∧ clusterRuns s c then min f (floorReg s c) else f
  let s := (holdFabric s c f).setField (rCfloor c) 18 10 f
  let s := s.setField (rCfloor c) 24 24 (if (s.cluster c).retired then 1 else 0)
  s.setField (rCrate c) 25 17 (regf s c (if v = 0 then 520 else v))

/-- A request for a setpoint: clamped and logged outside 0.52 V to 0.92 V, taken down to a 5 mV step (R67, R387). -/
def requestSetpoint (s : State) (c mv : Nat) : State :=
  let v := max 520 (min mv 920)
  let s := if v = mv then s else rasLog s (logEv 0x0503 (unitOf 3 c) (s.reg (rCfloor c)).toNat)
  let v := v - v % 5
  if v = reqOf s c then s
  else
    let s := { s with pwr := { s.pwr with req := tset 0 s.pwr.req c v } }
    refreshFloor (s.setField (rCfloor c) 22 22 1) c

/-- SETPOINT_SETTLED (R71): the setpoint in force is the requested one with the guard's raise. -/
def settle (s : State) (c : Nat) : State :=
  let s := s.setField (rCfloor c) 22 22 0
  let s := s.setField (rCfloor c) 9 0 (min 920 (reqOf s c + tget 0 s.pwr.guardV c))
  refreshFloor s c

/-- A cluster whose floor fell below its committed rate (R72, R411): the lowest step that meets it, or its ranks that rely on
more than it can give are stopped for replay. -/
def holdCommit (s : State) (c : Nat) : State :=
  let s := refreshFloor s c
  if commitOf s c = 0 ∨ ¬ clusterRuns s c ∨ commitOf s c ≤ floorOf s c (reqOf s c) then s
  else match lowestStep s c (commitOf s c) with
  | some v => requestSetpoint s c v
  | none =>
    let best := (steps.map (floorOf s c)).foldl max 0
    (List.range 9).foldl (fun s i =>
      let k := 9 * c + i
      match coreTask s k with
      | some t => if best < t.floors.getD (s.core k).rank 0 then stopCore s k 0x0502 else s
      | none => s) s

/-- Takes a whole cluster out: registers show it before the next decision, its ranks stop for replay, and the loss is logged (R447,
R448, R463). -/
def retireCluster (s : State) (c code : Nat) : State :=
  if (s.cluster c).retired then s
  else
    let s := s.modCluster c (fun k => { k with retired := true, attnTest := 0 })
    let s := { s with pwr := { s.pwr with dom := tset 0 s.pwr.dom c 3, light := s.pwr.light.filter (· != c) } }
    let s := refreshClcore (refreshFloor s c) c
    let s := s.setField (rClcore c) 20 20 0
    let s := (List.range 9).foldl (fun s i => stopCore s (9 * c + i) code) s
    rasLog s (logEv 0x020B (unitOf 3 c) (s.reg (rClcore c)).toNat)

/-- Whether a tower is retired: its cache logic domain is off for good (R447, R449). -/
def towerRetired (s : State) (t : Nat) : Bool := tget 0 s.pwr.dom (69 + 2 * t) == 3

/-! ## The ceiling (R409, R420, R423, R426, R427) -/

def tierW (s : State) : Nat := s.regField oPwrLim 23 12
def curtailLevel (s : State) : Nat := max 400 (s.regField oPwrCtrl 6 0 * tierW s / 100)

/-- The ceiling that holds at a tick before the ramp of a rise: R423. -/
def staticCeiling (s : State) (tick : Nat) : Nat :=
  let t := match s.pwr.pend with
    | some (w, at_) => if at_ ≤ tick then w else s.pwr.target
    | none => s.pwr.target
  let w := min (tierW s) (if t = 0 then tierW s else t)
  let w := if s.regBit oPwrLim 25 then min w (curtailLevel s) else w
  if s.pwr.cap = 0 then w else min w s.pwr.cap

/-- Watts that the input may draw `d` ticks after a rise from `w`: SLEW A/ms and 2 A at the measured input voltage (R427). -/
def rampW (s : State) (w d : Nat) : Nat :=
  w + (s.regField oPwrCtrl 12 7 * d + 200000) * s.regField oPwrCf 31 24 / 500000

/-- The planned ceiling at a tick. -/
def ceilingAt (s : State) (tick : Nat) : Nat :=
  match s.pwr.rise with
  | none => staticCeiling s tick
  | some (t, w) => min (staticCeiling s tick) (rampW s w (tick - t))

/-- PWR_LIM.CEILING follows; a rise starts a new ramp at the input power then drawn. -/
def refreshCeiling (s : State) : State :=
  let old := s.regField oPwrLim 11 0
  let new := staticCeiling s s.clk.tick
  let s := if old < new then { s with pwr := { s.pwr with rise := some (s.clk.tick, s.regField oPwrCf 23 12) } } else s
  let s := if new < old then { s with pwr := { s.pwr with rise := none } } else s
  s.setField oPwrLim 11 0 new

/-! ## The plan (R420, R422) -/

/-- Tick at which interval `i` of the plan begins. -/
def planTick (s : State) (i : Nat) : Nat := s.pwr.planAt + i * horizon s / 16

/-- Planned setpoint of a cluster in an interval; the present one where no plan was set. -/
def planned (s : State) (i c : Nat) : Nat :=
  match s.pwr.plan[i]? with
  | some row => row.getD c 0
  | none => reqOf s c

def validStep (v : Nat) : Bool := v == 0 || (decide (520 ≤ v ∧ v ≤ 920) && v % 5 == 0)

/-- Core-rail limit of a tower in A: 1,200, or 1,000 after a second lost module (R409, R420). -/
def towerLimit (s : State) (t : Nat) : Nat := tget 1200 s.pwr.towerA t

/-- Whether a plan meets R420 and R422: valid steps, each commitment held, tower current, and worst-band power under the
planned ceiling or the committed floor. -/
def planOk (s : State) (p : List (List Nat)) : Bool :=
  p.length == 16 && (List.range 16).all (fun i =>
    let row := p.getD i []
    let t := s.clk.tick + i * horizon s / 16
    row.length == 64 && row.all validStep &&
    (List.range 64).all (fun c => decide (commitAt s c t ≤ (if row.getD c 0 = 0 then 0 else floorOf s c (row.getD c 0)))) &&
    (List.range 2).all (fun tw => decide
      (((List.range 32).map (fun j => let v := row.getD (32 * tw + j) 0
        if v = 0 then 0 else ipk v)).sum + 9000 ≤ 100 * towerLimit s tw)) &&
    decide (committedFloor s (fun c => floorOf s c (row.getD c 0)) ≤ max (ceilingAt s t) (committedFloor s (fun c => commitAt s c t))))

/-- COVER pool (R454). -/
def inCover (s : State) (c : Nat) : Bool := s.regBit (if c < 32 then 0x00200020 else 0x00200024) (c % 32)

/-- The setpoint of cover clusters: the lowest step whose B4 floor reaches the highest COMMIT of the module (R454). -/
def coverStep (s : State) (c : Nat) : Nat :=
  let m := ((List.range 64).map (commitOf s)).foldl max 0
  if m = 0 then 550 else vB4 s c m

/-- The plan taken when the planner's is not legal: committed clusters at their curtail setpoint, cover clusters at theirs,
all others planned off (DESIGN CHOICE, log 20). -/
def fallbackPlan (s : State) : List (List Nat) :=
  List.replicate 16 ((List.range 64).map (fun c =>
    if commitOf s c ≠ 0 then (lowestStep s c (commitOf s c)).getD 920
    else if inCover s c then coverStep s c else 0))

/-- Ticks from a cluster's inrush grant until it is ready (R417). -/
def grantTicks : Nat := 6000

/-- Clusters of a tower queued for inrush, with the one that ramps. -/
def inrushAhead (s : State) (t : Nat) : Nat :=
  (tget [] s.pwr.inrush t).length + (match tget none s.pwr.ramp t with
    | some _ => 1
    | none => 0)

/-- A cluster in LI asks for inrush (R417): the exit time reported now stands (R418). -/
def requestInrush (s : State) (c : Nat) : State :=
  let t := c / 32
  if ¬ s.pwr.light.contains c ∨ (tget [] s.pwr.inrush t).contains c ∨ (tget none s.pwr.ramp t).any (fun r => r.1 == c) then s
  else { s with pwr := { s.pwr with
    exitAt := tset 0 s.pwr.exitAt c (s.clk.tick + grantTicks * (inrushAhead s t + 1)),
    inrush := tset [] s.pwr.inrush t (tget [] s.pwr.inrush t ++ [c]) } }

/-- Cover clusters stay at the step that R454 asks for, or above it for what they host. -/
def holdCover (s : State) : State :=
  (List.range 64).foldl (fun s c =>
    if ¬ inCover s c ∨ ¬ clusterRuns s c ∨ reqOf s c = 0 ∨ s.pwr.light.contains c then s
    else
      let v := coverStep s c
      let v := if commitOf s c = 0 then v else max v (max (reqOf s c) ((lowestStep s c (commitOf s c)).getD 0))
      requestSetpoint s c v) s

/-- The setpoint on which a cluster in LI resumes (R73's FLOOR). -/
def resumeAt (s : State) (c v : Nat) : State := refreshFloor { s with pwr := { s.pwr with req := tset 0 s.pwr.req c v } } c

/-- Adopts a plan of PWR's (R422): its first interval is what power control requests now of every cluster in service that is
powered; a cluster in LI that it powers asks for inrush, to resume there. -/
def adoptPlan (s : State) (p : List (List Nat)) : State :=
  let p := if planOk s p then p else fallbackPlan s
  let s := { s with pwr := { s.pwr with plan := p, planAt := s.clk.tick } }
  holdCover ((List.range 64).foldl (fun s c =>
    let v := (p.getD 0 []).getD c 0
    if v = 0 ∨ ¬ clusterRuns s c then s
    else if s.pwr.light.contains c then requestInrush (resumeAt s c v) c
    else requestSetpoint s c v) s)

/-- Intervals of the plan that meet a window of ticks. -/
def intervalsIn (s : State) (t0 t1 : Nat) : List Nat :=
  (List.range 16).filter (fun i => decide ((planTick s i ≤ t1 ∨ i = 0) ∧ (t0 < planTick s (i + 1) ∨ i = 15)))

/-- Earliest tick at which a cluster can serve: now, or in LI the exit time reported for it, or the one that a request now would
get (R352, R418). -/
def exitTick (s : State) (c : Nat) : Nat :=
  if !s.pwr.light.contains c then 0
  else match tget 0 s.pwr.exitAt c with
    | 0 => s.clk.tick + grantTicks * (inrushAhead s (c / 32) + 1)
    | t => t

/-- A die throttled in band B4 (R443): no new work on its uncommitted clusters. -/
def throttled (s : State) (c : Nat) : Bool := s.regBit (0x00302100 + 4 * dieOfCluster c) 21

/-- fplan of R350: the lowest floor planned for a cluster in a window; 0 if it is retired, in reset, off, in or about to enter a
low-power state, throttled without a commitment, or below 0.55 V at any point. -/
def fplan (s : State) (c t0 t1 : Nat) : Nat :=
  if ¬ clusterRuns s c ∨ (s.pwr.light.contains c ∧ t0 < exitTick s c) ∨
      (s.pwr.entry.any (fun e => decide (e.2 < t1))) ∨ (throttled s c ∧ commitOf s c = 0) then 0
  else
    let fs := (intervalsIn s t0 t1).map (fun i => floorOf s c (planned s i c))
    let fs := if t0 < planTick s 1 ∧ ¬ s.pwr.light.contains c then floorReg s c :: fs else fs
    fs.foldl min 1000

/-- fnow of R350: the floor in force held over the window; a cluster in LI counts as 0 until its exit time. -/
def fnow (s : State) (c t0 _t1 : Nat) : Nat :=
  if s.pwr.light.contains c ∧ t0 < exitTick s c then 0 else floorReg s c

/-- Sets power events; an enabled one sends vector 2 (R430). -/
def pwrEvent (s : State) (n : Nat) : State :=
  let s := s.setField oPwrEvt n n 1
  if s.regBit oPwrEvt (8 + n) then sendMsix s 2 else s

end Sys2Proof.Machine
end

