-- ==== Sys2Proof/Machine/Operands.lean ====
section
/-! DEFINITION. Operand fields: registers and predicates (R142 to R145), the five formats (R146 to R155), and address
formation with its checks (R157, R158, R230). -/

namespace Sys2Proof.Machine

/-! ## The instruction word (R146 to R155) -/

def wFmt (w : Word64) : Nat := bits w 63 61
def wCls (w : Word64) : Nat := bits w 60 56
def aType (w : Word64) : Nat := bits w 43 40
def aDst (w : Word64) : Nat := bits w 39 32
def aSrcA (w : Word64) : Nat := bits w 31 24
def aSrcB (w : Word64) : Nat := bits w 23 16
def aSrcC (w : Word64) : Nat := bits w 15 8
def aSr (w : Word64) : Bool := w.getLsbD 7
def aSat (w : Word64) : Bool := w.getLsbD 6
def aPdst (w : Word64) : Nat := bits w 5 3
def bOp (w : Word64) : Nat := bits w 51 48
def bDst (w : Word64) : Nat := bits w 47 40
def bSrcA (w : Word64) : Nat := bits w 39 32
def bImm (w : Word64) : Word := w.setWidth 32
def mSize (w : Word64) : Nat := 2 ^ bits w 47 45
def mCache (w : Word64) : Nat := bits w 44 43
def mPdst (w : Word64) : Nat := bits w 42 40
def mData (w : Word64) : Nat := bits w 39 32
def mBase (w : Word64) : Nat := bits w 31 24
def mOffset (w : Word64) : Int := sext 24 (bits w 23 0)
def cId (w : Word64) : Nat := bits w 47 44
def cSeg (w : Word64) : Bool := w.getLsbD 43
def cJv (w : Word64) : Bool := w.getLsbD 42
def cTgt (w : Word64) : Int := sext 20 (bits w 39 20)
def cReg (w : Word64) : Nat := bits w 39 32
def cJoin (w : Word64) : Int := sext 20 (bits w 19 0)
def dSrc (w : Word64) : Bool := w.getLsbD 47
def dTkt (w : Word64) : Nat := bits w 46 41
def dPdst (w : Word64) : Nat := bits w 40 38
def dReg (w : Word64) : Nat := bits w 37 30
def dOff (w : Word64) : Nat := bits w 29 10

/-- The format of a class (R148). -/
def classFmt (cls : Nat) : Option Nat :=
  if cls ≤ 0x09 then some 0 else if cls ≤ 0x0E then some 1 else if cls ≤ 0x13 then some 2
  else if cls ≤ 0x16 then some 3 else if cls ≤ 0x1B then some 4 else none

/-- How many OP values this manual lists for a class: none where the toolchain's file fixes them (R149). -/
def classOps (cls : Nat) : Option Nat :=
  if cls = 0x0D then some 2 else if cls = 0x0E then some 4 else if cls = 0x0F ∨ cls = 0x10 then some 3
  else if cls = 0x11 then some 11 else if cls = 0x12 then some 4 else if cls = 0x13 then some 3
  else if cls = 0x14 then some 2 else if cls = 0x15 then some 5 else if cls = 0x1B then some 2
  else if 0x16 ≤ cls ∧ cls ≤ 0x1A then some 1 else none

/-- Whether the word belongs to some row: a valid class in its format with a listed OP. -/
def listedWord (w : Word64) : Bool :=
  classFmt (wCls w) == some (wFmt w) &&
  (match classOps (wCls w) with | none => true | some n => decide (bOp w < n))

/-- Whether the word spells class `cls` in its own format. -/
def isClass (cls : Nat) (w : Word64) : Bool := wCls w == cls && classFmt cls == some (wFmt w)

/-- Whether the word spells OP `op` of class `cls`. -/
def isRow (cls op : Nat) (w : Word64) : Bool := isClass cls w && bOp w == op

/-- A word that a row may carry: its own, or one that no row lists (which R149 makes illegal). -/
def wordOk (own : Bool) (w : Word64) : Bool := own || !listedWord w

/-- The outcome of a core instruction whose word is fit for its row. -/
def coreRow (own : Bool) (w : Word64) (r : State) : Outcome := if wordOk own w then .next r else .fault .malformed

/-- Legality of format A for a class and its permitted types (R149 to R151). -/
def legalA (cls : Nat) (types : List Nat) (w : Word64) : Bool :=
  isClass cls w && bits w 2 0 == 0 && types.contains (aType w)

/-- Legality of format M (R153): size, CACHE, PDST and DATA as the class allows. -/
def legalM (cls op : Nat) (sizes : List Nat) (cacheOk pdstOk : Bool) (w : Word64) : Bool :=
  isRow cls op w && sizes.contains (bits w 47 45) && (if cacheOk then mCache w != 3 else mCache w == 0) &&
  (pdstOk || mPdst w == 7)

/-- Legality of format C (R154): reserved bits 41:40, and each field zero where it is not used. -/
def legalC (cls op : Nat) (id seg jv tgt : Bool) (w : Word64) : Bool :=
  isRow cls op w && bits w 41 40 == 0 && (id || cId w == 0) && (seg || !cSeg w) && (jv || !cJv w) &&
  (tgt || bits w 31 20 == 0) && ((jv && cJv w) || bits w 19 0 == 0)

/-- Legality of format D (R155). -/
def legalD (cls op : Nat) (tkt pdst : Bool) (w : Word64) : Bool :=
  isRow cls op w && bits w 9 0 == 0 && (tkt || dTkt w == 0) && (pdst || dPdst w == 7) &&
  (!dSrc w || (bits w 37 36 == 0 && dOff w == 0))

/-! ## Registers (R142 to R145) -/

/-- Whether an operand field may name an `n`-word source. -/
def srcOk (code n : Nat) : Bool :=
  if code < 0x80 then code % n == 0 && decide (code + n ≤ 0x80)
  else if code < 0xC0 then (code - 0x80) % n == 0 && decide (code + n ≤ 0xC0)
  else code == 0xC0 || (n == 1 && decide (code ≤ 0xC2))

/-- Whether an operand field may name an `n`-word destination: TID and SETMASK may not be written. -/
def dstOk (code n : Nat) : Bool := srcOk code n && decide (code ≤ 0xC0)

/-- One 32-bit source (R142). -/
def readReg (gr : Group) (mask : Word) (t code : Nat) : Word :=
  if code < 0x80 then tget 0 (thr gr t).gpr code
  else if code < 0xC0 then tget 0 gr.urf (code - 0x80)
  else if code = 0xC1 then BitVec.ofNat 32 t
  else if code = 0xC2 then mask
  else 0

/-- An `n`-word source, low word first; ZERO reads 0 in every part (R144). -/
def readWide (gr : Group) (mask : Word) (t code n : Nat) : Nat :=
  if code = 0xC0 then 0
  else (List.range n).foldr (fun i acc => (readReg gr mask t (code + i)).toNat + 2 ^ 32 * acc) 0

/-- The registers that a wide operand names. -/
def codeRange (code n : Nat) : List Nat := if 0xC0 ≤ code then [] else (List.range n).map (· + code)

/-- A write that overtakes a pending one removes the register from it. -/
def unpend (rs : List Nat) (ps : List Pend) : List Pend :=
  (ps.map (fun p => { p with regs := p.regs.filter (fun r => !rs.contains r) })).filter
    (fun p => !p.regs.isEmpty || p.pred.isSome)

/-- Writes `n` words to a general or uniform destination for thread `t`; ZERO discards (R142, R144). -/
def writeReg (gr : Group) (t code n v : Nat) : Group :=
  let words := (List.range n).map (fun i => (code + i, BitVec.ofNat 32 (v >>> (32 * i))))
  if code < 0x80 then
    modThr gr t (fun th => { th with
      gpr := words.foldl (fun g (r, x) => tset 0 g r x) th.gpr, pend := unpend (codeRange code n) th.pend })
  else if code < 0xC0 then
    { gr with urf := words.foldl (fun u (r, x) => tset 0 u (r - 0x80) x) gr.urf,
              upend := unpend (codeRange code n) gr.upend }
  else gr

/-- R143: a uniform destination takes the value of the lowest-numbered thread with a true guard only. -/
def writeDst (i : Ctx) (gr : Group) (t code n v : Nat) : Group :=
  if 0x80 ≤ code ∧ code < 0xC0 ∧ i.active.head? ≠ some t then gr else writeReg gr t code n v

/-- Writes a predicate; P7 discards (R145). -/
def writePred (gr : Group) (t p : Nat) (b : Bool) : Group :=
  if p = 7 then gr
  else modThr gr t (fun th => { th with
    preds := (th.preds &&& ~~~ (BitVec.ofNat 8 (2 ^ p))) ||| (if b then BitVec.ofNat 8 (2 ^ p) else 0),
    pend := (th.pend.map (fun q => if q.pred = some p then { q with pred := none } else q)).filter
      (fun q => !q.regs.isEmpty || q.pred.isSome) })

/-! ## Addresses (R157, R227 to R230) -/

def lsBytes : Nat := 0xC0000
def lsBase : Nat := 0x009000000000
def lsAddr (c : Nat) : Nat := lsBase + c * 0x100000
def selfBase : Nat := 0x00A000000000
def resBase : Nat := 0x008000000000
def mmioBase : Nat := 0x00F000000000
def hbmEnd : Nat := 0x004800000000

/-- The module ID of an address (R228). -/
def addrModule (a : Nat) : Nat := (a / 2 ^ 48) % 64
def addrLow (a : Nat) : Nat := a % 2 ^ 48

/-- The offset within the issuing core's own local-store slot or the self alias, when the address names it (R228, R230). -/
def ownLs (s : State) (c a : Nat) : Option Nat :=
  let lo := addrLow a
  if 2 ^ 54 ≤ a then none
  else if selfBase ≤ lo ∧ lo < selfBase + 0x100000 then some (lo - selfBase)
  else if addrModule a = s.modId ∧ lsAddr c ≤ lo ∧ lo < lsAddr c + 0x100000 then some (lo - lsAddr c)
  else none

/-- The first window entry that contains the whole range decides (R230). -/
def windowFor (ws : List Window) (a n : Nat) : Option Window :=
  ws.find? (fun w => decide (w.size ≠ 0 ∧ w.base ≤ a ∧ a + n ≤ w.base + w.size))

/-- The windows of the core's task. -/
def taskWindows (s : State) (c : Nat) : List Window :=
  match (coreTask s c).bind (fun t => s.context t.context) with
  | none => []
  | some x => x.windows

/-- Where an access goes once it has passed its checks: own local store at an offset, or a device address. -/
inductive Place where
  | own (off : Nat)
  | glob (a : Nat)
deriving DecidableEq, Repr

/-- Read and write right of a window (R229). -/
def rightsOk (rights : Nat) (rd wr : Bool) : Bool := (!rd || nbit rights 0) && (!wr || nbit rights 1)

/-- An unbacked resident-window address of the own module, which no window may reach after a change of LLC_RESCFG. -/
def globalCheck (s : State) (c a n : Nat) (rd wr : Bool) : Except Cause Place :=
  let d := if wr then 1 else 0
  if 2 ^ 54 ≤ a then .error ⟨cWINDOW_FAULT, a, d⟩
  else match ownLs s c a with
  | some off => if off + n ≤ lsBytes then .ok (.own off) else .error ⟨cLS_RANGE, a, 0⟩
  | none =>
    match windowFor (taskWindows s c) a n with
    | none => .error ⟨cWINDOW_FAULT, a, d⟩
    | some w => if rightsOk w.rights rd wr then .ok (.glob a) else .error ⟨cRIGHTS_FAULT, a, d⟩

/-- Global address of format M: the BASE pair plus the sign-extended OFFSET (R153, R157). -/
def mGlobal (gr : Group) (i : Ctx) (t : Nat) : Nat :=
  trunc 64 ((readWide gr i.mask t (mBase i.w) 2 : Int) + mOffset i.w)

/-- Local address of format M: a byte offset into the issuing core's own local store. -/
def mLocal (gr : Group) (i : Ctx) (t : Nat) : Nat :=
  trunc 32 ((readReg gr i.mask t (mBase i.w)).toNat + mOffset i.w)

/-- The local-space checks in order (R157). -/
def localCheck (a n : Nat) : Option Cause :=
  if a % n ≠ 0 then some ⟨cMISALIGNED, a, n⟩
  else if lsBytes < a + n then some ⟨cLS_RANGE, a, 0⟩
  else none

end Sys2Proof.Machine
end

