-- ==== Sys2Proof/Machine/Home.lean ====
section
/-! DEFINITION. Homes of lines: placement, interleave and the resident window (R235 to R241, R246, R254). -/

namespace Sys2Proof.Machine

def llcBase : Nat := 0x0200C000
def rRescfg : Nat := llcBase
def rPincfg : Nat := llcBase + 4
def rPinbud (c : Nat) : Nat := llcBase + 0x40 + 4 * c
def rPlaceRng (e : Nat) : Nat := llcBase + 0x100 + 8 * e
def rPlaceAttr (e : Nat) : Nat := llcBase + 0x104 + 8 * e
def rHstat (h : Nat) : Nat := llcBase + 0x200 + 4 * h

/-- Units of 64 MiB (R239) and 2 MiB (R237). -/
def mib64 : Nat := 0x4000000
def mib2 : Nat := 0x200000
def gib1 : Nat := 0x40000000

/-- Resident ways R of a half (R235). -/
def resWays (s : State) (h : Nat) : Nat := s.regField rRescfg (4 * h + 3) (4 * h)

/-- A placement entry: base and size in bytes, SPLIT, PIN, PCLASS; none when disabled or BAD (R239). -/
structure Placement where
  base  : Nat
  size  : Nat
  split : Bool
  pin   : Bool
  cls   : Nat
deriving DecidableEq, Repr

def placement (s : State) (e : Nat) : Option Placement :=
  let base := s.regField (rPlaceRng e) 12 0
  let size := s.regField (rPlaceRng e) 25 13
  let a := s.reg (rPlaceAttr e)
  if size = 0 ∨ a.getLsbD 7 then none
  else some ⟨base * mib64, size * mib64, bits a 1 0 == 1, a.getLsbD 2, bits a 6 3⟩

/-- The governing entry of an HBM address: the lowest-numbered enabled one that covers it (R239). -/
def governing (s : State) (a : Nat) : Option Placement :=
  (List.range 16).findSome? (fun e => (placement s e).bind (fun p =>
    if p.base ≤ a ∧ a < p.base + p.size then some p else none))

/-- Where a line lives: its home half, bank of the half, and set. -/
structure Home where
  half : Nat
  bank : Nat
  set  : Nat
deriving DecidableEq, Repr

/-- Stack and offset within the stack of an HBM address (R240). -/
def stackOf (s : State) (a : Nat) : Nat × Nat :=
  let il8 := let c := a >>> 12
    ((c ^^^ (c >>> 3) ^^^ (c >>> 6)) % 8, ((c >>> 3) <<< 12) + a % 4096)
  match governing s a with
  | none => il8
  | some p =>
    if !p.split then il8
    else
      let h := p.size / 2
      let t := if h ≤ a - p.base then 1 else 0
      let c := (a - p.base - t * h) >>> 12
      (4 * t + (c ^^^ (c >>> 2) ^^^ (c >>> 4)) % 4, p.base / 8 + ((c >>> 2) <<< 12) + a % 4096)

/-- Nominal home of an HBM address, before any bank retirement (R240, R241). -/
def hbmHome (s : State) (a : Nat) : Home :=
  let (k, o) := stackOf s a
  let l := o >>> 7
  ⟨k / 2, 128 * (k % 2) + (l ^^^ (l >>> 7) ^^^ (l >>> 14)) % 128, (l >>> 7) % 2048⟩

/-- Half slot and offset of a resident-window address (R227), when it lies in the window. -/
def resSlot (a : Nat) : Option (Nat × Nat) :=
  if resBase ≤ a ∧ a < resBase + 4 * gib1 then some ((a - resBase) / gib1, (a - resBase) % gib1) else none

/-- Bank, set and way of a resident line (R236). -/
def resPlace (f : Nat) : Nat × Nat × Nat :=
  let r := f >>> 7
  ((r ^^^ (r >>> 8)) % 256, (r >>> 8) % 2048, r >>> 19)

/-- Tower bank index of a half's bank: 512·tower + 256·side + bank. -/
def towerBank (h b : Nat) : Nat := 256 * h + b

/-- The substitute of a retired bank: the in-service bank of the half with the nearest number, the lower on a tie (R254). -/
def substitute (s : State) (h b : Nat) : Nat :=
  let ok := fun b => !s.llc.retired.contains (towerBank h b)
  if ok b then b
  else ((List.range 256).findSome? (fun d =>
    if d ≤ b ∧ ok (b - d) then some (b - d) else if b + d < 256 ∧ ok (b + d) then some (b + d) else none)).getD b

/-- The home of a device address within this module (its low 48 bits): HBM lines and backed resident lines; none elsewhere (R227,
R235, R240, R254). -/
def homeAt (s : State) (lo : Nat) : Option Home :=
  if lo < hbmEnd then
    let h := hbmHome s lo
    some { h with bank := substitute s h.half h.bank }
  else match resSlot lo with
  | none => none
  | some (h, f) =>
    if f < resWays s h * mib64 then
      let (b, st, w) := resPlace f
      match s.llc.reloc.find? (fun r => r.1 = towerBank h b ∧ r.2.1 = w) with
      | some r => some ⟨h, r.2.2 % 256, st⟩
      | none => some ⟨h, b, st⟩
    else none

/-- The home of a device address with its module ID; none in another module (R228). -/
def homeOf (s : State) (a : Nat) : Option Home := if addrModule a ≠ s.modId then none else homeAt s (addrLow a)

/-- Relocated lines that each set of a bank hosts (R254). -/
def relocCount (s : State) (h b : Nat) : Nat := (s.llc.reloc.filter (fun r => r.2.2 == towerBank h b)).length

/-- Whether an address lies in local HBM (its low 48 bits; the module is checked by the caller). -/
def isHbm (a : Nat) : Bool := decide (addrLow a < hbmEnd)

/-- LLC ways of a set, and its limit of pinned ways (R235, R246). -/
def llcWays (s : State) (h b : Nat) : Nat := 16 - resWays s h - relocCount s h b
def pinLimit (s : State) (h b : Nat) : Nat := min (s.regField rPincfg 3 0) (14 - resWays s h - relocCount s h b)

/-- The LLC lines that share a set with an address. -/
def setLines (s : State) (m : Home) : List (Nat × Line) :=
  s.llc.lines.filter (fun p => homeAt s (128 * p.1) == some m)

/-- Lines that class `c` holds pinned in a half (R247). -/
def pinnedBy (s : State) (h c : Nat) : Nat :=
  (s.llc.lines.filter (fun p => p.2.pin == some c && ((homeAt s (128 * p.1)).map (·.half)) == some h)).length

/-- Pinned lines of a half. -/
def pinnedLines (s : State) (h : Nat) : Nat :=
  (s.llc.lines.filter (fun p => p.2.pin.isSome && ((homeAt s (128 * p.1)).map (·.half)) == some h)).length

/-- LLC_HSTAT of a half: banks retired, and pinned lines in units of 64 KiB, rounded up (R258). -/
def hstatOf (s : State) (h : Nat) : State :=
  (s.setField (rHstat h) 8 0 (s.llc.retired.filter (fun tb => tb / 256 == h)).length).setField (rHstat h) 22 9
    (ceilDiv (pinnedLines s h) 512)
def refreshHstat (s : State) : State := (List.range 4).foldl hstatOf s

/-- The area of R549 that an HBM address lies in. -/
def reservedHbm (a : Nat) : Bool :=
  decide ((0x004000000000 ≤ a ∧ a < 0x004008000000) ∨ (0x004010000000 ≤ a ∧ a < 0x004050000000))

/-- Whether a byte range meets a reserved area of HBM (R549). -/
def meetsReserved (a n : Nat) : Bool :=
  decide (n ≠ 0 ∧ ((a < 0x004008000000 ∧ 0x004000000000 < a + n) ∨ (a < 0x004050000000 ∧ 0x004010000000 < a + n)))

/-- Whether a byte range lies wholly in the backed part of one half slot of the local resident window (R231, R235). -/
def inBackedRes (s : State) (a n : Nat) : Bool :=
  match resSlot a with
  | none => false
  | some (h, f) => decide (f + n ≤ resWays s h * mib64)

/-- Whether a byte range lies wholly in local HBM. -/
def inHbm (a n : Nat) : Bool := decide (a + n ≤ hbmEnd)

end Sys2Proof.Machine
end

