-- ==== Sys2Proof/Machine/Bundle.lean ====
section
/-! DEFINITION. Vertical bundles, the vertical derate and the registers of a tower that show them (R31, R32, R46 to R48). -/

namespace Sys2Proof.Machine

/-! ## Bundles (R31, R32) -/

def bundleKey (t l n : Nat) : Nat := 2 ^ 15 * t + 2 ^ 14 * l + n
def keyTower (k : Nat) : Nat := k / 2 ^ 15
def keyLayer (k : Nat) : Nat := (k / 2 ^ 14) % 2
def keyBundle (k : Nat) : Nat := k % 2 ^ 14
/-- Tower bank of a bundle, counted over both towers, and its group (R32). -/
def keyBank (k : Nat) : Nat := 512 * keyTower k + keyBundle k / 24
def keyGroup (k : Nat) : Nat := (keyBundle k % 24) / 12
/-- Key of a group in `Vert.out`. -/
def groupKey (tb layer g : Nat) : Nat := 4 * tb + 2 * layer + g

def State.bundle (s : State) (k : Nat) : Bundle := tget Bundle.fresh s.vert.bundles k
def State.modBundle (s : State) (k : Nat) (f : Bundle → Bundle) : State :=
  { s with vert := { s.vert with bundles := tset Bundle.fresh s.vert.bundles k (f (s.bundle k)) } }

def groupOut (s : State) (tb layer g : Nat) : Bool := s.vert.out.contains (groupKey tb layer g)
def bundleGroupOut (s : State) (k : Nat) : Bool := groupOut s (keyBank k) (keyLayer k) (keyGroup k)

/-- Spares of a bundle in use. -/
def sparesUsed (b : Bundle) : Nat := (if b.s32 = 0x3F then 0 else 1) + (if b.s33 = 0x3F then 0 else 1)

/-- TWR_BSTAT of a bundle. -/
def bstat (s : State) (k : Nat) : Nat :=
  let b := s.bundle k
  let ok := fun (l sh : Nat) => if b.failed.contains l then 0 else 2 ^ sh
  (if b.found ≠ [] then 5 else if b.retired then 4 else if b.half then 3 else sparesUsed b) +
    8 * b.s32 + 2 ^ 9 * b.s33 + ok 35 15 + ok 36 16 + ok 37 17 + ok 38 18 +
    (if bundleGroupOut s k then 2 ^ 19 else 0) + 2 ^ 20 * min b.errs 0xFFF

/-! ## The vertical derate (R48) -/

/-- Bytes per handshake of one group in one direction: bundles in service, half width counting 2. -/
def groupBytes (s : State) (tb layer g dir : Nat) : Nat :=
  if groupOut s tb layer g then 0
  else ((List.range 6).map (fun i =>
    let k := bundleKey (tb / 512) layer (24 * (tb % 512) + 12 * g + 6 * dir + i)
    let b := s.bundle k
    if b.retired ∨ b.found ≠ [] then 0 else if b.half then 2 else 4)).sum

def bankBph (s : State) (tb layer : Nat) : Nat :=
  min (groupBytes s tb layer 0 0 + groupBytes s tb layer 1 0) (groupBytes s tb layer 0 1 + groupBytes s tb layer 1 1)

/-- Bank factor as a fraction of 125: bytes ÷ 31.25 = 4·bytes ÷ 125, at most 1; die B also crosses layer 1. -/
def bankFactor (s : State) (tb die : Nat) : Nat :=
  let w := if die = 0 then bankBph s tb 0 else min (bankBph s tb 0) (bankBph s tb 1)
  min 125 (4 * w)

/-- Whether a bank serves through bundles of its own: neither retired nor under retirement, whose traffic another bank's bundles
relay (R47 step 1). R48's example shows the derate of the retired bank from the loss of its last group on (DEDUCED, log 96). -/
def bankServes (s : State) (tb : Nat) : Bool :=
  !s.llc.retired.contains tb && !s.vert.retiring.any (fun p => p.1 == tb)

/-- 256 × half_factor × 125 ÷ 125: the derate of a half for a die, rounded down once; a half is 256 tower banks. -/
def halfDerate (s : State) (h die : Nat) : Nat :=
  let banks := (List.range 256).map (256 * h + ·)
  let up := banks.filter (bankServes s)
  up.length * (up.foldl (fun m b => min m (bankFactor s b die)) 125) / 125

def vderate (s : State) (t die : Nat) : Nat := min (halfDerate s (2 * t) die) (halfDerate s (2 * t + 1) die)

def twrBase (t : Nat) : Nat := 0x02008000 + 0x1000 * t

/-- Whether a bank of the tower is served by one group in at least one layer. -/
def singleGroup (s : State) (tb : Nat) : Bool :=
  (List.range 2).any (fun l => groupOut s tb l 0 || groupOut s tb l 1)

/-- TWR_VSTAT, TWR_VCNT and TWR_VGRP follow the bundles and banks of a tower (R46). -/
def refreshTower (s : State) (t : Nat) : State :=
  let r := twrBase t
  let bs := s.vert.bundles.filter (fun p => keyTower p.1 == t)
  let grp := s.vert.out.filter (fun g => g / 4 / 512 == t)
  let loose := (bs.filter (fun p => p.2.retired && !bundleGroupOut s p.1)).length
  let s := s.setField r 8 0 (vderate s t 0)
  let s := s.setField r 17 9 (vderate s t 1)
  let s := s.setField r 27 18 (s.llc.retired.filter (fun b => b / 512 == t)).length
  let s := s.setField (r + 4) 14 0 (bs.filter (fun p => p.2.half && !p.2.retired)).length
  let s := s.setField (r + 4) 29 15 (12 * grp.length + loose)
  let s := s.setField (r + 8) 9 0 (((grp.map (· / 4)).eraseDups.filter (fun b =>
    !s.llc.retired.contains b && singleGroup s b)).length)
  s.setField (r + 8) 24 10 (bs.filter (fun p => !p.2.half && !p.2.retired && sparesUsed p.2 == 2)).length

/-- The retirement of a bank begins (R47): its traffic is relayed from now on, and the derates show it. -/
def beginBankRetire (s : State) (tb : Nat) : State :=
  if s.vert.retiring.any (fun p => p.1 == tb) ∨ s.llc.retired.contains tb then s
  else refreshTower { s with vert := { s.vert with retiring := s.vert.retiring ++ [(tb, false)] } } (tb / 512)

end Sys2Proof.Machine
end

