-- ==== Sys2Proof/Machine/Float.lean ====
section
/-! DEFINITION. Element formats, rounding and conversions (chapter 04: R76, R90, R98 to R103). Values are exact
dyadic numbers, so each operation computes exactly and rounds once. -/

namespace Sys2Proof.Machine

/-- A decoded floating-point value: `fin neg m e` is (−1)^neg × m × 2^e. -/
inductive FVal where
  | nan
  | inf (neg : Bool)
  | fin (neg : Bool) (m : Nat) (e : Int)
deriving DecidableEq, Repr

/-- How a format spends its highest exponent codes (R76). -/
inductive FKind where
  | ieee   -- infinities and NaNs
  | e4m3   -- one NaN code, no infinity
  | finite -- neither
deriving DecidableEq, Repr

/-- A floating-point format of R76. -/
structure FFmt where
  eb   : Nat
  mb   : Nat
  bias : Nat
  kind : FKind
deriving DecidableEq, Repr

def fp32 : FFmt := ⟨8, 23, 127, .ieee⟩
def bf16 : FFmt := ⟨8, 7, 127, .ieee⟩
def fp16 : FFmt := ⟨5, 10, 15, .ieee⟩
def e4m3 : FFmt := ⟨4, 3, 7, .e4m3⟩
def e5m2 : FFmt := ⟨5, 2, 15, .ieee⟩
def e3m2 : FFmt := ⟨3, 2, 3, .finite⟩
def e2m3 : FFmt := ⟨2, 3, 1, .finite⟩
def e2m1 : FFmt := ⟨2, 1, 1, .finite⟩

/-- Bits of a code of the format. -/
def fmtWidth (f : FFmt) : Nat := 1 + f.eb + f.mb

/-- Exponent of the least significant bit of a subnormal: 1 − bias − mb. -/
def lsbExp (f : FFmt) : Int := 1 - (f.bias : Int) - (f.mb : Int)

/-- The value of a code (R76). Bits above the format's width are ignored (R151). -/
def decodeF (f : FFmt) (x : Nat) : FVal :=
  let frac := x % 2 ^ f.mb
  let ex := (x >>> f.mb) % 2 ^ f.eb
  let neg := nbit x (f.mb + f.eb)
  let top := 2 ^ f.eb - 1
  if f.kind = .ieee ∧ ex = top then (if frac = 0 then .inf neg else .nan)
  else if f.kind = .e4m3 ∧ ex = top ∧ frac = 2 ^ f.mb - 1 then .nan
  else if ex = 0 then .fin neg frac (lsbExp f)
  else .fin neg (frac + 2 ^ f.mb) (lsbExp f + (ex : Int) - 1)

/-- The magnitude code of the largest finite value of the format. -/
def maxCode (f : FFmt) : Nat :=
  match f.kind with
  | .ieee => (2 ^ f.eb - 1) * 2 ^ f.mb - 1
  | .e4m3 => 2 ^ (f.eb + f.mb) - 2
  | .finite => 2 ^ (f.eb + f.mb) - 1

/-- Number of bits of a positive number; 0 for 0. -/
def bitLen (m : Nat) : Nat := if m = 0 then 0 else Nat.log2 m + 1

/-- m × 2^e as a number when e ≥ 0, floor otherwise. -/
def scaleNat (m : Nat) (e : Int) : Nat := if 0 ≤ e then m * 2 ^ e.toNat else m >>> (-e).toNat

/-- The rounding of a discarded part: `kept` with `d` bits below holding `rem`, and anything lower in `sticky`. -/
inductive Rounding where
  | nearest
  | up
  | down
  | stoch (r : Nat)
deriving DecidableEq, Repr

/-- Rounds a kept magnitude over its discarded part (R90 nearest even, R102 stochastic, R284 outward). -/
def roundKept (r : Rounding) (kept d rem : Nat) (sticky : Bool) : Nat :=
  match r with
  | .nearest =>
    let half := 2 ^ (d - 1)
    if d = 0 then kept
    else if rem > half ∨ (rem = half ∧ (sticky ∨ kept % 2 = 1)) then kept + 1 else kept
  | .up => if rem ≠ 0 ∨ sticky then kept + 1 else kept
  | .down => kept
  | .stoch r =>
    let k := min d 32
    if (rem >>> (d - k)) + (r % 2 ^ 32) / 2 ^ (32 - k) ≥ 2 ^ k ∧ d ≠ 0 then kept + 1 else kept

/-- Rounds m × 2^e (a magnitude, with `sticky` for a non-zero part below) to the format, giving the magnitude
code without regard to range: codes above `maxCode f` are beyond the largest finite value. -/
def roundMag (f : FFmt) (r : Rounding) (m : Nat) (e : Int) (sticky : Bool) : Nat :=
  let q := max (e + (bitLen m : Int) - ((f.mb : Int) + 1)) (lsbExp f)
  let k := if q ≤ e then m * 2 ^ (e - q).toNat
           else roundKept r (m >>> (q - e).toNat) (q - e).toNat (m % 2 ^ (q - e).toNat) sticky
  -- k × 2^q; k may have reached 2^(mb+1), which the sum below carries into the exponent field
  if m = 0 then 0
  else if k < 2 ^ f.mb then k
  else (q - lsbExp f).toNat * 2 ^ f.mb + k

/-- Out-of-range answers of a conversion: FINCLAMP and the code used for NaN. -/
def nanCode (f : FFmt) : Nat :=
  if f = fp32 then 0x7FC00000 else if f = bf16 then 0x7FC0 else if f = fp16 then 0x7E00
  else if f = e5m2 then ([0x7D, 0x7E, 0x7F, 0xFD, 0xFE, 0xFF].getD (Config.e5m2NaN % 6) 0x7E)
  else if f = e4m3 then 0x7F else 0

/-- The code of an infinity of an IEEE-style format. -/
def infCode (f : FFmt) (neg : Bool) : Nat :=
  (2 ^ f.eb - 1) * 2 ^ f.mb + (if neg then 2 ^ (f.eb + f.mb) else 0)

/-- A magnitude code with its sign. -/
def withSign (f : FFmt) (neg : Bool) (c : Nat) : Nat := c + (if neg then 2 ^ (f.eb + f.mb) else 0)

/-- R99 for a floating-point destination: the code for a value beyond the largest finite one, or an infinity. R99 has no row for FP32 with
SAT: DESIGN CHOICE, it clamps like BF16 and FP16 (log 107). -/
def overCode (f : FFmt) (clamp neg : Bool) : Nat :=
  match f.kind with
  | .ieee => if clamp then withSign f neg (maxCode f) else infCode f neg
  | .e4m3 => if clamp then withSign f neg (maxCode f) else nanCode f
  | .finite => withSign f neg (maxCode f)

/-- Rounds a magnitude with its sign to a code of the format (R90, R99). -/
def encodeMag (f : FFmt) (r : Rounding) (clamp neg : Bool) (m : Nat) (e : Int) (sticky : Bool := false) : Nat :=
  let c := roundMag f r m e sticky
  if c ≤ maxCode f then withSign f neg c else overCode f clamp neg

/-- Converts a value to a floating-point format (R90, R99). -/
def encodeF (f : FFmt) (r : Rounding) (clamp : Bool) : FVal → Nat
  | .nan => nanCode f
  | .inf neg => overCode f clamp neg
  | .fin neg m e => encodeMag f r clamp neg m e

/-- A finite value as a signed mantissa. -/
def signed (neg : Bool) (m : Nat) : Int := if neg then - (m : Int) else (m : Int)

/-- The exact sum of two finite values, with the sign of a zero sum by round-to-nearest rules. -/
def addFin (n1 : Bool) (m1 : Nat) (e1 : Int) (n2 : Bool) (m2 : Nat) (e2 : Int) : FVal :=
  let e := min e1 e2
  let s := signed n1 m1 * 2 ^ (e1 - e).toNat + signed n2 m2 * 2 ^ (e2 - e).toNat
  if s = 0 then .fin (n1 && n2) 0 e else .fin (decide (s < 0)) s.natAbs e

/-- Exact addition of values (R98). -/
def addV : FVal → FVal → FVal
  | .nan, _ => .nan
  | _, .nan => .nan
  | .inf a, .inf b => if a = b then .inf a else .nan
  | .inf a, _ => .inf a
  | _, .inf b => .inf b
  | .fin n1 m1 e1, .fin n2 m2 e2 => addFin n1 m1 e1 n2 m2 e2

/-- Exact product of values (R98). -/
def mulV : FVal → FVal → FVal
  | .nan, _ => .nan
  | _, .nan => .nan
  | .inf a, .inf b => .inf (a != b)
  | .inf a, .fin n m _ => if m = 0 then .nan else .inf (a != n)
  | .fin n m _, .inf b => if m = 0 then .nan else .inf (n != b)
  | .fin n1 m1 e1, .fin n2 m2 e2 => .fin (n1 != n2) (m1 * m2) (e1 + e2)

def negV : FVal → FVal
  | .nan => .nan
  | .inf a => .inf (!a)
  | .fin n m e => .fin (!n) m e

def absV : FVal → FVal
  | .nan => .nan
  | .inf _ => .inf false
  | .fin _ m e => .fin false m e

/-- A value scaled by 2^k. -/
def scaleV (k : Int) : FVal → FVal
  | .fin n m e => .fin n m (e + k)
  | v => v

/-- Whether a value is a NaN. -/
def isNaNV : FVal → Bool
  | .nan => true
  | _ => false

/-- Whether a value is exactly zero. -/
def isZeroV : FVal → Bool
  | .fin _ m _ => m == 0
  | _ => false

/-- The order of two non-NaN values: −1, 0 or 1 (zeros equal). -/
def cmpV : FVal → FVal → Int
  | .inf a, .inf b => if a = b then 0 else if a then -1 else 1
  | .inf a, _ => if a then -1 else 1
  | _, .inf b => if b then 1 else -1
  | .fin n1 m1 e1, .fin n2 m2 e2 =>
    let e := min e1 e2
    let d := signed n1 m1 * 2 ^ (e1 - e).toNat - signed n2 m2 * 2 ^ (e2 - e).toNat
    if d < 0 then -1 else if d = 0 then 0 else 1
  | _, _ => 0

/-- Whether a value carries a minus sign. -/
def signV : FVal → Bool
  | .inf n => n
  | .fin n _ _ => n
  | .nan => false

/-- x ≤ y with −0 below +0 (R156, MIN and MAX). -/
def leV (x y : FVal) : Bool :=
  let c := cmpV x y
  if c = 0 then (signV x || !signV y) else c < 0

/-- MIN and MAX of R156: the non-NaN operand when one is NaN. -/
def minV (x y : FVal) : FVal := if isNaNV x then y else if isNaNV y then x else if leV x y then x else y
def maxV (x y : FVal) : FVal := if isNaNV x then y else if isNaNV y then x else if leV x y then y else x

/-- The integer square root, by one bit at a time. -/
def isqrtLoop : Nat → Nat → Nat → Nat
  | 0, _, r => r
  | k + 1, n, r => isqrtLoop k n (if (r + 2 ^ k) * (r + 2 ^ k) ≤ n then r + 2 ^ k else r)

def isqrt (n : Nat) : Nat := isqrtLoop (bitLen n / 2 + 1) n 0

/-- FP32 codes as values and back. -/
def f32V (w : Word) : FVal := decodeF fp32 w.toNat
def toF32 (v : FVal) : Word := BitVec.ofNat 32 (encodeF fp32 .nearest false v)
def toF32r (r : Rounding) (v : FVal) : Word := BitVec.ofNat 32 (encodeF fp32 r false v)

/-- Rounding toward +∞ of a signed value (R284, R286). -/
def upRounding (neg : Bool) : Rounding := if neg then .down else .up
def toF32up : FVal → Word
  | .fin neg m e =>
    let c := roundMag fp32 (upRounding neg) m e false
    BitVec.ofNat 32 (if c ≤ maxCode fp32 then withSign fp32 neg c
                     else if neg then withSign fp32 true (maxCode fp32) else infCode fp32 false)
  | v => toF32 v

/-- One rounding of the exact result (R98). -/
def f32add (a b : Word) : Word := toF32 (addV (f32V a) (f32V b))
def f32mul (a b : Word) : Word := toF32 (mulV (f32V a) (f32V b))
def f32fma (a b c : Word) : Word := toF32 (addV (mulV (f32V a) (f32V b)) (f32V c))

/-- The quotient of two values, with enough bits that one rounding follows (R267: correctly rounded). -/
def divWith (enc : Bool → Nat → Int → Bool → Word) (x y : FVal) : Word :=
  match x, y with
  | .nan, _ => toF32 .nan
  | _, .nan => toF32 .nan
  | .inf _, .inf _ => toF32 .nan
  | .inf a, .fin n _ _ => toF32 (.inf (a != n))
  | .fin n _ _, .inf b => toF32 (.fin (n != b) 0 0)
  | .fin n1 m1 e1, .fin n2 m2 e2 =>
    if m2 = 0 then (if m1 = 0 then toF32 .nan else toF32 (.inf (n1 != n2)))
    else
      let k := 64 + bitLen m2
      enc (n1 != n2) ((m1 <<< k) / m2) (e1 - e2 - k) ((m1 <<< k) % m2 != 0)

def f32div (a b : Word) : Word :=
  divWith (fun neg m e st => BitVec.ofNat 32 (encodeMag fp32 .nearest false neg m e st)) (f32V a) (f32V b)

/-- A non-negative quotient rounded toward +∞ (R286). -/
def f32divUp (a b : Word) : Word :=
  divWith (fun neg m e st => BitVec.ofNat 32
    (encodeMag fp32 (upRounding neg) false neg m e st)) (f32V a) (f32V b)

/-- SQRT rounds correctly to nearest even (R156). -/
def f32sqrt (a : Word) : Word :=
  match f32V a with
  | .nan => toF32 .nan
  | .inf n => if n then toF32 .nan else toF32 (.inf false)
  | .fin n m e =>
    if m = 0 then a else if n then toF32 .nan
    else
      let k := 80 + (if (e + 80) % 2 = 0 then 0 else 1)
      let r := isqrt (m <<< k)
      BitVec.ofNat 32 (encodeMag fp32 .nearest false false r ((e - k) / 2) (r * r != m <<< k))

/-! The reference values of the special functions, by integer arithmetic in 96-bit fixed point. -/

/-- Fixed-point bits of the reference computations. -/
def fxBits : Nat := 96
def fxOne : Nat := 2 ^ fxBits

/-- Multiplies by 2^(2^-i) for each set fraction bit of `f` from bit 95 down; `root` is 2^(2^-i). -/
def exp2Loop : Nat → Nat → Nat → Nat → Nat
  | 0, _, _, acc => acc
  | k + 1, f, root, acc =>
    let root' := isqrt (root * fxOne)
    exp2Loop k f root' (if nbit f k then (acc * root') / fxOne else acc)

/-- 2^f for a 96-bit fraction f, in 96-bit fixed point (only the top 64 fraction bits matter). -/
def exp2Frac (f : Nat) : Nat := exp2Loop 64 (f >>> 32) (2 * fxOne) fxOne

/-- log2 of a 96-bit fixed-point number in [1, 2), by repeated squaring, 64 bits. -/
def log2Loop : Nat → Nat → Nat → Nat
  | 0, _, acc => acc
  | k + 1, y, acc =>
    let y2 := (y * y) / fxOne
    if y2 ≥ 2 * fxOne then log2Loop k (y2 / 2) (2 * acc + 1) else log2Loop k y2 (2 * acc)

/-- log2(e) in 96-bit fixed point. -/
def log2eFx : Nat := 114302077158074026402637675936

/-- The RNE-rounded reference of a special function: codes 0 RCP, 1 RSQRT, 3 EXP2, 4 LOG2, 5 TANH; arguments
whose result R156 states exactly do not reach it. -/
def fspecRef (op : Nat) (x : Word) : Word :=
  match f32V x with
  | .fin n m e =>
    if op = 0 then f32div (BitVec.ofNat 32 0x3F800000) x
    else if op = 1 then
      let k := 160 + (if (e + 160) % 2 = 0 then 0 else 1)
      let r := isqrt (m <<< k)                       -- sqrt(x) = r × 2^((e-k)/2)
      BitVec.ofNat 32 (encodeMag fp32 .nearest false false ((2 ^ 200) / r) (-200 - (e - k) / 2) true)
    else if op = 3 then
      let fx : Int := if 8 < e then signed n m * 2 ^ 105 * fxOne
                      else if 0 ≤ e + 96 then signed n m * 2 ^ (e + 96).toNat
                      else (signed n m) / 2 ^ (-(e + 96)).toNat
      BitVec.ofNat 32 (encodeMag fp32 .nearest false false (exp2Frac (fx % fxOne).toNat)
        (min 400 (max (-400) (fx / fxOne)) - 96) true)
    else if op = 4 then
      let b := bitLen m - 1
      let y := (m <<< 96) >>> b
      let fr := log2Loop 64 y 0
      let v : Int := (e + b) * 2 ^ 64 + fr
      BitVec.ofNat 32 (encodeMag fp32 .nearest false (decide (v < 0)) v.natAbs (-64) (y != fxOne))
    else
      -- tanh|x| = 1 − 2/(e^2|x| + 1); 1 beyond 16
      if e + (bitLen m : Int) > 4 then BitVec.ofNat 32 (withSign fp32 n 0x3F800000)
      else if e + (bitLen m : Int) < -12 then x
      else
        let ax := scaleNat (m <<< 97) e               -- 2|x| in fixed point
        let y := (ax * log2eFx) / fxOne
        let t := scaleNat (exp2Frac (y % fxOne)) (y / fxOne : Nat)
        BitVec.ofNat 32 (encodeMag fp32 .nearest false n (((t - fxOne) <<< 96) / (t + fxOne)) (-96) true)
  | _ => toF32 .nan

/-- Position of an FP32 code on the number line, so that neighbouring codes differ by one. -/
def codeOrd (w : Word) : Int := if w.getLsbD 31 then - ((w.toNat % 2 ^ 31 : Nat) : Int) else w.toNat

/-- A special function: exact where R156 states the value, otherwise the free value of Config when it lies within
2 units in the last place of the reference, the reference itself when it does not (log 3). -/
def fspec (op : Nat) (x : Word) : Word :=
  let nan := toF32 .nan
  let open_ := let r := fspecRef op x
               let c := Config.fspecBits op x
               if (codeOrd c - codeOrd r).natAbs ≤ 2 ∧ ¬ isNaNV (f32V c) then c else r
  if op = 2 then f32sqrt x
  else match f32V x with
  | .nan => nan
  | .inf n =>
    if op = 0 then toF32 (.fin n 0 0)
    else if op = 1 then (if n then nan else toF32 (.fin false 0 0))
    else if op = 3 then (if n then toF32 (.fin false 0 0) else toF32 (.inf false))
    else if op = 4 then (if n then nan else toF32 (.inf false))
    else BitVec.ofNat 32 (withSign fp32 n 0x3F800000)
  | .fin n m _ =>
    if m = 0 then
      if op = 0 then toF32 (.inf n)
      else if op = 1 then (if n then nan else toF32 (.inf false))
      else if op = 3 then BitVec.ofNat 32 0x3F800000
      else if op = 4 then toF32 (.inf true)
      else x
    else if op = 1 ∧ n then nan
    else if op = 4 ∧ n then nan
    else open_

def exp2F (x : Word) : Word := fspec 3 x
def log2F (x : Word) : Word := fspec 4 x

/-! Type codes (R151) and conversions. -/

/-- The floating-point format of a type code, if it is one. -/
def typeFmt (c : Nat) : Option FFmt :=
  if c = 0 then some fp32 else if c = 1 then some bf16 else if c = 2 then some fp16
  else if c = 5 then some e4m3 else if c = 6 then some e5m2 else if c = 7 then some e3m2
  else if c = 8 then some e2m3 else if c = 9 then some e2m1 else none

/-- Width in bits of an integer type code: INT32, UINT32, INT8, INT4, MXINT8 element. -/
def intWidth (c : Nat) : Nat := if c = 3 ∨ c = 4 then 32 else if c = 0xB then 4 else 8

/-- Bits of an element of a type code. -/
def typeBits (c : Nat) : Nat := match typeFmt c with
  | some f => fmtWidth f
  | none => intWidth c

/-- The value of a code of a type (R76; R151: bits above a narrow value are ignored). -/
def decodeT (c : Nat) (x : Nat) : FVal :=
  match typeFmt c with
  | some f => decodeF f x
  | none =>
    let w := intWidth c
    let n := x % 2 ^ w
    let i : Int := if c = 4 then (n : Int) else sext w n
    .fin (decide (i < 0)) i.natAbs (if c = 0xC then -6 else 0)

/-- Range of an integer destination in units of its least significant bit. -/
def intRange (c : Nat) : Int × Int :=
  if c = 4 then (0, 2 ^ 32 - 1) else (- 2 ^ (intWidth c - 1), 2 ^ (intWidth c - 1) - 1)

/-- A finite magnitude rounded to a multiple of 2^lsb. -/
def roundInt (r : Rounding) (m : Nat) (e lsb : Int) : Nat :=
  if lsb ≤ e then m * 2 ^ (e - lsb).toNat
  else roundKept r (m >>> (lsb - e).toNat) (lsb - e).toNat (m % 2 ^ (lsb - e).toNat) false

/-- Conversion of a value to a type code (R99). `raw` is the source word, for the results R99 leaves open. -/
def encodeT (c : Nat) (r : Rounding) (clamp : Bool) (raw : Word) (v : FVal) : Nat :=
  match typeFmt c with
  | some f => encodeF f r clamp v
  | none =>
    let w := intWidth c
    let (lo, hi) := intRange c
    let lsb : Int := if c = 0xC then -6 else 0
    match v with
    | .nan => if c = 4 ∨ c = 0xC then (Config.cvtOpen c raw).toNat % 2 ^ w else 0
    | .inf n => if c = 4 ∨ c = 0xC then (Config.cvtOpen c raw).toNat % 2 ^ w else trunc w (if n then lo else hi)
    | .fin n m e =>
      let i := signed n (roundInt r m e lsb)
      if lo ≤ i ∧ i ≤ hi then trunc w i
      else if c = 4 ∨ c = 0xC then (Config.cvtOpen c raw).toNat % 2 ^ w
      else trunc w (if i < lo then lo else hi)

/-- Whether a type has no NaN (R100): the FP6 and FP4 formats and the integers. -/
def hasNoNaN (c : Nat) : Bool := match typeFmt c with
  | some f => f.kind == .finite
  | none => true

/-- The counter-based random bits of R103. -/
def srBits (key : Word64) (g t : Nat) (ctr : Word) : Word :=
  let x : Word64 := key ^^^ (BitVec.ofNat 64 g <<< 40) ^^^ (BitVec.ofNat 64 t <<< 32) ^^^ (ctr.setWidth 64)
  let x := (x ^^^ (x >>> 31)) * 0x9E3779B97F4A7C15#64
  let x := (x ^^^ (x >>> 29)) * 0xD6E8FEB86659FD93#64
  let x := x ^^^ (x >>> 32)
  (x >>> 32).setWidth 32

/-- emax of the MX quantiser (R101) for a type code. -/
def mxEmax (c : Nat) : Int :=
  if c = 5 then 8 else if c = 6 then 15 else if c = 7 then 4 else if c = 8 ∨ c = 9 then 2 else 0

/-- floor(log2 |v|) of the largest magnitude of a block; none when every value is zero. -/
def blockExp (l : List FVal) : Option Int :=
  l.foldl (fun a v => match v with
    | .fin _ m e => if m = 0 then a else
        let k := e + (bitLen m : Int) - 1
        some (match a with | none => k | some b => max b k)
    | _ => a) none

/-- The E8M0 scale code of a block (R101). -/
def mxScale (c : Nat) (l : List FVal) : Nat :=
  if l.any (fun v => match v with | .fin _ _ _ => false | _ => true) then 0xFF
  else match blockExp l with
  | none => 0
  | some k => (min 127 (max (-127) (k - mxEmax c)) + 127).toNat

/-- One quantised element (R101): the input divided by the scale, converted with saturation to ±max; MXINT8 within
±127. In a block whose scale is NaN the quotient is NaN, which R99 converts. -/
def mxElem (c : Nat) (scale : Nat) (r : Rounding) (v : FVal) : Nat :=
  if scale = 0xFF then encodeT c r true 0 .nan
  else match scaleV (127 - (scale : Int)) v with
  | .fin n m e =>
    if c = 0xC then trunc 8 (signed n (min 127 (roundInt r m e (-6))))
    else match typeFmt c with
      | some f => encodeMag f r true n m e
      | none => 0
  | _ => 0

end Sys2Proof.Machine
end

