-- ==== Sys2Proof/Machine/Exact.lean ====
section
/-! DEFINITION. Exact accumulation: ext48, WIDE records and the reduction operations (R80 to R95, R166, R250). -/

namespace Sys2Proof.Machine

/-- A WIDE record (R93): `a` is A, or ±M of an ordered record. -/
structure Wide where
  a       : Int
  l       : Int
  nan     : Bool
  pinf    : Bool
  ninf    : Bool
  window  : Bool
  ordered : Bool
deriving DecidableEq, Repr

/-- Reads the 16 bytes of a record. -/
def decodeWide (bs : List Nat) : Wide :=
  let fl := bs.getD 14 0
  let ord := nbit fl 4
  let m := fieldLe bs 0 6
  { a := if ord then (if nbit fl 5 then - (m : Int) else (m : Int)) else sext 96 (fieldLe bs 0 12),
    l := sext 16 (fieldLe bs 12 2), nan := nbit fl 0, pinf := nbit fl 1, ninf := nbit fl 2, window := nbit fl 3,
    ordered := ord }

def b2n (b : Bool) : Nat := if b then 1 else 0

/-- The 16 bytes of a record. -/
def encodeWide (w : Wide) : List Nat :=
  natLe 12 (if w.ordered then w.a.natAbs else trunc 96 w.a) ++ natLe 2 (trunc 16 w.l) ++
  [b2n w.nan + 2 * b2n w.pinf + 4 * b2n w.ninf + 8 * b2n w.window + 16 * b2n w.ordered +
     32 * b2n (w.ordered && decide (w.a < 0)), 0]

/-- round48 (R88): an integer times 2^e, rounded to 48 significant bits and normalised; zero is (0, 0). -/
def round48 (a e : Int) : Int × Int :=
  let m := a.natAbs
  let n := bitLen m
  if m = 0 then (0, 0)
  else if n ≤ 48 then (signed (decide (a < 0)) (m * 2 ^ (48 - n)), e - (48 - n : Nat))
  else
    let d := n - 48
    let k := roundKept .nearest (m >>> d) d (m % 2 ^ d) false
    if k = 2 ^ 48 then (signed (decide (a < 0)) (2 ^ 47), e + d + 1) else (signed (decide (a < 0)) k, e + d)

/-- The exact sum of a1 × 2^e1 and a2 × 2^e2. -/
def addScaled (a1 e1 a2 e2 : Int) : Int × Int :=
  let e := min e1 e2
  (a1 * 2 ^ (e1 - e).toNat + a2 * 2 ^ (e2 - e).toNat, e)

/-- Whether an integer fits 96 bits of two's complement (R94). -/
def fits96 (a : Int) : Bool := decide (-(2 : Int) ^ 95 ≤ a ∧ a < (2 : Int) ^ 95)

/-- An integer as the 96-bit register holds it (R81, R178). -/
def reg96 (a : Int) : Int := sext 96 (trunc 96 a)

/-- to_ext48 of a record (R88). -/
def toExt48 (w : Wide) : Int × Int := round48 w.a w.l

/-- REDUCE with the WIDE operation (R94): exact while it fits, else ordered with a window exception. -/
def wideAdd (x y : Wide) : Wide :=
  let fl : Bool → Int → Int → Wide := fun o a l =>
    ⟨a, l, x.nan || y.nan, x.pinf || y.pinf, x.ninf || y.ninf, x.window || y.window || o, o⟩
  let l := min x.l y.l
  let xa := x.a * 2 ^ (x.l - l).toNat
  let ya := y.a * 2 ^ (y.l - l).toNat
  if !x.ordered && !y.ordered && fits96 xa && fits96 ya && fits96 (xa + ya) then fl false (xa + ya) l
  else
    let p := toExt48 x
    let q := toExt48 y
    let s := addScaled p.1 p.2 q.1 q.2
    let r := round48 s.1 s.2
    fl true r.1 r.2

/-! ## Reduction of elements (R166, R250) -/

/-- Element bytes of an operation: 16 for WIDE, else 4. -/
def elemSize (oper : Nat) : Nat := if oper = 1 then 16 else 4

/-- FP32 MAX and MIN of a reduction: the canonical NaN when either operand is NaN. -/
def redF32 (mx : Bool) (a b : Word) : Word :=
  let x := f32V a
  let y := f32V b
  if isNaNV x || isNaNV y then toF32 .nan else if mx then toF32 (maxV x y) else toF32 (minV x y)

/-- A 4-byte element combined: OPER 0 FADD, 2 IADD, 3 MAX, 4 MIN; ETYPE 0 FP32, 1 INT32, 2 UINT32. -/
def redWord (oper etype : Nat) (a b : Word) : Word :=
  if oper = 0 then f32add a b
  else if oper = 2 then a + b
  else
    let mx := oper = 3
    if etype = 0 then redF32 mx a b
    else if etype = 1 then (if decide (a.toInt ≤ b.toInt) = decide mx then b else a)
    else (if decide (a.toNat ≤ b.toNat) = decide mx then b else a)

/-- One element combined into memory bytes: the new bytes, and whether a WIDE sum took the ordered path. -/
def redElem (oper etype : Nat) (old new : List Nat) : List Nat × Bool :=
  if oper = 1 then
    let r := wideAdd (decodeWide old) (decodeWide new)
    (encodeWide r, r.ordered)
  else (natLe 4 (redWord oper etype (BitVec.ofNat 32 (leNat old)) (BitVec.ofNat 32 (leNat new))).toNat, false)

end Sys2Proof.Machine
end

