-- ==== Sys2Proof/Machine/Issue.lean ====
section
/-! DEFINITION. The issue of an instruction, with its checks of the PC and of the fetched word (R109, R147, R149, R162, R303). -/

namespace Sys2Proof.Machine

/-- Unit that counts a consumption at a device address (R316). -/
def addrUnit (s : State) (c a : Nat) : Nat := match homeOf s a with
  | some h => h.half
  | none => coreUnit c

/-! ## The instruction cache (R16, R109) -/

/-- Lines of the instruction cache: 64 KiB (R16) of 128-byte lines. -/
def icLines : Nat := 512

/-- Whether the line of an issue is in the instruction cache (R109). -/
def icHit (s : State) (i : Ctx) : Bool :=
  match codeAddr s i.c i.pc with
  | none => true
  | some a => (s.core i.c).icache.contains (a / 128)

/-- The line of an issue comes to the instruction cache: a missing one is fetched, and the least recently used one leaves; a line with a poisoned word
is not kept (log 112). -/
def icFetch (s : State) (i : Ctx) : State :=
  match codeAddr s i.c i.pc with
  | none => s
  | some a =>
    let s := if icHit s i then s else countCore s i.c 0x05 1 none
    if (firstPoison s.poison (128 * (a / 128)) 128).isSome then s
    else s.modCore i.c (fun k => { k with icache := (a / 128 :: k.icache.filter (· != a / 128)).take icLines })

/-- The state in which an issuing instruction acts: its line is in the instruction cache, and its slot is counted (R109 to R111). -/
def slotted (s : State) (i : Ctx) : State := counted (icFetch s i) i

/-- The poisoned 16-byte word that the fetch of an issue meets (R303): a line that the instruction cache holds was clean. -/
def fetchPoison (s : State) (i : Ctx) : Option Nat :=
  if icHit s i then none else (codeAddr s i.c i.pc).bind (fun a => firstPoison s.poison a 8)

/-! ## What the arrays' checks find (R293) -/

/-- A clean copy with a parity error leaves and will be fetched again; other words are corrected in place, or poisoned; each is counted
(R293, R301, R316). -/
def arrayCheck (s : State) (c : Nat) (pc : Nat) (e : ArrayErr) : State :=
  match e with
  | .none | .regUe => s
  | .icache => match codeAddr s c pc with
    | none => s
    | some a => if (s.core c).icache.contains (a / 128)
      then noteCe (s.modCore c (fun k => { k with icache := k.icache.filter (· != a / 128) })) (coreUnit c) a else s
  | .l1 line => if (s.core c).l1.any (fun l => l.line == line)
      then noteCe (s.modCore c (fun k => { k with l1 := k.l1.filter (fun l => l.line != line) })) (coreUnit c) (128 * line) else s
  | .localCe | .regCe => noteCe s (coreUnit c) 0
  | .localUe w =>
    let a := lsAddr c + 16 * w.val
    countUe { s with poison := insNat (a / 16) s.poison } (coreUnit c) a 3 0

/-- Issues one instruction: the slot is counted, the PC and the fetched word are checked, an illegal word faults every
member whatever its guard, and otherwise `body` acts (R109, R138, R147, R149, R162, R303). A fetch that meets poison is one
consumption (R316). A register that cannot be corrected is a fault of the core, whose instruction does not act (R293). -/
def issue (s : State) (x : Site) (w : Word64) (regs preds : List Nat) (legal : Bool) (body : State → Ctx → State) :
    State :=
  match issueCtx s x w regs preds with
  | none => s
  | some i =>
    if x.err = .regUe then coreFault s i.c rasCoreFault
    else
    let s := arrayCheck s i.c i.pc x.err
    let all := fun (x : Cause) => i.members.map (fun t => (t, x))
    if codeSize s i.c ≤ i.pc then faultSet (counted s i) i 0 (all ⟨cBAD_TARGET, 0, 0⟩)
    else match fetchPoison s i with
    | some a => faultSet (countConsumed (counted s i) (addrUnit s i.c a) a) i 0 (all ⟨cPOISONED, 0, 0⟩)
    | none =>
      let s := slotted s i
      if !legal then faultSet s i 0 (all ⟨cILLEGAL_INSTRUCTION, w.toNat, 0⟩) else body s i

end Sys2Proof.Machine
end

