-- ==== Sys2Proof/Machine/Flags.lean ====
section
/-! DEFINITION. Predicate and flag computations: compares and votes (R156), and the sticky flags of sums (R83, R94). -/

namespace Sys2Proof.Machine

/-- A compare of integers (R156). -/
def cmpInt (op : CmpOp) (a b : Int) : Bool :=
  match op with
  | .eq => a == b
  | .ne => a != b
  | .lt => decide (a < b)
  | .le => decide (a ≤ b)
  | .gt => decide (b < a)
  | .ge => decide (b ≤ a)
  | .un => false

/-- A compare of floating-point values: with a NaN operand 0, except NE and UN, which give 1 (R156). -/
def cmpFloat (op : CmpOp) (a b : FVal) : Bool :=
  if isNaNV a || isNaNV b then (op == .ne || op == .un) else cmpInt op (cmpV a b) 0

/-- The compare of two register words read as a type (R151, R156). -/
def cmpType (ty : Nat) (op : CmpOp) (a b : Word) : Bool :=
  if ty = 3 then cmpInt op a.toInt b.toInt
  else if ty = 4 then cmpInt op a.toNat b.toNat
  else cmpFloat op (decodeT ty a.toNat) (decodeT ty b.toNat)

/-- Predicate logic (R156). -/
def predLogic (op : PredOp) (a b : Bool) : Bool :=
  match op with
  | .and => a && b
  | .or => a || b
  | .xor => a != b
  | .not => !a
  | _ => false

/-- The flags that one product leaves (R83): NAN, PINF, NINF. -/
def productFlags (a b : FVal) : Bool × Bool × Bool :=
  match mulV a b with
  | .nan => (true, false, false)
  | .inf n => (false, !n, n)
  | .fin _ _ _ => (false, false, false)

end Sys2Proof.Machine
end

