-- ==== Sys2Proof/Machine/Arith.lean ====
section
/-! DEFINITION. The arithmetic classes of chapter 06 (R156), with the vector arithmetic and conversions of chapter 04
(R98 to R103). -/

namespace Sys2Proof.Machine

/-- What an arithmetic instruction does in one thread: a register write (field, words, value), a predicate write, the
elements it converted stochastically (R103) and the NaN inputs it counts (R100). -/
structure Eff where
  dst  : Option (Nat × Nat × Nat)
  pred : Option (Nat × Bool)
  sr   : Nat
  nan  : Nat
deriving DecidableEq, Repr

def regEff (code n v : Nat) : Eff := ⟨some (code, n, v), none, 0, 0⟩
def predEff (p : Nat) (b : Bool) : Eff := ⟨none, some (p, b), 0, 0⟩

/-- Applies one thread's effects. -/
def applyEff (i : Ctx) (gr : Group) (t : Nat) (e : Eff) : Group :=
  let gr := match e.dst with
    | none => gr
    | some (code, n, v) => writeDst i gr t code n v
  let gr := match e.pred with
    | none => gr
    | some (p, b) => writePred gr t p b
  if e.sr = 0 then gr else modThr gr t (fun th => { th with srCtr := th.srCtr + BitVec.ofNat 32 e.sr })

/-- The per-thread part of an instruction: results are computed from the state before any write, then written; the
threads that fault have no effect (R137). -/
def perThread (f : Group → Ctx → Nat → TRes Eff) (s : State) (i : Ctx) : State :=
  let gr := grp (s.core i.c) i.g
  let (oks, fs) := runThreads i (f gr i)
  let s := s.modGrp i.c i.g (fun gr => oks.foldl (fun gr (t, e) => applyEff i gr t e) gr)
  let s := addTaskCounter s i.c tcCvtNan (oks.foldl (fun n (_, e) => n + e.nan) 0)
  let s := advance s i (goOn i fs) (i.pc + 8)
  faultSet s i 0 fs

/-- An operand fault (R142, R144). -/
def illOperand : TRes Eff := .fault ⟨cILLEGAL_OPERAND, 0, 0⟩

/-- Checks source and destination fields, then gives the result. -/
def withRegs (srcs : List (Nat × Nat)) (dst : Option (Nat × Nat)) (r : TRes Eff) : TRes Eff :=
  if srcs.all (fun (c, n) => srcOk c n) && (match dst with | none => true | some (c, n) => dstOk c n) then r
  else illOperand

/-! ## IALU, IALUI, IDIV -/

/-- Byte swizzle (R156). -/
def bswz (a b c : Word) : Word :=
  let v := a.toNat + 2 ^ 32 * b.toNat
  BitVec.ofNat 32 (leNat ((List.range 4).map (fun i =>
    let sel := (c.toNat >>> (8 * i)) % 256
    if sel / 128 = 1 then 0 else (v >>> (8 * (sel % 8))) % 256)))

/-- Set bits and leading zeros of a word. -/
def popc (a : Word) : Nat := (maskList a).length
def clz (a : Word) : Nat := 32 - bitLen a.toNat

/-- An integer operation (R156); `sg` for INT32. -/
def ialuOp (op : IaluOp) (sg : Bool) (a b c : Word) : Word :=
  match op with
  | .add => a + b
  | .sub => a - b
  | .mul => a * b
  | .mulhi => if sg then BitVec.ofInt 32 ((a.toInt * b.toInt) / 2 ^ 32) else BitVec.ofNat 32 ((a.toNat * b.toNat) / 2 ^ 32)
  | .mad => a * b + c
  | .and => a &&& b
  | .or => a ||| b
  | .xor => a ^^^ b
  | .not => ~~~ a
  | .shl => if 32 ≤ b.toNat then 0 else a <<< b.toNat
  | .shr => if 32 ≤ b.toNat then 0 else a >>> b.toNat
  | .sar => a.sshiftRight (min b.toNat 32)
  | .min => if sg then (if a.toInt ≤ b.toInt then a else b) else (if a.toNat ≤ b.toNat then a else b)
  | .max => if sg then (if a.toInt ≤ b.toInt then b else a) else (if a.toNat ≤ b.toNat then b else a)
  | .abs => if sg ∧ a.toInt < 0 then - a else a
  | .popc => BitVec.ofNat 32 (popc a)
  | .clz => BitVec.ofNat 32 (clz a)
  | .bswz => bswz a b c

/-- The source fields that an operation reads. -/
def ialuSrcs (op : IaluOp) (w : Word64) : List Nat :=
  match op with
  | .not | .abs | .popc | .clz => [aSrcA w]
  | .mad | .bswz => [aSrcA w, aSrcB w, aSrcC w]
  | _ => [aSrcA w, aSrcB w]

/-- IALU (R156): integer arithmetic, logic, shifts, byte swizzle. -/
def execIalu (x : Site) (op : Option IaluOp) (w : Word64) (s : State) : Outcome :=
  let srcs := match op with | none => [] | some o => ialuSrcs o w
  coreRow (isClass 0x00 w) w (issue s x w srcs [] (op.isSome && legalA 0x00 [3, 4] w) (perThread fun gr i t =>
    match op with
    | none => illOperand
    | some o =>
      let r := fun c => readReg gr i.mask t c
      withRegs (srcs.map (·, 1)) (some (aDst w, 1))
        (.ok (regEff (aDst w) 1 (ialuOp o (aType w == 3) (r (aSrcA w)) (r (aSrcB w)) (r (aSrcC w))).toNat))))

/-- IALUI (R156): IMM in place of SRCB; MAD and BSWZ are not available. `signed` is the type that the OP names. -/
def execIalui (x : Site) (op : Option IaluOp) (signed : Bool) (w : Word64) (s : State) : Outcome :=
  let avail := match op with | none => false | some .mad => false | some .bswz => false | some _ => true
  coreRow (isClass 0x0A w) w (issue s x w [bSrcA w] [] (avail && isClass 0x0A w) (perThread fun gr i t =>
    match op with
    | none => illOperand
    | some o =>
      withRegs [(bSrcA w, 1)] (some (bDst w, 1))
        (.ok (regEff (bDst w) 1 (ialuOp o signed (readReg gr i.mask t (bSrcA w)) (bImm w) 0).toNat))))

/-- Integer division: DIV truncates toward zero, REM takes the sign of the dividend (R156). -/
def idivOp (op : IdivOp) (sg : Bool) (a b : Word) : Word :=
  match op with
  | .div => if sg then BitVec.ofInt 32 (a.toInt.tdiv b.toInt) else BitVec.ofNat 32 (a.toNat / b.toNat)
  | .rem => if sg then BitVec.ofInt 32 (a.toInt.tmod b.toInt) else BitVec.ofNat 32 (a.toNat % b.toNat)

/-- IDIV (R98, R156): a divisor of 0 faults INT_DIV_ZERO in the thread. -/
def execIdiv (x : Site) (op : Option IdivOp) (w : Word64) (s : State) : Outcome :=
  coreRow (isClass 0x01 w) w (issue s x w [aSrcA w, aSrcB w] [] (op.isSome && legalA 0x01 [3, 4] w)
    (perThread fun gr i t =>
      match op with
      | none => illOperand
      | some o =>
        let b := readReg gr i.mask t (aSrcB w)
        withRegs [(aSrcA w, 1), (aSrcB w, 1)] (some (aDst w, 1))
          (if b = 0 then .fault ⟨cINT_DIV_ZERO, 0, 0⟩
           else .ok (regEff (aDst w) 1 (idivOp o (aType w == 3) (readReg gr i.mask t (aSrcA w)) b).toNat))))

/-! ## FALU, FALUI, FSPEC -/

/-- A floating-point operation on values, computed in FP32 with one rounding (R98). -/
def faluV (op : FaluOp) (a b c : FVal) : Word :=
  toF32 (match op with
    | .add => addV a b
    | .sub => addV a (negV b)
    | .mul => mulV a b
    | .fma => addV (mulV a b) c
    | .min => minV a b
    | .max => maxV a b
    | .abs => absV a
    | .neg => negV a)

/-- The result in the destination type: FP32, or one rounding of it to BF16 or FP16 (R98). -/
def faluOp (op : FaluOp) (ty : Nat) (a b c : Word) : Nat :=
  let d := fun (x : Word) => decodeT ty x.toNat
  let r := faluV op (d a) (d b) (d c)
  if ty = 0 then r.toNat else encodeT ty .nearest false r (f32V r)

def faluSrcs (op : FaluOp) (w : Word64) : List Nat :=
  match op with
  | .abs | .neg => [aSrcA w]
  | .fma => [aSrcA w, aSrcB w, aSrcC w]
  | _ => [aSrcA w, aSrcB w]

/-- FALU (R98, R156). -/
def execFalu (x : Site) (op : Option FaluOp) (w : Word64) (s : State) : Outcome :=
  let srcs := match op with | none => [] | some o => faluSrcs o w
  coreRow (isClass 0x02 w) w (issue s x w srcs [] (op.isSome && legalA 0x02 [0, 1, 2] w) (perThread fun gr i t =>
    match op with
    | none => illOperand
    | some o =>
      let r := fun c => readReg gr i.mask t c
      withRegs (srcs.map (·, 1)) (some (aDst w, 1))
        (.ok (regEff (aDst w) 1 (faluOp o (aType w) (r (aSrcA w)) (r (aSrcB w)) (r (aSrcC w)))))))

/-- FALUI (R152, R156): SRCB is the FP32 immediate. Format B has no third source, and R156 does not say what FMA adds: that addend is a free
value (log 111). -/
def execFalui (x : Site) (op : Option FaluOp) (w : Word64) (s : State) : Outcome :=
  coreRow (isClass 0x0B w) w (issue s x w [bSrcA w] [] (op.isSome && isClass 0x0B w)
    (fun s i =>
      let add := fun t => if op = some .fma then Config.fmaAddend (s.fresh + t) else 0
      perThread (fun gr i t =>
        match op with
        | none => illOperand
        | some o =>
          withRegs [(bSrcA w, 1)] (some (bDst w, 1))
            (.ok (regEff (bDst w) 1 (faluOp o 0 (readReg gr i.mask t (bSrcA w)) (bImm w) (add t)))))
        (if op = some .fma then { s with fresh := s.fresh + 32 } else s) i))

def fspecCode : FspecOp → Nat
  | .rcp => 0
  | .rsqrt => 1
  | .sqrt => 2
  | .exp2 => 3
  | .log2 => 4
  | .tanh => 5

/-- FSPEC (R156): a fixed function of the input's bits. -/
def execFspec (x : Site) (op : Option FspecOp) (w : Word64) (s : State) : Outcome :=
  coreRow (isClass 0x03 w) w (issue s x w [aSrcA w] [] (op.isSome && legalA 0x03 [0] w) (perThread fun gr i t =>
    match op with
    | none => illOperand
    | some o =>
      withRegs [(aSrcA w, 1)] (some (aDst w, 1))
        (.ok (regEff (aDst w) 1 (fspec (fspecCode o) (readReg gr i.mask t (aSrcA w))).toNat))))

/-! ## CMP, CMPI -/

/-- CMP (R145, R156): the result goes to PDST. -/
def execCmp (x : Site) (op : Option CmpOp) (w : Word64) (s : State) : Outcome :=
  coreRow (isClass 0x04 w) w (issue s x w [aSrcA w, aSrcB w] [] (op.isSome && legalA 0x04 [0, 1, 2, 3, 4] w)
    (perThread fun gr i t =>
      match op with
      | none => illOperand
      | some o =>
        withRegs [(aSrcA w, 1), (aSrcB w, 1)] none
          (.ok (predEff (aPdst w) (cmpType (aType w) o (readReg gr i.mask t (aSrcA w))
            (readReg gr i.mask t (aSrcB w)))))))

/-- CMPI (R152, R156): bits 42:40 name the predicate and bits 47:43 are zero. -/
def execCmpi (x : Site) (op : Option CmpOp) (signed : Bool) (w : Word64) (s : State) : Outcome :=
  coreRow (isClass 0x0C w) w (issue s x w [bSrcA w] [] (op.isSome && isClass 0x0C w && bits w 47 43 == 0)
    (perThread fun gr i t =>
      match op with
      | none => illOperand
      | some o =>
        withRegs [(bSrcA w, 1)] none
          (.ok (predEff (bits w 42 40) (cmpType (if signed then 3 else 4) o (readReg gr i.mask t (bSrcA w)) (bImm w))))))

/-! ## CVT, MXQ -/

/-- Rounding of a conversion: the instruction's SR selects (R99, R102), with the thread's random bits (R103). -/
def cvtRounding (gr : Group) (t : Nat) (sr : Bool) : Rounding :=
  if sr then .stoch (srBits gr.srKey gr.launch t (thr gr t).srCtr).toNat else .nearest

/-- CVT (R99 to R103): source type in bits 11:8, destination TYPE. -/
def execCvt (x : Site) (listed : Bool) (w : Word64) (s : State) : Outcome :=
  let src := bits w 11 8
  let legal := listed && isClass 0x05 w && bits w 2 0 == 0 && bits w 15 12 == 0 && decide (src ≤ 0xC) &&
    decide (aType w ≤ 0xC)
  coreRow (isClass 0x05 w) w (issue s x w [aSrcA w] [] legal (perThread fun gr i t =>
    let a := readReg gr i.mask t (aSrcA w)
    let v := decodeT src a.toNat
    withRegs [(aSrcA w, 1)] (some (aDst w, 1))
      (.ok { dst := some (aDst w, 1, encodeT (aType w) (cvtRounding gr t (aSr w)) (aSat w) a v), pred := none,
             sr := if aSr w then 1 else 0, nan := if isNaNV v && hasNoNaN (aType w) then 1 else 0 })))

/-- The 32 values of an MXQ block: members with a true guard supply SRCA, every other place +0 (R156). -/
def mxqBlock (gr : Group) (i : Ctx) (src : Nat) : List FVal :=
  allThreads.map (fun t => if i.active.contains t then f32V (readReg gr i.mask t src) else .fin false 0 0)

/-- MXQ (R100, R101, R156): element i to DST of thread i, the scale to the SRCC register of every active member; each NaN input of a format
without NaN is counted. -/
def execMxq (x : Site) (listed : Bool) (w : Word64) (s : State) : Outcome :=
  coreRow (isClass 0x06 w) w (issue s x w [aSrcA w] [] (listed && legalA 0x06 [5, 6, 7, 8, 9, 0xC] w) fun s i =>
    let ok := srcOk (aSrcA w) 1 && dstOk (aDst w) 1 && dstOk (aSrcC w) 1
    let gr := grp (s.core i.c) i.g
    let blk := mxqBlock gr i (aSrcA w)
    let sc := mxScale (aType w) blk
    let fs := if ok then [] else i.active.map (fun t => (t, (⟨cILLEGAL_OPERAND, 0, 0⟩ : Cause)))
    let nans := if ok && hasNoNaN (aType w) then (i.active.filter (fun t => isNaNV (f32V (readReg gr i.mask t (aSrcA w))))).length else 0
    let s := addTaskCounter s i.c tcCvtNan nans
    let s := if !ok then s else s.modGrp i.c i.g (fun g0 => i.active.foldl (fun g t =>
      let e := mxElem (aType w) sc (cvtRounding gr t (aSr w)) (f32V (readReg gr i.mask t (aSrcA w)))
      let g := writeDst i g t (aDst w) 1 e
      let g := writeDst i g t (aSrcC w) 1 sc
      if aSr w then modThr g t (fun th => { th with srCtr := th.srCtr + 1 }) else g) g0)
    faultSet (advance s i (goOn i fs) (i.pc + 8)) i 0 fs)

/-! ## PRED, XLANE, MOVE, MOVI, SRKEY -/

/-- The vote of a predicate over the members with a true guard (R156). -/
def vote (gr : Group) (i : Ctx) (p : Nat) : Word := listMask (i.active.filter (fun t => predVal (thr gr t) p))

/-- The predicates that a PRED operation reads. -/
def predSrcs (op : PredOp) (w : Word64) : List Nat :=
  match op with
  | .and | .or | .xor => [aSrcA w % 8, aSrcB w % 8]
  | _ => [aSrcA w % 8]

/-- PRED (R156): logic and votes on predicates SRCA[2:0] and SRCB[2:0]. -/
def execPred (x : Site) (op : Option PredOp) (w : Word64) (s : State) : Outcome :=
  let ps := match op with | none => [] | some o => predSrcs o w
  coreRow (isClass 0x07 w) w (issue s x w [] ps (op.isSome && legalA 0x07 [0, 1, 2, 3, 4] w) (perThread fun gr i t =>
    match op with
    | none => illOperand
    | some .any => .ok (predEff (aPdst w) (vote gr i (aSrcA w % 8) != 0))
    | some .all => .ok (predEff (aPdst w) (vote gr i (aSrcA w % 8) == listMask i.active))
    | some .ballot => withRegs [] (some (aDst w, 1)) (.ok (regEff (aDst w) 1 (vote gr i (aSrcA w % 8)).toNat))
    | some o => .ok (predEff (aPdst w) (predLogic o (predVal (thr gr t) (aSrcA w % 8)) (predVal (thr gr t) (aSrcB w % 8))))))

/-- The thread that XLANE reads for thread `t` (R156). -/
def laneOf (op : XlaneOp) (t : Nat) (b : Word) : Int :=
  match op with
  | .idx => b.toNat
  | .up => (t : Int) - b.toNat
  | .down => (t : Int) + b.toNat
  | .xor => ((BitVec.ofNat 32 t ^^^ b).toNat : Nat)

/-- XLANE (R156): a lane outside 0 to 31, or not an active member, gives the own value and PDST 0. -/
def execXlane (x : Site) (op : Option XlaneOp) (w : Word64) (s : State) : Outcome :=
  coreRow (isClass 0x08 w) w (issue s x w [aSrcA w, aSrcB w] [] (op.isSome && legalA 0x08 [0, 1, 2, 3, 4] w)
    (perThread fun gr i t =>
      match op with
      | none => illOperand
      | some o =>
        let l := laneOf o t (readReg gr i.mask t (aSrcB w))
        let hit := decide (0 ≤ l ∧ l < 32) && i.active.contains l.toNat
        withRegs [(aSrcA w, 1), (aSrcB w, 1)] (some (aDst w, 1))
          (.ok { dst := some (aDst w, 1, (readReg gr i.mask (if hit then l.toNat else t) (aSrcA w)).toNat),
                 pred := some (aPdst w, hit), sr := 0, nan := 0 })))

/-- MOVE (R143, R144, R156): MOV64 copies a register pair. -/
def execMove (x : Site) (op : Option MoveOp) (w : Word64) (s : State) : Outcome :=
  let n := if op = some .mov64 then 2 else 1
  coreRow (isClass 0x09 w) w (issue s x w (codeRange (aSrcA w) n) [] (op.isSome && legalA 0x09 [0, 1, 2, 3, 4] w)
    (perThread fun gr i t =>
      withRegs [(aSrcA w, n)] (some (aDst w, n)) (.ok (regEff (aDst w) n (readWide gr i.mask t (aSrcA w) n)))))

/-- MOVI MOV (R156): DST = IMM. -/
def execMoviMov (x : Site) (w : Word64) (s : State) : Outcome :=
  coreRow (isRow 0x0D 0 w) w (issue s x w [] [] (isRow 0x0D 0 w) (perThread fun _ _ _ =>
    withRegs [] (some (bDst w, 1)) (.ok (regEff (bDst w) 1 (bImm w).toNat))))

/-- MOVI MOVH (R156): DST[31:16] = IMM[15:0], DST[15:0] unchanged; IMM[31:16] is zero. -/
def execMoviMovh (x : Site) (w : Word64) (s : State) : Outcome :=
  coreRow (isRow 0x0D 1 w) w (issue s x w [bDst w] [] (isRow 0x0D 1 w && bits w 31 16 == 0)
    (perThread fun gr i t =>
      withRegs [] (some (bDst w, 1))
        (.ok (regEff (bDst w) 1 (bits w 15 0 * 2 ^ 16 + (readReg gr i.mask t (bDst w)).toNat % 2 ^ 16)))))

/-- The SR key with its low or high half replaced (R103, R156). -/
def setKeyHalf (hi : Bool) (v : Word) (k : Word64) : Word64 :=
  if hi then BitVec.ofNat 64 (k.toNat % 2 ^ 32 + 2 ^ 32 * v.toNat)
  else BitVec.ofNat 64 (k.toNat / 2 ^ 32 * 2 ^ 32 + v.toNat)

/-- SRKEY (R143, R156): the group-wide key is written once, from the lowest thread with a true guard. -/
def srkeyBody (hi fromReg : Bool) (w : Word64) (s : State) (i : Ctx) : State :=
  let gr := grp (s.core i.c) i.g
  let bad := fromReg && !srcOk (bSrcA w) 1
  let fs := if bad then i.active.map (fun t => (t, (⟨cILLEGAL_OPERAND, 0, 0⟩ : Cause))) else []
  let s := match i.active with
    | [] => s
    | t :: _ =>
      if bad then s
      else s.modGrp i.c i.g (fun g =>
        { g with srKey := setKeyHalf hi (if fromReg then readReg gr i.mask t (bSrcA w) else bImm w) g.srKey })
  faultSet (advance s i (goOn i fs) (i.pc + 8)) i 0 fs

/-- SRKEY.LO.I (R156). -/
def execSrkeyLoI (x : Site) (w : Word64) (s : State) : Outcome :=
  coreRow (isRow 0x0E 0 w) w (issue s x w [] [] (isRow 0x0E 0 w && bDst w == 0xC0) (srkeyBody false false w))

/-- SRKEY.HI.I (R156). -/
def execSrkeyHiI (x : Site) (w : Word64) (s : State) : Outcome :=
  coreRow (isRow 0x0E 1 w) w (issue s x w [] [] (isRow 0x0E 1 w && bDst w == 0xC0) (srkeyBody true false w))

/-- SRKEY.LO.G (R156). -/
def execSrkeyLoG (x : Site) (w : Word64) (s : State) : Outcome :=
  coreRow (isRow 0x0E 2 w) w (issue s x w [bSrcA w] [] (isRow 0x0E 2 w && bDst w == 0xC0) (srkeyBody false true w))

/-- SRKEY.HI.G (R156). -/
def execSrkeyHiG (x : Site) (w : Word64) (s : State) : Outcome :=
  coreRow (isRow 0x0E 3 w) w (issue s x w [bSrcA w] [] (isRow 0x0E 3 w && bDst w == 0xC0) (srkeyBody true true w))

end Sys2Proof.Machine
end

