-- ==== Sys2Proof/Machine/LupMsg.lean ====
section
/-! DEFINITION. Sending on the Lupin links: message classes, credits, frames, TAGs and routes (R472 to R476, R485, R487). -/

namespace Sys2Proof.Machine

/-- Message types of R474. -/
def tRD : Nat := 0x01
def tWR : Nat := 0x02
def tATOM : Nat := 0x03
def tLOCK : Nat := 0x04
def tPIN : Nat := 0x05
def tRED : Nat := 0x06
def tRDRESP : Nat := 0x10
def tACK : Nat := 0x11
def tATOMRESP : Nat := 0x12
def tNACK : Nat := 0x13
def tDOORBELL : Nat := 0x20
def tHOSTRD : Nat := 0x21
def tHOSTWR : Nat := 0x22
def tMSIX : Nat := 0x23
def tMGMT : Nat := 0x30
def tMGMTRESP : Nat := 0x31

/-- The message class of a type (R474); none for an unknown type. -/
def msgClass (t : Nat) : Option Nat :=
  if t = tRED then some 1
  else if [tRD, tWR, tATOM, tLOCK, tPIN, tMGMT].contains t then some 2
  else if t = tDOORBELL ∨ t = tHOSTRD then some 3
  else if [tRDRESP, tACK, tATOMRESP, tNACK, tHOSTWR, tMSIX, tMGMTRESP].contains t then some 0
  else none

/-- Data units of a message (R473, R474). -/
def payUnits : LPay → Nat
  | .none => 0
  | .data b => ceilDiv b.length 16
  | .red _ _ b => 1 + ceilDiv b.length 16
  | _ => 1

/-- Flits that a message takes. -/
def msgFlits (m : LMsg) : Nat := ceilDiv (16 + 16 * payUnits m.pay) 256

def State.link (s : State) (l : Nat) : LLink := tget LLink.fresh s.lup.links l
def State.modLink (s : State) (l : Nat) (f : LLink → LLink) : State :=
  { s with lup := { s.lup with links := tset LLink.fresh s.lup.links l (f (s.link l)) } }

/-- Dedicated flits of a class for one epoch parity, and the shared pool (R476). -/
def dedicated (c : Nat) : Nat := if c = 0 then 32 else if c = 3 then 16 else 24
def sharedPool : Nat := 320
def sharedUsed (k : LLink) : Nat := ((List.range 4).map (fun c => tget 0 k.used (8 + c))).sum
def poolKey (c : Nat) (epoch : Bool) : Nat := 2 * c + (if epoch then 1 else 0)

/-- Draws credits for `n` flits: the shared pool first, then the class's own (R476). -/
def drawCredit (k : LLink) (c : Nat) (epoch : Bool) (n : Nat) : Option LLink :=
  if sharedUsed k + n ≤ sharedPool then some { k with used := tset 0 k.used (8 + c) (tget 0 k.used (8 + c) + n) }
  else if tget 0 k.used (poolKey c epoch) + n ≤ dedicated c then
    some { k with used := tset 0 k.used (poolKey c epoch) (tget 0 k.used (poolKey c epoch) + n) }
  else none

/-- Takes back `n` flits of a class: dedicated flits in use first, then shared ones (DESIGN CHOICE, log 10). -/
def returnCredit (k : LLink) (c n : Nat) : LLink :=
  let take := fun (u : Tab Nat × Nat) (key : Nat) =>
    let d := min u.2 (tget 0 u.1 key)
    (tset 0 u.1 key (tget 0 u.1 key - d), u.2 - d)
  let r := [poolKey c false, poolKey c true, 8 + c].foldl take (k.used, n)
  { k with used := r.1 }

/-- LUP_LSTAT of link `l`, 1 to 8, and its STATE. -/
def rLstat (l : Nat) : Nat := 0x02010000 + 16 * (l - 1)
def rLerr (l : Nat) : Nat := 0x02010004 + 16 * (l - 1)
def rLctl (l : Nat) : Nat := 0x02010008 + 16 * (l - 1)
def linkState (s : State) (l : Nat) : Nat := s.regField (rLstat l) 2 0

/-- Management traffic, which alone goes over a quarantined link and to modules that are no members (R481, R483). -/
def isMgmt (t : Nat) : Bool := t == tMGMT || t == tMGMTRESP

/-- Whether a link may send a message now: up, or quarantined for management traffic; 64 frames at most are unacknowledged
(R475, R481). -/
def linkSends (s : State) (l : Nat) (m : LMsg) : Bool :=
  (linkState s l == 2 || (linkState s l == 3 && isMgmt m.typ)) &&
  decide ((s.link l).retry.length < 64)

/-- Sends what may go of a link's waiting messages, in order within each class (R472, R475, R476). -/
def pumpLoop (l : Nat) : List LMsg → List Nat → State → State
  | [], _, s => s
  | m :: ms, blocked, s =>
    let c := (msgClass m.typ).getD 0
    match if blocked.contains c || !linkSends s l m then none else drawCredit (s.link l) c m.epoch (msgFlits m) with
    | none => pumpLoop l ms (c :: blocked) s
    | some k =>
      let s := s.modLink l (fun _ => { k with
        txq := k.txq.erase m, retry := k.retry ++ [(k.txSeq, m)], txSeq := (k.txSeq + 1) % 4096 })
      pumpLoop l ms blocked (s.emit (.lupin l ((s.link l).retry.getLast?.map (·.1) |>.getD 0) m))

def pumpLink (s : State) (l : Nat) : State := pumpLoop l (s.link l).txq [] s

/-- The route to a module: outgoing link (0: none) and hops (R485). -/
def routeTo (s : State) (m : Nat) : Nat × Nat := tget (0, 0xF) s.lup.routes m

/-- Puts a message on its route; without one it goes nowhere, and the requester's time-out finds it (R489). -/
def sendMsg (s : State) (m : LMsg) : State :=
  let l := (routeTo s m.dst).1
  if l = 0 then s else pumpLink (s.modLink l (fun k => { k with txq := k.txq ++ [m] })) l

/-- The next TAG toward a module (R487). -/
def takeTag (s : State) (dst : Nat) : Nat × State :=
  let t := tget 0 s.lup.tags dst
  (t, { s with lup := { s.lup with tags := tset 0 s.lup.tags dst ((t + 1) % 2 ^ 16) } })

/-- Requests of this module that `dst` has not answered. -/
def unanswered (s : State) (dst : Nat) : Nat :=
  (s.llc.remote.filter (fun r => (r.req.addr / 2 ^ 48) % 64 == dst)).length

/-- Sends a new request; one beyond 2,048 unanswered toward its destination waits at the port (R487). -/
def sendRequest (s : State) (m : LMsg) : State :=
  if unanswered s m.dst ≤ 2048 then sendMsg s m else { s with lup := { s.lup with port := s.lup.port ++ [m] } }

/-- Requests that waited at the port leave while fewer than 2,048 are unanswered (R487). -/
def drainPort (s : State) (dst : Nat) : State :=
  match s.lup.port.find? (fun m => m.dst == dst) with
  | none => s
  | some m =>
    if 2048 < unanswered s dst then s else sendMsg { s with lup := { s.lup with port := s.lup.port.erase m } } m

/-- The type, size and payload of a request to another module's home (R474). -/
def reqMsg : ReqKind → Nat × Nat × LPay
  | .load n _ _ alloc _ => (tRD, if alloc then 7 else Nat.log2 n, .none)
  | .store b => (tWR, Nat.log2 b.length, .data b)
  | .atom op n _ _ v c => (tATOM, Nat.log2 n, .atom op v c)
  | .lockAcq _ => (tLOCK, 3, .lock true false 0 0 0)
  | .lockRel lost => (tLOCK, 3, .lock false lost 0 0 0)
  | .reduce o e b _ => (tRED, 0, .red o e b)
  | .pinLine u _ _ => (tPIN, 7, .pin u 128)
  | .engineRd _ _ => (tRD, 7, .none)
  | .engineWr _ _ => (tWR, 0, .none)
  | .hostRd _ _ => (tRD, 7, .none)
  | .hostWr => (tWR, 0, .none)
  | .scrubRd _ _ _ => (tRD, 7, .none)

/-- A message of this module: 63 hops, the current epoch (R473). -/
def newMsg (s : State) (typ label size dst tag addr : Nat) (pay : LPay) : LMsg :=
  ⟨typ, label, size, dst, s.modId, 63, s.lup.epoch, tag, addr, 0, 0, pay⟩

/-- Sends a request of a core over the links and waits for its answer (R228, R487). `label` is the task's class. -/
def sendRemote (s : State) (label c g t a : Nat) (k : ReqKind) (pay : Option (Nat × LPay)) : State :=
  let dst := (a / 2 ^ 48) % 64
  let (tag, s) := takeTag s dst
  let (typ, size, p) := reqMsg k
  let p := match p with
    | .lock acq lost _ _ _ => .lock acq lost c g t
    | q => q
  let (size, p) := pay.getD (size, p)
  let a' := match k with
    | .load _ _ _ true _ => 128 * (a / 128)
    | .hostRd _ _ => 128 * (a / 128)
    | _ => a
  let s := { s with llc := { s.llc with
    remote := s.llc.remote ++ [⟨tag, s.clk.tick, ⟨s.llc.nextReq, c, g, t, a, k⟩, false⟩], nextReq := s.llc.nextReq + 1 } }
  sendRequest s (newMsg s typ label size dst tag (a' % 2 ^ 54) p)

end Sys2Proof.Machine
end

