-- ==== Sys2Proof/Machine/Control.lean ====
section
/-! DEFINITION. Branches, barriers, tickets, EXIT and counter reads (R112 to R125, R161, R162), and the events of a core's
issue stage (R110, R114, R123). -/

namespace Sys2Proof.Machine

/-! ## Lock words (R126 to R130) -/

/-- The word of a held lock: HELD, owner fields, OWNER_LOST 0 (R126, R127). -/
def lockWord (c g t m : Nat) : Nat := 1 + 4 * t + 2 ^ 7 * g + 2 ^ 11 * c + 2 ^ 21 * m

/-- Reads and writes of a 64-bit word of memory. -/
def State.word64 (s : State) (a : Nat) : Nat := leNat (readBytes s.mem (addrLow a) 8)
def State.setBytes (s : State) (a : Nat) (bs : List Nat) : State := { s with mem := writeBytes s.mem (addrLow a) bs }

/-- Gives a lock to a thread: its held list, its predicate, and it goes on (R127, R128). The word of a local lock is
written here; that of a global one was written at its home, and the cluster port mirrors the lock (R460). -/
def takeLock (s : State) (glob : Bool) (a held c g t pdst : Nat) (lost : Bool) : State :=
  let s := if glob then s else s.setBytes a (natLe 8 (lockWord c g t s.modId))
  s.modCore c (fun k =>
    let gr := modThr (grp k g) t (fun th => { th with held := th.held ++ [⟨glob, held⟩], block := .no })
    let k := setGrp k g (normGroup (writePred gr t pdst lost))
    if glob then { k with mirror := k.mirror ++ [(held, g, t)], tookGlobalLock := true } else k)

/-- The waiters on a local-store lock: oldest group first, then lowest thread (R128). -/
def localWaiter (k : Core) (off : Nat) : Option (Nat × Nat × Nat) :=
  (coreLive k).findSome? (fun (g, t) => match (thr (grp k g) t).block with
    | .lock false o p => if o = off then some (g, t, p) else none
    | _ => none)

/-- The word of a lock that passes to a waiter: a release that lost its holder sets OWNER_LOST in it too (R128, R130). -/
def handedWord (c g t m : Nat) (lost : Bool) : Nat := lockWord c g t m + if lost then 2 else 0

/-- Releases a local-store lock: hands it on, or clears the word; `lost` sets OWNER_LOST (R128, R130). -/
def releaseLocal (s : State) (c off : Nat) (lost : Bool) : State :=
  match localWaiter (s.core c) off with
  | some (g, t, p) =>
    (takeLock s false (lsAddr c + off) off c g t p lost).setBytes (lsAddr c + off) (natLe 8 (handedWord c g t s.modId lost))
  | none => s.setBytes (lsAddr c + off) (natLe 8 (if lost then 2 else 0))

/-- Sends a request to a line's home (R243): it takes the next place in the order of sending. -/
def sendReq (s : State) (c g t a : Nat) (k : ReqKind) : State :=
  { s with llc := { s.llc with reqs := s.llc.reqs ++ [⟨s.llc.nextReq, c, g, t, a, k⟩], nextReq := s.llc.nextReq + 1 } }

/-- Sends a request to a line's home: to a local half, or over the Lupin links for another module (R228, R243). -/
def sendHome (s : State) (c g t a : Nat) (k : ReqKind) : State :=
  if addrModule a = s.modId then sendReq s c g t a k
  else sendRemote s (match coreTask s c with | some t => t.cls | none => 0) c g t a k none

/-- Drops a held-lock entry of a thread. -/
def dropHeld (s : State) (c g t : Nat) (h : Held) : State :=
  s.modCore c (fun k =>
    let k := setGrp k g (modThr (grp k g) t (fun th => { th with held := th.held.erase h }))
    if h.glob then { k with mirror := k.mirror.erase (h.addr, g, t) } else k)

/-- A thread that exits holding locks releases them with OWNER_LOST, each counted (R130). -/
def releaseHeld (s : State) (c g t : Nat) : State :=
  (thr (grp (s.core c) g) t).held.foldl (fun s h =>
    let s := dropHeld s c g t h
    let s := addTaskCounter s c tcLockLost 1
    if h.glob then sendHome s c g t h.addr (.lockRel true) else releaseLocal s c h.addr true) s

/-! ## Branches (R112, R114, R161) -/

/-- Whether a PC lies in the code section (R161). -/
def inCode (s : State) (c : Nat) (pc : Int) : Bool := decide (0 ≤ pc ∧ pc < codeSize s c)

/-- BRA (R112, R114, R161): members with a true guard go to PC + 8·TGT, the others to PC + 8. -/
def execBra (x : Site) (w : Word64) (s : State) : Outcome :=
  coreRow (isRow 0x14 0 w) w (issue s x w [] [] (legalC 0x14 0 false false true true w) fun s i =>
    let to_ : Int := i.pc + 8 * cTgt w
    if !inCode s i.c to_ && !i.active.isEmpty then
      let fs := i.active.map (fun t => (t, (⟨cBAD_TARGET, 0, 0⟩ : Cause)))
      faultSet (advance s i (goOn i fs) (i.pc + 8)) i 0 fs
    else
      let rest := i.members.filter (fun t => !i.active.contains t)
      let split := !rest.isEmpty && !i.active.isEmpty
      let push := cJv w && split
      (countCore s i.c 0x12 (if split then 1 else 0) none).modGrp i.c i.g (fun gr =>
        let gr := modThrs gr i.active (fun _ t => { t with pc := to_.toNat })
        let gr := modThrs gr rest (fun _ t => { t with pc := i.pc + 8 })
        let gr := if push ∧ gr.joins.length < 8 then
            { gr with joins := ⟨(((i.pc : Int) + 8 * cJoin w) % 2 ^ 32).toNat, i.mask⟩ :: gr.joins } else gr
        normGroup gr))

/-- BRX (R161): the byte offset in REG, which may differ between threads. -/
def execBrx (x : Site) (w : Word64) (s : State) : Outcome :=
  coreRow (isRow 0x14 1 w) w (issue s x w [cReg w] [] (legalC 0x14 1 false false false false w) fun s i =>
    let gr0 := grp (s.core i.c) i.g
    let (oks, fs) := runThreads i (fun t =>
      let v := (readReg gr0 i.mask t (cReg w)).toNat
      if !srcOk (cReg w) 1 then .fault ⟨cILLEGAL_OPERAND, 0, 0⟩
      else if v % 8 ≠ 0 ∨ !inCode s i.c v then .fault ⟨cBAD_TARGET, 0, 0⟩ else .ok v)
    let rest := i.members.filter (fun t => !i.active.contains t)
    let pcs := (oks.map (·.2) ++ (if rest.isEmpty then [] else [i.pc + 8])).eraseDups
    let s := (countCore s i.c 0x12 (pcs.length - 1) none).modGrp i.c i.g (fun gr =>
      let gr := oks.foldl (fun gr (t, v) => modThr gr t (fun th => { th with pc := v })) gr
      normGroup (modThrs gr rest (fun _ t => { t with pc := i.pc + 8 })))
    faultSet s i 0 fs)

/-! ## NOP, EXIT, barriers, WAIT -/

/-- NOP (R161): no effect. -/
def execNop (x : Site) (w : Word64) (s : State) : Outcome :=
  coreRow (isRow 0x15 0 w) w (issue s x w [] [] (legalC 0x15 0 false false false false w)
    fun s i => advance s i i.members (i.pc + 8))

/-- EXIT (R113, R122, R130, R161): the thread leaves its set, joins and barriers, and releases what it holds. -/
def execExit (x : Site) (w : Word64) (s : State) : Outcome :=
  coreRow (isRow 0x15 1 w) w (issue s x w [] [] (legalC 0x15 1 false false false false w) fun s i =>
    let rest := i.members.filter (fun t => !i.active.contains t)
    let s := i.active.foldl (fun s t => releaseHeld s i.c i.g t) s
    let s := s.modGrp i.c i.g (fun gr =>
      modThrs (modThrs gr rest (fun _ t => { t with pc := i.pc + 8 })) i.active (fun _ t => { t with live := false }))
    settleBarriers (s.modGrp i.c i.g normGroup) i.c)

/-- Arrival at a barrier (R120 to R122): the thread goes on after the barrier once it releases. -/
def arrive (b : Block) (s : State) (i : Ctx) (fs : List (Nat × Cause)) : State :=
  let on := i.active.filter (fun t => fs.all (fun p => p.1 != t))
  let s := s.modGrp i.c i.g (fun gr => modThrs gr on (fun _ t => { t with block := b }))
  faultSet (settleBarriers (advance s i (goOn i fs) (i.pc + 8)) i.c) i 0 fs

/-- BAR.G (R120, R161). -/
def execBarG (x : Site) (w : Word64) (s : State) : Outcome :=
  coreRow (isRow 0x15 2 w) w (issue s x w [] [] (legalC 0x15 2 true false false false w)
    fun s i => arrive (.barG (cId w)) s i [])

/-- BAR.T (R121, R134, R135, R161): with SEG, a thread that holds a lock faults on arrival. -/
def execBarT (x : Site) (w : Word64) (s : State) : Outcome :=
  coreRow (isRow 0x15 3 w) w (issue s x w [] [] (legalC 0x15 3 true true false false w) fun s i =>
    let gr := grp (s.core i.c) i.g
    let fs := if cSeg w then (i.active.filter (fun t => !(thr gr t).held.isEmpty)).map
      (fun t => (t, (⟨cLOCK_ACROSS_SEGMENT, 0, 0⟩ : Cause))) else []
    arrive (.barT (cId w) (cSeg w)) s i fs)

/-- WAIT (R118, R161): REG must name a uniform register; blocks only the threads that execute it. -/
def execWait (x : Site) (w : Word64) (s : State) : Outcome :=
  coreRow (isRow 0x15 4 w) w (issue s x w [cReg w] [] (legalC 0x15 4 false false false false w) fun s i =>
    let k := s.core i.c
    let v := (readReg (grp k i.g) i.mask 0 (cReg w)).toNat
    let bad := fun c => i.active.map (fun t => (t, (⟨c, 0, 0⟩ : Cause)))
    let uni := decide (0x80 ≤ cReg w ∧ cReg w < 0xC0)
    let fs := if !uni then bad cILLEGAL_OPERAND else if ticketState k v = none then bad cTICKET_INVALID else []
    let s := if fs.isEmpty && ticketState k v == some false then
      s.modGrp i.c i.g (fun gr => modThrs gr i.active (fun _ t => { t with block := .ticket v })) else s
    faultSet (settleBarriers (advance s i (goOn i fs) (i.pc + 8)) i.c) i 0 fs)

/-! ## PMC READ (R161, R162, R524) -/

/-- Whether system software allows user reads: PMC_GCTL.USER_READ (R524). -/
def userRead (s : State) : Bool := s.regBit 0x01000000 1

/-- PMC READ: the counter less the base that dispatch or a restore recorded, modulo 2^48, into the register pair REG (R524). -/
def execPmcRead (x : Site) (w : Word64) (s : State) : Outcome :=
  coreRow (isRow 0x16 0 w) w (issue s x w [] []
      (legalC 0x16 0 true false false false w && decide (cId w < 12)) fun s i =>
    let allowed := userRead s && (match coreTask s i.c with | none => false | some t => flagCounters t.flags)
    let v := (s.count (pairCore i.c (cId w)) + 2 ^ 48 - tget 0 (s.core i.c).base (cId w)) % 2 ^ 48
    let bad := fun c => i.active.map (fun t => (t, (⟨c, 0, 0⟩ : Cause)))
    let fs := if !dstOk (cReg w) 2 then bad cILLEGAL_OPERAND else if !allowed then bad cCOUNTER_DENIED else []
    let s := if fs.isEmpty then
      s.modGrp i.c i.g (fun gr => i.active.foldl (fun gr t => writeDst i gr t (cReg w) 2 v) gr) else s
    faultSet (advance s i (goOn i fs) (i.pc + 8)) i 0 fs)

/-! ## Events of the issue stage -/

/-- GROUP_OVERDUE (R110): a ready group not selected for 256 consecutive slots is overdue. -/
def execGroupOverdue (core : CoreId) (group : Fin 16) (s : State) : Outcome :=
  let gr := grp (s.core core) group
  .next (if 256 ≤ gr.unsel ∧ gr.sets.any (fun st => !setBlocked gr st) then
    s.modGrp core group (fun gr => { gr with overdue := true }) else s)

/-- JOIN_TIMEOUT (R114): a set blocked at the top join for 1,024 issue opportunities of its group goes on. -/
def execJoinTimeout (core : CoreId) (group : Fin 16) (thread : Fin 32) (s : State) : Outcome :=
  .next (match (thr (grp (s.core core) group) thread).block with
    | .join n d => if 1024 ≤ n then s.modGrp core group (fun gr => normGroup (joinPop gr d)) else s
    | _ => s)

/-- Whether a wait is for a lock whose recorded owner is a thread of the same task on the same core (R123). The word of another module
is known here by the held list alone. -/
def ownedHere (s : State) (c : Nat) : Block → Bool
  | .lock glob a _ =>
    let holds := fun (p : Nat × Nat) => (thr (grp (s.core c) p.1) p.2).held.contains ⟨glob, a⟩
    if glob && addrModule a != s.modId then (coreLive (s.core c)).any holds
    else
      let v := s.word64 (if glob then a else lsAddr c + a)
      nbit v 0 && nbits v 20 11 == c && nbits v 26 21 == s.modId && holds (nbits v 10 7, nbits v 6 2)
  | _ => false

/-- The kind and id of a barrier wait: 1 BAR.G, 2 BAR.T. -/
def barKey : Block → Nat × Nat
  | .barG i => (1, i)
  | .barT i _ => (2, i)
  | _ => (0, 0)

/-- The conditions of R123 over a list of threads, of which one at least waits at a barrier of kind `kind`. -/
def splitCond (s : State) (c kind : Nat) (ts : List (Nat × Nat)) : Bool :=
  let bs := ts.map (fun (g, t) => (thr (grp (s.core c) g) t).block)
  let bars := (bs.filter atBarrier).map barKey
  bs.all (fun b => atBarrier b || atLock b) && bars.any (fun k => k.1 == kind) &&
    (!(bars.all (fun k => bars.head? == some k)) || bs.any (ownedHere s c))

/-- BARRIER_SPLIT (R123, R140): the core finds the condition, for a group with BAR.G or for the task's groups with BAR.T, and ends the
task FAULTED, also where a budget was exceeded in the same tick. The record names no thread (R170). -/
def execBarrierSplit (core : CoreId) (scope : BarScope) (s : State) : Outcome :=
  let k := s.core core
  let (kind, ts) := match scope with
    | .group g => (1, (liveThreads (grp k g)).map (fun t => (g.val, t)))
    | .task => (2, coreLive k)
  .next (if coreJudged s core ∧ splitCond s core kind ts then
    raiseFault s core { threadRec s core (match ts with | [] => 0 | p :: _ => p.1) 0xFF 0 3 ⟨cBARRIER_SPLIT, 0, 0⟩ with
      thread := 0xFF }
    else s)

end Sys2Proof.Machine
end

