-- ==== Sys2Proof/Machine/Mem.lean ====
section
/-! DEFINITION. The memory classes LDST, ATOM, LOCK and FENCE (R126 to R133, R157 to R160), the L1 data cache (R234), and
the responses that reach a core (R168). -/

namespace Sys2Proof.Machine

/-! ## Values -/

/-- Words of a register operand of an access size. -/
def sizeWords (n : Nat) : Nat := max 1 (n / 4)

/-- A loaded value of `n` bytes, zero- or sign-extended to its registers (R158). -/
def extendVal (n : Nat) (signed : Bool) (v : Nat) : Nat := if signed ∧ n < 4 then trunc 32 (sext (8 * n) v) else v

/-- Writes bytes to memory; words covered whole lose their poison (R302). -/
def storeBytes (s : State) (a : Nat) (bs : List Nat) : State :=
  { s with mem := writeBytes s.mem (addrLow a) bs, poison := coverPoison s.poison (addrLow a) bs.length }

/-- Counts the consumptions of the POISONED faults of an access in device memory, each at its word's unit (R303, R316). -/
def countPoisonedAt (s : State) (c : Nat) (fs : List (Nat × Cause)) : State :=
  fs.foldl (fun s (_, x) => if x.cause = cPOISONED then countConsumed s (addrUnit s c x.addr) x.addr else s) s

/-- Counts the consumptions of an issue's POISONED faults (R303, R316). -/
def countPoisoned (s : State) (unit : Nat) (fs : List (Nat × Cause)) : State :=
  fs.foldl (fun s (_, x) => if x.cause = cPOISONED then countConsumed s unit x.addr else s) s

/-! ## L1 data cache (R234) -/

def l1Find (k : Core) (line : Nat) : Option L1Line := k.l1.find? (fun l => l.line == line)

/-- Marks a line as used last. -/
def l1Touch (k : Core) (line : Nat) : Core :=
  { k with l1 := k.l1.map (fun l => if l.line = line then { l with stamp := k.slots } else l) }

/-- Takes a line into its set of 8 ways, the least recently used one leaving (R234). -/
def l1Insert (k : Core) (line : Nat) (data : List Nat) : Core :=
  let k := { k with l1 := k.l1.filter (fun l => l.line != line) }
  let same : List L1Line := k.l1.filter (fun l => l.line % 128 == line % 128)
  let old := same.foldl (fun m l => match m with
    | none => some l
    | some b => some (if l.stamp < b.stamp then l else b)) (none : Option L1Line)
  let keep := if same.length < 8 then k.l1 else match old with
    | none => k.l1
    | some b => k.l1.filter (fun l => l.line != b.line)
  { k with l1 := keep ++ [⟨line, data, k.slots⟩] }

/-- Bytes `o` to `o + n − 1` of a line copy replaced. -/
def patch (data : List Nat) (o : Nat) (bs : List Nat) : List Nat :=
  data.take o ++ bs ++ data.drop (o + bs.length)

/-- A store updates a line that L1 holds, and a copy of it on its way to L1 (R132, R234). -/
def l1Store (k : Core) (a : Nat) (bs : List Nat) : Core :=
  let line := a / 128
  { k with l1 := k.l1.map (fun l => if l.line = line then { l with data := patch l.data (a % 128) bs } else l),
           resps := k.resps.map (fun r =>
             if r.addr / 128 = line ∧ r.fill ≠ [] then { r with fill := patch r.fill (a % 128) bs } else r) }

def l1Drop (k : Core) (line : Nat) : Core :=
  { k with l1 := k.l1.filter (fun l => l.line != line),
           resps := k.resps.map (fun r => if r.addr / 128 = line then { r with fill := [] } else r) }

/-- Invalidates L1 (R133, R136): nothing in flight fills it either. -/
def l1Flush (k : Core) : Core := { k with l1 := [], resps := k.resps.map (fun r => { r with fill := [] }) }

/-- A load that another module has not answered yet brings no line to L1 (R132, R133, R159). -/
def voidFill (s : State) (c : Nat) (hit : Nat → Bool) : State :=
  { s with llc := { s.llc with remote := s.llc.remote.map (fun r =>
      if r.req.core = c ∧ hit (r.req.addr / 128) then { r with nofill := true } else r) } }

/-- A write of the core reaches its L1, and what is on its way to it (R132). -/
def storeL1 (s : State) (c a : Nat) (bs : List Nat) : State :=
  voidFill (s.setCore c (l1Store (s.core c) a bs)) c (· == a / 128)

/-- L1 loses one line (R159). -/
def dropL1 (s : State) (c line : Nat) : State := voidFill (s.setCore c (l1Drop (s.core c) line)) c (· == line)

/-- L1 loses every line (R133). -/
def flushL1 (s : State) (c : Nat) : State := voidFill (s.setCore c (l1Flush (s.core c))) c (fun _ => true)

/-- The own stores that wait at the home behind a load of their line, laid over the line that answers it (R132). -/
def ownStores (s : State) (c line : Nat) (data : List Nat) : List Nat :=
  s.llc.reqs.foldl (fun d r => match r.kind with
    | .store bs => if r.core = c ∧ r.addr / 128 = line then patch d (r.addr % 128) bs else d
    | _ => d) data

/-! ## Requests -/

/-- Layers of vertical joints between a core and its cache die: 1 on die A, 2 on die B (R17). -/
def layersOf (c : Nat) : Nat := 1 + (c / 9 / 16) % 2

/-- One LLC line access that moves `n` bytes, in the task's meters (R138, R172, R234). -/
def meterLine (s : State) (c a n : Nat) : State := addMeters s c a ⟨0, 1, 0, layersOf c * ceilDiv n 4, 0⟩

/-- The write to the source of a resident granule of this module counts in the task's HBM meter at 128 bytes a line (R237). -/
def meterSource (s : State) (c a n : Nat) : State :=
  let lo := addrLow a
  if (resSlot lo).isNone ∨ addrModule a ≠ s.modId ∨ tget 0 s.llc.sources ((lo - resBase) / mib2) = 0 then s
  else addMeters s c a ⟨0, 0, 128 * ((lo + n - 1) / 128 - lo / 128 + 1), 0, 0⟩

/-- A destination that waits for a request (R109): general registers of the thread, uniform ones of the group. -/
def addPend (gr : Group) (t req pc code n : Nat) (pred : Option Nat) : Group :=
  let rs := codeRange code n
  if 0x80 ≤ code ∧ code < 0xC0 then { gr with upend := gr.upend ++ [⟨req, rs, none, pc⟩] }
  else if rs.isEmpty ∧ pred.isNone then gr
  else modThr gr t (fun th => { th with pend := th.pend ++ [⟨req, rs, pred, pc⟩] })

/-- A memory instruction of a thread that has issued and not yet executed, with its PC (R125, R170). -/
def noteMem (gr : Group) (t req pc : Nat) : Group := modThr gr t (fun th => { th with mems := th.mems ++ [(req, pc)] })

/-- A request's destination waits, and its instruction is noted (R109, R125). -/
def awaitReq (gr : Group) (t req pc code n : Nat) (pred : Option Nat) : Group :=
  noteMem (addPend gr t req pc code n pred) t req pc

/-- A memory instruction of a thread has executed (R125). -/
def memDone (s : State) (c g t req : Nat) : State :=
  s.modThread c g t (fun th => { th with mems := th.mems.filter (fun m => m.1 != req) })

/-- Counts a write-through on its way (R133). -/
def addWrite (s : State) (c g t : Nat) : State :=
  (s.modThread c g t (fun th => { th with writes := th.writes + 1 })).modCore c (fun k => { k with writes := k.writes + 1 })

/-- The address of an access as the fault record gives it, and the device address it reaches. -/
def placeAddr (c : Nat) : Place → Nat
  | .own off => lsAddr c + off
  | .glob a => a

/-! ## LDST.L (R157, R158) -/

/-- The local-space checks of a thread's access, then its poison check when it reads. -/
def localAccess (s : State) (gr : Group) (i : Ctx) (t n : Nat) (rd : Bool) : Except Cause Nat :=
  let a := mLocal gr i t
  match localCheck a n with
  | some x => .error x
  | none =>
    match if rd then firstPoison s.poison (lsAddr i.c + a) n else none with
    | some p => .error ⟨cPOISONED, p - lsAddr i.c, 0⟩
    | none => .ok a

/-- A local load (R158): LD zero-extends, LD.S sign-extends. -/
def loadLocal (signed : Bool) (w : Word64) (s : State) (i : Ctx) : State :=
  let n := mSize w
  let gr := grp (s.core i.c) i.g
  let f := fun (gr : Group) (i : Ctx) (t : Nat) =>
    if !(srcOk (mBase w) 1 && dstOk (mData w) (sizeWords n)) then illOperand
    else match localAccess s gr i t n true with
    | .error x => .fault x
    | .ok a => .ok (regEff (mData w) (sizeWords n) (extendVal n signed (leNat (readBytes s.mem (lsAddr i.c + a) n))))
  countPoisoned (perThread f s i) (coreUnit i.c) (runThreads i (f gr i)).2

/-- LDST.L LD. -/
def execLdstLLd (x : Site) (w : Word64) (s : State) : Outcome :=
  coreRow (isRow 0x0F 0 w) w (issue s x w (codeRange (mBase w) 1) [] (legalM 0x0F 0 [0, 1, 2, 3, 4] false false w)
    (loadLocal false w))

/-- LDST.L LD.S. -/
def execLdstLLdS (x : Site) (w : Word64) (s : State) : Outcome :=
  coreRow (isRow 0x0F 1 w) w (issue s x w (codeRange (mBase w) 1) [] (legalM 0x0F 1 [0, 1, 2, 3, 4] false false w)
    (loadLocal true w))

/-- The bytes that a store takes from its DATA registers (R144, R158). -/
def storeData (gr : Group) (i : Ctx) (t : Nat) (w : Word64) : List Nat :=
  natLe (mSize w) (readWide gr i.mask t (mData w) (sizeWords (mSize w)))

/-- Source registers of a store. -/
def storeSrcs (w : Word64) (baseWords : Nat) : List Nat :=
  codeRange (mBase w) baseWords ++ codeRange (mData w) (sizeWords (mSize w))

/-- LDST.L ST (R158): threads store in ascending order. -/
def execLdstLSt (x : Site) (w : Word64) (s : State) : Outcome :=
  coreRow (isRow 0x0F 2 w) w (issue s x w (storeSrcs w 1) [] (legalM 0x0F 2 [0, 1, 2, 3, 4] false false w) fun s i =>
    let gr := grp (s.core i.c) i.g
    let (oks, fs) := runThreads i (fun t =>
      if !(srcOk (mBase w) 1 && srcOk (mData w) (sizeWords (mSize w))) then .fault ⟨cILLEGAL_OPERAND, 0, 0⟩
      else match localAccess s gr i t (mSize w) false with
      | .error x => .fault x
      | .ok a => .ok (a, storeData gr i t w))
    let s := oks.foldl (fun s (_, a, bs) => storeBytes s (lsAddr i.c + a) bs) s
    faultSet (advance s i (goOn i fs) (i.pc + 8)) i 0 fs)

/-! ## LDST.G (R157 to R160, R228 to R234) -/

/-- The checks of a global access in order: alignment, then windows and rights. -/
def globalAccess (s : State) (gr : Group) (i : Ctx) (t n : Nat) (rd wr : Bool) : Except Cause (Nat × Place) :=
  let a := mGlobal gr i t
  if a % n ≠ 0 then .error ⟨cMISALIGNED, a, n⟩
  else (globalCheck s i.c a n rd wr).map (fun p => (a, p))

/-- Whether a store of the core to the line is still on its way to the home (R132). -/
def storeWaits (s : State) (c a : Nat) : Bool :=
  s.llc.reqs.any (fun r => r.core == c && addrLow r.addr / 128 == addrLow a / 128 && (match r.kind with | .store _ => true | _ => false))

/-- The poisoned word that a load or ATOM of own local store or of memory of this module would meet as it issues: the thread
then faults before any later instruction of it (R137, R160). A load that L1 answers (`cached`) meets none; poison that a home finds
only when it serves the request, or that another module reports, faults at the answer. -/
def meetsPoison (s : State) (c a : Nat) (p : Place) (n : Nat) (cached : Bool) : Option Nat :=
  match p with
  | .own off => (firstPoison s.poison (lsAddr c + off) n).map (fun q => a + q - (lsAddr c + off))
  | .glob b =>
    if addrModule b ≠ s.modId ∨ storeWaits s c b ∨ (cached ∧ (l1Find (s.core c) (b / 128)).isSome) then none
    else (firstPoison s.poison (addrLow b) n).map (fun q => a + q - addrLow b)

/-- One thread's global load once it has passed its checks: own local store and L1 answer at once; a miss, BYP or NA
goes to the home and leaves the destination pending (R109, R159, R234). -/
def loadPlace (signed : Bool) (w : Word64) (i : Ctx) (s : State) (t : Nat) (p : Place) : State :=
  let n := mSize w
  let words := sizeWords n
  match p with
  | .own off =>
    s.modGrp i.c i.g (fun gr =>
      writeDst i gr t (mData w) words (extendVal n signed (leNat (readBytes s.mem (lsAddr i.c + off) n))))
  | .glob a =>
    match if mCache w = 1 then none else l1Find (s.core i.c) (a / 128) with
    | some l =>
      let s := s.setCore i.c (l1Touch (s.core i.c) (a / 128))
      s.modGrp i.c i.g (fun gr =>
        writeDst i gr t (mData w) words (extendVal n signed (fieldLe l.data (a % 128) n)))
    | none =>
      let uni := decide (0x80 ≤ mData w ∧ mData w < 0xC0)
      let dst := if uni ∧ i.active.head? ≠ some t then 0xC0 else mData w
      let alloc := decide (mCache w = 0)
      let s := meterLine s i.c a (if alloc then 128 else n)
      let id := s.llc.nextReq
      let s := sendHome s i.c i.g t a (.load n signed uni alloc dst)
      s.modGrp i.c i.g (fun gr => awaitReq gr t id i.pc dst words none)

/-- The lines that a load looks for in L1, once each, with whether L1 holds them (R234, R521); BYP does not look. -/
def l1Looks (s : State) (c : Nat) (w : Word64) (ps : List Place) : List (Nat × Bool) :=
  if mCache w = 1 then []
  else ((ps.filterMap (fun p => match p with
    | .own _ => none
    | .glob a => some (a / 128))).eraseDups).map (fun l => (l, (l1Find (s.core c) l).isSome))

/-- L1 hits and misses of a load, in lines (R521). -/
def countL1 (s : State) (c : Nat) (ls : List (Nat × Bool)) : State :=
  ls.foldl (fun s p => countCore s c (if p.2 then 0x06 else 0x07) 1 (some (128 * p.1))) s

/-- LDST.G loads. -/
def loadGlobal (signed : Bool) (w : Word64) (s : State) (i : Ctx) : State :=
  let n := mSize w
  let gr := grp (s.core i.c) i.g
  let (oks, fs) := runThreads i (fun t =>
    if !(srcOk (mBase w) 2 && dstOk (mData w) (sizeWords n)) then .fault ⟨cILLEGAL_OPERAND, 0, 0⟩
    else match globalAccess s gr i t n true false with
    | .error x => .fault x
    | .ok (a, p) => match meetsPoison s i.c a p n (mCache w != 1) with
      | some q => .fault ⟨cPOISONED, q, 0⟩
      | none => .ok p)
  let s := countL1 s i.c (l1Looks s i.c w (oks.map (·.2)))
  let s := oks.foldl (fun s (t, p) => loadPlace signed w i s t p) s
  faultSet (countPoisonedAt (advance s i (goOn i fs) (i.pc + 8)) i.c fs) i 0 fs

/-- LDST.G LD. -/
def execLdstGLd (x : Site) (w : Word64) (s : State) : Outcome :=
  coreRow (isRow 0x10 0 w) w (issue s x w (codeRange (mBase w) 2) [] (legalM 0x10 0 [0, 1, 2, 3, 4] true false w)
    (loadGlobal false w))

/-- LDST.G LD.S. -/
def execLdstGLdS (x : Site) (w : Word64) (s : State) : Outcome :=
  coreRow (isRow 0x10 1 w) w (issue s x w (codeRange (mBase w) 2) [] (legalM 0x10 1 [0, 1, 2, 3, 4] true false w)
    (loadGlobal true w))

/-- One thread's global store: own local store at once; otherwise L1 is updated on a hit and the store writes through
(R132, R234), counting twice in HBM when its granule has a source (R237). -/
def storePlace (i : Ctx) (s : State) (t : Nat) (p : Place) (bs : List Nat) : State :=
  match p with
  | .own off => storeBytes s (lsAddr i.c + off) bs
  | .glob a =>
    let s := storeL1 s i.c a bs
    let s := meterLine s i.c a bs.length
    let s := meterSource s i.c a bs.length
    addWrite (sendHome s i.c i.g t a (.store bs)) i.c i.g t

/-- LDST.G ST: always writes through, whatever CACHE holds (R159). -/
def execLdstGSt (x : Site) (w : Word64) (s : State) : Outcome :=
  coreRow (isRow 0x10 2 w) w (issue s x w (storeSrcs w 2) [] (legalM 0x10 2 [0, 1, 2, 3, 4] true false w) fun s i =>
    let gr := grp (s.core i.c) i.g
    let (oks, fs) := runThreads i (fun t =>
      if !(srcOk (mBase w) 2 && srcOk (mData w) (sizeWords (mSize w))) then .fault ⟨cILLEGAL_OPERAND, 0, 0⟩
      else match globalAccess s gr i t (mSize w) false true with
      | .error x => .fault x
      | .ok (_, p) => .ok (p, storeData gr i t w))
    let s := oks.foldl (fun s (t, p, bs) => storePlace i s t p bs) s
    faultSet (advance s i (goOn i fs) (i.pc + 8)) i 0 fs)

/-! ## ATOM (R158, R159) -/

/-- New value of an atomic of `n` bytes on the old value (R158): OP 0 to 10. -/
def atomOp (op n old v cmp : Nat) : Nat :=
  let m := 2 ^ (8 * n)
  let sg := fun x => sext (8 * n) (x % m)
  if op = 0 then (old + v) % m
  else if op = 1 then (f32add (BitVec.ofNat 32 old) (BitVec.ofNat 32 v)).toNat
  else if op = 2 then (if sg old ≤ sg v then old else v)
  else if op = 3 then min old v
  else if op = 4 then (if sg old ≤ sg v then v else old)
  else if op = 5 then max old v
  else if op = 6 then old &&& v
  else if op = 7 then old ||| v
  else if op = 8 then old ^^^ v
  else if op = 9 then v
  else if old = cmp then v else old

/-- Whether DATA fits an ATOM: a register or pair that is read and written; CAS needs the next one too, in its bank (R158). -/
def atomDataOk (op n code : Nat) : Bool :=
  let k := sizeWords n
  if op = 10 then
    (decide (code + 2 * k ≤ 0x80) || (decide (0x80 ≤ code) && decide (code + 2 * k ≤ 0xC0))) && code % k == 0
  else dstOk code k

/-- The operand that an ATOM combines, and the value that CAS compares (R158). -/
def atomArgs (gr : Group) (i : Ctx) (t op : Nat) (w : Word64) : Nat × Nat :=
  let k := sizeWords (mSize w)
  let d := readWide gr i.mask t (mData w) k
  if op = 10 then (readWide gr i.mask t (mData w + k) k, d) else (d, 0)

/-- One thread's ATOM: in own local store at once; otherwise at the home, invalidating the L1 copy. A value logged by the
replay filter answers without sending (R159, R456). -/
def atomPlace (op : Nat) (w : Word64) (i : Ctx) (s : State) (t : Nat) (p : Place) (args : Nat × Nat) : State :=
  let n := mSize w
  let words := sizeWords n
  match p with
  | .own off =>
    let a := lsAddr i.c + off
    let old := leNat (readBytes s.mem a n)
    let s := s.setBytes a (natLe n (atomOp op n old args.1 args.2))
    s.modGrp i.c i.g (fun gr => writeDst i gr t (mData w) words old)
  | .glob a =>
    let s := dropL1 s i.c (a / 128)
    match (s.core i.c).atomReplay.find? (fun l => l.group == i.g && l.thread == t) with
    | some l =>
      let s := s.modCore i.c (fun k => { k with atomReplay := k.atomReplay.erase l })
      s.modGrp i.c i.g (fun gr => writeDst i gr t (mData w) words l.value)
    | none =>
      let uni := decide (0x80 ≤ mData w ∧ mData w < 0xC0)
      let dst := if uni ∧ i.active.head? ≠ some t then 0xC0 else mData w
      let s := meterLine s i.c a n
      let id := s.llc.nextReq
      let s := sendHome s i.c i.g t a (.atom op n uni dst args.1 args.2)
      s.modGrp i.c i.g (fun gr => awaitReq gr t id i.pc dst words none)

/-- The registers an ATOM reads. -/
def atomSrcs (op : Nat) (w : Word64) : List Nat :=
  let k := sizeWords (mSize w)
  codeRange (mBase w) 2 ++ codeRange (mData w) (if op = 10 then 2 * k else k)

/-- ATOM of one OP. A BASE of 32 bits is used when the address is in local space: R158 gives a local-store ATOM a
32-bit BASE, which names the same own local store as its global address. -/
def atomBody (op : Nat) (w : Word64) (s : State) (i : Ctx) : State :=
  let gr := grp (s.core i.c) i.g
  let n := mSize w
  let (oks, fs) := runThreads i (fun t =>
    if !(srcOk (mBase w) 2 && atomDataOk op n (mData w)) then .fault ⟨cILLEGAL_OPERAND, 0, 0⟩
    else match globalAccess s gr i t n true true with
    | .error x => .fault x
    | .ok (a, p) => match meetsPoison s i.c a p n false with
      | some _ => .fault ⟨cPOISONED, a, 0⟩
      | none => .ok (p, atomArgs gr i t op w))
  let s := oks.foldl (fun s (t, p, v) => atomPlace op w i s t p v) s
  faultSet (countPoisonedAt (advance s i (goOn i fs) (i.pc + 8)) i.c fs) i 0 fs

/-- An ATOM row: SIZE 4 or 8, FADD 4 only (R158). -/
def atomRow (op : Nat) (x : Site) (w : Word64) (s : State) : Outcome :=
  coreRow (isRow 0x11 op w) w (issue s x w (atomSrcs op w) []
    (legalM 0x11 op (if op = 1 then [2] else [2, 3]) false false w) (atomBody op w))

/-- ATOM ADD. -/
def execAtomAdd (x : Site) (w : Word64) (s : State) : Outcome := atomRow 0 x w s
/-- ATOM FADD: FP32, round to nearest even. -/
def execAtomFadd (x : Site) (w : Word64) (s : State) : Outcome := atomRow 1 x w s
/-- ATOM MIN.S. -/
def execAtomMinS (x : Site) (w : Word64) (s : State) : Outcome := atomRow 2 x w s
/-- ATOM MIN.U. -/
def execAtomMinU (x : Site) (w : Word64) (s : State) : Outcome := atomRow 3 x w s
/-- ATOM MAX.S. -/
def execAtomMaxS (x : Site) (w : Word64) (s : State) : Outcome := atomRow 4 x w s
/-- ATOM MAX.U. -/
def execAtomMaxU (x : Site) (w : Word64) (s : State) : Outcome := atomRow 5 x w s
/-- ATOM AND. -/
def execAtomAnd (x : Site) (w : Word64) (s : State) : Outcome := atomRow 6 x w s
/-- ATOM OR. -/
def execAtomOr (x : Site) (w : Word64) (s : State) : Outcome := atomRow 7 x w s
/-- ATOM XOR. -/
def execAtomXor (x : Site) (w : Word64) (s : State) : Outcome := atomRow 8 x w s
/-- ATOM EXCH. -/
def execAtomExch (x : Site) (w : Word64) (s : State) : Outcome := atomRow 9 x w s
/-- ATOM CAS: compares with DATA, stores the register or pair after it on a match. -/
def execAtomCas (x : Site) (w : Word64) (s : State) : Outcome := atomRow 10 x w s

/-! ## LOCK (R126 to R131, R157, R158) -/

/-- Where a lock word lies. -/
inductive LockAt where
  | ls (off : Nat)
  | dev (a : Nat)
deriving DecidableEq, Repr

/-- The checks of a lock address: LOCK_SPACE stands in the place of alignment (R129, R157, R158). -/
def lockAddr (glob : Bool) (s : State) (gr : Group) (i : Ctx) (t : Nat) : Except Cause LockAt :=
  if !glob then
    let a := mLocal gr i t
    if a % 8 ≠ 0 then .error ⟨cLOCK_SPACE, a, 0⟩
    else if lsBytes < a + 8 then .error ⟨cLS_RANGE, a, 0⟩ else .ok (.ls a)
  else
    let a := mGlobal gr i t
    let lo := addrLow a
    let foreign := decide (a < 2 ^ 54) && (ownLs s i.c a).isNone &&
      (decide (lsBase ≤ lo ∧ lo < lsBase + 0x24000000) || decide (mmioBase ≤ lo ∧ lo < mmioBase + 0x100000000))
    if a % 8 ≠ 0 ∨ foreign then .error ⟨cLOCK_SPACE, a, 0⟩
    else (globalCheck s i.c a 8 true true).map (fun p => match p with
      | .own off => .ls off
      | .glob a => .dev a)

/-- The held-list entry that a lock address stands for. -/
def lockHeld : LockAt → Held
  | .ls off => ⟨false, off⟩
  | .dev a => ⟨true, a⟩

/-- Locks held on a core: its held-lock table has 128 entries (R129). -/
def coreHeld (k : Core) : Nat := ((coreLive k).map (fun (g, t) => (thr (grp k g) t).held.length)).sum

/-- The acquirer's precise faults before any attempt (R129); `more` entries of the table went to lower threads of the slot. A lock that is
handed to a waiter later finds its entry: R129 judges the table at LOCK.ACQ alone (log 110). -/
def acqFault (s : State) (i : Ctx) (t : Nat) (l : LockAt) (a more : Nat) : Option Cause :=
  let k := s.core i.c
  let th := thr (grp k i.g) t
  if th.held.contains (lockHeld l) then some ⟨cLOCK_SELF, a, 0⟩
  else if 4 ≤ th.held.length ∨ 128 ≤ coreHeld k + more then some ⟨cLOCK_LIMIT, a, 0⟩ else none

/-- Whether an attempt takes its lock in the slot itself: a free word of the local store, which no lower thread takes (R127). -/
def takesNow (s : State) (c : Nat) (taken : List LockAt) (l : LockAt) : Bool :=
  match l with
  | .ls off => !nbit (s.word64 (lsAddr c + off)) 0 && !taken.contains l
  | .dev _ => false

/-- The attempts of a slot in ascending order of thread: those that go on, and the faults (R127, R129). `taken`: words that lower threads
took. -/
def acqSplit (s : State) (i : Ctx) (f : Nat → List LockAt → Except Cause LockAt) :
    List Nat → List LockAt → List (Nat × LockAt) × List (Nat × Cause)
  | [], _ => ([], [])
  | t :: ts, taken => match f t taken with
    | .error x => let (a, b) := acqSplit s i f ts taken; (a, (t, x) :: b)
    | .ok l => let (a, b) := acqSplit s i f ts (if takesNow s i.c taken l then l :: taken else taken); ((t, l) :: a, b)

/-- The poison of a lock word, own or of memory of this module, as the instruction issues (R137, R303). -/
def lockPoison (s : State) (c : Nat) (l : LockAt) (a : Nat) : Option Cause :=
  match l with
  | .ls off => if isPoisoned s.poison (lsAddr c + off) 8 then some ⟨cPOISONED, a, 0⟩ else none
  | .dev b => if addrModule b = s.modId ∧ isPoisoned s.poison (addrLow b) 8 then some ⟨cPOISONED, a, 0⟩ else none

/-- One thread's LOCK.ACQ: a local word decides at once; a global one is attempted at its home, the thread blocked until
the answer (R127). -/
def acquire (w : Word64) (i : Ctx) (s : State) (t : Nat) (l : LockAt) : State :=
  match l with
  | .ls off =>
    let v := s.word64 (lsAddr i.c + off)
    if nbit v 0 then s.modThread i.c i.g t (fun th => { th with block := .lock false off (mPdst w) })
    else takeLock s false (lsAddr i.c + off) off i.c i.g t (mPdst w) (nbit v 1)
  | .dev a =>
    let s := meterLine s i.c a 8
    let s := s.modThread i.c i.g t (fun th => { th with block := .lock true a (mPdst w) })
    sendHome s i.c i.g t a (.lockAcq (mPdst w))

/-- LOCK.ACQ: threads attempt in ascending order, so the lowest wins a free word (R127). -/
def acqBody (glob : Bool) (w : Word64) (s : State) (i : Ctx) : State :=
  let gr := grp (s.core i.c) i.g
  let addr := fun t => if glob then mGlobal gr i t else mLocal gr i t
  let (oks, fs) := acqSplit s i (fun t taken =>
    if !(srcOk (mBase w) (if glob then 2 else 1)) then .error ⟨cILLEGAL_OPERAND, 0, 0⟩
    else match lockAddr glob s gr i t with
    | .error x => .error x
    | .ok l => match (acqFault s i t l (addr t) taken.length).or (lockPoison s i.c l (addr t)) with
      | some x => .error x
      | none => .ok l) i.active []
  let s := advance s i (goOn i fs) (i.pc + 8)
  let s := oks.foldl (fun s (t, l) => acquire w i s t l) s
  let s := settleBarriers (s.modGrp i.c i.g normGroup) i.c
  faultSet (countPoisonedAt s i.c fs) i 0 fs

/-- Whether a lock word is held and its owner fields name the thread of module `m`, whatever its other bits hold (R129, R158). -/
def ownsWordOf (m v c g t : Nat) : Bool := nbit v 0 && v % 2 ^ 27 / 4 == lockWord c g t m / 4

def ownsWord (s : State) (v c g t : Nat) : Bool := ownsWordOf s.modId v c g t

/-- One thread's LOCK.REL of a word that it owns (R128). -/
def release (i : Ctx) (s : State) (t : Nat) (l : LockAt) : State :=
  let s := dropHeld s i.c i.g t (lockHeld l)
  match l with
  | .ls off => releaseLocal s i.c off false
  | .dev a =>
    let s := meterLine s i.c a 8
    (sendHome s i.c i.g t a (.lockRel false)).modGrp i.c i.g (fun gr => noteMem gr t s.llc.nextReq i.pc)

/-- LOCK.REL: a word whose owner fields do not name the thread faults LOCK_NOT_OWNER (R129, R158). A word of this module is judged as it
stands when the instruction issues, one of another module by the core's held list; the home judges both again as it serves the release. -/
def relBody (glob : Bool) (w : Word64) (s : State) (i : Ctx) : State :=
  let gr := grp (s.core i.c) i.g
  let addr := fun t => if glob then mGlobal gr i t else mLocal gr i t
  let (oks, fs) := runThreads i (fun t =>
    if !(srcOk (mBase w) (if glob then 2 else 1)) then .fault ⟨cILLEGAL_OPERAND, 0, 0⟩
    else match lockAddr glob s gr i t with
    | .error x => .fault x
    | .ok l =>
      let v := s.word64 (match l with | .ls off => lsAddr i.c + off | .dev a => a)
      let local_ := match l with | .ls _ => true | .dev a => decide (addrModule a = s.modId)
      match lockPoison s i.c l (addr t) with
      | some x => .fault x
      | none =>
        if (if local_ then !ownsWord s v i.c i.g t else !(thr gr t).held.contains (lockHeld l)) then
          .fault ⟨cLOCK_NOT_OWNER, addr t, 0⟩
        else .ok l)
  let s := advance s i (goOn i fs) (i.pc + 8)
  let s := oks.foldl (fun s (t, l) => release i s t l) s
  let s := settleBarriers (s.modGrp i.c i.g normGroup) i.c
  faultSet (countPoisonedAt s i.c fs) i 0 fs

/-- Legality of a LOCK row: SIZE 8, DATA 0xC0; PDST only of ACQ (R153, R158). -/
def legalLock (op : Nat) (acq : Bool) (w : Word64) : Bool := legalM 0x12 op [3] false acq w && mData w == 0xC0

/-- LOCK.ACQ.L. -/
def execLockAcqL (x : Site) (w : Word64) (s : State) : Outcome :=
  coreRow (isRow 0x12 0 w) w (issue s x w (codeRange (mBase w) 1) [] (legalLock 0 true w) (acqBody false w))
/-- LOCK.ACQ.G. -/
def execLockAcqG (x : Site) (w : Word64) (s : State) : Outcome :=
  coreRow (isRow 0x12 1 w) w (issue s x w (codeRange (mBase w) 2) [] (legalLock 1 true w) (acqBody true w))
/-- LOCK.REL.L. -/
def execLockRelL (x : Site) (w : Word64) (s : State) : Outcome :=
  coreRow (isRow 0x12 2 w) w (issue s x w (codeRange (mBase w) 1) [] (legalLock 2 false w) (relBody false w))
/-- LOCK.REL.G. -/
def execLockRelG (x : Site) (w : Word64) (s : State) : Outcome :=
  coreRow (isRow 0x12 3 w) w (issue s x w (codeRange (mBase w) 2) [] (legalLock 3 false w) (relBody true w))

/-- Whether a thread of a core waits in LOCK.ACQ for a global lock. -/
def waitsFor (s : State) (c g t a : Nat) : Bool :=
  match (thr (grp (s.core c) g) t).block with
  | .lock true b _ => b == a
  | _ => false

/-- LOCK_WAKE (R128): a wake message of an LLC reaches the core that waits for the lock, whose thread owns it and goes on. -/
def execLockWake (core : CoreId) (addr : Nat) (s : State) : Outcome :=
  .next (match s.llc.wakes.find? (fun m => m.core == core.val && m.addr == addr) with
    | none => s
    | some m =>
      let s := { s with llc := { s.llc with wakes := s.llc.wakes.erase m } }
      if waitsFor s core m.group m.thread addr then settleBarriers (takeLock s true addr addr core m.group m.thread m.pdst m.lost) core else s)

/-- LOCK_RETRY (R128): a waiting core that the bank could not record attempts the word again. -/
def execLockRetry (core : CoreId) (addr : Nat) (s : State) : Outcome :=
  .next (match s.llc.unrecorded.find? (fun m => m.core == core.val && m.addr == addr) with
    | none => s
    | some m =>
      sendHome { s with llc := { s.llc with unrecorded := s.llc.unrecorded.erase m } }
        core m.group m.thread addr (.lockAcq m.pdst))

/-! ## FENCE (R133) -/

/-- Legality of a FENCE row: every other field fixed (R158). -/
def legalFence (op : Nat) (w : Word64) : Bool :=
  legalM 0x13 op [0] false false w && mData w == 0xC0 && mBase w == 0xC0 && bits w 23 0 == 0

/-- The write half of a fence: the threads wait for their own write-throughs; `inval` invalidates L1 after it. -/
def fenceBody (wait_ inval : Bool) (s : State) (i : Ctx) : State :=
  let gr := grp (s.core i.c) i.g
  let late := if wait_ then i.active.filter (fun t => (thr gr t).writes != 0) else []
  let s := s.modGrp i.c i.g (fun gr => modThrs gr late (fun _ t => { t with block := .fence inval }))
  let s := if inval ∧ i.active.length ≠ late.length then flushL1 s i.c else s
  settleBarriers (advance s i i.members (i.pc + 8)) i.c

/-- FENCE.W. -/
def execFenceW (x : Site) (w : Word64) (s : State) : Outcome :=
  coreRow (isRow 0x13 0 w) w (issue s x w [] [] (legalFence 0 w) (fenceBody true false))
/-- FENCE.A. -/
def execFenceA (x : Site) (w : Word64) (s : State) : Outcome :=
  coreRow (isRow 0x13 1 w) w (issue s x w [] [] (legalFence 1 w) (fenceBody false true))
/-- FENCE.AW: FENCE.W first. -/
def execFenceAw (x : Site) (w : Word64) (s : State) : Outcome :=
  coreRow (isRow 0x13 2 w) w (issue s x w [] [] (legalFence 2 w) (fenceBody true true))

/-! ## Responses (R109, R133, R160, R168) -/

/-- Removes a request from the pending lists of a thread and its group, telling which of its registers still waited and the PC of its
instruction (R170). -/
def takePend (gr : Group) (t req : Nat) : Group × List Nat × List Nat × Nat :=
  let mine := ((thr gr t).pend ++ gr.upend).filter (fun p => p.req == req)
  let pc := match (thr gr t).mems.find? (fun m => m.1 == req) with
    | some m => m.2
    | none => (thr gr t).pc - 8
  let gr := modThr { gr with upend := gr.upend.filter (fun p => p.req != req) } t
    (fun th => { th with pend := th.pend.filter (fun p => p.req != req), mems := th.mems.filter (fun m => m.1 != req) })
  (gr, mine.flatMap (·.regs), mine.filterMap (·.pred), pc)

/-- Delivers a response: registers that still wait are written; poison faults the load and writes nothing (R160, R303). A core that is
stopped for a replay consumes it (R451). -/
def deliver (s : State) (c : Nat) (r : Resp) : State :=
  let s := s.modCore c (fun k => { k with resps := k.resps.erase r })
  if replayHeld (s.core c) then s else
  let gr := grp (s.core c) r.group
  let (gr, regs, preds, pc) := takePend gr r.thread r.req
  let s := s.modGrp c r.group (fun _ => gr)
  if r.poison then
    let s := countConsumed s (addrUnit s c r.addr) r.addr
    raiseFault s c (threadRec s c r.group r.thread pc 0 ⟨cPOISONED, r.addr, 0⟩)
  else
    let s := s.modGrp c r.group (fun gr => regs.foldl (fun gr code =>
      writeReg gr r.thread code 1 (r.value >>> (32 * (code - r.dst)))) gr)
    let s := s.modGrp c r.group (fun gr => match r.pred with
      | some (p, b) => if preds.contains p then writePred gr r.thread p b else gr
      | none => gr)
    let s := if r.fill = [] then s
      else s.setCore c (l1Insert (s.core c) (r.addr / 128) r.fill)
    settleBarriers s c

/-- LOAD_RESPONSE (R168): the oldest response on its way to the core arrives. -/
def execLoadResponse (core : CoreId) (s : State) : Outcome :=
  .next (match (s.core core).resps with
    | [] => s
    | r :: _ => deliver s core r)

/-- A thread whose write-throughs are all acknowledged passes its fence (R133). -/
def fenceDone (s : State) (c g t : Nat) : State :=
  match (thr (grp (s.core c) g) t).block with
  | .fence inval =>
    if (thr (grp (s.core c) g) t).writes = 0 then
      let s := s.modGrp c g (fun gr => normGroup (modThr gr t (fun th => { th with block := .no })))
      settleBarriers (if inval then flushL1 s c else s) c
    else s
  | _ => s

/-- WRITE_ACK (R133, R250): the oldest acknowledgement arrives; one that carries poison ends the rank (R303, R304). -/
def execWriteAck (core : CoreId) (s : State) : Outcome :=
  .next (match (s.core core).acks with
    | [] => s
    | a :: as =>
      let s := s.modCore core (fun k => { k with acks := as, writes := k.writes - 1,
                                                 redOut := if a.red then k.redOut - 1 else k.redOut })
      let s := s.modThread core a.group a.thread (fun th => { th with writes := th.writes - 1 })
      let s := fenceDone s core a.group a.thread
      let s := if a.window then addTaskCounter s core tcWindow 1 else s
      if a.poison ∧ ¬ replayHeld (s.core core) then
        let s := countConsumed s (addrUnit s core a.addr) a.addr
        raiseFault s core { threadRec s core a.group 0xFF 0 2 ⟨cPOISONED, a.addr, 0⟩ with thread := 0xFF }
      else s)

end Sys2Proof.Machine
end

