-- ==== Sys2Proof/Machine/Stored.lean ====
section
/-! DEFINITION. Stored data: region codes, what a read of an array finds, poison, merge buffers, lines and their fills, in-cache
reduction, and writes at a home (R235 to R252, R293 to R311). -/

namespace Sys2Proof.Machine

/-! ## Region codes (R294, R296) -/

def rRgnRng (e : Nat) : Nat := 0x0200E000 + 8 * e
def rRgnAttr (e : Nat) : Nat := 0x0200E004 + 8 * e
def codeStandard : Nat := 0
def codeStrong : Nat := 1
def codeLight : Nat := 2

/-- Bytes that an ECC region entry of the given RNG and ATTR values covers: first address and length (R296). -/
def regionRange (rng attr : Nat) : Nat × Nat :=
  if nbit attr 2 then (resBase + nbits rng 12 0 * mib2, nbits rng 25 13 * mib2)
  else (nbits rng 12 0 * mib64, nbits rng 25 13 * mib64)

/-- The code that governs a local address (R296). -/
def codeOf (s : State) (a : Nat) : Nat :=
  if reservedHbm a then codeStrong
  else ((List.range 64).findSome? (fun e =>
    let at_ := (s.reg (rRgnAttr e)).toNat
    let (b, n) := regionRange (s.reg (rRgnRng e)).toNat at_
    if b ≤ a ∧ a < b + n ∧ ¬ nbit at_ 4 then some (nbits at_ 1 0) else none)).getD codeStandard

/-! ## Errors of stored words (R300 to R302, R311, R316) -/

def lineOf (a : Nat) : Nat := addrLow a / 128
def modLine (s : State) (l : Nat) (f : Line → Line) : State :=
  { s with llc := { s.llc with lines := s.llc.lines.map (fun p => if p.1 = l then (p.1, f p.2) else p) } }
def lineAt (s : State) (l : Nat) : Option Line := (s.llc.lines.find? (fun p => p.1 == l)).map (·.2)

/-- Whether any LLC holds the line an access needs: resident lines always, HBM lines once filled. -/
def linePresent (s : State) (a : Nat) : Bool := !isHbm a || (lineAt s (lineOf a)).isSome

/-- The error unit of a line's home half (R316), and the tower bank that stores it. -/
def halfUnit (s : State) (a : Nat) : Nat := match homeAt s (addrLow a) with | some h => h.half | none => 0
def bankOf (s : State) (a : Nat) : Nat := match homeAt s (addrLow a) with | some h => towerBank h.half h.bank | none => 0

/-- A corrected error of an SRAM bank counts toward the 64 of an hour (R315). -/
def logCe (s : State) (u addr : Nat) : State :=
  let s := noteCe s u addr
  let tb := bankOf s addr
  let l := (tget [] s.ecc.bankCe tb).filter (fun t => decide (s.clk.tick < t + 3600 * ticksPerSecond))
  { s with ecc := { s.ecc with bankCe := tset [] s.ecc.bankCe tb (l ++ [s.clk.tick]) } }

/-- Whether a row is due for a spare (R311): an uncorrectable error, or corrected ones in two bit positions. -/
def rowDue (l : List Find) (mat row : Nat) : Bool :=
  let r := l.filter (fun f => f.mat == mat && f.row == row)
  r.any (·.unc) || decide (2 ≤ (r.map (·.bit)).eraseDups.length)

/-- Whether a column is due for a spare (R311): eight rows of its mat show errors at it. -/
def colDue (l : List Find) (mat bit : Nat) : Bool :=
  decide (8 ≤ ((l.filter (fun f => f.mat == mat && f.bit == bit)).map (·.row)).eraseDups.length)

/-- The errors of the last 24 hours in a bank, or in a stack (key 2048 + stack). -/
def findsOf (s : State) (key : Nat) : List Find :=
  (tget [] s.ecc.finds key).filter (fun f => decide (s.clk.tick < f.tick + ticksPerDay))

/-- The repair of a row, as the repair list holds it: of a bank, or of an HBM stack. -/
def rowRepair (key mat row : Nat) : Nat × Nat × Nat := if key < 2048 then (1, key, mat * 1024 + row) else (3, key - 2048, row)
def colRepair (key mat bit : Nat) : Nat × Nat × Nat := (2, key, mat * 576 + bit)

/-- Records an error found, and the repairs that are due after it; one that a scrub without REPAIR finds starts none, and those that a
scrub starts are its own (R310, R311). -/
def noteFind (s : State) (key : Nat) (f : Find) (run : Option ScrubRun) : State :=
  let l := findsOf s key ++ [f]
  let s := { s with ecc := { s.ecc with finds := tset [] s.ecc.finds key l } }
  let due := (if rowDue l f.mat f.row then [rowRepair key f.mat f.row] else []) ++
    (if key < 2048 ∧ colDue l f.mat f.bit then [colRepair key f.mat f.bit] else [])
  let new := due.filter (fun r => !s.ecc.owed.contains r)
  match run with
  | none => { s with ecc := { s.ecc with owed := s.ecc.owed ++ new } }
  | some r =>
    if !nbit r.req.flags 0 then s
    else { s with
      ecc := { s.ecc with owed := s.ecc.owed ++ new },
      llc := { s.llc with scrubs := s.llc.scrubs.map (fun q => if q.task = r.task ∧ q.id = r.id then { q with owed := q.owed ++ new } else q) } }

/-- Writes the poison pattern into 16-byte words: zero data, marked (R295, R301). -/
def poisonBytes (s : State) (a n : Nat) : State :=
  { s with mem := clearBytes s.mem (16 * (a / 16)) (16 * ((a + n - 1) / 16) + 16 - 16 * (a / 16)),
           poison := (wordsOf a n).foldl (fun p w => insNat w p) s.poison }

/-- Poison in SRAM; under a clean line the HBM copy stays good (R301). -/
def poisonSram (s : State) (a n : Nat) : State :=
  let ws := (wordsOf a n).filter (fun w => !isPoisoned s.poison (16 * w) 16)
  poisonBytes (modLine s (lineOf a) (fun l => if l.dirty then l else
    { l with saved := l.saved ++ ws.map (fun w => (w, readBytes s.mem (16 * w) 16)) })) a n

/-- Whether the HBM copy of a sector is poisoned: that of a held line, by what the line knows of it. -/
def hbmPoisoned (s : State) (x : Nat) : Bool :=
  match lineAt s (x / 128) with
  | none => isPoisoned s.poison x 64
  | some l => !l.dirty && (l.under.contains x || (wordsOf x 64).any (fun w => s.poison.contains w && !l.saved.any (fun p => p.1 == w)))

/-- Poison in the HBM copy of a sector; under a clean line of the LLC the line's own copy stays good, and under a dirty one the
write-back replaces it (R301, R309). -/
def poisonHbm (s : State) (x : Nat) : State :=
  match lineAt s (x / 128) with
  | none => poisonBytes s x 64
  | some l => if l.dirty then s else modLine s (x / 128) (fun l => { l with under := insNat x l.under })

/-- The word that an SRAM read of `n` bytes at `a` meets a flaw in, and whether it cannot be corrected: LIGHT corrects nothing (R294). A word
with an open merge entry is read as well (R307); one already poisoned is not counted again. -/
def sramHit (s : State) (a n : Nat) : Flaw → Option (Nat × Bool)
  | .word w _ bad =>
    let x := 128 * lineOf a + 16 * w
    let read := decide (x < a + n ∧ a < x + 16) || s.llc.merges.any (fun e => e.word == x / 16)
    if read && !isPoisoned s.poison x 16 then some (x, bad || codeOf s x == codeLight) else none
  | _ => none

/-- One flaw of an SRAM read (R293, R300, R301): a corrected word is rewritten later, an uncorrectable one is poisoned; a tag is corrected
in place, or its line is treated as poisoned. The read of an open merge entry is a read-modify-write. -/
def sramFlaw (source : Nat) (run : Option ScrubRun) (a n : Nat) (s : State) (e : Flaw) : State :=
  let line := lineOf a
  let u := halfUnit s a
  match e with
  | .onDie => s
  | .tag bad =>
    if (lineAt s line).isNone then s
    else if !bad then noteCe s u (128 * line)
    else countUe (poisonSram s (128 * line) 128) u (128 * line) 3 source
  | .word _ cell _ => match sramHit s a n e with
    | none => s
    | some (x, unc) =>
      let code := codeOf s x
      let s := noteFind s (bankOf s x) ⟨cell.mat, cell.row, cell.bit, s.clk.tick, unc, code == codeLight⟩ run
      if unc then countUe (poisonSram s x 16) u x code (if s.llc.merges.any (fun e => e.word == x / 16) then 2 else source)
      else
        let s := logCe s u x
        { s with llc := { s.llc with rewrites := insNat x s.llc.rewrites } }

/-- What a read of `n` bytes of one line at its SRAM finds. -/
def sramRead (s : State) (a n : Nat) (e : EccRes) (source : Nat) : State := e.foldl (sramFlaw source none (addrLow a) n) s

/-- The 64-byte sector that an HBM read of `n` bytes at `a` meets a flaw in, and whether it cannot be corrected. -/
def hbmHit (s : State) (a n : Nat) : Flaw → Option (Nat × Bool)
  | .word w _ bad =>
    let x := 64 * ((128 * lineOf a + 16 * w) / 64)
    if x < a + n ∧ a < x + 64 ∧ ¬ hbmPoisoned s x then some (x, bad || codeOf s x == codeLight) else none
  | _ => none

/-- One flaw of an HBM read (R294, R300, R301). -/
def hbmFlaw (source : Nat) (run : Option ScrubRun) (a n : Nat) (s : State) (e : Flaw) : State :=
  let k := (stackOf s a).1
  match e with
  | .onDie => noteCe s (4 + k) (64 * (a / 64))
  | .tag _ => s
  | .word _ cell _ => match hbmHit s a n e with
    | none => s
    | some (x, unc) =>
      let code := codeOf s x
      let s := noteFind s (2048 + k) ⟨0, x / 4096, cell.bit, s.clk.tick, unc, code == codeLight⟩ run
      if unc then countUe (poisonHbm s x) (4 + k) x code source
      else
        let s := noteCe s (4 + k) x
        { s with llc := { s.llc with rewrites := insNat x s.llc.rewrites } }

/-- What a read of `n` bytes of one line at its HBM stack finds. -/
def hbmRead (s : State) (a n : Nat) (e : EccRes) : State := e.foldl (hbmFlaw 0 none (addrLow a) n) s

/-- One flaw of a read of a local store (R293): its code is fixed, a word is corrected or poisoned. -/
def storeFlaw (c lo n : Nat) (s : State) (e : Flaw) : State :=
  match e with
  | .word w _ bad =>
    let x := 128 * lineOf lo + 16 * w
    if lo + n ≤ x ∨ x + 16 ≤ lo ∨ isPoisoned s.poison x 16 then s
    else if bad then countUe (poisonBytes s x 16) (coreUnit c) x 3 0 else noteCe s (coreUnit c) x
  | .tag bad => if bad then s else noteCe s (coreUnit c) lo
  | .onDie => s

/-- What the array reads of a core's engines find, each at an address of its own local store or of this module's memory. -/
def findErrs (c : Nat) (s : State) (errs : List (Nat × Flaw)) : State :=
  errs.foldl (fun s (a, e) =>
    let l := 128 * (a / 128)
    if lsAddr c ≤ a ∧ a < lsAddr c + lsBytes then storeFlaw c l 128 s e
    else if (homeAt s a).isNone then s
    else if linePresent s a then sramFlaw 0 none l 128 s e
    else hbmFlaw 0 none l 128 s e) s

/-! ## Merge buffers (R306, R307) -/

/-- The half and group of the merge buffer of an address. -/
def mergePlace (s : State) (a : Nat) : Nat × Nat := match homeAt s (addrLow a) with
  | some h => (h.half, h.bank / 8)
  | none => (0, 0)

/-- Opens or extends the entry of one word with the bytes `o` to `o + n − 1`; a full mask writes the word whole and clears
its poison, and a ninth word sends the oldest entry to the array by a read that finds `ecc` (R301, R307). -/
def mergeWord (ecc : EccRes) (s : State) (w o n : Nat) : State :=
  let (h, g) := mergePlace s (16 * w)
  let old := ((s.llc.merges.find? (fun e => e.word == w)).map (·.mask)).getD 0
  let mask := old ||| ((2 ^ n - 1) * 2 ^ o)
  let rest := s.llc.merges.filter (fun e => e.word != w)
  if mask = 0xFFFF then
    { s with poison := s.poison.filter (· != w), llc := { s.llc with merges := rest } }
  else if old ≠ 0 then
    { s with llc := { s.llc with merges := s.llc.merges.map (fun e => if e.word = w then { e with mask := mask } else e) } }
  else
    let mine := rest.filter (fun e => e.half == h && e.group == g)
    let (s, rest) := if mine.length < 8 then (s, rest) else match mine.head? with
      | none => (s, rest)
      | some e => (sramRead s (16 * e.word) 16 ecc 2, rest.erase e)
    { s with llc := { s.llc with merges := rest ++ [⟨h, g, w, mask⟩] } }

/-- Closes the entries of a line: it is read, or leaves (R307). -/
def mergeClose (s : State) (line : Nat) : State :=
  { s with llc := { s.llc with merges := s.llc.merges.filter (fun e => e.word / 8 != line) } }

/-- Closes the entry of a word that a whole write covers. -/
def mergeCover (s : State) (w : Nat) : State :=
  { s with llc := { s.llc with merges := s.llc.merges.filter (fun e => e.word != w) } }

/-- A read at a home: what it finds, then the line's merge entries are closed (R300, R301, R307). -/
def readWord (s : State) (a n : Nat) (e : EccRes) (source : Nat) : State := mergeClose (sramRead s a n e source) (lineOf a)

/-- A write or a write-back cancels the rewrites that wait: of the whole line toward HBM, of the words in the resident window (R300). -/
def cancelRewrites (s : State) (a n : Nat) : State :=
  { s with llc := { s.llc with rewrites := s.llc.rewrites.filter (fun r =>
      if isHbm a then r / 128 != lineOf a else decide (r + 16 ≤ a ∨ a + n ≤ r)) } }

/-- What every write of a line at its home leaves: dirty, nothing kept of an older HBM copy, no rewrite (R235, R300). -/
def touchLine (s : State) (a n : Nat) : State :=
  modLine (cancelRewrites s (addrLow a) n) (lineOf a) (fun l => { l with dirty := true, saved := [], under := [] })

/-! ## Lines (R235, R246 to R252) -/

/-- Whether a line has queued reduction entries (R251). -/
def redBusy (s : State) (line : Nat) : Bool := s.llc.reds.any (fun e => lineOf e.addr == line)

/-- Entries in the reduction queue of a bank. -/
def redCount (s : State) (h b : Nat) : Nat :=
  (s.llc.reds.filter (fun e => match homeAt s e.addr with
    | some m => m.half == h && m.bank == b
    | none => false)).length

/-- Whether a fill waits on the set of a home (R252). -/
def fillWaits (s : State) (m : Home) : Bool :=
  s.llc.fills.any (fun l => homeAt s (128 * l) == some m)

/-- Whether a pin of an unpinned line is within the set's limit and the class's budget (R246, R247). -/
def pinAllowed (s : State) (m : Home) (cls : Nat) : Bool :=
  decide (((setLines s m).filter (fun p => p.2.pin.isSome)).length < pinLimit s m.half m.bank) &&
  decide (pinnedBy s m.half cls < s.regField (rPinbud cls) 13 0 * 512)

/-- Writes a line back to HBM: poison takes its whole 64-byte sectors; a clean line leaves the HBM copy as it is (R301, R309). The reads
that this takes find `ecc` (R307). -/
def leaveLine (ecc : EccRes) (s : State) (line : Nat) : State :=
  match lineAt s line with
  | none => s
  | some _ =>
    let s := readWord s (128 * line) 128 ecc 0
    let l := (lineAt s line).getD Line.fresh
    let s := if l.dirty then
        [0, 64].foldl (fun s o =>
          if isPoisoned s.poison (128 * line + o) 64 then poisonBytes s (128 * line + o) 64 else s) (cancelRewrites s (128 * line) 128)
      else l.under.foldl (fun s a => poisonBytes s a 64) (l.saved.foldl (fun s (w, bs) => storeBytes s (16 * w) bs) s)
    refreshHstat { s with llc := { s.llc with lines := s.llc.lines.filter (fun p => p.1 != line) } }

/-- Room for one more line in a set (R235, R252): a victim leaves when the set is full, any line that is neither pinned nor
reduction-busy (which one is a free choice, log 6); none when there is no such line. -/
def makeRoom (ecc : EccRes) (s : State) (m : Home) : Option State :=
  let same := setLines s m
  let free := same.filter (fun p => p.2.pin.isNone && !redBusy s p.1)
  if same.length < llcWays s m.half m.bank then some s
  else match free[(Config.freeByte s.fresh).toNat % free.length]? with
    | none => none
    | some v => some { leaveLine ecc s v.1 with fresh := s.fresh + 1 }

/-- A line takes its place in its set, pinned where a placement entry has the PIN attribute (R246, R247). -/
def placeLine (s : State) (m : Home) (line : Nat) : State :=
  let pl := (governing s (128 * line)).filter (fun p => p.pin)
  let pin := pl.bind (fun p => if pinAllowed s m p.cls then some p.cls else none)
  let s := countEvent s 2 m.half 0x84 (if pin.isSome then 1 else 0) ⟨pin, none, none, none, some (128 * line)⟩
  refreshHstat { s with llc := { s.llc with
    fills := s.llc.fills.filter (· != line),
    lines := tins line { Line.fresh with pin := pin, byPlace := pin.isSome } (s.llc.lines.filter (fun p => p.1 != line)) } }

/-! ## In-cache reduction (R250, R302, R303) -/

/-- Applies the elements of an entry one after another; an element whose word is poisoned stays so. The answer tells whether
one was poisoned and whether a WIDE sum left the window (R89, R94). -/
def applyRed (e : RedEntry) : Nat → Nat → State × Bool × Bool → State × Bool × Bool
  | 0, _, acc => acc
  | n + 1, i, (s, p, w) =>
    let k := elemSize e.oper
    let a := e.addr + k * i
    if isPoisoned s.poison a k then applyRed e n (i + 1) (s, true, w)
    else
      let (bs, o) := redElem e.oper e.etype (readBytes s.mem a k) ((e.data.drop (k * i)).take k)
      applyRed e n (i + 1) (s.setBytes a bs, p, w || o)

/-! ## Lines in host bias (R328, R329) -/

/-- Whether a local address lies in a granule of host bias (R328). -/
def hostBias (s : State) (lo : Nat) : Bool := s.host.bias.contains (lo / mib2)

/-- Whether the module may read a line: in device bias, or obtained from the host. -/
def hostGrants (s : State) (line : Nat) : Bool := !hostBias s (128 * line) || s.host.held.any (fun h => h.1 == line)

/-- Asks the host for a line that a scrub or a rebuild reads (R328, R329), once. -/
def askHost (s : State) (line : Nat) : State :=
  if s.host.waits.any (fun w => w.line == line && w.msg.isNone) then s
  else
    let asked := s.host.waits.any (fun w => w.line == line)
    let s := { s with host := { s.host with waits := s.host.waits ++ [⟨line, false, 0, none⟩] } }
    if asked then s else s.emit (.cache line false)

/-- Returns a host-bias line to the host once no access of it is left (R328). -/
def giveBack (s : State) (line : Nat) : State :=
  if s.host.held.any (fun p => p.1 == line) ∧ ¬ redBusy s line ∧ ¬ s.host.waits.any (fun w => w.line == line) then
    { s with host := { s.host with held := s.host.held.filter (fun p => p.1 != line) }, out := s.out ++ [.giveBack line] }
  else s

/-- A scrub's or a rebuild's access of a host-bias line is done. -/
def doneHost (s : State) (line : Nat) : State :=
  giveBack { s with host := { s.host with waits := s.host.waits.filter (fun w => !(w.line == line && w.msg.isNone)) } } line

/-! ## Entries take effect (R250, R251) -/

/-- One part of a REDUCE request has taken effect; the last one sends its acknowledgement, with poison and window exception as found
(R89, R250, R303, R474). -/
def redAnswer (s : State) (parent : Nat) (poison window : Bool) : State :=
  match s.llc.redReqs.find? (fun r => r.id == parent) with
  | none => s
  | some r =>
    let r' := { r with left := r.left - 1, poison := r.poison || poison, window := r.window || window }
    if r'.left = 0 then
      let s := { s with llc := { s.llc with redReqs := s.llc.redReqs.filter (fun q => q.id != r.id) } }
      match r.away with
      | none => s.modCore r.core (fun k => { k with acks := k.acks ++ [⟨r.group, r.thread, true, r'.poison, r'.window, r.addr⟩] })
      | some (m, tag, label) =>
        sendMsg s { newMsg s tACK label 0 m tag 0 .none with status := if r'.poison then 1 else 0 }
    else { s with llc := { s.llc with redReqs := s.llc.redReqs.map (fun q => if q.id = r.id then r' else q) } }

/-- An entry takes effect on its line (R250). -/
def entryEffect (s : State) (e : RedEntry) : State :=
  let s := mergeClose { s with llc := { s.llc with reds := s.llc.reds.erase e } } (lineOf e.addr)
  let (s, p, w) := applyRed e (e.data.length / elemSize e.oper) 0 (s, false, false)
  redAnswer (giveBack (touchLine s e.addr e.data.length) (lineOf e.addr)) e.parent p w

/-- The entries of a line of HBM take effect. -/
def drainHbm (s : State) (line : Nat) : State := (s.llc.reds.filter (fun e => lineOf e.addr == line)).foldl entryEffect s

/-! ## Writes at a home (R237, R243, R251, R302, R306) -/

/-- Fetches a line into the LLC for a write that finds it absent (R235, R306): where every line of the set is pinned or reduction-busy,
the first busy one drains (R252). -/
def installLine (s : State) (line : Nat) : State :=
  match homeAt s (128 * line) with
  | none => s
  | some m =>
    if (lineAt s line).isSome then s
    else match makeRoom [] s m with
      | some s => placeLine s m line
      | none => match (setLines s m).find? (fun p => p.2.pin.isNone) with
        | none => s
        | some v => match makeRoom [] (drainHbm s v.1) m with
          | some s => placeLine s m line
          | none => s

/-- Bytes written within one line: data at once; whole words clear poison, others go through the merge buffer. -/
def putBytes (ecc : EccRes) (s : State) (a : Nat) (bs : List Nat) : State :=
  let s := (wordsOf a bs.length).foldl (fun s w =>
    let lo := max a (16 * w)
    let hi := min (a + bs.length) (16 * w + 16)
    if hi - lo = 16 then mergeCover s w else mergeWord ecc s w (lo - 16 * w) (hi - lo)) (storeBytes s a bs)
  touchLine s a bs.length

/-- A write within one line at its home, after the entries queued for it (R251); a line of HBM that is absent is allocated, but for a
whole line written without `alloc` (R235, R306). -/
def putLine (ecc : EccRes) (alloc : Bool) (s : State) (p : Nat × List Nat) : State :=
  let s := drainHbm s (lineOf p.1)
  putBytes ecc (if linePresent s p.1 ∨ (!alloc ∧ p.2.length = 128) then s else installLine s (lineOf p.1)) p.1 p.2

/-- Bytes from an address, cut at the ends of lines. -/
def lineRuns (a : Nat) (bs : List Nat) : List (Nat × List Nat) :=
  (List.range ((a % 128 + bs.length + 127) / 128)).map (fun j =>
    let lo := max a (128 * (a / 128 + j))
    (lo, (bs.drop (lo - a)).take (128 * (a / 128 + j + 1) - lo)))

/-- Where the source of a resident address lies (R237). -/
def sourceAt (s : State) (a : Nat) : Option Nat :=
  match resSlot a with
  | none => none
  | some _ => match tget 0 s.llc.sources ((a - resBase) / mib2) with
    | 0 => none
    | src + 1 => some (src + (a - resBase) % mib2)

/-- A write to a granule with a source is also written to its source line (R237). -/
def putSource (s : State) (a : Nat) (bs : List Nat) : State :=
  match sourceAt s a with
  | none => s
  | some d => (lineRuns d bs).foldl (putLine [] true) s

/-- An entry takes effect, on a source as well (R237, R250): elements that stay poisoned are not written. -/
def applyEntry (s : State) (e : RedEntry) : State :=
  let k := elemSize e.oper
  let s := match s.llc.redReqs.find? (fun r => r.id == e.parent) with
    | some r => if r.away.isNone then meterSource s r.core (e.addr + s.modId * 2 ^ 48) e.data.length else s
    | none => s
  let s := entryEffect s e
  if (sourceAt s e.addr).isNone then s
  else (List.range (e.data.length / k)).foldl (fun s i =>
    if isPoisoned s.poison (e.addr + k * i) k then s else putSource s (e.addr + k * i) (readBytes s.mem (e.addr + k * i) k)) s

/-- Entries of a line take effect before a later access of it (R251). -/
def drainLine (s : State) (line : Nat) : State := (s.llc.reds.filter (fun e => lineOf e.addr == line)).foldl applyEntry s

/-- A write at the home, line by line. -/
def homeWriteBy (ecc : EccRes) (alloc : Bool) (s : State) (a : Nat) (bs : List Nat) : State :=
  (lineRuns (addrLow a) bs).foldl (fun s p => putSource (putLine ecc alloc (drainLine s (lineOf p.1)) p) p.1 p.2) s

def homeWrite (s : State) (a : Nat) (bs : List Nat) : State := homeWriteBy [] true s a bs

/-- Writes whole operands that a read has found without poison: an atomic's, or a lock word (R158, R235, R237). -/
def homeUpdate (s : State) (a : Nat) (bs : List Nat) : State :=
  let s := if linePresent s a then s else installLine s (lineOf a)
  putSource (touchLine (s.setBytes a bs) a bs.length) (addrLow a) bs

/-- Poison written within one line at its home (R295, R333): the words that the write covers, and those of a source (R237). -/
def homePoisoned (s : State) (a n : Nat) : State :=
  let put := fun (s : State) (a : Nat) =>
    let s := mergeClose (if linePresent s a then s else installLine s (lineOf a)) (lineOf a)
    touchLine (poisonBytes s a n) a n
  let s := put (drainLine s (lineOf a)) a
  match sourceAt s a with
  | none => s
  | some d => put (drainHbm s (lineOf d)) d

/-- A write by a core's task: the second write to a source counts in its HBM meter (R237). -/
def taskWrite (s : State) (c a : Nat) (bs : List Nat) : State := homeWrite (meterSource s c a bs.length) a bs

/-- Writes a lock word at its home. -/
def writeLock (s : State) (a v : Nat) : State := homeUpdate s (addrLow a) (natLe 8 v)

/-- A line leaves its LLC after the entries queued for it have taken effect (R251). -/
def evictLine (s : State) (line : Nat) : State := leaveLine [] (drainLine s line) line

end Sys2Proof.Machine
end

