-- ==== Sys2Proof/Machine/Queue.lean ====
section
/-! DEFINITION. Queues: contexts, doorbells, completion entries, the spill area (R341 to R349, R355 to R359, R377). -/

namespace Sys2Proof.Machine

/-! ## Queue contexts (R341, R342) -/

/-- DPA of a queue's context. -/
def ctxAddr (q : Nat) : Nat := 0x004000000000 + 64 * q

/-- Bytes `o` to `o + n − 1` of a queue context, and their change. -/
def State.qf (s : State) (q o n : Nat) : Nat := leNat (readBytes s.mem (ctxAddr q + o) n)
def State.setQf (s : State) (q o n v : Nat) : State := { s with mem := writeBytes s.mem (ctxAddr q + o) (natLe n v) }

def qSqBase (s : State) (q : Nat) : Nat := s.qf q 0 8
def qCqBase (s : State) (q : Nat) : Nat := s.qf q 8 8
def qSqSize (s : State) (q : Nat) : Nat := 2 ^ s.qf q 16 1
def qCqSize (s : State) (q : Nat) : Nat := 2 ^ s.qf q 17 1
def qFlag (s : State) (q i : Nat) : Bool := nbit (s.qf q 18 1) i
def qState (s : State) (q : Nat) : Nat := s.qf q 19 1
def qHead (s : State) (q : Nat) : Nat := s.qf q 28 4
def qTail (s : State) (q : Nat) : Nat := s.qf q 32 4
def qCqTail (s : State) (q : Nat) : Nat := s.qf q 36 4
def qCqHead (s : State) (q : Nat) : Nat := s.qf q 40 4
def qInflight (s : State) (q : Nat) : Nat := s.qf q 48 4
def qSpilled (s : State) (q : Nat) : Nat := s.qf q 52 4

/-- ADM_QSTAT of a queue. -/
def qstat (s : State) (q : Nat) : Nat := qState s q % 4 + 4 * (qHead s q % 2 ^ 20) + 2 ^ 22 * (s.qf q 26 1)

/-- Uses a queue's context: it stands in the queue cache, in place of the one of its 4,096 that has not been used for longest (R341; the
order is a DESIGN CHOICE, log 72). -/
def useQueue (s : State) (q : Nat) : State :=
  { s with adm := { s.adm with cached := (q :: s.adm.cached.filter (· != q)).take 4096 } }

/-! ## Completion entries (R355, R358, R377) -/

def spillBase : Nat := 0x004004000000
def spillReserved : Nat := 65536
def spillRefused : Nat := 16384

/-- The lowest free slot of an entry's part of the spill area (DESIGN CHOICE, log 21). -/
def spillSlot (s : State) (e : Entry) : Option Nat :=
  let used := s.adm.spill.map (·.1)
  let part := if e.refusal then (List.range spillRefused).map (· + spillReserved) else List.range spillReserved
  part.find? (fun i => !used.contains i)

/-- Puts an entry into the spill area; a refusal that finds its part full puts the queue in ERROR (R358). -/
def spillEntry (s : State) (e : Entry) : State :=
  match spillSlot s e with
  | none => (s.setQf e.queue 19 1 2).setQf e.queue 26 1 5
  | some i =>
    let s := { s with mem := writeBytes s.mem (spillBase + 32 * i) e.bytes, adm := { s.adm with spill := s.adm.spill ++ [(i, e)] } }
    s.setQf e.queue 52 4 (qSpilled s e.queue + 1)

/-- The bytes of an entry as they are written to the ring: PHASE, and SPILLED when they come from the spill area. -/
def ringBytes (bs : List Nat) (phase : Nat) (spilled : Bool) : List Nat :=
  bs.set 10 (bs.getD 10 0 / 2 * 2 + phase % 2 + (if spilled ∧ ¬ nbit (bs.getD 10 0) 3 then 8 else 0))

/-- Whether this module's host rings lie behind the lead (R490): a member other than the lead. -/
def viaLead (s : State) : Bool := s.modId != 0 && s.lup.members.contains 0

/-- A write to host memory, and an MSI-X message: the module's own, or by way of the lead (R490). -/
def hostPut (s : State) (a : Nat) (bs : List Nat) : State :=
  if viaLead s then
    let (tag, s) := takeTag s 0
    sendMsg s (newMsg s tHOSTWR 15 (Nat.log2 bs.length) 0 tag a (.data bs))
  else s.emit (.hostWrite a bs)

def queueMsix (s : State) (v : Nat) : State :=
  if viaLead s then
    let (tag, s) := takeTag s 0
    sendMsg s (newMsg s tMSIX 15 0 0 tag 0 (.word v))
  else sendMsix s v

/-- Writes an entry at CQ_TAIL, then sends the queue's message (R332, R358). -/
def ringEntry (s : State) (e : Entry) (spilled : Bool) : State :=
  let q := e.queue
  let a := qCqBase s q + 32 * qCqTail s q
  let bs := ringBytes e.bytes (s.qf q 44 1) spilled
  let s := if qFlag s q 1 then hostPut s a bs else homeWrite s a bs
  let t := (qCqTail s q + 1) % qCqSize s q
  let s := if t = 0 then s.setQf q 44 1 (1 - s.qf q 44 1 % 2) else s
  let s := s.setQf q 36 4 t
  if s.qf q 20 2 = 0 then s else queueMsix s (s.qf q 20 2)

def cqFull (s : State) (q : Nat) : Bool := (qCqTail s q + 1) % qCqSize s q == qCqHead s q

/-- A completion leaves the admission island: to the ring, to the spill area when the ring is full or older entries of the
queue are spilled, or it waits while the host link withholds credits (R358, R377). -/
def postEntry (s : State) (e : Entry) (stall : Bool) : State :=
  let s := useQueue s e.queue
  if (stall ∧ qFlag s e.queue 1) ∨ s.adm.stuck.any (fun x => x.queue == e.queue) then
    { s with adm := { s.adm with stuck := s.adm.stuck ++ [e] } }
  else if cqFull s e.queue ∨ qSpilled s e.queue ≠ 0 then spillEntry s e
  else ringEntry s e false

/-- Moves spilled entries of a queue to its ring, oldest first, while it has room (R358). -/
def drainSpill (q : Nat) : Nat → State → State
  | 0, s => s
  | n + 1, s =>
    match s.adm.spill.find? (fun p => p.2.queue == q) with
    | none => s
    | some (i, e) =>
      if cqFull s q then s
      else
        let s := { s with adm := { s.adm with spill := s.adm.spill.filter (fun p => p.1 != i) } }
        let s := s.setQf q 52 4 (qSpilled s q - 1)
        drainSpill q n (ringEntry s e true)

/-! ## Doorbells (R346 to R349) -/

/-- Whether admission decides doorbells (R349): from READY on until the next module reset, also while a tower is under reset
(R360). -/
def admOpen (s : State) : Bool := s.md.opened

/-- BAD_DOORBELL (R347): the log entry holds ADM_QSTAT after the event and the doorbell. -/
def badDoorbell (s : State) (q word : Nat) : State :=
  rasLog s { logEv 0x0604 unitModule 0 with queue := q, detail := natLe 4 (qstat s q) ++ natLe 8 word }

/-- A bad doorbell of an ENABLED queue puts it in ERROR; of another it changes nothing (R347). -/
def rejectDoorbell (s : State) (q word code : Nat) : State :=
  badDoorbell (if qState s q = 1 then (s.setQf q 19 1 2).setQf q 26 1 code else s) q word

/-- The error code of a submission doorbell, 0 for none (R347). -/
def doorbellError (s : State) (q word : Nat) : Nat :=
  let tail := nbits word 43 24
  let size := qSqSize s q
  let step := (tail + size - qTail s q) % size
  let und := (qTail s q + size - qHead s q) % size
  if nbits word 63 56 ≠ s.qf q 27 1 then 1
  else if size ≤ tail ∨ nbits word 23 20 ≠ 0 ∨ nbits word 55 44 ≠ 0 then 2
  else if step = 0 ∨ 32 < step ∨ size - 1 < und + step then 3
  else 0

/-- Size of a descriptor of the queue. -/
def descSize (s : State) (q : Nat) : Nat := if qFlag s q 2 then 32 else 64

/-- Asks the host, or the lead, for a descriptor of a ring in host memory (R335, R490). -/
def askDescriptor (s : State) (q i : Nat) : State :=
  let a := qSqBase s q + descSize s q * i
  if ¬ qFlag s q 0 then s
  else if viaLead s then
    let (tag, s) := takeTag s 0
    sendRequest { s with lup := { s.lup with asks := s.lup.asks ++ [(tag, q, i)] } }
      (newMsg s tHOSTRD 15 (Nat.log2 (descSize s q)) 0 tag a .none)
  else s.emit (.hostRead a (descSize s q))

/-- A submission doorbell at the admission island (R346 to R348). -/
def takeDoorbell (s : State) (word : Nat) : State :=
  let q := nbits word 19 0
  let s := useQueue s q
  if qState s q ≠ 1 then badDoorbell s q word
  else match doorbellError s q word with
  | 0 =>
    let tail := nbits word 43 24
    let size := qSqSize s q
    let old := qTail s q
    let step := (tail + size - old) % size
    if 64 < s.adm.und.length + step then { s with adm := { s.adm with backlog := s.adm.backlog ++ [word] } }
    else
      let s := (s.setQf q 32 4 tail).setQf q 27 1 ((s.qf q 27 1 + 1) % 256)
      (List.range step).foldl (fun s j =>
        let i := (old + j) % size
        askDescriptor { s with adm := { s.adm with und := s.adm.und ++ [⟨q, i, none⟩] } } q i) s
  | c => rejectDoorbell s q word c

/-- A host write dropped because the module is not ready (R336, R349; the code is a DESIGN CHOICE, log 22). -/
def dropDoorbell (s : State) (q : Nat) : State := rasLog s { logEv 0x0606 (unitOf 10 0) 0 with queue := q }

/-- A doorbell reaches the module. While doorbells wait for room (R348), a later one waits behind them. -/
def ringSq (s : State) (w : Nat) : State :=
  if !admOpen s then dropDoorbell s (nbits w 19 0)
  else if s.adm.backlog ≠ [] then { s with adm := { s.adm with backlog := s.adm.backlog ++ [w] } }
  else takeDoorbell s w

/-- DOORBELL (R346). -/
def execDoorbell (word : Word64) (s : State) : Outcome := .next (ringSq s word.toNat)

/-- A completion-head doorbell at the admission island (R347, R358). -/
def takeHead (s : State) (w : Nat) : State :=
  let q := nbits w 19 0
  let head := nbits w 43 24
  let size := qCqSize s q
  let s := useQueue s q
  if qState s q ≠ 1 then badDoorbell s q w
  else if size ≤ head ∨ nbits w 23 20 ≠ 0 ∨ nbits w 55 44 ≠ 0 then rejectDoorbell s q w 2
  else if nbits w 63 56 ≠ 0 ∨ (qCqTail s q + size - qCqHead s q) % size < (head + size - qCqHead s q) % size then
    rejectDoorbell s q w 4
  else drainSpill q size (s.setQf q 40 4 head)

/-- A completion-head doorbell reaches the module. -/
def ringCq (s : State) (w : Nat) : State := if admOpen s then takeHead s w else dropDoorbell s (nbits w 19 0)

/-- COMPLETION_HEAD_DOORBELL (R346, R358). -/
def execCompletionHeadDoorbell (word : Word64) (s : State) : Outcome := .next (ringCq s word.toNat)

/-- DESCRIPTOR_READ_COMPLETE (R348, R335): the oldest descriptor asked of the host gets its bytes; poison makes it unreadable. -/
def execDescriptorReadComplete (bytes : List Byte) (poison : Bool) (s : State) : Outcome :=
  .next (match s.adm.und.findIdx? (fun u => u.data.isNone && qFlag s u.queue 0) with
    | none => s
    | some i =>
      match s.adm.und[i]? with
      | none => s
      | some u =>
        let d := if poison ∨ bytes.length ≠ descSize s u.queue then none else some (bytes.map (·.toNat))
        { s with adm := { s.adm with und := s.adm.und.set i { u with data := some d } } })

/-- DESCRIPTOR_READ_TIMEOUT (R335): the oldest descriptor asked of the host cannot be read. -/
def execDescriptorReadTimeout (s : State) : Outcome :=
  .next (match s.adm.und.findIdx? (fun u => u.data.isNone && qFlag s u.queue 0) with
    | none => s
    | some i =>
      match s.adm.und[i]? with
      | none => s
      | some u => { s with adm := { s.adm with und := s.adm.und.set i { u with data := some none } } })

/-- COMPLETION_STALL_TIMEOUT (R377): the queue's oldest entry held by the host link goes to the spill area. -/
def execCompletionStallTimeout (queue : Fin 1048576) (s : State) : Outcome :=
  .next (match s.adm.stuck.find? (fun e => e.queue == queue.val) with
    | none => s
    | some e => spillEntry { s with adm := { s.adm with stuck := s.adm.stuck.erase e } } e)

/-- SPILL_MOVE (R377): the host link accepts posted writes again: held entries leave, spilled ones move to their rings. -/
def execSpillMove (s : State) : Outcome :=
  .next (let qs := (s.adm.spill.map (·.2.queue)).eraseDups
    let s := qs.foldl (fun s q => drainSpill q s.adm.spill.length s) s
    let held := s.adm.stuck
    held.foldl (fun s e => postEntry s e false) { s with adm := { s.adm with stuck := [] } })

end Sys2Proof.Machine
end

