-- ==== Sys2Proof/Machine/Scrub.lean ====
section
/-! DEFINITION. Scrub requests, scrubbing line by line and its summary (R308 to R310). A scrub has one read at the homes at a time
(DESIGN CHOICE, log 30). -/

namespace Sys2Proof.Machine

def scrubReqOf (b : List Nat) : ScrubReq :=
  ⟨fieldLe b 0 8, fieldLe b 8 8, fieldLe b 16 1, fieldLe b 17 1, fieldLe b 18 6, fieldLe b 24 8⟩

/-- Whether a scrub range lies wholly in local HBM or in the local resident window, by 4 KiB (R308). -/
def scrubRange (s : State) (r : ScrubReq) : Bool :=
  let a := addrLow r.start
  r.start % 4096 == 0 && r.len % 4096 == 0 && decide (4096 ≤ r.len ∧ r.start < 2 ^ 54) && addrModule r.start == s.modId &&
  (inHbm a r.len || inBackedRes s a r.len)

/-- The 64 bytes of a summary (R310). -/
def scrubSummary (r : ScrubReq) (last corr unc seen rows cols first final status ticks : Nat) : List Nat :=
  natLe 8 r.start ++ natLe 8 last ++ natLe 8 corr ++ natLe 8 unc ++ natLe 4 (min seen 0xFFFFFFFF) ++ natLe 2 rows ++ natLe 2 cols ++
  natLe 8 first ++ natLe 8 final ++ [status, r.cls, 0, 0] ++ natLe 4 (min ticks 0xFFFFFFFF)

/-- All ones: no address. -/
def noAddr : Nat := 2 ^ 64 - 1

/-- A scrub that read nothing: its request is bad, or it stopped before it began (R309, R310). -/
def scrubEmpty (r : ScrubReq) (status ticks : Nat) : List Nat := scrubSummary r r.start 0 0 0 0 0 noAddr noAddr status ticks

/-! ## Runs (R309) -/

def scrubRun (s : State) (task : Bool) (id : Nat) : Option ScrubRun := s.llc.scrubs.find? (fun r => r.task == task && r.id == id)

def modRun (s : State) (task : Bool) (id : Nat) (f : ScrubRun → ScrubRun) : State :=
  { s with llc := { s.llc with scrubs := s.llc.scrubs.map (fun r => if r.task = task ∧ r.id = id then f r else r) } }

/-- Whether a request is a read of a scrub. -/
def Req.ofScrub (r : Req) : Bool := match r.kind with
  | .scrubRd _ _ _ => true
  | _ => false

def Req.ofRun (r : Req) (task : Bool) (id : Nat) : Bool := match r.kind with
  | .scrubRd t i _ => t == task && i == id
  | _ => false

/-- A scrub's read of a line joins the requests at the line's home (R309). -/
def scrubSend (s : State) (task : Bool) (id a : Nat) (hbm : Bool) : State :=
  { s with llc := { s.llc with nextReq := s.llc.nextReq + 1,
                               reqs := s.llc.reqs ++ [⟨s.llc.nextReq, 577, 0, 0, a, .scrubRd task id hbm⟩] } }

/-- A scrub begins: the HBM copy of its first line is read, or its resident line. -/
def scrubBegin (s : State) (task : Bool) (id : Nat) (r : ScrubReq) : State :=
  let run : ScrubRun := ⟨task, id, r, s.clk.tick, r.start, 0, 0, 0, 0, 0, noAddr, 0, [], false⟩
  let s := { s with llc := { s.llc with scrubs := s.llc.scrubs.filter (fun q => !(q.task == task && q.id == id)) ++ [run] } }
  scrubSend s task id r.start (isHbm r.start)

/-- A scrub ends early: what it has not read stays unread (R309). -/
def stopRun (s : State) (task : Bool) (id : Nat) : State :=
  let s := { s with llc := { s.llc with reqs := s.llc.reqs.filter (fun r => !r.ofRun task id) } }
  modRun s task id (fun r => { r with atEnd := true })

/-- Runs whose range is no longer backed end early: LLC_RESCFG took its ways (R257; DESIGN CHOICE, log 30). -/
def stopUnbacked (s : State) : State :=
  (s.llc.scrubs.filter (fun r => !scrubRange s r.req)).foldl (fun s r => stopRun s r.task r.id) s

/-- Whether the tower of a line's home has retired: every read of it answers poison (R449). -/
def homeDark (s : State) (line : Nat) : Bool := (homeAt s (128 * line)).any (fun m => tget 0 s.pwr.dom (69 + 2 * (m.half / 2)) == 3)

/-- Words (of the LLC copy or a resident line) or sectors (of the HBM copy) of a line that are poisoned. -/
def badPlaces (s : State) (line : Nat) (hbm : Bool) : List Nat :=
  if hbm then [128 * line, 128 * line + 64].filter (fun x => homeDark s line || hbmPoisoned s x)
  else ((List.range 8).map (fun w => 128 * line + 16 * w)).filter (fun x => homeDark s line || isPoisoned s.poison x 16)

/-- One scrub read of a copy of a line (R300, R301, R309), with what it found: addresses corrected, poisoned now, and poisoned before. -/
def scrubRead (s : State) (run : ScrubRun) (line : Nat) (hbm : Bool) (e : EccRes) : State × List Nat × List Nat × List Nat :=
  let a := 128 * line
  let seen := badPlaces s line hbm
  let p := e.foldl (fun (p : State × List Nat) f =>
    let hit := if hbm then hbmHit p.1 a 128 f else sramHit p.1 a 128 f
    ((if hbm then hbmFlaw 1 (some run) a 128 p.1 f else sramFlaw 1 (some run) a 128 p.1 f),
     match hit with
     | some (x, false) => p.2 ++ [x]
     | _ => p.2)) (s, [])
  let s := if hbm then p.1 else mergeClose p.1 line
  (s, p.2, (badPlaces s line hbm).filter (fun x => !seen.contains x), seen)

/-- A scrub's read is served (R309): the LLC copy follows the HBM copy where the line is held, then the next line. -/
def scrubServe (s : State) (a : Nat) (task : Bool) (id : Nat) (hbm : Bool) (e : EccRes) : State :=
  match scrubRun s task id with
  | none => s
  | some run =>
    let line := lineOf a
    let (s, corr, unc, seen) := scrubRead s run line hbm e
    let base := a - addrLow a
    let errs := (corr ++ unc ++ seen).map (base + ·)
    let held := hbm && (lineAt s line).isSome
    let next := if held then run.next else run.next + 128
    let atEnd := decide (run.req.start + run.req.len ≤ next)
    let s := modRun (doneHost s line) task id (fun r => { r with
      next := next, corr := r.corr + corr.length, unc := r.unc + unc.length, seen := r.seen + seen.length,
      first := errs.foldl min r.first, last := errs.foldl max r.last, atEnd := atEnd })
    if held then scrubSend s task id a false else if atEnd then s else scrubSend s task id next (isHbm next)

/-- The summary of a run that is over: STATUS 0 when the whole range was read, else 1 (R310). -/
def runSummary (s : State) (r : ScrubRun) : List Nat :=
  scrubSummary r.req r.next r.corr r.unc r.seen (min r.rows 0xFFFF) (min r.cols 0xFFFF) r.first
    (if r.first = noAddr then noAddr else r.last) (if r.next < r.req.start + r.req.len then 1 else 0) (s.clk.tick - r.began)

/-- Takes a run out, with its summary; a scrub that never ran carries STATUS 1. -/
def endRun (s : State) (task : Bool) (id : Nat) (r : ScrubReq) : State × List Nat :=
  let s := stopRun s task id
  match scrubRun s task id with
  | none => (s, scrubEmpty r 1 0)
  | some run => ({ s with llc := { s.llc with scrubs := s.llc.scrubs.filter (fun q => !(q.task == task && q.id == id)) } }, runSummary s run)

/-- A repair is no longer owed, and the errors that asked for it are done with (R311). -/
def dropOwed (s : State) (r : Nat × Nat × Nat) (key : Nat) (gone : Find → Bool) : State :=
  { s with ecc := { s.ecc with
    owed := s.ecc.owed.filter (· != r), finds := tset [] s.ecc.finds key ((findsOf s key).filter (fun f => !gone f)) } }

/-- A repair is made: a scrub under way that asked for it counts it (R310). -/
def repairMade (s : State) (r : Nat × Nat × Nat) (key : Nat) (gone : Find → Bool) : State :=
  let s := dropOwed s r key gone
  { s with llc := { s.llc with scrubs := s.llc.scrubs.map (fun q =>
      if q.atEnd ∨ ¬ q.owed.contains r then q
      else if r.1 = 2 then { q with cols := q.cols + 1 } else { q with rows := q.rows + 1 }) } }

/-! ## The built-in image (R308) -/

/-- Whether the summary of the built-in image can be written: 64-byte aligned, within a window with WRITE right (R308). -/
def summaryOk (s : State) (t : Task) (a : Nat) : Bool :=
  a % 64 == 0 && decide (a < 2 ^ 54) && (match s.context t.context with
    | none => false
    | some c => c.windows.any (fun w => decide (w.size ≠ 0 ∧ w.base ≤ a ∧ a + 64 ≤ w.base + w.size) && nbit w.rights 1))

/-- Writes a summary at its home, in this module or over the links; a line that is fetched for it is read, and the read finds `ecc`. -/
def putSummary (s : State) (t : Task) (a : Nat) (b : List Nat) (ecc : EccRes) : State :=
  if !summaryOk s t a then s
  else if addrModule a = s.modId then homeWrite (if linePresent s a then s else hbmRead s (128 * lineOf a) 128 ecc) a b
  else
    let (tag, s) := takeTag s (addrModule a)
    sendMsg s (newMsg s tWR t.cls 6 (addrModule a) tag a (.data b))

def isScrub (t : Task) : Bool := t.program == Config.scrubHandle.toNat
def taskReq (s : State) (t : Task) : ScrubReq := scrubReqOf (readBytes s.mem (addrLow t.args) 32)

/-- Whether a task's request breaks no rule of R308. -/
def taskReqOk (s : State) (t : Task) : Bool :=
  let r := taskReq s t
  scrubRange s r && decide (r.len ≤ mib64 ∧ r.cls < 16 ∧ r.flags < 2 ∧ r.resv = 0) && summaryOk s t r.summary

/-- The built-in scrub image starts: the request lies at ARGS; a bad one is not scrubbed. -/
def scrubLaunch (s : State) (id : Nat) (t : Task) : State :=
  if isScrub t ∧ taskReqOk s t then scrubBegin s true id (taskReq s t) else s

/-- Whether a task's scrub still reads. -/
def scrubBusy (s : State) (id : Nat) : Bool := (scrubRun s true id).any (fun r => !r.atEnd)

/-- The built-in image at the end of its task (R308 to R310): the summary of its run; a bad request carries STATUS 2. -/
def scrubTask (s : State) (id : Nat) (t : Task) (ecc : EccRes) : State :=
  if !isScrub t then s
  else match scrubRun s true id with
    | some run =>
      let (s, b) := endRun s true id run.req
      putSummary s t run.req.summary b ecc
    | none => putSummary s t (taskReq s t).summary (scrubEmpty (taskReq s t) (if taskReqOk s t then 1 else 2) 0) ecc

end Sys2Proof.Machine
end

