-- ==== Sys2Proof/Machine/Llc.lean ====
section
/-! DEFINITION. The homes of lines: requests served in order, fills, pinning, locks and atomics at the home (R126 to R128, R235 to R252),
rewrites, rebuilds and spares (R300, R305, R311 to R316). -/

namespace Sys2Proof.Machine

/-! ## Serving a request (R243, R250, R251) -/

/-- Sends a response on its way to the requesting core. -/
def respond (s : State) (r : Req) (f : Resp → Resp) : State :=
  s.modCore r.core (fun k => { k with resps := k.resps ++
    [f ⟨r.id, r.group, r.thread, r.addr, 0, 0, 0, 0, false, false, none, []⟩] })

/-- Whether a request may be served now (R251, R252): a line that is reduction-busy lets only further entries join, a bank
queue holds 48 entries, and a fill that waits on the set holds entries back. A scrub reads the line in place, once the host has given a
line in host bias (R309, R328). -/
def reqReady (s : State) (r : Req) : Bool :=
  match homeOf s r.addr with
  | none => true
  | some m => match r.kind with
    | .reduce _ _ _ _ => decide (redCount s m.half m.bank < 48) && (!fillWaits s m || !linePresent s r.addr)
    | .scrubRd _ _ _ => hostGrants s (lineOf r.addr) || !s.host.waits.any (fun w => w.line == lineOf r.addr && w.msg.isNone)
    | _ => !redBusy s (lineOf r.addr)

/-- The first request that a half serves: none overtakes an earlier one of its line (R243). -/
def nextReqOf (s : State) (h : Nat) : List Req → List Nat → Option Req
  | [], _ => none
  | r :: rs, seen =>
    if (homeOf s r.addr).map (·.half) = some h ∧ ¬ seen.contains (lineOf r.addr) ∧ reqReady s r ∧
        ¬ s.llc.fills.contains (lineOf r.addr) then some r
    else nextReqOf s h rs (lineOf r.addr :: seen)

/-- Bytes of a line at its home. -/
def lineBytes (s : State) (a : Nat) : List Nat := readBytes s.mem (128 * lineOf a) 128

/-- A load at the home. -/
def serveLoad (s : State) (r : Req) (n : Nat) (signed uni alloc : Bool) (dst : Nat) : State :=
  let lo := addrLow r.addr
  let p := firstPoison s.poison lo n
  respond s r (fun x => { x with
    size := n, value := extendVal n signed (leNat (readBytes s.mem lo n)), dst := dst,
    words := sizeWords n, uni := uni, poison := p.isSome, addr := match p with | some q => r.addr + q - lo | none => r.addr,
    fill := if alloc ∧ p.isNone ∧ ¬ isPoisoned s.poison (128 * lineOf r.addr) 128 then
      ownStores s r.core (r.addr / 128) (lineBytes s r.addr) else [] })

/-- An atomic at the home: the old value returns and is logged for replay; L1 loses the line (R158, R159, R456). -/
def serveAtom (s : State) (r : Req) (op n : Nat) (uni : Bool) (dst operand cmp : Nat) : State :=
  let lo := addrLow r.addr
  if isPoisoned s.poison lo n then respond s r (fun x => { x with poison := true })
  else
    let old := leNat (readBytes s.mem lo n)
    let s := homeUpdate (meterSource s r.core r.addr n) lo (natLe n (atomOp op n old operand cmp))
    let s := s.modCore r.core (fun k => l1Drop k (r.addr / 128))
    let s := s.modCore r.core (fun k =>
      if k.atomLog.length ≤ 256 then { k with atomLog := k.atomLog ++ [⟨r.group, r.thread, old⟩] } else k)
    respond s r (fun x => { x with size := n, value := old, dst := dst, words := sizeWords n, uni := uni })

/-- Cores recorded as waiting for locks of a line (R128), with their module. -/
def waitCores (s : State) (line : Nat) : List (Nat × Nat) :=
  ((s.llc.waits.filter (fun w => lineOf w.addr == line)).map (fun w => (w.core, (w.away.map (·.1)).getD s.modId))).eraseDups

/-- An attempt at a global lock (R127, R128). -/
def serveAcq (s : State) (r : Req) (pdst : Nat) : State :=
  let lo := addrLow r.addr
  let v := s.word64 lo
  let w : LockWait := ⟨r.addr, r.core, r.group, r.thread, pdst, nbit v 1, none⟩
  if isPoisoned s.poison lo 8 then respond s r (fun x => { x with poison := true })
  else if !nbit v 0 then
    let s := writeLock (meterSource s r.core r.addr 8) lo (lockWord r.core r.group r.thread s.modId)
    { s with llc := { s.llc with wakes := s.llc.wakes ++ [w] } }
  else
    let cs := waitCores s (lineOf r.addr)
    if cs.contains (r.core, s.modId) ∨ cs.length < 4 then { s with llc := { s.llc with waits := s.llc.waits ++ [w] } }
    else { s with llc := { s.llc with unrecorded := s.llc.unrecorded ++ [w] } }

/-- Releases a global lock: it passes to the first recorded waiter, or the word is cleared (R128, R130). The answer tells
whether it was handed on. -/
def passLock (s : State) (a : Nat) (lost : Bool) : State × Bool :=
  match s.llc.waits.find? (fun w => w.addr == a) with
  | some w =>
    let s := writeLock s (addrLow a) (handedWord w.core w.group w.thread ((w.away.map (·.1)).getD s.modId) lost)
    let s := { s with llc := { s.llc with waits := s.llc.waits.erase w } }
    match w.away with
    | none => ({ s with llc := { s.llc with wakes := s.llc.wakes ++ [{ w with lost := lost }] } }, true)
    | some (m, tag, label) => (sendMsg s (newMsg s tATOMRESP label 0 m tag 0 (.value (if lost then 1 else 0) true)), true)
  | none => (writeLock s (addrLow a) (if lost then 2 else 0), false)

/-- The answer of one line to a PIN or UNPIN (R167): the last one writes the predicate. -/
def pinAnswer (s : State) (parent : Nat) (granted : Bool) : State :=
  match s.llc.pinReqs.find? (fun p => p.id == parent) with
  | none => s
  | some p =>
    let p' := { p with left := p.left - 1, ok := p.ok && granted }
    if p'.left = 0 then
      let s := { s with llc := { s.llc with pinReqs := s.llc.pinReqs.filter (fun q => q.id != parent) } }
      s.modCore p.core (fun k => { k with resps := k.resps ++
        [⟨parent, p.group, p.thread, 0, 0, 0, 0, 0, false, false, some (p.pdst, p'.ok), []⟩] })
    else { s with llc := { s.llc with pinReqs := s.llc.pinReqs.map (fun q => if q.id = parent then p' else q) } }

/-- One line of a PIN or UNPIN at its home (R167, R246 to R249, R521). -/
def servePin (s : State) (a : Nat) (unpin : Bool) (cls : Nat) (d : Dims) : State × Bool :=
  match isHbm a, homeOf s a, lineAt s (lineOf a) with
  | true, some m, some l =>
    if unpin then (refreshHstat (modLine s (lineOf a) (fun l => { l with pin := none, byPlace := false })), true)
    else if l.pin.isSome then (s, true)
    else if pinAllowed s m cls then
      (countEvent (refreshHstat (modLine s (lineOf a) (fun l => { l with pin := some cls }))) 2 m.half 0x84 1 d, true)
    else (countEvent s 2 m.half 0x85 1 d, false)
  | _, _, _ => (s, true)

/-- LOCK_NOT_OWNER that the home finds as it serves a release: the word stays as it is (R129, R158). A core stopped for its replay meets
nothing more (R451). -/
def notOwner (s : State) (r : Req) : State :=
  let (gr, _, _, pc) := takePend (grp (s.core r.core) r.group) r.thread r.id
  if replayHeld (s.core r.core) then s
  else
    let s := s.modGrp r.core r.group (fun _ => gr)
    raiseFault s r.core (threadRec s r.core r.group r.thread pc 0 ⟨cLOCK_NOT_OWNER, r.addr, 0⟩)

/-- A release at its home (R128 to R130): one with OWNER_LOST passes or clears the word whatever it holds. -/
def serveRel (s : State) (r : Req) (lost : Bool) : State :=
  if isPoisoned s.poison (addrLow r.addr) 8 then respond s r (fun x => { x with poison := true })
  else if !lost && !ownsWord s (s.word64 r.addr) r.core r.group r.thread then notOwner s r
  else settleBarriers (memDone (passLock (if lost then s else meterSource s r.core r.addr 8) r.addr lost).1 r.core r.group r.thread r.id) r.core

/-- A reduction entry joins a queue (R521): of a task of this module, or of another module with its label. -/
def countEntry (s : State) (r : Req) : State :=
  match homeOf s r.addr with
  | none => s
  | some m =>
    let label := (s.llc.redReqs.findSome? (fun q => if q.id + 1 = r.id then q.away.map (fun w => w.2.2) else none))
    countEvent s 2 m.half 0x86 1
      (if r.core < 576 then { coreDims s r.core (some r.addr) with core := some r.core } else ⟨label, none, none, none, some r.addr⟩)

/-- Serves a request at its home. -/
def serveReq (s : State) (r : Req) (ecc : EccRes) : State :=
  let s := { s with llc := { s.llc with reqs := s.llc.reqs.erase r } }
  let lo := addrLow r.addr
  match r.kind with
  | .load n signed uni alloc dst =>
    let (a, k) := if alloc then (128 * lineOf lo, 128) else (lo, n)
    serveLoad (readWord s a k ecc 0) r n signed uni alloc dst
  | .store bs =>
    let s := homeWriteBy ecc true s lo bs
    s.modCore r.core (fun k => { k with acks := k.acks ++ [⟨r.group, r.thread, false, false, false, r.addr⟩] })
  | .atom op n uni dst v c => serveAtom (readWord s lo n ecc 0) r op n uni dst v c
  | .lockAcq p => serveAcq (readWord s lo 8 ecc 0) r p
  | .lockRel lost => serveRel (readWord s lo 8 ecc 0) r lost
  | .reduce oper etype data parent =>
    { countEntry s r with llc := { s.llc with reds := s.llc.reds ++ [⟨lo, oper, etype, data, parent⟩] } }
  | .pinLine unpin cls parent =>
    let (s, ok) := servePin s r.addr unpin cls { coreDims s r.core (some r.addr) with core := some r.core }
    pinAnswer s parent ok
  | .engineRd _ _ => s
  | .engineWr _ _ => s
  | .hostRd _ _ => s
  | .hostWr => s
  | .scrubRd task id hbm => scrubServe s r.addr task id hbm ecc

/-- The address that a POISONED fault of a request names: a load's 16-byte word, else the access (R170, R303). -/
def poisonAddr (r : Req) : Nat := match r.kind with
  | .load _ _ _ _ _ => r.addr / 16 * 16
  | _ => r.addr

/-- A request to a tower under reset, or retired, is answered as poisoned: a write by its acknowledgement (R498, R449). -/
def servePoison (s : State) (r : Req) : State :=
  let s := { s with llc := { s.llc with reqs := s.llc.reqs.erase r } }
  match r.kind with
  | .store _ => s.modCore r.core (fun k => { k with acks := k.acks ++ [⟨r.group, r.thread, false, true, false, r.addr⟩] })
  | .reduce _ _ _ parent => redAnswer s parent true false
  | .pinLine _ _ parent => pinAnswer s parent false
  | _ => respond s r (fun x => { x with poison := true, addr := poisonAddr r })

/-- LLC_FILL_COMPLETE (R252): a waiting fill is placed, its HBM read finding `ecc`; a set without room makes some, the victim's write-back
reading what `victim` says; with no way free the fill waits on. -/
def execLlcFillComplete (line : Nat) (ecc victim : EccRes) (s : State) : Outcome :=
  .next (if !s.llc.fills.contains line then s
    else match homeAt s (128 * line) with
    | none => s
    | some m => match makeRoom victim s m with
      | none => s
      | some s => placeLine (hbmRead s (128 * line) 128 ecc) m line)

/-- LLC_ACCESS (R243): the half serves the oldest request that it can. A line of HBM that is not held is fetched first, and
the miss counts 128 bytes in the requester's HBM meter (R138). `ecc` is what the array read finds. -/
def execLlcAccess (half : HalfId) (ecc : EccRes) (s : State) : Outcome :=
  .next (match nextReqOf s half s.llc.reqs [] with
    | none => s
    | some r =>
      if r.ofScrub then
        (if hostGrants s (lineOf r.addr) then serveReq s r (if homeDark s (lineOf r.addr) then [] else ecc) else askHost s (lineOf r.addr))
      else if s.towersDown.contains (half.val / 2) ∨ tget 0 s.pwr.dom (69 + 2 * (half.val / 2)) = 3 then servePoison s r
      else if linePresent s r.addr then serveReq s r ecc
      else match r.kind with
        | .pinLine true _ _ => serveReq s r ecc
        | _ =>
          let s := { s with llc := { s.llc with fills := insNat (lineOf r.addr) s.llc.fills } }
          if r.core < 576 then addMeters s r.core r.addr ⟨0, 0, 128, 0, 0⟩ else s)

/-- REDUCTION_ENTRY_APPLIED (R250): the bank's oldest entry takes effect, its read finding what `read` says. -/
def execReductionEntryApplied (half : HalfId) (read : BankRead) (s : State) : Outcome :=
  .next (match s.llc.reds.find? (fun e => homeAt s (e.addr) |>.any (fun m => m.half == half.val && m.bank == read.bank.val)) with
    | none => s
    | some e => applyEntry (readWord s e.addr e.data.length read.ecc 0) e)

/-! ## Merge time-outs, rewrites, rebuilds (R300, R305, R307) -/

/-- MERGE_ENTRY_TIMEOUT (R307): the oldest entry of the buffer is written to the array by read-modify-write. -/
def execMergeEntryTimeout (half : HalfId) (group : Fin 32) (ecc : EccRes) (s : State) : Outcome :=
  .next (match s.llc.merges.find? (fun e => e.half == half.val && e.group == group.val) with
    | none => s
    | some e =>
      let s := sramRead s (16 * e.word) 16 ecc 2
      { s with llc := { s.llc with merges := s.llc.merges.erase e } })

/-- CORRECTED_REWRITE (R300): the corrected word or sector is rewritten; what it holds does not change. -/
def execCorrectedRewrite (addr : Nat) (s : State) : Outcome :=
  .next { s with llc := { s.llc with rewrites := s.llc.rewrites.filter (· != addr) } }

/-- RESIDENT_REBUILD (R305): a poisoned resident word takes the bytes of its source; a poisoned source leaves it so, and one in host bias is
first obtained from the host (R329). -/
def execResidentRebuild (addr : Nat) (s : State) : Outcome :=
  .next (let a := 16 * (addr / 16)
    match sourceAt s a with
    | none => s
    | some d =>
      if !isPoisoned s.poison a 16 then s
      else if !hostGrants s (d / 128) then askHost s (d / 128)
      else doneHost (if isPoisoned s.poison d 16 then s else storeBytes s a (readBytes s.mem d 16)) (d / 128))

/-! ## Spares (R311 to R316) -/

/-- Free spare rows and columns of a tower bank: 32 and 8 in a part without manufacturing repairs (R311, log 9). -/
def rowsFree (s : State) (tb : Nat) : Nat := 32 - tget 0 s.ecc.rows tb
def colsFree (s : State) (tb : Nat) : Nat := 8 - tget 0 s.ecc.cols tb

/-- Spare rows of an HBM stack as shipped: the number is the model's (DESIGN CHOICE, log 114). -/
def hbmSpareRows : Nat := 64
def hbmRowsFree (s : State) (k : Nat) : Nat := hbmSpareRows - tget 0 s.ecc.hbmRows k

/-- ECC_USPR of a half: spares left over its in-service banks, and the fewest rows of one (R316). -/
def refreshSpares (s : State) (h : Nat) : State :=
  let bs := ((List.range 256).map (towerBank h)).filter (fun tb => !s.llc.retired.contains tb)
  let s := s.setField (rUspr h) 13 0 (bs.map (rowsFree s)).sum
  let s := s.setField (rUspr h) 23 14 (min 1023 (bs.map (colsFree s)).sum)
  s.setField (rUspr h) 31 24 (bs.foldl (fun m tb => min m (rowsFree s tb)) 255)

/-- ECC_USPR of an HBM stack. -/
def refreshHbmSpares (s : State) (k : Nat) : State :=
  let s := s.setField (rUspr (4 + k)) 13 0 (hbmRowsFree s k)
  s.setField (rUspr (4 + k)) 31 24 (min 255 (hbmRowsFree s k))

/-- Every unit's spares, as fuses and flash give them (R316). -/
def refreshAllSpares (s : State) : State := (List.range 8).foldl refreshHbmSpares ((List.range 4).foldl refreshSpares s)

/-- Corrected errors of a bank in the last hour (R315). -/
def bankErrors (s : State) (tb : Nat) : Nat :=
  ((tget [] s.ecc.bankCe tb).filter (fun t => decide (s.clk.tick < t + 3600 * ticksPerSecond))).length

/-- A bank that needs a spare has none (R315): it is retired for an uncorrectable fault or more than 64 corrected errors in
one hour, else SPARES_EXHAUSTED is logged. -/
def sparesExhausted (s : State) (h tb : Nat) (uncorrectable : Bool) : State :=
  if uncorrectable ∨ 64 < bankErrors s tb then beginBankRetire s tb
  else rasLog s (logEv 0x0407 (unitOf 6 tb) (s.reg (rUspr h)).toNat)

/-- The pause of an array repair is over at once, and starts the spacing of R43. -/
def endPause (s : State) : State := { s with vert := { s.vert with lastEnd := some s.clk.tick } }

/-- A row found uncorrectable in a LIGHT region is retested (R311): when it passes, those findings are transient, and the row stays due only
for others. No log code stands for a transient row (log 113). -/
def retestRow (s : State) (tb mat row : Nat) (pass : Bool) : State :=
  if !pass then s
  else
    let l := (findsOf s tb).filter (fun f => !(f.mat == mat && f.row == row && f.unc && f.light))
    { s with ecc := { s.ecc with
      finds := tset [] s.ecc.finds tb l
      owed := if rowDue l mat row then s.ecc.owed else s.ecc.owed.filter (· != rowRepair tb mat row) } }

/-- ROW_SPARED (R311, R312): a row that is due is copied, corrected, into a spare, in a repair pause of R43. `pass`: its retest, where it
was found uncorrectable in a LIGHT region. -/
def execRowSpared (half : HalfId) (bank : Fin 256) (row : MatRow) (pass : Bool) (s : State) : Outcome :=
  .next (let tb := towerBank half bank
    let rep := rowRepair tb row.mat row.row
    let mine := fun (f : Find) => f.mat == row.mat.val && f.row == row.row.val
    let s := retestRow s tb row.mat row.row pass
    if !s.ecc.owed.contains rep then s
    else if rowsFree s tb = 0 then
      sparesExhausted (dropOwed s rep tb mine) half tb ((findsOf s tb).any (fun f => mine f && f.unc))
    else if !pauseFree s then s
    else
      let s := repairMade s rep tb mine
      let s := { s with ecc := { s.ecc with rows := tset 0 s.ecc.rows tb (tget 0 s.ecc.rows tb + 1) } }
      let s := refreshSpares (addRepair s rep) half
      endPause (rasLog s (logEv 0x0404 (unitOf 6 tb) (s.reg (rUspr half)).toNat)))

/-- COL_SPARED (R311, R312): reads switch to the spare column once the sweep has rewritten the mat. -/
def execColSpared (half : HalfId) (bank : Fin 256) (mat : Fin 16) (bit : Fin 576) (s : State) : Outcome :=
  .next (let tb := towerBank half bank
    let rep := colRepair tb mat bit
    let mine := fun (f : Find) => f.mat == mat.val && f.bit == bit.val
    if !s.ecc.owed.contains rep then s
    else if colsFree s tb = 0 then
      sparesExhausted (dropOwed s rep tb mine) half tb ((findsOf s tb).any (fun f => mine f && f.unc))
    else if !pauseFree s then s
    else
      let s := repairMade s rep tb mine
      let s := { s with ecc := { s.ecc with cols := tset 0 s.ecc.cols tb (tget 0 s.ecc.cols tb + 1) } }
      let s := refreshSpares (addRepair s rep) half
      endPause (rasLog s (logEv 0x0405 (unitOf 6 tb) (s.reg (rUspr half)).toNat)))

/-- HBM_ROW_SPARED (R311, R313): a row that is due, at most one HBM repair in 10 ms, and none while MEM is down (R382); a row without a spare is logged as unrepaired
(R315). -/
def execHbmRowSpared (stack : Fin 8) (addr : Nat) (s : State) : Outcome :=
  .next (let u := 4 + stack.val
    let rep := rowRepair (2048 + stack.val) 0 (addr / 4096)
    let mine := fun (f : Find) => f.row == addr / 4096
    let wait : Bool := match s.ecc.lastHbm with
      | some t => decide (s.clk.tick < t + 1000000)
      | none => false
    if wait ∨ procDown s 4 ∨ ¬ s.ecc.owed.contains rep then s
    else if hbmRowsFree s stack = 0 then
      rasLog (dropOwed s rep (2048 + stack.val) mine)
        { logEv 0x0408 (unitOf 8 u) (s.reg (rUspr u)).toNat with addr := addr / 4096 * 4096 }
    else
      let s := repairMade s rep (2048 + stack.val) mine
      let s := { s with ecc := { s.ecc with hbmRows := tset 0 s.ecc.hbmRows stack (tget 0 s.ecc.hbmRows stack + 1) } }
      let s := addRepair { refreshHbmSpares s stack with ecc := { s.ecc with lastHbm := some s.clk.tick } } rep
      rasLog s { logEv 0x0406 (unitOf 8 u) (s.reg (rUspr u)).toNat with addr := addr / 4096 * 4096 })

end Sys2Proof.Machine
end

