-- ==== Sys2Proof/Machine/Vert.lean ====
section
/-! DEFINITION. Vertical bundles: parity, the repair ladder, group and bank retirement, calibration (R31 to R51, R254, R255). -/

namespace Sys2Proof.Machine

/-! ## The write window of a resource (R444, R445) -/

def oDstat (d : Nat) : Nat := 0x00302100 + 4 * d
def oWwin : Nat := 0x00302140
def oNvcfg : Nat := 0x00302144
def govOf (s : State) (d : Nat) : Nat := s.regField (oDstat d) 8 0

/-- Whether a judged temperature lets a resource be written. -/
def windowOpen (s : State) (r t : Nat) : Bool :=
  let mode := s.regField oNvcfg (2 * r + 1) (2 * r)
  let lo := s.regField oWwin 6 0
  let hi := s.regField oWwin 13 7
  decide (80 ≤ t ∧ t < 270) && (mode == 1 || decide (2 * (lo + 40) ≤ t ∧ t < 2 * (hi + 40)))

/-! ## Bundles -/

/-- An event of a bundle in the log: its unit's status register is TWR_BSTAT (R46, R465; DEDUCED, log 97). -/
def logBundle (s : State) (code k : Nat) (training : Bool) : State :=
  rasLogT s (logEv code (unitOf 5 k) (bstat s k)) training

/-! ## The ladder (R40, R45) -/

/-- One failed lane: the bundle afterwards and the event, none when no role of the bundle is touched. -/
def ladderStep (b : Bundle) (lane : Nat) : Bundle × Option Nat :=
  if b.retired ∨ b.failed.contains lane then (b, none)
  else
    let f := insNat lane b.failed
    let b := { b with failed := f }
    if 35 ≤ lane then
      if f.contains (if lane = 35 then 36 else if lane = 36 then 35 else if lane = 37 then 38 else 37) then
        ({ b with retired := true }, some 0x0104)
      else (b, some 0x0102)
    else
      let up := 35 - (f.filter (· < 35)).length
      if up < 17 then ({ b with retired := true }, some 0x0104)
      else if b.half then (b, some 0x0103)
      else
        let role := if lane = 32 then b.s32 else if lane = 33 then b.s33 else lane
        if role = 0x3F then (b, none)
        else if b.s32 = 0x3F ∧ ¬ f.contains 32 then ({ b with s32 := role }, some 0x0101)
        else if b.s33 = 0x3F ∧ ¬ f.contains 33 then ({ b with s33 := role }, some 0x0101)
        else ({ b with half := true }, some 0x0103)

/-- Takes a bundle's group out of service for its bank and layer; a bank without a group in a layer is to be retired (R41,
R42). The log names the bank, with TWR_VGRP as its status register (DEDUCED, log 97). -/
def groupRetire (s : State) (k : Nat) (training : Bool) : State :=
  let g := groupKey (keyBank k) (keyLayer k) (keyGroup k)
  if s.vert.out.contains g then s
  else
    let s := { s with vert := { s.vert with out := insNat g s.vert.out } }
    let s := refreshTower s (keyTower k)
    let s := rasLogT s (logEv 0x0105 (unitOf 6 (keyBank k)) (s.reg (twrBase (keyTower k) + 8)).toNat) training
    if groupOut s (keyBank k) (keyLayer k) (1 - keyGroup k) then beginBankRetire s (keyBank k) else s

/-- Applies the found lanes of a bundle, one ladder step each (R40, R45, R46). -/
def applyLadder (s : State) (k : Nat) (training : Bool) : State :=
  let lanes := (s.bundle k).found
  let s := s.modBundle k (fun b => { b with found := [] })
  lanes.foldl (fun s lane =>
    let (b, ev) := ladderStep (s.bundle k) lane
    let was := (s.bundle k).failed.contains lane
    let s := s.modBundle k (fun _ => b)
    let s := if was then s else addRepair s (4, k, lane)
    match ev with
    | none => s
    | some c =>
      let s := logBundle (refreshTower s (keyTower k)) c k training
      if c = 0x0104 then groupRetire s k training else s) (refreshTower s (keyTower k))

/-! ## Faults in service (R39, R43, R45) -/

/-- BUNDLE_PARITY_ERROR (R39): the transfer is refused and repeated. The second error in 1 ms, or the 16th in 1 s, starts the
test of the bundle, unless a pause of its group runs; the group pauses in both layers, through which it continues (R32, R45;
DESIGN CHOICE, log 98). -/
def execBundleParityError (tower : TowerId) (layer : Fin 2) (bundle : Fin 12288) (s : State) : Outcome :=
  .next (let k := bundleKey tower layer bundle
    let pausing := match s.vert.pausing with
      | some p => keyBank p == keyBank k && keyGroup p == keyGroup k
      | none => false
    let h := ((s.bundle k).hist.filter (fun t => decide (s.clk.tick < t + ticksPerSecond))) ++ [s.clk.tick]
    let near := (h.filter (fun t => decide (s.clk.tick < t + ticksPerMs))).length
    s.modBundle k (fun b => { b with
      hist := h, testing := b.testing || (!pausing && (decide (2 ≤ near) || decide (16 ≤ h.length))) }))

/-- CONTROL_COPY_DISAGREE (R39): the test of the bundle starts. -/
def execControlCopyDisagree (tower : TowerId) (layer : Fin 2) (bundle : Fin 12288) (s : State) : Outcome :=
  .next (s.modBundle (bundleKey tower layer bundle) (fun b => { b with testing := true }))

/-- BUNDLE_TEST_COMPLETE (R39, R40, R45): without a faulty lane the errors count as transient, those of the last second that called
for the test (DESIGN CHOICE, log 98); else the repair waits for its pause, or is made in the pause that runs on this bundle,
whose own test runs in it. -/
def execBundleTestComplete (tower : TowerId) (layer : Fin 2) (bundle : Fin 12288) (lanes : List (Fin 39)) (s : State) : Outcome :=
  .next (let k := bundleKey tower layer bundle
    if !(s.bundle k).testing ∧ s.vert.pausing ≠ some k then s
    else if lanes = [] then s.modBundle k (fun b => { b with
      testing := false, errs := satAdd 0xFFF b.errs b.hist.length, hist := [] })
    else
      let s := s.modBundle k (fun b => { b with
        testing := false, hist := [], found := lanes.foldl (fun l x => if l.contains x.val then l else l ++ [x.val]) b.found })
      if s.vert.pausing = some k then applyLadder s k false
      else
        let s := refreshTower s tower
        if s.vert.queue.contains k then s else { s with vert := { s.vert with queue := s.vert.queue ++ [k] } })

/-- REPAIR_PAUSE_START (R43, R40, R41): the repair that waits longest, when 1 ms has passed since the last pause. R43 leaves the
order to SUP; the model takes first found first (DESIGN CHOICE, log 98). -/
def execRepairPauseStart (s : State) : Outcome :=
  .next (match s.vert.queue with
    | [] => s
    | k :: q => if !pauseFree s then s
      else applyLadder { s with vert := { s.vert with queue := q, pausing := some k } } k false)

/-- REPAIR_PAUSE_END (R40, R43). -/
def execRepairPauseEnd (s : State) : Outcome :=
  .next (match s.vert.pausing with
    | none => s
    | some _ => { s with vert := { s.vert with pausing := none, lastEnd := some s.clk.tick } })

/-! ## Bank retirement (R47, R254, R255) -/

/-- Window addresses of the resident lines of a bank and way, set by set (R236). -/
def resLines (tb way : Nat) : List Nat :=
  (List.range 2048).map (fun st =>
    resBase + (tb / 256) * gib1 + 128 * (way * 2 ^ 19 + st * 256 + ((tb % 256) ^^^ (st % 256))))

/-- The host bank of a relocated way: the (w + 1)-th in-service bank after the substitute, skipping banks that already host
two lines of each set. -/
def hostBank (s : State) (tb way : Nat) : Option Nat :=
  let h := tb / 256
  let sub := substitute s h (tb % 256)
  let ring := ((List.range 256).map (fun i => (sub + 1 + i) % 256)).filter (fun b => !s.llc.retired.contains (towerBank h b))
  let ok := fun b => decide (relocCount s h b < 2)
  match ring[way % max 1 ring.length]? with
  | none => none
  | some _ => ((ring.drop way ++ ring.take way).find? ok).map (towerBank h)

/-- Maps one resident way of a retired bank to its host bank; none when it finds no host set (R254). -/
def mapWay (s : State) (tb way : Nat) : Option State :=
  (hostBank s tb way).map (fun hb => { s with llc := { s.llc with
    reloc := (s.llc.reloc.filter (fun r => !(r.1 == tb && r.2.1 == way))) ++ [(tb, way, hb)] } })

/-- Contents of a resident line that its bank has lost: the bytes and poison of its source, or poison until it is written (R237,
R254). -/
def rebuildLine (s : State) (a : Nat) : State :=
  let s := mergeClose s (a / 128)
  match tget 0 s.llc.sources ((a - resBase) / mib2) with
  | 0 => poisonBytes s a 128
  | src + 1 =>
    let d := src + (a - resBase) % mib2
    let bs := (List.range 8).map (fun w => (readBytes s.mem (d + 16 * w) 16, isPoisoned s.poison (d + 16 * w) 16))
    (List.range 8).foldl (fun s w => match bs[w]? with
      | some (b, false) => storeBytes s (a + 16 * w) b
      | _ => poisonBytes s (a + 16 * w) 16) s

/-- Relocates one way of a retired bank's resident lines and rebuilds them (R47 step 4, R254); none when it finds no host set. -/
def relocateWay (s : State) (tb way : Nat) : Option State :=
  (mapWay s tb way).map (fun s => (resLines tb way).foldl rebuildLine s)

/-- Lines of a half's sets beyond their LLC ways leave (R235): unpinned ones before pinned ones, and otherwise which is a free choice
(log 6). -/
def trimHalf (s : State) (h : Nat) : State :=
  let ls := s.llc.lines.filter (fun p => ((homeAt s (128 * p.1)).map (·.half)) == some h)
  let k := (Config.freeByte s.fresh).toNat % (ls.length + 1)
  let turn := ls.drop k ++ ls.take k
  let order := turn.filter (fun p => p.2.pin.isNone) ++ turn.filter (fun p => p.2.pin.isSome)
  if order.any (fun p => (homeAt s (128 * p.1)).any (fun m => decide (llcWays s m.half m.bank < (setLines s m).length))) then
    order.foldl (fun s p => match homeAt s (128 * p.1) with
      | none => s
      | some m => if llcWays s m.half m.bank < (setLines s m).length then evictLine s p.1 else s) { s with fresh := s.fresh + 1 }
  else s

/-- VBANK_RETIRED (R47 step 5): the relay ends, the bank is recorded and logged. Its contents were rebuilt with the mapping
(DESIGN CHOICE, log 99). -/
def execVbankRetired (tower : TowerId) (bank : Fin 512) (s : State) : Outcome :=
  .next (let tb := 512 * tower.val + bank.val
    if !s.vert.retiring.contains (tb, true) then s
    else
      let s := { s with vert := { s.vert with retiring := s.vert.retiring.filter (fun p => p.1 != tb) } }
      let s := refreshTower (addRepair s (5, tb, 0)) tower
      rasLog (refreshSpares s (tb / 256)) (logEv 0x0106 (unitOf 6 tb) (s.reg (twrBase tower)).toNat))

/-! ## Training (R36 to R38, R42) -/

/-- The ladder's state of the bundles that a list of repairs gives, from the bundles as shipped. -/
def ladderOf (repairs : List (Nat × Nat × Nat)) : Tab Bundle :=
  repairs.foldl (fun t r => if r.1 = 4 then tset Bundle.fresh t r.2.1 (ladderStep (tget Bundle.fresh t r.2.1) r.2.2).1 else t) []

/-- Lanes known to be failed that the list in flash does not hold: a repair that waited for its pause, or whose record was lost.
Training finds them again (R38). -/
def lostLanes (s : State) : Tab Bundle → List (Nat × Nat) := fun known =>
  s.vert.bundles.flatMap (fun p => (p.2.failed ++ p.2.found).filterMap (fun l =>
    if (tget Bundle.fresh known p.1).failed.contains l then none else some (p.1, l)))

/-- Groups that the retired bundles of a table take out (R41). -/
def groupsOut (t : Tab Bundle) : List Nat :=
  t.foldl (fun l p => if p.2.retired then insNat (groupKey (keyBank p.1) (keyLayer p.1) (keyGroup p.1)) l else l) []

/-- The vertical repairs after a loss of what the processors held: the fuse map and the repair list in flash (R36 to R38), the lanes that
training will find, and the banks that have lost both groups of a layer and are not yet retired (R42). -/
def flashVert (s : State) : Vert :=
  let known := ladderOf s.ecc.repairs
  let bundles := (lostLanes s known).foldl (fun t p =>
    tset Bundle.fresh t p.1 { tget Bundle.fresh t p.1 with found := (tget Bundle.fresh t p.1).found ++ [p.2] }) known
  let out := groupsOut known
  let banks := (out.map (· / 4)).eraseDups.filter (fun tb =>
    (List.range 2).any (fun l => out.contains (groupKey tb l 0) && out.contains (groupKey tb l 1)) &&
    !s.ecc.repairs.any (fun r => r.1 == 5 && r.2.1 == tb))
  { Vert.fresh with bundles := bundles, out := out, retiring := banks.map (fun tb => (tb, false)) }

/-- Training of a tower's bundles (R37): each failed lane, known before or found now, goes down the ladder with origin "training". -/
def trainTower (s : State) (t : Nat) (lanes : List (TowerId × Fin 2 × Fin 12288 × Fin 39)) : State :=
  let s := (lanes.filter (fun x => x.1.val == t)).foldl (fun s x =>
    s.modBundle (bundleKey x.1 x.2.1 x.2.2.1) (fun b =>
      if b.found.contains x.2.2.2.val ∨ b.failed.contains x.2.2.2.val then b else { b with found := b.found ++ [x.2.2.2.val] })) s
  let s := { s with vert := { s.vert with queue := s.vert.queue.filter (fun k => keyTower k != t) } }
  let ks := (s.vert.bundles.filter (fun p => keyTower p.1 == t && !p.2.found.isEmpty)).map (·.1)
  refreshTower (ks.foldl (fun s k => applyLadder s k true) s) t

/-! ## Calibration (R49 to R51, R75) -/

/-- Cluster of a region of a tower: 0 to 31 are the near and far regions of die A's clusters, 32 to 47 die B's (R49). -/
def regionCluster (t r : Nat) : Nat := 32 * t + (if r < 32 then r / 2 else r - 16)
def regionKey (t r : Nat) : Nat := 48 * t + r

/-- Whether a recalibration of a cause falls due (R50): 0 at training, 1 after a change of band in force, 2 when 24 hours have passed
since the last. While the tower is in reset or unpowered only its training recalibrates, and one that falls due waits for the tower's processor
(R382). -/
def calDue (s : State) (t cause : Nat) : Bool :=
  let training := s.md.booting || s.towersDown.contains t
  if cause = 0 then training
  else !training && s.pwr.state == 0 && !procDown s (5 + t) &&
    (if cause = 1 then s.vert.calDue.contains t else decide (tget 0 s.vert.calAt t + ticksPerDay ≤ s.clk.tick))

/-- RECALIBRATION (R50, R51, R75): per region the margin code that the monitors ask for, the share of the allowance used and
the excess beyond it, in 1/256. A wider code holds at once, a narrower one when the region is idle. MARGIN_LIMIT names the
region's cluster, and MARGIN_RECORD gives the highest share of the die in 1/256 of the allowance (DESIGN CHOICE, log 100). -/
def execRecalibration (tower : TowerId) (cause : Fin 3) (regions : List (Fin 48 × Fin 16 × Nat × Fin 256)) (s : State) : Outcome :=
  .next (let t := tower.val
    if !calDue s t cause then s else
    let r := twrBase t + 0x14
    let wide := (regions.filter (fun p => decide (tget 0 s.vert.margins (regionKey t p.1) < p.2.1.val))).length
    let s := regions.foldl (fun s p =>
      let k := regionKey t p.1
      let code := p.2.1.val
      let old := tget 0 s.vert.margins k
      { s with vert := { s.vert with
        margins := if old < code then tset 0 s.vert.margins k code else s.vert.margins,
        narrow := tset none s.vert.narrow k (if code < old then some code else none),
        share := tset 0 s.vert.share k p.2.2.1 } }) s
    let s := s.setField r 1 0 cause.val
    let s := s.setField r 9 2 (min wide 255)
    let s := { s with vert := { s.vert with calAt := tset 0 s.vert.calAt t s.clk.tick, calDue := s.vert.calDue.filter (· != t) } }
    let s := regions.foldl (fun s p =>
      if p.2.2.2.val = 0 then s
      else
        let s := s.setField r 10 10 1
        rasLog s (logEv 0x0107 (unitOf 3 (regionCluster t p.1)) (s.reg r).toNat)) s
    let s := (List.range 32).foldl (fun s i =>
      let c := 32 * t + i
      let mine := regions.filter (fun p => regionCluster t p.1 == c)
      if mine = [] then s
      else holdCommit (s.setField (rCrate c) 16 9 ((mine.map (fun p => p.2.2.2.val)).foldl max 0)) c) s
    if cause.val ≠ 2 then s
    else (List.range 2).foldl (fun s d =>
      let top := ((List.range 48).filter (fun i => (if i < 32 then 0 else 1) == d)).foldl
        (fun m i => max m (tget 0 s.vert.share (regionKey t i))) 0
      let s := { s with vert := { s.vert with record := tset 0 s.vert.record (2 * t + d) top } }
      rasLog s (logEv 0x0108 (unitOf 2 (2 * t + d)) top)) s)

/-- MARGIN_NARROW_APPLY (R50): the region has no handshake in flight, and its narrower code takes effect. -/
def execMarginNarrowApply (tower : TowerId) (region : Fin 48) (s : State) : Outcome :=
  .next (let k := regionKey tower region
    match tget none s.vert.narrow k with
    | none => s
    | some v => { s with vert := { s.vert with
        margins := tset 0 s.vert.margins k v, narrow := tset none s.vert.narrow k none } })

end Sys2Proof.Machine
end

