-- ==== Sys2Proof/Machine/Admission.lean ====
section
/-! DEFINITION. The admission decision: field checks, placement, the bound, refusal and acceptance (R343 to R354, R361). -/

namespace Sys2Proof.Machine

/-! ## Descriptors (R343 to R345) -/

/-- The fields of a task descriptor, of either format: bytes 0 to 31 agree but for the v2 TAG's place, which is the same. -/
structure Desc where
  program  : Nat
  context  : Nat
  cls      : Nat
  flags    : Nat
  deadline : Nat
  args     : Nat
  tag      : Nat
  progress : Nat
deriving DecidableEq, Repr

def descOf (v1 : Bool) (b : List Nat) : Desc :=
  ⟨fieldLe b 0 4, fieldLe b 4 2, fieldLe b 6 1, fieldLe b 7 1, fieldLe b 8 4, fieldLe b 16 8, fieldLe b 24 8,
    if v1 then 0 else fieldLe b 32 8⟩

/-- Whether the reserved bytes and bits of a descriptor are zero. -/
def descReserved (v1 : Bool) (b : List Nat) : Bool :=
  fieldLe b 12 4 == 0 && decide (fieldLe b 6 1 < 16) && decide (fieldLe b 7 1 < 32) &&
  (if v1 then (fieldLe b 7 1) &&& 0x16 == 0 else (b.drop 40).all (· == 0))

/-- A registered program by handle, unless it is withdrawn (R174). -/
def State.liveProgram (s : State) (h : Nat) : Option Program := (s.program h).filter (fun p => !p.withdrawn)

/-- The handle of the built-in scrub image (R308); only SYSTEM tasks may name it (R27, R354). -/
def scrubHandle : Nat := Config.scrubHandle.toNat

/-- Length of the progress area to be checked (R345). -/
def progressLen (s : State) (h : Nat) : Nat :=
  match s.liveProgram h with
  | some p => 64 + ceilDiv p.tiles 8
  | none => 64

/-- Whether the progress area lies in local memory within one window with WRITE right (R345); a context not loaded has none. -/
def progressOk (s : State) (d : Desc) : Bool :=
  let n := progressLen s d.program
  let a := addrLow d.progress
  d.progress == 0 || (d.progress % 64 == 0 && decide (d.progress < 2 ^ 54) && addrModule d.progress == s.modId &&
    (inHbm a n || inBackedRes s a n) &&
    (match s.context d.context with
     | none => false
     | some c => (c.windows.any (fun w => decide (w.size ≠ 0 ∧ w.base ≤ d.progress ∧ d.progress + n ≤ w.base + w.size) &&
         nbit w.rights 1))))

/-- The field checks of R345. -/
def fieldsOk (s : State) (q : Nat) (v1 : Bool) (b : List Nat) : Bool :=
  let d := descOf v1 b
  let sys := nbit d.flags 4
  descReserved v1 b && d.cls != 15 && nbit (s.qf q 22 2) d.cls && (d.cls != 14 || sys) &&
  (!sys || (qFlag s q 3 && d.cls == 14)) && progressOk s d

/-- Whether a byte range meets a bias granule that is in host bias or under a bias command (R329, R330). -/
def meetsHostBias (s : State) (a n : Nat) : Bool :=
  let hits := fun (g : Nat) => decide (n ≠ 0 ∧ a < (g + 1) * mib2 ∧ g * mib2 < a + n)
  s.host.bias.any hits || (match s.host.biasCmd with
    | some (_, first, cnt) => decide (n ≠ 0 ∧ a < (first + cnt) * mib2 ∧ first * mib2 < a + n)
    | none => false)

def localWindow (s : State) (w : Window) : Bool := addrModule w.base == s.modId

/-- Whether a local window meets a region whose code is being changed (R297). -/
def meetsRegion (s : State) (a n : Nat) : Bool :=
  match s.ecc.region with
  | none => false
  | some (e, rng, attr) =>
    let old := regionRange (s.reg (rRgnRng e)).toNat (s.reg (rRgnAttr e)).toNat
    let new := regionRange rng attr
    let hit := fun (r : Nat × Nat) => decide (n ≠ 0 ∧ r.2 ≠ 0 ∧ a < r.1 + r.2 ∧ r.1 < a + n)
    hit old || hit new

/-- Whether a local window holds a line homed in a tower (R449); homes change from one 4 KiB block to the next. -/
def windowMeets (s : State) (t : Nat) (w : Window) : Bool :=
  localWindow s w && (match resSlot (addrLow w.base) with
    | some (h, _) => h / 2 == t
    | none => (List.range (w.size / 4096)).any (fun i => (stackOf s (addrLow w.base + 4096 * i)).1 / 4 == t))

def contextMeets (s : State) (t id : Nat) : Bool :=
  match s.context id with
  | none => false
  | some c => c.windows.any (fun w => decide (w.size ≠ 0) && windowMeets s t w)

/-- Whether admission can use a context for a queue's owner (R354 code 5); none while LLC_RESCFG.APPLYING is set (R257). -/
def contextUsable (s : State) (id owner : Nat) : Bool :=
  match s.context id with
  | none => false
  | some c => !s.regBit rRescfg 16 && c.owner == owner && !c.invalid && !((List.range 2).any (fun t => towerRetired s t && contextMeets s t id)) &&
      c.windows.all (fun w => decide (w.size = 0) || !localWindow s w ||
        !(meetsHostBias s (addrLow w.base) w.size || meetsRegion s (addrLow w.base) w.size))

/-- Whether every module that a context's windows name can be reached (R354 code 8). -/
def contextReachable (s : State) (id : Nat) : Bool :=
  match s.context id with
  | none => true
  | some c => c.windows.all (fun w => decide (w.size = 0) || localWindow s w || (routeTo s (addrModule w.base)).1 != 0)

def programUsable (s : State) (d : Desc) : Option Program :=
  if d.program = scrubHandle ∧ ¬ nbit d.flags 4 then none else s.liveProgram d.program

/-! ## Classes -/

def rCcfg (c : Nat) : Nat := 0x00200100 + 16 * c
def rClmask (c : Nat) (hi : Bool) : Nat := 0x00200104 + 16 * c + (if hi then 4 else 0)
def rCstat (c : Nat) : Nat := 0x0020010C + 16 * c
def rCreg (c : Nat) : Nat := 0x00200408 + 16 * c
def classDerate (s : State) (c : Nat) : Nat := s.regField (rCreg c) 8 0
def inClass (s : State) (c cl : Nat) : Bool := s.regBit (rClmask c (decide (32 ≤ cl))) (cl % 32)

/-- Accepted tasks of a class not yet completed. -/
def classInflight (s : State) (c : Nat) : Nat := s.regField (rCstat c) 16 0

/-! ## Placement and bound (R350 to R352) -/

/-- Logical cores that a class can use, ascending. -/
def usable (s : State) (c : Nat) : List Nat :=
  (List.range 512).filter (fun l => inClass s c (l / 8) && logicalUp s l && clusterRuns s (l / 8) &&
    !(s.cluster (l / 8)).resetting)

def coreFree (s : State) (l : Nat) : Nat := tget 0 s.adm.coreFree l

/-- Earliest start of a rank on a logical core; a cluster in LI counts from its exit time (R352; DEDUCED, log 23). -/
def startOn (s : State) (now l : Nat) : Nat := max now (max (coreFree s l) (exitTick s (l / 8)))

/-- Assigns ranks in ascending order to the lowest cores that satisfy the PLACE groups. -/
def assignRanks (avail : List Nat) : List RankE → List Nat → List (Nat × Nat) → List (Nat × Nat) → Option (List Nat)
  | [], acc, _, _ => some acc
  | e :: rest, acc, cg, tg =>
    avail.findSome? (fun l =>
      let okC := e.cgroup = 0 ∨ (cg.all (fun p => p.1 != e.cgroup || p.2 == l / 8))
      let okT := e.tgroup = 0 ∨ (tg.all (fun p => p.1 != e.tgroup || p.2 == l / 256))
      if acc.contains l ∨ ¬ okC ∨ ¬ okT then none
      else assignRanks avail rest (acc ++ [l]) (if e.cgroup = 0 then cg else (e.cgroup, l / 8) :: cg)
        (if e.tgroup = 0 then tg else (e.tgroup, l / 256) :: tg))

/-- Candidate starts: now, and every later tick at which a core falls free or a cluster can leave LI. -/
def starts (s : State) (now : Nat) (us : List Nat) : List Nat :=
  ((us.map (startOn s now)).foldl (fun l t => insNat t l) [])

/-- place() of R352 with a floor function: the earliest start, then the lowest clusters and cores. -/
def place (s : State) (cls : Nat) (ranks : List RankE) (now dl : Nat) (f : Nat → Nat → Nat → Nat) : Option (List Nat) :=
  let us := usable s cls
  if us.length < ranks.length then none
  else (starts s now us).findSome? (fun t =>
    let okC := (List.range 64).filter (fun c => f c t dl != 0)
    assignRanks (us.filter (fun l => decide (startOn s now l ≤ t) && okC.contains (l / 8))) ranks [] [] [])

/-- vsur of R351. -/
def vsur (v vd : Nat) : Nat := if vd = 0 then 0 else ceilDiv (v * (256 - vd)) (24 * vd)
/-- t(h, f) of R351. -/
def hsTicks (h f : Nat) : Nat := ceilDiv (h * 10) f

/-- allow() of R351. -/
def allowance (b : Nat) : Nat := 200 * ceilDiv b 100000 + 2000 + 2000 * ceilDiv b 1000000

def boundLoop (b0 : Nat) : Nat → Nat → Nat
  | 0, b => b
  | n + 1, b => let a := allowance b; if allowance (b0 + a) = a then b0 + a else boundLoop b0 n (b0 + a)

/-- Vertical derate of a cluster's die (R48). -/
def dieDerate (s : State) (c : Nat) : Nat :=
  let r := twrBase (c / 32)
  if (c / 16) % 2 = 0 then s.regField r 8 0 else s.regField r 17 9

/-- Floors that a plan's ranks use (R351), and the bound. None when some floor is 0, which admits no bound. -/
def boundOf (s : State) (p : Program) (cls k : Nat) (plan : List Nat) (now dl : Nat) (f : Nat → Nat → Nat → Nat) :
    Option (Nat × List Nat) :=
  let start := plan.foldl (fun m l => max m (startOn s now l)) now
  let fs := plan.map (fun l => f (l / 8) start dl * classDerate s cls / 256)
  if fs.any (· == 0) then none
  else
    let fmin := fs.foldl min 1000000
    let runs := ((p.ranks.zip plan).zip fs).map (fun ((e, l), fl) =>
      let b := p.budgets.getD e.budget Cost.zero
      hsTicks (k * b.compute + vsur b.vert (dieDerate s (l / 8))) fl)
    let vdMin := (plan.map (fun l => dieDerate s (l / 8))).foldl min 256
    let seg := k * p.segment.compute + vsur p.segment.vert vdMin
    let b0 := (start - now) + runs.foldl max 0 + hsTicks seg fmin + 100 + hsTicks 3136 fmin
    some (boundLoop b0 8 b0, plan.map (fun l => f (l / 8) start dl))

/-! ## Refusal and acceptance -/

def refTooShort : Nat := 1
def refHorizon : Nat := 2
def refClassFull : Nat := 3
def refNoSlot : Nat := 4
def refContext : Nat := 5
def refProgram : Nat := 6
def refPower : Nat := 7
def refDomain : Nat := 8
def refDescriptor : Nat := 9

/-- What a decision comes to: refused with a code and ELAPSED, or accepted on cores, with floors and bound. -/
inductive Decision where
  | refuse (code elapsed : Nat)
  | accept (plan floors : List Nat) (bound : Nat)
deriving DecidableEq, Repr

/-- While PWR restarts or is held and CURTAIL_N is asserted, admission refuses every task (R382, R431). -/
def powerBlind (s : State) : Bool := procDown s 2 && s.regBit oPwrLim 25

/-- Placement and bound, the last steps of R351, with ticks relative to `now`. -/
def placeAndBound (s : State) (p : Program) (cls flags now dl : Nat) : Decision :=
  let k := if flagDual flags then 2 else 1
  let tryAt := fun (f : Nat → Nat → Nat → Nat) => (place s cls p.ranks now (now + dl) f).bind (fun pl =>
    (boundOf s p cls k pl now (now + dl) f).map (fun b => (pl, b)))
  if powerBlind s then .refuse refPower 0xFFFFFFFF
  else match place s cls p.ranks now (now + dl) (fplan s) with
  | none => .refuse (if (place s cls p.ranks now (now + dl) (fnow s)).isSome then refPower else refClassFull) 0xFFFFFFFF
  | some pl =>
    let fits := match tryAt (fnow s) with
      | some (_, b) => decide (b.1 ≤ dl)
      | none => false
    match boundOf s p cls k pl now (now + dl) (fplan s) with
    | none => .refuse (if fits then refPower else refTooShort) 0xFFFFFFFF
    | some (b, fl) =>
      if b ≤ dl then .accept pl fl b
      else .refuse (if fits then refPower else refTooShort) (min b 0xFFFFFFFF)

/-- Completion slots in use: accepted tasks and their entries that have not left (R351, R359). -/
def slotsUsed (s : State) : Nat := s.tasks.length + (s.adm.stuck.filter (fun e => !e.refusal)).length

/-- The checks of R351 in their order; `b` is none for a descriptor that could not be read. -/
def decideTask (s : State) (q : Nat) (b : Option (List Nat)) : Decision :=
  let no := 0xFFFFFFFF
  match b with
  | none => .refuse refDescriptor no
  | some b =>
    let v1 := qFlag s q 2
    let d := descOf v1 b
    if ¬ fieldsOk s q v1 b then .refuse refDescriptor no
    else match programUsable s d with
    | none => .refuse refProgram no
    | some p =>
      if ¬ contextUsable s d.context (s.qf q 24 2) then .refuse refContext no
      else if ¬ contextReachable s d.context then .refuse refDomain no
      else if d.deadline < 5 then .refuse refTooShort no
      else if horizon s < d.deadline * 100 then .refuse refHorizon no
      else if ¬ s.regBit (rCcfg d.cls) 0 ∨ s.regField (rCcfg d.cls) 17 1 ≤ classInflight s d.cls then .refuse refClassFull no
      else if 65536 ≤ slotsUsed s then .refuse refNoSlot no
      else placeAndBound s p d.cls d.flags s.clk.tick (d.deadline * 100)

/-- A completion entry (R355). -/
def entryBytes (tag status code flags sqidx accept elapsed tiles : Nat) : List Nat :=
  natLe 8 tag ++ [status, code, flags, 0] ++ natLe 4 sqidx ++ natLe 8 accept ++ natLe 4 elapsed ++ natLe 4 (min tiles 0xFFFFFFFF)

/-- Committed rates, profile and reserved cores after a reservation or its end (R353, R430). -/
def refreshAdmission (s : State) : State :=
  holdCover (refreshProfile ((List.range 64).foldl refreshCommit s))

/-- Adds one to, or takes one from, the in-flight counts of a queue and its class (R342, R363). -/
def bumpInflight (s : State) (q cls : Nat) (up : Bool) : State :=
  let f := fun (n : Nat) => if up then n + 1 else n - 1
  let s := s.setQf q 48 4 (f (qInflight s q))
  let s := s.setField (rCstat cls) 16 0 (f (classInflight s cls))
  s.setField 0x00200004 16 0 (f (s.regField 0x00200004 16 0))

/-- Reserves the cores of a plan until `end_`. -/
def reserve (s : State) (plan : List Nat) (end_ : Nat) : State :=
  { s with adm := { s.adm with coreFree := plan.foldl (fun t l => tset 0 t l end_) s.adm.coreFree } }

/-- TASK_ACCEPT (R351). -/
def acceptTask (s : State) (q idx : Nat) (v1 : Bool) (d : Desc) (plan floors : List Nat) (bound : Nat) : State :=
  let now := s.clk.tick
  let t : Task := {
    queue := q, sqidx := idx, v1 := v1, program := d.program, context := d.context, cls := d.cls,
    flags := d.flags, cd := classDerate s d.cls, deadline := now + d.deadline * 100, args := d.args, tag := d.tag,
    progress := d.progress, accept := now, bound := bound, plan := plan, floors := floors, running := false, ended := [],
    stop := none, stopAt := 0, fault := none, committed := 0, replays := 0, replayed := false, rerun := false, tried := false, moved := [],
    counters := [] }
  let id := s.adm.nextTask
  let s := { s.setTask id (some t) with adm := { s.adm with nextTask := id + 1 } }
  let s := plan.foldl (fun s l => requestInrush s (l / 8)) s
  refreshAdmission (bumpInflight (reserve s plan (now + bound)) q d.cls true)

/-- REFUSED (R354): counted, and answered with a completion. -/
def refuseTask (s : State) (q idx tag code elapsed : Nat) (stall : Bool) : State :=
  let r := 0x00200040 + 4 * code
  let s := s.setField r 31 0 (satAdd 0xFFFFFFFF (s.regField r 31 0) 1)
  postEntry s ⟨q, entryBytes tag 5 code 0 idx s.clk.tick elapsed 0, true⟩ stall

/-- The bytes of the descriptor at the head, from the device ring now or from the host's answer; none while the host has not
answered (R348). -/
def headData (s : State) (u : Undec) : Option (Option (List Nat)) :=
  if qFlag s u.queue 0 then u.data
  else
    let n := descSize s u.queue
    let a := addrLow (qSqBase s u.queue + n * u.idx)
    if ¬ (inHbm a n ∨ inBackedRes s a n) ∨ isPoisoned s.poison a n then some none else some (some (readBytes s.mem a n))

/-- Takes waiting doorbells while there is room (R348). -/
def pumpBacklog : Nat → State → State
  | 0, s => s
  | n + 1, s => match s.adm.backlog with
    | [] => s
    | w :: ws =>
      let s' := takeDoorbell { s with adm := { s.adm with backlog := [] } } w
      if s'.adm.backlog = [] then pumpBacklog n { s' with adm := { s'.adm with backlog := ws } }
      else s

/-- ADMISSION_DECISION (R348, R351): the oldest undecided descriptor is decided. `stall`: the host link withholds posted
credits (R377). -/
def execAdmissionDecision (stall : Bool) (s : State) : Outcome :=
  .next (match s.adm.und with
    | [] => s
    | u :: us => match headData s u with
      | none => s
      | some b =>
        let dec := decideTask s u.queue b
        let s := { s with adm := { s.adm with und := us } }
        let s := s.setQf u.queue 28 4 ((u.idx + 1) % qSqSize s u.queue)
        let v1 := qFlag s u.queue 2
        let d := descOf v1 (b.getD [])
        let s := match dec with
          | .refuse code el => refuseTask s u.queue u.idx (if b.isNone then 0 else d.tag) code el stall
          | .accept plan floors bound => acceptTask s u.queue u.idx v1 d plan floors bound
        pumpBacklog s.adm.backlog.length s)

end Sys2Proof.Machine
end

