-- ==== Sys2Proof/Machine/Desc.lean ====
section
/-! DEFINITION. Descriptors and single-issue instructions (R115 to R119, R163 to R165), REDUCE (R166, R250), PIN and UNPIN
(R167). -/

namespace Sys2Proof.Machine

/-! ## Reading a descriptor (R163, R303) -/

/-- The bytes of a descriptor in uniform registers. -/
def descRegs (gr : Group) (u size : Nat) : List Nat :=
  (List.range (size / 4)).flatMap (fun j => natLe 4 (tget 0 gr.urf (u + j)).toNat)

/-- KIND of a descriptor by the ticket kind of its instruction: R163 counts ATTN 2 and XFER 3, where R116 counts them 3 and 2. -/
def descKind (kind : Nat) : Nat := if kind = kindXfer then 3 else if kind = kindAttn then 2 else kind

/-- The header of R163. -/
def headerOk (d : List Nat) (kind size : Nat) : Bool := fieldLe d 0 1 == kind && fieldLe d 1 1 == 1 && fieldLe d 2 2 == size

/-- A thread's descriptor, and whether it lay in local store. -/
def readDesc (s : State) (gr : Group) (i : Ctx) (t kind size : Nat) : Except Cause (List Nat × Bool) :=
  if dSrc i.w then
    let u := bits i.w 35 30
    if 64 < u + size / 4 then .error ⟨cILLEGAL_OPERAND, 0, 0⟩
    else
      let d := descRegs gr u size
      if headerOk d kind size then .ok (d, false) else .error ⟨cDESC_INVALID, 0, 0⟩
  else if !srcOk (dReg i.w) 1 then .error ⟨cILLEGAL_OPERAND, 0, 0⟩
  else
    let off := (readReg gr i.mask t (dReg i.w)).toNat + dOff i.w
    if off % 16 ≠ 0 then .error ⟨cDESC_ALIGN, off, 0⟩
    else if lsBytes < off + size then .error ⟨cLS_RANGE, off, 0⟩
    else match firstPoison s.poison (lsAddr i.c + off) size with
    | some p => .error ⟨cPOISONED, p - lsAddr i.c, 0⟩
    | none =>
      let d := readBytes s.mem (lsAddr i.c + off) size
      if headerOk d kind size then .ok (d, true) else .error ⟨cDESC_INVALID, 0, 0⟩

/-- The registers that an instruction of format D reads. -/
def descSrcs (w : Word64) (size : Nat) : List Nat :=
  if dSrc w then (List.range (size / 4)).map (fun j => 0x80 + bits w 35 30 + j) else [dReg w]

/-! ## Single-issue instructions (R115 to R117) -/

/-- The origin of an accepted single-issue instruction (R119). -/
def originOf (s : State) (i : Ctx) (t kind : Nat) : Origin :=
  ⟨ticketCtr (s.core i.c) kind, i.pc, (grp (s.core i.c) i.g).launch, i.g, t⟩

/-- Issue counters advance (R116). -/
def bumpTicket (k : Core) (kind : Nat) : Core :=
  if kind = kindMma then { k with ctrMma := (k.ctrMma + 1) % 2 ^ 24 }
  else if kind = kindXfer then { k with ctrXfer := (k.ctrXfer + 1) % 2 ^ 24 }
  else { k with ctrAttn := (k.ctrAttn + 1) % 2 ^ 24 }

/-- Writes the ticket register. -/
def writeTicket (w : Word64) (v : Nat) (gr : Group) : Group := writeReg gr 0 (0x80 + dTkt w) 1 v

/-- The execution of a single-issue instruction for the lowest thread with a true guard (R115): its descriptor is read and
checked, the queue takes it, the ticket is written. Without such a thread the null ticket is written. -/
def singleBody (kind size : Nat) (check : State → Ctx → Nat → List Nat → Option Cause)
    (put : State → Ctx → Origin → List Nat → Bool → State) (w : Word64) (s : State) (i : Ctx) : State :=
  let gr := grp (s.core i.c) i.g
  match i.active with
  | [] => advance (s.modGrp i.c i.g (writeTicket w 0)) i i.members (i.pc + 8)
  | t :: _ =>
    let bad := fun (x : Cause) =>
      let s := advance s i (i.members.filter (· != t)) (i.pc + 8)
      faultSet (countPoisoned s (coreUnit i.c) [(t, x)]) i 1 [(t, x)]
    match readDesc s gr i t (descKind kind) size with
    | .error x => bad x
    | .ok (d, ls) => match check s i t d with
      | some x => bad x
      | none =>
        let o := originOf s i t kind
        let s := put (s.modCore i.c (fun k => bumpTicket k kind)) i o d ls
        advance (s.modGrp i.c i.g (writeTicket w (ticketOf kind o.seq))) i i.members (i.pc + 8)

/-- The issue of a single-issue instruction: not ready while its kind is full (R117). -/
def singleIssue (cls kind size : Nat) (full : Core → Bool) (check : State → Ctx → Nat → List Nat → Option Cause)
    (put : State → Ctx → Origin → List Nat → Bool → State) (x : Site) (w : Word64) (s : State) : Outcome :=
  let legal := legalD cls 0 true false w
  coreRow (isRow cls 0 w) w (if legal && full (s.core x.core) then s else
    issue s x w (descSrcs w size) [] legal (singleBody kind size check put w))

/-- The record of a fault that an engine meets while it runs (R119, R170). -/
def engineRec (s : State) (c kind : Nat) (o : Origin) (x : Cause) : FaultRec :=
  { cause := x.cause, source := 2, rank := (s.core c).rank, launch := o.launch, thread := 0xFF, kind := kind, pc := o.pc,
    ticket := ticketOf kind o.seq, addr := x.addr, detail := x.detail, further := 0 }

/-- Raises an engine's fault; poison counts as consumed (R303, R316). -/
def engineFault (s : State) (c kind unit : Nat) (o : Origin) (x : Cause) : State :=
  let s := if x.cause = cPOISONED then countConsumed s unit x.addr else s
  raiseFault s c (engineRec s c kind o x)

/-- A task flag of the core's task. -/
def taskFlag (s : State) (c : Nat) (f : Nat → Bool) : Bool :=
  match coreTask s c with
  | none => false
  | some t => f t.flags

/-! ## REDUCE (R166, R250, R303, R456) -/

/-- What a REDUCE of a thread does once it has passed its checks. -/
structure RedDo where
  oper  : Nat
  etype : Nat
  data  : List Nat
  dst   : Nat
  place : Place
deriving DecidableEq, Repr

/-- The checks of a REDUCE descriptor, in the order descriptor, source, destination (R164, R166). -/
def redCheck (s : State) (i : Ctx) (d : List Nat) : Except Cause RedDo :=
  let oper := fieldLe d 4 1
  let etype := fieldLe d 5 1
  let src := fieldLe d 8 4
  let cnt := fieldLe d 12 4
  let dst := fieldLe d 16 8
  let k := elemSize oper
  if 4 < oper ∨ (if oper = 3 ∨ oper = 4 then 2 < etype else etype ≠ 0) ∨ fieldLe d 6 2 ≠ 0 ∨ fieldLe d 24 8 ≠ 0 ∨
      src % 16 ≠ 0 ∨ cnt = 0 ∨ 4096 < cnt * k then .error ⟨cDESC_INVALID, 0, 0⟩
  else if lsBytes < src + cnt * k then .error ⟨cLS_RANGE, src, 0⟩
  else if dst % k ≠ 0 then .error ⟨cMISALIGNED, dst, k⟩
  else match globalCheck s i.c dst (cnt * k) true true with
  | .error x => .error x
  | .ok p => match firstPoison s.poison (lsAddr i.c + src) (cnt * k) with
    | some a => .error ⟨cPOISONED, a - lsAddr i.c, 0⟩
    | none => .ok ⟨oper, etype, readBytes s.mem (lsAddr i.c + src) (cnt * k), dst, p⟩

/-- Combines elements into the core's own local store; a poisoned element stays, and is reported, and so is a WIDE sum that falls back
(R89, R94, R166, R303). The answer: the state, whether an element was poisoned, and whether one fell back. -/
def redLocal (oper etype : Nat) (base : Nat) : Nat → List Nat → State × Bool × Bool → State × Bool × Bool
  | 0, _, acc => acc
  | n + 1, data, (s, p, v) =>
    let k := elemSize oper
    let a := base
    if isPoisoned s.poison a k then redLocal oper etype (base + k) n (data.drop k) (s, true, v)
    else
      let r := redElem oper etype (readBytes s.mem a k) (data.take k)
      redLocal oper etype (base + k) n (data.drop k) (s.setBytes a r.1, p, v || r.2)

/-- The parts of a byte range by 128-byte line: address and length. -/
def lineParts (a n : Nat) : List (Nat × Nat) :=
  if n = 0 then [] else (List.range ((a + n - 1) / 128 - a / 128 + 1)).map (fun j =>
    let lo := max a (128 * (a / 128 + j))
    let hi := min (a + n) (128 * (a / 128 + j) + 128)
    (lo, hi - lo))

/-- Sends a thread's REDUCE to the homes of its lines; a replayed one that the filter knows is acknowledged by the port
(R456). -/
def redSend (i : Ctx) (s : State) (t a : Nat) (r : RedDo) : State :=
  if (thr (grp (s.core i.c) i.g) t).redSkip ≠ 0 then
    s.modThread i.c i.g t (fun th => { th with redSkip := th.redSkip - 1, redSent := th.redSent + 1 })
  else
    let parts := lineParts a r.data.length
    let id := s.llc.nextReq
    let s := { s with llc := { s.llc with
      nextReq := id + 1
      redReqs := s.llc.redReqs ++ [⟨id, i.c, i.g, t, parts.length, false, false, a, none⟩] } }
    let s := parts.foldl (fun s (b, n) =>
      sendHome (meterLine s i.c b n) i.c i.g t b (.reduce r.oper r.etype ((r.data.drop (b - a)).take n) id)) s
    let s := addWrite s i.c i.g t
    let s := s.modThread i.c i.g t (fun th => { th with redSent := th.redSent + 1 })
    s.modCore i.c (fun k => { k with redOut := k.redOut + 1 })

/-- REDUCE: every thread with a true guard sends its own; not ready while the core would hold more than 64 (R166). -/
def execReduce (x : Site) (w : Word64) (s : State) : Outcome :=
  let legal := legalD 0x1A 0 false false w
  let srcs := descSrcs w 32
  let full := match issueCtx s x w srcs [] with
    | none => false
    | some i => decide (64 < (s.core i.c).redOut + i.active.length)
  coreRow (isRow 0x1A 0 w) w (if legal && full then s else issue s x w srcs [] legal fun s i =>
    let gr := grp (s.core i.c) i.g
    let (oks, fs) := runThreads i (fun t =>
      match readDesc s gr i t 4 32 with
      | .error e => .fault e
      | .ok (d, _) => match redCheck s i d with
        | .error e => .fault e
        | .ok r => .ok r)
    let s := oks.foldl (fun s (t, r) => match r.place with
      | .own off =>
        let (s, p, v) := redLocal r.oper r.etype (lsAddr i.c + off) (r.data.length / elemSize r.oper) r.data (s, false, false)
        let s := if v then addTaskCounter s i.c tcWindow 1 else s
        if p then
          raiseFault (countConsumed s (coreUnit i.c) r.dst) i.c
            { threadRec s i.c i.g 0xFF 0 2 ⟨cPOISONED, r.dst, 0⟩ with thread := 0xFF }
        else s
      | .glob a => redSend i s t a r) s
    faultSet (countPoisoned (advance s i (goOn i fs) (i.pc + 8)) (coreUnit i.c) fs) i 0 fs)

/-! ## PIN and UNPIN (R167, R246 to R249) -/

/-- The checks of a PIN descriptor: the range must lie in one window, whatever its rights. -/
def pinCheck (s : State) (i : Ctx) (d : List Nat) : Except Cause (Nat × Place) :=
  let n := fieldLe d 4 4
  let a := fieldLe d 8 8
  if n % 128 ≠ 0 ∨ n < 128 ∨ 0x100000 < n ∨ a % 128 ≠ 0 then .error ⟨cDESC_INVALID, 0, 0⟩
  else (globalCheck s i.c a n false false).map (fun p => (n, p))

/-- Sends the lines of a PIN or UNPIN; lines that are always resident need no request, and PDST is 1 (R167). -/
def pinSend (unpin : Bool) (w : Word64) (i : Ctx) (s : State) (t n : Nat) (p : Place) : State :=
  match p with
  | .own _ => s.modGrp i.c i.g (fun gr => writePred gr t (dPdst w) true)
  | .glob a =>
    if !isHbm a && addrModule a == s.modId then s.modGrp i.c i.g (fun gr => writePred gr t (dPdst w) true)
    else
      let cls := match coreTask s i.c with | some t => t.cls | none => 0
      let id := s.llc.nextReq
      let s := { s with llc := { s.llc with
        nextReq := id + 1
        pinReqs := s.llc.pinReqs ++ [⟨id, i.c, i.g, t, dPdst w, n / 128, true⟩] } }
      let s := (List.range (n / 128)).foldl (fun s j => sendHome s i.c i.g t (a + 128 * j) (.pinLine unpin cls id)) s
      s.modGrp i.c i.g (fun gr => awaitReq gr t id i.pc 0xC0 0 (if dPdst w = 7 then none else some (dPdst w)))

/-- A PIN row: OP 0 pins, OP 1 unpins. -/
def pinRow (op : Nat) (x : Site) (w : Word64) (s : State) : Outcome :=
  coreRow (isRow 0x1B op w) w (issue s x w (descSrcs w 16) [] (legalD 0x1B op false true w) fun s i =>
    let gr := grp (s.core i.c) i.g
    let (oks, fs) := runThreads i (fun t =>
      match readDesc s gr i t 5 16 with
      | .error e => .fault e
      | .ok (d, _) => match pinCheck s i d with
        | .error e => .fault e
        | .ok r => .ok r)
    let s := oks.foldl (fun s (t, n, p) => pinSend (op == 1) w i s t n p) s
    faultSet (countPoisoned (advance s i (goOn i fs) (i.pc + 8)) (coreUnit i.c) fs) i 0 fs)

/-- PIN. -/
def execPin (x : Site) (w : Word64) (s : State) : Outcome := pinRow 0 x w s
/-- UNPIN. -/
def execUnpin (x : Site) (w : Word64) (s : State) : Outcome := pinRow 1 x w s

end Sys2Proof.Machine
end

