-- ==== Sys2Proof/Machine/Grid.lean ====
section
/-! DEFINITION. The matrix grid (chapter 07) and its exact accumulation (chapter 04). -/

namespace Sys2Proof.Machine

/-! ## The MMA descriptor (R179 to R181) -/

/-- The fields of an MMA descriptor. -/
structure MmaD where
  atype : Nat
  btype : Nat
  flags : Nat
  dfmt  : Nat
  init  : Nat
  acc   : Nat
  m     : Nat
  n     : Nat
  k     : Nat
  aOff  : Nat
  aStr  : Nat
  bOff  : Nat
  bStr  : Nat
  saOff : Nat
  sbOff : Nat
  saStr : Nat
  sbStr : Nat
  wiOff : Nat
  dOff  : Nat
  dStr  : Nat
  wiStr : Nat
deriving DecidableEq, Repr

def mmaD (d : List Nat) : MmaD :=
  let f := fieldLe d
  ⟨f 4 1, f 5 1, f 6 1, f 7 1, f 8 1, f 9 1, f 10 1, f 11 1, f 12 4, f 16 4, f 20 4, f 24 4, f 28 4, f 32 4, f 36 4,
   f 40 2, f 42 2, f 44 4, f 48 4, f 52 4, f 56 4⟩

def MmaD.mx (d : MmaD) : Bool := nbit d.flags 0
def MmaD.clamp (d : MmaD) : Bool := nbit d.flags 1
def MmaD.drain (d : MmaD) : Bool := nbit d.flags 2

/-- Whether a pairing accumulates in FP32 (R96). -/
def MmaD.half (d : MmaD) : Bool := decide (d.atype ≤ 2)

def narrowFp (c : Nat) : Bool := decide (5 ≤ c ∧ c ≤ 9)
def narrowInt (c : Nat) : Bool := c == 0xA || c == 0xB

/-- The pairings of R79. -/
def pairOk (d : MmaD) : Bool :=
  if d.mx then (narrowFp d.atype && narrowFp d.btype) || (d.atype == 0xC && d.btype == 0xC)
  else (narrowFp d.atype && narrowFp d.btype) || (narrowInt d.atype && narrowInt d.btype) ||
    (decide (d.atype ≤ 2) && d.atype == d.btype)

/-- Bytes of `n` packed elements of a type (R77). -/
def packed (c n : Nat) : Nat := ceilDiv (n * typeBits c) 8

/-- Bytes of a drained element (R180). -/
def drainBytes (f : Nat) : Nat := if f = 1 ∨ f = 2 then 2 else if f = 4 then 16 else 4

/-- K must be a multiple of this (R181). -/
def kUnit (d : MmaD) : Nat :=
  if d.mx then 32
  else if d.atype = 7 ∨ d.atype = 8 ∨ d.btype = 7 ∨ d.btype = 8 then 4
  else if d.atype = 9 ∨ d.atype = 0xB ∨ d.btype = 9 ∨ d.btype = 0xB then 2 else 1

/-- The byte ranges of local store that an MMA reads or writes: offset, stride, rows, bytes of a row. -/
def mmaRanges (d : MmaD) : List (Nat × Nat × Nat × Nat) :=
  [(d.aOff, d.aStr, d.m, packed d.atype d.k), (d.bOff, d.bStr, d.n, packed d.btype d.k)] ++
  (if d.mx then [(d.saOff, d.saStr, d.m, d.k / 32), (d.sbOff, d.sbStr, d.n, d.k / 32)] else []) ++
  (if d.init = 2 then [(d.wiOff, d.wiStr, d.m, 16 * d.n)] else []) ++
  (if d.drain then [(d.dOff, d.dStr, d.m, drainBytes d.dfmt * d.n)] else [])

/-- The first byte of a range at or above the end of the local store. -/
def rangeBad (r : Nat × Nat × Nat × Nat) : Option Nat :=
  let (o, st, n, b) := r
  (List.range n).findSome? (fun i => if lsBytes < o + i * st + b then some (max (o + i * st) lsBytes) else none)

/-- The record of R183, as a continuation sees it. -/
def recordAllows (r : Option SetRec) (d : MmaD) : Bool :=
  match r with
  | none => false
  | some r => r.atype == d.atype && r.btype == d.btype && r.mx == d.mx

/-- The conditions of step 3 of R181, other than the record of INIT 1. -/
def mmaFields (d : MmaD) (dual : Bool) : Bool :=
  let offs := [d.aOff, d.aStr, d.bOff, d.bStr, d.saOff, d.sbOff, d.saStr, d.sbStr, d.wiOff, d.dOff, d.dStr, d.wiStr]
  decide (1 ≤ d.m ∧ d.m ≤ 64 ∧ 1 ≤ d.n ∧ d.n ≤ 64 ∧ 1 ≤ d.k ∧ d.k ≤ 65536) && d.k % kUnit d == 0 &&
  offs.all (fun o => o % 16 == 0) &&
  decide (packed d.atype d.k ≤ d.aStr ∧ packed d.btype d.k ≤ d.bStr) &&
  (!d.mx || decide (d.k / 32 ≤ d.saStr ∧ d.k / 32 ≤ d.sbStr)) &&
  (!d.drain || decide (drainBytes d.dfmt * d.n ≤ d.dStr)) && (d.init != 2 || decide (16 * d.n ≤ d.wiStr)) &&
  (d.dfmt != 3 || narrowInt d.atype) && !(d.half && (d.dfmt == 4 || d.init == 2)) &&
  (d.drain || (d.dfmt == 0 && d.dOff == 0 && d.dStr == 0)) &&
  (d.mx || (d.saOff == 0 && d.sbOff == 0 && d.saStr == 0 && d.sbStr == 0)) &&
  (d.init == 2 || (d.wiOff == 0 && d.wiStr == 0)) && !(dual && decide (1 < d.acc))

/-- Codes that ATYPE and BTYPE may hold (R179). -/
def mmaType (c : Nat) : Bool := c == 1 || c == 2 || decide (5 ≤ c ∧ c ≤ 12)

/-- The checks of R181 in their order. -/
def mmaCheck (s : State) (i : Ctx) (_t : Nat) (b : List Nat) : Option Cause :=
  let d := mmaD b
  let dual := taskFlag s i.c flagDual
  if fieldLe b 60 4 ≠ 0 ∨ 8 ≤ d.flags ∨ ¬ mmaType d.atype ∨ ¬ mmaType d.btype ∨ 2 < d.init ∨ 3 < d.acc ∨ 4 < d.dfmt then
    some ⟨cDESC_INVALID, 0, 0⟩
  else if !pairOk d then some ⟨cFORMAT_PAIR, 0, 0⟩
  else if !mmaFields d dual || (d.init == 1 && !recordAllows (tget none (s.core i.c).setRecs d.acc) d) then
    some ⟨cDESC_INVALID, 0, 0⟩
  else ((mmaRanges d).findSome? rangeBad).map (fun a => ⟨cLS_RANGE, a, 0⟩)

/-- MMA (R165, R179, R183): the grid's queue takes it, and the issue-time record of its set changes. -/
def mmaPut (s : State) (i : Ctx) (o : Origin) (b : List Nat) (ls : Bool) : State :=
  let d := mmaD b
  s.modCore i.c (fun k => { k with
    mmaQ := k.mmaQ ++ [⟨o, b, ls, .queued⟩]
    setRecs := tset none k.setRecs d.acc (if d.drain then none else some ⟨d.atype, d.btype, d.mx⟩) })

def execMma (x : Site) (w : Word64) (s : State) : Outcome :=
  singleIssue 0x17 kindMma 64 (fun k => decide (8 ≤ k.mmaQ.length)) mmaCheck mmaPut x w s

/-! ## Elements and scales in local store (R77, R78, R180) -/

/-- The code of element `j` of a packed run at local-store address `base`. -/
def elemCode (m : List Host.Cell) (base c j : Nat) : Nat :=
  let wd := typeBits c
  let bit := j * wd
  (leNat (readBytes m (base + bit / 8) 3) >>> (bit % 8)) % 2 ^ wd

/-- Exponent of a format's least significant weight (R80). -/
def typeLsb (c : Nat) : Int := match typeFmt c with
  | some f => lsbExp f
  | none => if c = 0xC then -6 else 0

/-- Span of a format (R80). -/
def typeSpan (c : Nat) : Nat :=
  if c = 6 then 32 else if c = 5 then 18 else if c = 7 then 9 else if c = 8 then 6 else if c = 9 ∨ c = 0xB then 4 else 8

/-- The window W of a pairing (R85). -/
def windowOf (a b : Nat) : Int := min 32 (72 - ((typeSpan a + typeSpan b : Nat) : Int))

/-- An element as an integer at its format's LSB exponent. -/
def elemInt (c : Nat) : FVal → Int
  | .fin n m e => signed n (m * 2 ^ (e - typeLsb c).toNat)
  | _ => 0

/-- A sum of products: exact integer at the product LSB exponent, and the sticky flags (R83). -/
structure Part where
  a    : Int
  nan  : Bool
  pinf : Bool
  ninf : Bool
deriving DecidableEq, Repr

/-- Adds one product (R83): products of NaN or infinity touch only the flags. R83 does not name the sign of infinity times
infinity: DESIGN CHOICE, the product's sign, as for every other product (log 107). -/
def addProduct (ca cb : Nat) (p : Part) (x y : FVal) : Part :=
  match mulV x y with
  | .nan => { p with nan := true }
  | .inf n => if n then { p with ninf := true } else { p with pinf := true }
  | .fin _ _ _ => { p with a := p.a + elemInt ca x * elemInt cb y }

/-- What the grid reads of one MMA's operands. -/
structure Operand where
  base  : Nat      -- address of row 0
  str   : Nat
  sBase : Nat
  sStr  : Nat
  typ   : Nat
  mx    : Bool
deriving DecidableEq, Repr

def opA (c : Nat) (d : MmaD) : Operand := ⟨lsAddr c + d.aOff, d.aStr, lsAddr c + d.saOff, d.saStr, d.atype, d.mx⟩
def opB (c : Nat) (d : MmaD) : Operand := ⟨lsAddr c + d.bOff, d.bStr, lsAddr c + d.sbOff, d.sbStr, d.btype, d.mx⟩

/-- The scale code of block `kb` of row `i`. -/
def scaleAt (m : List Host.Cell) (o : Operand) (i kb : Nat) : Nat := (memGet m (o.sBase + i * o.sStr + kb)).toNat

/-- Element `k` of row `i`; a NaN scale makes the block read as NaN (R78). -/
def elemAt (m : List Host.Cell) (o : Operand) (i k : Nat) : FVal :=
  if o.mx && scaleAt m o i (k / 32) == 0xFF then .nan else decodeT o.typ (elemCode m (o.base + i * o.str) o.typ k)

/-- Whether the 32 elements of a block are all zero (R84). -/
def blockZero (m : List Host.Cell) (o : Operand) (i kb : Nat) : Bool :=
  (List.range 32).all (fun j => isZeroV (elemAt m o i (32 * kb + j)))

/-- The scale codes of a K-block that count in the window (R84): of the rows whose block is not all zero. -/
def blockScales (m : List Host.Cell) (o : Operand) (rows kb : Nat) : List Nat :=
  ((List.range rows).filter (fun i => !blockZero m o i kb)).map (fun i => scaleAt m o i kb)

def listMin : List Int → Option Int
  | [] => none
  | x :: xs => some (xs.foldl min x)
def listMax : List Int → Option Int
  | [] => none
  | x :: xs => some (xs.foldl max x)

/-- The least and greatest combined scales of the tile by K-block (R84). -/
def tileScales (m : List Host.Cell) (a b : Operand) (d : MmaD) : List Int :=
  (List.range (d.k / 32)).flatMap (fun kb =>
    let sa := (blockScales m a d.m kb).map Int.ofNat
    let sb := (blockScales m b d.n kb).map Int.ofNat
    match listMin sa, listMax sa, listMin sb, listMax sb with
    | some la, some ha, some lb, some hb => [la + lb - 254, ha + hb - 254]
    | _, _, _, _ => [])

/-! ## Starting a tile (R81 to R88, R95, R182 to R184) -/

def accOf (k : Core) (i : Nat) : AccSet := tget AccSet.empty k.accs i
def elemOf (x : AccSet) (i j : Nat) : AccElem := tget AccElem.zero x.elems (64 * i + j)

/-- The records that initialise the tile: the WIDE tile of INIT 2, or the set's content for a microscaled CONTINUE. -/
def initRecords (m : List Host.Cell) (c : Nat) (d : MmaD) (old : AccSet) : List (Nat × Wide) :=
  let cells := (List.range d.m).flatMap (fun i => (List.range d.n).map (fun j => (i, j)))
  if d.init = 2 then
    cells.map (fun (i, j) => (64 * i + j, decodeWide (readBytes m (lsAddr c + d.wiOff + i * d.wiStr + 16 * j) 16)))
  else cells.map (fun (i, j) =>
    let e := elemOf old i j
    (64 * i + j, ⟨e.a, if old.ordered then e.l else old.lexp, e.nan, e.pinf, e.ninf, false, old.ordered⟩))

/-- The window set of a tile (R84): its combined scales and the L of its records; a pairing without scales has the product LSB
exponent in place of the scales (R95). -/
def windowSet (d : MmaD) (lsb : Int) (scales : List Int) (recs : List (Nat × Wide)) : List Int :=
  (if d.mx then scales else if recs = [] then [] else [lsb]) ++ recs.map (fun r => r.2.l)

/-- Whether the window set spans at most W − 1 binades (R84). -/
def inWindow (d : MmaD) (win : List Int) : Bool :=
  match listMin win, listMax win with
  | some a, some b => decide (b - a ≤ windowOf d.atype d.btype - 1)
  | _, _ => true

/-- A register's LSB exponent without records (R81): that of the products, at the lowest combined scale. -/
def scaleL (d : MmaD) (lsb : Int) (scales : List Int) : Option Int :=
  if d.mx then (listMin scales).map (lsb + ·) else some lsb

/-- A tile started from records (R84, R88, R95): ordered for an ordered record or a window that is left, else exact. R95 aligns every
exact record of the window, and R81's L has no place for one below it: the register's L is then the record's, and a record that
does not fit the register at that L starts the tile in ordered mode (DESIGN CHOICE, log 106). -/
def startTile (d : MmaD) (scales : List Int) (recs : List (Nat × Wide)) (count : Nat) (free : Int) : AccSet :=
  let lsb := typeLsb d.atype + typeLsb d.btype
  let recL := recs.map (fun r => r.2.l)
  let l := match listMin ((scaleL d lsb scales).toList ++ recL) with
    | some l => l
    | none => free
  let held := recs.all (fun r => !r.2.ordered && fits96 (r.2.a * 2 ^ (r.2.l - l).toNat))
  let exact := inWindow d (windowSet d lsb scales recs) && held
  let elem := fun (r : Wide) =>
    if exact then (⟨r.a * 2 ^ (r.l - l).toNat, 0, r.nan, r.pinf, r.ninf, 0⟩ : AccElem)
    else
      let p := toExt48 r
      ⟨p.1, p.2, r.nan, r.pinf, r.ninf, 0⟩
  ⟨!exact, l, count, recs.foldl (fun t (i, r) => tset AccElem.zero t i (elem r)) []⟩

/-- An MX CONTINUE: a new tile over the set's content (R183), which is complete once the MMAs before it have put their products in
(R184). -/
def MmaD.rebases (d : MmaD) : Bool := d.init == 1 && d.mx

/-- The set as an MMA finds it before its first product. -/
def startSet (m : List Host.Cell) (c : Nat) (d : MmaD) (old : AccSet) (free : Int) : AccSet :=
  let scales := if d.mx then tileScales m (opA c d) (opB c d) d else []
  if d.init = 0 then (if d.half then AccSet.empty else startTile d scales [] 0 free)
  else if d.init = 2 then startTile d scales (initRecords m c d old) 1 free
  else if d.mx then startTile d scales (initRecords m c d old) old.count free
  else old

/-- Local-store words that an MMA's feeders read and that are poisoned (R201, R303). -/
def feederPoison (s : State) (c : Nat) (d : MmaD) : Option Nat :=
  let rs := (mmaRanges d).take (2 + (if d.mx then 2 else 0) + (if d.init = 2 then 1 else 0))
  rs.findSome? (fun (o, st, n, b) =>
    (List.range n).findSome? (fun i => firstPoison s.poison (lsAddr c + o + i * st) b))

/-- Changes the set of an MMA, and the shadow set of a DUAL task alike (R202). -/
def setAcc (s : State) (c : Nat) (acc : Nat) (x : AccSet) : State :=
  s.modCore c (fun k =>
    let k := { k with accs := tset AccSet.empty k.accs acc x }
    if taskFlag s c flagDual then { k with accs := tset AccSet.empty k.accs (acc + 2) x } else k)

def modMma (s : State) (c seq : Nat) (f : MmaOp → MmaOp) : State :=
  s.modCore c (fun k => { k with mmaQ := k.mmaQ.map (fun o => if o.org.seq = seq then f o else o) })

/-- K-steps of an MMA (R177), twice over for a DUAL task (R202). -/
def mmaSteps (s : State) (c : Nat) (d : MmaD) : Nat :=
  let four := fun t => typeBits t == 4
  let n := if four d.atype && four d.btype then d.k / 2 else if d.half then 2 * d.k else d.k
  if taskFlag s c flagDual then 2 * n else n

/-- Takes an MMA out of the grid; its ticket is complete (R185, R186). -/
def endMma (s : State) (c seq : Nat) : State :=
  wakeTickets (s.modCore c (fun k => { k with mmaQ := k.mmaQ.filter (fun o => o.org.seq != seq) })) c

/-- Whether the head may start (R184, R198): the grid runs or its notice is acknowledged, no earlier MMA still waits, its set
has no drain outstanding, and a new tile finds no other MMA streaming in it. -/
def mmaMayStart (k : Core) (o : MmaOp) : Bool :=
  let d := mmaD o.desc
  let same := k.mmaQ.filter (fun p => p.org.seq != o.org.seq && (mmaD p.desc).acc == d.acc)
  (k.grid == .running || k.grid == .dummy || k.grid == .acked) &&
  same.all (fun p => p.phase != .draining && p.phase != .products) &&
  (d.init == 1 || same.all (fun p => p.phase != .streaming))

/-- An MMA whose feeder met a poisoned word leaves the grid (R160, R201). -/
def poisonMma (s : State) (core : CoreId) (o : MmaOp) (a : Nat) : State :=
  engineFault (s.modCore core (fun k => { k with mmaQ := k.mmaQ.filter (fun p => p.org.seq != o.org.seq) }))
    core kindMma (coreUnit core) o.org ⟨cPOISONED, a - lsAddr core, 0⟩

/-- A set starts a tile; one in ordered mode is a window exception (R89, R182). -/
def beginTile (s : State) (core : CoreId) (d : MmaD) : State :=
  let x := startSet s.mem core d (accOf (s.core core) d.acc) (Config.zeroTileL s.fresh)
  let s := { setAcc s core d.acc x with fresh := s.fresh + 1 }
  if x.ordered && (d.init != 1 || d.mx) then addTaskCounter s core tcWindow 1 else s

/-- MMA_START (R82 to R87, R182 to R184): the head of the queue starts; its tile's mode is fixed. A poisoned operand ends
it. -/
def execMmaStart (core : CoreId) (s : State) : Outcome :=
  .next (let k := s.core core
    match k.mmaQ.find? (fun o => o.phase == .queued) with
    | none => s
    | some o =>
      let d := mmaD o.desc
      if ¬ coreIssues s core ∨ ¬ mmaMayStart k o then s
      else match feederPoison s core d with
      | some a => poisonMma s core o a
      | none =>
        let s := countCore s core 0x0D 1 none
        let s := if d.rebases then s else beginTile s core d
        let s := modMma s core o.org.seq (fun o => { o with phase := .streaming })
        s.modCore core (fun k => { k with grid := .running }))

/-! ## Products (R81 to R83, R88, R96) -/

/-- Products that one register takes exactly (R82). -/
def maxExact : Nat := 2 ^ 24

/-- The sum of the products `lo` to `hi − 1` of one element. -/
def blockPart (m : List Host.Cell) (a b : Operand) (i j lo hi : Nat) : Part :=
  ((List.range (hi - lo)).map (· + lo)).foldl (fun p k => addProduct a.typ b.typ p (elemAt m a i k) (elemAt m b j k))
    ⟨0, false, false, false⟩

/-- Combined scale of block `kb` for element (i, j); 0 without microscaling. -/
def blockE (m : List Host.Cell) (a b : Operand) (i j kb : Nat) : Int :=
  if a.mx then (scaleAt m a i kb : Int) + (scaleAt m b j kb : Int) - 254 else 0

/-- One K-block into one element: exact below the limit of R82, ordered from then on (R88). -/
def addBlock (m : List Host.Cell) (a b : Operand) (i j kTop : Nat) (lexp lsb : Int) (x : AccElem × Bool) (kb : Nat)
    (exact : Bool) : AccElem × Bool :=
  let p := blockPart m a b i j (32 * kb) (min (32 * kb + 32) kTop)
  let e := x.1
  let fl := fun (v : AccElem) => { v with nan := v.nan || p.nan, pinf := v.pinf || p.pinf, ninf := v.ninf || p.ninf }
  let be := blockE m a b i j kb
  if exact then (fl { e with a := reg96 (e.a + p.a * 2 ^ (lsb + be - lexp).toNat) }, x.2)
  else
    let cur := if x.2 then (e.a, e.l) else round48 e.a lexp
    let q := round48 p.a (lsb + be)
    let sum := addScaled cur.1 cur.2 q.1 q.2
    let r := round48 sum.1 sum.2
    (fl { e with a := r.1, l := r.2 }, true)

/-- One element after the MMA's K products. `xk` K-blocks of it are exact. -/
def accElement (m : List Host.Cell) (a b : Operand) (d : MmaD) (old : AccSet) (xk i j : Nat) : AccElem :=
  let e := elemOf old i j
  if d.half then
    { e with f := ((List.range d.k).foldl (fun c k =>
      toF32 (addV (mulV (elemAt m a i k) (elemAt m b j k)) (f32V c))) e.f) }
  else
    let lsb := typeLsb d.atype + typeLsb d.btype
    ((List.range (ceilDiv d.k 32)).foldl (fun x kb => addBlock m a b i j d.k old.lexp lsb x kb (decide (kb < xk)))
      (e, old.ordered)).1

/-- K-blocks of the MMA that stay exact: none in ordered mode, else those before the block of product 2^24 + 1 (R82). -/
def exactBlocks (d : MmaD) (old : AccSet) : Nat :=
  if old.ordered then 0
  else if old.count + d.k ≤ maxExact then ceilDiv d.k 32
  else (maxExact - old.count) / 32

/-- The set after the MMA's products. -/
def accSet (m : List Host.Cell) (c : Nat) (d : MmaD) (old : AccSet) : AccSet :=
  let a := opA c d
  let b := opB c d
  let xk := exactBlocks d old
  let cells := (List.range d.m).flatMap (fun i => (List.range d.n).map (fun j => (i, j)))
  let ord := !d.half && (old.ordered || decide (xk < ceilDiv d.k 32))
  ⟨ord, old.lexp, old.count + d.k,
   cells.foldl (fun t (i, j) => tset AccElem.zero t (64 * i + j) (accElement m a b d old xk i j)) old.elems⟩

/-- MMA_LAST_PRODUCT (R81 to R83, R88, R96, R183, R185): the oldest streaming MMA's products are complete; without DRAIN its
ticket completes. An MX CONTINUE takes its set over here, with the products of the MMAs before it in place. Passing 2^24 products is
a window exception (R82, R89); a word that has become poisoned, or that the operands' reads find bad, ends the MMA (R201). -/
def execMmaLastProduct (read : CoreRead) (s : State) : Outcome :=
  .next (let core := read.core
    let k := s.core core
    match k.mmaQ.find? (fun o => o.phase == .streaming) with
    | none => s
    | some o =>
      let d := mmaD o.desc
      if ¬ coreIssues s core then s
      else
      let s := findErrs core s read.errs
      match feederPoison s core d with
      | some a => poisonMma s core o a
      | none =>
        let s := if d.rebases then beginTile s core d else s
        let old := accOf (s.core core) d.acc
        let x := accSet s.mem core d old
        let s := countFixed (setAcc s core d.acc x) core 3 (mmaSteps s core d)
        let s := if x.ordered && !old.ordered then addTaskCounter s core tcWindow 1 else s
        if d.drain then modMma s core o.org.seq (fun o => { o with phase := .products }) else endMma s core o.org.seq)

/-! ## Drain (R90 to R92, R186, R200, R203) -/

/-- The value of an exact or ordered element as flags and a finite part. -/
def elemVal (x : AccSet) (e : AccElem) : FVal :=
  if e.nan || (e.pinf && e.ninf) then .nan
  else if e.pinf then .inf false
  else if e.ninf then .inf true
  else .fin (decide (e.a < 0)) e.a.natAbs (if x.ordered then e.l else x.lexp)

/-- Rounds a drained value to a format: infinities stay, a finite overflow follows FINCLAMP (R90). -/
def drainFmt (f : FFmt) (clamp : Bool) (v : FVal) : Nat :=
  match v with
  | .inf n => infCode f n
  | .fin n m e => if m = 0 then 0 else encodeF f .nearest clamp (.fin n m e)
  | .nan => nanCode f

/-- Rounds an FP32 accumulator to a format (R90, R96); a zero keeps its sign. -/
def halfFmt (f : FFmt) (clamp : Bool) (v : FVal) : Nat :=
  match v with
  | .inf n => infCode f n
  | .fin n m e => encodeF f .nearest clamp (.fin n m e)
  | .nan => nanCode f

/-- The exact integer of an integer pairing, saturated to INT32 (R91); the answer tells whether it saturated. -/
def drainInt (x : AccSet) (e : AccElem) : Nat × Bool :=
  let l := if x.ordered then e.l else x.lexp
  let v : Int := if 0 ≤ l then e.a * 2 ^ l.toNat else e.a / 2 ^ (-l).toNat
  if v > 2 ^ 31 - 1 then (0x7FFFFFFF, true) else if v < -2 ^ 31 then (0x80000000, true) else (trunc 32 v, false)

/-- The bytes of one drained element, and whether it saturated. Whether a WIDE drain of an ordered element carries the WINDOW
bit R93 does not say: DESIGN CHOICE, it does, with ORDERED (log 107). -/
def drainElem (d : MmaD) (x : AccSet) (e : AccElem) : List Nat × Bool :=
  if d.dfmt = 4 then
    (encodeWide ⟨e.a, if x.ordered then e.l else x.lexp, e.nan, e.pinf, e.ninf, x.ordered, x.ordered⟩, false)
  else if d.dfmt = 3 then
    let r := drainInt x e
    (natLe 4 r.1, r.2)
  else
    let fm := if d.dfmt = 0 then fp32 else if d.dfmt = 1 then bf16 else fp16
    let code := if d.half then halfFmt fm d.clamp (f32V e.f) else drainFmt fm d.clamp (elemVal x e)
    (natLe (drainBytes d.dfmt) code, false)

/-- One drained row. -/
def drainRow (d : MmaD) (x : AccSet) (i : Nat) : List Nat × Nat :=
  (List.range d.n).foldl (fun (bs, n) j =>
    let r := drainElem d x (elemOf x i j)
    (bs ++ r.1, if r.2 then n + 1 else n)) ([], 0)

/-- DRAIN_START (R186, R200): a set whose products are complete drains when no other does. The residue and parity checks
come first: a mismatch writes nothing and is a fault of the core. -/
def execDrainStart (core : CoreId) (fault : Option GridFault) (s : State) : Outcome :=
  .next (let k := s.core core
    match k.mmaQ.find? (fun o => o.phase == .products) with
    | none => s
    | some o =>
      if ¬ coreIssues s core ∨ k.mmaQ.any (fun p => p.phase == .draining) then s
      else match fault with
      | none => modMma s core o.org.seq (fun o => { o with phase := .draining })
      | some .parity => coreFault s core rasGridParity
      | some .residue => coreFault s core rasGridResidue)

/-- The rows of a drain as local-store offset and bytes, and its saturated elements (R90 to R92, R180). -/
def drainRows (d : MmaD) (x : AccSet) : List (Nat × List Nat) × Nat :=
  let rows := (List.range d.m).map (fun i => (d.dOff + i * d.dStr, drainRow d x i))
  (rows.map (fun r => (r.1, r.2.1)), (rows.map (fun r => r.2.2)).sum)

/-- Writes pieces of a core's local store. -/
def storeLocal (s : State) (c : Nat) (ws : List (Nat × List Nat)) : State :=
  ws.foldl (fun s (off, b) => storeBytes s (lsAddr c + off) b) s

/-- DRAIN_COMPLETE (R90 to R92, R180, R186): the rows are in local store and the ticket completes. In a DUAL task the two
sets are compared first; where they differ nothing is written (R203). -/
def execDrainComplete (core : CoreId) (mismatch : Bool) (s : State) : Outcome :=
  .next (let k := s.core core
    match k.mmaQ.find? (fun o => o.phase == .draining) with
    | none => s
    | some o =>
      let d := mmaD o.desc
      if ¬ coreIssues s core then s
      else if mismatch ∧ taskFlag s core flagDual then coreFault s core rasDualMismatch
      else
        let r := drainRows d (accOf k d.acc)
        endMma (setAcc (addTaskCounter (storeLocal s core r.1) core tcDrainSat r.2) core d.acc AccSet.empty) core o.org.seq)

/-! ## Cancelled writes (R201, R225, R226) -/

/-- Whether the free choice keeps the 16-byte group at an address. -/
def keepGroup (s : State) (a : Nat) : Bool := nbit (Config.freeByte (s.fresh + a / 16)).toNat 0

/-- Writes of which a stop leaves a free part, by whole aligned 16-byte groups; `put` writes one piece. -/
def partWrite (put : State → Nat → List Nat → State) (s : State) (ws : List (Nat × List Nat)) : State :=
  let s' := (ws.filter (fun w => keepGroup s w.1)).foldl (fun s w => put s w.1 w.2) s
  { s' with fresh := s'.fresh + 2 ^ 60 }

/-- A write cut at the boundaries of 16-byte groups. -/
def cut16 : Nat → Nat → List Nat → List (Nat × List Nat)
  | 0, _, _ => []
  | _, _, [] => []
  | f + 1, a, b =>
    let n := 16 - a % 16
    (a, b.take n) :: cut16 f (a + n) (b.drop n)

def cutAll (ws : List (Nat × List Nat)) : List (Nat × List Nat) := ws.flatMap (fun w => cut16 (w.2.length + 1) w.1 w.2)

/-- A drain that had started when the task stopped may have written part of its rows (R201). -/
def cancelDrains (s : State) (c : Nat) : State :=
  ((s.core c).mmaQ.filter (fun o => o.phase == .draining)).foldl (fun s o =>
    let d := mmaD o.desc
    partWrite storeBytes s (cutAll ((drainRows d (accOf (s.core c) d.acc)).1.map (fun w => (lsAddr c + w.1, w.2))))) s

/-! ## Bursts (R196 to R199, R416) -/

/-- The cluster of a unit, its burst state, and its change. -/
def unitCluster : LoadUnit → Nat
  | .grid c => clusterOf c
  | .attn cl => cl
def unitRun (s : State) : LoadUnit → GridRun
  | .grid c => (s.core c).grid
  | .attn cl => (s.cluster cl).attnRun
def setRun (s : State) (u : LoadUnit) (r : GridRun) : State :=
  match u with
  | .grid c => s.modCore c (fun k => { k with grid := r })
  | .attn cl => s.modCluster cl (fun k => { k with attnRun := r })

def clusterCores (cl : Nat) : List Nat := (List.range 9).map (9 * cl + ·)

/-- Whether the unit has work to start: an MMA or an ATTN accepted, or a task dispatched whose notice is sent early. -/
def unitWanted (s : State) : LoadUnit → Bool
  | .grid c => (s.core c).task.isSome
  | .attn cl => (clusterCores cl).any (fun c => (s.core c).task.isSome)

/-- Whether the unit's queue is empty, so that a burst is over. -/
def unitEmpty (s : State) : LoadUnit → Bool
  | .grid c => (s.core c).mmaQ.all (fun o => o.phase != .queued && o.phase != .streaming)
  | .attn cl => (clusterCores cl).all (fun c => (s.core c).attnQ.isEmpty)


/-- A grid's load notice is one wake of its core (R198, R521). -/
def countWake (s : State) : LoadUnit → State
  | .grid c => countCore s c 0x0F 1 none
  | .attn _ => s

/-- LOAD_NOTICE (R198, R416): a stopped unit announces a burst; the IVR raises its output by min(20 mV, 0.92 V − setpoint). -/
def execLoadNotice (unit : LoadUnit) (s : State) : Outcome :=
  .next (if unitRun s unit = .stopped ∧ unitWanted s unit then
    (countWake (countEvent (setRun s unit .notice) 1 (unitCluster unit) 0x46 1 ⟨none, none, none, none, none⟩) unit).modCluster (unitCluster unit) (fun k =>
      { k with preRaise := min 20 (920 - s.regField (rCfloor (unitCluster unit)) 9 0) })
    else s)

/-- LOAD_NOTICE_ACK (R198): island 17 acknowledges, and the unit may start. -/
def execLoadNoticeAck (unit : LoadUnit) (s : State) : Outcome :=
  .next (if unitRun s unit = .notice then setRun s unit .acked else s)

/-- PRE_RAISE_RETURN (R416): the output returns to the setpoint once the bursts of the cluster have started. -/
def execPreRaiseReturn (cluster : ClusterId) (s : State) : Outcome :=
  .next (let busy := fun u => unitRun s u == .notice || unitRun s u == .acked
    if busy (.attn cluster) || (clusterCores cluster).any (fun c => (s.core c).grid == .notice || (s.core c).grid == .acked)
    then s else s.modCluster cluster (fun k => { k with preRaise := 0 }))

/-- BURST_END (R196): the unit sends END and runs dummy operations, which touch no set, store or result. -/
def execBurstEnd (unit : LoadUnit) (s : State) : Outcome :=
  .next (if unitRun s unit = .running ∧ unitEmpty s unit then setRun s unit .dummy else s)

/-- GRID_STOP (R197): 4 µs after END without a new instruction the unit stops, a pending drain first. A unit whose acknowledged notice
has no work left to start stops alike (DESIGN CHOICE, log 108). -/
def execGridStop (unit : LoadUnit) (s : State) : Outcome :=
  .next (let idle : Bool := match unit with
    | .grid c => (s.core c).mmaQ.isEmpty
    | .attn _ => unitEmpty s unit
    if (unitRun s unit = .dummy ∨ (unitRun s unit = .acked ∧ unitWanted s unit = false)) ∧ idle = true
    then setRun s unit .stopped else s)

end Sys2Proof.Machine
end

