-- ==== Sys2Proof/Machine/Xfer.lean ====
section
/-! DEFINITION. The transfer engine (chapter 08). -/

namespace Sys2Proof.Machine

/-! ## The descriptor (R210 to R214) -/

/-- An XFER in units: single elements, or whole groups of packed ones (R214). `per` elements make a unit of `es` bytes. -/
structure XferD where
  store  : Bool
  etype  : Nat
  layout : Nat
  ndim   : Nat
  flags  : Nat
  fill   : Nat
  gaddr  : Nat
  tile   : Nat
  lsOff  : Nat
  per    : Nat
  es     : Nat
  ext    : List Nat
  org    : List Int
  box    : List Nat
  gs     : List Nat     -- GSTRIDE by dimension; dimension 0 holds `es`
  ls     : List Nat     -- LSSTRIDE by dimension; dimension 0 unused
deriving DecidableEq, Repr

/-- Elements of a packing unit and its bytes (R211). -/
def xferUnit (etype : Nat) : Nat × Nat :=
  if etype = 7 ∨ etype = 8 then (4, 3)
  else if etype = 9 ∨ etype = 0xB then (2, 1)
  else if etype = 0 ∨ etype = 3 ∨ etype = 4 then (1, 4)
  else if etype = 1 ∨ etype = 2 then (1, 2)
  else if etype = 0xD then (1, 16) else (1, 1)

/-- Width of the fill value (R211). -/
def fillBits (etype : Nat) : Nat := if etype = 0xD then 0 else if etype ≤ 0xC then typeBits etype else 0

def dims5 {α : Type} (f : Nat → α) : List α := (List.range 5).map f

/-- Raw fields by dimension: EXTENT, ORIGIN, BOX, GSTRIDE, LSSTRIDE (R210). -/
def rawExt (d : List Nat) (i : Nat) : Nat := fieldLe d (32 + 4 * i) 4
def rawOrg (d : List Nat) (i : Nat) : Int := sext 32 (fieldLe d (52 + 4 * i) 4)
def rawBox (d : List Nat) (i : Nat) : Nat := fieldLe d (72 + 2 * i) 2
def rawGs (d : List Nat) (i : Nat) : Nat := if i = 0 then 0 else fieldLe d (82 + 6 * i) 6
def rawLs (d : List Nat) (i : Nat) : Nat := if i = 0 then 0 else fieldLe d (108 + 4 * i) 4

/-- The descriptor with dimensions at or above NDIM as EXTENT 1, ORIGIN 0, BOX 1. -/
def xferD (d : List Nat) : XferD :=
  let et := fieldLe d 5 1
  let n := fieldLe d 7 1
  let (per, es) := xferUnit et
  let p := fun (i : Nat) => if i = 0 then per else 1
  { store := fieldLe d 4 1 == 1, etype := et, layout := fieldLe d 6 1, ndim := n, flags := fieldLe d 8 2,
    fill := fieldLe d 12 4, gaddr := fieldLe d 16 8, tile := fieldLe d 24 4, lsOff := fieldLe d 28 4, per := per, es := es,
    ext := dims5 (fun i => if i < n then rawExt d i / p i else 1), org := dims5 (fun i => if i < n then rawOrg d i / (p i : Int) else 0),
    box := dims5 (fun i => if i < n then rawBox d i / p i else 1),
    gs := dims5 (fun i => if i = 0 then es else if i < n then rawGs d i else 0),
    ls := dims5 (fun i => if i < n then rawLs d i else 0) }

def XferD.commit (d : XferD) : Bool := nbit d.flags 0
def XferD.noalloc (d : XferD) : Bool := nbit d.flags 1

/-- Element `i` of a list of dimensions. -/
def at5 (l : List Nat) (i : Nat) : Nat := l.getD i 0
def at5i (l : List Int) (i : Nat) : Int := l.getD i 0

/-! ## Addresses (R212) -/

/-- Local-store offset of a box unit. -/
def lsOffOf (d : XferD) (x : List Nat) : Nat :=
  let x0 := at5 x 0
  let x1 := at5 x 1
  let l1 := at5 d.ls 1
  d.lsOff + (if d.layout = 0 then x0 * d.es + x1 * l1
    else if d.layout = 1 then x1 * d.es + x0 * l1
    else if d.layout = 2 then (x1 / 32) * l1 + (x0 / 32) * 1024 * d.es + (x1 % 32) * 32 * d.es + (x0 % 32) * d.es
    else (x0 / 4) * l1 + x1 * 4 * d.es + (x0 % 4) * d.es) +
  at5 x 2 * at5 d.ls 2 + at5 x 3 * at5 d.ls 3 + at5 x 4 * at5 d.ls 4

/-- Memory address of a unit by its tensor coordinates. -/
def gaddrOf (d : XferD) (x : List Nat) : Int :=
  (List.range 5).foldl (fun (a : Int) i => a + (at5i d.org i + at5 x i) * (at5 d.gs i : Int)) (d.gaddr : Int)

/-- The in-bounds interval of a dimension: first index and count (R209). -/
def inDim (d : XferD) (i : Nat) : Nat × Nat :=
  let o := at5i d.org i
  let lo := (max 0 (-o)).toNat
  let hi := (min (at5 d.box i : Int) ((at5 d.ext i : Int) - o)).toNat
  (lo, hi - lo)

def inBounds (d : XferD) (x : List Nat) : Bool :=
  (List.range 5).all (fun i => decide ((inDim d i).1 ≤ at5 x i ∧ at5 x i < (inDim d i).1 + (inDim d i).2))

/-- Units of the box that are in bounds, and all of them. -/
def insideCount (d : XferD) : Nat := (List.range 5).foldl (fun n i => n * (inDim d i).2) 1
def boxCount (d : XferD) : Nat := (List.range 5).foldl (fun n i => n * at5 d.box i) 1

/-- The memory range, lowest to highest byte of any in-bounds element (R216); none without one. -/
def memRange (d : XferD) : Option (Int × Nat) :=
  if insideCount d = 0 then none
  else
    let lo := gaddrOf d (dims5 (fun i => (inDim d i).1))
    let hi := gaddrOf d (dims5 (fun i => (inDim d i).1 + (inDim d i).2 - 1))
    some (lo, (hi - lo).toNat + d.es)

/-- The dimension-0 runs of the box: the indices of dimensions 1 to 4, all of them. -/
def rowsOf (d : XferD) : List (List Nat) :=
  (List.range (at5 d.box 4)).flatMap (fun x4 => (List.range (at5 d.box 3)).flatMap (fun x3 =>
    (List.range (at5 d.box 2)).flatMap (fun x2 => (List.range (at5 d.box 1)).map (fun x1 => [x1, x2, x3, x4]))))

/-- In-bounds runs as address and byte length. -/
def runsOf (d : XferD) : List (Nat × Nat) :=
  let (lo, n) := inDim d 0
  if n = 0 then [] else
    ((rowsOf d).filter (fun r => inBounds d (lo :: r))).map (fun r => ((gaddrOf d (lo :: r)).toNat, n * d.es))

/-! ## Checks at issue (R213 to R216) -/

/-- Bytes that dimensions 0 to `k` − 1 span in local store. -/
def lsSpan (d : XferD) (k : Nat) : Nat :=
  lsOffOf d (dims5 (fun i => if i < k then at5 d.box i - 1 else 0)) - d.lsOff + d.es

def roundUp (n k : Nat) : Nat := ceilDiv n k * k

/-- R213: element sizes, box, and the least strides of a layout. -/
def layoutOk (d : XferD) : Bool :=
  let sz := fun (l : List Nat) => d.per == 1 && l.contains d.es
  let l1 := at5 d.ls 1
  let b0 := at5 d.box 0
  let b1 := at5 d.box 1
  (if d.layout = 0 then (b1 == 1 || decide (b0 * d.es ≤ l1))
   else if d.layout = 1 then sz [1, 2, 4] && decide (2 ≤ d.ndim) && (b0 == 1 || decide (b1 * d.es ≤ l1))
   else if d.layout = 2 then
     sz [1, 2, 4] && b0 % 32 == 0 && b1 % 32 == 0 && (b1 == 32 || decide ((b0 / 32) * 1024 * d.es ≤ l1))
   else sz [1, 2] && b0 % 4 == 0 && (b0 == 4 || decide (b1 * 4 * d.es ≤ l1))) &&
  [2, 3, 4].all (fun k => decide (d.ndim ≤ k) || (at5 d.box k == 1 && at5 d.ls k == 0) ||
    decide (roundUp (lsSpan d k) 16 ≤ at5 d.ls k))

/-- The packing rule of R214. -/
def packOk (b : List Nat) (per : Nat) : Bool :=
  decide ((rawOrg b 0) % (per : Int) = 0) && rawBox b 0 % per == 0 && rawExt b 0 % per == 0

/-- Step 1 of R215. -/
def xferFields (b : List Nat) (tiles : Nat) : Bool :=
  let d := xferD b
  let f := fieldLe b
  decide (f 4 1 ≤ 1 ∧ f 5 1 ≤ 0xD ∧ f 6 1 ≤ 3 ∧ 1 ≤ f 7 1 ∧ f 7 1 ≤ 5 ∧ f 8 2 < 4) && f 10 2 == 0 && f 82 6 == 0 &&
  (List.range 5).all (fun i => if i < d.ndim then decide (1 ≤ rawExt b i ∧ 1 ≤ rawBox b i)
    else rawExt b i == 0 && rawOrg b i == 0 && rawBox b i == 0 && rawGs b i == 0 && rawLs b i == 0) &&
  decide (d.fill < 2 ^ fillBits d.etype) && !(d.commit && !d.store) &&
  (if d.commit then decide (d.tile < tiles) else d.tile == 0) && packOk b d.per && layoutOk d

/-- TILES of the core's image (R171). -/
def imageTiles (s : State) (c : Nat) : Nat :=
  match (coreTask s c).bind (fun t => s.program t.program) with
  | none => 0
  | some p => p.tiles

/-- The place of a transfer's memory range once it has passed step 5 of R215, which knows WINDOW_FAULT and RIGHTS_FAULT only, also for a
range that leaves the own store (R216); none without in-bounds elements. -/
def xferPlace (s : State) (c : Nat) (d : XferD) : Except Cause (Option Place) :=
  match memRange d with
  | none => .ok none
  | some (lo, n) =>
    let wr := if d.store then 1 else 0
    if lo < 0 then .error ⟨cWINDOW_FAULT, trunc 64 lo, wr⟩
    else match globalCheck s c lo.toNat n (!d.store) d.store with
    | .ok p => .ok (some p)
    | .error x => .error (if x.cause = cLS_RANGE then ⟨cWINDOW_FAULT, lo.toNat, wr⟩ else x)

/-- The checks of R215 in their order. -/
def xferCheck (s : State) (i : Ctx) (_t : Nat) (b : List Nat) : Option Cause :=
  let d := xferD b
  if !xferFields b (imageTiles s i.c) then some ⟨cDESC_INVALID, 0, 0⟩
  else if d.lsOff % 16 ≠ 0 ∨ ¬ d.ls.all (fun l => l % 16 == 0) then some ⟨cDESC_INVALID, 0, 0⟩
  else if d.per = 1 ∧ (d.gaddr % d.es ≠ 0 ∨ ¬ d.gs.all (fun g => g % d.es == 0)) then some ⟨cMISALIGNED, d.gaddr, d.es⟩
  else if lsBytes < d.lsOff + lsSpan d 5 then some ⟨cLS_RANGE, max d.lsOff lsBytes, 0⟩
  else match xferPlace s i.c d with
  | .error x => some x
  | .ok _ => none

/-- REDUCE requests of a core that are not acknowledged (R224). -/
def openReds (s : State) (c : Nat) : List Nat := (s.llc.redReqs.filter (fun r => r.core == c)).map (·.id)

/-- An ATTN descriptor asks for an APPEND: byte 4 of the descriptor (R261). -/
def attnIsAppend (b : List Nat) : Bool := fieldLe b 4 1 == 1

/-- XFER (R165, R210): the transfer engine's queue takes it. -/
def xferPut (s : State) (i : Ctx) (o : Origin) (b : List Nat) (_ls : Bool) : State :=
  s.modCore i.c (fun k => { k with xferQ := k.xferQ ++ [⟨o, b, false,
    (k.attnQ.filter (fun p => attnIsAppend p.desc)).map (fun p => p.org.seq), openReds s i.c, 0, 0, []⟩] })

def execXfer (x : Site) (w : Word64) (s : State) : Outcome :=
  singleIssue 0x19 kindXfer 128 (fun k => decide (16 ≤ k.xferQ.length)) xferCheck xferPut x w s

/-! ## Starting (R216 to R222) -/

/-- Whether a range lies in the core's own local store (R550). -/
def rangeOwn (s : State) (c : Nat) (d : XferD) : Option Nat :=
  match memRange d with
  | none => none
  | some (lo, n) => match ownLs s c lo.toNat with
    | some off => if off + n ≤ lsBytes then some off else none
    | none => none

/-- R218: whether the transfer is aligned; one within own local store always is (R550). -/
def xferAligned (s : State) (c : Nat) (d : XferD) : Bool :=
  (rangeOwn s c d).isSome ||
  (decide (gaddrOf d [0, 0, 0, 0, 0] % 128 = 0) && decide ((at5i d.org 0 * (d.per : Int)) % 32 = 0) &&
   [1, 2, 3, 4].all (fun k => at5 d.box k == 1 || at5 d.gs k % 128 == 0))

/-- The lines of a transfer's in-bounds runs, in order, one entry for each access before R218's doubling. -/
def xferLines (d : XferD) : List (Nat × Nat) := (runsOf d).flatMap (fun (a, n) => lineParts a n)

/-- Counts a transfer's line accesses, misses and vertical transfers (R138, R218), and starts the fills of lines that it
allocates (R306: NOALLOC still allocates a line that it writes in part). -/
def xferMeter (s : State) (c : Nat) (d : XferD) : State :=
  let ps := xferLines d
  let al := xferAligned s c d
  let s := (ps.foldl (fun (x : State × Nat) (a, n) =>
    (addMeters x.1 c a ⟨0, if al then 1 else 2, 0, layersOf c * (ceilDiv (x.2 + n) 4 - ceilDiv x.2 4), 0⟩, x.2 + n)) (s, 0)).1
  ps.foldl (fun s (a, n) =>
    if addrModule a ≠ s.modId ∨ linePresent s a then s
    else
      let s := addMeters s c a ⟨0, 0, 128, 0, 0⟩
      if d.noalloc ∧ (¬ d.store ∨ n = 128) then s
      else { s with llc := { s.llc with fills := insNat (lineOf a) s.llc.fills } }) s

def modXfer (s : State) (c seq : Nat) (f : XferOp → XferOp) : State :=
  s.modCore c (fun k => { k with xferQ := k.xferQ.map (fun o => if o.org.seq = seq then f o else o) })

def dropXfer (s : State) (c seq : Nat) : State :=
  s.modCore c (fun k => { k with xferQ := k.xferQ.filter (fun o => o.org.seq != seq) })

/-- Poison that a transfer would read: its memory range's runs for a LOAD, its box in local store for a STORE (R303). The
address is the one that the fault record names. -/
def xferPoison (s : State) (c : Nat) (d : XferD) : Option Nat :=
  let (lo, n) := inDim d 0
  if d.store then
    ((rowsOf d).filter (fun r => inBounds d (lo :: r))).findSome? (fun r => (List.range n).findSome? (fun j =>
      (firstPoison s.poison (lsAddr c + lsOffOf d ((lo + j) :: r)) d.es).map (· - lsAddr c)))
  else (runsOf d).findSome? (fun (a, n) =>
    match ownLs s c a with
    | some off => (firstPoison s.poison (lsAddr c + off) n).map (fun p => a + p - (lsAddr c + off))
    | none => if addrModule a ≠ s.modId then none
      else (firstPoison s.poison (addrLow a) n).map (fun p => a - addrLow a + p))

/-- The unit that counts the poison a transfer meets (R316). -/
def xferUnitOf (s : State) (c : Nat) (d : XferD) (a : Nat) : Nat := if d.store then coreUnit c else addrUnit s c a

/-- Byte at box position `x` in local store, for a STORE. -/
def boxBytes (s : State) (c : Nat) (d : XferD) (x : List Nat) : List Nat :=
  readBytes s.mem (lsAddr c + lsOffOf d x) d.es

/-- Cuts a byte run into naturally aligned pieces of at most 128 bytes (R473: SIZE is a power of two). -/
def wrPieces : Nat → Nat → List Nat → List (Nat × List Nat)
  | 0, _, _ => []
  | _, _, [] => []
  | f + 1, a, b =>
    let k := ((List.range 8).reverse.find? (fun k => a % 2 ^ k == 0 && decide (2 ^ k ≤ b.length))).getD 0
    (a, b.take (2 ^ k)) :: wrPieces f (a + 2 ^ k) (b.drop (2 ^ k))

/-- A dimension-0 run of the box in memory: address and bytes. -/
def storeRuns (s : State) (c : Nat) (d : XferD) : List (Nat × List Nat) :=
  let (lo, n) := inDim d 0
  if n = 0 then [] else
    ((rowsOf d).filter (fun r => inBounds d (lo :: r))).map (fun r =>
      ((gaddrOf d (lo :: r)).toNat, (List.range n).flatMap (fun j => boxBytes s c d ((lo + j) :: r))))

/-- A transfer's requests to another module: whole lines read, or pieces written with the bytes of its box (R487, R489). -/
def xferReqs (s : State) (c : Nat) (o : XferOp) (d : XferD) : List (Nat × ReqKind × Option (Nat × LPay)) :=
  if d.store then ((storeRuns s c d).flatMap (fun r => wrPieces r.2.length r.1 r.2)).map (fun p =>
    (p.1, .engineWr kindXfer o.org.seq, some (Nat.log2 p.2.length, .data p.2)))
  else (((xferLines d).map (fun p => p.1 / 128)).eraseDups).map (fun l => (128 * l, .engineRd kindXfer o.org.seq, none))

/-- Sends what may go of a transfer's requests: 128 of one XFER are in flight at most (R220). -/
def xferSend (s : State) (c seq : Nat) : State :=
  match (s.core c).xferQ.find? (fun o => o.started && o.org.seq == seq) with
  | none => s
  | some o =>
    let cls := match coreTask s c with | some t => t.cls | none => 0
    (((xferReqs s c o (xferD o.desc)).drop o.sent).take (128 - o.left)).foldl (fun s r =>
      modXfer (sendRemote s cls c o.org.group o.org.thread r.1 r.2.1 r.2.2) c seq
        (fun o => { o with sent := o.sent + 1, left := o.left + 1 })) s

/-- Whether the transfer names another module. -/
def xferAway (s : State) (c : Nat) (d : XferD) : Bool :=
  match memRange d with
  | none => false
  | some (lo, _) => (ownLs s c lo.toNat).isNone && addrModule lo.toNat != s.modId

/-- XFER_START (R216 to R218, R222): the oldest waiting transfer starts, with fewer than four in progress; its accesses,
splits and dropped elements are counted. Poison ends it (R226, R303). -/
def execXferStart (core : CoreId) (s : State) : Outcome :=
  .next (let k := s.core core
    match k.xferQ.find? (fun o => !o.started) with
    | none => s
    | some o =>
      let d := xferD o.desc
      if ¬ coreIssues s core ∨ 4 ≤ (k.xferQ.filter (fun o => o.started)).length then s
      else match xferPoison s core d with
      | some a => engineFault (dropXfer s core o.org.seq) core kindXfer (xferUnitOf s core d a) o.org ⟨cPOISONED, a, 0⟩
      | none =>
        let s := modXfer s core o.org.seq (fun o => { o with started := true })
        let s := if (rangeOwn s core d).isSome ∨ insideCount d = 0 then s else xferMeter s core d
        let s := if xferAligned s core d then s else addTaskCounter (countCore s core 0x0C 1 ((memRange d).map (fun r => r.1.toNat))) core tcSplit 1
        let s := if d.store then addTaskCounter s core tcOob ((boxCount d - insideCount d) * d.per) else s
        if xferAway s core d then xferSend s core o.org.seq else s)

/-! ## Completing (R217, R222 to R226, R550) -/

/-- The fill of one unit: the value packed as often as the unit holds elements (R211, R217). -/
def fillUnit (d : XferD) : List Nat :=
  let w := fillBits d.etype
  natLe d.es ((List.range d.per).foldl (fun a j => a + d.fill * 2 ^ (w * j)) 0)

/-- A unit's bytes in memory: own local store, the lines fetched from another module, or the home. -/
def memUnit (s : State) (c : Nat) (d : XferD) (o : XferOp) (x : List Nat) : List Nat :=
  let a := (gaddrOf d x).toNat
  match ownLs s c a with
  | some off => readBytes s.mem (lsAddr c + off) d.es
  | none =>
    if addrModule a = s.modId then readBytes s.mem (addrLow a) d.es
    else (List.range d.es).map (fun j => (tget [] o.got ((a + j) / 128)).getD ((a + j) % 128) 0)

/-- Every unit of the box, dimension 0 fastest. -/
def boxUnits (d : XferD) : List (List Nat) :=
  (rowsOf d).flatMap (fun r => (List.range (at5 d.box 0)).map (fun x0 => x0 :: r))

/-- What a LOAD writes: every position of the box as device address and bytes, with fill out of bounds. -/
def loadUnits (s : State) (c : Nat) (d : XferD) (o : XferOp) : List (Nat × List Nat) :=
  (boxUnits d).map (fun x => (lsAddr c + lsOffOf d x, if inBounds d x then memUnit s c d o x else fillUnit d))

/-- Whether some write of a list covers a byte. -/
def coversByte (ws : List (Nat × List Nat)) (b : Nat) : Bool := ws.any (fun w => decide (w.1 ≤ b ∧ b < w.1 + w.2.length))

/-- Poison left once the writes of one transfer have covered whole words (R302). -/
def uncovered (p : List Nat) (ws : List (Nat × List Nat)) : List Nat :=
  p.filter (fun w => !(List.range 16).all (fun j => coversByte ws (16 * w + j)))

/-- Writes the units of one transfer to a local store. -/
def storeUnits (s : State) (ws : List (Nat × List Nat)) : State :=
  { s with mem := ws.foldl (fun m w => writeBytes m (addrLow w.1) w.2) s.mem, poison := uncovered s.poison ws }

/-- A LOAD: the bytes are read before any is written. -/
def xferLoad (s : State) (c : Nat) (d : XferD) (o : XferOp) : State := storeUnits s (loadUnits s c d o)

/-- Whether two in-bounds units may share a byte of memory: some stride is less than the span below it. -/
def xferOverlaps (d : XferD) : Bool :=
  [1, 2, 3, 4].any (fun k => decide (1 < (inDim d k).2) &&
    decide (at5 d.gs k < ((List.range k).map (fun i => ((inDim d i).2 - 1) * at5 d.gs i)).sum + d.es))

/-- One unit of a STORE reaches memory, and the L1 of its core loses the lines that it meets (R223); a second write to a source counts in
the HBM meter (R237). -/
def storeUnit (c : Nat) (alloc : Bool) (s : State) (a : Nat) (b : List Nat) : State :=
  match ownLs s c a with
  | some off => storeBytes s (lsAddr c + off) b
  | none =>
    let s := dropL1 (dropL1 s c (a / 128)) c ((a + b.length - 1) / 128)
    if addrModule a = s.modId then homeWriteBy [] alloc (meterSource s c a b.length) a b else s

/-- The byte that a STORE leaves where its range maps several elements to one byte: one of them, and which one is a free choice
(R223, log 6). -/
def pickByte (s : State) (rs : List (Nat × List Nat)) (a b : Nat) : Nat :=
  let cs := rs.filterMap (fun r => if r.1 ≤ a then r.2[a - r.1]? else none)
  let k := (Config.freeByte (s.fresh + 2 * a)).toNat + 256 * (Config.freeByte (s.fresh + 2 * a + 1)).toNat
  (cs[k % cs.length]?).getD b

/-- What a STORE writes: its runs, cut at lines. -/
def storeParts (s : State) (c : Nat) (d : XferD) : List (Nat × List Nat) :=
  let rs := storeRuns s c d
  let rs := if xferOverlaps d then rs.map (fun r => (r.1, r.2.zipIdx.map (fun x => pickByte s rs (r.1 + x.2) x.1))) else rs
  rs.flatMap (fun r => (lineParts r.1 r.2.length).map (fun p => (p.1, (r.2.drop (p.1 - r.1)).take p.2)))

/-- A STORE: the in-bounds elements are written; another module's were with the requests (R223). -/
def xferStore (s : State) (c : Nat) (d : XferD) : State :=
  let s' := { s with fresh := s.fresh + 2 ^ 60 }
  let ws := storeParts s c d
  match rangeOwn s c d with
  | some off => match memRange d with
    | some (lo, _) => storeUnits s' (ws.map (fun w => (w.1 - lo.toNat + lsAddr c + off, w.2)))
    | none => s'
  | none => ws.foldl (fun s w => storeUnit c (!d.noalloc) s w.1 w.2) s'

/-- Sets the bit of a committed tile, in the task and by an atomic OR in its progress area (R224, R357). -/
def commitTile (s : State) (c tile : Nat) : State :=
  match coreTask s c with
  | none => s
  | some t =>
    let s := s.modCoreTask c (fun t => { t with committed := t.committed ||| 2 ^ tile })
    if t.progress = 0 then s
    else
      let a := t.progress + 64 + tile / 8
      let s := drainLine s (lineOf a)
      homeUpdate (meterSource s c a 1) a [(memGet s.mem (addrLow a)).toNat ||| 2 ^ (tile % 8)]

/-- Whether requests of a transfer to another module are still to be sent. -/
def xferWaits (s : State) (c : Nat) (o : XferOp) (d : XferD) : Bool :=
  xferAway s c d && decide (o.sent < (xferReqs s c o d).length)

/-- Whether a transfer reads or writes a reduction-busy line (R251). -/
def xferBusy (s : State) (c : Nat) (d : XferD) : Bool :=
  !(rangeOwn s c d).isSome && (xferLines d).any (fun (a, _) => addrModule a == s.modId && redBusy s (lineOf a))

/-- Whether a COMMIT still waits: an earlier store or APPEND of the core, or a REDUCE that it issued before (R224, R283). -/
def commitWaits (s : State) (c : Nat) (o : XferOp) : Bool :=
  let k := s.core c
  o.reds.any (fun r => s.llc.redReqs.any (fun q => q.id == r)) ||
  k.xferQ.any (fun p => (xferD p.desc).store && p.org.seq != o.org.seq &&
    decide ((o.org.seq + 2 ^ 24 - p.org.seq) % 2 ^ 24 < 2 ^ 23)) ||
  o.apps.any (fun q => k.attnQ.any (fun p => p.org.seq == q))

/-- The tile serves COL and K4 transfers in issue order (R221). -/
def tileWaits (k : Core) (o : XferOp) : Bool :=
  let uses := fun (d : XferD) => d.layout == 1 || d.layout == 3
  uses (xferD o.desc) && ((k.xferQ.takeWhile (fun p => p.org.seq != o.org.seq)).any (fun p => uses (xferD p.desc)))

/-- Bytes of local store that a transfer writes, or reads for its in-bounds elements (R217, R521). -/
def xferBytes (s : State) (c : Nat) (d : XferD) (o : XferOp) : Nat :=
  ((if d.store then storeRuns s c d else loadUnits s c d o).map (fun w => w.2.length)).sum

/-- XFER_COMPLETE (R217, R222 to R224): every byte of a transfer in progress is in place and its ticket completes; a COMMIT
sets its tile's bit in the same step. `read`: what the transfer's array reads find. -/
def execXferComplete (read : CoreRead) (seq : Nat) (s : State) : Outcome :=
  .next (let core := read.core
    let k := s.core core
    match k.xferQ.find? (fun o => o.started && o.org.seq == seq) with
    | none => s
    | some o =>
      let d := xferD o.desc
      if ¬ coreIssues s core ∨ o.left ≠ 0 ∨ xferWaits s core o d ∨ xferBusy s core d ∨ tileWaits k o ∨ (d.commit ∧ commitWaits s core o) then s
      else
      let s := findErrs core s read.errs
      match xferPoison s core d with
      | some a => engineFault (dropXfer s core seq) core kindXfer (xferUnitOf s core d a) o.org ⟨cPOISONED, a, 0⟩
      | none =>
        let s := countCore s core 0x0B (xferBytes s core d o) ((memRange d).map (fun r => r.1.toNat))
        let s := if d.store then xferStore s core d else xferLoad s core d o
        let s := if d.commit then commitTile s core d.tile else s
        wakeTickets (dropXfer s core seq) core)

/-! ## Cancelling (R201, R225, R226) -/

/-- Whether what a LOAD reads for a position has arrived from another module. -/
def unitThere (s : State) (c : Nat) (d : XferD) (o : XferOp) (x : List Nat) : Bool :=
  let a := (gaddrOf d x).toNat
  !inBounds d x || (ownLs s c a).isSome || addrModule a == s.modId ||
  [a / 128, (a + d.es - 1) / 128].all (fun l => o.got.any (fun p => p.1 == l))

/-- A transfer that had started when the task stopped: a LOAD leaves a free part of its 16-byte groups written, a STORE within this module
a free part of its elements (R225, R226). What was sent to another module takes effect there. -/
def cancelXfer (c : Nat) (s : State) (o : XferOp) : State :=
  let d := xferD o.desc
  if !o.started ∨ (xferPoison s c d).isSome then s
  else if d.store then
    if xferAway s c d then s
    else partWrite (storeUnit c (!d.noalloc)) s (((boxUnits d).filter (inBounds d)).map (fun x => ((gaddrOf d x).toNat, boxBytes s c d x)))
  else if (boxUnits d).all (unitThere s c d o) then
    partWrite (fun s a b => storeUnits s [(a, b)]) s (cutAll (loadUnits s c d o))
  else s

/-- The drains and transfers of a core that were under way when its task stopped (R201, R226, R451). -/
def cancelOps (s : State) (c : Nat) : State := (s.core c).xferQ.foldl (cancelXfer c) (cancelDrains s c)

end Sys2Proof.Machine
end

