-- ==== Sys2Proof/Machine/Attn.lean ====
section
/-! DEFINITION. The attention engine and the key-value cache (chapter 10). -/

namespace Sys2Proof.Machine

/-! ## Descriptors and their checks (R262, R263, R277, R278) -/

/-- A field of a descriptor. -/
abbrev af (b : List Nat) (a n : Nat) : Nat := fieldLe b a n

def aDim (b : List Nat) : Nat := 32 * af b 8 1
def aRows (b : List Nat) : Nat := af b 9 1 * af b 10 1
def aMx (b : List Nat) : Bool := af b 5 1 == 1
def aRetrieve (b : List Nat) : Bool := nbit (af b 12 2) 0
def aLse (b : List Nat) : Bool := nbit (af b 12 2) 1
def aEps (b : List Nat) : Bool := nbit (af b 12 2) 2
def aPages (b : List Nat) : Nat := af b 28 4
def aPlist (b : List Nat) : Nat := af b 32 8

/-- A task's image flags (R171). -/
def imageFlag (s : State) (c i : Nat) : Bool :=
  match (coreTask s c).bind (fun t => s.program t.program) with
  | none => false
  | some p => nbit p.flags i

/-- Bytes of a row of Q and of O. -/
def qRowBytes (b : List Nat) : Nat := aDim b * (if aMx b then 1 else 2)
def oRowBytes (b : List Nat) : Nat := aDim b * (if af b 7 1 = 0 then 4 else 2)
/-- Bytes between rows of the bias table (R262). -/
def biasRow (b : List Nat) : Nat := roundUp (2 * af b 76 2) 16

/-- Step 1 of R263. -/
def attendFields (s : State) (c : Nat) (b : List Nat) : Bool :=
  let f := af b
  let z := fun (on : Bool) (v : Nat) => on || v == 0
  decide (f 5 1 ≤ 1 ∧ f 6 1 ≤ 1 ∧ f 7 1 ≤ 1 ∧ 1 ≤ f 8 1 ∧ f 8 1 ≤ 8 ∧ 1 ≤ f 9 1 ∧ f 9 1 ≤ 16 ∧ 1 ≤ f 10 1 ∧ f 10 1 ≤ 64 ∧
    f 11 1 < 4 ∧ f 12 2 < 8 ∧ f 14 1 ≤ 2 ∧ f 15 1 = 0 ∧ 1 ≤ f 28 4 ∧ f 28 4 ≤ 65536 ∧ aRows b ≤ 64) &&
  (if nbit (f 11 1) 1 then decide (1 ≤ f 24 4 ∧ f 24 4 ≤ 2 ^ 31) else f 24 4 == 0) &&
  z (aMx b) (f 48 4) && z (aMx b) (f 52 4) && z (aLse b) (f 64 4) && z (aEps b) (f 68 4) && z (f 14 1 != 0) (f 72 4) &&
  (if f 14 1 = 2 then decide (1 ≤ f 76 2 ∧ f 76 2 ≤ 4096) else f 76 2 == 0) &&
  (if aRetrieve b then decide (1 ≤ f 78 2 ∧ f 78 2 ≤ 256 ∧ f 80 1 ≤ 16 ∧ f 81 1 ≤ 64)
   else f 78 2 == 0 && f 80 1 == 0 && f 81 1 == 0) &&
  (List.range 44).all (fun i => f (84 + i) 1 == 0) &&
  (match f32V (BitVec.ofNat 32 (f 16 4)) with
   | .fin n m _ => !n && m != 0
   | _ => false) &&
  !(aEps b && !aRetrieve b) && !(aRetrieve b && f 14 1 == 2) && !(aRetrieve b && !imageFlag s c 0)

/-- The local-store ranges of an ATTEND: offset, stride, rows, bytes of a row. -/
def attendRanges (b : List Nat) : List (Nat × Nat × Nat × Nat) :=
  let f := af b
  let m := aRows b
  [(f 40 4, f 44 4, m, qRowBytes b)] ++ (if aMx b then [(f 48 4, f 52 4, m, aDim b / 32)] else []) ++
  [(f 56 4, f 60 4, m, oRowBytes b)] ++ (if aLse b then [(f 64 4, 0, 1, 4 * m)] else []) ++
  (if aEps b then [(f 68 4, 0, 1, 4 * m)] else []) ++
  (if f 14 1 = 1 then [(f 72 4, 0, 1, 4 * f 9 1)] else if f 14 1 = 2 then [(f 72 4, biasRow b, f 9 1, 2 * f 76 2)] else [])

/-- Step 2 of R263. -/
def attendStrides (b : List Nat) : Bool :=
  let f := af b
  [f 40 4, f 44 4, f 48 4, f 52 4, f 56 4, f 60 4, f 64 4, f 68 4, f 72 4].all (fun o => o % 16 == 0) &&
  decide (qRowBytes b ≤ f 44 4 ∧ oRowBytes b ≤ f 60 4) && (!aMx b || decide (aDim b / 32 ≤ f 52 4))

/-- Element type, scale kind (0 E8M0, 1 FP16, 2 none) and tokens of a page format (R270). -/
def pageFmt (f : Nat) : Option (Nat × Nat × Nat) :=
  if f = 1 then some (5, 0, 64) else if f = 2 then some (0xA, 1, 64) else if f = 3 then some (0xB, 1, 64)
  else if f = 4 then some (9, 0, 64) else if f = 0x10 then some (1, 2, 32) else none

/-- Scale bytes of a format. -/
def scaleSize (f : Nat) : Nat := if f = 1 ∨ f = 4 then 1 else if f = 0x10 then 0 else 2
/-- Bytes of `n` elements of a format (n even). -/
def pageElems (f n : Nat) : Nat := if f = 0x10 then 2 * n else if f = 1 ∨ f = 2 then n else n / 2

/-- Offsets in a record (R271, R272): scales and elements of keys (`v` false) or values, by token. -/
def scaleOff (f d : Nat) (v : Bool) (t : Nat) : Nat :=
  64 + (if v then 2 * d * scaleSize f else 0) + t * (d / 32) * scaleSize f
def elemOff (f d : Nat) (v : Bool) (t : Nat) : Nat :=
  let toks := if f = 0x10 then 32 else 64
  64 + 4 * d * scaleSize f + (if v then toks * pageElems f d else 0) + t * pageElems f d
def sumOff (f d : Nat) : Nat := elemOff f d true 64
def sumSize (d : Nat) : Nat := 2 * d + d / 32

/-- Record stride of a format (R271, R272). -/
def pageStride (f d : Nat) : Nat :=
  if f = 0x10 then 128 * (d + 1) else roundUp (sumOff f d + roundUp (sumSize d) 64) 128

/-- Step 1 of R278. -/
def appendFields (s : State) (c : Nat) (b : List Nat) : Bool :=
  let f := af b
  match pageFmt (f 6 1) with
  | none => false
  | some (_, _, toks) =>
    let init := nbit (f 7 1) 0
    decide (f 5 1 ≤ 1 ∧ f 7 1 < 2 ∧ 1 ≤ f 8 1 ∧ f 8 1 ≤ 8 ∧ 1 ≤ f 9 1 ∧ f 9 1 ≤ toks ∧ f 10 1 + f 9 1 ≤ toks ∧ f 11 1 = 0) &&
    (!init || f 10 1 == 0) && (init || f 12 4 == 0) && f 18 6 == 0 &&
    (List.range 80).all (fun i => f (48 + i) 1 == 0) && (f 6 1 != 0x10 || imageFlag s c 1)

/-- Bytes of an APPEND source row. -/
def srcRow (b : List Nat) : Nat := aDim b * (if af b 5 1 = 0 then 4 else 2)

/-- The checks of an ATTN at issue, in the order of R263 and R278. -/
def attnCheck (s : State) (i : Ctx) (_t : Nat) (b : List Nat) : Option Cause :=
  let f := af b
  let bad : Option Cause := some ⟨cDESC_INVALID, 0, 0⟩
  let win := fun (r : Except Cause Place) => match r with
    | .error x => some x
    | .ok _ => none
  if f 4 1 = 0 then
    if !attendFields s i.c b || !attendStrides b then bad
    else if aPlist b % 8 ≠ 0 then some ⟨cMISALIGNED, aPlist b, 8⟩
    else match (attendRanges b).findSome? rangeBad with
    | some a => some ⟨cLS_RANGE, a, 0⟩
    | none => win (globalCheck s i.c (aPlist b) (8 * aPages b) true false)
  else if f 4 1 = 1 then
    if !appendFields s i.c b || ! [f 32 4, f 36 4, f 40 4, f 44 4].all (fun o => o % 16 == 0) || decide (f 36 4 < srcRow b) ||
      decide (f 44 4 < srcRow b) then bad
    else if f 24 8 % 128 ≠ 0 then some ⟨cMISALIGNED, f 24 8, pageStride (f 6 1) (aDim b)⟩
    else match [(f 32 4, f 36 4, f 9 1, srcRow b), (f 40 4, f 44 4, f 9 1, srcRow b)].findSome? rangeBad with
    | some a => some ⟨cLS_RANGE, a, 0⟩
    | none => win (globalCheck s i.c (f 24 8) (pageStride (f 6 1) (aDim b)) true true)
  else bad

/-- Page slots that an ATTN counts in the ATTN meter at issue (R289). -/
def attnCount (b : List Nat) : Nat :=
  if attnIsAppend b then 1
  else if !aRetrieve b then aPages b
  else
    let fixed := af b 80 1 + af b 81 1
    min (aPages b) (fixed + af b 78 2) + ceilDiv (aPages b - min (aPages b) fixed) 16

/-- An accepted ATTN (R165, R260). -/
def attnPut (s : State) (i : Ctx) (o : Origin) (b : List Nat) (_ls : Bool) : State :=
  addMeters (s.modCore i.c (fun k => { k with attnQ := k.attnQ ++ [⟨o, b, false, [], [], [], [], [], false, 0, 0, [], [], [], [], [], []⟩] }))
    i.c 0 ⟨0, 0, 0, 0, attnCount b⟩

/-- ATTN issues for the thread that R115 names; its descriptor's MODE makes it an ATTEND or an APPEND. -/
def attnIssue (x : Site) (w : Word64) (s : State) : Outcome :=
  singleIssue 0x18 kindAttn 128 (fun k => decide (4 ≤ k.attnQ.length)) attnCheck attnPut x w s

/-- ATTEND. -/
def execAttend (x : Site) (w : Word64) (s : State) : Outcome := attnIssue x w s
/-- APPEND. -/
def execAppend (x : Site) (w : Word64) (s : State) : Outcome := attnIssue x w s

/-! ## Memory as the engine sees it (R259, R273 to R275) -/

/-- Whether a range's bytes can be read now: local, or fetched from another module. -/
def attnHas (s : State) (c : Nat) (o : AttnOp) (a n : Nat) : Bool :=
  (ownLs s c a).isSome || addrModule a == s.modId ||
  ((wordsOf a n).map (· / 8)).all (fun l => (o.got.find? (fun p => p.1 == l)).isSome)

/-- Bytes of a range. -/
def attnBytes (s : State) (c : Nat) (o : AttnOp) (a n : Nat) : List Nat :=
  match ownLs s c a with
  | some off => readBytes s.mem (lsAddr c + off) n
  | none => if addrModule a = s.modId then readBytes s.mem (addrLow a) n
    else (List.range n).map (fun j => (tget [] o.got ((a + j) / 128)).getD ((a + j) % 128) 0)

def modAttn (s : State) (c seq : Nat) (f : AttnOp → AttnOp) : State :=
  s.modCore c (fun k => { k with attnQ := k.attnQ.map (fun o => if o.org.seq = seq then f o else o) })

def dropAttn (s : State) (c seq : Nat) : State :=
  s.modCore c (fun k => { k with attnQ := k.attnQ.filter (fun o => o.org.seq != seq) })

/-- Asks another module for the lines of a range that are not here yet (R228). -/
def attnFetch (s : State) (c : Nat) (o : AttnOp) (a n : Nat) : State :=
  let cls := match coreTask s c with | some t => t.cls | none => 0
  (((wordsOf a n).map (· / 8)).eraseDups.filter (fun l => !(o.got.find? (fun p => p.1 == l)).isSome)).foldl (fun s l =>
    modAttn (sendRemote s cls c o.org.group o.org.thread (128 * l) (.engineRd kindAttn o.org.seq) none) c o.org.seq
      (fun o => { o with left := o.left + 1 })) s

/-- The first poisoned word of a range that this module holds. -/
def attnPoison (s : State) (c a n : Nat) : Option Nat :=
  match ownLs s c a with
  | some off => (firstPoison s.poison (lsAddr c + off) n).map (fun p => a + p - (lsAddr c + off))
  | none => if addrModule a = s.modId then (firstPoison s.poison (addrLow a) n).map (fun p => a + p - addrLow a) else none

/-- The lines of a range that this module's HBM holds and no LLC does are fetched into their homes' LLCs (R259). -/
def attnFill (s : State) (c a n : Nat) : State :=
  if (ownLs s c a).isSome ∨ addrModule a ≠ s.modId then s
  else (((wordsOf a n).map (fun w => lineOf (16 * w))).eraseDups.filter (fun l => !linePresent s (128 * l))).foldl (fun s l =>
    { s with llc := { s.llc with fills := insNat l s.llc.fills } }) s

/-- Whether a local range has a reduction-busy line (R251). -/
def attnBusy (s : State) (a n : Nat) : Bool :=
  addrModule a == s.modId && ((wordsOf a n).map (fun w => lineOf (16 * w))).any (fun l => redBusy s l)

/-- Writes bytes to a record: its homes in this module, own local store, or another module. -/
def attnWrite (s : State) (c : Nat) (o : AttnOp) (a : Nat) (bs : List Nat) : State :=
  match ownLs s c a with
  | some off => storeBytes s (lsAddr c + off) bs
  | none =>
    if addrModule a = s.modId then taskWrite s c a bs
    else
      let cls := match coreTask s c with | some t => t.cls | none => 0
      (wrPieces bs.length a bs).foldl (fun s (p, b) =>
        modAttn (sendRemote s cls c o.org.group o.org.thread p (.engineWr kindAttn o.org.seq)
          (some (Nat.log2 b.length, .data b))) c o.org.seq (fun o => { o with left := o.left + 1 })) s

/-! ## Elements (R266, R271, R272) -/

/-- The value of a block's scale. -/
def scaleVal (kind c : Nat) : FVal :=
  if kind = 2 then .fin false 1 0
  else if kind = 1 then decodeF fp16 c
  else if c = 0xFF then .nan else .fin false 1 ((c : Int) - 127)

/-- A dequantised row of `d` elements from its scale bytes and element bytes (R266, R271, R272). -/
def rowVals (f d : Nat) (sc el : List Nat) : List FVal :=
  match pageFmt f with
  | none => []
  | some (et, sk, _) =>
    let wd := typeBits et
    let sb := scaleSize f
    (List.range d).map (fun i =>
      let bit := i * wd
      mulV (decodeT et ((fieldLe el (bit / 8) 2 >>> (bit % 8)) % 2 ^ wd)) (scaleVal sk (fieldLe sc ((i / 32) * sb) sb)))

/-- A dequantised row: keys or values of one token, from the record's bytes. -/
def tokenRow (rec : List Nat) (f d : Nat) (v : Bool) (t : Nat) : List FVal :=
  rowVals f d (rec.drop (scaleOff f d v t)) (rec.drop (elemOff f d v t))

/-- Row r of Q, dequantised (R266). -/
def qRow (s : State) (c : Nat) (b : List Nat) (r : Nat) : List FVal :=
  let base := lsAddr c + af b 40 4 + r * af b 44 4
  (List.range (aDim b)).map (fun i =>
    if aMx b then
      mulV (decodeT 5 (memGet s.mem (base + i)).toNat)
        (scaleVal 0 (memGet s.mem (lsAddr c + af b 48 4 + r * af b 52 4 + i / 32)).toNat)
    else decodeT 1 (leNat (readBytes s.mem (base + 2 * i) 2)))

/-- An integer rounded to FP32. -/
def intF32 (i : Int) : Word := toF32 (.fin (decide (i < 0)) i.natAbs 0)

/-- The bias of a row and key position (R265). -/
def biasOf (s : State) (c : Nat) (b : List Nat) (r kpos : Nat) : Word :=
  let h := r / af b 10 1
  let qpos := af b 20 4 + r % af b 10 1
  if af b 14 1 = 1 then
    f32mul (BitVec.ofNat 32 (leNat (readBytes s.mem (lsAddr c + af b 72 4 + 4 * h) 4))) (intF32 ((kpos : Int) - (qpos : Int)))
  else if af b 14 1 = 2 then
    let j := min (qpos - kpos) (af b 76 2 - 1)
    toF32 (decodeF bf16 (leNat (readBytes s.mem (lsAddr c + af b 72 4 + h * biasRow b + 2 * j) 2)))
  else 0

/-- Whether a token of a page is valid for a row (R264). -/
def tokenValid (b : List Nat) (r kpos : Nat) : Bool :=
  let qpos := af b 20 4 + r % af b 10 1
  (!nbit (af b 11 1) 0 || decide (kpos ≤ qpos)) && (!nbit (af b 11 1) 1 || decide (qpos < kpos + af b 24 4))

/-- The score of R266. -/
def scoreOf (q k : List FVal) : Word := (q.zip k).foldl (fun a (x, y) => toF32 (addV (f32V a) (mulV x y))) 0

/-! ## One page (R267, R274) -/

def negInf : Word := 0xFF800000
def canonNaN : Word := toF32 .nan

/-- A row over one page of keys and values with their positions. -/
def pageRow (s : State) (c : Nat) (b : List Nat) (q : List FVal) (r : Nat) (toks : List (Nat × List FVal × List FVal))
    (st : RowSt) : RowSt :=
  let scale := BitVec.ofNat 32 (af b 16 4)
  let xs := toks.map (fun (kpos, k, v) =>
    (if tokenValid b r kpos then some (f32add (f32mul (scoreOf q k) scale) (biasOf s c b r kpos)) else none, v))
  let bad := xs.any (fun p => match p.1 with
    | none => false
    | some x => isNaNV (f32V x) || x == 0x7F800000)
  if st.bad || bad then { st with bad := true }
  else
    let mp := xs.foldl (fun m p => match p.1 with
      | none => m
      | some x => toF32 (maxV (f32V m) (f32V x))) st.m
    if mp = negInf then st
    else
      let sub := fun (x : Word) => exp2F (toF32 (addV (f32V x) (negV (f32V mp))))
      let a := sub st.m
      let ps := xs.map (fun p => (sub (p.1.getD negInf), p.2))
      let l := ps.foldl (fun l p => f32add l p.1) (f32mul st.l a)
      let cv := fun (p : Word) => if af b 6 1 = 0 then decodeF e4m3 (encodeF e4m3 .nearest false (f32V p))
                                  else decodeF bf16 (encodeF bf16 .nearest false (f32V p))
      let o := ps.foldl (fun o p => (o.zip p.2).map (fun (x, v) => toF32 (addV (f32V x) (mulV (cv p.1) v))))
        (st.o.map (fun x => f32mul x a))
      ⟨mp, l, o, false⟩

/-- Whether a header that has been read fails R274: what its poisoned words hold decides nothing (DEDUCED, log 116). -/
def headerBad (s : State) (c : Nat) (o : AttnOp) (a : Nat) (h : List Nat) : Bool :=
  let known := fun (w : Nat) => (attnPoison s c (a + 16 * w) 16).isNone
  (known 0 && (match pageFmt (fieldLe h 0 1) with
    | none => true
    | some (_, sk, toks) =>
      fieldLe h 1 1 != af o.desc 8 1 || fieldLe h 8 2 != af o.desc 82 2 || decide (toks < fieldLe h 2 1) ||
      (if sk = 2 then decide (0 < fieldLe h 3 1) else decide (1 < fieldLe h 3 1)) || fieldLe h 12 4 != 0)) ||
  [1, 2, 3].any (fun w => known w && fieldLe h (16 * w) 16 != 0)

/-- The checks of a page whose header is here (R274), in the order of its table; none when the header is good. -/
def pageCheck (s : State) (c : Nat) (o : AttnOp) (idx a : Nat) : Option Cause :=
  let h := attnBytes s c o a 64
  match globalCheck s c a (match pageFmt (fieldLe h 0 1) with | some _ => pageStride (fieldLe h 0 1) (aDim o.desc) | none => 64)
    true false with
  | .error x => some x
  | .ok _ =>
    if headerBad s c o a h then some ⟨cDESC_INVALID, a, idx⟩
    else (attnPoison s c a 64).map (fun p => ⟨cPOISONED, p, 0⟩)

/-- What is read of the tokens below COUNT (R275): offsets in the record, and bytes. -/
def tokenRanges (f d cnt : Nat) : List (Nat × Nat) :=
  let sb := scaleSize f
  [(scaleOff f d false 0, cnt * (d / 32) * sb), (scaleOff f d true 0, cnt * (d / 32) * sb),
   (elemOff f d false 0, cnt * pageElems f d), (elemOff f d true 0, cnt * pageElems f d)].filter (fun p => p.2 != 0)

/-- What a page asks of the engine before it can be attended: bytes from another module, a fault, or nothing. -/
inductive PageNeed where
  | fetch (a n : Nat)
  | wait
  | fault (x : Cause)
  | ready
deriving DecidableEq, Repr

/-- The address of page list entry `idx`, once it is here. -/
def listEntry (s : State) (c : Nat) (o : AttnOp) (idx : Nat) : PageNeed × Nat :=
  match o.pages.find? (fun p => p.1 == idx) with
  | some p => (.ready, p.2)
  | none =>
    let a := aPlist o.desc + 8 * idx
    if !attnHas s c o a 8 then (.fetch a 8, 0)
    else if attnBusy s a 8 then (.wait, 0)
    else match attnPoison s c a 8 with
    | some p => (.fault ⟨cPOISONED, p, 0⟩, 0)
    | none => (.ready, leNat (attnBytes s c o a 8))

/-- What a range needs before it can be read: its lines from another module, the end of its reductions, or a fault for its poison. -/
def rangeNeed (s : State) (c : Nat) (o : AttnOp) (a n : Nat) : PageNeed :=
  if !attnHas s c o a n then .fetch a n
  else if attnBusy s a n then .wait
  else match attnPoison s c a n with
  | some p => .fault ⟨cPOISONED, p, 0⟩
  | none => .ready

/-- The first need of several. -/
def PageNeed.first : List PageNeed → PageNeed
  | [] => .ready
  | .ready :: l => PageNeed.first l
  | n :: _ => n

/-- What the header of page `idx` at `a` needs, and its checks. A misaligned record's DETAIL is its stride, a free value when its format
cannot be told (R274, log 6). -/
def headNeed (s : State) (c : Nat) (o : AttnOp) (idx a : Nat) : PageNeed :=
  if a % 128 ≠ 0 then
    let f := match (attnBytes s c o a 1) with | f :: _ => f | [] => 0
    .fault ⟨cMISALIGNED, a, if (pageFmt f).isSome then pageStride f (aDim o.desc) else (Config.freeByte s.fresh).toNat⟩
  else if 2 ^ 54 ≤ a then .fault ⟨cWINDOW_FAULT, a, 0⟩
  else match globalCheck s c a 64 true false with
  | .error x => .fault x
  | .ok _ =>
    if !attnHas s c o a 64 then .fetch a 64
    else if attnBusy s a 64 then .wait
    else match pageCheck s c o idx a with
    | some x => .fault x
    | none => .ready

/-- What page `idx` at `a` needs: its header, and then the tokens below COUNT (R275). -/
def pageNeed (s : State) (c : Nat) (o : AttnOp) (idx a : Nat) : PageNeed :=
  match headNeed s c o idx a with
  | .ready =>
    let h := attnBytes s c o a 64
    PageNeed.first ((tokenRanges (fieldLe h 0 1) (aDim o.desc) (fieldLe h 2 1)).map (fun p => rangeNeed s c o (a + p.1) p.2))
  | n => n

/-- Tokens of a page, with positions, keys and values. -/
def pageTokens (s : State) (c : Nat) (o : AttnOp) (a : Nat) : List (Nat × List FVal × List FVal) :=
  let h := attnBytes s c o a 64
  let f := fieldLe h 0 1
  let d := aDim o.desc
  let rec_ := attnBytes s c o a (pageStride f d)
  (List.range (fieldLe h 2 1)).map (fun t => (fieldLe h 4 4 + t, tokenRow rec_ f d false t, tokenRow rec_ f d true t))

/-- The rows of an ATTEND after one page. -/
def attendPage (s : State) (c : Nat) (o : AttnOp) (a : Nat) : List RowSt :=
  let ts := pageTokens s c o a
  ((List.range (aRows o.desc)).zip o.rows).map (fun (r, st) => pageRow s c o.desc (qRow s c o.desc r) r ts st)

/-! ## Retrieval (R284 to R286) -/

/-- A sum rounded toward +∞. -/
def upAdd (a b : Word) : Word := toF32up (addV (f32V a) (f32V b))
def upMul (a b : Word) : Word := toF32up (mulV (f32V a) (f32V b))
def posInf : Word := 0x7F800000

/-- Positions of the tokens of a page that are valid for a row. -/
def validPos (b : List Nat) (r pos0 cnt : Nat) : List Nat :=
  ((List.range cnt).map (pos0 + ·)).filter (tokenValid b r)

/-- θ(p, r) (R284) of a candidate with header group `h` and summary `sm`, whose second header read was `h2`; an unordered result counts as
+∞. -/
def thetaOf (s : State) (c : Nat) (b : List Nat) (q : List FVal) (r : Nat) (h sm h2 : List Nat) : Word :=
  let d := aDim b
  let vs := validPos b r (fieldLe h 4 4) (fieldLe h 2 1)
  if vs.isEmpty then negInf
  else
    let sexp := fun i => fieldLe sm (2 * d + i / 32) 1
    if fieldLe h 0 1 = 0x10 ∨ ¬ nbit (fieldLe h 3 1) 0 ∨ (List.range (d / 32)).any (fun k => sexp (32 * k) == 0xFF) ∨ h ≠ h2 then posInf
    else
      let dec := fun (v i : Nat) => (FVal.fin (nbit v 7) (sext 8 v).natAbs ((sexp i : Int) - 127))
      let acc := ((List.range d).zip q).foldl (fun a (i, qv) =>
        toF32up (addV (f32V a) (maxV (mulV qv (dec (fieldLe sm i 1) i)) (mulV qv (dec (fieldLe sm (d + i) 1) i))))) 0
      let bm := if af b 14 1 = 1 then
          toF32 (maxV (f32V (biasOf s c b r (vs.headD 0))) (f32V (biasOf s c b r (vs.getLastD 0)))) else 0
      let th := upAdd (upMul (BitVec.ofNat 32 (af b 16 4)) acc) bm
      if isNaNV (f32V th) then posInf else th

/-- Sink and window indices, and the candidates (R284). -/
def fixedPages (b : List Nat) : List Nat :=
  (List.range (aPages b)).filter (fun i => decide (i < af b 80 1 ∨ aPages b - af b 81 1 ≤ i))
def candidates (b : List Nat) : List Nat := (List.range (aPages b)).filter (fun i => !(fixedPages b).contains i)

/-- An ATTEND that has read entry `idx` of its page list (R273). -/
def keepEntry (o : AttnOp) (idx a : Nat) : AttnOp := { o with pages := tins idx a (o.pages.filter (fun p => p.1 != idx)) }

/-- A candidate's header group and then its summary are read (R284): its keys and values are not. The line of the header is read again from
another module later. -/
def candRead (s : State) (c : Nat) (o : AttnOp) (idx : Nat) : AttnOp × PageNeed :=
  match listEntry s c o idx with
  | (.ready, a) =>
    let o := keepEntry o idx a
    if tget [] o.sums idx ≠ [] then (o, .ready)
    else match headNeed s c o idx a with
    | .ready =>
      let h := (attnBytes s c o a 64).take 16
      let f := fieldLe h 0 1
      let d := aDim o.desc
      let need := if f = 0x10 then PageNeed.ready else rangeNeed s c o (a + sumOff f d) (sumSize d)
      (if need = .ready then
        { o with heads := tset [] o.heads idx h, got := o.got.filter (fun p => p.1 != a / 128),
                 sums := tset [] o.sums idx (if f = 0x10 then [0] else attnBytes s c o (a + sumOff f d) (sumSize d)) }
       else o, need)
    | n => (o, n)
  | (n, _) => (o, n)

/-- A candidate's header group is read again (R284). -/
def candAgain (s : State) (c : Nat) (o : AttnOp) (idx : Nat) : AttnOp × PageNeed :=
  let a := tget 0 o.pages idx
  if tget [] o.heads2 idx ≠ [] then (o, .ready)
  else match rangeNeed s c o a 16 with
  | .ready => ({ o with heads2 := tset [] o.heads2 idx (attnBytes s c o a 16) }, .ready)
  | n => (o, n)

/-- Inserts a scored page: larger scores first, then lower indices. -/
def insScore (x : Nat × Word) : List (Nat × Word) → List (Nat × Word)
  | [] => [x]
  | y :: ys => if cmpV (f32V y.2) (f32V x.2) < 0 then x :: y :: ys else y :: insScore x ys

/-- Selection (R285), and n_r and θ_r of the pages left out (R286). -/
def selectPages (s : State) (c : Nat) (o : AttnOp) : List Nat × List Nat × List Word :=
  let b := o.desc
  let rows := (List.range (aRows b)).map (fun r => (r, qRow s c b r))
  let cs := (candidates b).map (fun i =>
    let h := tget [] o.heads i
    (i, h, rows.map (fun (r, q) => thetaOf s c b q r h (tget [] o.sums i) (tget [] o.heads2 i))))
  let scored := cs.map (fun (i, _, ths) => (i, ths.foldl (fun m x => toF32 (maxV (f32V m) (f32V x))) negInf))
  let sorted := (scored.filter (fun p => p.2 != negInf)).foldl (fun l x => insScore x l) []
  let chosen := (sorted.take (af b 78 2)).map (·.1)
  let sel := (List.range (aPages b)).filter (fun i => (fixedPages b).contains i || chosen.contains i)
  let out := cs.filter (fun (i, _, _) => !chosen.contains i)
  (sel,
   rows.map (fun (r, _) => (out.map (fun (_, h, _) => (validPos b r (fieldLe h 4 4) (fieldLe h 2 1)).length)).sum),
   rows.map (fun (r, _) => out.foldl (fun m (_, _, ths) => toF32 (maxV (f32V m) (f32V (ths.getD r negInf)))) negInf))

/-- 2^x rounded toward +∞. -/
def exp2Up (x : Word) : Word :=
  match f32V x with
  | .nan => canonNaN
  | .inf n => if n then 0 else posInf
  | .fin n m e =>
    let fx : Int := if 8 < e then signed n m * 2 ^ 105 * fxOne
                    else if 0 ≤ e + 96 then signed n m * 2 ^ (e + 96).toNat
                    else (signed n m) / 2 ^ (-(e + 96)).toNat
    let fr := (fx % fxOne).toNat
    BitVec.ofNat 32 (encodeMag fp32 .up false false (exp2Frac fr) (min 400 (max (-400) (fx / fxOne)) - 96)
      (fr != 0 || decide (e + 96 < 0 ∧ m ≠ 0)))

def oneF : Word := 0x3F800000

/-- ε_r (R286), every operation rounded toward +∞. -/
def epsOf (st : RowSt) (n : Nat) (theta : Word) : Word :=
  if st.bad then oneF
  else if n = 0 then 0
  else if st.l = 0 ∨ theta = posInf then oneF
  else
    let p := upMul (toF32up (.fin false n 0)) (exp2Up (upAdd theta (toF32 (negV (f32V st.m)))))
    let v := f32divUp p st.l
    if leV (f32V v) (f32V oneF) then v else oneF

/-! ## Quanta (R260, R261) -/

/-- Page slots of a quantum: 8, or 4 in a task with DUAL. -/
def quantumSlots (s : State) (c : Nat) : Nat := if taskFlag s c flagDual then 4 else 8

/-- Ends an ATTN with a fault of its engine (R119, R274, R278). -/
def endAttn (s : State) (c : Nat) (o : AttnOp) (x : Cause) : State :=
  engineFault (dropAttn s c o.org.seq) c kindAttn (addrUnit s c x.addr) o.org x

/-- What to do about a need that stops the engine on this ATTN. -/
def attnStall (s : State) (c : Nat) (o : AttnOp) : PageNeed → State
  | .fetch a n => attnFetch s c o a n
  | .fault x => endAttn s c o x
  | _ => s

/-- The lines that a page slot reads miss or hit in their homes' LLCs (R259). -/
def pageFill (s : State) (c : Nat) (o : AttnOp) (a : Nat) : State :=
  let h := attnBytes s c o a 64
  ((0, 64) :: tokenRanges (fieldLe h 0 1) (aDim o.desc) (fieldLe h 2 1)).foldl (fun s p => attnFill s c (a + p.1) p.2) s

/-- Serves up to `n` page slots of an ATTEND. -/
def attendSlots (c : Nat) : Nat → AttnOp → State → State
  | 0, o, s => modAttn s c o.org.seq (fun _ => o)
  | n + 1, o, s => match o.todo with
    | [] => modAttn s c o.org.seq (fun _ => { o with done := true })
    | idx :: rest => match listEntry s c o idx with
      | (.ready, a) =>
        let o := keepEntry o idx a
        match pageNeed s c o idx a with
        | .ready =>
          attendSlots c n { o with rows := attendPage s c o a, todo := rest, got := [], done := rest.isEmpty }
            (countUnit (pageFill s c o a) 1 (c / 9) c 0x41 1 none)
        | need => attnStall (modAttn s c o.org.seq (fun _ => o)) c o need
      | (need, _) => attnStall (modAttn s c o.org.seq (fun _ => o)) c o need

/-- Candidates read one after another by `f`, or the first need that stops them. -/
def candScan (f : AttnOp → Nat → AttnOp × PageNeed) : List Nat → AttnOp → AttnOp × PageNeed
  | [], o => (o, .ready)
  | i :: is, o => match f o i with
    | (o, .ready) => candScan f is o
    | (o, n) => (o, n)

/-- The first quanta of an ATTEND: rows at their start. With RETRIEVE one quantum reads the header group and the summary of every candidate,
and a later one the header groups again, then scores and selects (R267, R284, R285; quanta of scoring are a DESIGN CHOICE, log 117). -/
def attendBegin (s : State) (c : Nat) (o : AttnOp) : State × AttnOp × PageNeed :=
  let rows := List.replicate (aRows o.desc) (⟨negInf, 0, List.replicate (aDim o.desc) 0, false⟩ : RowSt)
  let cs := candidates o.desc
  if !aRetrieve o.desc then (s, { o with started := true, rows := rows, todo := List.range (aPages o.desc) }, .ready)
  else if cs.all (fun i => tget [] o.sums i != []) then
    match candScan (candAgain s c) cs o with
    | (o, .ready) =>
      let (sel, ns, ths) := selectPages s c o
      (countUnit s 1 (c / 9) c 0x42 cs.length none, { o with started := true, rows := rows, todo := sel, skipN := ns, skipT := ths, got := [] }, .ready)
    | (o, n) => (s, o, n)
  else match candScan (candRead s c) cs o with
    | (o, .ready) => (cs.foldl (fun s i => attnFill s c (tget 0 o.pages i) 64) s, o, .wait)
    | (o, n) => (s, o, n)

/-- The words of local store that an ATTEND reads and that are poisoned (R303). -/
def attendSrcPoison (s : State) (c : Nat) (b : List Nat) : Option Nat :=
  let rs := attendRanges b
  let rd := (rs.take (if aMx b then 2 else 1)) ++ (if af b 14 1 = 0 then [] else rs.drop (rs.length - 1))
  rd.findSome? (fun (o, st, n, w) =>
    (List.range n).findSome? (fun i => (firstPoison s.poison (lsAddr c + o + i * st) w).map (· - lsAddr c)))

/-- Whether a header group read by an APPEND without INIT fits its descriptor (R278). -/
def appendHeaderOk (b h : List Nat) : Bool :=
  let f := fieldLe h 0 1
  match pageFmt f with
  | none => false
  | some (_, sk, toks) => f == af b 6 1 && fieldLe h 1 1 == af b 8 1 && fieldLe h 8 2 == af b 16 2 &&
    decide (fieldLe h 2 1 ≤ toks) && (if sk = 2 then fieldLe h 3 1 == 0 else decide (fieldLe h 3 1 ≤ 1)) &&
    (h.drop 12).all (· == 0)

def appendInit (b : List Nat) : Bool := nbit (af b 7 1) 0
def appendPage (b : List Nat) : Nat := af b 24 8

/-- A page header group (R270). -/
def headerGroup (fmt hd cnt flags pos0 kvh gen : Nat) : List Nat :=
  [fmt, hd, cnt, flags] ++ natLe 4 pos0 ++ natLe 2 kvh ++ natLe 2 gen ++ [0, 0, 0, 0]

/-- Poison in the source rows of an APPEND. -/
def appendSrcPoison (s : State) (c : Nat) (b : List Nat) : Option Nat :=
  [(af b 32 4, af b 36 4), (af b 40 4, af b 44 4)].findSome? (fun (o, st) =>
    (List.range (af b 9 1)).findSome? (fun j =>
      (firstPoison s.poison (lsAddr c + o + j * st) (srcRow b)).map (· - lsAddr c)))

/-- The one quantum of an APPEND: the header is checked and its first write goes out (R278, R281 step 1). -/
def appendBegin (s : State) (c : Nat) (o : AttnOp) : State :=
  let b := o.desc
  let a := appendPage b
  if !appendInit b && !attnHas s c o a 64 then attnFetch s c o a 64
  else if attnBusy s a (pageStride (af b 6 1) (aDim b)) then s
  else
    let h := attnBytes s c o a 64
    match if appendInit b then none else attnPoison s c a 64 with
    | some p => endAttn s c o ⟨cPOISONED, p, 0⟩
    | none =>
      if !appendInit b && !appendHeaderOk b h then endAttn s c o ⟨cDESC_INVALID, a, 0⟩
      else match appendSrcPoison s c b with
      | some p => engineFault (dropAttn s c o.org.seq) c kindAttn (coreUnit c) o.org ⟨cPOISONED, p, 0⟩
      | none =>
        let s := if appendInit b then attnWrite s c o (a + 16) (List.replicate 48 0) else s
        let g := if appendInit b then headerGroup (af b 6 1) (af b 8 1) 0 0 (af b 12 4) (af b 16 2) 0
          else headerGroup (fieldLe h 0 1) (fieldLe h 1 1) (fieldLe h 2 1) 0 (fieldLe h 4 4) (fieldLe h 8 2)
            ((fieldLe h 10 2 + 1) % 2 ^ 16)
        attnWrite (modAttn s c o.org.seq (fun o => { o with
          started := true, aphase := 1, hdr := g, skipN := if !appendInit b && fieldLe h 3 1 % 2 == 1 then [1] else [] })) c o a g

/-- Whether a core's oldest ATTN is an APPEND under way: it is one quantum, which ends with its last write (R260, R276). -/
def appendBusy (s : State) (c : Nat) : Bool :=
  coreIssues s c && (match (s.core c).attnQ with
    | [] => false
    | o :: _ => attnIsAppend o.desc && (o.aphase != 0 || o.left != 0))

/-- A core's ATTN that a quantum can serve: its oldest, not waiting for write-back, for a write or for another module. -/
def attnReady (s : State) (c : Nat) : Option AttnOp :=
  let k := s.core c
  if ¬ coreIssues s c then none
  else match k.attnQ with
  | [] => none
  | o :: _ => if o.done ∨ o.aphase ≠ 0 ∨ o.left ≠ 0 then none else some o

/-- ATTN_QUANTUM (R260): the next core in slot order after the one served last with an ATTN to serve. `read`: what the array reads of the
quantum find. -/
def execAttnQuantum (read : ClusterRead) (s : State) : Outcome :=
  .next (let cluster := read.cluster
    let cl := s.cluster cluster
    let order := (List.range 9).map (fun i => 9 * cluster.val + (cl.attnTurn + 1 + i) % 9)
    let run := cl.attnRun == .running || cl.attnRun == .dummy || cl.attnRun == .acked
    match if run && cl.attnTest == 0 && !order.any (appendBusy s) then order.findSome? (fun c => (attnReady s c).map (fun o => (c, o))) else none with
    | none => s
    | some (c, o) =>
      let s := if cl.attnTurn = c % 9 then s else countEvent s 1 cluster 0x43 1 ⟨none, none, none, none, none⟩
      let s := s.modCluster cluster (fun k => { k with attnTurn := c % 9, attnRun := .running })
      let s := findErrs c s read.errs
      if attnIsAppend o.desc then appendBegin s c o
      else match attendSrcPoison s c o.desc with
      | some p => engineFault (dropAttn s c o.org.seq) c kindAttn (coreUnit c) o.org ⟨cPOISONED, p, 0⟩
      | none =>
        if o.started then attendSlots c (quantumSlots s c) o s
        else match attendBegin s c o with
        | (s, o, .ready) => attendSlots c (quantumSlots s c) o s
        | (s, o, n) => attnStall (modAttn s c o.org.seq (fun _ => o)) c o n)

/-! ## Completing (R267, R268, R281, R286, R292) -/

/-- The output row, log-sum-exp and ε of a finished row. -/
def finishRow (st : RowSt) : List Word × Word :=
  if st.bad then (st.o.map (fun _ => canonNaN), canonNaN)
  else if st.l = 0 then (st.o.map (fun _ => 0), negInf)
  else (st.o.map (fun x => f32div x st.l), f32add st.m (log2F st.l))

/-- ATTEND_COMPLETE (R267, R268, R286): O, and LSE and EPS where asked, are written and the ticket completes. In a DUAL task
the passes are compared first (R292). -/
def execAttendComplete (core : CoreId) (mismatch : Bool) (s : State) : Outcome :=
  .next (match (s.core core).attnQ with
    | [] => s
    | o :: _ =>
      let b := o.desc
      if ¬ o.done ∨ attnIsAppend b ∨ ¬ coreIssues s core then s
      else if mismatch ∧ taskFlag s core flagDual then coreFault s core rasDualMismatch
      else
        let rs := (List.range (aRows b)).zip o.rows
        let ls := lsAddr core
        let s := rs.foldl (fun s (r, st) =>
          let (ov, lse) := finishRow st
          let bytes := ov.flatMap (fun x => if af b 7 1 = 0 then natLe 4 x.toNat
            else natLe 2 (encodeF bf16 .nearest false (f32V x)))
          let s := storeBytes s (ls + af b 56 4 + r * af b 60 4) bytes
          let s := if aLse b then storeBytes s (ls + af b 64 4 + 4 * r) (natLe 4 lse.toNat) else s
          if aEps b then storeBytes s (ls + af b 68 4 + 4 * r)
            (natLe 4 (epsOf st (o.skipN.getD r 0) (o.skipT.getD r negInf)).toNat) else s) s
        wakeTickets (dropAttn s core o.org.seq) core)

/-- Source row `j` of keys or values as values (R277). -/
def srcVals (s : State) (c : Nat) (b : List Nat) (v : Bool) (j : Nat) : List FVal :=
  let base := lsAddr c + (if v then af b 40 4 + j * af b 44 4 else af b 32 4 + j * af b 36 4)
  (List.range (aDim b)).map (fun i =>
    if af b 5 1 = 0 then f32V (BitVec.ofNat 32 (leNat (readBytes s.mem (base + 4 * i) 4)))
    else decodeF bf16 (leNat (readBytes s.mem (base + 2 * i) 2)))

def magGt (x y : FVal) : FVal := if leV (absV x) (absV y) then absV y else absV x

/-- The FP16 scale of an integer block (R279): max|x| ÷ qmax rounded upward, at most 65,504. -/
def intScale (q : Nat) (xs : List FVal) : Nat :=
  match xs.foldl magGt (.fin false 0 0) with
  | .fin _ m e => if m = 0 then 0 else
    min (maxCode fp16) (roundMag fp16 .up ((m <<< 64) / q) (e - 64) ((m <<< 64) % q != 0))
  | _ => 0x7E00

/-- x ÷ c rounded once to nearest even and saturated to ±q (R279). -/
def intElem (q cCode : Nat) (x : FVal) : Int :=
  match x, decodeF fp16 cCode with
  | .fin n m e, .fin _ mc ec =>
    if mc = 0 then 0
    else
      let k := e - ec
      let num := if 0 ≤ k then m * 2 ^ k.toNat else m
      let den := if 0 ≤ k then mc else mc * 2 ^ (-k).toNat
      let t := 2 * num / den
      let exactHalf := 2 * num % den == 0
      let r := if t % 2 = 0 then t / 2 else if exactHalf ∧ (t / 2) % 2 = 0 then t / 2 else t / 2 + 1
      signed n (min q r)
  | _, _ => 0

/-- One block of 32 elements quantised: the scale's code and the element codes (R279). -/
def quantBlock (f : Nat) (xs : List FVal) : Nat × List Nat :=
  if f = 1 ∨ f = 4 then
    let c := if f = 1 then 5 else 9
    let sc := mxScale c xs
    (sc, xs.map (mxElem c sc .nearest))
  else
    let q := if f = 2 then 127 else 7
    if xs.any (fun v => match v with | .fin _ _ _ => false | _ => true) then (0x7E00, xs.map (fun _ => 0))
    else
      let sc := intScale q xs
      (sc, xs.map (fun x => trunc (if f = 2 then 8 else 4) (intElem q sc x)))

/-- Consecutive chunks of a list. -/
def chunks {α : Type} (k : Nat) : Nat → List α → List (List α)
  | 0, _ => []
  | n + 1, l => l.take k :: chunks k n (l.drop k)

/-- Two 4-bit codes to a byte (R77). -/
def packNibbles : List Nat → List Nat
  | a :: b :: t => (a % 16 + 16 * (b % 16)) :: packNibbles t
  | [a] => [a % 16]
  | [] => []

/-- A source row of a compatibility page: FP32 elements are converted, BF16 ones copied unchanged (R282). -/
def bf16Row (s : State) (c : Nat) (b : List Nat) (v : Bool) (j : Nat) : List Nat :=
  if af b 5 1 = 1 then
    readBytes s.mem (lsAddr c + (if v then af b 40 4 + j * af b 44 4 else af b 32 4 + j * af b 36 4)) (2 * aDim b)
  else (srcVals s c b v j).flatMap (fun x => natLe 2 (encodeF bf16 .nearest false x))

/-- A token row in a native page format: scale bytes and element bytes. -/
def quantRow (f : Nat) (b : List Nat) (xs : List FVal) : List Nat × List Nat :=
  let qs := (chunks 32 (af b 8 1) xs).map (quantBlock f)
  let codes := qs.flatMap (·.2)
  (qs.flatMap (fun q => natLe (scaleSize f) q.1), if f = 3 ∨ f = 4 then packNibbles codes else codes)

/-- Source row `j` of keys or values as the page stores it. -/
def pageRowBytes (s : State) (c : Nat) (b : List Nat) (v : Bool) (j : Nat) : List Nat × List Nat :=
  if af b 6 1 = 0x10 then ([], bf16Row s c b v j) else quantRow (af b 6 1) b (srcVals s c b v j)

/-- Writes the scales and elements of the appended tokens (R281 step 2); the keys as written are kept for the summary. -/
def appendData (s : State) (c : Nat) (o : AttnOp) : State :=
  let b := o.desc
  let f := af b 6 1
  let d := aDim b
  let s := modAttn s c o.org.seq (fun p => { p with quant := (List.range (af b 9 1)).map (pageRowBytes s c b false) })
  (List.range (af b 9 1)).foldl (fun s j => [false, true].foldl (fun s v =>
    let (sc, el) := pageRowBytes s c b v j
    let t := af b 10 1 + j
    let s := if sc = [] then s else attnWrite s c o (appendPage b + scaleOff f d v t) sc
    attnWrite s c o (appendPage b + elemOff f d v t) el) s) s

/-- The smallest e ≥ −127 with m × 2^ex ≤ 127 × 2^e (R280). -/
def sumExp (m : Nat) (ex : Int) : Int :=
  if m = 0 then -127
  else
    let e0 := ex + (bitLen m : Int) - 8
    let fits := fun (e : Int) => decide (m * 2 ^ (ex - min ex e).toNat ≤ 127 * 2 ^ (e - min ex e).toNat)
    max (-127) (((List.range 4).map (fun (i : Nat) => e0 + (i : Int))).find? fits |>.getD (e0 + 3))

/-- A value divided by 2^e, rounded up or down to an integer. -/
def intCeil (v : FVal) (e : Int) (up : Bool) : Int :=
  match v with
  | .fin n m ex =>
    let k := ex - e
    if 0 ≤ k then signed n (m * 2 ^ k.toNat)
    else
      let den := 2 ^ (-k).toNat
      if up then -((-(signed n m)) / (den : Int)) else signed n m / (den : Int)
  | _ => 0

/-- The page summary (R280): per element the bounds over the current summary, unless it is skipped, and every appended key.
In a block with a NaN or infinite key SEXP is 0xFF and the bounds are free values (log 6); a current block whose SEXP is 0xFF decodes to no
number and stays so (DEDUCED, log 118). -/
def appendSummary (s : State) (c : Nat) (o : AttnOp) (useOld : Bool) : List Nat :=
  let b := o.desc
  let f := af b 6 1
  let d := aDim b
  let sm := attnBytes s c o (appendPage b + sumOff f d) (sumSize d)
  let keys := o.quant.map (fun p => rowVals f d p.1 p.2)
  let oldV := fun (base i : Nat) =>
    let v := fieldLe sm (base + i) 1
    FVal.fin (nbit v 7) (sext 8 v).natAbs ((fieldLe sm (2 * d + i / 32) 1 : Int) - 127)
  let col := fun (i : Nat) => keys.map (fun k => k.getD i .nan)
  let mx := fun (i : Nat) => (if useOld then [oldV 0 i] else []) ++ col i
  let mn := fun (i : Nat) => (if useOld then [oldV d i] else []) ++ col i
  let fold := fun (g : FVal → FVal → FVal) (l : List FVal) => match l with
    | [] => FVal.fin false 0 0
    | x :: xs => xs.foldl g x
  let hi := fun i => fold maxV (mx i)
  let lo := fun i => fold minV (mn i)
  let blockOk := fun (k : Nat) => !(useOld && fieldLe sm (2 * d + k) 1 == 0xFF) && (List.range 32).all (fun j => (col (32 * k + j)).all (fun v => match v with
    | .fin _ _ _ => true
    | _ => false))
  let blockE := fun (k : Nat) => match (List.range 32).foldl (fun m j => magGt (magGt m (hi (32 * k + j))) (lo (32 * k + j)))
      (FVal.fin false 0 0) with
    | .fin _ m e => sumExp m e
    | _ => 128
  let es := (List.range (d / 32)).map (fun k => (blockOk k, blockE k))
  let at_ := fun (i : Nat) => es.getD (i / 32) (false, 0)
  let byte := fun (i : Nat) (up : Bool) (v : FVal) => if (at_ i).1 then trunc 8 (intCeil v (at_ i).2 up)
    else (Config.freeByte (s.fresh + i)).toNat
  (List.range d).map (fun i => byte i true (hi i)) ++ (List.range d).map (fun i => byte i false (lo i)) ++
  es.map (fun (ok, e) => if !ok || decide (127 < e) then 0xFF else (e + 127).toNat)

/-- The final header write (R281 step 4). -/
def appendHeader (s : State) (c : Nat) (o : AttnOp) : State :=
  let b := o.desc
  let h := o.hdr
  let cnt := max (fieldLe h 2 1) (af b 10 1 + af b 9 1)
  attnWrite s c o (appendPage b) (headerGroup (fieldLe h 0 1) (fieldLe h 1 1) cnt (if af b 6 1 = 0x10 then 0 else 1)
    (fieldLe h 4 4) (fieldLe h 8 2) ((fieldLe h 10 2 + 1) % 2 ^ 16))

/-- APPEND_WRITE_ACK (R281, R282, R292): the writes of a step are acknowledged and the next step goes out; after the last the
ticket completes. In a DUAL task the quantised bytes are compared before step 2. -/
def execAppendWriteAck (core : CoreId) (mismatch : Bool) (s : State) : Outcome :=
  .next (match (s.core core).attnQ with
    | [] => s
    | o :: _ =>
      let b := o.desc
      let set := fun (s : State) (n : Nat) => modAttn s core o.org.seq (fun o => { o with aphase := n })
      if o.aphase = 0 ∨ o.left ≠ 0 ∨ ¬ coreIssues s core then s
      else if o.aphase = 1 then
        if mismatch ∧ taskFlag s core flagDual then coreFault s core rasDualMismatch
        else match appendSrcPoison s core b with
        | some p => engineFault (dropAttn s core o.org.seq) core kindAttn (coreUnit core) o.org ⟨cPOISONED, p, 0⟩
        | none => appendData (set s (if af b 6 1 = 0x10 then 3 else 2)) core o
      else if o.aphase = 2 then
        let old := !appendInit b && o.skipN == [1]
        let at_ := appendPage b + sumOff (af b 6 1) (aDim b)
        match if old then rangeNeed s core o at_ (sumSize (aDim b)) else .ready with
        | .ready =>
          let s' := attnWrite (set s 3) core o at_ (appendSummary s core o old)
          { s' with fresh := s'.fresh + aDim b }
        | need => attnStall s core o need
      else if o.aphase = 3 then appendHeader (set s 4) core o
      else wakeTickets (dropAttn s core o.org.seq) core)

/-! ## Faults of the engine (R290) -/

/-- ATTN_ENGINE_FAULT: every core with an ATTN in progress stops as under a core fault, and the engine is tested. -/
def execAttnEngineFault (cluster : ClusterId) (fault : GridFault) (s : State) : Outcome :=
  .next (let code := if fault = .parity then rasAttnParity else rasAttnResidue
    let s := s.modCluster cluster (fun k => { k with attnTest := code })
    (clusterCores cluster).foldl (fun s c => if (s.core c).attnQ.isEmpty then s else stopCore s c code) s)

end Sys2Proof.Machine
end

