-- ==== Sys2Proof/Machine/Shake.lean ====
section
/-! DEFINITION. SHAKE256 (FIPS 202), the digest of program images, firmware images and measurements (R171, R400, R510). The state is held
as the five planes of FIPS 202, each a number of 320 bits with lane x at bit 64x. -/

namespace Sys2Proof.Machine

/-! ## Planes -/

/-- One more than the largest plane. -/
def planeTop : Nat := (2 ^ 64) ^ 5

/-- A plane with its lanes moved down by `k`: lane x of the result is lane x + k, modulo 5. -/
def planeTurn (p k : Nat) : Nat := (p >>> (64 * k) ||| p <<< (64 * (5 - k))) % planeTop

/-- The lowest bit of every lane of a plane. -/
def planeOnes : Nat := ((List.range 5).map (fun x => 2 ^ (64 * x))).sum

/-- A plane with each lane rotated by one bit. -/
def planeSpin (p : Nat) : Nat := (2 * (p % (planeTop / 2)) &&& (planeTop - 1 - planeOnes)) ||| (p >>> 63 &&& planeOnes)

/-- θ: every lane takes the parities of the columns beside it. -/
def shakeTheta (a : List Nat) : List Nat :=
  let c := a.foldl (· ^^^ ·) 0
  a.map (· ^^^ planeTurn c 4 ^^^ planeSpin (planeTurn c 1))

/-- ρ and π in one walk: both follow (x, y) → (y, 2x + 3y) from (1, 0), and the lane met at step t turns by (t + 1)(t + 2) / 2. -/
def shakeWalk (a : List Nat) : Nat → Nat → Nat → Nat → List Nat → List Nat
  | 0, _, _, _, b => b
  | n + 1, t, x, y, b =>
    let v := (a.getD y 0 >>> (64 * x)) % 2 ^ 64
    let r := (t + 1) * (t + 2) / 2 % 64
    let y' := (2 * x + 3 * y) % 5
    shakeWalk a n (t + 1) y y' (b.set y' (b.getD y' 0 + ((v <<< r ||| v >>> (64 - r)) % 2 ^ 64) <<< (64 * y)))

/-- χ of a plane. -/
def shakeChi (p : Nat) : Nat := p ^^^ ((planeTop - 1 - planeTurn p 1) &&& planeTurn p 2)

/-- The generator of the round constants: x^8 + x^6 + x^5 + x^4 + 1, whose lowest bit is rc. -/
def rcNext (r : Nat) : Nat := if 2 * r < 256 then 2 * r else (2 * r) ^^^ 0x171

/-- A round's constant, bit 2^j − 1 from the j-th value of the generator, and the generator after it. -/
def rcWord (r : Nat) : Nat × Nat :=
  (List.range 7).foldl (fun (p : Nat × Nat) j => (rcNext p.1, p.2 + p.1 % 2 * 2 ^ (2 ^ j - 1))) (r, 0)

/-- `n` rounds: θ, ρ and π, χ, ι. -/
def shakeRounds : Nat → Nat → List Nat → List Nat
  | 0, _, a => a
  | n + 1, r, a =>
    let a := shakeTheta a
    let a := (shakeWalk a 24 0 1 0 [a.getD 0 0 % 2 ^ 64, 0, 0, 0, 0]).map shakeChi
    shakeRounds n (rcWord r).1 (a.set 0 (a.getD 0 0 ^^^ (rcWord r).2))

/-! ## Sponge -/

/-- Takes one block, a number of at most 1,088 bits. -/
def shakeMix (a : List Nat) (v : Nat) : List Nat :=
  shakeRounds 24 1 (a.zipIdx.map (fun p => p.1 ^^^ (v >>> (320 * p.2)) % planeTop))

/-- Bytes as a number, the first lowest. -/
def shakeNum (m : List Nat) : Nat := m.foldr (fun x v => x % 256 + 256 * v) 0

/-- Absorbs a message of `n` whole blocks of 136 bytes and a shorter rest, which the suffix 1111, the padding and the last bit follow. -/
def shakeAbsorb : Nat → List Nat → List Nat → List Nat
  | 0, m, a => shakeMix a (shakeNum m + 0x1F * 256 ^ m.length + 0x80 * 256 ^ 135)
  | n + 1, m, a => shakeAbsorb n (m.drop 136) (shakeMix a (shakeNum (m.take 136)))

/-- SHAKE256 of a message of bytes: `n` bytes of output, at most 136. -/
def shake256 (m : List Nat) (n : Nat) : List Nat :=
  let v := (shakeAbsorb (m.length / 136) m [0, 0, 0, 0, 0]).foldr (fun p v => p + v * planeTop) 0
  (List.range n).map (fun i => (v >>> (8 * i)) % 256)

end Sys2Proof.Machine
end

