-- ==== Sys2Proof/Machine/FwBase.lean ====
section
/-! DEFINITION. What the mailbox commands share: mailbox registers, answers, jobs, sessions, processors, dumps and the measurement
log (R382 to R395, R404, R510). -/

namespace Sys2Proof.Machine

/-! ## Registers -/

/-- Registers of mailbox `n`. Those of mailbox 16 stand in the mirror space alone (R398); the model keeps them at an offset
beyond BAR0. -/
def rMbx (n : Nat) : Nat := if n < 16 then 0x00010000 + 0x2000 * n else 0x100000000
def rLock : Nat := 0x00030000
def rPstat (p : Nat) : Nat := 0x00030100 + 8 * p
def rDstat : Nat := 0x00030204

def stIdle : Nat := 0
def stBusy : Nat := 1
def stDoneM : Nat := 2

/-- Status codes of R392. -/
def mOK : Nat := 0x00
def mIN_PROGRESS : Nat := 0x01
def mBUSY : Nat := 0x02
def mNO_SESSION : Nat := 0x03
def mVERSION_MISMATCH : Nat := 0x04
def mBAD_OPCODE : Nat := 0x05
def mWRONG_MAILBOX : Nat := 0x06
def mBAD_LENGTH : Nat := 0x07
def mBAD_ARGUMENT : Nat := 0x08
def mLOCKED : Nat := 0x09
def mNOT_LICENSED : Nat := 0x0A
def mCHECK_FAILED : Nat := 0x0B
def mCONFLICT : Nat := 0x0C
def mNO_RESOURCE : Nat := 0x0D
def mWRITE_WINDOW : Nat := 0x0E
def mPROC_HELD : Nat := 0x0F
def mABORTED : Nat := 0x10
def mFAILED : Nat := 0x11
def mSIGNATURE : Nat := 0x12
def mUNREACHABLE : Nat := 0x13

/-- States of MBX_PSTAT. -/
def pRUNNING : Nat := 0
def pRESTARTING : Nat := 1
def pHELD : Nat := 2
def pSELFCHECK : Nat := 3
def pSTARTING : Nat := 4

/-- Processors. -/
def SUP : Nat := 0
def SEC : Nat := 1
def PWRP : Nat := 2
def LNKP : Nat := 3
def MEMP : Nat := 4

def pstate (s : State) (p : Nat) : Nat := s.regField (rPstat p) 2 0
def setPstate (s : State) (p v : Nat) : State := s.setField (rPstat p) 2 0 v
/-- Slot that a processor runs. -/
def runSlot (s : State) (p : Nat) : Nat := s.regField (rPstat p) 3 3
/-- Whether a processor serves commands: running, or in its self-check (R401). -/
def serves (s : State) (p : Nat) : Bool := pstate s p == pRUNNING || pstate s p == pSELFCHECK

def State.proc (s : State) (p : Nat) : Proc := tget Proc.fresh s.fw.procs p
def State.modProc (s : State) (p : Nat) (f : Proc → Proc) : State :=
  { s with fw := { s.fw with procs := tset Proc.fresh s.fw.procs p (f (s.proc p)) } }

/-! ## Numbers that the module gives (log 24) -/

/-- The first number from `v` on that is not in use. -/
def unusedFrom (used : List Nat) : Nat → Nat → Nat
  | 0, v => v
  | n + 1, v => if used.contains v then unusedFrom used n ((v + 1) % 2 ^ 32) else v

def newNumber (s : State) (used : List Nat) : Nat × State :=
  (unusedFrom used used.length (Config.openId s.fresh).toNat, { s with fresh := s.fresh + 1 })

/-! ## Answers (R389, R397) -/

/-- Whether a mailbox is of kind G1. -/
def isG1 (n : Nat) : Bool := decide (8 ≤ n ∧ n < 12)

/-- The payload of a mailbox, 4 KiB. -/
def payload (s : State) (n : Nat) : List Nat :=
  let p := tget [] s.fw.payload n
  (p ++ List.replicate (4096 - p.length) 0).take 4096

def setPayload (s : State) (n : Nat) (b : List Nat) : State :=
  { s with fw := { s.fw with payload := tset [] s.fw.payload n ((b ++ (payload s n).drop b.length).take 4096) } }

/-- Ends a command (R389 steps 4 and 5): answer, RLEN, STATUS, DONE, and vector 1 when asked; one that the lead forwarded is also
answered to the lead (R491). -/
def finish (s : State) (c : Call) (status detail : Nat) (answer : List Nat) : State :=
  let good : Bool := decide (status ≤ mIN_PROGRESS)
  let g1 : Bool := isG1 c.mbx && decide (mCHECK_FAILED < status)
  let bytes := if good then answer else natLe 4 (if g1 then detail % 2 ^ 24 + status * 2 ^ 24 else detail)
  let s := { s with fw := { s.fw with calls := s.fw.calls.filter (fun x => x.mbx != c.mbx) } }
  let s := setPayload s c.mbx bytes
  let r := rMbx c.mbx + 4
  let s := s.setField r 28 16 bytes.length
  let s := s.setField r 15 8 (if g1 then mBAD_ARGUMENT else status)
  let s := s.setField r 1 0 stDoneM
  let s := if c.irq ∧ c.mbx < 16 then sendMsix s 1 else s
  match c.src with
  | none => s
  | some (m, tag) => sendMsg s (newMsg s tMGMTRESP 15 0 m tag 0 (.mboxAns c.mbx status detail answer))

def finishOk (s : State) (c : Call) (answer : List Nat) : State := finish s c mOK 0 answer

/-- Keeps a command waiting (R386, R232): its mailbox stays BUSY. -/
def keepCall (s : State) (c : Call) : State :=
  { s with fw := { s.fw with calls := s.fw.calls.map (fun x => if x.mbx = c.mbx then c else x) } }

/-! ## Jobs (R390) -/

/-- Starts a job for a command and answers IN_PROGRESS with its ID, or NO_RESOURCE. -/
def startJob (s : State) (c : Call) (proc arg : Nat) : Option Nat × State :=
  if 32 ≤ (s.fw.jobs.filter (fun j => j.ended.isNone)).length then (none, finish s c mNO_RESOURCE 0 [])
  else
    let (id, s) := newNumber s (s.fw.jobs.map (·.id))
    let j : Job := ⟨id, c.mbx, c.op, proc, arg, c.req, s.clk.tick, none, 0, 0, []⟩
    let s := { s with fw := { s.fw with jobs := s.fw.jobs ++ [j] } }
    (some id, finish s c mIN_PROGRESS 0 (natLe 4 id))

/-- Ends a job that runs. -/
def endJob (s : State) (id status detail : Nat) (answer : List Nat) : State :=
  { s with fw := { s.fw with jobs := s.fw.jobs.map (fun j =>
      if j.id = id ∧ j.ended.isNone then
        { j with ended := some s.clk.tick, status := status, detail := detail, answer := answer.take 4080 }
      else j) } }

def State.job (s : State) (id : Nat) : Option Job := s.fw.jobs.find? (fun j => j.id == id)

/-! ## Sessions and locks (R393 to R395) -/

def State.session (s : State) (n : Nat) : Option Session := tget none s.fw.sess n

/-- Ends a mailbox's session: its locks and gathered licence chunks go (R395, R512). -/
def endSession (s : State) (n : Nat) : State :=
  let open_ := (s.session n).any (fun x => !x.bad)
  let s := { s with fw := { s.fw with sess := tset none s.fw.sess n none, chunks := tset [] s.fw.chunks n [] } }
  let s := (s.setField (rMbx n + 4) 3 2 0).setReg (rMbx n + 8) 0
  if open_ ∧ s.regField rLock 11 0 ≠ 0 ∧ s.regField rLock 16 12 = n then s.setReg rLock 0 else s

/-- Whether a mailbox's open session owns the locks. -/
def ownsLocks (s : State) (n : Nat) : Bool :=
  s.regField rLock 11 0 == 0 || (s.regField rLock 16 12 == n && (s.session n).any (fun x => !x.bad))

/-- Whether a block is locked against a mailbox's command (R395). -/
def lockedFor (s : State) (n block : Nat) : Bool := nbit (s.regField rLock 11 0) block && !ownsLocks s n

/-! ## Images in flash (R399, R400) -/

/-- Byte `i` of an image slot: as shipped until an update erases the slot; erased flash reads ones (PRESUMED, log 9). -/
def slotByte (s : State) (p sl i : Nat) : Nat :=
  match tget none s.fw.slots (2 * p + sl) with
  | none => (Config.flashByte ((2 * p + sl) * 0x300000 + i)).toNat
  | some b => 255 - tget 0 b i

def slotBytes (s : State) (p sl a n : Nat) : List Nat := (List.range n).map (fun i => slotByte s p sl (a + i))

/-- Size of the image in a slot. -/
def imageSize (s : State) (p sl : Nat) : Nat := 4096 + min 3141632 (leNat (slotBytes s p sl 16 4))

/-! ## The measurement log (R510) -/

/-- Appends an entry; a full log drops its oldest entry that was not written at bring-up. -/
def measure (s : State) (kind proc slot : Nat) (version : List Nat) (svn : Nat) (digest : List Nat) (boot : Bool) : State :=
  let head := [kind, proc, slot, 0] ++ (version ++ List.replicate 8 0).take 8 ++ natLe 4 svn ++ natLe 8 s.clk.tick ++
    (digest ++ List.replicate 64 0).take 64
  let chain := shake256 (s.fw.mchain ++ head) 64
  let e := head ++ chain ++ List.replicate 8 0
  let full := decide (64 ≤ s.fw.mlog.length)
  let log := if full then s.fw.mlog.take s.fw.mboot ++ s.fw.mlog.drop (s.fw.mboot + 1) else s.fw.mlog
  { s with fw := { s.fw with
      mlog := log ++ [e], mchain := chain, mdrop := s.fw.mdrop + (if full then 1 else 0),
      mboot := s.fw.mboot + (if boot then 1 else 0) } }

/-- Measures an image (KIND 1 at boot, 2 at activation). -/
def measureImage (s : State) (kind p sl : Nat) : State :=
  measure s kind p sl (slotBytes s p sl 8 8) (leNat (slotBytes s p sl 28 4))
    (shake256 (slotBytes s p sl 0 (imageSize s p sl)) 64) (kind == 1)

/-! ## Dumps and restarts (R384, R385, R404) -/

/-- Saves a crash dump; a region that still holds one counts the loss. -/
def saveDump (s : State) (p cause detail stack : Nat) : State :=
  match (s.proc p).dump with
  | some d => s.modProc p (fun x => { x with dump := some { d with lost := satAdd 0xFFFFFFFF d.lost 1 } })
  | none =>
    let sl := runSlot s p
    let d : Dump := ⟨cause, s.clk.tick, sl, (s.proc p).trips.length, slotBytes s p sl 8 8, 0, detail, min stack 241408,
      slotBytes s p sl 32 64, s.fresh⟩
    let s := { s.modProc p (fun x => { x with dump := some d }) with fresh := s.fresh + 1 }
    (s.setField rDstat p p 1).setField (rPstat p) 6 6 1

/-- Clears a dump (R404). -/
def clearDump (s : State) (p : Nat) : State :=
  ((s.modProc p (fun x => { x with dump := none })).setField rDstat p p 0).setField (rPstat p) 6 6 0

/-- Bytes of a dump's header (R404). -/
def dumpHeader (p : Nat) (d : Dump) : List Nat :=
  [0x44, 0x55, 0x4D, 0x50, 1, 0, p, d.cause] ++ natLe 8 d.tick ++ [d.slot, d.trips, 0, 0] ++ d.version ++ natLe 4 d.lost ++
  natLe 8 d.detail ++ natLe 4 d.stack ++ List.replicate 20 0 ++ d.digest ++ List.replicate 128 0

/-- A byte of a processor's dump region. -/
def dumpByte (s : State) (p off : Nat) : Nat :=
  match (s.proc p).dump with
  | none => 0
  | some d =>
    if off < 256 then (dumpHeader p d).getD off 0
    else if 0x5100 ≤ off ∧ 0x5100 + d.stack ≤ off then 0
    else (Config.dumpByte d.seed off).toNat

def tenSeconds : Nat := 1000000000

/-- Counts a restart in MBX_PSTAT.RESTARTS. -/
def countRestart (s : State) (p : Nat) : State :=
  s.setField (rPstat p) 31 16 (satAdd 0xFFFF (s.regField (rPstat p) 31 16) 1)

/-- The mailbox scrub of a job ends early: its answer is the summary of what it has scrubbed, with STATUS 1 (R309, R390). -/
def stopScrubJob (s : State) (j : Job) : State :=
  let (s, b) := endRun s false j.id (scrubReqOf j.req)
  { s with fw := { s.fw with jobs := s.fw.jobs.map (fun q =>
      if q.id = j.id ∧ q.op = j.op then { q with ended := some s.clk.tick, status := mOK, answer := b } else q) } }

def scrubJobs (s : State) (p : Job → Bool) : List Job := s.fw.jobs.filter (fun j => j.op == 0x0040 && j.ended.isNone && p j)

/-- Jobs of a processor end ABORTED when it restarts; a SCRUB ends with summary STATUS 1, and an activation follows its own rules
(R390). -/
def abortJobs (s : State) (p : Nat) : State :=
  let s := (scrubJobs s (fun j => j.proc == p)).foldl stopScrubJob s
  { s with fw := { s.fw with jobs := s.fw.jobs.map (fun j =>
      if j.proc = p ∧ j.ended.isNone ∧ j.op ≠ 0x00A3 then { j with ended := some s.clk.tick, status := mABORTED } else j) } }

/-- Scrubs stop early, with summary STATUS 1, when the module enters a reset, LI, DI or SB (R309). -/
def stopScrubs (s : State) : State :=
  let s := (scrubJobs s (fun _ => true)).foldl stopScrubJob s
  (s.llc.scrubs.filter (fun r => !r.atEnd)).foldl (fun s r => stopRun s r.task r.id) s

/-- The slot from which a processor restarts: the pointer's, or the new one while its commit is pending (R384, R403). -/
def activeSlot (s : State) (p : Nat) : Nat :=
  if s.regBit (rPstat p) 7 then 1 - (s.proc p).slot else (s.proc p).slot

/-- An erasure that SUP was making is lost with its job (R390). -/
def dropErase (s : State) (p : Nat) : State :=
  if p ≠ SUP then s
  else (List.range 7).foldl (fun s q => if (s.proc q).stage = 1 then s.modProc q (fun x => { x with stage := 0 }) else s) s

/-- A processor restarts from a slot: its jobs are lost. -/
def restartProc (s : State) (p sl : Nat) : State :=
  let s := dropErase (abortJobs (countRestart s p) p) p
  (setPstate s p pRESTARTING).setField (rPstat p) 3 3 sl

/-- The activation of a processor fails (R403): its job ends FAILED, and the slot stays staged but unverified. -/
def failAct (s : State) (p : Nat) : State :=
  match s.fw.act with
  | none => s
  | some a =>
    if a.proc ≠ p then s
    else endJob ({ s with fw := { s.fw with act := none } }.modProc p (fun x => { x with stage := 2 })) a.job mFAILED 0 []

/-- Restarts that count within the last 10 s, with the present one. -/
def tripsNow (s : State) (p : Nat) : List Nat :=
  ((s.proc p).trips.filter (fun t => decide (s.clk.tick < t + tenSeconds))) ++ [s.clk.tick]

/-- A counted restart (R384, R385, R403): dump, then a restart from the active slot, or the processor is held at its third within
10 s. -/
def countedRestart (s : State) (p cause detail stack : Nat) : State :=
  let trips := tripsNow s p
  let s := s.modProc p (fun x => { x with trips := trips })
  let s := s.setField (rPstat p) 5 4 (min 3 trips.length)
  let s := failAct (saveDump s p cause detail stack) p
  let s := restartProc s p (activeSlot s p)
  if trips.length < 3 then rasLog s (logEv 0x0701 (unitOf 9 p) (s.reg (rPstat p)).toNat)
  else
    let s := setPstate s p pHELD
    rasLog s (logEv 0x0702 (unitOf 9 p) (s.reg (rPstat p)).toNat)

end Sys2Proof.Machine
end

