-- ==== Sys2Proof/Machine/Task.lean ====
section
/-! DEFINITION. The life of an accepted task: dispatch, meters, the task boundary, completion, rerun (R106, R108, R136 to R138,
R173, R353 to R361). -/

namespace Sys2Proof.Machine

/-! ## Dispatch (R106, R108, R353) -/

/-- Reservations of earlier tasks on a logical core that have not ended. -/
def earlierOn (s : State) (id l : Nat) : Bool :=
  s.tasks.any (fun p => decide (p.1 < id) && (match p.2 with
    | some t => (List.range t.plan.length).any (fun r => t.plan.getD r 0 == l && !t.ended.contains r)
    | none => false))

/-- Whether every core of a task is free of earlier reservations and can run it. -/
def canDispatch (s : State) (id : Nat) (t : Task) : Bool :=
  !t.running && t.stop.isNone && t.plan.all (fun l =>
    !earlierOn s id l && logicalUp s l && clusterRuns s (l / 8) && !s.pwr.light.contains (l / 8) && decide (550 ≤ reqOf s (l / 8)) &&
    (match s.phys l with
     | some c => (s.core c).task.isNone && (s.core c).phase == .idle
     | none => false))

/-- The launch values of R108. -/
def launchUrf (t : Task) (launch rank ranks groups : Nat) : Tab Word :=
  [(0, t.args), (1, t.args / 2 ^ 32), (2, launch), (3, rank), (4, ranks), (5, groups), (6, t.context), (7, t.cls)].foldl
    (fun u p => tset 0 u p.1 (BitVec.ofNat 32 p.2)) []

def launchGroup (t : Task) (p : Program) (launch rank groups : Nat) : Group :=
  { Group.empty with
    launch := launch, urf := launchUrf t launch rank p.ranks.length groups,
    threads := allThreads.map (fun i => (i, { Thread.dead with live := true, pc := p.entry })),
    sets := [⟨0xFFFFFFFF, 0⟩] }

/-- The first launch index of a rank (R106). -/
def launchBase (p : Program) (rank : Nat) : Nat := ((p.ranks.take rank).map (·.groups)).sum

def launchGroups (t : Task) (p : Program) (rank : Nat) : Tab Group :=
  let n := (p.ranks.getD rank ⟨0, 0, 0, 0⟩).groups
  (List.range n).map (fun g => (g, launchGroup t p (launchBase p rank + g) rank n))

/-- Zero bytes, without poison, in an array range. -/
def zeroFill (s : State) (a n : Nat) : State :=
  { s with mem := clearBytes s.mem a n, poison := s.poison.filter (fun w => decide (16 * w + 16 ≤ a ∨ a + n ≤ 16 * w)) }

def zeroLocal (s : State) (c : Nat) : State := zeroFill s (lsAddr c) 0x100000

/-- A core as a task finds it: its instruction cache, spares, grid state and counters stay, everything else is cleared (R136 step 5). -/
def clearCore (k : Core) : Core :=
  { Core.idle with
    grid := k.grid, out := k.out, rowSpare := k.rowSpare, colSpare := k.colSpare, rowFix := k.rowFix,
    colFix := k.colFix, gfaults := k.gfaults, test := k.test, swap := k.swap, svc := k.svc, lastOwner := k.lastOwner,
    slots := k.slots, icache := k.icache }

/-- Records the counter bases of a core (R524): at dispatch, and when a replayed rank's state is restored. -/
def recordBases (s : State) (c : Nat) : State :=
  s.modCore c (fun k => { k with base := (List.range 12).foldl (fun t n => tset 0 t n (s.count (pairCore c n))) [] })

/-- Launches one rank on its core; the first checkpoint is the launch state (R450). The local store is cleared when the owner
tag changes (R233). -/
def launchRank (s : State) (id : Nat) (t : Task) (p : Program) (rank : Nat) : State :=
  match s.phys (t.plan.getD rank 0) with
  | none => s
  | some c =>
    let owner := (s.context t.context).map (·.owner)
    let s := if (s.core c).lastOwner ≠ owner then zeroLocal s c else s
    let s := s.modCore c (fun k =>
      let k := { clearCore k with
        task := some id, rank := rank, phase := .running, groups := launchGroups t p rank, lastOwner := owner }
      { k with ckpt := some (ckptOf k) })
    recordBases s c

/-- TASK_DISPATCH (R353): every core of the task starts its rank. -/
def execTaskDispatch (task : Nat) (s : State) : Outcome :=
  .next (match s.task task with
    | none => s
    | some t => match s.program t.program with
      | none => s
      | some p => if !canDispatch s task t then s
        else
          let s := scrubLaunch ((List.range t.plan.length).foldl (fun s r => launchRank s task t p r) s) task t
          s.modTask task (fun t => { t with running := true }))

/-! ## Meters (R138, R140, R173) -/

/-- The first meter of a cost above its limit: 1 COMPUTE, 2 LLC, 3 HBM, 4 VERT, 5 ATTN; 0 none (R356). -/
def firstOver (used lim : Cost) : Nat :=
  if lim.compute < used.compute then 1 else if lim.llc < used.llc then 2 else if lim.hbm < used.hbm then 3
  else if lim.vert < used.vert then 4 else if lim.attn < used.attn then 5 else 0

/-- A fault record of zeros. -/
def FaultRec.none_ : FaultRec := ⟨0, 0, 0, 0, 0, 0, 0, 0, 0, 0, 0⟩

/-- Stops a task that has not stopped yet, without a fault record (R140: a stop that came first stands). -/
def stopPlain (tick : Nat) (t : Task) (st : Stop) : Task :=
  if t.stop.isSome then t else { t with stop := some st, stopAt := tick }

/-- Stops a core's task OVERRUN, but where a core fault of the same tick is replayed first (R140). -/
def overrun (s : State) (c n : Nat) : State :=
  if replayFirst s c then s else s.modCoreTask c (fun t => stopPlain s.clk.tick t ⟨stOVERRUN, n⟩)

/-- METER_EXCEEDED (R138): `elapsed` handshakes have passed on the core; a meter above its budget stops the task OVERRUN. -/
def execMeterExceeded (core : CoreId) (elapsed : Nat) (s : State) : Outcome :=
  .next (if !coreIssues s core then s
    else
      let s := tickCompute s core elapsed
      match rankBudget s core with
      | none => s
      | some (b, _) => match firstOver (s.core core).meters b with
        | 0 => s
        | n => overrun s core n)

/-- SEGMENT_LIMIT_EXCEEDED (R173): the same against SEGMENT. -/
def execSegmentLimitExceeded (core : CoreId) (elapsed : Nat) (s : State) : Outcome :=
  .next (if !coreIssues s core then s
    else
      let s := tickCompute s core elapsed
      match rankBudget s core with
      | none => s
      | some (_, g) => match firstOver (s.core core).seg g with
        | 0 => s
        | n => overrun s core (0x10 + n))

/-! ## The end of a task on a core (R136) -/

/-- Whether a request waits at another module for a lock: it is answered only with the lock (R128). -/
def RemReq.lockWait (r : RemReq) : Bool := match r.req.kind with
  | .lockAcq _ => true
  | _ => false

/-- Requests of a core that are not yet answered, waits for locks aside. -/
def coreBusy (s : State) (c : Nat) : Bool :=
  s.llc.reqs.any (fun r => r.core == c) || s.llc.redReqs.any (fun r => r.core == c) || s.llc.pinReqs.any (fun r => r.core == c) ||
  s.llc.remote.any (fun r => r.req.core == c && !r.lockWait) || !(s.core c).acks.isEmpty

/-- Locks on their way to threads of a core pass on with OWNER_LOST, and its waits end (R136 step 3, R140). -/
def dropWaits (s : State) (c : Nat) : State :=
  let woken := s.llc.wakes.filter (fun w => w.core == c)
  let s := { s with llc := { s.llc with
    waits := s.llc.waits.filter (fun w => w.core != c), unrecorded := s.llc.unrecorded.filter (fun w => w.core != c),
    wakes := s.llc.wakes.filter (fun w => w.core != c) } }
  woken.foldl (fun s w => sendHome s c w.group w.thread w.addr (.lockRel true)) s

/-- No thread of the core waits any more. -/
def unblockAll (k : Core) : Core :=
  { k with groups := k.groups.map (fun p => (p.1, { p.2 with
    threads := p.2.threads.map (fun q => (q.1, { q.2 with block := .no })) })) }

/-- Releases every lock that a thread of the core holds; no thread of it is left to take one (R130, R136 step 3). -/
def releaseAll (s : State) (c : Nat) : State :=
  let s := s.modCore c unblockAll
  (heldGroups (s.core c)).foldl (fun s g => allThreads.foldl (fun s t => releaseHeld s c g t) s) s

/-- core_free of a logical core whose last reservation ended falls to the current tick (R353). -/
def freeCore (s : State) (l : Nat) : State :=
  let later := s.tasks.any (fun p => match p.2 with
    | some t => (List.range t.plan.length).any (fun r => t.plan.getD r 0 == l && !t.ended.contains r)
    | none => false)
  if later then s else { s with adm := { s.adm with coreFree := tset 0 s.adm.coreFree l (min (coreFree s l) s.clk.tick) } }

/-- A cancelled stream of MMAs counts as the end of a burst: the grid runs dummy operations (R199). -/
def endBurst (g : GridRun) : GridRun := match g with
  | .running => .dummy
  | g => g

/-- Sums task counters. -/
def addCounters (a b : Tab Nat) : Tab Nat := b.foldl (fun t p => tset 0 t p.1 ((tget 0 t p.1 + p.2) % 2 ^ 48)) a

/-- The five steps of R136 for a rank, once nothing of it is in flight: its part of the task has ended; the built-in scrub image writes its
summary (R308), the fetch of whose line finds `ecc`. The reads of the lock words that it releases find `errs`, by address. -/
def boundary (s : State) (c id : Nat) (errs : List (Nat × Flaw)) (ecc : EccRes) : State :=
  let s := match s.task id with
    | some t => scrubTask s id t ecc
    | none => s
  let s := findErrs c s (errs.filter (fun p => decide (lsAddr c ≤ p.1 ∧ p.1 < lsAddr c + lsBytes)))
  let s := releaseAll (dropWaits (cancelOps s c) c) c
  let k := s.core c
  let s := s.modTask id (fun t => { t with
    ended := insNat k.rank t.ended, counters := addCounters t.counters k.tcnt, moved := t.moved.filter (· != k.rank) })
  let l := (s.task id).map (fun t => t.plan.getD k.rank 0)
  let s := s.modCore c (fun k => { clearCore k with grid := endBurst k.grid })
  match l with
  | some l => freeCore s l
  | none => s

/-- TASK_BOUNDARY (R136): all threads of the task on the core have exited and its tickets are complete, or the task is stopped, whose
tickets are cancelled; every write has reached its home; a scrub by the built-in image is over (R309). -/
def execTaskBoundary (core : CoreId) (errs : List (Nat × Flaw)) (ecc : EccRes) (s : State) : Outcome :=
  .next (let k := s.core core
    match k.task with
    | none => s
    | some id =>
      let stopped : Bool := match s.task id with
        | some t => t.stop.isSome
        | none => true
      let exited := k.phase == .running && (coreLive k).isEmpty && ticketsDone k && k.resps.isEmpty && !scrubBusy s id
      if ¬ (stopped ∨ exited) ∨ coreBusy s core then s
      else refreshAdmission (boundary s core id errs ecc))

/-! ## Completion (R355 to R357) -/

/-- Status and code of a task that has ended everywhere (R304, R355, R356, R361). -/
def taskStatus (t : Task) : Nat × Nat :=
  match t.stop with
  | some st => (st.status, st.code)
  | none => (if t.replayed ∨ t.rerun then stDONE_REPLAYED else stDONE, 0)

/-- The 32 bytes of a fault record (R170). -/
def faultBytes (f : FaultRec) : List Nat :=
  [f.cause, f.source] ++ natLe 2 f.rank ++ natLe 2 f.launch ++ [f.thread, f.kind] ++ natLe 4 f.pc ++ natLe 4 f.ticket ++
  natLe 8 f.addr ++ natLe 4 f.detail ++ natLe 2 f.further ++ [0, 0]

/-- Set bits of a bitmap below 2^24 tiles. -/
def popCount (tiles n : Nat) : Nat := ((List.range tiles).filter (nbit n)).length

def taskTiles (s : State) (t : Task) : Nat := popCount (match s.program t.program with
  | some p => p.tiles
  | none => 0) t.committed

/-- The header of the progress area, written at the end of every accepted task (R357). -/
def writeProgress (s : State) (t : Task) : State :=
  if t.progress = 0 then s
  else
    let hdr := faultBytes (t.fault.getD FaultRec.none_) ++ natLe 4 (taskTiles s t) ++ natLe 4 (tget 0 t.counters tcWindow) ++
      natLe 8 (tget 0 t.counters tcOob) ++ [(t.replays + (if t.rerun then 1 else 0)) % 256, (taskStatus t).1] ++ List.replicate 14 0
    homeWrite s t.progress hdr

/-- FLAGS of a completion entry, PHASE and SPILLED aside (R355). -/
def entryFlags (t : Task) : Nat :=
  (if tget 0 t.counters tcWindow = 0 then 0 else 2) + (if flagOob t.flags ∧ tget 0 t.counters tcOob ≠ 0 then 4 else 0) +
  (if t.rerun then 16 else 0) + (if t.progress = 0 then 0 else 32)

/-- Whether a v2 task that would end PARTIAL is first put to admission again (R361). -/
def mayRerun (t : Task) : Bool :=
  flagIdempotent t.flags && !t.v1 && !t.tried && !t.rerun && (taskStatus t).1 == stPARTIAL

/-- Whether each rank of a task has ended. -/
def allEnded (t : Task) : Bool := (List.range t.plan.length).all (fun r => t.ended.contains r)

/-- Ends a task: progress area, PMC_TCLS of its class, completion entry, slot (R355 to R359, R525). -/
def finishTask (s : State) (id : Nat) (t : Task) (stall : Bool) : State :=
  let s := t.counters.foldl (fun s p => bump s (pairClass t.cls p.1) p.2) (writeProgress s t)
  let (st, code) := taskStatus t
  let s := postEntry s ⟨t.queue, entryBytes t.tag st code (entryFlags t) t.sqidx t.accept (s.clk.tick - t.accept) (taskTiles s t),
    false⟩ stall
  refreshAdmission (bumpInflight (s.setTask id none) t.queue t.cls false)

/-- CURTAIL_REACHED (R425 step 7): the committed floor has fallen to the curtail level. -/
def curtailCheck (s : State) : State :=
  if s.regBit oPwrLim 25 ∧ ¬ s.regBit oPwrLim 26 ∧ s.regField oPwrCf 11 0 ≤ curtailLevel s then
    pwrEvent (s.setField oPwrLim 26 26 1) 2
  else s

/-- TASK_END (R355): every rank of the task has ended. `stall`: the host link withholds posted credits (R377). -/
def execTaskEnd (task : Nat) (stall : Bool) (s : State) : Outcome :=
  .next (match s.task task with
    | none => s
    | some t =>
      if !allEnded t ∨ mayRerun t ∨ ¬ (t.running ∨ t.stop.isSome) then s
      else curtailCheck (finishTask s task t stall))

/-- RERUN (R361): placement and bound are computed again against the same deadline tick; the task runs again from its start,
or will end PARTIAL. -/
def execRerun (task : Nat) (s : State) : Outcome :=
  .next (match s.task task with
    | none => s
    | some t =>
      if !(allEnded t && mayRerun t) then s
      else match s.program t.program with
      | none => s
      | some p => match placeAndBound s p t.cls t.flags s.clk.tick (t.deadline - s.clk.tick) with
        | .refuse _ _ => s.modTask task (fun t => { t with tried := true })
        | .accept plan floors bound =>
          let s := s.modTask task (fun t => { t with
            tried := true, rerun := true, running := false, ended := [], stop := none, fault := none, moved := [],
            plan := plan, floors := floors, bound := s.clk.tick - t.accept + bound, cd := classDerate s t.cls })
          refreshAdmission (reserve (plan.foldl (fun s l => requestInrush s (l / 8)) s) plan (s.clk.tick + bound)))

end Sys2Proof.Machine
end

