-- ==== Sys2Proof/Machine/Recover.lean ====
section
/-! DEFINITION. Faults and replay: replay events, fences, restores, checkpoints, lost tasks, self-tests, cluster resets (R19, R139,
R206, R290, R304, R447 to R460, R496, R551, R552). -/

namespace Sys2Proof.Machine

/-- CORE_FAULT (R139, R447): a fault of the core itself, not of its grid. -/
def execCoreFault (core : CoreId) (s : State) : Outcome :=
  .next (if (s.core core).svc ≠ 0 then s else coreFault s core rasCoreFault)

/-! ## Targets (R453) -/

/-- Cores of a cluster that take a moved rank: free, in service, without a reservation. -/
def freeLogical (s : State) (l : Nat) : Bool :=
  logicalUp s l && (match s.phys l with
    | some c => (s.core c).task.isNone && (s.core c).phase == .idle
    | none => false) &&
  !(s.tasks.any (fun p => match p.2 with
    | some t => (List.range t.plan.length).any (fun r => t.plan.getD r 0 == l && !t.ended.contains r)
    | none => false))

/-- Whether a cover cluster can take ranks that come from cluster `src`: it is free, or took over from the same cluster. -/
def coverTakes (s : State) (cl src : Nat) : Bool :=
  inCover s cl && clusterRuns s cl && !(s.cluster cl).resetting &&
  (s.regBit (rClcore cl) 20 || (s.cluster cl).hostFrom == src + 1)

/-- Cover clusters in the order of R453: the same tower first, and no other for a tower group. -/
def coverOrder (src : Nat) (sameTower : Bool) : List Nat :=
  let t := src / 32
  let own := (List.range 32).map (32 * t + ·)
  if sameTower then own else own ++ (List.range 32).map (32 * (1 - t) + ·)

/-- A free core of a cover cluster. -/
def coverTarget (s : State) (src : Nat) (sameTower : Bool) : Option Nat :=
  (coverOrder src sameTower).findSome? (fun cl =>
    if coverTakes s cl src then ((List.range 8).map (8 * cl + ·)).find? (freeLogical s) else none)

/-- A cover cluster takes a rank over: COVER clears and HOSTING sets (R454). -/
def hostRank (s : State) (cl src : Nat) : State :=
  let s := s.modCluster cl (fun k => { k with hostFrom := src + 1 })
  (s.setField (rClcore cl) 20 20 0).setField (rClcore cl) 21 21 1

/-- Whether a rank has a tower group (R171). -/
def hasTowerGroup (s : State) (t : Task) (rank : Nat) : Bool :=
  match s.program t.program with
  | some p => (p.ranks.getD rank ⟨0, 0, 0, 0⟩).tgroup != 0
  | none => false

/-- The logical core that a rank moves to (R453, R304): its own for poison; the spare that holds its logical ID now, or one of
its cluster that is still available; else a cover cluster. A fault of the cluster's own speed leaves it no spare there. -/
def targetOf (s : State) (t : Task) (rank c code : Nat) : Option (Nat × State) :=
  let l := t.plan.getD rank 0
  let cl := l / 8
  if code = cPOISONED then some (l, s)
  else
    let spare := if (s.cluster cl).retired ∨ code = 0x0502 then none
      else if s.phys l ≠ some c then (if logicalUp s l then some (l, s) else none)
      else (spareOf s cl).map (fun p => (l, s.setPhys l (some p)))
    match spare with
    | some x => some x
    | none => (coverTarget s cl (hasTowerGroup s t rank)).map (fun l' => (l', hostRank s (l' / 8) cl))

/-! ## Lost tasks (R458) -/

/-- TASK_LOST: the task stops everywhere and will end PARTIAL, CODE 0x81, with a fault record of zeros; a task not yet dispatched
has nothing to stop. -/
def loseTask (s : State) (id rank reason code : Nat) : State :=
  match s.task id with
  | none => s
  | some t =>
    let s := s.modTask id (fun t => { t with
      stop := some (t.stop.getD ⟨stPARTIAL, 0x81⟩), fault := if t.stop.isSome then t.fault else none,
      ended := if t.running then t.ended else List.range t.plan.length })
    rasLog s ⟨0x0302, 2, unitModule, t.queue, t.tag, 0, natLe 2 rank ++ natLe 2 reason ++ natLe 2 code⟩

/-- Why a rank cannot be replayed: reasons 1, 2, 3 and 5 of R458. -/
def lostReason (t : Task) (k : Core) (slotLost : Bool) : Option Nat :=
  if t.replays ≠ 0 then some 1
  else if k.tookGlobalLock then some 2
  else if 256 < k.atomLog.length then some 3
  else if slotLost ∨ k.ckpt.isNone then some 5
  else none

/-! ## Replay events (R452 to R456) -/

/-- Cores of a task that stopped for a fault. -/
def faultyCores (s : State) (id : Nat) : List Nat :=
  (s.cores.filter (fun p => p.2.task == some id && p.2.phase == .stopped && p.2.fault != 0)).map (·.1)

/-- Moves one rank: its target is fixed and its core is fenced. -/
def moveRank (id : Nat) (s : State) (c : Nat) : State :=
  match s.task id with
  | none => s
  | some t => if t.stop.isSome then s else
    let k := s.core c
    match targetOf s t k.rank c k.fault with
    | none => loseTask s id k.rank 4 k.fault
    | some (l, s) =>
      let s := s.modTask id (fun t => { t with
        plan := t.plan.set k.rank l, replays := t.replays + 1, replayed := true, moved := insNat k.rank t.moved })
      s.modCore c (fun k => { k with phase := .fencing, why := k.fault })

/-- REPLAY_EVENT (R452 to R458): all ranks of the task that faults stopped move together, or the task is lost. `lost` names ranks
whose checkpoint slot reads uncorrectable. -/
def execReplayEvent (task : Nat) (lost : List Nat) (s : State) : Outcome :=
  .next (match s.task task with
    | none => s
    | some t =>
      let cs := faultyCores s task
      if t.stop.isSome ∨ cs = [] then s
      else
        let s := cs.foldl (fun s c => if lost.contains (s.core c).rank then
          rasLog (s.modCore c (fun k => { k with ckpt := none })) (evTask s c (logEv 0x020C (unitOf 4 c) (s.reg (rClcore (c / 9))).toNat))
          else s) s
        match cs.findSome? (fun c => (lostReason t (s.core c) false).map (fun r => (c, r))) with
        | some (c, r) => loseTask s task (s.core c).rank r (s.core c).fault
        | none =>
          let s := cs.foldl (moveRank task) s
          let s := s.cores.foldl (fun s p => if p.2.task = some task then
            (match rankBudget s p.1 with
             | some (_, g) => s.modCore p.1 (fun k => { k with ext := g.compute })
             | none => s) else s) s
          refreshAdmission s)

/-- Releases one mirrored lock at its home with OWNER_LOST and logs it (R460); what the home in another module does with it, handing or
clearing, this module does not learn: that byte of the entry is free (R474). -/
def breakLock (s : State) (c : Nat) (m : Nat × Nat × Nat) : State :=
  let (a, g, t) := m
  let log := fun (s : State) (handed : Nat) =>
    rasLog s (evTask s c { logEv 0x0303 (unitOf 4 c) 0 with addr := a, detail := natLe 2 c ++ [handed] })
  if addrModule a ≠ s.modId then
    let s := sendRemote s (match coreTask s c with | some x => x.cls | none => 0) c g t a (.lockRel true) none
    log { s with fresh := s.fresh + 1 } ((Config.freeByte s.fresh).toNat % 2)
  else
    let (s, handed) := passLock s a true
    log s (if handed then 1 else 0)

/-- A thread as replay finds it: its filter answers the REDUCEs that it had sent (R456), and what it had written before the checkpoint was
acknowledged to the fenced core (R451). -/
def replayThread (sent : Nat) (th : Thread) : Thread := { th with redSkip := sent, redSent := 0, writes := 0 }

/-- The groups of a checkpoint with the replay filter of the stopped core (R456). -/
def replayGroups (ck : Ckpt) (k : Core) : Tab Group :=
  ck.groups.map (fun p => (p.1, { p.2 with threads := p.2.threads.map (fun q =>
    (q.1, replayThread ((thr (grp k p.1) q.1).redSent) q.2)) }))

/-- FENCE_COMPLETE (R451, R452, R456, R460): every request of the fenced core is answered, its engines have dropped their tickets,
its global locks are broken, and its checkpoint is on its way to the target. -/
def execFenceComplete (core : CoreId) (s : State) : Outcome :=
  .next (let k := s.core core
    match k.task with
    | none => s
    | some id => match s.task id, k.ckpt with
      | some t, some ck =>
        if k.phase ≠ .fencing ∨ s.llc.reqs.any (fun r => r.core == core.val) ∨ s.llc.redReqs.any (fun r => r.core == core.val) ∨
            s.llc.pinReqs.any (fun r => r.core == core.val) ∨ s.llc.remote.any (fun r => r.req.core == core.val && !r.lockWait) then s
        else match s.phys (t.plan.getD k.rank 0) with
        | none => s
        | some p =>
          let s := cancelOps s core
          let woken := (s.llc.wakes.filter (fun w => w.core == core.val)).map (fun w => (w.addr, w.group, w.thread))
          let s := { s with llc := { s.llc with
            waits := s.llc.waits.filter (fun w => w.core != core.val), wakes := s.llc.wakes.filter (fun w => w.core != core.val),
            unrecorded := s.llc.unrecorded.filter (fun w => w.core != core.val) } }
          let s := (k.mirror ++ woken).foldl (fun s m => breakLock s core m) s
          let s := s.modCore core (fun k => { clearCore k with grid := endBurst k.grid })
          let owner := (s.context t.context).map (·.owner)
          let s := if (s.core p).lastOwner ≠ owner then zeroLocal s p else s
          s.modCore p (fun u => { clearCore u with
            task := some id, rank := k.rank, phase := .restoring, groups := replayGroups ck k, genT := ck.genT,
            ctrMma := ck.ctrMma, ctrXfer := ck.ctrXfer, ctrAttn := ck.ctrAttn, meters := ck.meters, tcnt := ck.tcnt,
            ckpt := some ck, ext := k.ext, atomReplay := k.atomLog, movedFrom := core, why := k.why, lastOwner := owner })
      | _, _ => s)

/-- RESTORE_COMPLETE (R452, R459): the rank resumes, and its move is logged. -/
def execRestoreComplete (core : CoreId) (s : State) : Outcome :=
  .next (let k := s.core core
    match k.task with
    | none => s
    | some id =>
      if k.phase ≠ .restoring then s
      else
        let s := s.modTask id (fun t => { t with moved := t.moved.filter (· != k.rank) })
        let s := recordBases (s.modCore core (fun k => { k with phase := .running })) core
        rasLog s (evTask s core { logEv 0x0301 (unitOf 4 core) 0 with
          detail := natLe 2 k.rank ++ natLe 2 k.movedFrom ++ natLe 2 core.val ++ natLe 2 k.why ++ [1] }))

/-- A segment begins: what the port counts per segment is clear (R456), and every accumulator set is empty (R183, R188). -/
def freshSegment (k : Core) : Core :=
  { k with
    accs := [], setRecs := [], seg := Cost.zero, atomLog := [], atomReplay := [], tookGlobalLock := false,
    groups := k.groups.map (fun p => (p.1, { p.2 with threads := p.2.threads.map (fun q =>
      (q.1, { q.2 with redSent := 0, redSkip := 0 })) })) }

/-- CHECKPOINT_WRITE_COMPLETE (R134, R450): the slot becomes the rank's checkpoint and its threads go on. Write-throughs acknowledged since
the release stay acknowledged. -/
def execCheckpointWriteComplete (core : CoreId) (s : State) : Outcome :=
  .next (let k := s.core core
    match k.ckptNext with
    | none => s
    | some ck =>
      if k.phase ≠ .ckptWrite then s
      else
        let k := freshSegment { openThreads k with phase := .running, genT := ck.genT, ckptNext := none }
        s.setCore core { k with ckpt := some (ckptOf k) })

/-! ## Reservations that move (R551) -/

/-- The best floor that a cluster can still reach. -/
def bestFloor (s : State) (c : Nat) : Nat := if clusterRuns s c then (steps.map (floorOf s c)).foldl max 0 else 0

/-- RESERVATION_MOVE (R551): a rank of a task not yet dispatched, whose core left dispatch without a takeover, moves to a free core,
or the task is lost with reason 4. -/
def execReservationMove (task : Nat) (rank : Nat) (s : State) : Outcome :=
  .next (match s.task task with
    | none => s
    | some t =>
      let l := t.plan.getD rank 0
      let ok := logicalUp s l && decide (t.floors.getD rank 0 ≤ bestFloor s (l / 8))
      if t.running ∨ t.stop.isSome ∨ t.plan.length ≤ rank ∨ ok then s
      else
        let own := if (s.cluster (l / 8)).retired ∨ logicalUp s l then none
          else (spareOf s (l / 8)).map (fun p => s.setPhys l (some p))
        match own with
        | some s => refreshClcore s (l / 8)
        | none => match coverTarget s (l / 8) (hasTowerGroup s t rank) with
          | none => refreshAdmission (loseTask s task rank 4 0)
          | some l' =>
            let s := hostRank s (l' / 8) (l / 8)
            let s := s.modTask task (fun t => { t with plan := t.plan.set rank l' })
            refreshAdmission (freeCore s l))

/-! ## Self-tests and spares (R19, R206, R290, R552) -/

/-- A core's test ends with the service state `v`: a grid fault that led to it counts in FAULTS now (R206, R208). -/
def endTest (k : Core) (v : Nat) : Core :=
  { k with svc := v, test := 0, swap := none,
           gfaults := if k.test ≠ 0 ∧ k.test < rasCoreFault then satAdd 0xFF k.gfaults 1 else k.gfaults }

/-- A core returns to service: with its logical ID, or as its cluster's spare (R552). -/
def returnCore (s : State) (c : Nat) : State := refreshClcore (s.modCore c (fun k => endTest k 0)) (clusterOf c)

/-- A core is retired (R19): a logical ID that it still has goes to its cluster's spare, and without one becomes absent. -/
def retireCore (s : State) (c : Nat) : State :=
  let code := if (s.core c).test < rasCoreFault then 0x0205 else 0x020A
  let s := s.modCore c (fun k => endTest k 2)
  let s := match logicalOf s c with
    | some l => s.setPhys l (spareOf s (clusterOf c))
    | none => s
  let s := refreshClcore s (clusterOf c)
  let st := if code = 0x0205 then gstat s c else (s.reg (rClcore (clusterOf c))).toNat
  rasLog s (logEv code (unitOf 4 c) st)

/-- GRID_SELF_TEST_COMPLETE (R206, R552): the physical rows and columns found faulty; `other` is a fault that no spare covers. A
bypassed row or column holds no active cell (R175). -/
def execGridSelfTestComplete (core : CoreId) (rows cols : List (Fin 65)) (other : Bool) (s : State) : Outcome :=
  .next (let k := s.core core
    let rows := rows.filter (fun r => r.val != k.rowSpare)
    let cols := cols.filter (fun c => c.val != k.colSpare)
    if k.svc ≠ 1 ∨ k.test = 0 ∨ k.task.isSome ∨ k.swap.isSome then s
    else if ¬ other ∧ rows = [] ∧ cols = [] then returnCore s core
    else if other ∨ 1 < rows.length ∨ 1 < cols.length ∨ (rows ≠ [] ∧ k.rowSpare ≠ 64) ∨ (cols ≠ [] ∧ k.colSpare ≠ 64) ∨
        rasCoreFault ≤ k.test then retireCore s core
    else s.modCore core (fun k => { k with swap := some (rows.head?.map (fun x => x.val), cols.head?.map (fun x => x.val)) }))

/-- GRID_SPARED (R206, R207): with the core free and its grid idle the switch is done, recorded and logged, and the core returns to
service. -/
def execGridSpared (core : CoreId) (s : State) : Outcome :=
  .next (let k := s.core core
    match k.swap with
    | none => s
    | some (r, c) =>
      if k.task.isSome ∨ k.grid ≠ .stopped ∨ k.mmaQ ≠ [] then s
      else
        let s := s.modCore core (fun k => { k with
          rowSpare := r.getD k.rowSpare, rowFix := k.rowFix || r.isSome, colSpare := c.getD k.colSpare, colFix := k.colFix || c.isSome })
        let s := match r with
          | some r => addRepair s (6, core, r)
          | none => s
        let s := match c with
          | some c => addRepair s (7, core, c)
          | none => s
        let s := returnCore s core
        rasLog s (logEv 0x0204 (unitOf 4 core) (gstat s core)))

/-- ATTN_SELF_TEST_COMPLETE (R290): the event is logged and the engine returns, or its cluster is retired. -/
def execAttnSelfTestComplete (cluster : ClusterId) (pass : Bool) (s : State) : Outcome :=
  .next (let code := (s.cluster cluster).attnTest
    if code = 0 then s
    else if pass then
      rasLog (s.modCluster cluster (fun k => { k with attnTest := 0 })) (logEv code (unitOf 3 cluster) (s.reg (rClcore cluster)).toNat)
    else
      let s := retireCluster s cluster 0x0208
      rasLog s (logEv 0x0208 (unitOf 3 cluster) (s.reg (rClcore cluster)).toNat))

/-! ## Cluster resets (R454, R496) -/

/-- Whether a cluster holds no task and no reservation. -/
def clusterFree (s : State) (cl : Nat) : Bool :=
  ((List.range 9).all (fun i => (s.core (9 * cl + i)).task.isNone)) && (floorsOn s cl (fun _ => true)).isEmpty

/-- CLUSTER_RESET (R298, R496): local stores, register files and caches of the cluster's cores are filled. -/
def execClusterReset (cluster : ClusterId) (s : State) : Outcome :=
  .next (if !clusterFree s cluster then s
    else
      let s := (List.range 9).foldl (fun s i =>
        let c := 9 * cluster.val + i
        (zeroLocal s c).modCore c (fun k => { clearCore k with grid := .stopped, icache := [] })) s
      s.modCluster cluster (fun k => { k with resetting := true, attnRun := .stopped }))

/-- CLUSTER_RESET_COMPLETE (R454): a cover cluster can take the next takeover. -/
def execClusterResetComplete (cluster : ClusterId) (s : State) : Outcome :=
  .next (if !(s.cluster cluster).resetting then s
    else
      let s := s.modCluster cluster (fun k => { k with resetting := false, hostFrom := 0 })
      let free := (List.range 8).foldl (fun t i => tset 0 t (8 * cluster.val + i) 0) s.adm.coreFree
      let s := { s with adm := { s.adm with coreFree := free } }
      let s := s.setField (rClcore cluster) 21 21 0
      s.setField (rClcore cluster) 20 20 (if inCover s cluster ∧ ¬ (s.cluster cluster).retired then 1 else 0))

end Sys2Proof.Machine
end

