-- ==== Sys2Proof/Machine/Retire.lean ====
section
/-! DEFINITION. Dies and towers that retire, and the retirement of a bank (R47, R254, R410, R447, R449). -/

namespace Sys2Proof.Machine

/-! ## Dies and towers (R447, R449) -/

/-- The die of logical core `l` (R64). -/
def dieOfLogical (l : Nat) : Nat := dieOfCluster (l / 8)

/-- Tasks that rely on a set of logical cores, by number, with the first such rank. -/
def tasksOn (s : State) (on : Nat → Bool) : List (Nat × Nat) :=
  s.tasks.filterMap (fun p => p.2.bind (fun t =>
    ((List.range t.plan.length).find? (fun r => on (t.plan.getD r 0) && !t.ended.contains r)).map (fun r => (p.1, r))))

/-- A die retires: its ports and checkpoint stores are lost, and the tasks with ranks on it (R410, R447). -/
def retireDie (s : State) (d : Nat) : State :=
  let s := { s with pwr := { s.pwr with dom := tset 0 s.pwr.dom (64 + d) 3 } }
  let s := (List.range 16).foldl (fun s i => retireCluster s (16 * d + i) 0x020D) s
  let s := rasLog s (logEv 0x020D (unitOf 2 d) (s.reg (rClcore (16 * d))).toNat)
  refreshAdmission ((tasksOn s (fun l => dieOfLogical l == d)).foldl (fun s p => loseTask s p.1 p.2 5 0x020D) s)

/-- A tower retires (R449): its clusters, the tasks with a rank there, and those whose context has a window over its homes. -/
def retireTower (s : State) (t : Nat) : State :=
  if towerRetired s t then s
  else
    let dom := (List.range 2).foldl (fun m i => tset 0 m (68 + 2 * t + i) 3) s.pwr.dom
    let s := { s with pwr := { s.pwr with dom := dom } }
    let s := (List.range 32).foldl (fun s i => retireCluster s (32 * t + i) 0x020E) s
    let s := rasLog s (logEv 0x020E (unitOf 1 t) (s.reg (twrBase t)).toNat)
    let hit := tasksOn s (fun l => l / 256 == t)
    let ctx := s.tasks.filterMap (fun p => p.2.bind (fun k =>
      if contextMeets s t k.context ∧ ¬ hit.any (fun h => h.1 == p.1) then some (p.1, 0) else none))
    refreshAdmission ((hit ++ ctx).foldl (fun s p => loseTask s p.1 p.2 5 0x020E) s)

/-! ## The retirement of a bank -/

/-- A tower whose resident lines find no host set: every cluster of it is retired, and their work replays elsewhere (R254). -/
def retireClusters (s : State) (t : Nat) : State :=
  refreshAdmission ((List.range 32).foldl (fun s i => retireCluster s (32 * t + i) 0x0106) s)

/-- A pinned line of a retired bank in its substitute: pinned there within the limits, else counted in PINS_LOST (R255). -/
def repinLine (s : State) (p : Nat × Line) : State :=
  match homeAt s (128 * p.1), p.2.pin with
  | some m, some c =>
    if pinAllowed s m c then { s with llc := { s.llc with lines := tins p.1 { p.2 with dirty := false, saved := [] } s.llc.lines } }
    else s.setField (rHstat m.half) 31 23 (satAdd 0x1FF (s.regField (rHstat m.half) 31 23) 1)
  | _, _ => s

/-- BANK_WRITEBACK_COMPLETE (R47 steps 2 to 4, R254, R255): every line of the bank is in HBM; its sets map to the substitute,
pinned lines within the substitute's limits stay pinned there, its resident lines move and are rebuilt, and sets that lost a way to
them hold no more lines than they have ways. -/
def execBankWritebackComplete (tower : TowerId) (bank : Fin 512) (s : State) : Outcome :=
  .next (let tb := 512 * tower.val + bank.val
    if !s.vert.retiring.contains (tb, false) then s
    else
      let h := tb / 256
      let mine := s.llc.lines.filter (fun p => (homeAt s (128 * p.1)).any (fun m => m.half == h && m.bank == tb % 256))
      let s := mine.foldl (fun s p => evictLine s p.1) s
      let moved := s.llc.reloc.filter (fun r => r.2.2 == tb)
      let s := { s with llc := { s.llc with retired := insNat tb s.llc.retired, reloc := s.llc.reloc.filter (fun r => r.2.2 != tb) } }
      let ways := (List.range (resWays s h)).map (fun w => (tb, w)) ++ moved.map (fun r => (r.1, r.2.1))
      let s := ways.foldl (fun s w => match relocateWay s w.1 w.2 with
        | some s => s
        | none => retireClusters s tower) s
      let s := (mine.filter (fun p => p.2.pin.isSome)).foldl repinLine s
      refreshTower (refreshHstat (trimHalf { s with vert := { s.vert with
        retiring := s.vert.retiring.map (fun p => if p.1 = tb then (tb, true) else p) } } h)) tower)

end Sys2Proof.Machine
end

