-- ==== Sys2Proof/Machine/Reset.lean ====
section
/-! DEFINITION. Resets, bring-up and loss of power (R9, R206, R207, R298, R336 to R338, R360, R387, R482, R496 to R502, R516, R535,
R536). -/

namespace Sys2Proof.Machine

/-! ## Register fields across an event (R9) -/

/-- Events by their bit in a field's kept-through mask; 9 is a loss of power, which only fuses and flash survive. -/
def evM : Nat := 0
def evC : Nat := 1
def evT : Nat := 2
def evDI : Nat := 6
def evSB : Nat := 7
def evCold : Nat := 9

def fieldKept (f : Field) (e : Nat) : Bool := f.kept == 511 || nbit f.kept e

/-- A register word after an event: each field that is not kept takes its reset value. -/
def resetWord (r : RegDef) (i e w : Nat) : Nat :=
  r.fields.foldl (fun a f => if fieldKept f e then a else putBits a f.hi f.lo (bits (r.resetVal i) f.hi f.lo)) w

def resetRegs (s : State) (e : Nat) (hit : Nat → Bool) : State :=
  { s with regs := s.regs.foldl (fun t p =>
      if hit p.1 then match regAt p.1 with
        | none => t
        | some (r, i) => tset (r.resetVal i) t p.1 (BitVec.ofNat 32 (resetWord r i e p.2.toNat))
      else t) s.regs }

/-- The tower that a register belongs to; none for registers of the module (R9's T, DEDUCED, log 26). -/
def regTower (off : Nat) : Option Nat :=
  if 0x02008000 ≤ off ∧ off < 0x0200A000 then some ((off - 0x02008000) / 0x1000)
  else if 0x00301000 ≤ off ∧ off < 0x00301200 then some ((off - 0x00301000) / 256)
  else if 0x100 ≤ off ∧ off < 0x200 then some ((off - 0x100) / 128)
  else if 0x0200C200 ≤ off ∧ off < 0x0200C210 then some ((off - 0x0200C200) / 8)
  else if 0x00302100 ≤ off ∧ off < 0x00302110 then some ((off - 0x00302100) / 8)
  else if 0x00302110 ≤ off ∧ off < 0x00302118 then some ((off - 0x00302110) / 4)
  else if 0x00302120 ≤ off ∧ off < 0x00302128 then some ((off - 0x00302120) / 4)
  else if 0x01010000 ≤ off ∧ off < 0x01034000 then some ((off - 0x01010000) / 0x100 / 288)
  else if 0x01034000 ≤ off ∧ off < 0x01034400 then some ((off - 0x01034000) / 0x200)
  else if 0x01038000 ≤ off ∧ off < 0x0103A000 then some ((off - 0x01038000) / 0x1000)
  else if 0x01040000 ≤ off ∧ off < 0x01042000 then some ((off - 0x01040000) / 0x1000)
  else if 0x01042000 ≤ off ∧ off < 0x01082000 then some ((off - 0x01042000) / 0x20000)
  else none

/-- The tower that a counter belongs to; none for the class totals and the ports of the I/O die. -/
def pairTower (p : Nat) : Option Nat := if p < 0x2000 then none else regTower (8 * p + 0x01000000)

/-- Counters of a tower and of the I/O die lose their values (chapter 21: kept through K, P and LI only), the class totals with a
compute reset. -/
def clearCounts (s : State) (tw : Nat) (io cls : Bool) : State :=
  let keep := fun (p : Nat) => if p < 0x2000 then !cls else if pairTower p = none then !io else pairTower p != some tw
  { s with pmc := { s.pmc with
    off := insNat tw s.pmc.off
    cnt := s.pmc.cnt.filter (fun p => keep p.1), hold := s.pmc.hold.filter (fun p => keep p.1),
    win := s.pmc.win.filter (fun p => keep p.1), wraps := s.pmc.wraps.filter (fun p => keep (pairCore p.1 p.2)) } }

/-! ## Tasks that a reset ends (R360) -/

/-- Drops what a core has under way: requests, acknowledgements and answers. -/
def purgeCore (s : State) (c : Nat) : State :=
  let s := { s with llc := { s.llc with
    reqs := s.llc.reqs.filter (fun r => r.core != c), redReqs := s.llc.redReqs.filter (fun r => r.core != c),
    pinReqs := s.llc.pinReqs.filter (fun r => r.core != c), remote := s.llc.remote.filter (fun r => r.req.core != c) } }
  s.modCore c (fun k => { k with acks := [], resps := [] })

/-- A reset stops a task FAULTED, CODE 0x80, unless it has stopped; a budget exceeded in the same tick gives way (R360, R362). -/
def resetStop (tick : Nat) (t : Task) : Task :=
  if t.judged tick then { t with stop := some ⟨stFAULTED, 0x80⟩, stopAt := tick } else t

/-- Ends a task at once: FAULTED, CODE 0x80, unless it had stopped or ended before; its completion and progress area are written. -/
def endTaskNow (s : State) (id : Nat) : State :=
  match s.task id with
  | none => s
  | some t =>
    let s := if allEnded t then s else s.modTask id (resetStop s.clk.tick)
    let cs := (s.cores.filter (fun p => p.2.task == some id)).map (·.1)
    let s := cs.foldl (fun s c => boundary (purgeCore s c) c id [] []) s
    match s.task id with
    | none => s
    | some t =>
      let plan := t.plan
      let s := curtailCheck (finishTask s id t false)
      plan.foldl freeCore s

/-- Whether a task has a rank in a tower. -/
def taskIn (t : Task) (tw : Nat) : Bool := t.plan.any (fun l => l / 256 == tw)

def endTower (s : State) (tw : Nat) : State :=
  ((s.tasks.filter (fun p => p.2.any (fun t => taskIn t tw))).map (·.1)).foldl endTaskNow s

/-! ## Write-back and fill (R497 steps 3 and 4, R298) -/

def towerOfAddr (s : State) (a : Nat) : Option Nat := (homeOf s a).map (fun m => m.half / 2)

/-- Drains the reduction queues, serves releases, and writes back every dirty line homed in a tower; its LLC holds no line then. -/
def writeBackTower (s : State) (tw : Nat) : State :=
  let at_ := fun a => towerOfAddr s (addrLow a + s.modId * 2 ^ 48) == some tw
  let s := (s.llc.reds.filter (fun e => at_ e.addr)).foldl applyEntry s
  let rel := s.llc.reqs.filter (fun r => at_ r.addr && (match r.kind with
    | .lockRel _ => true
    | _ => false))
  let s := rel.foldl (fun s r => serveReq s r []) s
  let s := (s.llc.lines.filter (fun p => at_ (128 * p.1))).foldl (fun s p => leaveLine [] s p.1) s
  { s with llc := { s.llc with
    merges := s.llc.merges.filter (fun e => e.half / 2 != tw), fills := s.llc.fills.filter (fun l => !at_ (128 * l)) } }

/-- A core after the fill of its register files and L1 (R298). -/
def filledCore (k : Core) : Core :=
  { clearCore k with grid := .stopped, gfaults := 0, swap := none, icache := [] }

/-- Monitors by tower (R64); none for the I/O die. -/
def monTower (m : Nat) : Option Nat := if m < 384 then some (m / 192) else if m < 512 then some ((m - 384) / 64) else none
/-- Dies by tower. -/
def dieTower (d : Nat) : Option Nat := if d < 4 then some (d / 2) else if d < 6 then some (d - 4) else none

/-- Clusters and bundles of a tower after its fill. -/
def filledClusters (s : State) (tw : Nat) : Tab Cluster :=
  s.clusters.foldl (fun t p => if p.1 / 32 = tw then tset Cluster.fresh t p.1 { p.2 with attnRun := .stopped, preRaise := 0 } else t)
    s.clusters
def filledBundles (s : State) (tw : Nat) : Tab Bundle :=
  s.vert.bundles.foldl (fun t p => if keyTower p.1 = tw then tset Bundle.fresh t p.1 { p.2 with testing := false, errs := 0, hist := [] } else t)
    s.vert.bundles

/-- The tower of a domain (R408); none for the I/O die's and the HBM's. -/
def domTower (d : Nat) : Option Nat :=
  if d < 64 then some (d / 32) else if d < 68 then some ((d - 64) / 2) else if d < 72 then some ((d - 68) / 2) else none

/-- PATH_DEGRADED, PATH_REDUCED and STATE of the domains of some towers take their reset values (R9: PWR_DSTAT is kept through K, P
and LI only). A domain that its overcurrent switched off reads as retired from then on (R387, R447; DEDUCED, log 101). -/
def clearDomains (s : State) (hit : Option Nat → Bool) : State :=
  { s with pwr := { s.pwr with
    path := s.pwr.path.filter (fun p => !hit (domTower p.1)),
    newPath := s.pwr.newPath.filter (fun p => !hit (domTower (p.1 / 4))),
    sense := s.pwr.sense.filter (fun p => !hit (domTower p.1)),
    dom := s.pwr.dom.foldl (fun t p => if p.2 = 4 ∧ hit (domTower p.1) then tset 0 t p.1 3 else t) s.pwr.dom } }

/-- The last samples of the monitors of some towers, or of the I/O die, are lost (R9; THM_MONDAT is kept through K, P and LI only). -/
def clearSamples (s : State) (hit : Option Nat → Bool) : State :=
  { s with therm := { s.therm with mon := s.therm.mon.filter (fun p => !hit (monTower p.1)) } }

/-- Whether a tower, or the I/O die, belongs to a reset of the given towers. -/
def hitBy (towers : List Nat) (t : Option Nat) : Bool := t.all (fun t => towers.contains t)

/-- Fills a tower (R298): register files, L1 and, with CLEAN, local stores and resident windows. -/
def fillTower (s : State) (tw : Nat) (clean : Bool) : State :=
  let cores := s.cores.foldl (fun t p => if p.1 / 288 = tw then tset Core.idle t p.1 (filledCore p.2) else t) s.cores
  let clusters := filledClusters s tw
  let bundles := filledBundles s tw
  let s := { s with
    cores := cores
    clusters := clusters
    pwr := { s.pwr with
      light := s.pwr.light.filter (fun c => c / 32 != tw), inrush := tset [] s.pwr.inrush tw [], ramp := tset none s.pwr.ramp tw none,
      req := s.pwr.req.filter (fun p => p.1 / 32 != tw), guardV := s.pwr.guardV.filter (fun p => p.1 / 32 != tw),
      fabV := s.pwr.fabV.filter (fun p => domTower p.1 != some tw) }
    therm := { s.therm with dies := s.therm.dies.filter (fun p => dieTower p.1 != some tw) }
    vert := { s.vert with bundles := bundles } }
  if clean then zeroFill (zeroFill s (lsAddr (288 * tw)) (288 * 0x100000)) (resBase + 2 * tw * gib1) (2 * gib1) else s

/-- Copies a sourced granule from its source (R237, R238). -/
def reloadGranule (s : State) (g : Nat) : State :=
  match tget 0 s.llc.sources g with
  | 0 => s
  | src + 1 =>
    let a := resBase + g * mib2
    let s := zeroFill s a mib2
    { s with
      mem := (s.mem.filter (fun p => decide (src ≤ p.1 ∧ p.1 < src + mib2))).foldl (fun m p => memSet m (p.1 - src + a) p.2) s.mem,
      poison := (s.poison.filter (fun w => decide (src ≤ 16 * w ∧ 16 * w < src + mib2))).foldl
        (fun l w => insNat (w - src / 16 + a / 16) l) s.poison }

/-! ## Compute and tower resets (R497, R516) -/

def rHlink : Nat := 0x0000E000
def oAdmStat : Nat := 0x00200004

/-- Starts a compute or tower reset: steps 1 to 4 of R497. -/
def startRun (s : State) (r : RunReset) (kind cause : Nat) : State :=
  let s := r.towers.foldl endTower (stopScrubs s)
  let s := r.towers.foldl writeBackTower s
  let s := { s with md := { s.md with resets := s.md.resets ++ [r], kind := kind, cause := cause, clean := r.clean } }
  let s := if r.both then resetRegs s evC (fun _ => true)
    else r.towers.foldl (fun s tw => resetRegs s evT (fun o => regTower o == some tw || (regTower o).isNone)) s
  let s := r.towers.foldl (fun s tw => clearCounts (fillTower s tw r.clean) tw true r.both) s
  let s := clearSamples (clearDomains s (hitBy r.towers)) (hitBy r.towers)
  let s := { s with towersDown := r.towers.foldl (fun l t => insNat t l) s.towersDown }
  let s := (List.range 64).foldl refreshFloor s
  refreshAdmission ((List.range 2).foldl refreshTower s)

/-- Whether a low-power entry is planned or under way, or its exit runs (R516). -/
def stateBusy (s : State) : Bool := s.pwr.entry.isSome || s.md.resets.any (·.exits)

/-- RESET_CAUSE of a compute reset: by mailbox, or a CXL Reset, which has no job (R508). -/
def runCause (r : RunReset) : Nat := if r.job.isSome then 4 else 5

/-- COMPUTE_RESET at its server (R497, R516): none if it conflicts. It waits for a tower reset that runs. -/
def computeReset (s : State) (clean : Bool) (job : Option Nat) : Option State :=
  let r : RunReset := ⟨[0, 1], true, clean, false, job⟩
  if s.md.resets.any (·.both) ∨ s.md.waiting ≠ [] ∨ stateBusy s then none
  else if s.md.resets ≠ [] then some { s with md := { s.md with waiting := [r] } }
  else some (startRun s r 2 (runCause r))

/-- TOWER_RESET at its server. -/
def towerReset (s : State) (tw : Nat) (clean : Bool) (job : Option Nat) : Option State :=
  if s.md.resets.any (·.both) ∨ s.md.waiting ≠ [] ∨ s.md.resets.any (fun r => r.towers.contains tw) ∨ stateBusy s then none
  else some (startRun s ⟨[tw], false, clean, false, job⟩ (3 + tw) 4)

/-- Cores of a tower that a self-test still holds out (R207). -/
def testsPending (s : State) (tw : Nat) : Bool :=
  s.cores.any (fun p => p.1 / 288 == tw && p.2.svc == 1 && p.2.test != 0)

/-- LNK_HSTAT.READY and admission (R497 step 8, R502 step 11). -/
def setReady (s : State) : State :=
  let s := (s.setField rHlink 10 10 1).setField oAdmStat 17 17 1
  { s with md := { s.md with ready := s.clk.tick, opened := true } }

/-- Setpoints that PWR publishes settle on clusters that start (R497 step 7). -/
def publish (s : State) (plan : List (List Nat)) (cs : List Nat) : State :=
  let s := cs.foldl refreshFloor (adoptPlan s plan)
  refreshAdmission (cs.foldl settle s)

/-- Whether a cluster may enter LI (R499): no committed work, no reservation, outside the cover pool, and its grids and attention engine
stopped (R199). -/
def canLight (s : State) (c : Nat) : Bool :=
  clusterRuns s c && !s.pwr.light.contains c && !inCover s c && (floorsOn s c (fun _ => true)).isEmpty &&
  (List.range 9).all (fun i => (s.core (9 * c + i)).task.isNone && (s.core (9 * c + i)).grid == .stopped) &&
  (s.cluster c).attnRun == .stopped

/-- Enters LI (R499): the register files and the grid state of the cluster are lost. -/
def enterLight (s : State) (c : Nat) : State :=
  if !canLight s c then s
  else
    let s := (List.range 9).foldl (fun s i => s.modCore (9 * c + i) (fun k => { clearCore k with grid := .stopped })) s
    let s := s.modCluster c (fun k => { k with attnRun := .stopped, preRaise := 0 })
    stopScrubs { s with pwr := { s.pwr with light := insNat c s.pwr.light, exitAt := tset 0 s.pwr.exitAt c 0 } }

/-- Curtailment's step 4 (R425): clusters without work enter LI, every other one takes its curtail setpoint. -/
def curtailClusters (s : State) : State :=
  (List.range 64).foldl (fun s c =>
    if canLight s c then enterLight s c
    else if inCover s c ∨ commitOf s c = 0 ∨ ¬ clusterRuns s c then s
    else match lowestStep s c (commitOf s c) with
      | some v => requestSetpoint s c v
      | none => s) s

/-- TOWER_READY (R497 steps 5 to 8): the tower is trained, tested, calibrated and sampled. `train`: PWR's plan and the lanes that the
training finds failed (R37); `suspect`: die A's rings fail the check of R437. The last tower of the reset ends it, and a waiting compute
reset starts. -/
def execTowerReady (tower : TowerId) (train : Training) (suspect : Bool) (s : State) : Outcome :=
  .next (match s.md.resets.find? (fun r => r.towers.contains tower) with
    | none => s
    | some r =>
      if testsPending s tower then s
      else
        let s := trainTower s tower train.lanes
        let s := s.setField (0x00302100 + 8 * tower.val) 19 19 (if suspect ∧ s.regBit (0x00302100 + 8 * tower.val) 19 then 1 else 0)
        let s := if r.clean then (s.llc.sources.filter (fun p => p.1 / 1024 == tower.val)).foldl (fun s p => reloadGranule s p.1) s else s
        let r' := { r with towers := r.towers.filter (· != tower.val) }
        let rest := s.md.resets.filter (fun x => !(x.towers.contains tower.val))
        if r'.towers ≠ [] then { s with md := { s.md with resets := rest ++ [r'] } }
        else
          let ts := if r.both then [0, 1] else [tower.val]
          let s := { s with md := { s.md with resets := rest }, towersDown := s.towersDown.filter (fun t => !ts.contains t) }
          let s := if r.exits then { s with pwr := { s.pwr with state := 0 } } else s
          let s := publish s train.plan ((List.range 64).filter (fun c => ts.contains (c / 32)))
          let s := if r.exits ∧ s.regBit oPwrLim 25 then curtailClusters s else s
          let s := if rest = [] ∧ s.pwr.state = 0 then setReady s else s
          let s := match r.job with
            | some j => endJob s j mOK 0 []
            | none => s
          if rest ≠ [] then s
          else match s.md.waiting with
            | [] => s
            | w :: _ => startRun { s with md := { s.md with waiting := [] } } w 2 (runCause w))

/-! ## Module reset, power and bring-up -/

/-- What fuses and flash hold of a core, and the self-test it owes (R207, R504): an in-service switch is reapplied when the repair
list in flash has its row, or its column. -/
def flashCore (row col : Bool) (k : Core) : Core :=
  { Core.idle with
    rowSpare := if k.rowFix && !row then 64 else k.rowSpare, rowFix := k.rowFix && row,
    colSpare := if k.colFix && !col then 64 else k.colSpare, colFix := k.colFix && col, svc := k.svc, test := k.test }

/-- The tables that fuses and flash carry across an event. -/
def inFlash (s : State) (kind unit : Nat) : Bool := s.ecc.repairs.any (fun r => r.1 == kind && r.2.1 == unit)
def flashCores (s : State) : Tab Core :=
  s.cores.foldl (fun t p => tset Core.idle t p.1 (flashCore (inFlash s 6 p.1) (inFlash s 7 p.1) p.2)) []
def flashClusters (s : State) : Tab Cluster :=
  s.clusters.foldl (fun t p => tset Cluster.fresh t p.1
    { Cluster.fresh with retired := p.2.retired, mfgSlot := p.2.mfgSlot, attnTest := p.2.attnTest }) []
/-- Banks that the repair list in flash records as retired, ascending (R47). -/
def flashBanks (s : State) : List Nat := s.ecc.repairs.foldl (fun l r => if r.1 = 5 then insNat r.2.1 l else l) []
/-- Failed phases by domain that the repair list in flash records (R410). -/
def flashPhases (s : State) : Tab Nat :=
  s.ecc.repairs.foldl (fun t r => if r.1 = 8 then tset 0 t r.2.1 (tget 0 t r.2.1 ||| 2 ^ r.2.2) else t) []
/-- Spares of a kind in use by unit: soft repairs of the list in flash and those committed (R314). -/
def sparesOf (s : State) (kind : Nat) : Tab Nat :=
  (s.ecc.repairs ++ s.ecc.fused).foldl (fun t r => if r.1 = kind then tset 0 t r.2.1 (tget 0 t r.2.1 + 1) else t) []
def flashProc (dumps : Bool) (p : Proc) : Proc :=
  { p with trips := [], dump := if dumps then p.dump else none, stage := if p.stage = 1 then 0 else if p.stage = 4 then 2 else p.stage }
def flashProcs (s : State) (dumps : Bool) : Tab Proc :=
  s.fw.procs.foldl (fun t p => tset Proc.fresh t p.1 (flashProc dumps p.2)) []
/-- Domains after an event: all off but 74; what is retired stays retired. -/
def flashDoms (s : State) : Tab Nat :=
  s.pwr.dom.foldl (fun t p => if p.2 = 3 then tset 0 t p.1 3 else t) State.reset.pwr.dom

/-- The state that a loss of power (`evCold`) or a module reset leaves: fuses, flash and what R9 and R404 keep; every array zero. -/
def afterReset (s : State) (e : Nat) : State :=
  let z := State.reset
  let s' := { z with
    pending := s.pending
    fresh := s.fresh
    out := s.out
    regs := (resetRegs s e (fun _ => true)).regs.filter (fun p => (regAt p.1).isSome)
    cores := flashCores s
    clusters := flashClusters s
    llc := { z.llc with retired := flashBanks s }
    ecc := { z.ecc with rows := sparesOf s 1, cols := sparesOf s 2, hbmRows := sparesOf s 3, repairs := s.ecc.repairs, fused := s.ecc.fused }
    vert := flashVert s
    pwr := { z.pwr with failed := flashPhases s, dom := flashDoms s, curtailPin := s.pwr.curtailPin }
    md := { z.md with straps := s.md.straps, perst := s.md.perst, input := s.md.input }
    ras := { z.ras with flash := s.ras.flash }
    fw := { z.fw with procs := flashProcs s (e == evM), slots := s.fw.slots, lics := s.fw.lics } }
  (List.range 7).foldl (fun s p => s.setField (rPstat p) 3 3 (s.proc p).slot) s'

/-- The eight lowest working slots of a cluster take its logical IDs (R18). -/
def assignIds (s : State) (cl : Nat) : State :=
  let work := ((List.range 9).map (9 * cl + ·)).filter (fun c => c % 9 != (s.cluster cl).mfgSlot && (s.core c).svc != 2)
  let s := (List.range 8).foldl (fun s i => s.setPhys (8 * cl + i) work[i]?) s
  refreshClcore s cl

/-- The licensed tier in W (R511). -/
def licFeatures (s : State) : Nat := s.fw.lics.foldl (fun a l => a ||| fieldLe l 80 4) 0
def tierOf (s : State) : Nat := let f := licFeatures s
  if nbit f 1 then 2600 else if nbit f 0 then 2200 else 1800

/-- How the host link trained (R319, R320): mode, rate code, width, and whether it lies below the host's capabilities. -/
def trainHost (s : State) (t : HostTrain) : State :=
  let s := (s.setField rHlink 1 0 t.mode).setField rHlink 4 2 t.rate
  let s := (s.setField rHlink 9 5 (2 ^ t.width.val)).setField rHlink 11 11 (if t.below then 1 else 0)
  if t.below then sendMsix (rasLog s (logEv 0x0601 (unitOf 10 0) (s.reg rHlink).toNat)) 0 else s

/-- Bring-up starts (R502 step 1): MOD_ID is sampled, the tick counter starts, the host link trains. -/
def bringUp (s : State) (t : HostTrain) : State :=
  let s := { s with modId := s.md.straps, clk := ⟨0, true⟩, md := { s.md with perst := false, booting := true } }
  let s := (s.setReg 0x02010100 (BitVec.ofNat 32 (s.md.straps + (if s.md.straps = 0 then 64 else 0) + 128 + 256)))
  let s := s.setField (if s.md.straps < 32 then 0x02010104 else 0x02010108) (s.md.straps % 32) (s.md.straps % 32) 1
  let s := { s with lup := { s.lup with members := [s.md.straps], routes := tset (0, 0xF) s.lup.routes s.md.straps (0, 0) } }
  let s := if nbit (licFeatures s) 2 then s else [5, 6, 7, 8].foldl (fun s l => s.setField (rLstat l) 2 0 4) s
  let s := (List.range 64).foldl assignIds s
  let s := (s.setField oPwrLim 23 12 (tierOf s)).setField oPwrLim 11 0 (tierOf s)
  let s := refreshAllSpares (refreshHstat ((List.range 2).foldl refreshTower s))
  trainHost s t

/-- A module reset (R496): accepted tasks end without completions. -/
def moduleReset (s : State) (cause : Nat) : State :=
  let z := afterReset s evM
  { z with md := { z.md with kind := 1, cause := cause } }

/-- A module reset whose bring-up begins at once (R337). -/
def resetAndBoot (s : State) (cause : Nat) (t : HostTrain) : State := bringUp (moduleReset s cause) t

/-- PERST_ASSERT (R360, R387, R496): a module reset that lasts while PERST_N is asserted. -/
def execPerstAssert (s : State) : Outcome :=
  .next (if s.md.perst then s
    else if !s.md.input then { s with md := { s.md with perst := true } }
    else
      let z := moduleReset s 1
      { z with md := { z.md with perst := true, off := false } })

/-- PERST_DEASSERT (R336, R482, R502, R536): bring-up begins. Operands: the MOD_ID pins and what the host link trains to. -/
def execPerstDeassert (modId : Fin 64) (train : HostTrain) (s : State) : Outcome :=
  .next (if !s.md.perst then s
    else if !s.md.input then { s with md := { s.md with perst := false, straps := modId } }
    else bringUp { s with md := { s.md with straps := modId } } train)

/-- The SVN floors that SEC burns during bring-up (R507), while the I/O die, whose fuses they are, allows a fuse commit; else the burn
waits (R444, R445). -/
def burnFloors (s : State) : State :=
  if !windowOpen s 2 (govOf s 6) then
    (if (List.range 7).any (fun p => decide ((s.proc p).svn < min 64 (leNat (slotBytes s p (s.proc p).slot 28 4)))) then
      s.setField rWstat 6 6 1 else s)
  else (List.range 7).foldl (fun s p =>
    let v := min 64 (leNat (slotBytes s p (s.proc p).slot 28 4))
    if (s.proc p).svn < v then s.modProc p (fun x => { x with svn := v }) else s) s

/-- Whether every part is up: all processors run, no self-test is owed. -/
def bootDone (s : State) : Bool :=
  s.md.booting && !s.fw.recovery && (List.range 7).all (fun p => pstate s p == pRUNNING) && !testsPending s 0 && !testsPending s 1

/-- Soft repairs are committed during bring-up training, to fuses or by hard post-package repair, while the windows of resources 2, on
the cache die fused, and 3 are open, or that of 3 for HBM (R314, R445; that every record is committed at once is a DESIGN CHOICE,
log 102). -/
def commitRepairs (s : State) : State :=
  let ok := fun (r : Nat × Nat × Nat) =>
    flashOpen s && (r.1 == 3 || ((r.1 == 1 || r.1 == 2) && windowOpen s 2 (govOf s (4 + r.2.1 / 512))))
  { s with ecc := { s.ecc with repairs := s.ecc.repairs.filter (fun r => !ok r), fused := s.ecc.fused ++ s.ecc.repairs.filter ok } }

/-- READY (R502 steps 5, 9, 10 and 11): domains are on, the towers are trained, PWR publishes floors, CURTAIL_N is sampled (R501),
READY_TICK is recorded and admission opens. -/
def execReady (boot : BringUp) (s : State) : Outcome :=
  .next (if !bootDone s then s
    else
      let s := commitRepairs ((List.range 2).foldl (fun s t => trainTower s t boot.lanes) s)
      let s := (s.setField 0x00302100 19 19 (if boot.suspect.1 ∧ s.regBit 0x00302100 19 then 1 else 0)).setField 0x00302108 19 19
        (if boot.suspect.2 ∧ s.regBit 0x00302108 19 then 1 else 0)
      let s := { s with
        md := { s.md with booting := false },
        pwr := { s.pwr with dom := s.pwr.dom.filter (fun p => p.2 == 3) } }
      let s := if s.pwr.curtailPin then refreshCeiling (s.setField oPwrLim 25 25 1) else s
      setReady (burnFloors (publish s boot.plan (List.range 64))))

/-- HOT_RESET (R337): a hot reset or a link disable. -/
def execHotReset (linkDisable : Bool) (train : HostTrain) (s : State) : Outcome :=
  .next (if !s.clk.run ∨ s.md.off then s else resetAndBoot s (if linkDisable then 3 else 2) train)

/-- CXL_RESET (R319, R337): a compute reset; only a CXL 2.0 link has it. One that would conflict changes nothing. -/
def execCxlReset (memClear : Bool) (s : State) : Outcome :=
  .next (if s.regField rHlink 1 0 ≠ 2 ∨ s.md.booting ∨ ¬ s.md.opened then s else (computeReset s memClear none).getD s)

/-- D3HOT (R337): no internal change. -/
def execD3hot (enter : Bool) (s : State) : Outcome := .next { s with host := { s.host with d3 := enter } }

/-- The converters are off: nothing is left but what flash and fuses hold (R360, R387, R535). -/
def darken (s : State) : State :=
  let z := afterReset s evCold
  { z with md := { z.md with input := false }, pwr := { z.pwr with pwrOk := false } }

/-- The input returns (R535, R536): a cold power-on; where PERST_N is already deasserted, bring-up begins at once and
the host link trains to `t`. -/
def coldStart (s : State) (cause : Nat) (t : HostTrain) : State :=
  let z := afterReset s evCold
  let z := { z with md := { z.md with input := true, off := false, kind := 0, cause := cause, perst := s.md.perst } }
  if s.md.perst then z else bringUp z t

/-- POWER_APPLIED (R536). -/
def execPowerApplied (train : HostTrain) (s : State) : Outcome := .next (if s.md.input then s else coldStart s 0 train)

/-- INPUT_OVERVOLTAGE (R387): all four converters off. -/
def execInputOvervoltage (s : State) : Outcome := .next (if s.md.input then darken s else s)

/-- OVERVOLTAGE_RESTART (R387, R508). -/
def execOvervoltageRestart (train : HostTrain) (s : State) : Outcome := .next (if s.md.input then s else coldStart s 6 train)

/-- UNDERVOLTAGE_LOCKOUT (R535). -/
def execUndervoltageLockout (s : State) : Outcome := .next (if s.md.input then darken s else s)

/-- UNDERVOLTAGE_RESTART (R535). -/
def execUndervoltageRestart (train : HostTrain) (s : State) : Outcome := .next (if s.md.input then s else coldStart s 0 train)

/-- Domains after a shutdown: only the I/O die's stay on (R534). -/
def darkDoms (s : State) : Tab Nat :=
  (List.range 78).foldl (fun t d => if (72 ≤ d ∧ d ≤ 74) ∨ tget 0 t d = 3 then t else tset 0 t d 1) s.pwr.dom

/-- Lupin links go idle: partners see them down (R534). -/
def idleLinks (s : State) : State :=
  (List.range 8).foldl (fun s l =>
    let off := 0x02010000 + 16 * l
    let st := s.regField off 2 0
    if st = 0 ∨ 4 ≤ st then s
    else
      let s := ((s.setField off 2 0 0).setField off 7 4 0).setField off 15 15 0
      if st = 1 then s else rasLog s (logEv 0x06F1 (unitOf 11 (l + 1)) (s.reg off).toNat)) s

/-- The shutdown of R387: tower, cache-die and HBM rails off, PWR_OK deasserted, ALERT_N raised; tasks end without completions. -/
def shutdown (s : State) : State :=
  if s.md.off then s
  else
    let s := { s with
      mem := []
      poison := []
      tasks := []
      cores := flashCores s
      clusters := flashClusters s
      llc := { Llc.empty with retired := s.llc.retired, reloc := s.llc.reloc }
      adm := { State.reset.adm with nextTask := s.adm.nextTask }
      therm := ⟨[], s.therm.failed, []⟩
      md := { s.md with off := true, opened := false, resets := [], waiting := [], booting := false }
      pwr := { s.pwr with state := 3, entry := none, light := [], inrush := [], ramp := [], pwrOk := false, dom := darkDoms s } }
    let s := idleLinks ((s.setField rHlink 10 10 0).setField oAdmStat 17 17 0)
    refreshAdmission ((List.range 64).foldl refreshFloor (s.setReg rAlert 3))

end Sys2Proof.Machine
end

