-- ==== Sys2Proof/Machine/Therm.lean ====
section
/-! DEFINITION. Monitors, governing temperatures, bands, the floor guard and the write window (R64, R65, R70 to R73, R433 to R446). -/

namespace Sys2Proof.Machine

def oEst (t : Nat) : Nat := 0x00302120 + 4 * t

/-- The die of a monitor, and the cluster of a compute-die monitor (R64). -/
def monDie (m : Nat) : Nat := if m < 384 then m / 96 else if m < 512 then 4 + (m - 384) / 64 else 6
def monCluster (m : Nat) : Option Nat := if m < 384 then some (16 * (m / 96) + m % 96 / 6) else none

def State.die (s : State) (d : Nat) : DieTherm := tget DieTherm.fresh s.therm.dies d
def State.modDie (s : State) (d : Nat) (f : DieTherm → DieTherm) : State :=
  { s with therm := { s.therm with dies := tset DieTherm.fresh s.therm.dies d (f (s.die d)) } }

def bandIn (s : State) (d : Nat) : Nat := s.regField (oDstat d) 11 9
def suspect (s : State) (d : Nat) : Bool := s.regBit (oDstat d) 19
def isDieA (d : Nat) : Bool := d == 0 || d == 2

/-- Whether a die is powered: the I/O die always, the others while their tower is not shut, idle or retired (R435). -/
def diePowered (s : State) (d : Nat) : Bool :=
  match dieTower d with
  | none => true
  | some t => !towerRetired s t && !s.md.off && (s.pwr.state == 0 || s.md.resets.any (·.exits))

/-- Whether a cluster is powered, on a powered die. -/
def clusterOn (s : State) (c : Nat) : Bool := !s.pwr.light.contains c && !(s.cluster c).retired && tget 0 s.pwr.dom c != 4

/-- Whether a monitor takes samples (R65). -/
def monLive (s : State) (m : Nat) : Bool := diePowered s (monDie m) && (monCluster m).all (clusterOn s)

/-- THM_MONDAT.VALID (R65, R434). -/
def monValid (s : State) (m : Nat) : Bool :=
  !s.therm.failed.contains m && (match tget none s.therm.mon m with
    | some x => decide (s.clk.tick ≤ x.at_ + 10000)
    | none => false)

/-- THM_MONDAT of a monitor. -/
def mondat (s : State) (m : Nat) : Nat :=
  match tget none s.therm.mon m with
  | some x => x.speed % 512 + 512 * (x.temp % 512) + (if monValid s m then 2 ^ 18 else 0)
  | none => 0

/-- The valid readings of a die. -/
def dieReadings (s : State) (d : Nat) : List Nat :=
  s.therm.mon.filterMap (fun p => if monDie p.1 = d ∧ monValid s p.1 then p.2.map (·.temp) else none)

/-! ## The middle-die estimator (R436) -/

/-- The hottest valid reading of some monitors. -/
def hotOf (s : State) (ms : List Nat) : Option Nat :=
  ms.foldl (fun m i => match tget none s.therm.mon i with
    | some x => if monValid s i then some (max (m.getD 0) x.temp) else m
    | none => m) none

/-- The six monitors of a cluster, and the four cache monitors below a cluster of die A (R64, R436). -/
def clusterMons (c : Nat) : List Nat := (List.range 6).map (96 * (c / 16) + 6 * (c % 16) + ·)
def cacheMons (c : Nat) : List Nat := (List.range 4).map (384 + 64 * (c / 32) + 4 * (c % 16) + ·)

/-- est(c) of R436 in half degrees above −40 °C, rounded down: wb · tb + wc · tc + ka · pa + kb · pb, the weights in 1/65,536 with
wb + wc = 1, the gains in 2^−32 half degrees per 10 µW, and powers as current (0.01 A) × setpoint (mV). The fused coefficients are
free, and so is tc where none of its four monitors is valid (log 104). -/
def estOf (s : State) (amps : Nat → Nat) (c : Nat) : Nat :=
  let w := fun (i : Nat) => (Config.estCoef c i).toNat
  let tc := (hotOf s (cacheMons c)).getD (Config.freeTemp (64 * s.clk.tick + c)).toNat
  let tb := (hotOf s (clusterMons (c + 16))).getD tc
  let p := fun (x : Nat) => amps x * s.regField (rCfloor x) 9 0
  (65536 * (w 0 * tb + (65536 - w 0) * tc) + w 1 * p c + w 2 * p (c + 16)) / 2 ^ 32

/-- The estimate of die A of a tower over its powered clusters, or over those of them with a valid ring (R436, R437); 0 without one. -/
def estimate (s : State) (amps : Nat → Nat) (t : Nat) : Nat :=
  (((List.range 16).map (32 * t + ·)).filter (clusterOn s)).foldl (fun m c => max m (estOf s amps c)) 0
def estimateSeen (s : State) (amps : Nat → Nat) (t : Nat) : Nat :=
  (((List.range 16).map (32 * t + ·)).filter (fun c => clusterOn s c && (hotOf s (clusterMons c)).isSome)).foldl
    (fun m c => max m (estOf s amps c)) 0

/-- Ring count below which a die is BLIND, or die A SUSPECT (R435). -/
def minRings (d : Nat) : Nat := if d = 6 then 4 else 16

def blindNow (s : State) (d : Nat) : Bool := !isDieA d && decide ((dieReadings s d).length < minRings d)
def hottest (s : State) (d : Nat) : Nat := (dieReadings s d).foldl max 0

/-- The governing temperature of a die that is not BLIND (R435); `est` is the estimate of die A. -/
def govSeen (s : State) (d est : Nat) : Nat :=
  if isDieA d ∧ suspect s d then max (est + 8) (hottest s d) else hottest s d

/-- The governing temperature of a die (R435). -/
def govNow (s : State) (d : Nat) (est : Nat → Nat) : Nat :=
  if blindNow s d then
    20 + (((List.range 7).filter (fun e => e != d && !blindNow s e && diePowered s e &&
      (d == 6 || dieTower e == dieTower d))).map (fun e => govSeen s e (est (e / 2)))).foldl max 0
  else govSeen s d (est (d / 2))

/-! ## Bands (R13, R439, R440, R442, R443) -/

/-- Lower and upper boundary of a band in half degrees above −40 °C. -/
def bandLow (b : Nat) : Nat := if b = 0 then 0 else if b = 1 then 140 else if b = 2 then 200 else if b = 3 then 250 else 280
def bandHigh (b : Nat) : Nat := if b < 4 then bandLow (b + 1) else 512

/-- The planning band of a die (R70). -/
def planBandOf (s : State) (d : Nat) : Nat := bandOf (govOf s d + 10)

/-- The tower of a die whose band in force changes owes a recalibration, and its 24-hour count starts again (R50). -/
def oweCal (s : State) (d : Nat) : State :=
  match dieTower d with
  | none => s
  | some t => { s with vert := { s.vert with calDue := insNat t s.vert.calDue, calAt := tset 0 s.vert.calAt t s.clk.tick } }

/-- Throttling begins (R443): the die's clusters without committed work are lowered to 0.55 V, and enter LI where they hold no
reservation; cover clusters stay (R429). -/
def throttleDie (s : State) (d : Nat) : State :=
  if 4 ≤ d then s
  else (List.range 16).foldl (fun s i =>
    let c := 16 * d + i
    if canLight s c then enterLight s c
    else if commitOf s c ≠ 0 ∨ inCover s c ∨ ¬ clusterRuns s c ∨ s.pwr.light.contains c ∨ reqOf s c ≤ 550 then s
    else requestSetpoint s c 550) s

/-- A band in force begins: throttling follows B4 (R443), the settings follow (R442), and the tower recalibrates (R50). -/
def setBand (s : State) (d b : Nat) : State :=
  let s := oweCal (s.setField (oDstat d) 11 9 b) d
  let was := s.regBit (oDstat d) 21
  let s := s.setField (oDstat d) 21 21 (if b = 4 then 1 else 0)
  let p := planBandOf s d
  let s := s.modDie d (fun x => { x with gap := max b p, coolAt := none, coolMax := 0 })
  if b = 4 ∧ ¬ was then rasLog (throttleDie s d) (logEv 0x0510 (unitOf 2 d) (s.reg (oDstat d)).toNat) else s

/-- Marks a die SUSPECT (R437): its judgement steps, so a higher band waits 1 ms (R440). -/
def enterSuspect (s : State) (d : Nat) : State :=
  if suspect s d then s
  else
    let s := s.setField (oDstat d) 19 19 1
    let s := s.modDie d (fun x => { x with delayAt := some s.clk.tick })
    rasLog s (logEv 0x050E (unitOf 2 d) (s.reg (oDstat d)).toNat)

/-- BLIND follows the valid rings (R435). -/
def judgeBlind (s : State) (d : Nat) : State :=
  let b := blindNow s d
  let was := s.regBit (oDstat d) 20
  let s := s.setField (oDstat d) 20 20 (if b then 1 else 0)
  if b ∧ ¬ was then
    rasLog (s.modDie d (fun x => { x with delayAt := some s.clk.tick })) (logEv 0x050F (unitOf 2 d) (s.reg (oDstat d)).toNat)
  else s

/-- The planning band of a die's clusters, and the raises of R72 that it asks for. -/
def planDie (s : State) (d : Nat) : State :=
  if 4 ≤ d then s
  else
    let b := planBandOf s d
    (List.range 16).foldl (fun s i => holdCommit (s.setField (rCfloor (16 * d + i)) 21 19 b) (16 * d + i)) s

/-- The band in force at a sample (R439, R440), and the history of its fall. -/
def judgeBand (s : State) (d : Nat) : State :=
  let g := govOf s d
  let b := bandOf g
  let x := s.die d
  if ¬ x.seen then
    let s := setBand s d b
    s.modDie d (fun x => { x with seen := true, delayAt := none })
  else
    let s := s.modDie d (fun x => { x with gap := max x.gap (planBandOf s d) })
    let cur := bandIn s d
    if cur < b then (if x.delayAt.isSome then s else setBand s d b)
    else
      let s := if b ≤ cur then s.modDie d (fun x => { x with delayAt := none }) else s
      if 0 < cur ∧ g + 4 ≤ bandLow cur then
        s.modDie d (fun x => { x with coolAt := some (x.coolAt.getD s.clk.tick), coolMax := max x.coolMax g })
      else s.modDie d (fun x => { x with coolAt := none, coolMax := 0 })

/-- The comparison of R437: since when die A reads 6 °C or more below the estimate. -/
def judgeUnder (s : State) (d estValid : Nat) : State :=
  s.modDie d (fun x => { x with
    underAt := if hottest s d + 12 ≤ estValid then some (x.underAt.getD s.clk.tick) else none })

/-- The comparator's input (R438). -/
def cmpInput (s : State) (d est : Nat) : Nat :=
  if isDieA d then max (hottest s d) est else if blindNow s d then govOf s d else hottest s d

/-! ## The floor guard (R73) -/

/-- The guard judges a cluster by the lowest speed of a sample. GUARD clears at a sample taken at the requested setpoint, so not while
a change to it still runs. -/
def guardCluster (s : State) (c speed : Nat) : State :=
  let v := reqOf s c
  let f := floorOf s c v
  let g := tget 0 s.pwr.guardV c
  let raise := fun (s : State) (g : Nat) => { s with pwr := { s.pwr with guardV := tset 0 s.pwr.guardV c g } }
  if ¬ clusterRuns s c ∨ v = 0 then s
  else if 100 * speed < 103 * f then
    if 920 ≤ v + g then
      let s := rasLog s (logEv 0x0502 (unitOf 3 c) (s.reg (rCfloor c)).toNat)
      retireCluster s c 0x0502
    else
      let s := raise (countEvent s 1 c 0x48 1 ⟨none, none, none, none, none⟩) (min (920 - v) (g + 10))
      let s := (s.setField (rCfloor c) 22 22 1).setField (rCfloor c) 23 23 1
      rasLog s (logEv 0x0501 (unitOf 3 c) (s.reg (rCfloor c)).toNat)
  else if ¬ s.regBit (rCfloor c) 23 then s
  else if g = 0 then (if s.regBit (rCfloor c) 22 then s else s.setField (rCfloor c) 23 23 0)
  else if 106 * f ≤ 100 * speed then (raise s (g - 10)).setField (rCfloor c) 22 22 1
  else s

/-! ## The write window (R444, R445) -/

/-- THM_WSTAT.OPEN. -/
def refreshWindow (s : State) : State :=
  let io := fun r => if windowOpen s r (govOf s 6) then 2 ^ r else 0
  let fuse : Bool := (List.range 7).all (fun d => !diePowered s d || windowOpen s 2 (govOf s d))
  s.setField rWstat 3 0 (io 0 + io 1 + (if fuse then 4 else 0) + io 3)

/-! ## MONITOR_SAMPLE -/

/-- One 50 µs sample of the judged dies: VALID_MON, BLIND and SUSPECT, governing temperature, planning band, band in force. -/
def judgeDie (est : Nat → Nat) (estValid : Nat → Nat) (s : State) (d : Nat) : State :=
  if ¬ diePowered s d then s
  else
    let s := s.setField (oDstat d) 18 12 (dieReadings s d).length
    let s := if isDieA d then
        (let s := judgeUnder s d (estValid (d / 2))
         if (dieReadings s d).length < 16 then enterSuspect s d else s)
      else judgeBlind s d
    let s := s.setField (oDstat d) 8 0 (min 511 (govNow s d est))
    judgeBand (planDie s d) d

/-- The samples of the monitors that take any (R65). -/
def takeSamples (s : State) (samples : List (Fin 528 × Fin 512 × Fin 512)) : State :=
  let live := samples.filter (fun p => monLive s p.1)
  let mon := live.foldl (fun t p => tset none t p.1.val (some ⟨p.2.1.val, p.2.2.val, s.clk.tick⟩)) s.therm.mon
  { s with therm := { s.therm with mon := mon } }

/-- The current of a domain in 0.01 A, averaged over the window, from a list of (cluster, current); 0 when it is not listed. -/
def ampsOf (l : List (Fin 64 × Fin 4096)) (c : Nat) : Nat :=
  ((l.find? (fun p => p.1.val == c)).map (fun p => p.2.val)).getD 0

/-- The samples of the towers' monitors and of the I/O die's, the monitors 512 to 527 (R64). -/
def allSamples (mons : List (Fin 512 × Fin 512 × Fin 512)) (ioMons : List (Fin 16 × Fin 512 × Fin 512)) :
    List (Fin 528 × Fin 512 × Fin 512) :=
  mons.map (fun p => (⟨p.1.val, by omega⟩, p.2)) ++ ioMons.map (fun p => (⟨512 + p.1.val, by omega⟩, p.2))

/-- MONITOR_SAMPLE (R55, R65, R70, R73, R435 to R445): monitor samples with speed and temperature codes, the clusters' currents in
0.01 A, and the input's power and voltage. -/
def execMonitorSample (mons : List (Fin 512 × Fin 512 × Fin 512)) (ioMons : List (Fin 16 × Fin 512 × Fin 512))
    (amps : List (Fin 64 × Fin 4096)) (input : Fin 4096) (vin : Fin 256) (s : State) : Outcome :=
  .next (if !s.clk.run then s
    else
      let samples := allSamples mons ioMons
      let live := samples.filter (fun p => monLive s p.1)
      let s := takeSamples s samples
      let e := estimate s (ampsOf amps)
      let ev := estimateSeen s (ampsOf amps)
      let s := (s.setField oPwrCf 23 12 input).setField oPwrCf 31 24 vin
      let s := [0, 1, 2, 3, 4, 5, 6].foldl (judgeDie e ev) s
      let s := (List.range 2).foldl (fun s t =>
        let s := s.setField (oEst t) 8 0 (min 511 (e t))
        let s := s.setField (oEst t) 17 9 (hottest s (2 * t))
        s.setField (oEst t) 26 18 (min 511 (cmpInput s (2 * t) (e t)))) s
      let s := (List.range 64).foldl (fun s c =>
        match (live.filter (fun p => monCluster p.1 == some c)).map (fun p => p.2.1.val) with
        | [] => s
        | v :: vs => guardCluster s c (vs.foldl min v)) s
      let s := refreshWindow (settleFabric s)
      if (List.range 7).any (fun d => diePowered s d && decide (310 ≤ cmpInput s d (e (d / 2)))) then shutdown s else s)

/-- SENSOR_FAILED (R434). -/
def execSensorFailed (monitor : Fin 528) (s : State) : Outcome :=
  .next (if s.therm.failed.contains monitor then s
    else
      let s := { s with therm := { s.therm with failed := insNat monitor s.therm.failed } }
      rasLog s (logEv 0x050D (unitOf 2 (monDie monitor)) (s.reg (oDstat (monDie monitor))).toNat))

/-- SENSOR_SUSPECT (R437): die A of a tower has read low for 5 ms; its governing temperature and bands are judged anew at once, so that a
fall in the same sample is judged on it (R446). -/
def execSensorSuspect (tower : TowerId) (s : State) : Outcome :=
  .next (match (s.die (2 * tower.val)).underAt with
    | none => s
    | some t =>
      let d := 2 * tower.val
      if s.clk.tick < t + 5 * ticksPerMs ∨ suspect s d then s
      else
        let s := enterSuspect s d
        let s := s.setField (oDstat d) 8 0 (min 511 (govSeen s d (s.regField (oEst tower) 8 0)))
        judgeBand (planDie s d) d)

/-- BAND_RISE_DELAYED (R440). -/
def execBandRiseDelayed (die : DieId) (s : State) : Outcome :=
  .next (match (s.die die).delayAt with
    | none => s
    | some t =>
      if s.clk.tick < t + ticksPerMs then s
      else
        let s := s.modDie die (fun x => { x with delayAt := none })
        if bandIn s die < bandOf (govOf s die) then setBand s die (bandOf (govOf s die)) else s)

/-- BAND_FALL (R439): to the lowest band whose upper boundary lies 2 °C above the hottest of the last 10 ms. -/
def execBandFall (die : DieId) (s : State) : Outcome :=
  .next (let x := s.die die
    match x.coolAt with
    | none => s
    | some t =>
      if s.clk.tick < t + 10 * ticksPerMs then s
      else setBand s die (((List.range 5).find? (fun b => decide (x.coolMax + 4 ≤ bandHigh b))).getD 4))

/-- SETPOINT_SETTLED (R71). -/
def execSetpointSettled (cluster : ClusterId) (s : State) : Outcome :=
  .next (if s.regBit (rCfloor cluster) 22 then settle s cluster else s)

end Sys2Proof.Machine
end

