-- ==== Sys2Proof/Machine/Power.lean ====
section
/-! DEFINITION. Converters, phases, paths, inrush, the ceiling and low-power states (R407 to R431, R499, R500). -/

namespace Sys2Proof.Machine

def oConv : Nat := 0x00303010

/-- PWR_DSTAT of a domain (R408). -/
def domState (s : State) (d : Nat) : Nat :=
  if d < 64 ∧ (tget none s.pwr.ramp (d / 32)).any (fun r => r.1 == d) then 2
  else if s.pwr.light.contains d then 1
  else if tget 0 s.pwr.dom d = 0 ∧ s.pwr.state ≠ 0 ∧ d < 72 then 1
  else tget 0 s.pwr.dom d

def dstat (s : State) (d : Nat) : Nat :=
  if 77 < d then 0
  else phaseMask s d + 2 ^ 16 * domState s d + 2 ^ 19 * ceilAmps s d + (if 1 ≤ tget 0 s.pwr.path d then 2 ^ 27 else 0) +
    (if pathReduced s d then 2 ^ 28 else 0)

/-- A log entry of a domain. -/
def logDom (s : State) (code d : Nat) : State := rasLog s (logEv code (unitOf 7 d) (dstat s d))

/-- A domain that is lost for good: the clusters that it serves retire, with their die or tower; the I/O and HBM3E domains take the
module down (R409, R410, R447; for the latter DEDUCED, log 28). -/
def loseDomain (s : State) (d code : Nat) : State :=
  if d < 64 then retireCluster s d code
  else if d < 68 then retireDie s (d - 64)
  else if d < 72 then retireTower s ((d - 68) / 2)
  else shutdown s

/-! ## Phases (R410, R411) -/

/-- Phases of a domain that failed. -/
def failedPhases (s : State) (d : Nat) : Nat := ((List.range 16).filter (nbit (tget 0 s.pwr.failed d))).length

/-- IVR_PHASE_FAILED (R410). -/
def execIvrPhaseFailed (domain : Fin 78) (phase : Fin 16) (s : State) : Outcome :=
  .next (let d := domain.val
    if nbit (tget 0 s.pwr.failed d) phase ∨ (d < 75 ∧ domPhases d ≤ phase.val) then s
    else
      let s := { s with pwr := { s.pwr with failed := tset 0 s.pwr.failed d (tget 0 s.pwr.failed d + 2 ^ phase.val) } }
      let s := pwrEvent (addRepair s (8, d, phase)) 5
      if d < 64 then
        if 5 ≤ phasesUp s d then logDom s 0x0507 d
        else if phasesUp s d = 4 then logDom (holdCommit s d) 0x0508 d
        else logDom (refreshAdmission (retireCluster s d 0x0509)) 0x0509 d
      else
        let s := logDom s 0x0507 d
        if d < 72 then (if phasesUp s d < domNeeded d then loseDomain s d 0x0507 else s)
        else if 2 ≤ failedPhases s d then shutdown s else s)

/-! ## Paths (R413 to R415) -/

/-- Excess above threshold j: 25, 60 or 150 % (R414). -/
def overPath (drop expected j : Nat) : Bool :=
  decide ((if j = 1 then 125 else if j = 2 then 160 else 250) * expected < 100 * drop)

/-- PATH_CHECK (R413): measured and expected drop of a domain, in the same unit. -/
def execPathCheck (domain : Fin 78) (drop expected : Nat) (s : State) : Outcome :=
  .next ([1, 2, 3].foldl (fun s j =>
    let k := 4 * domain.val + j
    let v := if overPath drop expected j then (if tget 0 s.pwr.newPath k = 0 then s.clk.tick + 1 else tget 0 s.pwr.newPath k) else 0
    { s with pwr := { s.pwr with newPath := tset 0 s.pwr.newPath k v } }) s)

/-- A path's new state takes effect (R414). -/
def applyPath (s : State) (d j : Nat) : State :=
  let s := pwrEvent { s with pwr := { s.pwr with path := tset 0 s.pwr.path d j } } 6
  if j = 1 then logDom s 0x050A d
  else if j = 2 then logDom (if d < 64 then holdCommit s d else s) 0x050B d
  else logDom (refreshAdmission (loseDomain s d 0x050C)) 0x050C d

/-- PATH_STATE_CHANGE (R414): the worst excess that has persisted for 100 µs. -/
def execPathStateChange (domain : Fin 78) (s : State) : Outcome :=
  .next (let d := domain.val
    let held := fun j => let t := tget 0 s.pwr.newPath (4 * d + j)
      decide (t ≠ 0 ∧ t + 9999 ≤ s.clk.tick)
    let j := if held 3 then 3 else if held 2 then 2 else if held 1 then 1 else 0
    if tget 0 s.pwr.path d < j then applyPath s d j else s)

/-- SENSE_ROUTE_FAILURE (R415): the loss of both routes is PATH_REDUCED. -/
def execSenseRouteFailure (domain : Fin 78) (route : Fin 2) (s : State) : Outcome :=
  .next (let d := domain.val
    let m := tget 0 s.pwr.sense d
    if nbit m route then s
    else
      let was := pathReduced s d
      let s := { s with pwr := { s.pwr with sense := tset 0 s.pwr.sense d (m + 2 ^ route.val) } }
      if was ∨ ¬ pathReduced s d then s
      else logDom (pwrEvent (if d < 64 then holdCommit s d else s) 6) 0x050B d)

/-- DOMAIN_OVERCURRENT (R387, R447): the domain is switched off, and its cores' ranks replay. -/
def execDomainOvercurrent (domain : Fin 78) (s : State) : Outcome :=
  .next (let d := domain.val
    if tget 0 s.pwr.dom d = 3 ∨ tget 0 s.pwr.dom d = 4 then s
    else
      let s := loseDomain s d 0x0504
      let s := { s with pwr := { s.pwr with dom := tset 0 s.pwr.dom d 4 } }
      logDom (refreshAdmission s) 0x0504 d)

/-! ## Double faults (R409) -/

/-- Commitments of the tasks that have not stopped. -/
def liveCommit (s : State) (c : Nat) : Nat := (floorsOn s c (fun t => t.stop.isNone)).foldl max 0

/-- The core-rail current that a tower's commitments need in the worst band, in hundredths of A. -/
def committedAmps (s : State) (t : Nat) : Nat :=
  9000 + ((List.range 32).map (fun i =>
    let c := 32 * t + i
    if liveCommit s c = 0 then 0 else ipk (vB4 s c (liveCommit s c)))).sum

/-- Whether what is committed exceeds what remains. -/
def overLoad (s : State) : Bool :=
  decide (s.regField oPwrLim 11 0 < committedFloor s (liveCommit s)) ||
  (List.range 2).any (fun t => decide (100 * towerLimit s t < committedAmps s t))

/-- The running task with the latest deadline; of equals the one accepted last. -/
def latestTask (s : State) : Option Nat :=
  (s.tasks.foldl (fun (b : Option (Nat × Nat)) p => match p.2 with
    | none => b
    | some t => if t.stop.isSome then b
      else match b with
        | none => some (p.1, t.deadline)
        | some (i, d) => if d ≤ t.deadline then some (p.1, t.deadline) else some (i, d)) none).map (·.1)

/-- Ends tasks in order of latest deadline until the rest fits (R409): PARTIAL, CODE 0x81. -/
def shed : Nat → State → State
  | 0, s => s
  | n + 1, s =>
    if !overLoad s then s
    else match latestTask s with
      | none => s
      | some id => shed n (s.modTask id (fun t => { t with
          stop := some ⟨stPARTIAL, 0x81⟩, ended := if t.running then t.ended else List.range t.plan.length }))

/-- After a second loss: tasks end until the commitments fit, and the plan is made anew (R409, R429); PWR does so when it returns, if it
is down (R382). -/
def doubleFault (s : State) (plan : List (List Nat)) : State :=
  let s := refreshCeiling s
  if procDown s 2 then s
  else refreshAdmission (adoptPlan (refreshAdmission (shed s.tasks.length s)) plan)

/-- PWR runs again: what a double fault asked of it meanwhile (R382, R409). -/
def pwrReturns (s : State) : State :=
  if s.pwr.cap = 0 ∧ s.pwr.towerA = [] then s else refreshAdmission (shed s.tasks.length s)

/-- Converters or vertical modules of a range that have failed. -/
def lostIn (s : State) (lo n : Nat) : Nat := ((List.range n).filter (fun i => !s.regBit oConv (lo + i))).length

/-- CONVERTER_FAILED (R407, R409). `plan`: PWR's plan after a double fault. -/
def execConverterFailed (unit : Fin 4) (plan : List (List Nat)) (s : State) : Outcome :=
  .next (if !s.regBit oConv unit then s
    else
      let s := pwrEvent (s.setField oConv unit unit 0) 4
      let s := rasLog s (logEv 0x0505 unitModule (s.reg oConv).toNat)
      if lostIn s 0 4 < 2 then s
      else doubleFault { s with pwr := { s.pwr with cap := 1800 } } plan)

/-- VVM_FAILED (R407, R409). -/
def execVvmFailed (unit : Fin 16) (plan : List (List Nat)) (s : State) : Outcome :=
  .next (let b := 4 + unit.val
    if !s.regBit oConv b then s
    else
      let s := pwrEvent (s.setField oConv b b 0) 4
      let s := rasLog s (logEv 0x0506 unitModule (s.reg oConv).toNat)
      if 14 ≤ unit.val then (if 2 ≤ lostIn s 18 2 then shutdown s else s)
      else
        let t := unit.val / 7
        if lostIn s (4 + 7 * t) 7 < 2 then s
        else doubleFault { s with pwr := { s.pwr with towerA := tset 1200 s.pwr.towerA t 1000 } } plan)

/-! ## Inrush and LI (R417, R418, R499) -/

/-- Whether the tower's planned peak leaves room for one more cluster (R417, R420). -/
def inrushRoom (s : State) (c : Nat) : Bool :=
  let t := c / 32
  let amps := fun x => if reqOf s x = 0 then 1000 else ipk (reqOf s x)
  decide (9000 + ((List.range 32).map (fun i =>
    let x := 32 * t + i
    if x = c then amps x else if s.pwr.light.contains x ∨ ¬ clusterRuns s x then 0 else amps x)).sum ≤ 100 * towerLimit s t)

/-- INRUSH_GRANT (R417): the tower's first request is granted. -/
def execInrushGrant (tower : TowerId) (s : State) : Outcome :=
  .next (match tget none s.pwr.ramp tower, tget [] s.pwr.inrush tower with
    | none, c :: cs =>
      if s.pwr.state ≠ 0 ∨ ¬ inrushRoom s c then s
      else { s with pwr := { s.pwr with
        inrush := tset [] s.pwr.inrush tower cs, ramp := tset none s.pwr.ramp tower (some (c, s.clk.tick)) } }
    | _, _ => s)

/-- CLUSTER_READY (R417): 60 µs after its grant; at its resume setpoint, or the step that its committed rate needs (R72);
under CURTAIL_N one without work goes back to LI (R431). -/
def execClusterReady (cluster : ClusterId) (s : State) : Outcome :=
  .next (match tget none s.pwr.ramp (cluster.val / 32) with
    | none => s
    | some (c, t) =>
      if c ≠ cluster.val ∨ s.clk.tick < t + grantTicks then s
      else
        let s := { s with pwr := { s.pwr with
          ramp := tset none s.pwr.ramp (c / 32) none, light := s.pwr.light.filter (· != c), exitAt := tset 0 s.pwr.exitAt c 0 } }
        let s := settle (holdCommit s c) c
        if s.regBit oPwrLim 25 then enterLight s c else s)

/-- LIGHT_IDLE_ENTRY (R499): after 1 ms idle, or under curtailment or a lowered ceiling. -/
def execLightIdleEntry (cluster : ClusterId) (s : State) : Outcome := .next (enterLight s cluster)

/-! ## The ceiling (R423 to R429) -/

/-- TARGET_EFFECTIVE (R423, R424): the pending ceiling's tick has come. `plan`: PWR's plan from then on. -/
def execTargetEffective (plan : List (List Nat)) (s : State) : Outcome :=
  .next (match s.pwr.pend with
    | none => s
    | some (w, t) =>
      if s.clk.tick < t then s
      else
        let s := { s with pwr := { s.pwr with pend := none, target := w } }
        let s := refreshCeiling (s.setField oPwrLim 24 24 0)
        let s := pwrEvent s 0
        if procDown s 2 then s else adoptPlan s plan)

/-- Grants not yet started are withdrawn (R431). -/
def withdrawGrants (s : State) : State :=
  let q := [0, 1].flatMap (fun t => tget [] s.pwr.inrush t)
  { s with pwr := { s.pwr with inrush := [], exitAt := q.foldl (fun t c => tset 0 t c 0) s.pwr.exitAt } }

/-- A cluster that an accepted task needs asks for inrush again. -/
def reaskInrush (s : State) : State :=
  (List.range 64).foldl (fun s c => if (floorsOn s c (fun _ => true)).isEmpty then s else requestInrush s c) s

/-- CURTAIL_ENTER (R425 steps 2 to 4): island 17 acts even while PWR restarts; PWR's plan follows when it runs. -/
def execCurtailEnter (plan : List (List Nat)) (s : State) : Outcome :=
  .next (let s := { s with pwr := { s.pwr with curtailPin := true } }
    if ¬ s.clk.run ∨ s.md.off ∨ s.regBit oPwrLim 25 then s
    else
      let s := s.setField oPwrLim 25 25 1
      let s := pwrEvent (refreshCeiling s) 1
      let s := if procDown s 2 then s else adoptPlan s plan
      let s := if s.pwr.state = 0 then curtailClusters (reaskInrush (withdrawGrants s)) else s
      curtailCheck s)

/-- CURTAIL_EXIT (R425 step 9). -/
def execCurtailExit (plan : List (List Nat)) (s : State) : Outcome :=
  .next (let s := { s with pwr := { s.pwr with curtailPin := false } }
    if ¬ s.regBit oPwrLim 25 then s
    else
      let s := (s.setField oPwrLim 25 25 0).setField oPwrLim 26 26 0
      let s := pwrEvent (refreshCeiling s) 3
      if procDown s 2 then s else adoptPlan s plan)

/-! ## DI and SB (R499 to R501) -/

/-- The arrays of a tower that DI or SB loses. -/
def idleTower (s : State) (st t : Nat) : State :=
  if st = 2 then clearCounts (fillTower (writeBackTower s t) t true) t true false
  else zeroFill (clearCounts (fillTower s t false) t true false) (lsAddr (288 * t)) (288 * 0x100000)

/-- The exit from DI or SB starts (R499): the arrays that the state lost are filled (R298), and the samples taken before it go (R65, R9). -/
def startExit (s : State) (job : Nat) : State :=
  let sb := s.pwr.state == 2
  let s := (List.range 2).foldl (fun s t =>
    let s := zeroFill s (lsAddr (288 * t)) (288 * 0x100000)
    if sb then zeroFill s (resBase + 2 * t * gib1) (2 * gib1) else s) (clearSamples s (fun _ => true))
  { s with md := { s.md with resets := [⟨[0, 1], true, sb, true, some job⟩] }, towersDown := [0, 1] }

/-- The job that asked for a low-power state. -/
def stateJob (s : State) (st : Nat) : Option Nat :=
  (s.fw.jobs.find? (fun j => j.op == 0x0053 && j.ended.isNone && j.arg == st)).map (·.id)

/-- POWER_STATE_ENTRY (R500): at the planned tick, or earlier once no accepted task remains. -/
def execPowerStateEntry (s : State) : Outcome :=
  .next (match s.pwr.entry with
    | none => s
    | some (st, _) =>
      if s.tasks ≠ [] then s
      else
        let s := stopScrubs { s with pwr := { s.pwr with entry := none } }
        let s := clearDomains ([0, 1].foldl (fun s t => idleTower s st t) s) (fun _ => true)
        let s := resetRegs s (if st = 1 then evDI else evSB) (fun _ => true)
        let s := { s with pwr := { s.pwr with state := st } }
        let s := refreshAdmission ((List.range 64).foldl refreshFloor s)
        match stateJob s st with
        | some j => endJob s j mOK 0 []
        | none => s)

end Sys2Proof.Machine
end

