-- ==== Sys2Proof/Machine/Class.lean ====
section
/-! DEFINITION. Class labels at the arbiters: latency windows, arbitration, marks, regulators and the class derate (R364 to R381). -/

namespace Sys2Proof.Machine

/-- Numbers of arbiters and masters. -/
def arbNum : ArbiterId → Nat
  | .missPort c => c
  | .bank t b => 1000 + 512 * t.val + b.val
  | .group t b l g => 10000 + 4 * (512 * t.val + b.val) + 2 * l.val + g.val
  | .bridge => 3000
  | .hbm k => 3100 + k.val
  | .cxl => 3200
  | .link l => 3300 + l.val

def masterNum : MasterId → Nat
  | .missPort c => c
  | .xfer c => 1000 + c.val
  | .reduce c => 2000 + c.val
  | .attn c => 3000 + c.val
  | .host => 4000
  | .ingress l => 4001 + l.val
  | .scrub => 4010
  | .other => 4011

def State.arb (s : State) (a : Nat) : Arb := tget Arb.fresh s.cls.arbs a
def State.setArb (s : State) (a : Nat) (x : Arb) : State := { s with cls := { s.cls with arbs := tset Arb.fresh s.cls.arbs a x } }

/-! ## Registers of a class (R381) -/

def rCtgt (c : Nat) : Nat := 0x00200400 + 16 * c
def rCrateMx (c : Nat) : Nat := 0x00200404 + 16 * c
def rCmiss (c : Nat) : Nat := 0x0020040C + 16 * c

def latTarget (s : State) (c : Nat) : Nat := if c = 15 then 16 else s.regField (rCtgt c) 11 0
def rateMax (s : State) (c : Nat) : Nat := if c = 15 then 1024 else s.regField (rCrateMx c) 10 0
def rateMin (s : State) (c : Nat) : Nat := if c = 15 then 1024 else s.regField (rCrateMx c) 21 11

/-! ## Latency and levels (R366, R367) -/

/-- The current wait of the class's oldest waiting request. -/
def oldestWait (x : Arb) (c : Nat) : Nat :=
  match x.queue.find? (fun r => r.cls == c) with
  | some r => x.slots - r.slot
  | none => 0

/-- L of a class. -/
def latency (x : Arb) (c : Nat) : Nat := max ((tget [] x.waits c).foldl max 0) (oldestWait x c)

/-- The level of a class: 7 for class 15. -/
def level (s : State) (x : Arb) (c : Nat) : Nat :=
  if c = 15 then 7 else min 7 (8 * latency x c / latTarget s c)

def inMiss (s : State) (x : Arb) (c : Nat) : Bool := decide (latTarget s c < latency x c)

/-! ## Regulators (R371, R372) -/

def bucketKey (m c : Nat) : Nat := 16 * m + c

/-- The current rate of a class at a master; it starts at RATE_MAX. -/
def rateOf (s : State) (m c : Nat) : Nat :=
  match tget none s.cls.rates (bucketKey m c) with
  | some r => max (min r (rateMax s c)) (min (rateMin s c) (rateMax s c))
  | none => rateMax s c

/-- Tokens of a bucket in 1/1,024; a bucket starts full. -/
def tokensOf (s : State) (m c : Nat) : Nat := (tget none s.cls.tokens (bucketKey m c)).getD (16 * 1024)

/-- Tokens that a bucket gains over `h` handshakes of its master. -/
def gainTokens (s : State) (m c h : Nat) : State :=
  let t := min (16 * 1024) (tokensOf s m c + h * rateOf s m c)
  { s with cls := { s.cls with tokens := tset none s.cls.tokens (bucketKey m c) (some t) } }

/-- A request leaves its master `h` handshakes after the last one: it takes a token of its class, or it stays; at a rate of 1,024
the class is unregulated. -/
def takeToken (s : State) (m c h : Nat) : Option State :=
  if c = 15 ∨ 4011 ≤ m then some s
  else if 1024 ≤ rateOf s m c then some (gainTokens s m c h)
  else
    let t := min (16 * 1024) (tokensOf s m c + h * rateOf s m c)
    if t < 1024 then none
    else some { s with cls := { s.cls with tokens := tset none s.cls.tokens (bucketKey m c) (some (t - 1024)) } }

/-! ## Arbitration (R368) -/

/-- A request arrives; one that leaves its master needs a token when it is a request of M2 or M3 (R371). -/
def arbArrive (a : Nat) (s : State) (r : Arrival) : State :=
  let m := masterNum r.master
  let put := fun (s : State) =>
    let x := s.arb a
    s.setArb a { x with queue := x.queue ++ [⟨r.mc, r.cls, m, x.slots⟩] }
  match r.leaves with
  | none => put s
  | some h =>
    if r.mc.val < 2 then put s
    else match takeToken s m r.cls h with
      | some s => put s
      | none => gainTokens s m r.cls h

/-- The message class to serve: the highest with a request and a credit, or a lower one that has waited 32 grants with a credit. -/
def pickMc (x : Arb) (credit : Nat → Bool) : Option Nat :=
  let can := fun m => credit m && x.queue.any (fun r => r.mc == m)
  match [0, 1, 2, 3].find? can with
  | none => none
  | some top => some (([3, 2, 1, 0].find? (fun m => can m && decide (top < m ∧ 32 ≤ tget 0 x.held m))).getD top)

/-- The first class after a pointer that has a request of a message class waiting. -/
def nextClass (x : Arb) (m ptr : Nat) : Nat :=
  (((List.range 16).map (fun i => (ptr + 1 + i) % 16)).find? (fun c => x.queue.any (fun r => r.mc == m && r.cls == c))).getD 0

/-- The class to serve in M2 or M3: by rotation at every 16th grant, else the highest level; ties go to class 15, then to the class
that comes first after the pointer. -/
def pickClass (s : State) (x : Arb) (m : Nat) : Nat :=
  let ptr := tget 15 x.rot m
  if (tget 0 x.served m + 1) % 16 = 0 then nextClass x m ptr
  else
    let cs := ((List.range 16).map (fun i => (ptr + 1 + i) % 16)).filter (fun c => x.queue.any (fun r => r.mc == m && r.cls == c))
    let top := (cs.map (level s x)).foldl max 0
    if cs.contains 15 then 15 else (cs.find? (fun c => level s x c == top)).getD 0

/-- The request to grant in a class: masters in turn, each its oldest. -/
def pickReq (x : Arb) (m c : Nat) : Option ArbReq :=
  let rs := x.queue.filter (fun r => r.mc == m && r.cls == c)
  let last := tget 0 x.turn c
  let above := (rs.map (·.master)).filter (fun k => decide (last < k))
  let pool := if above = [] then rs.map (·.master) else above
  let k := pool.foldl min (pool.getD 0 0)
  rs.find? (fun r => r.master == k)

/-- Records a grant of the present slot. -/
def recordGrant (x : Arb) (r : ArbReq) (rotated : Bool) : Arb :=
  let w := x.slots - r.slot
  { x with
    queue := x.queue.erase r
    waits := tset [] x.waits r.cls ((tget [] x.waits r.cls ++ [w]).drop ((tget [] x.waits r.cls).length - 15))
    seen := tset 0 x.seen r.cls x.slots
    rot := if rotated then tset 15 x.rot r.mc r.cls else x.rot
    served := tset 0 x.served r.mc (tget 0 x.served r.mc + 1)
    turn := tset 0 x.turn r.cls r.master
    recent := (x.recent ++ [(r.master, r.cls)]).drop (x.recent.length - 255)
    grants := x.grants + 1 }

/-- Grants that message classes have waited while holding a credit (R368 stage 1). -/
def countHeld (x : Arb) (credit : Nat → Bool) (m : Nat) : Arb :=
  { x with held := [0, 1, 2, 3].foldl (fun t k =>
      tset 0 t k (if k ≠ m ∧ credit k ∧ x.queue.any (fun r => r.mc == k) then tget 0 t k + 1 else 0)) x.held }

/-- Slots in which a class had a request waiting count as seen (R366). -/
def seeWaiting (x : Arb) : Arb :=
  { x with seen := (x.queue.map (·.cls)).foldl (fun t c => tset 0 t c x.slots) x.seen }

/-- One slot of an arbiter. -/
def arbSlot (s : State) (a : Nat) (credit : Nat → Bool) : State :=
  let x := s.arb a
  let top := (List.range 16).foldl (fun t c => tset 0 t c (max (tget 0 t c) (if c = 15 then 0 else level s x c))) s.cls.top
  let s := { s with cls := { s.cls with top := top } }
  let x' := match pickMc x credit with
    | none => x
    | some m =>
      let rotated := decide (2 ≤ m) && (tget 0 x.served m + 1) % 16 == 0
      let r := if m < 2 then x.queue.find? (fun (r : ArbReq) => r.mc == m) else pickReq x m (pickClass s x m)
      match r with
      | none => x
      | some r => recordGrant (countHeld x credit m) r rotated
  s.setArb a (seeWaiting { x' with slots := x'.slots + 1 })

/-- ARBITER_GRANT (R366 to R371): one slot: a grant among the requests that waited at its start, then the slot's arrivals. `credits`:
which message classes have a free downstream credit. -/
def execArbiterGrant (arbiter : ArbiterId) (credits : Fin 16) (arrivals : List Arrival) (s : State) : Outcome :=
  .next (let a := arbNum arbiter
    let s := arbSlot s a (fun m => nbit credits m)
    arrivals.foldl (arbArrive a) s)

/-- LATENCY_WINDOW_EMPTY (R366): 1,024 slots without a grant or a waiting request of the class. -/
def execLatencyWindowEmpty (arbiter : ArbiterId) (cls : ClassId) (s : State) : Outcome :=
  .next (let a := arbNum arbiter
    let x := s.arb a
    if x.queue.any (fun r => r.cls == cls.val) ∨ x.slots < tget 0 x.seen cls + 1024 then s
    else s.setArb a { x with waits := tset [] x.waits cls [] })

/-! ## Marks and recovery (R372) -/

/-- Halves a rate, never below RATE_MIN. -/
def markRate (s : State) (m c : Nat) : State :=
  if c = 15 then s
  else { s with cls := { s.cls with rates := tset none s.cls.rates (bucketKey m c) (some (max (rateMin s c) (rateOf s m c / 2))) } }

/-- MARK (R372): a class stands at level 7: each master granted within the last 256 grants a request of a class now at level 0 to 2
halves that class's rate. -/
def execMark (arbiter : ArbiterId) (s : State) : Outcome :=
  .next (let a := arbNum arbiter
    let x := s.arb a
    let hot := (List.range 15).any (fun c => x.queue.any (fun r => r.cls == c) && level s x c == 7)
    let due : Bool := match x.mark with
      | none => true
      | some g => decide (g + 256 ≤ x.grants)
    if !hot ∨ !due then s
    else
      let hit := (x.recent.filter (fun p => decide (level s x p.2 ≤ 2))).eraseDups
      let s := hit.foldl (fun s p => markRate s p.1 p.2) s
      s.setArb a { x with mark := some x.grants })

/-- RATE_RECOVERY (R372): 1,024 handshakes of the master without a mark for the class. -/
def execRateRecovery (master : MasterId) (cls : ClassId) (s : State) : Outcome :=
  .next (let m := masterNum master
    let c := cls.val
    if c = 15 then s
    else { s with cls := { s.cls with
      rates := tset none s.cls.rates (bucketKey m c) (some (min (rateMax s c) (rateOf s m c + ceilDiv (rateMax s c) 8))) } })

/-! ## The class derate (R373) -/

/-- CLASS_SAMPLE (R373): every 100 ticks. -/
def execClassSample (s : State) : Outcome :=
  .next (let due : Bool := match s.cls.sampleAt with
      | none => true
      | some t => decide (t + 100 ≤ s.clk.tick)
    if !s.clk.run ∨ !due ∨ 100 ≤ s.cls.sampled then s
    else
      let miss := fun c => s.cls.arbs.any (fun p => inMiss s p.2 c)
      let misses := (List.range 15).foldl (fun t c => if miss c then tset 0 t c (tget 0 t c + 1) else t) s.cls.misses
      { s with cls := { s.cls with misses := misses, sampled := s.cls.sampled + 1, sampleAt := some s.clk.tick } })

/-- The end of an epoch for one class. -/
def epochClass (s : State) (c : Nat) : State :=
  let n := tget 0 s.cls.misses c
  let missing := decide (25 < n)
  let min_ := s.regField (rCreg c) 17 9
  let cd := s.regField (rCreg c) 8 0
  let bad := if missing then tget 0 s.cls.bad c + 1 else 0
  let good := if n = 0 then tget 0 s.cls.good c + 1 else 0
  let cd' := if min_ = 256 then 256 else if bad = 4 then max min_ (cd - 16) else if good = 8 then min 256 (cd + 16) else cd
  let s := s.setField (rCreg c) 8 0 cd'
  let s := s.setField (rCreg c) 20 18 (tget 0 s.cls.top c)
  let s := s.setField (rCreg c) 21 21 (if missing then 1 else 0)
  let s := if missing then s.setField (rCmiss c) 31 0 (satAdd 0xFFFFFFFF (s.regField (rCmiss c) 31 0) 1) else s
  { s with cls := { s.cls with
    bad := tset 0 s.cls.bad c (if bad = 4 then 0 else bad), good := tset 0 s.cls.good c (if good = 8 then 0 else good) } }

/-- EPOCH_END (R373, R381): after 100 samples. -/
def execEpochEnd (s : State) : Outcome :=
  .next (if s.cls.sampled < 100 then s
    else
      let s := (List.range 15).foldl epochClass s
      { s with cls := { s.cls with misses := [], sampled := 0, top := [] } })

end Sys2Proof.Machine
end

