-- ==== Sys2Proof/Machine/FwProg.lean ====
section
/-! DEFINITION. The mailbox commands on programs, contexts, granules and queues (R174, R229 to R232, R237, R341, R342, R396, R397). -/

namespace Sys2Proof.Machine

/-- The first byte that sets a bit outside what its offset allows (R396). -/
def badBits (c : Call) (spec : List (Nat × Nat)) : Option Nat :=
  spec.findSome? (fun p => if nbits (c.req.getD p.1 0) 7 0 &&& (255 - p.2) ≠ 0 then some p.1 else none)

/-- Bytes that must be zero. -/
def zeroAt (l : List Nat) : List (Nat × Nat) := l.map (fun o => (o, 0))

/-- Answers BAD_ARGUMENT with the offset of the first bad field, or goes on. -/
def argCheck (s : State) (c : Call) (bad : Option Nat) (k : State → State) : State :=
  match bad with
  | some o => finish s c mBAD_ARGUMENT o []
  | none => k s

/-- The first of some conditions on fields that fails: (offset, holds). -/
def firstFail (l : List (Nat × Bool)) : Option Nat := l.findSome? (fun p => if p.2 then none else some p.1)

/-! ## Programs (R171, R172, R174) -/

/-- Bytes of an image: `a` its device address. -/
def imgBytes (s : State) (a o n : Nat) : List Nat := readBytes s.mem (addrLow a + o) n
def imgLe (s : State) (a o n : Nat) : Nat := leNat (imgBytes s a o n)
def imgBad (s : State) (a o n : Nat) : Bool := isPoisoned s.poison (addrLow a + o) n

/-- Two byte ranges do not overlap. -/
def apart (a n b m : Nat) : Bool := decide (a + n ≤ b ∨ b + m ≤ a ∨ n = 0 ∨ m = 0)

def costAt (s : State) (a o : Nat) : Cost :=
  ⟨imgLe s a o 8, imgLe s a (o + 8) 8, imgLe s a (o + 16) 8, imgLe s a (o + 24) 8, imgLe s a (o + 32) 4⟩

/-- The rank table of an image. -/
def imgRanks (s : State) (a ro n : Nat) : List RankE :=
  (List.range n).map (fun i =>
    let p := imgLe s a (ro + 8 * i + 3) 1
    ⟨imgLe s a (ro + 8 * i) 2, imgLe s a (ro + 8 * i + 2) 1, p % 64, p / 64⟩)

/-- DIGEST of an image: its bytes with the digest field at zero (R171). -/
def imgDigest (s : State) (a n : Nat) : List Nat :=
  shake256 (imgBytes s a 0 64 ++ List.replicate 64 0 ++ imgBytes s a 128 (n - 128)) 64

def costMax (l : List Cost) : Cost :=
  l.foldl (fun m c => ⟨max m.compute c.compute, max m.llc c.llc, max m.hbm c.hbm, max m.vert c.vert, max m.attn c.attn⟩) Cost.zero

/-- The checks of R174 in order. A check that reads a poisoned word fails; check 4 reads every byte, so no later one meets poison. -/
def programChecks (s : State) (a : Nat) : List (Nat × Bool) :=
  let size := imgLe s a 8 4
  let ranks := imgLe s a 14 2
  let co := imgLe s a 24 4
  let cs := imgLe s a 28 4
  let ro := imgLe s a 32 4
  let xo := imgLe s a 36 4
  let xs := imgLe s a 40 4
  let nb := imgLe s a (xo + 2) 2
  let rt := imgRanks s a ro ranks
  let budgets := (List.range nb).map (fun i => costAt s a (xo + 48 + 40 * i))
  let seg := costAt s a (xo + 8)
  let top := costMax budgets
  let lo := addrLow a
  let inRes := inBackedRes s lo size
  [(1, !imgBad s a 0 16 && decide (128 ≤ size ∧ size ≤ mib64 ∧ a % 4096 = 0 ∧ a < 2 ^ 54 ∧ addrModule a = s.modId) &&
      ((inHbm lo size && !meetsReserved lo size) || inRes)),
   (2, imgBytes s a 0 4 == [0x47, 0x52, 0x54, 0x49] && imgLe s a 5 1 == 2 && imgLe s a 12 2 == 0x6420),
   (3, !imgBad s a 48 16 && decide (imgLe s a 6 2 < 4) && (imgBytes s a 48 16).all (· == 0)),
   (4, !imgBad s a 0 size && imgBytes s a 64 64 == imgDigest s a size),
   (5, co % 8 == 0 && cs % 8 == 0 && decide (cs ≤ 0x1000000 ∧ co + cs ≤ size ∧ ro + 8 * ranks ≤ size ∧ xo + xs ≤ size) &&
      apart co cs ro (8 * ranks) && apart co cs xo xs && apart ro (8 * ranks) xo xs && apart 0 128 co cs &&
      apart 0 128 ro (8 * ranks) && apart 0 128 xo xs),
   (6, imgLe s a 20 4 % 8 == 0 && decide (imgLe s a 20 4 < cs)),
   (7, decide (1 ≤ ranks ∧ ranks ≤ 512 ∧ 1 ≤ imgLe s a 16 4 ∧ imgLe s a 16 4 ≤ 16777216)),
   (8, rt.all (fun e => decide (1 ≤ e.groups ∧ e.groups ≤ 16 ∧ e.budget < nb)) &&
      (List.range ranks).all (fun i => imgLe s a (ro + 8 * i + 4) 4 == 0) &&
      (List.range 64).all (fun g => g == 0 || decide ((rt.filter (fun e => e.cgroup == g)).length ≤ 8))),
   (9, imgLe s a xo 2 == 1 && decide (1 ≤ nb ∧ nb ≤ 512 ∧ xs = 48 + 40 * nb) && imgLe s a (xo + 4) 4 == 0 &&
      (List.range (nb + 1)).all (fun i => imgLe s a (xo + 8 + 40 * i + 36) 4 == 0)),
   (10, budgets.all (fun b => decide (0 < b.compute)) && decide (0 < seg.compute)),
   (11, decide (seg.compute ≤ top.compute ∧ seg.llc ≤ top.llc ∧ seg.hbm ≤ top.hbm ∧ seg.vert ≤ top.vert ∧ seg.attn ≤ top.attn)),
   (12, !nbit (imgLe s a 6 2) 0 || nbit (licFeatures s) 4)]

/-- What the module copies at registration. -/
def programOf (s : State) (a : Nat) : Program :=
  let xo := imgLe s a 36 4
  { base := addrLow a, flags := imgLe s a 6 2, tiles := imgLe s a 16 4, entry := imgLe s a 20 4, codeOff := imgLe s a 24 4,
    codeSize := imgLe s a 28 4, ranks := imgRanks s a (imgLe s a 32 4) (imgLe s a 14 2), segment := costAt s a (xo + 8),
    budgets := (List.range (imgLe s a (xo + 2) 2)).map (fun i => costAt s a (xo + 48 + 40 * i)), withdrawn := false }

/-- Poison that the failing check of an image has read is one consumption (R174, R303, R316). -/
def consumeImage (s : State) (a n : Nat) : State :=
  let (o, k) := if n = 1 then (0, 16) else if n = 3 then (48, 16) else if n = 4 then (0, imgLe s a 8 4) else (0, 0)
  match firstPoison s.poison (addrLow a + o) k with
  | none => s
  | some w => countConsumed s (halfUnit s w) (w + (a - addrLow a))

/-- REGISTER_PROGRAM at its server. -/
def cmdRegister (s : State) (c : Call) : State :=
  let a := fieldLe c.req 0 8
  match firstFail (programChecks s a) with
  | some n => finish (consumeImage s a n) c mCHECK_FAILED n []
  | none =>
    let (h, s) := newNumber s (Config.scrubHandle.toNat :: s.programs.map (·.1))
    finishOk { s with programs := tset none s.programs h (some (programOf s a)) } c (natLe 4 h)

/-- Accepted tasks of a program that have not completed. -/
def programBusy (s : State) (h : Nat) : Bool := s.tasks.any (fun p => p.2.any (fun t => t.program == h))

/-- WITHDRAW_PROGRAM: refused to new tasks at once; answered after the last accepted one. An unknown handle, or one withdrawn, is a
bad argument (DEDUCED, log 31). -/
def cmdWithdraw (s : State) (c : Call) : State :=
  let h := fieldLe c.req 0 4
  if c.begun then
    (if programBusy s h then s else finishOk { s with programs := tset none s.programs h none } c [])
  else match (tget none s.programs h).filter (fun p => !p.withdrawn) with
    | none => finish s c mBAD_ARGUMENT 0 []
    | some p =>
      let s := { s with programs := tset none s.programs h (some { p with withdrawn := true }) }
      if programBusy s h then keepCall s { c with begun := true }
      else finishOk { s with programs := tset none s.programs h none } c []

/-! ## Contexts (R229 to R232) -/

/-- Entry `i` of a LOAD_CONTEXT request. -/
def ctxEntry (c : Call) (i : Nat) : Window :=
  ⟨fieldLe c.req (32 + 32 * i) 8, fieldLe c.req (40 + 32 * i) 8, fieldLe c.req (48 + 32 * i) 1⟩

/-- Reserved bits of R229 and the alignment of a used entry's base and size (DEDUCED, log 31). -/
def ctxFields (c : Call) : Option Nat :=
  if 4096 ≤ fieldLe c.req 0 2 then some 0
  else (badBits c (zeroAt ((List.range 28).map (· + 4)))).or ((List.range 32).findSome? (fun i =>
    let o := 32 + 32 * i
    let w := ctxEntry c i
    firstFail [(o, w.size = 0 || (w.base % 4096 == 0 && decide (w.base < 2 ^ 54))), (o + 8, w.size % 4096 == 0),
      (o + 16, decide (w.rights < 4))] |>.or (badBits c (zeroAt ((o + 17) :: (List.range 12).map (o + 20 + ·))))))

/-- The conditions of R231 on a used window: the first that fails, 1 to 3. A window of another module is exempt from the first. -/
def windowFault (s : State) (w : Window) : Option Nat :=
  let a := addrLow w.base
  if w.size = 0 then none
  else if addrModule w.base = s.modId ∧ ¬ (inHbm a w.size ∨ inBackedRes s a w.size) then some 1
  else if meetsReserved a w.size then some 2
  else if ¬ (inHbm a w.size ∨ (resBase ≤ a ∧ a + w.size ≤ resBase + 4 * gib1)) then some 3
  else none

/-- The first entry that fails, and its condition: R231's, or 4 for an OWNER other than the command's. -/
def ctxFault (s : State) (c : Call) : Option Nat :=
  (List.range 32).findSome? (fun i =>
    match windowFault s (ctxEntry c i) with
    | some k => some (i + 256 * k)
    | none => if fieldLe c.req (50 + 32 * i) 2 = fieldLe c.req 2 2 then none else some (i + 256 * 4))

def contextBusy (s : State) (x : Nat) : Bool := s.tasks.any (fun p => p.2.any (fun t => t.context == x))

def setInvalid (s : State) (x : Nat) : State :=
  match s.context x with
  | none => s
  | some k => { s with contexts := tset none s.contexts x (some { k with invalid := true }) }

/-- The new table takes effect. -/
def putContext (s : State) (c : Call) : State :=
  let x := fieldLe c.req 0 2
  let k : Context := ⟨(List.range 32).map (ctxEntry c), fieldLe c.req 2 2, false⟩
  finishOk { s with contexts := tset none s.contexts x (some k) } c []

/-- LOAD_CONTEXT: checked, then in force once no accepted task of the context is left; admission refuses it meanwhile (R232). -/
def cmdLoadContext (s : State) (c : Call) : State :=
  let x := fieldLe c.req 0 2
  if c.begun then (if contextBusy s x then s else putContext s c)
  else argCheck s c (ctxFields c) (fun s =>
    match ctxFault s c with
    | some d => finish s c mCHECK_FAILED d []
    | none => if contextBusy s x then keepCall (setInvalid s x) { c with begun := true } else putContext s c)

/-- UNLOAD_CONTEXT: a context that is not loaded is in the wrong state (DEDUCED, log 31). -/
def cmdUnloadContext (s : State) (c : Call) : State :=
  let x := fieldLe c.req 0 2
  let drop := fun (s : State) => finishOk { s with contexts := tset none s.contexts x none } c []
  if c.begun then (if contextBusy s x then s else drop s)
  else if 4096 ≤ x then finish s c mBAD_ARGUMENT 0 []
  else if (s.context x).isNone then finish s c mCONFLICT 0 []
  else if contextBusy s x then keepCall (setInvalid s x) { c with begun := true } else drop s

/-! ## Granules (R237) -/

/-- The resident address of a granule: 512 per half slot. -/
def granuleAddr (g : Nat) : Nat := resBase + g * mib2

/-- Whether a context with an accepted task has a window over some of the granules. -/
def granulesUsed (s : State) (g n : Nat) : Bool :=
  s.tasks.any (fun p => p.2.any (fun t => (s.context t.context).any (fun k => k.windows.any (fun w =>
    decide (w.size ≠ 0 ∧ addrModule w.base = s.modId ∧ addrLow w.base < granuleAddr (g + n) ∧
      granuleAddr g < addrLow w.base + w.size)))))

/-- A source: zero for empty, else a 2 MiB-aligned local HBM address. -/
def sourceOk (s : State) (a : Nat) : Bool :=
  a == 0 || (a % mib2 == 0 && decide (a < 2 ^ 54 ∧ addrModule a = s.modId) && inHbm (addrLow a) mib2)

/-- Sets the source of a granule; with RELOAD it is copied from there. -/
def setSource (reload : Bool) (s : State) (p : Nat × Nat) : State :=
  let s := { s with llc := { s.llc with sources := tset 0 s.llc.sources p.1 (if p.2 = 0 then 0 else addrLow p.2 + 1) } }
  if reload then reloadGranule s p.1 else s

/-- LOAD_GRANULES. -/
def cmdLoadGranules (s : State) (c : Call) : State :=
  let g := fieldLe c.req 0 4
  let n := fieldLe c.req 4 2
  let src := fun i => fieldLe c.req (8 + 8 * i) 8
  let bad := (firstFail [(0, decide (g < 2048)), (4, decide (1 ≤ n ∧ n ≤ 511 ∧ g + n ≤ 2048))]).or
    ((badBits c [(6, 1), (7, 0)]).or (firstFail ((List.range n).map (fun i => (8 + 8 * i, sourceOk s (src i))))))
  argCheck s c bad (fun s =>
    if granulesUsed s g n then finish s c mCONFLICT 0 []
    else finishOk (((List.range n).map (fun i => (g + i, src i))).foldl (setSource (nbit (c.req.getD 6 0) 0)) s) c [])

/-! ## Queues (R341, R342) -/

/-- Whether a ring in device memory lies in local HBM outside the reserved areas, or in a backed window (DEDUCED, log 31). -/
def ringPlace (s : State) (a n : Nat) : Bool :=
  decide (a < 2 ^ 54 ∧ addrModule a = s.modId) &&
  ((inHbm (addrLow a) n && !meetsReserved (addrLow a) n) || inBackedRes s (addrLow a) n)

/-- The first bad field of a queue context in a request; `q` its bytes with the V1 bit of a G1 mailbox set. -/
def queueFields (s : State) (c : Call) (q : List Nat) : Option Nat :=
  let sl := q.getD 16 0
  let cl := q.getD 17 0
  let fl := q.getD 18 0
  let logOk := fun (x : Nat) => decide (4 ≤ x ∧ x ≤ 20)
  let v := fieldLe q 20 2
  (firstFail [
    (0, fieldLe q 0 8 % 64 == 0 && (nbit fl 0 || ringPlace s (fieldLe q 0 8) (2 ^ min sl 20 * (if nbit fl 2 then 32 else 64)))),
    (8, fieldLe q 8 8 % 64 == 0 && (nbit fl 1 || ringPlace s (fieldLe q 8 8) (32 * 2 ^ min cl 20))),
    (16, logOk sl), (17, logOk cl), (18, decide (fl < 16) && !(isG1 c.mbx && nbit fl 3)),
    (19, q.getD 19 0 == 0), (20, v == 0 || decide (16 ≤ v ∧ v ≤ 2047)), (26, q.getD 26 0 == 0), (27, q.getD 27 0 == 0)]).or
  ((badBits c (zeroAt ((List.range 28).map (· + 28)))).or
  ((firstFail [(56, decide (fieldLe q 56 4 < 1048576))]).or (badBits c (zeroAt [60, 61, 62, 63]))))

/-- The request's context, with V1 forced in a G1 mailbox (R397) and CLASSMASK bit 15 at zero (R342). -/
def queueReq (c : Call) : List Nat :=
  let q := if isG1 c.mbx then c.req.set 18 (c.req.getD 18 0 ||| 4) else c.req
  q.set 23 (q.getD 23 0 % 128)

/-- Writes bytes of a queue context. -/
def putQ (s : State) (q o : Nat) (b : List Nat) : State := { s with mem := writeBytes s.mem (ctxAddr q + o) b }

/-- The creation values of R342, rings and flags apart. -/
def freshIndices (s : State) (q : Nat) : State := putQ s q 28 (List.replicate 16 0 ++ [1])

/-- QUEUE_CREATE. -/
def cmdQueueCreate (s : State) (c : Call) : State :=
  let r := queueReq c
  argCheck s c (queueFields s c r) (fun s =>
    let q := fieldLe r 56 4
    if qState s q ≠ 0 then finish s c mCONFLICT 0 []
    else finishOk (freshIndices ((putQ s q 0 (r.take 28 ++ List.replicate 36 0)).setQf q 19 1 1) q) c [])

/-- Spilled entries of a queue are discarded; how many. -/
def dropSpilled (s : State) (q : Nat) : Nat × State :=
  let spill := s.adm.spill.filter (fun p => p.2.queue != q)
  let stuck := s.adm.stuck.filter (fun e => e.queue != q)
  (qSpilled s q, State.setQf { s with adm := { s.adm with spill := spill, stuck := stuck } } q 52 4 0)

/-- Descriptors of the queue that wait for their decision, and tasks not completed. -/
def queueBusy (s : State) (q : Nat) : Bool :=
  decide (qInflight s q ≠ 0) || s.adm.und.any (fun u => u.queue == q)

/-- The ring fields of a context: bases, sizes, QFLAGS, OWNER (DEDUCED, log 31). -/
def ringFields (r : List Nat) : List Nat := r.take 19 ++ (r.drop 24).take 2

/-- The ring fields take effect: indices and phase restart, DBSEQ goes on (DEDUCED, log 31). -/
def putRings (s : State) (q : Nat) (r : List Nat) : State :=
  freshIndices (putQ (putQ s q 0 (r.take 19)) q 24 ((r.drop 24).take 2)) q

/-- QUEUE_MODIFY: VECTOR and CLASSMASK at once, ring fields once INFLIGHT is 0. -/
def cmdQueueModify (s : State) (c : Call) : State :=
  let r := queueReq c
  let q := fieldLe r 56 4
  if c.begun then (if queueBusy s q then s else finishOk (putRings s q r) c [])
  else argCheck s c (queueFields s c r) (fun s =>
    if qState s q = 0 then finish s c mCONFLICT 0 []
    else
      let s := putQ s q 20 ((r.drop 20).take 4)
      if ringFields (readBytes s.mem (ctxAddr q) 64) = ringFields r then finishOk s c []
      else if queueBusy s q then keepCall s { c with begun := true } else finishOk (putRings s q r) c [])

/-- The queue argument of the short queue commands. -/
def queueArg (s : State) (c : Call) (k : Nat → State) : State :=
  let q := fieldLe c.req 0 4
  if 1048576 ≤ q then finish s c mBAD_ARGUMENT 0 []
  else if qState s q = 0 then finish s c mCONFLICT 0 [] else k q

/-- QUEUE_RESET: answers the number of spilled entries discarded. -/
def cmdQueueReset (s : State) (c : Call) : State :=
  let go := fun (q : Nat) =>
    let (n, s) := dropSpilled s q
    let s := ((s.setQf q 19 1 1).setQf q 26 1 0).setQf q 27 1 0
    finishOk (freshIndices s q) c (natLe 4 n)
  let q := fieldLe c.req 0 4
  if c.begun then (if queueBusy s q then s else go q)
  else queueArg s c (fun q => if queueBusy s q then keepCall s { c with begun := true } else go q)

/-- QUEUE_DELETE. -/
def cmdQueueDelete (s : State) (c : Call) : State :=
  let go := fun (q : Nat) => finishOk ((dropSpilled s q).2.setQf q 19 1 0) c []
  let q := fieldLe c.req 0 4
  if c.begun then (if queueBusy s q then s else go q)
  else queueArg s c (fun q => if queueBusy s q then keepCall s { c with begun := true } else go q)

/-- QUEUE_QUERY. -/
def cmdQueueQuery (s : State) (c : Call) : State :=
  let q := fieldLe c.req 0 4
  if 1048576 ≤ q then finish s c mBAD_ARGUMENT 0 [] else finishOk s c (readBytes s.mem (ctxAddr q) 64)

end Sys2Proof.Machine
end

