-- ==== Sys2Proof/Machine/FwSys.lean ====
section
/-! DEFINITION. The mailbox commands on identity, sessions, locks, jobs, resets, power, licences, attestation, dumps, processors and
updates (R390 to R405, R424, R497, R500, R508 to R514). -/

namespace Sys2Proof.Machine

/-! ## Identity and sessions -/

/-- Interface versions of R393. -/
def verG2 : Nat := 0x0204
def verG1 : Nat := 0x0107
def verOf (n : Nat) : Nat := if isG1 n then verG1 else verG2

/-- Bytes of a fused item. -/
def fuseBytes (item n : Nat) : List Nat := (List.range n).map (fun i => (Config.fuseByte item i).toNat)

/-- The identity block (R508). -/
def identityBlock (s : State) : List Nat :=
  let ens := ((List.range 64).map (fun c => s.regField (rClcore c) 3 0)).sum
  let spares := ((List.range 64).map (fun c => s.regField (rClcore c) 4 4)).sum
  let clean := if s.md.clean then 1 else 0
  [0x50, 0x46, 0x49, 0x44] ++ natLe 2 0x6420 ++ fuseBytes 6 1 ++ [s.modId] ++ fuseBytes 0 8 ++ fuseBytes 0 64 ++
  natLe 2 verG2 ++ natLe 2 verG1 ++ natLe 2 (tierOf s) ++ natLe 2 (licFeatures s) ++ natLe 2 ens ++ natLe 2 spares ++
  natLe 4 Config.scrubHandle.toNat ++ natLe 8 s.md.ready ++ [s.md.kind, s.md.cause, clean] ++ List.replicate 149 0

/-- IDENTIFY: the identity block, TWR_CLCORE, and zeros (R463, R508). -/
def cmdIdentify (s : State) (c : Call) : State :=
  finishOk s c (identityBlock s ++ (List.range 64).flatMap (fun k => natLe 4 (s.reg (rClcore k)).toNat) ++ List.replicate 3584 0)

/-- GET_VERSION. -/
def cmdGetVersion (s : State) (c : Call) : State :=
  finishOk s c (natLe 2 verG2 ++ natLe 2 verG1 ++ List.replicate 12 0 ++ (List.range 7).flatMap (fun p =>
    let a := activeSlot s p
    slotBytes s p a 8 8 ++ slotBytes s p (1 - a) 8 8))

/-- OPEN_SESSION (R393): an open session, or a mismatch, is replaced. -/
def cmdOpen (s : State) (c : Call) : State :=
  argCheck s c (badBits c (zeroAt [2, 3])) (fun s =>
    let mine := verOf c.mbx
    let v := fieldLe c.req 0 2
    let s := endSession s c.mbx
    if v / 256 ≠ mine / 256 then
      let s := { s with fw := { s.fw with sess := tset none s.fw.sess c.mbx (some ⟨0, 0, true⟩) } }
      finish (s.setField (rMbx c.mbx + 4) 3 2 2) c mVERSION_MISMATCH mine []
    else
      let ver := 256 * (mine / 256) + min (v % 256) (mine % 256)
      let used := s.fw.sess.filterMap (fun p => p.2.map (·.id))
      let (id, s) := newNumber s used
      let s := { s with fw := { s.fw with sess := tset none s.fw.sess c.mbx (some ⟨id, ver, false⟩) } }
      let s := (s.setField (rMbx c.mbx + 4) 3 2 1).setReg (rMbx c.mbx + 8) (BitVec.ofNat 32 (ver + 65536 * (id % 65536)))
      finishOk s c (natLe 2 ver ++ [0, 0] ++ natLe 4 id))

/-- CLOSE_SESSION. -/
def cmdClose (s : State) (c : Call) : State := finishOk (endSession s c.mbx) c []

/-- JOB_STATUS (R390): from the job's mailbox or the mirror; another or an unknown job is a bad argument (DEDUCED, log 31). An ended
job is forgotten once read. -/
def cmdJobStatus (s : State) (c : Call) : State :=
  match (s.job (fieldLe c.req 0 4)).filter (fun j => j.mbx == c.mbx || c.mbx == 16) with
  | none => finish s c mBAD_ARGUMENT 0 []
  | some j =>
    let done := j.ended.isSome
    let s := if done then { s with fw := { s.fw with jobs := s.fw.jobs.filter (fun x => x.id != j.id) } } else s
    finishOk s c (natLe 4 j.id ++ [if done then 1 else 0, j.status] ++ natLe 2 (if done then 1000 else c.num) ++
      natLe 4 j.detail ++ List.replicate 4 0 ++ j.answer)

/-- LOCK (R395). -/
def cmdLock (s : State) (c : Call) : State :=
  argCheck s c (badBits c [(1, 0x0F), (2, 0), (3, 0)]) (fun s =>
    let old := s.regField rLock 11 0
    if !ownsLocks s c.mbx then finish s c mLOCKED 0 []
    else
      let m := old ||| fieldLe c.req 0 2
      finishOk (s.setReg rLock (BitVec.ofNat 32 (if m = 0 then 0 else m + 4096 * c.mbx))) c [])

/-- UNLOCK: by the owner; by another session LOCKED (DEDUCED, log 31). -/
def cmdUnlock (s : State) (c : Call) : State :=
  argCheck s c (badBits c [(1, 0x0F), (2, 0), (3, 0)]) (fun s =>
    let old := s.regField rLock 11 0
    if !ownsLocks s c.mbx then finish s c mLOCKED 0 []
    else
      let m := old &&& (4095 - fieldLe c.req 0 2)
      finishOk (s.setReg rLock (BitVec.ofNat 32 (if m = 0 then 0 else m + 4096 * c.mbx))) c [])

/-! ## Scrub and resets -/

/-- SCRUB (R308, R396): a non-zero reserved byte is a bad argument; a request that breaks another rule of R308 is not scrubbed and ends
with summary STATUS 2. -/
def cmdScrub (s : State) (c : Call) : State :=
  let r := scrubReqOf c.req
  let good := scrubRange s r && decide (r.cls < 15 ∧ r.flags < 2 ∧ r.summary = 0)
  argCheck s c (badBits c (zeroAt ((List.range 6).map (· + 18)))) (fun s =>
    match startJob s c MEMP 0 with
    | (none, s) => s
    | (some id, s) => if good then scrubBegin s false id r else endJob s id mOK 0 (scrubEmpty r 2 0))

/-- COMPUTE_RESET (R497, R516). -/
def cmdComputeReset (s : State) (c : Call) : State :=
  argCheck s c (badBits c ((0, 1) :: zeroAt [1, 2, 3])) (fun s =>
    let clean := nbit (c.req.getD 0 0) 0
    if (computeReset s clean none).isNone then finish s c mCONFLICT 0 []
    else match startJob s c SUP 0 with
      | (none, s) => s
      | (some id, s) => (computeReset s clean (some id)).getD s)

/-- TOWER_RESET. -/
def cmdTowerReset (s : State) (c : Call) : State :=
  let t := c.req.getD 0 0
  argCheck s c ((firstFail [(0, decide (t < 2))]).or (badBits c ((1, 1) :: zeroAt [2, 3]))) (fun s =>
    let clean := nbit (c.req.getD 1 0) 0
    if (towerReset s t clean none).isNone then finish s c mCONFLICT 0 []
    else match startJob s c SUP t with
      | (none, s) => s
      | (some id, s) => (towerReset s t clean (some id)).getD s)

/-- MODULE_RESET: the reset begins 1 ms after DONE. -/
def cmdModuleReset (s : State) (c : Call) : State :=
  finishOk { s with md := { s.md with resetIn := some (s.clk.tick + ticksPerMs) } } c []

/-! ## Power -/

/-- POWER_STATE (R499, R500, R516): the wrong state is CONFLICT. -/
def cmdPowerState (s : State) (c : Call) : State :=
  let st := c.req.getD 0 0
  argCheck s c ((firstFail [(0, decide (st < 3))]).or (badBits c (zeroAt [1, 2, 3]))) (fun s =>
    if s.md.resets ≠ [] ∨ s.md.waiting ≠ [] ∨ s.pwr.entry.isSome ∨ (st = 0 ∧ s.pwr.state = 0) ∨ (st ≠ 0 ∧ s.pwr.state ≠ 0) then
      finish s c mCONFLICT 0 []
    else match startJob s c PWRP st with
      | (none, s) => s
      | (some id, s) =>
        if st ≠ 0 then refreshAdmission { s with pwr := { s.pwr with entry := some (st, s.clk.tick + horizon s) } }
        else startExit s id)

/-- POWER_TARGET (R424). The call's plan is PWR's from the acceptance on. -/
def cmdPowerTarget (s : State) (c : Call) : State :=
  let w := fieldLe c.req 0 4
  let notice := fieldLe c.req 4 4
  argCheck s c (firstFail [(0, decide (w = 0 ∨ (400 ≤ w ∧ w ≤ tierW s))), (4, decide (notice ≤ 1000000))]) (fun s =>
    let eff := s.clk.tick + 100 * notice
    let cf := s.regField oPwrCf 11 0
    let s := { s with pwr := { s.pwr with pend := some (w, eff) } }.setField oPwrLim 24 24 1
    let top := if w = 0 then tierW s else w
    let s := if top < committedFloor s (fun k => commitAt s k eff) then pwrEvent s 7 else s
    finishOk (adoptPlan s c.plan) c (natLe 8 eff ++ natLe 4 cf))

/-- POWER_QUERY: the profile over the horizon from the tick of the answer (R430; DEDUCED, log 31). -/
def cmdPowerQuery (s : State) (c : Call) : State :=
  let h := horizon s
  finishOk s c (natLe 8 s.clk.tick ++ natLe 4 (s.regField oPwrLim 11 0) ++ natLe 4 (s.regField oPwrCf 11 0) ++
    (List.range 16).flatMap (fun i =>
      natLe 4 (i * h / 16) ++ natLe 2 (committedFloor s (fun k => commitAt s k (s.clk.tick + i * h / 16))) ++ [0, 0]))

/-! ## Licences (R511 to R513) -/

/-- A licence record of R513. -/
def licRecord (l : List Nat) : List Nat :=
  (l.drop 8).take 8 ++ (l.drop 80).take 4 ++ List.replicate 4 0 ++ shake256 l 16

/-- The checks of R512 on a whole licence, in order: none when it is to be installed or is there already. -/
def licenceFault (s : State) (l : List Nat) (total : Nat) : Option (Nat × Nat) :=
  let key := (l.drop 128).take 1952
  let hash := shake256 key 32
  if total ≠ 5389 ∨ l.take 4 ≠ [0x4C, 0x49, 0x43, 0x4E] ∨ fieldLe l 4 2 ≠ 1 ∨ fieldLe l 6 2 ≠ 0 ∨ 64 ≤ fieldLe l 80 4 ∨
      ((l.drop 84).take 44).any (· != 0) then some (mCHECK_FAILED, 1)
  else if (l.drop 16).take 64 ≠ fuseBytes 0 64 then some (mCHECK_FAILED, 2)
  else if ¬ ([2, 3, 4, 5].any (fun k => fuseBytes k 32 == hash)) then some (mCHECK_FAILED, 3)
  else if ¬ Config.mldsaVerify 1 (l.take 2080) (l.drop 2080) then some (mSIGNATURE, 0)
  else if s.fw.lics.any (fun x => fieldLe x 8 8 == fieldLe l 8 8) then none
  else if 16 ≤ s.fw.lics.length then some (mNO_RESOURCE, 0)
  else if ¬ s.regBit rWstat 1 then some (mWRITE_WINDOW, 0)
  else none

/-- A new licence takes effect (R513): the tier rises, links 5 to 8 may train, and the log measures it. -/
def installLicence (s : State) (l : List Nat) : State :=
  let s := { s with fw := { s.fw with lics := s.fw.lics ++ [l] } }
  let s := refreshCeiling (s.setField oPwrLim 23 12 (tierOf s))
  let s := if nbit (licFeatures s) 2 then
      [5, 6, 7, 8].foldl (fun s k => if linkState s k = 4 then s.setField (rLstat k) 2 0 0 else s) s else s
  measure s 3 0xFF 0xFF ((l.drop 8).take 8) 0 (shake256 l 64) false

/-- LICENCE_INSTALL. -/
def cmdLicenceInstall (s : State) (c : Call) : State :=
  let off := fieldLe c.req 0 4
  let len := fieldLe c.req 4 4
  let total := fieldLe c.req 8 4
  argCheck s c ((firstFail [(0, decide (off + len ≤ total)), (4, decide (len ≤ 4080)), (8, decide (total ≤ 8192))]).or
      (badBits c (zeroAt [12, 13, 14, 15]))) (fun s =>
    let old := if off = 0 then [] else tget [] s.fw.chunks c.mbx
    let new := ((c.req.drop 16).zipIdx).foldl (fun t p => tset 0 t (off + p.2) (p.1 % 256)) old
    let s := { s with fw := { s.fw with chunks := tset [] s.fw.chunks c.mbx new } }
    if off + len ≠ total then finishOk s c []
    else
      let l := (List.range total).map (fun i => tget 0 new i)
      let s := { s with fw := { s.fw with chunks := tset [] s.fw.chunks c.mbx [] } }
      match licenceFault s l total with
      | some (st, d) => finish s c st d []
      | none =>
        let have_ := s.fw.lics.any (fun x => fieldLe x 8 8 == fieldLe l 8 8)
        finishOk (if have_ then s else installLicence s l) c [])

/-- LICENCE_LIST (R513). -/
def cmdLicenceList (s : State) (c : Call) : State :=
  finishOk s c (natLe 4 s.fw.lics.length ++ [0, 0, 0, 0] ++ s.fw.lics.flatMap licRecord)

/-! ## Attestation (R514) -/

def regLe (s : State) (off : Nat) : List Nat := natLe 4 (s.reg off).toNat

/-- The window table of a context, 1 KiB. -/
def tableBytes (k : Context) : List Nat :=
  k.windows.flatMap (fun w => natLe 8 w.base ++ natLe 8 w.size ++ [w.rights, 0] ++ natLe 2 k.owner ++ List.replicate 12 0)

/-- The 192 bytes of settings; the registers of the digest stand in ascending address order (DEDUCED, log 31). -/
def settingsBytes (s : State) : List Nat :=
  [oAdmCtrl, 0x0200C000, 0x0200C004, oPwrCtrl, oPwrLim, 0x00302140, 0x00302144, 0x0000E000, 0x02010100].flatMap (regLe s) ++
  (List.range 7).flatMap (fun p => regLe s (0x00030104 + 8 * p)) ++
  shake256 ([0x00200020, 0x00200024].flatMap (regLe s) ++
    (List.range 16).flatMap (fun c => regLe s (rClmask c false) ++ regLe s (rClmask c true)) ++
    (List.range 32).flatMap (fun i => regLe s (0x0200C100 + 4 * i)) ++
    (List.range 128).flatMap (fun i => regLe s (0x0200E000 + 4 * i))) 64 ++
  shake256 (s.contexts.flatMap (fun p => match p.2 with
    | some k => tableBytes k
    | none => [])) 64

/-- The certificate chain in flash (R509). -/
def certBytes : List Nat := (List.range 10714).map (fun i => (Config.flashByte (0x2BF0000 + i)).toNat)

/-- Builds and signs a report. -/
def buildReport (s : State) (nonce : List Nat) : State × List Nat :=
  let flags := (if s.md.debug then 1 else 0) + (if s.fw.recovery then 2 else 0)
  let body := [0x41, 0x54, 0x53, 0x54] ++ natLe 2 1 ++ [flags, 0] ++ nonce ++ natLe 8 s.clk.tick ++ natLe 4 s.fw.mlog.length ++
    natLe 4 s.fw.mdrop ++ natLe 4 s.fw.lics.length ++ [0, 0, 0, 0] ++ s.fw.mchain ++ s.fw.mlog.flatMap id ++
    s.fw.lics.flatMap licRecord ++ settingsBytes s
  let sig := (List.range 3309).map (fun i => (Config.mldsaSign s.fresh body i).toNat)
  ({ s with fresh := s.fresh + 1 }, body ++ sig ++ certBytes)

/-- ATTEST: offset 0 builds a report; another offset reads the one that this mailbox holds; without one it is the wrong state
(DEDUCED, log 31). -/
def cmdAttest (s : State) (c : Call) : State :=
  let off := fieldLe c.req 64 4
  let answer := fun (s : State) (r : List Nat) =>
    if r.length < off then finish s c mBAD_ARGUMENT 64 []
    else finishOk s c (natLe 4 r.length ++ [0, 0, 0, 0] ++ (r.drop off).take 4088)
  if off = 0 then
    let (s, r) := buildReport s (c.req.take 64)
    answer { s with fw := { s.fw with reports := tset [] s.fw.reports c.mbx r } } r
  else match tget [] s.fw.reports c.mbx with
    | [] => finish s c mCONFLICT 0 []
    | r => answer s r

/-! ## Dumps and restarts (R404) -/

/-- The processor argument in byte 0, with the bytes that must be zero. -/
def procArg (c : Call) (spec : List (Nat × Nat)) : Option Nat :=
  (firstFail [(0, decide (c.req.getD 0 0 < 7))]).or (badBits c spec)

/-- DUMP_READ. -/
def cmdDumpRead (s : State) (c : Call) : State :=
  let off := fieldLe c.req 4 4
  argCheck s c ((procArg c (zeroAt [1, 2, 3])).or (firstFail [(4, decide (off % 8 = 0 ∧ off ≤ 0x40000))])) (fun s =>
    let n := min 4088 (0x40000 - off)
    finishOk s c (natLe 4 n ++ [0, 0, 0, 0] ++ (List.range n).map (fun i => dumpByte s (c.req.getD 0 0) (off + i))))

/-- DUMP_CLEAR. -/
def cmdDumpClear (s : State) (c : Call) : State :=
  argCheck s c (procArg c (zeroAt [1, 2, 3])) (fun s => finishOk (clearDump s (c.req.getD 0 0)) c [])

/-- PROC_RESTART: answered when the processor runs again; CONFLICT while it is being activated (DEDUCED, log 31). -/
def cmdProcRestart (s : State) (c : Call) : State :=
  let p := c.req.getD 0 0
  let fl := c.req.getD 1 0
  if c.begun then
    (if pstate s p = pHELD then finish s c mFAILED 0 [] else if serves s p then finishOk s c [] else s)
  else argCheck s c (procArg c [(1, 3), (2, 0), (3, 0)]) (fun s =>
    if s.fw.act.any (fun a => a.proc == p) then finish s c mCONFLICT 0 []
    else
      let s := if nbit fl 1 then saveDump s p 6 0 0 else s
      let s := (s.modProc p (fun x => { x with trips := [] })).setField (rPstat p) 5 4 0
      let a := activeSlot s p
      keepCall (restartProc s p (if nbit fl 0 then 1 - a else a)) { c with begun := true })

/-! ## Updates (R400 to R403) -/

/-- Whether flash writes of the image slots may start (R445, resource 0). -/
def slotWindow (s : State) : Bool := s.regBit rWstat 0

/-- The inactive slot of a processor. -/
def newSlot (s : State) (p : Nat) : Nat := 1 - activeSlot s p

def threeMiB : Nat := 0x300000

/-- UPDATE_BEGIN. -/
def cmdUpdateBegin (s : State) (c : Call) : State :=
  let p := c.req.getD 0 0
  argCheck s c ((procArg c (zeroAt [1, 2, 3])).or (firstFail [(4, decide (fieldLe c.req 4 4 ≤ threeMiB))])) (fun s =>
    if (s.proc p).stage ≠ 0 then finish s c mCONFLICT 0 []
    else if !slotWindow s then finish s c mWRITE_WINDOW 0 []
    else match startJob s c SUP p with
      | (none, s) => s
      | (some _, s) =>
        let s := s.modProc p (fun x => { x with stage := 1, len := 0 })
        { s with fw := { s.fw with last := tset 0 s.fw.last c.mbx (p + 1) } })

/-- Writes bytes of a slot. -/
def writeSlot (s : State) (p sl off : Nat) (b : List Nat) : State :=
  let old := (tget none s.fw.slots (2 * p + sl)).getD []
  let new := b.zipIdx.foldl (fun t x => tset 0 t (off + x.2) (255 - x.1 % 256)) old
  { s with fw := { s.fw with slots := tset none s.fw.slots (2 * p + sl) (some new) } }

/-- UPDATE_WRITE: into the slot of the mailbox's last UPDATE_BEGIN (DEDUCED, log 31). -/
def cmdUpdateWrite (s : State) (c : Call) : State :=
  let off := fieldLe c.req 0 4
  let len := fieldLe c.req 4 4
  argCheck s c (firstFail [(0, decide (off + len ≤ threeMiB)), (4, decide (len ≤ 4088))]) (fun s =>
    match tget 0 s.fw.last c.mbx with
    | 0 => finish s c mCONFLICT 0 []
    | p + 1 =>
      if (s.proc p).stage ≠ 2 ∧ (s.proc p).stage ≠ 3 then finish s c mCONFLICT 0 []
      else if !slotWindow s then finish s c mWRITE_WINDOW 0 []
      else
        let s := writeSlot s p (newSlot s p) off (c.req.drop 8)
        finishOk (s.modProc p (fun x => { x with stage := 2, len := max x.len (off + len) })) c [])

/-- The checks of R400 on an image in a slot: the first that fails. -/
def imageFault (s : State) (p sl len : Nat) : Option Nat :=
  let h := slotBytes s p sl 0 4096
  let body := fieldLe h 16 4
  firstFail [
    (1, h.take 4 == [0x46, 0x57, 0x49, 0x4D] && h.getD 4 0 == p && h.getD 5 0 == 1),
    (2, decide (fieldLe h 6 2 < 2) && fieldLe h 26 2 == 0 && (h.drop 3405).all (· == 0)),
    (3, decide (body ≤ 3141632 ∧ 4096 + body = len)),
    (4, (h.drop 32).take 64 == shake256 (slotBytes s p sl 4096 body) 64),
    (5, decide ((s.proc p).svn ≤ fieldLe h 28 4))]

/-- Bytes that the signature of an image covers, and the signature. -/
def imageSigned (s : State) (p sl : Nat) : Bool :=
  Config.mldsaVerify 0 (slotBytes s p sl 0 96) (slotBytes s p sl 96 3309)

/-- UPDATE_VERIFY (R400, R506). -/
def cmdUpdateVerify (s : State) (c : Call) : State :=
  let p := c.req.getD 0 0
  argCheck s c (procArg c (zeroAt [1, 2, 3])) (fun s =>
    if (s.proc p).stage ≠ 2 ∧ (s.proc p).stage ≠ 3 then finish s c mCONFLICT 0 []
    else match imageFault s p (newSlot s p) (s.proc p).len with
      | some n => finish s c mCHECK_FAILED n []
      | none =>
        if !imageSigned s p (newSlot s p) then finish s c mSIGNATURE 0 []
        else finishOk (s.modProc p (fun x => { x with stage := 3 })) c [])

/-- Whether the handoff of an activation is impossible (R402). -/
def handoffConflict (s : State) (p : Nat) : Bool :=
  let n := newSlot s p
  let r := runSlot s p
  let need := leNat (slotBytes s p n 20 2)
  nbit (leNat (slotBytes s p n 6 2)) 0 && (decide (pstate s p = pHELD) ||
    !decide (leNat (slotBytes s p r 22 2) ≤ need ∧ need ≤ leNat (slotBytes s p r 24 2)))

/-- UPDATE_ACTIVATE (R401, R402): steps 5 and 6 are one restart of the model (log 31). -/
def cmdUpdateActivate (s : State) (c : Call) : State :=
  let p := c.req.getD 0 0
  argCheck s c (procArg c (zeroAt [1, 2, 3])) (fun s =>
    if (s.proc p).stage ≠ 3 ∨ s.fw.act.isSome ∨ handoffConflict s p then finish s c mCONFLICT 0 []
    else match startJob s c SUP p with
      | (none, s) => s
      | (some id, s) =>
        let s := restartProc (s.modProc p (fun x => { x with stage := 4 })) p (runSlot s p)
        { s with fw := { s.fw with act := some ⟨p, id, false⟩ } })

/-- UPDATE_ABORT: CONFLICT from step 5 on, and where nothing is staged (DEDUCED, log 31). -/
def cmdUpdateAbort (s : State) (c : Call) : State :=
  let p := c.req.getD 0 0
  argCheck s c (procArg c (zeroAt [1, 2, 3])) (fun s =>
    if (s.proc p).stage ≠ 2 ∧ (s.proc p).stage ≠ 3 then finish s c mCONFLICT 0 []
    else finishOk (s.modProc p (fun x => { x with stage := 0, len := 0 })) c [])

end Sys2Proof.Machine
end

