-- ==== Sys2Proof/Machine/Mbx.lean ====
section
/-! DEFINITION. Mailboxes: the catalogue, GO, service in order, forwarding, and the mailbox commands (R388 to R397, R491, R492,
R503). -/

namespace Sys2Proof.Machine

/-! ## The catalogue (R388, R396) -/

/-- A row of the catalogue: mailbox kinds (G2 general, G1, update, power-follow, diagnostics; the mirror takes all), block of the
lock, and whether it needs a session (R394). -/
structure Cat where
  g : Bool
  one : Bool
  u : Bool
  p : Bool
  d : Bool
  block : Option Nat
  sess : Bool
deriving DecidableEq, Repr

def catAll : Cat := ⟨true, true, true, true, true, none, false⟩
def catG : Cat := ⟨true, false, false, false, false, none, true⟩
def catG1 (b : Option Nat) : Cat := ⟨true, true, false, false, false, b, true⟩
def catGD (b : Option Nat) : Cat := ⟨true, false, false, false, true, b, true⟩
def catU : Cat := ⟨false, false, true, false, false, none, false⟩

/-- Blocks of R395. -/
def bADM : Nat := 0
def bQUE : Nat := 1
def bPWR : Nat := 3
def bECC : Nat := 8
def bLLC : Nat := 10
def bSEC : Nat := 11

/-- The catalogue of R396. -/
def catalogue : List (Nat × Cat) := [
  (0x0001, catAll), (0x0002, catAll), (0x0003, catAll), (0x0004, catAll), (0x0005, catAll), (0x0006, catG), (0x0007, catG),
  (0x0010, catG1 (some bADM)), (0x0011, catG1 (some bADM)), (0x0020, catG1 (some bADM)), (0x0021, catG1 (some bADM)),
  (0x0022, { catG with block := some bLLC }), (0x0030, catG1 (some bQUE)), (0x0031, catG1 (some bQUE)),
  (0x0032, catG1 (some bQUE)), (0x0033, catG1 (some bQUE)), (0x0034, catG1 none), (0x0040, catGD (some bECC)),
  (0x0050, catGD none), (0x0051, catGD none), (0x0052, catGD none), (0x0053, catGD (some bPWR)),
  (0x0060, ⟨false, false, false, true, false, some bPWR, true⟩), (0x0061, ⟨true, false, false, true, false, none, true⟩),
  (0x0070, { catG with block := some bSEC }), (0x0071, catG), (0x0072, catG), (0x0080, catGD none), (0x0081, catGD none),
  (0x0082, ⟨false, false, false, false, true, none, true⟩), (0x00A0, catU), (0x00A1, catU), (0x00A2, catU), (0x00A3, catU),
  (0x00A4, catU)]

def catOf (op : Nat) : Option Cat := (catalogue.find? (fun r => r.1 == op)).map (·.2)

/-- Whether a mailbox takes a command of this kind. -/
def Cat.takes (k : Cat) (n : Nat) : Bool :=
  if n < 8 then k.g else if n < 12 then k.one else if n = 12 then k.u else if n = 13 then k.p else if n < 16 then k.d else true

/-- The size of a request (R396); a variable one follows from its own length field. -/
def reqSize (op : Nat) (r : List Nat) : Nat :=
  if op = 0x03 ∨ op = 0x05 ∨ op = 0x06 ∨ op = 0x07 ∨ op = 0x11 then 4
  else if op = 0x10 then 8
  else if op = 0x20 then 1056
  else if op = 0x21 then 2
  else if op = 0x22 then 8 + 8 * fieldLe r 4 2
  else if op = 0x30 ∨ op = 0x31 then 64
  else if op = 0x32 ∨ op = 0x33 ∨ op = 0x34 then 4
  else if op = 0x40 then 32
  else if op = 0x50 ∨ op = 0x51 ∨ op = 0x53 then 4
  else if op = 0x60 then 8
  else if op = 0x70 then 16 + fieldLe r 4 4
  else if op = 0x72 then 68
  else if op = 0x80 ∨ op = 0xA0 then 8
  else if op = 0x81 ∨ op = 0x82 ∨ op = 0xA2 ∨ op = 0xA3 ∨ op = 0xA4 then 4
  else if op = 0xA1 then 8 + fieldLe r 4 4
  else 0

/-- The processor that serves a command (R382); a PROC_RESTART of SUP is carried out by hardware (R396). -/
def serverOf (c : Call) : Option Nat :=
  if c.op = 0x60 ∨ c.op = 0x61 ∨ c.op = 0x53 then some PWRP
  else if c.op = 0x70 ∨ c.op = 0x71 ∨ c.op = 0x72 ∨ c.op = 0xA2 then some SEC
  else if c.op = 0x40 ∨ c.op = 0x22 then some MEMP
  else if c.op = 0x82 ∧ c.req.getD 0 0 = 0 then none
  else some SUP

/-- The object of a command (R391): 1 a queue, 2 a context, 3 a program handle. -/
def objectOf (c : Call) : Option (Nat × Nat) :=
  if c.op = 0x30 ∨ c.op = 0x31 then some (1, fieldLe c.req 56 4)
  else if c.op = 0x32 ∨ c.op = 0x33 ∨ c.op = 0x34 then some (1, fieldLe c.req 0 4)
  else if c.op = 0x20 ∨ c.op = 0x21 then some (2, fieldLe c.req 0 2)
  else if c.op = 0x11 then some (3, fieldLe c.req 0 4)
  else none

/-- The command of a call. -/
def runCmd (s : State) (c : Call) : State :=
  match c.op with
  | 0x01 => cmdIdentify s c
  | 0x02 => cmdGetVersion s c
  | 0x03 => cmdOpen s c
  | 0x04 => cmdClose s c
  | 0x05 => cmdJobStatus s c
  | 0x06 => cmdLock s c
  | 0x07 => cmdUnlock s c
  | 0x10 => cmdRegister s c
  | 0x11 => cmdWithdraw s c
  | 0x20 => cmdLoadContext s c
  | 0x21 => cmdUnloadContext s c
  | 0x22 => cmdLoadGranules s c
  | 0x30 => cmdQueueCreate s c
  | 0x31 => cmdQueueModify s c
  | 0x32 => cmdQueueReset s c
  | 0x33 => cmdQueueDelete s c
  | 0x34 => cmdQueueQuery s c
  | 0x40 => cmdScrub s c
  | 0x50 => cmdComputeReset s c
  | 0x51 => cmdTowerReset s c
  | 0x52 => cmdModuleReset s c
  | 0x53 => cmdPowerState s c
  | 0x60 => cmdPowerTarget s c
  | 0x61 => cmdPowerQuery s c
  | 0x70 => cmdLicenceInstall s c
  | 0x71 => cmdLicenceList s c
  | 0x72 => cmdAttest s c
  | 0x80 => cmdDumpRead s c
  | 0x81 => cmdDumpClear s c
  | 0x82 => cmdProcRestart s c
  | 0xA0 => cmdUpdateBegin s c
  | 0xA1 => cmdUpdateWrite s c
  | 0xA2 => cmdUpdateVerify s c
  | 0xA3 => cmdUpdateActivate s c
  | 0xA4 => cmdUpdateAbort s c
  | _ => finish s c mBAD_OPCODE 0 []

/-- The checks before a command, and the status of the first that fails (R389 to R396; their order is DEDUCED, log 31). -/
def callFault (s : State) (c : Call) : Option (Nat × Nat) :=
  match catOf c.op with
  | none => some (mBAD_OPCODE, 0)
  | some k =>
    if !k.takes c.mbx then some (mWRONG_MAILBOX, 0)
    else if k.sess ∧ ¬ s.md.opened then some (mBUSY, 0)
    else if k.sess ∧ (s.session c.mbx).isNone then some (mNO_SESSION, 0)
    else if k.sess ∧ (s.session c.mbx).any (·.bad) then some (mVERSION_MISMATCH, verOf c.mbx)
    else if c.req.length ≠ reqSize c.op c.req then some (mBAD_LENGTH, 0)
    else if k.block.any (lockedFor s c.mbx) then some (mLOCKED, 0)
    else none

/-- Starts a command at its server. -/
def startCmd (s : State) (c : Call) : State :=
  match callFault s c with
  | some (st, d) => finish s c st d []
  | none => runCmd s c

/-! ## Recovery mode (R503) -/

/-- What SEC's ROM serves in recovery mode. -/
def recoveryServes (c : Call) : Bool :=
  (c.mbx == 12 || c.mbx == 16) && (c.op == 1 || c.op == 2 || c.op == 0xA1 ||
    ((c.op == 0xA0 || c.op == 0xA2 || c.op == 0xA3 || c.op == 0xA4) && c.req.getD 0 0 == 1))

/-! ## Service in GO order (R391) -/

/-- What a pass over the waiting commands knows: processors behind which later commands wait, and objects in use. -/
structure Pass where
  s     : State
  procs : List Nat
  objs  : List (Nat × Nat)
deriving DecidableEq, Repr

def findCall (s : State) (n : Nat) : Option Call := s.fw.calls.find? (fun c => c.mbx == n)

/-- Whether a call of the mailbox is still there after its part of the pass. -/
def stays (s : State) (n : Nat) : Bool := (findCall s n).isSome

/-- Runs a call, and notes its object while it waits for tasks. -/
def passRun (p : Pass) (c : Call) (f : State → State) : Pass :=
  let s := f p.s
  { p with s := s, objs := if stays s c.mbx then (objectOf c).toList ++ p.objs else p.objs }

/-- One call in a pass: a call that has begun waits for its tasks; one at a processor that restarts, or behind such a call, or on an
object in use, waits; one at a held processor is answered PROC_HELD (R385, R386, R391). -/
def passCall (p : Pass) (c : Call) : Pass :=
  if c.fwd.isSome then p
  else if c.begun then passRun p c (fun s => runCmd s c)
  else if p.s.fw.recovery then
    (if recoveryServes c then passRun p c (fun s => startCmd s c) else { p with s := finish p.s c mPROC_HELD 0 [] })
  else match serverOf c with
    | none => passRun p c (fun s => startCmd s c)
    | some q =>
      if p.procs.contains q then p
      else if pstate p.s q = pHELD then { p with s := finish p.s c mPROC_HELD 0 [] }
      else if !serves p.s q ∨ (objectOf c).any (fun o => p.objs.contains o) then { p with procs := q :: p.procs }
      else passRun p c (fun s => startCmd s c)

def passMbx (p : Pass) (n : Nat) : Pass :=
  match findCall p.s n with
  | none => p
  | some c => passCall p c

/-- Serves every call that can be served, in GO order. -/
def serveCalls (s : State) : State :=
  ((s.fw.calls.map (fun c => c.mbx)).foldl passMbx ⟨s, [], []⟩).s

/-! ## GO (R388, R389, R491, R492) -/

/-- Whether the host reaches no mailbox: it is in reset, or its link is idle after a shutdown (R534). -/
def mbxDark (s : State) : Bool := !s.clk.run || s.md.off

/-- Whether the sideband has no power: domain 74 stays on while PERST_N is asserted and after a shutdown (R534). -/
def sideDark (s : State) : Bool := !s.clk.run && !s.md.input

def busyMbx (s : State) (n : Nat) : Bool := s.regField (rMbx n + 4) 1 0 == stBusy

/-- The module that serves a mailbox: the lead may forward 0 to 15 (R491). -/
def mbxTarget (s : State) (n : Nat) : Nat :=
  if n < 16 ∧ s.regBit 0x02010100 6 then s.regField (0x02010200 + 4 * n) 5 0 else s.modId

/-- A command has its GO: its request stands in the payload. -/
def mbxStart (s : State) (n : Nat) (irq : Bool) (op len : Nat) (plan : List (List Nat)) (num : Nat) (src : Option (Nat × Nat)) :
    State :=
  let req := (payload s n ++ List.replicate (len - 4096) 0).take len
  let s := s.setReg (rMbx n) (BitVec.ofNat 32 (op % 65536 + (if irq then 65536 else 0) + 131072 * len))
  let s := s.setField (rMbx n + 4) 1 0 stBusy
  let c : Call := ⟨n, op, req, irq, false, plan, num, src, none⟩
  let add := fun (s : State) (c : Call) => { s with fw := { s.fw with calls := s.fw.calls ++ [c] } }
  let t := mbxTarget s n
  if src.isSome ∨ t = s.modId then serveCalls (add s c)
  else if !s.lup.members.contains t ∨ (routeTo s t).1 = 0 then finish (add s c) c mUNREACHABLE t []
  else
    let (tag, s) := takeTag s t
    sendMsg (add s { c with fwd := some (t, tag) }) (newMsg s tMGMT 15 0 t tag 0 (.mboxGo n op req plan num))

/-- The host or the management controller writes a request and GO; while the mailbox is BUSY the writes are dropped and counted
(R389). -/
def mbxGo (s : State) (n : Nat) (irq : Bool) (op : Nat) (req : List Nat) (plan : List (List Nat)) (num : Nat) : State :=
  let req := req.take 4096
  if if n = 16 then sideDark s else mbxDark s then s
  else if busyMbx s n then
    accessViolation s (if n = 16 then 1 else 0) (rMbx n) (op + (if irq then 65536 else 0) + 131072 * req.length + 2 ^ 31)
  else mbxStart (setPayload s n req) n irq op req.length plan num none

def reqBytes (l : List Byte) : List Nat := l.map (·.toNat)

/-- TARGET_UNREACHABLE (R492): no route has come back within 10 ms, or the target left the domain. -/
def execTargetUnreachable (mbx : Fin 16) (s : State) : Outcome :=
  .next (match findCall s mbx with
    | none => s
    | some c => match c.fwd with
      | none => s
      | some (t, _) =>
        if s.lup.members.contains t ∧ (routeTo s t).1 ≠ 0 then s else serveCalls (finish s c mUNREACHABLE t []))

/-! ## The commands -/

def execIdentify (mbx : MbxId) (irq : Bool) (req : List Byte) (s : State) : Outcome :=
  .next (mbxGo s mbx irq 0x0001 (reqBytes req) [] 0)
def execGetVersion (mbx : MbxId) (irq : Bool) (req : List Byte) (s : State) : Outcome :=
  .next (mbxGo s mbx irq 0x0002 (reqBytes req) [] 0)
def execOpenSession (mbx : MbxId) (irq : Bool) (req : List Byte) (s : State) : Outcome :=
  .next (mbxGo s mbx irq 0x0003 (reqBytes req) [] 0)
def execCloseSession (mbx : MbxId) (irq : Bool) (req : List Byte) (s : State) : Outcome :=
  .next (mbxGo s mbx irq 0x0004 (reqBytes req) [] 0)
/-- `progress`: per mille of the work done, as the serving processor reports it of a running job (R390). -/
def execJobStatus (mbx : MbxId) (irq : Bool) (req : List Byte) (progress : Fin 1001) (s : State) : Outcome :=
  .next (mbxGo s mbx irq 0x0005 (reqBytes req) [] progress)
def execLock (mbx : MbxId) (irq : Bool) (req : List Byte) (s : State) : Outcome :=
  .next (mbxGo s mbx irq 0x0006 (reqBytes req) [] 0)
def execUnlock (mbx : MbxId) (irq : Bool) (req : List Byte) (s : State) : Outcome :=
  .next (mbxGo s mbx irq 0x0007 (reqBytes req) [] 0)
def execRegisterProgram (mbx : MbxId) (irq : Bool) (req : List Byte) (s : State) : Outcome :=
  .next (mbxGo s mbx irq 0x0010 (reqBytes req) [] 0)
def execWithdrawProgram (mbx : MbxId) (irq : Bool) (req : List Byte) (s : State) : Outcome :=
  .next (mbxGo s mbx irq 0x0011 (reqBytes req) [] 0)
def execLoadContext (mbx : MbxId) (irq : Bool) (req : List Byte) (s : State) : Outcome :=
  .next (mbxGo s mbx irq 0x0020 (reqBytes req) [] 0)
def execUnloadContext (mbx : MbxId) (irq : Bool) (req : List Byte) (s : State) : Outcome :=
  .next (mbxGo s mbx irq 0x0021 (reqBytes req) [] 0)
def execLoadGranules (mbx : MbxId) (irq : Bool) (req : List Byte) (s : State) : Outcome :=
  .next (mbxGo s mbx irq 0x0022 (reqBytes req) [] 0)
def execQueueCreate (mbx : MbxId) (irq : Bool) (req : List Byte) (s : State) : Outcome :=
  .next (mbxGo s mbx irq 0x0030 (reqBytes req) [] 0)
def execQueueModify (mbx : MbxId) (irq : Bool) (req : List Byte) (s : State) : Outcome :=
  .next (mbxGo s mbx irq 0x0031 (reqBytes req) [] 0)
def execQueueReset (mbx : MbxId) (irq : Bool) (req : List Byte) (s : State) : Outcome :=
  .next (mbxGo s mbx irq 0x0032 (reqBytes req) [] 0)
def execQueueDelete (mbx : MbxId) (irq : Bool) (req : List Byte) (s : State) : Outcome :=
  .next (mbxGo s mbx irq 0x0033 (reqBytes req) [] 0)
def execQueueQuery (mbx : MbxId) (irq : Bool) (req : List Byte) (s : State) : Outcome :=
  .next (mbxGo s mbx irq 0x0034 (reqBytes req) [] 0)
def execScrub (mbx : MbxId) (irq : Bool) (req : List Byte) (s : State) : Outcome :=
  .next (mbxGo s mbx irq 0x0040 (reqBytes req) [] 0)
def execComputeReset (mbx : MbxId) (irq : Bool) (req : List Byte) (s : State) : Outcome :=
  .next (mbxGo s mbx irq 0x0050 (reqBytes req) [] 0)
def execTowerReset (mbx : MbxId) (irq : Bool) (req : List Byte) (s : State) : Outcome :=
  .next (mbxGo s mbx irq 0x0051 (reqBytes req) [] 0)
def execModuleReset (mbx : MbxId) (irq : Bool) (req : List Byte) (s : State) : Outcome :=
  .next (mbxGo s mbx irq 0x0052 (reqBytes req) [] 0)
/-- POWER_STATE with state byte 0; `rest`: the bytes that follow it. -/
def execPowerStateRun (mbx : MbxId) (irq : Bool) (rest : List Byte) (s : State) : Outcome :=
  .next (mbxGo s mbx irq 0x0053 (0 :: reqBytes rest) [] 0)
/-- POWER_STATE with state byte 1. -/
def execPowerStateDi (mbx : MbxId) (irq : Bool) (rest : List Byte) (s : State) : Outcome :=
  .next (mbxGo s mbx irq 0x0053 (1 :: reqBytes rest) [] 0)
/-- POWER_STATE with state byte 2. -/
def execPowerStateSb (mbx : MbxId) (irq : Bool) (rest : List Byte) (s : State) : Outcome :=
  .next (mbxGo s mbx irq 0x0053 (2 :: reqBytes rest) [] 0)
/-- `plan`: the plan that PWR makes at the acceptance (R420, R422). -/
def execPowerTarget (mbx : MbxId) (irq : Bool) (req : List Byte) (plan : List (List Nat)) (s : State) : Outcome :=
  .next (mbxGo s mbx irq 0x0060 (reqBytes req) plan 0)
def execPowerQuery (mbx : MbxId) (irq : Bool) (req : List Byte) (s : State) : Outcome :=
  .next (mbxGo s mbx irq 0x0061 (reqBytes req) [] 0)
def execLicenceInstall (mbx : MbxId) (irq : Bool) (req : List Byte) (s : State) : Outcome :=
  .next (mbxGo s mbx irq 0x0070 (reqBytes req) [] 0)
def execLicenceList (mbx : MbxId) (irq : Bool) (req : List Byte) (s : State) : Outcome :=
  .next (mbxGo s mbx irq 0x0071 (reqBytes req) [] 0)
def execAttest (mbx : MbxId) (irq : Bool) (req : List Byte) (s : State) : Outcome :=
  .next (mbxGo s mbx irq 0x0072 (reqBytes req) [] 0)
def execDumpRead (mbx : MbxId) (irq : Bool) (req : List Byte) (s : State) : Outcome :=
  .next (mbxGo s mbx irq 0x0080 (reqBytes req) [] 0)
def execDumpClear (mbx : MbxId) (irq : Bool) (req : List Byte) (s : State) : Outcome :=
  .next (mbxGo s mbx irq 0x0081 (reqBytes req) [] 0)
def execProcRestart (mbx : MbxId) (irq : Bool) (req : List Byte) (s : State) : Outcome :=
  .next (mbxGo s mbx irq 0x0082 (reqBytes req) [] 0)
def execUpdateBegin (mbx : MbxId) (irq : Bool) (req : List Byte) (s : State) : Outcome :=
  .next (mbxGo s mbx irq 0x00A0 (reqBytes req) [] 0)
def execUpdateWrite (mbx : MbxId) (irq : Bool) (req : List Byte) (s : State) : Outcome :=
  .next (mbxGo s mbx irq 0x00A1 (reqBytes req) [] 0)
def execUpdateVerify (mbx : MbxId) (irq : Bool) (req : List Byte) (s : State) : Outcome :=
  .next (mbxGo s mbx irq 0x00A2 (reqBytes req) [] 0)
def execUpdateActivate (mbx : MbxId) (irq : Bool) (req : List Byte) (s : State) : Outcome :=
  .next (mbxGo s mbx irq 0x00A3 (reqBytes req) [] 0)
def execUpdateAbort (mbx : MbxId) (irq : Bool) (req : List Byte) (s : State) : Outcome :=
  .next (mbxGo s mbx irq 0x00A4 (reqBytes req) [] 0)

end Sys2Proof.Machine
end

