-- ==== Sys2Proof/Machine/FwEvent.lean ====
section
/-! DEFINITION. Events of the firmware processors: watchdogs, restarts, bring-up, activations, the write window and jobs (R383 to
R390, R401, R403, R445, R502 to R507, R510). -/

namespace Sys2Proof.Machine

/-- Whether a processor's image or ROM runs and can take a counted restart. -/
def procAlive (s : State) (p : Nat) : Bool := s.clk.run && (pstate s p == pRUNNING || pstate s p == pSELFCHECK)

/-- WATCHDOG_TRIP (R383, R384). `detail` and `stack`: DETAIL and the stack's length in the dump. -/
def execWatchdogTrip (proc : ProcId) (detail : Word64) (stack : Nat) (s : State) : Outcome :=
  .next (if procAlive s proc then serveCalls (countedRestart s proc 1 detail.toNat stack) else s)

/-- CAUSE of a dump (R404). -/
def causeNum : RestartCause → Nat
  | .exception => 2
  | .sram => 3
  | .forced => 5

/-- PROC_RESTART_COUNTED (R384). -/
def execProcRestartCounted (proc : ProcId) (cause : RestartCause) (detail : Word64) (stack : Nat) (s : State) : Outcome :=
  .next (if procAlive s proc then serveCalls (countedRestart s proc (causeNum cause) detail.toNat stack) else s)

/-- Processors that must run before another starts (R502 steps 2 to 4). -/
def startsAfter (p : Nat) : List Nat :=
  if p = SEC then [] else if p = SUP then [SEC] else if p = PWRP then [SEC, SUP] else if p = MEMP then [SEC, SUP, PWRP]
  else if p = 5 then [SEC, SUP, PWRP, MEMP] else if p = 6 then [SEC, SUP, PWRP, MEMP, 5] else [SEC, SUP, PWRP, MEMP, 5, 6]

/-- A processor whose images both fail is held in its ROM; SEC then runs the recovery mode (R385, R503, R505). -/
def holdProc (s : State) (p : Nat) : State :=
  let s := setPstate s p pHELD
  let s := if p = SEC then { s with fw := { s.fw with recovery := true } } else s
  rasLog s (logEv 0x0702 (unitOf 9 p) (s.reg (rPstat p)).toNat)

/-- A processor starts its image: the slot chosen, else the other one, which is logged with a dump of CAUSE 7 (R503). -/
def chooseSlot (s : State) (p : Nat) (pass other : Bool) : Option State :=
  let sl := runSlot s p
  if pass then some s
  else if !other then none
  else
    let s := saveDump s p 7 0 0
    let s := s.setField (rPstat p) 3 3 (1 - sl)
    some (rasLog s (logEv 0x0701 (unitOf 9 p) (s.reg (rPstat p)).toNat))

/-- The fuse map's measurement at bring-up (R510). -/
def measureFuses (s : State) : State :=
  measure s 4 0xFF 0xFF (List.replicate 8 0) 0 ((List.range 64).map (fun i => (Config.fuseDigest i).toNat)) true

/-- PROC_RUNNING (R386, R401 step 6, R502 to R506): a processor that starts or restarts runs its image. `pass` and `other`: whether the
image of the slot to run, and of the other slot, verifies; `key`: whether SEC's identity key matches its fused hash (R505). -/
def execProcRunning (proc : ProcId) (pass other key : Bool) (s : State) : Outcome :=
  .next (let p := proc.val
    if !s.clk.run then s
    else if pstate s p = pSTARTING then
      (if !(startsAfter p).all (fun q => serves s q) then s
       else match chooseSlot s p pass other with
        | none => serveCalls (holdProc s p)
        | some s =>
          let s := measureImage s 1 p (runSlot s p)
          if p = SEC ∧ !key then serveCalls (holdProc (measureFuses s) p)
          else
            let s := if p = SEC then measureFuses s else s
            serveCalls (setPstate s p pRUNNING))
    else if pstate s p ≠ pRESTARTING then s
    else if s.fw.act.any (fun a => a.proc == p && !a.runs) then
      let n := newSlot s p
      let s := measureImage (s.setField (rPstat p) 3 3 n) 2 p n
      let s := { s with fw := { s.fw with act := s.fw.act.map (fun a => { a with runs := true }) } }
      let s := setPstate s p pSELFCHECK
      serveCalls (if p = PWRP then pwrReturns s else s)
    else match chooseSlot s p pass other with
      | none => serveCalls (holdProc s p)
      | some s =>
        let s := setPstate s p pRUNNING
        serveCalls (if p = PWRP then pwrReturns s else s))

/-- Writes the slot pointer of an activated processor (R401 step 8). -/
def commitSlot (s : State) (p : Nat) : State :=
  s.modProc p (fun x => { x with slot := 1 - x.slot, stage := 0, len := 0 })

/-- SELF_CHECK_PASSED (R401 steps 7 and 8): the job ends OK; outside the write window the pointer waits. -/
def execSelfCheckPassed (proc : ProcId) (s : State) : Outcome :=
  .next (let p := proc.val
    match s.fw.act with
    | none => s
    | some a =>
      if a.proc ≠ p ∨ ¬ a.runs ∨ pstate s p ≠ pSELFCHECK then s
      else
        let s := { s with fw := { s.fw with act := none } }
        let s := setPstate s p pRUNNING
        let s := if slotWindow s then commitSlot s p
          else (s.setField (rPstat p) 7 7 1).setField rWstat 4 4 1
        endJob s a.job mOK 0 [])

/-- ACTIVATION_FAILED (R403): no self-check within 5 s; the old slot restarts, with a dump of CAUSE 7. -/
def execActivationFailed (proc : ProcId) (s : State) : Outcome :=
  .next (let p := proc.val
    if s.fw.act.any (fun a => a.proc == p && a.runs) ∧ pstate s p = pSELFCHECK then
      let s := failAct (saveDump s p 7 0 0) p
      let s := restartProc s p (activeSlot s p)
      serveCalls (rasLog s (logEv 0x0701 (unitOf 9 p) (s.reg (rPstat p)).toNat))
    else s)

/-- Slot pointers that wait are written, with the activation record (R401). -/
def commitWaiting (s : State) : State :=
  (List.range 7).foldl (fun s p =>
    if s.regBit (rPstat p) 7 then (commitSlot s p).setField (rPstat p) 7 7 0 else s) s

/-- Repairs and log entries that wait are written to flash (R38, R467). -/
def writeHeld (s : State) : State :=
  { s with ecc := { s.ecc with repairs := s.ecc.repairs ++ s.ecc.held, held := [] },
           ras := { s.ras with flash := s.ras.flash ++ s.ras.waiting, waiting := [] } }

/-- WRITE_WINDOW_OPEN (R445): waiting writes of a resource proceed. Resource 1 has none (its commands answer WRITE_WINDOW); the fuses
that wait are those of the I/O die (R507). -/
def execWriteWindowOpen (resource : Fin 4) (s : State) : Outcome :=
  .next (let r := resource.val
    let isOpen := if r = 2 then windowOpen s 2 (govOf s 6) else s.regBit rWstat r
    if ¬ s.clk.run ∨ ¬ isOpen then s
    else
      let pend := s.regBit rWstat (4 + r)
      let s := s.setField rWstat (4 + r) (4 + r) 0
      if r = 0 then commitWaiting s
      else if r = 2 then (if pend then burnFloors s else s)
      else if r = 3 then writeHeld s
      else s)

/-! ## Jobs (R390) -/

/-- An internal failure of an erasure or a scrub (R392): the job ends FAILED and its processor saves a dump, as its firmware asks (R404). An
erasure leaves nothing staged, and free bytes in the slot (log 124). -/
def failJob (s : State) (j : Job) (detail : Nat) : State :=
  if j.op = 0x00A0 then
    let s := { s with fw := { s.fw with slots := tset none s.fw.slots (2 * j.arg + newSlot s j.arg) none } }
    endJob (saveDump (s.modProc j.arg (fun x => { x with stage := 0, len := 0 })) j.proc 4 detail 0) j.id mFAILED detail []
  else if j.op = 0x0040 then endJob (saveDump (endRun s false j.id (scrubReqOf j.req)).1 j.proc 4 detail 0) j.id mFAILED detail []
  else s

/-- JOB_END: a job whose work is done. An erasure leaves the slot staged; a scrub that has read its range answers its summary. `failed`: the
processor fails instead, with `detail`. Resets, states and activations end with their own events. -/
def execJobEnd (job : Word) (failed : Bool) (detail : Word) (s : State) : Outcome :=
  .next (match s.job job.toNat with
    | none => s
    | some j =>
      if j.ended.isSome ∨ ¬ serves s j.proc then s
      else if failed then failJob s j detail.toNat
      else if j.op = 0x00A0 then
        let s := { s with fw := { s.fw with slots := tset none s.fw.slots (2 * j.arg + newSlot s j.arg) (some []) } }
        endJob (s.modProc j.arg (fun x => { x with stage := 2, len := 0 })) j.id mOK 0 []
      else if j.op = 0x0040 then
        if (scrubRun s false j.id).any (fun r => !r.atEnd) then s
        else
          let (s, b) := endRun s false j.id (scrubReqOf j.req)
          endJob s j.id mOK 0 b
      else s)

/-- JOB_EXPIRY: an ended job is discarded 10 s after its end. -/
def execJobExpiry (job : Word) (s : State) : Outcome :=
  .next (match s.job job.toNat with
    | none => s
    | some j => match j.ended with
      | none => s
      | some t =>
        if s.clk.tick < t + tenSeconds then s
        else { s with fw := { s.fw with jobs := s.fw.jobs.filter (fun x => x.id != j.id) } })

end Sys2Proof.Machine
end

