-- ==== Sys2Proof/Machine/LupLink.lean ====
section
/-! DEFINITION. Lupin links and the domain: training, lanes, link-down, routes, epochs and failover (R477 to R486, R493 to R495). -/

namespace Sys2Proof.Machine

def oLupDstat : Nat := 0x02010100

/-- A Lupin log entry: UNIT kind 11 and the link, LUP_LSTAT in DETAIL (R495). -/
def lupLog (s : State) (code sev l : Nat) : State :=
  rasLog s { logEv code (unitOf 11 l) (s.reg (rLstat l)).toNat with sev := sev }

def isLead (s : State) : Bool := s.regBit oLupDstat 6
def allLinks : List Nat := (List.range 8).map (· + 1)

/-- The links over which management traffic can go. -/
def liveLinks (s : State) : List Nat := allLinks.filter (fun l => linkState s l == 2 || linkState s l == 3)

/-! ## Routes and epochs (R484 to R488) -/

def reachOff (m : Nat) : Nat := if m < 32 then 0x02010104 else 0x02010108

/-- LUP_REACH of one module (R488); a member that stops being task-reachable is logged. -/
def reachStep (s : State) (m : Nat) : State :=
  let (l, h) := routeTo s m
  let on := m == s.modId || (s.lup.members.contains m && l != 0 && decide (h ≤ 8))
  let was := s.regBit (reachOff m) (m % 32)
  let s := s.setField (reachOff m) (m % 32) (m % 32) (if on then 1 else 0)
  if was ∧ ¬ on then lupLog s 0x06F4 2 (tget (0, 0xF) s.lup.old m).1 else s

def refreshReach (s : State) : State := (List.range 64).foldl reachStep s

/-- Sends again, under the current epoch and routes, what a link still holds; of a quarantined one, its task traffic, while the frames
already sent stay in its retry buffer (R481, R486 step 4). -/
def reroute (s : State) (l : Nat) : State :=
  let k := s.link l
  let stays := fun (m : LMsg) => linkState s l == 3 && isMgmt m.typ
  let ms := (k.retry.map (·.2) ++ k.txq).filter (fun m => !stays m)
  let s := s.modLink l (fun k =>
    if linkState s l = 3 then { k with txq := k.txq.filter stays } else { k with retry := [], txq := [], used := [] })
  ms.foldl (fun s m => sendMsg s { m with epoch := s.lup.epoch }) s

/-- Routes as a table: destination, outgoing link, hops. -/
def routeTab (t : List (Nat × Nat × Nat)) : Tab (Nat × Nat) := t.foldl (fun r p => tset (0, 0xF) r p.1 p.2) []

/-- A new epoch begins with a table of routes, and its failover tables are still to come (R486). -/
def newEpoch (s : State) (routes : Tab (Nat × Nat)) : State :=
  let routes := tset (0, 0xF) routes s.modId (0, 0)
  let s := { s with lup := { s.lup with old := s.lup.routes, routes := routes, epoch := !s.lup.epoch } }
  let s := (s.setField oLupDstat 15 15 (if s.lup.epoch then 1 else 0)).setField oLupDstat 16 16 0
  let s := refreshReach (lupLog s 0x06F3 0 0)
  (allLinks.filter (fun l => linkState s l != 2)).foldl reroute s

/-- Admission into a domain: members, FORMED and MEMBERS (R483, R484). The lead's routes know the failures so far. -/
def setMembers (s : State) (ms : List Nat) : State :=
  let s := { s with lup := { s.lup with members := ms, failed := [] } }
  (s.setField oLupDstat 14 8 ms.length).setField oLupDstat 7 7 1

/-- Puts a message on a named link. -/
def sendOn (s : State) (l : Nat) (m : LMsg) : State := pumpLink (s.modLink l (fun k => { k with txq := k.txq ++ [m] })) l

/-- Floods a LINKDOWN notice on every live link but one (R486 step 2). -/
def flood (s : State) (module link but : Nat) : State :=
  ((liveLinks s).filter (· != but)).foldl (fun s l =>
    let peer := s.regField (rLstat l) 13 8
    let (tag, s) := takeTag s peer
    sendOn s l (newMsg s tMGMT 15 0 peer tag 0 (.linkDown module link))) s

/-- Whether two keys (16 · module + link) name one link: each end has its name for it, and the lead's tables without it are the same
(DESIGN CHOICE, log 119). -/
def sameLink (s : State) (a b : Nat) : Bool :=
  a == b || (tget [] s.lup.failover a != [] && tget [] s.lup.failover a == tget [] s.lup.failover b)

/-- Whether the failure of a link is already taken. -/
def knownFailure (s : State) (key : Nat) : Bool := s.lup.failed.any (fun p => sameLink s p.1 key)

/-- A link's failure is taken (R486): the module switches to the failover table of the link; without FAILOVER_READY the switch waits for
the lead's tables. -/
def failTo (s : State) (key : Nat) : State :=
  if knownFailure s key then s
  else
    let ready := s.regBit oLupDstat 16
    let s := { s with lup := { s.lup with failed := s.lup.failed ++ [(key, ready)] } }
    if ready then newEpoch s (tget [] s.lup.failover key) else s

/-- Every member holds the lead's tables: FAILOVER_READY, and the failures that waited for them are taken (R486, R494). -/
def tablesReady (s : State) : State :=
  let waiting := ((s.lup.failed.filter (fun p => !p.2)).map (·.1)).filter (fun key => tget [] s.lup.failover key != [])
  waiting.foldl failTo (({ s with lup := { s.lup with failed := [] } }).setField oLupDstat 16 16 1)

/-- Routing stops using a link, and the domain hears of it. -/
def dropFromRoutes (s : State) (l : Nat) : State := failTo (flood s s.modId l l) (16 * s.modId + l)

/-! ## Links (R477 to R481, R493, R494) -/

def lanesUp (s : State) (l : Nat) : Nat := ((List.range 4).filter (fun n => s.regBit (rLstat l) (4 + n))).length

/-- A link goes down, into a state: its lanes and credits are gone. -/
def lowerLink (s : State) (l st sev : Nat) : State :=
  let was := linkState s l
  let s := ((s.setField (rLstat l) 2 0 st).setField (rLstat l) 7 4 0).setField (rLstat l) 15 15 0
  let s := s.modLink l (fun k => { k with used := [], owed := [], naking := false, nakRun := 0 })
  if was = 2 ∨ was = 3 then
    let s := lupLog s 0x06F1 sev l
    if was = 2 then dropFromRoutes s l else s
  else s

/-- More than 16 malformed flits in 1 ms: the link carries management only (R462, R481). -/
def quarantine (s : State) (l : Nat) : State :=
  if linkState s l ≠ 2 then s
  else dropFromRoutes (rasLog (s.setField (rLstat l) 2 0 3) (logEv 0x0609 (unitOf 11 l) (s.reg (rLstat l)).toNat)) l

/-- A write of RETRAIN (R481): the link trains again, quarantine and the malformed count end. -/
def retrainLink (s : State) (l : Nat) : State :=
  if linkState s l = 4 ∨ linkState s l = 5 then s
  else
    let s := (lowerLink s l 1 1).setField (rLerr l) 31 16 0
    s.modLink l (fun k => { k with malMs := ⟨0, 0⟩ })

/-- LUP_LCTL.DISABLE takes a value (R494): 1 holds the link down. -/
def disableLink (s : State) (l v : Nat) : State :=
  let s := s.setField (rLctl l) 0 0 v
  if linkState s l = 4 then s
  else if v = 1 then lowerLink s l 5 1
  else if linkState s l = 5 then s.setField (rLstat l) 2 0 0 else s

/-- LINK_TRAINING (R477, R478, R482): steps 1 to 3 of a licensed link that is not disabled. `lanes`: those that locked; `slow`: at
106.25 Gb/s; an FA-2200 always runs at it. A partner with this module's own ID is kept out. -/
def execLinkTraining (link : Fin 8) (peer : Fin 64) (fa : Bool) (lanes : Fin 16) (slow : Bool) (s : State) : Outcome :=
  .next (let l := link.val + 1
    let up := ((List.range 4).filter (fun n => nbit lanes n)).length
    if ¬ s.clk.run ∨ s.md.off ∨ procDown s 3 ∨ s.regBit (rLctl l) 0 ∨ ¬ (linkState s l = 0 ∨ linkState s l = 1) then s
    else if up < 3 then s.setField (rLstat l) 2 0 0
    else if peer.val = s.modId then lupLog (s.setField (rLstat l) 2 0 0) 0x06F6 2 l
    else
      let s := s.setReg (rLstat l) (BitVec.ofNat 32
        (1 + (if fa ∨ slow then 8 else 0) + 16 * lanes.val + 256 * peer.val + (if fa then 2 ^ 14 else 0)))
      let s := s.setField (rLerr l) 31 16 0
      s.modLink l (fun k => { LLink.fresh with txq := k.retry.map (·.2) ++ k.txq }))

/-- Members that the lead admits: ascending IDs, at most 16 without the domain licence (R483). -/
def admitted (s : State) (present : List Nat) : List Nat × List Nat :=
  let ms := (List.range 64).filter (fun m => m == s.modId || present.contains m)
  let n := if nbit (licFeatures s) 3 then 64 else 16
  (ms.take n, ms.drop n)

/-- LUPIN_LINK_UP (R477 step 4, R483 to R486): a trained link is up; the lead admits it into the next epoch. `present`: the modules
whose links have trained; `tables`: the routes of R485 that the lead computes for each. -/
def execLupinLinkUp (link : Fin 8) (present : List (Fin 64)) (tables : List (Fin 64 × List (Fin 64 × Fin 9 × Fin 16))) (s : State) :
    Outcome :=
  .next (let l := link.val + 1
    if linkState s l ≠ 1 ∨ lanesUp s l < 3 then s
    else
      let s := pumpLink (lupLog (s.setField (rLstat l) 2 0 2) 0x06F2 0 l) l
      if !isLead s then s
      else
        let (ms, out) := admitted s (present.map (·.val))
        let s := out.foldl (fun s _ => lupLog s 0x06F7 1 l) s
        let tab := fun (m : Nat) => (tables.filter (fun t => t.1.val == m)).flatMap (fun t =>
          t.2.map (fun r => (r.1.val, r.2.1.val, r.2.2.val)))
        let s := setMembers (newEpoch s (routeTab (tab s.modId))) ms
        (ms.filter (· != s.modId)).foldl (fun s m =>
          let (tag, s) := takeTag s m
          sendMsg s (newMsg s tMGMT 15 0 m tag 0 (.routes s.lup.epoch (tab m) ms))) s)

/-- LUPIN_LANE_LOST (R479): a lane leaves; the loss of a second one takes the link down. -/
def execLupinLaneLost (link : Fin 8) (lane : Fin 4) (s : State) : Outcome :=
  .next (let l := link.val + 1
    if ¬ (linkState s l = 2 ∨ linkState s l = 3) ∨ ¬ s.regBit (rLstat l) (4 + lane) then s
    else if lanesUp s l = 4 then lupLog (s.setField (rLstat l) (4 + lane) (4 + lane) 0) 0x06F0 1 l
    else lowerLink s l 0 1)

/-- LUPIN_LINK_DOWN (R479, R486, R493). `absent`: the partner is absent, or resets. -/
def execLupinLinkDown (link : Fin 8) (absent : Bool) (s : State) : Outcome :=
  .next (let l := link.val + 1
    if linkState s l = 1 ∨ linkState s l = 2 ∨ linkState s l = 3 then lowerLink s l 0 (if absent then 0 else 1) else s)

/-- A LINKDOWN notice (R486 steps 2 and 3): the first of a failure is taken and goes on. -/
def takeNotice (s : State) (l module link : Nat) : State :=
  if knownFailure s (16 * module + link) then s else failTo (flood s module link l) (16 * module + link)

/-- LINKDOWN_NOTICE. -/
def execLinkdownNotice (link : Fin 8) (module : Fin 64) (failed : Fin 9) (s : State) : Outcome :=
  .next (if (liveLinks s).contains (link.val + 1) then takeNotice s (link.val + 1) module failed else s)

/-- Stores one failover table (R486). -/
def storeFailover (s : State) (key : Nat) (t : List (Nat × Nat × Nat)) : State :=
  { s with lup := { s.lup with failover := tset [] s.lup.failover key (routeTab t) } }

/-- FAILOVER_TABLES (R486 step 5): the lead's next tables, by link (16 · module + link) and member. -/
def execFailoverTables (tables : List (Fin 1024 × Fin 64 × List (Fin 64 × Fin 9 × Fin 16))) (s : State) : Outcome :=
  .next (if !isLead s then s
    else
      let s := tables.foldl (fun s t =>
        let tab := t.2.2.map (fun r => (r.1.val, r.2.1.val, r.2.2.val))
        if t.2.1.val = s.modId then storeFailover s t.1 tab
        else
          let (tag, s) := takeTag s t.2.1
          sendMsg s (newMsg s tMGMT 15 0 t.2.1 tag 0 (.failover t.1 tab))) s
      let s := (s.lup.members.filter (· != s.modId)).foldl (fun s m =>
        let (tag, s) := takeTag s m
        sendMsg s (newMsg s tMGMT 15 0 m tag 0 (.failover 0 []))) s
      tablesReady s)

end Sys2Proof.Machine
end

