-- ==== Sys2Proof/Machine/Pmc.lean ====
section
/-! DEFINITION. Counter registers, the dump ring, sampling and derived bandwidth (R518, R522, R523, R526 to R530). -/

namespace Sys2Proof.Machine


/-! ## Counter pairs (R517, R518) -/

/-- Whether an offset of the counter space holds half of a counter pair; a task counter or a class total is read-only. -/
def pairAt (off : Nat) : Option (Nat × Bool) :=
  let at_ := fun (base stride count top : Nat) => decide (base ≤ off ∧ off < base + stride * count ∧ (off - base) % stride < top)
  let p := (off - oPmc) / 8
  if off % 4 ≠ 0 then none
  else if at_ 0x01000400 64 16 48 then some (p, true)
  else if at_ 0x01010000 0x100 576 0x60 then some (p, false)
  else if at_ 0x010100C0 0x100 576 0x30 then some (p, true)
  else if at_ 0x01034000 0x100 4 0x80 ∨ at_ 0x01038000 0x80 64 0x40 ∨ at_ 0x01040000 0x40 4234 0x20 then some (p, false)
  else none

/-- Value of a pair: a task counter lies with its core (R525). -/
def pairValue (s : State) (p : Nat) : Nat :=
  if 0x2000 ≤ p ∧ p < 0x6800 ∧ 0x18 ≤ (p - 0x2000) % 0x20 then tget 0 (s.core ((p - 0x2000) / 0x20)).tcnt ((p - 0x2000) % 0x20 - 0x18)
  else s.count p

/-- Sets a counter; what the task of its core sees does not change (R524). -/
def writeCounter (s : State) (p v : Nat) : State :=
  let c := (p - 0x2000) / 0x20
  let n := (p - 0x2000) % 0x20
  let old := s.count p
  let s := s.setCount p v
  if 0x2000 ≤ p ∧ p < 0x6800 then
    s.modCore c (fun k => if k.task.isNone then k else { k with base := tset 0 k.base n ((tget 0 k.base n + v + 2 ^ 48 - old) % 2 ^ 48) })
  else s

/-- A write to a half of a counter pair: HI is held, LO applies both (R518). -/
def writeCounterHalf (s : State) (off v : Nat) : State :=
  match pairAt off with
  | none => s
  | some (p, ro) =>
    if ro then s
    else if off % 8 = 4 then { s with pmc := { s.pmc with hold := tset none s.pmc.hold p (some (v % 2 ^ 16)) } }
    else
      let hi := (tget none s.pmc.hold p).getD (pairValue s p / 2 ^ 32)
      writeCounter { s with pmc := { s.pmc with hold := tset none s.pmc.hold p none } } p (hi * 2 ^ 32 + v % 2 ^ 32)

/-- Key of an interface's latch of a pair. -/
def latchKey (iface p : Nat) : Nat := 4 * p + iface

/-- HI as an interface reads it: as latched by its last read of LO, or as it stands before any (DEDUCED, log 32). -/
def readHi (s : State) (iface p : Nat) : Nat :=
  match tget 0 s.host.latchPmc (latchKey iface p) with
  | 0 => pairValue s p / 2 ^ 32
  | n + 1 => n

def readLo (s : State) (iface p : Nat) : State :=
  { s with host := { s.host with latchPmc := tset 0 s.host.latchPmc (latchKey iface p) (pairValue s p / 2 ^ 32 + 1) } }

/-- PMC_COUNTER_HI_WRITE (R518). -/
def execPmcCounterHiWrite (off : Nat) (value : Word) (s : State) : Outcome :=
  .next (if off % 8 = 4 then writeCounterHalf s off value.toNat else s)

/-- PMC_COUNTER_LO_WRITE (R518). -/
def execPmcCounterLoWrite (off : Nat) (value : Word) (s : State) : Outcome :=
  .next (if off % 8 = 0 then writeCounterHalf s off value.toNat else s)

/-- PMC_COUNTER_LO_READ (R518). `occs`: what happened since the last such report (log 32). -/
def execPmcCounterLoRead (iface : Iface) (off : Nat) (occs : List PmcOcc) (s : State) : Outcome :=
  .next (let s := takeOccs s occs
    match pairAt off with
    | none => s.emit (.answer [0, 0, 0, 0] false)
    | some (p, _) => (readLo s iface p).emit (.answer (natLe 4 (pairValue s p)) false))

/-! ## Freezing (R523) -/

/-- FREEZE (R523): PMC_GCTL.FREEZE stops or restarts every group; what happened before it is counted. -/
def execFreeze (on : Bool) (occs : List PmcOcc) (s : State) : Outcome :=
  .next ((takeOccs s occs).setField oPmc 2 2 (if on then 1 else 0))

/-! ## The dump ring (R526, R527) -/

def oDumpcfg : Nat := 0x01000004
def oRingcfg : Nat := 0x01000008
def oRinghead : Nat := 0x0100000C
def oRingtail : Nat := 0x01000010
def oRingstat : Nat := 0x01000014
def oBwwin : Nat := 0x01000018
def ringBase : Nat := 0x004010000000

/-- Size of the ring. LOG2SIZE outside 16 to 30 stands for a size that the manual does not give (log 33). -/
def ringSize (s : State) : Nat :=
  let n := s.regField oRingcfg 4 0
  if 16 ≤ n ∧ n ≤ 30 then 2 ^ n else 2 ^ (16 + (Config.freeByte n).toNat % 15)

/-- PMC_RINGCFG write: dropped and counted while DUMP_EN is set (R530), else head, tail and SEQ become 0. -/
def writeRingcfg (s : State) (iface v : Nat) : State :=
  if s.regBit oDumpcfg 28 then accessViolation s iface oRingcfg v
  else
    let s := ((s.setField oRingcfg 4 0 v).setField oRinghead 29 0 0).setField oRingtail 29 0 0
    { s with pmc := { s.pmc with seq := 0 } }

/-- PMC_RINGCFG_WRITE. -/
def execPmcRingcfgWrite (iface : Iface) (value : Word) (s : State) : Outcome := .next (writeRingcfg s iface value.toNat)

/-- A record header: TYPE, KIND, INDEX, SEQ, TICK, LEN, EN, QUEUE, TAG. -/
def recHeader (typ kind index seq tick len en queue tag : Nat) : List Nat :=
  [typ, kind] ++ natLe 2 index ++ natLe 4 seq ++ natLe 8 tick ++ natLe 2 len ++ natLe 2 en ++ natLe 4 queue ++ natLe 8 tag

/-- Where the next record of `len` bytes would begin, from offset `h`: after a pad when it would wrap. -/
def recStart (s : State) (h len : Nat) : Nat := if h + len ≤ ringSize s then h else 0

/-- Puts one record at the head, and a pad before it when it would wrap (R527). -/
def putRec (s : State) (len : Nat) (bytes : Nat → List Nat) : State :=
  let h := s.regField oRinghead 29 0
  let next := fun (s : State) => { s with pmc := { s.pmc with seq := (s.pmc.seq + 1) % 2 ^ 32 } }
  let s := if h + len ≤ ringSize s then s
    else next (homeWrite s (ringBase + h) (recHeader 0 0 0 s.pmc.seq s.clk.tick (ringSize s - h) 0 0 0))
  let a := recStart s h len
  let s := next (homeWrite s (ringBase + a) (bytes s.pmc.seq))
  s.setField oRinghead 29 0 ((a + len) % ringSize s)

/-- Bytes of the ring that records of the given lengths would take from offset `h`. -/
def recRoom (s : State) (h : Nat) : List Nat → Nat
  | [] => 0
  | len :: ls => (if h + len ≤ ringSize s then len else ringSize s - h + len) + recRoom s ((recStart s h len + len) % ringSize s) ls

def noLost (s : State) : State := { s with pmc := { s.pmc with lost := 0 } }

/-- Writes a record, after a gap record when some were dropped; one that would reach the tail is dropped and counted (R526, DEDUCED,
log 33). -/
def writeRec (s : State) (len : Nat) (bytes : Nat → List Nat) : State :=
  let h := s.regField oRinghead 29 0
  let t := s.regField oRingtail 29 0
  let used := (h + ringSize s - t % ringSize s) % ringSize s
  let need := recRoom s h (if s.pmc.lost = 0 then [len] else [32, len])
  if ringSize s ≤ used + need then
    { s.setField oRingstat 15 0 (satAdd 0xFFFF (s.regField oRingstat 15 0) 1) with pmc := { s.pmc with lost := s.pmc.lost + 1 } }
  else
    let s := if s.pmc.lost = 0 then s
      else noLost (putRec s 32 (fun q => recHeader 3 0 0 q s.clk.tick 32 0 (min s.pmc.lost 0xFFFFFFFF) 0))
    putRec s len bytes

/-! ## Snapshots (R528) -/

/-- Number of counters in a group of a kind. -/
def groupSize (kind : Nat) : Nat := if kind = 0 then 12 else if kind = 1 then 8 else if kind = 2 then 16 else 4

def pairOf (kind i n : Nat) : Nat :=
  if kind = 0 then pairCore i n else if kind = 1 then pairCluster i n else if kind = 2 then pairHalf i n else pairPort i n

/-- EN of a snapshot: the counters enabled; fixed ones with PMC_GCTL.ENABLE, a port's with PMC_PSEL. -/
def groupEn (s : State) (kind i : Nat) : Nat :=
  ((List.range (groupSize kind)).map (fun n =>
    let on : Bool := if kind = 3 then s.regBit (0x01040028 + 0x40 * i) 14
      else if kind = 0 then (if n < 4 then s.regBit oPmc 0 else s.regBit (selAt 0 i (n - 4)) 14)
      else s.regBit (selAt kind i n) 14
    if on then 2 ^ n else 0)).sum

/-- Queue and tag of a core's task for a record. -/
def recTask (s : State) (kind i : Nat) : Nat × Nat :=
  if kind ≠ 0 then (0, 0)
  else match coreTask s i with
    | some t => (t.queue, t.tag)
    | none => (0xFFFFFFFF, 0)

/-- The snapshot record of a group. -/
def snapshot (s : State) (kind i : Nat) (seq : Nat) : List Nat :=
  let vals := (List.range (groupSize kind)).flatMap (fun n => natLe 8 (s.count (pairOf kind i n)))
  let tail := if kind = 0 then (List.range 6).flatMap (fun k => natLe 8 (tget 0 (s.core i).tcnt k)) ++ List.replicate 16 0 else []
  let (q, t) := recTask s kind i
  recHeader 1 kind i seq s.clk.tick (32 + vals.length + tail.length) (groupEn s kind i) q t ++ vals ++ tail

def snapLen (kind : Nat) : Nat := if kind = 0 then 192 else if kind = 1 then 96 else if kind = 2 then 160 else 64

/-- The tower of a port; none for those of the I/O die and the tower bridge (R517). -/
def portTower (q : Nat) : Option Nat := if q < 128 then some (q / 64) else if q < 4224 then some ((q - 128) / 2048) else none

/-- Whether a group's unit has power and runs; an idle core is latched only when it is enabled (R523, R528). -/
def groupOn (s : State) (kind i : Nat) : Bool :=
  let cl := fun (c : Nat) => clusterRuns s c && !s.pwr.light.contains c
  let tw := fun (t : Nat) => !s.towersDown.contains t && s.pwr.state == 0
  if kind = 0 then cl (clusterOf i) && ((s.core i).task.isSome || (logicalOf s i).isSome)
  else if kind = 1 then cl i
  else if kind = 2 then tw (i / 2)
  else (portTower i).all tw

/-- The groups that PMC_DUMPCFG.KINDS names. -/
def dumpGroups (s : State) : List (Nat × Nat) :=
  let k := fun (b : Nat) (l : List (Nat × Nat)) => if s.regBit oDumpcfg b then l else []
  let ports := fun (a n : Nat) => (List.range n).map (fun i => (3, a + i))
  k 20 ((List.range 576).map (fun i => (0, i))) ++ k 21 ((List.range 64).map (fun i => (1, i))) ++
  k 22 ((List.range 4).map (fun i => (2, i))) ++ k 23 (ports 0 128) ++ k 24 (ports 128 4096) ++ k 25 (ports 4224 2) ++
  k 26 (ports 4226 8)

/-- DUMP_INTERVAL (R528): every selected group is latched and written; `late`: groups whose last snapshot is still unwritten, which
skip. `occs`: what happened since the last report. -/
def execDumpInterval (occs : List PmcOcc) (late : List (Fin 4 × Nat)) (s : State) : Outcome :=
  .next (let s := takeOccs s occs
    if !s.regBit oDumpcfg 28 then s
    else
      let gs := (dumpGroups s).filter (fun g => groupOn s g.1 g.2)
      let skip := fun (g : Nat × Nat) => late.any (fun l => l.1.val == g.1 && l.2 == g.2)
      let n := (gs.filter skip).length
      let s := s.setField oRingstat 31 16 (satAdd 0xFFFF (s.regField oRingstat 31 16) n)
      let s0 := s
      let s := (gs.filter (fun g => !skip g)).foldl (fun s g => writeRec s (snapLen g.1) (snapshot s0 g.1 g.2)) s
      if s.regBit oDumpcfg 27 then sendMsix s 3 else s)

/-! ## Sampling (R529) -/

/-- The sample record of a core counter. -/
def sampleRec (s : State) (c n group pc skid seq : Nat) : List Nat :=
  let (q, t) := recTask s 0 c
  recHeader 2 0 c seq s.clk.tick 64 0 q t ++ natLe 4 pc ++ natLe 2 (grp (s.core c) group).launch ++ [n, skid] ++
    natLe 2 (s.core c).rank ++ List.replicate 22 0

/-- COUNTER_WRAP (R529): counter `4 + m` of a core with OVF_INT has wrapped. `pc`: that of the sampled group's `skid`-th issue after
the wrap, none when the task ended first; `spaced`: 1,024 handshakes have passed since the core's last sample. A counter
that the model has not seen wrap moves on to 0 (log 32). -/
def execCounterWrap (core : CoreId) (m : Fin 8) (group : Fin 16) (pc : Option Word) (skid : Fin 9) (spaced : Bool) (s : State) :
    Outcome :=
  .next (let sel := selAt 0 core m
    if ¬ (s.regBit sel 13 ∧ s.regBit sel 14 ∧ counting s) then s
    else
      let s := if s.pmc.wraps.contains (core.val, 4 + m.val) then
          { s with pmc := { s.pmc with wraps := s.pmc.wraps.filter (· != (core.val, 4 + m.val)) } }
        else s.setCount (pairCore core (4 + m)) 0
      if !spaced then s.setField oPmc 31 16 (satAdd 0xFFFF (s.regField oPmc 31 16) 1)
      else
        let pcv := match pc with
          | some w => w.toNat
          | none => 0xFFFFFFFF
        let s := writeRec s 64 (sampleRec s core (4 + m.val) group pcv skid)
        if s.regBit oDumpcfg 27 then sendMsix s 3 else s)

/-! ## Derived bandwidth (R522) -/

/-- Ports whose figures can change at a window end. -/
def busyPorts (s : State) : List Nat :=
  let inP := fun (p : Nat) => if 0x8000 ≤ p then some ((p - 0x8000) / 8) else none
  let inR := fun (o : Nat) => if 0x01040000 ≤ o ∧ o < 0x02000000 then some ((o - 0x01040000) / 0x40) else none
  (s.pmc.cnt.filterMap (fun p => inP p.1) ++ s.pmc.win.filterMap (fun p => inP p.1) ++ s.regs.filterMap (fun p => inR p.1)).eraseDups

/-- Whether a port has run throughout the window (R522, R530). -/
def portRan (s : State) (q : Nat) : Bool := groupOn s 3 q && !(portTower q).any (fun t => s.pmc.off.contains t)

/-- One direction of a port at the end of a window of `w` µs. -/
def portWindow (w q d : Nat) (s : State) : State :=
  let p := pairPort q d
  let gain := (s.count p + 2 ^ 48 - tget 0 s.pmc.win p) % 2 ^ 48
  let s := s.setField (0x01040020 + 0x40 * q + 4 * d) 31 0 (if portRan s q then min 0xFFFFFFFF (gain / w) else 0)
  { s with pmc := { s.pmc with win := tset 0 s.pmc.win p (s.count p) } }

/-- BANDWIDTH_WINDOW_END (R522): at a multiple of WINDOW_US × 100 ticks, every port latches the bytes of the window. -/
def execBandwidthWindowEnd (occs : List PmcOcc) (s : State) : Outcome :=
  .next (let s := takeOccs s occs
    let w := s.regField oBwwin 19 0
    if w = 0 ∨ ¬ s.clk.run ∨ s.clk.tick % (100 * w) ≠ 0 then s
    else
      let s := (busyPorts s).foldl (fun s q => portWindow w q 1 (portWindow w q 0 s)) s
      { s with pmc := { s.pmc with off := s.towersDown } })

end Sys2Proof.Machine
end

