-- ==== Sys2Proof/Machine/Regs.lean ====
section
/-! DEFINITION. Reading and writing BAR0: access codes, locks, registers with behaviour of their own (R5 to R8, R63, R242, R257,
R297, R317, R322, R330, R363, R380, R388, R389, R395, R404, R432, R464, R481, R494, R548). -/

namespace Sys2Proof.Machine

/-! ## Reading (R322, R508) -/

/-- A little-endian word of a byte string. -/
def wordAt (b : List Nat) (o : Nat) : Nat := fieldLe b o 4

/-- The MSI-X table and pending bits (R331). -/
def msixWord (s : State) (o : Nat) : Nat :=
  let v := o / 16
  if o % 16 = 0 then tget 0 s.msix.addr v % 2 ^ 32
  else if o % 16 = 4 then tget 0 s.msix.addr v / 2 ^ 32
  else if o % 16 = 8 then tget 0 s.msix.data v
  else if s.msix.open_.contains v then 0 else 1

def pbaWord (s : State) (o : Nat) : Nat := ((List.range 32).map (fun i => if s.msix.pba.contains (8 * o + i) then 2 ^ i else 0)).sum

/-- Registers of class 15, which cannot be changed (chapter 14). -/
def class15 (off : Nat) : Option Nat :=
  if off = 0x002004F0 then some 16 else if off = 0x002004F4 then some (1024 + 2 ^ 11 * 1024)
  else if off = 0x002004F8 then some (256 + 2 ^ 9 * 256) else none

/-- Views of what other registers select. -/
def viewWord (s : State) (off : Nat) : Option Nat :=
  let t := (off - 0x02008000) / 0x1000
  if off = 0x02008010 ∨ off = 0x02009010 then
    let n := s.regField (off - 4) 13 0
    some (if n < 12288 then bstat s (bundleKey t (s.regField (off - 4) 14 14) n) else 0)
  else if off = 0x0200801C ∨ off = 0x0200901C then
    let c := s.regField (off - 4) 9 0
    some (if c / 288 = t ∧ c < 576 then gstat s c else 0)
  else if off = 0x00302004 then some (if s.regField 0x00302000 9 0 ≤ 527 then mondat s (s.regField 0x00302000 9 0) else 0)
  else if off = 0x00303004 then some (dstat s (s.regField 0x00303000 6 0))
  else if off = 0x00200014 then some (qstat s (s.regField 0x00200010 19 0))
  else if off = 0x02010110 then
    let r := routeTo s (s.regField 0x0201010C 5 0)
    some (r.1 + 16 * r.2)
  else class15 off

/-- The profile registers as an interface reads them: from its latch, or as they stand before its first read of PWR_PTICK_LO
(R432). Element 0 is PWR_PTICK_HI, 1 PWR_CF, then the points. -/
def profNow (s : State) : List Nat :=
  [s.pwr.profAt / 2 ^ 32, (s.reg oPwrCf).toNat] ++ (List.range 16).map (fun i => (s.reg (oProf i)).toNat)
def profWord (s : State) (iface i : Nat) : Nat :=
  let l := tget [] s.host.latchProf iface
  (if l = [] then profNow s else l).getD i 0

/-- The word at a BAR0 offset, as an interface reads it. The mailbox payload is unspecified while its mailbox is BUSY (R389). -/
def bar0Word (s : State) (iface off : Nat) : Nat :=
  if off < 0x100 then wordAt (identityBlock s) off
  else if 0x4000 ≤ off ∧ off < 0xC000 then msixWord s (off - 0x4000)
  else if 0xC000 ≤ off ∧ off < 0xC100 then pbaWord s (off - 0xC000)
  else if 0x10000 ≤ off ∧ off < 0x30000 ∧ off % 0x2000 ≥ 0x1000 then
    let n := (off - 0x10000) / 0x2000
    if busyMbx s n then leNat ((List.range 4).map (fun i => (Config.freeByte (s.fresh + off + i)).toNat))
    else wordAt (payload s n) (off % 0x1000)
  else if 0x80000 ≤ off ∧ off < 0xC0000 then
    let p := s.regField 0x00030200 2 0
    if p = 7 then 0 else leNat ((List.range 4).map (fun i => dumpByte s p (off - 0x80000 + i)))
  else if 0x02100000 ≤ off ∧ off < 0x02140000 then
    wordAt (tget [] s.ras.ring ((off - 0x02100000) / 64)) (off % 64)
  else if off = 0x00200008 then s.clk.tick % 2 ^ 32
  else if off = 0x0020000C then tget 0 s.host.latchTick iface
  else if off = 0x00300010 then s.pwr.profAt % 2 ^ 32
  else if off = 0x00300014 then profWord s iface 0
  else if off = oPwrCf then profWord s iface 1
  else if 0x00300040 ≤ off ∧ off < 0x00300080 then profWord s iface (2 + (off - 0x00300040) / 4)
  else match pairAt off with
  | some (p, _) => if off % 8 = 0 then pairValue s p % 2 ^ 32 else readHi s iface p
  | none => match viewWord s off with
    | some v => v
    | none => (s.reg off).toNat

/-- ADM_TICK_LO read: HI is latched for the interface (R63). -/
def latchTick (s : State) (iface : Nat) : State :=
  { s with host := { s.host with latchTick := tset 0 s.host.latchTick iface (s.clk.tick / 2 ^ 32) } }

/-- PWR_PTICK_LO read: HI, PWR_CF and the profile are latched from one computation (R432). -/
def latchProfile (s : State) (iface : Nat) : State :=
  { s with host := { s.host with latchProf := tset [] s.host.latchProf iface (profNow s) } }

/-- The cluster of a PWR_CFLOOR or PWR_CRATE register. -/
def cfloorOf (off : Nat) : Option Nat :=
  if 0x00301000 ≤ off ∧ off < 0x00301200 ∧ off % 8 = 0 then some ((off - 0x00301000) / 8) else none
def crateOf (off : Nat) : Option Nat :=
  if 0x00301000 ≤ off ∧ off < 0x00301200 ∧ off % 8 = 4 then some ((off - 0x00301000) / 8) else none

/-- PWR_CRATE as an interface reads it: from the update that its last read of PWR_CFLOOR saw, unless CHANGING or GUARD has changed
since (R74). -/
def crateWord (s : State) (iface c : Nat) : Nat :=
  let f := (s.reg (rCfloor c)).toNat
  match tget none s.host.latchRate iface with
  | some (k, f0, r0) => if k = c ∧ nbits f0 23 22 = nbits f 23 22 then r0 else (s.reg (rCrate c)).toNat
  | none => (s.reg (rCrate c)).toNat

/-- PWR_CFLOOR read: the two registers of the cluster are latched for the interface (R74); PWR_CRATE read: the latch is used up. -/
def latchRates (s : State) (iface : Nat) (v : Option (Nat × Nat × Nat)) : State :=
  { s with host := { s.host with latchRate := tset none s.host.latchRate iface v } }

/-- A read of one word, with what it latches. -/
def bar0Read (s : State) (iface off : Nat) : Nat × State :=
  let v := match crateOf off with
    | some c => crateWord s iface c
    | none => bar0Word s iface off
  match cfloorOf off, crateOf off with
  | some c, _ => (v, latchRates s iface (some (c, v, (s.reg (rCrate c)).toNat)))
  | _, some _ => (v, latchRates s iface none)
  | none, none =>
    if off = 0x00200008 then (v, latchTick s iface)
    else if off = 0x00300010 then (v, latchProfile s iface)
    else match pairAt off with
    | some (p, _) => (v, if off % 8 = 0 then readLo s iface p else s)
    | none => (v, s)

/-- ADM_TICK_LO_READ (R63). -/
def execAdmTickLoRead (iface : Iface) (s : State) : Outcome :=
  .next (let (v, s) := bar0Read s iface 0x00200008
    s.emit (.answer (natLe 4 v) false))

/-- PWR_PTICK_LO_READ (R432). -/
def execPwrPtickLoRead (iface : Iface) (s : State) : Outcome :=
  .next (let (v, s) := bar0Read s iface 0x00300010
    s.emit (.answer (natLe 4 v) false))

/-! ## Writing by access codes (R6, R395, R548) -/

/-- The session-lock bit of a register's block (R395). -/
def lockBlock (off : Nat) : Nat :=
  if 0x00200000 ≤ off ∧ off < 0x00300000 then 0
  else if 0x00302000 ≤ off ∧ off < 0x00303000 then 4
  else if 0x00300000 ≤ off ∧ off < 0x00400000 then 3
  else if 0x01000000 ≤ off ∧ off < 0x02000000 then 5
  else if 0xE000 ≤ off ∧ off < 0xF000 then 6
  else if 0x02010000 ≤ off ∧ off < 0x02020000 then 7
  else if 0x0200E000 ≤ off ∧ off < 0x0200F000 then 8
  else if 0x0200C000 ≤ off ∧ off < 0x0200E000 then 10
  else if (0x02008000 ≤ off ∧ off < 0x0200C000) ∨ off < 0x4000 then 9
  else 2

def locked (s : State) (off : Nat) : Bool := nbit (s.regField rLock 11 0) (lockBlock off)

/-- W1C fields that a 1 in any bit clears whole. -/
def clearsWhole (off : Nat) : Bool :=
  off == rLogStat || off == oRingstat || off == oPmc || (decide (0x0200C200 ≤ off) && decide (off < 0x0200C210))

/-- One field after a write of `v` to the register. -/
def writeField (whole lock : Bool) (v w : Nat) (f : Field) : Nat :=
  let x := nbits v f.hi f.lo
  let old := nbits w f.hi f.lo
  match f.acc with
  | .rw => putBits w f.hi f.lo x
  | .rwl => if lock then w else putBits w f.hi f.lo x
  | .w1c => if whole then (if x = 0 then w else putBits w f.hi f.lo 0) else putBits w f.hi f.lo (old - (old &&& x))
  | .ro => w
  | .wo => w
  | .rwf => w

/-- A write by access codes: fields that a lock holds, or that only firmware writes, are dropped, and the write is counted once
(R6, R548). Offsets without a register drop it (R322). -/
def plainWrite (s : State) (iface off v : Nat) : State :=
  match regAt off with
  | none => s
  | some (r, _) =>
    let lock := locked s off
    let bad := r.fields.any (fun f => (f.acc == .rwl && lock) || f.acc == .rwf)
    let s' := s.setReg off (BitVec.ofNat 32 (r.fields.foldl (writeField (clearsWhole off) lock v) (s.reg off).toNat))
    if bad then accessViolation s' iface off v else s'

/-- A write that a rule drops whole (R548), else by access codes, and then its consequence. -/
def checkedWrite (s : State) (iface off v : Nat) (ok : Bool) (after : State → State) : State :=
  if ok then after (plainWrite s iface off v) else accessViolation s iface off v

/-! ## Accepted tasks and ranges -/

/-- Whether a window of an accepted task's context meets a local range (R242, R297, R330). -/
def flightMeets (s : State) (a n : Nat) : Bool :=
  s.tasks.any (fun p => match p.2 with
    | none => false
    | some t => match s.context t.context with
      | none => false
      | some c => c.windows.any (fun w => decide (w.size ≠ 0) && localWindow s w && decide (n ≠ 0) &&
          decide (addrLow w.base < a + n ∧ a < addrLow w.base + w.size)))

/-- Writes back and invalidates every LLC line of a range. -/
def flushRange (s : State) (a n : Nat) : State :=
  let ls := (s.llc.lines.filter (fun p => decide (a ≤ 128 * p.1 ∧ 128 * p.1 < a + n))).map (·.1)
  let s := (s.llc.reds.filter (fun e => decide (a ≤ e.addr ∧ e.addr < a + n))).foldl applyEntry s
  let s := ls.foldl (leaveLine []) s
  { s with llc := { s.llc with fills := s.llc.fills.filter (fun l => decide (¬ (a ≤ 128 * l ∧ 128 * l < a + n))) } }

/-- Contents that the manual leaves undefined: free bytes and free poison. -/
def freeRange (s : State) (a n : Nat) : State :=
  let b := fun (i : Nat) => (Config.freeByte (s.fresh + i)).toNat
  { s with
    mem := writeBytes s.mem a ((List.range n).map b)
    poison := ((wordsOf a n).filter (fun w => decide (127 < b (n + w)))).foldl (fun p w => insNat w p) (coverPoison s.poison a n)
    fresh := s.fresh + n + (a + n) / 16 + 1 }

/-! ## LLC_RESCFG and LLC_PLACE (R242, R257) -/

def applying (s : State) : Bool := s.regBit rRescfg 16

/-- A write to LLC_RESCFG: dropped and counted under the lock, with any accepted task, while APPLYING, or with a value above 12;
else the change begins (R257). -/
def writeRescfg (s : State) (iface v : Nat) : State :=
  let ok := s.tasks.isEmpty && !applying s && !locked s rRescfg && (List.range 4).all (fun h => decide (nbits v (4 * h + 3) (4 * h) ≤ 12))
  if ok then { s.setField rRescfg 16 16 1 with llc := { s.llc with rescfgNext := some (v % 65536) } }
  else accessViolation s iface rRescfg v

/-- LLC_RESCFG_WRITE. -/
def execLlcRescfgWrite (iface : Iface) (value : Word) (s : State) : Outcome := .next (writeRescfg s iface value.toNat)

/-- One half takes its new number of resident ways (R257): granules beyond a reduced size go, ways gained read zero, retired banks
relocate the ways that they now have (R254). -/
def resizeHalf (s : State) (h new : Nat) : State :=
  let old := resWays s h
  let base := resBase + h * gib1
  let s := s.setField rRescfg (4 * h + 3) (4 * h) new
  let lo := min old new
  let s := if old = new then s else zeroFill s (base + lo * mib64) ((max old new - lo) * mib64)
  let gone := fun (g : Nat) => decide (512 * h + 32 * new ≤ g ∧ g < 512 * (h + 1))
  let s := { s with llc := { s.llc with
    sources := s.llc.sources.filter (fun p => !gone p.1),
    reloc := s.llc.reloc.filter (fun r => !(r.1 / 256 == h && decide (new ≤ r.2.1))) } }
  let s := (s.llc.retired.filter (fun tb => tb / 256 == h)).foldl (fun s tb =>
    ((List.range (new - old)).map (· + old)).foldl (fun s w => (mapWay s tb w).getD s) s) s
  trimHalf s h

/-- A context with a window over unbacked resident addresses is invalid until its table is loaded again (R232). -/
def judgeContexts (s : State) : State :=
  let bad := fun (k : Context) => k.windows.any (fun w => decide (w.size ≠ 0) && localWindow s w &&
    (resSlot (addrLow w.base)).isSome && !inBackedRes s (addrLow w.base) w.size)
  { s with contexts := s.contexts.map (fun p => (p.1, p.2.map (fun k => if bad k then { k with invalid := true } else k))) }

/-- RESCFG_APPLIED (R257). -/
def execRescfgApplied (s : State) : Outcome :=
  .next (match s.llc.rescfgNext with
    | none => s
    | some v =>
      let s := (List.range 4).foldl (fun s h => resizeHalf s h (nbits v (4 * h + 3) (4 * h))) s
      let s := { s.setField rRescfg 16 16 0 with llc := { s.llc with rescfgNext := none } }
      refreshHstat (stopUnbacked (judgeContexts s)))

/-- A placement entry's range from its RNG word. -/
def placeRange (rng : Nat) : Nat × Nat := (nbits rng 12 0 * mib64, nbits rng 25 13 * mib64)

/-- BAD of a placement entry (chapter 9): range beyond 4,608 units, another mode, or SPLIT with an odd BASE or SIZE. -/
def placeBad (rng attr : Nat) : Bool :=
  let b := nbits rng 12 0
  let n := nbits rng 25 13
  decide (4608 < b + n) || decide (1 < nbits attr 1 0) || (nbits attr 1 0 == 1 && (b % 2 == 1 || n % 2 == 1))

/-- A write to a placement entry (R242): dropped and counted in the cases of R242 and under the lock; else the lines of the old and new
ranges are written back and invalidated, and the contents of both are undefined afterwards. -/
def writePlace (s : State) (iface off v : Nat) : State :=
  let e := (off - 0x0200C100) / 8
  let isRng := off % 8 == 0
  let rng := (s.reg (rPlaceRng e)).toNat
  let attr := (s.reg (rPlaceAttr e)).toNat
  let rng' := if isRng then v % 2 ^ 26 else rng
  let attr' := if isRng then attr else v % 2 ^ 7
  let (a, n) := placeRange rng
  let (a', n') := placeRange rng'
  if locked s off ∨ applying s ∨ flightMeets s a n ∨ flightMeets s a' n' then accessViolation s iface off v
  else
    let s := flushRange (flushRange s a n) a' n'
    let s := (s.setReg (rPlaceRng e) (BitVec.ofNat 32 rng')).setReg (rPlaceAttr e)
      (BitVec.ofNat 32 (attr' % 128 + (if placeBad rng' attr' then 128 else 0)))
    freeRange (freeRange s a n) a' n'

/-- LLC_PLACE_WRITE: RNG or ATTR of entry `e`. -/
def execLlcPlaceWrite (iface : Iface) (e : Fin 16) (attr : Bool) (value : Word) (s : State) : Outcome :=
  .next (writePlace s iface (rPlaceRng e + (if attr then 4 else 0)) value.toNat)

/-! ## ECC regions (R296, R297, R317) -/

/-- BAD of a region entry (chapter 11). -/
def regionBad (rng attr : Nat) : Bool :=
  let top := nbits rng 12 0 + nbits rng 25 13
  nbits attr 1 0 == 3 || (nbits attr 1 0 == 2 && !nbit attr 2) || (!nbit attr 2 && decide (4608 < top)) ||
  (nbit attr 2 && decide (2048 < top))

/-- A write to ECC_RGN_RNG is held (R297). -/
def writeRegionRng (s : State) (iface e v : Nat) : State :=
  if locked s (rRgnRng e) then accessViolation s iface (rRgnRng e) v
  else { s with ecc := { s.ecc with rngHeld := tset 0 s.ecc.rngHeld e (v % 2 ^ 26 + 1) } }

/-- A write to ECC_RGN_ATTR starts the change of an entry, or is dropped and counted (R297). -/
def writeRegionAttr (s : State) (iface e v : Nat) : State :=
  let old := regionRange (s.reg (rRgnRng e)).toNat (s.reg (rRgnAttr e)).toNat
  let rng := match tget 0 s.ecc.rngHeld e with
    | 0 => (s.reg (rRgnRng e)).toNat
    | n + 1 => n
  let new := regionRange rng v
  if locked s (rRgnAttr e) ∨ flightMeets s old.1 old.2 ∨ flightMeets s new.1 new.2 ∨ s.ecc.region.isSome ∨ applying s then
    accessViolation s iface (rRgnAttr e) v
  else
    let s := { s with ecc := { s.ecc with region := some (e, rng, v % 8), rngHeld := tset 0 s.ecc.rngHeld e 0 } }
    s.setField (rRgnAttr e) 3 3 1

/-- ECC_RGN_RNG_WRITE. -/
def execEccRgnRngWrite (iface : Iface) (e : Fin 64) (value : Word) (s : State) : Outcome :=
  .next (writeRegionRng s iface e value.toNat)

/-- ECC_RGN_ATTR_WRITE. -/
def execEccRgnAttrWrite (iface : Iface) (e : Fin 64) (value : Word) (s : State) : Outcome :=
  .next (writeRegionAttr s iface e value.toNat)

/-- REGION_APPLIED (R297): every word of both ranges stands in its new code; `bad`: words whose code changed and that were found
uncorrectable under the old one, which are poisoned, counted and logged (R316). -/
def execRegionApplied (bad : List Nat) (s : State) : Outcome :=
  .next (match s.ecc.region with
    | none => s
    | some (e, rng, attr) =>
      let old := codeOf s
      let s' := (s.setReg (rRgnRng e) (BitVec.ofNat 32 rng)).setReg (rRgnAttr e)
        (BitVec.ofNat 32 (attr + (if regionBad rng attr then 16 else 0)))
      let s' := { s' with ecc := { s'.ecc with region := none } }
      let s' := bad.foldl (fun s a =>
        let x := 16 * (a / 16)
        if codeOf s x = old x ∨ isPoisoned s.poison x 16 then s
        else if !isHbm x ∨ (lineAt s (lineOf x)).isSome then countUe (poisonSram s x 16) (halfUnit s x) x (old x) 0
        else countUe (poisonHbm s (64 * (x / 64))) (4 + (stackOf s x).1) (64 * (x / 64)) (old x) 0) s'
      rasLog s' (logEv 0x0409 (unitOf 9 e) (s'.reg (rRgnAttr e)).toNat))

/-- A write to ECC_CCLR clears ECC_UCE and ECC_UUE of the units named (R316, R317). -/
def writeCclr (s : State) (v : Nat) : State :=
  (List.range 15).foldl (fun s u => if nbit v u then (s.setReg (rUce u) 0).setReg (rUue u) 0 else s) s

/-- ECC_CCLR_WRITE. -/
def execEccCclrWrite (value : Word) (s : State) : Outcome := .next (writeCclr s value.toNat)

/-! ## Classes (R363, R380, R464) -/

/-- Clusters of a 32-bit half of a mask. -/
def halfClusters (hi : Bool) (w : Nat) : List Nat := ((List.range 32).filter (nbit w)).map (fun i => if hi then 32 + i else i)

/-- Whether a class holds a reservation on a cluster. -/
def classReserves (s : State) (c cl : Nat) : Bool := !(floorsOn s cl (fun t => t.cls == c)).isEmpty

/-- Whether another enabled class holds a cluster. -/
def otherHolds (s : State) (c cl : Nat) : Bool :=
  (List.range 16).any (fun d => d != c && s.regBit (rCcfg d) 0 && inClass s d cl)

/-- A write to ADM_CLMASK (R363). -/
def writeClmask (s : State) (iface c : Nat) (hi : Bool) (v : Nat) : State :=
  let off := rClmask c hi
  let old := halfClusters hi (s.reg off).toNat
  let new := halfClusters hi v
  let bad := (old.filter (fun x => !new.contains x)).any (classReserves s c) ||
    (new.filter (fun x => !old.contains x)).any (fun x => otherHolds s c x || inCover s x)
  checkedWrite s iface off v (!bad) refreshAdmission

/-- ADM_CLMASK_WRITE. -/
def execAdmClmaskWrite (iface : Iface) (cls : ClassId) (hi : Bool) (value : Word) (s : State) : Outcome :=
  .next (writeClmask s iface cls hi value.toNat)

/-- A write to ADM_CCFG (R363): a limit out of range drops it whole, and so does ENABLE over a cluster that another enabled class or
the cover pool holds. -/
def writeCcfg (s : State) (iface c v : Nat) : State :=
  let lim := nbits v 17 1
  let clash := nbit v 0 && (List.range 64).any (fun x => inClass s c x && (otherHolds s c x || inCover s x))
  checkedWrite s iface (rCcfg c) v (decide (1 ≤ lim ∧ lim ≤ 65536) && !clash) refreshAdmission

/-- ADM_CCFG_WRITE. -/
def execAdmCcfgWrite (iface : Iface) (cls : ClassId) (value : Word) (s : State) : Outcome :=
  .next (writeCcfg s iface cls value.toNat)

/-- TWR_CLCORE.COVER follows the pool: set for a cluster that joins and hosts nothing (R454). -/
def showCover (s : State) (hi : Bool) : State :=
  ((List.range 32).map (fun i => if hi then 32 + i else i)).foldl (fun s c =>
    s.setField (rClcore c) 20 20 (if inCover s c ∧ ¬ s.regBit (rClcore c) 21 then 1 else 0)) s

/-- A write to ADM_COVER (R464). -/
def writeCover (s : State) (iface : Nat) (hi : Bool) (v : Nat) : State :=
  let off := if hi then 0x00200024 else 0x00200020
  let old := halfClusters hi (s.reg off).toNat
  let new := halfClusters hi v
  let held := fun (x : Nat) => (List.range 16).any (fun d => inClass s d x)
  let bad := (new.filter (fun x => !old.contains x)).any (fun x => held x || (s.cluster x).retired) ||
    (old.filter (fun x => !new.contains x)).any (fun x => s.regBit (rClcore x) 21)
  checkedWrite s iface off v (!bad) (fun s => refreshAdmission (showCover s hi))

/-- ADM_COVER_WRITE. -/
def execAdmCoverWrite (iface : Iface) (hi : Bool) (value : Word) (s : State) : Outcome :=
  .next (writeCover s iface hi value.toNat)

/-- A write to ADM_CTGT, ADM_CRATE or ADM_CREG of a class (chapter 14); those of class 15 cannot be written. -/
def writeClassReg (s : State) (iface off v : Nat) : State :=
  let c := (off - 0x00200400) / 16
  let max_ := nbits v 10 0
  let min_ := nbits v 21 11
  let ok := c != 15 && (
    if off % 16 = 0 then nbits v 11 0 != 0
    else if off % 16 = 4 then decide (1 ≤ max_ ∧ max_ ≤ 1024 ∧ 1 ≤ min_ ∧ min_ ≤ max_)
    else decide (64 ≤ nbits v 17 9 ∧ nbits v 17 9 ≤ 256))
  if off % 16 = 12 then s else checkedWrite s iface off v ok id

/-! ## Bias commands (R328 to R330) -/

def oBiasrng : Nat := 0x0000E010
def oBiascmd : Nat := 0x0000E014
def oBiasstat : Nat := 0x0000E018

/-- Ends a bias command with a RESULT; DONE is set (a refusal ends it too: DEDUCED, log 34). -/
def biasEnd (s : State) (result : Nat) : State := (s.setField oBiasstat 3 2 result).setField oBiasstat 1 1 1

/-- A bias command (R330). To the host it is refused while a task of a context over the range is in flight; else the range's lines are
written back and invalidated. -/
def biasStart (s : State) (toHost : Bool) (count : Nat) : State :=
  let first := s.regField oBiasrng 16 0
  if s.regBit oBiasstat 0 ∨ s.regField rHlink 1 0 = 0 then biasEnd s 3
  else if count = 0 ∨ 131072 < first + count then biasEnd s 2
  else if toHost ∧ flightMeets s (first * mib2) (count * mib2) then biasEnd s 1
  else
    let s := if toHost then flushRange s (first * mib2) (count * mib2) else s
    { s.setField oBiasstat 0 0 1 with host := { s.host with biasCmd := some (toHost, first, count) } }

/-- BIAS_TO_HOST: LNK_BIASCMD with TO 1. -/
def execBiasToHost (count : Fin 262144) (s : State) : Outcome := .next (biasStart s true count)

/-- BIAS_TO_DEVICE: LNK_BIASCMD with TO 0. -/
def execBiasToDevice (count : Fin 262144) (s : State) : Outcome := .next (biasStart s false count)

/-- BIAS_COMMAND_COMPLETE (R330): the granules change sides. -/
def execBiasCommandComplete (s : State) : Outcome :=
  .next (match s.host.biasCmd with
    | none => s
    | some (toHost, first, count) =>
      let rest := s.host.bias.filter (fun g => decide (g < first ∨ first + count ≤ g))
      let bias := if toHost then ((List.range count).map (· + first)).foldl (fun l g => insNat g l) rest else rest
      biasEnd ({ s with host := { s.host with bias := bias, biasCmd := none } }.setField oBiasstat 0 0 0) 0)

/-! ## Links (R481, R494, R548) -/

/-- A write to LUP_LCTL: RETRAIN acts whatever the lock; DISABLE is a locked field (R548). -/
def writeLctl (s : State) (iface l v : Nat) : State :=
  let s' := if locked s (rLctl l) then accessViolation s iface (rLctl l) v
    else if s.regField (rLctl l) 0 0 = nbits v 0 0 then s else disableLink s l (nbits v 0 0)
  if nbit v 1 then retrainLink s' l else s'

/-- RETRAIN: LUP_LCTL with RETRAIN 1 and DISABLE as it stands. -/
def execRetrain (iface : Iface) (link : Fin 8) (s : State) : Outcome :=
  .next (writeLctl s iface (link + 1) (2 + s.regField (rLctl (link + 1)) 0 0))

/-- LINK_DISABLE: LUP_LCTL with DISABLE `on` and RETRAIN 0. -/
def execLinkDisable (iface : Iface) (link : Fin 8) (on : Bool) (s : State) : Outcome :=
  .next (writeLctl s iface (link + 1) (if on then 1 else 0))

/-! ## Mailboxes (R389, R404) -/

/-- A write to MBX_CMD: GO starts the command with the request that stands in the payload (R389). -/
def writeMbxCmd (s : State) (iface n v : Nat) : State :=
  if busyMbx s n then accessViolation s iface (rMbx n) v
  else if nbit v 31 then mbxStart s n (nbit v 16) (nbits v 15 0) (nbits v 29 17) [] 0 none
  else s.setReg (rMbx n) (BitVec.ofNat 32 (v % 2 ^ 30))

/-- A write of one payload byte string at an offset. -/
def writePayload (s : State) (iface n off : Nat) (b : List Nat) : State :=
  if busyMbx s n then accessViolation s iface (0x00011000 + 0x2000 * n + off) (leNat (b.take 4))
  else setPayload s n ((payload s n).take off ++ b)

/-- A write to MBX_DSTAT: a 1 in a HELD bit clears that processor's dump (R404). -/
def writeDstat (s : State) (v : Nat) : State := (List.range 7).foldl (fun s p => if nbit v p then clearDump s p else s) s

/-- MBX_DSTAT_CLEAR. -/
def execMbxDstatClear (value : Word) (s : State) : Outcome := .next (writeDstat s value.toNat)

/-! ## MSI-X (R331, R332) -/

/-- Sends the message of a pending vector whose mask is clear (R332). -/
def sendPending (s : State) (v : Nat) : State :=
  if s.msix.pba.contains v ∧ s.msix.enable ∧ ¬ s.msix.fmask ∧ s.msix.open_.contains v then
    { s with msix := { s.msix with pba := s.msix.pba.filter (· != v) }, out := s.out ++ [.msix v] }
  else s

/-- A word of an MSI-X table entry. -/
def writeMsix (s : State) (o v : Nat) : State :=
  let n := o / 16
  let a := tget 0 s.msix.addr n
  let x := s.msix
  if o % 16 = 0 then { s with msix := { x with addr := tset 0 x.addr n (a / 2 ^ 32 * 2 ^ 32 + v % 2 ^ 32 / 4 * 4) } }
  else if o % 16 = 4 then { s with msix := { x with addr := tset 0 x.addr n (v % 2 ^ 32 * 2 ^ 32 + a % 2 ^ 32) } }
  else if o % 16 = 8 then { s with msix := { x with data := tset 0 x.data n (v % 2 ^ 32) } }
  else if nbit v 0 then { s with msix := { x with open_ := x.open_.filter (· != n) } }
  else sendPending { s with msix := { x with open_ := insNat n x.open_ } } n

/-- MSIX_UNMASK (R332): the mask of a vector clears. -/
def execMsixUnmask (vector : Fin 2048) (s : State) : Outcome :=
  .next (sendPending { s with msix := { s.msix with open_ := insNat vector s.msix.open_ } } vector)

/-! ## Any register -/

/-- Whether a value passes the range rule of its register, for those that have one. -/
def inRange (off v : Nat) : Bool :=
  if off = oAdmCtrl then decide (1000 ≤ nbits v 15 0 ∧ nbits v 15 0 ≤ 50000)
  else if off = oPwrCtrl then decide (15 ≤ nbits v 6 0 ∧ nbits v 6 0 ≤ 100 ∧ 1 ≤ nbits v 12 7 ∧ nbits v 12 7 ≤ 50)
  else if off = 0x0000E020 then nbits v 3 0 != 15 && nbits v 7 4 != 15
  else if off = rPincfg then decide (nbits v 3 0 ≤ 14)
  else if 0x00030104 ≤ off ∧ off < 0x0003013C ∧ off % 8 = 4 then decide (5 ≤ nbits v 6 0 ∧ nbits v 6 0 ≤ 100)
  else if off = oWwin then decide (nbits v 6 0 ≤ 95 ∧ nbits v 13 7 ≤ 95 ∧ nbits v 6 0 < nbits v 13 7)
  else if off = oNvcfg then (List.range 4).all (fun r => nbits v (2 * r + 1) (2 * r) != 0)
  else if off = oDumpcfg ∨ off = oBwwin then decide (1 ≤ nbits v 19 0 ∧ nbits v 19 0 ≤ 1000000)
  else true

/-- What follows a write by access codes. -/
def afterWrite (s : State) (off : Nat) : State :=
  if off = oAdmCtrl then refreshProfile s
  else if off = oPwrCtrl then curtailCheck (refreshCeiling s)
  else if off = oWwin ∨ off = oNvcfg then refreshWindow s
  else if off = rAlert then s.setField rAlert 1 1 (s.regField rAlert 0 0)
  else s

/-- A 32-bit write to BAR0 (R322, R323). The doorbells are 64-bit writes, and no 32-bit write reaches them (R346). -/
def regWrite (s : State) (iface off v : Nat) : State :=
  if 0x4000 ≤ off ∧ off < 0xC000 then writeMsix s (off - 0x4000) v
  else if 0x10000 ≤ off ∧ off < 0x30000 then
    let n := (off - 0x10000) / 0x2000
    if off % 0x2000 = 0 then writeMbxCmd s iface n v
    else if 0x1000 ≤ off % 0x2000 then writePayload s iface n (off % 0x1000) (natLe 4 v) else s
  else if off = rDstat then writeDstat s v
  else if off = rRescfg then writeRescfg s iface v
  else if 0x0200C100 ≤ off ∧ off < 0x0200C180 then writePlace s iface off v
  else if 0x0200E000 ≤ off ∧ off < 0x0200E200 then
    (if off % 8 = 0 then writeRegionRng s iface ((off - 0x0200E000) / 8) v else writeRegionAttr s iface ((off - 0x0200E000) / 8) v)
  else if off = 0x0200E3FC then writeCclr s v
  else if 0x00200100 ≤ off ∧ off < 0x00200200 then
    let c := (off - 0x00200100) / 16
    if off % 16 = 0 then writeCcfg s iface c v
    else if off % 16 = 4 then writeClmask s iface c false v
    else if off % 16 = 8 then writeClmask s iface c true v else s
  else if off = 0x00200020 then writeCover s iface false v
  else if off = 0x00200024 then writeCover s iface true v
  else if 0x00200400 ≤ off ∧ off < 0x00200500 then writeClassReg s iface off v
  else if off = oBiasrng then (if s.regBit oBiasstat 0 then s else plainWrite s iface off v)
  else if off = oBiascmd then biasStart s (nbit v 18) (nbits v 17 0)
  else if 0x02010000 ≤ off ∧ off < 0x02010080 ∧ off % 16 = 8 then writeLctl s iface ((off - 0x02010000) / 16 + 1) v
  else if 0x02010200 ≤ off ∧ off < 0x02010240 then
    checkedWrite s iface off v (!busyMbx s ((off - 0x02010200) / 4)) id
  else if off = oRingcfg then writeRingcfg s iface v
  else if (pairAt off).isSome then writeCounterHalf s off v
  else checkedWrite s iface off v (inRange off v) (fun s => afterWrite s off)

/-- REGISTER_WRITE (R6). -/
def execRegisterWrite (iface : Iface) (off : Nat) (value : Word) (s : State) : Outcome := .next (regWrite s iface off value.toNat)

end Sys2Proof.Machine
end

