-- ==== Sys2Proof/Machine/LupServe.lean ====
section
/-! DEFINITION. Serving the host's and other modules' accesses at this module's homes, and what answers of other modules do to their
requesters (R243, R244, R251, R324, R328, R338, R474, R478, R480, R487, R489). -/

namespace Sys2Proof.Machine

/-! ## Where an access goes (R227, R324) -/

/-- What a device address names: a line with a home, a reserved area of HBM, a core's local store, or nothing that is served. -/
inductive Space where
  | home
  | reserved
  | store (core : Nat)
  | nowhere
deriving DecidableEq, Repr

/-- The space of `n` bytes of one line. -/
def spaceOf (s : State) (lo n : Nat) : Space :=
  if lo < hbmEnd then (if meetsReserved lo n then .reserved else .home)
  else if inBackedRes s lo n then .home
  else if lsBase ≤ lo ∧ lo < lsBase + 576 * 0x100000 ∧ (lo - lsBase) % 0x100000 + n ≤ lsBytes then
    .store ((lo - lsBase) / 0x100000)
  else .nowhere

/-- The tower in which a local address is served. -/
def towerAt (s : State) (lo : Nat) : Option Nat :=
  if lsBase ≤ lo ∧ lo < lsBase + 576 * 0x100000 then some ((lo - lsBase) / 0x100000 / 288)
  else (homeAt s (lo)).map (fun m => m.half / 2)

/-- Whether that tower is in reset, DI or SB (R338, R489). -/
def placeDown (s : State) (lo : Nat) : Bool :=
  s.pwr.state != 0 || (towerAt s lo).any (fun t => s.towersDown.contains t)

/-- A read at the home (R243, R251, R300): the bytes, and whether a word of them is poisoned. `e` is what the array read finds. -/
def homeRead (s : State) (lo n : Nat) (e : EccRes) : State × List Nat × Bool :=
  let s := drainLine s (lineOf lo)
  let s := if linePresent s lo then readWord s lo n e 0 else hbmRead s lo n e
  let bad := isPoisoned s.poison lo n || (towerAt s lo).any (fun t => towerRetired s t)
  (s, readBytes s.mem lo n, bad)

/-- `n` bytes of a local store, free while the core holds a task (R233, R293). -/
def storeRead (s : State) (c lo n : Nat) (e : EccRes) : State × List Nat × Bool :=
  let s := e.foldl (storeFlaw c lo n) s
  if (s.core c).task.isSome then
    ({ s with fresh := s.fresh + n }, (List.range n).map (fun i => (Config.freeByte (s.fresh + i)).toNat), false)
  else (s, readBytes s.mem lo n, isPoisoned s.poison lo n)

/-! ## Requests of other modules (R474, R480, R489) -/

/-- Answers a request with a STATUS (R473). -/
def reply (s : State) (m : LMsg) (typ status : Nat) (pay : LPay) : State :=
  sendMsg s { newMsg s typ m.label m.size m.src m.tag 0 pay with status := status }

def serveRd (s : State) (m : LMsg) (e : EccRes) : State :=
  let lo := addrLow m.addr
  let n := 2 ^ m.size
  if placeDown s lo then reply s m tRDRESP 2 (.data (List.replicate n 0))
  else
    let (s, b, bad) := match spaceOf s lo n with
      | .store c => storeRead s c lo n e
      | _ => homeRead s lo n e
    reply s m tRDRESP (if bad then 1 else 0) (.data b)

def serveWr (s : State) (m : LMsg) (bs : List Nat) : State :=
  let lo := addrLow m.addr
  match spaceOf s lo bs.length with
  | .nowhere => s
  | .reserved => reply (rasLog s (logEv 0x0602 (unitOf 10 0) (s.reg rHlink).toNat)) m tACK 0 .none
  | .store _ => if placeDown s lo then reply s m tACK 2 .none else reply (storeBytes s lo bs) m tACK 0 .none
  | .home => if placeDown s lo then reply s m tACK 2 .none else reply (homeWrite s lo bs) m tACK 0 .none

/-- An atomic at the home (R158, R250). -/
def serveAtomMsg (s : State) (m : LMsg) (op v cmp : Nat) (e : EccRes) : State :=
  let lo := addrLow m.addr
  let n := 2 ^ m.size
  if placeDown s lo then reply s m tATOMRESP 2 (.value 0 false)
  else
    let (s, b, bad) := homeRead s lo n e
    if bad then reply s m tATOMRESP 1 (.value 0 false)
    else
      let old := leNat b
      reply (homeUpdate s lo (natLe n (atomOp op n old v cmp))) m tATOMRESP 0 (.value old true)

/-- A LOCK at the home (R127 to R130): a release of a word that its sender does not own is answered so (value 1); an attempt is granted, recorded as waiting (the answer comes with the release), or not recorded. -/
def serveLockMsg (s : State) (m : LMsg) (acq lost : Bool) (c g t : Nat) (e : EccRes) : State :=
  let lo := addrLow m.addr
  if placeDown s lo then reply s m tATOMRESP 2 (.value 0 false)
  else
    let (s, b, bad) := homeRead s lo 8 e
    let v := leNat b
    let cs := waitCores s (lineOf lo)
    if bad then reply s m tATOMRESP 1 (.value 0 false)
    else if !acq then
      if !lost && !ownsWordOf m.src v c g t then reply s m tATOMRESP 0 (.value 1 false)
      else
        let (s, handed) := passLock s m.addr lost
        reply s m tATOMRESP 0 (.value 0 handed)
    else if !nbit v 0 then reply (writeLock s lo (lockWord c g t m.src)) m tATOMRESP 0 (.value (if nbit v 1 then 1 else 0) true)
    else if cs.contains (c, m.src) ∨ cs.length < 4 then
      { s with llc := { s.llc with
        waits := s.llc.waits ++ [⟨m.addr, c, g, t, 0, nbit v 1, some (m.src, m.tag, m.label)⟩] } }
    else reply s m tATOMRESP 0 (.value 0 false)

/-- A PIN or UNPIN of whole lines (R167); the ACK tells whether all were granted (log 10). -/
def servePinMsg (s : State) (m : LMsg) (unpin : Bool) (len : Nat) : State :=
  let lo := addrLow m.addr
  if placeDown s lo then reply s m tACK 2 (.value 0 false)
  else
    let (s, ok) := (List.range (ceilDiv len 128)).foldl (fun (p : State × Bool) j =>
      let a := m.addr + 128 * j
      let (s, b) := servePin (if unpin ∨ linePresent p.1 a then p.1 else installLine p.1 (lineOf a)) a unpin m.label ⟨some m.label, none, none, none, some a⟩
      (s, p.2 && b)) (s, true)
    reply s m tACK 0 (.value 0 ok)

/-- A RED waits with the other requests for its bank's queue (R250, R252). The ACK goes when it has taken effect. -/
def serveRed (s : State) (m : LMsg) (oper etype : Nat) (bs : List Nat) : State :=
  let lo := addrLow m.addr
  if placeDown s lo then reply s m tACK 2 .none
  else
    let id := s.llc.nextReq
    { s with llc := { s.llc with
      nextReq := id + 2
      redReqs := s.llc.redReqs ++ [⟨id, 576, 0, 0, 1, false, false, m.addr, some (m.src, m.tag, m.label)⟩]
      reqs := s.llc.reqs ++ [⟨id + 1, 576, 0, 0, m.addr, .reduce oper etype bs id⟩] } }

/-- Serves a request of another module at this module's homes. -/
def serveMsg (s : State) (m : LMsg) (e : EccRes) : State :=
  match m.pay with
  | .none => serveRd s m e
  | .data bs => serveWr s m bs
  | .atom op v c => serveAtomMsg s m op v c e
  | .lock acq lost c g t => serveLockMsg s m acq lost c g t e
  | .pin unpin len => servePinMsg s m unpin len
  | .red oper etype bs => serveRed s m oper etype bs
  | _ => s

/-- An access of another module reaches its home; a line in host bias is first obtained from the host, RdShared for a read and
RdOwn for a write, and returned when the access completes (R244, R328). -/
def ingress (s : State) (l : Nat) (m : LMsg) (e : EccRes) : State :=
  let line := lineOf m.addr
  let own := m.typ != tRD
  if m.typ = tPIN ∨ !hostBias s (addrLow m.addr) then serveMsg s m e
  else if s.host.held.any (fun h => h.1 == line && (h.2 || !own)) ∧ !s.host.waits.any (fun w => w.line == line) then
    giveBack (serveMsg s m e) line
  else
    let asked := s.host.waits.any (fun w => w.line == line)
    let s := { s with host := { s.host with waits := s.host.waits ++ [⟨line, own, l, some m⟩] } }
    if asked then s else s.emit (.cache line own)

/-- Serves the waiting accesses of a line in order, as far as what the module now holds allows; a scrub or a rebuild that waits finds the
line held. -/
def serveHeld (line : Nat) (own : Bool) (e : EccRes) : List BiasWait → State → State
  | [], s => giveBack s line
  | w :: ws, s => match w.msg with
    | none => serveHeld line own e ws s
    | some m =>
      if w.line ≠ line then serveHeld line own e ws s
      else if w.own ∧ ¬ own then
        ({ s with host := { s.host with
          held := s.host.held.filter (fun h => h.1 != line)
          waits := s.host.waits.map (fun (w : BiasWait) => if w.line = line ∧ w.msg.isNone then { w with own := true } else w) } }).emit
            (.cache line true)
      else
        let s := { s with host := { s.host with waits := s.host.waits.erase w } }
        serveHeld line own e ws (serveMsg s m e)

/-! ## Answers to this module's requests (R478, R487, R489) -/

/-- What a STATUS or a NACK does to the requester: 0 served, else a fault cause. A NACK of a reason that no rule gives an effect leaves
the request to its time-out (DESIGN CHOICE, log 35). -/
def answerCause (m : LMsg) : Option Nat :=
  if m.typ = tNACK then
    (if m.reason = 1 then some cRIGHTS_FAULT else if m.reason = 4 then some cWINDOW_FAULT else none)
  else if m.status = 0 then some 0
  else if m.status = 3 then some cRIGHTS_FAULT
  else some cPOISONED

/-- The transfer or attention instruction that sent a request gets a line, or an acknowledgement. -/
def engineAnswer (s : State) (r : Req) (kind seq : Nat) (line : Option (List Nat)) : State :=
  let got := fun (t : Tab (List Nat)) => match line with
    | none => t
    | some b => tset [] t (r.addr / 128) b
  if kind = kindXfer then
    let s := modXfer s r.core seq (fun o => { o with left := o.left - 1, got := got o.got })
    if coreIssues s r.core then xferSend s r.core seq else s
  else modAttn s r.core seq (fun o => { o with left := o.left - 1, got := got o.got })

/-- A data movement that another module answers with a fault ends (R119, R489). -/
def engineEnds (s : State) (r : Req) (kind seq cause : Nat) (write : Bool) : State :=
  let k := s.core r.core
  if replayHeld k then s else
  let x : Cause := ⟨cause, r.addr, if cause = cPOISONED ∨ ¬ write then 0 else 1⟩
  if kind = kindXfer then
    match k.xferQ.find? (fun o => o.org.seq == seq) with
    | none => s
    | some o => engineFault (dropXfer s r.core seq) r.core kind (coreUnit r.core) o.org x
  else match k.attnQ.find? (fun o => o.org.seq == seq) with
    | none => s
    | some o => engineFault (dropAttn s r.core seq) r.core kind (coreUnit r.core) o.org x

/-- A thread's request is answered with a fault: at the requesting instruction for a load, an atomic, a LOCK or a PIN; a write has no
instruction left and reports as R133's. A core stopped for its replay meets nothing more (R451). -/
def threadEnds (s : State) (r : Req) (cause : Nat) (write : Bool) : State :=
  let (gr, _, _, pc) := takePend (grp (s.core r.core) r.group) r.thread r.id
  let s := s.modGrp r.core r.group (fun _ => gr)
  let a := if cause = cPOISONED then poisonAddr r else r.addr
  if replayHeld (s.core r.core) then s else
  let s := if cause = cPOISONED then countConsumed s (addrUnit s r.core a) a else s
  raiseFault s r.core (threadRec s r.core r.group r.thread pc 0 ⟨cause, a, if write ∧ cause ≠ cPOISONED then 1 else 0⟩)

/-- A write of a thread is answered with a fault (R133, R489). -/
def writeEnds (s : State) (r : Req) (red : Bool) (cause : Nat) : State :=
  let s := s.modCore r.core (fun k => { k with writes := k.writes - 1, redOut := if red then k.redOut - 1 else k.redOut })
  let s := s.modThread r.core r.group r.thread (fun th => { th with writes := th.writes - 1 })
  let s := fenceDone s r.core r.group r.thread
  if replayHeld (s.core r.core) then s else
  raiseFault s r.core { threadRec s r.core r.group 0xFF 0 2 ⟨cause, r.addr, 1⟩ with thread := 0xFF }

/-- An answer that is a fault. -/
def answerFault (s : State) (r : Req) (cause status : Nat) : State :=
  match r.kind with
  | .load _ _ _ _ _ => threadEnds s r cause false
  | .atom _ _ _ _ _ _ => threadEnds s r cause true
  | .lockAcq _ => threadEnds s r cause true
  | .lockRel _ => threadEnds s r cause true
  | .store _ =>
    if cause = cPOISONED then s.modCore r.core (fun k => { k with acks := k.acks ++ [⟨r.group, r.thread, false, true, false, r.addr⟩] })
    else writeEnds s r false cause
  | .reduce _ _ _ parent =>
    if cause = cPOISONED then redAnswer s parent true false
    else writeEnds { s with llc := { s.llc with redReqs := s.llc.redReqs.filter (fun q => q.id != parent) } } r true cause
  | .pinLine _ _ parent =>
    threadEnds { s with llc := { s.llc with pinReqs := s.llc.pinReqs.filter (fun q => q.id != parent) } } { r with id := parent } cause false
  | .engineRd kind seq => engineEnds s r kind seq cause false
  | .engineWr kind seq => engineEnds s r kind seq cause true
  | .hostRd _ n =>
    if status = 1 then (countConsumed s 14 r.addr).emit (.answer (List.replicate n 0) true) else s.emit (.abort true)
  | .hostWr => s.emit (.abort false)
  | .scrubRd _ _ _ => s

/-- An answer that is none. A lock granted to a thread that no longer waits for it is released with OWNER_LOST (R130, R136). -/
def answerOk (s : State) (r : Req) (nofill : Bool) (m : LMsg) : State :=
  let data := match m.pay with
    | .data b => b
    | _ => []
  let (v, flag) := match m.pay with
    | .value v f => (v, f)
    | _ => (0, true)
  match r.kind with
  | .load n signed uni alloc dst =>
    let b := if alloc then (data.drop (r.addr % 128)).take n else data.take n
    respond s r (fun x => { x with
      size := n, value := extendVal n signed (leNat b), dst := dst, words := sizeWords n, uni := uni,
      fill := if alloc ∧ ¬ nofill then data else [] })
  | .store _ => s.modCore r.core (fun k => { k with acks := k.acks ++ [⟨r.group, r.thread, false, false, false, r.addr⟩] })
  | .atom _ n uni dst _ _ =>
    let s := s.modCore r.core (fun k => l1Drop k (r.addr / 128))
    let s := s.modCore r.core (fun k =>
      if k.atomLog.length ≤ 256 then { k with atomLog := k.atomLog ++ [⟨r.group, r.thread, v⟩] } else k)
    respond s r (fun x => { x with size := n, value := v, dst := dst, words := sizeWords n, uni := uni })
  | .lockAcq p =>
    let w : LockWait := ⟨r.addr, r.core, r.group, r.thread, p, v == 1, none⟩
    if flag then
      if waitsFor s r.core r.group r.thread r.addr then { s with llc := { s.llc with wakes := s.llc.wakes ++ [w] } }
      else sendHome s r.core r.group r.thread r.addr (.lockRel true)
    else if ¬ waitsFor s r.core r.group r.thread r.addr then s
    else { s with llc := { s.llc with unrecorded := s.llc.unrecorded ++ [w] } }
  | .lockRel _ =>
    if v = 1 then notOwner s r else settleBarriers (memDone s r.core r.group r.thread r.id) r.core
  | .reduce _ _ _ parent => redAnswer s parent false false
  | .pinLine _ _ parent => pinAnswer s parent flag
  | .engineRd kind seq => engineAnswer s r kind seq (some data)
  | .engineWr kind seq => engineAnswer s r kind seq none
  | .hostRd off n => s.emit (.answer ((data.drop off).take n) false)
  | .hostWr => s
  | .scrubRd _ _ _ => s

/-- A response or NACK of another module: discarded when no request awaits its TAG (R487). -/
def takeAnswer (s : State) (m : LMsg) : State :=
  match s.llc.remote.find? (fun r => r.tag == m.tag && addrModule r.req.addr == m.src), answerCause m with
  | some r, some cause =>
    let s := { s with llc := { s.llc with remote := s.llc.remote.erase r } }
    let s := if cause = 0 then answerOk s r.req r.nofill m else answerFault s r.req cause m.status
    drainPort s m.src
  | _, _ => s

/-- A descriptor that the lead read for this module (R490). -/
def takeDescriptor (s : State) (m : LMsg) : State :=
  match s.lup.asks.find? (fun a => a.1 == m.tag) with
  | none => s
  | some (t, q, i) =>
    let d := match m.pay with
      | .data b => if m.status = 0 ∧ b.length = descSize s q then some b else none
      | _ => none
    let s := { s with lup := { s.lup with asks := s.lup.asks.filter (fun a => a.1 != t) } }
    { s with adm := { s.adm with und := s.adm.und.map (fun u =>
      if u.queue = q ∧ u.idx = i ∧ u.data = none then { u with data := some d } else u) } }

end Sys2Proof.Machine
end

