-- ==== Sys2Proof/Machine/Host.lean ====
section
/-! DEFINITION. The host's accesses to memory and what else it sends: BAR2, CXL.mem, decoders, configuration, viral, snoops (R299, R319,
R321, R324, R325, R327, R328, R331, R333, R334, R336, R338). -/

namespace Sys2Proof.Machine

/-- A log entry for host traffic that is not served (R299, R333). -/
def hostErr (s : State) : State := rasLog s (logEv 0x0606 (unitOf 10 0) (s.reg rHlink).toNat)
def hostInReset (s : State) : State := rasLog s (logEv 0x0603 (unitOf 10 0) (s.reg rHlink).toNat)
def hostReserved (s : State) : State := rasLog s (logEv 0x0602 (unitOf 10 0) (s.reg rHlink).toNat)

/-- Whether the link to the host works (R339). -/
def hostUp (s : State) : Bool := !mbxDark s

/-- The label of BAR2 traffic and of CXL.mem traffic (R364). -/
def bar2Label (s : State) : Nat := s.regField 0x0000E020 3 0

/-! ## BAR2 (R299, R324, R325, R333, R338) -/

/-- The device address of a BAR2 offset. -/
def bar2Addr (s : State) (off : Nat) : Nat := (s.regField 0x0000E008 23 0 * 2 ^ 30 + off) % 2 ^ 54

/-- The space of another module's address, whose resident size is not known here. -/
def spaceAway (lo n : Nat) : Space :=
  if lo < hbmEnd then (if meetsReserved lo n then .reserved else .home)
  else if (resSlot lo).isSome then .home
  else if lsBase ≤ lo ∧ lo < lsBase + 576 * 0x100000 ∧ (lo - lsBase) % 0x100000 + n ≤ lsBytes then
    .store ((lo - lsBase) / 0x100000)
  else .nowhere

/-- Whether the domain reaches a module (R324, R488). -/
def reaches (s : State) (m : Nat) : Bool := s.lup.members.contains m && (routeTo s m).1 != 0

def abortRead (s : State) : State := hostErr (s.emit (.abort true))

/-- Whether a core's local store is being filled (R298, R299). In DI and SB, whose exit fills it, the model takes it so throughout (DESIGN
CHOICE, log 115). -/
def storeFilling (s : State) (c : Nat) : Bool :=
  !s.md.opened || s.pwr.state != 0 || (s.cluster (c / 9)).resetting || s.md.resets.any (fun r => r.clean && r.towers.contains (c / 288))

/-- Answers a host read with what was read; poison is one consumption (R303, R316). -/
def hostAnswer (p : State × List Nat × Bool) (unit addr : Nat) : State :=
  (if p.2.2 then countConsumed p.1 unit addr else p.1).emit (.answer p.2.1 p.2.2)

/-- A BAR2 read of one line. -/
def bar2Read (s : State) (off n : Nat) (e : EccRes) : State :=
  let a := bar2Addr s off
  let lo := addrLow a
  if addrModule a ≠ s.modId then
    if spaceAway lo n = .nowhere ∨ !reaches s (addrModule a) then abortRead s
    else sendRemote s (bar2Label s) 576 0 0 a (.hostRd (a % 128) n) none
  else match spaceOf s lo n with
  | .nowhere => abortRead s
  | .store c =>
    if storeFilling s c then s.emit (.answer (List.replicate n 0) false) else hostAnswer (storeRead s c lo n e) (coreUnit c) a
  | _ =>
    if !s.md.opened then s.emit (.answer (List.replicate n 0) false)
    else if placeDown s lo then hostInReset (s.emit (.abort true))
    else
      hostAnswer (homeRead s lo n e) (halfUnit s lo) a

/-- BAR2_READ: the part of a read that lies in one line. -/
def execBar2Read (off : Fin 1073741824) (n : Nat) (ecc : EccRes) (s : State) : Outcome :=
  if n = 0 ∨ 128 < off.val % 128 + n then .fault .malformed
  else .next (if hostUp s then bar2Read s off n ecc else s)

/-- Poison written to memory (R295, R333): counted and logged as an uncorrectable word. -/
def homePoison (s : State) (lo n : Nat) : State :=
  countUe (homePoisoned s lo n) (halfUnit s lo) (16 * (lo / 16)) (codeOf s lo) 0

/-- A BAR2 write of one line. One with poison goes to no other module, whose WR has no mark for it (DESIGN CHOICE, log 36). -/
def bar2Write (s : State) (off : Nat) (b : List Nat) (poison : Bool) : State :=
  let a := bar2Addr s off
  let lo := addrLow a
  let n := b.length
  if addrModule a ≠ s.modId then
    match spaceAway lo n with
    | .nowhere => hostErr s
    | .reserved => hostReserved s
    | _ =>
      if !reaches s (addrModule a) ∨ poison then hostErr s
      else (wrPieces n a b).foldl (fun s (p, x) =>
        sendRemote s (bar2Label s) 576 0 0 p .hostWr (some (Nat.log2 x.length, .data x))) s
  else match spaceOf s lo n with
  | .nowhere => hostErr s
  | .reserved => hostReserved s
  | .store c =>
    if storeFilling s c then hostErr s
    else if poison then countUe (poisonBytes s lo n) (coreUnit c) (16 * (lo / 16)) 3 0
    else storeBytes s lo b
  | .home =>
    if !s.md.opened then hostErr s
    else if placeDown s lo then hostInReset s
    else if poison then homePoison s lo n else homeWrite s lo b

/-- BAR2_WRITE: the part of a write that lies in one line. -/
def execBar2Write (off : Fin 1073741824) (data : List Byte) (poison : Bool) (s : State) : Outcome :=
  if data = [] ∨ 128 < off.val % 128 + data.length then .fault .malformed
  else .next (if hostUp s then bar2Write s off (data.map (·.toNat)) poison else s)

/-! ## CXL.mem (R319, R327, R328, R333, R334, R338) -/

def mib256 : Nat := 0x10000000
def Decoder.none_ : Decoder := ⟨0, 0, false, false⟩
def decoder (s : State) (i : Nat) : Decoder := s.host.hdm.getD i Decoder.none_

/-- Whether a decoder covers a host address range. -/
def covers (d : Decoder) (a n : Nat) : Bool :=
  d.commit && decide (d.base * mib256 ≤ a ∧ a + n ≤ (d.base + d.size) * mib256)

/-- The device address of a host address: decoder 0 from 0 upward, decoder 1 from the end of decoder 0 (R327). -/
def hdmDpa (s : State) (a n : Nat) : Option Nat :=
  if s.regField rHlink 1 0 = 0 then none
  else if covers (decoder s 0) a n then some (a - (decoder s 0).base * mib256)
  else if covers (decoder s 1) a n then some (a - (decoder s 1).base * mib256 + (decoder s 0).size * mib256)
  else none

def cxlRead (s : State) (addr n : Nat) (e : EccRes) : State :=
  let bad := fun (s : State) => s.emit (.answer (List.replicate n 0) true)
  if s.regBit rHlink 12 then bad s
  else match hdmDpa s addr n with
  | none => hostErr (bad s)
  | some lo =>
    if !s.md.opened then s.emit (.answer (List.replicate n 0) false)
    else if placeDown s lo then hostInReset (bad s)
    else
      hostAnswer (homeRead s lo n e) (halfUnit s lo) lo

/-- CXL_MEM_READ of one 64-byte line of the host. -/
def execCxlMemRead (addr n : Nat) (ecc : EccRes) (s : State) : Outcome :=
  if n = 0 ∨ 64 < addr % 64 + n then .fault .malformed
  else .next (if hostUp s then cxlRead s addr n ecc else s)

def cxlWrite (s : State) (addr : Nat) (b : List Nat) (poison : Bool) : State :=
  if s.regBit rHlink 12 then s
  else match hdmDpa s addr b.length with
  | none => hostErr s
  | some lo =>
    if !s.md.opened then hostErr s
    else if placeDown s lo then hostInReset s
    else if poison then homePoison s lo b.length else homeWrite s lo b

/-- CXL_MEM_WRITE: a run of bytes of one 64-byte line of the host. -/
def execCxlMemWrite (addr : Nat) (data : List Byte) (poison : Bool) (s : State) : Outcome :=
  if data = [] ∨ 64 < addr % 64 + data.length then .fault .malformed
  else .next (if hostUp s then cxlWrite s addr (data.map (·.toNat)) poison else s)

/-- HDM_DECODER_COMMIT (R319, R327): in CXL 2.0 a decoder that is not locked takes its range, in units of 256 MiB; together they stay
within Range 1, and decoder 1 follows decoder 0. -/
def execHdmDecoderCommit (decoder_ : Fin 2) (base size : Nat) (lock : Bool) (s : State) : Outcome :=
  .next (let d0 := decoder s 0
    let d1 := decoder s 1
    let other := if decoder_ = 0 then (if d1.commit then d1.size else 0) else d0.size
    if !hostUp s ∨ s.regField rHlink 1 0 ≠ 2 ∨ (decoder s decoder_).locked ∨ size = 0 ∨ 1024 < size + other ∨
        (decoder_ = 1 ∧ ¬ d0.commit) then s
    else
      let d : Decoder := ⟨base, size, true, lock⟩
      { s with host := { s.host with hdm := if decoder_ = 0 then [d, d1] else [d0, d] } })

/-! ## Other host traffic -/

/-- HOST_REQUEST_ERROR (R333): answered with an error, and logged. -/
def execHostRequestError (kind : HostErr) (s : State) : Outcome :=
  .next (if !hostUp s then s
    else match kind with
    | .unsupported posted => hostErr (if posted then s else s.emit .unsupported)
    | .badBar0 write => hostErr (if write then s else s.emit (.abort true))
    | .malformed => hostErr s
    | .poisonBar0 => hostErr s
    | .badCxl => hostErr s)

/-- CONFIG_REQUEST (R319, R321, R331, R336): while the module boots it may answer with retry status; else the request completes. -/
def execConfigRequest (req : CfgReq) (retry : Bool) (s : State) : Outcome :=
  .next (if !hostUp s then s
    else if retry ∧ s.md.booting then s.emit (.config false)
    else
      let s := match req with
        | .other => s
        | .msix en mask =>
          let s := { s with msix := { s.msix with enable := en, fmask := mask } }
          s.msix.pba.foldl sendPending s
        | .rangeBase base =>
          if s.regField rHlink 1 0 = 1 then { s with host := { s.host with hdm := [⟨base, 1024, true, false⟩] } } else s
      s.emit (.config true))

/-- VIRAL (R334). -/
def execViral (s : State) : Outcome :=
  .next (if !hostUp s ∨ s.regField rHlink 1 0 = 0 then s else sendMsix (s.setField rHlink 12 12 1) 0)

/-- HOST_SNOOP (R328): a line that the module holds is answered, after the entries queued for it, and given up; one that an access
still waits for is asked for again. -/
def execHostSnoop (line : Nat) (s : State) : Outcome :=
  .next (if !s.host.held.any (fun h => h.1 == line) then s
    else
      let s := { s with host := { s.host with held := s.host.held.filter (fun h => h.1 != line) } }
      let s := drainLine s line
      let s := s.emit (.answer (readBytes s.mem (128 * line) 128) (isPoisoned s.poison (128 * line) 128))
      match s.host.waits.find? (fun w => w.line == line) with
      | none => s
      | some w => s.emit (.cache line w.own))

/-- CXL_CACHE_RESPONSE (R328): the host grants the line asked for, with its modified bytes or none; the waiting accesses are served
at the home. One that nothing waits for is dropped and logged (R333). -/
def execCxlCacheResponse (line : Nat) (data : List Byte) (ecc : EccRes) (s : State) : Outcome :=
  if data ≠ [] ∧ data.length ≠ 128 then .fault .malformed
  else .next (match s.host.waits.find? (fun w => w.line == line) with
    | none => hostErr s
    | some w =>
      let s := if data = [] then s else homeWrite s (128 * line) (data.map (·.toNat))
      let s := { s with host := { s.host with held := s.host.held.filter (fun h => h.1 != line) ++ [(line, w.own)] } }
      serveHeld line w.own ecc s.host.waits s)

end Sys2Proof.Machine
end

