-- ==== Sys2Proof/Machine/LupRx.lean ====
section
/-! DEFINITION. Receiving on the Lupin links: frames, checks, transit, requests, answers, doorbells, host memory for members, management
(R462, R471 to R476, R478, R480, R481, R486, R487, R489 to R493). -/

namespace Sys2Proof.Machine

/-! ## Frames (R471, R475, R476, R493) -/

/-- Whether this module's frames carry HOLD (R493). -/
def holding (s : State) : Bool := s.towersDown != [] || s.pwr.state != 0

/-- Frames up to ACKSEQ have arrived (R475). -/
def takeAck (k : LLink) (ack : Nat) : LLink :=
  match k.retry.findIdx? (fun p => p.1 == ack) with
  | none => k
  | some i => { k with retry := k.retry.drop (i + 1), nakRun := 0 }

/-- The class whose credits go back next: the classes in rotation (R476). -/
def creditTurn (k : LLink) : Nat :=
  ([1, 2, 3, 4].map (fun j => (k.crTurn + j) % 4)).find? (fun c => tget 0 k.owed c != 0) |>.getD k.crTurn

/-- Answers a frame with the control of the next one: acknowledgement, NAK, HOLD and the credits of one class. -/
def answerFrame (s : State) (l : Nat) (nak : Bool) : State :=
  let k := s.link l
  let c := creditTurn k
  let n := min 1023 (tget 0 k.owed c)
  let s := s.modLink l (fun k => { k with owed := tset 0 k.owed c (tget 0 k.owed c - n), crTurn := c })
  s.emit (.control l ((k.rxSeq + 4095) % 4096) nak (holding s) c n)

/-- Whether a link carries frames. -/
def linkLive (s : State) (l : Nat) : Bool := linkState s l == 2 || linkState s l == 3

/-- FRAME_RECEIVED (R471, R475, R476): a frame that fails its checks is NAKed and later ones are discarded until it comes again; a good
one in order is acknowledged, and its control and flits taken. `flits`: how many of each class, idle ones apart. -/
def execFrameReceived (link : Fin 8) (fseq ack : Fin 4096) (hold good : Bool) (flits : List (Fin 4 × Fin 21)) (crClass : Fin 4)
    (crCount : Fin 1024) (s : State) : Outcome :=
  .next (let l := link.val + 1
    if !linkLive s l then s
    else if !good then
      if (s.link l).naking then s else answerFrame (s.modLink l (fun k => { k with naking := true })) l true
    else if fseq.val ≠ (s.link l).rxSeq then s
    else
      let s := s.modLink l (fun k =>
        let k := returnCredit (takeAck k ack) crClass crCount
        { k with
          rxSeq := (k.rxSeq + 1) % 4096
          naking := false
          owed := flits.foldl (fun t f => tset 0 t f.1 (tget 0 t f.1 + f.2.val)) k.owed })
      let s := s.setField (rLstat l) 15 15 (if hold then 1 else 0)
      pumpLink (answerFrame s l false) l)

/-- Counts a resent frame; more than 100 in a second are logged (R475). -/
def countRetry (s : State) (l : Nat) : State :=
  let s := s.setField (rLerr l) 15 0 (satAdd 0xFFFF (s.regField (rLerr l) 15 0) 1)
  let sec := s.clk.tick / ticksPerSecond
  let c := (s.link l).retrySec
  let n := if c.sec = sec then c.cnt + 1 else 1
  let s := s.modLink l (fun k => { k with retrySec := ⟨sec, n⟩ })
  if n = 101 then lupLog s 0x06F5 1 l else s

/-- NAK (R475, R479): frames up to ACKSEQ have arrived, every later one is sent again; the eighth NAK in a row of one frame takes the
link down. -/
def execNak (link : Fin 8) (ack : Fin 4096) (s : State) : Outcome :=
  .next (let l := link.val + 1
    if !linkLive s l then s
    else
      let s := s.modLink l (fun k => { takeAck k ack with nakRun := (takeAck k ack).nakRun + 1 })
      if 8 ≤ (s.link l).nakRun then lowerLink s l 0 1
      else (s.link l).retry.foldl (fun s p => (countRetry s l).emit (.lupin l p.1 p.2)) s)

/-! ## Checks (R462, R480) -/

/-- A NACK with a reason (R480); a NACK draws none. -/
def nack (s : State) (m : LMsg) (reason : Nat) : State :=
  if m.typ = tNACK then s else sendMsg s { newMsg s tNACK m.label 0 m.src m.tag 0 .none with reason := reason }

/-- A malformed message is dropped, counted, logged once per second per link, and answered with a NACK; more than 16 in 1 ms
quarantine the link. -/
def dropMalformed (s : State) (l : Nat) (m : LMsg) (reason : Nat) : State :=
  let s := s.setField (rLerr l) 31 16 (satAdd 0xFFFF (s.regField (rLerr l) 31 16) 1)
  let k := s.link l
  let ms := s.clk.tick / ticksPerMs
  let n := if k.malMs.sec = ms then k.malMs.cnt + 1 else 1
  let sec := s.clk.tick / ticksPerSecond + 1
  let s := if k.malSec = sec then s else rasLog s (logEv 0x0608 (unitOf 11 l) (s.reg (rLstat l)).toNat)
  let s := s.modLink l (fun k => { k with malMs := ⟨ms, n⟩, malSec := sec })
  let s := nack s m reason
  if 16 < n then quarantine s l else s

/-- Whether LEN, SIZE and the operands are those of the type (R473, R474). -/
def shapeOk (m : LMsg) : Bool :=
  let t := m.typ
  decide (m.size < 8) && (match m.pay with
  | .none => t == tRD || t == tHOSTRD || t == tACK || t == tNACK
  | .data b => ((t == tWR || t == tRDRESP) && b.length == 2 ^ m.size) || (t == tHOSTWR && b.length != 0 && decide (b.length ≤ 256))
  | .atom op _ _ => t == tATOM && (m.size == 2 || m.size == 3) && decide (op < 11)
  | .lock _ _ c g th => t == tLOCK && m.size == 3 && decide (c < 576 ∧ g < 16 ∧ th < 32)
  | .pin _ n => t == tPIN && n != 0
  | .red o e b => t == tRED && b.length != 0 && decide (payUnits (.red o e b) ≤ 16) && b.length % elemSize o == 0
  | .word _ => t == tDOORBELL || t == tMSIX
  | .value _ _ => t == tATOMRESP || t == tACK || t == tMGMTRESP
  | .mboxAns _ _ _ _ => t == tMGMTRESP
  | .mboxGo _ _ _ _ _ => t == tMGMT
  | .routes _ _ _ => t == tMGMT
  | .failover _ _ => t == tMGMT
  | .linkDown _ _ => t == tMGMT
  | .mmio _ _ => t == tMGMT)

/-- Whether a type carries a device address (R473). -/
def hasAddr (t : Nat) : Bool := [tRD, tWR, tATOM, tLOCK, tPIN, tRED, tDOORBELL].contains t

/-- The link on which a message goes on, and the epoch it then carries (R485, R486). -/
def nextHop (s : State) (m : LMsg) : Nat × Bool :=
  let old := (tget (0, 0xF) s.lup.old m.dst).1
  if m.epoch = s.lup.epoch then ((routeTo s m.dst).1, m.epoch)
  else if linkLive s old then (old, m.epoch)
  else ((routeTo s m.dst).1, s.lup.epoch)

/-- Whether only the lead serves a message: host memory and interrupts of members, and what only the lead may do to them (R474, R490). -/
def leadOnly (m : LMsg) : Bool := [tHOSTRD, tHOSTWR, tMSIX].contains m.typ

/-- What only the lead sends: routes, failover tables, and firmware accesses to the BAR0 copy (R326, R486). -/
def fromLead (m : LMsg) : Bool := match m.pay with
  | .routes _ _ _ => true
  | .failover _ _ => true
  | .mmio _ _ => true
  | _ => false

/-- Whether a request names no address of this module at which its type is served (R480). -/
def offMap (s : State) (m : LMsg) : Bool :=
  let lo := addrLow m.addr
  match m.pay with
  | .none => m.typ == tRD && spaceOf s lo (2 ^ m.size) == .nowhere
  | .data bs => m.typ == tWR && spaceOf s lo bs.length == .nowhere
  | .atom _ _ _ => spaceOf s lo (2 ^ m.size) != .home
  | .lock _ _ _ _ _ => spaceOf s lo 8 != .home
  | .pin _ _ => spaceOf s lo 1 != .home
  | .red _ _ bs => spaceOf s lo bs.length != .home
  | .word _ => m.typ == tDOORBELL && lo != 0x00100000 && lo != 0x00100008
  | .mmio off _ => decide (0x04000000 ≤ off)
  | _ => false

/-- The lowest reason of R480 that a message meets. `flaw`: one that its framing or its reserved bits show, 0 for none. -/
def rxReason (s : State) (m : LMsg) (flaw : Nat) : Option Nat :=
  if flaw = 1 ∨ (m.dst = s.modId ∧ ((leadOnly m ∧ !isLead s) ∨ (fromLead m ∧ m.src ≠ 0))) then some 1
  else if !shapeOk m ∨ flaw = 2 then some 2
  else if flaw = 3 ∨ (m.dst ≠ s.modId ∧ (m.ttl ≤ 1 ∨ (!isMgmt m.typ ∧ !s.lup.members.contains m.dst) ∨ (nextHop s m).1 = 0)) then some 3
  else if flaw = 4 ∨ (hasAddr m.typ ∧ (m.addr % 2 ^ m.size ≠ 0 ∨ m.addr / 2 ^ 48 ≠ m.dst)) ∨ (m.dst = s.modId ∧ offMap s m) then some 4
  else if flaw = 0 then none else some flaw

/-- Records a request's TAG among the last 4,096 of its source (R487). -/
def recordTag (s : State) (m : LMsg) : State :=
  let l := tget [] s.lup.seen m.src ++ [m.tag]
  { s with lup := { s.lup with seen := tset [] s.lup.seen m.src (l.drop (l.length - 4096)) } }

/-- A message arrives on a link (R475, R480, R481, R486, R487): checked, sent on, or taken once by `f`. -/
def arriveMsg (link : Fin 8) (m : LMsg) (typ : Nat) (flaw : Fin 8) (s : State) (f : State → Nat → State) : Outcome :=
  if m.typ ≠ typ then .fault .malformed
  else .next (let l := link.val + 1
    if ¬ (linkState s l = 2 ∨ (linkState s l = 3 ∧ isMgmt typ)) then s
    else match rxReason s m flaw with
    | some r => dropMalformed s l m r
    | none =>
      if m.dst ≠ s.modId then
        let (o, e) := nextHop s m
        sendOn s o { m with ttl := m.ttl - 1, epoch := e }
      else if msgClass typ = some 0 then f s l
      else if (tget [] s.lup.seen m.src).contains m.tag then s
      else f (recordTag s m) l)

/-! ## Requests (R474, R489) -/

/-- RD. `ecc`: what the array read at the home finds. -/
def execRd (link : Fin 8) (msg : LMsg) (flaw : Fin 8) (ecc : EccRes) (s : State) : Outcome :=
  arriveMsg link msg tRD flaw s (fun s l => ingress s l msg ecc)
/-- WR. -/
def execWr (link : Fin 8) (msg : LMsg) (flaw : Fin 8) (s : State) : Outcome :=
  arriveMsg link msg tWR flaw s (fun s l => ingress s l msg [])
/-- ATOM. -/
def execAtom (link : Fin 8) (msg : LMsg) (flaw : Fin 8) (ecc : EccRes) (s : State) : Outcome :=
  arriveMsg link msg tATOM flaw s (fun s l => ingress s l msg ecc)
/-- LUPIN_LOCK. -/
def execLupinLock (link : Fin 8) (msg : LMsg) (flaw : Fin 8) (ecc : EccRes) (s : State) : Outcome :=
  arriveMsg link msg tLOCK flaw s (fun s l => ingress s l msg ecc)
/-- LUPIN_PIN. -/
def execLupinPin (link : Fin 8) (msg : LMsg) (flaw : Fin 8) (s : State) : Outcome :=
  arriveMsg link msg tPIN flaw s (fun s l => ingress s l msg [])
/-- RED. -/
def execRed (link : Fin 8) (msg : LMsg) (flaw : Fin 8) (s : State) : Outcome :=
  arriveMsg link msg tRED flaw s (fun s l => ingress s l msg [])

/-! ## Answers (R474, R478, R480, R489, R490) -/

/-- RDRESP: a descriptor that the lead read, or data for a request. -/
def execRdresp (link : Fin 8) (msg : LMsg) (flaw : Fin 8) (s : State) : Outcome :=
  arriveMsg link msg tRDRESP flaw s (fun s _ =>
    if msg.src = 0 ∧ s.lup.asks.any (fun a => a.1 == msg.tag) then takeDescriptor s msg else takeAnswer s msg)
/-- ACK. -/
def execAck (link : Fin 8) (msg : LMsg) (flaw : Fin 8) (s : State) : Outcome :=
  arriveMsg link msg tACK flaw s (fun s _ => takeAnswer s msg)
/-- ATOMRESP. -/
def execAtomresp (link : Fin 8) (msg : LMsg) (flaw : Fin 8) (s : State) : Outcome :=
  arriveMsg link msg tATOMRESP flaw s (fun s _ => takeAnswer s msg)
/-- NACK. A descriptor that the lead does not read is unreadable. -/
def execNack (link : Fin 8) (msg : LMsg) (flaw : Fin 8) (s : State) : Outcome :=
  arriveMsg link msg tNACK flaw s (fun s _ =>
    if msg.src = 0 ∧ s.lup.asks.any (fun a => a.1 == msg.tag) then takeDescriptor s msg else takeAnswer s msg)

/-- REMOTE_TIMEOUT (R489): no answer within 1 ms. The requesting rank is treated as under a core fault; a host read is aborted. A LOCK
that waits at its home is not overdue while its module has a route (DESIGN CHOICE, log 35; R494). -/
def execRemoteTimeout (module : Fin 64) (tag : Fin 65536) (s : State) : Outcome :=
  .next (match s.llc.remote.find? (fun r => r.tag == tag.val && addrModule r.req.addr == module.val) with
    | none => s
    | some r =>
      let waits : Bool := match r.req.kind with
        | .lockAcq _ => reaches s module
        | _ => false
      if waits ∨ s.clk.tick < r.at_ + ticksPerMs then s
      else
        let s := drainPort { s with llc := { s.llc with remote := s.llc.remote.erase r } } module
        match r.req.kind with
        | .hostRd _ _ => abortRead s
        | .hostWr => hostErr s
        | _ => stopCore s r.req.core rasCoreFault)

/-! ## Queues of members (R346, R490) -/

/-- REMOTE_DOORBELL: a doorbell written at the window of module m. -/
def execRemoteDoorbell (module : Fin 64) (head : Bool) (word : Word64) (s : State) : Outcome :=
  .next (let w := word.toNat
    if module.val = s.modId then (if head then ringCq s w else ringSq s w)
    else if !admOpen s then dropDoorbell s (nbits w 19 0)
    else if !isLead s ∨ !reaches s module then
      rasLog s { logEv 0x0605 (unitOf 10 0) (s.reg rHlink).toNat with queue := nbits w 19 0 }
    else
      let (tag, s) := takeTag s module
      sendRequest s (newMsg s tDOORBELL 15 3 module tag (module.val * 2 ^ 48 + 0x00100000 + (if head then 8 else 0)) (.word w)))

/-- LUPIN_DOORBELL: it takes effect when it arrives. -/
def execLupinDoorbell (link : Fin 8) (msg : LMsg) (flaw : Fin 8) (s : State) : Outcome :=
  arriveMsg link msg tDOORBELL flaw s (fun s _ =>
    let w := match msg.pay with
      | .word w => w
      | _ => 0
    reply (if addrLow msg.addr = 0x00100008 then ringCq s w else ringSq s w) msg tACK 0 .none)

/-- HOSTRD at the lead. `data`: what the host answers, or nothing. -/
def execHostrd (link : Fin 8) (msg : LMsg) (flaw : Fin 8) (data : List Byte) (s : State) : Outcome :=
  arriveMsg link msg tHOSTRD flaw s (fun s _ =>
    let n := 2 ^ msg.size
    let s := s.emit (.hostRead msg.addr n)
    if data.length = n then reply s msg tRDRESP 0 (.data (data.map (·.toNat)))
    else reply s msg tRDRESP 1 (.data (List.replicate n 0)))

/-- HOSTWR at the lead. -/
def execHostwr (link : Fin 8) (msg : LMsg) (flaw : Fin 8) (s : State) : Outcome :=
  arriveMsg link msg tHOSTWR flaw s (fun s _ => match msg.pay with
    | .data b => s.emit (.hostWrite msg.addr b)
    | _ => s)

/-- LUPIN_MSIX at the lead. -/
def execLupinMsix (link : Fin 8) (msg : LMsg) (flaw : Fin 8) (s : State) : Outcome :=
  arriveMsg link msg tMSIX flaw s (fun s _ => match msg.pay with
    | .word v => sendMsix s v
    | _ => s)

/-! ## Management (R326, R474, R484, R486, R491) -/

/-- A forwarded mailbox command at its target. -/
def mgmtGo (s : State) (m : LMsg) (n op : Nat) (req : List Nat) (plan : List (List Nat)) (num : Nat) : State :=
  let no := fun (st : Nat) => sendMsg s (newMsg s tMGMTRESP 15 0 m.src m.tag 0 (.mboxAns n st 0 []))
  if mbxDark s then s
  else if 16 ≤ n then no mWRONG_MAILBOX
  else if busyMbx s n then no mBUSY
  else mbxStart (setPayload s n (req.take 4096)) n false op req.length plan num (some (m.src, m.tag))

/-- What a management message does. -/
def mgmtAct (s : State) (l : Nat) (m : LMsg) : State :=
  let done := fun (s : State) (v : Nat) => reply s m tMGMTRESP 0 (.value v true)
  match m.pay with
  | .mboxGo n op req plan num => mgmtGo s m n op req plan num
  | .routes e table members => done (setMembers (newEpoch { s with lup := { s.lup with epoch := !e } } (routeTab table)) members) 0
  | .failover key table => done (if key = 0 ∧ table = [] then tablesReady s else storeFailover s key table) 0
  | .linkDown module link => done (takeNotice s l module link) 0
  | .mmio off none =>
    let (v, s) := bar0Read s 2 off
    done s v
  | .mmio off (some v) => done (regWrite s 2 off v) 0
  | _ => s

/-- MGMT. -/
def execMgmt (link : Fin 8) (msg : LMsg) (flaw : Fin 8) (s : State) : Outcome :=
  arriveMsg link msg tMGMT flaw s (fun s l => mgmtAct s l msg)

/-- MGMTRESP: the answer of a forwarded mailbox command ends it at the lead. -/
def execMgmtresp (link : Fin 8) (msg : LMsg) (flaw : Fin 8) (s : State) : Outcome :=
  arriveMsg link msg tMGMTRESP flaw s (fun s _ => match msg.pay with
    | .mboxAns n status detail answer =>
      match s.fw.calls.find? (fun c => c.mbx == n && c.fwd == some (msg.src, msg.tag)) with
      | none => s
      | some c => serveCalls (finish s c status detail answer)
    | _ => s)

end Sys2Proof.Machine
end

