-- ==== Sys2Proof/Machine/Side.lean ====
section
/-! DEFINITION. The sideband mirror, the link sideband, JTAG and the console (R398, R515, R539, R541). -/

namespace Sys2Proof.Machine

/-! ## The mirror space (R389, R398) -/

/-- A byte of the mirror space; the payload is unspecified while its mailbox is BUSY. -/
def mirrorByte (s : State) (o : Nat) : Nat :=
  let ofReg := fun (r : Nat) => (natLe 4 (s.reg (4 * (r / 4))).toNat).getD (r % 4) 0
  if o < 0xC then ofReg (rMbx 16 + o)
  else if 0x100 ≤ o ∧ o < 0x104 then ofReg (rLock + (o - 0x100))
  else if 0x200 ≤ o ∧ o < 0x238 then ofReg (rPstat 0 + (o - 0x200))
  else if 0x1000 ≤ o ∧ o < 0x2000 then
    if busyMbx s 16 then (Config.freeByte (s.fresh + (o - 0x1000))).toNat else (payload s 16).getD (o - 0x1000) 0
  else 0

/-- Bytes written from an offset: whole words of MBX_CMD, runs of the payload; the rest cannot be written. -/
def mirrorPut : Nat → Nat → List Nat → State → State
  | 0, _, _, s => s
  | _, _, [], s => s
  | f + 1, o, b :: bs, s =>
    if o = 0 ∧ 3 ≤ bs.length then mirrorPut f 4 (bs.drop 3) (writeMbxCmd s 1 16 (leNat (b :: bs.take 3)))
    else if 0x1000 ≤ o ∧ o < 0x2000 then
      let n := min (0x2000 - o) (bs.length + 1)
      mirrorPut f (o + n) ((b :: bs).drop n) (writePayload s 1 16 (o - 0x1000) ((b :: bs).take n))
    else mirrorPut f (o + 1) bs s

/-- A write that begins with an offset. -/
def mirrorWrite (s : State) (o : Nat) (b : List Nat) : State :=
  let s := { s with md := { s.md with sbOff := (o + b.length) % 65536 } }
  mirrorPut b.length o b s

/-- A read of `n` bytes from the current offset. -/
def mirrorRead (s : State) (n : Nat) : State :=
  let o := s.md.sbOff
  let b := (List.range n).map (fun i => mirrorByte s ((o + i) % 65536))
  ({ s with md := { s.md with sbOff := (o + n) % 65536 }, fresh := s.fresh + 4096 }).emit (.answer b false)

/-- I3C_PRIVATE_WRITE, in I3C mode. -/
def execI3cPrivateWrite (off : Fin 65536) (data : List Byte) (s : State) : Outcome :=
  .next (if sideDark s ∨ s.md.sbDyn.isNone then s else mirrorWrite s off (data.map (·.toNat)))

/-- I3C_PRIVATE_READ, in I3C mode. -/
def execI3cPrivateRead (n : Nat) (s : State) : Outcome :=
  .next (if sideDark s ∨ s.md.sbDyn.isNone then s else mirrorRead s n)

/-- SMBUS_BLOCK_WRITE, in SMBus mode: the offset and up to 30 bytes. -/
def execSmbusBlockWrite (off : Fin 65536) (data : List Byte) (s : State) : Outcome :=
  if 30 < data.length then .fault .malformed
  else .next (if sideDark s ∨ s.md.sbDyn.isSome then s else mirrorWrite s off (data.map (·.toNat)))

/-- SMBUS_BLOCK_READ, in SMBus mode: 32 bytes. -/
def execSmbusBlockRead (s : State) : Outcome := .next (if sideDark s ∨ s.md.sbDyn.isSome then s else mirrorRead s 32)

/-! ## Addresses (R539) -/

/-- Whether the sideband target has power (R536). -/
def sidePower (s : State) : Bool := s.md.input

/-- The target takes a dynamic address; a 3.3 V bus permits SMBus only. -/
def takeAddress (s : State) (addr : Nat) (v33 : Bool) : State :=
  if !sidePower s ∨ v33 then s else { s with md := { s.md with sbDyn := some addr } }

/-- ENTDAA: a target without a dynamic address takes part. -/
def execEntdaa (addr : Fin 128) (v33 : Bool) (s : State) : Outcome :=
  .next (if s.md.sbDyn.isSome then s else takeAddress s addr v33)

/-- SETDASA, sent to the static address 0x30 + MOD_ID[3:0]. -/
def execSetdasa (static addr : Fin 128) (v33 : Bool) (s : State) : Outcome :=
  .next (if s.md.sbDyn.isSome ∨ static.val ≠ 0x30 + s.md.straps % 16 then s else takeAddress s addr v33)

/-- RSTDAA: back to SMBus mode. -/
def execRstdaa (s : State) : Outcome := .next { s with md := { s.md with sbDyn := none } }

/-! ## The link sideband (R477, R541) -/

/-- LINK_SIDEBAND_REQUEST: the target at address 0x50 gives the module ID and the rate capability; while PERST_N is asserted, and after a
shutdown, the lines are released (R534). -/
def execLinkSidebandRequest (link : Fin 8) (s : State) : Outcome :=
  .next (if sidePower s ∧ ¬ s.md.perst ∧ ¬ s.md.off then s.emit (.sideband (link + 1) s.md.straps) else s)

/-! ## Debug (R515) -/

/-- Whether a licence with DEBUG is installed (R511). -/
def debugOn (s : State) : Bool := nbit (licFeatures s) 5

/-- The first use of a private instruction or of UART input is measured (R510): the DIGEST of that KIND is not given, and free. -/
def debugUse (s : State) : State :=
  if s.md.debug ∨ ¬ s.clk.run then s
  else
    let d := (List.range 64).map (fun i => (Config.freeByte (s.fresh + i)).toNat)
    let s := { s with fresh := s.fresh + 64, md := { s.md with debug := true } }
    measure s 5 0xFF 0xFF [] 0 d false

/-- JTAG_INSTRUCTION: the public ones change no state of the module, nor does EXTEST, which needs PERST_N asserted; every other is
ignored without the licence. What a private instruction does is not given. -/
def execJtagInstruction (ins : JtagIns) (s : State) : Outcome :=
  .next (match ins with
    | .bypass => s
    | .idcode => s
    | .sample => s
    | .extest => s
    | .other => if debugOn s then debugUse s else s)

/-- UART_INPUT: console input, ignored without the licence. -/
def execUartInput (data : List Byte) (s : State) : Outcome :=
  .next (if debugOn s ∧ s.clk.run then
      let s := debugUse s
      { s with md := { s.md with console := s.md.console ++ data.map (·.toNat) } }
    else s)

end Sys2Proof.Machine
end

