-- ==== Sys2Proof/Machine/Dispatch.lean ====
section
/-! DEFINITION. The dispatcher: one direct call of a meaning per command. -/

namespace Sys2Proof.Machine

/-- The effect of a command on everything but the queue. -/
def exec (i : Instr) (s : State) : Host.Outcome State Fault Refusal :=
  match i with
  | .ialu x op w => Sys2Proof.Machine.execIalu x op w s
  | .ialui x op signed w => Sys2Proof.Machine.execIalui x op signed w s
  | .idiv x op w => Sys2Proof.Machine.execIdiv x op w s
  | .falu x op w => Sys2Proof.Machine.execFalu x op w s
  | .falui x op w => Sys2Proof.Machine.execFalui x op w s
  | .fspec x op w => Sys2Proof.Machine.execFspec x op w s
  | .cmp x op w => Sys2Proof.Machine.execCmp x op w s
  | .cmpi x op signed w => Sys2Proof.Machine.execCmpi x op signed w s
  | .cvt x listed w => Sys2Proof.Machine.execCvt x listed w s
  | .mxq x listed w => Sys2Proof.Machine.execMxq x listed w s
  | .pred x op w => Sys2Proof.Machine.execPred x op w s
  | .xlane x op w => Sys2Proof.Machine.execXlane x op w s
  | .move x op w => Sys2Proof.Machine.execMove x op w s
  | .moviMov x w => Sys2Proof.Machine.execMoviMov x w s
  | .moviMovh x w => Sys2Proof.Machine.execMoviMovh x w s
  | .srkeyLoI x w => Sys2Proof.Machine.execSrkeyLoI x w s
  | .srkeyHiI x w => Sys2Proof.Machine.execSrkeyHiI x w s
  | .srkeyLoG x w => Sys2Proof.Machine.execSrkeyLoG x w s
  | .srkeyHiG x w => Sys2Proof.Machine.execSrkeyHiG x w s
  | .ldstLLd x w => Sys2Proof.Machine.execLdstLLd x w s
  | .ldstLLdS x w => Sys2Proof.Machine.execLdstLLdS x w s
  | .ldstLSt x w => Sys2Proof.Machine.execLdstLSt x w s
  | .ldstGLd x w => Sys2Proof.Machine.execLdstGLd x w s
  | .ldstGLdS x w => Sys2Proof.Machine.execLdstGLdS x w s
  | .ldstGSt x w => Sys2Proof.Machine.execLdstGSt x w s
  | .atomAdd x w => Sys2Proof.Machine.execAtomAdd x w s
  | .atomFadd x w => Sys2Proof.Machine.execAtomFadd x w s
  | .atomMinS x w => Sys2Proof.Machine.execAtomMinS x w s
  | .atomMinU x w => Sys2Proof.Machine.execAtomMinU x w s
  | .atomMaxS x w => Sys2Proof.Machine.execAtomMaxS x w s
  | .atomMaxU x w => Sys2Proof.Machine.execAtomMaxU x w s
  | .atomAnd x w => Sys2Proof.Machine.execAtomAnd x w s
  | .atomOr x w => Sys2Proof.Machine.execAtomOr x w s
  | .atomXor x w => Sys2Proof.Machine.execAtomXor x w s
  | .atomExch x w => Sys2Proof.Machine.execAtomExch x w s
  | .atomCas x w => Sys2Proof.Machine.execAtomCas x w s
  | .lockAcqL x w => Sys2Proof.Machine.execLockAcqL x w s
  | .lockAcqG x w => Sys2Proof.Machine.execLockAcqG x w s
  | .lockRelL x w => Sys2Proof.Machine.execLockRelL x w s
  | .lockRelG x w => Sys2Proof.Machine.execLockRelG x w s
  | .lockWake core addr => Sys2Proof.Machine.execLockWake core addr s
  | .lockRetry core addr => Sys2Proof.Machine.execLockRetry core addr s
  | .fenceW x w => Sys2Proof.Machine.execFenceW x w s
  | .fenceA x w => Sys2Proof.Machine.execFenceA x w s
  | .fenceAw x w => Sys2Proof.Machine.execFenceAw x w s
  | .bra x w => Sys2Proof.Machine.execBra x w s
  | .brx x w => Sys2Proof.Machine.execBrx x w s
  | .nop x w => Sys2Proof.Machine.execNop x w s
  | .exit x w => Sys2Proof.Machine.execExit x w s
  | .barG x w => Sys2Proof.Machine.execBarG x w s
  | .barT x w => Sys2Proof.Machine.execBarT x w s
  | .wait x w => Sys2Proof.Machine.execWait x w s
  | .pmcRead x w => Sys2Proof.Machine.execPmcRead x w s
  | .mma x w => Sys2Proof.Machine.execMma x w s
  | .attend x w => Sys2Proof.Machine.execAttend x w s
  | .append x w => Sys2Proof.Machine.execAppend x w s
  | .xfer x w => Sys2Proof.Machine.execXfer x w s
  | .reduce x w => Sys2Proof.Machine.execReduce x w s
  | .pin x w => Sys2Proof.Machine.execPin x w s
  | .unpin x w => Sys2Proof.Machine.execUnpin x w s
  | .groupOverdue core group => Sys2Proof.Machine.execGroupOverdue core group s
  | .joinTimeout core group thread => Sys2Proof.Machine.execJoinTimeout core group thread s
  | .barrierSplit core scope => Sys2Proof.Machine.execBarrierSplit core scope s
  | .loadResponse core => Sys2Proof.Machine.execLoadResponse core s
  | .writeAck core => Sys2Proof.Machine.execWriteAck core s
  | .mmaStart core => Sys2Proof.Machine.execMmaStart core s
  | .mmaLastProduct read => Sys2Proof.Machine.execMmaLastProduct read s
  | .drainStart core fault => Sys2Proof.Machine.execDrainStart core fault s
  | .drainComplete core mismatch => Sys2Proof.Machine.execDrainComplete core mismatch s
  | .burstEnd unit => Sys2Proof.Machine.execBurstEnd unit s
  | .gridStop unit => Sys2Proof.Machine.execGridStop unit s
  | .loadNotice unit => Sys2Proof.Machine.execLoadNotice unit s
  | .loadNoticeAck unit => Sys2Proof.Machine.execLoadNoticeAck unit s
  | .preRaiseReturn cluster => Sys2Proof.Machine.execPreRaiseReturn cluster s
  | .xferStart core => Sys2Proof.Machine.execXferStart core s
  | .xferComplete read seq => Sys2Proof.Machine.execXferComplete read seq s
  | .attnQuantum read => Sys2Proof.Machine.execAttnQuantum read s
  | .attendComplete core mismatch => Sys2Proof.Machine.execAttendComplete core mismatch s
  | .appendWriteAck core mismatch => Sys2Proof.Machine.execAppendWriteAck core mismatch s
  | .attnEngineFault cluster fault => Sys2Proof.Machine.execAttnEngineFault cluster fault s
  | .attnSelfTestComplete cluster pass => Sys2Proof.Machine.execAttnSelfTestComplete cluster pass s
  | .llcAccess half ecc => Sys2Proof.Machine.execLlcAccess half ecc s
  | .llcFillComplete line ecc victim => Sys2Proof.Machine.execLlcFillComplete line ecc victim s
  | .reductionEntryApplied half read => Sys2Proof.Machine.execReductionEntryApplied half read s
  | .mergeEntryTimeout half group ecc => Sys2Proof.Machine.execMergeEntryTimeout half group ecc s
  | .correctedRewrite addr => Sys2Proof.Machine.execCorrectedRewrite addr s
  | .residentRebuild addr => Sys2Proof.Machine.execResidentRebuild addr s
  | .rowSpared half bank row pass => Sys2Proof.Machine.execRowSpared half bank row pass s
  | .colSpared half bank mat bit => Sys2Proof.Machine.execColSpared half bank mat bit s
  | .hbmRowSpared stack addr => Sys2Proof.Machine.execHbmRowSpared stack addr s
  | .bundleParityError tower layer bundle => Sys2Proof.Machine.execBundleParityError tower layer bundle s
  | .controlCopyDisagree tower layer bundle => Sys2Proof.Machine.execControlCopyDisagree tower layer bundle s
  | .bundleTestComplete tower layer bundle lanes => Sys2Proof.Machine.execBundleTestComplete tower layer bundle lanes s
  | .repairPauseStart => Sys2Proof.Machine.execRepairPauseStart s
  | .repairPauseEnd => Sys2Proof.Machine.execRepairPauseEnd s
  | .bankWritebackComplete tower bank => Sys2Proof.Machine.execBankWritebackComplete tower bank s
  | .vbankRetired tower bank => Sys2Proof.Machine.execVbankRetired tower bank s
  | .recalibration tower cause regions => Sys2Proof.Machine.execRecalibration tower cause regions s
  | .marginNarrowApply tower region => Sys2Proof.Machine.execMarginNarrowApply tower region s
  | .monitorSample mons ioMons amps input vin => Sys2Proof.Machine.execMonitorSample mons ioMons amps input vin s
  | .sensorFailed monitor => Sys2Proof.Machine.execSensorFailed monitor s
  | .sensorSuspect tower => Sys2Proof.Machine.execSensorSuspect tower s
  | .bandRiseDelayed die => Sys2Proof.Machine.execBandRiseDelayed die s
  | .bandFall die => Sys2Proof.Machine.execBandFall die s
  | .setpointSettled cluster => Sys2Proof.Machine.execSetpointSettled cluster s
  | .ivrPhaseFailed domain phase => Sys2Proof.Machine.execIvrPhaseFailed domain phase s
  | .pathCheck domain drop expected => Sys2Proof.Machine.execPathCheck domain drop expected s
  | .pathStateChange domain => Sys2Proof.Machine.execPathStateChange domain s
  | .senseRouteFailure domain route => Sys2Proof.Machine.execSenseRouteFailure domain route s
  | .converterFailed unit plan => Sys2Proof.Machine.execConverterFailed unit plan s
  | .vvmFailed unit plan => Sys2Proof.Machine.execVvmFailed unit plan s
  | .domainOvercurrent domain => Sys2Proof.Machine.execDomainOvercurrent domain s
  | .inputOvervoltage => Sys2Proof.Machine.execInputOvervoltage s
  | .overvoltageRestart train => Sys2Proof.Machine.execOvervoltageRestart train s
  | .undervoltageLockout => Sys2Proof.Machine.execUndervoltageLockout s
  | .undervoltageRestart train => Sys2Proof.Machine.execUndervoltageRestart train s
  | .powerApplied train => Sys2Proof.Machine.execPowerApplied train s
  | .inrushGrant tower => Sys2Proof.Machine.execInrushGrant tower s
  | .clusterReady cluster => Sys2Proof.Machine.execClusterReady cluster s
  | .lightIdleEntry cluster => Sys2Proof.Machine.execLightIdleEntry cluster s
  | .targetEffective plan => Sys2Proof.Machine.execTargetEffective plan s
  | .curtailEnter plan => Sys2Proof.Machine.execCurtailEnter plan s
  | .curtailExit plan => Sys2Proof.Machine.execCurtailExit plan s
  | .powerStateEntry => Sys2Proof.Machine.execPowerStateEntry s
  | .classSample => Sys2Proof.Machine.execClassSample s
  | .epochEnd => Sys2Proof.Machine.execEpochEnd s
  | .arbiterGrant arbiter credits arrivals => Sys2Proof.Machine.execArbiterGrant arbiter credits arrivals s
  | .mark arbiter => Sys2Proof.Machine.execMark arbiter s
  | .rateRecovery master cls => Sys2Proof.Machine.execRateRecovery master cls s
  | .latencyWindowEmpty arbiter cls => Sys2Proof.Machine.execLatencyWindowEmpty arbiter cls s
  | .doorbell word => Sys2Proof.Machine.execDoorbell word s
  | .completionHeadDoorbell word => Sys2Proof.Machine.execCompletionHeadDoorbell word s
  | .remoteDoorbell module head word => Sys2Proof.Machine.execRemoteDoorbell module head word s
  | .admissionDecision stall => Sys2Proof.Machine.execAdmissionDecision stall s
  | .descriptorReadComplete bytes poison => Sys2Proof.Machine.execDescriptorReadComplete bytes poison s
  | .descriptorReadTimeout => Sys2Proof.Machine.execDescriptorReadTimeout s
  | .taskDispatch task => Sys2Proof.Machine.execTaskDispatch task s
  | .taskBoundary core errs ecc => Sys2Proof.Machine.execTaskBoundary core errs ecc s
  | .taskEnd task stall => Sys2Proof.Machine.execTaskEnd task stall s
  | .completionStallTimeout queue => Sys2Proof.Machine.execCompletionStallTimeout queue s
  | .spillMove => Sys2Proof.Machine.execSpillMove s
  | .meterExceeded core elapsed => Sys2Proof.Machine.execMeterExceeded core elapsed s
  | .segmentLimitExceeded core elapsed => Sys2Proof.Machine.execSegmentLimitExceeded core elapsed s
  | .rerun task => Sys2Proof.Machine.execRerun task s
  | .coreFault core => Sys2Proof.Machine.execCoreFault core s
  | .replayEvent task lost => Sys2Proof.Machine.execReplayEvent task lost s
  | .fenceComplete core => Sys2Proof.Machine.execFenceComplete core s
  | .restoreComplete core => Sys2Proof.Machine.execRestoreComplete core s
  | .checkpointWriteComplete core => Sys2Proof.Machine.execCheckpointWriteComplete core s
  | .reservationMove task rank => Sys2Proof.Machine.execReservationMove task rank s
  | .gridSelfTestComplete core rows cols other => Sys2Proof.Machine.execGridSelfTestComplete core rows cols other s
  | .gridSpared core => Sys2Proof.Machine.execGridSpared core s
  | .clusterReset cluster => Sys2Proof.Machine.execClusterReset cluster s
  | .clusterResetComplete cluster => Sys2Proof.Machine.execClusterResetComplete cluster s
  | .watchdogTrip proc detail stack => Sys2Proof.Machine.execWatchdogTrip proc detail stack s
  | .procRestartCounted proc cause detail stack => Sys2Proof.Machine.execProcRestartCounted proc cause detail stack s
  | .procRunning proc pass other key => Sys2Proof.Machine.execProcRunning proc pass other key s
  | .selfCheckPassed proc => Sys2Proof.Machine.execSelfCheckPassed proc s
  | .activationFailed proc => Sys2Proof.Machine.execActivationFailed proc s
  | .writeWindowOpen resource => Sys2Proof.Machine.execWriteWindowOpen resource s
  | .jobEnd job failed detail => Sys2Proof.Machine.execJobEnd job failed detail s
  | .jobExpiry job => Sys2Proof.Machine.execJobExpiry job s
  | .identify mbx irq req => Sys2Proof.Machine.execIdentify mbx irq req s
  | .getVersion mbx irq req => Sys2Proof.Machine.execGetVersion mbx irq req s
  | .openSession mbx irq req => Sys2Proof.Machine.execOpenSession mbx irq req s
  | .closeSession mbx irq req => Sys2Proof.Machine.execCloseSession mbx irq req s
  | .jobStatus mbx irq req progress => Sys2Proof.Machine.execJobStatus mbx irq req progress s
  | .lock mbx irq req => Sys2Proof.Machine.execLock mbx irq req s
  | .unlock mbx irq req => Sys2Proof.Machine.execUnlock mbx irq req s
  | .registerProgram mbx irq req => Sys2Proof.Machine.execRegisterProgram mbx irq req s
  | .withdrawProgram mbx irq req => Sys2Proof.Machine.execWithdrawProgram mbx irq req s
  | .loadContext mbx irq req => Sys2Proof.Machine.execLoadContext mbx irq req s
  | .unloadContext mbx irq req => Sys2Proof.Machine.execUnloadContext mbx irq req s
  | .loadGranules mbx irq req => Sys2Proof.Machine.execLoadGranules mbx irq req s
  | .queueCreate mbx irq req => Sys2Proof.Machine.execQueueCreate mbx irq req s
  | .queueModify mbx irq req => Sys2Proof.Machine.execQueueModify mbx irq req s
  | .queueReset mbx irq req => Sys2Proof.Machine.execQueueReset mbx irq req s
  | .queueDelete mbx irq req => Sys2Proof.Machine.execQueueDelete mbx irq req s
  | .queueQuery mbx irq req => Sys2Proof.Machine.execQueueQuery mbx irq req s
  | .scrub mbx irq req => Sys2Proof.Machine.execScrub mbx irq req s
  | .computeReset mbx irq req => Sys2Proof.Machine.execComputeReset mbx irq req s
  | .towerReset mbx irq req => Sys2Proof.Machine.execTowerReset mbx irq req s
  | .towerReady tower train suspect => Sys2Proof.Machine.execTowerReady tower train suspect s
  | .moduleReset mbx irq req => Sys2Proof.Machine.execModuleReset mbx irq req s
  | .powerStateRun mbx irq rest => Sys2Proof.Machine.execPowerStateRun mbx irq rest s
  | .powerStateDi mbx irq rest => Sys2Proof.Machine.execPowerStateDi mbx irq rest s
  | .powerStateSb mbx irq rest => Sys2Proof.Machine.execPowerStateSb mbx irq rest s
  | .powerTarget mbx irq req plan => Sys2Proof.Machine.execPowerTarget mbx irq req plan s
  | .powerQuery mbx irq req => Sys2Proof.Machine.execPowerQuery mbx irq req s
  | .licenceInstall mbx irq req => Sys2Proof.Machine.execLicenceInstall mbx irq req s
  | .licenceList mbx irq req => Sys2Proof.Machine.execLicenceList mbx irq req s
  | .attest mbx irq req => Sys2Proof.Machine.execAttest mbx irq req s
  | .dumpRead mbx irq req => Sys2Proof.Machine.execDumpRead mbx irq req s
  | .dumpClear mbx irq req => Sys2Proof.Machine.execDumpClear mbx irq req s
  | .procRestart mbx irq req => Sys2Proof.Machine.execProcRestart mbx irq req s
  | .updateBegin mbx irq req => Sys2Proof.Machine.execUpdateBegin mbx irq req s
  | .updateWrite mbx irq req => Sys2Proof.Machine.execUpdateWrite mbx irq req s
  | .updateVerify mbx irq req => Sys2Proof.Machine.execUpdateVerify mbx irq req s
  | .updateActivate mbx irq req => Sys2Proof.Machine.execUpdateActivate mbx irq req s
  | .updateAbort mbx irq req => Sys2Proof.Machine.execUpdateAbort mbx irq req s
  | .targetUnreachable mbx => Sys2Proof.Machine.execTargetUnreachable mbx s
  | .registerWrite iface off value => Sys2Proof.Machine.execRegisterWrite iface off value s
  | .admTickLoRead iface => Sys2Proof.Machine.execAdmTickLoRead iface s
  | .pwrPtickLoRead iface => Sys2Proof.Machine.execPwrPtickLoRead iface s
  | .llcRescfgWrite iface value => Sys2Proof.Machine.execLlcRescfgWrite iface value s
  | .rescfgApplied => Sys2Proof.Machine.execRescfgApplied s
  | .llcPlaceWrite iface e attr value => Sys2Proof.Machine.execLlcPlaceWrite iface e attr value s
  | .eccRgnRngWrite iface e value => Sys2Proof.Machine.execEccRgnRngWrite iface e value s
  | .eccRgnAttrWrite iface e value => Sys2Proof.Machine.execEccRgnAttrWrite iface e value s
  | .regionApplied bad => Sys2Proof.Machine.execRegionApplied bad s
  | .eccCclrWrite value => Sys2Proof.Machine.execEccCclrWrite value s
  | .admClmaskWrite iface cls hi value => Sys2Proof.Machine.execAdmClmaskWrite iface cls hi value s
  | .admCcfgWrite iface cls value => Sys2Proof.Machine.execAdmCcfgWrite iface cls value s
  | .admCoverWrite iface hi value => Sys2Proof.Machine.execAdmCoverWrite iface hi value s
  | .biasToHost count => Sys2Proof.Machine.execBiasToHost count s
  | .biasToDevice count => Sys2Proof.Machine.execBiasToDevice count s
  | .biasCommandComplete => Sys2Proof.Machine.execBiasCommandComplete s
  | .retrain iface link => Sys2Proof.Machine.execRetrain iface link s
  | .linkDisable iface link on => Sys2Proof.Machine.execLinkDisable iface link on s
  | .mbxDstatClear value => Sys2Proof.Machine.execMbxDstatClear value s
  | .freeze on occs => Sys2Proof.Machine.execFreeze on occs s
  | .pmcRingcfgWrite iface value => Sys2Proof.Machine.execPmcRingcfgWrite iface value s
  | .pmcCounterHiWrite off value => Sys2Proof.Machine.execPmcCounterHiWrite off value s
  | .pmcCounterLoWrite off value => Sys2Proof.Machine.execPmcCounterLoWrite off value s
  | .pmcCounterLoRead iface off occs => Sys2Proof.Machine.execPmcCounterLoRead iface off occs s
  | .dumpInterval occs late => Sys2Proof.Machine.execDumpInterval occs late s
  | .bandwidthWindowEnd occs => Sys2Proof.Machine.execBandwidthWindowEnd occs s
  | .counterWrap core m group pc skid spaced => Sys2Proof.Machine.execCounterWrap core m group pc skid spaced s
  | .bar2Read off n ecc => Sys2Proof.Machine.execBar2Read off n ecc s
  | .bar2Write off data poison => Sys2Proof.Machine.execBar2Write off data poison s
  | .cxlMemRead addr n ecc => Sys2Proof.Machine.execCxlMemRead addr n ecc s
  | .cxlMemWrite addr data poison => Sys2Proof.Machine.execCxlMemWrite addr data poison s
  | .hostRequestError kind => Sys2Proof.Machine.execHostRequestError kind s
  | .configRequest req retry => Sys2Proof.Machine.execConfigRequest req retry s
  | .viral => Sys2Proof.Machine.execViral s
  | .msixUnmask vector => Sys2Proof.Machine.execMsixUnmask vector s
  | .perstAssert => Sys2Proof.Machine.execPerstAssert s
  | .perstDeassert modId train => Sys2Proof.Machine.execPerstDeassert modId train s
  | .ready boot => Sys2Proof.Machine.execReady boot s
  | .hotReset linkDisable train => Sys2Proof.Machine.execHotReset linkDisable train s
  | .cxlReset memClear => Sys2Proof.Machine.execCxlReset memClear s
  | .d3hot enter => Sys2Proof.Machine.execD3hot enter s
  | .frameReceived link fseq ack hold good flits crClass crCount => Sys2Proof.Machine.execFrameReceived link fseq ack hold good flits crClass crCount s
  | .nak link ack => Sys2Proof.Machine.execNak link ack s
  | .rd link msg flaw ecc => Sys2Proof.Machine.execRd link msg flaw ecc s
  | .wr link msg flaw => Sys2Proof.Machine.execWr link msg flaw s
  | .atom link msg flaw ecc => Sys2Proof.Machine.execAtom link msg flaw ecc s
  | .lupinLock link msg flaw ecc => Sys2Proof.Machine.execLupinLock link msg flaw ecc s
  | .lupinPin link msg flaw => Sys2Proof.Machine.execLupinPin link msg flaw s
  | .red link msg flaw => Sys2Proof.Machine.execRed link msg flaw s
  | .rdresp link msg flaw => Sys2Proof.Machine.execRdresp link msg flaw s
  | .ack link msg flaw => Sys2Proof.Machine.execAck link msg flaw s
  | .atomresp link msg flaw => Sys2Proof.Machine.execAtomresp link msg flaw s
  | .nack link msg flaw => Sys2Proof.Machine.execNack link msg flaw s
  | .lupinDoorbell link msg flaw => Sys2Proof.Machine.execLupinDoorbell link msg flaw s
  | .hostrd link msg flaw data => Sys2Proof.Machine.execHostrd link msg flaw data s
  | .hostwr link msg flaw => Sys2Proof.Machine.execHostwr link msg flaw s
  | .lupinMsix link msg flaw => Sys2Proof.Machine.execLupinMsix link msg flaw s
  | .mgmt link msg flaw => Sys2Proof.Machine.execMgmt link msg flaw s
  | .mgmtresp link msg flaw => Sys2Proof.Machine.execMgmtresp link msg flaw s
  | .linkTraining link peer fa lanes slow => Sys2Proof.Machine.execLinkTraining link peer fa lanes slow s
  | .lupinLinkUp link present tables => Sys2Proof.Machine.execLupinLinkUp link present tables s
  | .lupinLaneLost link lane => Sys2Proof.Machine.execLupinLaneLost link lane s
  | .lupinLinkDown link absent => Sys2Proof.Machine.execLupinLinkDown link absent s
  | .linkdownNotice link module failed => Sys2Proof.Machine.execLinkdownNotice link module failed s
  | .failoverTables tables => Sys2Proof.Machine.execFailoverTables tables s
  | .remoteTimeout module tag => Sys2Proof.Machine.execRemoteTimeout module tag s
  | .i3cPrivateWrite off data => Sys2Proof.Machine.execI3cPrivateWrite off data s
  | .i3cPrivateRead n => Sys2Proof.Machine.execI3cPrivateRead n s
  | .smbusBlockWrite off data => Sys2Proof.Machine.execSmbusBlockWrite off data s
  | .smbusBlockRead => Sys2Proof.Machine.execSmbusBlockRead s
  | .entdaa addr v33 => Sys2Proof.Machine.execEntdaa addr v33 s
  | .rstdaa => Sys2Proof.Machine.execRstdaa s
  | .jtagInstruction ins => Sys2Proof.Machine.execJtagInstruction ins s
  | .uartInput data => Sys2Proof.Machine.execUartInput data s
  | .hostSnoop line => Sys2Proof.Machine.execHostSnoop line s
  | .cxlCacheResponse line data ecc => Sys2Proof.Machine.execCxlCacheResponse line data ecc s
  | .hdmDecoderCommit decoder base size lock => Sys2Proof.Machine.execHdmDecoderCommit decoder base size lock s
  | .setdasa static addr v33 => Sys2Proof.Machine.execSetdasa static addr v33 s
  | .linkSidebandRequest link => Sys2Proof.Machine.execLinkSidebandRequest link s

end Sys2Proof.Machine
end

