-- ==== Sys2Proof/Machine/Tick.lean ====
section
/-! DEFINITION. What the block does on an empty queue: one admission tick passes (R60, R396). -/

namespace Sys2Proof.Machine

/-- What the host link trained to before (R337: the link stays as it was trained). -/
def lastTrain (s : State) : HostTrain :=
  ⟨Fin.ofNat 3 (s.regField rHlink 1 0), Fin.ofNat 5 (s.regField rHlink 4 2), Fin.ofNat 5 (Nat.log2 (s.regField rHlink 9 5)),
   s.regBit rHlink 11⟩

/-- The admission counter, when it runs, counts one tick (R60; DESIGN CHOICE, log 2); commands that wait are served where they now can
be (R386, R389), and a module reset that a mailbox command asked for takes hold (R396). -/
def tickOne (s : State) : State :=
  if !s.clk.run then s
  else
    let s := { s with clk := { s.clk with tick := (s.clk.tick + 1) % 2 ^ 64 } }
    match s.md.resetIn with
    | some t => if t ≤ s.clk.tick then resetAndBoot s 4 (lastTrain s) else serveCalls s
    | none => serveCalls s

end Sys2Proof.Machine
end

