-- ==== Sys2Proof/WellFormed.lean ====
section
/-! DEFINITION. Well-formed commands: the word of a core instruction is one that its row may carry (R148, R149), list operands have a
length that the part can take, and a Lupin message is of the command's type (R474). -/

namespace Sys2Proof

open Sys2Proof.Machine

/-- The class, the OP where the manual lists one, and the word of a core instruction; none for another command. -/
def Instr.row (i : Instr) : Option (Nat × Option Nat × Word64) :=
  match i with
  | .ialu _ _ w => some (0x00, none, w)
  | .ialui _ _ _ w => some (0x0A, none, w)
  | .idiv _ _ w => some (0x01, none, w)
  | .falu _ _ w => some (0x02, none, w)
  | .falui _ _ w => some (0x0B, none, w)
  | .fspec _ _ w => some (0x03, none, w)
  | .cmp _ _ w => some (0x04, none, w)
  | .cmpi _ _ _ w => some (0x0C, none, w)
  | .cvt _ _ w => some (0x05, none, w)
  | .mxq _ _ w => some (0x06, none, w)
  | .pred _ _ w => some (0x07, none, w)
  | .xlane _ _ w => some (0x08, none, w)
  | .move _ _ w => some (0x09, none, w)
  | .moviMov _ w => some (0x0D, some 0, w)
  | .moviMovh _ w => some (0x0D, some 1, w)
  | .srkeyLoI _ w => some (0x0E, some 0, w)
  | .srkeyHiI _ w => some (0x0E, some 1, w)
  | .srkeyLoG _ w => some (0x0E, some 2, w)
  | .srkeyHiG _ w => some (0x0E, some 3, w)
  | .ldstLLd _ w => some (0x0F, some 0, w)
  | .ldstLLdS _ w => some (0x0F, some 1, w)
  | .ldstLSt _ w => some (0x0F, some 2, w)
  | .ldstGLd _ w => some (0x10, some 0, w)
  | .ldstGLdS _ w => some (0x10, some 1, w)
  | .ldstGSt _ w => some (0x10, some 2, w)
  | .atomAdd _ w => some (0x11, some 0, w)
  | .atomFadd _ w => some (0x11, some 1, w)
  | .atomMinS _ w => some (0x11, some 2, w)
  | .atomMinU _ w => some (0x11, some 3, w)
  | .atomMaxS _ w => some (0x11, some 4, w)
  | .atomMaxU _ w => some (0x11, some 5, w)
  | .atomAnd _ w => some (0x11, some 6, w)
  | .atomOr _ w => some (0x11, some 7, w)
  | .atomXor _ w => some (0x11, some 8, w)
  | .atomExch _ w => some (0x11, some 9, w)
  | .atomCas _ w => some (0x11, some 10, w)
  | .lockAcqL _ w => some (0x12, some 0, w)
  | .lockAcqG _ w => some (0x12, some 1, w)
  | .lockRelL _ w => some (0x12, some 2, w)
  | .lockRelG _ w => some (0x12, some 3, w)
  | .lockWake _ _ => none
  | .lockRetry _ _ => none
  | .fenceW _ w => some (0x13, some 0, w)
  | .fenceA _ w => some (0x13, some 1, w)
  | .fenceAw _ w => some (0x13, some 2, w)
  | .bra _ w => some (0x14, some 0, w)
  | .brx _ w => some (0x14, some 1, w)
  | .nop _ w => some (0x15, some 0, w)
  | .exit _ w => some (0x15, some 1, w)
  | .barG _ w => some (0x15, some 2, w)
  | .barT _ w => some (0x15, some 3, w)
  | .wait _ w => some (0x15, some 4, w)
  | .pmcRead _ w => some (0x16, some 0, w)
  | .mma _ w => some (0x17, some 0, w)
  | .attend _ w => some (0x18, some 0, w)
  | .append _ w => some (0x18, some 0, w)
  | .xfer _ w => some (0x19, some 0, w)
  | .reduce _ w => some (0x1A, some 0, w)
  | .pin _ w => some (0x1B, some 0, w)
  | .unpin _ w => some (0x1B, some 1, w)
  | .groupOverdue _ _ => none
  | .joinTimeout _ _ _ => none
  | .barrierSplit _ _ => none
  | .loadResponse _ => none
  | .writeAck _ => none
  | .mmaStart _ => none
  | .mmaLastProduct _ => none
  | .drainStart _ _ => none
  | .drainComplete _ _ => none
  | .burstEnd _ => none
  | .gridStop _ => none
  | .loadNotice _ => none
  | .loadNoticeAck _ => none
  | .preRaiseReturn _ => none
  | .xferStart _ => none
  | .xferComplete _ _ => none
  | .attnQuantum _ => none
  | .attendComplete _ _ => none
  | .appendWriteAck _ _ => none
  | .attnEngineFault _ _ => none
  | .attnSelfTestComplete _ _ => none
  | .llcAccess _ _ => none
  | .llcFillComplete _ _ _ => none
  | .reductionEntryApplied _ _ => none
  | .mergeEntryTimeout _ _ _ => none
  | .correctedRewrite _ => none
  | .residentRebuild _ => none
  | .rowSpared _ _ _ _ => none
  | .colSpared _ _ _ _ => none
  | .hbmRowSpared _ _ => none
  | .bundleParityError _ _ _ => none
  | .controlCopyDisagree _ _ _ => none
  | .bundleTestComplete _ _ _ _ => none
  | .repairPauseStart => none
  | .repairPauseEnd => none
  | .bankWritebackComplete _ _ => none
  | .vbankRetired _ _ => none
  | .recalibration _ _ _ => none
  | .marginNarrowApply _ _ => none
  | .monitorSample _ _ _ _ _ => none
  | .sensorFailed _ => none
  | .sensorSuspect _ => none
  | .bandRiseDelayed _ => none
  | .bandFall _ => none
  | .setpointSettled _ => none
  | .ivrPhaseFailed _ _ => none
  | .pathCheck _ _ _ => none
  | .pathStateChange _ => none
  | .senseRouteFailure _ _ => none
  | .converterFailed _ _ => none
  | .vvmFailed _ _ => none
  | .domainOvercurrent _ => none
  | .inputOvervoltage => none
  | .overvoltageRestart _ => none
  | .undervoltageLockout => none
  | .undervoltageRestart _ => none
  | .powerApplied _ => none
  | .inrushGrant _ => none
  | .clusterReady _ => none
  | .lightIdleEntry _ => none
  | .targetEffective _ => none
  | .curtailEnter _ => none
  | .curtailExit _ => none
  | .powerStateEntry => none
  | .classSample => none
  | .epochEnd => none
  | .arbiterGrant _ _ _ => none
  | .mark _ => none
  | .rateRecovery _ _ => none
  | .latencyWindowEmpty _ _ => none
  | .doorbell _ => none
  | .completionHeadDoorbell _ => none
  | .remoteDoorbell _ _ _ => none
  | .admissionDecision _ => none
  | .descriptorReadComplete _ _ => none
  | .descriptorReadTimeout => none
  | .taskDispatch _ => none
  | .taskBoundary _ _ _ => none
  | .taskEnd _ _ => none
  | .completionStallTimeout _ => none
  | .spillMove => none
  | .meterExceeded _ _ => none
  | .segmentLimitExceeded _ _ => none
  | .rerun _ => none
  | .coreFault _ => none
  | .replayEvent _ _ => none
  | .fenceComplete _ => none
  | .restoreComplete _ => none
  | .checkpointWriteComplete _ => none
  | .reservationMove _ _ => none
  | .gridSelfTestComplete _ _ _ _ => none
  | .gridSpared _ => none
  | .clusterReset _ => none
  | .clusterResetComplete _ => none
  | .watchdogTrip _ _ _ => none
  | .procRestartCounted _ _ _ _ => none
  | .procRunning _ _ _ _ => none
  | .selfCheckPassed _ => none
  | .activationFailed _ => none
  | .writeWindowOpen _ => none
  | .jobEnd _ _ _ => none
  | .jobExpiry _ => none
  | .identify _ _ _ => none
  | .getVersion _ _ _ => none
  | .openSession _ _ _ => none
  | .closeSession _ _ _ => none
  | .jobStatus _ _ _ _ => none
  | .lock _ _ _ => none
  | .unlock _ _ _ => none
  | .registerProgram _ _ _ => none
  | .withdrawProgram _ _ _ => none
  | .loadContext _ _ _ => none
  | .unloadContext _ _ _ => none
  | .loadGranules _ _ _ => none
  | .queueCreate _ _ _ => none
  | .queueModify _ _ _ => none
  | .queueReset _ _ _ => none
  | .queueDelete _ _ _ => none
  | .queueQuery _ _ _ => none
  | .scrub _ _ _ => none
  | .computeReset _ _ _ => none
  | .towerReset _ _ _ => none
  | .towerReady _ _ _ => none
  | .moduleReset _ _ _ => none
  | .powerStateRun _ _ _ => none
  | .powerStateDi _ _ _ => none
  | .powerStateSb _ _ _ => none
  | .powerTarget _ _ _ _ => none
  | .powerQuery _ _ _ => none
  | .licenceInstall _ _ _ => none
  | .licenceList _ _ _ => none
  | .attest _ _ _ => none
  | .dumpRead _ _ _ => none
  | .dumpClear _ _ _ => none
  | .procRestart _ _ _ => none
  | .updateBegin _ _ _ => none
  | .updateWrite _ _ _ => none
  | .updateVerify _ _ _ => none
  | .updateActivate _ _ _ => none
  | .updateAbort _ _ _ => none
  | .targetUnreachable _ => none
  | .registerWrite _ _ _ => none
  | .admTickLoRead _ => none
  | .pwrPtickLoRead _ => none
  | .llcRescfgWrite _ _ => none
  | .rescfgApplied => none
  | .llcPlaceWrite _ _ _ _ => none
  | .eccRgnRngWrite _ _ _ => none
  | .eccRgnAttrWrite _ _ _ => none
  | .regionApplied _ => none
  | .eccCclrWrite _ => none
  | .admClmaskWrite _ _ _ _ => none
  | .admCcfgWrite _ _ _ => none
  | .admCoverWrite _ _ _ => none
  | .biasToHost _ => none
  | .biasToDevice _ => none
  | .biasCommandComplete => none
  | .retrain _ _ => none
  | .linkDisable _ _ _ => none
  | .mbxDstatClear _ => none
  | .freeze _ _ => none
  | .pmcRingcfgWrite _ _ => none
  | .pmcCounterHiWrite _ _ => none
  | .pmcCounterLoWrite _ _ => none
  | .pmcCounterLoRead _ _ _ => none
  | .dumpInterval _ _ => none
  | .bandwidthWindowEnd _ => none
  | .counterWrap _ _ _ _ _ _ => none
  | .bar2Read _ _ _ => none
  | .bar2Write _ _ _ => none
  | .cxlMemRead _ _ _ => none
  | .cxlMemWrite _ _ _ => none
  | .hostRequestError _ => none
  | .configRequest _ _ => none
  | .viral => none
  | .msixUnmask _ => none
  | .perstAssert => none
  | .perstDeassert _ _ => none
  | .ready _ => none
  | .hotReset _ _ => none
  | .cxlReset _ => none
  | .d3hot _ => none
  | .frameReceived _ _ _ _ _ _ _ _ => none
  | .nak _ _ => none
  | .rd _ _ _ _ => none
  | .wr _ _ _ => none
  | .atom _ _ _ _ => none
  | .lupinLock _ _ _ _ => none
  | .lupinPin _ _ _ => none
  | .red _ _ _ => none
  | .rdresp _ _ _ => none
  | .ack _ _ _ => none
  | .atomresp _ _ _ => none
  | .nack _ _ _ => none
  | .lupinDoorbell _ _ _ => none
  | .hostrd _ _ _ _ => none
  | .hostwr _ _ _ => none
  | .lupinMsix _ _ _ => none
  | .mgmt _ _ _ => none
  | .mgmtresp _ _ _ => none
  | .linkTraining _ _ _ _ _ => none
  | .lupinLinkUp _ _ _ => none
  | .lupinLaneLost _ _ => none
  | .lupinLinkDown _ _ => none
  | .linkdownNotice _ _ _ => none
  | .failoverTables _ => none
  | .remoteTimeout _ _ => none
  | .i3cPrivateWrite _ _ => none
  | .i3cPrivateRead _ => none
  | .smbusBlockWrite _ _ => none
  | .smbusBlockRead => none
  | .entdaa _ _ => none
  | .rstdaa => none
  | .jtagInstruction _ => none
  | .uartInput _ => none
  | .hostSnoop _ => none
  | .cxlCacheResponse _ _ _ => none
  | .hdmDecoderCommit _ _ _ _ => none
  | .setdasa _ _ _ => none
  | .linkSidebandRequest _ => none

/-- Whether a word may stand in a row: it spells the row, or none (R149). -/
def rowWord (r : Nat × Option Nat × Word64) : Bool :=
  wordOk (match r.2.1 with
    | none => isClass r.1 r.2.2
    | some op => isRow r.1 op r.2.2) r.2.2

/-- What the operands of a command beside its word must be. -/
def Instr.operandsOk (i : Instr) : Bool :=
  match i with
  | .ialu _ _ _ => true
  | .ialui _ _ _ _ => true
  | .idiv _ _ _ => true
  | .falu _ _ _ => true
  | .falui _ _ _ => true
  | .fspec _ _ _ => true
  | .cmp _ _ _ => true
  | .cmpi _ _ _ _ => true
  | .cvt _ _ _ => true
  | .mxq _ _ _ => true
  | .pred _ _ _ => true
  | .xlane _ _ _ => true
  | .move _ _ _ => true
  | .moviMov _ _ => true
  | .moviMovh _ _ => true
  | .srkeyLoI _ _ => true
  | .srkeyHiI _ _ => true
  | .srkeyLoG _ _ => true
  | .srkeyHiG _ _ => true
  | .ldstLLd _ _ => true
  | .ldstLLdS _ _ => true
  | .ldstLSt _ _ => true
  | .ldstGLd _ _ => true
  | .ldstGLdS _ _ => true
  | .ldstGSt _ _ => true
  | .atomAdd _ _ => true
  | .atomFadd _ _ => true
  | .atomMinS _ _ => true
  | .atomMinU _ _ => true
  | .atomMaxS _ _ => true
  | .atomMaxU _ _ => true
  | .atomAnd _ _ => true
  | .atomOr _ _ => true
  | .atomXor _ _ => true
  | .atomExch _ _ => true
  | .atomCas _ _ => true
  | .lockAcqL _ _ => true
  | .lockAcqG _ _ => true
  | .lockRelL _ _ => true
  | .lockRelG _ _ => true
  | .lockWake _ _ => true
  | .lockRetry _ _ => true
  | .fenceW _ _ => true
  | .fenceA _ _ => true
  | .fenceAw _ _ => true
  | .bra _ _ => true
  | .brx _ _ => true
  | .nop _ _ => true
  | .exit _ _ => true
  | .barG _ _ => true
  | .barT _ _ => true
  | .wait _ _ => true
  | .pmcRead _ _ => true
  | .mma _ _ => true
  | .attend _ _ => true
  | .append _ _ => true
  | .xfer _ _ => true
  | .reduce _ _ => true
  | .pin _ _ => true
  | .unpin _ _ => true
  | .groupOverdue _ _ => true
  | .joinTimeout _ _ _ => true
  | .barrierSplit _ _ => true
  | .loadResponse _ => true
  | .writeAck _ => true
  | .mmaStart _ => true
  | .mmaLastProduct _ => true
  | .drainStart _ _ => true
  | .drainComplete _ _ => true
  | .burstEnd _ => true
  | .gridStop _ => true
  | .loadNotice _ => true
  | .loadNoticeAck _ => true
  | .preRaiseReturn _ => true
  | .xferStart _ => true
  | .xferComplete _ _ => true
  | .attnQuantum _ => true
  | .attendComplete _ _ => true
  | .appendWriteAck _ _ => true
  | .attnEngineFault _ _ => true
  | .attnSelfTestComplete _ _ => true
  | .llcAccess _ _ => true
  | .llcFillComplete _ _ _ => true
  | .reductionEntryApplied _ _ => true
  | .mergeEntryTimeout _ _ _ => true
  | .correctedRewrite _ => true
  | .residentRebuild _ => true
  | .rowSpared _ _ _ _ => true
  | .colSpared _ _ _ _ => true
  | .hbmRowSpared _ _ => true
  | .bundleParityError _ _ _ => true
  | .controlCopyDisagree _ _ _ => true
  | .bundleTestComplete _ _ _ _ => true
  | .repairPauseStart => true
  | .repairPauseEnd => true
  | .bankWritebackComplete _ _ => true
  | .vbankRetired _ _ => true
  | .recalibration _ _ _ => true
  | .marginNarrowApply _ _ => true
  | .monitorSample _ _ _ _ _ => true
  | .sensorFailed _ => true
  | .sensorSuspect _ => true
  | .bandRiseDelayed _ => true
  | .bandFall _ => true
  | .setpointSettled _ => true
  | .ivrPhaseFailed _ _ => true
  | .pathCheck _ _ _ => true
  | .pathStateChange _ => true
  | .senseRouteFailure _ _ => true
  | .converterFailed _ _ => true
  | .vvmFailed _ _ => true
  | .domainOvercurrent _ => true
  | .inputOvervoltage => true
  | .overvoltageRestart _ => true
  | .undervoltageLockout => true
  | .undervoltageRestart _ => true
  | .powerApplied _ => true
  | .inrushGrant _ => true
  | .clusterReady _ => true
  | .lightIdleEntry _ => true
  | .targetEffective _ => true
  | .curtailEnter _ => true
  | .curtailExit _ => true
  | .powerStateEntry => true
  | .classSample => true
  | .epochEnd => true
  | .arbiterGrant _ _ _ => true
  | .mark _ => true
  | .rateRecovery _ _ => true
  | .latencyWindowEmpty _ _ => true
  | .doorbell _ => true
  | .completionHeadDoorbell _ => true
  | .remoteDoorbell _ _ _ => true
  | .admissionDecision _ => true
  | .descriptorReadComplete _ _ => true
  | .descriptorReadTimeout => true
  | .taskDispatch _ => true
  | .taskBoundary _ _ _ => true
  | .taskEnd _ _ => true
  | .completionStallTimeout _ => true
  | .spillMove => true
  | .meterExceeded _ _ => true
  | .segmentLimitExceeded _ _ => true
  | .rerun _ => true
  | .coreFault _ => true
  | .replayEvent _ _ => true
  | .fenceComplete _ => true
  | .restoreComplete _ => true
  | .checkpointWriteComplete _ => true
  | .reservationMove _ _ => true
  | .gridSelfTestComplete _ _ _ _ => true
  | .gridSpared _ => true
  | .clusterReset _ => true
  | .clusterResetComplete _ => true
  | .watchdogTrip _ _ _ => true
  | .procRestartCounted _ _ _ _ => true
  | .procRunning _ _ _ _ => true
  | .selfCheckPassed _ => true
  | .activationFailed _ => true
  | .writeWindowOpen _ => true
  | .jobEnd _ _ _ => true
  | .jobExpiry _ => true
  | .identify _ _ _ => true
  | .getVersion _ _ _ => true
  | .openSession _ _ _ => true
  | .closeSession _ _ _ => true
  | .jobStatus _ _ _ _ => true
  | .lock _ _ _ => true
  | .unlock _ _ _ => true
  | .registerProgram _ _ _ => true
  | .withdrawProgram _ _ _ => true
  | .loadContext _ _ _ => true
  | .unloadContext _ _ _ => true
  | .loadGranules _ _ _ => true
  | .queueCreate _ _ _ => true
  | .queueModify _ _ _ => true
  | .queueReset _ _ _ => true
  | .queueDelete _ _ _ => true
  | .queueQuery _ _ _ => true
  | .scrub _ _ _ => true
  | .computeReset _ _ _ => true
  | .towerReset _ _ _ => true
  | .towerReady _ _ _ => true
  | .moduleReset _ _ _ => true
  | .powerStateRun _ _ _ => true
  | .powerStateDi _ _ _ => true
  | .powerStateSb _ _ _ => true
  | .powerTarget _ _ _ _ => true
  | .powerQuery _ _ _ => true
  | .licenceInstall _ _ _ => true
  | .licenceList _ _ _ => true
  | .attest _ _ _ => true
  | .dumpRead _ _ _ => true
  | .dumpClear _ _ _ => true
  | .procRestart _ _ _ => true
  | .updateBegin _ _ _ => true
  | .updateWrite _ _ _ => true
  | .updateVerify _ _ _ => true
  | .updateActivate _ _ _ => true
  | .updateAbort _ _ _ => true
  | .targetUnreachable _ => true
  | .registerWrite _ _ _ => true
  | .admTickLoRead _ => true
  | .pwrPtickLoRead _ => true
  | .llcRescfgWrite _ _ => true
  | .rescfgApplied => true
  | .llcPlaceWrite _ _ _ _ => true
  | .eccRgnRngWrite _ _ _ => true
  | .eccRgnAttrWrite _ _ _ => true
  | .regionApplied _ => true
  | .eccCclrWrite _ => true
  | .admClmaskWrite _ _ _ _ => true
  | .admCcfgWrite _ _ _ => true
  | .admCoverWrite _ _ _ => true
  | .biasToHost _ => true
  | .biasToDevice _ => true
  | .biasCommandComplete => true
  | .retrain _ _ => true
  | .linkDisable _ _ _ => true
  | .mbxDstatClear _ => true
  | .freeze _ _ => true
  | .pmcRingcfgWrite _ _ => true
  | .pmcCounterHiWrite _ _ => true
  | .pmcCounterLoWrite _ _ => true
  | .pmcCounterLoRead _ _ _ => true
  | .dumpInterval _ _ => true
  | .bandwidthWindowEnd _ => true
  | .counterWrap _ _ _ _ _ _ => true
  | .bar2Read off n _ => n != 0 && decide (off.val % 128 + n ≤ 128)
  | .bar2Write off data _ => data != [] && decide (off.val % 128 + data.length ≤ 128)
  | .cxlMemRead addr n _ => n != 0 && decide (addr % 64 + n ≤ 64)
  | .cxlMemWrite addr data _ => data != [] && decide (addr % 64 + data.length ≤ 64)
  | .hostRequestError _ => true
  | .configRequest _ _ => true
  | .viral => true
  | .msixUnmask _ => true
  | .perstAssert => true
  | .perstDeassert _ _ => true
  | .ready _ => true
  | .hotReset _ _ => true
  | .cxlReset _ => true
  | .d3hot _ => true
  | .frameReceived _ _ _ _ _ _ _ _ => true
  | .nak _ _ => true
  | .rd _ msg _ _ => msg.typ == 0x01
  | .wr _ msg _ => msg.typ == 0x02
  | .atom _ msg _ _ => msg.typ == 0x03
  | .lupinLock _ msg _ _ => msg.typ == 0x04
  | .lupinPin _ msg _ => msg.typ == 0x05
  | .red _ msg _ => msg.typ == 0x06
  | .rdresp _ msg _ => msg.typ == 0x10
  | .ack _ msg _ => msg.typ == 0x11
  | .atomresp _ msg _ => msg.typ == 0x12
  | .nack _ msg _ => msg.typ == 0x13
  | .lupinDoorbell _ msg _ => msg.typ == 0x20
  | .hostrd _ msg _ _ => msg.typ == 0x21
  | .hostwr _ msg _ => msg.typ == 0x22
  | .lupinMsix _ msg _ => msg.typ == 0x23
  | .mgmt _ msg _ => msg.typ == 0x30
  | .mgmtresp _ msg _ => msg.typ == 0x31
  | .linkTraining _ _ _ _ _ => true
  | .lupinLinkUp _ _ _ => true
  | .lupinLaneLost _ _ => true
  | .lupinLinkDown _ _ => true
  | .linkdownNotice _ _ _ => true
  | .failoverTables _ => true
  | .remoteTimeout _ _ => true
  | .i3cPrivateWrite _ _ => true
  | .i3cPrivateRead _ => true
  | .smbusBlockWrite _ data => decide (data.length ≤ 30)
  | .smbusBlockRead => true
  | .entdaa _ _ => true
  | .rstdaa => true
  | .jtagInstruction _ => true
  | .uartInput _ => true
  | .hostSnoop _ => true
  | .cxlCacheResponse _ data _ => data == [] || data.length == 128
  | .hdmDecoderCommit _ _ _ _ => true
  | .setdasa _ _ _ => true
  | .linkSidebandRequest _ => true

/-- Well-formedness. -/
def Instr.wf (i : Instr) : Bool := i.row.all rowWord && i.operandsOk

end Sys2Proof
end

