-- ==== Sys2Proof/Safety.lean ====
section
/-! DEFINITION. What the claims speak of: a sound state, registers as a program sees them, when an instruction issues, and the frames
that claims are made of. -/

namespace Sys2Proof.Machine

/-- The invariant: memory in canonical form, and only well-formed commands waiting. -/
def Sound (s : State) : Prop := Memory.wf s.mem = true ∧ ∀ c ∈ s.pending, c.wf = true

/-! ## Registers (R142 to R145) -/

/-- Group `g` of core `c`. -/
def grpOf (s : State) (c g : Nat) : Group := grp (s.core c) g
/-- Thread `t` of group `g` of core `c`. -/
def thrOf (s : State) (c g t : Nat) : Thread := thr (grpOf s c g) t
/-- R0 to R127 of a thread. -/
def gprOf (s : State) (c g t r : Nat) : Word := tget 0 (thrOf s c g t).gpr r
/-- U0 to U63 of a group. -/
def urfOf (s : State) (c g u : Nat) : Word := tget 0 (grpOf s c g).urf u
/-- P0 to P7 of a thread; P7 is true. -/
def predOf (s : State) (c g t p : Nat) : Bool := predVal (thrOf s c g t) p
/-- What thread `t` of an issuing set reads from a one-word source field. -/
def srcOf (s : State) (i : Ctx) (t code : Nat) : Word := readReg (grpOf s i.c i.g) i.mask t code
/-- What it reads from an `n`-word source field. -/
def wideOf (s : State) (i : Ctx) (t code n : Nat) : Nat := readWide (grpOf s i.c i.g) i.mask t code n

/-! ## Issue (R109, R147, R149, R162) -/

/-- The instruction issues now as `i`, its PC lies in the code section, its word is not poisoned, and no array it reads has an
error. -/
def Issues (s : State) (x : Site) (w : Word64) (regs preds : List Nat) (i : Ctx) : Prop :=
  issueCtx s x w regs preds = some i ∧ i.pc < codeSize s i.c ∧ fetchPoison s i = none ∧ x.err = .none

/-! ## Frames -/

/-- Nothing but core `c` and the performance counters changes. -/
def OnlyCore (s t : State) (c : Nat) : Prop :=
  t = { s with cores := t.cores, pmc := t.pmc } ∧ ∀ d, d ≠ c → t.core d = s.core d

/-- Of core `c`, nothing but its groups, its slot count, its instruction cache, its meters and its task counters changes. -/
def OnlyGroups (s t : State) (c : Nat) : Prop :=
  t.core c = { s.core c with groups := (t.core c).groups, slots := (t.core c).slots, icache := (t.core c).icache, meters := (t.core c).meters,
                             seg := (t.core c).seg, ext := (t.core c).ext, tcnt := (t.core c).tcnt }

/-- Every register of core `c` but `n` words from field `code` in the active threads of the issue (in the group, for a uniform one),
and every predicate but `p` of those threads, keeps its value. A `code` of ZERO or above excepts no register, a `p` of 7 no
predicate. -/
def RegFrame (s t : State) (i : Ctx) (code n p : Nat) : Prop :=
  (∀ g th r, ¬ (g = i.g ∧ th ∈ i.active ∧ code ≤ r ∧ r < code + n) → r < 0x80 → gprOf t i.c g th r = gprOf s i.c g th r) ∧
  (∀ g u, ¬ (g = i.g ∧ code ≤ 0x80 + u ∧ 0x80 + u < code + n) → u < 0x40 → urfOf t i.c g u = urfOf s i.c g u) ∧
  (∀ g th q, ¬ (g = i.g ∧ th ∈ i.active ∧ q = p) → q < 7 → predOf t i.c g th q = predOf s i.c g th q)

/-- `n` words at field `code` hold `v` for thread `th`: its own for a general register; for a uniform one, the lowest active
thread's (R143). ZERO holds nothing (R142). -/
def ThreadHolds (t : State) (i : Ctx) (th code n v : Nat) : Prop :=
  (code < 0x80 → ∀ j < n, gprOf t i.c i.g th (code + j) = BitVec.ofNat 32 (v >>> (32 * j))) ∧
  (0x80 ≤ code → code < 0xC0 → i.active.head? = some th → ∀ j < n,
    urfOf t i.c i.g (code - 0x80 + j) = BitVec.ofNat 32 (v >>> (32 * j)))

/-- The same for every active thread. -/
def RegHolds (t : State) (i : Ctx) (code n : Nat) (v : Nat → Nat) : Prop := ∀ th ∈ i.active, ThreadHolds t i th code n (v th)

/-- Every member of the issue stands at `pc`. -/
def AllAt (t : State) (i : Ctx) (pc : Nat) : Prop := ∀ th ∈ i.members, (thrOf t i.c i.g th).pc = pc

/-- No register and no predicate changes, and every member stands at PC + 8. -/
def NoRegs (s t : State) (i : Ctx) : Prop := RegFrame s t i 0xC0 0 7 ∧ AllAt t i (i.pc + 8)

/-- The effect of an instruction on registers alone. -/
def RegEffect (s t : State) (i : Ctx) (code n : Nat) (v : Nat → Nat) : Prop :=
  RegHolds t i code n v ∧ RegFrame s t i code n 7 ∧ AllAt t i (i.pc + 8) ∧ OnlyCore s t i.c ∧ OnlyGroups s t i.c

/-- The effect of an instruction on a predicate alone. -/
def PredEffect (s t : State) (i : Ctx) (p : Nat) (v : Nat → Bool) : Prop :=
  (p ≠ 7 → ∀ th ∈ i.active, predOf t i.c i.g th p = v th) ∧ RegFrame s t i 0xC0 0 p ∧ AllAt t i (i.pc + 8) ∧
    OnlyCore s t i.c ∧ OnlyGroups s t i.c

/-- Memory outside the listed ranges (address, length) keeps every byte. -/
def MemFrame (s t : State) (ranges : List (Nat × Nat)) : Prop :=
  ∀ b, (∀ p ∈ ranges, b < p.1 ∨ p.1 + p.2 ≤ b) → memGet t.mem b = memGet s.mem b

/-- Bytes `bs` stand in memory from `a`. -/
def MemHolds (t : State) (a : Nat) (bs : List Nat) : Prop := ∀ j < bs.length, memGet t.mem (a + j) = BitVec.ofNat 8 (bs.getD j 0)

/-- Whether no other listed range that comes after thread `th` meets `n` bytes from `a`. -/
def lastAt (ths : List Nat) (at_ : Nat → Nat) (n th : Nat) : Prop :=
  ∀ u ∈ ths, th < u → at_ u + n ≤ at_ th ∨ at_ th + n ≤ at_ u

/-- Whether no listed range that comes before thread `th` meets `n` bytes from its address. -/
def firstAt (ths : List Nat) (at_ : Nat → Nat) (n th : Nat) : Prop :=
  ∀ u ∈ ths, u < th → at_ u + n ≤ at_ th ∨ at_ th + n ≤ at_ u

/-- The task of the issue ends FAULTED with the fault of thread `th` as its record, the other members that fault with it counted
in FURTHER (R137, R170), when nothing is recorded yet and no core fault of the same tick comes before it (R140). -/
def FaultedFrom (s t : State) (i : Ctx) (th source : Nat) (x : Cause) : Prop :=
  ∀ k, coreTask s i.c = some k → k.fault = none → replayFirst s i.c = false → ∃ n < i.members.length, coreTask t i.c = some { k with
    stop := some ⟨stFAULTED, x.cause⟩, stopAt := s.clk.tick, fault := some { threadRec s i.c i.g th i.pc source x with further := n } }

/-- The same for a precise fault of the instruction itself (SOURCE 0). -/
def FaultedAs (s t : State) (i : Ctx) (th : Nat) (x : Cause) : Prop := FaultedFrom s t i th 0 x

/-- A request of the issue's thread `th` for address `a` waits on its way to a home of this module, numbered after those before. -/
def Requested (s t : State) (i : Ctx) (th a : Nat) (k : ReqKind) (id : Nat) : Prop :=
  s.llc.nextReq ≤ id ∧ (⟨id, i.c, i.g, th, a, k⟩ : Req) ∈ t.llc.reqs

/-- Nothing but core `c`, the counters and what leaves the core for the homes of lines changes. -/
def SendsOnly (s t : State) (c : Nat) : Prop :=
  t = { s with cores := t.cores, pmc := t.pmc, lup := t.lup, out := t.out,
               llc := { s.llc with nextReq := t.llc.nextReq, reqs := t.llc.reqs, remote := t.llc.remote } } ∧
    ∀ d, d ≠ c → t.core d = s.core d

/-- The own local-store ranges of the listed threads' accesses, as device addresses. -/
def ownRanges (c n : Nat) (ths : List Nat) (place : Nat → Place) : List (Nat × Nat) :=
  ths.filterMap (fun th => match place th with | .own off => some (lsAddr c + off, n) | .glob _ => none)

/-- Whether no other listed thread that comes before (after) thread `th` meets its own-store bytes. -/
def ownFirst (ths : List Nat) (place : Nat → Place) (n th off : Nat) : Prop :=
  ∀ u ∈ ths, u < th → ∀ o, place u = .own o → o + n ≤ off ∨ off + n ≤ o
def ownLast (ths : List Nat) (place : Nat → Place) (n th off : Nat) : Prop :=
  ∀ u ∈ ths, th < u → ∀ o, place u = .own o → o + n ≤ off ∨ off + n ≤ o

/-- The destination field a request carries: a uniform one only for the lowest active thread (R143). -/
def reqDst (i : Ctx) (th code : Nat) : Nat := if (0x80 ≤ code ∧ code < 0xC0) ∧ i.active.head? ≠ some th then 0xC0 else code
def isUni (code : Nat) : Bool := decide (0x80 ≤ code ∧ code < 0xC0)

/-- A general destination of thread `th` waits for request `id` (R109). -/
def Awaits (t : State) (i : Ctx) (th code n id : Nat) : Prop :=
  code < 0x80 → ∃ p ∈ (thrOf t i.c i.g th).pend, p.req = id ∧ p.regs = codeRange code n

/-- Earlier requests keep their places in the order of sending. -/
def ReqsKept (s t : State) : Prop := s.llc.reqs <+: t.llc.reqs

/-! ## What module events leave alone -/

/-- Memory, poison, cores and accepted tasks keep their value. -/
def Calm (s t : State) : Prop := t.mem = s.mem ∧ t.poison = s.poison ∧ t.cores = s.cores ∧ t.tasks = s.tasks

/-- And so do the cache halves. -/
def Still (s t : State) : Prop := Calm s t ∧ t.llc = s.llc

/-- One entry of the given code has entered the RAS log, at its head (R465, R466). -/
def Logged (s t : State) (code : Nat) : Prop :=
  fieldLe (tget [] t.ras.ring (s.regField rLogHead 11 0)) 8 2 = code ∧ t.ras.seq = (s.ras.seq + 1) % 2 ^ 32

/-- A repair is in the flash list while its window is open, and held until then otherwise (R38, R445). -/
def Recorded (s t : State) (r : Nat × Nat × Nat) : Prop :=
  if flashOpen s then t.ecc.repairs = s.ecc.repairs ++ [r] else t.ecc.held = s.ecc.held ++ [r]

/-- One more response waits for core `c`. -/
def Responded (s t : State) (c : Nat) (r : Resp) : Prop := (t.core c).resps = (s.core c).resps ++ [r]

/-- And the core's L1 loses the line of the response, also where a copy is on its way (R159). -/
def RespondedDropping (s t : State) (c : Nat) (r : Resp) : Prop :=
  t.core c = { l1Drop (s.core c) (r.addr / 128) with
    resps := (l1Drop (s.core c) (r.addr / 128)).resps ++ [r], atomLog := (t.core c).atomLog }

/-- Writes at these addresses of HBM bring in no line that could push out one whose copies differ: every line is held already, or no word
of this module is poisoned, no entry is queued and no line keeps an older copy (R251, R252, R301). -/
def MovesNoLine (s : State) (as : List Nat) : Prop :=
  (∀ a ∈ as, linePresent s a = true) ∨
    (s.poison = [] ∧ s.llc.reds = [] ∧ ∀ p ∈ s.llc.lines, p.2.saved = [] ∧ p.2.under = [])

/-- Writes of `n` bytes from `a` move no line whose copies differ and find no reduction entry of theirs queued (R251, R252, R301). -/
def WritesAlone (s : State) (a n : Nat) : Prop :=
  (∀ x, a ≤ x → x < a + n → linePresent s x = true ∧ ∀ e ∈ s.llc.reds, lineOf e.addr ≠ lineOf x) ∨
    (s.poison = [] ∧ s.llc.reds = [] ∧ ∀ p ∈ s.llc.lines, p.2.saved = [] ∧ p.2.under = [])

/-! ## Mailboxes -/

/-- A command as a mailbox holds it (R388, R389). -/
def callOf (n op : Nat) (req : List Nat) (irq : Bool) : Call := ⟨n, op, req, irq, false, [], 0, none, none⟩

/-- The module works, the mailbox is free and serves this module, no other command waits, and the serving processor runs. -/
def MbxFree (s : State) (n op : Nat) (req : List Nat) : Prop :=
  (if n = 16 then sideDark s else mbxDark s) = false ∧ busyMbx s n = false ∧ mbxTarget s n = s.modId ∧ s.fw.calls = [] ∧ s.fw.recovery = false ∧ req.length ≤ 4096 ∧
  ∀ q, serverOf (callOf n op req false) = some q → serves s q = true

/-- And the command passes the checks of R388 to R396: the mailbox takes it, its session is open, the request has its size, and no other
session locks its block. -/
def Served (s : State) (n op : Nat) (req : List Nat) : Prop :=
  MbxFree s n op req ∧ req.length = reqSize op req ∧
  ∃ k, catOf op = some k ∧ k.takes n = true ∧ (k.sess = true → s.md.opened = true ∧ ∃ x, s.session n = some x ∧ x.bad = false) ∧
    ∀ b, k.block = some b → lockedFor s n b = false

/-- The mailbox is DONE with the given status and answer (R389, R392). -/
def Answered (t : State) (n st : Nat) (bytes : List Nat) : Prop :=
  busyMbx t n = false ∧ t.regField (rMbx n + 4) 1 0 = stDoneM ∧ t.regField (rMbx n + 4) 15 8 = st ∧
  t.regField (rMbx n + 4) 28 16 = bytes.length ∧ (payload t n).take bytes.length = bytes

/-- A command has become a job (R390). -/
def Started (s t : State) (n op proc arg : Nat) (req : List Nat) : Prop :=
  ∃ id, t.fw.jobs = s.fw.jobs ++ [⟨id, n, op, proc, arg, req, s.clk.tick, none, 0, 0, []⟩] ∧ Answered t n mIN_PROGRESS (natLe 4 id)

/-- A job may start: fewer than 32 run. -/
def JobRoom (s : State) : Prop := (s.fw.jobs.filter (fun j => j.ended.isNone)).length < 32

/-! ## Registers of BAR0 -/

/-- Offsets of registers that follow their access codes alone: those that chapters 9 to 21 give a behaviour of their own are
written by commands of their own. -/
def PlainReg (off : Nat) : Prop :=
  ¬ (0x4000 ≤ off ∧ off < 0xC000) ∧ ¬ (0x10000 ≤ off ∧ off < 0x30000) ∧ off ≠ rDstat ∧ off ≠ rRescfg ∧
  ¬ (0x0200C100 ≤ off ∧ off < 0x0200C180) ∧ ¬ (0x0200E000 ≤ off ∧ off < 0x0200E200) ∧ off ≠ 0x0200E3FC ∧
  ¬ (0x00200100 ≤ off ∧ off < 0x00200200) ∧ off ≠ 0x00200020 ∧ off ≠ 0x00200024 ∧ ¬ (0x00200400 ≤ off ∧ off < 0x00200500) ∧
  off ≠ oBiasrng ∧ off ≠ oBiascmd ∧ ¬ (0x02010000 ≤ off ∧ off < 0x02010080 ∧ off % 16 = 8) ∧
  ¬ (0x02010200 ≤ off ∧ off < 0x02010240) ∧ off ≠ oRingcfg ∧ pairAt off = none ∧ off ≠ rAlert

/-- Registers whose change moves a value shown elsewhere. -/
def Followed (off : Nat) : Prop := off = oAdmCtrl ∨ off = oPwrCtrl ∨ off = oWwin ∨ off = oNvcfg

/-- A field after a write of `v` to its register, by its access code (R6, R395). -/
def FieldWritten (s t : State) (off : Nat) (v : Word) (f : Field) : Prop :=
  match f.acc with
  | .rw => t.regField off f.hi f.lo = bits v f.hi f.lo
  | .rwl => t.regField off f.hi f.lo = if locked s off then s.regField off f.hi f.lo else bits v f.hi f.lo
  | .w1c =>
    if clearsWhole off then t.regField off f.hi f.lo = if bits v f.hi f.lo = 0 then s.regField off f.hi f.lo else 0
    else ∀ b, f.lo ≤ b → b ≤ f.hi → t.regBit off b = (s.regBit off b && !v.getLsbD b)
  | _ => t.regField off f.hi f.lo = s.regField off f.hi f.lo

/-- The write of a register was dropped and counted once (R6, R548). -/
def Dropped (s t : State) (off : Nat) : Prop := Still s t ∧ t.reg off = s.reg off ∧ Logged s t 0x0607

/-! ## The dump ring (R526, R527) -/

/-- The next record of `len` bytes fits before the tail and the ring's end, and no lost record is owed a gap. -/
def RingRoom (s : State) (len : Nat) : Prop :=
  s.pmc.lost = 0 ∧ s.regField oRinghead 29 0 + len ≤ ringSize s ∧
  (s.regField oRinghead 29 0 + ringSize s - s.regField oRingtail 29 0 % ringSize s) % ringSize s + len < ringSize s

/-- One record stands at the old head, the head moves past it, and no other byte of memory changes. -/
def RecWritten (s t : State) (bs : List Nat) : Prop :=
  let h := s.regField oRinghead 29 0
  MemHolds t (ringBase + h) bs ∧ MemFrame s t [(ringBase + h, bs.length)] ∧
  t.regField oRinghead 29 0 = (h + bs.length) % ringSize s ∧ t.pmc.seq = (s.pmc.seq + 1) % 2 ^ 32

/-! ## Accesses of the host and of other modules at this module's homes -/

/-- No reduction entry is queued for the line of a local address. -/
def LineQuiet (s : State) (lo : Nat) : Prop := ∀ e ∈ s.llc.reds, lineOf e.addr ≠ lineOf lo

/-- The bytes lie in HBM, or in a resident granule without a source. -/
def Unsourced (s : State) (lo n : Nat) : Prop :=
  lo + n ≤ hbmEnd ∨ (hbmEnd ≤ lo ∧ tget 0 s.llc.sources ((lo - resBase) / mib2) = 0)

/-- What a clean read of a home answers beside its bytes: poison of a word of them, or of a retired tower (R301, R449). -/
def badRead (s : State) (lo n : Nat) : Bool := isPoisoned s.poison lo n || (towerAt s lo).any (fun t => towerRetired s t)

/-- The 16-byte words that `n` bytes from `a` meet hold poison: zero data, marked (R295, R301); no other byte of memory and no other mark
changes. -/
def PoisonPut (s t : State) (a n : Nat) : Prop :=
  ∀ b, if 16 * (a / 16) ≤ b ∧ b < 16 * ((a + n - 1) / 16) + 16 then memGet t.mem b = 0 ∧ isPoisoned t.poison b 1 = true
    else memGet t.mem b = memGet s.mem b ∧ isPoisoned t.poison b 1 = isPoisoned s.poison b 1

/-- Nothing of memory, poison, cores and tasks changes, and the module gives one more answer outward. -/
def Gives (s t : State) (o : Out) : Prop := Calm s t ∧ t.out = s.out ++ [o]

/-! ## Lupin messages -/

/-- A message of type `typ` arrives whole on a live link at this module, for the first time (R475, R480, R487). -/
def Arrives (s : State) (link : Fin 8) (m : LMsg) (typ : Nat) : Prop :=
  m.typ = typ ∧ linkState s (link.val + 1) = 2 ∧ rxReason s m 0 = none ∧ m.dst = s.modId ∧
  (msgClass typ = some 0 ∨ (tget [] s.lup.seen m.src).contains m.tag = false)

/-- A message of type `typ` for this module comes over a working link (R473, R480). -/
def Comes (s : State) (link : Fin 8) (m : LMsg) (typ : Nat) : Prop :=
  m.typ = typ ∧ m.dst = s.modId ∧ m.size < 8 ∧ linkState s (link.val + 1) = 2

/-- It is a request that has not come before, for an address of this module that is aligned to its size (R473, R480, R487). -/
def Asks (s : State) (link : Fin 8) (m : LMsg) (typ : Nat) : Prop :=
  Comes s link m typ ∧ m.addr / 2 ^ 48 = s.modId ∧ m.addr % 2 ^ m.size = 0 ∧ (tget [] s.lup.seen m.src).contains m.tag = false

/-- A message waits on, or has been sent over, the link of its route and is not acknowledged; without a route it goes nowhere (R475,
R485, R489). -/
def Sent (t : State) (m : LMsg) : Prop :=
  let l := (routeTo t m.dst).1
  l ≠ 0 → m ∈ (t.link l).txq ∨ ∃ q, (q, m) ∈ (t.link l).retry

/-- The answer to a request, and a NACK of it. -/
def answerTo (s : State) (m : LMsg) (typ status : Nat) (pay : LPay) : LMsg :=
  { newMsg s typ m.label m.size m.src m.tag 0 pay with status := status }
def nackTo (s : State) (m : LMsg) (reason : Nat) : LMsg := { newMsg s tNACK m.label 0 m.src m.tag 0 .none with reason := reason }

/-- The request of this module that a response or NACK answers (R487). -/
def Asked (s : State) (m : LMsg) (r : RemReq) : Prop :=
  s.llc.remote.find? (fun r => r.tag == m.tag && addrModule r.req.addr == m.src) = some r

end Sys2Proof.Machine
end

