-- ==== Sys2Proof/Certificates/Slice0/Obligations.lean ====
section
/-! DEFINITION. The statements for the provers. -/

open Sys2Proof Sys2Proof.Machine

/-- A step on a waiting command is the command's effect on the state with the rest of the queue; on an empty queue it is one tick
(DESIGN CHOICE, log 2). -/
def Obligations.StepRunsFrontCommand : Prop :=
  (∀ (s : State) (c : Instr) (rest : List Instr), s.pending = c :: rest → step s = exec c { s with pending := rest }) ∧
  (∀ s : State, s.pending = [] → step s = .next (tickOne s))

/-- Soundness at reset. -/
def Obligations.ResetIsSound : Prop := Sound State.reset

/-- Every step keeps soundness. -/
def Obligations.StepKeepsSound : Prop := ∀ s t : State, Sound s → step s = .next t → Sound t

/-- Results and frames of the register arithmetic of R98, R99 and R156. -/
def Obligations.ArithmeticWritesItsResult : Prop :=
  ∀ (s : State) (x : Site) (w : Word64) (i : Ctx),
    let r := fun th code => srcOf s i th code
    (∀ op : IaluOp, Issues s x w (ialuSrcs op w) [] i → legalA 0x00 [3, 4] w = true → (ialuSrcs op w).all (srcOk · 1) = true →
      dstOk (aDst w) 1 = true → ∃ t, exec (.ialu x (some op) w) s = .next t ∧ RegEffect s t i (aDst w) 1 (fun th =>
        (ialuOp op (aType w == 3) (r th (aSrcA w)) (r th (aSrcB w)) (r th (aSrcC w))).toNat)) ∧
    (∀ (op : IaluOp) (sg : Bool), op ≠ .mad → op ≠ .bswz → Issues s x w [bSrcA w] [] i → isClass 0x0A w = true →
      srcOk (bSrcA w) 1 = true → dstOk (bDst w) 1 = true → ∃ t, exec (.ialui x (some op) sg w) s = .next t ∧
        RegEffect s t i (bDst w) 1 (fun th => (ialuOp op sg (r th (bSrcA w)) (bImm w) 0).toNat)) ∧
    (∀ op : IdivOp, Issues s x w [aSrcA w, aSrcB w] [] i → legalA 0x01 [3, 4] w = true → srcOk (aSrcA w) 1 = true →
      srcOk (aSrcB w) 1 = true → dstOk (aDst w) 1 = true → (∀ th ∈ i.active, r th (aSrcB w) ≠ 0) →
      ∃ t, exec (.idiv x (some op) w) s = .next t ∧ RegEffect s t i (aDst w) 1 (fun th =>
        (idivOp op (aType w == 3) (r th (aSrcA w)) (r th (aSrcB w))).toNat)) ∧
    (∀ op : FaluOp, Issues s x w (faluSrcs op w) [] i → legalA 0x02 [0, 1, 2] w = true → (faluSrcs op w).all (srcOk · 1) = true →
      dstOk (aDst w) 1 = true → ∃ t, exec (.falu x (some op) w) s = .next t ∧ RegEffect s t i (aDst w) 1 (fun th =>
        faluOp op (aType w) (r th (aSrcA w)) (r th (aSrcB w)) (r th (aSrcC w)))) ∧
    (∀ op : FaluOp, op ≠ .fma → Issues s x w [bSrcA w] [] i → isClass 0x0B w = true → srcOk (bSrcA w) 1 = true →
      dstOk (bDst w) 1 = true → ∃ t, exec (.falui x (some op) w) s = .next t ∧
        RegEffect s t i (bDst w) 1 (fun th => faluOp op 0 (r th (bSrcA w)) (bImm w) 0)) ∧
    (Issues s x w [bSrcA w] [] i → isClass 0x0B w = true → srcOk (bSrcA w) 1 = true → dstOk (bDst w) 1 = true →
      ∃ t, exec (.falui x (some .fma) w) s = .next t ∧ RegEffect { s with fresh := s.fresh + 32 } t i (bDst w) 1 (fun th =>
        faluOp .fma 0 (r th (bSrcA w)) (bImm w) (Config.fmaAddend (s.fresh + th)))) ∧
    (∀ op : FspecOp, Issues s x w [aSrcA w] [] i → legalA 0x03 [0] w = true → srcOk (aSrcA w) 1 = true → dstOk (aDst w) 1 = true →
      ∃ t, exec (.fspec x (some op) w) s = .next t ∧
        RegEffect s t i (aDst w) 1 (fun th => (fspec (fspecCode op) (r th (aSrcA w))).toNat)) ∧
    (Issues s x w [aSrcA w] [] i → isClass 0x05 w = true → bits w 2 0 = 0 → bits w 15 12 = 0 → bits w 11 8 ≤ 0xC → aType w ≤ 0xC →
      srcOk (aSrcA w) 1 = true → dstOk (aDst w) 1 = true → ∃ t, exec (.cvt x true w) s = .next t ∧
        RegEffect s t i (aDst w) 1 (fun th => encodeT (aType w) (cvtRounding (grpOf s i.c i.g) th (aSr w)) (aSat w)
          (r th (aSrcA w)) (decodeT (bits w 11 8) (r th (aSrcA w)).toNat)) ∧
        ∀ th ∈ i.active, (thrOf t i.c i.g th).srCtr = (thrOf s i.c i.g th).srCtr + if aSr w then 1 else 0) ∧
    (∀ op : MoveOp, let n := if op = .mov64 then 2 else 1
      Issues s x w (codeRange (aSrcA w) n) [] i → legalA 0x09 [0, 1, 2, 3, 4] w = true → srcOk (aSrcA w) n = true →
      dstOk (aDst w) n = true → ∃ t, exec (.move x (some op) w) s = .next t ∧
        RegEffect s t i (aDst w) n (fun th => wideOf s i th (aSrcA w) n)) ∧
    (Issues s x w [] [] i → isRow 0x0D 0 w = true → dstOk (bDst w) 1 = true →
      ∃ t, exec (.moviMov x w) s = .next t ∧ RegEffect s t i (bDst w) 1 (fun _ => (bImm w).toNat)) ∧
    (Issues s x w [bDst w] [] i → isRow 0x0D 1 w = true → bits w 31 16 = 0 → dstOk (bDst w) 1 = true →
      ∃ t, exec (.moviMovh x w) s = .next t ∧
        RegEffect s t i (bDst w) 1 (fun th => bits w 15 0 * 2 ^ 16 + (r th (bDst w)).toNat % 2 ^ 16))

/-- Predicate results (R145, R152, R156). -/
def Obligations.ComparesWriteTheirPredicate : Prop :=
  ∀ (s : State) (x : Site) (w : Word64) (i : Ctx),
    let r := fun th code => srcOf s i th code
    (∀ op : CmpOp, Issues s x w [aSrcA w, aSrcB w] [] i → legalA 0x04 [0, 1, 2, 3, 4] w = true → srcOk (aSrcA w) 1 = true →
      srcOk (aSrcB w) 1 = true → ∃ t, exec (.cmp x (some op) w) s = .next t ∧
        PredEffect s t i (aPdst w) (fun th => cmpType (aType w) op (r th (aSrcA w)) (r th (aSrcB w)))) ∧
    (∀ (op : CmpOp) (sg : Bool), Issues s x w [bSrcA w] [] i → isClass 0x0C w = true → bits w 47 43 = 0 →
      srcOk (bSrcA w) 1 = true → ∃ t, exec (.cmpi x (some op) sg w) s = .next t ∧
        PredEffect s t i (bits w 42 40) (fun th => cmpType (if sg then 3 else 4) op (r th (bSrcA w)) (bImm w))) ∧
    (∀ op : PredOp, Issues s x w [] (predSrcs op w) i → legalA 0x07 [0, 1, 2, 3, 4] w = true →
      let a := fun th => predOf s i.c i.g th (aSrcA w % 8)
      let b := fun th => predOf s i.c i.g th (aSrcB w % 8)
      let put := fun v => ∃ t, exec (.pred x (some op) w) s = .next t ∧ PredEffect s t i (aPdst w) v
      (op = .and → put (fun th => a th && b th)) ∧ (op = .or → put (fun th => a th || b th)) ∧
      (op = .xor → put (fun th => a th != b th)) ∧ (op = .not → put (fun th => !a th)) ∧
      (op = .any → put (fun _ => i.active.any a)) ∧ (op = .all → put (fun _ => i.active.all a)) ∧
      (op = .ballot → dstOk (aDst w) 1 = true → ∃ t, exec (.pred x (some op) w) s = .next t ∧
        RegEffect s t i (aDst w) 1 (fun _ => (listMask (i.active.filter a)).toNat)))

/-- XLANE, MXQ and SRKEY (R101, R103, R143, R156). -/
def Obligations.LaneMovesBlockScaleAndKeys : Prop :=
  ∀ (s : State) (x : Site) (w : Word64) (i : Ctx),
    let r := fun th code => srcOf s i th code
    let key := fun (s : State) => (grpOf s i.c i.g).srKey.toNat
    let lo := fun (t : State) (v : Word) => key t % 2 ^ 32 = v.toNat ∧ key t / 2 ^ 32 = key s / 2 ^ 32
    let hi := fun (t : State) (v : Word) => key t / 2 ^ 32 = v.toNat ∧ key t % 2 ^ 32 = key s % 2 ^ 32
    let rest := fun (t : State) => NoRegs s t i ∧ OnlyCore s t i.c ∧ OnlyGroups s t i.c ∧
      (i.active = [] → key t = key s)
    (∀ op : XlaneOp, Issues s x w [aSrcA w, aSrcB w] [] i → legalA 0x08 [0, 1, 2, 3, 4] w = true → srcOk (aSrcA w) 1 = true →
      srcOk (aSrcB w) 1 = true → dstOk (aDst w) 1 = true →
      let lane := fun th => laneOf op th (r th (aSrcB w))
      let hit := fun th => decide (0 ≤ lane th ∧ lane th < 32) && i.active.contains (lane th).toNat
      ∃ t, exec (.xlane x (some op) w) s = .next t ∧
        RegHolds t i (aDst w) 1 (fun th => (r (if hit th then (lane th).toNat else th) (aSrcA w)).toNat) ∧
        (aPdst w ≠ 7 → ∀ th ∈ i.active, predOf t i.c i.g th (aPdst w) = hit th) ∧
        RegFrame s t i (aDst w) 1 (aPdst w) ∧ AllAt t i (i.pc + 8) ∧ OnlyCore s t i.c ∧ OnlyGroups s t i.c) ∧
    (Issues s x w [aSrcA w] [] i → legalA 0x06 [5, 6, 7, 8, 9, 0xC] w = true → srcOk (aSrcA w) 1 = true → dstOk (aDst w) 1 = true →
      dstOk (aSrcC w) 1 = true →
      let blk := allThreads.map (fun th => if i.active.contains th then f32V (r th (aSrcA w)) else .fin false 0 0)
      let sc := mxScale (aType w) blk
      ∃ t, exec (.mxq x true w) s = .next t ∧ RegHolds t i (aSrcC w) 1 (fun _ => sc) ∧
        (aDst w ≠ aSrcC w → RegHolds t i (aDst w) 1 (fun th =>
          mxElem (aType w) sc (cvtRounding (grpOf s i.c i.g) th (aSr w)) (f32V (r th (aSrcA w))))) ∧
        (∀ th ∈ i.active, (thrOf t i.c i.g th).srCtr = (thrOf s i.c i.g th).srCtr + if aSr w then 1 else 0) ∧
        (∀ g th q, q < 0x80 → ¬ (g = i.g ∧ th ∈ i.active ∧ (q = aDst w ∨ q = aSrcC w)) →
          gprOf t i.c g th q = gprOf s i.c g th q) ∧
        (∀ g u, u < 0x40 → ¬ (g = i.g ∧ (0x80 + u = aDst w ∨ 0x80 + u = aSrcC w)) → urfOf t i.c g u = urfOf s i.c g u) ∧
        (∀ g th q, q < 7 → predOf t i.c g th q = predOf s i.c g th q) ∧ AllAt t i (i.pc + 8) ∧ OnlyCore s t i.c ∧
        OnlyGroups s t i.c) ∧
    (Issues s x w [] [] i → isRow 0x0E 0 w = true → bDst w = 0xC0 → ∃ t, exec (.srkeyLoI x w) s = .next t ∧ rest t ∧
      (i.active ≠ [] → lo t (bImm w))) ∧
    (Issues s x w [] [] i → isRow 0x0E 1 w = true → bDst w = 0xC0 → ∃ t, exec (.srkeyHiI x w) s = .next t ∧ rest t ∧
      (i.active ≠ [] → hi t (bImm w))) ∧
    (Issues s x w [bSrcA w] [] i → isRow 0x0E 2 w = true → bDst w = 0xC0 → srcOk (bSrcA w) 1 = true →
      ∃ t, exec (.srkeyLoG x w) s = .next t ∧ rest t ∧ (∀ th, i.active.head? = some th → lo t (srcOf s i th (bSrcA w)))) ∧
    (Issues s x w [bSrcA w] [] i → isRow 0x0E 3 w = true → bDst w = 0xC0 → srcOk (bSrcA w) 1 = true →
      ∃ t, exec (.srkeyHiG x w) s = .next t ∧ rest t ∧ (∀ th, i.active.head? = some th → hi t (srcOf s i th (bSrcA w))))

/-- The precise faults of R137, R142, R147, R149, R162 and R303, and the core fault of R293. -/
def Obligations.ThreadsFaultPrecisely : Prop :=
  ∀ (s : State) (x : Site) (w : Word64) (i : Ctx),
    let fails := fun (c : Instr) (th : Nat) (f : Cause) =>
      ∃ t, exec c s = .next t ∧ FaultedAs s t i th f ∧ RegFrame s t i 0xC0 0 7 ∧ t.mem = s.mem
    (∀ th, i.members.head? = some th → Issues s x w [] [] i →
      (listedWord w = false → ∀ c ∈ [Instr.nop x w, .exit x w, .bra x w, .barG x w, .barT x w, .moviMov x w, .pmcRead x w, .fenceW x w,
        .srkeyLoI x w], fails c th ⟨cILLEGAL_INSTRUCTION, w.toNat, 0⟩) ∧
      (isRow 0x15 0 w = true → bits w 31 0 ≠ 0 ∨ bits w 47 40 ≠ 0 → fails (.nop x w) th ⟨cILLEGAL_INSTRUCTION, w.toNat, 0⟩)) ∧
    (∀ th, i.members.head? = some th → issueCtx s x w [] [] = some i → x.err = .none → codeSize s i.c ≤ i.pc →
      isRow 0x15 0 w = true →
      fails (.nop x w) th ⟨cBAD_TARGET, 0, 0⟩) ∧
    (∀ th, i.active.head? = some th → Issues s x w [] [] i → isRow 0x0D 0 w = true → dstOk (bDst w) 1 = false →
      fails (.moviMov x w) th ⟨cILLEGAL_OPERAND, 0, 0⟩) ∧
    (∀ (op : IdivOp) (th : Nat), Issues s x w [aSrcA w, aSrcB w] [] i → legalA 0x01 [3, 4] w = true →
      srcOk (aSrcA w) 1 = true → srcOk (aSrcB w) 1 = true → dstOk (aDst w) 1 = true →
      (i.active.filter (fun u => srcOf s i u (aSrcB w) == 0)).head? = some th →
      ∃ t, exec (.idiv x (some op) w) s = .next t ∧ FaultedAs s t i th ⟨cINT_DIV_ZERO, 0, 0⟩ ∧ t.mem = s.mem ∧
        (∀ u ∈ i.active, srcOf s i u (aSrcB w) = 0 → ∀ r, r < 0x80 → gprOf t i.c i.g u r = gprOf s i.c i.g u r) ∧
        (∀ u ∈ i.active, srcOf s i u (aSrcB w) ≠ 0 →
          ThreadHolds t i u (aDst w) 1 (idivOp op (aType w == 3) (srcOf s i u (aSrcA w)) (srcOf s i u (aSrcB w))).toNat)) ∧
    (∀ k a, issueCtx s x w [] [] = some i → x.err = .none → i.pc < codeSize s i.c → fetchPoison s i = some a → i.members ≠ [] →
      coreTask s i.c = some k → k.replays = 0 → isRow 0x15 0 w = true →
      ∃ t, exec (.nop x w) s = .next t ∧ (t.core i.c).phase = .stopped ∧ (t.core i.c).fault = cPOISONED ∧ t.mem = s.mem) ∧
    (issueCtx s x w [] [] = some i → x.err = .regUe → isRow 0x15 0 w = true →
      ∃ t, exec (.nop x w) s = .next t ∧ (t.core i.c).phase = .stopped ∧ (t.core i.c).fault = rasCoreFault ∧ t.mem = s.mem)

/-- LDST.L (R157, R158, R302). -/
def Obligations.LocalLoadsAndStores : Prop :=
  ∀ (s : State) (x : Site) (w : Word64) (i : Ctx),
    let n := mSize w
    let g := grpOf s i.c i.g
    let off := fun th => mLocal g i th
    (∀ sg : Bool, Issues s x w (codeRange (mBase w) 1) [] i →
      legalM 0x0F (if sg then 1 else 0) [0, 1, 2, 3, 4] false false w = true → srcOk (mBase w) 1 = true →
      dstOk (mData w) (sizeWords n) = true →
      (∀ th ∈ i.active, off th % n = 0 ∧ off th + n ≤ lsBytes ∧ firstPoison s.poison (lsAddr i.c + off th) n = none) →
      ∃ t, exec (if sg then .ldstLLdS x w else .ldstLLd x w) s = .next t ∧
        RegEffect s t i (mData w) (sizeWords n) (fun th => extendVal n sg (leNat (readBytes s.mem (lsAddr i.c + off th) n)))) ∧
    (Issues s x w (storeSrcs w 1) [] i → legalM 0x0F 2 [0, 1, 2, 3, 4] false false w = true → srcOk (mBase w) 1 = true →
      srcOk (mData w) (sizeWords n) = true → (∀ th ∈ i.active, off th % n = 0 ∧ off th + n ≤ lsBytes) →
      ∃ t, exec (.ldstLSt x w) s = .next t ∧
        (∀ th ∈ i.active, lastAt i.active off n th → MemHolds t (lsAddr i.c + off th) (storeData g i th w)) ∧
        MemFrame s t (i.active.map (fun th => (lsAddr i.c + off th, n))) ∧
        (∀ p, p ∈ t.poison ↔ p ∈ s.poison ∧ ∀ th ∈ i.active, ¬ (lsAddr i.c + off th ≤ 16 * p ∧ 16 * p + 16 ≤ lsAddr i.c + off th + n)) ∧
        NoRegs s t i ∧ OnlyCore s { t with mem := s.mem, poison := s.poison } i.c ∧ OnlyGroups s t i.c)

/-- LDST.G loads (R157 to R160, R228, R230, R234, R243). -/
def Obligations.GlobalLoads : Prop :=
  ∀ (s : State) (x : Site) (w : Word64) (i : Ctx) (sg : Bool) (at_ : Nat → Nat) (place : Nat → Place),
    let n := mSize w
    let g := grpOf s i.c i.g
    Issues s x w (codeRange (mBase w) 2) [] i → legalM 0x10 (if sg then 1 else 0) [0, 1, 2, 3, 4] true false w = true →
    srcOk (mBase w) 2 = true → dstOk (mData w) (sizeWords n) = true →
    (∀ th ∈ i.active, globalAccess s g i th n true false = .ok (at_ th, place th) ∧
      meetsPoison s i.c (at_ th) (place th) n (mCache w != 1) = none) →
    ∃ t, exec (if sg then .ldstGLdS x w else .ldstGLd x w) s = .next t ∧ SendsOnly s t i.c ∧ ReqsKept s t ∧
      RegFrame s t i (mData w) (sizeWords n) 7 ∧ AllAt t i (i.pc + 8) ∧
      ∀ th ∈ i.active,
        (∀ off, place th = .own off →
          ThreadHolds t i th (mData w) (sizeWords n) (extendVal n sg (leNat (readBytes s.mem (lsAddr i.c + off) n)))) ∧
        (∀ a l, place th = .glob a → mCache w ≠ 1 → l1Find (s.core i.c) (a / 128) = some l →
          ThreadHolds t i th (mData w) (sizeWords n) (extendVal n sg (fieldLe l.data (a % 128) n))) ∧
        (∀ a, place th = .glob a → (mCache w = 1 ∨ l1Find (s.core i.c) (a / 128) = none) → addrModule a = s.modId →
          ∃ id, Requested s t i th a (.load n sg (isUni (mData w)) (mCache w == 0) (reqDst i th (mData w))) id ∧
            Awaits t i th (mData w) (sizeWords n) id)

/-- LDST.G ST (R132, R157, R158, R159, R243). -/
def Obligations.GlobalStores : Prop :=
  ∀ (s : State) (x : Site) (w : Word64) (i : Ctx) (at_ : Nat → Nat) (place : Nat → Place),
    let n := mSize w
    let g := grpOf s i.c i.g
    Issues s x w (storeSrcs w 2) [] i → legalM 0x10 2 [0, 1, 2, 3, 4] true false w = true →
    srcOk (mBase w) 2 = true → srcOk (mData w) (sizeWords n) = true →
    (∀ th ∈ i.active, globalAccess s g i th n false true = .ok (at_ th, place th)) →
    ∃ t, exec (.ldstGSt x w) s = .next t ∧ SendsOnly s { t with mem := s.mem, poison := s.poison } i.c ∧ ReqsKept s t ∧
      NoRegs s t i ∧ MemFrame s t (ownRanges i.c n i.active place) ∧
      ∀ th ∈ i.active,
        (∀ off, place th = .own off → ownLast i.active place n th off → MemHolds t (lsAddr i.c + off) (storeData g i th w)) ∧
        (∀ a, place th = .glob a → (thrOf t i.c i.g th).writes = (thrOf s i.c i.g th).writes + 1 ∧
          (addrModule a = s.modId → ∃ id, Requested s t i th a (.store (storeData g i th w)) id))

/-- ATOM (R158, R159, R456). -/
def Obligations.AtomicsOfEveryOperation : Prop :=
  ∀ (s : State) (x : Site) (w : Word64) (i : Ctx) (at_ : Nat → Nat) (place : Nat → Place),
    let n := mSize w
    let g := grpOf s i.c i.g
    ∀ p ∈ [(0, Instr.atomAdd x w), (1, .atomFadd x w), (2, .atomMinS x w), (3, .atomMinU x w), (4, .atomMaxS x w),
        (5, .atomMaxU x w), (6, .atomAnd x w), (7, .atomOr x w), (8, .atomXor x w), (9, .atomExch x w), (10, .atomCas x w)],
    let v := fun th => atomArgs g i th p.1 w
    Issues s x w (atomSrcs p.1 w) [] i → legalM 0x11 p.1 (if p.1 = 1 then [2] else [2, 3]) false false w = true →
    srcOk (mBase w) 2 = true → atomDataOk p.1 n (mData w) = true →
    (∀ th ∈ i.active, globalAccess s g i th n true true = .ok (at_ th, place th) ∧
      meetsPoison s i.c (at_ th) (place th) n false = none) →
    ∃ t, exec p.2 s = .next t ∧ SendsOnly s { t with mem := s.mem } i.c ∧ ReqsKept s t ∧
      RegFrame s t i (mData w) (sizeWords n) 7 ∧ AllAt t i (i.pc + 8) ∧ MemFrame s t (ownRanges i.c n i.active place) ∧
      ∀ th ∈ i.active,
        (∀ off, place th = .own off → ownFirst i.active place n th off →
          let old := leNat (readBytes s.mem (lsAddr i.c + off) n)
          ThreadHolds t i th (mData w) (sizeWords n) old ∧ (ownLast i.active place n th off →
            MemHolds t (lsAddr i.c + off) (natLe n (atomOp p.1 n old (v th).1 (v th).2)))) ∧
        (∀ a, place th = .glob a → (∀ l ∈ (t.core i.c).l1, l.line ≠ a / 128) ∧
          match (s.core i.c).atomReplay.find? (fun l => l.group == i.g && l.thread == th) with
          | some l => ThreadHolds t i th (mData w) (sizeWords n) l.value
          | none => addrModule a = s.modId → ∃ id,
              Requested s t i th a (.atom p.1 n (isUni (mData w)) (reqDst i th (mData w)) (v th).1 (v th).2) id ∧
              Awaits t i th (mData w) (sizeWords n) id)

/-- LOCK.ACQ.L and LOCK.REL.L (R126 to R129, R158). -/
def Obligations.LocalLocks : Prop :=
  ∀ (s : State) (x : Site) (w : Word64) (i : Ctx),
    let g := grpOf s i.c i.g
    let off := fun th => mLocal g i th
    let word := fun th => s.word64 (lsAddr i.c + off th)
    let ok := ∀ th ∈ i.active, off th % 8 = 0 ∧ off th + 8 ≤ lsBytes ∧ isPoisoned s.poison (lsAddr i.c + off th) 8 = false
    let ranges := i.active.map (fun th => (lsAddr i.c + off th, 8))
    let wins := fun th => !nbit (word th) 0 && i.active.all (fun u => !(decide (u < th) && off u == off th))
    let lower := fun th => (i.active.filter (fun u => decide (u < th) && wins u)).length
    (Issues s x w (codeRange (mBase w) 1) [] i → legalLock 0 true w = true → srcOk (mBase w) 1 = true → ok →
      (∀ th ∈ i.active, acqFault (slotted s i) i th (.ls (off th)) (off th) (lower th) = none) →
      ∃ t, exec (.lockAcqL x w) s = .next t ∧ MemFrame s t ranges ∧ t.llc = s.llc ∧ t.regs = s.regs ∧
        (∀ th ∈ i.active, wins th = true → MemHolds t (lsAddr i.c + off th) (natLe 8 (lockWord i.c i.g th s.modId)) ∧
          ⟨false, off th⟩ ∈ (thrOf t i.c i.g th).held ∧
          (mPdst w ≠ 7 → predOf t i.c i.g th (mPdst w) = nbit (word th) 1)) ∧
        (∀ th ∈ i.active, wins th = false →
          (thrOf t i.c i.g th).block = .lock false (off th) (mPdst w))) ∧
    (Issues s x w (codeRange (mBase w) 1) [] i → legalLock 2 false w = true → srcOk (mBase w) 1 = true → ok →
      (∀ th ∈ i.active, ownsWord s (word th) i.c i.g th = true) →
      ∃ t, exec (.lockRelL x w) s = .next t ∧ MemFrame s t ranges ∧ t.llc = s.llc ∧ t.regs = s.regs ∧
        ∀ th ∈ i.active, match localWaiter (s.core i.c) (off th) with
          | none => MemHolds t (lsAddr i.c + off th) (natLe 8 0) ∧
              (thrOf t i.c i.g th).held.count ⟨false, off th⟩ = (thrOf s i.c i.g th).held.count ⟨false, off th⟩ - 1
          | some (h, u, p) => MemHolds t (lsAddr i.c + off th) (natLe 8 (lockWord i.c h u s.modId)) ∧
              ⟨false, off th⟩ ∈ (thrOf t i.c h u).held ∧ (∀ o q, (thrOf t i.c h u).block ≠ .lock false o q) ∧
              (p < 7 → predOf t i.c h u p = false))

/-- The global locks (R126 to R129, R158). -/
def Obligations.GlobalLocks : Prop :=
  ∀ (s : State) (x : Site) (w : Word64) (i : Ctx),
    let g := grpOf s i.c i.g
    let a := fun th => mGlobal g i th
    let dev := ∀ th ∈ i.active, lockAddr true s g i th = .ok (.dev (a th)) ∧ addrModule (a th) = s.modId ∧
      isPoisoned s.poison (addrLow (a th)) 8 = false
    (Issues s x w (codeRange (mBase w) 2) [] i → legalLock 1 true w = true → srcOk (mBase w) 2 = true → dev →
      (∀ th ∈ i.active, acqFault (slotted s i) i th (.dev (a th)) (a th) 0 = none) →
      ∃ t, exec (.lockAcqG x w) s = .next t ∧ t.mem = s.mem ∧ t.regs = s.regs ∧ ReqsKept s t ∧
        ∀ th ∈ i.active, (thrOf t i.c i.g th).block = .lock true (a th) (mPdst w) ∧
          ∃ id, Requested s t i th (a th) (.lockAcq (mPdst w)) id) ∧
    (Issues s x w (codeRange (mBase w) 2) [] i → legalLock 3 false w = true → srcOk (mBase w) 2 = true → dev →
      (∀ th ∈ i.active, ownsWord s (s.word64 (a th)) i.c i.g th = true) →
      ∃ t, exec (.lockRelG x w) s = .next t ∧ t.mem = s.mem ∧ t.regs = s.regs ∧ ReqsKept s t ∧
        ∀ th ∈ i.active, (thrOf t i.c i.g th).held = (thrOf s i.c i.g th).held.erase ⟨true, a th⟩ ∧
          ∃ id, Requested s t i th (a th) (.lockRel false) id) ∧
    (∀ (c : CoreId) (addr : Nat) (m : LockWait) (q : Nat),
      s.llc.wakes.find? (fun m => m.core == c.val && m.addr == addr) = some m →
      (thrOf s c m.group m.thread).block = .lock true addr q →
      ∃ t, exec (.lockWake c addr) s = .next t ∧ t.mem = s.mem ∧ t.llc = { s.llc with wakes := s.llc.wakes.erase m } ∧
        (thrOf t c m.group m.thread).held = (thrOf s c m.group m.thread).held ++ [⟨true, addr⟩] ∧
        (∀ o r, (thrOf t c m.group m.thread).block ≠ .lock true o r) ∧
        (m.pdst < 7 → predOf t c m.group m.thread m.pdst = m.lost)) ∧
    (∀ (c : CoreId) (addr : Nat) (m : LockWait), addrModule addr = s.modId →
      s.llc.unrecorded.find? (fun m => m.core == c.val && m.addr == addr) = some m →
      exec (.lockRetry c addr) s = .next { s with llc := { s.llc with
        unrecorded := s.llc.unrecorded.erase m, nextReq := s.llc.nextReq + 1,
        reqs := s.llc.reqs ++ [⟨s.llc.nextReq, c, m.group, m.thread, addr, .lockAcq m.pdst⟩] } })

/-- The fences (R133, R158). -/
def Obligations.FencesWaitAndInvalidate : Prop :=
  ∀ (s : State) (x : Site) (w : Word64) (i : Ctx), Issues s x w [] [] i →
    let late := fun th => decide ((thrOf s i.c i.g th).writes ≠ 0)
    let l1 := (s.core i.c).l1
    let done := fun (t : State) (waits : Nat → Bool) (inval : Bool) (after : List L1Line) =>
      NoRegs s t i ∧ t.mem = s.mem ∧ t.poison = s.poison ∧ t.regs = s.regs ∧ (∀ d, d ≠ i.c → t.core d = s.core d) ∧
      t.llc = { s.llc with remote := t.llc.remote } ∧
      t.llc.remote.map (fun r => { r with nofill := false }) = s.llc.remote.map (fun r => { r with nofill := false }) ∧
      (∀ th ∈ i.active, waits th = true → (thrOf t i.c i.g th).block = .fence inval) ∧
      (∀ th ∈ i.active, waits th = false → ∀ b, (thrOf t i.c i.g th).block = .fence b → (thrOf s i.c i.g th).block = .fence b) ∧ (t.core i.c).l1 = after
    (legalFence 0 w = true → ∃ t, exec (.fenceW x w) s = .next t ∧ done t late false l1) ∧
    (legalFence 1 w = true → ∃ t, exec (.fenceA x w) s = .next t ∧
      done t (fun _ => false) false (if i.active = [] then l1 else [])) ∧
    (legalFence 2 w = true → ∃ t, exec (.fenceAw x w) s = .next t ∧
      done t late true (if i.active.all late then l1 else []))

/-- Responses and acknowledgements (R109, R133, R160, R168, R303). -/
def Obligations.ResponsesReachTheirThread : Prop :=
  (∀ (s : State) (c : CoreId) (r : Resp) (rs : List Resp), (s.core c).resps = r :: rs →
    ∃ t, exec (.loadResponse c) s = .next t ∧ (t.core c).resps = rs ∧ t.mem = s.mem ∧
      (replayHeld (s.core c) = true → OnlyCore s t c ∧ (t.core c).groups = (s.core c).groups ∧ (t.core c).phase = (s.core c).phase) ∧
      (replayHeld (s.core c) = false → (∀ p ∈ (thrOf t c r.group r.thread).pend, p.req ≠ r.req) ∧
      (r.poison = false → ∀ p ∈ (thrOf s c r.group r.thread).pend, p.req = r.req → ∀ code ∈ p.regs, code < 0x80 →
        gprOf t c r.group r.thread code = BitVec.ofNat 32 (r.value >>> (32 * (code - r.dst)))) ∧
      (r.poison = true → (∀ g th q, gprOf t c g th q = gprOf s c g th q) ∧
        ∀ k, coreTask s c = some k → k.replays = 0 → (t.core c).phase = .stopped ∧ (t.core c).fault = cPOISONED))) ∧
  (∀ (s : State) (c : CoreId) (a : Ack) (as : List Ack), (s.core c).acks = a :: as →
    ∃ t, exec (.writeAck c) s = .next t ∧ (t.core c).acks = as ∧ t.mem = s.mem ∧
      (t.core c).writes = (s.core c).writes - 1 ∧
      (thrOf t c a.group a.thread).writes = (thrOf s c a.group a.thread).writes - 1 ∧
      (∀ inval, (thrOf s c a.group a.thread).block = .fence inval → (thrOf s c a.group a.thread).writes = 1 →
        (thrOf t c a.group a.thread).block ≠ .fence inval ∧ (inval = true → (t.core c).l1 = [])) ∧
      (a.poison = true → replayHeld (s.core c) = false → ∀ k, coreTask s c = some k → k.replays = 0 →
        (t.core c).phase = .stopped ∧ (t.core c).fault = cPOISONED))

/-- Branches (R112, R161). -/
def Obligations.BranchesMoveThreads : Prop :=
  ∀ (s : State) (x : Site) (w : Word64) (i : Ctx),
    let still := fun (t : State) => RegFrame s t i 0xC0 0 7 ∧ OnlyCore s t i.c ∧ OnlyGroups s t i.c
    let at_ := fun (t : State) th pc => (thrOf t i.c i.g th).pc = pc
    let to_ : Int := i.pc + 8 * cTgt w
    let v := fun th => (srcOf s i th (cReg w)).toNat
    (Issues s x w [] [] i → legalC 0x14 0 false false true true w = true → 0 ≤ to_ → to_ < codeSize s i.c →
      ∃ t, exec (.bra x w) s = .next t ∧ still t ∧ (∀ th ∈ i.active, at_ t th to_.toNat) ∧
        ∀ th ∈ i.members, th ∉ i.active → at_ t th (i.pc + 8)) ∧
    (∀ th, Issues s x w [] [] i → legalC 0x14 0 false false true true w = true → ¬ (0 ≤ to_ ∧ to_ < codeSize s i.c) →
      i.active.head? = some th → ∃ t, exec (.bra x w) s = .next t ∧ FaultedAs s t i th ⟨cBAD_TARGET, 0, 0⟩ ∧ t.mem = s.mem) ∧
    (Issues s x w [cReg w] [] i → legalC 0x14 1 false false false false w = true → srcOk (cReg w) 1 = true →
      (∀ th ∈ i.active, v th % 8 = 0 ∧ v th < codeSize s i.c) → ∃ t, exec (.brx x w) s = .next t ∧ still t ∧
        (∀ th ∈ i.active, at_ t th (v th)) ∧ ∀ th ∈ i.members, th ∉ i.active → at_ t th (i.pc + 8)) ∧
    (∀ th, Issues s x w [cReg w] [] i → legalC 0x14 1 false false false false w = true → srcOk (cReg w) 1 = true →
      (i.active.filter (fun u => v u % 8 != 0 || decide (codeSize s i.c ≤ v u))).head? = some th →
      ∃ t, exec (.brx x w) s = .next t ∧ FaultedAs s t i th ⟨cBAD_TARGET, 0, 0⟩ ∧ t.mem = s.mem) ∧
    (Issues s x w [] [] i → legalC 0x15 0 false false false false w = true →
      ∃ t, exec (.nop x w) s = .next t ∧ still t ∧ AllAt t i (i.pc + 8))

/-- EXIT (R113, R130, R161, R525). -/
def Obligations.ExitLeavesEverything : Prop :=
  ∀ (s : State) (x : Site) (w : Word64) (i : Ctx),
    let held := fun th => (thrOf s i.c i.g th).held
    Issues s x w [] [] i → legalC 0x15 1 false false false false w = true →
    (∀ th ∈ i.members, (thrOf s i.c i.g th).live = true ∧ (thrOf s i.c i.g th).block = .no) →
    ∃ t, exec (.exit x w) s = .next t ∧
      (∀ th ∈ i.active, (thrOf t i.c i.g th).live = false ∧ (thrOf t i.c i.g th).held = []) ∧
      (∀ th ∈ i.members, th ∉ i.active → (thrOf t i.c i.g th).pc = i.pc + 8 ∧ (thrOf t i.c i.g th).live = true) ∧
      tget 0 (t.core i.c).tcnt tcLockLost % 2 ^ 48 =
        (tget 0 (s.core i.c).tcnt tcLockLost + (i.active.map (fun th => (held th).length)).sum) % 2 ^ 48 ∧
      ((∀ th ∈ i.active, held th = []) → t.mem = s.mem ∧ t.llc = s.llc ∧ t.regs = s.regs)

/-- Barriers and tickets (R118, R120, R121, R125, R134, R135, R161). -/
def Obligations.BarriersHoldAndRelease : Prop :=
  ∀ (s : State) (x : Site) (w : Word64) (i : Ctx),
    let thrd := fun (s : State) (q : Nat × Nat) => thrOf s i.c q.1 q.2
    let act := i.active.map (fun th => (i.g, th))
    let liveG := (liveThreads (grpOf s i.c i.g)).map (fun th => (i.g, th))
    let liveT := coreLive (s.core i.c)
    let atG := fun q => (q ∈ act ∨ (thrd s q).block = .barG (cId w)) ∧ (thrd s q).settled = true
    let atT := fun q => (q ∈ act ∨ ∃ seg, (thrd s q).block = .barT (cId w) seg) ∧ (thrd s q).settled = true
    let marked := (act ≠ [] ∧ cSeg w = true) ∨ ∃ q ∈ liveT, (thrd s q).block = .barT (cId w) true
    let done := fun (c : Instr) (post : State → Prop) => ∃ t, exec c s = .next t ∧ NoRegs s t i ∧ t.mem = s.mem ∧ t.llc = s.llc ∧
      t.regs = s.regs ∧ post t
    let fails := fun (c : Instr) (th : Nat) (f : Nat) => ∃ t, exec c s = .next t ∧ FaultedAs s t i th ⟨f, 0, 0⟩ ∧ t.mem = s.mem
    (∀ th ∈ i.members, (thrOf s i.c i.g th).live = true ∧ (thrOf s i.c i.g th).block = .no) →
    (Issues s x w [] [] i → legalC 0x15 2 true false false false w = true →
      ((∃ q ∈ liveG, ¬ atG q) → done (.barG x w) (fun t => ∀ q ∈ act, (thrd t q).block = .barG (cId w))) ∧
      ((∀ q ∈ liveG, atG q) → act ≠ [] → done (.barG x w) (fun t => (∀ q ∈ liveG, ∀ n, (thrd t q).block ≠ .barG n) ∧
        (grpOf t i.c i.g).genG = (grpOf s i.c i.g).genG ^^^ BitVec.ofNat 16 (2 ^ cId w)))) ∧
    (Issues s x w [] [] i → legalC 0x15 3 true true false false w = true →
      (cSeg w = false ∨ ∀ q ∈ act, (thrd s q).held = []) →
      ((∃ q ∈ liveT, ¬ atT q) ∨ (marked ∧ ¬ (ticketsDone (s.core i.c) = true ∧ uniformPending (s.core i.c) = false)) →
        done (.barT x w) (fun t => ∀ q ∈ act, (thrd t q).block = .barT (cId w) (cSeg w))) ∧
      ((∀ q ∈ liveT, atT q) → act ≠ [] → ¬ marked → done (.barT x w) (fun t =>
        (∀ q ∈ liveT, ∀ n seg, (thrd t q).block ≠ .barT n seg) ∧
        (t.core i.c).genT = (s.core i.c).genT ^^^ BitVec.ofNat 16 (2 ^ cId w))) ∧
      ((∀ q ∈ liveT, atT q ∧ (thrd s q).held = []) → act ≠ [] → marked → ticketsDone (s.core i.c) = true →
        uniformPending (s.core i.c) = false → done (.barT x w) (fun t =>
          (t.core i.c).phase = .ckptWrite ∧ (t.core i.c).ckptNext.isSome = true))) ∧
    (∀ th, Issues s x w [] [] i → legalC 0x15 3 true true false false w = true → cSeg w = true →
      (i.active.filter (fun u => !(thrd s (i.g, u)).held.isEmpty)).head? = some th → fails (.barT x w) th cLOCK_ACROSS_SEGMENT) ∧
    (Issues s x w [cReg w] [] i → legalC 0x15 4 false false false false w = true → 0x80 ≤ cReg w → cReg w < 0xC0 →
      let v := (urfOf s i.c i.g (cReg w - 0x80)).toNat
      (ticketState (s.core i.c) v = some true → done (.wait x w) (fun t => ∀ q ∈ act, ∀ n, (thrd t q).block ≠ .ticket n)) ∧
      (ticketState (s.core i.c) v = some false → done (.wait x w) (fun t => ∀ q ∈ act, (thrd t q).block = .ticket v)) ∧
      (∀ th, ticketState (s.core i.c) v = none → i.active.head? = some th → fails (.wait x w) th cTICKET_INVALID)) ∧
    (∀ th, Issues s x w [cReg w] [] i → legalC 0x15 4 false false false false w = true → ¬ (0x80 ≤ cReg w ∧ cReg w < 0xC0) →
      i.active.head? = some th → fails (.wait x w) th cILLEGAL_OPERAND)

/-- PMC READ (R161, R524). -/
def Obligations.CounterReadsFromCode : Prop :=
  ∀ (s : State) (x : Site) (w : Word64) (i : Ctx) (k : Task),
    Issues s x w [] [] i → legalC 0x16 0 true false false false w = true → cId w < 12 → dstOk (cReg w) 2 = true →
    coreTask s i.c = some k →
    (userRead s = true → flagCounters k.flags = true → ∃ t, exec (.pmcRead x w) s = .next t ∧
      RegEffect s t i (cReg w) 2 (fun _ =>
        ((slotted s i).count (pairCore i.c (cId w)) + 2 ^ 48 - tget 0 (s.core i.c).base (cId w)) % 2 ^ 48)) ∧
    (∀ th, userRead s = false ∨ flagCounters k.flags = false → i.active.head? = some th →
      ∃ t, exec (.pmcRead x w) s = .next t ∧ FaultedAs s t i th ⟨cCOUNTER_DENIED, 0, 0⟩ ∧ RegFrame s t i 0xC0 0 7 ∧ t.mem = s.mem)

/-- Single-issue instructions (R115 to R119, R163, R165, R181, R183, R215, R263, R278). -/
def Obligations.DescriptorsAreQueuedForATicket : Prop :=
  ∀ (s : State) (x : Site) (w : Word64) (i : Ctx),
    let tick := 0x80 + dTkt w
    let still := fun (t : State) => OnlyCore s t i.c ∧ RegFrame s t i tick 1 7
    let holds := fun (t : State) v => urfOf t i.c i.g (dTkt w) = BitVec.ofNat 32 v
    let none_ := fun (c : Instr) => ∃ t, exec c s = .next t ∧ still t ∧ AllAt t i (i.pc + 8) ∧ holds t 0 ∧
      (t.core i.c).mmaQ = (s.core i.c).mmaQ ∧ (t.core i.c).xferQ = (s.core i.c).xferQ ∧ (t.core i.c).attnQ = (s.core i.c).attnQ
    let fails := fun (c : Instr) (th : Nat) (f : Cause) => ∃ t, exec c s = .next t ∧ FaultedFrom s t i th 1 f ∧
      RegFrame s t i 0xC0 0 7 ∧ t.mem = s.mem ∧
      (t.core i.c).mmaQ = (s.core i.c).mmaQ ∧ (t.core i.c).xferQ = (s.core i.c).xferQ ∧ (t.core i.c).attnQ = (s.core i.c).attnQ
    let k := s.core i.c
    (Issues s x w (descSrcs w 64) [] i → legalD 0x17 0 true false w = true → k.mmaQ.length < 8 →
      (i.active = [] → none_ (.mma x w)) ∧
      ∀ th d ls, i.active.head? = some th → readDesc s (grpOf s i.c i.g) i th 1 64 = .ok (d, ls) →
        (∀ f, mmaCheck s i th d = some f → fails (.mma x w) th f) ∧
        (mmaCheck s i th d = none → ∃ t, exec (.mma x w) s = .next t ∧ still t ∧ AllAt t i (i.pc + 8) ∧
          holds t (ticketOf kindMma k.ctrMma) ∧ (t.core i.c).ctrMma = (k.ctrMma + 1) % 2 ^ 24 ∧
          (t.core i.c).mmaQ = k.mmaQ ++ [⟨originOf s i th kindMma, d, ls, .queued⟩] ∧
          (t.core i.c).setRecs = tset none k.setRecs (mmaD d).acc
            (if (mmaD d).drain then none else some ⟨(mmaD d).atype, (mmaD d).btype, (mmaD d).mx⟩))) ∧
    (Issues s x w (descSrcs w 128) [] i → legalD 0x19 0 true false w = true → k.xferQ.length < 16 →
      (i.active = [] → none_ (.xfer x w)) ∧
      ∀ th d ls, i.active.head? = some th → readDesc s (grpOf s i.c i.g) i th 3 128 = .ok (d, ls) →
        (∀ f, xferCheck s i th d = some f → fails (.xfer x w) th f) ∧
        (xferCheck s i th d = none → ∃ t, exec (.xfer x w) s = .next t ∧ still t ∧ AllAt t i (i.pc + 8) ∧
          holds t (ticketOf kindXfer k.ctrXfer) ∧ (t.core i.c).ctrXfer = (k.ctrXfer + 1) % 2 ^ 24 ∧
          (t.core i.c).xferQ = k.xferQ ++ [⟨originOf s i th kindXfer, d, false,
            (k.attnQ.filter (fun p => attnIsAppend p.desc)).map (fun p => p.org.seq), openReds s i.c, 0, 0, []⟩])) ∧
    (Issues s x w (descSrcs w 128) [] i → legalD 0x18 0 true false w = true → k.attnQ.length < 4 →
      ∀ c ∈ [Instr.attend x w, .append x w],
      (i.active = [] → none_ c) ∧
      ∀ th d ls, i.active.head? = some th → readDesc s (grpOf s i.c i.g) i th 2 128 = .ok (d, ls) →
        (∀ f, attnCheck s i th d = some f → fails c th f) ∧
        (attnCheck s i th d = none → ∃ t, exec c s = .next t ∧ still t ∧ AllAt t i (i.pc + 8) ∧
          holds t (ticketOf kindAttn k.ctrAttn) ∧ (t.core i.c).ctrAttn = (k.ctrAttn + 1) % 2 ^ 24 ∧
          (t.core i.c).attnQ = k.attnQ ++ [⟨originOf s i th kindAttn, d, false, [], [], [], [], [], false, 0, 0, [], [], [], [], [], []⟩] ∧
          (t.core i.c).meters.attn = k.meters.attn + attnCount d))

/-- REDUCE, PIN and UNPIN (R166, R167, R246 to R250). -/
def Obligations.ReduceAndPinRequests : Prop :=
  ∀ (s : State) (x : Site) (w : Word64) (i : Ctx),
    let g := grpOf s i.c i.g
    (∀ (d : Nat → List Nat × Bool) (r : Nat → RedDo), Issues s x w (descSrcs w 32) [] i → legalD 0x1A 0 false false w = true →
      (s.core i.c).redOut + i.active.length ≤ 64 →
      (∀ th ∈ i.active, readDesc s g i th 4 32 = .ok (d th) ∧ redCheck s i (d th).1 = .ok (r th) ∧ (thrOf s i.c i.g th).redSkip = 0) →
      ∃ t, exec (.reduce x w) s = .next t ∧ RegFrame s t i 0xC0 0 7 ∧ AllAt t i (i.pc + 8) ∧ ReqsKept s t ∧
        (∀ th ∈ i.active, ∀ a, (r th).place = .glob a →
          (thrOf t i.c i.g th).writes = (thrOf s i.c i.g th).writes + 1 ∧
          ∃ id, (⟨id, i.c, i.g, th, (lineParts a (r th).data.length).length, false, false, a, none⟩ : RedReq) ∈ t.llc.redReqs ∧
            ∀ p ∈ lineParts a (r th).data.length, addrModule p.1 = s.modId → ∃ rid, Requested s t i th p.1
              (.reduce (r th).oper (r th).etype (((r th).data.drop (p.1 - a)).take p.2) id) rid) ∧
        (∀ th off, i.active = [th] → (r th).place = .own off →
          isPoisoned s.poison (lsAddr i.c + off) (r th).data.length = false → ∀ j, j < (r th).data.length / elemSize (r th).oper →
          MemHolds t (lsAddr i.c + off + elemSize (r th).oper * j) (redElem (r th).oper (r th).etype
            (readBytes s.mem (lsAddr i.c + off + elemSize (r th).oper * j) (elemSize (r th).oper))
            (((r th).data.drop (elemSize (r th).oper * j)).take (elemSize (r th).oper))).1)) ∧
    (∀ (un : Bool) (d : Nat → List Nat × Bool) (r : Nat → Nat × Place) (k : Task),
      Issues s x w (descSrcs w 16) [] i → legalD 0x1B (if un then 1 else 0) false true w = true → coreTask s i.c = some k →
      (∀ th ∈ i.active, readDesc s g i th 5 16 = .ok (d th) ∧ pinCheck s i (d th).1 = .ok (r th)) →
      ∃ t, exec (if un then .unpin x w else .pin x w) s = .next t ∧ t.mem = s.mem ∧ RegFrame s t i 0xC0 0 (dPdst w) ∧
        AllAt t i (i.pc + 8) ∧ ReqsKept s t ∧ ∀ th ∈ i.active, match (r th).2 with
          | .own _ => dPdst w ≠ 7 → predOf t i.c i.g th (dPdst w) = true
          | .glob a => addrModule a = s.modId →
            (isHbm a = false → dPdst w ≠ 7 → predOf t i.c i.g th (dPdst w) = true) ∧
            (isHbm a = true → ∃ id, (⟨id, i.c, i.g, th, dPdst w, (r th).1 / 128, true⟩ : PinReq) ∈ t.llc.pinReqs ∧
              ∀ j, j < (r th).1 / 128 → addrModule (a + 128 * j) = s.modId →
                ∃ rid, Requested s t i th (a + 128 * j) (.pinLine un k.cls id) rid))

/-- The phases of an MMA (R182 to R186, R200, R201). -/
def Obligations.MatrixEventsAdvanceTheQueue : Prop :=
  ∀ (s : State) (c : CoreId) (o : MmaOp),
    let k := s.core c
    let d := mmaD o.desc
    let gone := fun (t : State) => ∀ p ∈ (t.core c).mmaQ, p.org.seq ≠ o.org.seq
    let stands := fun (t : State) ph => ∃ p ∈ (t.core c).mmaQ, p.org = o.org ∧ p.phase = ph
    let begun := fun (m : List Host.Cell) => startSet m c d (accOf k d.acc) (Config.zeroTileL s.fresh)
    coreIssues s c = true →
    (k.mmaQ.find? (fun o => o.phase == .queued) = some o → mmaMayStart k o = true →
      feederPoison s c d = none → ∃ t, exec (.mmaStart c) s = .next t ∧ t.mem = s.mem ∧ stands t .streaming ∧
        (t.core c).grid = .running ∧ accOf (t.core c) d.acc = (if d.rebases then accOf k d.acc else begun s.mem) ∧
        (d.init = 0 → ∀ a b, elemOf (accOf (t.core c) d.acc) a b = AccElem.zero)) ∧
    (∀ errs, let s' := findErrs c s errs
      k.mmaQ.find? (fun o => o.phase == .streaming) = some o → feederPoison s' c d = none →
      ∃ t, exec (.mmaLastProduct ⟨c, errs⟩) s = .next t ∧ t.mem = s'.mem ∧
      accOf (t.core c) d.acc = accSet s'.mem c d (if d.rebases then begun s'.mem else accOf k d.acc) ∧
      (d.drain = true → stands t .products) ∧ (d.drain = false → gone t)) ∧
    (k.mmaQ.find? (fun o => o.phase == .products) = some o → k.mmaQ.any (fun p => p.phase == .draining) = false →
      (∃ t, exec (.drainStart c none) s = .next t ∧ t.mem = s.mem ∧ stands t .draining) ∧
      ∀ f, ∃ t, exec (.drainStart c (some f)) s = .next t ∧ t.mem = s.mem ∧ 1 ≤ (t.core c).svc ∧
        (t.core c).test = (match f with | .parity => rasGridParity | .residue => rasGridResidue) ∧
        (t.core c).phase = .stopped) ∧
    (k.mmaQ.find? (fun o => o.phase == .draining) = some o → ∃ t, exec (.drainComplete c false) s = .next t ∧ gone t ∧
      accOf (t.core c) d.acc = AccSet.empty ∧
      MemFrame s t ((List.range d.m).map (fun a => (lsAddr c + d.dOff + a * d.dStr, (drainRow d (accOf k d.acc) a).1.length))) ∧
      ((∀ a, a < d.m → (drainRow d (accOf k d.acc) a).1.length ≤ d.dStr) → ∀ a, a < d.m →
        MemHolds t (lsAddr c + d.dOff + a * d.dStr) (drainRow d (accOf k d.acc) a).1))

/-- Exact accumulation (R81, R82, R83, R178). -/
def Obligations.MatrixProductsAreExact : Prop :=
  ∀ (s : State) (c : CoreId) (o : MmaOp) (errs : List (Nat × Flaw)),
    let s' := findErrs c s errs
    let k := s.core c
    let d := mmaD o.desc
    let old := accOf k d.acc
    let term := fun a b j => elemInt d.atype (elemAt s'.mem (opA c d) a j) * elemInt d.btype (elemAt s'.mem (opB c d) b j)
    let sum := fun a b => (elemOf old a b).a +
      ((List.range d.k).map (term a b)).sum * 2 ^ (typeLsb d.atype + typeLsb d.btype - old.lexp).toNat
    coreIssues s c = true → k.mmaQ.find? (fun o => o.phase == .streaming) = some o → feederPoison s' c d = none →
    d.mx = false → d.half = false → old.ordered = false → old.count + d.k ≤ 2 ^ 24 → 0 < d.k → d.m ≤ 64 → d.n ≤ 64 →
    ∃ t, exec (.mmaLastProduct ⟨c, errs⟩) s = .next t ∧
      let new := accOf (t.core c) d.acc
      new.ordered = false ∧ new.lexp = old.lexp ∧ new.count = old.count + d.k ∧
      (∀ a b, a < d.m → b < d.n → (elemOf new a b).a = reg96 (sum a b) ∧
        (fits96 (sum a b) = true → (elemOf new a b).a = sum a b)) ∧
      ∀ a b, b < 64 → ¬ (a < d.m ∧ b < d.n) → elemOf new a b = elemOf old a b

/-- Bursts (R196 to R198, R416). -/
def Obligations.LoadUnitsAnnounceTheirBursts : Prop :=
  ∀ (s : State) (u : LoadUnit),
    (unitRun s u = .stopped → unitWanted s u = true → ∃ t, exec (.loadNotice u) s = .next t ∧ t.mem = s.mem ∧ unitRun t u = .notice ∧
      (t.cluster (unitCluster u)).preRaise = min 20 (920 - s.regField (rCfloor (unitCluster u)) 9 0)) ∧
    (unitRun s u = .notice → ∃ t, exec (.loadNoticeAck u) s = .next t ∧ t.mem = s.mem ∧ unitRun t u = .acked) ∧
    (∀ cl : ClusterId, (s.cluster cl).attnRun ≠ .notice → (s.cluster cl).attnRun ≠ .acked →
      (∀ c ∈ clusterCores cl, (s.core c).grid ≠ .notice ∧ (s.core c).grid ≠ .acked) →
      ∃ t, exec (.preRaiseReturn cl) s = .next t ∧ t.mem = s.mem ∧ (t.cluster cl).preRaise = 0 ∧
        ∀ e, e ≠ cl.val → t.cluster e = s.cluster e) ∧
    (unitRun s u = .running → unitEmpty s u = true → ∃ t, exec (.burstEnd u) s = .next t ∧ t.mem = s.mem ∧ unitRun t u = .dummy) ∧
    (unitRun s u = .dummy ∨ (unitRun s u = .acked ∧ unitWanted s u = false) → unitEmpty s u = true → (∀ c, u = .grid c → (s.core c).mmaQ = []) →
      ∃ t, exec (.gridStop u) s = .next t ∧ t.mem = s.mem ∧ unitRun t u = .stopped)

/-- Transfers (R209 to R212, R217, R222 to R224). -/
def Obligations.TransfersMoveTheirBox : Prop :=
  ∀ (s : State) (c : CoreId) (o : XferOp),
    let k := s.core c
    let d := xferD o.desc
    let ins := (boxUnits d).filter (inBounds d)
    let at_ := fun x => (gaddrOf d x).toNat
    let gone := fun (t : State) => ∀ p ∈ (t.core c).xferQ, p.org.seq ≠ o.org.seq
    coreIssues s c = true →
    (k.xferQ.find? (fun o => !o.started) = some o → (k.xferQ.filter (fun o => o.started)).length < 4 → xferPoison s c d = none →
      ∃ t, exec (.xferStart c) s = .next t ∧ t.mem = s.mem ∧ ∃ p ∈ (t.core c).xferQ, p.org = o.org ∧ p.started = true) ∧
    (∀ seq errs, let s' := findErrs c s errs
      k.xferQ.find? (fun o => o.started && o.org.seq == seq) = some o → o.left = 0 → xferWaits s c o d = false → xferBusy s c d = false →
      tileWaits k o = false → (d.commit = true → commitWaits s c o = false) → xferPoison s' c d = none →
      (d.store = false → (∀ x ∈ boxUnits d, lsOffOf d x + d.es ≤ lsBytes) →
        (∀ x ∈ boxUnits d, ∀ y ∈ boxUnits d, x ≠ y → lsOffOf d x + d.es ≤ lsOffOf d y ∨ lsOffOf d y + d.es ≤ lsOffOf d x) →
        d.commit = false → ∃ t, exec (.xferComplete ⟨c, errs⟩ seq) s = .next t ∧ gone t ∧
          (∀ x ∈ boxUnits d, MemHolds t (lsAddr c + lsOffOf d x) (if inBounds d x then memUnit s' c d o x else fillUnit d)) ∧
          MemFrame s' t ((boxUnits d).map (fun x => (lsAddr c + lsOffOf d x, d.es)))) ∧
      (d.store = true → (∀ x ∈ ins, ownLs s c (at_ x) = none ∧ addrModule (at_ x) = s.modId ∧ addrLow (at_ x) + d.es ≤ hbmEnd) →
        (∀ x ∈ ins, ∀ y ∈ ins, x ≠ y →
          addrLow (at_ x) + d.es ≤ addrLow (at_ y) ∨ addrLow (at_ y) + d.es ≤ addrLow (at_ x)) →
        (d.commit = false → MovesNoLine s' ((xferLines d).map (·.1)) → ∃ t, exec (.xferComplete ⟨c, errs⟩ seq) s = .next t ∧ gone t ∧
          (∀ x ∈ ins, MemHolds t (addrLow (at_ x)) (boxBytes s' c d x)) ∧
          MemFrame s' t (ins.map (fun x => (addrLow (at_ x), d.es)))) ∧
        (d.commit = true → ∀ tk, coreTask s c = some tk → ∃ t u, exec (.xferComplete ⟨c, errs⟩ seq) s = .next t ∧ gone t ∧
          coreTask t c = some u ∧ u.committed = tk.committed ||| 2 ^ d.tile)))

/-- The attention engine's events (R260, R267, R268, R281, R290). -/
def Obligations.AttentionServesAndCompletes : Prop :=
  ∀ (s : State) (cl : ClusterId) (c : CoreId) (o : AttnOp) (q : List AttnOp),
    let b := o.desc
    let gone := fun (t : State) => ∀ p ∈ (t.core c).attnQ, p.org.seq ≠ o.org.seq
    let run := (s.cluster cl).attnRun
    (∀ idx a errs, let s' := findErrs c s errs
      ((List.range 9).map (fun i => 9 * cl.val + ((s.cluster cl).attnTurn + 1 + i) % 9)).findSome?
        (fun e => (attnReady s e).map (fun o => (e, o))) = some (c.val, o) → run = .running ∨ run = .dummy ∨ run = .acked →
      (s.cluster cl).attnTest = 0 → (∀ e ∈ clusterCores cl, appendBusy s e = false) → attnIsAppend b = false →
      attendSrcPoison s' c b = none → o.started = true → o.todo = [idx] →
      listEntry s' c o idx = (.ready, a) → pageNeed s' c o idx a = .ready →
      ∃ t, exec (.attnQuantum ⟨cl, errs⟩) s = .next t ∧ t.mem = s'.mem ∧ (t.cluster cl).attnTurn = c.val % 9 ∧
        (t.cluster cl).attnRun = .running ∧
        ∃ p ∈ (t.core c).attnQ, p.org = o.org ∧ p.done = true ∧ p.rows = attendPage s' c o a) ∧
    ((s.core c).attnQ = o :: q → coreIssues s c = true →
      (o.done = true → attnIsAppend b = false → aLse b = false → aEps b = false → aRows b ≤ 64 → oRowBytes b ≤ af b 60 4 →
        (∀ r ∈ o.rows, r.o.length = aDim b) → ∃ t, exec (.attendComplete c false) s = .next t ∧ gone t ∧
          ∀ r st, (r, st) ∈ (List.range (aRows b)).zip o.rows → MemHolds t (lsAddr c + af b 56 4 + r * af b 60 4)
            ((finishRow st).1.flatMap (fun x => if af b 7 1 = 0 then natLe 4 x.toNat
              else natLe 2 (encodeF bf16 .nearest false (f32V x))))) ∧
      (o.left = 0 → (o.aphase = 1 → appendSrcPoison s c b = none → ∃ t, exec (.appendWriteAck c false) s = .next t ∧
          ∃ p ∈ (t.core c).attnQ, p.org = o.org ∧ p.aphase = if af b 6 1 = 0x10 then 3 else 2) ∧
        (o.aphase = 3 → ownLs s c (appendPage b) = none → addrModule (appendPage b) = s.modId →
            addrLow (appendPage b) + 64 ≤ hbmEnd → appendPage b % 128 = 0 → ∃ t, exec (.appendWriteAck c false) s = .next t ∧
            (∃ p ∈ (t.core c).attnQ, p.org = o.org ∧ p.aphase = 4) ∧
            memGet t.mem (addrLow (appendPage b) + 2) = BitVec.ofNat 8 (max (fieldLe o.hdr 2 1)
              (af b 10 1 + af b 9 1))) ∧
        (o.aphase = 4 → ∃ t, exec (.appendWriteAck c false) s = .next t ∧ gone t ∧ t.mem = s.mem))) ∧
    (∀ f, ∃ t, exec (.attnEngineFault cl f) s = .next t ∧ t.mem = s.mem ∧
      (t.cluster cl).attnTest = (match f with | .parity => rasAttnParity | .residue => rasAttnResidue) ∧
      ∀ e ∈ clusterCores cl, (s.core e).attnQ ≠ [] → (s.core e).task.isSome = true → (t.core e).phase = .stopped)

/-- The home of a line (R126 to R128, R158, R167, R243, R246 to R252, R449, R498). -/
def Obligations.RequestsAreServedAtTheirHome : Prop :=
  ∀ (s : State) (h : HalfId) (r : Req),
    let a := addrLow r.addr
    let down := s.towersDown.contains (h.val / 2) = true ∨ tget 0 s.pwr.dom (69 + 2 * (h.val / 2)) = 3
    let does := fun (q : State → Prop) => ∃ t, exec (.llcAccess h []) s = .next t ∧ t.llc.reqs = s.llc.reqs.erase r ∧ q t
    let acked := fun (t : State) poison =>
      (t.core r.core).acks = (s.core r.core).acks ++ [⟨r.group, r.thread, false, poison, false, r.addr⟩]
    nextReqOf s h s.llc.reqs [] = some r → r.ofScrub = false →
    (∀ e, down → ∃ t, exec (.llcAccess h e) s = .next t ∧ t.mem = s.mem ∧ t.llc.reqs = s.llc.reqs.erase r ∧
      match r.kind with
      | .store _ => acked t true
      | .reduce _ _ _ _ | .pinLine _ _ _ => True
      | _ => Responded s t r.core ⟨r.id, r.group, r.thread, poisonAddr r, 0, 0, 0, 0, false, true, none, []⟩) ∧
    (∀ e, ¬ down → linePresent s r.addr = false → (∀ c p, r.kind ≠ .pinLine true c p) →
      ∃ t, exec (.llcAccess h e) s = .next t ∧ t.mem = s.mem ∧ t.llc.reqs = s.llc.reqs ∧ lineOf r.addr ∈ t.llc.fills) ∧
    (¬ down → linePresent s r.addr = true →
      (∀ n sg uni al dst, r.kind = .load n sg uni al dst → firstPoison s.poison a n = none → does (fun t => t.mem = s.mem ∧
        ∃ fill, Responded s t r.core ⟨r.id, r.group, r.thread, r.addr, n, extendVal n sg (leNat (readBytes s.mem a n)), dst,
          sizeWords n, uni, false, none, fill⟩)) ∧
      (∀ bs, r.kind = .store bs → isHbm r.addr = true → a % 128 + bs.length ≤ 128 → does (fun t => MemHolds t a bs ∧
        MemFrame s t [(a, bs.length)] ∧ acked t false)) ∧
      (∀ op n uni dst v c, r.kind = .atom op n uni dst v c → isPoisoned s.poison a n = false → a + n ≤ 2 ^ 48 → Unsourced s a n →
        does (fun t =>
        let old := leNat (readBytes s.mem a n)
        MemHolds t a (natLe n (atomOp op n old v c)) ∧ MemFrame s t [(a, n)] ∧
        RespondedDropping s t r.core ⟨r.id, r.group, r.thread, r.addr, n, old, dst, sizeWords n, uni, false, none, []⟩)) ∧
      (∀ p, r.kind = .lockAcq p → isPoisoned s.poison a 8 = false → a + 8 ≤ 2 ^ 48 → Unsourced s a 8 →
        let w : LockWait := ⟨r.addr, r.core, r.group, r.thread, p, nbit (s.word64 a) 1, none⟩
        (nbit (s.word64 a) 0 = false → does (fun t => MemHolds t a (natLe 8 (lockWord r.core r.group r.thread s.modId)) ∧
          MemFrame s t [(a, 8)] ∧ t.llc.wakes = s.llc.wakes ++ [w])) ∧
        (nbit (s.word64 a) 0 = true → does (fun t => t.mem = s.mem ∧
          ((t.llc.waits = s.llc.waits ++ [w] ∧ t.llc.unrecorded = s.llc.unrecorded) ∨
           (t.llc.waits = s.llc.waits ∧ t.llc.unrecorded = s.llc.unrecorded ++ [w]))))) ∧
      (∀ lost, r.kind = .lockRel lost → isPoisoned s.poison a 8 = false → a + 8 ≤ 2 ^ 48 → Unsourced s a 8 →
        let owns := lost = true ∨ ownsWord s (s.word64 a) r.core r.group r.thread = true
        (owns → s.llc.waits.find? (fun w => w.addr == r.addr) = none →
          does (fun t => MemHolds t a (natLe 8 (if lost then 2 else 0)) ∧ MemFrame s t [(a, 8)])) ∧
        (¬ owns → does (fun t => t.mem = s.mem))) ∧
      (∀ oper ty data p, r.kind = .reduce oper ty data p → does (fun t => t.mem = s.mem ∧
        t.llc.reds = s.llc.reds ++ [⟨a, oper, ty, data, p⟩])) ∧
      (∀ un cls p m l, r.kind = .pinLine un cls p → homeOf s r.addr = some m → isHbm r.addr = true →
        lineAt s (lineOf r.addr) = some l → does (fun t => t.mem = s.mem ∧
          (un = true → ∃ l', lineAt t (lineOf r.addr) = some l' ∧ l'.pin = none) ∧
          (un = false → l.pin = none →
            pinAllowed { s with llc := { s.llc with reqs := s.llc.reqs.erase r } } m cls = true →
            ∃ l', lineAt t (lineOf r.addr) = some l' ∧ l'.pin = some cls))))

/-- Fills, in-cache reduction, merging, rewrites and rebuilds (R250, R252, R300, R305 to R307). -/
def Obligations.FillsReductionsAndRebuilds : Prop :=
  ∀ (s : State),
    (∀ (line : Nat) (ecc victim : EccRes) (m : Home), s.llc.fills.contains line = true → homeAt s (128 * line) = some m →
      ((setLines s m).length < llcWays s m.half m.bank ∨ ∃ p ∈ setLines s m, p.2.pin = none ∧ redBusy s p.1 = false) →
      ∃ t, exec (.llcFillComplete line ecc victim) s = .next t ∧ line ∉ t.llc.fills ∧ (lineAt t line).isSome = true) ∧
    (∀ (half : HalfId) (bank : Fin 256) (e : RedEntry),
      let k := elemSize e.oper
      s.llc.reds.find? (fun e => homeAt s e.addr |>.any (fun m => m.half == half.val && m.bank == bank.val)) =
        some e → isPoisoned s.poison e.addr e.data.length = false → e.addr + e.data.length ≤ 2 ^ 48 →
        Unsourced s e.addr e.data.length →
      ∃ t, exec (.reductionEntryApplied half ⟨bank, []⟩) s = .next t ∧ t.llc.reds = s.llc.reds.erase e ∧
        (∀ j, j < e.data.length / k → MemHolds t (e.addr + k * j)
          (redElem e.oper e.etype (readBytes s.mem (e.addr + k * j) k) ((e.data.drop (k * j)).take k)).1) ∧
        MemFrame s t [(e.addr, e.data.length)] ∧ t.poison = s.poison ∧
        ∀ r, s.llc.redReqs.find? (fun r => r.id == e.parent) = some r → r.left = 1 → r.away = none →
          ∃ v, (t.core r.core).acks = (s.core r.core).acks ++ [⟨r.group, r.thread, true, r.poison, v, r.addr⟩]) ∧
    (∀ (half : HalfId) (group : Fin 32) (e : MergeEntry),
      s.llc.merges.find? (fun e => e.half == half.val && e.group == group.val) = some e →
      ∃ t, exec (.mergeEntryTimeout half group []) s = .next t ∧ Calm s t ∧ t.llc.merges = s.llc.merges.erase e) ∧
    (∀ a, ∃ t, exec (.correctedRewrite a) s = .next t ∧ Calm s t ∧ a ∉ t.llc.rewrites ∧ ∀ b, b ≠ a → (b ∈ t.llc.rewrites ↔ b ∈ s.llc.rewrites)) ∧
    (∀ addr src,
      let a := 16 * (addr / 16)
      let d := src + (a - resBase) % mib2
      (resSlot a).isSome = true → tget 0 s.llc.sources ((a - resBase) / mib2) = src + 1 → isPoisoned s.poison a 16 = true →
      isPoisoned s.poison d 16 = false → ∃ t, exec (.residentRebuild addr) s = .next t ∧ t.cores = s.cores ∧ t.llc = s.llc ∧
        (hostGrants s (d / 128) = true → MemHolds t a (readBytes s.mem d 16) ∧ MemFrame s t [(a, 16)] ∧
          (∀ p, p ∈ t.poison ↔ p ∈ s.poison ∧ p ≠ addr / 16)) ∧
        (hostGrants s (d / 128) = false → t.mem = s.mem ∧ t.poison = s.poison ∧
          ∃ w ∈ t.host.waits, w.line = d / 128 ∧ w.msg.isNone = true))

/-- Spares (R311 to R316, R43). -/
def Obligations.SparesReplaceRowsAndColumns : Prop :=
  ∀ (s : State) (half : HalfId) (bank : Fin 256),
    let tb := towerBank half bank
    let still := fun (t : State) => Calm s t ∧ t.llc = { s.llc with scrubs := t.llc.scrubs }
    let done := fun (c : Instr) (r : Nat × Nat × Nat) (code : Nat) (post : State → Prop) =>
      ∃ t, exec c s = .next t ∧ still t ∧ r ∉ t.ecc.owed ∧ Recorded s t r ∧ Logged s t code ∧ post t
    let bad := fun (f : Find → Bool) => (findsOf s tb).any (fun x => f x && x.unc)
    let none_ := fun (c : Instr) (f : Find → Bool) =>
      (bad f = true → tb ∉ s.llc.retired → ∃ t, exec c s = .next t ∧ still t ∧ ∃ w, (tb, w) ∈ t.vert.retiring) ∧
      (bad f = false → bankErrors s tb ≤ 64 → ∃ t, exec c s = .next t ∧ still t ∧ Logged s t 0x0407 ∧ t.vert = s.vert)
    (∀ (mat : Fin 16) (row : Fin 1024),
      let c := Instr.rowSpared half bank ⟨mat, row⟩ false
      let r := (1, tb, mat.val * 1024 + row.val)
      (r ∉ s.ecc.owed → exec c s = .next s) ∧
      (r ∈ s.ecc.owed → rowsFree s tb ≠ 0 → pauseFree s = true → done c r 0x0404 (fun t =>
        tget 0 t.ecc.rows tb = tget 0 s.ecc.rows tb + 1 ∧ t.vert.lastEnd = some s.clk.tick)) ∧
      (r ∈ s.ecc.owed → rowsFree s tb = 0 → none_ c (fun f => f.mat == mat.val && f.row == row.val))) ∧
    (∀ (mat : Fin 16) (bit : Fin 576),
      let c := Instr.colSpared half bank mat bit
      let r := (2, tb, mat.val * 576 + bit.val)
      (r ∉ s.ecc.owed → exec c s = .next s) ∧
      (r ∈ s.ecc.owed → colsFree s tb ≠ 0 → pauseFree s = true → done c r 0x0405 (fun t =>
        tget 0 t.ecc.cols tb = tget 0 s.ecc.cols tb + 1 ∧ t.vert.lastEnd = some s.clk.tick)) ∧
      (r ∈ s.ecc.owed → colsFree s tb = 0 → none_ c (fun f => f.mat == mat.val && f.bit == bit.val))) ∧
    (∀ (k : Fin 8) addr, let r := (3, k.val, addr / 4096)
      (∀ u, s.ecc.lastHbm = some u → u + 1000000 ≤ s.clk.tick) → procDown s 4 = false → r ∈ s.ecc.owed →
      (hbmRowsFree s k ≠ 0 → done (.hbmRowSpared k addr) r 0x0406 (fun t =>
        t.regField (rUspr (4 + k.val)) 13 0 = hbmRowsFree s k - 1 ∧ t.ecc.lastHbm = some s.clk.tick)) ∧
      (hbmRowsFree s k = 0 → ∃ t, exec (.hbmRowSpared k addr) s = .next t ∧ still t ∧ r ∉ t.ecc.owed ∧ Logged s t 0x0408 ∧
        t.ecc.repairs = s.ecc.repairs ∧ t.ecc.held = s.ecc.held ∧ t.ecc.hbmRows = s.ecc.hbmRows))

/-- The repair of a bundle (R39, R40, R43, R45). -/
def Obligations.BundlesAreTestedAndRepaired : Prop :=
  ∀ (s : State) (tw : TowerId) (l : Fin 2) (n : Fin 12288),
    let k := bundleKey tw l n
    let b := s.bundle k
    let others := fun (t : State) => Still s t ∧ ∀ j, j ≠ k → t.bundle j = s.bundle j
    let recent := fun d => (b.hist.filter (fun u => decide (s.clk.tick < u + d))).length
    ((∀ p, s.vert.pausing = some p → ¬ (keyBank p = keyBank k ∧ keyGroup p = keyGroup k)) →
      ∃ t, exec (.bundleParityError tw l n) s = .next t ∧ others t ∧
        (1 ≤ recent ticksPerMs ∨ 15 ≤ recent ticksPerSecond → (t.bundle k).testing = true) ∧
        (recent ticksPerMs = 0 → recent ticksPerSecond < 15 → (t.bundle k).testing = b.testing) ∧
        (t.bundle k).hist.length = recent ticksPerSecond + 1 ∧ (t.bundle k).failed = b.failed) ∧
    (∃ t, exec (.controlCopyDisagree tw l n) s = .next t ∧ others t ∧ t.bundle k = { b with testing := true }) ∧
    (b.testing = true → (∃ t, exec (.bundleTestComplete tw l n []) s = .next t ∧ others t ∧
        t.bundle k = { b with testing := false, errs := min 0xFFF (b.errs + b.hist.length), hist := [] }) ∧
      ∀ lanes, lanes ≠ [] → s.vert.pausing ≠ some k → ∃ t, exec (.bundleTestComplete tw l n lanes) s = .next t ∧ others t ∧
        k ∈ t.vert.queue ∧ (∀ x ∈ lanes, x.val ∈ (t.bundle k).found) ∧ (t.bundle k).testing = false) ∧
    (∀ lanes, lanes ≠ [] → s.vert.pausing = some k → ∃ t, exec (.bundleTestComplete tw l n lanes) s = .next t ∧ others t ∧
      (t.bundle k).found = [] ∧ (t.bundle k).testing = false) ∧
    (∀ q, s.vert.queue = k :: q → pauseFree s = true → ∃ t, exec .repairPauseStart s = .next t ∧ others t ∧
      t.vert.pausing = some k ∧ t.vert.queue = q ∧ (t.bundle k).found = [] ∧
      ∀ lane, lane < 32 → b = { Bundle.fresh with found := [lane], errs := b.errs, hist := b.hist } →
        (t.bundle k).s32 = lane ∧ (t.bundle k).failed = [lane] ∧ (t.bundle k).half = false ∧ Logged s t 0x0101 ∧
        Recorded s t (4, k, lane)) ∧
    (∀ p, s.vert.pausing = some p → ∃ t, exec .repairPauseEnd s = .next t ∧ others t ∧ t.bundle k = b ∧ t.vert.pausing = none ∧
      t.vert.lastEnd = some s.clk.tick)

/-- Bank retirement and calibration (R47, R50, R51, R254). -/
def Obligations.BanksRetireAndRegionsCalibrate : Prop :=
  ∀ (s : State) (tw : TowerId),
    (∀ bank : Fin 512,
      let tb := 512 * tw.val + bank.val
      ((tb, false) ∈ s.vert.retiring → ∃ t, exec (.bankWritebackComplete tw bank) s = .next t ∧ tb ∈ t.llc.retired ∧
        (tb, true) ∈ t.vert.retiring ∧ (tb, false) ∉ t.vert.retiring) ∧
      ((tb, true) ∈ s.vert.retiring → ∃ t, exec (.vbankRetired tw bank) s = .next t ∧ Still s t ∧
        (∀ w, (tb, w) ∉ t.vert.retiring) ∧ Recorded s t (5, tb, 0) ∧ Logged s t 0x0106)) ∧
    (∀ (cause : Fin 3) (regions : List (Fin 48 × Fin 16 × Nat × Fin 256)), (regions.map (fun p => p.1)).Nodup →
      let code := fun (t : State) (r : Nat) => tget 0 t.vert.margins (regionKey tw r)
      (calDue s tw cause = false → exec (.recalibration tw cause regions) s = .next s) ∧ (calDue s tw cause = true → ∃ t, exec (.recalibration tw cause regions) s = .next t ∧ t.mem = s.mem ∧ t.tasks = s.tasks ∧
        tget 0 t.vert.calAt tw = s.clk.tick ∧ tw.val ∉ t.vert.calDue ∧
        (∀ p ∈ regions, code t p.1 = max (code s p.1) p.2.1 ∧ tget none t.vert.narrow (regionKey tw p.1) =
          if p.2.1.val < code s p.1 then some p.2.1.val else none) ∧
        ∀ r : Fin 48, r ∉ regions.map (fun p => p.1) → code t r = code s r)) ∧
    (∀ (r : Fin 48) v, tget none s.vert.narrow (regionKey tw r) = some v →
      ∃ t, exec (.marginNarrowApply tw r) s = .next t ∧ Still s t ∧ tget 0 t.vert.margins (regionKey tw r) = v ∧
        tget none t.vert.narrow (regionKey tw r) = none)

/-- Monitors, the estimator, bands and setpoints (R55, R70, R71, R73, R387, R433 to R443). -/
def Obligations.TemperaturesAndBandsAreJudged : Prop :=
  ∀ (s : State),
    (∀ mons ioMons (amps : List (Fin 64 × Fin 4096)) (input : Fin 4096) (vin : Fin 256),
      let samples := allSamples mons ioMons
      s.clk.run = true → (samples.map (fun p => p.1)).Nodup →
      let cmd := Instr.monitorSample mons ioMons amps input vin
      let est := estimate (takeSamples s samples) (ampsOf amps)
      let io := samples.filter (fun p => monDie p.1 == 6 && !s.therm.failed.contains p.1.val)
      ((∀ p ∈ samples, p.2.2.val < 280) → (∀ p ∈ s.therm.mon, ∀ x, p.2 = some x → x.temp < 280) → est 0 < 280 → est 1 < 280 →
        ∃ t, exec cmd s = .next t ∧ t.mem = s.mem ∧
          (∀ id, (t.task id).map (fun k => { k with stop := none, fault := none }) =
            (s.task id).map (fun k => { k with stop := none, fault := none })) ∧
          (∀ tw : TowerId, t.regField (oEst tw) 8 0 = est tw) ∧
          (∀ d ∈ fabDomains, ∀ c ∈ fabClusters d, floorReg t c ≤ fabFloor t d (fabSetpoint t d) ∨ fabSetpoint t d = 920) ∧
          (∀ p ∈ samples, monLive s p.1 = true → tget none t.therm.mon p.1 = some ⟨p.2.1.val, p.2.2.val, s.clk.tick⟩) ∧
          t.regField oPwrCf 23 12 = input.val ∧ t.regField oPwrCf 31 24 = vin.val ∧
          (4 ≤ io.length → t.regField (oDstat 6) 8 0 = hottest t 6 ∧ t.regBit (oDstat 6) 20 = false)) ∧
      (4 ≤ io.length → s.md.off = false → (∃ p ∈ io, 310 ≤ p.2.2.val) → ∃ t, exec cmd s = .next t ∧ t.md.off = true ∧ t.tasks = [] ∧
        t.mem = [] ∧ t.pwr.pwrOk = false)) ∧
    (∀ m : Fin 528, m.val ∉ s.therm.failed → ∃ t, exec (.sensorFailed m) s = .next t ∧ Still s t ∧ Logged s t 0x050D ∧
      ∀ n, n ∈ t.therm.failed ↔ n = m.val ∨ n ∈ s.therm.failed) ∧
    (∀ (tw : TowerId) u, (s.die (2 * tw.val)).underAt = some u → u + 5 * ticksPerMs ≤ s.clk.tick → suspect s (2 * tw.val) = false →
      ∃ t, exec (.sensorSuspect tw) s = .next t ∧ t.mem = s.mem ∧ suspect t (2 * tw.val) = true ∧
        t.regField (oDstat (2 * tw.val)) 8 0 = min 511 (max (s.regField (oEst tw) 8 0 + 8) (hottest s (2 * tw.val))) ∧
        ((s.die (2 * tw.val)).seen = true → t.llc = s.llc ∧ Logged s t 0x050E)) ∧
    (∀ (d : DieId) u, (s.die d).delayAt = some u → u + ticksPerMs ≤ s.clk.tick → bandIn s d < bandOf (govOf s d) →
      ∃ t, exec (.bandRiseDelayed d) s = .next t ∧ t.mem = s.mem ∧ bandIn t d = bandOf (govOf s d) ∧
        (bandOf (govOf s d) < 4 → Still s t) ∧ (bandOf (govOf s d) = 4 → t.regBit (oDstat d) 21 = true)) ∧
    (∀ (d : DieId) u b, (s.die d).coolAt = some u → u + 10 * ticksPerMs ≤ s.clk.tick → b < 5 → (s.die d).coolMax + 4 ≤ bandHigh b →
      (∀ x, x < b → bandHigh x < (s.die d).coolMax + 4) → ∃ t, exec (.bandFall d) s = .next t ∧ t.mem = s.mem ∧ bandIn t d = b ∧
        (b < 4 → Still s t ∧ t.regBit (oDstat d) 21 = false)) ∧
    (∀ cl : ClusterId, s.regBit (rCfloor cl) 22 = true → ∃ t, exec (.setpointSettled cl) s = .next t ∧ Still s t ∧
      t.regBit (rCfloor cl) 22 = false ∧ t.regField (rCfloor cl) 9 0 = min 920 (reqOf s cl + tget 0 s.pwr.guardV cl) ∧
      floorReg t cl = if clusterRuns s cl then floorOf s cl (reqOf s cl) else 0)

/-- Converters and regulators (R387, R407 to R415, R447). -/
def Obligations.ConvertersFailInSteps : Prop :=
  ∀ (s : State) (dom : Fin 78),
    let d := dom.val
    (∀ ph : Fin 16, nbit (tget 0 s.pwr.failed d) ph = false → 75 ≤ d ∨ ph.val < domPhases d →
      ∃ t, exec (.ivrPhaseFailed dom ph) s = .next t ∧ nbit (tget 0 t.pwr.failed d) ph = true ∧
        (d < 64 → 5 ≤ phasesUp t d → Still s t ∧ Recorded s t (8, d, ph) ∧ Logged s t 0x0507 ∧ t.regBit oPwrEvt 5 = true) ∧
        (d < 64 → phasesUp t d ≤ 3 → (t.cluster d).retired = true) ∧
        (72 ≤ d → 2 ≤ failedPhases t d → t.md.off = true)) ∧
    (∀ drop exp, ∃ t, exec (.pathCheck dom drop exp) s = .next t ∧ Still s t ∧ t.regs = s.regs ∧ t.pwr.path = s.pwr.path ∧
      ∀ j ∈ [1, 2, 3], tget 0 t.pwr.newPath (4 * d + j) =
        if overPath drop exp j then (if tget 0 s.pwr.newPath (4 * d + j) = 0 then s.clk.tick + 1 else tget 0 s.pwr.newPath (4 * d + j))
        else 0) ∧
    (let held := fun j => tget 0 s.pwr.newPath (4 * d + j) ≠ 0 ∧ tget 0 s.pwr.newPath (4 * d + j) + 9999 ≤ s.clk.tick
     ∀ j, 1 ≤ j → j ≤ 3 → held j → (∀ i, j < i → i ≤ 3 → ¬ held i) → tget 0 s.pwr.path d < j →
      ∃ t, exec (.pathStateChange dom) s = .next t ∧ tget 0 t.pwr.path d = j ∧
        (j = 1 → Still s t ∧ Logged s t 0x050A ∧ t.regBit oPwrEvt 6 = true) ∧
        (j = 3 → (d < 64 → (t.cluster d).retired = true) ∧ (68 ≤ d → d < 72 → towerRetired t ((d - 68) / 2) = true) ∧
          (72 ≤ d → t.md.off = true))) ∧
    (∀ r : Fin 2, nbit (tget 0 s.pwr.sense d) r = false → ∃ t, exec (.senseRouteFailure dom r) s = .next t ∧ t.mem = s.mem ∧
      tget 0 t.pwr.sense d = tget 0 s.pwr.sense d + 2 ^ r.val ∧
      (64 ≤ d → pathReduced s d = false → pathReduced t d = true → Still s t ∧ Logged s t 0x050B)) ∧
    (∀ (u : Fin 4) plan, s.regBit oConv u = true → ∃ t, exec (.converterFailed u plan) s = .next t ∧ t.regBit oConv u = false ∧
      (lostIn s 0 4 = 0 → Still s t ∧ Logged s t 0x0505 ∧ t.regBit oPwrEvt 4 = true) ∧ (1 ≤ lostIn s 0 4 → t.pwr.cap = 1800)) ∧
    (∀ (u : Fin 16) plan, s.regBit oConv (4 + u.val) = true → ∃ t, exec (.vvmFailed u plan) s = .next t ∧
      t.regBit oConv (4 + u.val) = false ∧
      (u.val < 14 → (lostIn s (4 + 7 * (u.val / 7)) 7 = 0 → Still s t ∧ Logged s t 0x0506) ∧
        (1 ≤ lostIn s (4 + 7 * (u.val / 7)) 7 → towerLimit t (u.val / 7) = 1000)) ∧
      (14 ≤ u.val → 1 ≤ lostIn s 18 2 → t.md.off = true)) ∧
    (tget 0 s.pwr.dom d ≠ 3 → tget 0 s.pwr.dom d ≠ 4 → ∃ t, exec (.domainOvercurrent dom) s = .next t ∧ tget 0 t.pwr.dom d = 4 ∧
      (d < 64 → (t.cluster d).retired = true) ∧ (72 ≤ d → t.md.off = true))

/-- Loss and return of the input (R360, R387, R508, R535, R536). -/
def Obligations.InputPowerComesAndGoes : Prop :=
  ∀ (s : State),
    let kept := fun (t : State) => t.mem = [] ∧ t.poison = [] ∧ t.tasks = [] ∧ (∀ c, (t.core c).groups = [] ∧ (t.core c).task = none) ∧
      t.ecc.repairs = s.ecc.repairs ∧ t.ras.flash = s.ras.flash ∧ t.pending = s.pending ∧ t.fw.slots = s.fw.slots
    (s.md.input = true → ∀ c ∈ [Instr.inputOvervoltage, .undervoltageLockout], ∃ t, exec c s = .next t ∧ kept t ∧ t.md.input = false ∧
      t.pwr.pwrOk = false) ∧
    (s.md.input = false → ∀ tr : HostTrain, ∀ p ∈ [(Instr.powerApplied tr, 0), (.overvoltageRestart tr, 6), (.undervoltageRestart tr, 0)],
      ∃ t, exec p.1 s = .next t ∧ kept t ∧ t.md.input = true ∧ t.md.off = false ∧ t.md.cause = p.2 ∧
        (s.md.perst = true → t.md.perst = true ∧ t.clk.run = false) ∧
        (s.md.perst = false → t.clk = ⟨0, true⟩ ∧ t.modId = s.md.straps ∧ t.md.booting = true))

/-- LI, the ceiling, curtailment, DI and SB (R417, R423 to R426, R430, R499 to R501). -/
def Obligations.ClustersSleepAndCurtail : Prop :=
  ∀ (s : State),
    (∀ (tw : TowerId) c cs, tget none s.pwr.ramp tw = none → tget [] s.pwr.inrush tw = c :: cs → s.pwr.state = 0 →
      inrushRoom s c = true → ∃ t, exec (.inrushGrant tw) s = .next t ∧ t = { s with pwr := t.pwr } ∧
        tget none t.pwr.ramp tw = some (c, s.clk.tick) ∧ tget [] t.pwr.inrush tw = cs) ∧
    (∀ (cl : ClusterId) u, tget none s.pwr.ramp (cl.val / 32) = some (cl.val, u) → u + grantTicks ≤ s.clk.tick →
      let meets := commitOf s cl ≤ floorOf s cl (reqOf s cl)
      let stays := s.regBit oPwrLim 25 = false ∨ inCover s cl = true ∨ floorsOn s cl (fun _ => true) ≠ []
      ∃ t, exec (.clusterReady cl) s = .next t ∧ t.mem = s.mem ∧ tget none t.pwr.ramp (cl.val / 32) = none ∧
        tget 0 t.pwr.exitAt cl = 0 ∧ t.regBit (rCfloor cl) 22 = false ∧
        t.regField (rCfloor cl) 9 0 = min 920 (reqOf t cl + tget 0 s.pwr.guardV cl) ∧
        (stays → cl.val ∉ t.pwr.light ∧ (meets → Still s t ∧ reqOf t cl = reqOf s cl)) ∧
        (¬ stays → meets → clusterRuns s cl = true → (s.cluster cl).attnRun = .stopped →
          (∀ i, i < 9 → (s.core (9 * cl + i)).task = none ∧ (s.core (9 * cl + i)).grid = .stopped) → cl.val ∈ t.pwr.light)) ∧
    (∀ cl : ClusterId, canLight s cl = true → ∃ t, exec (.lightIdleEntry cl) s = .next t ∧ t.mem = s.mem ∧ t.tasks = s.tasks ∧
      cl.val ∈ t.pwr.light ∧ (∀ i, i < 9 → t.core (9 * cl.val + i) = { clearCore (s.core (9 * cl.val + i)) with grid := .stopped }) ∧
      ∀ c, c / 9 ≠ cl.val → t.core c = s.core c) ∧
    (∀ plan w u, s.pwr.pend = some (w, u) → u ≤ s.clk.tick → ∃ t, exec (.targetEffective plan) s = .next t ∧ t.mem = s.mem ∧
      t.tasks = s.tasks ∧ t.pwr.pend = none ∧ t.pwr.target = w ∧ t.regBit oPwrLim 24 = false ∧ t.regBit oPwrEvt 0 = true ∧
      t.regField oPwrLim 11 0 = staticCeiling { s with pwr := { s.pwr with pend := none, target := w } } s.clk.tick) ∧
    (∀ plan, s.clk.run = true → s.md.off = false → s.regBit oPwrLim 25 = false → ∃ t, exec (.curtailEnter plan) s = .next t ∧
      t.mem = s.mem ∧ t.tasks = s.tasks ∧ t.pwr.curtailPin = true ∧ t.regBit oPwrLim 25 = true ∧ t.regBit oPwrEvt 1 = true) ∧
    (∀ plan, s.regBit oPwrLim 25 = true → ∃ t, exec (.curtailExit plan) s = .next t ∧ t.mem = s.mem ∧ t.tasks = s.tasks ∧
      t.pwr.curtailPin = false ∧ t.regBit oPwrLim 25 = false ∧ t.regBit oPwrLim 26 = false ∧ t.regBit oPwrEvt 3 = true) ∧
    (∀ st u, s.pwr.entry = some (st, u) → s.tasks = [] → st = 1 ∨ st = 2 ∧ s.llc.lines = [] ∧ s.llc.reds = [] ∧ s.llc.reqs = [] →
      ∃ t, exec .powerStateEntry s = .next t ∧ t.pwr.state = st ∧ t.pwr.entry = none ∧
        ∀ c off, c < 576 → off < lsBytes → memGet t.mem (lsAddr c + off) = 0)

/-- Classes at the arbiters (R366 to R373, R381). -/
def Obligations.ClassesShareTheArbiters : Prop :=
  ∀ (s : State),
    let only := fun (t : State) => t = { s with cls := t.cls }
    (∀ (a : ArbiterId) (cr : Fin 16) m r,
      let x := s.arb (arbNum a)
      let x' := fun (t : State) => t.arb (arbNum a)
      let rotated := 2 ≤ m ∧ (tget 0 x.served m + 1) % 16 = 0
      pickMc x (nbit cr) = some m →
      (if m < 2 then x.queue.find? (fun r => r.mc == m) else pickReq x m (pickClass s x m)) = some r →
      (∃ t, exec (.arbiterGrant a cr []) s = .next t ∧ only t ∧ (x' t).queue = x.queue.erase r ∧ (x' t).grants = x.grants + 1 ∧
        (x' t).slots = x.slots + 1 ∧ (tget [] (x' t).waits r.cls).getLast? = some (x.slots - r.slot) ∧
        ∀ b, b ≠ arbNum a → t.arb b = s.arb b) ∧
      (2 ≤ m → ¬ rotated → x.queue.any (fun q => q.mc == m && q.cls == 15) = true → r.cls = 15) ∧
      ∀ v : Arrival, v.leaves = none ∨ v.mc.val < 2 → ∃ t, exec (.arbiterGrant a cr [v]) s = .next t ∧ only t ∧
        (x' t).queue = x.queue.erase r ++ [⟨v.mc, v.cls, masterNum v.master, x.slots + 1⟩]) ∧
    (∀ (a : ArbiterId),
      let x := s.arb (arbNum a)
      (∃ c, c < 15 ∧ x.queue.any (fun r => r.cls == c) = true ∧ level s x c = 7) → (∀ g, x.mark = some g → g + 256 ≤ x.grants) →
      (∀ p ∈ x.recent, p.2 < 16) → ∃ t, exec (.mark a) s = .next t ∧ only t ∧ (t.arb (arbNum a)).mark = some x.grants ∧
        ∀ p ∈ x.recent, p.2 ≠ 15 → level s x p.2 ≤ 2 →
          tget none t.cls.rates (bucketKey p.1 p.2) = some (max (rateMin s p.2) (rateOf s p.1 p.2 / 2))) ∧
    (∀ (m : MasterId) (c : ClassId), c.val ≠ 15 → ∃ t, exec (.rateRecovery m c) s = .next t ∧ only t ∧
      tget none t.cls.rates (bucketKey (masterNum m) c) =
        some (min (rateMax s c) (rateOf s (masterNum m) c + ceilDiv (rateMax s c) 8))) ∧
    (∀ (a : ArbiterId) (c : ClassId), (s.arb (arbNum a)).queue.any (fun r => r.cls == c.val) = false →
      tget 0 (s.arb (arbNum a)).seen c + 1024 ≤ (s.arb (arbNum a)).slots → ∃ t, exec (.latencyWindowEmpty a c) s = .next t ∧
        only t ∧ tget [] (t.arb (arbNum a)).waits c = [] ∧ (t.arb (arbNum a)).queue = (s.arb (arbNum a)).queue) ∧
    (s.clk.run = true → (∀ u, s.cls.sampleAt = some u → u + 100 ≤ s.clk.tick) → s.cls.sampled < 100 →
      ∃ t, exec .classSample s = .next t ∧ only t ∧ t.cls.sampled = s.cls.sampled + 1 ∧
        ∀ c, c < 15 → tget 0 t.cls.misses c = tget 0 s.cls.misses c + if s.cls.arbs.any (fun p => inMiss s p.2 c) then 1 else 0) ∧
    (100 ≤ s.cls.sampled → ∃ t, exec .epochEnd s = .next t ∧ t = { s with cls := t.cls, regs := t.regs } ∧ t.cls.sampled = 0 ∧
      t.cls.misses = [] ∧ ∀ c, c < 15 →
        let n := tget 0 s.cls.misses c
        let floor := s.regField (rCreg c) 17 9
        t.regBit (rCreg c) 21 = decide (25 < n) ∧ classDerate t c =
          if floor = 256 then 256
          else if 25 < n ∧ tget 0 s.cls.bad c = 3 then max floor (classDerate s c - 16)
          else if n = 0 ∧ tget 0 s.cls.good c = 7 then min 256 (classDerate s c + 16)
          else classDerate s c)

/-- Doorbells (R335, R346 to R349, R358). -/
def Obligations.DoorbellsAreTakenOrRejected : Prop :=
  ∀ (s : State) (word : Word64) (m : Fin 64),
    let w := word.toNat
    let q := nbits w 19 0
    let tail := nbits w 43 24
    let size := qSqSize s q
    let step := (tail + size - qTail s q) % size
    let at_ := fun o n => (ctxAddr q + o, n)
    m.val = s.modId →
    (∀ c ∈ [Instr.doorbell word, .remoteDoorbell m false word],
      (admOpen s = false → ∃ t, exec c s = .next t ∧ Still s t ∧ Logged s t 0x0606) ∧
      (admOpen s = true → s.adm.backlog = [] →
        (qState s q ≠ 1 → ∃ t, exec c s = .next t ∧ Still s t ∧ Logged s t 0x0604) ∧
        (qState s q = 1 → doorbellError s q w ≠ 0 → ∃ t, exec c s = .next t ∧ qState t q = 2 ∧
          t.adm = (useQueue s q).adm ∧ t.qf q 26 1 = doorbellError s q w ∧ MemFrame s t [at_ 19 1, at_ 26 1] ∧ Logged s t 0x0604) ∧
        (qState s q = 1 → doorbellError s q w = 0 → s.adm.und.length + step ≤ 64 → ∃ t, exec c s = .next t ∧ qTail t q = tail ∧
          t.qf q 27 1 = (s.qf q 27 1 + 1) % 256 ∧ MemFrame s t [at_ 32 4, at_ 27 1] ∧ t.tasks = s.tasks ∧
          t.adm.cached = (useQueue s q).adm.cached ∧
          t.adm.und = s.adm.und ++ (List.range step).map (fun j => ⟨q, (qTail s q + j) % size, none⟩)) ∧
        (qState s q = 1 → doorbellError s q w = 0 → 64 < s.adm.und.length + step → ∃ t, exec c s = .next t ∧ Still s t ∧
          t.adm.backlog = [w] ∧ t.adm.und = s.adm.und))) ∧
    (let head := nbits w 43 24
     let qs := qCqSize s q
     ∀ c ∈ [Instr.completionHeadDoorbell word, .remoteDoorbell m true word], admOpen s = true →
      (qState s q = 1 → head < qs → nbits w 23 20 = 0 → nbits w 55 44 = 0 → nbits w 63 56 = 0 →
        (head + qs - qCqHead s q) % qs ≤ (qCqTail s q + qs - qCqHead s q) % qs →
        s.adm.spill.find? (fun p => p.2.queue == q) = none →
        ∃ t, exec c s = .next t ∧ qCqHead t q = head ∧ MemFrame s t [at_ 40 4] ∧ t.adm = (useQueue s q).adm) ∧
      (qState s q ≠ 1 → ∃ t, exec c s = .next t ∧ Still s t ∧ Logged s t 0x0604))

/-- Admission and completion entries (R335, R348, R351, R354, R355, R358, R377). -/
def Obligations.AdmissionDecidesInOrder : Prop :=
  ∀ (s : State),
    let hostRing := fun q => qFlag s q 1 = true ∧ viaLead s = false ∧ cqFull s q = false
    let slot := fun q => qCqBase s q + 32 * qCqTail s q
    (∀ u us b (stall : Bool), s.adm.und = u :: us → headData s u = some b → s.adm.backlog = [] →
      (∀ plan floors bound, decideTask s u.queue b = .accept plan floors bound →
        ∃ t k, exec (.admissionDecision stall) s = .next t ∧ t.adm.und = us ∧ t.task s.adm.nextTask = some k ∧
          t.adm.nextTask = s.adm.nextTask + 1 ∧ k.plan = plan ∧ k.floors = floors ∧ k.bound = bound ∧ k.accept = s.clk.tick ∧
          k.queue = u.queue ∧ k.running = false ∧ k.stop = none ∧ qHead t u.queue = (u.idx + 1) % qSqSize s u.queue % 2 ^ 32 ∧
          qInflight t u.queue = (qInflight s u.queue + 1) % 2 ^ 32) ∧
      (∀ code el, decideTask s u.queue b = .refuse code el →
        let r := 0x00200040 + 4 * code
        let tag := if b.isNone then 0 else (descOf (qFlag s u.queue 2) (b.getD [])).tag
        ∃ t, exec (.admissionDecision stall) s = .next t ∧ t.adm.und = us ∧ t.tasks = s.tasks ∧
          (code ≤ 9 → t.regField r 31 0 = min 0xFFFFFFFF (s.regField r 31 0 + 1)) ∧
          (stall = false → hostRing u.queue → qSpilled s u.queue = 0 → (∀ e ∈ s.adm.stuck, e.queue ≠ u.queue) →
            .hostWrite (slot u.queue) (ringBytes (entryBytes tag 5 code 0 u.idx s.clk.tick el 0) (s.qf u.queue 44 1) false) ∈ t.out ∧
            qCqTail t u.queue = (qCqTail s u.queue + 1) % qCqSize s u.queue % 2 ^ 32))) ∧
    (∀ i u, s.adm.und.findIdx? (fun u => u.data.isNone && qFlag s u.queue 0) = some i → s.adm.und[i]? = some u →
      let got := fun (t : State) d => t = { s with adm := { s.adm with und := s.adm.und.set i { u with data := some d } } }
      (∀ bytes : List Byte, bytes.length = descSize s u.queue →
        ∃ t, exec (.descriptorReadComplete bytes false) s = .next t ∧ got t (some (bytes.map (·.toNat)))) ∧
      (∀ bytes, ∃ t, exec (.descriptorReadComplete bytes true) s = .next t ∧ got t none) ∧
      ∃ t, exec .descriptorReadTimeout s = .next t ∧ got t none) ∧
    (∀ (q : Fin 1048576) e i, s.adm.stuck.find? (fun e => e.queue == q.val) = some e → spillSlot s e = some i →
      ∃ t, exec (.completionStallTimeout q) s = .next t ∧ t.adm.stuck = s.adm.stuck.erase e ∧ t.adm.spill = s.adm.spill ++ [(i, e)] ∧
        MemHolds t (spillBase + 32 * i) e.bytes ∧ qSpilled t q = (qSpilled s q + 1) % 2 ^ 32 ∧
        MemFrame s t [(spillBase + 32 * i, e.bytes.length), (ctxAddr q + 52, 4)]) ∧
    (∀ e, hostRing e.queue →
      (s.adm.stuck = [e] → s.adm.spill = [] → qSpilled s e.queue = 0 → ∃ t, exec .spillMove s = .next t ∧ t.adm.stuck = [] ∧
        .hostWrite (slot e.queue) (ringBytes e.bytes (s.qf e.queue 44 1) false) ∈ t.out) ∧
      (∀ i, s.adm.stuck = [] → s.adm.spill = [(i, e)] → ∃ t, exec .spillMove s = .next t ∧ t.adm.spill = [] ∧
        .hostWrite (slot e.queue) (ringBytes e.bytes (s.qf e.queue 44 1) true) ∈ t.out))

/-- A task's life (R106, R108, R136, R138, R140, R173, R233, R353 to R361). -/
def Obligations.TasksRunAndEnd : Prop :=
  ∀ (s : State),
    (∀ id k p, s.task id = some k → s.program k.program = some p → canDispatch s id k = true → (k.plan.map s.phys).Nodup →
      ∃ t, exec (.taskDispatch id) s = .next t ∧ t.task id = some { k with running := true } ∧
        ∀ r c, r < k.plan.length → s.phys (k.plan.getD r 0) = some c → (t.core c).task = some id ∧ (t.core c).rank = r ∧
          (t.core c).phase = .running ∧ (t.core c).groups = launchGroups k p r ∧
          ((s.core c).lastOwner ≠ (s.context k.context).map (·.owner) → ∀ off, off < lsBytes → memGet t.mem (lsAddr c + off) = 0)) ∧
    (∀ (c : CoreId) e k b g, coreIssues s c = true → coreTask s c = some k → k.stop = none →
      rankBudget (tickCompute s c e) c = some (b, g) →
      let u := (tickCompute s c e).core c
      let stops := fun (t : State) code => t.mem = s.mem ∧ (∀ d, d ≠ c.val → t.core d = s.core d) ∧
        coreTask t c = some (if replayFirst s c then k else { k with stop := some ⟨stOVERRUN, code⟩, stopAt := s.clk.tick })
      (firstOver u.meters b ≠ 0 → ∃ t, exec (.meterExceeded c e) s = .next t ∧ stops t (firstOver u.meters b)) ∧
      (firstOver u.seg g ≠ 0 → ∃ t, exec (.segmentLimitExceeded c e) s = .next t ∧ stops t (0x10 + firstOver u.seg g))) ∧
    (∀ (c : CoreId) id k errs ecc, (s.core c).task = some id → s.task id = some k → coreBusy s c = false →
      k.stop.isSome = true ∨ ((s.core c).phase = .running ∧ coreLive (s.core c) = [] ∧ ticketsDone (s.core c) = true ∧
        (s.core c).resps = [] ∧ scrubBusy s id = false) →
      ∃ t u, exec (.taskBoundary c errs ecc) s = .next t ∧ (t.core c).task = none ∧ (t.core c).groups = [] ∧
        (t.core c).phase = .idle ∧ t.task id = some u ∧ (s.core c).rank ∈ u.ended ∧ u.stop = k.stop) ∧
    (∀ id k stall, s.task id = some k → allEnded k = true → mayRerun k = false → k.running = true ∨ k.stop.isSome = true →
      ∃ t, exec (.taskEnd id stall) s = .next t ∧ t.task id = none ∧ (∀ j, j ≠ id → t.task j = s.task j) ∧
        (stall = false → k.progress = 0 → qFlag s k.queue 1 = true → viaLead s = false → cqFull s k.queue = false →
          qSpilled s k.queue = 0 → (∀ e ∈ s.adm.stuck, e.queue ≠ k.queue) →
          .hostWrite (qCqBase s k.queue + 32 * qCqTail s k.queue) (ringBytes (entryBytes k.tag (taskStatus k).1 (taskStatus k).2
            (entryFlags k) k.sqidx k.accept (s.clk.tick - k.accept) (taskTiles s k)) (s.qf k.queue 44 1) false) ∈ t.out)) ∧
    (∀ id k p, s.task id = some k → allEnded k = true → mayRerun k = true → s.program k.program = some p →
      (∀ code el, placeAndBound s p k.cls k.flags s.clk.tick (k.deadline - s.clk.tick) = .refuse code el →
        ∃ t, exec (.rerun id) s = .next t ∧ t.task id = some { k with tried := true } ∧ Calm { s with tasks := t.tasks } t) ∧
      (∀ plan floors bound, placeAndBound s p k.cls k.flags s.clk.tick (k.deadline - s.clk.tick) = .accept plan floors bound →
        ∃ t u, exec (.rerun id) s = .next t ∧ t.task id = some u ∧ u.plan = plan ∧ u.floors = floors ∧ u.rerun = true ∧
          u.running = false ∧ u.ended = [] ∧ u.stop = none ∧ u.deadline = k.deadline))

/-- The issue stage's events (R110, R114, R123, R140, R170). -/
def Obligations.GroupsWaitAndSplit : Prop :=
  ∀ (s : State) (c : CoreId) (g : Fin 16),
    let gr := grpOf s c g
    (256 ≤ gr.unsel → gr.sets.any (fun st => !setBlocked gr st) = true → ∃ t, exec (.groupOverdue c g) s = .next t ∧
      grpOf t c g = { gr with overdue := true } ∧ (∀ h, h ≠ g.val → grpOf t c h = grpOf s c h) ∧
      t = { s with cores := t.cores } ∧ ∀ d, d ≠ c.val → t.core d = s.core d) ∧
    (∀ (th : Fin 32) n d, (thrOf s c g th).block = .join n d → 1024 ≤ n → ∃ t, exec (.joinTimeout c g th) s = .next t ∧
      t = { s with cores := t.cores } ∧ (∀ d, d ≠ c.val → t.core d = s.core d) ∧
      (d < gr.joins.length → (grpOf t c g).joins.length < gr.joins.length) ∧
      (∀ j, gr.joins = [j] → d = 0 → (grpOf t c g).joins = [] ∧
        ∀ u, u < 32 → (thrOf s c g u).live = true → atJoin 0 (thrOf s c g u).block = true → (thrOf t c g u).block = .no)) ∧
    (∀ scope k, coreJudged s c = true → coreTask s c = some k → k.fault = none →
      (match scope with
        | .group h => splitCond s c 1 ((liveThreads (grpOf s c h.val)).map (fun u => (h.val, u)))
        | .task => splitCond s c 2 (coreLive (s.core c))) = true →
      (replayFirst s c = true → exec (.barrierSplit c scope) s = .next s) ∧
      (replayFirst s c = false → ∃ t u r, exec (.barrierSplit c scope) s = .next t ∧ t.mem = s.mem ∧ coreTask t c = some u ∧
        u.stop = some ⟨stFAULTED, cBARRIER_SPLIT⟩ ∧ u.stopAt = s.clk.tick ∧ u.fault = some r ∧ r.cause = cBARRIER_SPLIT ∧ r.thread = 0xFF))

/-- Replay (R134, R139, R447, R450 to R459, R551, R552). -/
def Obligations.RanksReplayAfterFaults : Prop :=
  ∀ (s : State),
    let lost := fun (t : State) id => ∃ u, t.task id = some u ∧ u.stop = some ⟨stPARTIAL, 0x81⟩
    (∀ c : CoreId, (s.core c).svc = 0 → ∃ t, exec (.coreFault c) s = .next t ∧ t.mem = s.mem ∧ (t.core c).svc = 1 ∧
      (∀ id, t.task id = if (s.core c).task = some id then (s.task id).map (giveWay s.clk.tick) else s.task id) ∧
      (t.core c).test = rasCoreFault ∧ Logged s t rasCoreFault ∧
      ((s.core c).task.isSome = true → (t.core c).phase = .stopped ∧ (t.core c).fault = rasCoreFault ∧ (t.core c).faultAt = s.clk.tick) ∧
      (∀ l p, logicalOf s c = some l → spareOf s (clusterOf c) = some p → t.phys l = some p) ∧ ∀ d, d ≠ c.val → t.core d = s.core d) ∧
    (∀ id k c, s.task id = some k → k.stop = none → faultyCores s id = [c] →
      (∀ r, lostReason k (s.core c) false = some r → ∃ t, exec (.replayEvent id []) s = .next t ∧ t.mem = s.mem ∧ lost t id ∧
        Logged s t 0x0302) ∧
      (lostReason k (s.core c) false = none →
        (targetOf s k (s.core c).rank c (s.core c).fault = none → ∃ t, exec (.replayEvent id []) s = .next t ∧ lost t id) ∧
        (∀ l s', targetOf s k (s.core c).rank c (s.core c).fault = some (l, s') → ∃ t u, exec (.replayEvent id []) s = .next t ∧
          t.mem = s.mem ∧ t.task id = some u ∧ u.plan = k.plan.set (s.core c).rank l ∧ u.replays = k.replays + 1 ∧
          u.replayed = true ∧ (s.core c).rank ∈ u.moved ∧ (t.core c).phase = .fencing))) ∧
    (∀ (c : CoreId) id k ck p,
      let o := s.core c
      o.task = some id → s.task id = some k → o.ckpt = some ck → o.phase = .fencing → s.phys (k.plan.getD o.rank 0) = some p →
      (∀ r ∈ s.llc.reqs, r.core ≠ c.val) → (∀ r ∈ s.llc.redReqs, r.core ≠ c.val) → (∀ r ∈ s.llc.pinReqs, r.core ≠ c.val) →
      (∀ r ∈ s.llc.remote, r.req.core = c.val → r.lockWait = true) → ∃ t, exec (.fenceComplete c) s = .next t ∧ (t.core p).task = some id ∧
        (t.core p).rank = o.rank ∧ (t.core p).phase = .restoring ∧ (t.core p).groups = replayGroups ck o ∧
        (t.core p).meters = ck.meters ∧ (t.core p).ckpt = some ck ∧ (t.core p).atomReplay = o.atomLog ∧ t.tasks = s.tasks) ∧
    (∀ (c : CoreId) id k, (s.core c).task = some id → s.task id = some k → (s.core c).phase = .restoring →
      ∃ t u, exec (.restoreComplete c) s = .next t ∧ t.mem = s.mem ∧ (t.core c).phase = .running ∧
        (t.core c).groups = (s.core c).groups ∧ t.task id = some u ∧ (s.core c).rank ∉ u.moved ∧ Logged s t 0x0301) ∧
    (∀ (c : CoreId) ck, (s.core c).ckptNext = some ck → (s.core c).phase = .ckptWrite → ∃ t, exec (.checkpointWriteComplete c) s = .next t ∧
      t = { s with cores := t.cores } ∧ (t.core c).phase = .running ∧ (t.core c).ckptNext = none ∧ (t.core c).ckpt.isSome = true ∧
      (t.core c).genT = ck.genT ∧ (t.core c).seg = Cost.zero ∧ (t.core c).atomLog = [] ∧ (t.core c).tookGlobalLock = false ∧
      (t.core c).accs = [] ∧ (t.core c).setRecs = [] ∧ (∀ p ∈ coreLive (s.core c), atBarrier (thrOf t c p.1 p.2).block = false) ∧
      ∀ d, d ≠ c.val → t.core d = s.core d) ∧
    (∀ id rank k,
      let l := k.plan.getD rank 0
      let own := (s.cluster (l / 8)).retired = false ∧ logicalUp s l = false
      s.task id = some k → k.running = false → k.stop = none → rank < k.plan.length →
      logicalUp s l = false ∨ bestFloor s (l / 8) < k.floors.getD rank 0 →
      (∀ p, own → spareOf s (l / 8) = some p → ∃ t, exec (.reservationMove id rank) s = .next t ∧ t.phys l = some p ∧
        t.tasks = s.tasks ∧ t.mem = s.mem) ∧
      (¬ own ∨ spareOf s (l / 8) = none →
        (coverTarget s (l / 8) (hasTowerGroup s k rank) = none → ∃ t, exec (.reservationMove id rank) s = .next t ∧ lost t id ∧
          t.mem = s.mem) ∧
        (∀ l', coverTarget s (l / 8) (hasTowerGroup s k rank) = some l' → ∃ t, exec (.reservationMove id rank) s = .next t ∧
          t.task id = some { k with plan := k.plan.set rank l' } ∧ t.mem = s.mem)))

/-- Self-tests and cluster resets (R19, R206, R290, R298, R454, R496, R552). -/
def Obligations.SelfTestsAndClusterResets : Prop :=
  ∀ (s : State),
    (∀ (c : CoreId) (rows cols : List (Fin 65)),
      let k := s.core c
      let rs := rows.filter (fun r => r.val != k.rowSpare)
      let cs := cols.filter (fun q => q.val != k.colSpare)
      let spared := rs.length ≤ 1 ∧ cs.length ≤ 1 ∧ (rs ≠ [] → k.rowSpare = 64) ∧ (cs ≠ [] → k.colSpare = 64) ∧ k.test < rasCoreFault
      k.svc = 1 → k.test ≠ 0 → k.task = none → k.swap = none →
      (rs = [] → cs = [] → ∃ t, exec (.gridSelfTestComplete c rows cols false) s = .next t ∧ Still { s with cores := t.cores } t ∧
        t.core c = endTest k 0 ∧ ∀ d, d ≠ c.val → t.core d = s.core d) ∧
      (rs ≠ [] ∨ cs ≠ [] → spared → ∃ t, exec (.gridSelfTestComplete c rows cols false) s = .next t ∧ t = { s with cores := t.cores } ∧
          t.core c = { k with swap := some (rs.head?.map (fun x => x.val), cs.head?.map (fun x => x.val)) }) ∧
      (∀ other, other = true ∨ ((rs ≠ [] ∨ cs ≠ []) ∧ ¬ spared) → ∃ t, exec (.gridSelfTestComplete c rows cols other) s = .next t ∧
        t.core c = endTest k 2 ∧ t.mem = s.mem ∧ Logged s t (if k.test < rasCoreFault then 0x0205 else 0x020A) ∧
        ∀ l, logicalOf s c = some l → t.phys l = spareOf s (clusterOf c))) ∧
    (∀ (c : CoreId) r q, (s.core c).swap = some (r, q) → (s.core c).task = none → (s.core c).grid = .stopped → (s.core c).mmaQ = [] → ∃ t, exec (.gridSpared c) s = .next t ∧
      Still { s with cores := t.cores } t ∧ (t.core c).svc = 0 ∧ (t.core c).swap = none ∧ (t.core c).test = 0 ∧
      (t.core c).rowSpare = r.getD (s.core c).rowSpare ∧ (t.core c).colSpare = q.getD (s.core c).colSpare ∧ Logged s t 0x0204) ∧
    (∀ cl : ClusterId, (s.cluster cl).attnTest ≠ 0 →
      (∃ t, exec (.attnSelfTestComplete cl true) s = .next t ∧ Still s t ∧ (t.cluster cl).attnTest = 0 ∧
        Logged s t ((s.cluster cl).attnTest % 65536)) ∧
      ∃ t, exec (.attnSelfTestComplete cl false) s = .next t ∧ t.mem = s.mem ∧ (t.cluster cl).retired = true) ∧
    (∀ cl : ClusterId, clusterFree s cl = true → ∃ t, exec (.clusterReset cl) s = .next t ∧ (t.cluster cl).resetting = true ∧
      (∀ i, i < 9 → t.core (9 * cl.val + i) = { clearCore (s.core (9 * cl.val + i)) with grid := .stopped, icache := [] } ∧
        ∀ off, off < lsBytes → memGet t.mem (lsAddr (9 * cl.val + i) + off) = 0) ∧
      (∀ c, c / 9 ≠ cl.val → t.core c = s.core c) ∧ t.tasks = s.tasks) ∧
    (∀ cl : ClusterId, (s.cluster cl).resetting = true → ∃ t, exec (.clusterResetComplete cl) s = .next t ∧ Still s t ∧
      (t.cluster cl).resetting = false ∧ (t.cluster cl).hostFrom = 0 ∧ (∀ i, i < 8 → coreFree t (8 * cl.val + i) = 0) ∧
      t.regBit (rClcore cl) 21 = false ∧ t.regBit (rClcore cl) 20 = (inCover s cl && !(s.cluster cl).retired))

/-- The common part of mailbox commands (R388 to R396, R508). -/
def Obligations.MailboxesAnswer : Prop :=
  ∀ (s : State) (n : MbxId) (irq : Bool) (req : List Byte),
    let b := reqBytes req
    (∀ p ∈ [(Instr.identify n irq req, 0x01), (.getVersion n irq req, 0x02), (.openSession n irq req, 0x03), (.closeSession n irq req, 0x04),
        (.lock n irq req, 0x06), (.unlock n irq req, 0x07), (.registerProgram n irq req, 0x10), (.withdrawProgram n irq req, 0x11),
        (.loadContext n irq req, 0x20), (.unloadContext n irq req, 0x21), (.loadGranules n irq req, 0x22), (.queueCreate n irq req, 0x30),
        (.queueModify n irq req, 0x31), (.queueReset n irq req, 0x32), (.queueDelete n irq req, 0x33), (.queueQuery n irq req, 0x34),
        (.scrub n irq req, 0x40), (.computeReset n irq req, 0x50), (.towerReset n irq req, 0x51), (.moduleReset n irq req, 0x52),
        (.powerQuery n irq req, 0x61), (.licenceInstall n irq req, 0x70), (.licenceList n irq req, 0x71), (.attest n irq req, 0x72),
        (.dumpRead n irq req, 0x80), (.dumpClear n irq req, 0x81), (.procRestart n irq req, 0x82), (.updateBegin n irq req, 0xA0),
        (.updateWrite n irq req, 0xA1), (.updateVerify n irq req, 0xA2), (.updateActivate n irq req, 0xA3), (.updateAbort n irq req, 0xA4)],
      ∀ st d, MbxFree s n p.2 b → callFault s (callOf n p.2 b irq) = some (st, d) →
        ∃ t, exec p.1 s = .next t ∧ Still s t ∧ Answered t n st (natLe 4 d)) ∧
    (Served s n 0x01 b → ∃ t, exec (.identify n irq req) s = .next t ∧ Still s t ∧ Answered t n mOK
      (identityBlock s ++ (List.range 64).flatMap (fun k => natLe 4 (s.reg (rClcore k)).toNat) ++ List.replicate 3584 0)) ∧
    (Served s n 0x02 b → ∃ t, exec (.getVersion n irq req) s = .next t ∧ Still s t ∧ Answered t n mOK
      (natLe 2 verG2 ++ natLe 2 verG1 ++ List.replicate 12 0 ++ (List.range 7).flatMap (fun p =>
        slotBytes s p (activeSlot s p) 8 8 ++ slotBytes s p (1 - activeSlot s p) 8 8))) ∧
    (Served s n 0x03 b → ∀ v, v < 2 ^ 16 → b = natLe 2 v ++ [0, 0] → ∃ t, exec (.openSession n irq req) s = .next t ∧ Still s t ∧
      (∀ m, m ≠ n.val → t.session m = s.session m) ∧
      (v / 256 ≠ verOf n / 256 → t.session n = some ⟨0, 0, true⟩ ∧ t.regField (rMbx n + 4) 3 2 = 2 ∧
        Answered t n mVERSION_MISMATCH (natLe 4 (verOf n))) ∧
      (v / 256 = verOf n / 256 → let ver := 256 * (verOf n / 256) + min (v % 256) (verOf n % 256)
        ∃ id, id < 2 ^ 32 ∧ t.session n = some ⟨id, ver, false⟩ ∧ t.regField (rMbx n + 4) 3 2 = 1 ∧
          t.reg (rMbx n + 8) = BitVec.ofNat 32 (ver + 65536 * (id % 65536)) ∧ Answered t n mOK (natLe 2 ver ++ [0, 0] ++ natLe 4 id))) ∧
    (Served s n 0x04 b → ∃ t, exec (.closeSession n irq req) s = .next t ∧ Still s t ∧ t.session n = none ∧
      (∀ m, m ≠ n.val → t.session m = s.session m) ∧ t.regField (rMbx n + 4) 3 2 = 0 ∧ Answered t n mOK [] ∧
      ((s.session n).any (fun x => !x.bad) = true → s.regField rLock 16 12 = n.val → t.regField rLock 11 0 = 0) ∧
      (s.regField rLock 16 12 ≠ n.val → t.reg rLock = s.reg rLock)) ∧
    (Served s n 0x05 b → ∀ (pr : Fin 1001) j, s.job (fieldLe b 0 4) = some j → j.mbx = n.val ∨ n.val = 16 → j.answer.length ≤ 4080 →
      ∃ t, exec (.jobStatus n irq req pr) s = .next t ∧ Still s t ∧
        Answered t n mOK (natLe 4 j.id ++ [if j.ended.isSome then 1 else 0, j.status] ++
          natLe 2 (if j.ended.isSome then 1000 else pr.val) ++ natLe 4 j.detail ++ List.replicate 4 0 ++ j.answer) ∧
        t.fw.jobs = if j.ended.isSome then s.fw.jobs.filter (fun x => x.id != j.id) else s.fw.jobs) ∧
    (∀ m, m < 4096 → b = natLe 4 m →
      let old := s.regField rLock 11 0
      (Served s n 0x06 b → ∃ t, exec (.lock n irq req) s = .next t ∧ Still s t ∧
        (ownsLocks s n = true → t.regField rLock 11 0 = old ||| m ∧ (old ||| m ≠ 0 → t.regField rLock 16 12 = n.val) ∧ Answered t n mOK []) ∧
        (ownsLocks s n = false → t.reg rLock = s.reg rLock ∧ Answered t n mLOCKED (natLe 4 0))) ∧
      (Served s n 0x07 b → ∃ t, exec (.unlock n irq req) s = .next t ∧ Still s t ∧
        (ownsLocks s n = true → t.regField rLock 11 0 = old &&& (4095 - m) ∧ Answered t n mOK []) ∧
        (ownsLocks s n = false → t.reg rLock = s.reg rLock ∧ Answered t n mLOCKED (natLe 4 0))))

/-- Mailbox commands on programs, contexts, granules and queues (R174, R229 to R232, R237, R341, R342, R396, R397). -/
def Obligations.MailboxesManageProgramsContextsQueues : Prop :=
  ∀ (s : State) (n : MbxId) (irq : Bool) (req : List Byte),
    let b := reqBytes req
    let c := fun op => callOf n op b irq
    (Served s n 0x10 b → ∃ t, exec (.registerProgram n irq req) s = .next t ∧ Still s t ∧
      (firstFail (programChecks s (fieldLe b 0 8)) = none → ∃ h, h < 2 ^ 32 ∧ Answered t n mOK (natLe 4 h) ∧
        tget none t.programs h = some (programOf s (fieldLe b 0 8)) ∧ ∀ k, k ≠ h → tget none t.programs k = tget none s.programs k) ∧
      (∀ k, firstFail (programChecks s (fieldLe b 0 8)) = some k → t.programs = s.programs ∧ Answered t n mCHECK_FAILED (natLe 4 k))) ∧
    (Served s n 0x11 b → ∀ p, tget none s.programs (fieldLe b 0 4) = some p → p.withdrawn = false →
      ∃ t, exec (.withdrawProgram n irq req) s = .next t ∧ Still s t ∧
        (∀ k, k ≠ fieldLe b 0 4 → tget none t.programs k = tget none s.programs k) ∧
        (programBusy s (fieldLe b 0 4) = false → tget none t.programs (fieldLe b 0 4) = none ∧ Answered t n mOK []) ∧
        (programBusy s (fieldLe b 0 4) = true → tget none t.programs (fieldLe b 0 4) = some { p with withdrawn := true } ∧
          busyMbx t n = true)) ∧
    (Served s n 0x20 b → ctxFields (c 0x20) = none → ctxFault s (c 0x20) = none → contextBusy s (fieldLe b 0 2) = false →
      ∃ t, exec (.loadContext n irq req) s = .next t ∧ Still s t ∧ Answered t n mOK [] ∧
        t.context (fieldLe b 0 2) = some ⟨(List.range 32).map (ctxEntry (c 0x20)), fieldLe b 2 2, false⟩ ∧
        ∀ x, x ≠ fieldLe b 0 2 → t.context x = s.context x) ∧
    (Served s n 0x21 b → fieldLe b 0 2 < 4096 → (s.context (fieldLe b 0 2)).isSome = true → contextBusy s (fieldLe b 0 2) = false →
      ∃ t, exec (.unloadContext n irq req) s = .next t ∧ Still s t ∧ Answered t n mOK [] ∧ t.context (fieldLe b 0 2) = none ∧
        ∀ x, x ≠ fieldLe b 0 2 → t.context x = s.context x) ∧
    (let g := fieldLe b 0 4
     let k := fieldLe b 4 2
     let src := fun i => fieldLe b (8 + 8 * i) 8
     Served s n 0x22 b → 1 ≤ k → k ≤ 511 → g + k ≤ 2048 → b.getD 6 0 ≤ 1 → b.getD 7 0 = 0 → (∀ i < k, sourceOk s (src i) = true) →
      granulesUsed s g k = false →
      ∃ t, exec (.loadGranules n irq req) s = .next t ∧ t.cores = s.cores ∧ t.tasks = s.tasks ∧ Answered t n mOK [] ∧
        (∀ i < k, tget 0 t.llc.sources (g + i) = if src i = 0 then 0 else addrLow (src i) + 1) ∧
        (∀ x, x < g ∨ g + k ≤ x → tget 0 t.llc.sources x = tget 0 s.llc.sources x) ∧
        MemFrame s t [(granuleAddr g, k * mib2)] ∧ (b.getD 6 0 = 0 → t.mem = s.mem) ∧
        (b.getD 6 0 = 1 → k = 1 → src 0 ≠ 0 → Memory.wf s.mem = true → ∀ j < mib2,
          memGet t.mem (granuleAddr g + j) = memGet s.mem (addrLow (src 0) + j))) ∧
    (let r := queueReq (c 0x30)
     let a := ctxAddr (fieldLe b 56 4)
     Served s n 0x30 b → queueFields s (c 0x30) r = none → qState s (fieldLe b 56 4) = 0 →
      ∃ t, exec (.queueCreate n irq req) s = .next t ∧ t.cores = s.cores ∧ t.tasks = s.tasks ∧ Answered t n mOK [] ∧
        MemFrame s t [(a, 64)] ∧
        MemHolds t a (r.take 19 ++ [1] ++ (r.drop 20).take 8 ++ List.replicate 16 0 ++ [1] ++ List.replicate 19 0)) ∧
    (let r := queueReq (c 0x31)
     let q := fieldLe b 56 4
     let a := ctxAddr q
     Served s n 0x31 b → queueFields s (c 0x31) r = none → qState s q ≠ 0 → queueBusy s q = false →
      ∃ t, exec (.queueModify n irq req) s = .next t ∧ t.cores = s.cores ∧ t.tasks = s.tasks ∧ Answered t n mOK [] ∧
        MemHolds t (a + 20) ((r.drop 20).take 4) ∧
        (ringFields (readBytes s.mem a 64) = ringFields r → MemFrame s t [(a + 20, 4)]) ∧
        (ringFields (readBytes s.mem a 64) ≠ ringFields r → MemFrame s t [(a, 19), (a + 20, 6), (a + 28, 17)] ∧
          MemHolds t a (r.take 19) ∧ MemHolds t (a + 24) ((r.drop 24).take 2) ∧
          MemHolds t (a + 28) (List.replicate 16 0 ++ [1]))) ∧
    (let q := fieldLe b 0 4
     let a := ctxAddr q
     q < 1048576 →
      (Served s n 0x32 b → qState s q ≠ 0 → queueBusy s q = false →
        ∃ t, exec (.queueReset n irq req) s = .next t ∧ t.cores = s.cores ∧ t.tasks = s.tasks ∧ Answered t n mOK (natLe 4 (qSpilled s q)) ∧
          (∀ p ∈ t.adm.spill, p.2.queue ≠ q) ∧ MemFrame s t [(a + 19, 1), (a + 26, 2), (a + 28, 17), (a + 52, 4)] ∧
          MemHolds t (a + 19) [1] ∧ MemHolds t (a + 26) [0, 0] ∧ MemHolds t (a + 28) (List.replicate 16 0 ++ [1]) ∧
          MemHolds t (a + 52) [0, 0, 0, 0]) ∧
      (Served s n 0x33 b → qState s q ≠ 0 → queueBusy s q = false →
        ∃ t, exec (.queueDelete n irq req) s = .next t ∧ t.cores = s.cores ∧ t.tasks = s.tasks ∧ Answered t n mOK [] ∧
          (∀ p ∈ t.adm.spill, p.2.queue ≠ q) ∧ MemFrame s t [(a + 19, 1), (a + 52, 4)] ∧ qState t q = 0 ∧
          MemHolds t (a + 52) [0, 0, 0, 0]) ∧
      (Served s n 0x34 b → ∃ t, exec (.queueQuery n irq req) s = .next t ∧ Still s t ∧ Answered t n mOK (readBytes s.mem a 64)))

/-- Mailbox commands on the whole module (R308, R390, R400 to R404, R424, R430, R492, R496 to R500, R511 to R514). -/
def Obligations.MailboxesRunTheModule : Prop :=
  ∀ (s : State) (n : MbxId) (irq : Bool) (req : List Byte),
    let b := reqBytes req
    (let r := scrubReqOf b
     let good := scrubRange s r = true ∧ r.cls < 15 ∧ r.flags < 2 ∧ r.summary = 0
     Served s n 0x40 b → JobRoom s → r.resv = 0 →
      (good → ∃ t id, exec (.scrub n irq req) s = .next t ∧ Calm s t ∧ Started s t n 0x40 MEMP 0 b ∧
        (∃ j ∈ t.fw.jobs, j.id = id ∧ j.op = 0x40 ∧ j.ended = none) ∧
        scrubRun t false id = some ⟨false, id, r, s.clk.tick, r.start, 0, 0, 0, 0, 0, noAddr, 0, [], false⟩ ∧
        ∃ q ∈ t.llc.reqs, q.addr = r.start ∧ q.kind = .scrubRd false id (isHbm r.start)) ∧
      (¬ good → ∃ t id, exec (.scrub n irq req) s = .next t ∧ Still s t ∧ Answered t n mIN_PROGRESS (natLe 4 id) ∧
        ∃ j ∈ t.fw.jobs, j.id = id ∧ j.op = 0x40 ∧ j.ended = some s.clk.tick ∧ j.status = mOK ∧ j.answer = scrubEmpty r 2 0)) ∧
    (∀ fl, fl < 2 → stateBusy s = false → (∀ r ∈ s.md.resets, r.both = false) → s.md.waiting = [] → JobRoom s →
      (b = [fl, 0, 0, 0] → Served s n 0x50 b → ∃ t id, exec (.computeReset n irq req) s = .next t ∧
        (∃ j ∈ t.fw.jobs, j.id = id ∧ j.op = 0x50 ∧ j.mbx = n.val ∧ j.ended = none) ∧
        (s.md.resets ≠ [] → t.md.waiting = [⟨[0, 1], true, decide (fl = 1), false, some id⟩] ∧ Still s t) ∧
        (s.md.resets = [] → t.md.resets = [⟨[0, 1], true, decide (fl = 1), false, some id⟩] ∧ t.md.kind = 2 ∧ t.md.cause = 4 ∧
          t.md.clean = decide (fl = 1) ∧ 0 ∈ t.towersDown ∧ 1 ∈ t.towersDown)) ∧
      (∀ tw, tw < 2 → (∀ r ∈ s.md.resets, tw ∉ r.towers) → b = [tw, fl, 0, 0] → Served s n 0x51 b →
        ∃ t id, exec (.towerReset n irq req) s = .next t ∧ (∃ j ∈ t.fw.jobs, j.id = id ∧ j.op = 0x51 ∧ j.mbx = n.val ∧ j.ended = none) ∧
          t.md.resets = s.md.resets ++ [⟨[tw], false, decide (fl = 1), false, some id⟩] ∧ t.md.kind = 3 + tw ∧ t.md.cause = 4 ∧
          t.md.clean = decide (fl = 1) ∧ tw ∈ t.towersDown)) ∧
    (Served s n 0x52 b → ∃ t, exec (.moduleReset n irq req) s = .next t ∧ Still s t ∧ Answered t n mOK [] ∧
      t.md.resetIn = some (s.clk.tick + ticksPerMs)) ∧
    (b = [0, 0, 0] → s.md.resets = [] → s.md.waiting = [] → s.pwr.entry = none → JobRoom s →
      (s.pwr.state ≠ 0 → Served s n 0x53 (0 :: b) → ∃ t id, exec (.powerStateRun n irq req) s = .next t ∧ t.cores = s.cores ∧
        t.tasks = s.tasks ∧ t.llc = s.llc ∧ t.therm.mon = [] ∧ Started s t n 0x53 PWRP 0 (0 :: b) ∧ (∃ j ∈ t.fw.jobs, j.id = id ∧ j.op = 0x53) ∧
        t.md.resets = [⟨[0, 1], true, decide (s.pwr.state = 2), true, some id⟩] ∧ t.towersDown = [0, 1] ∧
        (∀ c off, c < 576 → off < lsBytes → memGet t.mem (lsAddr c + off) = 0) ∧
        MemFrame s t ((lsAddr 0, 576 * 0x100000) :: if s.pwr.state = 2 then [(resBase, 4 * gib1)] else [])) ∧
      (s.pwr.state = 0 → ∀ p ∈ [(Instr.powerStateDi n irq req, 1), (.powerStateSb n irq req, 2)], Served s n 0x53 (p.2 :: b) →
        ∃ t, exec p.1 s = .next t ∧ Still s t ∧ Started s t n 0x53 PWRP p.2 (p.2 :: b) ∧ t.pwr.entry = some (p.2, s.clk.tick + horizon s))) ∧
    (∀ w notice plan, w = 0 ∨ (400 ≤ w ∧ w ≤ tierW s) → notice ≤ 1000000 → b = natLe 4 w ++ natLe 4 notice → Served s n 0x60 b →
      let eff := s.clk.tick + 100 * notice
      ∃ t, exec (.powerTarget n irq req plan) s = .next t ∧ t.mem = s.mem ∧ t.tasks = s.tasks ∧ t.pwr.pend = some (w, eff) ∧
        t.regBit oPwrLim 24 = true ∧ Answered t n mOK (natLe 8 eff ++ natLe 4 (s.regField oPwrCf 11 0)) ∧
        ((if w = 0 then tierW s else w) < committedFloor s (fun k => commitAt s k eff) → t.regBit oPwrEvt 7 = true)) ∧
    (Served s n 0x61 b → ∃ t, exec (.powerQuery n irq req) s = .next t ∧ Still s t ∧ Answered t n mOK
      (natLe 8 s.clk.tick ++ natLe 4 (s.regField oPwrLim 11 0) ++ natLe 4 (s.regField oPwrCf 11 0) ++ (List.range 16).flatMap (fun i =>
        natLe 4 (i * horizon s / 16) ++
          natLe 2 (committedFloor s (fun k => commitAt s k (s.clk.tick + i * horizon s / 16))) ++ [0, 0]))) ∧
    (let off := fieldLe b 0 4
     let len := fieldLe b 4 4
     let total := fieldLe b 8 4
     let old := if off = 0 then [] else tget [] s.fw.chunks n
     let l := (List.range total).map (fun i => if off ≤ i ∧ i < off + len then b.getD (16 + i - off) 0 else tget 0 old i)
     Served s n 0x70 b → off + len ≤ total → len ≤ 4080 → total ≤ 8192 → (b.drop 12).take 4 = [0, 0, 0, 0] →
      ∃ t, exec (.licenceInstall n irq req) s = .next t ∧ Still s t ∧
        (off + len < total → Answered t n mOK [] ∧ t.fw.lics = s.fw.lics ∧
          ∀ i, off ≤ i → i < off + len → tget 0 (tget [] t.fw.chunks n) i = b.getD (16 + i - off) 0) ∧
        (off + len = total → tget [] t.fw.chunks n = [] ∧
          (licenceFault s l total = none → Answered t n mOK [] ∧
            t.fw.lics = if s.fw.lics.any (fun x => fieldLe x 8 8 == fieldLe l 8 8) then s.fw.lics else s.fw.lics ++ [l]) ∧
          (∀ st d, licenceFault s l total = some (st, d) → Answered t n st (natLe 4 d) ∧ t.fw.lics = s.fw.lics))) ∧
    (Served s n 0x71 b → s.fw.lics.length ≤ 16 → ∃ t, exec (.licenceList n irq req) s = .next t ∧ Still s t ∧
      Answered t n mOK (natLe 4 s.fw.lics.length ++ [0, 0, 0, 0] ++ s.fw.lics.flatMap licRecord)) ∧
    (Served s n 0x72 b → fieldLe b 64 4 = 0 → let r := (buildReport s (b.take 64)).2
      ∃ t, exec (.attest n irq req) s = .next t ∧ Still s t ∧ tget [] t.fw.reports n = r ∧
        Answered t n mOK (natLe 4 r.length ++ [0, 0, 0, 0] ++ r.take 4088)) ∧
    (∀ p off, p < 7 → off % 8 = 0 → off ≤ 0x40000 → b = [p, 0, 0, 0] ++ natLe 4 off → Served s n 0x80 b → let k := min 4088 (0x40000 - off)
      ∃ t, exec (.dumpRead n irq req) s = .next t ∧ Still s t ∧
        Answered t n mOK (natLe 4 k ++ [0, 0, 0, 0] ++ (List.range k).map (fun i => dumpByte s p (off + i)))) ∧
    (∀ p, p < 7 → b = [p, 0, 0, 0] →
      (Served s n 0x81 b → ∃ t, exec (.dumpClear n irq req) s = .next t ∧ Still s t ∧ Answered t n mOK [] ∧ (t.proc p).dump = none ∧
        t.regBit rDstat p = false ∧ t.regBit (rPstat p) 6 = false) ∧
      (Served s n 0xA2 b → (s.proc p).stage = 2 ∨ (s.proc p).stage = 3 → ∃ t, exec (.updateVerify n irq req) s = .next t ∧ Still s t ∧
        (∀ k, imageFault s p (newSlot s p) (s.proc p).len = some k → Answered t n mCHECK_FAILED (natLe 4 k)) ∧
        (imageFault s p (newSlot s p) (s.proc p).len = none → imageSigned s p (newSlot s p) = false →
          Answered t n mSIGNATURE (natLe 4 0)) ∧
        (imageFault s p (newSlot s p) (s.proc p).len = none → imageSigned s p (newSlot s p) = true →
          Answered t n mOK [] ∧ (t.proc p).stage = 3)) ∧
      (Served s n 0xA3 b → (s.proc p).stage = 3 → s.fw.act = none → handoffConflict s p = false → JobRoom s →
        ∃ t id, exec (.updateActivate n irq req) s = .next t ∧ Calm s t ∧ Answered t n mIN_PROGRESS (natLe 4 id) ∧
          t.fw.act = some ⟨p, id, false⟩ ∧ (t.proc p).stage = 4 ∧ pstate t p = pRESTARTING ∧
          ∃ j ∈ t.fw.jobs, j.id = id ∧ j.op = 0xA3 ∧ j.ended = none) ∧
      (Served s n 0xA4 b → (s.proc p).stage = 2 ∨ (s.proc p).stage = 3 → ∃ t, exec (.updateAbort n irq req) s = .next t ∧ Still s t ∧
        Answered t n mOK [] ∧ (t.proc p).stage = 0)) ∧
    (∀ p fl, p < 7 → fl < 4 → b = [p, fl, 0, 0] → Served s n 0x82 b → (∀ a, s.fw.act = some a → a.proc ≠ p) →
      ∃ t, exec (.procRestart n irq req) s = .next t ∧ Calm s t ∧ pstate t p = pRESTARTING ∧ busyMbx t n = true ∧
        runSlot t p = (if nbit fl 0 then 1 - activeSlot s p else activeSlot s p) % 2 ∧
        t.regField (rPstat p) 5 4 = 0 ∧ (nbit fl 1 = true → (t.proc p).dump.isSome = true)) ∧
    (∀ p size, p < 7 → size ≤ threeMiB → b = [p, 0, 0, 0] ++ natLe 4 size → Served s n 0xA0 b → (s.proc p).stage = 0 →
      (slotWindow s = false → ∃ t, exec (.updateBegin n irq req) s = .next t ∧ Still s t ∧ Answered t n mWRITE_WINDOW (natLe 4 0)) ∧
      (slotWindow s = true → JobRoom s → ∃ t, exec (.updateBegin n irq req) s = .next t ∧ Still s t ∧ Started s t n 0xA0 SUP p b ∧
        (t.proc p).stage = 1 ∧ tget 0 t.fw.last n = p + 1)) ∧
    (∀ p off, p < 7 → fieldLe b 0 4 = off → off + fieldLe b 4 4 ≤ threeMiB → fieldLe b 4 4 ≤ 4088 → Served s n 0xA1 b →
      tget 0 s.fw.last n = p + 1 → (s.proc p).stage = 2 ∨ (s.proc p).stage = 3 → slotWindow s = true →
      ∃ t, exec (.updateWrite n irq req) s = .next t ∧ Still s t ∧ Answered t n mOK [] ∧ (t.proc p).stage = 2 ∧
        (∀ i < fieldLe b 4 4, slotByte t p (newSlot s p) (off + i) = b.getD (8 + i) 0) ∧
        ∀ sl i, sl < 2 → sl ≠ newSlot s p → slotByte t p sl i = slotByte s p sl i) ∧
    (∀ (m : Fin 16) c target tag, s.fw.calls = [c] → c.mbx = m.val → c.fwd = some (target, tag) → target ∉ s.lup.members → isG1 m = false →
      target < 2 ^ 32 → ∃ t, exec (.targetUnreachable m) s = .next t ∧ Still s t ∧ t.fw.calls = [] ∧ Answered t m mUNREACHABLE (natLe 4 target))

/-- Events of the firmware processors (R383 to R390, R401 to R404, R445, R502 to R507). -/
def Obligations.ProcessorsRestartAndUpdate : Prop :=
  ∀ (s : State) (pr : ProcId), s.fw.calls = [] →
    let p := pr.val
    (procAlive s p = true → ∀ (ca : RestartCause) (det : Word64) (st : Nat),
      ∀ x ∈ [(Instr.watchdogTrip pr det st, 1), (.procRestartCounted pr ca det st, causeNum ca)],
        ∃ t, exec x.1 s = .next t ∧ Calm s t ∧ runSlot t p = activeSlot s p % 2 ∧
          t.regField (rPstat p) 31 16 = min 65535 (s.regField (rPstat p) 31 16 + 1) ∧
          ((s.proc p).dump = none → ∃ d, (t.proc p).dump = some d ∧ d.cause = x.2 ∧ d.tick = s.clk.tick ∧ d.detail = det.toNat ∧ d.lost = 0) ∧
          (∀ d, (s.proc p).dump = some d → (t.proc p).dump = some { d with lost := satAdd 0xFFFFFFFF d.lost 1 }) ∧
          ((tripsNow s p).length < 3 → pstate t p = pRESTARTING ∧ Logged s t 0x0701) ∧
          (3 ≤ (tripsNow s p).length → pstate t p = pHELD ∧ Logged s t 0x0702)) ∧
    (s.clk.run = true → ∀ pass other key, ∃ t, exec (.procRunning pr pass other key) s = .next t ∧ Still s { t with tasks := s.tasks } ∧
      (p ≠ PWRP ∨ pstate s p ≠ pRESTARTING ∨ (s.pwr.cap = 0 ∧ s.pwr.towerA = []) → t.tasks = s.tasks) ∧
      (pstate s p = pSTARTING → (∀ q ∈ startsAfter p, serves s q = true) →
        (pass = true → p ≠ SEC ∨ key = true → pstate t p = pRUNNING ∧ runSlot t p = runSlot s p) ∧
        (pass = true → p ≠ SEC → ∃ e, t.fw.mlog.getLast? = some e ∧ e.take 3 = [1, p, runSlot s p]) ∧
        (pass = true → p = SEC → key = false → pstate t p = pHELD ∧ t.fw.recovery = true ∧ Logged s t 0x0702) ∧
        (pass = false → other = true → p ≠ SEC → pstate t p = pRUNNING ∧ runSlot t p = 1 - runSlot s p ∧ Logged s t 0x0701) ∧
        (pass = false → other = false → pstate t p = pHELD ∧ Logged s t 0x0702 ∧ (p = SEC → t.fw.recovery = true))) ∧
      (pstate s p = pRESTARTING → s.fw.act = none →
        (pass = true → pstate t p = pRUNNING ∧ runSlot t p = runSlot s p) ∧
        (pass = false → other = false → pstate t p = pHELD ∧ Logged s t 0x0702)) ∧
      (∀ id, pstate s p = pRESTARTING → s.fw.act = some ⟨p, id, false⟩ → pstate t p = pSELFCHECK ∧ t.fw.act = some ⟨p, id, true⟩ ∧
        runSlot t p = newSlot s p)) ∧
    (∀ id, s.fw.act = some ⟨p, id, true⟩ → pstate s p = pSELFCHECK →
      (∃ t, exec (.selfCheckPassed pr) s = .next t ∧ Still s t ∧ pstate t p = pRUNNING ∧ t.fw.act = none ∧
        t.fw.jobs = (endJob s id mOK 0 []).fw.jobs ∧
        (slotWindow s = true → (t.proc p).slot = 1 - (s.proc p).slot ∧ (t.proc p).stage = 0) ∧
        (slotWindow s = false → (t.proc p).slot = (s.proc p).slot ∧ t.regBit (rPstat p) 7 = true ∧ t.regBit rWstat 4 = true)) ∧
      (∃ t, exec (.activationFailed pr) s = .next t ∧ Calm s t ∧ pstate t p = pRESTARTING ∧ runSlot t p = activeSlot s p % 2 ∧
        t.fw.act = none ∧ (t.proc p).stage = 2 ∧ Logged s t 0x0701)) ∧
    (∀ r : Fin 4, s.clk.run = true → (if r.val = 2 then windowOpen s 2 (govOf s 6) else s.regBit rWstat r) = true → ∃ t, exec (.writeWindowOpen r) s = .next t ∧ Still s t ∧
      t.regBit rWstat (4 + r.val) = false ∧
      (r.val = 0 → ∀ q, q < 7 → s.regBit (rPstat q) 7 = true → (t.proc q).slot = 1 - (s.proc q).slot ∧ t.regBit (rPstat q) 7 = false) ∧
      (r.val = 2 → s.regBit rWstat 6 = true → ∀ q, q < 7 →
        (t.proc q).svn = max (s.proc q).svn (min 64 (leNat (slotBytes s q (s.proc q).slot 28 4)))) ∧
      (r.val = 3 → t.ecc.repairs = s.ecc.repairs ++ s.ecc.held ∧ t.ecc.held = [] ∧ t.ras.flash = s.ras.flash ++ s.ras.waiting ∧
        t.ras.waiting = [])) ∧
    (∀ (id : Word) j, s.job id.toNat = some j →
      (j.ended = none → serves s j.proc = true → ∃ t, exec (.jobEnd id false 0) s = .next t ∧ t.cores = s.cores ∧ t.tasks = s.tasks ∧
        (j.op = 0x00A0 → Still s t ∧ (t.proc j.arg).stage = 2 ∧ (∀ i, slotByte t j.arg (newSlot s j.arg) i = 255) ∧
          t.fw.jobs = (endJob s j.id mOK 0 []).fw.jobs) ∧
        (j.op = 0x0040 → (scrubRun s false j.id).any (fun r => !r.atEnd) = true → t = s) ∧
        (j.op = 0x0040 → (scrubRun s false j.id).any (fun r => !r.atEnd) = false → t.mem = s.mem ∧ scrubRun t false j.id = none ∧
          t.fw.jobs = (endJob s j.id mOK 0 (match scrubRun s false j.id with
            | some r => runSummary s r
            | none => scrubEmpty (scrubReqOf j.req) 1 0)).fw.jobs)) ∧
      (∀ d, j.ended = none → serves s j.proc = true → j.op = 0x00A0 ∨ j.op = 0x0040 → ∃ t, exec (.jobEnd id true d) s = .next t ∧
        t.mem = s.mem ∧ t.cores = s.cores ∧ t.tasks = s.tasks ∧ t.fw.jobs = (endJob s j.id mFAILED d.toNat []).fw.jobs ∧
        (t.proc j.proc).dump ≠ none) ∧
      (∀ u, j.ended = some u → u + tenSeconds ≤ s.clk.tick → ∃ t, exec (.jobExpiry id) s = .next t ∧
        t = { s with fw := { s.fw with jobs := s.fw.jobs.filter (fun x => x.id != j.id) } }))

/-- Access codes, latches and clears (R6, R63, R316, R322, R332, R395, R404, R432, R548). -/
def Obligations.RegistersFollowTheirAccess : Prop :=
  ∀ (s : State) (iface : Iface),
    (∀ off (v : Word), PlainReg off → ∃ t, exec (.registerWrite iface off v) s = .next t ∧ Still s t ∧
      (regAt off = none → inRange off v.toNat = true → t = s) ∧
      ∀ r i, regAt off = some (r, i) →
        (inRange off v.toNat = false → Dropped s t off) ∧
        (inRange off v.toNat = true → (∀ f ∈ r.fields, FieldWritten s t off v f) ∧
          (¬ Followed off → (∃ f ∈ r.fields, f.acc = .rwl) → locked s off = true → Logged s t 0x0607) ∧
          (¬ Followed off → (∀ f ∈ r.fields, f.acc ≠ .rwf ∧ (f.acc = .rwl → locked s off = false)) →
            t = { s with regs := t.regs } ∧ ∀ o, o ≠ off → t.reg o = s.reg o))) ∧
    (∀ v : Word, ∃ t, exec (.registerWrite iface rAlert v) s = .next t ∧ t = { s with regs := t.regs } ∧
      t.regBit rAlert 0 = (s.regBit rAlert 0 && !v.getLsbD 0) ∧ t.regBit rAlert 1 = t.regBit rAlert 0 ∧ ∀ o, o ≠ rAlert → t.reg o = s.reg o) ∧
    (∀ v : Word,
      (∀ p ∈ [(rRescfg, Instr.llcRescfgWrite iface v), (0x0200E3FC, .eccCclrWrite v), (0x00200020, .admCoverWrite iface false v),
          (0x00200024, .admCoverWrite iface true v), (oRingcfg, .pmcRingcfgWrite iface v), (rDstat, .mbxDstatClear v)],
        exec (.registerWrite iface p.1 v) s = exec p.2 s) ∧
      (∀ e : Fin 16, exec (.registerWrite iface (rPlaceRng e) v) s = exec (.llcPlaceWrite iface e false v) s ∧
        exec (.registerWrite iface (rPlaceAttr e) v) s = exec (.llcPlaceWrite iface e true v) s) ∧
      (∀ e : Fin 64, exec (.registerWrite iface (rRgnRng e) v) s = exec (.eccRgnRngWrite iface e v) s ∧
        exec (.registerWrite iface (rRgnAttr e) v) s = exec (.eccRgnAttrWrite iface e v) s) ∧
      (∀ (c : ClassId) (hi : Bool), exec (.registerWrite iface (rClmask c hi) v) s = exec (.admClmaskWrite iface c hi v) s ∧
        exec (.registerWrite iface (rCcfg c) v) s = exec (.admCcfgWrite iface c v) s) ∧
      (∀ off, (pairAt off).isSome = true →
        (off % 8 = 0 → exec (.registerWrite iface off v) s = exec (.pmcCounterLoWrite off v) s) ∧
        (off % 8 = 4 → exec (.registerWrite iface off v) s = exec (.pmcCounterHiWrite off v) s))) ∧
    (∀ n : Fin 262144,
      exec (.registerWrite iface oBiascmd (BitVec.ofNat 32 (262144 + n.val))) s = exec (.biasToHost n) s ∧
      exec (.registerWrite iface oBiascmd (BitVec.ofNat 32 n.val)) s = exec (.biasToDevice n) s) ∧
    (∃ t, exec (.admTickLoRead iface) s = .next t ∧ t = { s with out := t.out, host := t.host } ∧
      t.out = s.out ++ [.answer (natLe 4 (s.clk.tick % 2 ^ 32)) false] ∧ bar0Word t iface 0x0020000C = s.clk.tick / 2 ^ 32 ∧
      ∀ i, i ≠ iface.val → bar0Word t i 0x0020000C = bar0Word s i 0x0020000C) ∧
    (∃ t, exec (.pwrPtickLoRead iface) s = .next t ∧ t = { s with out := t.out, host := t.host } ∧
      t.out = s.out ++ [.answer (natLe 4 (s.pwr.profAt % 2 ^ 32)) false] ∧
      bar0Word t iface 0x00300014 = s.pwr.profAt / 2 ^ 32 ∧ bar0Word t iface oPwrCf = (s.reg oPwrCf).toNat ∧
      (∀ k, k < 16 → bar0Word t iface (oProf k) = (s.reg (oProf k)).toNat) ∧
      ∀ i k, i ≠ iface.val → bar0Word t i (oProf k) = bar0Word s i (oProf k)) ∧
    (∀ v : Word, ∃ t, exec (.mbxDstatClear v) s = .next t ∧ Still s t ∧ ∀ p, p < 7 →
      (v.getLsbD p = true → (t.proc p).dump = none ∧ t.regBit rDstat p = false ∧ t.regBit (rPstat p) 6 = false) ∧
      (v.getLsbD p = false → (t.proc p).dump = (s.proc p).dump ∧ t.regBit rDstat p = s.regBit rDstat p)) ∧
    (∀ v : Word, ∃ t, exec (.eccCclrWrite v) s = .next t ∧ t = { s with regs := t.regs } ∧ ∀ u, u < 15 →
      (v.getLsbD u = true → t.reg (rUce u) = 0 ∧ t.reg (rUue u) = 0) ∧
      (v.getLsbD u = false → t.reg (rUce u) = s.reg (rUce u) ∧ t.reg (rUue u) = s.reg (rUue u))) ∧
    (∀ v : Fin 2048, ∃ t, exec (.msixUnmask v) s = .next t ∧ t = { s with msix := t.msix, out := t.out } ∧
      t.msix.open_.contains v.val = true ∧
      (s.msix.pba.contains v.val = true → s.msix.enable = true → s.msix.fmask = false →
        t.out = s.out ++ [.msix v] ∧ t.msix.pba.contains v.val = false) ∧
      (s.msix.pba.contains v.val = false → t.out = s.out ∧ t.msix.pba = s.msix.pba))

/-- Settings of cache, regions, classes and bias (R242, R257, R297, R328 to R330, R363, R464). -/
def Obligations.CacheRegionAndClassSettingsApply : Prop :=
  ∀ (s : State) (iface : Iface) (v : Word),
    (let ok := s.tasks = [] ∧ applying s = false ∧ locked s rRescfg = false ∧ ∀ h, h < 4 → nbits v.toNat (4 * h + 3) (4 * h) ≤ 12
     (ok → ∃ t, exec (.llcRescfgWrite iface v) s = .next t ∧ Calm s t ∧ applying t = true ∧ t.llc.rescfgNext = some (v.toNat % 65536) ∧
        ∀ h, h < 4 → resWays t h = resWays s h) ∧
     (¬ ok → ∃ t, exec (.llcRescfgWrite iface v) s = .next t ∧ Dropped s t rRescfg)) ∧
    (∀ w, s.llc.rescfgNext = some w → s.llc.lines = [] → s.llc.retired = [] → ∃ t, exec .rescfgApplied s = .next t ∧ t.cores = s.cores ∧
      t.tasks = s.tasks ∧ applying t = false ∧ t.llc.rescfgNext = none ∧ ∀ h, h < 4 →
        let old := resWays s h
        let new := nbits w (4 * h + 3) (4 * h)
        let z := resBase + h * gib1 + min old new * mib64
        resWays t h = new ∧
        (∀ a, z ≤ a → a < z + (max old new - min old new) * mib64 → memGet t.mem a = 0) ∧
        (∀ a, resBase + h * gib1 ≤ a → a < resBase + (h + 1) * gib1 → a < z ∨ z + (max old new - min old new) * mib64 ≤ a →
          memGet t.mem a = memGet s.mem a)) ∧
    (∀ (e : Fin 16) (attr : Bool),
      let off := rPlaceRng e + (if attr then 4 else 0)
      let rng := (s.reg (rPlaceRng e)).toNat
      let at_ := (s.reg (rPlaceAttr e)).toNat
      let rng' := if attr then rng else v.toNat % 2 ^ 26
      let at' := if attr then v.toNat % 2 ^ 7 else at_
      let old := placeRange rng
      let new := placeRange rng'
      let ok := locked s off = false ∧ applying s = false ∧ flightMeets s old.1 old.2 = false ∧ flightMeets s new.1 new.2 = false
      (ok → s.llc.lines = [] → s.llc.reds = [] → ∃ t, exec (.llcPlaceWrite iface e attr v) s = .next t ∧ t.cores = s.cores ∧ t.tasks = s.tasks ∧
        MemFrame s t [old, new] ∧ (t.reg (rPlaceRng e)).toNat = rng' % 2 ^ 32 ∧ t.regField (rPlaceAttr e) 6 0 = at' % 2 ^ 7 ∧
        t.regBit (rPlaceAttr e) 7 = placeBad rng' at') ∧
      (¬ ok → ∃ t, exec (.llcPlaceWrite iface e attr v) s = .next t ∧ Dropped s t off)) ∧
    (∀ e : Fin 64,
      (locked s (rRgnRng e) = true → ∃ t, exec (.eccRgnRngWrite iface e v) s = .next t ∧ Dropped s t (rRgnRng e)) ∧
      (locked s (rRgnRng e) = false → ∃ t, exec (.eccRgnRngWrite iface e v) s = .next t ∧ t = { s with ecc := t.ecc } ∧
        tget 0 t.ecc.rngHeld e = v.toNat % 2 ^ 26 + 1) ∧
      (let rng := if tget 0 s.ecc.rngHeld e = 0 then (s.reg (rRgnRng e)).toNat else tget 0 s.ecc.rngHeld e - 1
       let old := regionRange (s.reg (rRgnRng e)).toNat (s.reg (rRgnAttr e)).toNat
       let new := regionRange rng v.toNat
       let ok := locked s (rRgnAttr e) = false ∧ flightMeets s old.1 old.2 = false ∧ flightMeets s new.1 new.2 = false ∧
         s.ecc.region = none ∧ applying s = false
       (ok → ∃ t, exec (.eccRgnAttrWrite iface e v) s = .next t ∧ Still s t ∧ t.ecc.region = some (e.val, rng, v.toNat % 8) ∧
          t.regBit (rRgnAttr e) 3 = true ∧ t.reg (rRgnRng e) = s.reg (rRgnRng e)) ∧
       (¬ ok → ∃ t, exec (.eccRgnAttrWrite iface e v) s = .next t ∧ Dropped s t (rRgnAttr e)))) ∧
    (∀ e rng at_ bad, e < 64 → at_ < 8 → rng < 2 ^ 26 → s.ecc.region = some (e, rng, at_) → ∃ t, exec (.regionApplied bad) s = .next t ∧
      (∀ x, (∀ a ∈ bad, x / 64 ≠ a / 64) → memGet t.mem x = memGet s.mem x) ∧ t.cores = s.cores ∧ t.tasks = s.tasks ∧ t.ecc.region = none ∧ (t.reg (rRgnRng e)).toNat = rng ∧
      (t.reg (rRgnAttr e)).toNat = at_ + (if regionBad rng at_ then 16 else 0) ∧ Logged s t 0x0409 ∧ (bad = [] → t.mem = s.mem ∧ t.poison = s.poison)) ∧
    (∀ (c : ClassId) (hi : Bool),
      let old := halfClusters hi (s.reg (rClmask c hi)).toNat
      let new := halfClusters hi v.toNat
      let ok := locked s (rClmask c hi) = false ∧ (∀ x ∈ old, x ∉ new → classReserves s c x = false) ∧
        ∀ x ∈ new, x ∉ old → otherHolds s c x = false ∧ inCover s x = false
      (ok → ∃ t, exec (.admClmaskWrite iface c hi v) s = .next t ∧ Still s t ∧ t.reg (rClmask c hi) = v) ∧
      (¬ ok → (∀ x, x < 64 → reqOf s x ≤ 920) → ∃ t, exec (.admClmaskWrite iface c hi v) s = .next t ∧ Dropped s t (rClmask c hi))) ∧
    (∀ c : ClassId,
      let ok := locked s (rCcfg c) = false ∧ 1 ≤ bits v 17 1 ∧ bits v 17 1 ≤ 65536 ∧
        (v.getLsbD 0 = true → ∀ x, x < 64 → inClass s c x = true → otherHolds s c x = false ∧ inCover s x = false)
      (ok → ∃ t, exec (.admCcfgWrite iface c v) s = .next t ∧ Still s t ∧ t.regField (rCcfg c) 17 0 = bits v 17 0) ∧
      (¬ ok → (∀ x, x < 64 → reqOf s x ≤ 920) → ∃ t, exec (.admCcfgWrite iface c v) s = .next t ∧ Dropped s t (rCcfg c))) ∧
    (∀ hi : Bool,
      let off := if hi then 0x00200024 else 0x00200020
      let old := halfClusters hi (s.reg off).toNat
      let new := halfClusters hi v.toNat
      let ok := locked s off = false ∧ (∀ x ∈ new, x ∉ old → (s.cluster x).retired = false ∧ ∀ d, d < 16 → inClass s d x = false) ∧
        ∀ x ∈ old, x ∉ new → s.regBit (rClcore x) 21 = false
      (ok → ∃ t, exec (.admCoverWrite iface hi v) s = .next t ∧ Still s t ∧ t.reg off = v ∧ ∀ x, x < 64 → decide (32 ≤ x) = hi →
        t.regBit (rClcore x) 20 = (new.contains x && !s.regBit (rClcore x) 21)) ∧
      (¬ ok → (∀ x, x < 64 → reqOf s x ≤ 920) → ∃ t, exec (.admCoverWrite iface hi v) s = .next t ∧ Dropped s t off)) ∧
    (∀ (n : Fin 262144) (toHost : Bool),
      let first := s.regField oBiasrng 16 0
      let c := if toHost then Instr.biasToHost n else .biasToDevice n
      let refused := fun (r : Nat) => ∃ t, exec c s = .next t ∧ t = { s with regs := t.regs } ∧ t.regField oBiasstat 3 2 = r ∧ t.regBit oBiasstat 1 = true
      (s.regBit oBiasstat 0 = true ∨ s.regField rHlink 1 0 = 0 → refused 3) ∧
      (s.regBit oBiasstat 0 = false → s.regField rHlink 1 0 ≠ 0 →
        (n.val = 0 ∨ 131072 < first + n.val → refused 2) ∧
        (1 ≤ n.val → first + n.val ≤ 131072 →
          (toHost = true → flightMeets s (first * mib2) (n.val * mib2) = true → refused 1) ∧
          (toHost = true → flightMeets s (first * mib2) (n.val * mib2) = false → s.llc.lines = [] → s.llc.reds = [] → ∃ t, exec c s = .next t ∧
            t.mem = s.mem ∧ t.tasks = s.tasks ∧ t.regBit oBiasstat 0 = true ∧ t.host.biasCmd = some (true, first, n.val)) ∧
          (toHost = false → ∃ t, exec c s = .next t ∧ Still s t ∧ t.regBit oBiasstat 0 = true ∧
            t.host.biasCmd = some (false, first, n.val))))) ∧
    (∀ toHost first n, s.host.biasCmd = some (toHost, first, n) → ∃ t, exec .biasCommandComplete s = .next t ∧ Still s t ∧
      t.host.biasCmd = none ∧ t.regBit oBiasstat 0 = false ∧ t.regBit oBiasstat 1 = true ∧ t.regField oBiasstat 3 2 = 0 ∧
      ∀ g, t.host.bias.contains g = if first ≤ g ∧ g < first + n then toHost else s.host.bias.contains g)

/-- The performance counters (R518 to R530). -/
def Obligations.CountersAreSetFrozenAndDumped : Prop :=
  ∀ (s : State) (iface : Iface),
    (∀ (on : Bool) occs, ∃ t, exec (.freeze on occs) s = .next t ∧ Still s t ∧ t.regBit oPmc 2 = on ∧
      (s.regBit oPmc 2 = true → t.pmc = s.pmc) ∧ (occs = [] → t = { s with regs := t.regs } ∧ ∀ o, o ≠ oPmc → t.reg o = s.reg o)) ∧
    (∀ v : Word,
      (s.regBit oDumpcfg 28 = true → ∃ t, exec (.pmcRingcfgWrite iface v) s = .next t ∧ Dropped s t oRingcfg) ∧
      (s.regBit oDumpcfg 28 = false → ∃ t, exec (.pmcRingcfgWrite iface v) s = .next t ∧ Still s t ∧ t.regField oRingcfg 4 0 = bits v 4 0 ∧
        t.regField oRinghead 29 0 = 0 ∧ t.regField oRingtail 29 0 = 0 ∧ t.pmc = { s.pmc with seq := 0 })) ∧
    (∀ off (v : Word) p, pairAt off = some (p, false) →
      (off % 8 = 4 → ∃ t, exec (.pmcCounterHiWrite off v) s = .next t ∧ t = { s with pmc := t.pmc } ∧ t.pmc.cnt = s.pmc.cnt ∧
        tget none t.pmc.hold p = some (v.toNat % 2 ^ 16)) ∧
      (off % 8 = 0 → ∃ t, exec (.pmcCounterLoWrite off v) s = .next t ∧ t = { s with pmc := t.pmc, cores := t.cores } ∧
        t.count p = (((tget none s.pmc.hold p).getD (pairValue s p / 2 ^ 32)) * 2 ^ 32 + v.toNat) % 2 ^ 48 ∧
        (∀ q, q ≠ p → t.count q = s.count q) ∧ tget none t.pmc.hold p = none ∧
        ∀ c, t.core c = { s.core c with base := (t.core c).base })) ∧
    (∀ off (v : Word) p, pairAt off = some (p, true) → off % 8 = 0 → exec (.pmcCounterLoWrite off v) s = .next s) ∧
    (∀ off p ro, pairAt off = some (p, ro) → off % 8 = 0 → ∃ t, exec (.pmcCounterLoRead iface off []) s = .next t ∧
      t = { s with host := t.host, out := t.out } ∧ t.out = s.out ++ [.answer (natLe 4 (pairValue s p)) false] ∧
      bar0Word t iface (off + 4) = pairValue s p / 2 ^ 32) ∧
    (s.regBit oDumpcfg 28 = true → ∀ kind i, kind < 4 → (dumpGroups s).filter (fun g => groupOn s g.1 g.2) = [(kind, i)] →
      ∃ t, exec (.dumpInterval [] []) s = .next t ∧ t.tasks = s.tasks ∧
        (RingRoom s (snapLen kind) → WritesAlone s (ringBase + s.regField oRinghead 29 0) (snapLen kind) →
          t.cores = s.cores ∧ RecWritten s t (snapshot s kind i s.pmc.seq)) ∧
        (s.pmc.lost = 0 → s.regField oRinghead 29 0 + snapLen kind ≤ ringSize s → ¬ RingRoom s (snapLen kind) →
          t.mem = s.mem ∧ t.cores = s.cores ∧ t.pmc.lost = 1 ∧ t.regField oRinghead 29 0 = s.regField oRinghead 29 0 ∧
          t.regField oRingstat 15 0 = min 65535 (s.regField oRingstat 15 0 + 1))) ∧
    (s.regBit oDumpcfg 28 = true → ∀ (k : Fin 4) i, (dumpGroups s).filter (fun g => groupOn s g.1 g.2) = [(k.val, i)] →
      ∃ t, exec (.dumpInterval [] [(k, i)]) s = .next t ∧ Still s t ∧ t.pmc = s.pmc ∧
        t.regField oRingstat 31 16 = min 65535 (s.regField oRingstat 31 16 + 1)) ∧
    (let w := s.regField oBwwin 19 0
     w ≠ 0 → s.clk.run = true → s.clk.tick % (100 * w) = 0 → ∃ t, exec (.bandwidthWindowEnd []) s = .next t ∧ Still s t ∧
      t.pmc.cnt = s.pmc.cnt ∧ t.pmc.off = s.towersDown ∧ ∀ q d, q ∈ busyPorts s → q < 4234 → d < 2 →
        tget 0 t.pmc.win (pairPort q d) = s.count (pairPort q d) ∧
        t.regField (0x01040020 + 0x40 * q + 4 * d) 31 0 =
          if portRan s q then min 0xFFFFFFFF ((s.count (pairPort q d) + 2 ^ 48 - tget 0 s.pmc.win (pairPort q d)) % 2 ^ 48 / w) else 0) ∧
    (∀ (c : CoreId) (m : Fin 8) (g : Fin 16) (pc : Option Word) (skid : Fin 9),
      s.regBit (selAt 0 c m) 13 = true → s.regBit (selAt 0 c m) 14 = true → counting s = true →
      (∃ t, exec (.counterWrap c m g pc skid false) s = .next t ∧ Still s t ∧
        t.regField oPmc 31 16 = min 65535 (s.regField oPmc 31 16 + 1) ∧ (c.val, 4 + m.val) ∉ t.pmc.wraps) ∧
      (RingRoom s 64 → WritesAlone s (ringBase + s.regField oRinghead 29 0) 64 → ∃ t, exec (.counterWrap c m g pc skid true) s = .next t ∧ t.cores = s.cores ∧ t.tasks = s.tasks ∧
        (c.val, 4 + m.val) ∉ t.pmc.wraps ∧
        RecWritten s t (sampleRec s c (4 + m.val) g (match pc with | some w => w.toNat | none => 0xFFFFFFFF) skid s.pmc.seq)))

/-- BAR2 and CXL.mem (R299, R319, R324, R325, R327, R333, R334, R338). -/
def Obligations.TheHostReachesMemory : Prop :=
  ∀ (s : State), hostUp s = true →
    (∀ (off : Fin 1073741824) n, 1 ≤ n → off.val % 128 + n ≤ 128 →
      let a := bar2Addr s off
      let lo := addrLow a
      let sp := spaceOf s lo n
      (addrModule a = s.modId →
        (sp = .nowhere → ∀ e, ∃ t, exec (.bar2Read off n e) s = .next t ∧ Gives s t (.abort true) ∧ Logged s t 0x0606) ∧
        (sp ≠ .nowhere → s.md.opened = false → ∀ e, ∃ t, exec (.bar2Read off n e) s = .next t ∧
          Gives s t (.answer (List.replicate n 0) false)) ∧
        (s.md.opened = true →
          (sp = .home ∨ sp = .reserved → placeDown s lo = true → ∀ e, ∃ t, exec (.bar2Read off n e) s = .next t ∧
            Gives s t (.abort true) ∧ Logged s t 0x0603) ∧
          (sp = .home ∨ sp = .reserved → placeDown s lo = false → LineQuiet s lo → ∃ t, exec (.bar2Read off n []) s = .next t ∧
            Gives s t (.answer (readBytes s.mem lo n) (badRead s lo n))) ∧
          (sp = .home → placeDown s lo = false → LineQuiet s lo → linePresent s lo = true → ∀ (w : Fin 8) cell,
            let x := 128 * (lo / 128) + 16 * w.val
            x < lo + n → lo < x + 16 → isPoisoned s.poison x 16 = false →
            (∃ t, exec (.bar2Read off n [.word w cell true]) s = .next t ∧ PoisonPut s t x 16 ∧ t.cores = s.cores ∧ t.tasks = s.tasks ∧
              t.out = s.out ++ [.answer (readBytes t.mem lo n) true]) ∧
            (codeOf s x ≠ codeLight → ∃ t, exec (.bar2Read off n [.word w cell false]) s = .next t ∧
              Gives s t (.answer (readBytes s.mem lo n) (badRead s lo n)) ∧ x ∈ t.llc.rewrites)) ∧
          (∀ c, sp = .store c →
            (storeFilling s c = true → ∀ e, ∃ t, exec (.bar2Read off n e) s = .next t ∧ Gives s t (.answer (List.replicate n 0) false)) ∧
            (storeFilling s c = false → (s.core c).task = none → ∃ t, exec (.bar2Read off n []) s = .next t ∧
              Gives s t (.answer (readBytes s.mem lo n) (isPoisoned s.poison lo n)))))) ∧
      (addrModule a ≠ s.modId →
        (spaceAway lo n = .nowhere ∨ reaches s (addrModule a) = false → ∀ e, ∃ t, exec (.bar2Read off n e) s = .next t ∧
          Gives s t (.abort true) ∧ Logged s t 0x0606) ∧
        (spaceAway lo n ≠ .nowhere → reaches s (addrModule a) = true → ∀ e, ∃ t, exec (.bar2Read off n e) s = .next t ∧ Calm s t ∧
          t.llc.remote = s.llc.remote ++ [⟨tget 0 s.lup.tags (addrModule a), s.clk.tick,
            ⟨s.llc.nextReq, 576, 0, 0, a, .hostRd (a % 128) n⟩, false⟩]))) ∧
    (∀ (off : Fin 1073741824) (data : List Byte) (poison : Bool), data ≠ [] → off.val % 128 + data.length ≤ 128 →
      let n := data.length
      let a := bar2Addr s off
      let lo := addrLow a
      let sp := spaceOf s lo n
      (addrModule a = s.modId →
        (sp = .nowhere ∨ (sp ≠ .reserved ∧ s.md.opened = false) → ∃ t, exec (.bar2Write off data poison) s = .next t ∧ Still s t ∧
          Logged s t 0x0606) ∧
        (sp = .reserved → ∃ t, exec (.bar2Write off data poison) s = .next t ∧ Still s t ∧ Logged s t 0x0602) ∧
        (s.md.opened = true →
          (sp = .home → placeDown s lo = true → ∃ t, exec (.bar2Write off data poison) s = .next t ∧ Still s t ∧ Logged s t 0x0603) ∧
          (sp = .home → placeDown s lo = false → WritesAlone s lo n → Unsourced s lo n →
            (poison = false → ∃ t, exec (.bar2Write off data false) s = .next t ∧ t.cores = s.cores ∧ t.tasks = s.tasks ∧
              MemHolds t lo (reqBytes data) ∧ MemFrame s t [(lo, n)]) ∧
            (poison = true → ∃ t, exec (.bar2Write off data true) s = .next t ∧ t.cores = s.cores ∧ t.tasks = s.tasks ∧
              Logged s t 0x0402 ∧ PoisonPut s t lo n)) ∧
          (∀ c, sp = .store c → storeFilling s c = true → ∃ t, exec (.bar2Write off data poison) s = .next t ∧ Still s t ∧ Logged s t 0x0606) ∧
          (∀ c, sp = .store c → storeFilling s c = false →
            (poison = false → ∃ t, exec (.bar2Write off data false) s = .next t ∧ t.cores = s.cores ∧ t.tasks = s.tasks ∧
              MemHolds t lo (reqBytes data) ∧ MemFrame s t [(lo, n)]) ∧
            (poison = true → ∃ t, exec (.bar2Write off data true) s = .next t ∧ t.cores = s.cores ∧ t.tasks = s.tasks ∧
              Logged s t 0x0402 ∧ PoisonPut s t lo n)))) ∧
      (addrModule a ≠ s.modId →
        (spaceAway lo n = .nowhere → ∃ t, exec (.bar2Write off data poison) s = .next t ∧ Still s t ∧ Logged s t 0x0606) ∧
        (spaceAway lo n = .reserved → ∃ t, exec (.bar2Write off data poison) s = .next t ∧ Still s t ∧ Logged s t 0x0602) ∧
        (spaceAway lo n = .home → reaches s (addrModule a) = true → n = 1 → ∃ t, exec (.bar2Write off data false) s = .next t ∧ Calm s t ∧
          t.llc.remote = s.llc.remote ++ [⟨tget 0 s.lup.tags (addrModule a), s.clk.tick, ⟨s.llc.nextReq, 576, 0, 0, a, .hostWr⟩, false⟩]))) ∧
    (∀ addr n, 1 ≤ n → addr % 64 + n ≤ 64 →
      (s.regBit rHlink 12 = true → ∀ e, ∃ t, exec (.cxlMemRead addr n e) s = .next t ∧ Gives s t (.answer (List.replicate n 0) true)) ∧
      (s.regBit rHlink 12 = false →
        (s.regField rHlink 1 0 = 0 ∨ (covers (decoder s 0) addr n = false ∧ covers (decoder s 1) addr n = false) → ∀ e,
          ∃ t, exec (.cxlMemRead addr n e) s = .next t ∧ Gives s t (.answer (List.replicate n 0) true) ∧ Logged s t 0x0606) ∧
        (s.regField rHlink 1 0 ≠ 0 → ∀ lo,
          (covers (decoder s 0) addr n = true ∧ lo = addr - (decoder s 0).base * mib256) ∨
          (covers (decoder s 0) addr n = false ∧ covers (decoder s 1) addr n = true ∧
            lo = addr - (decoder s 1).base * mib256 + (decoder s 0).size * mib256) →
          (s.md.opened = false → ∀ e, ∃ t, exec (.cxlMemRead addr n e) s = .next t ∧ Gives s t (.answer (List.replicate n 0) false)) ∧
          (s.md.opened = true → placeDown s lo = true → ∀ e, ∃ t, exec (.cxlMemRead addr n e) s = .next t ∧
            Gives s t (.answer (List.replicate n 0) true) ∧ Logged s t 0x0603) ∧
          (s.md.opened = true → placeDown s lo = false → LineQuiet s lo → ∃ t, exec (.cxlMemRead addr n []) s = .next t ∧
            Gives s t (.answer (readBytes s.mem lo n) (badRead s lo n)))))) ∧
    (∀ addr (data : List Byte), data ≠ [] → addr % 64 + data.length ≤ 64 →
      let n := data.length
      (s.regBit rHlink 12 = true → ∀ p, exec (.cxlMemWrite addr data p) s = .next s) ∧
      (s.regBit rHlink 12 = false →
        (s.regField rHlink 1 0 = 0 ∨ (covers (decoder s 0) addr n = false ∧ covers (decoder s 1) addr n = false) → ∀ p,
          ∃ t, exec (.cxlMemWrite addr data p) s = .next t ∧ Still s t ∧ Logged s t 0x0606) ∧
        (s.regField rHlink 1 0 ≠ 0 → covers (decoder s 0) addr n = true → s.md.opened = true →
          let lo := addr - (decoder s 0).base * mib256
          (placeDown s lo = true → ∀ p, ∃ t, exec (.cxlMemWrite addr data p) s = .next t ∧ Still s t ∧ Logged s t 0x0603) ∧
          (placeDown s lo = false → WritesAlone s lo n → lo + n ≤ hbmEnd →
            (∃ t, exec (.cxlMemWrite addr data false) s = .next t ∧ t.cores = s.cores ∧ t.tasks = s.tasks ∧ MemHolds t lo (reqBytes data) ∧
              MemFrame s t [(lo, n)]) ∧
            (∃ t, exec (.cxlMemWrite addr data true) s = .next t ∧ t.cores = s.cores ∧ t.tasks = s.tasks ∧ Logged s t 0x0402 ∧
              PoisonPut s t lo n)))))

/-- Other traffic of the host (R321, R327, R328, R331, R333, R334, R336, R337). -/
def Obligations.HostTrafficIsAnswered : Prop :=
  ∀ (s : State),
    (∀ enter, exec (.d3hot enter) s = .next { s with host := { s.host with d3 := enter } }) ∧
    (hostUp s = true →
      (∀ p ∈ [(HostErr.unsupported false, [Out.unsupported]), (.unsupported true, []), (.badBar0 false, [.abort true]), (.badBar0 true, []),
          (.malformed, []), (.poisonBar0, []), (.badCxl, [])],
        ∃ t, exec (.hostRequestError p.1) s = .next t ∧ Still s t ∧ Logged s t 0x0606 ∧ t.out = s.out ++ p.2) ∧
      (s.md.booting = true → ∀ c, exec (.configRequest c true) s = .next { s with out := s.out ++ [.config false] }) ∧
      (∀ retry, retry = false ∨ s.md.booting = false →
        exec (.configRequest .other retry) s = .next { s with out := s.out ++ [.config true] } ∧
        (∀ en mask, ∃ t, exec (.configRequest (.msix en mask) retry) s = .next t ∧ t = { s with out := t.out, msix := t.msix } ∧
          t.msix.enable = en ∧ t.msix.fmask = mask ∧ t.out.getLast? = some (.config true) ∧
          (en = true → mask = false → ∀ v ∈ s.msix.pba, v ∈ s.msix.open_ → v ∉ t.msix.pba ∧ Out.msix v ∈ t.out) ∧
          (en = false ∨ mask = true → t.msix.pba = s.msix.pba)) ∧
        (∀ base, ∃ t, exec (.configRequest (.rangeBase base) retry) s = .next t ∧ Gives s t (.config true) ∧
          (s.regField rHlink 1 0 = 1 → t.host.hdm = [⟨base, 1024, true, false⟩]) ∧ (s.regField rHlink 1 0 ≠ 1 → t.host.hdm = s.host.hdm))) ∧
      (s.regField rHlink 1 0 ≠ 0 → ∃ t, exec .viral s = .next t ∧ Still s t ∧ t.regBit rHlink 12 = true ∧
        (s.msix.pba.contains 0 = false → t.msix.pba.contains 0 = true ∨ t.out = s.out ++ [.msix 0])) ∧
      (s.regField rHlink 1 0 = 2 → ∀ (i : Fin 2) base size lock, (decoder s i).locked = false → 1 ≤ size →
        (i = 0 → size + (if (decoder s 1).commit then (decoder s 1).size else 0) ≤ 1024) →
        (i = 1 → (decoder s 0).commit = true ∧ size + (decoder s 0).size ≤ 1024) →
        ∃ t, exec (.hdmDecoderCommit i base size lock) s = .next t ∧ t = { s with host := t.host } ∧
          decoder t i = ⟨base, size, true, lock⟩ ∧ ∀ j : Fin 2, j ≠ i → decoder t j = decoder s j)) ∧
    (∀ line, s.host.held.any (fun h => h.1 == line) = true → LineQuiet s (128 * line) → ∃ t, exec (.hostSnoop line) s = .next t ∧ Still s t ∧
      t.out = s.out ++ [.answer (readBytes s.mem (128 * line) 128) (isPoisoned s.poison (128 * line) 128)] ++
        ((s.host.waits.find? (fun w => w.line == line)).toList.map (fun w => .cache line w.own)) ∧
      t.host.held.any (fun h => h.1 == line) = false) ∧
    (∀ line e (data : List Byte), data = [] ∨ data.length = 128 →
      ((∀ w ∈ s.host.waits, w.line ≠ line) → ∃ t, exec (.cxlCacheResponse line data e) s = .next t ∧ Still s t ∧ Logged s t 0x0606) ∧
      (∀ w m, s.host.waits = [w] → w.line = line → w.msg = some m → m.pay = .none → LineQuiet s (128 * line) → LineQuiet s (addrLow m.addr) →
        WritesAlone s (128 * line) 128 → 128 * line + 128 ≤ hbmEnd →
        ∃ t, exec (.cxlCacheResponse line data []) s = .next t ∧ t.tasks = s.tasks ∧ t.host.waits = [] ∧
          t.host.held.any (fun h => h.1 == line) = false ∧ Out.giveBack line ∈ t.out ∧
          (data = [] → t.mem = s.mem) ∧ (data ≠ [] → MemHolds t (128 * line) (reqBytes data) ∧ MemFrame s t [(128 * line, 128)])))

/-- Resets and bring-up (R336, R337, R360, R482, R496, R497, R502, R508, R516). -/
def Obligations.ResetsTakeTheirSteps : Prop :=
  ∀ (s : State),
    let wiped := fun (t : State) => t.mem = [] ∧ t.poison = [] ∧ t.tasks = [] ∧ (∀ c, (t.core c).groups = [] ∧ (t.core c).task = none) ∧
      t.ecc.repairs = s.ecc.repairs ∧ t.ras.flash = s.ras.flash ∧ t.fw.slots = s.fw.slots ∧ t.fw.lics = s.fw.lics ∧ t.md.kind = 1
    let booted := fun (t : State) (tr : HostTrain) => t.clk = ⟨0, true⟩ ∧ t.md.booting = true ∧ t.md.perst = false ∧ t.modId = t.md.straps ∧
      t.regField rHlink 1 0 = tr.mode.val ∧ t.regField rHlink 4 2 = tr.rate.val ∧ t.regField rHlink 9 5 = 2 ^ tr.width.val % 32 ∧
      t.lup.members = [t.modId]
    (s.md.perst = false → s.md.input = true → ∃ t, exec .perstAssert s = .next t ∧ wiped t ∧ t.md.perst = true ∧ t.md.cause = 1 ∧
      t.md.off = false ∧ t.clk.run = false) ∧
    (∀ (m : Fin 64) tr, s.md.perst = true → s.md.input = true → ∃ t, exec (.perstDeassert m tr) s = .next t ∧ Calm s { t with cores := s.cores } ∧
      t.modId = m.val ∧ booted t tr) ∧
    (∀ ld tr, s.clk.run = true → s.md.off = false → ∃ t, exec (.hotReset ld tr) s = .next t ∧ wiped t ∧ booted t tr ∧
      t.md.cause = if ld then 3 else 2) ∧
    (∀ boot, bootDone s = true → s.pwr.state = 0 → ∃ t, exec (.ready boot) s = .next t ∧ Calm s t ∧ t.md.booting = false ∧ t.md.opened = true ∧
      t.md.ready = s.clk.tick ∧ t.regBit rHlink 10 = true ∧ t.regBit oAdmStat 17 = true) ∧
    (∀ mc, s.regField rHlink 1 0 = 2 → s.md.booting = false → s.md.opened = true → s.md.resets = [] → s.md.waiting = [] → stateBusy s = false →
      ∃ t, exec (.cxlReset mc) s = .next t ∧ t.md.resets = [⟨[0, 1], true, mc, false, none⟩] ∧ t.md.kind = 2 ∧ t.md.cause = 5 ∧
        t.md.clean = mc ∧ 0 ∈ t.towersDown ∧ 1 ∈ t.towersDown) ∧
    (∀ (tw : TowerId) train sus r, s.md.resets = [r] → testsPending s tw = false →
      (r.towers = [tw.val] → s.md.waiting = [] → r.exits = false → s.pwr.state = 0 → ∃ t, exec (.towerReady tw train sus) s = .next t ∧ t.cores = s.cores ∧
        t.tasks = s.tasks ∧ t.md.resets = [] ∧ t.md.opened = true ∧ t.regBit rHlink 10 = true ∧ t.regBit oAdmStat 17 = true ∧
        (tw.val ∉ t.towersDown) ∧ (r.both = true → 0 ∉ t.towersDown ∧ 1 ∉ t.towersDown) ∧
        (∀ j, r.job = some j → t.fw.jobs = (endJob s j mOK 0 []).fw.jobs) ∧ (r.clean = false → t.mem = s.mem)) ∧
      (r.towers = [0, 1] → r.clean = false → ∃ t, exec (.towerReady tw train sus) s = .next t ∧ Still s t ∧
        t.md.resets = [{ r with towers := [1 - tw.val] }] ∧ t.towersDown = s.towersDown))

/-- Requests of other modules (R126 to R129, R158, R167, R243, R244, R246, R250, R328, R474, R480, R489). -/
def Obligations.MemberRequestsAreServed : Prop :=
  ∀ (s : State) (link : Fin 8) (m : LMsg),
    let lo := addrLow m.addr
    let line := lineOf m.addr
    let n := 2 ^ m.size
    let up := placeDown s lo = false
    let free := hostBias s lo = false
    let does := fun (i : Instr) (q : State → Prop) => ∃ t, exec i s = .next t ∧ q t
    (∀ e, hostBias s lo = true → s.host.held.any (fun h => h.1 == line) = false → s.host.waits.any (fun w => w.line == line) = false →
      ∀ p ∈ [(Instr.rd link m 0 e, tRD), (.wr link m 0, tWR), (.atom link m 0 e, tATOM), (.lupinLock link m 0 e, tLOCK), (.red link m 0, tRED)],
        Arrives s link m p.2 → does p.1 (fun t => Gives s t (.cache line (p.2 != tRD)) ∧
          t.host.waits = s.host.waits ++ [⟨line, p.2 != tRD, link.val + 1, some m⟩])) ∧
    (Asks s link m tRD → m.pay = .none → spaceOf s lo n ≠ .nowhere → free →
      (placeDown s lo = true → ∀ e, does (.rd link m 0 e) (fun t => Calm s t ∧
        Sent t (answerTo s m tRDRESP 2 (.data (List.replicate n 0))))) ∧
      (up → spaceOf s lo n = .home ∨ spaceOf s lo n = .reserved → LineQuiet s lo → does (.rd link m 0 []) (fun t => Calm s t ∧
        Sent t (answerTo s m tRDRESP (if badRead s lo n then 1 else 0) (.data (readBytes s.mem lo n))))) ∧
      (up → ∀ c, spaceOf s lo n = .store c → (s.core c).task = none → does (.rd link m 0 []) (fun t => Calm s t ∧
        Sent t (answerTo s m tRDRESP (if isPoisoned s.poison lo n then 1 else 0) (.data (readBytes s.mem lo n)))))) ∧
    (∀ bs, Asks s link m tWR → m.pay = .data bs → bs.length = n → free →
      (spaceOf s lo n = .reserved → does (.wr link m 0) (fun t => Calm s t ∧ Logged s t 0x0602 ∧ Sent t (answerTo s m tACK 0 .none))) ∧
      (spaceOf s lo n = .home ∨ (∃ c, spaceOf s lo n = .store c) →
        (placeDown s lo = true → does (.wr link m 0) (fun t => Calm s t ∧ Sent t (answerTo s m tACK 2 .none))) ∧
        (up → spaceOf s lo n = .home → WritesAlone s lo n ∧ Unsourced s lo n → does (.wr link m 0) (fun t =>
          t.cores = s.cores ∧ t.tasks = s.tasks ∧ MemHolds t lo bs ∧ MemFrame s t [(lo, n)] ∧ Sent t (answerTo s m tACK 0 .none))) ∧
        (up → spaceOf s lo n ≠ .home → does (.wr link m 0) (fun t =>
          t.cores = s.cores ∧ t.tasks = s.tasks ∧ MemHolds t lo bs ∧ MemFrame s t [(lo, n)] ∧ Sent t (answerTo s m tACK 0 .none))))) ∧
    (∀ op v c, Asks s link m tATOM → m.pay = .atom op v c → m.size = 2 ∨ m.size = 3 → op < 11 → spaceOf s lo n = .home → free →
      (placeDown s lo = true → ∀ e, does (.atom link m 0 e) (fun t => Calm s t ∧ Sent t (answerTo s m tATOMRESP 2 (.value 0 false)))) ∧
      (up → WritesAlone s lo n → Unsourced s lo n → does (.atom link m 0 []) (fun t => t.cores = s.cores ∧ t.tasks = s.tasks ∧
        (badRead s lo n = true → t.mem = s.mem ∧ Sent t (answerTo s m tATOMRESP 1 (.value 0 false))) ∧
        (badRead s lo n = false → MemHolds t lo (natLe n (atomOp op n (leNat (readBytes s.mem lo n)) v c)) ∧ MemFrame s t [(lo, n)] ∧
          Sent t (answerTo s m tATOMRESP 0 (.value (leNat (readBytes s.mem lo n)) true)))))) ∧
    (∀ acq lost c g th, Asks s link m tLOCK → m.pay = .lock acq lost c g th → m.size = 3 → c < 576 → g < 16 → th < 32 →
      spaceOf s lo 8 = .home → free →
      (placeDown s lo = true → ∀ e, does (.lupinLock link m 0 e) (fun t => Calm s t ∧ Sent t (answerTo s m tATOMRESP 2 (.value 0 false)))) ∧
      (up → WritesAlone s lo 8 → Unsourced s lo 8 →
        let v := leNat (readBytes s.mem lo 8)
        let cs := waitCores s (lineOf lo)
        let waiter := s.llc.waits.find? (fun w => w.addr == m.addr)
        let mayFree := lost = true ∨ ownsWordOf m.src v c g th = true
        does (.lupinLock link m 0 []) (fun t => t.cores = s.cores ∧ t.tasks = s.tasks ∧ MemFrame s t [(lo, 8)] ∧
          (badRead s lo 8 = true → t.mem = s.mem ∧ Sent t (answerTo s m tATOMRESP 1 (.value 0 false))) ∧
          (badRead s lo 8 = false →
            (acq = true → nbit v 0 = false → MemHolds t lo (natLe 8 (lockWord c g th m.src)) ∧
              Sent t (answerTo s m tATOMRESP 0 (.value (if nbit v 1 then 1 else 0) true))) ∧
            (acq = true → nbit v 0 = true → (c, m.src) ∈ cs ∨ cs.length < 4 → t.mem = s.mem ∧
              t.llc.waits = s.llc.waits ++ [⟨m.addr, c, g, th, 0, nbit v 1, some (m.src, m.tag, m.label)⟩]) ∧
            (acq = true → nbit v 0 = true → (c, m.src) ∉ cs → 4 ≤ cs.length → t.mem = s.mem ∧ t.llc.waits = s.llc.waits ∧
              Sent t (answerTo s m tATOMRESP 0 (.value 0 false))) ∧
            (acq = false → ¬ mayFree → t.mem = s.mem ∧ t.llc.waits = s.llc.waits ∧ Sent t (answerTo s m tATOMRESP 0 (.value 1 false))) ∧
            (acq = false → mayFree → waiter = none → MemHolds t lo (natLe 8 (if lost then 2 else 0)) ∧
              Sent t (answerTo s m tATOMRESP 0 (.value 0 false))) ∧
            (acq = false → mayFree → ∀ w, waiter = some w → t.llc.waits = s.llc.waits.erase w ∧ Sent t (answerTo s m tATOMRESP 0 (.value 0 true)) ∧
              (w.away = none → MemHolds t lo (natLe 8 (handedWord w.core w.group w.thread s.modId lost)) ∧
                t.llc.wakes = s.llc.wakes ++ [{ w with lost := lost }]) ∧
              (∀ x tag label, w.away = some (x, tag, label) → MemHolds t lo (natLe 8 (handedWord w.core w.group w.thread x lost)) ∧
                Sent t (newMsg s tATOMRESP label 0 x tag 0 (.value (if lost then 1 else 0) true)))))))) ∧
    (∀ un len, Asks s link m tPIN → m.pay = .pin un len → 1 ≤ len → len ≤ 128 → spaceOf s lo 1 = .home →
      let yes := fun t => Sent t (answerTo s m tACK 0 (.value 0 true))
      (placeDown s lo = true → does (.lupinPin link m 0) (fun t => Calm s t ∧ Sent t (answerTo s m tACK 2 (.value 0 false)))) ∧
      (up → MovesNoLine s [m.addr] → does (.lupinPin link m 0) (fun t => Calm s t ∧
        (isHbm m.addr = false → yes t) ∧
        (un = true → lineAt s line = none → t.llc.lines = s.llc.lines ∧ yes t) ∧
        (∀ h, isHbm m.addr = true → homeAt s (128 * line) = some h → un = false → lineAt s line = none → (setLines s h).length < llcWays s h.half h.bank →
          (lineAt t line).isSome = true) ∧
        (∀ h l, isHbm m.addr = true → homeOf s m.addr = some h → lineAt s line = some l →
          (un = true → (∃ l', lineAt t line = some l' ∧ l'.pin = none) ∧ yes t) ∧
          (un = false → l.pin.isSome = true → t.llc.lines = s.llc.lines ∧ yes t) ∧
          (un = false → l.pin = none → pinAllowed s h m.label = true → (∃ l', lineAt t line = some l' ∧ l'.pin = some m.label) ∧ yes t) ∧
          (un = false → l.pin = none → pinAllowed s h m.label = false → t.llc.lines = s.llc.lines ∧
            Sent t (answerTo s m tACK 0 (.value 0 false))))))) ∧
    (∀ oper ty bs, Asks s link m tRED → m.pay = .red oper ty bs → 1 ≤ bs.length → bs.length ≤ 240 → bs.length % elemSize oper = 0 →
      spaceOf s lo bs.length = .home → free →
      (placeDown s lo = true → does (.red link m 0) (fun t => Calm s t ∧ Sent t (answerTo s m tACK 2 .none))) ∧
      (up → does (.red link m 0) (fun t => Calm s t ∧
        t.llc.reqs = s.llc.reqs ++ [⟨s.llc.nextReq + 1, 576, 0, 0, m.addr, .reduce oper ty bs s.llc.nextReq⟩] ∧
        t.llc.redReqs = s.llc.redReqs ++ [⟨s.llc.nextReq, 576, 0, 0, 1, false, false, m.addr, some (m.src, m.tag, m.label)⟩])))

/-- Answers and time-outs (R478, R480, R487, R489, R490, R494). -/
def Obligations.AnswersReachTheirRequesters : Prop :=
  ∀ (s : State) (link : Fin 8) (m : LMsg),
    let own := ¬ (m.src = 0 ∧ s.lup.asks.any (fun a => a.1 == m.tag) = true)
    let does := fun (i : Instr) (q : State → Prop) => ∃ t, exec i s = .next t ∧ q t
    let ends := fun (r : RemReq) (t : State) => t.mem = s.mem ∧ t.tasks = s.tasks ∧ t.llc.remote = s.llc.remote.erase r
    (∀ p ∈ [(Instr.rdresp link m 0, tRDRESP), (.ack link m 0, tACK), (.atomresp link m 0, tATOMRESP), (.nack link m 0, tNACK)],
      Arrives s link m p.2 → own → (∀ r, ¬ Asked s m r) → exec p.1 s = .next s) ∧
    (∀ b, Comes s link m tRDRESP → m.pay = .data b → b.length = 2 ^ m.size → own → ∀ r, Asked s m r →
      (m.status = 0 → ∀ n sg uni al dst, r.req.kind = .load n sg uni al dst → does (.rdresp link m 0) (fun t => ends r t ∧
        Responded s t r.req.core ⟨r.req.id, r.req.group, r.req.thread, r.req.addr, n,
          extendVal n sg (leNat (if al then (b.drop (r.req.addr % 128)).take n else b.take n)), dst, sizeWords n, uni, false, none,
          if al && !r.nofill then b else []⟩)) ∧
      (m.status = 0 → ∀ off n, r.req.kind = .hostRd off n → does (.rdresp link m 0) (fun t => ends r t ∧ t.cores = s.cores ∧
        Out.answer ((b.drop off).take n) false ∈ t.out)) ∧
      (m.status = 1 → ∀ off n, r.req.kind = .hostRd off n → does (.rdresp link m 0) (fun t => ends r t ∧ Calm s t ∧
        Out.answer (List.replicate n 0) true ∈ t.out))) ∧
    (∀ tag q i b, Comes s link m tRDRESP → m.pay = .data b → b.length = 2 ^ m.size → m.src = 0 →
      s.lup.asks.find? (fun a => a.1 == m.tag) = some (tag, q, i) → m.status = 0 → b.length = descSize s q →
      does (.rdresp link m 0) (fun t => Calm s t ∧ t.lup.asks = s.lup.asks.filter (fun a => a.1 != tag) ∧
        t.adm.und = s.adm.und.map (fun u => if u.queue = q ∧ u.idx = i ∧ u.data = none then { u with data := some b } else u))) ∧
    (∀ r bs, Comes s link m tACK → m.pay = .none → m.status = 0 → Asked s m r → r.req.kind = .store bs →
      does (.ack link m 0) (fun t => ends r t ∧
        (t.core r.req.core).acks = (s.core r.req.core).acks ++ [⟨r.req.group, r.req.thread, false, false, false, r.req.addr⟩])) ∧
    (∀ r v fl, Comes s link m tATOMRESP → m.pay = .value v fl → m.status = 0 → Asked s m r →
      (∀ op n uni dst x c, r.req.kind = .atom op n uni dst x c → does (.atomresp link m 0) (fun t => ends r t ∧
        RespondedDropping s t r.req.core ⟨r.req.id, r.req.group, r.req.thread, r.req.addr, n, v, dst, sizeWords n, uni, false, none, []⟩)) ∧
      (∀ p, r.req.kind = .lockAcq p → waitsFor s r.req.core r.req.group r.req.thread r.req.addr = true →
        does (.atomresp link m 0) (fun t => ends r t ∧ t.cores = s.cores ∧
          let w : LockWait := ⟨r.req.addr, r.req.core, r.req.group, r.req.thread, p, v == 1, none⟩
          (fl = true → t.llc.wakes = s.llc.wakes ++ [w]) ∧ (fl = false → t.llc.unrecorded = s.llc.unrecorded ++ [w])))) ∧
    (∀ r, Comes s link m tNACK → m.pay = .none → own → Asked s m r →
      (m.reason = 1 ∨ m.reason = 4 → m.status = 0 → ∀ off n, r.req.kind = .hostRd off n → does (.nack link m 0) (fun t => ends r t ∧ Calm s t ∧
        Out.abort true ∈ t.out)) ∧
      (m.reason = 1 ∨ m.reason = 4 → r.req.kind = .hostWr → does (.nack link m 0) (fun t => ends r t ∧ Calm s t ∧ Out.abort false ∈ t.out)) ∧
      (m.reason ≠ 1 → m.reason ≠ 4 → exec (.nack link m 0) s = .next s)) ∧
    (∀ (module : Fin 64) (tag : Fin 65536) r,
      s.llc.remote.find? (fun r => r.tag == tag.val && addrModule r.req.addr == module.val) = some r →
      let waits := (∃ p, r.req.kind = .lockAcq p) ∧ reaches s module = true
      (s.clk.tick < r.at_ + ticksPerMs ∨ waits → exec (.remoteTimeout module tag) s = .next s) ∧
      (r.at_ + ticksPerMs ≤ s.clk.tick → ¬ waits → does (.remoteTimeout module tag) (fun t => t.mem = s.mem ∧
        t.llc.remote = s.llc.remote.erase r ∧
        (∀ off n, r.req.kind = .hostRd off n → Calm s t ∧ Out.abort true ∈ t.out ∧ Logged s t 0x0606) ∧
        (r.req.kind = .hostWr → Calm s t ∧ Logged s t 0x0606) ∧
        ((∀ off n, r.req.kind ≠ .hostRd off n) → r.req.kind ≠ .hostWr → (s.core r.req.core).task.isSome = true →
          (t.core r.req.core).phase = .stopped ∧ (t.core r.req.core).fault = rasCoreFault ∧ ∀ c, c ≠ r.req.core → t.core c = s.core c))))

/-- Frames, checks, host forwarding and management (R326, R462, R471 to R476, R480, R485 to R487, R490, R491, R493). -/
def Obligations.FramesAndManagementAreTaken : Prop :=
  ∀ (s : State) (link : Fin 8) (m : LMsg),
    let l := link.val + 1
    let k := s.link l
    (linkLive s l = true → ∀ (fseq ak : Fin 4096) hold flits cc cn,
      (k.naking = false → ∃ t, exec (.frameReceived link fseq ak hold false flits cc cn) s = .next t ∧ Still s t ∧ (t.link l).naking = true ∧
        ∃ c n, t.out = s.out ++ [.control l ((k.rxSeq + 4095) % 4096) true (holding s) c n]) ∧
      (k.naking = true → exec (.frameReceived link fseq ak hold false flits cc cn) s = .next s) ∧
      (fseq.val ≠ k.rxSeq → exec (.frameReceived link fseq ak hold true flits cc cn) s = .next s) ∧
      (fseq.val = k.rxSeq → ∃ t, exec (.frameReceived link fseq ak hold true flits cc cn) s = .next t ∧ Still s t ∧
        (t.link l).rxSeq = (k.rxSeq + 1) % 4096 ∧ (t.link l).naking = false ∧ t.regBit (rLstat l) 15 = hold ∧
        (∃ more, (t.link l).retry = (takeAck k ak).retry ++ more) ∧ ∃ c n, Out.control l k.rxSeq false (holding s) c n ∈ t.out) ∧
      ((takeAck k ak).nakRun + 1 < 8 → ∃ t, exec (.nak link ak) s = .next t ∧ Still s t ∧
        t.out = s.out ++ (takeAck k ak).retry.map (fun p => .lupin l p.1 p.2) ∧ (t.link l).retry = (takeAck k ak).retry ∧
        t.regField (rLerr l) 15 0 = min 65535 (s.regField (rLerr l) 15 0 + (takeAck k ak).retry.length)) ∧
      (8 ≤ (takeAck k ak).nakRun + 1 → ∃ t, exec (.nak link ak) s = .next t ∧ Still s t ∧ linkState t l = 0)) ∧
    (∀ fl : Fin 8, ∀ p ∈ [(Instr.rd link m fl [], tRD), (.wr link m fl, tWR), (.atom link m fl [], tATOM),
        (.lupinLock link m fl [], tLOCK), (.lupinPin link m fl, tPIN), (.red link m fl, tRED), (.rdresp link m fl, tRDRESP),
        (.ack link m fl, tACK), (.atomresp link m fl, tATOMRESP), (.nack link m fl, tNACK), (.lupinDoorbell link m fl, tDOORBELL),
        (.hostrd link m fl [], tHOSTRD), (.hostwr link m fl, tHOSTWR), (.lupinMsix link m fl, tMSIX), (.mgmt link m fl, tMGMT),
        (.mgmtresp link m fl, tMGMTRESP)], m.typ = p.2 →
      (linkLive s l = false → exec p.1 s = .next s) ∧
      (linkState s l = 2 →
        (∀ r, rxReason s m fl = some r → ∃ t, exec p.1 s = .next t ∧ Still s t ∧
          t.regField (rLerr l) 31 16 = min 65535 (s.regField (rLerr l) 31 16 + 1) ∧
          (k.malMs.sec ≠ s.clk.tick / ticksPerMs ∨ k.malMs.cnt < 16 → m.typ ≠ tNACK → Sent t (nackTo s m r)) ∧
          (k.malMs.sec = s.clk.tick / ticksPerMs → 16 ≤ k.malMs.cnt → linkState t l = 3)) ∧
        (rxReason s m fl = none → m.dst ≠ s.modId → ∃ t, exec p.1 s = .next t ∧ Still s t ∧
          let m' := { m with ttl := m.ttl - 1, epoch := (nextHop s m).2 }
          m' ∈ (t.link (nextHop s m).1).txq ∨ ∃ q, (q, m') ∈ (t.link (nextHop s m).1).retry) ∧
        (rxReason s m fl = none → m.dst = s.modId → msgClass m.typ ≠ some 0 → (tget [] s.lup.seen m.src).contains m.tag = true →
          exec p.1 s = .next s))) ∧
    (m.dst = s.modId →
      ((leadOnly m = true ∧ isLead s = false) ∨ (fromLead m = true ∧ m.src ≠ 0) → rxReason s m 0 = some 1) ∧
      (leadOnly m = false → fromLead m = false → shapeOk m = true → hasAddr m.typ = true → offMap s m = true → rxReason s m 0 = some 4)) ∧
    (∀ w, Arrives s link m tDOORBELL → m.pay = .word w →
      ∀ head : Bool, addrLow m.addr = 0x00100000 + (if head then 8 else 0) →
        let u := if head then ringCq (recordTag s m) w else ringSq (recordTag s m) w
        ∃ t, exec (.lupinDoorbell link m 0) s = .next t ∧ t.adm = u.adm ∧ t.mem = u.mem ∧ t.tasks = u.tasks ∧ Sent t (answerTo u m tACK 0 .none)) ∧
    (isLead s = true →
      (∀ data : List Byte, Arrives s link m tHOSTRD → ∃ t, exec (.hostrd link m 0 data) s = .next t ∧ Still s t ∧
        Out.hostRead m.addr (2 ^ m.size) ∈ t.out ∧ Sent t (if data.length = 2 ^ m.size then answerTo s m tRDRESP 0 (.data (reqBytes data))
          else answerTo s m tRDRESP 1 (.data (List.replicate (2 ^ m.size) 0)))) ∧
      (∀ b, Arrives s link m tHOSTWR → m.pay = .data b →
        exec (.hostwr link m 0) s = .next { s with out := s.out ++ [.hostWrite m.addr b] }) ∧
      (∀ v, Arrives s link m tMSIX → m.pay = .word v → v < 4 ∨ 16 ≤ v → ∃ t, exec (.lupinMsix link m 0) s = .next t ∧
        t = { s with out := t.out, msix := t.msix } ∧
        (s.msix.enable = true → s.msix.fmask = false → v ∈ s.msix.open_ → t.out = s.out ++ [.msix v]) ∧
        (s.msix.enable = false ∨ s.msix.fmask = true ∨ v ∉ s.msix.open_ → t.msix.pba.contains v = true))) ∧
    (Arrives s link m tMGMT →
      (∀ off, m.pay = .mmio off none → m.src = 0 → off < 0x04000000 → ∃ t, exec (.mgmt link m 0) s = .next t ∧ Still s t ∧
        Sent t (answerTo s m tMGMTRESP 0 (.value (bar0Read s 2 off).1 true))) ∧
      (∀ off v, m.pay = .mmio off (some v) → m.src = 0 → off < 0x04000000 → PlainReg off → ∃ t, exec (.mgmt link m 0) s = .next t ∧
        Still s t ∧ t.regs = (regWrite s 2 off v).regs ∧ Sent t (answerTo s m tMGMTRESP 0 (.value 0 true))) ∧
      (∀ e table members, m.pay = .routes e table members → m.src = 0 → ∃ t, exec (.mgmt link m 0) s = .next t ∧ Still s t ∧
        t.lup.members = members ∧ t.lup.epoch = e ∧ t.regBit oLupDstat 7 = true ∧ t.regBit oLupDstat 15 = e ∧
        routeTo t s.modId = (0, 0) ∧ ∀ d, d ≠ s.modId → routeTo t d = tget (0, 0xF) (routeTab table) d) ∧
      (∀ key table, m.pay = .failover key table → m.src = 0 → ∃ t, exec (.mgmt link m 0) s = .next t ∧ Still s t ∧
        (key = 0 → table = [] → s.lup.failed = [] → t.regBit oLupDstat 16 = true ∧ Sent t (answerTo s m tMGMTRESP 0 (.value 0 true))) ∧
        (key ≠ 0 ∨ table ≠ [] → tget [] t.lup.failover key = routeTab table ∧ Sent t (answerTo s m tMGMTRESP 0 (.value 0 true)))) ∧
      (∀ n op req plan num, m.pay = .mboxGo n op req plan num → mbxDark s = false →
        (16 ≤ n → ∃ t, exec (.mgmt link m 0) s = .next t ∧ Still s t ∧
          Sent t (newMsg s tMGMTRESP 15 0 m.src m.tag 0 (.mboxAns n mWRONG_MAILBOX 0 []))) ∧
        (n < 16 → busyMbx s n = true → ∃ t, exec (.mgmt link m 0) s = .next t ∧ Still s t ∧
          Sent t (newMsg s tMGMTRESP 15 0 m.src m.tag 0 (.mboxAns n mBUSY 0 []))) ∧
        (n < 16 → op = 0x04 → req = [] → Served s n 0x04 [] → ∃ t, exec (.mgmt link m 0) s = .next t ∧ Still s t ∧ t.session n = none ∧
          Answered t n mOK [] ∧ Sent t (newMsg s tMGMTRESP 15 0 m.src m.tag 0 (.mboxAns n mOK 0 []))))) ∧
    (∀ n ans c, Arrives s link m tMGMTRESP → m.pay = .mboxAns n mOK 0 ans → n < 16 → s.fw.calls = [c] → c.mbx = n →
      c.fwd = some (m.src, m.tag) → ans.length ≤ 4096 → ∃ t, exec (.mgmtresp link m 0) s = .next t ∧ Still s t ∧ t.fw.calls = [] ∧
        Answered t n mOK ans)

/-- Training, lanes, link-down, failover and link control (R477 to R486, R493, R494, R548). -/
def Obligations.LinksTrainAndFail : Prop :=
  ∀ (s : State) (link : Fin 8),
    let l := link.val + 1
    (∀ (peer : Fin 64) fa (lanes : Fin 16) slow, s.clk.run = true → s.md.off = false → procDown s 3 = false → s.regBit (rLctl l) 0 = false →
      linkState s l = 0 ∨ linkState s l = 1 →
      let up := ((List.range 4).filter (fun n => nbit lanes n)).length
      ∃ t, exec (.linkTraining link peer fa lanes slow) s = .next t ∧ Still s t ∧
        (up < 3 → linkState t l = 0) ∧
        (3 ≤ up → peer.val = s.modId → linkState t l = 0 ∧ Logged s t 0x06F6) ∧
        (3 ≤ up → peer.val ≠ s.modId → linkState t l = 1 ∧ t.regField (rLstat l) 7 4 = lanes.val ∧ t.regField (rLstat l) 13 8 = peer.val ∧
          t.regBit (rLstat l) 3 = (fa || slow) ∧ t.regBit (rLstat l) 14 = fa ∧ t.regField (rLerr l) 31 16 = 0 ∧ (t.link l).retry = [])) ∧
    (∀ present tables, linkState s l = 1 → 3 ≤ lanesUp s l → ∃ t, exec (.lupinLinkUp link present tables) s = .next t ∧ Still s t ∧
      linkState t l = 2 ∧ (isLead s = false → Logged s t 0x06F2 ∧ t.lup.members = s.lup.members) ∧
      (isLead s = true → t.lup.members = (admitted s (present.map (·.val))).1 ∧ t.lup.epoch = !s.lup.epoch)) ∧
    (∀ lane : Fin 4, linkLive s l = true → s.regBit (rLstat l) (4 + lane.val) = true →
      ∃ t, exec (.lupinLaneLost link lane) s = .next t ∧ Still s t ∧
        (lanesUp s l = 4 → t.regBit (rLstat l) (4 + lane.val) = false ∧ linkState t l = linkState s l ∧ lanesUp t l = 3 ∧ Logged s t 0x06F0) ∧
        (lanesUp s l ≠ 4 → linkState t l = 0 ∧ lanesUp t l = 0)) ∧
    (∀ absent, linkState s l = 1 ∨ linkLive s l = true → ∃ t, exec (.lupinLinkDown link absent) s = .next t ∧ Still s t ∧ linkState t l = 0 ∧
      lanesUp t l = 0 ∧
      (linkState s l = 2 → s.regBit oLupDstat 16 = true → knownFailure s (16 * s.modId + l) = false →
        t.lup.epoch = (!s.lup.epoch) ∧ t.regBit oLupDstat 16 = false ∧
        ∀ d, d ≠ s.modId → routeTo t d = tget (0, 0xF) (tget [] s.lup.failover (16 * s.modId + l)) d) ∧
      (linkState s l ≠ 2 ∨ s.regBit oLupDstat 16 = false ∨ knownFailure s (16 * s.modId + l) = true → t.lup.routes = s.lup.routes)) ∧
    (∀ (module : Fin 64) (failed : Fin 9),
      let key := 16 * module.val + failed.val
      (linkLive s l = false ∨ knownFailure s key = true → exec (.linkdownNotice link module failed) s = .next s) ∧
      (linkLive s l = true → knownFailure s key = false → ∃ t, exec (.linkdownNotice link module failed) s = .next t ∧ Still s t ∧
        t.lup.failed = s.lup.failed ++ [(key, s.regBit oLupDstat 16)] ∧ (s.regBit oLupDstat 16 = false → t.lup.routes = s.lup.routes) ∧
        (s.regBit oLupDstat 16 = true → t.lup.epoch = (!s.lup.epoch) ∧ t.regBit oLupDstat 16 = false ∧ t.regBit oLupDstat 15 = t.lup.epoch ∧
          t.lup.old = s.lup.routes ∧ ∀ d, d ≠ s.modId → routeTo t d = tget (0, 0xF) (tget [] s.lup.failover key) d))) ∧
    (isLead s = false → ∀ tables, exec (.failoverTables tables) s = .next s) ∧
    (isLead s = true → ∀ (key : Fin 1024) (mm : Fin 64) tab, ∃ t, exec (.failoverTables [(key, mm, tab)]) s = .next t ∧ Still s t ∧
      let rt := routeTab (tab.map (fun r => (r.1.val, r.2.1.val, r.2.2.val)))
      (s.lup.failed = [] → t.regBit oLupDstat 16 = true) ∧ (mm.val = s.modId → tget [] t.lup.failover key = rt) ∧
      (mm.val = s.modId → s.lup.failed = [(key.val, false)] → rt ≠ [] → t.regBit oLupDstat 16 = false ∧ t.lup.epoch = (!s.lup.epoch) ∧
        ∀ d, d ≠ s.modId → routeTo t d = tget (0, 0xF) rt d)) ∧
    (∀ iface : Iface,
      (locked s (rLctl l) = false →
        (linkState s l = 4 ∨ linkState s l = 5 → exec (.retrain iface link) s = .next s) ∧
        (linkState s l ≠ 4 → linkState s l ≠ 5 → ∃ t, exec (.retrain iface link) s = .next t ∧ Still s t ∧ linkState t l = 1 ∧
          t.regField (rLerr l) 31 16 = 0) ∧
        (∀ on, s.regBit (rLctl l) 0 = on → exec (.linkDisable iface link on) s = .next s) ∧
        (s.regBit (rLctl l) 0 = false → linkState s l ≠ 4 → ∃ t, exec (.linkDisable iface link true) s = .next t ∧ Still s t ∧
          linkState t l = 5 ∧ t.regBit (rLctl l) 0 = true) ∧
        (s.regBit (rLctl l) 0 = true → ∃ t, exec (.linkDisable iface link false) s = .next t ∧ Still s t ∧ t.regBit (rLctl l) 0 = false ∧
          linkState t l = if linkState s l = 5 then 0 else linkState s l)) ∧
      (locked s (rLctl l) = true →
        (linkState s l ≠ 4 → linkState s l ≠ 5 → ∃ t, exec (.retrain iface link) s = .next t ∧ Still s t ∧ linkState t l = 1) ∧
        (∀ on, ∃ t, exec (.linkDisable iface link on) s = .next t ∧ Dropped s t (rLctl l) ∧ linkState t l = linkState s l)))

/-- Sideband, JTAG and console (R389, R398, R510, R515, R539, R541). -/
def Obligations.SidePortsAnswer : Prop :=
  ∀ (s : State),
    (sideDark s = false →
      (∀ (off : Fin 65536) (data : List Byte),
        let wrong := fun c => exec c s = .next s
        let go := reqBytes data = natLe 4 (2 ^ 31 + 1) ∧ s.fw.calls = []
        let does := fun c => ∃ t, exec c s = .next t ∧ Still s t ∧ t.md.sbOff = (off.val + data.length) % 65536 ∧
          (0x1000 ≤ off.val → off.val + data.length ≤ 0x2000 → busyMbx s 16 = false →
            ((payload t 16).drop (off.val - 0x1000)).take data.length = reqBytes data ∧
            (payload t 16).take (off.val - 0x1000) = (payload s 16).take (off.val - 0x1000)) ∧
          (0x1000 ≤ off.val → off.val + data.length ≤ 0x2000 → busyMbx s 16 = true → tget [] t.fw.payload 16 = tget [] s.fw.payload 16) ∧
          (off.val = 0 → reqBytes data = natLe 4 (2 ^ 31 + 1) → Served s 16 0x01 [] → Answered t 16 mOK (identityBlock s ++
            (List.range 64).flatMap (fun k => natLe 4 (s.reg (rClcore k)).toNat) ++ List.replicate 3584 0))
        (s.md.sbDyn = none → wrong (.i3cPrivateWrite off data)) ∧
        (s.md.sbDyn ≠ none → 0x1000 ≤ off.val ∨ (off.val = 0 ∧ go) → does (.i3cPrivateWrite off data)) ∧
        (data.length ≤ 30 → s.md.sbDyn ≠ none → wrong (.smbusBlockWrite off data)) ∧
        (data.length ≤ 30 → s.md.sbDyn = none → 0x1000 ≤ off.val ∨ (off.val = 0 ∧ go) →
          does (.smbusBlockWrite off data))) ∧
      (∀ n,
        let reads := fun c => ∃ t, exec c s = .next t ∧ Still s t ∧ t.md.sbOff = (s.md.sbOff + n) % 65536 ∧
          t.out = s.out ++ [.answer ((List.range n).map (fun i => mirrorByte s ((s.md.sbOff + i) % 65536))) false]
        (s.md.sbDyn ≠ none → reads (.i3cPrivateRead n)) ∧ (s.md.sbDyn = none → exec (.i3cPrivateRead n) s = .next s) ∧
        (s.md.sbDyn = none → n = 32 → reads .smbusBlockRead) ∧ (s.md.sbDyn ≠ none → exec .smbusBlockRead s = .next s))) ∧
    (∀ (addr static : Fin 128) (v33 : Bool),
      let ok := s.md.sbDyn = none ∧ s.md.input = true ∧ v33 = false
      let takes := fun c => exec c s = .next { s with md := { s.md with sbDyn := some addr.val } }
      (ok → takes (.entdaa addr v33)) ∧ (¬ ok → exec (.entdaa addr v33) s = .next s) ∧
      (ok → static.val = 0x30 + s.md.straps % 16 → takes (.setdasa static addr v33)) ∧
      (¬ ok ∨ static.val ≠ 0x30 + s.md.straps % 16 → exec (.setdasa static addr v33) s = .next s)) ∧
    exec .rstdaa s = .next { s with md := { s.md with sbDyn := none } } ∧
    (∀ link : Fin 8, exec (.linkSidebandRequest link) s =
      .next (if s.md.input ∧ s.md.perst = false ∧ s.md.off = false then { s with out := s.out ++ [.sideband (link.val + 1) s.md.straps] } else s)) ∧
    (∀ i ∈ [JtagIns.bypass, .idcode, .sample, .extest], exec (.jtagInstruction i) s = .next s) ∧
    (nbit (licFeatures s) 5 = false ∨ s.clk.run = false → exec (.jtagInstruction .other) s = .next s ∧ ∀ data, exec (.uartInput data) s = .next s) ∧
    (nbit (licFeatures s) 5 = true → s.clk.run = true →
      (∃ t, exec (.jtagInstruction .other) s = .next t ∧ Still s t ∧ t.md.debug = true ∧
        (s.md.debug = true → t = s) ∧ (s.md.debug = false → ∃ e, t.fw.mlog.getLast? = some e ∧ e.take 3 = [5, 0xFF, 0xFF])) ∧
      (∀ data, ∃ t, exec (.uartInput data) s = .next t ∧ Still s t ∧ t.md.debug = true ∧ t.md.console = s.md.console ++ reqBytes data))

/-- P7 as source and destination (R145). -/
def Obligations.P7IsAlwaysTrue : Prop :=
  (∀ (s : State) (c g th : Nat), predOf s c g th 7 = true) ∧
  ∀ (s : State) (x : Site) (w : Word64) (i : Ctx),
    let keeps := fun (c : Instr) => ∃ t, exec c s = .next t ∧ ∀ d g th q, predOf t d g th q = predOf s d g th q
    (∀ op : CmpOp, aPdst w = 7 → Issues s x w [aSrcA w, aSrcB w] [] i → legalA 0x04 [0, 1, 2, 3, 4] w = true →
      srcOk (aSrcA w) 1 = true → srcOk (aSrcB w) 1 = true → keeps (.cmp x (some op) w)) ∧
    (∀ (op : CmpOp) (sg : Bool), bits w 42 40 = 7 → Issues s x w [bSrcA w] [] i → isClass 0x0C w = true → bits w 47 43 = 0 →
      srcOk (bSrcA w) 1 = true → keeps (.cmpi x (some op) sg w)) ∧
    (∀ op : PredOp, op ≠ .ballot → aPdst w = 7 → Issues s x w [] (predSrcs op w) i → legalA 0x07 [0, 1, 2, 3, 4] w = true →
      keeps (.pred x (some op) w)) ∧
    (∀ op : XlaneOp, aPdst w = 7 → Issues s x w [aSrcA w, aSrcB w] [] i → legalA 0x08 [0, 1, 2, 3, 4] w = true →
      srcOk (aSrcA w) 1 = true → srcOk (aSrcB w) 1 = true → dstOk (aDst w) 1 = true → keeps (.xlane x (some op) w))

/-- Writes of the cover pool that are dropped and counted (R464). -/
def Obligations.CoverPoolWritesThatAreDropped : Prop :=
  ∀ (s : State) (iface : Iface) (hi : Bool) (v : Word) (cl : Nat), cl < 64 → decide (32 ≤ cl) = hi →
    let off := if hi then 0x00200024 else 0x00200020
    let was := s.regBit off (cl % 32)
    let adds := was = false ∧ v.getLsbD (cl % 32) = true
    let removes := was = true ∧ v.getLsbD (cl % 32) = false
    let dropped := ∀ c ∈ [Instr.admCoverWrite iface hi v, .registerWrite iface off v],
      ∃ t, exec c s = .next t ∧ t.reg off = s.reg off ∧ Logged s t 0x0607
    (∀ d, d < 16 → adds → inClass s d cl = true → dropped) ∧
    (adds → (s.cluster cl).retired = true → dropped) ∧
    (removes → s.regBit (rClcore cl) 21 = true → dropped)

/-- The base of BAR2 and the order of accesses (R325). -/
def Obligations.Bar2FollowsItsBase : Prop :=
  ∀ (s : State) (iface : Iface) (v : Word) (off : Fin 1073741824) (data : List Byte), hostUp s = true → s.md.opened = true → data ≠ [] →
    off.val % 128 + data.length ≤ 128 → v.toNat < 2 ^ 24 →
    let n := data.length
    let base := fun (b : Nat) => b * 2 ^ 30 + off.val
    let home := fun (a : Nat) => addrModule a = s.modId ∧ spaceOf s (addrLow a) n = .home ∧ placeDown s (addrLow a) = false ∧
      WritesAlone s (addrLow a) n ∧ addrLow a + n ≤ hbmEnd
    let stored := fun (t : State) (a : Nat) => MemHolds t (addrLow a) (reqBytes data) ∧ MemFrame s t [(addrLow a, n)]
    (∀ rest, s.pending = .registerWrite iface 0x0000E008 v :: .bar2Write off data false :: rest → home (base v.toNat) →
      ∃ u t, step s = .next u ∧ step u = .next t ∧ stored t (base v.toNat)) ∧
    (∀ rest, s.pending = .bar2Write off data false :: .registerWrite iface 0x0000E008 v :: rest →
      home (base (s.regField 0x0000E008 23 0)) → ∃ t, step s = .next t ∧ stored t (base (s.regField 0x0000E008 23 0)))
end

