-- ==== Sys2Proof/Laws/Tab.lean ====
section
/-! SUPPORT. Sparse tables and memory: what a read gives after a write, and that every operation keeps the canonical form. -/

namespace Sys2Proof.Machine

variable {V : Type}

/-- Keys strictly rising, as a relation on neighbours of the list. -/
def Rising (t : Tab V) : Prop := t.Pairwise (fun p q => p.1 < q.1)

/-- The canonical form said of all pairs at once. -/
theorem Tab.wf_iff [DecidableEq V] (d : V) (t : Tab V) : Tab.wf d t = true ↔ Rising t ∧ ∀ p ∈ t, p.2 ≠ d := by
  induction t with
  | nil => simp [Tab.wf, Rising]
  | cons a t ih =>
    cases t with
    | nil => simp [Tab.wf, Rising]
    | cons b u =>
      simp only [Tab.wf, Bool.and_eq_true, decide_eq_true_eq, ih, Rising, List.pairwise_cons, List.mem_cons]
      constructor
      · rintro ⟨⟨h1, h2⟩, ⟨h3, h4⟩, h5⟩
        refine ⟨⟨?_, h3, h4⟩, ?_⟩
        · rintro p (rfl | hp)
          · exact h2
          · exact lt_trans h2 (h3 p hp)
        · rintro p (rfl | rfl | hp)
          · exact h1
          · exact h5 _ (Or.inl rfl)
          · exact h5 _ (Or.inr hp)
      · rintro ⟨⟨h1, h2, h3⟩, h4⟩
        exact ⟨⟨h4 _ (Or.inl rfl), h1 _ (Or.inl rfl)⟩, ⟨h2, h3⟩, fun p hp => h4 p (Or.inr hp)⟩

theorem Rising.filter {t : Tab V} (h : Rising t) (f : Nat × V → Bool) : Rising (t.filter f) :=
  List.Pairwise.sublist List.filter_sublist h

theorem Rising.cons {a : Nat × V} {t : Tab V} (h : Rising t) (ha : ∀ p ∈ t, a.1 < p.1) : Rising (a :: t) :=
  List.pairwise_cons.2 ⟨ha, h⟩

theorem mem_tins {k : Nat} {v : V} {t : Tab V} {p : Nat × V} : p ∈ tins k v t ↔ p = (k, v) ∨ p ∈ t := by
  induction t with
  | nil => simp [tins]
  | cons a t ih =>
    obtain ⟨a, w⟩ := a
    simp only [tins]
    split
    · simp
    · simp only [List.mem_cons, ih]; tauto

theorem Rising.tins {t : Tab V} (h : Rising t) {k : Nat} (v : V) (hk : ∀ p ∈ t, p.1 ≠ k) :
    Rising (tins k v t) := by
  induction t with
  | nil => simp [Machine.tins, Rising]
  | cons a t ih =>
    obtain ⟨a, w⟩ := a
    have ht := List.pairwise_cons.1 h
    simp only [Machine.tins]
    split
    next hlt =>
      refine Rising.cons h ?_
      intro p hp
      rcases List.mem_cons.1 hp with rfl | hp
      · exact hlt
      · exact lt_trans hlt (ht.1 p hp)
    next hge =>
      refine Rising.cons (ih ht.2 (fun p hp => hk p (List.mem_cons_of_mem _ hp))) ?_
      intro p hp
      rcases mem_tins.1 hp with rfl | hp
      · have := hk (a, w) (List.mem_cons_self ..)
        simp only [ne_eq] at this ⊢
        omega
      · exact ht.1 p hp

theorem tset_wf [DecidableEq V] {d : V} {t : Tab V} (h : Tab.wf d t = true) (k : Nat) (v : V) :
    Tab.wf d (tset d t k v) = true := by
  rw [Tab.wf_iff] at h ⊢
  have hf : Rising (t.filter (fun p => decide (p.1 ≠ k))) := h.1.filter _
  have hd : ∀ p ∈ t.filter (fun p => decide (p.1 ≠ k)), p.2 ≠ d := fun p hp => h.2 p (List.mem_filter.1 hp).1
  unfold tset
  dsimp only
  split
  · exact ⟨hf, hd⟩
  next hv =>
    refine ⟨hf.tins v (fun p hp => by simpa using (List.mem_filter.1 hp).2), ?_⟩
    intro p hp
    rcases mem_tins.1 hp with rfl | hp
    · exact hv
    · exact hd p hp

theorem filter_wf [DecidableEq V] {d : V} {t : Tab V} (h : Tab.wf d t = true) (f : Nat × V → Bool) :
    Tab.wf d (t.filter f) = true := by
  rw [Tab.wf_iff] at h ⊢
  exact ⟨h.1.filter f, fun p hp => h.2 p (List.mem_filter.1 hp).1⟩

theorem tget_filter_ne (d : V) (t : Tab V) (k : Nat) : tget d (t.filter (fun p => decide (p.1 ≠ k))) k = d := by
  induction t with
  | nil => rfl
  | cons a t ih =>
    obtain ⟨a, w⟩ := a
    by_cases h : a = k
    · simp [h]; simpa using ih
    · simp only [List.filter_cons, ne_eq, h, not_false_eq_true, decide_true, if_true, tget, if_false]; exact ih

theorem tget_filter_other (d : V) (t : Tab V) {k j : Nat} (h : j ≠ k) :
    tget d (t.filter (fun p => decide (p.1 ≠ k))) j = tget d t j := by
  induction t with
  | nil => rfl
  | cons a t ih =>
    obtain ⟨a, w⟩ := a
    by_cases ha : a = k
    · subst ha
      simp only [List.filter_cons, ne_eq, not_true_eq_false, decide_false, Bool.false_eq_true, if_false, tget, Ne.symm h]; exact ih
    · simp only [List.filter_cons, ne_eq, ha, not_false_eq_true, decide_true, if_true, tget]; rw [ih]

theorem tget_tins_other (d : V) (t : Tab V) {k j : Nat} (v : V) (h : j ≠ k) : tget d (tins k v t) j = tget d t j := by
  induction t with
  | nil => simp [tins, tget, Ne.symm h]
  | cons a t ih =>
    obtain ⟨a, w⟩ := a
    simp only [tins]
    split
    · simp [tget, Ne.symm h]
    · simp only [tget, ih]

theorem tget_tins_same (d : V) (t : Tab V) (k : Nat) (v : V) (h : ∀ p ∈ t, p.1 ≠ k) : tget d (tins k v t) k = v := by
  induction t with
  | nil => simp [tins, tget]
  | cons a t ih =>
    obtain ⟨a, w⟩ := a
    have ha : a ≠ k := h (a, w) (List.mem_cons_self ..)
    simp only [tins]
    split
    · simp [tget]
    · simp only [tget, ha, if_false]; exact ih (fun p hp => h p (List.mem_cons_of_mem _ hp))

/-- A read after a write of the same key gives the value. -/
@[simp] theorem tget_tset_same [DecidableEq V] (d : V) (t : Tab V) (k : Nat) (v : V) : tget d (tset d t k v) k = v := by
  unfold tset
  dsimp only
  split
  next h => rw [h]; exact tget_filter_ne d t k
  · exact tget_tins_same d _ k v (fun p hp => by simpa using (List.mem_filter.1 hp).2)

/-- A write leaves every other key alone. -/
theorem tget_tset_other [DecidableEq V] (d : V) (t : Tab V) {k j : Nat} (v : V) (h : j ≠ k) :
    tget d (tset d t k v) j = tget d t j := by
  unfold tset
  dsimp only
  split
  · exact tget_filter_other d t h
  · rw [tget_tins_other d _ v h]; exact tget_filter_other d t h

/-- Where each key has a default of its own, a write still leaves the reads of other keys alone. -/
theorem tget_tset_other_default [DecidableEq V] {d e : V} (t : Tab V) {k j : Nat} (v : V) (h : j ≠ k) :
    tget e (tset d t k v) j = tget e t j := by
  unfold tset
  dsimp only
  split
  · exact tget_filter_other e t h
  · rw [tget_tins_other e _ v h]; exact tget_filter_other e t h

/-! ## Memory -/

theorem memSet_wf {m : List Host.Cell} (h : Memory.wf m = true) (a : Nat) (b : Byte) : Memory.wf (memSet m a b) = true :=
  tset_wf h a b

@[simp] theorem memGet_memSet_same (m : List Host.Cell) (a : Nat) (b : Byte) : memGet (memSet m a b) a = b :=
  tget_tset_same _ m a b

theorem memGet_memSet_other (m : List Host.Cell) {a c : Nat} (b : Byte) (h : c ≠ a) : memGet (memSet m a b) c = memGet m c :=
  tget_tset_other _ m b h

theorem writeBytes_wf {m : List Host.Cell} (h : Memory.wf m = true) (a : Nat) (bs : List Nat) :
    Memory.wf (writeBytes m a bs) = true := by
  induction bs generalizing m a with
  | nil => exact h
  | cons b bs ih => exact ih (memSet_wf h a _) (a + 1)

theorem clearBytes_wf {m : List Host.Cell} (h : Memory.wf m = true) (a n : Nat) : Memory.wf (clearBytes m a n) = true :=
  filter_wf h _

/-- A run of bytes leaves every address outside it alone. -/
theorem memGet_writeBytes_other (m : List Host.Cell) (a : Nat) (bs : List Nat) {c : Nat} (h : c < a ∨ a + bs.length ≤ c) :
    memGet (writeBytes m a bs) c = memGet m c := by
  induction bs generalizing m a with
  | nil => rfl
  | cons b bs ih =>
    simp only [List.length_cons] at h
    simp only [writeBytes]
    rw [ih _ _ (by omega), memGet_memSet_other _ _ (by omega)]

/-- The byte that a run puts at each of its addresses. -/
theorem memGet_writeBytes (m : List Host.Cell) (a : Nat) (bs : List Nat) {i : Nat} (h : i < bs.length) :
    memGet (writeBytes m a bs) (a + i) = BitVec.ofNat 8 bs[i] := by
  induction bs generalizing m a i with
  | nil => simp at h
  | cons b bs ih =>
    simp only [writeBytes]
    cases i with
    | zero =>
      rw [memGet_writeBytes_other _ _ _ (by omega)]; exact memGet_memSet_same ..
    | succ i =>
      have := ih (memSet m a (BitVec.ofNat 8 b)) (a + 1) (i := i) (by simpa using h)
      rw [show a + (i + 1) = a + 1 + i by omega, this]; rfl

end Sys2Proof.Machine
end

