-- ==== Sys2Proof/Laws/State.lean ====
section
/-! SUPPORT. What each named update of the state leaves alone: one lemma per field per update. -/

namespace Sys2Proof.Machine

variable (s : State)

/-! ## emit -/

@[simp] theorem emit_pending (o : Out) : (s.emit o).pending = s.pending := rfl
@[simp] theorem emit_clk (o : Out) : (s.emit o).clk = s.clk := rfl
@[simp] theorem emit_fresh (o : Out) : (s.emit o).fresh = s.fresh := rfl
@[simp] theorem emit_modId (o : Out) : (s.emit o).modId = s.modId := rfl
@[simp] theorem emit_regs (o : Out) : (s.emit o).regs = s.regs := rfl
@[simp] theorem emit_mem (o : Out) : (s.emit o).mem = s.mem := rfl
@[simp] theorem emit_poison (o : Out) : (s.emit o).poison = s.poison := rfl
@[simp] theorem emit_towersDown (o : Out) : (s.emit o).towersDown = s.towersDown := rfl
@[simp] theorem emit_cores (o : Out) : (s.emit o).cores = s.cores := rfl
@[simp] theorem emit_clusters (o : Out) : (s.emit o).clusters = s.clusters := rfl
@[simp] theorem emit_lmap (o : Out) : (s.emit o).lmap = s.lmap := rfl
@[simp] theorem emit_llc (o : Out) : (s.emit o).llc = s.llc := rfl
@[simp] theorem emit_ecc (o : Out) : (s.emit o).ecc = s.ecc := rfl
@[simp] theorem emit_vert (o : Out) : (s.emit o).vert = s.vert := rfl
@[simp] theorem emit_pwr (o : Out) : (s.emit o).pwr = s.pwr := rfl
@[simp] theorem emit_therm (o : Out) : (s.emit o).therm = s.therm := rfl
@[simp] theorem emit_adm (o : Out) : (s.emit o).adm = s.adm := rfl
@[simp] theorem emit_md (o : Out) : (s.emit o).md = s.md := rfl
@[simp] theorem emit_host (o : Out) : (s.emit o).host = s.host := rfl
@[simp] theorem emit_ras (o : Out) : (s.emit o).ras = s.ras := rfl
@[simp] theorem emit_msix (o : Out) : (s.emit o).msix = s.msix := rfl
@[simp] theorem emit_fw (o : Out) : (s.emit o).fw = s.fw := rfl
@[simp] theorem emit_cls (o : Out) : (s.emit o).cls = s.cls := rfl
@[simp] theorem emit_lup (o : Out) : (s.emit o).lup = s.lup := rfl
@[simp] theorem emit_pmc (o : Out) : (s.emit o).pmc = s.pmc := rfl
@[simp] theorem emit_programs (o : Out) : (s.emit o).programs = s.programs := rfl
@[simp] theorem emit_contexts (o : Out) : (s.emit o).contexts = s.contexts := rfl
@[simp] theorem emit_tasks (o : Out) : (s.emit o).tasks = s.tasks := rfl

/-! ## setReg -/

@[simp] theorem setReg_pending (a : Nat) (v : Word) : (s.setReg a v).pending = s.pending := rfl
@[simp] theorem setReg_clk (a : Nat) (v : Word) : (s.setReg a v).clk = s.clk := rfl
@[simp] theorem setReg_fresh (a : Nat) (v : Word) : (s.setReg a v).fresh = s.fresh := rfl
@[simp] theorem setReg_out (a : Nat) (v : Word) : (s.setReg a v).out = s.out := rfl
@[simp] theorem setReg_modId (a : Nat) (v : Word) : (s.setReg a v).modId = s.modId := rfl
@[simp] theorem setReg_mem (a : Nat) (v : Word) : (s.setReg a v).mem = s.mem := rfl
@[simp] theorem setReg_poison (a : Nat) (v : Word) : (s.setReg a v).poison = s.poison := rfl
@[simp] theorem setReg_towersDown (a : Nat) (v : Word) : (s.setReg a v).towersDown = s.towersDown := rfl
@[simp] theorem setReg_cores (a : Nat) (v : Word) : (s.setReg a v).cores = s.cores := rfl
@[simp] theorem setReg_clusters (a : Nat) (v : Word) : (s.setReg a v).clusters = s.clusters := rfl
@[simp] theorem setReg_lmap (a : Nat) (v : Word) : (s.setReg a v).lmap = s.lmap := rfl
@[simp] theorem setReg_llc (a : Nat) (v : Word) : (s.setReg a v).llc = s.llc := rfl
@[simp] theorem setReg_ecc (a : Nat) (v : Word) : (s.setReg a v).ecc = s.ecc := rfl
@[simp] theorem setReg_vert (a : Nat) (v : Word) : (s.setReg a v).vert = s.vert := rfl
@[simp] theorem setReg_pwr (a : Nat) (v : Word) : (s.setReg a v).pwr = s.pwr := rfl
@[simp] theorem setReg_therm (a : Nat) (v : Word) : (s.setReg a v).therm = s.therm := rfl
@[simp] theorem setReg_adm (a : Nat) (v : Word) : (s.setReg a v).adm = s.adm := rfl
@[simp] theorem setReg_md (a : Nat) (v : Word) : (s.setReg a v).md = s.md := rfl
@[simp] theorem setReg_host (a : Nat) (v : Word) : (s.setReg a v).host = s.host := rfl
@[simp] theorem setReg_ras (a : Nat) (v : Word) : (s.setReg a v).ras = s.ras := rfl
@[simp] theorem setReg_msix (a : Nat) (v : Word) : (s.setReg a v).msix = s.msix := rfl
@[simp] theorem setReg_fw (a : Nat) (v : Word) : (s.setReg a v).fw = s.fw := rfl
@[simp] theorem setReg_cls (a : Nat) (v : Word) : (s.setReg a v).cls = s.cls := rfl
@[simp] theorem setReg_lup (a : Nat) (v : Word) : (s.setReg a v).lup = s.lup := rfl
@[simp] theorem setReg_pmc (a : Nat) (v : Word) : (s.setReg a v).pmc = s.pmc := rfl
@[simp] theorem setReg_programs (a : Nat) (v : Word) : (s.setReg a v).programs = s.programs := rfl
@[simp] theorem setReg_contexts (a : Nat) (v : Word) : (s.setReg a v).contexts = s.contexts := rfl
@[simp] theorem setReg_tasks (a : Nat) (v : Word) : (s.setReg a v).tasks = s.tasks := rfl

/-! ## setField -/

@[simp] theorem setField_pending (a hi lo v : Nat) : (s.setField a hi lo v).pending = s.pending := rfl
@[simp] theorem setField_clk (a hi lo v : Nat) : (s.setField a hi lo v).clk = s.clk := rfl
@[simp] theorem setField_fresh (a hi lo v : Nat) : (s.setField a hi lo v).fresh = s.fresh := rfl
@[simp] theorem setField_out (a hi lo v : Nat) : (s.setField a hi lo v).out = s.out := rfl
@[simp] theorem setField_modId (a hi lo v : Nat) : (s.setField a hi lo v).modId = s.modId := rfl
@[simp] theorem setField_mem (a hi lo v : Nat) : (s.setField a hi lo v).mem = s.mem := rfl
@[simp] theorem setField_poison (a hi lo v : Nat) : (s.setField a hi lo v).poison = s.poison := rfl
@[simp] theorem setField_towersDown (a hi lo v : Nat) : (s.setField a hi lo v).towersDown = s.towersDown := rfl
@[simp] theorem setField_cores (a hi lo v : Nat) : (s.setField a hi lo v).cores = s.cores := rfl
@[simp] theorem setField_clusters (a hi lo v : Nat) : (s.setField a hi lo v).clusters = s.clusters := rfl
@[simp] theorem setField_lmap (a hi lo v : Nat) : (s.setField a hi lo v).lmap = s.lmap := rfl
@[simp] theorem setField_llc (a hi lo v : Nat) : (s.setField a hi lo v).llc = s.llc := rfl
@[simp] theorem setField_ecc (a hi lo v : Nat) : (s.setField a hi lo v).ecc = s.ecc := rfl
@[simp] theorem setField_vert (a hi lo v : Nat) : (s.setField a hi lo v).vert = s.vert := rfl
@[simp] theorem setField_pwr (a hi lo v : Nat) : (s.setField a hi lo v).pwr = s.pwr := rfl
@[simp] theorem setField_therm (a hi lo v : Nat) : (s.setField a hi lo v).therm = s.therm := rfl
@[simp] theorem setField_adm (a hi lo v : Nat) : (s.setField a hi lo v).adm = s.adm := rfl
@[simp] theorem setField_md (a hi lo v : Nat) : (s.setField a hi lo v).md = s.md := rfl
@[simp] theorem setField_host (a hi lo v : Nat) : (s.setField a hi lo v).host = s.host := rfl
@[simp] theorem setField_ras (a hi lo v : Nat) : (s.setField a hi lo v).ras = s.ras := rfl
@[simp] theorem setField_msix (a hi lo v : Nat) : (s.setField a hi lo v).msix = s.msix := rfl
@[simp] theorem setField_fw (a hi lo v : Nat) : (s.setField a hi lo v).fw = s.fw := rfl
@[simp] theorem setField_cls (a hi lo v : Nat) : (s.setField a hi lo v).cls = s.cls := rfl
@[simp] theorem setField_lup (a hi lo v : Nat) : (s.setField a hi lo v).lup = s.lup := rfl
@[simp] theorem setField_pmc (a hi lo v : Nat) : (s.setField a hi lo v).pmc = s.pmc := rfl
@[simp] theorem setField_programs (a hi lo v : Nat) : (s.setField a hi lo v).programs = s.programs := rfl
@[simp] theorem setField_contexts (a hi lo v : Nat) : (s.setField a hi lo v).contexts = s.contexts := rfl
@[simp] theorem setField_tasks (a hi lo v : Nat) : (s.setField a hi lo v).tasks = s.tasks := rfl

/-! ## setCount -/

@[simp] theorem setCount_pending (p v : Nat) : (s.setCount p v).pending = s.pending := rfl
@[simp] theorem setCount_clk (p v : Nat) : (s.setCount p v).clk = s.clk := rfl
@[simp] theorem setCount_fresh (p v : Nat) : (s.setCount p v).fresh = s.fresh := rfl
@[simp] theorem setCount_out (p v : Nat) : (s.setCount p v).out = s.out := rfl
@[simp] theorem setCount_modId (p v : Nat) : (s.setCount p v).modId = s.modId := rfl
@[simp] theorem setCount_regs (p v : Nat) : (s.setCount p v).regs = s.regs := rfl
@[simp] theorem setCount_mem (p v : Nat) : (s.setCount p v).mem = s.mem := rfl
@[simp] theorem setCount_poison (p v : Nat) : (s.setCount p v).poison = s.poison := rfl
@[simp] theorem setCount_towersDown (p v : Nat) : (s.setCount p v).towersDown = s.towersDown := rfl
@[simp] theorem setCount_cores (p v : Nat) : (s.setCount p v).cores = s.cores := rfl
@[simp] theorem setCount_clusters (p v : Nat) : (s.setCount p v).clusters = s.clusters := rfl
@[simp] theorem setCount_lmap (p v : Nat) : (s.setCount p v).lmap = s.lmap := rfl
@[simp] theorem setCount_llc (p v : Nat) : (s.setCount p v).llc = s.llc := rfl
@[simp] theorem setCount_ecc (p v : Nat) : (s.setCount p v).ecc = s.ecc := rfl
@[simp] theorem setCount_vert (p v : Nat) : (s.setCount p v).vert = s.vert := rfl
@[simp] theorem setCount_pwr (p v : Nat) : (s.setCount p v).pwr = s.pwr := rfl
@[simp] theorem setCount_therm (p v : Nat) : (s.setCount p v).therm = s.therm := rfl
@[simp] theorem setCount_adm (p v : Nat) : (s.setCount p v).adm = s.adm := rfl
@[simp] theorem setCount_md (p v : Nat) : (s.setCount p v).md = s.md := rfl
@[simp] theorem setCount_host (p v : Nat) : (s.setCount p v).host = s.host := rfl
@[simp] theorem setCount_ras (p v : Nat) : (s.setCount p v).ras = s.ras := rfl
@[simp] theorem setCount_msix (p v : Nat) : (s.setCount p v).msix = s.msix := rfl
@[simp] theorem setCount_fw (p v : Nat) : (s.setCount p v).fw = s.fw := rfl
@[simp] theorem setCount_cls (p v : Nat) : (s.setCount p v).cls = s.cls := rfl
@[simp] theorem setCount_lup (p v : Nat) : (s.setCount p v).lup = s.lup := rfl
@[simp] theorem setCount_programs (p v : Nat) : (s.setCount p v).programs = s.programs := rfl
@[simp] theorem setCount_contexts (p v : Nat) : (s.setCount p v).contexts = s.contexts := rfl
@[simp] theorem setCount_tasks (p v : Nat) : (s.setCount p v).tasks = s.tasks := rfl

/-! ## bump -/

@[simp] theorem bump_pending (p n : Nat) : (bump s p n).pending = s.pending := by unfold bump; split <;> rfl
@[simp] theorem bump_clk (p n : Nat) : (bump s p n).clk = s.clk := by unfold bump; split <;> rfl
@[simp] theorem bump_fresh (p n : Nat) : (bump s p n).fresh = s.fresh := by unfold bump; split <;> rfl
@[simp] theorem bump_out (p n : Nat) : (bump s p n).out = s.out := by unfold bump; split <;> rfl
@[simp] theorem bump_modId (p n : Nat) : (bump s p n).modId = s.modId := by unfold bump; split <;> rfl
@[simp] theorem bump_regs (p n : Nat) : (bump s p n).regs = s.regs := by unfold bump; split <;> rfl
@[simp] theorem bump_mem (p n : Nat) : (bump s p n).mem = s.mem := by unfold bump; split <;> rfl
@[simp] theorem bump_poison (p n : Nat) : (bump s p n).poison = s.poison := by unfold bump; split <;> rfl
@[simp] theorem bump_towersDown (p n : Nat) : (bump s p n).towersDown = s.towersDown := by unfold bump; split <;> rfl
@[simp] theorem bump_cores (p n : Nat) : (bump s p n).cores = s.cores := by unfold bump; split <;> rfl
@[simp] theorem bump_clusters (p n : Nat) : (bump s p n).clusters = s.clusters := by unfold bump; split <;> rfl
@[simp] theorem bump_lmap (p n : Nat) : (bump s p n).lmap = s.lmap := by unfold bump; split <;> rfl
@[simp] theorem bump_llc (p n : Nat) : (bump s p n).llc = s.llc := by unfold bump; split <;> rfl
@[simp] theorem bump_ecc (p n : Nat) : (bump s p n).ecc = s.ecc := by unfold bump; split <;> rfl
@[simp] theorem bump_vert (p n : Nat) : (bump s p n).vert = s.vert := by unfold bump; split <;> rfl
@[simp] theorem bump_pwr (p n : Nat) : (bump s p n).pwr = s.pwr := by unfold bump; split <;> rfl
@[simp] theorem bump_therm (p n : Nat) : (bump s p n).therm = s.therm := by unfold bump; split <;> rfl
@[simp] theorem bump_adm (p n : Nat) : (bump s p n).adm = s.adm := by unfold bump; split <;> rfl
@[simp] theorem bump_md (p n : Nat) : (bump s p n).md = s.md := by unfold bump; split <;> rfl
@[simp] theorem bump_host (p n : Nat) : (bump s p n).host = s.host := by unfold bump; split <;> rfl
@[simp] theorem bump_ras (p n : Nat) : (bump s p n).ras = s.ras := by unfold bump; split <;> rfl
@[simp] theorem bump_msix (p n : Nat) : (bump s p n).msix = s.msix := by unfold bump; split <;> rfl
@[simp] theorem bump_fw (p n : Nat) : (bump s p n).fw = s.fw := by unfold bump; split <;> rfl
@[simp] theorem bump_cls (p n : Nat) : (bump s p n).cls = s.cls := by unfold bump; split <;> rfl
@[simp] theorem bump_lup (p n : Nat) : (bump s p n).lup = s.lup := by unfold bump; split <;> rfl
@[simp] theorem bump_programs (p n : Nat) : (bump s p n).programs = s.programs := by unfold bump; split <;> rfl
@[simp] theorem bump_contexts (p n : Nat) : (bump s p n).contexts = s.contexts := by unfold bump; split <;> rfl
@[simp] theorem bump_tasks (p n : Nat) : (bump s p n).tasks = s.tasks := by unfold bump; split <;> rfl

/-! ## setCore -/

@[simp] theorem setCore_pending (c : Nat) (k : Core) : (s.setCore c k).pending = s.pending := rfl
@[simp] theorem setCore_clk (c : Nat) (k : Core) : (s.setCore c k).clk = s.clk := rfl
@[simp] theorem setCore_fresh (c : Nat) (k : Core) : (s.setCore c k).fresh = s.fresh := rfl
@[simp] theorem setCore_out (c : Nat) (k : Core) : (s.setCore c k).out = s.out := rfl
@[simp] theorem setCore_modId (c : Nat) (k : Core) : (s.setCore c k).modId = s.modId := rfl
@[simp] theorem setCore_regs (c : Nat) (k : Core) : (s.setCore c k).regs = s.regs := rfl
@[simp] theorem setCore_mem (c : Nat) (k : Core) : (s.setCore c k).mem = s.mem := rfl
@[simp] theorem setCore_poison (c : Nat) (k : Core) : (s.setCore c k).poison = s.poison := rfl
@[simp] theorem setCore_towersDown (c : Nat) (k : Core) : (s.setCore c k).towersDown = s.towersDown := rfl
@[simp] theorem setCore_clusters (c : Nat) (k : Core) : (s.setCore c k).clusters = s.clusters := rfl
@[simp] theorem setCore_lmap (c : Nat) (k : Core) : (s.setCore c k).lmap = s.lmap := rfl
@[simp] theorem setCore_llc (c : Nat) (k : Core) : (s.setCore c k).llc = s.llc := rfl
@[simp] theorem setCore_ecc (c : Nat) (k : Core) : (s.setCore c k).ecc = s.ecc := rfl
@[simp] theorem setCore_vert (c : Nat) (k : Core) : (s.setCore c k).vert = s.vert := rfl
@[simp] theorem setCore_pwr (c : Nat) (k : Core) : (s.setCore c k).pwr = s.pwr := rfl
@[simp] theorem setCore_therm (c : Nat) (k : Core) : (s.setCore c k).therm = s.therm := rfl
@[simp] theorem setCore_adm (c : Nat) (k : Core) : (s.setCore c k).adm = s.adm := rfl
@[simp] theorem setCore_md (c : Nat) (k : Core) : (s.setCore c k).md = s.md := rfl
@[simp] theorem setCore_host (c : Nat) (k : Core) : (s.setCore c k).host = s.host := rfl
@[simp] theorem setCore_ras (c : Nat) (k : Core) : (s.setCore c k).ras = s.ras := rfl
@[simp] theorem setCore_msix (c : Nat) (k : Core) : (s.setCore c k).msix = s.msix := rfl
@[simp] theorem setCore_fw (c : Nat) (k : Core) : (s.setCore c k).fw = s.fw := rfl
@[simp] theorem setCore_cls (c : Nat) (k : Core) : (s.setCore c k).cls = s.cls := rfl
@[simp] theorem setCore_lup (c : Nat) (k : Core) : (s.setCore c k).lup = s.lup := rfl
@[simp] theorem setCore_pmc (c : Nat) (k : Core) : (s.setCore c k).pmc = s.pmc := rfl
@[simp] theorem setCore_programs (c : Nat) (k : Core) : (s.setCore c k).programs = s.programs := rfl
@[simp] theorem setCore_contexts (c : Nat) (k : Core) : (s.setCore c k).contexts = s.contexts := rfl
@[simp] theorem setCore_tasks (c : Nat) (k : Core) : (s.setCore c k).tasks = s.tasks := rfl

/-! ## modCore -/

@[simp] theorem modCore_pending (c : Nat) (f : Core → Core) : (s.modCore c f).pending = s.pending := rfl
@[simp] theorem modCore_clk (c : Nat) (f : Core → Core) : (s.modCore c f).clk = s.clk := rfl
@[simp] theorem modCore_fresh (c : Nat) (f : Core → Core) : (s.modCore c f).fresh = s.fresh := rfl
@[simp] theorem modCore_out (c : Nat) (f : Core → Core) : (s.modCore c f).out = s.out := rfl
@[simp] theorem modCore_modId (c : Nat) (f : Core → Core) : (s.modCore c f).modId = s.modId := rfl
@[simp] theorem modCore_regs (c : Nat) (f : Core → Core) : (s.modCore c f).regs = s.regs := rfl
@[simp] theorem modCore_mem (c : Nat) (f : Core → Core) : (s.modCore c f).mem = s.mem := rfl
@[simp] theorem modCore_poison (c : Nat) (f : Core → Core) : (s.modCore c f).poison = s.poison := rfl
@[simp] theorem modCore_towersDown (c : Nat) (f : Core → Core) : (s.modCore c f).towersDown = s.towersDown := rfl
@[simp] theorem modCore_clusters (c : Nat) (f : Core → Core) : (s.modCore c f).clusters = s.clusters := rfl
@[simp] theorem modCore_lmap (c : Nat) (f : Core → Core) : (s.modCore c f).lmap = s.lmap := rfl
@[simp] theorem modCore_llc (c : Nat) (f : Core → Core) : (s.modCore c f).llc = s.llc := rfl
@[simp] theorem modCore_ecc (c : Nat) (f : Core → Core) : (s.modCore c f).ecc = s.ecc := rfl
@[simp] theorem modCore_vert (c : Nat) (f : Core → Core) : (s.modCore c f).vert = s.vert := rfl
@[simp] theorem modCore_pwr (c : Nat) (f : Core → Core) : (s.modCore c f).pwr = s.pwr := rfl
@[simp] theorem modCore_therm (c : Nat) (f : Core → Core) : (s.modCore c f).therm = s.therm := rfl
@[simp] theorem modCore_adm (c : Nat) (f : Core → Core) : (s.modCore c f).adm = s.adm := rfl
@[simp] theorem modCore_md (c : Nat) (f : Core → Core) : (s.modCore c f).md = s.md := rfl
@[simp] theorem modCore_host (c : Nat) (f : Core → Core) : (s.modCore c f).host = s.host := rfl
@[simp] theorem modCore_ras (c : Nat) (f : Core → Core) : (s.modCore c f).ras = s.ras := rfl
@[simp] theorem modCore_msix (c : Nat) (f : Core → Core) : (s.modCore c f).msix = s.msix := rfl
@[simp] theorem modCore_fw (c : Nat) (f : Core → Core) : (s.modCore c f).fw = s.fw := rfl
@[simp] theorem modCore_cls (c : Nat) (f : Core → Core) : (s.modCore c f).cls = s.cls := rfl
@[simp] theorem modCore_lup (c : Nat) (f : Core → Core) : (s.modCore c f).lup = s.lup := rfl
@[simp] theorem modCore_pmc (c : Nat) (f : Core → Core) : (s.modCore c f).pmc = s.pmc := rfl
@[simp] theorem modCore_programs (c : Nat) (f : Core → Core) : (s.modCore c f).programs = s.programs := rfl
@[simp] theorem modCore_contexts (c : Nat) (f : Core → Core) : (s.modCore c f).contexts = s.contexts := rfl
@[simp] theorem modCore_tasks (c : Nat) (f : Core → Core) : (s.modCore c f).tasks = s.tasks := rfl

/-! ## modGrp -/

@[simp] theorem modGrp_pending (c g : Nat) (f : Group → Group) : (s.modGrp c g f).pending = s.pending := rfl
@[simp] theorem modGrp_clk (c g : Nat) (f : Group → Group) : (s.modGrp c g f).clk = s.clk := rfl
@[simp] theorem modGrp_fresh (c g : Nat) (f : Group → Group) : (s.modGrp c g f).fresh = s.fresh := rfl
@[simp] theorem modGrp_out (c g : Nat) (f : Group → Group) : (s.modGrp c g f).out = s.out := rfl
@[simp] theorem modGrp_modId (c g : Nat) (f : Group → Group) : (s.modGrp c g f).modId = s.modId := rfl
@[simp] theorem modGrp_regs (c g : Nat) (f : Group → Group) : (s.modGrp c g f).regs = s.regs := rfl
@[simp] theorem modGrp_mem (c g : Nat) (f : Group → Group) : (s.modGrp c g f).mem = s.mem := rfl
@[simp] theorem modGrp_poison (c g : Nat) (f : Group → Group) : (s.modGrp c g f).poison = s.poison := rfl
@[simp] theorem modGrp_towersDown (c g : Nat) (f : Group → Group) : (s.modGrp c g f).towersDown = s.towersDown := rfl
@[simp] theorem modGrp_clusters (c g : Nat) (f : Group → Group) : (s.modGrp c g f).clusters = s.clusters := rfl
@[simp] theorem modGrp_lmap (c g : Nat) (f : Group → Group) : (s.modGrp c g f).lmap = s.lmap := rfl
@[simp] theorem modGrp_llc (c g : Nat) (f : Group → Group) : (s.modGrp c g f).llc = s.llc := rfl
@[simp] theorem modGrp_ecc (c g : Nat) (f : Group → Group) : (s.modGrp c g f).ecc = s.ecc := rfl
@[simp] theorem modGrp_vert (c g : Nat) (f : Group → Group) : (s.modGrp c g f).vert = s.vert := rfl
@[simp] theorem modGrp_pwr (c g : Nat) (f : Group → Group) : (s.modGrp c g f).pwr = s.pwr := rfl
@[simp] theorem modGrp_therm (c g : Nat) (f : Group → Group) : (s.modGrp c g f).therm = s.therm := rfl
@[simp] theorem modGrp_adm (c g : Nat) (f : Group → Group) : (s.modGrp c g f).adm = s.adm := rfl
@[simp] theorem modGrp_md (c g : Nat) (f : Group → Group) : (s.modGrp c g f).md = s.md := rfl
@[simp] theorem modGrp_host (c g : Nat) (f : Group → Group) : (s.modGrp c g f).host = s.host := rfl
@[simp] theorem modGrp_ras (c g : Nat) (f : Group → Group) : (s.modGrp c g f).ras = s.ras := rfl
@[simp] theorem modGrp_msix (c g : Nat) (f : Group → Group) : (s.modGrp c g f).msix = s.msix := rfl
@[simp] theorem modGrp_fw (c g : Nat) (f : Group → Group) : (s.modGrp c g f).fw = s.fw := rfl
@[simp] theorem modGrp_cls (c g : Nat) (f : Group → Group) : (s.modGrp c g f).cls = s.cls := rfl
@[simp] theorem modGrp_lup (c g : Nat) (f : Group → Group) : (s.modGrp c g f).lup = s.lup := rfl
@[simp] theorem modGrp_pmc (c g : Nat) (f : Group → Group) : (s.modGrp c g f).pmc = s.pmc := rfl
@[simp] theorem modGrp_programs (c g : Nat) (f : Group → Group) : (s.modGrp c g f).programs = s.programs := rfl
@[simp] theorem modGrp_contexts (c g : Nat) (f : Group → Group) : (s.modGrp c g f).contexts = s.contexts := rfl
@[simp] theorem modGrp_tasks (c g : Nat) (f : Group → Group) : (s.modGrp c g f).tasks = s.tasks := rfl

/-! ## modThread -/

@[simp] theorem modThread_pending (c g t : Nat) (f : Thread → Thread) : (s.modThread c g t f).pending = s.pending := rfl
@[simp] theorem modThread_clk (c g t : Nat) (f : Thread → Thread) : (s.modThread c g t f).clk = s.clk := rfl
@[simp] theorem modThread_fresh (c g t : Nat) (f : Thread → Thread) : (s.modThread c g t f).fresh = s.fresh := rfl
@[simp] theorem modThread_out (c g t : Nat) (f : Thread → Thread) : (s.modThread c g t f).out = s.out := rfl
@[simp] theorem modThread_modId (c g t : Nat) (f : Thread → Thread) : (s.modThread c g t f).modId = s.modId := rfl
@[simp] theorem modThread_regs (c g t : Nat) (f : Thread → Thread) : (s.modThread c g t f).regs = s.regs := rfl
@[simp] theorem modThread_mem (c g t : Nat) (f : Thread → Thread) : (s.modThread c g t f).mem = s.mem := rfl
@[simp] theorem modThread_poison (c g t : Nat) (f : Thread → Thread) : (s.modThread c g t f).poison = s.poison := rfl
@[simp] theorem modThread_towersDown (c g t : Nat) (f : Thread → Thread) : (s.modThread c g t f).towersDown = s.towersDown := rfl
@[simp] theorem modThread_clusters (c g t : Nat) (f : Thread → Thread) : (s.modThread c g t f).clusters = s.clusters := rfl
@[simp] theorem modThread_lmap (c g t : Nat) (f : Thread → Thread) : (s.modThread c g t f).lmap = s.lmap := rfl
@[simp] theorem modThread_llc (c g t : Nat) (f : Thread → Thread) : (s.modThread c g t f).llc = s.llc := rfl
@[simp] theorem modThread_ecc (c g t : Nat) (f : Thread → Thread) : (s.modThread c g t f).ecc = s.ecc := rfl
@[simp] theorem modThread_vert (c g t : Nat) (f : Thread → Thread) : (s.modThread c g t f).vert = s.vert := rfl
@[simp] theorem modThread_pwr (c g t : Nat) (f : Thread → Thread) : (s.modThread c g t f).pwr = s.pwr := rfl
@[simp] theorem modThread_therm (c g t : Nat) (f : Thread → Thread) : (s.modThread c g t f).therm = s.therm := rfl
@[simp] theorem modThread_adm (c g t : Nat) (f : Thread → Thread) : (s.modThread c g t f).adm = s.adm := rfl
@[simp] theorem modThread_md (c g t : Nat) (f : Thread → Thread) : (s.modThread c g t f).md = s.md := rfl
@[simp] theorem modThread_host (c g t : Nat) (f : Thread → Thread) : (s.modThread c g t f).host = s.host := rfl
@[simp] theorem modThread_ras (c g t : Nat) (f : Thread → Thread) : (s.modThread c g t f).ras = s.ras := rfl
@[simp] theorem modThread_msix (c g t : Nat) (f : Thread → Thread) : (s.modThread c g t f).msix = s.msix := rfl
@[simp] theorem modThread_fw (c g t : Nat) (f : Thread → Thread) : (s.modThread c g t f).fw = s.fw := rfl
@[simp] theorem modThread_cls (c g t : Nat) (f : Thread → Thread) : (s.modThread c g t f).cls = s.cls := rfl
@[simp] theorem modThread_lup (c g t : Nat) (f : Thread → Thread) : (s.modThread c g t f).lup = s.lup := rfl
@[simp] theorem modThread_pmc (c g t : Nat) (f : Thread → Thread) : (s.modThread c g t f).pmc = s.pmc := rfl
@[simp] theorem modThread_programs (c g t : Nat) (f : Thread → Thread) : (s.modThread c g t f).programs = s.programs := rfl
@[simp] theorem modThread_contexts (c g t : Nat) (f : Thread → Thread) : (s.modThread c g t f).contexts = s.contexts := rfl
@[simp] theorem modThread_tasks (c g t : Nat) (f : Thread → Thread) : (s.modThread c g t f).tasks = s.tasks := rfl

/-! ## setTask -/

@[simp] theorem setTask_pending (i : Nat) (t : Option Task) : (s.setTask i t).pending = s.pending := rfl
@[simp] theorem setTask_clk (i : Nat) (t : Option Task) : (s.setTask i t).clk = s.clk := rfl
@[simp] theorem setTask_fresh (i : Nat) (t : Option Task) : (s.setTask i t).fresh = s.fresh := rfl
@[simp] theorem setTask_out (i : Nat) (t : Option Task) : (s.setTask i t).out = s.out := rfl
@[simp] theorem setTask_modId (i : Nat) (t : Option Task) : (s.setTask i t).modId = s.modId := rfl
@[simp] theorem setTask_regs (i : Nat) (t : Option Task) : (s.setTask i t).regs = s.regs := rfl
@[simp] theorem setTask_mem (i : Nat) (t : Option Task) : (s.setTask i t).mem = s.mem := rfl
@[simp] theorem setTask_poison (i : Nat) (t : Option Task) : (s.setTask i t).poison = s.poison := rfl
@[simp] theorem setTask_towersDown (i : Nat) (t : Option Task) : (s.setTask i t).towersDown = s.towersDown := rfl
@[simp] theorem setTask_cores (i : Nat) (t : Option Task) : (s.setTask i t).cores = s.cores := rfl
@[simp] theorem setTask_clusters (i : Nat) (t : Option Task) : (s.setTask i t).clusters = s.clusters := rfl
@[simp] theorem setTask_lmap (i : Nat) (t : Option Task) : (s.setTask i t).lmap = s.lmap := rfl
@[simp] theorem setTask_llc (i : Nat) (t : Option Task) : (s.setTask i t).llc = s.llc := rfl
@[simp] theorem setTask_ecc (i : Nat) (t : Option Task) : (s.setTask i t).ecc = s.ecc := rfl
@[simp] theorem setTask_vert (i : Nat) (t : Option Task) : (s.setTask i t).vert = s.vert := rfl
@[simp] theorem setTask_pwr (i : Nat) (t : Option Task) : (s.setTask i t).pwr = s.pwr := rfl
@[simp] theorem setTask_therm (i : Nat) (t : Option Task) : (s.setTask i t).therm = s.therm := rfl
@[simp] theorem setTask_adm (i : Nat) (t : Option Task) : (s.setTask i t).adm = s.adm := rfl
@[simp] theorem setTask_md (i : Nat) (t : Option Task) : (s.setTask i t).md = s.md := rfl
@[simp] theorem setTask_host (i : Nat) (t : Option Task) : (s.setTask i t).host = s.host := rfl
@[simp] theorem setTask_ras (i : Nat) (t : Option Task) : (s.setTask i t).ras = s.ras := rfl
@[simp] theorem setTask_msix (i : Nat) (t : Option Task) : (s.setTask i t).msix = s.msix := rfl
@[simp] theorem setTask_fw (i : Nat) (t : Option Task) : (s.setTask i t).fw = s.fw := rfl
@[simp] theorem setTask_cls (i : Nat) (t : Option Task) : (s.setTask i t).cls = s.cls := rfl
@[simp] theorem setTask_lup (i : Nat) (t : Option Task) : (s.setTask i t).lup = s.lup := rfl
@[simp] theorem setTask_pmc (i : Nat) (t : Option Task) : (s.setTask i t).pmc = s.pmc := rfl
@[simp] theorem setTask_programs (i : Nat) (t : Option Task) : (s.setTask i t).programs = s.programs := rfl
@[simp] theorem setTask_contexts (i : Nat) (t : Option Task) : (s.setTask i t).contexts = s.contexts := rfl

/-! ## modTask -/

@[simp] theorem modTask_pending (i : Nat) (f : Task → Task) : (s.modTask i f).pending = s.pending := by unfold State.modTask; split <;> rfl
@[simp] theorem modTask_clk (i : Nat) (f : Task → Task) : (s.modTask i f).clk = s.clk := by unfold State.modTask; split <;> rfl
@[simp] theorem modTask_fresh (i : Nat) (f : Task → Task) : (s.modTask i f).fresh = s.fresh := by unfold State.modTask; split <;> rfl
@[simp] theorem modTask_out (i : Nat) (f : Task → Task) : (s.modTask i f).out = s.out := by unfold State.modTask; split <;> rfl
@[simp] theorem modTask_modId (i : Nat) (f : Task → Task) : (s.modTask i f).modId = s.modId := by unfold State.modTask; split <;> rfl
@[simp] theorem modTask_regs (i : Nat) (f : Task → Task) : (s.modTask i f).regs = s.regs := by unfold State.modTask; split <;> rfl
@[simp] theorem modTask_mem (i : Nat) (f : Task → Task) : (s.modTask i f).mem = s.mem := by unfold State.modTask; split <;> rfl
@[simp] theorem modTask_poison (i : Nat) (f : Task → Task) : (s.modTask i f).poison = s.poison := by unfold State.modTask; split <;> rfl
@[simp] theorem modTask_towersDown (i : Nat) (f : Task → Task) : (s.modTask i f).towersDown = s.towersDown := by unfold State.modTask; split <;> rfl
@[simp] theorem modTask_cores (i : Nat) (f : Task → Task) : (s.modTask i f).cores = s.cores := by unfold State.modTask; split <;> rfl
@[simp] theorem modTask_clusters (i : Nat) (f : Task → Task) : (s.modTask i f).clusters = s.clusters := by unfold State.modTask; split <;> rfl
@[simp] theorem modTask_lmap (i : Nat) (f : Task → Task) : (s.modTask i f).lmap = s.lmap := by unfold State.modTask; split <;> rfl
@[simp] theorem modTask_llc (i : Nat) (f : Task → Task) : (s.modTask i f).llc = s.llc := by unfold State.modTask; split <;> rfl
@[simp] theorem modTask_ecc (i : Nat) (f : Task → Task) : (s.modTask i f).ecc = s.ecc := by unfold State.modTask; split <;> rfl
@[simp] theorem modTask_vert (i : Nat) (f : Task → Task) : (s.modTask i f).vert = s.vert := by unfold State.modTask; split <;> rfl
@[simp] theorem modTask_pwr (i : Nat) (f : Task → Task) : (s.modTask i f).pwr = s.pwr := by unfold State.modTask; split <;> rfl
@[simp] theorem modTask_therm (i : Nat) (f : Task → Task) : (s.modTask i f).therm = s.therm := by unfold State.modTask; split <;> rfl
@[simp] theorem modTask_adm (i : Nat) (f : Task → Task) : (s.modTask i f).adm = s.adm := by unfold State.modTask; split <;> rfl
@[simp] theorem modTask_md (i : Nat) (f : Task → Task) : (s.modTask i f).md = s.md := by unfold State.modTask; split <;> rfl
@[simp] theorem modTask_host (i : Nat) (f : Task → Task) : (s.modTask i f).host = s.host := by unfold State.modTask; split <;> rfl
@[simp] theorem modTask_ras (i : Nat) (f : Task → Task) : (s.modTask i f).ras = s.ras := by unfold State.modTask; split <;> rfl
@[simp] theorem modTask_msix (i : Nat) (f : Task → Task) : (s.modTask i f).msix = s.msix := by unfold State.modTask; split <;> rfl
@[simp] theorem modTask_fw (i : Nat) (f : Task → Task) : (s.modTask i f).fw = s.fw := by unfold State.modTask; split <;> rfl
@[simp] theorem modTask_cls (i : Nat) (f : Task → Task) : (s.modTask i f).cls = s.cls := by unfold State.modTask; split <;> rfl
@[simp] theorem modTask_lup (i : Nat) (f : Task → Task) : (s.modTask i f).lup = s.lup := by unfold State.modTask; split <;> rfl
@[simp] theorem modTask_pmc (i : Nat) (f : Task → Task) : (s.modTask i f).pmc = s.pmc := by unfold State.modTask; split <;> rfl
@[simp] theorem modTask_programs (i : Nat) (f : Task → Task) : (s.modTask i f).programs = s.programs := by unfold State.modTask; split <;> rfl
@[simp] theorem modTask_contexts (i : Nat) (f : Task → Task) : (s.modTask i f).contexts = s.contexts := by unfold State.modTask; split <;> rfl

/-! ## setBytes -/

@[simp] theorem setBytes_pending (a : Nat) (b : List Nat) : (s.setBytes a b).pending = s.pending := rfl
@[simp] theorem setBytes_clk (a : Nat) (b : List Nat) : (s.setBytes a b).clk = s.clk := rfl
@[simp] theorem setBytes_fresh (a : Nat) (b : List Nat) : (s.setBytes a b).fresh = s.fresh := rfl
@[simp] theorem setBytes_out (a : Nat) (b : List Nat) : (s.setBytes a b).out = s.out := rfl
@[simp] theorem setBytes_modId (a : Nat) (b : List Nat) : (s.setBytes a b).modId = s.modId := rfl
@[simp] theorem setBytes_regs (a : Nat) (b : List Nat) : (s.setBytes a b).regs = s.regs := rfl
@[simp] theorem setBytes_poison (a : Nat) (b : List Nat) : (s.setBytes a b).poison = s.poison := rfl
@[simp] theorem setBytes_towersDown (a : Nat) (b : List Nat) : (s.setBytes a b).towersDown = s.towersDown := rfl
@[simp] theorem setBytes_cores (a : Nat) (b : List Nat) : (s.setBytes a b).cores = s.cores := rfl
@[simp] theorem setBytes_clusters (a : Nat) (b : List Nat) : (s.setBytes a b).clusters = s.clusters := rfl
@[simp] theorem setBytes_lmap (a : Nat) (b : List Nat) : (s.setBytes a b).lmap = s.lmap := rfl
@[simp] theorem setBytes_llc (a : Nat) (b : List Nat) : (s.setBytes a b).llc = s.llc := rfl
@[simp] theorem setBytes_ecc (a : Nat) (b : List Nat) : (s.setBytes a b).ecc = s.ecc := rfl
@[simp] theorem setBytes_vert (a : Nat) (b : List Nat) : (s.setBytes a b).vert = s.vert := rfl
@[simp] theorem setBytes_pwr (a : Nat) (b : List Nat) : (s.setBytes a b).pwr = s.pwr := rfl
@[simp] theorem setBytes_therm (a : Nat) (b : List Nat) : (s.setBytes a b).therm = s.therm := rfl
@[simp] theorem setBytes_adm (a : Nat) (b : List Nat) : (s.setBytes a b).adm = s.adm := rfl
@[simp] theorem setBytes_md (a : Nat) (b : List Nat) : (s.setBytes a b).md = s.md := rfl
@[simp] theorem setBytes_host (a : Nat) (b : List Nat) : (s.setBytes a b).host = s.host := rfl
@[simp] theorem setBytes_ras (a : Nat) (b : List Nat) : (s.setBytes a b).ras = s.ras := rfl
@[simp] theorem setBytes_msix (a : Nat) (b : List Nat) : (s.setBytes a b).msix = s.msix := rfl
@[simp] theorem setBytes_fw (a : Nat) (b : List Nat) : (s.setBytes a b).fw = s.fw := rfl
@[simp] theorem setBytes_cls (a : Nat) (b : List Nat) : (s.setBytes a b).cls = s.cls := rfl
@[simp] theorem setBytes_lup (a : Nat) (b : List Nat) : (s.setBytes a b).lup = s.lup := rfl
@[simp] theorem setBytes_pmc (a : Nat) (b : List Nat) : (s.setBytes a b).pmc = s.pmc := rfl
@[simp] theorem setBytes_programs (a : Nat) (b : List Nat) : (s.setBytes a b).programs = s.programs := rfl
@[simp] theorem setBytes_contexts (a : Nat) (b : List Nat) : (s.setBytes a b).contexts = s.contexts := rfl
@[simp] theorem setBytes_tasks (a : Nat) (b : List Nat) : (s.setBytes a b).tasks = s.tasks := rfl

/-! ## storeBytes -/

@[simp] theorem storeBytes_pending (a : Nat) (b : List Nat) : (storeBytes s a b).pending = s.pending := rfl
@[simp] theorem storeBytes_clk (a : Nat) (b : List Nat) : (storeBytes s a b).clk = s.clk := rfl
@[simp] theorem storeBytes_fresh (a : Nat) (b : List Nat) : (storeBytes s a b).fresh = s.fresh := rfl
@[simp] theorem storeBytes_out (a : Nat) (b : List Nat) : (storeBytes s a b).out = s.out := rfl
@[simp] theorem storeBytes_modId (a : Nat) (b : List Nat) : (storeBytes s a b).modId = s.modId := rfl
@[simp] theorem storeBytes_regs (a : Nat) (b : List Nat) : (storeBytes s a b).regs = s.regs := rfl
@[simp] theorem storeBytes_towersDown (a : Nat) (b : List Nat) : (storeBytes s a b).towersDown = s.towersDown := rfl
@[simp] theorem storeBytes_cores (a : Nat) (b : List Nat) : (storeBytes s a b).cores = s.cores := rfl
@[simp] theorem storeBytes_clusters (a : Nat) (b : List Nat) : (storeBytes s a b).clusters = s.clusters := rfl
@[simp] theorem storeBytes_lmap (a : Nat) (b : List Nat) : (storeBytes s a b).lmap = s.lmap := rfl
@[simp] theorem storeBytes_llc (a : Nat) (b : List Nat) : (storeBytes s a b).llc = s.llc := rfl
@[simp] theorem storeBytes_ecc (a : Nat) (b : List Nat) : (storeBytes s a b).ecc = s.ecc := rfl
@[simp] theorem storeBytes_vert (a : Nat) (b : List Nat) : (storeBytes s a b).vert = s.vert := rfl
@[simp] theorem storeBytes_pwr (a : Nat) (b : List Nat) : (storeBytes s a b).pwr = s.pwr := rfl
@[simp] theorem storeBytes_therm (a : Nat) (b : List Nat) : (storeBytes s a b).therm = s.therm := rfl
@[simp] theorem storeBytes_adm (a : Nat) (b : List Nat) : (storeBytes s a b).adm = s.adm := rfl
@[simp] theorem storeBytes_md (a : Nat) (b : List Nat) : (storeBytes s a b).md = s.md := rfl
@[simp] theorem storeBytes_host (a : Nat) (b : List Nat) : (storeBytes s a b).host = s.host := rfl
@[simp] theorem storeBytes_ras (a : Nat) (b : List Nat) : (storeBytes s a b).ras = s.ras := rfl
@[simp] theorem storeBytes_msix (a : Nat) (b : List Nat) : (storeBytes s a b).msix = s.msix := rfl
@[simp] theorem storeBytes_fw (a : Nat) (b : List Nat) : (storeBytes s a b).fw = s.fw := rfl
@[simp] theorem storeBytes_cls (a : Nat) (b : List Nat) : (storeBytes s a b).cls = s.cls := rfl
@[simp] theorem storeBytes_lup (a : Nat) (b : List Nat) : (storeBytes s a b).lup = s.lup := rfl
@[simp] theorem storeBytes_pmc (a : Nat) (b : List Nat) : (storeBytes s a b).pmc = s.pmc := rfl
@[simp] theorem storeBytes_programs (a : Nat) (b : List Nat) : (storeBytes s a b).programs = s.programs := rfl
@[simp] theorem storeBytes_contexts (a : Nat) (b : List Nat) : (storeBytes s a b).contexts = s.contexts := rfl
@[simp] theorem storeBytes_tasks (a : Nat) (b : List Nat) : (storeBytes s a b).tasks = s.tasks := rfl

/-! ## modCluster -/

@[simp] theorem modCluster_pending (c : Nat) (f : Cluster → Cluster) : (s.modCluster c f).pending = s.pending := rfl
@[simp] theorem modCluster_clk (c : Nat) (f : Cluster → Cluster) : (s.modCluster c f).clk = s.clk := rfl
@[simp] theorem modCluster_fresh (c : Nat) (f : Cluster → Cluster) : (s.modCluster c f).fresh = s.fresh := rfl
@[simp] theorem modCluster_out (c : Nat) (f : Cluster → Cluster) : (s.modCluster c f).out = s.out := rfl
@[simp] theorem modCluster_modId (c : Nat) (f : Cluster → Cluster) : (s.modCluster c f).modId = s.modId := rfl
@[simp] theorem modCluster_regs (c : Nat) (f : Cluster → Cluster) : (s.modCluster c f).regs = s.regs := rfl
@[simp] theorem modCluster_mem (c : Nat) (f : Cluster → Cluster) : (s.modCluster c f).mem = s.mem := rfl
@[simp] theorem modCluster_poison (c : Nat) (f : Cluster → Cluster) : (s.modCluster c f).poison = s.poison := rfl
@[simp] theorem modCluster_towersDown (c : Nat) (f : Cluster → Cluster) : (s.modCluster c f).towersDown = s.towersDown := rfl
@[simp] theorem modCluster_cores (c : Nat) (f : Cluster → Cluster) : (s.modCluster c f).cores = s.cores := rfl
@[simp] theorem modCluster_lmap (c : Nat) (f : Cluster → Cluster) : (s.modCluster c f).lmap = s.lmap := rfl
@[simp] theorem modCluster_llc (c : Nat) (f : Cluster → Cluster) : (s.modCluster c f).llc = s.llc := rfl
@[simp] theorem modCluster_ecc (c : Nat) (f : Cluster → Cluster) : (s.modCluster c f).ecc = s.ecc := rfl
@[simp] theorem modCluster_vert (c : Nat) (f : Cluster → Cluster) : (s.modCluster c f).vert = s.vert := rfl
@[simp] theorem modCluster_pwr (c : Nat) (f : Cluster → Cluster) : (s.modCluster c f).pwr = s.pwr := rfl
@[simp] theorem modCluster_therm (c : Nat) (f : Cluster → Cluster) : (s.modCluster c f).therm = s.therm := rfl
@[simp] theorem modCluster_adm (c : Nat) (f : Cluster → Cluster) : (s.modCluster c f).adm = s.adm := rfl
@[simp] theorem modCluster_md (c : Nat) (f : Cluster → Cluster) : (s.modCluster c f).md = s.md := rfl
@[simp] theorem modCluster_host (c : Nat) (f : Cluster → Cluster) : (s.modCluster c f).host = s.host := rfl
@[simp] theorem modCluster_ras (c : Nat) (f : Cluster → Cluster) : (s.modCluster c f).ras = s.ras := rfl
@[simp] theorem modCluster_msix (c : Nat) (f : Cluster → Cluster) : (s.modCluster c f).msix = s.msix := rfl
@[simp] theorem modCluster_fw (c : Nat) (f : Cluster → Cluster) : (s.modCluster c f).fw = s.fw := rfl
@[simp] theorem modCluster_cls (c : Nat) (f : Cluster → Cluster) : (s.modCluster c f).cls = s.cls := rfl
@[simp] theorem modCluster_lup (c : Nat) (f : Cluster → Cluster) : (s.modCluster c f).lup = s.lup := rfl
@[simp] theorem modCluster_pmc (c : Nat) (f : Cluster → Cluster) : (s.modCluster c f).pmc = s.pmc := rfl
@[simp] theorem modCluster_programs (c : Nat) (f : Cluster → Cluster) : (s.modCluster c f).programs = s.programs := rfl
@[simp] theorem modCluster_contexts (c : Nat) (f : Cluster → Cluster) : (s.modCluster c f).contexts = s.contexts := rfl
@[simp] theorem modCluster_tasks (c : Nat) (f : Cluster → Cluster) : (s.modCluster c f).tasks = s.tasks := rfl

/-! ## setPhys -/

@[simp] theorem setPhys_pending (l : Nat) (p : Option Nat) : (s.setPhys l p).pending = s.pending := rfl
@[simp] theorem setPhys_clk (l : Nat) (p : Option Nat) : (s.setPhys l p).clk = s.clk := rfl
@[simp] theorem setPhys_fresh (l : Nat) (p : Option Nat) : (s.setPhys l p).fresh = s.fresh := rfl
@[simp] theorem setPhys_out (l : Nat) (p : Option Nat) : (s.setPhys l p).out = s.out := rfl
@[simp] theorem setPhys_modId (l : Nat) (p : Option Nat) : (s.setPhys l p).modId = s.modId := rfl
@[simp] theorem setPhys_regs (l : Nat) (p : Option Nat) : (s.setPhys l p).regs = s.regs := rfl
@[simp] theorem setPhys_mem (l : Nat) (p : Option Nat) : (s.setPhys l p).mem = s.mem := rfl
@[simp] theorem setPhys_poison (l : Nat) (p : Option Nat) : (s.setPhys l p).poison = s.poison := rfl
@[simp] theorem setPhys_towersDown (l : Nat) (p : Option Nat) : (s.setPhys l p).towersDown = s.towersDown := rfl
@[simp] theorem setPhys_cores (l : Nat) (p : Option Nat) : (s.setPhys l p).cores = s.cores := rfl
@[simp] theorem setPhys_clusters (l : Nat) (p : Option Nat) : (s.setPhys l p).clusters = s.clusters := rfl
@[simp] theorem setPhys_llc (l : Nat) (p : Option Nat) : (s.setPhys l p).llc = s.llc := rfl
@[simp] theorem setPhys_ecc (l : Nat) (p : Option Nat) : (s.setPhys l p).ecc = s.ecc := rfl
@[simp] theorem setPhys_vert (l : Nat) (p : Option Nat) : (s.setPhys l p).vert = s.vert := rfl
@[simp] theorem setPhys_pwr (l : Nat) (p : Option Nat) : (s.setPhys l p).pwr = s.pwr := rfl
@[simp] theorem setPhys_therm (l : Nat) (p : Option Nat) : (s.setPhys l p).therm = s.therm := rfl
@[simp] theorem setPhys_adm (l : Nat) (p : Option Nat) : (s.setPhys l p).adm = s.adm := rfl
@[simp] theorem setPhys_md (l : Nat) (p : Option Nat) : (s.setPhys l p).md = s.md := rfl
@[simp] theorem setPhys_host (l : Nat) (p : Option Nat) : (s.setPhys l p).host = s.host := rfl
@[simp] theorem setPhys_ras (l : Nat) (p : Option Nat) : (s.setPhys l p).ras = s.ras := rfl
@[simp] theorem setPhys_msix (l : Nat) (p : Option Nat) : (s.setPhys l p).msix = s.msix := rfl
@[simp] theorem setPhys_fw (l : Nat) (p : Option Nat) : (s.setPhys l p).fw = s.fw := rfl
@[simp] theorem setPhys_cls (l : Nat) (p : Option Nat) : (s.setPhys l p).cls = s.cls := rfl
@[simp] theorem setPhys_lup (l : Nat) (p : Option Nat) : (s.setPhys l p).lup = s.lup := rfl
@[simp] theorem setPhys_pmc (l : Nat) (p : Option Nat) : (s.setPhys l p).pmc = s.pmc := rfl
@[simp] theorem setPhys_programs (l : Nat) (p : Option Nat) : (s.setPhys l p).programs = s.programs := rfl
@[simp] theorem setPhys_contexts (l : Nat) (p : Option Nat) : (s.setPhys l p).contexts = s.contexts := rfl
@[simp] theorem setPhys_tasks (l : Nat) (p : Option Nat) : (s.setPhys l p).tasks = s.tasks := rfl

/-! ## modBundle -/

@[simp] theorem modBundle_pending (k : Nat) (f : Bundle → Bundle) : (s.modBundle k f).pending = s.pending := rfl
@[simp] theorem modBundle_clk (k : Nat) (f : Bundle → Bundle) : (s.modBundle k f).clk = s.clk := rfl
@[simp] theorem modBundle_fresh (k : Nat) (f : Bundle → Bundle) : (s.modBundle k f).fresh = s.fresh := rfl
@[simp] theorem modBundle_out (k : Nat) (f : Bundle → Bundle) : (s.modBundle k f).out = s.out := rfl
@[simp] theorem modBundle_modId (k : Nat) (f : Bundle → Bundle) : (s.modBundle k f).modId = s.modId := rfl
@[simp] theorem modBundle_regs (k : Nat) (f : Bundle → Bundle) : (s.modBundle k f).regs = s.regs := rfl
@[simp] theorem modBundle_mem (k : Nat) (f : Bundle → Bundle) : (s.modBundle k f).mem = s.mem := rfl
@[simp] theorem modBundle_poison (k : Nat) (f : Bundle → Bundle) : (s.modBundle k f).poison = s.poison := rfl
@[simp] theorem modBundle_towersDown (k : Nat) (f : Bundle → Bundle) : (s.modBundle k f).towersDown = s.towersDown := rfl
@[simp] theorem modBundle_cores (k : Nat) (f : Bundle → Bundle) : (s.modBundle k f).cores = s.cores := rfl
@[simp] theorem modBundle_clusters (k : Nat) (f : Bundle → Bundle) : (s.modBundle k f).clusters = s.clusters := rfl
@[simp] theorem modBundle_lmap (k : Nat) (f : Bundle → Bundle) : (s.modBundle k f).lmap = s.lmap := rfl
@[simp] theorem modBundle_llc (k : Nat) (f : Bundle → Bundle) : (s.modBundle k f).llc = s.llc := rfl
@[simp] theorem modBundle_ecc (k : Nat) (f : Bundle → Bundle) : (s.modBundle k f).ecc = s.ecc := rfl
@[simp] theorem modBundle_pwr (k : Nat) (f : Bundle → Bundle) : (s.modBundle k f).pwr = s.pwr := rfl
@[simp] theorem modBundle_therm (k : Nat) (f : Bundle → Bundle) : (s.modBundle k f).therm = s.therm := rfl
@[simp] theorem modBundle_adm (k : Nat) (f : Bundle → Bundle) : (s.modBundle k f).adm = s.adm := rfl
@[simp] theorem modBundle_md (k : Nat) (f : Bundle → Bundle) : (s.modBundle k f).md = s.md := rfl
@[simp] theorem modBundle_host (k : Nat) (f : Bundle → Bundle) : (s.modBundle k f).host = s.host := rfl
@[simp] theorem modBundle_ras (k : Nat) (f : Bundle → Bundle) : (s.modBundle k f).ras = s.ras := rfl
@[simp] theorem modBundle_msix (k : Nat) (f : Bundle → Bundle) : (s.modBundle k f).msix = s.msix := rfl
@[simp] theorem modBundle_fw (k : Nat) (f : Bundle → Bundle) : (s.modBundle k f).fw = s.fw := rfl
@[simp] theorem modBundle_cls (k : Nat) (f : Bundle → Bundle) : (s.modBundle k f).cls = s.cls := rfl
@[simp] theorem modBundle_lup (k : Nat) (f : Bundle → Bundle) : (s.modBundle k f).lup = s.lup := rfl
@[simp] theorem modBundle_pmc (k : Nat) (f : Bundle → Bundle) : (s.modBundle k f).pmc = s.pmc := rfl
@[simp] theorem modBundle_programs (k : Nat) (f : Bundle → Bundle) : (s.modBundle k f).programs = s.programs := rfl
@[simp] theorem modBundle_contexts (k : Nat) (f : Bundle → Bundle) : (s.modBundle k f).contexts = s.contexts := rfl
@[simp] theorem modBundle_tasks (k : Nat) (f : Bundle → Bundle) : (s.modBundle k f).tasks = s.tasks := rfl

/-! ## setQf -/

@[simp] theorem setQf_pending (q o n v : Nat) : (s.setQf q o n v).pending = s.pending := rfl
@[simp] theorem setQf_clk (q o n v : Nat) : (s.setQf q o n v).clk = s.clk := rfl
@[simp] theorem setQf_fresh (q o n v : Nat) : (s.setQf q o n v).fresh = s.fresh := rfl
@[simp] theorem setQf_out (q o n v : Nat) : (s.setQf q o n v).out = s.out := rfl
@[simp] theorem setQf_modId (q o n v : Nat) : (s.setQf q o n v).modId = s.modId := rfl
@[simp] theorem setQf_regs (q o n v : Nat) : (s.setQf q o n v).regs = s.regs := rfl
@[simp] theorem setQf_poison (q o n v : Nat) : (s.setQf q o n v).poison = s.poison := rfl
@[simp] theorem setQf_towersDown (q o n v : Nat) : (s.setQf q o n v).towersDown = s.towersDown := rfl
@[simp] theorem setQf_cores (q o n v : Nat) : (s.setQf q o n v).cores = s.cores := rfl
@[simp] theorem setQf_clusters (q o n v : Nat) : (s.setQf q o n v).clusters = s.clusters := rfl
@[simp] theorem setQf_lmap (q o n v : Nat) : (s.setQf q o n v).lmap = s.lmap := rfl
@[simp] theorem setQf_llc (q o n v : Nat) : (s.setQf q o n v).llc = s.llc := rfl
@[simp] theorem setQf_ecc (q o n v : Nat) : (s.setQf q o n v).ecc = s.ecc := rfl
@[simp] theorem setQf_vert (q o n v : Nat) : (s.setQf q o n v).vert = s.vert := rfl
@[simp] theorem setQf_pwr (q o n v : Nat) : (s.setQf q o n v).pwr = s.pwr := rfl
@[simp] theorem setQf_therm (q o n v : Nat) : (s.setQf q o n v).therm = s.therm := rfl
@[simp] theorem setQf_adm (q o n v : Nat) : (s.setQf q o n v).adm = s.adm := rfl
@[simp] theorem setQf_md (q o n v : Nat) : (s.setQf q o n v).md = s.md := rfl
@[simp] theorem setQf_host (q o n v : Nat) : (s.setQf q o n v).host = s.host := rfl
@[simp] theorem setQf_ras (q o n v : Nat) : (s.setQf q o n v).ras = s.ras := rfl
@[simp] theorem setQf_msix (q o n v : Nat) : (s.setQf q o n v).msix = s.msix := rfl
@[simp] theorem setQf_fw (q o n v : Nat) : (s.setQf q o n v).fw = s.fw := rfl
@[simp] theorem setQf_cls (q o n v : Nat) : (s.setQf q o n v).cls = s.cls := rfl
@[simp] theorem setQf_lup (q o n v : Nat) : (s.setQf q o n v).lup = s.lup := rfl
@[simp] theorem setQf_pmc (q o n v : Nat) : (s.setQf q o n v).pmc = s.pmc := rfl
@[simp] theorem setQf_programs (q o n v : Nat) : (s.setQf q o n v).programs = s.programs := rfl
@[simp] theorem setQf_contexts (q o n v : Nat) : (s.setQf q o n v).contexts = s.contexts := rfl
@[simp] theorem setQf_tasks (q o n v : Nat) : (s.setQf q o n v).tasks = s.tasks := rfl

/-! ## setPayload -/

@[simp] theorem setPayload_pending (n : Nat) (b : List Nat) : (setPayload s n b).pending = s.pending := rfl
@[simp] theorem setPayload_clk (n : Nat) (b : List Nat) : (setPayload s n b).clk = s.clk := rfl
@[simp] theorem setPayload_fresh (n : Nat) (b : List Nat) : (setPayload s n b).fresh = s.fresh := rfl
@[simp] theorem setPayload_out (n : Nat) (b : List Nat) : (setPayload s n b).out = s.out := rfl
@[simp] theorem setPayload_modId (n : Nat) (b : List Nat) : (setPayload s n b).modId = s.modId := rfl
@[simp] theorem setPayload_regs (n : Nat) (b : List Nat) : (setPayload s n b).regs = s.regs := rfl
@[simp] theorem setPayload_mem (n : Nat) (b : List Nat) : (setPayload s n b).mem = s.mem := rfl
@[simp] theorem setPayload_poison (n : Nat) (b : List Nat) : (setPayload s n b).poison = s.poison := rfl
@[simp] theorem setPayload_towersDown (n : Nat) (b : List Nat) : (setPayload s n b).towersDown = s.towersDown := rfl
@[simp] theorem setPayload_cores (n : Nat) (b : List Nat) : (setPayload s n b).cores = s.cores := rfl
@[simp] theorem setPayload_clusters (n : Nat) (b : List Nat) : (setPayload s n b).clusters = s.clusters := rfl
@[simp] theorem setPayload_lmap (n : Nat) (b : List Nat) : (setPayload s n b).lmap = s.lmap := rfl
@[simp] theorem setPayload_llc (n : Nat) (b : List Nat) : (setPayload s n b).llc = s.llc := rfl
@[simp] theorem setPayload_ecc (n : Nat) (b : List Nat) : (setPayload s n b).ecc = s.ecc := rfl
@[simp] theorem setPayload_vert (n : Nat) (b : List Nat) : (setPayload s n b).vert = s.vert := rfl
@[simp] theorem setPayload_pwr (n : Nat) (b : List Nat) : (setPayload s n b).pwr = s.pwr := rfl
@[simp] theorem setPayload_therm (n : Nat) (b : List Nat) : (setPayload s n b).therm = s.therm := rfl
@[simp] theorem setPayload_adm (n : Nat) (b : List Nat) : (setPayload s n b).adm = s.adm := rfl
@[simp] theorem setPayload_md (n : Nat) (b : List Nat) : (setPayload s n b).md = s.md := rfl
@[simp] theorem setPayload_host (n : Nat) (b : List Nat) : (setPayload s n b).host = s.host := rfl
@[simp] theorem setPayload_ras (n : Nat) (b : List Nat) : (setPayload s n b).ras = s.ras := rfl
@[simp] theorem setPayload_msix (n : Nat) (b : List Nat) : (setPayload s n b).msix = s.msix := rfl
@[simp] theorem setPayload_cls (n : Nat) (b : List Nat) : (setPayload s n b).cls = s.cls := rfl
@[simp] theorem setPayload_lup (n : Nat) (b : List Nat) : (setPayload s n b).lup = s.lup := rfl
@[simp] theorem setPayload_pmc (n : Nat) (b : List Nat) : (setPayload s n b).pmc = s.pmc := rfl
@[simp] theorem setPayload_programs (n : Nat) (b : List Nat) : (setPayload s n b).programs = s.programs := rfl
@[simp] theorem setPayload_contexts (n : Nat) (b : List Nat) : (setPayload s n b).contexts = s.contexts := rfl
@[simp] theorem setPayload_tasks (n : Nat) (b : List Nat) : (setPayload s n b).tasks = s.tasks := rfl

/-! ## modProc -/

@[simp] theorem modProc_pending (p : Nat) (f : Proc → Proc) : (s.modProc p f).pending = s.pending := rfl
@[simp] theorem modProc_clk (p : Nat) (f : Proc → Proc) : (s.modProc p f).clk = s.clk := rfl
@[simp] theorem modProc_fresh (p : Nat) (f : Proc → Proc) : (s.modProc p f).fresh = s.fresh := rfl
@[simp] theorem modProc_out (p : Nat) (f : Proc → Proc) : (s.modProc p f).out = s.out := rfl
@[simp] theorem modProc_modId (p : Nat) (f : Proc → Proc) : (s.modProc p f).modId = s.modId := rfl
@[simp] theorem modProc_regs (p : Nat) (f : Proc → Proc) : (s.modProc p f).regs = s.regs := rfl
@[simp] theorem modProc_mem (p : Nat) (f : Proc → Proc) : (s.modProc p f).mem = s.mem := rfl
@[simp] theorem modProc_poison (p : Nat) (f : Proc → Proc) : (s.modProc p f).poison = s.poison := rfl
@[simp] theorem modProc_towersDown (p : Nat) (f : Proc → Proc) : (s.modProc p f).towersDown = s.towersDown := rfl
@[simp] theorem modProc_cores (p : Nat) (f : Proc → Proc) : (s.modProc p f).cores = s.cores := rfl
@[simp] theorem modProc_clusters (p : Nat) (f : Proc → Proc) : (s.modProc p f).clusters = s.clusters := rfl
@[simp] theorem modProc_lmap (p : Nat) (f : Proc → Proc) : (s.modProc p f).lmap = s.lmap := rfl
@[simp] theorem modProc_llc (p : Nat) (f : Proc → Proc) : (s.modProc p f).llc = s.llc := rfl
@[simp] theorem modProc_ecc (p : Nat) (f : Proc → Proc) : (s.modProc p f).ecc = s.ecc := rfl
@[simp] theorem modProc_vert (p : Nat) (f : Proc → Proc) : (s.modProc p f).vert = s.vert := rfl
@[simp] theorem modProc_pwr (p : Nat) (f : Proc → Proc) : (s.modProc p f).pwr = s.pwr := rfl
@[simp] theorem modProc_therm (p : Nat) (f : Proc → Proc) : (s.modProc p f).therm = s.therm := rfl
@[simp] theorem modProc_adm (p : Nat) (f : Proc → Proc) : (s.modProc p f).adm = s.adm := rfl
@[simp] theorem modProc_md (p : Nat) (f : Proc → Proc) : (s.modProc p f).md = s.md := rfl
@[simp] theorem modProc_host (p : Nat) (f : Proc → Proc) : (s.modProc p f).host = s.host := rfl
@[simp] theorem modProc_ras (p : Nat) (f : Proc → Proc) : (s.modProc p f).ras = s.ras := rfl
@[simp] theorem modProc_msix (p : Nat) (f : Proc → Proc) : (s.modProc p f).msix = s.msix := rfl
@[simp] theorem modProc_cls (p : Nat) (f : Proc → Proc) : (s.modProc p f).cls = s.cls := rfl
@[simp] theorem modProc_lup (p : Nat) (f : Proc → Proc) : (s.modProc p f).lup = s.lup := rfl
@[simp] theorem modProc_pmc (p : Nat) (f : Proc → Proc) : (s.modProc p f).pmc = s.pmc := rfl
@[simp] theorem modProc_programs (p : Nat) (f : Proc → Proc) : (s.modProc p f).programs = s.programs := rfl
@[simp] theorem modProc_contexts (p : Nat) (f : Proc → Proc) : (s.modProc p f).contexts = s.contexts := rfl
@[simp] theorem modProc_tasks (p : Nat) (f : Proc → Proc) : (s.modProc p f).tasks = s.tasks := rfl

/-! ## setPstate -/

@[simp] theorem setPstate_pending (p v : Nat) : (setPstate s p v).pending = s.pending := rfl
@[simp] theorem setPstate_clk (p v : Nat) : (setPstate s p v).clk = s.clk := rfl
@[simp] theorem setPstate_fresh (p v : Nat) : (setPstate s p v).fresh = s.fresh := rfl
@[simp] theorem setPstate_out (p v : Nat) : (setPstate s p v).out = s.out := rfl
@[simp] theorem setPstate_modId (p v : Nat) : (setPstate s p v).modId = s.modId := rfl
@[simp] theorem setPstate_mem (p v : Nat) : (setPstate s p v).mem = s.mem := rfl
@[simp] theorem setPstate_poison (p v : Nat) : (setPstate s p v).poison = s.poison := rfl
@[simp] theorem setPstate_towersDown (p v : Nat) : (setPstate s p v).towersDown = s.towersDown := rfl
@[simp] theorem setPstate_cores (p v : Nat) : (setPstate s p v).cores = s.cores := rfl
@[simp] theorem setPstate_clusters (p v : Nat) : (setPstate s p v).clusters = s.clusters := rfl
@[simp] theorem setPstate_lmap (p v : Nat) : (setPstate s p v).lmap = s.lmap := rfl
@[simp] theorem setPstate_llc (p v : Nat) : (setPstate s p v).llc = s.llc := rfl
@[simp] theorem setPstate_ecc (p v : Nat) : (setPstate s p v).ecc = s.ecc := rfl
@[simp] theorem setPstate_vert (p v : Nat) : (setPstate s p v).vert = s.vert := rfl
@[simp] theorem setPstate_pwr (p v : Nat) : (setPstate s p v).pwr = s.pwr := rfl
@[simp] theorem setPstate_therm (p v : Nat) : (setPstate s p v).therm = s.therm := rfl
@[simp] theorem setPstate_adm (p v : Nat) : (setPstate s p v).adm = s.adm := rfl
@[simp] theorem setPstate_md (p v : Nat) : (setPstate s p v).md = s.md := rfl
@[simp] theorem setPstate_host (p v : Nat) : (setPstate s p v).host = s.host := rfl
@[simp] theorem setPstate_ras (p v : Nat) : (setPstate s p v).ras = s.ras := rfl
@[simp] theorem setPstate_msix (p v : Nat) : (setPstate s p v).msix = s.msix := rfl
@[simp] theorem setPstate_fw (p v : Nat) : (setPstate s p v).fw = s.fw := rfl
@[simp] theorem setPstate_cls (p v : Nat) : (setPstate s p v).cls = s.cls := rfl
@[simp] theorem setPstate_lup (p v : Nat) : (setPstate s p v).lup = s.lup := rfl
@[simp] theorem setPstate_pmc (p v : Nat) : (setPstate s p v).pmc = s.pmc := rfl
@[simp] theorem setPstate_programs (p v : Nat) : (setPstate s p v).programs = s.programs := rfl
@[simp] theorem setPstate_contexts (p v : Nat) : (setPstate s p v).contexts = s.contexts := rfl
@[simp] theorem setPstate_tasks (p v : Nat) : (setPstate s p v).tasks = s.tasks := rfl

/-! ## modLink -/

@[simp] theorem modLink_pending (l : Nat) (f : LLink → LLink) : (s.modLink l f).pending = s.pending := rfl
@[simp] theorem modLink_clk (l : Nat) (f : LLink → LLink) : (s.modLink l f).clk = s.clk := rfl
@[simp] theorem modLink_fresh (l : Nat) (f : LLink → LLink) : (s.modLink l f).fresh = s.fresh := rfl
@[simp] theorem modLink_out (l : Nat) (f : LLink → LLink) : (s.modLink l f).out = s.out := rfl
@[simp] theorem modLink_modId (l : Nat) (f : LLink → LLink) : (s.modLink l f).modId = s.modId := rfl
@[simp] theorem modLink_regs (l : Nat) (f : LLink → LLink) : (s.modLink l f).regs = s.regs := rfl
@[simp] theorem modLink_mem (l : Nat) (f : LLink → LLink) : (s.modLink l f).mem = s.mem := rfl
@[simp] theorem modLink_poison (l : Nat) (f : LLink → LLink) : (s.modLink l f).poison = s.poison := rfl
@[simp] theorem modLink_towersDown (l : Nat) (f : LLink → LLink) : (s.modLink l f).towersDown = s.towersDown := rfl
@[simp] theorem modLink_cores (l : Nat) (f : LLink → LLink) : (s.modLink l f).cores = s.cores := rfl
@[simp] theorem modLink_clusters (l : Nat) (f : LLink → LLink) : (s.modLink l f).clusters = s.clusters := rfl
@[simp] theorem modLink_lmap (l : Nat) (f : LLink → LLink) : (s.modLink l f).lmap = s.lmap := rfl
@[simp] theorem modLink_llc (l : Nat) (f : LLink → LLink) : (s.modLink l f).llc = s.llc := rfl
@[simp] theorem modLink_ecc (l : Nat) (f : LLink → LLink) : (s.modLink l f).ecc = s.ecc := rfl
@[simp] theorem modLink_vert (l : Nat) (f : LLink → LLink) : (s.modLink l f).vert = s.vert := rfl
@[simp] theorem modLink_pwr (l : Nat) (f : LLink → LLink) : (s.modLink l f).pwr = s.pwr := rfl
@[simp] theorem modLink_therm (l : Nat) (f : LLink → LLink) : (s.modLink l f).therm = s.therm := rfl
@[simp] theorem modLink_adm (l : Nat) (f : LLink → LLink) : (s.modLink l f).adm = s.adm := rfl
@[simp] theorem modLink_md (l : Nat) (f : LLink → LLink) : (s.modLink l f).md = s.md := rfl
@[simp] theorem modLink_host (l : Nat) (f : LLink → LLink) : (s.modLink l f).host = s.host := rfl
@[simp] theorem modLink_ras (l : Nat) (f : LLink → LLink) : (s.modLink l f).ras = s.ras := rfl
@[simp] theorem modLink_msix (l : Nat) (f : LLink → LLink) : (s.modLink l f).msix = s.msix := rfl
@[simp] theorem modLink_fw (l : Nat) (f : LLink → LLink) : (s.modLink l f).fw = s.fw := rfl
@[simp] theorem modLink_cls (l : Nat) (f : LLink → LLink) : (s.modLink l f).cls = s.cls := rfl
@[simp] theorem modLink_pmc (l : Nat) (f : LLink → LLink) : (s.modLink l f).pmc = s.pmc := rfl
@[simp] theorem modLink_programs (l : Nat) (f : LLink → LLink) : (s.modLink l f).programs = s.programs := rfl
@[simp] theorem modLink_contexts (l : Nat) (f : LLink → LLink) : (s.modLink l f).contexts = s.contexts := rfl
@[simp] theorem modLink_tasks (l : Nat) (f : LLink → LLink) : (s.modLink l f).tasks = s.tasks := rfl

/-! ## What the updates change -/

@[simp] theorem emit_out (o : Out) : (s.emit o).out = s.out ++ [o] := rfl
@[simp] theorem setTask_tasks (i : Nat) (t : Option Task) : (s.setTask i t).tasks = tset none s.tasks i t := rfl
@[simp] theorem task_setTask_same (i : Nat) (t : Option Task) : (s.setTask i t).task i = t := by simp [State.task]
theorem task_setTask_other {i j : Nat} (t : Option Task) (h : j ≠ i) : (s.setTask i t).task j = s.task j :=
  tget_tset_other _ _ _ h
@[simp] theorem reg_setReg_same (a : Nat) (v : Word) : (s.setReg a v).reg a = v := by simp [State.reg, State.setReg]
theorem reg_setReg_other {a b : Nat} (v : Word) (h : b ≠ a) : (s.setReg a v).reg b = s.reg b := by
  simp only [State.reg, State.setReg]
  exact (tget_tset_other_default _ _ h)
@[simp] theorem core_setCore_same (c : Nat) (k : Core) : (s.setCore c k).core c = k := by simp [State.core, State.setCore]
theorem core_setCore_other {c d : Nat} (k : Core) (h : d ≠ c) : (s.setCore c k).core d = s.core d := tget_tset_other _ _ _ h
@[simp] theorem core_modCore_same (c : Nat) (f : Core → Core) : (s.modCore c f).core c = f (s.core c) := by simp [State.modCore]
theorem core_modCore_other {c d : Nat} (f : Core → Core) (h : d ≠ c) : (s.modCore c f).core d = s.core d :=
  core_setCore_other s _ h
@[simp] theorem core_emit (o : Out) (c : Nat) : (s.emit o).core c = s.core c := rfl
@[simp] theorem reg_emit (o : Out) (a : Nat) : (s.emit o).reg a = s.reg a := rfl
@[simp] theorem reg_setCore (c : Nat) (k : Core) (a : Nat) : (s.setCore c k).reg a = s.reg a := rfl
@[simp] theorem reg_modCore (c : Nat) (f : Core → Core) (a : Nat) : (s.modCore c f).reg a = s.reg a := rfl
@[simp] theorem grp_setGrp_same (k : Core) (g : Nat) (v : Group) : grp (setGrp k g v) g = v := by simp [grp, setGrp]
theorem grp_setGrp_other (k : Core) {g h : Nat} (v : Group) (hn : h ≠ g) : grp (setGrp k g v) h = grp k h :=
  tget_tset_other _ _ _ hn
@[simp] theorem thr_setThr_same (gr : Group) (t : Nat) (v : Thread) : thr (setThr gr t v) t = v := by simp [thr, setThr]
theorem thr_setThr_other (gr : Group) {t u : Nat} (v : Thread) (hn : u ≠ t) : thr (setThr gr t v) u = thr gr u :=
  tget_tset_other _ _ _ hn
@[simp] theorem link_modLink_same (l : Nat) (f : LLink → LLink) : (s.modLink l f).link l = f (s.link l) := by
  simp [State.link, State.modLink]
theorem link_modLink_other {l m : Nat} (f : LLink → LLink) (h : m ≠ l) : (s.modLink l f).link m = s.link m :=
  tget_tset_other _ _ _ h
@[simp] theorem cluster_modCluster_same (c : Nat) (f : Cluster → Cluster) : (s.modCluster c f).cluster c = f (s.cluster c) := by
  simp [State.cluster, State.modCluster]
theorem cluster_modCluster_other {c d : Nat} (f : Cluster → Cluster) (h : d ≠ c) : (s.modCluster c f).cluster d = s.cluster d :=
  tget_tset_other _ _ _ h
@[simp] theorem setBytes_mem (a : Nat) (b : List Nat) : (s.setBytes a b).mem = writeBytes s.mem (addrLow a) b := rfl
@[simp] theorem storeBytes_mem (a : Nat) (b : List Nat) : (storeBytes s a b).mem = writeBytes s.mem (addrLow a) b := rfl

end Sys2Proof.Machine
end

