-- ==== Sys2Proof/Laws/Issue.lean ====
section
/-! SUPPORT. What the shared operations of an issue do: counting a slot, moving on, writing registers and predicates. -/

namespace Sys2Proof.Machine

/-! ## Threads up to their blocks, groups up to their sets -/

/-- A thread without its block. -/
def unblocked (t : Thread) : Thread := { t with block := .no }

/-- Two groups with the same registers: all but sets, joins, barrier generations, slot counts and blocks. -/
structure SameRegs (a b : Group) : Prop where
  launch : b.launch = a.launch
  urf : b.urf = a.urf
  upend : b.upend = a.upend
  srKey : b.srKey = a.srKey
  thrs : ∀ t, unblocked (thr b t) = unblocked (thr a t)

theorem SameRegs.rfl {a : Group} : SameRegs a a := ⟨by rfl, by rfl, by rfl, by rfl, fun _ => by rfl⟩

theorem SameRegs.trans {a b c : Group} (h : SameRegs a b) (k : SameRegs b c) : SameRegs a c :=
  ⟨k.launch.trans h.launch, k.urf.trans h.urf, k.upend.trans h.upend, k.srKey.trans h.srKey,
   fun t => (k.thrs t).trans (h.thrs t)⟩

theorem thr_modThr (gr : Group) (t u : Nat) (f : Thread → Thread) :
    thr (modThr gr t f) u = if u = t then f (thr gr t) else thr gr u := by
  unfold modThr
  split
  next h => subst h; simp
  next h => exact thr_setThr_other gr _ h

theorem modThrs_launch (gr : Group) (ts : List Nat) (f : Nat → Thread → Thread) : (modThrs gr ts f).launch = gr.launch := by
  unfold modThrs; induction ts generalizing gr with
  | nil => rfl
  | cons a ts ih => exact ih _

theorem modThrs_urf (gr : Group) (ts : List Nat) (f : Nat → Thread → Thread) : (modThrs gr ts f).urf = gr.urf := by
  unfold modThrs; induction ts generalizing gr with
  | nil => rfl
  | cons a ts ih => exact ih _

theorem modThrs_upend (gr : Group) (ts : List Nat) (f : Nat → Thread → Thread) : (modThrs gr ts f).upend = gr.upend := by
  unfold modThrs; induction ts generalizing gr with
  | nil => rfl
  | cons a ts ih => exact ih _

theorem modThrs_srKey (gr : Group) (ts : List Nat) (f : Nat → Thread → Thread) : (modThrs gr ts f).srKey = gr.srKey := by
  unfold modThrs; induction ts generalizing gr with
  | nil => rfl
  | cons a ts ih => exact ih _

/-- A change of listed threads that a second application does not change further. -/
theorem thr_modThrs (gr : Group) (ts : List Nat) (f : Thread → Thread) (hf : ∀ x, f (f x) = f x) (u : Nat) :
    thr (modThrs gr ts (fun _ => f)) u = if u ∈ ts then f (thr gr u) else thr gr u := by
  unfold modThrs
  induction ts generalizing gr with
  | nil => simp
  | cons a ts ih =>
    simp only [List.foldl_cons]
    rw [ih, thr_modThr]
    by_cases h : u = a
    · subst h; by_cases h2 : u ∈ ts <;> simp [h2, hf]
    · by_cases h2 : u ∈ ts <;> simp [h, h2]

theorem unblocked_modThrs (gr : Group) (ts : List Nat) (f : Nat → Thread → Thread)
    (hf : ∀ t x, unblocked (f t x) = unblocked x) (u : Nat) :
    unblocked (thr (modThrs gr ts f) u) = unblocked (thr gr u) := by
  unfold modThrs
  induction ts generalizing gr with
  | nil => rfl
  | cons a ts ih =>
    simp only [List.foldl_cons]
    rw [ih, thr_modThr]
    split
    next h => subst h; exact hf _ _
    · rfl

/-- A change of blocks alone. -/
theorem SameRegs.modThrs (gr : Group) (ts : List Nat) (f : Nat → Thread → Thread)
    (hf : ∀ t x, unblocked (f t x) = unblocked x) : SameRegs gr (modThrs gr ts f) :=
  ⟨modThrs_launch .., modThrs_urf .., modThrs_upend .., modThrs_srKey .., unblocked_modThrs gr ts f hf⟩

theorem SameRegs.joinMark (gr : Group) : SameRegs gr (joinMark gr) := by
  unfold Machine.joinMark
  split
  · exact .rfl
  · exact .modThrs _ _ _ (fun _ _ => by rfl)

theorem SameRegs.joinPop (gr : Group) (d : Nat) : SameRegs gr (joinPop gr d) := by
  unfold Machine.joinPop
  refine SameRegs.trans (b := { gr with joins := ((joinStack gr).filter (fun e => e.1 != d)).map (·.2) })
    ⟨by rfl, by rfl, by rfl, by rfl, fun _ => by rfl⟩ (.modThrs _ _ _ (fun _ x => ?_))
  unfold joinLeft
  split
  · split
    · rfl
    · split <;> rfl
  · rfl

theorem SameRegs.joinSettle (n : Nat) (gr : Group) : SameRegs gr (joinSettle n gr) := by
  induction n generalizing gr with
  | zero => exact .rfl
  | succ n ih =>
    simp only [Machine.joinSettle]
    split
    · exact (SameRegs.joinMark gr).trans ((SameRegs.joinPop _ _).trans (ih _))
    · exact .joinMark gr

/-- Settling a group changes no register. -/
theorem SameRegs.normGroup (gr : Group) : SameRegs gr (normGroup gr) := by
  unfold Machine.normGroup
  refine SameRegs.trans (b := { gr with sets := gr.sets.flatMap (splitSet gr) }) ⟨by rfl, by rfl, by rfl, by rfl, fun _ => by rfl⟩ ?_
  refine (SameRegs.joinSettle 9 _).trans ?_
  exact ⟨by rfl, by rfl, by rfl, by rfl, fun _ => by rfl⟩

theorem SameRegs.mergeSets (gr : Group) : SameRegs gr (mergeSets gr) := ⟨by rfl, by rfl, by rfl, by rfl, fun _ => by rfl⟩

/-- A fold over groups, each changed within its registers. -/
theorem sameRegs_foldl (k : Core) (gs : List Nat) (f : Nat → Group → Group) (hf : ∀ g x, SameRegs x (f g x)) (h : Nat) :
    SameRegs (grp k h) (grp (gs.foldl (fun k g => setGrp k g (f g (grp k g))) k) h) := by
  induction gs generalizing k with
  | nil => exact .rfl
  | cons a gs ih =>
    simp only [List.foldl_cons]
    refine SameRegs.trans ?_ (ih _)
    by_cases hh : h = a
    · subst hh; simpa using hf h (grp k h)
    · rw [grp_setGrp_other k _ hh]; exact .rfl

theorem sameRegs_mergeCore (k : Core) (h : Nat) : SameRegs (grp k h) (grp (mergeCore k) h) :=
  sameRegs_foldl k _ (fun _ => mergeSets) (fun _ x => .mergeSets x) h

/-- The core without its groups. -/
def noGroups (k : Core) : Core := { k with groups := [] }

theorem noGroups_foldl (k : Core) (gs : List Nat) (f : Nat → Core → Group) :
    noGroups (gs.foldl (fun k g => setGrp k g (f g k)) k) = noGroups k := by
  induction gs generalizing k with
  | nil => rfl
  | cons a gs ih => simp only [List.foldl_cons]; rw [ih]; rfl

theorem noGroups_mergeCore (k : Core) : noGroups (mergeCore k) = noGroups k := noGroups_foldl k _ (fun g k => mergeSets (grp k g))

theorem sameRegs_countSlot (k : Core) (g : Nat) (m : Word) (h : Nat) : SameRegs (grp k h) (grp (countSlot k g m) h) := by
  unfold countSlot
  dsimp only
  have key : ∀ (gs : List Nat) (k : Core), SameRegs (grp k h)
      (grp (gs.foldl (fun k h => if h = g then k else setGrp k h { grp k h with unsel := (grp k h).unsel + 1 }) k) h) := by
    intro gs
    induction gs with
    | nil => intro k; exact .rfl
    | cons a gs ih =>
      intro k
      simp only [List.foldl_cons]
      refine SameRegs.trans ?_ (ih _)
      split
      · exact .rfl
      · by_cases hh : h = a
        · subst hh; rw [grp_setGrp_same]; exact ⟨by rfl, by rfl, by rfl, by rfl, fun _ => by rfl⟩
        · rw [grp_setGrp_other k _ hh]; exact .rfl
  refine SameRegs.trans (key (heldGroups k) k) ?_
  generalize List.foldl _ k _ = k'
  by_cases hh : h = g
  · subst hh
    show SameRegs _ (grp (setGrp k' h _) h)
    rw [grp_setGrp_same]
    refine SameRegs.trans (b := { grp k' h with unsel := 0, overdue := false, sets := (grp k' h).sets.map (fun st => if st.mask = m then { st with stamp := k'.slots + 1 } else st) })
      ⟨by rfl, by rfl, by rfl, by rfl, fun _ => by rfl⟩ (.modThrs _ _ _ ?_)
    intro t x; cases x with | mk live gpr preds pc srCtr held block pend mems writes redSent redSkip => cases block <;> rfl
  · show SameRegs _ (grp (setGrp k' g _) h)
    rw [grp_setGrp_other _ _ hh]; exact .rfl

/-! ## The counting of an issue -/

theorem countFixed_eq (s : State) (c id n : Nat) : countFixed s c id n = { s with pmc := (countFixed s c id n).pmc } := by
  unfold countFixed bump State.setCount; split
  · split <;> rfl
  · rfl

@[simp] theorem countFixed_core (s : State) (c id n d : Nat) : (countFixed s c id n).core d = s.core d := by
  rw [countFixed_eq]; rfl

theorem noGroups_countSlot (k : Core) (g : Nat) (m : Word) :
    noGroups (countSlot k g m) = { noGroups k with slots := k.slots + 1 } := by
  unfold countSlot
  dsimp only
  have key : ∀ (gs : List Nat) (k : Core), noGroups (gs.foldl (fun k h => if h = g then k else
      setGrp k h { grp k h with unsel := (grp k h).unsel + 1 }) k) = noGroups k := by
    intro gs
    induction gs with
    | nil => intro k; rfl
    | cons a gs ih => intro k; simp only [List.foldl_cons]; rw [ih]; split <;> rfl
  have h := key (heldGroups k) k
  generalize List.foldl _ k _ = k' at h ⊢
  have hs : k'.slots = k.slots := show (noGroups k').slots = (noGroups k).slots from congrArg Core.slots h
  show { noGroups k' with slots := k'.slots + 1 } = _
  rw [h, hs]

theorem meterCompute_eq (l : Option (Cost × Cost)) (n : Nat) (k : Core) :
    ∃ m g e, meterCompute l n k = { k with meters := m, seg := g, ext := e } := by
  unfold meterCompute
  split
  · exact ⟨k.meters, k.seg, _, by rfl⟩
  · exact ⟨_, _, k.ext, by rfl⟩

theorem counted_core (s : State) (i : Ctx) : ∃ m g e, (counted s i).core i.c =
    { countSlot (mergeCore (s.core i.c)) i.g i.mask with meters := m, seg := g, ext := e } := by
  unfold counted
  simp only [countFixed_core]
  unfold tickCompute
  rw [core_modCore_same, countFixed_core, core_setCore_same]
  exact meterCompute_eq _ _ _

/-- Counting leaves every register of every group alone. -/
theorem counted_regs (s : State) (i : Ctx) (g : Nat) : SameRegs (grpOf s i.c g) (grpOf (counted s i) i.c g) := by
  obtain ⟨m, gg, e, h⟩ := counted_core s i
  have h1 : grp ((counted s i).core i.c) g = grp (countSlot (mergeCore (s.core i.c)) i.g i.mask) g := by rw [h]; rfl
  unfold grpOf
  rw [h1]
  exact (sameRegs_mergeCore _ g).trans (sameRegs_countSlot _ _ _ g)

theorem counted_onlyGroups (s : State) (i : Ctx) : OnlyGroups s (counted s i) i.c := by
  obtain ⟨m, g, e, h⟩ := counted_core s i
  unfold OnlyGroups
  rw [h]
  have h1 := noGroups_countSlot (mergeCore (s.core i.c)) i.g i.mask
  rw [noGroups_mergeCore] at h1
  generalize countSlot (mergeCore (s.core i.c)) i.g i.mask = k at h1 ⊢
  cases k; cases hk : s.core i.c
  simp only [noGroups, hk] at h1
  simp_all

theorem counted_onlyCore (s : State) (i : Ctx) : OnlyCore s (counted s i) i.c := by
  constructor
  · unfold counted
    rw [countFixed_eq, countFixed_eq (tickCompute _ _ _)]
    unfold tickCompute
    rw [countFixed_eq]
    rfl
  · intro d h
    unfold counted
    simp only [countFixed_core, tickCompute]
    rw [core_modCore_other _ _ h, countFixed_core, core_setCore_other _ _ h]

theorem OnlyCore.trans {a b c : State} {d : Nat} (h : OnlyCore a b d) (k : OnlyCore b c d) : OnlyCore a c d :=
  ⟨by rw [k.1, h.1], fun e he => (k.2 e he).trans (h.2 e he)⟩

theorem OnlyGroups.trans {a b c : State} {d : Nat} (h : OnlyGroups a b d) (k : OnlyGroups b c d) : OnlyGroups a c d := by
  unfold OnlyGroups at *; rw [k, h]

/-! ## The instruction cache (R16, R109) -/

theorem countSel_pmc (s : State) (block i code n : Nat) (d : Dims) (m : Nat) :
    ∃ p, countSel s block i code n d m = { s with pmc := p } := by
  unfold countSel
  split
  · exact ⟨s.pmc, by rfl⟩
  · dsimp only
    split <;> exact ⟨_, by rfl⟩

/-- Counting an event changes the performance counters alone. -/
theorem countEvent_pmc (s : State) (block i code n : Nat) (d : Dims) : ∃ p, countEvent s block i code n d = { s with pmc := p } := by
  unfold countEvent
  split
  · exact ⟨s.pmc, by rfl⟩
  · generalize List.range (progCount block) = ms
    have key : ∀ s : State, ∃ p, ms.foldl (fun s m => countSel s block i code n d m) s = { s with pmc := p } := by
      induction ms with
      | nil => exact fun s => ⟨s.pmc, by rfl⟩
      | cons m ms ih =>
        intro s
        obtain ⟨p, hp⟩ := ih (countSel s block i code n d m)
        obtain ⟨q, hq⟩ := countSel_pmc s block i code n d m
        exact ⟨p, hp.trans (by rw [hq])⟩
    exact key s

theorem countCore_core (s : State) (c id n : Nat) (adr : Option Nat) (d : Nat) : (countCore s c id n adr).core d = s.core d := by
  unfold countCore; obtain ⟨p, h⟩ := countEvent_pmc s 0 c id n (coreDims s c adr); rw [h]; rfl

theorem countCore_onlyCore (s : State) (c id n : Nat) (adr : Option Nat) (d : Nat) : OnlyCore s (countCore s c id n adr) d :=
  ⟨by unfold countCore; obtain ⟨p, h⟩ := countEvent_pmc s 0 c id n (coreDims s c adr); rw [h], fun _ _ => countCore_core ..⟩

/-- A fetch changes the instruction cache of its core and a performance counter, nothing else. -/
theorem icFetch_core (s : State) (i : Ctx) : ∃ l, (icFetch s i).core i.c = { s.core i.c with icache := l } := by
  unfold icFetch
  split
  · exact ⟨(s.core i.c).icache, by rfl⟩
  · dsimp only
    have h : ∀ s' : State, (if icHit s i = true then s else countCore s i.c 0x05 1 none) = s' → s'.core i.c = s.core i.c := by
      intro s' h; subst h; split
      · rfl
      · exact countCore_core ..
    generalize hs : (if icHit s i = true then s else countCore s i.c 0x05 1 none) = s'
    split
    · exact ⟨(s.core i.c).icache, h s' hs⟩
    · exact ⟨_, by rw [core_modCore_same, h s' hs]⟩

theorem icFetch_onlyCore (s : State) (i : Ctx) : OnlyCore s (icFetch s i) i.c := by
  unfold icFetch
  split
  · exact ⟨by rfl, fun _ _ => by rfl⟩
  · dsimp only
    have h : OnlyCore s (if icHit s i = true then s else countCore s i.c 0x05 1 none) i.c := by
      split
      · exact ⟨by rfl, fun _ _ => by rfl⟩
      · exact countCore_onlyCore ..
    generalize (if icHit s i = true then s else countCore s i.c 0x05 1 none) = s' at h ⊢
    split
    · exact h
    · refine h.trans ⟨by rfl, fun d hd => core_modCore_other _ _ hd⟩

theorem icFetch_onlyGroups (s : State) (i : Ctx) : OnlyGroups s (icFetch s i) i.c := by
  obtain ⟨l, h⟩ := icFetch_core s i
  unfold OnlyGroups; rw [h]

/-- The slot of an issue leaves every register of every group alone. -/
theorem slotted_regs (s : State) (i : Ctx) (g : Nat) : SameRegs (grpOf s i.c g) (grpOf (slotted s i) i.c g) := by
  obtain ⟨l, h⟩ := icFetch_core s i
  have h1 : grpOf (icFetch s i) i.c g = grpOf s i.c g := by unfold grpOf; rw [h]; rfl
  exact h1 ▸ counted_regs (icFetch s i) i g

theorem slotted_onlyCore (s : State) (i : Ctx) : OnlyCore s (slotted s i) i.c :=
  (icFetch_onlyCore s i).trans (counted_onlyCore _ i)

theorem slotted_onlyGroups (s : State) (i : Ctx) : OnlyGroups s (slotted s i) i.c :=
  (icFetch_onlyGroups s i).trans (counted_onlyGroups _ i)

/-! ## An issue that passes its checks -/

/-- An instruction that issues with a legal word acts on the state after its slot is counted. -/
theorem issue_legal {s : State} {x : Site} {w : Word64} {regs preds : List Nat} {i : Ctx} (h : Issues s x w regs preds i)
    (body : State → Ctx → State) : issue s x w regs preds true body = body (slotted s i) i := by
  obtain ⟨h1, h2, h3, h4⟩ := h
  unfold issue
  rw [h1, h4]
  simp [arrayCheck, Nat.not_le.2 h2, h3]

end Sys2Proof.Machine
end

