-- ==== Sys2Proof/Laws/PerInstr.lean ====
section
/-! SUPPORT. Statements about every command as syntax, one lemma per constructor. -/

namespace Sys2Proof.Laws.Wf

open Sys2Proof.Machine

/-- A well-formed command's word that some row lists is in its own row's class and format (R148). -/
def Statement (i : Instr) : Prop :=
  i.wf = true → ∀ r, i.row = some r → listedWord r.2.2 = true → isClass r.1 r.2.2 = true

theorem of_row (i : Instr) : Statement i := by
  intro h r hr hl
  simp only [Instr.wf, Bool.and_eq_true, hr, Option.all_some] at h
  obtain ⟨h, -⟩ := h
  simp only [rowWord, wordOk, hl, Bool.not_true, Bool.or_false] at h
  split at h
  · exact h
  · simp only [isRow, Bool.and_eq_true] at h; exact h.1

theorem ialu (x : Site) (op : (Option IaluOp)) (w : Word64) : Statement (.ialu x op w) := of_row _
theorem ialui (x : Site) (op : (Option IaluOp)) (signed : Bool) (w : Word64) : Statement (.ialui x op signed w) := of_row _
theorem idiv (x : Site) (op : (Option IdivOp)) (w : Word64) : Statement (.idiv x op w) := of_row _
theorem falu (x : Site) (op : (Option FaluOp)) (w : Word64) : Statement (.falu x op w) := of_row _
theorem falui (x : Site) (op : (Option FaluOp)) (w : Word64) : Statement (.falui x op w) := of_row _
theorem fspec (x : Site) (op : (Option FspecOp)) (w : Word64) : Statement (.fspec x op w) := of_row _
theorem cmp (x : Site) (op : (Option CmpOp)) (w : Word64) : Statement (.cmp x op w) := of_row _
theorem cmpi (x : Site) (op : (Option CmpOp)) (signed : Bool) (w : Word64) : Statement (.cmpi x op signed w) := of_row _
theorem cvt (x : Site) (listed : Bool) (w : Word64) : Statement (.cvt x listed w) := of_row _
theorem mxq (x : Site) (listed : Bool) (w : Word64) : Statement (.mxq x listed w) := of_row _
theorem pred (x : Site) (op : (Option PredOp)) (w : Word64) : Statement (.pred x op w) := of_row _
theorem xlane (x : Site) (op : (Option XlaneOp)) (w : Word64) : Statement (.xlane x op w) := of_row _
theorem move (x : Site) (op : (Option MoveOp)) (w : Word64) : Statement (.move x op w) := of_row _
theorem moviMov (x : Site) (w : Word64) : Statement (.moviMov x w) := of_row _
theorem moviMovh (x : Site) (w : Word64) : Statement (.moviMovh x w) := of_row _
theorem srkeyLoI (x : Site) (w : Word64) : Statement (.srkeyLoI x w) := of_row _
theorem srkeyHiI (x : Site) (w : Word64) : Statement (.srkeyHiI x w) := of_row _
theorem srkeyLoG (x : Site) (w : Word64) : Statement (.srkeyLoG x w) := of_row _
theorem srkeyHiG (x : Site) (w : Word64) : Statement (.srkeyHiG x w) := of_row _
theorem ldstLLd (x : Site) (w : Word64) : Statement (.ldstLLd x w) := of_row _
theorem ldstLLdS (x : Site) (w : Word64) : Statement (.ldstLLdS x w) := of_row _
theorem ldstLSt (x : Site) (w : Word64) : Statement (.ldstLSt x w) := of_row _
theorem ldstGLd (x : Site) (w : Word64) : Statement (.ldstGLd x w) := of_row _
theorem ldstGLdS (x : Site) (w : Word64) : Statement (.ldstGLdS x w) := of_row _
theorem ldstGSt (x : Site) (w : Word64) : Statement (.ldstGSt x w) := of_row _
theorem atomAdd (x : Site) (w : Word64) : Statement (.atomAdd x w) := of_row _
theorem atomFadd (x : Site) (w : Word64) : Statement (.atomFadd x w) := of_row _
theorem atomMinS (x : Site) (w : Word64) : Statement (.atomMinS x w) := of_row _
theorem atomMinU (x : Site) (w : Word64) : Statement (.atomMinU x w) := of_row _
theorem atomMaxS (x : Site) (w : Word64) : Statement (.atomMaxS x w) := of_row _
theorem atomMaxU (x : Site) (w : Word64) : Statement (.atomMaxU x w) := of_row _
theorem atomAnd (x : Site) (w : Word64) : Statement (.atomAnd x w) := of_row _
theorem atomOr (x : Site) (w : Word64) : Statement (.atomOr x w) := of_row _
theorem atomXor (x : Site) (w : Word64) : Statement (.atomXor x w) := of_row _
theorem atomExch (x : Site) (w : Word64) : Statement (.atomExch x w) := of_row _
theorem atomCas (x : Site) (w : Word64) : Statement (.atomCas x w) := of_row _
theorem lockAcqL (x : Site) (w : Word64) : Statement (.lockAcqL x w) := of_row _
theorem lockAcqG (x : Site) (w : Word64) : Statement (.lockAcqG x w) := of_row _
theorem lockRelL (x : Site) (w : Word64) : Statement (.lockRelL x w) := of_row _
theorem lockRelG (x : Site) (w : Word64) : Statement (.lockRelG x w) := of_row _
theorem lockWake (core : CoreId) (addr : Nat) : Statement (.lockWake core addr) := of_row _
theorem lockRetry (core : CoreId) (addr : Nat) : Statement (.lockRetry core addr) := of_row _
theorem fenceW (x : Site) (w : Word64) : Statement (.fenceW x w) := of_row _
theorem fenceA (x : Site) (w : Word64) : Statement (.fenceA x w) := of_row _
theorem fenceAw (x : Site) (w : Word64) : Statement (.fenceAw x w) := of_row _
theorem bra (x : Site) (w : Word64) : Statement (.bra x w) := of_row _
theorem brx (x : Site) (w : Word64) : Statement (.brx x w) := of_row _
theorem nop (x : Site) (w : Word64) : Statement (.nop x w) := of_row _
theorem exit (x : Site) (w : Word64) : Statement (.exit x w) := of_row _
theorem barG (x : Site) (w : Word64) : Statement (.barG x w) := of_row _
theorem barT (x : Site) (w : Word64) : Statement (.barT x w) := of_row _
theorem wait (x : Site) (w : Word64) : Statement (.wait x w) := of_row _
theorem pmcRead (x : Site) (w : Word64) : Statement (.pmcRead x w) := of_row _
theorem mma (x : Site) (w : Word64) : Statement (.mma x w) := of_row _
theorem attend (x : Site) (w : Word64) : Statement (.attend x w) := of_row _
theorem append (x : Site) (w : Word64) : Statement (.append x w) := of_row _
theorem xfer (x : Site) (w : Word64) : Statement (.xfer x w) := of_row _
theorem reduce (x : Site) (w : Word64) : Statement (.reduce x w) := of_row _
theorem pin (x : Site) (w : Word64) : Statement (.pin x w) := of_row _
theorem unpin (x : Site) (w : Word64) : Statement (.unpin x w) := of_row _
theorem groupOverdue (core : CoreId) (group : (Fin 16)) : Statement (.groupOverdue core group) := of_row _
theorem joinTimeout (core : CoreId) (group : (Fin 16)) (thread : (Fin 32)) : Statement (.joinTimeout core group thread) := of_row _
theorem barrierSplit (core : CoreId) (scope : BarScope) : Statement (.barrierSplit core scope) := of_row _
theorem loadResponse (core : CoreId) : Statement (.loadResponse core) := of_row _
theorem writeAck (core : CoreId) : Statement (.writeAck core) := of_row _
theorem mmaStart (core : CoreId) : Statement (.mmaStart core) := of_row _
theorem mmaLastProduct (read : CoreRead) : Statement (.mmaLastProduct read) := of_row _
theorem drainStart (core : CoreId) (fault : (Option GridFault)) : Statement (.drainStart core fault) := of_row _
theorem drainComplete (core : CoreId) (mismatch : Bool) : Statement (.drainComplete core mismatch) := of_row _
theorem burstEnd (unit : LoadUnit) : Statement (.burstEnd unit) := of_row _
theorem gridStop (unit : LoadUnit) : Statement (.gridStop unit) := of_row _
theorem loadNotice (unit : LoadUnit) : Statement (.loadNotice unit) := of_row _
theorem loadNoticeAck (unit : LoadUnit) : Statement (.loadNoticeAck unit) := of_row _
theorem preRaiseReturn (cluster : ClusterId) : Statement (.preRaiseReturn cluster) := of_row _
theorem xferStart (core : CoreId) : Statement (.xferStart core) := of_row _
theorem xferComplete (read : CoreRead) (seq : Nat) : Statement (.xferComplete read seq) := of_row _
theorem attnQuantum (read : ClusterRead) : Statement (.attnQuantum read) := of_row _
theorem attendComplete (core : CoreId) (mismatch : Bool) : Statement (.attendComplete core mismatch) := of_row _
theorem appendWriteAck (core : CoreId) (mismatch : Bool) : Statement (.appendWriteAck core mismatch) := of_row _
theorem attnEngineFault (cluster : ClusterId) (fault : GridFault) : Statement (.attnEngineFault cluster fault) := of_row _
theorem attnSelfTestComplete (cluster : ClusterId) (pass : Bool) : Statement (.attnSelfTestComplete cluster pass) := of_row _
theorem llcAccess (half : HalfId) (ecc : EccRes) : Statement (.llcAccess half ecc) := of_row _
theorem llcFillComplete (line : Nat) (ecc : EccRes) (victim : EccRes) : Statement (.llcFillComplete line ecc victim) := of_row _
theorem reductionEntryApplied (half : HalfId) (read : BankRead) : Statement (.reductionEntryApplied half read) := of_row _
theorem mergeEntryTimeout (half : HalfId) (group : (Fin 32)) (ecc : EccRes) : Statement (.mergeEntryTimeout half group ecc) := of_row _
theorem correctedRewrite (addr : Nat) : Statement (.correctedRewrite addr) := of_row _
theorem residentRebuild (addr : Nat) : Statement (.residentRebuild addr) := of_row _
theorem rowSpared (half : HalfId) (bank : (Fin 256)) (row : MatRow) (pass : Bool) : Statement (.rowSpared half bank row pass) := of_row _
theorem colSpared (half : HalfId) (bank : (Fin 256)) (mat : (Fin 16)) (bit : (Fin 576)) : Statement (.colSpared half bank mat bit) := of_row _
theorem hbmRowSpared (stack : (Fin 8)) (addr : Nat) : Statement (.hbmRowSpared stack addr) := of_row _
theorem bundleParityError (tower : TowerId) (layer : (Fin 2)) (bundle : (Fin 12288)) : Statement (.bundleParityError tower layer bundle) := of_row _
theorem controlCopyDisagree (tower : TowerId) (layer : (Fin 2)) (bundle : (Fin 12288)) : Statement (.controlCopyDisagree tower layer bundle) := of_row _
theorem bundleTestComplete (tower : TowerId) (layer : (Fin 2)) (bundle : (Fin 12288)) (lanes : (List (Fin 39))) : Statement (.bundleTestComplete tower layer bundle lanes) := of_row _
theorem repairPauseStart  : Statement (.repairPauseStart) := of_row _
theorem repairPauseEnd  : Statement (.repairPauseEnd) := of_row _
theorem bankWritebackComplete (tower : TowerId) (bank : (Fin 512)) : Statement (.bankWritebackComplete tower bank) := of_row _
theorem vbankRetired (tower : TowerId) (bank : (Fin 512)) : Statement (.vbankRetired tower bank) := of_row _
theorem recalibration (tower : TowerId) (cause : (Fin 3)) (regions : (List (Fin 48 × Fin 16 × Nat × Fin 256))) : Statement (.recalibration tower cause regions) := of_row _
theorem marginNarrowApply (tower : TowerId) (region : (Fin 48)) : Statement (.marginNarrowApply tower region) := of_row _
theorem monitorSample (mons : (List (Fin 512 × Fin 512 × Fin 512))) (ioMons : (List (Fin 16 × Fin 512 × Fin 512))) (amps : (List (Fin 64 × Fin 4096))) (input : (Fin 4096)) (vin : (Fin 256)) : Statement (.monitorSample mons ioMons amps input vin) := of_row _
theorem sensorFailed (monitor : (Fin 528)) : Statement (.sensorFailed monitor) := of_row _
theorem sensorSuspect (tower : TowerId) : Statement (.sensorSuspect tower) := of_row _
theorem bandRiseDelayed (die : DieId) : Statement (.bandRiseDelayed die) := of_row _
theorem bandFall (die : DieId) : Statement (.bandFall die) := of_row _
theorem setpointSettled (cluster : ClusterId) : Statement (.setpointSettled cluster) := of_row _
theorem ivrPhaseFailed (domain : (Fin 78)) (phase : (Fin 16)) : Statement (.ivrPhaseFailed domain phase) := of_row _
theorem pathCheck (domain : (Fin 78)) (drop : Nat) (expected : Nat) : Statement (.pathCheck domain drop expected) := of_row _
theorem pathStateChange (domain : (Fin 78)) : Statement (.pathStateChange domain) := of_row _
theorem senseRouteFailure (domain : (Fin 78)) (route : (Fin 2)) : Statement (.senseRouteFailure domain route) := of_row _
theorem converterFailed (unit : (Fin 4)) (plan : (List (List Nat))) : Statement (.converterFailed unit plan) := of_row _
theorem vvmFailed (unit : (Fin 16)) (plan : (List (List Nat))) : Statement (.vvmFailed unit plan) := of_row _
theorem domainOvercurrent (domain : (Fin 78)) : Statement (.domainOvercurrent domain) := of_row _
theorem inputOvervoltage  : Statement (.inputOvervoltage) := of_row _
theorem overvoltageRestart (train : HostTrain) : Statement (.overvoltageRestart train) := of_row _
theorem undervoltageLockout  : Statement (.undervoltageLockout) := of_row _
theorem undervoltageRestart (train : HostTrain) : Statement (.undervoltageRestart train) := of_row _
theorem powerApplied (train : HostTrain) : Statement (.powerApplied train) := of_row _
theorem inrushGrant (tower : TowerId) : Statement (.inrushGrant tower) := of_row _
theorem clusterReady (cluster : ClusterId) : Statement (.clusterReady cluster) := of_row _
theorem lightIdleEntry (cluster : ClusterId) : Statement (.lightIdleEntry cluster) := of_row _
theorem targetEffective (plan : (List (List Nat))) : Statement (.targetEffective plan) := of_row _
theorem curtailEnter (plan : (List (List Nat))) : Statement (.curtailEnter plan) := of_row _
theorem curtailExit (plan : (List (List Nat))) : Statement (.curtailExit plan) := of_row _
theorem powerStateEntry  : Statement (.powerStateEntry) := of_row _
theorem classSample  : Statement (.classSample) := of_row _
theorem epochEnd  : Statement (.epochEnd) := of_row _
theorem arbiterGrant (arbiter : ArbiterId) (credits : (Fin 16)) (arrivals : (List Arrival)) : Statement (.arbiterGrant arbiter credits arrivals) := of_row _
theorem mark (arbiter : ArbiterId) : Statement (.mark arbiter) := of_row _
theorem rateRecovery (master : MasterId) (cls : ClassId) : Statement (.rateRecovery master cls) := of_row _
theorem latencyWindowEmpty (arbiter : ArbiterId) (cls : ClassId) : Statement (.latencyWindowEmpty arbiter cls) := of_row _
theorem doorbell (word : Word64) : Statement (.doorbell word) := of_row _
theorem completionHeadDoorbell (word : Word64) : Statement (.completionHeadDoorbell word) := of_row _
theorem remoteDoorbell (module : (Fin 64)) (head : Bool) (word : Word64) : Statement (.remoteDoorbell module head word) := of_row _
theorem admissionDecision (stall : Bool) : Statement (.admissionDecision stall) := of_row _
theorem descriptorReadComplete (bytes : (List Byte)) (poison : Bool) : Statement (.descriptorReadComplete bytes poison) := of_row _
theorem descriptorReadTimeout  : Statement (.descriptorReadTimeout) := of_row _
theorem taskDispatch (task : Nat) : Statement (.taskDispatch task) := of_row _
theorem taskBoundary (core : CoreId) (errs : (List (Nat × Flaw))) (ecc : EccRes) : Statement (.taskBoundary core errs ecc) := of_row _
theorem taskEnd (task : Nat) (stall : Bool) : Statement (.taskEnd task stall) := of_row _
theorem completionStallTimeout (queue : (Fin 1048576)) : Statement (.completionStallTimeout queue) := of_row _
theorem spillMove  : Statement (.spillMove) := of_row _
theorem meterExceeded (core : CoreId) (elapsed : Nat) : Statement (.meterExceeded core elapsed) := of_row _
theorem segmentLimitExceeded (core : CoreId) (elapsed : Nat) : Statement (.segmentLimitExceeded core elapsed) := of_row _
theorem rerun (task : Nat) : Statement (.rerun task) := of_row _
theorem coreFault (core : CoreId) : Statement (.coreFault core) := of_row _
theorem replayEvent (task : Nat) (lost : (List Nat)) : Statement (.replayEvent task lost) := of_row _
theorem fenceComplete (core : CoreId) : Statement (.fenceComplete core) := of_row _
theorem restoreComplete (core : CoreId) : Statement (.restoreComplete core) := of_row _
theorem checkpointWriteComplete (core : CoreId) : Statement (.checkpointWriteComplete core) := of_row _
theorem reservationMove (task : Nat) (rank : Nat) : Statement (.reservationMove task rank) := of_row _
theorem gridSelfTestComplete (core : CoreId) (rows : (List (Fin 65))) (cols : (List (Fin 65))) (other : Bool) : Statement (.gridSelfTestComplete core rows cols other) := of_row _
theorem gridSpared (core : CoreId) : Statement (.gridSpared core) := of_row _
theorem clusterReset (cluster : ClusterId) : Statement (.clusterReset cluster) := of_row _
theorem clusterResetComplete (cluster : ClusterId) : Statement (.clusterResetComplete cluster) := of_row _
theorem watchdogTrip (proc : ProcId) (detail : Word64) (stack : Nat) : Statement (.watchdogTrip proc detail stack) := of_row _
theorem procRestartCounted (proc : ProcId) (cause : RestartCause) (detail : Word64) (stack : Nat) : Statement (.procRestartCounted proc cause detail stack) := of_row _
theorem procRunning (proc : ProcId) (pass : Bool) (other : Bool) (key : Bool) : Statement (.procRunning proc pass other key) := of_row _
theorem selfCheckPassed (proc : ProcId) : Statement (.selfCheckPassed proc) := of_row _
theorem activationFailed (proc : ProcId) : Statement (.activationFailed proc) := of_row _
theorem writeWindowOpen (resource : (Fin 4)) : Statement (.writeWindowOpen resource) := of_row _
theorem jobEnd (job : Word) (failed : Bool) (detail : Word) : Statement (.jobEnd job failed detail) := of_row _
theorem jobExpiry (job : Word) : Statement (.jobExpiry job) := of_row _
theorem identify (mbx : MbxId) (irq : Bool) (req : (List Byte)) : Statement (.identify mbx irq req) := of_row _
theorem getVersion (mbx : MbxId) (irq : Bool) (req : (List Byte)) : Statement (.getVersion mbx irq req) := of_row _
theorem openSession (mbx : MbxId) (irq : Bool) (req : (List Byte)) : Statement (.openSession mbx irq req) := of_row _
theorem closeSession (mbx : MbxId) (irq : Bool) (req : (List Byte)) : Statement (.closeSession mbx irq req) := of_row _
theorem jobStatus (mbx : MbxId) (irq : Bool) (req : (List Byte)) (progress : (Fin 1001)) : Statement (.jobStatus mbx irq req progress) := of_row _
theorem lock (mbx : MbxId) (irq : Bool) (req : (List Byte)) : Statement (.lock mbx irq req) := of_row _
theorem unlock (mbx : MbxId) (irq : Bool) (req : (List Byte)) : Statement (.unlock mbx irq req) := of_row _
theorem registerProgram (mbx : MbxId) (irq : Bool) (req : (List Byte)) : Statement (.registerProgram mbx irq req) := of_row _
theorem withdrawProgram (mbx : MbxId) (irq : Bool) (req : (List Byte)) : Statement (.withdrawProgram mbx irq req) := of_row _
theorem loadContext (mbx : MbxId) (irq : Bool) (req : (List Byte)) : Statement (.loadContext mbx irq req) := of_row _
theorem unloadContext (mbx : MbxId) (irq : Bool) (req : (List Byte)) : Statement (.unloadContext mbx irq req) := of_row _
theorem loadGranules (mbx : MbxId) (irq : Bool) (req : (List Byte)) : Statement (.loadGranules mbx irq req) := of_row _
theorem queueCreate (mbx : MbxId) (irq : Bool) (req : (List Byte)) : Statement (.queueCreate mbx irq req) := of_row _
theorem queueModify (mbx : MbxId) (irq : Bool) (req : (List Byte)) : Statement (.queueModify mbx irq req) := of_row _
theorem queueReset (mbx : MbxId) (irq : Bool) (req : (List Byte)) : Statement (.queueReset mbx irq req) := of_row _
theorem queueDelete (mbx : MbxId) (irq : Bool) (req : (List Byte)) : Statement (.queueDelete mbx irq req) := of_row _
theorem queueQuery (mbx : MbxId) (irq : Bool) (req : (List Byte)) : Statement (.queueQuery mbx irq req) := of_row _
theorem scrub (mbx : MbxId) (irq : Bool) (req : (List Byte)) : Statement (.scrub mbx irq req) := of_row _
theorem computeReset (mbx : MbxId) (irq : Bool) (req : (List Byte)) : Statement (.computeReset mbx irq req) := of_row _
theorem towerReset (mbx : MbxId) (irq : Bool) (req : (List Byte)) : Statement (.towerReset mbx irq req) := of_row _
theorem towerReady (tower : TowerId) (train : Training) (suspect : Bool) : Statement (.towerReady tower train suspect) := of_row _
theorem moduleReset (mbx : MbxId) (irq : Bool) (req : (List Byte)) : Statement (.moduleReset mbx irq req) := of_row _
theorem powerStateRun (mbx : MbxId) (irq : Bool) (rest : (List Byte)) : Statement (.powerStateRun mbx irq rest) := of_row _
theorem powerStateDi (mbx : MbxId) (irq : Bool) (rest : (List Byte)) : Statement (.powerStateDi mbx irq rest) := of_row _
theorem powerStateSb (mbx : MbxId) (irq : Bool) (rest : (List Byte)) : Statement (.powerStateSb mbx irq rest) := of_row _
theorem powerTarget (mbx : MbxId) (irq : Bool) (req : (List Byte)) (plan : (List (List Nat))) : Statement (.powerTarget mbx irq req plan) := of_row _
theorem powerQuery (mbx : MbxId) (irq : Bool) (req : (List Byte)) : Statement (.powerQuery mbx irq req) := of_row _
theorem licenceInstall (mbx : MbxId) (irq : Bool) (req : (List Byte)) : Statement (.licenceInstall mbx irq req) := of_row _
theorem licenceList (mbx : MbxId) (irq : Bool) (req : (List Byte)) : Statement (.licenceList mbx irq req) := of_row _
theorem attest (mbx : MbxId) (irq : Bool) (req : (List Byte)) : Statement (.attest mbx irq req) := of_row _
theorem dumpRead (mbx : MbxId) (irq : Bool) (req : (List Byte)) : Statement (.dumpRead mbx irq req) := of_row _
theorem dumpClear (mbx : MbxId) (irq : Bool) (req : (List Byte)) : Statement (.dumpClear mbx irq req) := of_row _
theorem procRestart (mbx : MbxId) (irq : Bool) (req : (List Byte)) : Statement (.procRestart mbx irq req) := of_row _
theorem updateBegin (mbx : MbxId) (irq : Bool) (req : (List Byte)) : Statement (.updateBegin mbx irq req) := of_row _
theorem updateWrite (mbx : MbxId) (irq : Bool) (req : (List Byte)) : Statement (.updateWrite mbx irq req) := of_row _
theorem updateVerify (mbx : MbxId) (irq : Bool) (req : (List Byte)) : Statement (.updateVerify mbx irq req) := of_row _
theorem updateActivate (mbx : MbxId) (irq : Bool) (req : (List Byte)) : Statement (.updateActivate mbx irq req) := of_row _
theorem updateAbort (mbx : MbxId) (irq : Bool) (req : (List Byte)) : Statement (.updateAbort mbx irq req) := of_row _
theorem targetUnreachable (mbx : (Fin 16)) : Statement (.targetUnreachable mbx) := of_row _
theorem registerWrite (iface : Iface) (off : Nat) (value : Word) : Statement (.registerWrite iface off value) := of_row _
theorem admTickLoRead (iface : Iface) : Statement (.admTickLoRead iface) := of_row _
theorem pwrPtickLoRead (iface : Iface) : Statement (.pwrPtickLoRead iface) := of_row _
theorem llcRescfgWrite (iface : Iface) (value : Word) : Statement (.llcRescfgWrite iface value) := of_row _
theorem rescfgApplied  : Statement (.rescfgApplied) := of_row _
theorem llcPlaceWrite (iface : Iface) (e : (Fin 16)) (attr : Bool) (value : Word) : Statement (.llcPlaceWrite iface e attr value) := of_row _
theorem eccRgnRngWrite (iface : Iface) (e : (Fin 64)) (value : Word) : Statement (.eccRgnRngWrite iface e value) := of_row _
theorem eccRgnAttrWrite (iface : Iface) (e : (Fin 64)) (value : Word) : Statement (.eccRgnAttrWrite iface e value) := of_row _
theorem regionApplied (bad : (List Nat)) : Statement (.regionApplied bad) := of_row _
theorem eccCclrWrite (value : Word) : Statement (.eccCclrWrite value) := of_row _
theorem admClmaskWrite (iface : Iface) (cls : ClassId) (hi : Bool) (value : Word) : Statement (.admClmaskWrite iface cls hi value) := of_row _
theorem admCcfgWrite (iface : Iface) (cls : ClassId) (value : Word) : Statement (.admCcfgWrite iface cls value) := of_row _
theorem admCoverWrite (iface : Iface) (hi : Bool) (value : Word) : Statement (.admCoverWrite iface hi value) := of_row _
theorem biasToHost (count : (Fin 262144)) : Statement (.biasToHost count) := of_row _
theorem biasToDevice (count : (Fin 262144)) : Statement (.biasToDevice count) := of_row _
theorem biasCommandComplete  : Statement (.biasCommandComplete) := of_row _
theorem retrain (iface : Iface) (link : (Fin 8)) : Statement (.retrain iface link) := of_row _
theorem linkDisable (iface : Iface) (link : (Fin 8)) (on : Bool) : Statement (.linkDisable iface link on) := of_row _
theorem mbxDstatClear (value : Word) : Statement (.mbxDstatClear value) := of_row _
theorem freeze (on : Bool) (occs : (List PmcOcc)) : Statement (.freeze on occs) := of_row _
theorem pmcRingcfgWrite (iface : Iface) (value : Word) : Statement (.pmcRingcfgWrite iface value) := of_row _
theorem pmcCounterHiWrite (off : Nat) (value : Word) : Statement (.pmcCounterHiWrite off value) := of_row _
theorem pmcCounterLoWrite (off : Nat) (value : Word) : Statement (.pmcCounterLoWrite off value) := of_row _
theorem pmcCounterLoRead (iface : Iface) (off : Nat) (occs : (List PmcOcc)) : Statement (.pmcCounterLoRead iface off occs) := of_row _
theorem dumpInterval (occs : (List PmcOcc)) (late : (List (Fin 4 × Nat))) : Statement (.dumpInterval occs late) := of_row _
theorem bandwidthWindowEnd (occs : (List PmcOcc)) : Statement (.bandwidthWindowEnd occs) := of_row _
theorem counterWrap (core : CoreId) (m : (Fin 8)) (group : (Fin 16)) (pc : (Option Word)) (skid : (Fin 9)) (spaced : Bool) : Statement (.counterWrap core m group pc skid spaced) := of_row _
theorem bar2Read (off : (Fin 1073741824)) (n : Nat) (ecc : EccRes) : Statement (.bar2Read off n ecc) := of_row _
theorem bar2Write (off : (Fin 1073741824)) (data : (List Byte)) (poison : Bool) : Statement (.bar2Write off data poison) := of_row _
theorem cxlMemRead (addr : Nat) (n : Nat) (ecc : EccRes) : Statement (.cxlMemRead addr n ecc) := of_row _
theorem cxlMemWrite (addr : Nat) (data : (List Byte)) (poison : Bool) : Statement (.cxlMemWrite addr data poison) := of_row _
theorem hostRequestError (kind : HostErr) : Statement (.hostRequestError kind) := of_row _
theorem configRequest (req : CfgReq) (retry : Bool) : Statement (.configRequest req retry) := of_row _
theorem viral  : Statement (.viral) := of_row _
theorem msixUnmask (vector : (Fin 2048)) : Statement (.msixUnmask vector) := of_row _
theorem perstAssert  : Statement (.perstAssert) := of_row _
theorem perstDeassert (modId : (Fin 64)) (train : HostTrain) : Statement (.perstDeassert modId train) := of_row _
theorem ready (boot : BringUp) : Statement (.ready boot) := of_row _
theorem hotReset (linkDisable : Bool) (train : HostTrain) : Statement (.hotReset linkDisable train) := of_row _
theorem cxlReset (memClear : Bool) : Statement (.cxlReset memClear) := of_row _
theorem d3hot (enter : Bool) : Statement (.d3hot enter) := of_row _
theorem frameReceived (link : (Fin 8)) (fseq : (Fin 4096)) (ack : (Fin 4096)) (hold : Bool) (good : Bool) (flits : (List (Fin 4 × Fin 21))) (crClass : (Fin 4)) (crCount : (Fin 1024)) : Statement (.frameReceived link fseq ack hold good flits crClass crCount) := of_row _
theorem nak (link : (Fin 8)) (ack : (Fin 4096)) : Statement (.nak link ack) := of_row _
theorem rd (link : (Fin 8)) (msg : LMsg) (flaw : (Fin 8)) (ecc : EccRes) : Statement (.rd link msg flaw ecc) := of_row _
theorem wr (link : (Fin 8)) (msg : LMsg) (flaw : (Fin 8)) : Statement (.wr link msg flaw) := of_row _
theorem atom (link : (Fin 8)) (msg : LMsg) (flaw : (Fin 8)) (ecc : EccRes) : Statement (.atom link msg flaw ecc) := of_row _
theorem lupinLock (link : (Fin 8)) (msg : LMsg) (flaw : (Fin 8)) (ecc : EccRes) : Statement (.lupinLock link msg flaw ecc) := of_row _
theorem lupinPin (link : (Fin 8)) (msg : LMsg) (flaw : (Fin 8)) : Statement (.lupinPin link msg flaw) := of_row _
theorem red (link : (Fin 8)) (msg : LMsg) (flaw : (Fin 8)) : Statement (.red link msg flaw) := of_row _
theorem rdresp (link : (Fin 8)) (msg : LMsg) (flaw : (Fin 8)) : Statement (.rdresp link msg flaw) := of_row _
theorem ack (link : (Fin 8)) (msg : LMsg) (flaw : (Fin 8)) : Statement (.ack link msg flaw) := of_row _
theorem atomresp (link : (Fin 8)) (msg : LMsg) (flaw : (Fin 8)) : Statement (.atomresp link msg flaw) := of_row _
theorem nack (link : (Fin 8)) (msg : LMsg) (flaw : (Fin 8)) : Statement (.nack link msg flaw) := of_row _
theorem lupinDoorbell (link : (Fin 8)) (msg : LMsg) (flaw : (Fin 8)) : Statement (.lupinDoorbell link msg flaw) := of_row _
theorem hostrd (link : (Fin 8)) (msg : LMsg) (flaw : (Fin 8)) (data : (List Byte)) : Statement (.hostrd link msg flaw data) := of_row _
theorem hostwr (link : (Fin 8)) (msg : LMsg) (flaw : (Fin 8)) : Statement (.hostwr link msg flaw) := of_row _
theorem lupinMsix (link : (Fin 8)) (msg : LMsg) (flaw : (Fin 8)) : Statement (.lupinMsix link msg flaw) := of_row _
theorem mgmt (link : (Fin 8)) (msg : LMsg) (flaw : (Fin 8)) : Statement (.mgmt link msg flaw) := of_row _
theorem mgmtresp (link : (Fin 8)) (msg : LMsg) (flaw : (Fin 8)) : Statement (.mgmtresp link msg flaw) := of_row _
theorem linkTraining (link : (Fin 8)) (peer : (Fin 64)) (fa : Bool) (lanes : (Fin 16)) (slow : Bool) : Statement (.linkTraining link peer fa lanes slow) := of_row _
theorem lupinLinkUp (link : (Fin 8)) (present : (List (Fin 64))) (tables : (List (Fin 64 × List (Fin 64 × Fin 9 × Fin 16)))) : Statement (.lupinLinkUp link present tables) := of_row _
theorem lupinLaneLost (link : (Fin 8)) (lane : (Fin 4)) : Statement (.lupinLaneLost link lane) := of_row _
theorem lupinLinkDown (link : (Fin 8)) (absent : Bool) : Statement (.lupinLinkDown link absent) := of_row _
theorem linkdownNotice (link : (Fin 8)) (module : (Fin 64)) (failed : (Fin 9)) : Statement (.linkdownNotice link module failed) := of_row _
theorem failoverTables (tables : (List (Fin 1024 × Fin 64 × List (Fin 64 × Fin 9 × Fin 16)))) : Statement (.failoverTables tables) := of_row _
theorem remoteTimeout (module : (Fin 64)) (tag : (Fin 65536)) : Statement (.remoteTimeout module tag) := of_row _
theorem i3cPrivateWrite (off : (Fin 65536)) (data : (List Byte)) : Statement (.i3cPrivateWrite off data) := of_row _
theorem i3cPrivateRead (n : Nat) : Statement (.i3cPrivateRead n) := of_row _
theorem smbusBlockWrite (off : (Fin 65536)) (data : (List Byte)) : Statement (.smbusBlockWrite off data) := of_row _
theorem smbusBlockRead  : Statement (.smbusBlockRead) := of_row _
theorem entdaa (addr : (Fin 128)) (v33 : Bool) : Statement (.entdaa addr v33) := of_row _
theorem rstdaa  : Statement (.rstdaa) := of_row _
theorem jtagInstruction (ins : JtagIns) : Statement (.jtagInstruction ins) := of_row _
theorem uartInput (data : (List Byte)) : Statement (.uartInput data) := of_row _
theorem hostSnoop (line : Nat) : Statement (.hostSnoop line) := of_row _
theorem cxlCacheResponse (line : Nat) (data : (List Byte)) (ecc : EccRes) : Statement (.cxlCacheResponse line data ecc) := of_row _
theorem hdmDecoderCommit (decoder : (Fin 2)) (base : Nat) (size : Nat) (lock : Bool) : Statement (.hdmDecoderCommit decoder base size lock) := of_row _
theorem setdasa (static : (Fin 128)) (addr : (Fin 128)) (v33 : Bool) : Statement (.setdasa static addr v33) := of_row _
theorem linkSidebandRequest (link : (Fin 8)) : Statement (.linkSidebandRequest link) := of_row _

end Sys2Proof.Laws.Wf
end

