-- ==== Sys2Proof/Laws/PerThread.lean ====
section
/-! SUPPORT. What an instruction that acts thread by thread does to registers and predicates when no thread faults. -/

namespace Sys2Proof.Machine

/-- Threads that all complete. -/
theorem runThreads_ok {α : Type} (i : Ctx) (f : Nat → TRes α) (e : Nat → α) (h : ∀ t ∈ i.active, f t = .ok (e t)) :
    runThreads i f = (i.active.map (fun t => (t, e t)), []) := by
  unfold runThreads
  generalize i.active = ts at h ⊢
  induction ts with
  | nil => rfl
  | cons a ts ih =>
    rw [List.foldr_cons, ih (fun t ht => h t (List.mem_cons_of_mem _ ht)), h a (List.mem_cons_self ..)]
    rfl

@[simp] theorem goOn_nil (i : Ctx) : goOn i [] = i.members := by simp [goOn]
@[simp] theorem faultSet_nil (s : State) (i : Ctx) (src : Nat) : faultSet s i src [] = s := rfl

theorem maskList_nodup (w : Word) : (maskList w).Nodup := List.Nodup.filter _ List.nodup_range

/-- The members and the active threads of an issue are those of its mask. -/
theorem issueCtx_members {s : State} {x : Site} {w : Word64} {regs preds : List Nat} {i : Ctx}
    (h : issueCtx s x w regs preds = some i) :
    i.c = x.core ∧ i.g = x.group ∧ i.w = w ∧ i.members = maskList i.mask ∧ i.active.Nodup ∧ (∀ t ∈ i.active, t ∈ i.members) := by
  unfold issueCtx at h
  dsimp only at h
  split at h
  · cases h
  · split at h
    · cases h
      exact ⟨rfl, rfl, rfl, rfl, List.Nodup.filter _ (maskList_nodup _), fun t ht => (List.mem_filter.1 ht).1⟩
    · cases h

/-! ## Words of a register file -/

theorem tget_foldl_other (l : List (Nat × Word)) (t : Tab Word) (k : Nat) (h : ∀ p ∈ l, p.1 ≠ k) :
    tget 0 (l.foldl (fun g p => tset 0 g p.1 p.2) t) k = tget 0 t k := by
  induction l generalizing t with
  | nil => rfl
  | cons a l ih =>
    rw [List.foldl_cons, ih _ (fun p hp => h p (List.mem_cons_of_mem _ hp))]
    exact tget_tset_other _ _ _ (Ne.symm (h a (List.mem_cons_self ..)))

/-- Words written upward from a register: each reads back. -/
theorem tget_foldl_words (b n : Nat) (f : Nat → Word) (t : Tab Word) (j : Nat) (hj : j < n) :
    tget 0 (((List.range n).map (fun i => (b + i, f i))).foldl (fun g p => tset 0 g p.1 p.2) t) (b + j) = f j := by
  induction n generalizing t with
  | zero => omega
  | succ n ih =>
    rw [List.range_succ, List.map_append, List.foldl_append]
    simp only [List.map_cons, List.map_nil, List.foldl_cons, List.foldl_nil]
    by_cases h : j = n
    · subst h; simp
    · rw [tget_tset_other _ _ _ (by omega : b + j ≠ b + n)]; exact ih t (by omega)

/-! ## A fold over threads -/

theorem foldl_thr (h : Group → Nat → Group) (F : Nat → Thread → Thread)
    (hh : ∀ gr t u, thr (h gr t) u = if u = t then F t (thr gr t) else thr gr u) (ts : List Nat) (nd : ts.Nodup) (gr : Group)
    (u : Nat) : thr (ts.foldl h gr) u = if u ∈ ts then F u (thr gr u) else thr gr u := by
  induction ts generalizing gr with
  | nil => simp
  | cons a ts ih =>
    rw [List.nodup_cons] at nd
    rw [List.foldl_cons, ih nd.2, hh]
    by_cases ha : u = a
    · subst ha; simp [nd.1]
    · simp [ha]

theorem thr_writeReg (gr : Group) (t code n v u : Nat) : thr (writeReg gr t code n v) u = if u = t ∧ code < 0x80 then
    { thr gr t with
      gpr := ((List.range n).map (fun i => (code + i, BitVec.ofNat 32 (v >>> (32 * i))))).foldl (fun g p => tset 0 g p.1 p.2) (thr gr t).gpr,
      pend := unpend (codeRange code n) (thr gr t).pend }
    else thr gr u := by
  unfold writeReg
  dsimp only
  split
  next h => rw [thr_modThr]; by_cases hu : u = t <;> simp [hu, h]
  next h =>
    split
    · simp [h]; rfl
    · simp [h]

theorem thr_writeDst (i : Ctx) (gr : Group) (t code n v u : Nat) : thr (writeDst i gr t code n v) u =
    if u = t ∧ code < 0x80 then thr (writeReg gr t code n v) t else thr gr u := by
  unfold writeDst
  split
  next h => rw [if_neg (by omega)]
  next h =>
    rw [thr_writeReg]
    split
    next hu => rw [thr_writeReg, if_pos ⟨rfl, hu.2⟩]
    · rfl

/-- Uniform registers after one thread's write (R143). -/
theorem urf_writeDst (i : Ctx) (gr : Group) (t code n v : Nat) : (writeDst i gr t code n v).urf =
    if 0x80 ≤ code ∧ code < 0xC0 ∧ i.active.head? = some t then
      ((List.range n).map (fun j => (code + j - 0x80, BitVec.ofNat 32 (v >>> (32 * j))))).foldl (fun g p => tset 0 g p.1 p.2) gr.urf
    else gr.urf := by
  unfold writeDst writeReg modThr setThr
  dsimp only
  by_cases h1 : code < 0x80
  · have : ¬ 0x80 ≤ code := by omega
    simp [this, h1]
  · by_cases h2 : code < 0xC0
    · by_cases h3 : i.active.head? = some t
      · simp [h1, h2, h3, Nat.not_lt.1 h1, List.foldl_map]
      · simp [h2, h3, Nat.not_lt.1 h1]
    · simp [h1, h2]

/-- Everything of a group but its threads, uniform registers and their waits. -/
def noRegs (g : Group) : Group := { g with threads := [], urf := [], upend := [] }

theorem noRegs_writeDst (i : Ctx) (gr : Group) (t code n v : Nat) : noRegs (writeDst i gr t code n v) = noRegs gr := by
  unfold writeDst writeReg modThr setThr; dsimp only; repeat' split
  all_goals rfl

/-! ## A register result in every active thread -/

/-- The group after the active threads wrote `n` words to field `code`. -/
def wroteAll (i : Ctx) (code n : Nat) (v : Nat → Nat) (gr : Group) : Group :=
  i.active.foldl (fun gr t => writeDst i gr t code n (v t)) gr

theorem thr_wroteAll (i : Ctx) (code n : Nat) (v : Nat → Nat) (gr : Group) (nd : i.active.Nodup) (u : Nat) :
    thr (wroteAll i code n v gr) u = if u ∈ i.active ∧ code < 0x80 then thr (writeReg gr u code n (v u)) u else thr gr u := by
  unfold wroteAll
  by_cases hc : code < 0x80
  · rw [foldl_thr (fun gr t => writeDst i gr t code n (v t)) (fun t th => { th with
      gpr := ((List.range n).map (fun i => (code + i, BitVec.ofNat 32 (v t >>> (32 * i))))).foldl (fun g p => tset 0 g p.1 p.2) th.gpr,
      pend := unpend (codeRange code n) th.pend }) _ _ nd]
    · simp only [hc, and_true]; split
      · rw [thr_writeReg, if_pos ⟨rfl, hc⟩]
      · rfl
    · intro gr t u
      rw [thr_writeDst, thr_writeReg]; simp [hc]
  · rw [foldl_thr (fun gr t => writeDst i gr t code n (v t)) (fun _ th => th) _ _ nd]
    · simp [hc]
    · intro gr t u
      rw [thr_writeDst]; simp only [hc, and_false, if_false]; split
      next h => rw [h]
      · rfl

theorem noRegs_wroteAll (i : Ctx) (code n : Nat) (v : Nat → Nat) (gr : Group) : noRegs (wroteAll i code n v gr) = noRegs gr := by
  unfold wroteAll
  generalize i.active = ts
  induction ts generalizing gr with
  | nil => rfl
  | cons a ts ih => rw [List.foldl_cons]; exact (ih _).trans (noRegs_writeDst ..)

theorem urf_fold_other (i : Ctx) (code n : Nat) (v : Nat → Nat) (ts : List Nat) (gr : Group)
    (h : ∀ t ∈ ts, i.active.head? ≠ some t) : (ts.foldl (fun gr t => writeDst i gr t code n (v t)) gr).urf = gr.urf := by
  induction ts generalizing gr with
  | nil => rfl
  | cons a ts ih =>
    rw [List.foldl_cons, ih _ (fun t ht => h t (List.mem_cons_of_mem _ ht)), urf_writeDst, if_neg]
    exact fun hh => h a (List.mem_cons_self ..) hh.2.2

theorem urf_wroteAll (i : Ctx) (code n : Nat) (v : Nat → Nat) (gr : Group) (nd : i.active.Nodup) :
    (wroteAll i code n v gr).urf = match i.active.head? with
      | none => gr.urf
      | some t => (writeDst i gr t code n (v t)).urf := by
  unfold wroteAll
  match ha : i.active with
  | [] => rfl
  | a :: ts =>
    rw [ha, List.nodup_cons] at nd
    rw [List.foldl_cons, urf_fold_other]
    · rfl
    · intro t ht h; rw [ha] at h; cases h; exact nd.1 ht

/-! ## The whole instruction -/

theorem core_modGrp (s : State) (c g : Nat) (f : Group → Group) (d : Nat) :
    (s.modGrp c g f).core d = if d = c then setGrp (s.core c) g (f (grp (s.core c) g)) else s.core d := by
  unfold State.modGrp
  split
  next h => subst h; simp
  next h => exact core_modCore_other _ _ h

theorem grpOf_modGrp (s : State) (c g : Nat) (f : Group → Group) (h : Nat) :
    grpOf (s.modGrp c g f) c h = if h = g then f (grpOf s c g) else grpOf s c h := by
  unfold grpOf
  rw [core_modGrp, if_pos rfl]
  split
  next hh => subst hh; simp
  next hh => exact grp_setGrp_other _ _ hh

theorem modGrp_onlyCore (s : State) (c g : Nat) (f : Group → Group) : OnlyCore s (s.modGrp c g f) c :=
  ⟨by rfl, fun d h => by rw [core_modGrp, if_neg h]⟩

theorem modGrp_onlyGroups (s : State) (c g : Nat) (f : Group → Group) : OnlyGroups s (s.modGrp c g f) c := by
  unfold OnlyGroups; rw [core_modGrp, if_pos rfl]; rfl

theorem addTaskCounter_core (s : State) (c k n d : Nat) : ∃ x, (addTaskCounter s c k n).core d = { s.core d with tcnt := x } := by
  unfold addTaskCounter
  split
  · exact ⟨(s.core d).tcnt, by rfl⟩
  · by_cases h : d = c
    · subst h; exact ⟨_, core_modCore_same _ _ _⟩
    · exact ⟨(s.core d).tcnt, core_modCore_other _ _ h⟩

theorem addTaskCounter_onlyCore (s : State) (c k n : Nat) : OnlyCore s (addTaskCounter s c k n) c := by
  unfold addTaskCounter
  split
  · exact ⟨by rfl, fun _ _ => by rfl⟩
  · exact ⟨by rfl, fun d h => core_modCore_other _ _ h⟩

theorem addTaskCounter_onlyGroups (s : State) (c k n : Nat) : OnlyGroups s (addTaskCounter s c k n) c := by
  obtain ⟨x, h⟩ := addTaskCounter_core s c k n c
  unfold OnlyGroups; rw [h]

theorem grpOf_addTaskCounter (s : State) (c k n d g : Nat) : grpOf (addTaskCounter s c k n) d g = grpOf s d g := by
  obtain ⟨x, h⟩ := addTaskCounter_core s c k n d
  unfold grpOf; rw [h]; rfl

/-- A thread's registers, by their names, once its group's registers are the same. -/
theorem SameRegs.gpr {a b : Group} (h : SameRegs a b) (t : Nat) : (thr b t).gpr = (thr a t).gpr :=
  show (unblocked (thr b t)).gpr = (unblocked (thr a t)).gpr by rw [h.thrs]
theorem SameRegs.preds {a b : Group} (h : SameRegs a b) (t : Nat) : (thr b t).preds = (thr a t).preds :=
  show (unblocked (thr b t)).preds = (unblocked (thr a t)).preds by rw [h.thrs]
theorem SameRegs.pc {a b : Group} (h : SameRegs a b) (t : Nat) : (thr b t).pc = (thr a t).pc :=
  show (unblocked (thr b t)).pc = (unblocked (thr a t)).pc by rw [h.thrs]

theorem SameRegs.readReg {a b : Group} (h : SameRegs a b) (m : Word) (t code : Nat) : readReg b m t code = readReg a m t code := by
  unfold Machine.readReg; rw [h.gpr, h.urf]

theorem SameRegs.readWide {a b : Group} (h : SameRegs a b) (m : Word) (t code n : Nat) :
    readWide b m t code n = readWide a m t code n := by
  unfold Machine.readWide; simp only [h.readReg]

/-- An instruction whose every active thread writes `n` words `v t` to field `code` (R142 to R144, R156). -/
theorem perThread_regEff {s : State} {x : Site} {w : Word64} {regs preds : List Nat} {i : Ctx} {code n : Nat} {v : Nat → Nat}
    (hi : issueCtx s x w regs preds = some i) (f : Group → Ctx → Nat → TRes Eff)
    (hf : ∀ gr, SameRegs (grpOf s i.c i.g) gr → ∀ t ∈ i.active, f gr i t = .ok (regEff code n (v t))) :
    RegEffect s (perThread f (slotted s i) i) i code n v := by
  obtain ⟨_, _, _, _, nd, sub⟩ := issueCtx_members hi
  have hg := slotted_regs s i
  unfold perThread
  dsimp only
  have h0 : grp ((slotted s i).core i.c) i.g = grpOf (slotted s i) i.c i.g := rfl
  rw [h0]
  rw [runThreads_ok i _ (fun t => regEff code n (v t)) (hf _ (hg i.g))]
  simp only [goOn_nil, faultSet_nil, List.foldl_map]
  have hfold : (fun gr => List.foldl (fun x y => applyEff i x y (regEff code n (v y))) gr i.active) = wroteAll i code n v := rfl
  rw [hfold]
  generalize hs1 : (slotted s i).modGrp i.c i.g (wroteAll i code n v) = s1
  generalize hk : List.foldl _ 0 i.active = cnt
  generalize hs2 : addTaskCounter s1 i.c tcCvtNan cnt = s2
  have g2 : ∀ g, grpOf s2 i.c g = if g = i.g then wroteAll i code n v (grpOf (slotted s i) i.c i.g) else grpOf (slotted s i) i.c g := by
    intro g; rw [← hs2, grpOf_addTaskCounter, ← hs1, grpOf_modGrp]
  generalize ht : advance s2 i i.members (i.pc + 8) = t
  have g3 : ∀ g, g ≠ i.g → grpOf t i.c g = grpOf (slotted s i) i.c g := by
    intro g h; rw [← ht]; unfold advance; rw [grpOf_modGrp, if_neg h, g2, if_neg h]
  have g4 : SameRegs (modThrs (wroteAll i code n v (grpOf (slotted s i) i.c i.g)) i.members (fun _ th => { th with pc := i.pc + 8 })) (grpOf t i.c i.g) := by
    rw [← ht]; unfold advance; rw [grpOf_modGrp, if_pos rfl, g2, if_pos rfl]; exact .normGroup _
  have thr4 : ∀ u, unblocked (thrOf t i.c i.g u) = unblocked (if u ∈ i.members then { thr (wroteAll i code n v (grpOf (slotted s i) i.c i.g)) u with pc := i.pc + 8 } else thr (wroteAll i code n v (grpOf (slotted s i) i.c i.g)) u) := by
    intro u
    have := g4.thrs u
    rw [thr_modThrs _ _ (fun th => { th with pc := i.pc + 8 }) (fun _ => rfl)] at this
    exact this
  have gpr4 : ∀ u, (thrOf t i.c i.g u).gpr = (thr (wroteAll i code n v (grpOf (slotted s i) i.c i.g)) u).gpr := by
    intro u
    have := congrArg Thread.gpr (thr4 u)
    simp only [unblocked] at this
    rw [this]; split <;> rfl
  have pr4 : ∀ u, (thrOf t i.c i.g u).preds = (thr (wroteAll i code n v (grpOf (slotted s i) i.c i.g)) u).preds := by
    intro u
    have := congrArg Thread.preds (thr4 u)
    simp only [unblocked] at this
    rw [this]; split <;> rfl
  refine ⟨fun th hth => ⟨?_, ?_⟩, ⟨?_, ?_, ?_⟩, ?_, ?_, ?_⟩
  · intro hlt j hj
    unfold gprOf
    rw [gpr4, thr_wroteAll _ _ _ _ _ nd, if_pos ⟨hth, hlt⟩, thr_writeReg, if_pos ⟨rfl, hlt⟩]
    exact tget_foldl_words code n (fun j => BitVec.ofNat 32 (v th >>> (32 * j))) _ j hj
  · intro h1 h2 hth j hj
    unfold urfOf
    rw [g4.urf, modThrs_urf, urf_wroteAll _ _ _ _ _ nd, hth]
    simp only
    rw [urf_writeDst, if_pos ⟨h1, h2, hth⟩]
    have : (List.range n).map (fun j => (code + j - 0x80, BitVec.ofNat 32 (v th >>> (32 * j)))) =
        (List.range n).map (fun j => (code - 0x80 + j, BitVec.ofNat 32 (v th >>> (32 * j)))) := by
      apply List.map_congr_left; intro a _; rw [show code + a - 0x80 = code - 0x80 + a by omega]
    rw [this]
    exact tget_foldl_words (code - 0x80) n (fun j => BitVec.ofNat 32 (v th >>> (32 * j))) _ j hj
  · intro g th r hne hr
    unfold gprOf
    by_cases hgg : g = i.g
    · subst hgg
      rw [gpr4, thr_wroteAll _ _ _ _ _ nd]
      split
      next h =>
        rw [thr_writeReg, if_pos ⟨rfl, h.2⟩]
        rw [tget_foldl_other]
        · rw [(hg i.g).gpr]; rfl
        · intro p hp
          rw [List.mem_map] at hp
          obtain ⟨a, ha, rfl⟩ := hp
          rw [List.mem_range] at ha
          intro hpr
          exact hne ⟨rfl, h.1, by simp only at hpr; omega, by simp only at hpr; omega⟩
      · rw [(hg i.g).gpr]; rfl
    · unfold thrOf; rw [g3 g hgg, (hg g).gpr]
  · intro g u hne hu
    unfold urfOf
    by_cases hgg : g = i.g
    · subst hgg
      rw [g4.urf, modThrs_urf, urf_wroteAll _ _ _ _ _ nd]
      split
      · rw [(hg i.g).urf]
      · rw [urf_writeDst]
        split
        next h =>
          rw [tget_foldl_other, (hg i.g).urf]
          intro p hp
          rw [List.mem_map] at hp
          obtain ⟨a, ha, rfl⟩ := hp
          rw [List.mem_range] at ha
          intro hpr
          exact hne ⟨rfl, by simp only at hpr; omega, by simp only at hpr; omega⟩
        · rw [(hg i.g).urf]
    · rw [g3 g hgg, (hg g).urf]
  · intro g th q _ hq
    unfold predOf predVal
    rw [if_neg (by omega), if_neg (by omega)]
    by_cases hgg : g = i.g
    · subst hgg
      rw [pr4, thr_wroteAll _ _ _ _ _ nd]
      split
      next h => rw [thr_writeReg, if_pos ⟨rfl, h.2⟩]; simp only; rw [(hg i.g).preds]; rfl
      · rw [(hg i.g).preds]; rfl
    · unfold thrOf; rw [g3 g hgg, (hg g).preds]
  · intro th hth
    have := congrArg Thread.pc (thr4 th)
    simp only [unblocked, if_pos hth] at this
    exact this
  · have a : OnlyCore (slotted s i) s1 i.c := hs1 ▸ modGrp_onlyCore ..
    have b : OnlyCore s1 s2 i.c := hs2 ▸ addTaskCounter_onlyCore ..
    have c : OnlyCore s2 t i.c := ht ▸ modGrp_onlyCore ..
    exact (slotted_onlyCore s i).trans (a.trans (b.trans c))
  · have a : OnlyGroups (slotted s i) s1 i.c := hs1 ▸ modGrp_onlyGroups ..
    have b : OnlyGroups s1 s2 i.c := hs2 ▸ addTaskCounter_onlyGroups ..
    have c : OnlyGroups s2 t i.c := ht ▸ modGrp_onlyGroups ..
    exact (slotted_onlyGroups s i).trans (a.trans (b.trans c))

end Sys2Proof.Machine
end

