-- ==== Sys2Proof/Laws/Stored.lean ====
section
/-! SUPPORT. What the operations on stored words, lines and entries can touch: everything else of the module keeps its value. -/

namespace Sys2Proof.Machine

/-- The module but for memory, poison, cores, caches, registers, logs and what is on its way to the host and over the links. -/
def rest (s : State) : State :=
  { s with mem := [], poison := [], cores := [], llc := Llc.empty, regs := [], ecc := State.reset.ecc, ras := State.reset.ras,
           msix := State.reset.msix, out := [], host := State.reset.host, fresh := 0, lup := Lup.fresh, pmc := Pmc.fresh }

theorem rest_foldl {α : Type} (f : State → α → State) (hf : ∀ s a, rest (f s a) = rest s) (l : List α) (s : State) :
    rest (l.foldl f s) = rest s := by
  induction l generalizing s with
  | nil => rfl
  | cons a l ih => rw [List.foldl_cons, ih, hf]

/-! ## Registers, logs, counters and messages -/

@[simp] theorem rest_setReg (s : State) (o : Nat) (v : Word) : rest (s.setReg o v) = rest s := rfl
@[simp] theorem rest_setField (s : State) (o hi lo v : Nat) : rest (s.setField o hi lo v) = rest s := rfl
@[simp] theorem rest_emit (s : State) (o : Out) : rest (s.emit o) = rest s := rfl
@[simp] theorem rest_modCore (s : State) (c : Nat) (f : Core → Core) : rest (s.modCore c f) = rest s := rfl
@[simp] theorem rest_modLine (s : State) (l : Nat) (f : Line → Line) : rest (modLine s l f) = rest s := rfl
@[simp] theorem rest_setBytes (s : State) (a : Nat) (bs : List Nat) : rest (s.setBytes a bs) = rest s := rfl

@[simp] theorem rest_sendMsix (s : State) (v : Nat) : rest (sendMsix s v) = rest s := by
  unfold sendMsix; split
  · rfl
  · split <;> rfl

@[simp] theorem rest_rasLog (s : State) (e : LogEv) : rest (rasLog s e) = rest s := by
  unfold rasLog rasLogT; dsimp only
  split <;> split <;> simp <;> rfl

@[simp] theorem rest_countEvent (s : State) (b i code n : Nat) (d : Dims) : rest (countEvent s b i code n d) = rest s := by
  obtain ⟨p, h⟩ := countEvent_pmc s b i code n d
  rw [h]; rfl

@[simp] theorem rest_noteCe (s : State) (u a : Nat) : rest (noteCe s u a) = rest s := by
  unfold noteCe; dsimp only; split
  · rfl
  · rw [rest_rasLog]; rfl

@[simp] theorem rest_countUe (s : State) (u a c src : Nat) : rest (countUe s u a c src) = rest s := by
  unfold countUe; simp

@[simp] theorem rest_pumpLoop (l : Nat) (ms : List LMsg) (b : List Nat) (s : State) : rest (pumpLoop l ms b s) = rest s := by
  induction ms generalizing b s with
  | nil => rfl
  | cons m ms ih =>
    unfold pumpLoop; dsimp only
    split
    · exact ih _ _
    · exact ih _ _

@[simp] theorem rest_sendMsg (s : State) (m : LMsg) : rest (sendMsg s m) = rest s := by
  unfold sendMsg; dsimp only; split
  · rfl
  · unfold pumpLink; rw [rest_pumpLoop]; rfl

/-! ## Reads of the arrays -/

@[simp] theorem rest_noteFind (s : State) (k : Nat) (f : Find) (r : Option ScrubRun) : rest (noteFind s k f r) = rest s := by
  unfold noteFind; dsimp only; split
  · rfl
  · split <;> rfl

@[simp] theorem rest_poisonBytes (s : State) (a n : Nat) : rest (poisonBytes s a n) = rest s := rfl
@[simp] theorem rest_poisonSram (s : State) (a n : Nat) : rest (poisonSram s a n) = rest s := rfl

@[simp] theorem rest_logCe (s : State) (u a : Nat) : rest (logCe s u a) = rest s := by
  unfold logCe; exact rest_noteCe s u a

@[simp] theorem rest_sramFlaw (src : Nat) (r : Option ScrubRun) (a n : Nat) (s : State) (e : Flaw) : rest (sramFlaw src r a n s e) = rest s := by
  unfold sramFlaw; dsimp only; split
  · rfl
  · split
    · rfl
    · split <;> simp
  · split
    · rfl
    · split
      · simp
      · exact (rest_logCe _ _ _).trans (rest_noteFind _ _ _ _)

@[simp] theorem rest_sramRead (s : State) (a n : Nat) (e : EccRes) (src : Nat) : rest (sramRead s a n e src) = rest s :=
  rest_foldl _ (fun _ _ => rest_sramFlaw _ _ _ _ _ _) _ _

@[simp] theorem rest_mergeClose (s : State) (l : Nat) : rest (mergeClose s l) = rest s := rfl
@[simp] theorem rest_mergeCover (s : State) (w : Nat) : rest (mergeCover s w) = rest s := rfl
@[simp] theorem rest_readWord (s : State) (a n : Nat) (e : EccRes) (src : Nat) : rest (readWord s a n e src) = rest s := by
  unfold readWord; simp
@[simp] theorem rest_touchLine (s : State) (a n : Nat) : rest (touchLine s a n) = rest s := rfl

@[simp] theorem rest_mergeWord (ecc : EccRes) (s : State) (w o n : Nat) : rest (mergeWord ecc s w o n) = rest s := by
  unfold mergeWord; dsimp only
  split
  · rfl
  · split
    · rfl
    · split
      · rfl
      · split
        · rfl
        · exact rest_sramRead _ _ _ _ _

/-! ## Lines and entries -/

@[simp] theorem rest_refreshHstat (s : State) : rest (refreshHstat s) = rest s := by
  unfold refreshHstat; exact rest_foldl hstatOf (fun _ _ => rfl) _ _

@[simp] theorem rest_storeBytes (s : State) (a : Nat) (bs : List Nat) : rest (storeBytes s a bs) = rest s := rfl

@[simp] theorem rest_leaveLine (ecc : EccRes) (s : State) (l : Nat) : rest (leaveLine ecc s l) = rest s := by
  unfold leaveLine; split
  · rfl
  · dsimp only
    rw [rest_refreshHstat]
    show rest (if _ then _ else _) = _
    split
    · rw [rest_foldl _ (fun s o => by split <;> rfl)]
      exact rest_readWord _ _ _ _ _
    · rw [rest_foldl (fun s a => poisonBytes s a 64) (fun _ _ => rfl),
        rest_foldl (fun s (x : Nat × List Nat) => storeBytes s (16 * x.1) x.2) (fun _ _ => rfl), rest_readWord]

theorem rest_makeRoom {ecc : EccRes} {s t : State} {m : Home} (h : makeRoom ecc s m = some t) : rest t = rest s := by
  unfold makeRoom at h; dsimp only at h
  split at h
  · cases h; rfl
  · split at h
    · cases h
    · cases h; exact rest_leaveLine _ _ _

@[simp] theorem rest_placeLine (s : State) (m : Home) (l : Nat) : rest (placeLine s m l) = rest s := by
  unfold placeLine; dsimp only
  rw [rest_refreshHstat]; exact rest_countEvent _ _ _ _ _ _

theorem rest_applyRed (e : RedEntry) (n i : Nat) (acc : State × Bool × Bool) : rest (applyRed e n i acc).1 = rest acc.1 := by
  induction n generalizing i acc with
  | zero => rfl
  | succ n ih =>
    obtain ⟨s, p, w⟩ := acc
    unfold applyRed; dsimp only
    split <;> exact ih _ _

@[simp] theorem rest_redAnswer (s : State) (q : Nat) (p w : Bool) : rest (redAnswer s q p w) = rest s := by
  unfold redAnswer; split
  · rfl
  · dsimp only; split
    · split
      · rfl
      · exact rest_sendMsg _ _
    · rfl

@[simp] theorem rest_giveBack (s : State) (l : Nat) : rest (giveBack s l) = rest s := by
  unfold giveBack; split <;> rfl

@[simp] theorem rest_entryEffect (s : State) (e : RedEntry) : rest (entryEffect s e) = rest s := by
  unfold entryEffect; dsimp only
  rw [rest_redAnswer, rest_giveBack, rest_touchLine, rest_applyRed]; rfl

@[simp] theorem rest_drainHbm (s : State) (l : Nat) : rest (drainHbm s l) = rest s := rest_foldl _ (fun _ _ => rest_entryEffect _ _) _ _

@[simp] theorem rest_installLine (s : State) (l : Nat) : rest (installLine s l) = rest s := by
  unfold installLine; split
  · rfl
  · split
    · rfl
    · split
      · rename_i h; rw [rest_placeLine, rest_makeRoom h]
      · split
        · rfl
        · split
          · rename_i h; rw [rest_placeLine, rest_makeRoom h, rest_drainHbm]
          · rfl

/-! ## Writes at a home -/

@[simp] theorem rest_putBytes (ecc : EccRes) (s : State) (a : Nat) (bs : List Nat) : rest (putBytes ecc s a bs) = rest s := by
  unfold putBytes
  rw [rest_touchLine, rest_foldl, rest_storeBytes]
  intro s w; dsimp only; split <;> simp

@[simp] theorem rest_putLine (ecc : EccRes) (al : Bool) (s : State) (p : Nat × List Nat) : rest (putLine ecc al s p) = rest s := by
  unfold putLine; dsimp only
  rw [rest_putBytes]; split <;> simp

@[simp] theorem rest_putSource (s : State) (a : Nat) (bs : List Nat) : rest (putSource s a bs) = rest s := by
  unfold putSource; split
  · rfl
  · exact rest_foldl _ (fun _ _ => rest_putLine _ _ _ _) _ _

@[simp] theorem rest_countCore (s : State) (c code n : Nat) (a : Option Nat) : rest (countCore s c code n a) = rest s := rest_countEvent _ _ _ _ _ _

@[simp] theorem rest_addMeters (s : State) (c a : Nat) (x : Cost) : rest (addMeters s c a x) = rest s := by
  unfold addMeters; simp

@[simp] theorem rest_meterSource (s : State) (c a n : Nat) : rest (meterSource s c a n) = rest s := by
  unfold meterSource; dsimp only; split <;> simp

@[simp] theorem rest_applyEntry (s : State) (e : RedEntry) : rest (applyEntry s e) = rest s := by
  have put : ∀ (t : State), rest t = rest s → rest (if (sourceAt t e.addr).isNone then t
      else (List.range (e.data.length / elemSize e.oper)).foldl (fun s i =>
        if isPoisoned s.poison (e.addr + elemSize e.oper * i) (elemSize e.oper) then s
        else putSource s (e.addr + elemSize e.oper * i) (readBytes s.mem (e.addr + elemSize e.oper * i) (elemSize e.oper))) t) = rest s := by
    intro t h
    split
    · exact h
    · rw [rest_foldl, h]
      intro s i; split <;> simp
  unfold applyEntry
  apply put
  rw [rest_entryEffect]
  split
  · split <;> simp
  · rfl

@[simp] theorem rest_drainLine (s : State) (l : Nat) : rest (drainLine s l) = rest s := rest_foldl _ (fun _ _ => rest_applyEntry _ _) _ _

/-- Writes at a home touch memory, poison, caches, cores, registers and what is on its way, and nothing else. -/
@[simp] theorem rest_homeWriteBy (ecc : EccRes) (al : Bool) (s : State) (a : Nat) (bs : List Nat) : rest (homeWriteBy ecc al s a bs) = rest s :=
  rest_foldl _ (fun _ _ => by simp) _ _

@[simp] theorem rest_homeWrite (s : State) (a : Nat) (bs : List Nat) : rest (homeWrite s a bs) = rest s := rest_homeWriteBy _ _ _ _ _

@[simp] theorem rest_homeUpdate (s : State) (a : Nat) (bs : List Nat) : rest (homeUpdate s a bs) = rest s := by
  unfold homeUpdate; dsimp only
  rw [rest_putSource, rest_touchLine, rest_setBytes]; split <;> simp

@[simp] theorem rest_homePoisoned (s : State) (a n : Nat) : rest (homePoisoned s a n) = rest s := by
  have put : ∀ (s : State) (a : Nat), rest (touchLine (poisonBytes (mergeClose (if linePresent s a then s else installLine s (lineOf a)) (lineOf a)) a n) a n) = rest s := by
    intro s a; simp; split <;> simp
  unfold homePoisoned; dsimp only
  split
  · rw [put, rest_drainLine]
  · rw [put, rest_drainHbm, put, rest_drainLine]

@[simp] theorem rest_taskWrite (s : State) (c a : Nat) (bs : List Nat) : rest (taskWrite s c a bs) = rest s := by unfold taskWrite; simp
@[simp] theorem rest_writeLock (s : State) (a v : Nat) : rest (writeLock s a v) = rest s := rest_homeUpdate _ _ _
@[simp] theorem rest_evictLine (s : State) (l : Nat) : rest (evictLine s l) = rest s := by unfold evictLine; simp

/-- What of a home write's state the tasks, contexts, programs and the clock are: those of the state before. -/
theorem homeWrite_tasks (s : State) (a : Nat) (bs : List Nat) : (homeWrite s a bs).tasks = s.tasks ∧ (homeWrite s a bs).clk = s.clk ∧
    (homeWrite s a bs).contexts = s.contexts ∧ (homeWrite s a bs).programs = s.programs ∧ (homeWrite s a bs).modId = s.modId :=
  have h := rest_homeWrite s a bs
  ⟨congrArg (·.tasks) h, congrArg (·.clk) h, congrArg (·.contexts) h, congrArg (·.programs) h, congrArg (·.modId) h⟩

end Sys2Proof.Machine
end

