-- ==== Sys2Proof/Tests/Slice0.lean ====
section
/-! SUPPORT. Small tests of single steps, and witnesses of the statements' hypotheses. -/

namespace Sys2Proof.Tests

open Sys2Proof.Machine

-- One after another: many at once need more memory than the check allows.
set_option Elab.async false

/-! ## A bench: core 0 runs group 0 with threads 0 and 1 at PC 0 of a program of eight instructions -/

def wd (cls op low : Nat) : Word64 :=
  BitVec.ofNat 64 (((classFmt cls).getD 0) * 2 ^ 61 + cls * 2 ^ 56 + 7 * 2 ^ 52 + op * 2 ^ 48 + low)
def wA (cls op ty d a b c p : Nat) : Word64 :=
  wd cls op (ty * 2 ^ 40 + d * 2 ^ 32 + a * 2 ^ 24 + b * 2 ^ 16 + c * 2 ^ 8 + p * 8)
def wB (cls op d a imm : Nat) : Word64 := wd cls op (d * 2 ^ 40 + a * 2 ^ 32 + imm)
def wM (cls op sz cache pdst data base off : Nat) : Word64 :=
  wd cls op (sz * 2 ^ 45 + cache * 2 ^ 43 + pdst * 2 ^ 40 + data * 2 ^ 32 + base * 2 ^ 24 + off)
def wC (cls op id seg tgt : Nat) : Word64 := wd cls op (id * 2 ^ 44 + seg * 2 ^ 43 + tgt * 2 ^ 20)
def wD (cls op src tkt pdst reg off : Nat) : Word64 :=
  wd cls op (src * 2 ^ 47 + tkt * 2 ^ 41 + pdst * 2 ^ 38 + reg * 2 ^ 30 + off * 2 ^ 10)

def thr0 : Thread := { Thread.dead with live := true, gpr := [(1, 7), (2, 3), (4, 0x1000000), (5, 1)] }
def grp0 : Group := { Group.empty with threads := [(0, thr0), (1, thr0)], sets := [⟨3, 0⟩] }
def core0 : Core := { Core.idle with task := some 0, phase := .running, groups := [(0, grp0)] }
def prog0 : Program :=
  { base := 0x100000000, flags := 0, tiles := 1, entry := 0, codeOff := 512, codeSize := 64, ranks := [⟨0, 1, 0, 0⟩], segment := .zero,
    budgets := [.zero], withdrawn := false }
def task0 : Task :=
  { queue := 1, sqidx := 0, v1 := false, program := Config.scrubHandle.toNat + 1, context := 1, cls := 3, flags := 0, cd := 256,
    deadline := 0, args := 0, tag := 0, progress := 0, accept := 0, bound := 0, plan := [0], floors := [0], running := true, ended := [],
    stop := none, stopAt := 0, fault := none, committed := 0, replays := 0, replayed := false, rerun := false, tried := false, moved := [],
    counters := [] }
def bench (k : Core) (mem : List Host.Cell) : State :=
  { State.reset with mem := mem, cores := [(0, k)], tasks := [(0, some task0)],
                     programs := [(Config.scrubHandle.toNat + 1, some prog0)],
                     contexts := [(1, some ⟨[⟨0x100000000, 0x10000000, 3⟩], 7, false⟩)] }
def site0 : Site := ⟨0, 0, 0, .none⟩
def ctx0 (w : Word64) : Ctx := ⟨0, 0, 0, 3, [0, 1], [0, 1], w⟩

theorem bench_code (k : Core) (mem : List Host.Cell) (h : k.task = some 0) : codeSize (bench k mem) 0 = 64 := by
  have h1 : coreTask (bench k mem) 0 = some task0 := by
    show k.task.bind (bench k mem).task = some task0
    rw [h]; rfl
  have h2 : (bench k mem).program task0.program = some prog0 := by
    show (if Config.scrubHandle.toNat + 1 = Config.scrubHandle.toNat then some scrubProgram
      else tget none [(Config.scrubHandle.toNat + 1, some prog0)] (Config.scrubHandle.toNat + 1)) = some prog0
    rw [if_neg (Nat.succ_ne_self _)]
    simp [tget]
  unfold codeSize
  rw [h1]
  show (match (bench k mem).program task0.program with | none => 0 | some p => p.codeSize) = 64
  rw [h2]; rfl

theorem bench_fetch (k : Core) (mem : List Host.Cell) (i : Ctx) : fetchPoison (bench k mem) i = none := by
  unfold fetchPoison
  split
  · rfl
  · cases codeAddr (bench k mem) i.c i.pc with
    | none => rfl
    | some a => rfl

theorem bench_issues {k : Core} {mem : List Host.Cell} {x : Site} {w : Word64} {regs preds : List Nat} {i : Ctx}
    (h : issueCtx (bench k mem) x w regs preds = some i) (hk : k.task = some 0) (hc : i.c = 0) (hp : i.pc < 64)
    (hx : x.err = .none := by rfl) : Issues (bench k mem) x w regs preds i :=
  ⟨h, by rw [hc, bench_code k mem hk]; exact hp, bench_fetch k mem i, hx⟩

/-! ## Witnesses: the step -/

theorem wit_StepRunsFrontCommand : ({ State.reset with pending := [.ready ⟨⟨[], []⟩, (false, false)⟩] } : State).pending = .ready ⟨⟨[], []⟩, (false, false)⟩ :: [] ∧
    State.reset.pending = [] := ⟨rfl, rfl⟩

theorem wit_StepKeepsSound : Sound { State.reset with mem := [(3, 9)] } ∧ ∃ t, step { State.reset with mem := [(3, 9)] } = .next t :=
  ⟨⟨by decide, fun c h => nomatch h⟩, _, rfl⟩

/-! ## Witnesses: arithmetic -/

def wIalu : Word64 := wA 0x00 0 3 3 1 2 0 7
def wCvt : Word64 := wA 0x05 0 1 3 1 0 0 7
def wMovi : Word64 := wB 0x0D 0 3 0 0xFFFFFFFF

theorem wit_Arithmetic_ialu : Issues (bench core0 []) site0 wIalu (ialuSrcs .add wIalu) [] (ctx0 wIalu) ∧
    legalA 0x00 [3, 4] wIalu = true ∧ (ialuSrcs .add wIalu).all (srcOk · 1) = true ∧ dstOk (aDst wIalu) 1 = true :=
  ⟨bench_issues (by decide) rfl rfl (by decide), by decide⟩
theorem wit_Arithmetic_ialui : let w := wB 0x0A 0 0x7F 0xC0 5
    Issues (bench core0 []) site0 w [bSrcA w] [] (ctx0 w) ∧ isClass 0x0A w = true ∧ srcOk (bSrcA w) 1 = true ∧ dstOk (bDst w) 1 = true :=
  ⟨bench_issues (by decide) rfl rfl (by decide), by decide⟩
theorem wit_Arithmetic_idiv : let w := wA 0x01 0 4 3 1 2 0 7
    Issues (bench core0 []) site0 w [aSrcA w, aSrcB w] [] (ctx0 w) ∧ legalA 0x01 [3, 4] w = true ∧ srcOk (aSrcA w) 1 = true ∧
    srcOk (aSrcB w) 1 = true ∧ dstOk (aDst w) 1 = true ∧ ∀ th ∈ (ctx0 w).active, srcOf (bench core0 []) (ctx0 w) th (aSrcB w) ≠ 0 :=
  ⟨bench_issues (by decide) rfl rfl (by decide), by decide⟩
theorem wit_Arithmetic_falu : let w := wA 0x02 0 0 0xBF 1 2 3 7
    Issues (bench core0 []) site0 w (faluSrcs .fma w) [] (ctx0 w) ∧ legalA 0x02 [0, 1, 2] w = true ∧
    (faluSrcs .fma w).all (srcOk · 1) = true ∧ dstOk (aDst w) 1 = true :=
  ⟨bench_issues (by decide) rfl rfl (by decide), by decide⟩
theorem wit_Arithmetic_falui : let w := wB 0x0B 0 3 1 0x3F800000
    Issues (bench core0 []) site0 w [bSrcA w] [] (ctx0 w) ∧ isClass 0x0B w = true ∧ srcOk (bSrcA w) 1 = true ∧ dstOk (bDst w) 1 = true :=
  ⟨bench_issues (by decide) rfl rfl (by decide), by decide⟩
theorem wit_Arithmetic_fspec : let w := wA 0x03 0 0 3 1 0 0 7
    Issues (bench core0 []) site0 w [aSrcA w] [] (ctx0 w) ∧ legalA 0x03 [0] w = true ∧ srcOk (aSrcA w) 1 = true ∧
    dstOk (aDst w) 1 = true := ⟨bench_issues (by decide) rfl rfl (by decide), by decide⟩
theorem wit_Arithmetic_cvt : Issues (bench core0 []) site0 wCvt [aSrcA wCvt] [] (ctx0 wCvt) ∧ isClass 0x05 wCvt = true ∧
    bits wCvt 2 0 = 0 ∧ bits wCvt 15 12 = 0 ∧ bits wCvt 11 8 ≤ 0xC ∧ aType wCvt ≤ 0xC ∧ srcOk (aSrcA wCvt) 1 = true ∧
    dstOk (aDst wCvt) 1 = true := ⟨bench_issues (by decide) rfl rfl (by decide), by decide⟩
theorem wit_Arithmetic_move : let w := wA 0x09 0 0 0x7E 4 0 0 7
    Issues (bench core0 []) site0 w (codeRange (aSrcA w) 2) [] (ctx0 w) ∧ legalA 0x09 [0, 1, 2, 3, 4] w = true ∧
    srcOk (aSrcA w) 2 = true ∧ dstOk (aDst w) 2 = true := ⟨bench_issues (by decide) rfl rfl (by decide), by decide⟩
theorem wit_Arithmetic_mov : Issues (bench core0 []) site0 wMovi [] [] (ctx0 wMovi) ∧ isRow 0x0D 0 wMovi = true ∧
    dstOk (bDst wMovi) 1 = true := ⟨bench_issues (by decide) rfl rfl (by decide), by decide⟩
theorem wit_Arithmetic_movh : let w := wB 0x0D 1 0xC0 0 0xFFFF
    Issues (bench core0 []) site0 w [bDst w] [] (ctx0 w) ∧ isRow 0x0D 1 w = true ∧ bits w 31 16 = 0 ∧ dstOk (bDst w) 1 = true :=
  ⟨bench_issues (by decide) rfl rfl (by decide), by decide⟩

theorem wit_Compares : let w := wA 0x04 0 0 0 1 2 0 6
    let v := wB 0x0C 0 0 1 9
    Issues (bench core0 []) site0 w [aSrcA w, aSrcB w] [] (ctx0 w) ∧
    Issues (bench core0 []) site0 v [bSrcA v] [] (ctx0 v) ∧ (legalA 0x04 [0, 1, 2, 3, 4] w = true ∧ srcOk (aSrcA w) 1 = true ∧
    srcOk (aSrcB w) 1 = true ∧ isClass 0x0C v = true ∧ bits v 47 43 = 0 ∧ srcOk (bSrcA v) 1 = true) :=
  ⟨bench_issues (by decide) rfl rfl (by decide), bench_issues (by decide) rfl rfl (by decide), by decide⟩
theorem wit_Compares_pred : let w := wA 0x07 0 0 3 7 0 0 6
    Issues (bench core0 []) site0 w [] (predSrcs .ballot w) (ctx0 w) ∧ Issues (bench core0 []) site0 w [] (predSrcs .and w) (ctx0 w) ∧
    (legalA 0x07 [0, 1, 2, 3, 4] w = true ∧ dstOk (aDst w) 1 = true) :=
  ⟨bench_issues (by decide) rfl rfl (by decide), bench_issues (by decide) rfl rfl (by decide), by decide⟩

theorem wit_LaneMoves_xlane : let w := wA 0x08 0 0 3 1 2 0 6
    Issues (bench core0 []) site0 w [aSrcA w, aSrcB w] [] (ctx0 w) ∧ (legalA 0x08 [0, 1, 2, 3, 4] w = true ∧ srcOk (aSrcA w) 1 = true ∧
    srcOk (aSrcB w) 1 = true ∧ dstOk (aDst w) 1 = true) := ⟨bench_issues (by decide) rfl rfl (by decide), by decide⟩
theorem wit_LaneMoves_mxq : let w := wA 0x06 0 5 3 1 0 6 7
    Issues (bench core0 []) site0 w [aSrcA w] [] (ctx0 w) ∧ (legalA 0x06 [5, 6, 7, 8, 9, 0xC] w = true ∧ srcOk (aSrcA w) 1 = true ∧
    dstOk (aDst w) 1 = true ∧ dstOk (aSrcC w) 1 = true) := ⟨bench_issues (by decide) rfl rfl (by decide), by decide⟩
theorem wit_LaneMoves_keys : let w := fun op => wB 0x0E op 0xC0 1 0xFFFFFFFF
    (∀ op ∈ [0, 1], Issues (bench core0 []) site0 (w op) [] [] (ctx0 (w op)) ∧ isRow 0x0E op (w op) = true ∧ bDst (w op) = 0xC0) ∧
    ∀ op ∈ [2, 3], Issues (bench core0 []) site0 (w op) [bSrcA (w op)] [] (ctx0 (w op)) ∧ isRow 0x0E op (w op) = true ∧
      bDst (w op) = 0xC0 ∧ srcOk (bSrcA (w op)) 1 = true := by
  constructor <;> intro op h <;> simp only [List.mem_cons, List.not_mem_nil, or_false] at h <;> rcases h with rfl | rfl <;>
    exact ⟨bench_issues (by decide) rfl rfl (by decide), by decide⟩

/-! ## Witnesses: precise faults -/

def wNop : Word64 := wC 0x15 0 0 0 0

theorem wit_Faults_first : coreTask (bench core0 []) 0 = some task0 ∧ task0.fault = none ∧ replayFirst (bench core0 []) 0 = false :=
  ⟨rfl, rfl, by decide⟩
theorem wit_Faults_illegal : (ctx0 wNop).members.head? = some 0 ∧ Issues (bench core0 []) site0 0xFFFFFFFFFFFFFFFF [] [] ⟨0, 0, 0, 3, [0, 1], [], 0xFFFFFFFFFFFFFFFF⟩ ∧
    listedWord 0xFFFFFFFFFFFFFFFF = false ∧ (let w := wC 0x15 0 0 0 1
    Issues (bench core0 []) site0 w [] [] (ctx0 w) ∧ isRow 0x15 0 w = true ∧ bits w 31 0 ≠ 0) :=
  ⟨rfl, bench_issues (by decide) rfl rfl (by decide), by decide, bench_issues (by decide) rfl rfl (by decide), by decide⟩
theorem wit_Faults_badTarget : let k := { core0 with groups := [(0, { grp0 with threads := [(0, { thr0 with pc := 64 }), (1, { thr0 with pc := 64 })] })] }
    let i : Ctx := ⟨0, 0, 64, 3, [0, 1], [0, 1], wNop⟩
    issueCtx (bench k []) site0 wNop [] [] = some i ∧ codeSize (bench k []) i.c ≤ i.pc ∧ isRow 0x15 0 wNop = true :=
  ⟨by decide, Nat.le_of_eq (bench_code _ [] rfl), by decide⟩
theorem wit_Faults_operand : let w := wB 0x0D 0 0xC1 0 0
    (ctx0 w).active.head? = some 0 ∧ Issues (bench core0 []) site0 w [] [] (ctx0 w) ∧ isRow 0x0D 0 w = true ∧ dstOk (bDst w) 1 = false :=
  ⟨rfl, bench_issues (by decide) rfl rfl (by decide), by decide⟩
theorem wit_Faults_division : let w := wA 0x01 0 4 3 1 9 0 7
    Issues (bench core0 []) site0 w [aSrcA w, aSrcB w] [] (ctx0 w) ∧ legalA 0x01 [3, 4] w = true ∧ srcOk (aSrcA w) 1 = true ∧
    srcOk (aSrcB w) 1 = true ∧ dstOk (aDst w) 1 = true ∧
    ((ctx0 w).active.filter (fun u => srcOf (bench core0 []) (ctx0 w) u (aSrcB w) == 0)).head? = some 0 :=
  ⟨bench_issues (by decide) rfl rfl (by decide), by decide⟩
theorem wit_Faults_poison : let s := { bench core0 [] with poison := [0x10000020] }
    issueCtx s site0 wNop [] [] = some (ctx0 wNop) ∧ (ctx0 wNop).pc < codeSize s 0 ∧ fetchPoison s (ctx0 wNop) = some 0x100000200 ∧
    (ctx0 wNop).members ≠ [] ∧ coreTask s 0 = some task0 ∧ task0.replays = 0 ∧ isRow 0x15 0 wNop = true := by
  have h : State.program { bench core0 [] with poison := [0x10000020] } task0.program = some prog0 := by
    show (if Config.scrubHandle.toNat + 1 = Config.scrubHandle.toNat then some scrubProgram
      else tget none [(Config.scrubHandle.toNat + 1, some prog0)] (Config.scrubHandle.toNat + 1)) = some prog0
    rw [if_neg (Nat.succ_ne_self _)]
    simp [tget]
  refine ⟨by decide, ?_, ?_, by decide, rfl, rfl, by decide⟩
  · have := bench_code core0 [] rfl
    show 0 < codeSize (bench core0 []) 0
    omega
  · have hi : icHit { bench core0 [] with poison := [0x10000020] } (ctx0 wNop) = false := by
      have hc : codeAddr { bench core0 [] with poison := [0x10000020] } (ctx0 wNop).c (ctx0 wNop).pc = some 0x100000200 := by
        unfold codeAddr
        show ((some task0).bind fun t => (State.program { bench core0 [] with poison := [0x10000020] } t.program).bind fun p =>
          some ((p.base + p.codeOff + 0) % 2 ^ 48)) = _
        rw [Option.bind_some, h]
        rfl
      unfold icHit
      rw [hc]
      rfl
    unfold fetchPoison
    rw [hi]
    unfold codeAddr
    show ((some task0).bind fun t => (State.program { bench core0 [] with poison := [0x10000020] } t.program).bind fun p =>
      some ((p.base + p.codeOff + 0) % 2 ^ 48)).bind _ = _
    rw [Option.bind_some, h]
    decide

/-! ## Witnesses: memory -/

/-- The bench with other registers in thread 0 and 1. -/
def withRegs (g0 g1 : Tab Word) : Core :=
  { core0 with groups := [(0, { grp0 with threads := [(0, { thr0 with gpr := g0 }), (1, { thr0 with gpr := g1 })] })] }

theorem wit_LocalLoadsAndStores : let w := wM 0x0F 0 2 0 7 3 1 (0xC0000 - 4)
    let v := wM 0x0F 2 4 0 7 0x7C 1 0xBFFF0
    let k := withRegs [] []
    Issues (bench k []) site0 w (codeRange (mBase w) 1) [] (ctx0 w) ∧ Issues (bench k []) site0 v (storeSrcs v 1) [] (ctx0 v) ∧
    (legalM 0x0F 0 [0, 1, 2, 3, 4] false false w = true ∧ srcOk (mBase w) 1 = true ∧ dstOk (mData w) (sizeWords (mSize w)) = true ∧
    (∀ th ∈ (ctx0 w).active, mLocal (grpOf (bench k []) 0 0) (ctx0 w) th % mSize w = 0 ∧
      mLocal (grpOf (bench k []) 0 0) (ctx0 w) th + mSize w ≤ lsBytes ∧
      firstPoison (bench k []).poison (lsAddr 0 + mLocal (grpOf (bench k []) 0 0) (ctx0 w) th) (mSize w) = none) ∧
    legalM 0x0F 2 [0, 1, 2, 3, 4] false false v = true ∧ srcOk (mBase v) 1 = true ∧ srcOk (mData v) (sizeWords (mSize v)) = true ∧
    (∀ th ∈ (ctx0 v).active, mLocal (grpOf (bench k []) 0 0) (ctx0 v) th % mSize v = 0 ∧
      mLocal (grpOf (bench k []) 0 0) (ctx0 v) th + mSize v ≤ lsBytes)) :=
  ⟨bench_issues (by decide) rfl rfl (by decide), bench_issues (by decide) rfl rfl (by decide), by decide⟩

/-- Thread 0 in the last word of the window, thread 1 in its own local store through the self alias. -/
def kGlob : Core := withRegs [(4, 0xFFFFFFC), (5, 1)] [(4, 0xBFFFC), (5, 0xA0)]
def kGlobAt (t : Nat) : Nat := if t = 0 then 0x10FFFFFFC else 0xA0000BFFFC
def kGlobPlace (t : Nat) : Place := if t = 0 then .glob 0x10FFFFFFC else .own 0xBFFFC

theorem wit_GlobalLoads : let w := wM 0x10 0 2 2 7 0xBF 4 0
    Issues (bench kGlob []) site0 w (codeRange (mBase w) 2) [] (ctx0 w) ∧ (legalM 0x10 0 [0, 1, 2, 3, 4] true false w = true ∧
    srcOk (mBase w) 2 = true ∧ dstOk (mData w) (sizeWords (mSize w)) = true) ∧
    ∀ th ∈ (ctx0 w).active, globalAccess (bench kGlob []) (grpOf (bench kGlob []) 0 0) (ctx0 w) th (mSize w) true false =
      .ok (kGlobAt th, kGlobPlace th) ∧ meetsPoison (bench kGlob []) 0 (kGlobAt th) (kGlobPlace th) (mSize w) (mCache w != 1) = none := by
  refine ⟨bench_issues (by decide) rfl rfl (by decide), by decide, ?_⟩
  intro th h
  have h' : th = 0 ∨ th = 1 := by simpa [ctx0] using h
  rcases h' with rfl | rfl <;> exact ⟨by rfl, by decide⟩
theorem wit_GlobalStores : let w := wM 0x10 2 2 0 7 1 4 0
    Issues (bench kGlob []) site0 w (storeSrcs w 2) [] (ctx0 w) ∧ (legalM 0x10 2 [0, 1, 2, 3, 4] true false w = true ∧
    srcOk (mBase w) 2 = true ∧ srcOk (mData w) (sizeWords (mSize w)) = true) ∧
    ∀ th ∈ (ctx0 w).active, globalAccess (bench kGlob []) (grpOf (bench kGlob []) 0 0) (ctx0 w) th (mSize w) false true =
      .ok (kGlobAt th, kGlobPlace th) := by
  refine ⟨bench_issues (by decide) rfl rfl (by decide), by decide, ?_⟩
  intro th h
  have h' : th = 0 ∨ th = 1 := by simpa [ctx0] using h
  rcases h' with rfl | rfl <;> rfl
theorem wit_Atomics : let w := wM 0x11 10 2 0 7 1 4 0
    Issues (bench kGlob []) site0 w (atomSrcs 10 w) [] (ctx0 w) ∧ (legalM 0x11 10 [2, 3] false false w = true ∧
    srcOk (mBase w) 2 = true ∧ atomDataOk 10 (mSize w) (mData w) = true) ∧
    ∀ th ∈ (ctx0 w).active, globalAccess (bench kGlob []) (grpOf (bench kGlob []) 0 0) (ctx0 w) th (mSize w) true true =
      .ok (kGlobAt th, kGlobPlace th) ∧ meetsPoison (bench kGlob []) 0 (kGlobAt th) (kGlobPlace th) (mSize w) false = none := by
  refine ⟨bench_issues (by decide) rfl rfl (by decide), by decide, ?_⟩
  intro th h
  have h' : th = 0 ∨ th = 1 := by simpa [ctx0] using h
  rcases h' with rfl | rfl <;> exact ⟨by rfl, by decide⟩

theorem mergeCore_icache (k : Core) (c : List Nat) : mergeCore { k with icache := c } = { mergeCore k with icache := c } := by
  unfold mergeCore
  show (heldGroups k).foldl _ _ = _
  generalize heldGroups k = l
  induction l generalizing k with
  | nil => rfl
  | cons h t ih => exact ih (setGrp k h (mergeSets (grp k h)))

theorem countSlot_icache (k : Core) (c : List Nat) (g : Nat) (m : Word) :
    countSlot { k with icache := c } g m = { countSlot k g m with icache := c } := by
  have h : ∀ (l : List Nat) (k : Core),
      l.foldl (fun k h => if h = g then k else setGrp k h { grp k h with unsel := (grp k h).unsel + 1 }) { k with icache := c } =
        { l.foldl (fun k h => if h = g then k else setGrp k h { grp k h with unsel := (grp k h).unsel + 1 }) k with icache := c } := by
    intro l
    induction l with
    | nil => intro k; rfl
    | cons x t ih =>
      intro k
      simp only [List.foldl_cons]
      by_cases hx : x = g
      · simp only [hx, if_true]; exact ih k
      · simp only [hx, if_false]; exact ih (setGrp k x { grp k x with unsel := (grp k x).unsel + 1 })
  have hl : heldGroups { k with icache := c } = heldGroups k := rfl
  unfold countSlot
  rw [hl, h]
  rfl

/-- The acquirer's checks after the slot is counted, judged on the core alone. -/
theorem acq_free {k : Core} {mem : List Host.Cell} {i : Ctx} {t : Nat} {l : LockAt} {a n : Nat} (hc : i.c = 0)
    (h : acqFault (bench (countSlot (mergeCore k) i.g i.mask) []) i t l a n = none) : acqFault (slotted (bench k mem) i) i t l a n = none := by
  obtain ⟨c, hi⟩ := icFetch_core (bench k mem) i
  obtain ⟨m, g, e, hk⟩ := counted_core (icFetch (bench k mem) i) i
  have h0 : (slotted (bench k mem) i).core i.c =
      { countSlot (mergeCore k) i.g i.mask with icache := c, meters := m, seg := g, ext := e } := by
    have hb : (bench k mem).core i.c = k := by rw [hc]; rfl
    unfold slotted
    rw [hk, hi, hb, mergeCore_icache, countSlot_icache]
  have h1 : (bench (countSlot (mergeCore k) i.g i.mask) []).core i.c = countSlot (mergeCore k) i.g i.mask := by rw [hc]; rfl
  unfold acqFault at h ⊢
  rw [h0]
  rw [h1] at h
  exact h

/-- The word of a lock that thread 0 of core 0 holds. -/
def held0 (a : Nat) : List Host.Cell := [(a, 1)]

theorem wit_LocalLocks : let w := wM 0x12 0 3 0 6 0xC0 1 0
    let v := wM 0x12 2 3 0 7 0xC0 0xC0 0xBFFF8
    let k := withRegs [(1, 0xBFFF8)] [(1, 0xBFFF8)]
    let i : Ctx := { ctx0 v with members := [0], active := [0], mask := 1 }
    let one : Core := { core0 with groups := [(0, { grp0 with threads := [(0, thr0)], sets := [⟨1, 0⟩] })] }
    let s := bench one (held0 0x90000BFFF8)
    Issues (bench k []) site0 w (codeRange (mBase w) 1) [] (ctx0 w) ∧ (legalLock 0 true w = true ∧ srcOk (mBase w) 1 = true ∧
    (∀ th ∈ (ctx0 w).active, mLocal (grpOf (bench k []) 0 0) (ctx0 w) th % 8 = 0 ∧ mLocal (grpOf (bench k []) 0 0) (ctx0 w) th + 8 ≤ lsBytes ∧
      isPoisoned (bench k []).poison (lsAddr 0 + mLocal (grpOf (bench k []) 0 0) (ctx0 w) th) 8 = false) ) ∧
    (∀ th ∈ (ctx0 w).active, acqFault (slotted (bench k []) (ctx0 w)) (ctx0 w) th (.ls 0xBFFF8) 0xBFFF8 th = none) ∧
    Issues s site0 v (codeRange (mBase v) 1) [] i ∧ (legalLock 2 false v = true ∧ srcOk (mBase v) 1 = true ∧
    mLocal (grpOf s 0 0) i 0 = 0xBFFF8 ∧ ownsWord s (s.word64 (lsAddr 0 + 0xBFFF8)) 0 0 0 = true) :=
  ⟨bench_issues (by decide) rfl rfl (by decide), by decide, fun th h => acq_free rfl (by
    have h' : th = 0 ∨ th = 1 := by simpa [ctx0] using h
    rcases h' with rfl | rfl <;> decide +kernel), bench_issues (by decide) rfl rfl (by decide), by decide⟩
theorem wit_GlobalLocks : let w := wM 0x12 1 3 0 7 0xC0 4 0
    let v := wM 0x12 3 3 0 7 0xC0 4 0
    let k := withRegs [(4, 0xFFFFFF8), (5, 1)] [(4, 0xFFFFFF8), (5, 1)]
    let i : Ctx := { ctx0 v with members := [0], active := [0], mask := 1 }
    let one : Core := { core0 with groups := [(0, { grp0 with threads := [(0, { thr0 with gpr := [(4, 0xFFFFFF8), (5, 1)] })], sets := [⟨1, 0⟩] })] }
    let s := bench one (held0 0x10FFFFFF8)
    Issues (bench k []) site0 w (codeRange (mBase w) 2) [] (ctx0 w) ∧ (legalLock 1 true w = true ∧ srcOk (mBase w) 2 = true ∧
    (∀ th ∈ (ctx0 w).active, addrModule (mGlobal (grpOf (bench k []) 0 0) (ctx0 w) th) = (bench k []).modId ∧
      isPoisoned (bench k []).poison (addrLow (mGlobal (grpOf (bench k []) 0 0) (ctx0 w) th)) 8 = false) ) ∧
    (∀ th ∈ (ctx0 w).active, acqFault (slotted (bench k []) (ctx0 w)) (ctx0 w) th (.dev 0x10FFFFFF8) 0x10FFFFFF8 0 = none) ∧
    (∀ th ∈ (ctx0 w).active, lockAddr true (bench k []) (grpOf (bench k []) 0 0) (ctx0 w) th =
      .ok (.dev (mGlobal (grpOf (bench k []) 0 0) (ctx0 w) th))) ∧
    Issues s site0 v (codeRange (mBase v) 2) [] i ∧ (legalLock 3 false v = true ∧ srcOk (mBase v) 2 = true ∧
    ownsWord s (s.word64 (mGlobal (grpOf s 0 0) i 0)) 0 0 0 = true) ∧ lockAddr true s (grpOf s 0 0) i 0 = .ok (.dev (mGlobal (grpOf s 0 0) i 0)) := by
  refine ⟨bench_issues (by decide) rfl rfl (by decide), by decide, fun th h => acq_free rfl ?_, ?_,
    bench_issues (by decide) rfl rfl (by decide), by decide, by rfl⟩
  · have h' : th = 0 ∨ th = 1 := by simpa [ctx0] using h
    rcases h' with rfl | rfl <;> decide +kernel
  intro th h
  have h' : th = 0 ∨ th = 1 := by simpa [ctx0] using h
  rcases h' with rfl | rfl <;> rfl
theorem wit_GlobalLocks_wake : let m : LockWait := ⟨0x10FFFFFF8, 0, 0, 1, 6, true, none⟩
    let k := { core0 with groups := [(0, { grp0 with threads := [(0, thr0), (1, { thr0 with block := .lock true 0x10FFFFFF8 6 })] })] }
    let s := { bench k [] with llc := { Llc.empty with wakes := [m], unrecorded := [m] } }
    s.llc.wakes.find? (fun m => m.core == 0 && m.addr == 0x10FFFFFF8) = some m ∧ (thrOf s 0 m.group m.thread).block = .lock true 0x10FFFFFF8 6 ∧
    addrModule 0x10FFFFFF8 = s.modId ∧ s.llc.unrecorded.find? (fun m => m.core == 0 && m.addr == 0x10FFFFFF8) = some m := by decide

theorem wit_Fences : let k := { core0 with groups := [(0, { grp0 with threads := [(0, thr0), (1, { thr0 with writes := 1 })] })] }
    let w := fun op => wM 0x13 op 0 0 7 0xC0 0xC0 0
    ∀ op ∈ [0, 1, 2], Issues (bench k []) site0 (w op) [] [] (ctx0 (w op)) ∧ legalFence op (w op) = true ∧ (ctx0 (w op)).active ≠ [] := by
  intro k w op h
  have h' : op = 0 ∨ op = 1 ∨ op = 2 := by simpa using h
  rcases h' with rfl | rfl | rfl <;> exact ⟨bench_issues (by decide) rfl rfl (by decide), by decide⟩

theorem wit_Responses : let r : Resp := ⟨9, 0, 0, 0x100000000, 4, 5, 3, 1, false, false, none, []⟩
    let a : Ack := ⟨0, 1, false, false, false, 0x100000000⟩
    let s := bench { core0 with resps := [r, { r with poison := true }], acks := [a, { a with poison := true }] } []
    (s.core 0).resps = r :: [{ r with poison := true }] ∧ (s.core 0).acks = a :: [{ a with poison := true }] ∧ replayHeld (s.core 0) = false ∧
    coreTask s 0 = some task0 ∧ task0.replays = 0 := ⟨by decide, by decide, by decide, rfl, rfl⟩

/-! ## Witnesses: control -/

theorem wit_Branches : let w := wC 0x14 0 0 0 7
    let v := wC 0x14 0 0 0 0xFFFFF
    let b : Word64 := wd 0x14 1 (1 * 2 ^ 32)
    let k := withRegs [(1, 56)] [(1, 0)]
    let k' := withRegs [(1, 64)] [(1, 4)]
    Issues (bench core0 []) site0 w [] [] (ctx0 w) ∧ Issues (bench core0 []) site0 v [] [] (ctx0 v) ∧
    Issues (bench k []) site0 b [cReg b] [] (ctx0 b) ∧ Issues (bench k' []) site0 b [cReg b] [] (ctx0 b) ∧
    (legalC 0x14 0 false false true true w = true ∧ (0 : Int) + 8 * cTgt w = 56 ∧ legalC 0x14 0 false false true true v = true ∧
    (0 : Int) + 8 * cTgt v < 0 ∧ legalC 0x14 1 false false false false b = true ∧ srcOk (cReg b) 1 = true ∧
    (∀ th ∈ [0, 1], (srcOf (bench k []) (ctx0 b) th (cReg b)).toNat % 8 = 0 ∧ (srcOf (bench k []) (ctx0 b) th (cReg b)).toNat < 64) ∧
    ∀ th ∈ [0, 1], (srcOf (bench k' []) (ctx0 b) th (cReg b)).toNat % 8 ≠ 0 ∨ 64 ≤ (srcOf (bench k' []) (ctx0 b) th (cReg b)).toNat) ∧
    codeSize (bench k []) 0 = 64 ∧ codeSize (bench k' []) 0 = 64 :=
  ⟨bench_issues (by decide) rfl rfl (by decide), bench_issues (by decide) rfl rfl (by decide),
   bench_issues (by decide) rfl rfl (by decide), bench_issues (by decide) rfl rfl (by decide), by decide, bench_code _ _ rfl,
   bench_code _ _ rfl⟩

def wExit : Word64 := wC 0x15 1 0 0 0

theorem wit_Exit : Issues (bench core0 []) site0 wExit [] [] (ctx0 wExit) ∧ legalC 0x15 1 false false false false wExit = true ∧
    ∀ th ∈ (ctx0 wExit).members, (thrOf (bench core0 []) 0 0 th).live = true ∧ (thrOf (bench core0 []) 0 0 th).block = .no :=
  ⟨bench_issues (by decide) rfl rfl (by decide), by decide⟩

theorem wit_Barriers_group : let w := wC 0x15 2 15 0 0
    let k := { core0 with groups := [(0, { grp0 with threads := [(0, thr0), (1, thr0), (2, thr0)] , sets := [⟨3, 0⟩, ⟨4, 0⟩] })] }
    Issues (bench core0 []) site0 w [] [] (ctx0 w) ∧ Issues (bench { k with groups := [(0, { grp0 with
      threads := [(0, thr0), (1, thr0), (2, { thr0 with pc := 8 })], sets := [⟨3, 0⟩, ⟨4, 0⟩] })] } []) site0 w [] [] (ctx0 w) ∧
    (legalC 0x15 2 true false false false w = true ∧ (∀ th ∈ [0, 1], (thrOf (bench core0 []) 0 0 th).live = true) ∧
    liveThreads (grpOf (bench core0 []) 0 0) = [0, 1] ∧ (∀ u ∈ [0, 1], (thrOf (bench core0 []) 0 0 u).settled = true) ∧
    2 ∈ liveThreads (grpOf (bench k []) 0 0) ∧ (thrOf (bench k []) 0 0 2).block ≠ .barG (cId w)) :=
  ⟨bench_issues (by decide) rfl rfl (by decide), bench_issues (by decide) rfl rfl (by decide), by decide⟩
theorem wit_Barriers_task : let w := wC 0x15 3 7 1 0
    let two := { core0 with groups := [(0, grp0), (1, grp0)] }
    let lock := { core0 with groups := [(0, { grp0 with threads := [(0, { thr0 with held := [⟨false, 8⟩] }), (1, thr0)] }), (1, grp0)] }
    Issues (bench core0 []) site0 w [] [] (ctx0 w) ∧ Issues (bench two []) site0 w [] [] (ctx0 w) ∧
    Issues (bench lock []) site0 w [] [] (ctx0 w) ∧ (legalC 0x15 3 true true false false w = true ∧ cSeg w = true ∧
    ticketsDone core0 = true ∧ (∀ q ∈ coreLive core0, q.1 = 0 ∧ q.2 ∈ [0, 1] ∧ (thr (grp core0 q.1) q.2).held = [] ∧
      (thr (grp core0 q.1) q.2).settled = true) ∧ uniformPending core0 = false ∧ (∀ th ∈ [0, 1], (thr (grp two 0) th).held = []) ∧
    (∃ q ∈ coreLive two, q.1 ≠ 0 ∧ atBarrier (thr (grp two q.1) q.2).block = false) ∧
    ([0, 1].filter (fun u => !(thr (grp lock 0) u).held.isEmpty)).head? = some 0 ∧
    (∃ q ∈ coreLive lock, q.1 ≠ 0 ∧ atBarrier (thr (grp lock q.1) q.2).block = false)) :=
  ⟨bench_issues (by decide) rfl rfl (by decide), bench_issues (by decide) rfl rfl (by decide),
   bench_issues (by decide) rfl rfl (by decide), by decide⟩
theorem wit_Waits : let w := wd 0x15 4 (0xBF * 2 ^ 32)
    let k := fun (v : Word) => ({ core0 with ctrMma := 1, groups := [(0, { grp0 with urf := [(63, v)] })] } : Core)
    let busy := { k 1 with mmaQ := [⟨⟨0, 0, 0, 0, 0⟩, [], false, .queued⟩] }
    Issues (bench (k 1) []) site0 w [cReg w] [] (ctx0 w) ∧ Issues (bench busy []) site0 w [cReg w] [] (ctx0 w) ∧
    Issues (bench { k 5 with groups := [(0, { grp0 with urf := [(63, 5)] }), (1, grp0)] } []) site0 w [cReg w] [] (ctx0 w) ∧
    (legalC 0x15 4 false false false false w = true ∧ cReg w = 0xBF ∧ ticketState (k 1) 1 = some true ∧
    ticketState busy 1 = some false ∧ ticketState (k 5) 5 = none) :=
  ⟨bench_issues (by decide) rfl rfl (by decide), bench_issues (by decide) rfl rfl (by decide),
   bench_issues (by decide) rfl rfl (by decide), by decide⟩
theorem wit_CounterReads : let w := wd 0x16 0 (11 * 2 ^ 44 + 0x7E * 2 ^ 32)
    Issues (bench core0 []) site0 w [] [] (ctx0 w) ∧ (legalC 0x16 0 true false false false w = true ∧ cId w = 11 ∧
    dstOk (cReg w) 2 = true) ∧ coreTask (bench core0 []) 0 = some task0 ∧ flagCounters task0.flags = false :=
  ⟨bench_issues (by decide) rfl rfl (by decide), by decide, rfl, rfl⟩

/-! ## Witnesses: engines and their queues -/

/-- Words in consecutive uniform registers from U0 up, and the bytes they stand for. -/
def regTab (l : List Nat) : Tab Word :=
  ((List.range l.length).zip l).filterMap (fun p => if p.2 = 0 then none else some (p.1, BitVec.ofNat 32 p.2))
def kDesc (l : List Nat) : Core := { core0 with groups := [(0, { grp0 with urf := regTab l })] }
def descBytes (l : List Nat) : List Nat := l.flatMap (natLe 4)
def z (n : Nat) : List Nat := List.replicate n 0
/-- A 1 × 1 × 4 product of 8-bit integers that drains; a LOAD of 4 bytes, one of them out of bounds; an ATTEND of one row over one
page; and an APPEND of one token that begins a page. -/
def dMma : List Nat := [0x00400101, 0x00040A0A, 0x01010000, 4, 16, 16, 64, 16, 0, 0, 0, 0, 128, 16, 0, 0]
def dXfer : List Nat := [0x00800103, 0x01000500, 0, 9, 0, 1, 0, 32, 3] ++ z 9 ++ [4] ++ z 13
def dAttend : List Nat := [0x00800102, 0, 0x00010101, 0, 0x3F800000, 0, 0, 1, 0, 1, 0, 64, 0, 0, 1024, 128] ++ z 16
def dAppend : List Nat := [0x00800102, 0x01010001, 0x00000101, 0, 0, 0, 0, 1, 0, 128, 256, 128] ++ z 20

theorem wit_Descriptors_mma : let w := wD 0x17 0 1 63 7 0 0
    let s := bench (kDesc dMma) []
    Issues s site0 w (descSrcs w 64) [] (ctx0 w) ∧ legalD 0x17 0 true false w = true ∧
    readDesc s (grpOf s 0 0) (ctx0 w) 0 1 64 = .ok (descBytes dMma, false) ∧ mmaCheck s (ctx0 w) 0 (descBytes dMma) = none ∧
    mmaCheck s (ctx0 w) 0 (descBytes (dMma.set 15 1)) = some ⟨cDESC_INVALID, 0, 0⟩ :=
  ⟨bench_issues (by decide) rfl rfl (by decide), by decide, by rfl, by decide, by decide⟩
theorem wit_Descriptors_xfer : let w := wD 0x19 0 1 63 7 0 0
    let s := bench (kDesc dXfer) []
    Issues s site0 w (descSrcs w 128) [] (ctx0 w) ∧ legalD 0x19 0 true false w = true ∧
    readDesc s (grpOf s 0 0) (ctx0 w) 0 3 128 = .ok (descBytes dXfer, false) ∧ xferCheck s (ctx0 w) 0 (descBytes dXfer) = none := 
  ⟨bench_issues (by decide) rfl rfl (by decide), by decide, by rfl, by decide⟩
theorem wit_Descriptors_attn : let w := wD 0x18 0 1 63 7 0 0
    let s := bench (kDesc dAttend) []
    let s' := bench (kDesc dAppend) []
    Issues s site0 w (descSrcs w 128) [] (ctx0 w) ∧ Issues s' site0 w (descSrcs w 128) [] (ctx0 w) ∧ legalD 0x18 0 true false w = true ∧
    readDesc s (grpOf s 0 0) (ctx0 w) 0 2 128 = .ok (descBytes dAttend, false) ∧ attnCheck s (ctx0 w) 0 (descBytes dAttend) = none ∧
    readDesc s' (grpOf s' 0 0) (ctx0 w) 0 2 128 = .ok (descBytes dAppend, false) ∧ attnCheck s' (ctx0 w) 0 (descBytes dAppend) = none := 
  ⟨bench_issues (by decide) rfl rfl (by decide), bench_issues (by decide) rfl rfl (by decide), by decide, by rfl, by decide, by rfl, by decide⟩

/-- Four words for the last bytes of a line and the first of the next; and a line at the end of the window. -/
def dRed (dst : List Nat) : List Nat := [0x00200104, 2, 0xBFFF0, 4] ++ dst ++ [0, 0]
def dPin : List Nat := [0x00100105, 128, 0xFFFFF80, 1]

theorem wit_ReduceAndPin : let w := wD 0x1A 0 1 0 7 0 0
    let v := wD 0x1B 1 1 0 6 0 0
    let s := bench (kDesc (dRed [0x20F8, 1])) []
    let s' := bench (kDesc dPin) []
    let one : Core := { core0 with groups := [(0, { grp0 with threads := [(0, thr0)], sets := [⟨1, 0⟩], urf := regTab (dRed [0xBFFF0, 0xA0]) })] }
    let i : Ctx := { ctx0 w with members := [0], active := [0], mask := 1 }
    (Issues s site0 w (descSrcs w 32) [] (ctx0 w) ∧ legalD 0x1A 0 false false w = true ∧ (s.core 0).redOut + 2 ≤ 64 ∧
      ∀ th ∈ (ctx0 w).active, readDesc s (grpOf s 0 0) (ctx0 w) th 4 32 = .ok (descBytes (dRed [0x20F8, 1]), false) ∧
      redCheck s (ctx0 w) (descBytes (dRed [0x20F8, 1])) = .ok ⟨2, 0, z 16, 0x1000020F8, .glob 0x1000020F8⟩ ∧
      (thrOf s 0 0 th).redSkip = 0) ∧
    (Issues (bench one []) site0 w (descSrcs w 32) [] i ∧ readDesc (bench one []) (grpOf (bench one []) 0 0) i 0 4 32 =
      .ok (descBytes (dRed [0xBFFF0, 0xA0]), false) ∧ redCheck (bench one []) i (descBytes (dRed [0xBFFF0, 0xA0])) =
      .ok ⟨2, 0, z 16, 0xA0000BFFF0, .own 0xBFFF0⟩ ∧ (thrOf (bench one []) 0 0 0).redSkip = 0) ∧
    (Issues s' site0 v (descSrcs v 16) [] (ctx0 v) ∧ legalD 0x1B 1 false true v = true ∧ coreTask s' 0 = some task0 ∧
      ∀ th ∈ (ctx0 v).active, readDesc s' (grpOf s' 0 0) (ctx0 v) th 5 16 = .ok (descBytes dPin, false) ∧
      pinCheck s' (ctx0 v) (descBytes dPin) = .ok (128, .glob 0x10FFFFF80)) := by
  refine ⟨⟨bench_issues (by decide) rfl rfl (by decide), by decide, by decide, ?_⟩, ⟨bench_issues (by decide) rfl rfl (by decide), by rfl, by rfl, by decide⟩,
    bench_issues (by decide) rfl rfl (by decide), by decide, rfl, ?_⟩ <;> intro th h <;>
    rcases (by simpa [ctx0] using h : th = 0 ∨ th = 1) with rfl | rfl <;> first | exact ⟨by rfl, by rfl, by decide⟩ | exact ⟨by rfl, by rfl⟩

/-- An MMA in the queue of core 0, in a phase, on a module that runs. -/
def oMma (ph : MmaPhase) : MmaOp := ⟨⟨0, 0, 0, 0, 0⟩, descBytes dMma, false, ph⟩
def sMma (ph : MmaPhase) : State := bench { core0 with mmaQ := [oMma ph], grid := .running } []

theorem wit_MatrixEvents :
    ((sMma .queued).core 0).mmaQ.find? (fun o => o.phase == .queued) = some (oMma .queued) ∧ coreIssues (sMma .queued) 0 = true ∧
    mmaMayStart ((sMma .queued).core 0) (oMma .queued) = true ∧ feederPoison (sMma .queued) 0 (mmaD (oMma .queued).desc) = none ∧
    ((sMma .streaming).core 0).mmaQ.find? (fun o => o.phase == .streaming) = some (oMma .streaming) ∧
    ((sMma .products).core 0).mmaQ.find? (fun o => o.phase == .products) = some (oMma .products) ∧
    ((sMma .products).core 0).mmaQ.any (fun p => p.phase == .draining) = false ∧
    ((sMma .draining).core 0).mmaQ.find? (fun o => o.phase == .draining) = some (oMma .draining) ∧
    (∀ a, a < 1 → (drainRow (mmaD (descBytes dMma)) AccSet.empty a).1.length ≤ 16) := by decide
theorem wit_MatrixProducts : let d := mmaD (oMma .streaming).desc
    ((sMma .streaming).core 0).mmaQ.find? (fun o => o.phase == .streaming) = some (oMma .streaming) ∧ d.mx = false ∧ d.half = false ∧
    coreIssues (sMma .streaming) 0 = true ∧ feederPoison (findErrs 0 (sMma .streaming) [(lsAddr 0, .word 0 ⟨0, 0, 0⟩ false)]) 0 d = none ∧ 0 < d.k ∧
    (accOf ((sMma .streaming).core 0) d.acc).ordered = false ∧ (accOf ((sMma .streaming).core 0) d.acc).count + d.k ≤ 2 ^ 24 ∧
    d.m ≤ 64 ∧ d.n ≤ 64 := by decide
theorem wit_LoadUnits : let s := bench { core0 with mmaQ := [oMma .queued], grid := .stopped } []
    let s' := bench { core0 with grid := .dummy } []
    unitRun s (.grid 0) = .stopped ∧ unitWanted s (.grid 0) = true ∧
    unitRun (bench { core0 with grid := .notice } []) (.grid 0) = .notice ∧
    ((s.cluster 0).attnRun ≠ .notice ∧ (s.cluster 0).attnRun ≠ .acked ∧ ∀ c ∈ clusterCores 0, (s.core c).grid ≠ .notice ∧ (s.core c).grid ≠ .acked) ∧
    unitRun (bench { core0 with grid := .running } []) (.grid 0) = .running ∧ unitEmpty (bench { core0 with grid := .running } []) (.grid 0) = true ∧
    (let a := bench { core0 with task := none, grid := .acked } []
     unitRun a (.grid 0) = .acked ∧ unitWanted a (.grid 0) = false ∧ unitEmpty a (.grid 0) = true ∧ (a.core 0).mmaQ = []) ∧
    unitRun s' (.grid 0) = .dummy ∧ unitEmpty s' (.grid 0) = true ∧ (s'.core 0).mmaQ = [] := by decide

def oXfer (started : Bool) (d : List Nat) : XferOp := ⟨⟨0, 0, 0, 0, 0⟩, descBytes d, started, [], [], 0, 0, []⟩
def sXfer (started : Bool) (d : List Nat) : State := bench { core0 with xferQ := [oXfer started d] } []
/-- Two bytes of a box of three to the window's last bytes; and the same with COMMIT of tile 0. -/
def dSave (flags : Nat) : List Nat := [0x00800103, 0x01000501, flags, 0, 0xFFFFFFE, 1, 0, 0xBFFF0, 2] ++ z 9 ++ [3] ++ z 13

theorem wit_Transfers_load : let s := sXfer true dXfer
    let d := xferD (descBytes dXfer)
    coreIssues s 0 = true ∧ xferPoison s 0 d = none ∧ (sXfer false dXfer).core 0 = { core0 with xferQ := [oXfer false dXfer] } ∧
    (s.core 0).xferQ.find? (fun o => o.started && o.org.seq == 0) = some (oXfer true dXfer) ∧ xferBusy s 0 d = false ∧
    xferWaits s 0 (oXfer true dXfer) d = false ∧ xferPoison (findErrs 0 s [(0x10FFFFFFC, .onDie)]) 0 d = none ∧
    tileWaits (s.core 0) (oXfer true dXfer) = false ∧ d.store = false ∧ d.commit = false ∧
    (∀ x ∈ boxUnits d, lsOffOf d x + d.es ≤ lsBytes) ∧
    (boxUnits d).length = 4 ∧ ((boxUnits d).filter (inBounds d)).length = 3 := by decide
theorem wit_Transfers_apart : let d := xferD (descBytes dXfer)
    ∀ x ∈ boxUnits d, ∀ y ∈ boxUnits d, x ≠ y → lsOffOf d x + d.es ≤ lsOffOf d y ∨ lsOffOf d y + d.es ≤ lsOffOf d x := by decide
theorem wit_Transfers_store : ∀ flags ∈ [0, 1], let s := sXfer true (dSave flags)
    let d := xferD (descBytes (dSave flags))
    coreIssues s 0 = true ∧ xferPoison s 0 d = none ∧ xferBusy s 0 d = false ∧ xferWaits s 0 (oXfer true (dSave flags)) d = false ∧
    (s.poison = [] ∧ s.llc.reds = [] ∧ s.llc.lines = []) ∧ d.store = true ∧ d.commit = (flags == 1) ∧
    commitWaits s 0 (oXfer true (dSave flags)) = false ∧ (coreTask s 0).isSome = true ∧
    (∀ x ∈ (boxUnits d).filter (inBounds d), ownLs s 0 (gaddrOf d x).toNat = none ∧ addrModule (gaddrOf d x).toNat = s.modId ∧
      addrLow (gaddrOf d x).toNat + d.es ≤ hbmEnd) ∧
    (boxUnits d).filter (inBounds d) = [[0, 0, 0, 0, 0], [1, 0, 0, 0, 0]] ∧
    (gaddrOf d [0, 0, 0, 0, 0], gaddrOf d [1, 0, 0, 0, 0]) = (0x10FFFFFFE, 0x10FFFFFFF) := by decide

/-- The page list and one page of one token of format 1 and one 32-element slice. -/
def kvMem : List Host.Cell := [(0x100000001, 0x10), (0x100000004, 1), (0x100001000, 1), (0x100001001, 1), (0x100001002, 1)]
def oAttn (d : List Nat) : AttnOp := ⟨⟨0, 0, 0, 0, 0⟩, descBytes d, true, [], [0], [⟨negInf, 0, z 32 |>.map (BitVec.ofNat 32), false⟩], [], [], false, 0, 0, [], [], [], [], [], []⟩
def sAttn (o : AttnOp) : State := { bench { core0 with attnQ := [o] } kvMem with clusters := [(0, { Cluster.fresh with attnRun := .running })] }

theorem wit_Attention_quantum : let o := oAttn dAttend
    let s := sAttn o
    ((List.range 9).map (fun i => (s.cluster 0).attnTurn + 1 + i)).length = 9 ∧
    ((List.range 9).map (fun i => 9 * 0 + ((s.cluster 0).attnTurn + 1 + i) % 9)).findSome? (fun e => (attnReady s e).map (fun o => (e, o))) = some (0, o) ∧
    (s.cluster 0).attnRun = .running ∧ (∀ e ∈ clusterCores 0, appendBusy s e = false) ∧ (s.cluster 0).attnTest = 0 ∧ attnIsAppend o.desc = false ∧ attendSrcPoison s 0 o.desc = none ∧
    o.started = true ∧ o.todo = [0] ∧ listEntry s 0 o 0 = (.ready, 0x100001000) ∧ pageNeed s 0 o 0 0x100001000 = .ready :=
  ⟨by decide, by decide, by decide, by decide, by decide, by decide, by decide, by decide, by decide, by decide +kernel⟩
theorem wit_Attention_ends : let o := { oAttn dAttend with done := true }
    let p := fun n => { oAttn dAppend with aphase := n }
    ((sAttn o).core 0).attnQ = [o] ∧ coreIssues (sAttn o) 0 = true ∧ o.done = true ∧ attnIsAppend o.desc = false ∧ aLse o.desc = false ∧
    aEps o.desc = false ∧ aRows o.desc ≤ 64 ∧ oRowBytes o.desc ≤ af o.desc 60 4 ∧ (∀ r ∈ o.rows, r.o.length = aDim o.desc) ∧
    ∀ n ∈ [1, 3, 4], ((sAttn (p n)).core 0).attnQ = [p n] ∧ (p n).left = 0 ∧ appendSrcPoison (sAttn (p n)) 0 (p n).desc = none ∧
      appendPage (p n).desc % 128 = 0 ∧ ownLs (sAttn (p n)) 0 (appendPage (p n).desc) = none ∧
      addrModule (appendPage (p n).desc) = (sAttn (p n)).modId ∧ addrLow (appendPage (p n).desc) + 64 ≤ hbmEnd := by decide

/-! ## Witnesses: the homes of lines, protection and repair -/

/-- A module at rest whose half 0 holds the line of 0x100000000 and has one request of core 0. -/
def lineA : Nat := 0x100000000 / 128
def sHome (held : Bool) (k : ReqKind) (mem : List Host.Cell) : State :=
  { State.reset with
    mem := mem, cores := [(0, core0)]
    llc := { Llc.empty with reqs := [⟨5, 0, 0, 1, 0x100000000, k⟩], lines := if held then [(lineA, ⟨false, none, false, [], []⟩)] else [] } }

theorem wit_Requests_served : ∀ k ∈ [ReqKind.load 16 false false true 3, .store [1, 2], .atom 10 4 false 3 1 0, .lockAcq 6, .lockRel true,
    .lockRel false, .reduce 2 0 [1, 0, 0, 0] 9, .pinLine true 3 1, .pinLine false 3 1], ∀ held ∈ [true, false],
    let s := sHome held k []
    nextReqOf s 0 s.llc.reqs [] = some ⟨5, 0, 0, 1, 0x100000000, k⟩ ∧ linePresent s 0x100000000 = held ∧ s.towersDown.contains 0 = false ∧
    tget 0 s.pwr.dom 69 ≠ 3 ∧ isHbm 0x100000000 = true ∧ firstPoison s.poison 0x100000000 16 = none ∧ isPoisoned s.poison 0x100000000 8 = false ∧
    s.llc.waits.find? (fun w => w.addr == 0x100000000) = none ∧ homeOf s 0x100000000 = some ⟨0, 0, 0⟩ ∧
    (⟨5, 0, 0, 1, 0x100000000, k⟩ : Req).ofScrub = false ∧ ownsWord s (s.word64 0x100000000) 0 0 1 = false ∧ 0x100000000 + 16 ≤ hbmEnd ∧
    nbit (s.word64 0x100000000) 0 = false ∧ (held = true → lineAt s (lineOf 0x100000000) = some ⟨false, none, false, [], []⟩) ∧
    pinAllowed { s with llc := { s.llc with reqs := [] } } ⟨0, 0, 0⟩ 3 = true := by decide
theorem wit_Requests_down : let s := { sHome true (.lockAcq 6) [(0x100000000, 1)] with towersDown := [0] }
    nextReqOf s 0 s.llc.reqs [] = some ⟨5, 0, 0, 1, 0x100000000, .lockAcq 6⟩ ∧ s.towersDown.contains 0 = true ∧
    nbit (s.word64 0x100000000) 0 = true := by decide

theorem wit_Fills : let e : RedEntry := ⟨0x100000078, 2, 0, [1, 0, 0, 0, 2, 0, 0, 0], 4⟩
    let m : MergeEntry := ⟨0, 31, 0x10000000, 1⟩
    let s : State := { State.reset with
      poison := [(resBase + 16) / 16], cores := [(0, core0)]
      llc := { Llc.empty with fills := [lineA], reds := [e], merges := [m], sources := [(0, 0x1001)], redReqs := [⟨4, 0, 0, 1, 1, false, false, 0, none⟩] } }
    s.llc.fills.contains lineA = true ∧ homeAt s (128 * lineA) = some ⟨0, 0, 0⟩ ∧ (setLines s ⟨0, 0, 0⟩).length < llcWays s 0 0 ∧
    s.llc.reds.find? (fun e => homeAt s e.addr |>.any (fun m => m.half == 0 && m.bank == 0)) = some e ∧
    isPoisoned s.poison e.addr e.data.length = false ∧ s.llc.redReqs.find? (fun r => r.id == e.parent) = some ⟨4, 0, 0, 1, 1, false, false, 0, none⟩ ∧
    s.llc.merges.find? (fun e => e.half == 0 && e.group == 31) = some m ∧
    (resSlot (16 * ((resBase + 31) / 16))).isSome = true ∧ tget 0 s.llc.sources 0 = 0x1000 + 1 ∧ isPoisoned s.poison (resBase + 16) 16 = true ∧
    isPoisoned s.poison 0x1010 16 = false ∧ e.addr + e.data.length ≤ hbmEnd ∧ hostGrants s (0x1010 / 128) = true ∧
    hostGrants { s with host := { s.host with bias := [0] } } (0x1010 / 128) = false := by decide
theorem wit_Fills_full : let l : Line := ⟨false, none, false, [], []⟩
    let s : State := { State.reset with llc := { Llc.empty with fills := [lineA], lines := [(lineA + 2 ^ 20, l)] } }
    s.llc.fills.contains lineA = true ∧ (∀ m, homeAt s (128 * (lineA + 2 ^ 20)) = some m → ∃ p ∈ setLines s m, p.2.pin = none ∧ redBusy s p.1 = false) := by
  refine ⟨by decide, ?_⟩
  intro m h
  refine ⟨(lineA + 2 ^ 20, ⟨false, none, false, [], []⟩), ?_, rfl, by decide⟩
  simp only [setLines, List.mem_filter]
  exact ⟨by simp, by simpa using h⟩

/-- A module in which a row and a column of bank 0, and a row of stack 7, are due, each of whose errors `unc` says whether it can be corrected. -/
def sDue (unc : Bool) : State := { State.reset with ecc := { State.reset.ecc with
  owed := [(1, 0, 1024 + 5), (2, 0, 576 + 9), (3, 7, 2)], finds := [(0, [⟨1, 5, 9, 0, unc, false⟩])] } }
theorem wit_Spares : ∀ unc ∈ [true, false], let s := sDue unc
    let full := { s with ecc := { s.ecc with rows := [(0, 32)], cols := [(0, 8)], hbmRows := [(7, 64)] } }
    (1, 0, 1024 + 5) ∈ s.ecc.owed ∧ (2, 0, 576 + 9) ∈ s.ecc.owed ∧ (3, 7, 2) ∈ s.ecc.owed ∧ (1, 0, 0) ∉ s.ecc.owed ∧
    (findsOf s 0).any (fun x => x.mat == 1 && x.row == 5 && x.unc) = unc ∧ (findsOf s 0).any (fun x => x.mat == 1 && x.bit == 9 && x.unc) = unc ∧
    rowsFree s 0 ≠ 0 ∧ colsFree s 0 ≠ 0 ∧ pauseFree s = true ∧ rowsFree full 0 = 0 ∧ colsFree full 0 = 0 ∧ 0 ∉ full.llc.retired ∧ bankErrors full 0 ≤ 64 ∧
    s.ecc.lastHbm = none ∧ hbmRowsFree s 7 ≠ 0 ∧ hbmRowsFree full 7 = 0 ∧ procDown (s.setReg (0x00030100 + 32) 0) 4 = false ∧
    pauseFree { s with clk := ⟨ticksPerMs, true⟩, vert := { s.vert with lastEnd := some 0 } } = true := by decide

theorem wit_Bundles : let k := bundleKey 1 1 12287
    let b := fun h => { Bundle.fresh with hist := h }
    let s := { State.reset with clk := ⟨ticksPerMs, true⟩, vert := { Vert.fresh with bundles := [(k, b [1])], queue := [k] } }
    s.vert.pausing = none ∧ ((s.bundle k).hist.filter (fun u => decide (s.clk.tick < u + ticksPerMs))).length = 1 ∧
    ({ s with vert := { s.vert with bundles := [(k, { b [] with testing := true })] } }.bundle k).testing = true ∧
    s.vert.queue = [k] ∧ pauseFree s = true ∧
    { s with vert := { s.vert with bundles := [(k, { b [1] with found := [31] })] } }.bundle k =
      { Bundle.fresh with found := [31], errs := 0, hist := [1] } ∧
    { s with vert := { s.vert with pausing := some k } }.vert.pausing = some k := by decide

theorem wit_Banks : let s := { State.reset with vert := { Vert.fresh with retiring := [(1023, false), (512, true)], narrow := [(regionKey 1 47, some 15)] } }
    (512 * 1 + 511, false) ∈ s.vert.retiring ∧ (512 * 1 + 0, true) ∈ s.vert.retiring ∧
    (([(0, 0, 1, 1), (47, 15, 2, 255)] : List (Fin 48 × Fin 16 × Nat × Fin 256)).map (fun p => p.1)).Nodup ∧
    tget none s.vert.narrow (regionKey 1 47) = some 15 ∧ calDue s 1 0 = false ∧ calDue { s with towersDown := [1] } 1 0 = true := by decide

/-! ## Witnesses: power, temperature and traffic classes -/

/-- A module that runs, before anything is configured. -/
def sUp : State := { State.reset with clk := ⟨1000000, true⟩, md := { Md.fresh with perst := false, opened := true }, pwr := { Pwr.fresh with dom := [] } }

/-- Four readings of the I/O die below 100 °C, and one of 115 °C more. -/
def coolIo : List (Fin 16 × Fin 512 × Fin 512) :=
  [(0, 279), (1, 140), (2, 0), (15, 200)].map fun (m, x) => (Fin.ofNat 16 m, Fin.ofNat 512 1, Fin.ofNat 512 x)
def cool : List (Fin 528 × Fin 512 × Fin 512) := allSamples [(0, 1, 279)] coolIo
def hot : List (Fin 528 × Fin 512 × Fin 512) := allSamples [] ((8, 0, Fin.ofNat 512 310) :: coolIo)
theorem wit_Temperatures_samples : sUp.clk.run = true ∧ (cool.map (fun p => p.1)).Nodup ∧ (hot.map (fun p => p.1)).Nodup ∧ sUp.md.off = false ∧
    cool.all (fun p => decide (p.2.2.val < 280) && monLive sUp p.1) = true ∧ sUp.therm.mon = [] ∧
    4 ≤ (cool.filter (fun p => monDie p.1 == 6 && !sUp.therm.failed.contains p.1.val)).length ∧
    (hot.filter (fun p => monDie p.1 == 6 && !sUp.therm.failed.contains p.1.val)).any (fun p => decide (310 ≤ p.2.2.val)) = true ∧
    sUp.therm.failed.contains 527 = false := by decide
theorem wit_Temperatures_estimate : let s := { sUp with pwr := { sUp.pwr with light := List.range 64 } }
    estimate (takeSamples s cool) (ampsOf []) 0 = 0 ∧ estimate (takeSamples s cool) (ampsOf []) 1 = 0 := by decide +kernel
theorem wit_Temperatures_bands : let d : DieTherm := { DieTherm.fresh with underAt := some 500000, delayAt := some 900000, coolAt := some 0, coolMax := 135 }
    let s := { sUp with therm := { sUp.therm with dies := [(2, d)] } }
    let s' := s.setField (oDstat 2) 8 0 280
    let f := s.setField (rCfloor 63) 22 22 1
    (s.die 2).underAt = some 500000 ∧ 500000 + 5 * ticksPerMs ≤ s.clk.tick ∧ suspect s 2 = false ∧ (s'.die 2).delayAt = some 900000 ∧
    900000 + ticksPerMs ≤ s'.clk.tick ∧ bandIn s' 2 < bandOf (govOf s' 2) ∧ (s.die 2).coolAt = some 0 ∧ (s.die 2).coolMax + 4 ≤ bandHigh 0 ∧
    f.regBit (rCfloor 63) 22 = true := by decide

theorem wit_Converters : let p := fun (f : Pwr → Pwr) => { sUp with pwr := f sUp.pwr }
    let conv := fun v => sUp.setReg oConv v
    nbit (tget 0 sUp.pwr.failed 77) 15 = false ∧ 5 ≤ phasesUp { sUp with pwr := { sUp.pwr with failed := [(63, 1)] } } 63 ∧
    phasesUp { sUp with pwr := { sUp.pwr with failed := [(63, 7)] } } 63 ≤ 3 ∧
    (let s := p (fun q => { q with newPath := [(4 * 77 + 3, 1)] })
     tget 0 s.pwr.newPath (4 * 77 + 3) ≠ 0 ∧ tget 0 s.pwr.newPath (4 * 77 + 3) + 9999 ≤ s.clk.tick ∧ tget 0 s.pwr.path 77 < 3) ∧
    (let s := p (fun q => { q with newPath := [(4 * 0 + 1, 1)] })
     tget 0 s.pwr.newPath (4 * 0 + 1) + 9999 ≤ s.clk.tick ∧ tget 0 s.pwr.newPath (4 * 0 + 2) = 0 ∧ tget 0 s.pwr.newPath (4 * 0 + 3) = 0 ∧
     tget 0 s.pwr.path 0 < 1) ∧
    (nbit (tget 0 sUp.pwr.sense 64) 1 = false ∧ pathReduced sUp 64 = false) ∧
    ((conv 0xFFFFF).regBit oConv 3 = true ∧ lostIn (conv 0xFFFFF) 0 4 = 0 ∧ 1 ≤ lostIn (conv 0xFFFFE) 0 4) ∧
    ((conv 0xFFFFF).regBit oConv 19 = true ∧ lostIn (conv 0xFFFFF) (4 + 7 * (13 / 7)) 7 = 0 ∧ 1 ≤ lostIn (conv 0xBFFFF) 18 2) ∧
    tget 0 sUp.pwr.dom 77 ≠ 3 ∧ tget 0 sUp.pwr.dom 77 ≠ 4 := by decide

theorem wit_InputPower : State.reset.md.input = true ∧ ({ State.reset with md := { Md.fresh with input := false } } : State).md.perst = true ∧
    ({ State.reset with md := { Md.fresh with input := false, perst := false } } : State).md.input = false := by decide

theorem wit_ClustersSleep : let p := fun (f : Pwr → Pwr) => { sUp with pwr := f sUp.pwr }
    (let s := p (fun q => { q with light := [63], inrush := [(1, [63])] })
     tget none s.pwr.ramp 1 = none ∧ tget [] s.pwr.inrush 1 = [63] ∧ s.pwr.state = 0 ∧ inrushRoom s 63 = true) ∧
    (let s := p (fun q => { q with light := [63], ramp := [(1, some (63, 994000))] })
     tget none s.pwr.ramp (63 / 32) = some (63, 994000) ∧ 994000 + grantTicks ≤ s.clk.tick ∧ commitOf s 63 ≤ floorOf s 63 (reqOf s 63) ∧
     s.regBit oPwrLim 25 = false ∧ (s.setReg oPwrLim (1 <<< 25)).regBit oPwrLim 25 = true ∧ inCover (s.setReg oPwrLim (1 <<< 25)) 63 = false ∧
     floorsOn (s.setReg oPwrLim (1 <<< 25)) 63 (fun _ => true) = [] ∧ clusterRuns s 63 = true ∧ (s.cluster 63).attnRun = .stopped ∧
     ∀ i, i < 9 → (s.core (9 * 63 + i)).task = none ∧ (s.core (9 * 63 + i)).grid = .stopped) ∧
    canLight sUp 63 = true ∧ (p (fun q => { q with pend := some (0, 1000000) })).pwr.pend = some (0, 1000000) ∧
    (sUp.clk.run = true ∧ sUp.md.off = false ∧ sUp.regBit oPwrLim 25 = false) ∧ (sUp.setReg oPwrLim (1 <<< 25)).regBit oPwrLim 25 = true ∧
    (let s := p (fun q => { q with entry := some (2, 1000000) })
     s.pwr.entry = some (2, 1000000) ∧ s.tasks = [] ∧ s.llc.lines = [] ∧ s.llc.reds = [] ∧ s.llc.reqs = []) := by decide

theorem wit_ClassesShare : let r : ArbReq := ⟨3, 15, 4000, 0⟩
    let x : Arb := { Arb.fresh with slots := 100, queue := [⟨3, 2, 4000, 0⟩, r], recent := [(4000, 2)], grants := 256, mark := some 0 }
    let s := { sUp with cls := { Cls.fresh with arbs := [(3200, x)], sampleAt := some 999900 } }
    let m1 : ArbReq := ⟨1, 0, 4000, 0⟩
    let y : Arb := { Arb.fresh with queue := [r, m1] }
    s.arb (arbNum .cxl) = x ∧ pickMc x (nbit 0xF) = some 3 ∧ pickReq x 3 (pickClass s x 3) = some r ∧ (tget 0 x.served 3 + 1) % 16 ≠ 0 ∧
    x.queue.any (fun q => q.mc == 3 && q.cls == 15) = true ∧ pickMc y (nbit 0xF) = some 1 ∧ y.queue.find? (fun r => r.mc == 1) = some m1 ∧
    (x.queue.any (fun r => r.cls == 2) = true ∧ level s x 2 = 7 ∧ 0 + 256 ≤ x.grants ∧ ∀ p ∈ x.recent, p.2 < 16) ∧
    ({ s with cls := { s.cls with arbs := [(3200, { x with queue := [], slots := 1024 })] } }.arb 3200).queue.any (fun r => r.cls == 0) = false ∧
    999900 + 100 ≤ s.clk.tick ∧ s.cls.sampled < 100 ∧ 100 ≤ ({ s.cls with sampled := 100, misses := [(0, 26)], bad := [(0, 3)] } : Cls).sampled := by decide

/-! ## Witnesses: queues, admission and tasks -/

/-- Queue 1: sizes 2^4 and 2^4, completions to the host, ENABLED, class 3, owner 7; TAIL and HEAD 15, CQ_TAIL 14. -/
def qMem (st : Word64) : List Host.Cell :=
  [(16, 4), (17, 4), (18, 2), (19, st.toNat), (22, 8), (24, 7), (28, 15), (32, 15), (36, 14)].map (fun p => (ctxAddr 1 + p.1, BitVec.ofNat 8 p.2))
def sQueue (st : Word64) : State := { sUp with mem := qMem st }
def bell (tail : Nat) : Word64 := BitVec.ofNat 64 (1 + tail * 2 ^ 24)

theorem wit_Doorbells : admOpen State.reset = false ∧ admOpen (sQueue 1) = true ∧ (sQueue 1).adm.backlog = [] ∧ qState (sQueue 1) 1 = 1 ∧
    qState (sQueue 0) 1 ≠ 1 ∧ doorbellError (sQueue 1) 1 (bell 16).toNat ≠ 0 ∧ doorbellError (sQueue 1) 1 (bell 14).toNat = 0 ∧
    0 + (14 + 16 - 15) % 16 ≤ 64 ∧
    (let s := { sQueue 1 with adm := { (sQueue 1).adm with und := List.replicate 64 ⟨1, 0, none⟩ } }
     doorbellError s 1 (bell 0).toNat = 0 ∧ 64 < s.adm.und.length + 1) ∧
    (14 + 16 - qCqHead (sQueue 1) 1) % 16 ≤ (qCqTail (sQueue 1) 1 + 16 - qCqHead (sQueue 1) 1) % 16 := by decide

def sAdm : State := { ((((sUp.setReg (rClmask 3 false) 1).setReg (rCreg 3) 256).setReg (twrBase 0) 256).setReg (rCcfg 3) 0x3FFFF).setReg oAdmCtrl 10000 with
  pwr := { sUp.pwr with req := [(0, 700)] } }
def sAdm' : State := sAdm.setField (rCfloor 0) 18 10 (floorOf sAdm 0 700)

/-- A program handle that is not the scrub image's, whatever that is. -/
def freeHandle : Nat := if Config.scrubHandle.toNat = 0 then 1 else 0
theorem freeHandle_ne : freeHandle ≠ Config.scrubHandle.toNat := by unfold freeHandle; split <;> omega
/-- Core 0 is free at 700 mV for class 3, and queue 1 has a descriptor of one rank of `prog0`. -/
def sAsk : State := { sAdm' with mem := qMem 1, contexts := [(1, some ⟨[⟨0x100000000, 0x10000000, 3⟩], 7, false⟩)],
                                 programs := [(0, some prog0), (1, some prog0)] }
def dTask : List Nat := [freeHandle, 0, 0, 0, 1, 0, 3, 0, 0x10, 0x27] ++ List.replicate 54 0

theorem ask_program : State.program sAsk freeHandle = some prog0 := by
  have h := freeHandle_ne
  unfold State.program
  rw [if_neg h]
  unfold freeHandle
  split <;> rfl

theorem wit_Admission_accept : let s := { sAsk with adm := { sAsk.adm with und := [⟨1, 15, some (some dTask)⟩] } }
    decideTask s 1 (some dTask) = .accept [0] [155] 4503 := by
  intro s
  have h : programUsable s (Machine.descOf false dTask) = some prog0 := by
    have hp : s.liveProgram freeHandle = some prog0 := by
      show (State.program sAsk freeHandle).filter _ = _
      rw [ask_program]; rfl
    have hn : ¬ (freeHandle = scrubHandle ∧ ¬ nbit 0 4 = true) := fun x => freeHandle_ne x.1
    have hd : (Machine.descOf false dTask).program = freeHandle := by 
      simp [Machine.descOf, dTask, Machine.fieldLe, leNat]; unfold freeHandle; split <;> decide
    have hf : (Machine.descOf false dTask).flags = 0 := by decide
    unfold programUsable
    rw [hd, hf, if_neg hn, hp]
  have h1 : qFlag s 1 2 = false := by decide
  have h2 : fieldsOk s 1 false dTask = true := by decide
  have h3 : contextUsable s 1 7 = true := by decide
  have h4 : placeAndBound s prog0 3 0 1000000 1000000 = .accept [0] [155] 4503 := by decide +kernel
  unfold decideTask
  simp only [h1, h]
  rw [if_neg (by rw [h2]; decide), if_neg (by rw [show s.qf 1 24 2 = 7 by decide, show (Machine.descOf false dTask).context = 1 by decide, h3]; decide),
    if_neg (by decide), if_neg (by decide), if_neg (by decide), if_neg (by decide), if_neg (by decide)]
  exact h4

theorem wit_Admission_refuse : decideTask (sQueue 1) 1 none = .refuse 9 0xFFFFFFFF ∧ (sQueue 1).adm.backlog = [] ∧
    qFlag (sQueue 1) 1 1 = true ∧ viaLead (sQueue 1) = false ∧ cqFull (sQueue 1) 1 = false ∧ qSpilled (sQueue 1) 1 = 0 := by decide
theorem wit_Admission_reads : let u : Undec := ⟨1, 14, none⟩
    let s := { sQueue 1 with mem := qMem 1 |>.map (fun p => if p.1 = ctxAddr 1 + 18 then (p.1, 3) else p),
                             adm := { (sQueue 1).adm with und := [⟨1, 13, some none⟩, u] } }
    s.adm.und.findIdx? (fun u => u.data.isNone && qFlag s u.queue 0) = some 1 ∧ s.adm.und[1]? = some u ∧ descSize s 1 = 64 := by decide
theorem wit_Admission_spill : let e : Entry := ⟨1, List.replicate 32 0, false⟩
    let s := { sQueue 1 with adm := { (sQueue 1).adm with stuck := [e] } }
    s.adm.stuck.find? (fun e => e.queue == 1) = some e ∧ spillSlot s e = some 0 ∧ s.adm.spill = [] ∧ qSpilled s e.queue = 0 ∧
    qFlag s e.queue 1 = true ∧ cqFull s e.queue = false := by decide +kernel

/-- A task of one rank on the first core. -/
def sTask (k : Task) : State := { bench core0 [] with tasks := [(0, some k)], clk := ⟨1000000, true⟩, md := sUp.md, pwr := { sUp.pwr with req := [(0, 700)] } }

theorem bench_program (s : State) (h : s.programs = [(Config.scrubHandle.toNat + 1, some prog0)]) : State.program s (Config.scrubHandle.toNat + 1) = some prog0 := by
  unfold State.program
  rw [if_neg (Nat.succ_ne_self _), h]
  simp [tget]

theorem wit_Tasks_dispatch : let k := { task0 with running := false }
    let s := { sTask k with cores := [] }
    s.task 0 = some k ∧ canDispatch s 0 k = true ∧ (k.plan.map s.phys).Nodup ∧ s.program k.program = some prog0 :=
  ⟨rfl, by decide, by decide, bench_program _ rfl⟩
/-- The task with one attention token used, and the same after `e` more slots. -/
def sUsed : State := { sTask task0 with cores := [(0, { core0 with meters := ⟨0, 0, 0, 0, 1⟩ })] }
theorem used_budget (s : State) (ht : coreTask s 0 = some task0) (hr : (s.core 0).rank = 0)
    (hp : s.programs = [(Config.scrubHandle.toNat + 1, some prog0)]) : rankBudget s 0 = some (Cost.zero, Cost.zero) := by
  unfold rankBudget
  simp only [ht, hr, show s.program task0.program = some prog0 from bench_program s hp, Option.bind_eq_bind, Option.bind_some]
  rfl
def sMeter (e : Nat) : State := (countFixed sUsed 0 0 e).modCore 0 (meterCompute (some (Cost.zero, Cost.zero)) e)
theorem meter_eq (e : Nat) : tickCompute sUsed 0 e = sMeter e := by
  unfold tickCompute sMeter; rw [used_budget sUsed rfl rfl rfl]
theorem wit_Tasks_meters : coreIssues sUsed 0 = true ∧ coreTask sUsed 0 = some task0 ∧ task0.stop = none ∧ replayFirst sUsed 0 = false ∧
    (∀ e ∈ [0, 1], rankBudget (tickCompute sUsed 0 e) 0 = some (Cost.zero, Cost.zero)) ∧
    firstOver ((tickCompute sUsed 0 1).core 0).meters Cost.zero = 1 ∧ firstOver ((tickCompute sUsed 0 0).core 0).meters Cost.zero = 5 ∧
    firstOver ((tickCompute sUsed 0 1).core 0).seg Cost.zero = 1 := by
  refine ⟨by decide, rfl, rfl, by decide, ?_, ?_⟩
  · intro e he
    simp only [List.mem_cons, List.not_mem_nil, or_false] at he
    rw [meter_eq]
    rcases he with rfl | rfl <;> exact used_budget _ rfl rfl rfl
  · simp only [meter_eq]; decide
/-- A core of the same task and tick that stopped at a core fault: the replay goes first. -/
theorem wit_Tasks_replayFirst : let s := { sTask task0 with cores := [(0, core0), (1, { core0 with phase := .stopped, fault := 1, faultAt := 1000000 })] }
    coreIssues s 0 = true ∧ replayFirst s 0 = true := by decide
theorem wit_Tasks_boundary : let k := { task0 with stop := some ⟨stOVERRUN, 1⟩ }
    let s := sTask k
    (s.core 0).task = some 0 ∧ s.task 0 = some k ∧ coreBusy s 0 = false ∧ k.stop.isSome = true ∧
    (let s := { s with cores := [(0, { core0 with groups := [] })] }
     (s.core 0).phase = .running ∧ coreLive (s.core 0) = [] ∧ ticketsDone (s.core 0) = true ∧ (s.core 0).resps = [] ∧ scrubBusy s 0 = false) := 
  ⟨rfl, rfl, by decide, rfl, by decide⟩
theorem wit_Tasks_end : let k := { task0 with ended := [0] }
    let r := { k with flags := 1, stop := some ⟨stPARTIAL, 0⟩ }
    let s := sAdm'
    allEnded k = true ∧ mayRerun k = false ∧ k.running = true ∧ k.progress = 0 ∧ allEnded r = true ∧ mayRerun r = true ∧
    placeAndBound s prog0 3 0 s.clk.tick 1000000 = .accept [0] [155] 4503 ∧ (placeAndBound State.reset prog0 3 0 0 1000000 = .refuse refClassFull 0xFFFFFFFF) := 
  ⟨by decide, by decide, rfl, rfl, by decide, by decide, by decide +kernel, by decide +kernel⟩

theorem wit_Groups : let g := fun (b c : Block) => { grp0 with unsel := 256, threads := [(0, { thr0 with block := b }), (1, { thr0 with block := c })], joins := [⟨8, 3⟩] }
    let s := fun b c => bench { core0 with groups := [(0, g b c)] } []
    (256 ≤ (grpOf (s .no .no) 0 0).unsel ∧ (grpOf (s .no .no) 0 0).sets.any (fun st => !setBlocked (grpOf (s .no .no) 0 0) st) = true) ∧
    (thrOf (s (.join 1024 0) .no) 0 0 0).block = .join 1024 0 ∧ (grpOf (s (.join 1024 0) .no) 0 0).joins = [⟨8, 3⟩] ∧
    coreJudged (s (.barG 1) (.barG 2)) 0 = true ∧ (coreTask (s (.barG 1) (.barG 2)) 0).map (·.fault) = some none ∧
    replayFirst (s (.barG 1) (.barG 2)) 0 = false ∧
    splitCond (s (.barG 1) (.barG 2)) 0 1 [(0, 0), (0, 1)] = true ∧ splitCond (s (.barT 1 false) (.barG 2)) 0 2 (coreLive ((s (.barT 1 false) (.barG 2)).core 0)) = true ∧
    splitCond (s (.barT 1 false) (.barT 1 false)) 0 2 (coreLive ((s (.barT 1 false) (.barT 1 false)).core 0)) = false := by decide

/-! ## Witnesses: replay, self-tests and resets of clusters -/

def ck0 : Ckpt := ⟨[(0, grp0)], 1, 0, 0, 0, Cost.zero, []⟩
def kBad (ph : CorePhase) (code : Nat) : Core := { core0 with phase := ph, fault := code, ckpt := some ck0, ckptNext := some ck0 }

theorem wit_Replay : let s := fun ph code => { bench (kBad ph code) [] with clk := ⟨1000000, true⟩, pwr := sUp.pwr }
    ((bench core0 []).core 0).svc = 0 ∧ faultyCores (s .stopped 0x0502) 0 = [0] ∧
    lostReason task0 ((s .stopped 0x0502).core 0) false = none ∧ lostReason { task0 with replays := 1 } ((s .stopped 0x0502).core 0) false = some 1 ∧
    (∀ b, coverTarget (s .stopped 0x0502) 0 b = none) ∧ 
    ((s .fencing 0x0502).core 0).phase = .fencing ∧ ((s .fencing 0x0502).core 0).ckpt = some ck0 ∧ (s .fencing 0x0502).phys 0 = some 0 ∧
    ((s .restoring 0x0502).core 0).phase = .restoring ∧ ((s .ckptWrite 0).core 0).ckptNext = some ck0 ∧ ((s .ckptWrite 0).core 0).phase = .ckptWrite := by decide
theorem wit_Replay_targets : let s := { bench (kBad .stopped cPOISONED) [] with clk := ⟨1000000, true⟩, pwr := sUp.pwr }
    let r := { s with cores := [(0, { kBad .stopped 0x0302 with svc := 1 })] }
    targetOf s task0 0 0 cPOISONED = some (0, s) ∧ targetOf r task0 0 0 0x0302 = some (0, r.setPhys 0 (some 8)) := ⟨by rfl, by rfl⟩
theorem wit_Replay_reservations : let k := { task0 with running := false, floors := [200] }
    let off := { sTask k with cores := [(0, { Core.idle with svc := 1 })] }
    let gone := { sTask k with cores := [], clusters := [(0, { Cluster.fresh with retired := true })] }

    (off.task 0).map (fun k => (k.running, k.stop, k.plan.length)) = some (false, none, 1) ∧ logicalUp off 0 = false ∧ (off.cluster 0).retired = false ∧ spareOf off 0 = some 8 ∧
    logicalUp gone 0 = false ∧ (gone.cluster 0).retired = true ∧ (∀ b, coverTarget gone 0 b = none) ∧ bestFloor (sTask k) 0 < 1000 := by decide +kernel

theorem wit_SelfTests : let k := { Core.idle with svc := 1, test := rasGridParity }
    let s := { sUp with cores := [(575, k), (0, { k with swap := some (some 63, none) })], clusters := [(63, { Cluster.fresh with attnTest := rasAttnParity, resetting := true })] }
    (s.core 575).svc = 1 ∧ (s.core 575).test ≠ 0 ∧ (s.core 575).task = none ∧ (s.core 575).swap = none ∧ (s.core 575).rowSpare = 64 ∧
    (s.core 575).test < rasCoreFault ∧ (s.core 0).swap = some (some 63, none) ∧ (s.cluster 63).attnTest ≠ 0 ∧ (s.cluster 63).resetting = true ∧
    clusterFree s 63 = true := by decide

/-! ## Witnesses: mailboxes -/

def servedB (s : State) (n op : Nat) (req : List Nat) : Bool :=
  !(if n = 16 then sideDark s else mbxDark s) && !busyMbx s n && mbxTarget s n == s.modId && s.fw.calls.isEmpty && !s.fw.recovery && decide (req.length ≤ 4096) &&
  (match serverOf (callOf n op req false) with | none => true | some q => serves s q) && decide (req.length = reqSize op req) &&
  (match catOf op with
   | none => false
   | some k => k.takes n && (!k.sess || (s.md.opened && (s.session n).any (fun x => !x.bad))) && !(k.block.any (lockedFor s n)))
theorem served_of {s : State} {n op : Nat} {req : List Nat} (h : servedB s n op req = true) : Served s n op req := by
  simp only [servedB, Bool.and_eq_true, decide_eq_true_eq, Bool.not_eq_true', beq_iff_eq, List.isEmpty_iff] at h
  obtain ⟨⟨⟨⟨⟨⟨⟨⟨h1, h2⟩, h3⟩, h4⟩, h5⟩, h6⟩, h7⟩, h8⟩, h9⟩ := h
  refine ⟨⟨h1, h2, h3, h4, h5, h6, fun q hq => ?_⟩, h8, ?_⟩
  · rw [hq] at h7; exact h7
  · cases hk : catOf op with
    | none => rw [hk] at h9; cases h9
    | some k =>
      rw [hk] at h9
      simp only [Bool.and_eq_true, Bool.not_eq_true', Bool.or_eq_true] at h9
      obtain ⟨⟨g1, g2⟩, g3⟩ := h9
      refine ⟨k, rfl, g1, fun hs => ?_, fun b hb => ?_⟩
      · rcases g2 with g2 | ⟨g2, g4⟩
        · rw [hs] at g2; cases g2
        · cases hx : s.session n with
          | none => rw [hx] at g4; cases g4
          | some x => rw [hx] at g4; exact ⟨g2, x, rfl, by simpa using g4⟩
      · rw [hb] at g3; simpa using g3

/-- Every mailbox has its session; a queue, a program, a context, a job and a dump are there. -/
def sMbx : State := { sUp with
  mem := qMem 1, regs := (List.range 7).map (fun p => (rPstat p, 0)) ++ [(rWstat, 3)]
  fw := { Fw.fresh with sess := (List.range 17).map (fun n => (n, some ⟨7, verOf n, false⟩)),
                        jobs := [⟨9, 0, 0x40, 4, 0, [], 0, some 5, 0, 0, []⟩] }
  programs := [(0, some prog0), (1, some prog0)], contexts := [(1, some ⟨[⟨0x100000000, 0x10000000, 3⟩], 7, false⟩)] }
def le (l : List (Nat × Nat)) : List Nat := l.flatMap (fun p => natLe p.1 p.2)
/-- A request for each opcode with a mailbox that takes it. -/
def rQueue : List Nat := le [(8, 0x40), (8, 0x80), (1, 4), (1, 20), (1, 3), (1, 0), (2, 2047), (2, 0x8008), (2, 7), (2, 0)] ++ List.replicate 28 0 ++ le [(4, 0xFFFFF), (4, 0)]
def rModify : List Nat := le [(8, 0), (8, 0), (1, 4), (1, 4), (1, 3), (1, 0), (2, 16), (2, 8), (2, 7), (2, 0)] ++ List.replicate 28 0 ++ le [(4, 1), (4, 0)]
def rContext : List Nat := le [(2, 4095), (2, 0)] ++ List.replicate 28 0 ++ le [(8, 0x1000), (8, 0x1000), (1, 3)] ++ List.replicate 1007 0
def rGranule (reload src : Nat) : List Nat := le [(4, 2047), (2, 1), (1, reload), (1, 0), (8, src)]
def calls : List (Nat × Nat × List Nat) := [
  (16, 1, []), (0, 2, []), (12, 3, [0, 1, 0, 0]), (13, 4, []), (14, 5, le [(4, 9)]), (0, 6, le [(4, 4095)]), (7, 7, le [(4, 1)]), (8, 0x10, le [(8, 0x100000000)]),
  (0, 0x11, le [(4, 1)]), (0, 0x20, rContext), (11, 0x21, [1, 0]), (0, 0x22, rGranule 1 0x200000), (0, 0x30, rQueue), (0, 0x31, rModify), (0, 0x32, le [(4, 1)]),
  (0, 0x33, le [(4, 1)]), (0, 0x34, le [(4, 0xFFFFF)]), (0, 0x40, le [(8, 0), (8, 4096), (1, 14), (1, 1)] ++ List.replicate 14 0), (0, 0x50, [1, 0, 0, 0]), (0, 0x51, [1, 1, 0, 0]),
  (0, 0x52, []), (0, 0x53, [0, 0, 0, 0]), (0, 0x53, [1, 0, 0, 0]), (0, 0x53, [2, 0, 0, 0]), (13, 0x60, le [(4, 0), (4, 1000000)]), (13, 0x61, []),
  (0, 0x70, le [(4, 0), (4, 1), (4, 2), (4, 0), (1, 9)]), (0, 0x71, []), (0, 0x72, List.replicate 68 0), (0, 0x80, [6, 0, 0, 0] ++ le [(4, 0x40000)]), (0, 0x81, [6, 0, 0, 0]),
  (14, 0x82, [6, 3, 0, 0]), (12, 0xA0, [6, 0, 0, 0] ++ le [(4, threeMiB)]), (12, 0xA1, le [(4, threeMiB - 1), (4, 1), (1, 5)]), (12, 0xA2, [6, 0, 0, 0]),
  (12, 0xA3, [6, 0, 0, 0]), (12, 0xA4, [6, 0, 0, 0])]

theorem wit_Served : ∀ p ∈ calls, Served sMbx p.1 p.2.1 p.2.2 := by
  have h : calls.all (fun p => servedB sMbx p.1 p.2.1 p.2.2) = true := by decide +kernel
  intro p hp
  exact served_of (List.all_eq_true.mp h p hp)

theorem wit_Mailbox_checks : callFault { sMbx with fw := { sMbx.fw with sess := [] } } (callOf 0 0x10 [] false) = some (mNO_SESSION, 0) ∧
    MbxFree { sMbx with fw := { sMbx.fw with sess := [] } } 0 0x10 [] := 
  ⟨by decide, by decide, by decide, by decide, rfl, rfl, by decide, fun q h => by
    have : q = SUP := by simpa [serverOf, callOf] using h.symm
    subst this; decide⟩
theorem wit_Mailbox_common : (0x0200 / 256 = verOf 12 / 256 ∧ 0x0100 / 256 ≠ verOf 12 / 256) ∧ (sMbx.job 9).any (fun j => j.mbx == 0 && decide (j.answer.length ≤ 4080)) = true ∧
    ownsLocks sMbx 0 = true ∧ ownsLocks (sMbx.setReg rLock 0x1FFF) 0 = false ∧ (sMbx.session 0).any (fun x => !x.bad) = true := by decide
theorem ctx_fields : ctxFields (callOf 0 0x20 rContext false) = none := by
  have hp : (callOf 0 0x20 rContext false).req = (le [(2, 4095), (2, 0)] ++ List.replicate 28 0 ++ le [(8, 0x1000), (8, 0x1000), (1, 3)]) ++
    List.replicate 1007 0 := rfl
  have hl : (le [(2, 4095), (2, 0)] ++ List.replicate 28 0 ++ le [(8, 0x1000), (8, 0x1000), (1, 3)]).length = 49 := by decide
  have hz : ∀ l : List (Nat × Nat), (∀ p ∈ l, 49 ≤ p.1) → badBits (callOf 0 0x20 rContext false) l = none := by
    intro l h
    unfold badBits
    rw [List.findSome?_eq_none_iff]
    intro p hp'
    have h0 : (callOf 0 0x20 rContext false).req.getD p.1 0 = 0 := by
      rw [hp, List.getD_append_right _ _ _ _ (by rw [hl]; exact h p hp')]
      generalize p.1 - _ = k
      rw [List.getD_eq_getElem?_getD, List.getElem?_replicate]; split <;> rfl
    rw [h0]; simp [nbits]
  have h1 : badBits (callOf 0 0x20 rContext false) (zeroAt ((List.range 28).map (· + 4))) = none := by decide +kernel
  have h2 : ∀ i ∈ List.range 32, firstFail [(32 + 32 * i, (ctxEntry (callOf 0 0x20 rContext false) i).size = 0 || ((ctxEntry (callOf 0 0x20 rContext false) i).base % 4096 == 0 &&
      decide ((ctxEntry (callOf 0 0x20 rContext false) i).base < 2 ^ 54))), (32 + 32 * i + 8, (ctxEntry (callOf 0 0x20 rContext false) i).size % 4096 == 0),
      (32 + 32 * i + 16, decide ((ctxEntry (callOf 0 0x20 rContext false) i).rights < 4))] = none := by decide +kernel
  unfold ctxFields
  rw [if_neg (by decide), h1, Option.none_or, List.findSome?_eq_none_iff]
  intro i hi
  show (firstFail _).or _ = none
  rw [h2 i hi, Option.none_or]
  refine hz _ fun p hp' => ?_
  simp only [zeroAt, List.map_cons, List.mem_cons, List.map_map, List.mem_map] at hp'
  rcases hp' with rfl | ⟨a, _, rfl⟩ <;> (simp; try omega)
theorem wit_Mailbox_objects : let c := fun op req => callOf 0 op req false
    (firstFail (programChecks sMbx 0x100000000) = some 1 ∧ (tget none sMbx.programs 1).map (·.withdrawn) = some false ∧ programBusy sMbx 1 = false ∧
      programBusy { sMbx with tasks := [(0, some { task0 with program := 1 })] } 1 = true) ∧
    (ctxFault sMbx (c 0x20 rContext) = none ∧ contextBusy sMbx 4095 = false ∧
      (sMbx.context 1).isSome = true ∧ contextBusy sMbx 1 = false) ∧
    (sourceOk sMbx 0x200000 = true ∧ granulesUsed sMbx 2047 1 = false ∧ Memory.wf sMbx.mem = true) ∧
    (queueFields sMbx (c 0x30 rQueue) (queueReq (c 0x30 rQueue)) = none ∧ qState sMbx 0xFFFFF = 0 ∧
      queueFields sMbx (c 0x31 rModify) (queueReq (c 0x31 rModify)) = none ∧ qState sMbx 1 ≠ 0 ∧ queueBusy sMbx 1 = false ∧
      ringFields (readBytes sMbx.mem (ctxAddr 1) 64) ≠ ringFields (queueReq (c 0x31 rModify)) ∧
      ringFields (readBytes sMbx.mem (ctxAddr 1) 64) = ringFields (queueReq (c 0x31 (readBytes sMbx.mem (ctxAddr 1) 64)))) := by decide +kernel
theorem wit_Mailbox_module : let s := sMbx
    let at_ := fun n => { s with fw := { s.fw with procs := [(6, { Proc.fresh with stage := n })], last := [(12, 7)] } }
    JobRoom s ∧ scrubRange s ⟨0, 4096, 14, 1, 0, 0⟩ = true ∧ stateBusy s = false ∧ s.md.resets = [] ∧ s.md.waiting = [] ∧ s.pwr.entry = none ∧
    s.pwr.state = 0 ∧ ({ s with pwr := { s.pwr with state := 2 } } : State).pwr.state ≠ 0 ∧ s.fw.lics.length ≤ 16 ∧
    licenceFault s [9, 0] 2 = some (mCHECK_FAILED, 1) ∧ (s.proc 6).stage = 0 ∧ slotWindow s = true ∧ ((at_ 2).proc 6).stage = 2 ∧
    slotWindow { s with regs := [] } = false ∧ ((at_ 3).proc 6).stage = 3 ∧ s.fw.act = none ∧ tget 0 (at_ 2).fw.last 12 = 6 + 1 ∧
    ({ s with lup := { s.lup with members := [] }, fw := { s.fw with calls := [⟨3, 1, [], false, false, [], 0, none, some (63, 5)⟩] } } : State).lup.members = [] := by
  refine ⟨by unfold JobRoom; decide, by decide, ?_⟩
  decide +kernel
/-- An image whose pages are erased flash but for the fields that the checks ask for. -/
theorem wit_Mailbox_images : let s := { sMbx with fw := { sMbx.fw with slots := [(13, some [])] } }
    imageFault s 6 1 4096 = some 1 ∧ handoffConflict { s with fw := { s.fw with slots := [(12, some []), (13, some [(6, 255)])] } } 6 = false := by decide +kernel

/-! ## Witnesses: firmware, registers and counters -/

theorem wit_Processors : let s := sMbx
    let st := fun p v => { s with regs := tset (regReset (rPstat p)) s.regs (rPstat p) (BitVec.ofNat 32 v) }
    s.fw.calls = [] ∧ procAlive s 6 = true ∧ (s.proc 6).dump = none ∧ (tripsNow s 6).length < 3 ∧
    3 ≤ (tripsNow { s with fw := { s.fw with procs := [(6, { Proc.fresh with trips := [999997, 999998, 999999] })] } } 6).length ∧
    mbxDark s = false ∧ pstate (st 6 pSTARTING) 6 = pSTARTING ∧ (startsAfter 6).all (serves (st 6 pSTARTING)) = true ∧
    pstate (st 1 pSTARTING) 1 = pSTARTING ∧ (startsAfter 1).all (serves (st 1 pSTARTING)) = true ∧ pstate (st 6 pRESTARTING) 6 = pRESTARTING ∧
    s.fw.act = none ∧ pstate (st 6 pSELFCHECK) 6 = pSELFCHECK ∧ slotWindow s = true ∧ slotWindow { s with regs := [] } = false ∧
    s.regBit rWstat 0 = true ∧ (s.setReg rWstat 0x88).regBit rWstat 3 = true ∧ (s.setReg rWstat 0x44).regBit rWstat 6 = true ∧
    (s.job 9).map (·.ended) = some (some 5) ∧ 5 + tenSeconds ≤ ({ s with clk := ⟨5 + tenSeconds, true⟩ } : State).clk.tick ∧ serves s 0 = true := by decide

theorem wit_Registers : (regAt oAdmCtrl).isSome = true ∧ inRange oAdmCtrl 0x1000 = true ∧ (regAt 0x00200028) = none ∧
    locked (sUp.setReg rLock 0xFFF) oAdmCtrl = true ∧ locked sUp oAdmCtrl = false ∧ (pairAt 0x01010000).isSome = true ∧
    ({ sUp with msix := { sUp.msix with enable := true, pba := [2047] } } : State).msix.pba.contains 2047 = true := by decide
theorem wit_Registers_plain : PlainReg oAdmCtrl ∧ PlainReg 0x00030208 := by
  constructor <;> unfold PlainReg <;> (repeat' apply And.intro) <;> decide

theorem wit_Settings : let s := sUp
    let n := { s with llc := { s.llc with rescfgNext := some 0x321C } }
    s.tasks = [] ∧ applying s = false ∧ locked s rRescfg = false ∧ (∀ h, h < 4 → nbits 0x321C (4 * h + 3) (4 * h) ≤ 12) ∧
    ¬ (∀ h, h < 4 → nbits 0xD000 (4 * h + 3) (4 * h) ≤ 12) ∧ n.llc.rescfgNext = some 0x321C ∧ n.llc.lines = [] ∧ n.llc.retired = [] ∧
    locked s (rPlaceRng 15) = false ∧ flightMeets s 0 4096 = false ∧ locked (s.setReg rLock 0xFFF) (rPlaceRng 15) = true ∧
    locked s (rRgnRng 63) = false ∧ locked (s.setReg rLock 0xFFF) (rRgnRng 63) = true ∧ s.ecc.region = none ∧
    ({ s with ecc := { s.ecc with region := some (63, 1, 7) } } : State).ecc.region = some (63, 1, 7) ∧
    locked s (rClmask 14 true) = false ∧ halfClusters true 0x80000000 = [63] ∧ otherHolds s 14 63 = false ∧ inCover s 63 = false ∧
    inCover (s.setReg 0x00200024 0x80000000) 63 = true ∧ (s.cluster 63).retired = false ∧ s.regBit (rClcore 63) 21 = false ∧
    reqOf s 63 ≤ 920 ∧ (List.range 16).all (fun d => !inClass s d 63) = true := by decide
theorem wit_Settings_bias : let s := sUp.setReg rHlink 1
    s.regBit oBiasstat 0 = false ∧ s.regField rHlink 1 0 ≠ 0 ∧ sUp.regField rHlink 1 0 = 0 ∧ s.regField oBiasrng 16 0 + 131072 ≤ 131072 ∧
    flightMeets s 0 (131072 * mib2) = false ∧ flightMeets { s with tasks := [(0, some { task0 with context := 0 })], contexts := [(0, some ⟨[⟨0, 4096, 3⟩], 7, false⟩)] } 0 mib2 = true ∧
    ({ s with host := { s.host with biasCmd := some (true, 131071, 1) } } : State).host.biasCmd = some (true, 131071, 1) := by decide

theorem wit_Counters : let p := { sUp.pwr with dom := (List.range 63).map (fun c => (c + 1, 3)) }
    let s := { ((sUp.setReg oDumpcfg (1 <<< 28 ||| 1 <<< 21)).setReg oRingcfg 16) with pwr := p }
    let f := s.setField oRinghead 29 0 (65536 - 96)
    s.regBit oDumpcfg 28 = true ∧ sUp.regBit oDumpcfg 28 = false ∧ pairAt 0x010100B4 = none ∧ pairAt 0x01010000 = some (0x2000, false) ∧
    pairAt 0x01010004 = some (0x2000, false) ∧ (pairAt 0x01000400).map (·.2) = some true ∧
    (dumpGroups s).filter (fun g => groupOn s g.1 g.2) = [(1, 0)] ∧ s.pmc.lost = 0 ∧
    (f.regField oRinghead 29 0 + snapLen 1 ≤ ringSize f ∧
      (f.regField oRinghead 29 0 + ringSize f - f.regField oRingtail 29 0 % ringSize f) % ringSize f + snapLen 1 = ringSize f) ∧
    (s.regField oRinghead 29 0 + snapLen 1 ≤ ringSize s ∧
      (s.regField oRinghead 29 0 + ringSize s - s.regField oRingtail 29 0 % ringSize s) % ringSize s + snapLen 1 < ringSize s) := by decide +kernel
theorem wit_Counters_window : let s := { sUp.setReg oBwwin 10000 with pmc := { Pmc.fresh with cnt := [(pairPort 4233 1, 5)] } }
    let w := (sUp.setReg (selAt 0 575 7) 0x6000).setReg oPmc 1
    s.regField oBwwin 19 0 ≠ 0 ∧ s.clk.run = true ∧ s.clk.tick % (100 * s.regField oBwwin 19 0) = 0 ∧ busyPorts s ≠ [] ∧
    w.regBit (selAt 0 575 7) 13 = true ∧ w.regBit (selAt 0 575 7) 14 = true ∧ counting w = true := by decide

/-! ## Witnesses: the host and resets -/

/-- The same module with its host link in CXL 2.0 mode. -/
def sHost : State := { sUp with regs := [(rHlink, 2)], mem := [(0x100000000, 5)], poison := [0x10000001],
                                host := { sUp.host with hdm := [⟨16, 2, true, false⟩, ⟨64, 1, true, false⟩], held := [(lineA, true)] } }

theorem wit_Host_memory : let s := sHost
    let s' := { s with md := { s.md with opened := false } }
    let down := { s with towersDown := [0, 1] }
    hostUp s = true ∧ (bar2Addr s 0 = 0 ∧ addrModule (bar2Addr s 0) = s.modId ∧ spaceOf s 0 128 = .home ∧ placeDown s 0 = false ∧ placeDown down 0 = true ∧
      linePresent { s with llc := { s.llc with lines := [(0, ⟨false, none, false, [], []⟩)] } } 0 = true) ∧
    s'.md.opened = false ∧ spaceOf s 0x004000000000 1 = .reserved ∧ spaceOf s 0x8FFFFFFFFF 1 = .nowhere ∧ spaceOf s 0x90000BFFFF 1 = .store 0 ∧
    spaceOf s 0x90000BFFFF 2 = .nowhere ∧ (s.core 0).task = none ∧ s.llc.reds = [] ∧ 0 + 128 ≤ hbmEnd ∧
    (let r := { s with lup := { s.lup with members := [0, 1], routes := [(1, (1, 1))] } }
     addrModule (2 ^ 48) ≠ r.modId ∧ spaceAway 0 1 = .home ∧ spaceAway 0x004000000000 1 = .reserved ∧ spaceAway 0x8FFFFFFFFF 1 = .nowhere ∧ reaches r 1 = true ∧
     reaches s 1 = false ∧ bar2Addr (r.setReg 0x0000E008 (2 ^ 18)) 0 = 2 ^ 48) ∧
    s.regBit rHlink 12 = false ∧ (s.setReg rHlink 0x1002).regBit rHlink 12 = true ∧ covers (decoder s 0) (18 * mib256 - 64) 64 = true ∧
    covers (decoder s 0) (18 * mib256) 64 = false ∧ covers (decoder s 1) (18 * mib256) 64 = false ∧ covers (decoder s 1) (64 * mib256) 64 = true := by decide
theorem wit_Host_traffic : let s := sHost
    s.regField rHlink 1 0 = 2 ∧ (decoder s 1).locked = false ∧ (decoder s 0).commit = true ∧ 1022 + (decoder s 0).size ≤ 1024 ∧
    1023 + (if (decoder s 1).commit then (decoder s 1).size else 0) ≤ 1024 ∧
    ({ s with md := { s.md with booting := true } } : State).md.booting = true ∧ (s.setReg rHlink 1).regField rHlink 1 0 = 1 ∧
    s.host.held.any (fun h => h.1 == lineA) = true ∧ s.llc.reds = [] ∧
    (let m : LMsg := ⟨tRD, 0, 7, 0, 1, 1, false, 9, 0x100000000, 0, 0, .none⟩
     let s := { s with host := { s.host with waits := [⟨lineA, false, 8, m⟩] } }
     s.host.waits = [⟨lineA, false, 8, m⟩] ∧ m.pay = .none ∧ 128 * lineA + 128 ≤ hbmEnd) := by decide
theorem wit_Resets : let r : RunReset := ⟨[1], false, true, false, some 9⟩
    let b : RunReset := ⟨[0, 1], true, false, false, none⟩
    (sUp.md.perst = false ∧ sUp.md.input = true) ∧ (State.reset.md.perst = true ∧ State.reset.md.input = true) ∧ (sUp.clk.run = true ∧ sUp.md.off = false) ∧
    bootDone { sMbx with md := { sUp.md with booting := true } } = true ∧ sHost.regField rHlink 1 0 = 2 ∧ sHost.md.resets = [] ∧ sHost.md.waiting = [] ∧
    stateBusy sHost = false ∧ testsPending sUp 1 = false ∧ ({ sUp with md := { sUp.md with resets := [r] } } : State).md.resets = [r] ∧ r.towers = [1] ∧
    b.towers = [0, 1] ∧ b.clean = false := by decide

/-! ## Witnesses: Lupin links -/

/-- Module 0 with link 8 up to module 1, on which message `m` arrives. -/
def sLink (ls : Nat) : State := { sUp with
  regs := [(rLstat 8, BitVec.ofNat 32 (ls + 0xF0))], mem := [(0x100000000, 1)]
  lup := { Lup.fresh with members := [0, 1, 2], routes := [(1, (8, 1)), (2, (8, 2))] } }
def msg (typ size addr : Nat) (pay : LPay) : LMsg := ⟨typ, 0, size, 0, 1, 1, false, 9, addr, 0, 0, pay⟩
def msgs : List (LMsg × Nat) := [
  (msg tRD 7 0x100000000 .none, tRD), (msg tWR 1 0x100000000 (.data [1, 2]), tWR), (msg tATOM 3 0x100000008 (.atom 10 1 2), tATOM),
  (msg tLOCK 3 0x100000008 (.lock true false 575 15 31), tLOCK), (msg tLOCK 3 0x100000000 (.lock false true 1 0 0), tLOCK),
  (msg tPIN 7 0x100000000 (.pin false 128), tPIN), (msg tRED 0 0x100000080 (.red 2 0 [1, 0, 0, 0]), tRED), (msg tRDRESP 2 0 (.data [1, 2, 3, 4]), tRDRESP),
  (msg tACK 0 0 .none, tACK), (msg tATOMRESP 0 0 (.value 1 true), tATOMRESP), (msg tNACK 0 0 .none, tNACK),
  (msg tDOORBELL 0 0x00100000 (.word 1), tDOORBELL), (msg tDOORBELL 0 0x00100008 (.word 1), tDOORBELL),
  (msg tMGMT 0 0 (.mboxGo 16 1 [] [] 0), tMGMT), (msg tMGMT 0 0 (.mboxGo 0 4 [] [] 0), tMGMT), (msg tMGMTRESP 0 0 (.mboxAns 15 mOK 0 [7]), tMGMTRESP)]
/-- What only the lead serves, and what only the lead sends (to module 3). -/
def msgsToLead : List (LMsg × Nat) := [(msg tHOSTRD 6 0x40 .none, tHOSTRD), (msg tHOSTWR 0 0x40 (.data [1]), tHOSTWR), (msg tMSIX 0 0 (.word 2047), tMSIX)]
def fromLeadTo3 (pay : LPay) : LMsg × Nat := ({ msg tMGMT 0 0 pay with dst := 3, src := 0 }, tMGMT)
def msgsFromLead : List (LMsg × Nat) := [fromLeadTo3 (.mmio 0x03FFFFFC none), fromLeadTo3 (.mmio oAdmCtrl (some 1)),
  fromLeadTo3 (.routes true [(0, 8, 1)] [0, 1]), fromLeadTo3 (.failover 0 []), fromLeadTo3 (.failover 56 [(1, 8, 1)])]

def arrivesB (s : State) (m : LMsg) (typ : Nat) : Bool :=
  m.typ == typ && linkState s 8 == 2 && rxReason s m 0 == none && m.dst == s.modId &&
    (msgClass typ == some 0 || !(tget [] s.lup.seen m.src).contains m.tag)
theorem arrives_of {s : State} {m : LMsg} {typ : Nat} (h : arrivesB s m typ = true) : Arrives s 7 m typ := by
  simp only [arrivesB, Bool.and_eq_true, beq_iff_eq, Bool.or_eq_true, Bool.not_eq_true'] at h
  exact ⟨h.1.1.1.1, h.1.1.1.2, h.1.1.2, h.1.2, h.2⟩
theorem wit_Arrives : ∀ p ∈ msgs, Arrives (sLink 2) 7 p.1 p.2 := by
  have h : msgs.all (fun p => arrivesB (sLink 2) p.1 p.2) = true := by decide
  exact fun p hp => arrives_of (List.all_eq_true.mp h p hp)
theorem wit_Arrives_lead : (∀ p ∈ msgsToLead, Arrives ((sLink 2).setReg oLupDstat 0x40) 7 p.1 p.2) ∧
    ∀ p ∈ msgsFromLead, Arrives { sLink 2 with modId := 3 } 7 p.1 p.2 := by
  have h : msgsToLead.all (fun p => arrivesB ((sLink 2).setReg oLupDstat 0x40) p.1 p.2) = true := by decide
  have g : msgsFromLead.all (fun p => arrivesB { sLink 2 with modId := 3 } p.1 p.2) = true := by decide
  exact ⟨fun p hp => arrives_of (List.all_eq_true.mp h p hp), fun p hp => arrives_of (List.all_eq_true.mp g p hp)⟩
/-- Reasons 1 and 4: a lead's message elsewhere, a lead's message from another module, and addresses that nothing serves. -/
theorem wit_Arrives_refused : (∀ p ∈ msgsToLead, leadOnly p.1 = true ∧ isLead ((sLink 2).setReg oLupDstat 0) = false) ∧
    (fromLead (msg tMGMT 0 0 (.mmio 0 none)) = true ∧ (msg tMGMT 0 0 (.mmio 0 none)).src ≠ 0) ∧
    (∀ m ∈ [msg tDOORBELL 0 0x00100010 (.word 1), msg tRD 7 0x8FFFFFFF80 .none, msg tATOM 3 0x004000000000 (.atom 0 0 0)],
      leadOnly m = false ∧ fromLead m = false ∧ shapeOk m = true ∧ hasAddr m.typ = true ∧ offMap (sLink 2) m = true) := by decide

theorem wit_Asks : ∀ p ∈ msgs.take 7, Asks (sLink 2) 7 p.1 p.2 := by unfold Asks Comes; decide
theorem wit_Comes : ∀ p ∈ (msgs.drop 7).take 4, Comes (sLink 2) 7 p.1 p.2 := by unfold Comes; decide
theorem wit_Members : let s := sLink 2
    let l := { s with llc := { s.llc with lines := [(lineA, ⟨false, none, false, [], []⟩)] } }
    let w : LockWait := ⟨0x100000000, 1, 0, 0, 6, false, none⟩
    hostBias s 0x100000000 = false ∧ hostBias { s with host := { s.host with bias := [2048] } } 0x100000000 = true ∧ spaceOf s 0x100000000 128 = .home ∧
    placeDown s 0x100000000 = false ∧ placeDown { s with towersDown := [0] } 0x100000000 = true ∧ spaceOf s 0x90000BFFF0 16 = .store 0 ∧
    spaceOf s 0x8FFFFFFF80 128 = .nowhere ∧ spaceOf s 0x004000000000 2 = .reserved ∧ s.llc.reds = [] ∧ badRead s 0x100000000 8 = false ∧
    badRead { s with poison := [0x10000000] } 0x100000000 8 = true ∧ nbit (leNat (readBytes s.mem 0x100000000 8)) 0 = true ∧
    nbit (leNat (readBytes s.mem 0x100000008 8)) 0 = false ∧ (waitCores s lineA).length < 4 ∧
    s.llc.waits.find? (fun w => w.addr == 0x100000000) = none ∧ ({ s with llc := { s.llc with waits := [w] } } : State).llc.waits.find? (fun w => w.addr == 0x100000000) = some w ∧
    lineAt s lineA = none ∧ lineAt l lineA = some ⟨false, none, false, [], []⟩ ∧ homeOf l 0x100000000 = some ⟨0, 0, 0⟩ ∧ pinAllowed l ⟨0, 0, 0⟩ 0 = true ∧
    redCount s 0 0 < 48 := by decide
theorem wit_Answers : let s := sLink 2
    let r := fun k => (⟨9, 0, ⟨4, 0, 0, 1, 2 ^ 48, k⟩, false⟩ : RemReq)
    let t := fun k => { s with llc := { s.llc with remote := [r k] } }
    (∀ k ∈ [ReqKind.load 4 true false false 3, .hostRd 0 4, .store [1], .atom 10 4 false 3 1 2, .lockAcq 6, .hostWr],
      (t k).llc.remote.find? (fun r => r.tag == 9 && addrModule r.req.addr == 1) = some (r k) ∧ s.clk.tick < ({ r k with at_ := s.clk.tick }).at_ + ticksPerMs ∧
      (r k).at_ + ticksPerMs ≤ s.clk.tick) ∧ s.llc.remote = [] ∧
    ({ sQueue 1 with lup := { s.lup with asks := [(9, 1, 14)] } } : State).lup.asks.find? (fun a => a.1 == 9) = some (9, 1, 14) := by decide
theorem wit_Frames : let s := sLink 2
    let k := s.link 8
    let n := { s with lup := { s.lup with links := [(8, { k with naking := true, nakRun := 7 })] } }
    let m := { msg tRD 7 0x100000000 .none with dst := 2, ttl := 2, addr := 2 * 2 ^ 48 }
    linkLive s 8 = true ∧ k.naking = false ∧ (n.link 8).naking = true ∧ (takeAck k 4095).nakRun + 1 < 8 ∧ 8 ≤ (takeAck (n.link 8) 4095).nakRun + 1 ∧
    linkLive sUp 8 = false ∧ rxReason s m 1 = some 1 ∧ rxReason s { m with ttl := 1 } 0 = some 3 ∧ rxReason s m 0 = none ∧ m.dst ≠ s.modId ∧
    ({ k.malMs with sec := s.clk.tick / ticksPerMs, cnt := 16 }).sec = s.clk.tick / ticksPerMs ∧ isLead (s.setReg oLupDstat 0) = false ∧ isLead (s.setReg oLupDstat 0x40) = true ∧
    (tget [] ({ s with lup := { s.lup with seen := [(1, [9])] } } : State).lup.seen 1).contains 9 = true := by decide
theorem wit_Frames_lead : Arrives { sLink 2 with modId := 3 } 7 { msg tMGMT 0 0 (.mmio 0 (some 1)) with dst := 3, src := 0 } tMGMT ∧
    busyMbx sMbx 0 = false ∧ mbxDark sMbx = false ∧ busyMbx (sMbx.setReg (rMbx 0 + 4) 1) 0 = true := by
  refine ⟨?_, by decide, by decide, by decide⟩
  unfold Arrives; decide
theorem wit_Links : let s := sLink 0
    let u := { sLink 2 with ras := { (sLink 2).ras with flash := [] } }
    s.clk.run = true ∧ procDown { s with regs := (rPstat 3, 0) :: s.regs } 3 = false ∧ s.regBit (rLctl 8) 0 = false ∧ linkState s 8 = 0 ∧ linkState (sLink 1) 8 = 1 ∧ 3 ≤ lanesUp (sLink 1) 8 ∧
    isLead (s.setReg oLupDstat 0) = false ∧ isLead (s.setReg oLupDstat 0x40) = true ∧ linkLive u 8 = true ∧ u.regBit (rLstat 8) 7 = true ∧ lanesUp u 8 = 4 ∧
    lanesUp (u.setField (rLstat 8) 4 4 0) 8 ≠ 4 ∧ u.regBit oLupDstat 16 = false ∧ (u.setReg oLupDstat (1 <<< 16)).regBit oLupDstat 16 = true ∧
    locked u (rLctl 8) = false ∧ locked (u.setReg rLock 0xFFF) (rLctl 8) = true ∧ linkState (sLink 4) 8 = 4 ∧ linkState (sLink 5) 8 = 5 ∧
    (u.setReg (rLctl 8) 1).regBit (rLctl 8) 0 = true := by decide

theorem wit_SidePorts : let s := sMbx
    mbxDark s = false ∧ s.md.sbDyn = none ∧ ({ s with md := { s.md with sbDyn := some 127 } } : State).md.sbDyn ≠ none ∧ busyMbx s 16 = false ∧
    busyMbx (s.setReg (rMbx 16 + 4) 1) 16 = true ∧ servedB s 16 1 [] = true ∧ s.md.input = true ∧ (0x3F : Nat) = 0x30 + 15 % 16 := by decide

theorem wit_Stated_P7 : let w := wA 0x04 0 0 0 1 2 0 7
    Issues (bench core0 []) site0 w [aSrcA w, aSrcB w] [] (ctx0 w) ∧ (aPdst w = 7 ∧ legalA 0x04 [0, 1, 2, 3, 4] w = true) :=
  ⟨bench_issues (by decide) rfl rfl (by decide), by decide⟩
theorem wit_Stated_P7_others : let v := wB 0x0C 0 7 1 9
    let p := wA 0x07 0 0 0xC0 7 0 0 7
    let x := wA 0x08 0 0 3 1 2 0 7
    Issues (bench core0 []) site0 v [bSrcA v] [] (ctx0 v) ∧ Issues (bench core0 []) site0 p [] (predSrcs .and p) (ctx0 p) ∧
    Issues (bench core0 []) site0 x [aSrcA x, aSrcB x] [] (ctx0 x) ∧ (bits v 42 40 = 7 ∧ bits v 47 43 = 0 ∧ aPdst p = 7 ∧
    legalA 0x07 [0, 1, 2, 3, 4] p = true ∧ aPdst x = 7 ∧ legalA 0x08 [0, 1, 2, 3, 4] x = true) :=
  ⟨bench_issues (by decide) rfl rfl (by decide), bench_issues (by decide) rfl rfl (by decide), bench_issues (by decide) rfl rfl (by decide), by decide⟩
theorem wit_Stated_cover : let s := sUp.setReg (rClmask 15 true) 0x80000000
    s.regBit 0x00200024 31 = false ∧ inClass s 15 63 = true ∧ (sUp.setReg 0x00200024 1).regBit 0x00200024 0 = true ∧
    (sUp.setReg (rClcore 32) (1 <<< 21)).regBit (rClcore 32) 21 = true ∧
    ({ sUp with clusters := [(63, { Cluster.fresh with retired := true })] }.cluster 63).retired = true := by decide
theorem wit_Stated_bar2 : hostUp sHost = true ∧ sHost.md.opened = true ∧ addrModule (4 * 2 ^ 30) = sHost.modId ∧
    spaceOf sHost (4 * 2 ^ 30) 128 = .home ∧ placeDown sHost (4 * 2 ^ 30) = false ∧ sHost.llc.reds = [] ∧ spaceOf sHost 0 128 = .home ∧
    sHost.regField 0x0000E008 23 0 = 0 := by decide

/-! ## Well-formedness: for each check a command that it refuses -/

def wBra : Word64 := wC 0x14 0 0 0 0
def msgOf (t : Nat) : LMsg := ⟨t, 0, 0, 0, 0, 0, false, 0, 0, 0, 0, .none⟩

/-- The word of NOP in any other row of a core instruction, and the word of BRA in NOP's. -/
theorem test_wf_word : (Instr.nop site0 wBra).wf = false ∧
    (Instr.ialu site0 none wNop).wf = false ∧
    (Instr.ialui site0 none true wNop).wf = false ∧
    (Instr.idiv site0 none wNop).wf = false ∧
    (Instr.falu site0 none wNop).wf = false ∧
    (Instr.falui site0 none wNop).wf = false ∧
    (Instr.fspec site0 none wNop).wf = false ∧
    (Instr.cmp site0 none wNop).wf = false ∧
    (Instr.cmpi site0 none true wNop).wf = false ∧
    (Instr.cvt site0 true wNop).wf = false ∧
    (Instr.mxq site0 true wNop).wf = false ∧
    (Instr.pred site0 none wNop).wf = false ∧
    (Instr.xlane site0 none wNop).wf = false ∧
    (Instr.move site0 none wNop).wf = false ∧
    (Instr.moviMov site0 wNop).wf = false ∧
    (Instr.moviMovh site0 wNop).wf = false ∧
    (Instr.srkeyLoI site0 wNop).wf = false ∧
    (Instr.srkeyHiI site0 wNop).wf = false ∧
    (Instr.srkeyLoG site0 wNop).wf = false ∧
    (Instr.srkeyHiG site0 wNop).wf = false ∧
    (Instr.ldstLLd site0 wNop).wf = false ∧
    (Instr.ldstLLdS site0 wNop).wf = false ∧
    (Instr.ldstLSt site0 wNop).wf = false ∧
    (Instr.ldstGLd site0 wNop).wf = false ∧
    (Instr.ldstGLdS site0 wNop).wf = false ∧
    (Instr.ldstGSt site0 wNop).wf = false ∧
    (Instr.atomAdd site0 wNop).wf = false ∧
    (Instr.atomFadd site0 wNop).wf = false ∧
    (Instr.atomMinS site0 wNop).wf = false ∧
    (Instr.atomMinU site0 wNop).wf = false ∧
    (Instr.atomMaxS site0 wNop).wf = false ∧
    (Instr.atomMaxU site0 wNop).wf = false ∧
    (Instr.atomAnd site0 wNop).wf = false ∧
    (Instr.atomOr site0 wNop).wf = false ∧
    (Instr.atomXor site0 wNop).wf = false ∧
    (Instr.atomExch site0 wNop).wf = false ∧
    (Instr.atomCas site0 wNop).wf = false ∧
    (Instr.lockAcqL site0 wNop).wf = false ∧
    (Instr.lockAcqG site0 wNop).wf = false ∧
    (Instr.lockRelL site0 wNop).wf = false ∧
    (Instr.lockRelG site0 wNop).wf = false ∧
    (Instr.fenceW site0 wNop).wf = false ∧
    (Instr.fenceA site0 wNop).wf = false ∧
    (Instr.fenceAw site0 wNop).wf = false ∧
    (Instr.bra site0 wNop).wf = false ∧
    (Instr.brx site0 wNop).wf = false ∧
    (Instr.exit site0 wNop).wf = false ∧
    (Instr.barG site0 wNop).wf = false ∧
    (Instr.barT site0 wNop).wf = false ∧
    (Instr.wait site0 wNop).wf = false ∧
    (Instr.pmcRead site0 wNop).wf = false ∧
    (Instr.mma site0 wNop).wf = false ∧
    (Instr.attend site0 wNop).wf = false ∧
    (Instr.append site0 wNop).wf = false ∧
    (Instr.xfer site0 wNop).wf = false ∧
    (Instr.reduce site0 wNop).wf = false ∧
    (Instr.pin site0 wNop).wf = false ∧
    (Instr.unpin site0 wNop).wf = false := by decide

theorem test_wf_word_ok : (Instr.nop site0 wNop).wf = true ∧ (Instr.bra site0 wBra).wf = true := by decide

theorem test_wf_bar2Read : (Instr.bar2Read 120 16 []).wf = false ∧ (Instr.bar2Read 0 0 []).wf = false ∧
    (Instr.bar2Read 112 16 []).wf = true := by decide
theorem test_wf_bar2Write : (Instr.bar2Write 127 [0, 0] false).wf = false ∧ (Instr.bar2Write 0 [] false).wf = false ∧
    (Instr.bar2Write 126 [0, 0] false).wf = true := by decide
theorem test_wf_cxlMemRead : (Instr.cxlMemRead 60 8 []).wf = false ∧ (Instr.cxlMemRead 0 0 []).wf = false ∧
    (Instr.cxlMemRead 56 8 []).wf = true := by decide
theorem test_wf_cxlMemWrite : (Instr.cxlMemWrite 63 [0, 0] false).wf = false ∧ (Instr.cxlMemWrite 0 [] false).wf = false ∧
    (Instr.cxlMemWrite 62 [0, 0] false).wf = true := by decide
theorem test_wf_smbus : (Instr.smbusBlockWrite 0 (List.replicate 31 0)).wf = false ∧
    (Instr.smbusBlockWrite 0 (List.replicate 30 0)).wf = true := by decide
theorem test_wf_cxlCache : (Instr.cxlCacheResponse 0 [0] []).wf = false ∧ (Instr.cxlCacheResponse 0 [] []).wf = true := by decide

/-- A message of a type that is no row's own. -/
theorem test_wf_message :
    (Instr.rd 0 (msgOf 0) 0 []).wf = false ∧
    (Instr.wr 0 (msgOf 0) 0).wf = false ∧
    (Instr.atom 0 (msgOf 0) 0 []).wf = false ∧
    (Instr.lupinLock 0 (msgOf 0) 0 []).wf = false ∧
    (Instr.lupinPin 0 (msgOf 0) 0).wf = false ∧
    (Instr.red 0 (msgOf 0) 0).wf = false ∧
    (Instr.rdresp 0 (msgOf 0) 0).wf = false ∧
    (Instr.ack 0 (msgOf 0) 0).wf = false ∧
    (Instr.atomresp 0 (msgOf 0) 0).wf = false ∧
    (Instr.nack 0 (msgOf 0) 0).wf = false ∧
    (Instr.lupinDoorbell 0 (msgOf 0) 0).wf = false ∧
    (Instr.hostrd 0 (msgOf 0) 0 []).wf = false ∧
    (Instr.hostwr 0 (msgOf 0) 0).wf = false ∧
    (Instr.lupinMsix 0 (msgOf 0) 0).wf = false ∧
    (Instr.mgmt 0 (msgOf 0) 0).wf = false ∧
    (Instr.mgmtresp 0 (msgOf 0) 0).wf = false ∧
    (Instr.rd 0 (msgOf 1) 0 []).wf = true := by decide

/-! ## A program image that passes its checks (R174) -/

/-- An image of one rank with one instruction: header, digest, code at 128, rank table at 136, cost record at 144. -/
def imgHead : List Nat := [0x47, 0x52, 0x54, 0x49, 0, 2, 0, 0] ++ natLe 4 232 ++ natLe 2 0x6420 ++ natLe 2 1 ++ natLe 4 1 ++ natLe 4 0 ++
  natLe 4 128 ++ natLe 4 8 ++ natLe 4 136 ++ natLe 4 144 ++ natLe 4 88 ++ List.replicate 20 0
def imgBody : List Nat := natLe 8 wNop.toNat ++ [0, 0, 1, 0, 0, 0, 0, 0] ++ natLe 2 1 ++ natLe 2 1 ++ natLe 4 0 ++
  (natLe 8 1 ++ List.replicate 32 0) ++ (natLe 8 1 ++ List.replicate 32 0)
def image0 : List Nat := imgHead ++ shake256 (imgHead ++ List.replicate 64 0 ++ imgBody) 64 ++ imgBody
def sImage : State := { sMbx with mem := writeBytes sMbx.mem 0x1000000 image0 }
theorem wit_Program_image : imgHead.length = 64 ∧ firstFail (programChecks sImage 0x1000000) = none := by decide +kernel

/-! ## Witnesses of clauses at the edges of their ranges -/

theorem wit_Replay_fence : let r : RemReq := ⟨9, 0, ⟨4, 0, 0, 1, 2 ^ 48, .lockAcq 6⟩, false⟩
    let s := { bench (kBad .fencing 0x0502) [] with clk := ⟨1000000, true⟩, pwr := sUp.pwr, llc := { Llc.empty with remote := [r] } }
    (s.core 0).task = some 0 ∧ s.task 0 = some task0 ∧ (s.core 0).ckpt = some ck0 ∧ (s.core 0).phase = .fencing ∧
    s.phys (task0.plan.getD (s.core 0).rank 0) = some 0 ∧ s.llc.reqs = [] ∧ s.llc.redReqs = [] ∧ s.llc.pinReqs = [] ∧ s.llc.remote = [r] ∧ r.lockWait = true :=
  ⟨rfl, rfl, rfl, rfl, by decide, rfl, rfl, rfl, rfl, rfl⟩
theorem wit_SelfTests_grid : let s := { sUp with cores := [(0, { Core.idle with svc := 1, test := rasGridParity, swap := some (some 63, none) })] }
    (s.core 0).swap = some (some 63, none) ∧ (s.core 0).task = none ∧ (s.core 0).grid = .stopped ∧ (s.core 0).mmaQ = [] ∧
    ({ Core.idle with rowSpare := 63 } : Core).rowSpare ≠ 64 := by decide

/-- A SCRUB request of class 15, and its service. -/
theorem wit_Mailbox_scrub_bad : let b := le [(8, 0), (8, 4096), (1, 15), (1, 1)] ++ List.replicate 14 0
    Served sMbx 0 0x40 b ∧ (scrubReqOf b).cls = 15 ∧ (scrubReqOf b).resv = 0 ∧
    (scrubReqOf (le [(8, 0), (8, 4096), (1, 14), (1, 1)] ++ List.replicate 14 0)).cls < 15 := by
  refine ⟨served_of (by decide +kernel), by decide, by decide, by decide⟩
theorem wit_Processors_jobs : let run := fun o => (⟨false, 9, ⟨0, 4096, 14, 1, 0, 0⟩, 0, 0, 0, 0, 0, 0, 0, noAddr, 0, [], o⟩ : ScrubRun)
    let s := fun o => { sMbx with llc := { sMbx.llc with scrubs := [run o] }, fw := { sMbx.fw with jobs := [⟨9, 0, 0x40, MEMP, 0, [], 0, none, 0, 0, []⟩] } }
    (∀ o ∈ [true, false], ((s o).job 9).map (fun j => (j.op, j.ended)) = some (0x40, none) ∧ serves (s o) MEMP = true ∧
      (scrubRun (s o) false 9).any (fun r => !r.atEnd) = !o) ∧
    (let w := { sMbx with fw := { sMbx.fw with jobs := [⟨9, 0, 0xA0, 0, 6, [], 0, none, 0, 0, []⟩] } }
     (w.job 9).map (fun j => (j.op, j.ended)) = some (0xA0, none) ∧ serves w 0 = true) ∧
    (let w := sMbx.setReg (oDstat 6) 120
     windowOpen w 2 (govOf w 6) = true ∧ w.clk.run = true) ∧
    (sMbx.pwr.cap = 0 ∧ sMbx.pwr.towerA = []) := by decide
theorem wit_Counters_alone : WritesAlone (sUp.setReg oRingcfg 16) ringBase (snapLen 1) ∧ RingRoom (sUp.setReg oRingcfg 16) (snapLen 1) := by
  refine ⟨Or.inr (by decide), ?_⟩; unfold RingRoom; decide

/-- A line of the module's first home that is held, with one word that can be corrected. -/
def sHeld : State := { sHost with llc := { Llc.empty with lines := [(lineA, ⟨false, none, false, [], []⟩)] }, poison := [] }
theorem wit_Host_words : bar2Addr (sHeld.setReg 0x0000E008 4) 0 = 0x100000000 ∧ spaceOf sHeld 0x100000000 128 = .home ∧ placeDown sHeld 0x100000000 = false ∧
    linePresent sHeld 0x100000000 = true ∧ codeOf sHeld 0x100000000 ≠ codeLight ∧ isPoisoned sHeld.poison 0x100000000 16 = false ∧
    sHeld.llc.reds = [] ∧ sHeld.md.opened = true := by decide
theorem wit_Host_stores : let s := sHost
    let f := { s with md := { s.md with resets := [⟨[0], false, true, false, none⟩] } }
    storeFilling s 0 = false ∧ storeFilling f 0 = true ∧ f.md.opened = true ∧ storeFilling { s with pwr := { s.pwr with state := 1 } } 575 = true ∧
    (s.core 0).task = none := by decide
/-- Both ways in which writes move nothing else. -/
theorem wit_WritesAlone : WritesAlone sHeld 0x100000000 128 ∧
    WritesAlone { sHeld with poison := [5], llc := { sHeld.llc with reds := [⟨9, 0, 0, [1], 0⟩] } } 0x100000000 128 := by
  refine ⟨Or.inr (by decide), Or.inl ?_⟩
  intro x h1 h2
  have hx : lineOf x = lineA := by
    unfold lineOf addrLow
    show x % 2 ^ 48 / 128 = 0x100000000 / 128
    omega
  refine ⟨?_, ?_⟩
  · unfold linePresent
    rw [hx]
    simp [lineAt, sHeld]
  · intro e he
    simp only [List.mem_singleton] at he
    rw [he, hx]; decide
theorem wit_MovesNoLine : MovesNoLine sHeld [0x100000000] ∧ MovesNoLine sUp [0] := ⟨Or.inl (by decide), Or.inr (by decide)⟩
theorem wit_Host_response : let m : LMsg := ⟨tRD, 0, 7, 0, 1, 1, false, 9, 0x100000000, 0, 0, .none⟩
    let w : BiasWait := ⟨lineA, false, 8, some m⟩
    let s := { sHost with poison := [], host := { sHost.host with waits := [w] } }
    s.host.waits = [w] ∧ w.line = lineA ∧ w.msg = some m ∧ m.pay = .none ∧ s.llc.reds = [] ∧ s.poison = [] ∧ s.llc.lines = [] ∧ 128 * lineA + 128 ≤ hbmEnd := by decide
theorem wit_Resets_power : sMbx.pwr.state = 0 ∧ (⟨[1], false, true, false, some 9⟩ : RunReset).exits = false := by decide

theorem wit_Members_wait : let s := { sLink 2 with host := { (sLink 2).host with bias := [2048] } }
    (∀ p ∈ [msgs.getD 0 (msg 0 0 0 .none, 0), msgs.getD 1 (msg 0 0 0 .none, 0), msgs.getD 2 (msg 0 0 0 .none, 0), msgs.getD 3 (msg 0 0 0 .none, 0), msgs.getD 6 (msg 0 0 0 .none, 0)],
      hostBias s (addrLow p.1.addr) = true ∧ arrivesB s p.1 p.2 = true) ∧ s.host.held = [] ∧ s.host.waits = [] := by decide
/-- Owners' and others' releases, with a waiter here, one of another module, and none. -/
theorem wit_Members_locks : let s := sLink 2
    let w := fun a => (⟨0x100000008, 1, 0, 0, 6, false, a⟩ : LockWait)
    let t := fun a => { s with llc := { s.llc with waits := [w a] } }
    nbit (lockWord 575 15 31 1) 0 = true ∧ ownsWordOf 1 (lockWord 575 15 31 1) 575 15 31 = true ∧ ownsWordOf 1 (lockWord 575 15 31 1) 575 15 30 = false ∧
    ownsWordOf 1 0 575 15 31 = false ∧
    (∀ a ∈ [none, some (2, 7, 3)], (t a).llc.waits.find? (fun w => w.addr == 0x100000008) = some (w a)) ∧
    s.llc.waits.find? (fun w => w.addr == 0x100000008) = none ∧ badRead s 0x100000008 8 = false ∧
    (let u := { s with llc := { s.llc with waits := (List.range 4).map (fun c => ⟨0x100000008, c, 0, 0, 6, false, none⟩) } }
     (575, 1) ∉ waitCores u lineA ∧ 4 ≤ (waitCores u lineA).length ∧ (3, 0) ∈ waitCores u lineA) := by decide
theorem wit_Members_pins : let l := fun p => (⟨false, p, false, [], []⟩ : Line)
    let s := fun p => { sLink 2 with llc := { Llc.empty with lines := [(lineA, l p)] } }
    homeOf (s none) 0x100000000 = some ⟨0, 0, 0⟩ ∧ pinAllowed (s none) ⟨0, 0, 0⟩ 0 = true ∧
    pinAllowed ((s none).setField (rPinbud 0) 13 0 0) ⟨0, 0, 0⟩ 0 = false ∧ (l (some 3)).pin.isSome = true ∧ lineAt (sLink 2) lineA = none ∧
    homeAt (sLink 2) (128 * lineA) = some ⟨0, 0, 0⟩ ∧ (setLines (sLink 2) ⟨0, 0, 0⟩).length < llcWays (sLink 2) 0 0 ∧ isHbm resBase = false := by decide

theorem wit_Answers_own : let s := sLink 2
    let m := msg tNACK 0 0 .none
    s.lup.asks = [] ∧ ({ m with reason := 1 } : LMsg).reason = 1 ∧ ({ m with reason := 4 } : LMsg).reason = 4 ∧ m.reason = 0 ∧ m.status = 0 ∧ m.pay = .none := by decide
theorem wit_Answers_lock : let k := { bench { core0 with groups := [(0, { grp0 with threads := [(0, { thr0 with block := .lock true (2 ^ 48) 6 })] })] } [] with lup := (sLink 2).lup }
    let r : RemReq := ⟨9, 0, ⟨4, 0, 0, 0, 2 ^ 48, .lockAcq 6⟩, false⟩
    waitsFor k 0 0 0 (2 ^ 48) = true ∧ reaches k 1 = true ∧ reaches { k with lup := { k.lup with routes := [] } } 1 = false ∧
    0 + ticksPerMs ≤ sUp.clk.tick ∧ (k.core 0).task.isSome = true ∧
    ({ k with llc := { Llc.empty with remote := [r] } } : State).llc.remote.find? (fun r => r.tag == 9 && addrModule r.req.addr == 1) = some r := by decide
theorem wit_Links_failures : let s := (sLink 2).setReg oLupDstat 0x40
    let f := { s with lup := { s.lup with failed := [(24, false)] } }
    knownFailure s 24 = false ∧ knownFailure f 24 = true ∧ f.lup.failed = [(24, false)] ∧ isLead f = true ∧ s.modId = 0 ∧
    routeTab [(2, 8, 1)] ≠ [] ∧ linkLive s 8 = true ∧ (s.setReg oLupDstat (1 <<< 16)).regBit oLupDstat 16 = true := by decide
theorem wit_Mgmt_mailbox : mbxDark (sLink 2) = false ∧ busyMbx (sLink 2) 0 = false ∧ (16 : Nat) ≤ 16 ∧
    PlainReg oAdmCtrl ∧ (sLink 2).lup.failed = [] := by
  refine ⟨by decide, by decide, by decide, wit_Registers_plain.1, by decide⟩
theorem wit_SidePorts_dark : sideDark sMbx = false ∧ sideDark State.reset = false ∧ (sMbx.md.input = true ∧ sMbx.md.perst = false ∧ sMbx.md.off = false) ∧
    nbit (licFeatures sMbx) 5 = false ∧ nbit (licFeatures { sMbx with fw := { sMbx.fw with lics := [List.replicate 80 0 ++ [32] ++ List.replicate 175 0] } }) 5 = true ∧
    sMbx.clk.run = true ∧ State.reset.clk.run = false := by decide

end Sys2Proof.Tests
end

section
/-! SUPPORT. Predicates that an instruction leaves alone: P7 reads 1 and a write to it is discarded (R145). -/

namespace Sys2Proof.Machine

/-! ## Equal predicate words -/

/-- Every thread of every core has the same predicate word in both states. -/
def SamePreds (s t : State) : Prop := ∀ d g th, (thrOf t d g th).preds = (thrOf s d g th).preds

theorem SamePreds.trans {a b c : State} (h : SamePreds a b) (k : SamePreds b c) : SamePreds a c :=
  fun d g th => (k d g th).trans (h d g th)

theorem SamePreds.predOf {s t : State} (h : SamePreds s t) (d g th q : Nat) : predOf t d g th q = predOf s d g th q := by
  unfold Machine.predOf predVal; rw [h d g th]

@[simp] theorem predOf_seven (s : State) (c g th : Nat) : predOf s c g th 7 = true := by
  simp [predOf, predVal]

/-- The slot of an issue is counted without a change of predicates (R109 to R111). -/
theorem slotted_samePreds (s : State) (i : Ctx) : SamePreds s (slotted s i) := by
  intro d g th
  by_cases hd : d = i.c
  · subst hd; exact (slotted_regs s i g).preds th
  · unfold thrOf grpOf; rw [(slotted_onlyCore s i).2 d hd]

/-- A change of one group that keeps the predicate words of its threads. -/
theorem modGrp_samePreds (s : State) (c g : Nat) {f : Group → Group}
    (hf : ∀ gr u, (thr (f gr) u).preds = (thr gr u).preds) : SamePreds s (s.modGrp c g f) := by
  intro d h th
  unfold thrOf
  by_cases hd : d = c
  · subst hd
    rw [grpOf_modGrp]
    split
    next hh => subst hh; exact hf _ th
    · rfl
  · unfold grpOf; rw [core_modGrp, if_neg hd]

theorem addTaskCounter_samePreds (s : State) (c k n : Nat) : SamePreds s (addTaskCounter s c k n) := by
  intro d g th; unfold thrOf; rw [grpOf_addTaskCounter]

theorem advance_samePreds (s : State) (i : Ctx) (ts : List Nat) (pc : Nat) : SamePreds s (advance s i ts pc) := by
  refine modGrp_samePreds s i.c i.g fun gr u => ?_
  rw [(SameRegs.normGroup _).preds, thr_modThrs _ _ (fun th => { th with pc := pc }) (fun _ => rfl)]
  split <;> rfl

/-! ## Effects of a thread that write no predicate -/

/-- The predicate that the effect names, if any, is P7. -/
def Eff.OnlyP7 (e : Eff) : Prop := ∀ p b, e.pred = some (p, b) → p = 7

theorem predEff_onlyP7 {p : Nat} (h : p = 7) (b : Bool) : (predEff p b).OnlyP7 := by
  intro q c hq; cases hq; exact h

/-- A write to P7 is discarded (R145). -/
@[simp] theorem writePred_seven (gr : Group) (t : Nat) (b : Bool) : writePred gr t 7 b = gr := if_pos rfl

theorem preds_writeDst (i : Ctx) (gr : Group) (t code n v u : Nat) :
    (thr (writeDst i gr t code n v) u).preds = (thr gr u).preds := by
  rw [thr_writeDst]
  split
  next h => obtain ⟨rfl, hc⟩ := h; rw [thr_writeReg, if_pos ⟨rfl, hc⟩]
  · rfl

theorem preds_modThr (gr : Group) (t u : Nat) {f : Thread → Thread} (hf : ∀ th, (f th).preds = th.preds) :
    (thr (modThr gr t f) u).preds = (thr gr u).preds := by
  rw [thr_modThr]
  split
  next h => subst h; exact hf _
  · rfl

/-- An effect whose predicate is P7 is the effect without it. -/
theorem applyEff_onlyP7 (i : Ctx) (gr : Group) (t : Nat) {e : Eff} (he : e.OnlyP7) :
    applyEff i gr t e = applyEff i gr t { e with pred := none } := by
  obtain ⟨dst, pred, sr, nan⟩ := e
  cases pred with
  | none => rfl
  | some pb =>
    obtain ⟨p, b⟩ := pb
    obtain rfl : p = 7 := he p b rfl
    simp [applyEff]

theorem preds_applyEff (i : Ctx) (gr : Group) (t : Nat) {e : Eff} (he : e.OnlyP7) (u : Nat) :
    (thr (applyEff i gr t e) u).preds = (thr gr u).preds := by
  rw [applyEff_onlyP7 i gr t he]
  obtain ⟨dst, pred, sr, nan⟩ := e
  have hsr : ∀ gr', (thr (applyEff i gr' t ⟨none, none, sr, nan⟩) u).preds = (thr gr' u).preds := by
    intro gr'
    simp only [applyEff]
    split
    · rfl
    · exact preds_modThr gr' t u fun _ => rfl
  cases dst with
  | none => exact hsr gr
  | some d =>
    obtain ⟨code, n, v⟩ := d
    exact (hsr (writeDst i gr t code n v)).trans (preds_writeDst i gr t code n v u)

theorem preds_foldl_applyEff (i : Ctx) {e : Nat → Eff} (he : ∀ t, (e t).OnlyP7) (ts : List Nat) (gr : Group) (u : Nat) :
    (thr (ts.foldl (fun gr t => applyEff i gr t (e t)) gr) u).preds = (thr gr u).preds := by
  induction ts generalizing gr with
  | nil => rfl
  | cons a ts ih => rw [List.foldl_cons, ih, preds_applyEff i gr a (he a)]

/-! ## Instructions whose threads write no predicate -/

/-- Whether every thread completes with an effect that writes no predicate but P7. -/
def CompletesOnlyP7 (f : Group → Ctx → Nat → TRes Eff) : Prop := ∀ gr i t, ∃ e, f gr i t = .ok e ∧ e.OnlyP7

theorem perThread_samePreds {f : Group → Ctx → Nat → TRes Eff} (hf : CompletesOnlyP7 f) (s : State) (i : Ctx) :
    SamePreds s (perThread f s i) := by
  choose e he h7 using hf (grp (s.core i.c) i.g) i
  unfold perThread
  simp only [runThreads_ok i _ e fun t _ => he t, goOn_nil, faultSet_nil, List.foldl_map]
  have hw := modGrp_samePreds s i.c i.g (preds_foldl_applyEff i h7 i.active)
  exact (hw.trans (addTaskCounter_samePreds _ _ _ _)).trans (advance_samePreds _ _ _ _)

/-- The outcome is a next state in which every predicate of every thread of every core reads as before. -/
def KeepsPreds (s : State) (o : Outcome) : Prop :=
  ∃ t, o = .next t ∧ ∀ d g th q, predOf t d g th q = predOf s d g th q

theorem isClass_of_legalA {cls : Nat} {types : List Nat} {w : Word64} (h : legalA cls types w = true) : isClass cls w = true := by
  simp only [legalA, Bool.and_eq_true] at h
  exact h.1.1

theorem withRegs_ok {srcs : List (Nat × Nat)} {dst : Option (Nat × Nat)} (hs : ∀ p ∈ srcs, srcOk p.1 p.2 = true)
    (hd : ∀ p ∈ dst, dstOk p.1 p.2 = true) (r : TRes Eff) : withRegs srcs dst r = r := by
  refine if_pos ?_
  rw [Bool.and_eq_true, List.all_eq_true]
  refine ⟨hs, ?_⟩
  cases dst with
  | none => rfl
  | some d => exact hd d rfl

section
variable {s : State} {x : Site} {w : Word64} {i : Ctx}

/-- A row whose word is its own and legal, and whose threads write no predicate but P7. -/
theorem coreRow_issue_keepsPreds {regs preds : List Nat} {own legal : Bool} {f : Group → Ctx → Nat → TRes Eff}
    (hi : Issues s x w regs preds i) (hown : own = true) (hlegal : legal = true) (hf : CompletesOnlyP7 f) :
    KeepsPreds s (coreRow own w (issue s x w regs preds legal (perThread f))) := by
  subst hown hlegal
  refine ⟨perThread f (slotted s i) i, by rw [issue_legal hi]; rfl, ?_⟩
  exact ((slotted_samePreds s i).trans (perThread_samePreds hf _ i)).predOf

theorem cmp_keepsPreds (op : CmpOp) (hp : aPdst w = 7) (hi : Issues s x w [aSrcA w, aSrcB w] [] i)
    (hl : legalA 0x04 [0, 1, 2, 3, 4] w = true) (ha : srcOk (aSrcA w) 1 = true) (hb : srcOk (aSrcB w) 1 = true) :
    KeepsPreds s (exec (.cmp x (some op) w) s) :=
  coreRow_issue_keepsPreds hi (isClass_of_legalA hl) hl fun _ _ _ =>
    ⟨_, withRegs_ok (by simp [ha, hb]) (by simp) _, predEff_onlyP7 hp _⟩

theorem cmpi_keepsPreds (op : CmpOp) (sg : Bool) (hp : bits w 42 40 = 7) (hi : Issues s x w [bSrcA w] [] i)
    (hc : isClass 0x0C w = true) (h0 : bits w 47 43 = 0) (ha : srcOk (bSrcA w) 1 = true) :
    KeepsPreds s (exec (.cmpi x (some op) sg w) s) :=
  coreRow_issue_keepsPreds hi hc (by simp [hc, h0]) fun _ _ _ =>
    ⟨_, withRegs_ok (by simp [ha]) (by simp) _, predEff_onlyP7 hp _⟩

/-- The six logic and vote operations; BALLOT writes a register instead (R156). -/
theorem pred_keepsPreds (op : PredOp) (hop : op ≠ .ballot) (hp : aPdst w = 7) (hi : Issues s x w [] (predSrcs op w) i)
    (hl : legalA 0x07 [0, 1, 2, 3, 4] w = true) : KeepsPreds s (exec (.pred x (some op) w) s) := by
  refine coreRow_issue_keepsPreds hi (isClass_of_legalA hl) hl fun _ _ _ => ?_
  cases op with
  | ballot => exact absurd rfl hop
  | and | or | xor | not | any | all => exact ⟨_, rfl, predEff_onlyP7 hp _⟩

theorem xlane_keepsPreds (op : XlaneOp) (hp : aPdst w = 7) (hi : Issues s x w [aSrcA w, aSrcB w] [] i)
    (hl : legalA 0x08 [0, 1, 2, 3, 4] w = true) (ha : srcOk (aSrcA w) 1 = true) (hb : srcOk (aSrcB w) 1 = true)
    (hd : dstOk (aDst w) 1 = true) : KeepsPreds s (exec (.xlane x (some op) w) s) :=
  coreRow_issue_keepsPreds hi (isClass_of_legalA hl) hl fun _ _ _ =>
    ⟨_, withRegs_ok (by simp [ha, hb]) (by simp [hd]) _, fun _ _ h => by cases h; exact hp⟩

end

/-- Settles O58: P7 reads 1 by definition, and an effect that names P7 alone keeps every thread's predicate word. -/
theorem p7IsAlwaysTrue : Obligations.P7IsAlwaysTrue := by
  unfold Obligations.P7IsAlwaysTrue
  exact ⟨predOf_seven, fun s x w i =>
    ⟨fun op => cmp_keepsPreds op, fun op sg => cmpi_keepsPreds op sg, fun op => pred_keepsPreds op, fun op => xlane_keepsPreds op⟩⟩

end Sys2Proof.Machine
end

section
/-! SUPPORT. Memory after a write at a home that moves no line whose copies differ (R235, R251, R252, R301, R306). -/

namespace Sys2Proof.Machine

/-- A fold whose steps keep a part of the state keeps that part. -/
theorem foldl_keeps {α β : Type} (g : State → β) {f : State → α → State} (hf : ∀ s a, g (f s a) = g s) (l : List α) (s : State) :
    g (l.foldl f s) = g s := by
  induction l generalizing s with
  | nil => rfl
  | cons a l ih => rw [List.foldl_cons, ih, hf]

/-! ## What keeps memory -/

@[simp] theorem refreshHstat_mem (s : State) : (refreshHstat s).mem = s.mem := foldl_keeps (f := hstatOf) (·.mem) (fun _ _ => rfl) _ s

@[simp] theorem countEvent_mem (s : State) (b i code n : Nat) (d : Dims) : (countEvent s b i code n d).mem = s.mem := by
  obtain ⟨p, h⟩ := countEvent_pmc s b i code n d
  rw [h]

@[simp] theorem placeLine_mem (s : State) (m : Home) (l : Nat) : (placeLine s m l).mem = s.mem := by
  unfold placeLine
  rw [refreshHstat_mem]
  exact countEvent_mem ..

/-- The write goes through the merge buffer, whose reads here find nothing. -/
@[simp] theorem mergeWord_nil_mem (s : State) (w o n : Nat) : (mergeWord [] s w o n).mem = s.mem := by
  unfold mergeWord
  dsimp only
  split
  · rfl
  · split
    · rfl
    · split
      · rfl
      · split <;> rfl

theorem putBytes_nil_mem (s : State) (a : Nat) (bs : List Nat) : (putBytes [] s a bs).mem = writeBytes s.mem (addrLow a) bs := by
  unfold putBytes
  refine foldl_keeps (·.mem) (fun s w => ?_) _ (storeBytes s a bs)
  dsimp only
  split
  · rfl
  · exact mergeWord_nil_mem s w _ _

/-! ## Lines without older copies -/

/-- No word is poisoned and no line keeps an older copy of its bytes (R301). -/
def NoOldCopies (s : State) : Prop := s.poison = [] ∧ ∀ p ∈ s.llc.lines, p.2.saved = [] ∧ p.2.under = []

/-- A line that leaves then writes nothing back that memory does not hold. -/
theorem NoOldCopies.leaveLine_mem {s : State} (h : NoOldCopies s) (l : Nat) : (leaveLine [] s l).mem = s.mem := by
  obtain ⟨hp, hl⟩ := h
  unfold leaveLine
  split
  · rfl
  next k hk =>
    have hat : lineAt (readWord s (128 * l) 128 [] 0) l = some k := hk
    have hclean : k.saved = [] ∧ k.under = [] := by
      obtain ⟨p, hfind, rfl⟩ := Option.map_eq_some_iff.1 hk
      exact hl p (List.mem_of_find?_eq_some hfind)
    rw [refreshHstat_mem]
    dsimp only
    rw [hat, Option.getD_some, hclean.1, hclean.2]
    split
    · have hnone : ∀ a, isPoisoned (cancelRewrites (readWord s (128 * l) 128 [] 0) (128 * l) 128).poison a 64 = false := by
        intro a; show isPoisoned s.poison a 64 = false; rw [hp]; rfl
      simp only [List.foldl_cons, List.foldl_nil, hnone, Bool.false_eq_true, if_false]
      rfl
    · rfl

theorem NoOldCopies.makeRoom_mem {s t : State} {m : Home} (h : NoOldCopies s) (ht : makeRoom [] s m = some t) : t.mem = s.mem := by
  unfold makeRoom at ht
  dsimp only at ht
  split at ht
  · cases ht; rfl
  · split at ht
    · cases ht
    · cases ht; exact h.leaveLine_mem _

/-! ## Entries queued for other lines -/

theorem reds_filter_nil {s : State} {l : Nat} (h : ∀ e ∈ s.llc.reds, lineOf e.addr ≠ l) :
    s.llc.reds.filter (fun e => lineOf e.addr == l) = [] := by
  simpa [List.filter_eq_nil_iff] using h

theorem drainLine_of_none {s : State} {l : Nat} (h : ∀ e ∈ s.llc.reds, lineOf e.addr ≠ l) : drainLine s l = s := by
  unfold drainLine; rw [reds_filter_nil h]; rfl

theorem drainHbm_of_none {s : State} {l : Nat} (h : ∀ e ∈ s.llc.reds, lineOf e.addr ≠ l) : drainHbm s l = s := by
  unfold drainHbm; rw [reds_filter_nil h]; rfl

/-- A line fetched for a write moves no byte where no line keeps an older copy and no entry is queued. -/
theorem NoOldCopies.installLine_mem {s : State} (h : NoOldCopies s) (hr : s.llc.reds = []) (l : Nat) : (installLine s l).mem = s.mem := by
  have hdrain : ∀ k, drainHbm s k = s := fun k => drainHbm_of_none (by simp [hr])
  unfold installLine
  split
  · rfl
  next m hm =>
    split
    · rfl
    · split
      next t ht => rw [placeLine_mem, h.makeRoom_mem ht]
      · split
        · rfl
        · rw [hdrain]
          split
          next t ht => rw [placeLine_mem, h.makeRoom_mem ht]
          · rfl

/-! ## One run of bytes in one line of HBM -/

theorem lineRuns_of_oneLine {a : Nat} {bs : List Nat} (hne : bs ≠ []) (hfit : a % 128 + bs.length ≤ 128) : lineRuns a bs = [(a, bs)] := by
  have hlen : 0 < bs.length := List.length_pos_iff.2 hne
  have hone : (a % 128 + bs.length + 127) / 128 = 1 := by omega
  have hlo : max a (128 * (a / 128)) = a := by omega
  have htake : bs.take (128 * (a / 128 + 1) - a) = bs := List.take_of_length_le (by omega)
  simp [lineRuns, hone, List.range_one, hlo, htake]

theorem addrLow_of_hbm {a : Nat} (h : a < hbmEnd) : addrLow a = a := by
  unfold hbmEnd at h; unfold addrLow; omega

/-- Only the resident window has sources (R237). -/
theorem putSource_of_hbm (s : State) {a : Nat} (h : a < hbmEnd) (bs : List Nat) : putSource s a bs = s := by
  have hres : resSlot a = none := by
    unfold resSlot resBase; unfold hbmEnd at h
    exact if_neg (by omega)
  simp [putSource, sourceAt, hres]

/-- A write within one line of HBM that moves no line whose copies differ changes its own bytes alone. -/
theorem WritesAlone.homeWrite_mem {s : State} {a : Nat} {bs : List Nat} (h : WritesAlone s a bs.length) (hne : bs ≠ [])
    (hfit : a % 128 + bs.length ≤ 128) (hend : a + bs.length ≤ hbmEnd) : (homeWrite s a bs).mem = writeBytes s.mem a bs := by
  have hlen : 0 < bs.length := List.length_pos_iff.2 hne
  have ha : a < hbmEnd := by omega
  have hreds : ∀ e ∈ s.llc.reds, lineOf e.addr ≠ lineOf a := by
    rcases h with h | ⟨-, hr, -⟩
    · exact (h a (le_refl a) (by omega)).2
    · simp [hr]
  have hline : (if linePresent s a then s else installLine s (lineOf a)).mem = s.mem := by
    split
    · rfl
    next hp =>
      rcases h with h | ⟨hpoison, hr, hl⟩
      · exact absurd (h a (le_refl a) (by omega)).1 hp
      · exact NoOldCopies.installLine_mem ⟨hpoison, hl⟩ hr _
  unfold homeWrite homeWriteBy
  rw [addrLow_of_hbm ha, lineRuns_of_oneLine hne hfit, List.foldl_cons, List.foldl_nil, putSource_of_hbm _ ha, drainLine_of_none hreds]
  unfold putLine
  dsimp only
  rw [drainHbm_of_none hreds, putBytes_nil_mem, addrLow_of_hbm ha]
  simpa using congrArg (writeBytes · a bs) hline

end Sys2Proof.Machine
end

section
/-! SUPPORT. The base of BAR2: what a write of LNK_B2BASE changes, and where a BAR2 access then goes (R6, R324, R325). -/

namespace Sys2Proof.Machine

/-! ## Homes follow the registers of the LLC block alone -/

section
variable {off : Nat} (h : off < llcBase) (s : State) (v : Word)
include h

theorem placement_setReg_below (e : Nat) : placement (s.setReg off v) e = placement s e := by
  have hrng : (s.setReg off v).reg (rPlaceRng e) = s.reg (rPlaceRng e) := reg_setReg_other s v (by unfold rPlaceRng; omega)
  have hattr : (s.setReg off v).reg (rPlaceAttr e) = s.reg (rPlaceAttr e) := reg_setReg_other s v (by unfold rPlaceAttr; omega)
  unfold placement State.regField
  rw [hrng, hattr]

theorem resWays_setReg_below (k : Nat) : resWays (s.setReg off v) k = resWays s k := by
  simp only [resWays, State.regField, reg_setReg_other s v (show rRescfg ≠ off by unfold rRescfg; omega)]

theorem hbmHome_setReg_below (a : Nat) : hbmHome (s.setReg off v) a = hbmHome s a := by
  simp only [hbmHome, stackOf, governing, placement_setReg_below h]

theorem homeAt_setReg_below (lo : Nat) : homeAt (s.setReg off v) lo = homeAt s lo := by
  simp only [homeAt, hbmHome_setReg_below h, resWays_setReg_below h]
  rfl

theorem inBackedRes_setReg_below (lo n : Nat) : inBackedRes (s.setReg off v) lo n = inBackedRes s lo n := by
  unfold inBackedRes
  split
  · rfl
  · rw [resWays_setReg_below h]

theorem spaceOf_setReg_below (lo n : Nat) : spaceOf (s.setReg off v) lo n = spaceOf s lo n := by
  unfold spaceOf
  rw [inBackedRes_setReg_below h]

theorem placeDown_setReg_below (lo : Nat) : placeDown (s.setReg off v) lo = placeDown s lo := by
  simp only [placeDown, towerAt, homeAt_setReg_below h]
  rfl

end

/-! ## Writes of LNK_B2BASE -/

/-- The register has one field, which anyone may write, and no rule but its access code governs it (R6). -/
theorem regWrite_b2base (s : State) (iface v : Nat) : regWrite s iface 0x0000E008 v =
    s.setReg 0x0000E008 (BitVec.ofNat 32 (putBits (s.reg 0x0000E008).toNat 23 0 (nbits v 23 0))) := rfl

theorem bits_putBits_low24 (w : Word) {v : Nat} (hv : v < 2 ^ 24) :
    bits (BitVec.ofNat 32 (putBits w.toNat 23 0 (nbits v 23 0))) 23 0 = v := by
  have hw := w.isLt
  simp only [bits, putBits, nbits, BitVec.toNat_ofNat, Nat.shiftRight_zero, Nat.pow_zero, Nat.mul_one]
  omega

/-- The command writes the register, whose BASE then reads the value written. -/
theorem exec_registerWrite_b2base (s : State) (iface : Iface) {v : Word} (hv : v.toNat < 2 ^ 24) :
    ∃ w, exec (.registerWrite iface 0x0000E008 v) s = .next (s.setReg 0x0000E008 w) ∧ bits w 23 0 = v.toNat :=
  ⟨_, congrArg Host.Outcome.next (regWrite_b2base s iface v.toNat), bits_putBits_low24 _ hv⟩

/-! ## BAR2 writes to an open home -/

/-- The window starts at BASE GiB; no base of 24 bits takes an offset past the addresses of the domain (R324). -/
theorem bar2Addr_eq (s : State) (off : Fin 1073741824) :
    bar2Addr s off.val = s.regField 0x0000E008 23 0 * 2 ^ 30 + off.val := by
  have hbase : s.regField 0x0000E008 23 0 < 2 ^ 24 := Nat.mod_lt _ (by decide)
  have hoff := off.isLt
  unfold bar2Addr
  exact Nat.mod_eq_of_lt (by omega)

/-- `n` bytes at a device address lie in HBM of this module, outside its reserved areas, in a tower that serves, where a write moves no
other line. -/
def OpenHome (s : State) (a n : Nat) : Prop :=
  addrModule a = s.modId ∧ spaceOf s (addrLow a) n = .home ∧ placeDown s (addrLow a) = false ∧
    WritesAlone s (addrLow a) n ∧ addrLow a + n ≤ hbmEnd

theorem OpenHome.setReg_below {s : State} {a n off : Nat} (h : OpenHome s a n) (hoff : off < llcBase) (v : Word) :
    OpenHome (s.setReg off v) a n := by
  obtain ⟨hmod, hspace, hdown, hwrites, hend⟩ := h
  exact ⟨hmod, (spaceOf_setReg_below hoff s v _ _).trans hspace, (placeDown_setReg_below hoff s v _).trans hdown, hwrites, hend⟩

theorem reqBytes_length (data : List Byte) : (reqBytes data).length = data.length := List.length_map ..

/-- The bytes stand at the device address, and no other byte of memory has changed. -/
def Stored (s t : State) (a : Nat) (data : List Byte) : Prop :=
  MemHolds t (addrLow a) (reqBytes data) ∧ MemFrame s t [(addrLow a, data.length)]

theorem Stored.of_mem {s t : State} {a : Nat} {data : List Byte} (h : t.mem = writeBytes s.mem (addrLow a) (reqBytes data)) :
    Stored s t a data := by
  refine ⟨fun j hj => ?_, fun b hb => ?_⟩
  · rw [h, memGet_writeBytes _ _ _ hj, List.getD_eq_getElem _ _ hj]
  · rw [h, memGet_writeBytes_other _ _ _ (by rw [reqBytes_length]; exact hb _ (List.mem_singleton_self _))]

section
variable {s : State} {off : Fin 1073741824} {data : List Byte}

theorem bar2Write_openHome (hopen : s.md.opened = true) (h : OpenHome s (bar2Addr s off) data.length) :
    bar2Write s off (reqBytes data) false = homeWrite s (addrLow (bar2Addr s off)) (reqBytes data) := by
  obtain ⟨hmod, hspace, hdown, -, -⟩ := h
  simp [bar2Write, reqBytes_length, hmod, hspace, hdown, hopen]

/-- A BAR2 write to an open home stores its bytes at its offset from the base as it stands. -/
theorem exec_bar2Write_stored (hup : hostUp s = true) (hopen : s.md.opened = true) (hne : data ≠ [])
    (hfit : off.val % 128 + data.length ≤ 128) (h : OpenHome s (s.regField 0x0000E008 23 0 * 2 ^ 30 + off.val) data.length) :
    ∃ t, exec (.bar2Write off data false) s = .next t ∧ Stored s t (s.regField 0x0000E008 23 0 * 2 ^ 30 + off.val) data := by
  have hline : addrLow (s.regField 0x0000E008 23 0 * 2 ^ 30 + off.val) % 128 = off.val % 128 := by unfold addrLow; omega
  rw [← bar2Addr_eq] at h hline ⊢
  refine ⟨homeWrite s (addrLow (bar2Addr s off)) (reqBytes data), ?_, Stored.of_mem ?_⟩
  · have hok : ¬ (data = [] ∨ 128 < off.val % 128 + data.length) := not_or.2 ⟨hne, by omega⟩
    show execBar2Write off data false s = _
    unfold execBar2Write
    rw [if_neg hok, if_pos hup]
    exact congrArg _ (bar2Write_openHome hopen h)
  · obtain ⟨-, -, -, hwrites, hend⟩ := h
    rw [← reqBytes_length] at hwrites hend hfit
    exact hwrites.homeWrite_mem (by simpa [reqBytes] using hne) (by omega) hend

end

/-! ## Two commands in order -/

theorem step_of_pending {s : State} {c : Instr} {q : List Instr} (h : s.pending = c :: q) : step s = exec c { s with pending := q } := by
  unfold step; rw [h]

section
variable {s : State} {iface : Iface} {v : Word} {off : Fin 1073741824} {data : List Byte} {q : List Instr}

/-- Queued commands are no part of where an access goes. -/
theorem OpenHome.pending {a n : Nat} (h : OpenHome s a n) (p : List Instr) : OpenHome { s with pending := p } a n := h

/-- With the write of the base in front, the second step stores at the new base (R325). -/
theorem bar2_after_base (hq : s.pending = .registerWrite iface 0x0000E008 v :: .bar2Write off data false :: q)
    (hup : hostUp s = true) (hopen : s.md.opened = true) (hne : data ≠ []) (hfit : off.val % 128 + data.length ≤ 128)
    (hv : v.toNat < 2 ^ 24) (h : OpenHome s (v.toNat * 2 ^ 30 + off.val) data.length) :
    ∃ u t, step s = .next u ∧ step u = .next t ∧ Stored s t (v.toNat * 2 ^ 30 + off.val) data := by
  obtain ⟨w, hwrite, hbase⟩ := exec_registerWrite_b2base { s with pending := .bar2Write off data false :: q } iface hv
  have hfield : ({ s with pending := q }.setReg 0x0000E008 w).regField 0x0000E008 23 0 = v.toNat := by
    rw [State.regField, reg_setReg_same, hbase]
  obtain ⟨t, hstore, hstored⟩ := exec_bar2Write_stored (s := { s with pending := q }.setReg 0x0000E008 w) (off := off)
    hup hopen hne hfit (by rw [hfield]; exact (h.pending q).setReg_below (by decide) w)
  rw [hfield] at hstored
  exact ⟨_, t, (step_of_pending hq).trans hwrite, (step_of_pending rfl).trans hstore, hstored⟩

/-- With the BAR2 write in front, the first step stores at the base that stood before (R325). -/
theorem bar2_before_base (hq : s.pending = .bar2Write off data false :: .registerWrite iface 0x0000E008 v :: q)
    (hup : hostUp s = true) (hopen : s.md.opened = true) (hne : data ≠ []) (hfit : off.val % 128 + data.length ≤ 128)
    (h : OpenHome s (s.regField 0x0000E008 23 0 * 2 ^ 30 + off.val) data.length) :
    ∃ t, step s = .next t ∧ Stored s t (s.regField 0x0000E008 23 0 * 2 ^ 30 + off.val) data := by
  obtain ⟨t, hstore, hstored⟩ := exec_bar2Write_stored (s := { s with pending := .registerWrite iface 0x0000E008 v :: q })
    hup hopen hne hfit (h.pending _)
  exact ⟨t, (step_of_pending hq).trans hstore, hstored⟩

end

/-- Settles O60: a step runs the front command, so a BAR2 write finds the base that the commands before it left, and LNK_B2BASE lies below
the registers that say where lines live. -/
theorem bar2FollowsItsBase : Obligations.Bar2FollowsItsBase := by
  unfold Obligations.Bar2FollowsItsBase
  intro s iface v off data hup hopen hne hfit hv
  exact ⟨fun q hq hhome => bar2_after_base hq hup hopen hne hfit hv hhome,
    fun q hq hhome => bar2_before_base hq hup hopen hne hfit hhome⟩

end Sys2Proof.Machine
end

section
/-! SUPPORT. What an entry of the RAS log records, and the registers that it leaves alone (R465 to R468). -/

namespace Sys2Proof.Machine

/-! ## The code of an entry -/

theorem natLe_length (n v : Nat) : (natLe n v).length = n := by
  induction n generalizing v with
  | zero => rfl
  | succ n ih => rw [natLe, List.length_cons, ih]

theorem leNat_natLe {n v : Nat} (h : v < 256 ^ n) : leNat (natLe n v) = v := by
  induction n generalizing v with
  | zero => simpa [natLe, leNat, eq_comm] using h
  | succ n ih =>
    rw [natLe, leNat, ih (Nat.div_lt_of_lt_mul (by rwa [← Nat.pow_succ']))]
    omega

/-- CODE follows the eight bytes of the time (R465). -/
theorem fieldLe_logBytes_code (tick seq : Nat) {e : LogEv} (persisted training : Bool) (h : e.code < 2 ^ 16) :
    fieldLe (logBytes tick seq e persisted training) 8 2 = e.code := by
  obtain ⟨rest, hbytes⟩ : ∃ rest, logBytes tick seq e persisted training = natLe 8 tick ++ (natLe 2 e.code ++ rest) := by
    simp only [logBytes, List.append_assoc]
    exact ⟨_, rfl⟩
  rw [hbytes, fieldLe, List.drop_left' (natLe_length 8 tick), List.take_left' (natLe_length 2 e.code)]
  exact leNat_natLe h

/-! ## Writing an entry -/

@[simp] theorem sendMsix_ras (s : State) (v : Nat) : (sendMsix s v).ras = s.ras := by
  unfold sendMsix
  split
  · rfl
  · split <;> rfl

@[simp] theorem reg_sendMsix (s : State) (v off : Nat) : (sendMsix s v).reg off = s.reg off := by
  unfold sendMsix
  split
  · rfl
  · split <;> rfl

theorem reg_setField_other (s : State) {a b : Nat} (hi lo v : Nat) (h : b ≠ a) : (s.setField a hi lo v).reg b = s.reg b :=
  reg_setReg_other s _ h

/-- An entry moves the head, the count of overwritten entries and the alert, and no other register (R465 to R468). -/
theorem reg_rasLog_other (s : State) (e : LogEv) {off : Nat} (hhead : off ≠ rLogHead) (hstat : off ≠ rLogStat)
    (halert : off ≠ rAlert) : (rasLog s e).reg off = s.reg off := by
  unfold rasLog rasLogT
  dsimp only
  split <;> split <;>
    simp only [reg_sendMsix, reg_setReg_other _ _ halert, reg_setReg_other _ _ hhead, reg_setField_other _ _ _ _ hstat] <;> rfl

/-- The entry stands at the head, and SEQ counts it (R465). -/
theorem rasLog_logged (s : State) (e : LogEv) (h : e.code < 2 ^ 16) : Logged s (rasLog s e) e.code := by
  have hras : (rasLog s e).ras.ring = tset [] s.ras.ring (s.regField rLogHead 11 0)
      (logBytes s.clk.tick s.ras.seq e (decide (2 ≤ e.sev) && flashOpen s) false) ∧
      (rasLog s e).ras.seq = (s.ras.seq + 1) % 2 ^ 32 := by
    unfold rasLog rasLogT
    dsimp only
    split <;> split <;> simp only [sendMsix_ras, setReg_ras, setField_ras, and_self]
  obtain ⟨hring, hseq⟩ := hras
  exact ⟨by rw [hring, tget_tset_same, fieldLe_logBytes_code _ _ _ _ h], hseq⟩

end Sys2Proof.Machine
end

section
/-! SUPPORT. Writes of the cover pool that are dropped and counted (R464). -/

namespace Sys2Proof.Machine

/-- ADM_COVER_LO and ADM_COVER_HI. -/
def rCover (hi : Bool) : Nat := if hi then 0x00200024 else 0x00200020

/-- A write of the half is dropped whole: the register keeps its value and the violation is logged (R464, R548). -/
def CoverDropped (s t : State) (hi : Bool) : Prop := t.reg (rCover hi) = s.reg (rCover hi) ∧ Logged s t 0x0607

theorem accessViolation_coverDropped (s : State) (iface : Nat) (hi : Bool) (v : Nat) :
    CoverDropped s (accessViolation s iface (rCover hi) v) hi := by
  have hother : rCover hi ≠ rLogHead ∧ rCover hi ≠ rLogStat ∧ rCover hi ≠ rAlert := by cases hi <;> decide
  obtain ⟨hhead, hstat, halert⟩ := hother
  exact ⟨reg_rasLog_other s _ hhead hstat halert, rasLog_logged s _ (by decide : 0x0607 < 2 ^ 16)⟩

/-! ## Clusters of a half -/

theorem nbit_toNat (v : Word) (i : Nat) : nbit v.toNat i = v.getLsbD i := by
  simp only [nbit, BitVec.getLsbD, Nat.testBit_eq_decide_div_mod_eq, Nat.shiftRight_eq_div_pow]
  rfl

/-- A half holds the clusters of its range whose bits are set. -/
theorem halfClusters_contains {hi : Bool} {cl : Nat} (hcl : cl < 64) (hhalf : decide (32 ≤ cl) = hi) (v : Word) :
    (halfClusters hi v.toNat).contains cl = v.getLsbD (cl % 32) := by
  have hplace : ∀ i, i < 32 → ((if hi then 32 + i else i) = cl ↔ i = cl % 32) := by
    intro i h
    subst hhalf
    simp only [decide_eq_true_eq]
    split <;> omega
  rw [Bool.eq_iff_iff, List.contains_iff_mem, ← nbit_toNat]
  simp only [halfClusters, List.mem_map, List.mem_filter, List.mem_range]
  constructor
  · rintro ⟨i, ⟨hi32, hbit⟩, hplaced⟩
    rwa [← (hplace i hi32).1 hplaced]
  · intro hbit
    have h32 : cl % 32 < 32 := Nat.mod_lt _ (by decide)
    exact ⟨cl % 32, ⟨h32, hbit⟩, (hplace _ h32).2 rfl⟩

/-- A cluster of `new` that `old` lacks is among those that a write adds. -/
theorem mem_filter_not_contains {new old : List Nat} {x : Nat} (hnew : new.contains x = true) (hold : old.contains x = false) :
    x ∈ new.filter (fun y => !old.contains y) := by
  rw [List.mem_filter, hold]
  exact ⟨List.contains_iff_mem.1 hnew, rfl⟩

/-! ## Writes of the pool -/

theorem checkedWrite_of_bad (s : State) (iface off v : Nat) (after : State → State) {bad : Bool} (h : bad = true) :
    checkedWrite s iface off v (!bad) after = accessViolation s iface off v := by
  rw [h]; rfl

section
variable {s : State} {hi : Bool} {v : Word} {cl : Nat} (iface : Nat) (hcl : cl < 64) (hhalf : decide (32 ≤ cl) = hi)
include hcl hhalf

theorem writeCover_of_adds (hwas : s.regBit (rCover hi) (cl % 32) = false) (hnow : v.getLsbD (cl % 32) = true)
    (hbars : (∃ d, d < 16 ∧ inClass s d cl = true) ∨ (s.cluster cl).retired = true) :
    writeCover s iface hi v.toNat = accessViolation s iface (rCover hi) v.toNat := by
  have hadded := mem_filter_not_contains ((halfClusters_contains hcl hhalf v).trans hnow)
    ((halfClusters_contains hcl hhalf _).trans hwas)
  have hbad : ((List.range 16).any (fun d => inClass s d cl) || (s.cluster cl).retired) = true := by
    rw [Bool.or_eq_true, List.any_eq_true]
    exact hbars.imp_left fun ⟨d, hd, hin⟩ => ⟨d, List.mem_range.2 hd, hin⟩
  unfold writeCover
  refine checkedWrite_of_bad s iface _ _ _ ?_
  rw [Bool.or_eq_true, List.any_eq_true, List.any_eq_true]
  exact .inl ⟨cl, hadded, hbad⟩

theorem writeCover_of_removes (hwas : s.regBit (rCover hi) (cl % 32) = true) (hnow : v.getLsbD (cl % 32) = false)
    (hhosting : s.regBit (rClcore cl) 21 = true) :
    writeCover s iface hi v.toNat = accessViolation s iface (rCover hi) v.toNat := by
  have hremoved := mem_filter_not_contains ((halfClusters_contains hcl hhalf _).trans hwas)
    ((halfClusters_contains hcl hhalf v).trans hnow)
  unfold writeCover
  refine checkedWrite_of_bad s iface _ _ _ ?_
  rw [Bool.or_eq_true, List.any_eq_true, List.any_eq_true]
  exact .inr ⟨cl, hremoved, hhosting⟩

end

/-- No other rule of the register file comes before the pool's. -/
theorem regWrite_cover (s : State) (iface : Nat) (hi : Bool) (v : Nat) : regWrite s iface (rCover hi) v = writeCover s iface hi v := by
  cases hi <;> rfl

/-- The row's command and a register write do the same to the pool. -/
theorem exec_cover (s : State) (iface : Iface) (hi : Bool) (v : Word) :
    ∀ c ∈ [Instr.admCoverWrite iface hi v, .registerWrite iface (rCover hi) v], exec c s = .next (writeCover s iface hi v.toNat) := by
  intro c hc
  obtain rfl | rfl : c = .admCoverWrite iface hi v ∨ c = .registerWrite iface (rCover hi) v := by simpa using hc
  · rfl
  · exact congrArg Host.Outcome.next (regWrite_cover s iface hi v.toNat)

/-- Either command answers the state of the access violation once the write is one. -/
theorem exec_cover_dropped {s : State} {iface : Iface} {hi : Bool} {v : Word}
    (h : writeCover s iface hi v.toNat = accessViolation s iface (rCover hi) v.toNat) :
    ∀ c ∈ [Instr.admCoverWrite iface hi v, .registerWrite iface (rCover hi) v],
      ∃ t, exec c s = .next t ∧ CoverDropped s t hi :=
  fun c hc => ⟨_, exec_cover s iface hi v c hc, h ▸ accessViolation_coverDropped s iface hi v.toNat⟩

/-- Settles O59: a cluster that may not be added, or not be removed, is among those that make the check of the write fail, and a
violation's entry leaves the pool alone. -/
theorem coverPoolWritesThatAreDropped : Obligations.CoverPoolWritesThatAreDropped := by
  unfold Obligations.CoverPoolWritesThatAreDropped
  intro s iface hi v cl hcl hhalf
  refine ⟨fun d hd ⟨hwas, hnow⟩ hin => ?_, fun ⟨hwas, hnow⟩ hretired => ?_, fun ⟨hwas, hnow⟩ hhosting => ?_⟩
  · exact exec_cover_dropped (writeCover_of_adds iface hcl hhalf hwas hnow (.inl ⟨d, hd, hin⟩))
  · exact exec_cover_dropped (writeCover_of_adds iface hcl hhalf hwas hnow (.inr hretired))
  · exact exec_cover_dropped (writeCover_of_removes iface hcl hhalf hwas hnow hhosting)

end Sys2Proof.Machine
end

section
/-! SUPPORT. A step and the state after reset. -/
namespace Sys2Proof.Machine

/-- Settles O1: both cases of `step`. -/
theorem stepRunsFrontCommand : Obligations.StepRunsFrontCommand :=
  ⟨fun _ _ _ h => step_of_pending h, fun s h => by unfold step; rw [h]⟩

/-- Settles O2: the memory is empty and nothing waits. -/
theorem resetIsSound : Obligations.ResetIsSound := ⟨rfl, fun _ hc => nomatch hc⟩

end Sys2Proof.Machine
end

section
/-! SUPPORT. An issue that moves its group on: what its threads hold afterwards (R142 to R145, R156). -/
namespace Sys2Proof.Machine

/-! ## A group that moves on -/

/-- Thread `th` moved on to `pc`. -/
def movedTo (pc : Nat) (th : Thread) : Thread := { th with pc := pc }

/-- Group `i.g` of the issue's core has become `gr` with the listed threads at `pc`, up to blocks and sets; the core's other groups keep
their registers. -/
structure Moved (s t : State) (i : Ctx) (gr : Group) (ts : List Nat) (pc : Nat) : Prop where
  other : ∀ g, g ≠ i.g → SameRegs (grpOf s i.c g) (grpOf t i.c g)
  launch : (grpOf t i.c i.g).launch = gr.launch
  urf : (grpOf t i.c i.g).urf = gr.urf
  upend : (grpOf t i.c i.g).upend = gr.upend
  srKey : (grpOf t i.c i.g).srKey = gr.srKey
  thrs : ∀ u, unblocked (thrOf t i.c i.g u) = unblocked (if u ∈ ts then movedTo pc (thr gr u) else thr gr u)

theorem advance_moved {s u : State} {i : Ctx} {gr : Group} (ts : List Nat) (pc : Nat)
    (hother : ∀ g, g ≠ i.g → SameRegs (grpOf s i.c g) (grpOf u i.c g)) (hown : SameRegs gr (grpOf u i.c i.g)) :
    Moved s (advance u i ts pc) i gr ts pc := by
  have own : SameRegs (modThrs (grpOf u i.c i.g) ts (fun _ th => { th with pc := pc })) (grpOf (advance u i ts pc) i.c i.g) := by
    unfold advance; rw [grpOf_modGrp, if_pos rfl]; exact .normGroup _
  refine ⟨fun g h => ?_, ?_, ?_, ?_, ?_, fun v => ?_⟩
  · unfold advance; rw [grpOf_modGrp, if_neg h]; exact hother g h
  · rw [own.launch, modThrs_launch, hown.launch]
  · rw [own.urf, modThrs_urf, hown.urf]
  · rw [own.upend, modThrs_upend, hown.upend]
  · rw [own.srKey, modThrs_srKey, hown.srKey]
  · have hv := hown.thrs v
    unfold thrOf
    rw [own.thrs, thr_modThrs _ _ (fun th => { th with pc := pc }) (fun _ => rfl)]
    split
    · exact congrArg (fun th => movedTo pc th) hv
    · exact hv

section
variable {s t : State} {i : Ctx} {gr : Group} {ts : List Nat} {np : Nat} (h : Moved s t i gr ts np)
include h

theorem Moved.thread (u : Nat) : ∃ b p, thrOf t i.c i.g u = { thr gr u with block := b, pc := p } := by
  have hu := h.thrs u
  refine ⟨(thrOf t i.c i.g u).block, (thrOf t i.c i.g u).pc, ?_⟩
  generalize thrOf t i.c i.g u = a at hu ⊢
  generalize thr gr u = b at hu ⊢
  cases a; cases b
  split at hu <;> simp_all [unblocked, movedTo]

theorem Moved.gpr (u : Nat) : (thrOf t i.c i.g u).gpr = (thr gr u).gpr := by obtain ⟨b, p, e⟩ := h.thread u; rw [e]
theorem Moved.preds (u : Nat) : (thrOf t i.c i.g u).preds = (thr gr u).preds := by obtain ⟨b, p, e⟩ := h.thread u; rw [e]
theorem Moved.srCtr (u : Nat) : (thrOf t i.c i.g u).srCtr = (thr gr u).srCtr := by obtain ⟨b, p, e⟩ := h.thread u; rw [e]
theorem Moved.held (u : Nat) : (thrOf t i.c i.g u).held = (thr gr u).held := by obtain ⟨b, p, e⟩ := h.thread u; rw [e]
theorem Moved.pend (u : Nat) : (thrOf t i.c i.g u).pend = (thr gr u).pend := by obtain ⟨b, p, e⟩ := h.thread u; rw [e]
theorem Moved.writes (u : Nat) : (thrOf t i.c i.g u).writes = (thr gr u).writes := by obtain ⟨b, p, e⟩ := h.thread u; rw [e]
theorem Moved.live (u : Nat) : (thrOf t i.c i.g u).live = (thr gr u).live := by obtain ⟨b, p, e⟩ := h.thread u; rw [e]

theorem Moved.pc {u : Nat} (hu : u ∈ ts) : (thrOf t i.c i.g u).pc = np := by
  have e := h.thrs u
  rw [if_pos hu] at e
  exact congrArg Thread.pc e

theorem Moved.allAt (hts : ts = i.members) : AllAt t i np := fun _ hu => h.pc (hts ▸ hu)

/-- The frame of an instruction, from what its group keeps. -/
theorem Moved.regFrame {code n p : Nat}
    (hg : ∀ u r, ¬ (u ∈ i.active ∧ code ≤ r ∧ r < code + n) → r < 0x80 → tget 0 (thr gr u).gpr r = gprOf s i.c i.g u r)
    (hu : ∀ r, ¬ (code ≤ 0x80 + r ∧ 0x80 + r < code + n) → r < 0x40 → tget 0 gr.urf r = urfOf s i.c i.g r)
    (hp : ∀ u q, ¬ (u ∈ i.active ∧ q = p) → q < 7 → predVal (thr gr u) q = predOf s i.c i.g u q) :
    RegFrame s t i code n p := by
  refine ⟨fun g u r hne hr => ?_, fun g r hne hr => ?_, fun g u q hne hq => ?_⟩
  · by_cases hgg : g = i.g
    · subst hgg
      unfold gprOf; rw [h.gpr]
      exact hg u r (fun hh => hne ⟨rfl, hh⟩) hr
    · unfold gprOf thrOf; rw [(h.other g hgg).gpr]
  · by_cases hgg : g = i.g
    · subst hgg
      unfold urfOf; rw [h.urf]
      exact hu r (fun hh => hne ⟨rfl, hh⟩) hr
    · unfold urfOf; rw [(h.other g hgg).urf]
  · by_cases hgg : g = i.g
    · subst hgg
      refine Eq.trans ?_ (hp u q (fun hh => hne ⟨rfl, hh⟩) hq)
      unfold predOf predVal; rw [h.preds]
    · unfold predOf predVal thrOf; rw [(h.other g hgg).preds]

end

/-- Registers of a group with the same ones. -/
theorem Moved.noRegs {s t : State} {i : Ctx} {gr : Group} (h : Moved s t i gr i.members (i.pc + 8)) (hg : SameRegs (grpOf s i.c i.g) gr) :
    NoRegs s t i :=
  ⟨h.regFrame (fun u r _ _ => by rw [hg.gpr]; rfl) (fun r _ _ => by rw [hg.urf]; rfl)
    (fun u q _ _ => by unfold predVal predOf predVal thrOf; rw [hg.preds]), h.allAt rfl⟩

/-! ## What one thread's effects do -/

/-- A thread after `n` words for field `code`. -/
def regThread (code n v : Nat) (th : Thread) : Thread :=
  if code < 0x80 then
    { th with
      gpr := ((List.range n).map (fun i => (code + i, BitVec.ofNat 32 (v >>> (32 * i))))).foldl (fun g p => tset 0 g p.1 p.2) th.gpr,
      pend := unpend (codeRange code n) th.pend }
  else th

/-- A thread after a predicate write. -/
def predThread (p : Nat) (b : Bool) (th : Thread) : Thread :=
  if p = 7 then th else
    { th with
      preds := (th.preds &&& ~~~ (BitVec.ofNat 8 (2 ^ p))) ||| (if b then BitVec.ofNat 8 (2 ^ p) else 0),
      pend := (th.pend.map (fun q => if q.pred = some p then { q with pred := none } else q)).filter
        (fun q => !q.regs.isEmpty || q.pred.isSome) }

/-- A thread after `n` random draws. -/
def drawThread (n : Nat) (th : Thread) : Thread := { th with srCtr := th.srCtr + BitVec.ofNat 32 n }

theorem thr_writeReg_regThread (gr : Group) (t code n v u : Nat) :
    thr (writeReg gr t code n v) u = if u = t then regThread code n v (thr gr t) else thr gr u := by
  rw [thr_writeReg]; unfold regThread
  by_cases hu : u = t <;> by_cases hc : code < 0x80 <;> simp [hu, hc]

theorem thr_writeDst_regThread (i : Ctx) (gr : Group) (t code n v u : Nat) :
    thr (writeDst i gr t code n v) u = if u = t then regThread code n v (thr gr t) else thr gr u := by
  rw [thr_writeDst, thr_writeReg_regThread]; unfold regThread
  by_cases hu : u = t <;> by_cases hc : code < 0x80 <;> simp [hu, hc]

theorem thr_writePred_predThread (gr : Group) (t p : Nat) (b : Bool) (u : Nat) :
    thr (writePred gr t p b) u = if u = t then predThread p b (thr gr t) else thr gr u := by
  unfold writePred predThread
  split
  · split
    next h => rw [h]
    · rfl
  · exact thr_modThr ..

/-- The words of an operand field of a thread, as they stand after a write of `n` of them. -/
theorem regThread_gpr_get {code n v j : Nat} (th : Thread) (hc : code < 0x80) (hj : j < n) :
    tget 0 (regThread code n v th).gpr (code + j) = BitVec.ofNat 32 (v >>> (32 * j)) := by
  unfold regThread
  rw [if_pos hc]
  exact tget_foldl_words code n (fun j => BitVec.ofNat 32 (v >>> (32 * j))) _ j hj

theorem regThread_gpr_other {code n v r : Nat} (th : Thread) (hr : ¬ (code ≤ r ∧ r < code + n)) :
    tget 0 (regThread code n v th).gpr r = tget 0 th.gpr r := by
  unfold regThread
  split
  · refine tget_foldl_other _ _ _ fun p hp => ?_
    obtain ⟨a, ha, rfl⟩ := List.mem_map.1 hp
    rw [List.mem_range] at ha
    simp only
    omega
  · rfl

theorem regThread_of_ge {code : Nat} (n v : Nat) (th : Thread) (hc : 0x80 ≤ code) : regThread code n v th = th := if_neg (by omega)

@[simp] theorem regThread_preds (code n v : Nat) (th : Thread) : (regThread code n v th).preds = th.preds := by unfold regThread; split <;> rfl
@[simp] theorem regThread_srCtr (code n v : Nat) (th : Thread) : (regThread code n v th).srCtr = th.srCtr := by unfold regThread; split <;> rfl
@[simp] theorem predThread_gpr (p : Nat) (b : Bool) (th : Thread) : (predThread p b th).gpr = th.gpr := by unfold predThread; split <;> rfl
@[simp] theorem predThread_srCtr (p : Nat) (b : Bool) (th : Thread) : (predThread p b th).srCtr = th.srCtr := by unfold predThread; split <;> rfl
@[simp] theorem drawThread_gpr (n : Nat) (th : Thread) : (drawThread n th).gpr = th.gpr := rfl
@[simp] theorem drawThread_preds (n : Nat) (th : Thread) : (drawThread n th).preds = th.preds := rfl
@[simp] theorem drawThread_zero (th : Thread) : drawThread 0 th = th := by unfold drawThread; simp

theorem getLsbD_predWord {p q : Nat} (w : BitVec 8) (b : Bool) (hq : q < 8) :
    ((w &&& ~~~ (BitVec.ofNat 8 (2 ^ p))) ||| (if b then BitVec.ofNat 8 (2 ^ p) else 0)).getLsbD q = if q = p then b else w.getLsbD q := by
  have hbit : (BitVec.ofNat 8 (2 ^ p)).getLsbD q = decide (q = p) := by
    rw [BitVec.getLsbD_ofNat, Nat.testBit_two_pow]
    simp [hq, eq_comm]
  generalize BitVec.ofNat 8 (2 ^ p) = m at hbit ⊢
  have hput : (if b then m else 0).getLsbD q = (b && decide (q = p)) := by cases b <;> simp [hbit]
  rw [BitVec.getLsbD_or, BitVec.getLsbD_and, BitVec.getLsbD_not, hbit, hput]
  by_cases h : q = p <;> simp [h, hq]

theorem predThread_val {p q : Nat} (b : Bool) (th : Thread) (hq : q < 7) :
    predVal (predThread p b th) q = if q = p then b else predVal th q := by
  unfold predVal
  rw [if_neg (by omega : ¬ q = 7), if_neg (by omega : ¬ q = 7)]
  unfold predThread
  split
  next h => rw [if_neg (by omega : ¬ q = p)]
  · exact getLsbD_predWord _ _ (by omega)

/-- A thread after an instruction's effects on it. -/
def effThread (e : Eff) (th : Thread) : Thread :=
  let th := match e.dst with | none => th | some (code, n, v) => regThread code n v th
  let th := match e.pred with | none => th | some (p, b) => predThread p b th
  drawThread e.sr th

theorem thr_applyEff (i : Ctx) (gr : Group) (t : Nat) (e : Eff) (u : Nat) :
    thr (applyEff i gr t e) u = if u = t then effThread e (thr gr t) else thr gr u := by
  obtain ⟨dst, pred, sr, nan⟩ := e
  have draw : ∀ gr : Group, thr (if sr = 0 then gr else modThr gr t (fun th => { th with srCtr := th.srCtr + BitVec.ofNat 32 sr })) u =
      if u = t then drawThread sr (thr gr t) else thr gr u := by
    intro gr
    split
    next h => subst h; split
              next h => rw [h, drawThread_zero]
              · rfl
    · exact thr_modThr ..
  unfold applyEff effThread
  dsimp only
  rw [draw]
  rcases dst with _ | ⟨code, n, v⟩ <;> rcases pred with _ | ⟨p, b⟩ <;> dsimp only <;>
    simp only [thr_writePred_predThread, thr_writeDst_regThread] <;> split <;> rfl

@[simp] theorem writePred_urf (gr : Group) (t p : Nat) (b : Bool) : (writePred gr t p b).urf = gr.urf := by
  unfold writePred; split <;> rfl

@[simp] theorem writePred_srKey (gr : Group) (t p : Nat) (b : Bool) : (writePred gr t p b).srKey = gr.srKey := by
  unfold writePred; split <;> rfl

/-- The uniform registers after one thread's effects. -/
theorem urf_applyEff (i : Ctx) (gr : Group) (t : Nat) (e : Eff) : (applyEff i gr t e).urf =
    match e.dst with
    | none => gr.urf
    | some (code, n, v) => (writeDst i gr t code n v).urf := by
  obtain ⟨dst, pred, sr, nan⟩ := e
  have draw : ∀ gr : Group, (if sr = 0 then gr else modThr gr t (fun th => { th with srCtr := th.srCtr + BitVec.ofNat 32 sr })).urf = gr.urf := by
    intro gr; split <;> rfl
  unfold applyEff
  dsimp only
  rw [draw]
  rcases dst with _ | ⟨code, n, v⟩ <;> rcases pred with _ | ⟨p, b⟩ <;> simp

/-! ## What all active threads' effects do -/

/-- The group after the effects of the active threads. -/
def effAll (i : Ctx) (e : Nat → Eff) (gr : Group) : Group := i.active.foldl (fun gr t => applyEff i gr t (e t)) gr

theorem thr_effAll (i : Ctx) (e : Nat → Eff) (gr : Group) (nd : i.active.Nodup) (u : Nat) :
    thr (effAll i e gr) u = if u ∈ i.active then effThread (e u) (thr gr u) else thr gr u :=
  foldl_thr _ (fun t => effThread (e t)) (fun gr t u => thr_applyEff i gr t (e t) u) _ nd gr u

theorem urf_applyEff_of_not_head {i : Ctx} {t : Nat} (h : i.active.head? ≠ some t) (gr : Group) (e : Eff) :
    (applyEff i gr t e).urf = gr.urf := by
  rw [urf_applyEff]
  split
  · rfl
  · rw [urf_writeDst, if_neg (fun hh => h hh.2.2)]

theorem urf_effAll (i : Ctx) (e : Nat → Eff) (gr : Group) (nd : i.active.Nodup) :
    (effAll i e gr).urf = match i.active.head? with
      | none => gr.urf
      | some t => (applyEff i gr t (e t)).urf := by
  have tail : ∀ (ts : List Nat) (gr : Group), (∀ t ∈ ts, i.active.head? ≠ some t) →
      (ts.foldl (fun gr t => applyEff i gr t (e t)) gr).urf = gr.urf := by
    intro ts
    induction ts with
    | nil => exact fun _ _ => rfl
    | cons a ts ih =>
      intro gr h
      rw [List.foldl_cons, ih _ (fun t ht => h t (List.mem_cons_of_mem _ ht)), urf_applyEff_of_not_head (h a (List.mem_cons_self ..))]
  unfold effAll
  match ha : i.active with
  | [] => rfl
  | a :: ts =>
    rw [ha, List.nodup_cons] at nd
    refine tail ts _ fun t ht hh => ?_
    rw [ha] at hh
    cases hh
    exact nd.1 ht

/-! ## An instruction whose active threads all complete -/

/-- The effect writes `n` words `v` to field `code`, none if that names no register, and `b` to predicate `p`, none if that is P7. -/
def Eff.Writes (e : Eff) (code n v p : Nat) (b : Bool) : Prop :=
  (e.dst = some (code, n, v) ∨ e.dst = none ∧ 0xC0 ≤ code) ∧ (e.pred = some (p, b) ∨ e.pred = none ∧ p = 7)

theorem regEff_writes (code n v : Nat) (b : Bool) : (regEff code n v).Writes code n v 7 b := ⟨.inl rfl, .inr ⟨rfl, rfl⟩⟩
theorem predEff_writes (p : Nat) (b : Bool) (v : Nat) : (predEff p b).Writes 0xC0 0 v p b := ⟨.inr ⟨rfl, le_rfl⟩, .inl rfl⟩

section
variable {e : Eff} {code n v p : Nat} {b : Bool} (h : e.Writes code n v p b)
include h

theorem Eff.Writes.thread (th : Thread) : effThread e th = drawThread e.sr (predThread p b (regThread code n v th)) := by
  obtain ⟨hd, hp⟩ := h
  unfold effThread
  have h1 : (match e.dst with | none => th | some (code, n, v) => regThread code n v th) = regThread code n v th := by
    rcases hd with hd | ⟨hd, hc⟩ <;> rw [hd]
    exact (regThread_of_ge _ _ _ (by omega)).symm
  have h2 : ∀ th, (match e.pred with | none => th | some (p, b) => predThread p b th) = predThread p b th := by
    intro th
    rcases hp with hp | ⟨hp, rfl⟩ <;> rw [hp]
    exact (if_pos rfl).symm
  rw [h1]
  dsimp only
  rw [h2]

theorem Eff.Writes.urf (i : Ctx) (gr : Group) (t : Nat) : (applyEff i gr t e).urf = (writeDst i gr t code n v).urf := by
  rw [urf_applyEff]
  rcases h.1 with hd | ⟨hd, hc⟩
  · rw [hd]
  · rw [hd]; dsimp only; rw [urf_writeDst, if_neg (fun hh => absurd hh.2.1 (by omega))]

end

theorem urf_writeDst_get {i : Ctx} {gr : Group} {t code n v j : Nat} (h1 : 0x80 ≤ code) (h2 : code < 0xC0) (ht : i.active.head? = some t)
    (hj : j < n) : tget 0 (writeDst i gr t code n v).urf (code - 0x80 + j) = BitVec.ofNat 32 (v >>> (32 * j)) := by
  rw [urf_writeDst, if_pos ⟨h1, h2, ht⟩]
  have hwords : (List.range n).map (fun j => (code + j - 0x80, BitVec.ofNat 32 (v >>> (32 * j)))) =
      (List.range n).map (fun j => (code - 0x80 + j, BitVec.ofNat 32 (v >>> (32 * j)))) :=
    List.map_congr_left fun a _ => by rw [show code + a - 0x80 = code - 0x80 + a by omega]
  rw [hwords]
  exact tget_foldl_words (code - 0x80) n (fun j => BitVec.ofNat 32 (v >>> (32 * j))) _ j hj

theorem urf_writeDst_other {i : Ctx} {gr : Group} {t code n v r : Nat} (hr : ¬ (code ≤ 0x80 + r ∧ 0x80 + r < code + n)) :
    tget 0 (writeDst i gr t code n v).urf r = tget 0 gr.urf r := by
  rw [urf_writeDst]
  split
  next h =>
    refine tget_foldl_other _ _ _ fun q hq => ?_
    obtain ⟨a, ha, rfl⟩ := List.mem_map.1 hq
    rw [List.mem_range] at ha
    simp only
    omega
  · rfl

/-- The registers and predicates of an issue whose group has taken such effects, and moved on. -/
theorem Moved.writes_eff {s t : State} {i : Ctx} {gr : Group} {e : Nat → Eff} {code n p : Nat} {v : Nat → Nat} {b : Nat → Bool}
    (nd : i.active.Nodup) (hgr : SameRegs (grpOf s i.c i.g) gr) (h : Moved s t i (effAll i e gr) i.members (i.pc + 8))
    (he : ∀ u ∈ i.active, (e u).Writes code n (v u) p (b u)) (hp : p < 8) :
    RegHolds t i code n v ∧ (p ≠ 7 → ∀ u ∈ i.active, predOf t i.c i.g u p = b u) ∧ RegFrame s t i code n p := by
  have hthr : ∀ u, thr (effAll i e gr) u = if u ∈ i.active then
      drawThread (e u).sr (predThread p (b u) (regThread code n (v u) (thr gr u))) else thr gr u := by
    intro u
    rw [thr_effAll i e gr nd]
    split
    next hu => rw [(he u hu).thread]
    · rfl
  have hurf : (effAll i e gr).urf = match i.active.head? with
      | none => gr.urf
      | some u => (writeDst i gr u code n (v u)).urf := by
    rw [urf_effAll i e gr nd]
    split
    · rfl
    next u hu => exact (he u (List.mem_of_mem_head? hu)).urf i gr u
  refine ⟨fun u hu => ⟨fun hc j hj => ?_, fun h1 h2 hu0 j hj => ?_⟩, fun hp7 u hu => ?_, h.regFrame (fun u r hne hr => ?_) (fun r hne hr => ?_) (fun u q hne hq => ?_)⟩
  · unfold gprOf
    rw [h.gpr, hthr, if_pos hu, drawThread_gpr, predThread_gpr, regThread_gpr_get _ hc hj]
  · unfold urfOf
    rw [h.urf, hurf, hu0]
    exact urf_writeDst_get h1 h2 hu0 hj
  · have hval : predOf t i.c i.g u p = predVal (thr (effAll i e gr) u) p := by unfold predOf predVal; rw [h.preds]
    rw [hval, hthr, if_pos hu]
    show predVal (predThread p (b u) _) p = b u
    rw [predThread_val _ _ (by omega), if_pos rfl]
  · rw [hthr]
    have hsame : tget 0 (thr gr u).gpr r = gprOf s i.c i.g u r := by rw [hgr.gpr]; rfl
    split
    next hu => rw [drawThread_gpr, predThread_gpr, regThread_gpr_other _ (fun hh => hne ⟨hu, hh⟩), hsame]
    · exact hsame
  · rw [hurf]
    have hsame : tget 0 gr.urf r = urfOf s i.c i.g r := by rw [hgr.urf]; rfl
    split
    · exact hsame
    · rw [urf_writeDst_other hne, hsame]
  · rw [hthr]
    have hsame : predVal (thr gr u) q = predOf s i.c i.g u q := by unfold predVal predOf predVal thrOf; rw [hgr.preds]
    split
    next hu =>
      show predVal (predThread p (b u) _) q = _
      rw [predThread_val _ _ hq, if_neg (fun hh => hne ⟨hu, hh⟩), ← hsame]
      unfold predVal; rw [regThread_preds]
    · exact hsame

/-- State `u` is `s` with a slot counted on the issue's core: no register differs. -/
structure Ready (s u : State) (i : Ctx) : Prop where
  regs : ∀ g, SameRegs (grpOf s i.c g) (grpOf u i.c g)
  core : OnlyCore s u i.c
  groups : OnlyGroups s u i.c

theorem slotted_ready (s : State) (i : Ctx) : Ready s (slotted s i) i := ⟨slotted_regs s i, slotted_onlyCore s i, slotted_onlyGroups s i⟩

/-- The per-thread part of an instruction whose active threads all complete. -/
theorem perThread_moved {s u : State} {i : Ctx} {e : Nat → Eff} (hu : Ready s u i) (f : Group → Ctx → Nat → TRes Eff)
    (hf : ∀ gr, SameRegs (grpOf s i.c i.g) gr → ∀ t ∈ i.active, f gr i t = .ok (e t)) :
    Moved s (perThread f u i) i (effAll i e (grpOf u i.c i.g)) i.members (i.pc + 8) ∧
      OnlyCore s (perThread f u i) i.c ∧ OnlyGroups s (perThread f u i) i.c := by
  have hrun : runThreads i (f (grp (u.core i.c) i.g) i) = (i.active.map (fun t => (t, e t)), []) :=
    runThreads_ok i _ e (hf _ (hu.regs i.g))
  unfold perThread
  dsimp only
  rw [hrun]
  simp only [goOn_nil, faultSet_nil, List.foldl_map]
  have hfold : (fun gr => List.foldl (fun x y => applyEff i x y (e y)) gr i.active) = effAll i e := rfl
  rw [hfold]
  refine ⟨advance_moved _ _ (fun g h => ?_) ?_, ?_, ?_⟩
  · rw [grpOf_addTaskCounter, grpOf_modGrp, if_neg h]; exact hu.regs g
  · rw [grpOf_addTaskCounter, grpOf_modGrp, if_pos rfl]; exact .rfl
  · exact hu.core.trans ((modGrp_onlyCore ..).trans ((addTaskCounter_onlyCore ..).trans (modGrp_onlyCore ..)))
  · exact hu.groups.trans ((modGrp_onlyGroups ..).trans ((addTaskCounter_onlyGroups ..).trans (modGrp_onlyGroups ..)))

/-- Registers and predicates written by every active thread, everything else of the module as before. -/
structure Wrote (s t : State) (i : Ctx) (code n p : Nat) (v : Nat → Nat) (b : Nat → Bool) : Prop where
  regs : RegHolds t i code n v
  preds : p ≠ 7 → ∀ u ∈ i.active, predOf t i.c i.g u p = b u
  frame : RegFrame s t i code n p
  pcs : AllAt t i (i.pc + 8)
  core : OnlyCore s t i.c
  groups : OnlyGroups s t i.c

theorem Wrote.regEffect {s t : State} {i : Ctx} {code n : Nat} {v : Nat → Nat} {b : Nat → Bool} (h : Wrote s t i code n 7 v b) :
    RegEffect s t i code n v := ⟨h.regs, h.frame, h.pcs, h.core, h.groups⟩

theorem Wrote.predEffect {s t : State} {i : Ctx} {n p : Nat} {v : Nat → Nat} {b : Nat → Bool} (h : Wrote s t i 0xC0 n p v b) :
    PredEffect s t i p b := by
  obtain ⟨hgpr, hurf, hpred⟩ := h.frame
  exact ⟨h.preds, ⟨fun g th r _ hr => hgpr g th r (fun hh => absurd hh.2.2.1 (by omega)) hr,
    fun g u _ hu => hurf g u (fun hh => absurd hh.2.1 (by omega)) hu, hpred⟩, h.pcs, h.core, h.groups⟩

section
variable {s u : State} {x : Site} {w : Word64} {regs preds : List Nat} {i : Ctx} {e : Nat → Eff} {code n p : Nat}
  {v : Nat → Nat} {b : Nat → Bool} {f : Group → Ctx → Nat → TRes Eff}

/-- What an instruction does whose every active thread writes so (R142 to R145). -/
theorem perThread_wrote (nd : i.active.Nodup) (hu : Ready s u i)
    (hf : ∀ gr, SameRegs (grpOf s i.c i.g) gr → ∀ t ∈ i.active, f gr i t = .ok (e t))
    (he : ∀ u ∈ i.active, (e u).Writes code n (v u) p (b u)) (hp : p < 8) :
    Wrote s (perThread f u i) i code n p v b ∧
      ∀ th ∈ i.active, (thrOf (perThread f u i) i.c i.g th).srCtr = (thrOf s i.c i.g th).srCtr + BitVec.ofNat 32 (e th).sr := by
  obtain ⟨hm, hcore, hgroups⟩ := perThread_moved hu f hf
  obtain ⟨hregs, hpreds, hframe⟩ := hm.writes_eff nd (hu.regs i.g) he hp
  refine ⟨⟨hregs, hpreds, hframe, hm.allAt rfl, hcore, hgroups⟩, fun th hth => ?_⟩
  rw [hm.srCtr, thr_effAll i e _ nd, if_pos hth, (he th hth).thread]
  show (predThread _ _ _).srCtr + _ = _
  rw [predThread_srCtr, regThread_srCtr]
  have := congrArg Thread.srCtr ((hu.regs i.g).thrs th)
  exact congrArg (· + _) this

/-- A row of this kind that issues with its own, legal word. -/
theorem coreRow_wrote {own legal : Bool} (hi : Issues s x w regs preds i) (hown : own = true) (hlegal : legal = true)
    (hf : ∀ gr, SameRegs (grpOf s i.c i.g) gr → ∀ t ∈ i.active, f gr i t = .ok (e t))
    (he : ∀ u ∈ i.active, (e u).Writes code n (v u) p (b u)) (hp : p < 8) :
    ∃ t, coreRow own w (issue s x w regs preds legal (perThread f)) = .next t ∧ Wrote s t i code n p v b ∧
      ∀ th ∈ i.active, (thrOf t i.c i.g th).srCtr = (thrOf s i.c i.g th).srCtr + BitVec.ofNat 32 (e th).sr := by
  subst hown hlegal
  obtain ⟨_, _, _, _, nd, _⟩ := issueCtx_members hi.1
  refine ⟨perThread f (slotted s i) i, by rw [issue_legal hi]; rfl, perThread_wrote nd (slotted_ready s i) hf he hp⟩

/-- A row whose active threads write registers alone. -/
theorem coreRow_regEffect {own legal : Bool} (hi : Issues s x w regs preds i) (hown : own = true) (hlegal : legal = true)
    (hf : ∀ gr, SameRegs (grpOf s i.c i.g) gr → ∀ t ∈ i.active, f gr i t = .ok (regEff code n (v t))) :
    ∃ t, coreRow own w (issue s x w regs preds legal (perThread f)) = .next t ∧ RegEffect s t i code n v := by
  obtain ⟨t, ht, hw, _⟩ := coreRow_wrote hi hown hlegal hf (fun u _ => regEff_writes code n (v u) true) (by decide)
  exact ⟨t, ht, hw.regEffect⟩

/-- A row whose active threads write one predicate alone. -/
theorem coreRow_predEffect {own legal : Bool} (hi : Issues s x w regs preds i) (hown : own = true) (hlegal : legal = true)
    (hf : ∀ gr, SameRegs (grpOf s i.c i.g) gr → ∀ t ∈ i.active, f gr i t = .ok (predEff p (b t))) (hp : p < 8) :
    ∃ t, coreRow own w (issue s x w regs preds legal (perThread f)) = .next t ∧ PredEffect s t i p b := by
  obtain ⟨t, ht, hw, _⟩ := coreRow_wrote hi hown hlegal hf (fun u _ => predEff_writes p (b u) 0) hp
  exact ⟨t, ht, hw.predEffect⟩

end

theorem bits_lt {n : Nat} (w : BitVec n) (hi lo : Nat) : bits w hi lo < 2 ^ (hi + 1 - lo) := Nat.mod_lt _ (by positivity)

theorem aPdst_lt (w : Word64) : aPdst w < 8 := bits_lt w 5 3

end Sys2Proof.Machine
end

section
/-! SUPPORT. The arithmetic rows write their result (R98, R99, R142 to R144, R156). -/
namespace Sys2Proof.Machine

section
variable {s : State} {x : Site} {w : Word64} {i : Ctx}

theorem readReg_of_sameRegs {gr : Group} (h : SameRegs (grpOf s i.c i.g) gr) (t code : Nat) : readReg gr i.mask t code = srcOf s i t code :=
  h.readReg i.mask t code

theorem readWide_of_sameRegs {gr : Group} (h : SameRegs (grpOf s i.c i.g) gr) (t code n : Nat) : readWide gr i.mask t code n = wideOf s i t code n :=
  h.readWide i.mask t code n

theorem cvtRounding_of_sameRegs {a b : Group} (h : SameRegs a b) (t : Nat) (sr : Bool) : cvtRounding b t sr = cvtRounding a t sr := by
  have hsr : (thr b t).srCtr = (thr a t).srCtr := show (unblocked (thr b t)).srCtr = (unblocked (thr a t)).srCtr by rw [h.thrs]
  unfold cvtRounding; rw [h.srKey, h.launch, hsr]

theorem ialu_regEffect (op : IaluOp) (hi : Issues s x w (ialuSrcs op w) [] i) (hl : legalA 0x00 [3, 4] w = true)
    (hs : (ialuSrcs op w).all (srcOk · 1) = true) (hd : dstOk (aDst w) 1 = true) :
    ∃ t, exec (.ialu x (some op) w) s = .next t ∧ RegEffect s t i (aDst w) 1 (fun th =>
      (ialuOp op (aType w == 3) (srcOf s i th (aSrcA w)) (srcOf s i th (aSrcB w)) (srcOf s i th (aSrcC w))).toNat) := by
  refine coreRow_regEffect hi (isClass_of_legalA hl) hl fun gr h t _ => ?_
  dsimp only
  rw [withRegs_ok (by simpa using hs) (by simp [hd])]
  simp only [readReg_of_sameRegs h]

theorem ialui_regEffect (op : IaluOp) (sg : Bool) (hmad : op ≠ .mad) (hbswz : op ≠ .bswz) (hi : Issues s x w [bSrcA w] [] i)
    (hc : isClass 0x0A w = true) (hs : srcOk (bSrcA w) 1 = true) (hd : dstOk (bDst w) 1 = true) :
    ∃ t, exec (.ialui x (some op) sg w) s = .next t ∧
      RegEffect s t i (bDst w) 1 (fun th => (ialuOp op sg (srcOf s i th (bSrcA w)) (bImm w) 0).toNat) := by
  refine coreRow_regEffect hi hc ?_ fun gr h t _ => ?_
  · cases op with
    | mad => exact absurd rfl hmad
    | bswz => exact absurd rfl hbswz
    | _ => exact hc
  · dsimp only
    rw [withRegs_ok (by simp [hs]) (by simp [hd]), readReg_of_sameRegs h]

theorem idiv_regEffect (op : IdivOp) (hi : Issues s x w [aSrcA w, aSrcB w] [] i) (hl : legalA 0x01 [3, 4] w = true)
    (ha : srcOk (aSrcA w) 1 = true) (hb : srcOk (aSrcB w) 1 = true) (hd : dstOk (aDst w) 1 = true)
    (hne : ∀ th ∈ i.active, srcOf s i th (aSrcB w) ≠ 0) :
    ∃ t, exec (.idiv x (some op) w) s = .next t ∧ RegEffect s t i (aDst w) 1 (fun th =>
      (idivOp op (aType w == 3) (srcOf s i th (aSrcA w)) (srcOf s i th (aSrcB w))).toNat) := by
  refine coreRow_regEffect hi (isClass_of_legalA hl) hl fun gr h t ht => ?_
  dsimp only
  rw [withRegs_ok (by simp [ha, hb]) (by simp [hd]), readReg_of_sameRegs h, readReg_of_sameRegs h, if_neg (hne t ht)]

theorem falu_regEffect (op : FaluOp) (hi : Issues s x w (faluSrcs op w) [] i) (hl : legalA 0x02 [0, 1, 2] w = true)
    (hs : (faluSrcs op w).all (srcOk · 1) = true) (hd : dstOk (aDst w) 1 = true) :
    ∃ t, exec (.falu x (some op) w) s = .next t ∧ RegEffect s t i (aDst w) 1 (fun th =>
      faluOp op (aType w) (srcOf s i th (aSrcA w)) (srcOf s i th (aSrcB w)) (srcOf s i th (aSrcC w))) := by
  refine coreRow_regEffect hi (isClass_of_legalA hl) hl fun gr h t _ => ?_
  dsimp only
  rw [withRegs_ok (by simpa using hs) (by simp [hd])]
  simp only [readReg_of_sameRegs h]

theorem falui_regEffect (op : FaluOp) (hop : op ≠ .fma) (hi : Issues s x w [bSrcA w] [] i) (hc : isClass 0x0B w = true)
    (hs : srcOk (bSrcA w) 1 = true) (hd : dstOk (bDst w) 1 = true) :
    ∃ t, exec (.falui x (some op) w) s = .next t ∧
      RegEffect s t i (bDst w) 1 (fun th => faluOp op 0 (srcOf s i th (bSrcA w)) (bImm w) 0) := by
  have hne : some op ≠ some FaluOp.fma := fun h => hop (Option.some.inj h)
  show ∃ t, execFalui x (some op) w s = .next t ∧ _
  unfold execFalui
  simp only [if_neg hne]
  refine coreRow_regEffect hi hc hc fun gr h t _ => ?_
  rw [withRegs_ok (by simp [hs]) (by simp [hd]), readReg_of_sameRegs h]

@[simp] theorem slotted_fresh (s : State) (i : Ctx) : (slotted s i).fresh = s.fresh := by rw [(slotted_onlyCore s i).1]

/-- A slot is counted alike when some free values have been drawn. -/
theorem slotted_ready_fresh (s : State) (i : Ctx) (n : Nat) :
    Ready { s with fresh := s.fresh + n } { slotted s i with fresh := (slotted s i).fresh + n } i := by
  obtain ⟨hregs, ⟨heq, hother⟩, hgroups⟩ := slotted_ready s i
  refine ⟨hregs, ⟨?_, hother⟩, hgroups⟩
  rw [slotted_fresh]
  exact congrArg (fun u : State => { u with fresh := s.fresh + n }) heq

theorem falui_fma_regEffect (hi : Issues s x w [bSrcA w] [] i) (hc : isClass 0x0B w = true) (hs : srcOk (bSrcA w) 1 = true)
    (hd : dstOk (bDst w) 1 = true) :
    ∃ t, exec (.falui x (some .fma) w) s = .next t ∧ RegEffect { s with fresh := s.fresh + 32 } t i (bDst w) 1 (fun th =>
      faluOp .fma 0 (srcOf s i th (bSrcA w)) (bImm w) (Config.fmaAddend (s.fresh + th))) := by
  obtain ⟨_, _, _, _, nd, _⟩ := issueCtx_members hi.1
  show ∃ t, execFalui x (some .fma) w s = .next t ∧ _
  unfold execFalui coreRow wordOk
  simp only [Option.isSome_some, hc, Bool.and_self, issue_legal hi, Bool.true_or, if_true, slotted_fresh]
  refine ⟨_, rfl, (perThread_wrote (b := fun _ => true) nd ?_ (fun gr h t _ => ?_)
    (fun u _ => regEff_writes (bDst w) 1 _ true) (by decide)).1.regEffect⟩
  · exact slotted_fresh s i ▸ slotted_ready_fresh s i 32
  · rw [withRegs_ok (by simp [hs]) (by simp [hd]), readReg_of_sameRegs h]; rfl

theorem fspec_regEffect (op : FspecOp) (hi : Issues s x w [aSrcA w] [] i) (hl : legalA 0x03 [0] w = true)
    (hs : srcOk (aSrcA w) 1 = true) (hd : dstOk (aDst w) 1 = true) :
    ∃ t, exec (.fspec x (some op) w) s = .next t ∧
      RegEffect s t i (aDst w) 1 (fun th => (fspec (fspecCode op) (srcOf s i th (aSrcA w))).toNat) := by
  refine coreRow_regEffect hi (isClass_of_legalA hl) hl fun gr h t _ => ?_
  dsimp only
  rw [withRegs_ok (by simp [hs]) (by simp [hd]), readReg_of_sameRegs h]

/-- The element that CVT gives a thread. -/
def cvtBits (s : State) (i : Ctx) (w : Word64) (th : Nat) : Nat :=
  let a := srcOf s i th (aSrcA w)
  encodeT (aType w) (cvtRounding (grpOf s i.c i.g) th (aSr w)) (aSat w) a (decodeT (bits w 11 8) a.toNat)

/-- What CVT does in one thread: the element, the random draw it takes, and a NaN that the destination cannot hold (R99, R100, R103). -/
def cvtEff (s : State) (i : Ctx) (w : Word64) (th : Nat) : Eff :=
  { dst := some (aDst w, 1, cvtBits s i w th), pred := none, sr := if aSr w then 1 else 0,
    nan := if isNaNV (decodeT (bits w 11 8) (srcOf s i th (aSrcA w)).toNat) && hasNoNaN (aType w) then 1 else 0 }

theorem cvt_regEffect (hi : Issues s x w [aSrcA w] [] i) (hc : isClass 0x05 w = true) (h0 : bits w 2 0 = 0) (h1 : bits w 15 12 = 0)
    (hsrc : bits w 11 8 ≤ 0xC) (hty : aType w ≤ 0xC) (hs : srcOk (aSrcA w) 1 = true) (hd : dstOk (aDst w) 1 = true) :
    ∃ t, exec (.cvt x true w) s = .next t ∧
      RegEffect s t i (aDst w) 1 (fun th => encodeT (aType w) (cvtRounding (grpOf s i.c i.g) th (aSr w)) (aSat w)
        (srcOf s i th (aSrcA w)) (decodeT (bits w 11 8) (srcOf s i th (aSrcA w)).toNat)) ∧
      ∀ th ∈ i.active, (thrOf t i.c i.g th).srCtr = (thrOf s i.c i.g th).srCtr + if aSr w then 1 else 0 := by
  have hrow : ∃ t, exec (.cvt x true w) s = .next t ∧ Wrote s t i (aDst w) 1 7 (cvtBits s i w) (fun _ => true) ∧
      ∀ th ∈ i.active, (thrOf t i.c i.g th).srCtr = (thrOf s i.c i.g th).srCtr + BitVec.ofNat 32 (cvtEff s i w th).sr := by
    refine coreRow_wrote hi hc (by simp [hc, h0, h1, hsrc, hty]) (fun gr h t _ => ?_) (fun _ _ => ⟨.inl rfl, .inr ⟨rfl, rfl⟩⟩) (by decide)
    rw [withRegs_ok (by simp [hs]) (by simp [hd]), readReg_of_sameRegs h, cvtRounding_of_sameRegs h]
    rfl
  obtain ⟨t, ht, hw, hsr⟩ := hrow
  refine ⟨t, ht, hw.regEffect, fun th hth => (hsr th hth).trans ?_⟩
  show _ + BitVec.ofNat 32 (if aSr w then 1 else 0) = _
  split <;> rfl

theorem move_regEffect (op : MoveOp) {n : Nat} (hn : n = if op = .mov64 then 2 else 1) (hi : Issues s x w (codeRange (aSrcA w) n) [] i)
    (hl : legalA 0x09 [0, 1, 2, 3, 4] w = true) (hs : srcOk (aSrcA w) n = true) (hd : dstOk (aDst w) n = true) :
    ∃ t, exec (.move x (some op) w) s = .next t ∧ RegEffect s t i (aDst w) n (fun th => wideOf s i th (aSrcA w) n) := by
  have hsome : (if some op = some MoveOp.mov64 then 2 else 1) = n := by rw [hn]; simp only [Option.some.injEq]
  show ∃ t, execMove x (some op) w s = .next t ∧ _
  unfold execMove
  simp only [hsome]
  refine coreRow_regEffect hi (isClass_of_legalA hl) hl fun gr h t _ => ?_
  rw [withRegs_ok (by simp [hs]) (by simp [hd]), readWide_of_sameRegs h]

theorem moviMov_regEffect (hi : Issues s x w [] [] i) (hr : isRow 0x0D 0 w = true) (hd : dstOk (bDst w) 1 = true) :
    ∃ t, exec (.moviMov x w) s = .next t ∧ RegEffect s t i (bDst w) 1 (fun _ => (bImm w).toNat) :=
  coreRow_regEffect hi hr hr fun _ _ _ _ => withRegs_ok (by simp) (by simp [hd]) _

theorem moviMovh_regEffect (hi : Issues s x w [bDst w] [] i) (hr : isRow 0x0D 1 w = true) (h0 : bits w 31 16 = 0)
    (hd : dstOk (bDst w) 1 = true) :
    ∃ t, exec (.moviMovh x w) s = .next t ∧
      RegEffect s t i (bDst w) 1 (fun th => bits w 15 0 * 2 ^ 16 + (srcOf s i th (bDst w)).toNat % 2 ^ 16) :=
  coreRow_regEffect hi hr (by simp [hr, h0]) fun _ h _ _ => by rw [withRegs_ok (by simp) (by simp [hd]), readReg_of_sameRegs h]

end

/-- Settles O4: each row's threads all complete, and each writes its own value. -/
theorem arithmeticWritesItsResult : Obligations.ArithmeticWritesItsResult := by
  unfold Obligations.ArithmeticWritesItsResult
  intro s x w i
  exact ⟨fun op => ialu_regEffect op, fun op sg => ialui_regEffect op sg, fun op => idiv_regEffect op, fun op => falu_regEffect op,
    fun op => falui_regEffect op, falui_fma_regEffect, fun op => fspec_regEffect op, cvt_regEffect, fun op => move_regEffect op rfl,
    moviMov_regEffect, moviMovh_regEffect⟩

end Sys2Proof.Machine
end

section
/-! SUPPORT. Compares, predicate logic and votes (R145, R152, R156). -/
namespace Sys2Proof.Machine

/-! ## Masks of thread lists -/

theorem getLsbD_bitMask (a k : Nat) (hk : k < 32) : (bitMask a).getLsbD k = decide (a = k) := by
  unfold bitMask
  rw [BitVec.getLsbD_ofNat, Nat.testBit_two_pow]
  simp [hk]

/-- The mask of a list has the bits of its threads. -/
theorem getLsbD_listMask (l : List Nat) {k : Nat} (hk : k < 32) : (listMask l).getLsbD k = l.contains k := by
  have key : ∀ m : Word, (l.foldl (fun m i => m ||| bitMask i) m).getLsbD k = (m.getLsbD k || l.contains k) := by
    induction l with
    | nil => simp
    | cons a l ih =>
      intro m
      rw [List.foldl_cons, ih, BitVec.getLsbD_or, getLsbD_bitMask a k hk, List.contains_cons, Bool.or_assoc]
      by_cases h : a = k
      · simp [h]
      · simp [h, beq_eq_false_iff_ne.2 (Ne.symm h)]
  unfold listMask
  rw [key]; simp

theorem listMask_eq_iff {l m : List Nat} (hl : ∀ t ∈ l, t < 32) (hm : ∀ t ∈ m, t < 32) : listMask l = listMask m ↔ ∀ t, t ∈ l ↔ t ∈ m := by
  constructor
  · intro h t
    have hbit : t < 32 → (t ∈ l ↔ t ∈ m) := fun ht => by
      rw [← List.contains_iff_mem, ← List.contains_iff_mem, ← getLsbD_listMask l ht, ← getLsbD_listMask m ht, h]
    exact ⟨fun ht => (hbit (hl t ht)).1 ht, fun ht => (hbit (hm t ht)).2 ht⟩
  · intro h
    refine BitVec.eq_of_getLsbD_eq fun k hk => ?_
    rw [getLsbD_listMask l hk, getLsbD_listMask m hk, Bool.eq_iff_iff, List.contains_iff_mem, List.contains_iff_mem]
    exact h k

theorem maskList_lt {w : Word} {t : Nat} (h : t ∈ maskList w) : t < 32 := List.mem_range.1 (List.mem_filter.1 h).1

section
variable {s : State} {x : Site} {w : Word64} {i : Ctx}

theorem active_lt {regs preds : List Nat} (hi : issueCtx s x w regs preds = some i) {t : Nat} (ht : t ∈ i.active) : t < 32 := by
  obtain ⟨_, _, _, hm, _, hsub⟩ := issueCtx_members hi
  exact maskList_lt (hm ▸ hsub t ht)

theorem predVal_of_sameRegs {a b : Group} (h : SameRegs a b) (t p : Nat) : predVal (thr b t) p = predVal (thr a t) p := by
  unfold predVal; rw [h.preds]

theorem vote_of_sameRegs {gr : Group} (h : SameRegs (grpOf s i.c i.g) gr) (p : Nat) :
    vote gr i p = listMask (i.active.filter (fun t => predOf s i.c i.g t p)) := by
  unfold vote predOf thrOf
  simp only [predVal_of_sameRegs h]

/-- ANY: the vote is not empty. -/
theorem vote_any (hlt : ∀ t ∈ i.active, t < 32) (a : Nat → Bool) : (listMask (i.active.filter a) != 0) = i.active.any a := by
  have hz : (0 : Word) = listMask [] := rfl
  rw [Bool.eq_iff_iff, bne_iff_ne, List.any_eq_true, ne_eq, hz, listMask_eq_iff (fun t ht => hlt t (List.mem_filter.1 ht).1) (by simp)]
  constructor
  · intro h
    by_contra hno
    refine h fun t => ⟨fun ht => absurd ?_ hno, fun ht => absurd ht (by simp)⟩
    obtain ⟨hmem, hat⟩ := List.mem_filter.1 ht
    exact ⟨t, hmem, hat⟩
  · rintro ⟨t, ht, hat⟩ h
    exact absurd ((h t).1 (List.mem_filter.2 ⟨ht, hat⟩)) (by simp)

/-- ALL: the vote holds every active thread. -/
theorem vote_all (hlt : ∀ t ∈ i.active, t < 32) (a : Nat → Bool) : (listMask (i.active.filter a) == listMask i.active) = i.active.all a := by
  rw [Bool.eq_iff_iff, beq_iff_eq, List.all_eq_true, listMask_eq_iff (fun t ht => hlt t (List.mem_filter.1 ht).1) hlt]
  exact ⟨fun h t ht => (List.mem_filter.1 ((h t).2 ht)).2, fun h t => ⟨fun ht => (List.mem_filter.1 ht).1, fun ht => List.mem_filter.2 ⟨ht, h t ht⟩⟩⟩

/-! ## The rows -/

theorem cmp_predEffect (op : CmpOp) (hi : Issues s x w [aSrcA w, aSrcB w] [] i) (hl : legalA 0x04 [0, 1, 2, 3, 4] w = true)
    (ha : srcOk (aSrcA w) 1 = true) (hb : srcOk (aSrcB w) 1 = true) :
    ∃ t, exec (.cmp x (some op) w) s = .next t ∧
      PredEffect s t i (aPdst w) (fun th => cmpType (aType w) op (srcOf s i th (aSrcA w)) (srcOf s i th (aSrcB w))) := by
  refine coreRow_predEffect hi (isClass_of_legalA hl) hl (fun gr h t _ => ?_) (aPdst_lt w)
  dsimp only
  rw [withRegs_ok (by simp [ha, hb]) (by simp), readReg_of_sameRegs h, readReg_of_sameRegs h]

theorem cmpi_predEffect (op : CmpOp) (sg : Bool) (hi : Issues s x w [bSrcA w] [] i) (hc : isClass 0x0C w = true) (h0 : bits w 47 43 = 0)
    (ha : srcOk (bSrcA w) 1 = true) :
    ∃ t, exec (.cmpi x (some op) sg w) s = .next t ∧
      PredEffect s t i (bits w 42 40) (fun th => cmpType (if sg then 3 else 4) op (srcOf s i th (bSrcA w)) (bImm w)) := by
  refine coreRow_predEffect hi hc (by simp [hc, h0]) (fun gr h t _ => ?_) (bits_lt w 42 40)
  dsimp only
  rw [withRegs_ok (by simp [ha]) (by simp), readReg_of_sameRegs h]

/-- What PRED puts in PDST of a thread, from the predicates of all. -/
def predPut (op : PredOp) (i : Ctx) (a b : Nat → Bool) (t : Nat) : Bool :=
  match op with
  | .any => i.active.any a
  | .all => i.active.all a
  | op => predLogic op (a t) (b t)

theorem pred_predEffect (op : PredOp) (hop : op ≠ .ballot) (hi : Issues s x w [] (predSrcs op w) i)
    (hl : legalA 0x07 [0, 1, 2, 3, 4] w = true) :
    ∃ t, exec (.pred x (some op) w) s = .next t ∧ PredEffect s t i (aPdst w)
      (predPut op i (fun th => predOf s i.c i.g th (aSrcA w % 8)) (fun th => predOf s i.c i.g th (aSrcB w % 8))) := by
  have hlt : ∀ t ∈ i.active, t < 32 := fun _ => active_lt hi.1
  refine coreRow_predEffect hi (isClass_of_legalA hl) hl (fun gr h t _ => ?_) (aPdst_lt w)
  cases op with
  | ballot => exact absurd rfl hop
  | any => dsimp only; rw [vote_of_sameRegs h, vote_any hlt]; rfl
  | all => dsimp only; rw [vote_of_sameRegs h, vote_all hlt]; rfl
  | and | or | xor | not => dsimp only; rw [predVal_of_sameRegs h, predVal_of_sameRegs h]; rfl

theorem ballot_regEffect (hi : Issues s x w [] (predSrcs .ballot w) i) (hl : legalA 0x07 [0, 1, 2, 3, 4] w = true)
    (hd : dstOk (aDst w) 1 = true) :
    ∃ t, exec (.pred x (some .ballot) w) s = .next t ∧
      RegEffect s t i (aDst w) 1 (fun _ => (listMask (i.active.filter (fun th => predOf s i.c i.g th (aSrcA w % 8)))).toNat) := by
  refine coreRow_regEffect hi (isClass_of_legalA hl) hl fun gr h t _ => ?_
  dsimp only
  rw [withRegs_ok (by simp) (by simp [hd]), vote_of_sameRegs h]

end

/-- Settles O5: each active thread completes with its compare, its logic or the vote. -/
theorem comparesWriteTheirPredicate : Obligations.ComparesWriteTheirPredicate := by
  unfold Obligations.ComparesWriteTheirPredicate
  intro s x w i
  refine ⟨fun op => cmp_predEffect op, fun op sg => cmpi_predEffect op sg, fun op hi hl => ?_⟩
  have put := fun hop => pred_predEffect op hop hi hl
  refine ⟨?_, ?_, ?_, ?_, ?_, ?_, ?_⟩ <;> rintro rfl
  · exact put (by decide)
  · exact put (by decide)
  · exact put (by decide)
  · exact put (by decide)
  · exact put (by decide)
  · exact put (by decide)
  · exact ballot_regEffect hi hl

end Sys2Proof.Machine
end

section
/-! SUPPORT. Lane moves, microscaled blocks and the random key (R101, R103, R143, R156). -/
namespace Sys2Proof.Machine

section
variable {s : State} {x : Site} {w : Word64} {i : Ctx}

theorem srCtr_of_sameRegs {a b : Group} (h : SameRegs a b) (t : Nat) : (thr b t).srCtr = (thr a t).srCtr :=
  show (unblocked (thr b t)).srCtr = (unblocked (thr a t)).srCtr by rw [h.thrs]

/-! ## XLANE -/

/-- Whether the lane that a thread names is an active member (R156). -/
def laneHit (s : State) (i : Ctx) (op : XlaneOp) (w : Word64) (th : Nat) : Bool :=
  let l := laneOf op th (srcOf s i th (aSrcB w))
  decide (0 ≤ l ∧ l < 32) && i.active.contains l.toNat

/-- The value that XLANE gives a thread. -/
def laneVal (s : State) (i : Ctx) (op : XlaneOp) (w : Word64) (th : Nat) : Nat :=
  (srcOf s i (if laneHit s i op w th then (laneOf op th (srcOf s i th (aSrcB w))).toNat else th) (aSrcA w)).toNat

theorem xlane_wrote (op : XlaneOp) (hi : Issues s x w [aSrcA w, aSrcB w] [] i) (hl : legalA 0x08 [0, 1, 2, 3, 4] w = true)
    (ha : srcOk (aSrcA w) 1 = true) (hb : srcOk (aSrcB w) 1 = true) (hd : dstOk (aDst w) 1 = true) :
    ∃ t, exec (.xlane x (some op) w) s = .next t ∧ Wrote s t i (aDst w) 1 (aPdst w) (laneVal s i op w) (laneHit s i op w) := by
  have hrow : ∃ t, exec (.xlane x (some op) w) s = .next t ∧ Wrote s t i (aDst w) 1 (aPdst w) (laneVal s i op w) (laneHit s i op w) ∧
      ∀ th ∈ i.active, (thrOf t i.c i.g th).srCtr = (thrOf s i.c i.g th).srCtr + BitVec.ofNat 32
        (Eff.mk (some (aDst w, 1, laneVal s i op w th)) (some (aPdst w, laneHit s i op w th)) 0 0).sr := by
    refine coreRow_wrote hi (isClass_of_legalA hl) hl (fun gr h t _ => ?_) (fun _ _ => ⟨.inl rfl, .inl rfl⟩) (aPdst_lt w)
    dsimp only
    rw [withRegs_ok (by simp [ha, hb]) (by simp [hd]), readReg_of_sameRegs h, readReg_of_sameRegs h]
    rfl
  obtain ⟨t, ht, hw, _⟩ := hrow
  exact ⟨t, ht, hw⟩

/-! ## SRKEY -/

theorem setKeyHalf_low (v : Word) (k : Word64) : (setKeyHalf false v k).toNat % 2 ^ 32 = v.toNat ∧
    (setKeyHalf false v k).toNat / 2 ^ 32 = k.toNat / 2 ^ 32 := by
  have hv := v.isLt
  have hk := k.isLt
  unfold setKeyHalf
  simp only [Bool.false_eq_true, if_false, BitVec.toNat_ofNat]
  omega

theorem setKeyHalf_high (v : Word) (k : Word64) : (setKeyHalf true v k).toNat / 2 ^ 32 = v.toNat ∧
    (setKeyHalf true v k).toNat % 2 ^ 32 = k.toNat % 2 ^ 32 := by
  have hv := v.isLt
  have hk := k.isLt
  unfold setKeyHalf
  simp only [if_true, BitVec.toNat_ofNat]
  omega

/-- The random key of the issue's group. -/
def keyOf (s : State) (i : Ctx) : Word64 := (grpOf s i.c i.g).srKey

/-- Nothing but the group's random key differs, and that only when a thread is active. -/
def KeyAlone (s t : State) (i : Ctx) : Prop :=
  NoRegs s t i ∧ OnlyCore s t i.c ∧ OnlyGroups s t i.c ∧ (i.active = [] → (keyOf t i).toNat = (keyOf s i).toNat)

/-- And one half of it is what the lowest active thread gives. -/
def KeyPut (s t : State) (i : Ctx) (hi fromReg : Bool) (w : Word64) : Prop :=
  KeyAlone s t i ∧ ∀ th, i.active.head? = some th →
    keyOf t i = setKeyHalf hi (if fromReg then srcOf s i th (bSrcA w) else bImm w) (keyOf s i)

/-- SRKEY of a source that may be read: the lowest active thread's word goes to one half of the key. -/
theorem srkeyBody_key (hi fromReg : Bool) (hsrc : fromReg = true → srcOk (bSrcA w) 1 = true) :
    KeyPut s (srkeyBody hi fromReg w (slotted s i) i) i hi fromReg w := by
  have hu := slotted_ready s i
  have hsrKey : (grpOf (slotted s i) i.c i.g).srKey = keyOf s i := (hu.regs i.g).srKey
  have hbad : (fromReg && !srcOk (bSrcA w) 1) = false := by cases fromReg <;> simp_all
  unfold srkeyBody
  simp only [hbad, Bool.false_eq_true, if_false, goOn_nil, faultSet_nil]
  cases hact : i.active with
  | nil =>
    dsimp only
    have hm : Moved s (advance (slotted s i) i i.members (i.pc + 8)) i _ _ _ := advance_moved _ _ (fun g _ => hu.regs g) (hu.regs i.g)
    refine ⟨⟨hm.noRegs .rfl, hu.core.trans (modGrp_onlyCore ..), hu.groups.trans (modGrp_onlyGroups ..), fun _ => ?_⟩, fun th hth => by rw [hact] at hth; cases hth⟩
    unfold keyOf; rw [hm.srKey]
  | cons a ts =>
    dsimp only
    generalize hv : (if fromReg = true then readReg (grp ((slotted s i).core i.c) i.g) i.mask a (bSrcA w) else bImm w) = v
    have hm := advance_moved (s := s) (u := (slotted s i).modGrp i.c i.g fun g => { g with srKey := setKeyHalf hi v g.srKey })
      i.members (i.pc + 8) (fun g h => by rw [grpOf_modGrp, if_neg h]; exact hu.regs g)
      (gr := { grpOf (slotted s i) i.c i.g with srKey := setKeyHalf hi v (grpOf (slotted s i) i.c i.g).srKey })
      (by rw [grpOf_modGrp, if_pos rfl]; exact .rfl)
    have hreg := hu.regs i.g
    refine ⟨⟨⟨hm.regFrame (fun u r _ _ => ?_) (fun r _ _ => ?_) (fun u q _ _ => ?_), hm.allAt rfl⟩, ?_, ?_, fun h => by rw [hact] at h; cases h⟩, fun th hth => ?_⟩
    · exact congrArg (fun g => tget 0 g r) (hreg.gpr u)
    · exact congrArg (fun g => tget 0 g r) hreg.urf
    · exact predVal_of_sameRegs hreg u q
    · exact hu.core.trans ((modGrp_onlyCore ..).trans (modGrp_onlyCore ..))
    · exact hu.groups.trans ((modGrp_onlyGroups ..).trans (modGrp_onlyGroups ..))
    · obtain rfl : a = th := by rw [hact] at hth; exact Option.some.inj hth
      have hval : v = if fromReg then srcOf s i a (bSrcA w) else bImm w := by rw [← hv]; congr 1; exact readReg_of_sameRegs hreg a _
      unfold keyOf at hsrKey ⊢
      rw [hm.srKey, ← hval, ← hsrKey]

/-- A row of SRKEY that issues with its own, legal word. -/
theorem coreRow_srkey {regs : List Nat} {own legal hi fromReg : Bool} (h : Issues s x w regs [] i) (hown : own = true) (hlegal : legal = true)
    (hsrc : fromReg = true → srcOk (bSrcA w) 1 = true) :
    ∃ t, coreRow own w (issue s x w regs [] legal (srkeyBody hi fromReg w)) = .next t ∧ KeyPut s t i hi fromReg w := by
  subst hown hlegal
  exact ⟨_, by rw [issue_legal h]; rfl, srkeyBody_key hi fromReg hsrc⟩

theorem head_of_ne_nil {l : List Nat} (h : l ≠ []) : ∃ t, l.head? = some t := by
  cases l with
  | nil => exact absurd rfl h
  | cons a l => exact ⟨a, rfl⟩

/-! ## MXQ -/

/-- The scale of the block, and the element of a thread. -/
def mxSc (s : State) (i : Ctx) (w : Word64) : Nat :=
  mxScale (aType w) (allThreads.map (fun th => if i.active.contains th then f32V (srcOf s i th (aSrcA w)) else .fin false 0 0))
def mxEl (s : State) (i : Ctx) (w : Word64) (th : Nat) : Nat :=
  mxElem (aType w) (mxSc s i w) (cvtRounding (grpOf s i.c i.g) th (aSr w)) (f32V (srcOf s i th (aSrcA w)))

/-- One thread's writes of MXQ: its element, the scale, and the draw it took. -/
def mxStep (i : Ctx) (w : Word64) (sc : Nat) (g : Group) (th el : Nat) : Group :=
  applyEff i (writeDst i g th (aDst w) 1 el) th ⟨some (aSrcC w, 1, sc), none, if aSr w then 1 else 0, 0⟩

/-- What they do to the thread. -/
def mxThread (w : Word64) (sc el : Nat) (th : Thread) : Thread :=
  drawThread (if aSr w then 1 else 0) (regThread (aSrcC w) 1 sc (regThread (aDst w) 1 el th))

theorem thr_mxStep (sc : Nat) (g : Group) (th el u : Nat) :
    thr (mxStep i w sc g th el) u = if u = th then mxThread w sc el (thr g th) else thr g u := by
  unfold mxStep
  rw [thr_applyEff, thr_writeDst_regThread, thr_writeDst_regThread, if_pos rfl]
  split <;> rfl

theorem urf_mxStep (sc : Nat) (g : Group) (th el : Nat) :
    (mxStep i w sc g th el).urf = (writeDst i (writeDst i g th (aDst w) 1 el) th (aSrcC w) 1 sc).urf := urf_applyEff ..

theorem urf_mxStep_of_not_head {th : Nat} (h : i.active.head? ≠ some th) (sc : Nat) (g : Group) (el : Nat) :
    (mxStep i w sc g th el).urf = g.urf := by
  rw [urf_mxStep, urf_writeDst, if_neg (fun hh => h hh.2.2), urf_writeDst, if_neg (fun hh => h hh.2.2)]

/-- The group after MXQ. -/
def mxAll (i : Ctx) (w : Word64) (sc : Nat) (el : Nat → Nat) (g : Group) : Group := i.active.foldl (fun h th => mxStep i w sc h th (el th)) g

theorem thr_mxAll (nd : i.active.Nodup) (sc : Nat) (el : Nat → Nat) (g : Group) (u : Nat) :
    thr (mxAll i w sc el g) u = if u ∈ i.active then mxThread w sc (el u) (thr g u) else thr g u :=
  foldl_thr _ (fun t => mxThread w sc (el t)) (fun g t u => thr_mxStep sc g t (el t) u) _ nd g u

theorem urf_mxAll (nd : i.active.Nodup) (sc : Nat) (el : Nat → Nat) (g : Group) :
    (mxAll i w sc el g).urf = match i.active.head? with
      | none => g.urf
      | some t => (mxStep i w sc g t (el t)).urf := by
  have tail : ∀ (ts : List Nat) (g : Group), (∀ t ∈ ts, i.active.head? ≠ some t) →
      (ts.foldl (fun h th => mxStep i w sc h th (el th)) g).urf = g.urf := by
    intro ts
    induction ts with
    | nil => exact fun _ _ => rfl
    | cons a ts ih =>
      intro g h
      rw [List.foldl_cons, ih _ (fun t ht => h t (List.mem_cons_of_mem _ ht)), urf_mxStep_of_not_head (h a (List.mem_cons_self ..))]
  unfold mxAll
  match ha : i.active with
  | [] => rfl
  | a :: ts =>
    rw [ha, List.nodup_cons] at nd
    refine tail ts _ fun t ht hh => ?_
    rw [ha] at hh
    cases hh
    exact nd.1 ht

theorem mxThread_gpr_other {sc el r : Nat} (th : Thread) (hd : r ≠ aDst w) (hc : r ≠ aSrcC w) :
    tget 0 (mxThread w sc el th).gpr r = tget 0 th.gpr r := by
  unfold mxThread
  rw [drawThread_gpr, regThread_gpr_other _ (by omega), regThread_gpr_other _ (by omega)]

/-- The state of MXQ's group once it has moved on. -/
theorem mxAll_moved {t : State} {gr : Group} {sc : Nat} {el : Nat → Nat} (nd : i.active.Nodup) (hgr : SameRegs (grpOf s i.c i.g) gr)
    (h : Moved s t i (mxAll i w sc el gr) i.members (i.pc + 8)) :
    RegHolds t i (aSrcC w) 1 (fun _ => sc) ∧ (aDst w ≠ aSrcC w → RegHolds t i (aDst w) 1 el) ∧
      (∀ th ∈ i.active, (thrOf t i.c i.g th).srCtr = (thrOf s i.c i.g th).srCtr + if aSr w then 1 else 0) ∧
      (∀ g th q, q < 0x80 → ¬ (g = i.g ∧ th ∈ i.active ∧ (q = aDst w ∨ q = aSrcC w)) → gprOf t i.c g th q = gprOf s i.c g th q) ∧
      (∀ g u, u < 0x40 → ¬ (g = i.g ∧ (0x80 + u = aDst w ∨ 0x80 + u = aSrcC w)) → urfOf t i.c g u = urfOf s i.c g u) ∧
      (∀ g th q, q < 7 → predOf t i.c g th q = predOf s i.c g th q) := by
  have hthr := thr_mxAll (w := w) nd sc el gr
  have hurf := urf_mxAll (w := w) nd sc el gr
  refine ⟨fun u hu => ⟨fun hc j hj => ?_, fun h1 h2 hu0 j hj => ?_⟩, fun hne u hu => ⟨fun hc j hj => ?_, fun h1 h2 hu0 j hj => ?_⟩, fun u hu => ?_,
    fun g u q hq hno => ?_, fun g u hu hno => ?_, fun g u q hq => ?_⟩
  · unfold gprOf
    rw [h.gpr, hthr, if_pos hu]
    exact regThread_gpr_get _ hc hj
  · unfold urfOf
    rw [h.urf, hurf, hu0]
    dsimp only
    rw [urf_mxStep]
    exact urf_writeDst_get h1 h2 hu0 hj
  · obtain rfl : j = 0 := by omega
    unfold gprOf
    rw [h.gpr, hthr, if_pos hu]
    unfold mxThread
    rw [drawThread_gpr, regThread_gpr_other _ (by omega)]
    exact regThread_gpr_get _ hc hj
  · obtain rfl : j = 0 := by omega
    unfold urfOf
    rw [h.urf, hurf, hu0]
    dsimp only
    rw [urf_mxStep, urf_writeDst_other (by omega)]
    exact urf_writeDst_get h1 h2 hu0 hj
  · rw [h.srCtr, hthr, if_pos hu]
    have hsr : (thr gr u).srCtr = (thrOf s i.c i.g u).srCtr := srCtr_of_sameRegs hgr u
    unfold mxThread drawThread
    simp only [regThread_srCtr, hsr]
    split <;> rfl
  · by_cases hgg : g = i.g
    · subst hgg
      unfold gprOf
      rw [h.gpr, hthr]
      split
      next hu =>
        rw [mxThread_gpr_other _ (fun e => hno ⟨rfl, hu, .inl e⟩) (fun e => hno ⟨rfl, hu, .inr e⟩), hgr.gpr]; rfl
      · rw [hgr.gpr]; rfl
    · unfold gprOf thrOf; rw [(h.other g hgg).gpr]
  · by_cases hgg : g = i.g
    · subst hgg
      unfold urfOf
      rw [h.urf, hurf]
      split
      · rw [hgr.urf]
      · rw [urf_mxStep, urf_writeDst_other (fun e => hno ⟨rfl, .inr (by omega)⟩), urf_writeDst_other (fun e => hno ⟨rfl, .inl (by omega)⟩),
          hgr.urf]
    · unfold urfOf; rw [(h.other g hgg).urf]
  · by_cases hgg : g = i.g
    · subst hgg
      have hval : predOf t i.c i.g u q = predVal (thr (mxAll i w sc el gr) u) q := by unfold predOf predVal; rw [h.preds]
      rw [hval, hthr]
      split
      · refine Eq.trans ?_ (predVal_of_sameRegs hgr u q)
        unfold predVal mxThread; simp
      · exact predVal_of_sameRegs hgr u q
    · exact predVal_of_sameRegs (h.other g hgg) u q

theorem mxqBlock_of_sameRegs {gr : Group} (h : SameRegs (grpOf s i.c i.g) gr) (src : Nat) :
    mxqBlock gr i src = allThreads.map (fun th => if i.active.contains th then f32V (srcOf s i th src) else .fin false 0 0) := by
  unfold mxqBlock
  simp only [readReg_of_sameRegs h]

/-- The threads' writes of MXQ, as the row makes them. -/
theorem mxq_fold {gr : Group} (h : SameRegs (grpOf s i.c i.g) gr) (g0 : Group) :
    i.active.foldl (fun g t =>
      let e := mxElem (aType w) (mxScale (aType w) (mxqBlock gr i (aSrcA w))) (cvtRounding gr t (aSr w)) (f32V (readReg gr i.mask t (aSrcA w)))
      let g := writeDst i g t (aDst w) 1 e
      let g := writeDst i g t (aSrcC w) 1 (mxScale (aType w) (mxqBlock gr i (aSrcA w)))
      if aSr w then modThr g t (fun th => { th with srCtr := th.srCtr + 1 }) else g) g0 = mxAll i w (mxSc s i w) (mxEl s i w) g0 := by
  unfold mxAll
  rw [mxqBlock_of_sameRegs h]
  simp only [readReg_of_sameRegs h, cvtRounding_of_sameRegs h]
  congr 1
  funext g t
  unfold mxStep applyEff mxEl mxSc
  dsimp only
  cases aSr w <;> rfl

theorem mxq_moved (hi : Issues s x w [aSrcA w] [] i) (hl : legalA 0x06 [5, 6, 7, 8, 9, 0xC] w = true) (ha : srcOk (aSrcA w) 1 = true)
    (hd : dstOk (aDst w) 1 = true) (hc : dstOk (aSrcC w) 1 = true) :
    ∃ t, exec (.mxq x true w) s = .next t ∧
      Moved s t i (mxAll i w (mxSc s i w) (mxEl s i w) (grpOf (slotted s i) i.c i.g)) i.members (i.pc + 8) ∧
      OnlyCore s t i.c ∧ OnlyGroups s t i.c := by
  have hu := slotted_ready s i
  show ∃ t, execMxq x true w s = .next t ∧ _
  unfold execMxq coreRow wordOk
  simp only [isClass_of_legalA hl, Bool.true_or, if_true, hl, Bool.and_self, issue_legal hi, ha, hd, hc, goOn_nil, faultSet_nil,
    Bool.not_true, Bool.false_eq_true, if_false]
  refine ⟨_, rfl, advance_moved _ _ (fun g h => ?_) ?_, ?_, ?_⟩
  · rw [grpOf_modGrp, if_neg h, grpOf_addTaskCounter]; exact hu.regs g
  · rw [grpOf_modGrp, if_pos rfl, grpOf_addTaskCounter]
    exact mxq_fold (hu.regs i.g) _ ▸ .rfl
  · exact hu.core.trans ((addTaskCounter_onlyCore ..).trans ((modGrp_onlyCore ..).trans (modGrp_onlyCore ..)))
  · exact hu.groups.trans ((addTaskCounter_onlyGroups ..).trans ((modGrp_onlyGroups ..).trans (modGrp_onlyGroups ..)))

end

/-- Settles O6: XLANE and MXQ by what each thread writes, SRKEY by the half of the key that it puts. -/
theorem laneMovesBlockScaleAndKeys : Obligations.LaneMovesBlockScaleAndKeys := by
  unfold Obligations.LaneMovesBlockScaleAndKeys
  intro s x w i
  refine ⟨fun op hi hl ha hb hd => ?_, fun hi hl ha hd hc => ?_, fun hi hr h0 => ?_, fun hi hr h0 => ?_, fun hi hr h0 hs => ?_, fun hi hr h0 hs => ?_⟩
  · obtain ⟨t, ht, hw⟩ := xlane_wrote op hi hl ha hb hd
    exact ⟨t, ht, hw.regs, hw.preds, hw.frame, hw.pcs, hw.core, hw.groups⟩
  · obtain ⟨t, ht, hm, hcore, hgroups⟩ := mxq_moved hi hl ha hd hc
    obtain ⟨_, _, _, _, nd, _⟩ := issueCtx_members hi.1
    obtain ⟨hscale, hel, hsr, hgpr, hurf, hpred⟩ := mxAll_moved nd (slotted_regs s i i.g) hm
    exact ⟨t, ht, hscale, hel, hsr, hgpr, hurf, hpred, hm.allAt rfl, hcore, hgroups⟩
  · obtain ⟨t, ht, ⟨hregs, hcore, hgroups, hnone⟩, hkey⟩ :=
      show ∃ t, exec (.srkeyLoI x w) s = .next t ∧ KeyPut s t i false false w from coreRow_srkey hi hr (by simp [hr, h0]) nofun
    refine ⟨t, ht, ⟨hregs, hcore, hgroups, hnone⟩, fun hne => ?_⟩
    obtain ⟨th, hth⟩ := head_of_ne_nil hne
    show (keyOf t i).toNat % 2 ^ 32 = _ ∧ (keyOf t i).toNat / 2 ^ 32 = _
    rw [hkey th hth]; exact setKeyHalf_low ..
  · obtain ⟨t, ht, ⟨hregs, hcore, hgroups, hnone⟩, hkey⟩ :=
      show ∃ t, exec (.srkeyHiI x w) s = .next t ∧ KeyPut s t i true false w from coreRow_srkey hi hr (by simp [hr, h0]) nofun
    refine ⟨t, ht, ⟨hregs, hcore, hgroups, hnone⟩, fun hne => ?_⟩
    obtain ⟨th, hth⟩ := head_of_ne_nil hne
    show (keyOf t i).toNat / 2 ^ 32 = _ ∧ (keyOf t i).toNat % 2 ^ 32 = _
    rw [hkey th hth]; exact setKeyHalf_high ..
  · obtain ⟨t, ht, ⟨hregs, hcore, hgroups, hnone⟩, hkey⟩ :=
      show ∃ t, exec (.srkeyLoG x w) s = .next t ∧ KeyPut s t i false true w from coreRow_srkey hi hr (by simp [hr, h0]) (fun _ => hs)
    refine ⟨t, ht, ⟨hregs, hcore, hgroups, hnone⟩, fun th hth => ?_⟩
    show (keyOf t i).toNat % 2 ^ 32 = _ ∧ (keyOf t i).toNat / 2 ^ 32 = _
    rw [hkey th hth]; exact setKeyHalf_low ..
  · obtain ⟨t, ht, ⟨hregs, hcore, hgroups, hnone⟩, hkey⟩ :=
      show ∃ t, exec (.srkeyHiG x w) s = .next t ∧ KeyPut s t i true true w from coreRow_srkey hi hr (by simp [hr, h0]) (fun _ => hs)
    refine ⟨t, ht, ⟨hregs, hcore, hgroups, hnone⟩, fun th hth => ?_⟩
    show (keyOf t i).toNat / 2 ^ 32 = _ ∧ (keyOf t i).toNat % 2 ^ 32 = _
    rw [hkey th hth]; exact setKeyHalf_high ..

end Sys2Proof.Machine
end

section
/-! SUPPORT. Faults of an issue: the task that stops, its record, and what stays (R137, R140, R170). -/
namespace Sys2Proof.Machine

/-! ## Cores that can hold a fault of their own -/

theorem mem_tset {V : Type} [DecidableEq V] {d : V} {t : Tab V} {k : Nat} {v : V} {p : Nat × V} (h : p ∈ tset d t k v) : p ∈ t ∨ p = (k, v) := by
  unfold tset at h
  dsimp only at h
  split at h
  · exact .inl (List.mem_filter.1 h).1
  · exact (mem_tins.1 h).symm.imp_left fun hp => (List.mem_filter.1 hp).1

/-- Every core that `u` lists is listed in `s` or runs. -/
def CoresRun (s u : State) : Prop := ∀ p ∈ u.cores, p ∈ s.cores ∨ p.2.phase = .running

theorem CoresRun.rfl {s : State} : CoresRun s s := fun _ hp => .inl hp

theorem CoresRun.trans {a b c : State} (h : CoresRun a b) (k : CoresRun b c) : CoresRun a c :=
  fun p hp => (k p hp).elim (h p) .inr

theorem CoresRun.of_cores {s u : State} (h : u.cores = s.cores) : CoresRun s u := fun _ hp => .inl (h ▸ hp)

theorem setCore_coresRun (s : State) (c : Nat) {k : Core} (h : k.phase = .running) : CoresRun s (s.setCore c k) := by
  intro p hp
  exact (mem_tset hp).imp_right fun e : p = (c, k) => by rw [e]; exact h

theorem modCore_coresRun (s : State) (c : Nat) {f : Core → Core} (h : (f (s.core c)).phase = .running) : CoresRun s (s.modCore c f) :=
  setCore_coresRun s c h

/-- Without a core fault of the tick in the task, there is none after its cores have gone on running (R140). -/
theorem CoresRun.replayFirst {s u : State} {c : Nat} (h : CoresRun s u) (htask : (u.core c).task = (s.core c).task) (hclk : u.clk = s.clk)
    (hs : replayFirst s c = false) : replayFirst u c = false := by
  unfold Machine.replayFirst at hs ⊢
  rw [List.any_eq_false] at hs ⊢
  intro p hp
  rw [htask, hclk]
  rcases h p hp with hp | hrun
  · exact hs p hp
  · simp [hrun]

/-! ## The state in which an instruction acts -/

theorem countEvent_cores (s : State) (b i code n : Nat) (d : Dims) : (countEvent s b i code n d).cores = s.cores := by
  obtain ⟨p, h⟩ := countEvent_pmc s b i code n d; rw [h]

theorem countCore_cores (s : State) (c code n : Nat) (a : Option Nat) : (countCore s c code n a).cores = s.cores := countEvent_cores ..

theorem countFixed_cores (s : State) (c id n : Nat) : (countFixed s c id n).cores = s.cores := by rw [countFixed_eq]

theorem meterCompute_phase (l : Option (Cost × Cost)) (n : Nat) (k : Core) : (meterCompute l n k).phase = k.phase := by
  obtain ⟨m, g, e, h⟩ := meterCompute_eq l n k; rw [h]

theorem tickCompute_coresRun (s : State) (c n : Nat) (h : (s.core c).phase = .running) : CoresRun s (tickCompute s c n) := by
  unfold tickCompute
  refine CoresRun.trans (.of_cores (countFixed_cores s c 0 n)) (modCore_coresRun _ _ ?_)
  rw [meterCompute_phase, countFixed_core, h]

theorem countSlot_phase (k : Core) (g : Nat) (m : Word) : (countSlot k g m).phase = k.phase :=
  show (noGroups (countSlot k g m)).phase = _ by rw [noGroups_countSlot]; rfl

theorem mergeCore_phase (k : Core) : (mergeCore k).phase = k.phase := show (noGroups (mergeCore k)).phase = _ by rw [noGroups_mergeCore]; rfl

theorem counted_coresRun (s : State) (i : Ctx) (h : (s.core i.c).phase = .running) : CoresRun s (counted s i) := by
  unfold counted
  have hk : (countSlot (mergeCore (s.core i.c)) i.g i.mask).phase = .running := by rw [countSlot_phase, mergeCore_phase, h]
  refine (setCore_coresRun s i.c hk).trans ((tickCompute_coresRun _ i.c 1 (by simpa using hk)).trans (.of_cores ?_))
  rw [countFixed_cores, countFixed_cores]

theorem icFetch_coresRun (s : State) (i : Ctx) (h : (s.core i.c).phase = .running) : CoresRun s (icFetch s i) := by
  unfold icFetch
  split
  · exact .rfl
  · dsimp only
    have hc : CoresRun s (if icHit s i = true then s else countCore s i.c 0x05 1 none) := by
      split
      · exact .rfl
      · exact .of_cores (countCore_cores ..)
    have hp : ((if icHit s i = true then s else countCore s i.c 0x05 1 none).core i.c).phase = .running := by
      split
      · exact h
      · rw [countCore_core, h]
    generalize (if icHit s i = true then s else countCore s i.c 0x05 1 none) = u at hc hp ⊢
    split
    · exact hc
    · exact hc.trans (modCore_coresRun _ _ hp)

theorem onlyGroups_phase {s u : State} {c : Nat} (h : OnlyGroups s u c) : (u.core c).phase = (s.core c).phase := by unfold OnlyGroups at h; rw [h]
theorem onlyGroups_task {s u : State} {c : Nat} (h : OnlyGroups s u c) : (u.core c).task = (s.core c).task := by unfold OnlyGroups at h; rw [h]
theorem onlyGroups_rank {s u : State} {c : Nat} (h : OnlyGroups s u c) : (u.core c).rank = (s.core c).rank := by unfold OnlyGroups at h; rw [h]

theorem slotted_coresRun (s : State) (i : Ctx) (h : (s.core i.c).phase = .running) : CoresRun s (slotted s i) :=
  (icFetch_coresRun s i h).trans (counted_coresRun _ i (by rw [onlyGroups_phase (icFetch_onlyGroups s i), h]))

/-! ## Faults -/

/-- A fault of an issue of `s` that is raised in `u` finds the same task, rank and launch, and no more core faults. -/
structure SameCase (s u : State) (i : Ctx) : Prop where
  tasks : u.tasks = s.tasks
  clk : u.clk = s.clk
  task : (u.core i.c).task = (s.core i.c).task
  rank : (u.core i.c).rank = (s.core i.c).rank
  launch : (grpOf u i.c i.g).launch = (grpOf s i.c i.g).launch
  cores : CoresRun s u

theorem SameCase.coreTask {s u : State} {i : Ctx} (h : SameCase s u i) : coreTask u i.c = coreTask s i.c := by
  unfold Machine.coreTask State.task; rw [h.task, h.tasks]

theorem raiseFault_tasks (s : State) (c : Nat) {r : FaultRec} (h : r.cause ≠ cPOISONED) : ∃ ts, raiseFault s c r = { s with tasks := ts } := by
  unfold raiseFault State.modCoreTask State.modTask
  rw [if_neg h]
  split
  · exact ⟨s.tasks, rfl⟩
  · split
    · exact ⟨s.tasks, rfl⟩
    · split
      · exact ⟨s.tasks, rfl⟩
      · exact ⟨_, rfl⟩

theorem countFurther_tasks (s : State) (c n : Nat) : ∃ ts, countFurther s c n = { s with tasks := ts } := by
  unfold countFurther State.modCoreTask State.modTask
  split
  · exact ⟨s.tasks, rfl⟩
  · split
    · exact ⟨s.tasks, rfl⟩
    · exact ⟨_, rfl⟩

/-- Precise faults but POISONED touch the tasks alone. -/
theorem faultSet_tasks (s : State) (i : Ctx) (source : Nat) (fs : List (Nat × Cause)) (h : ∀ p ∈ fs, p.2.cause ≠ cPOISONED) :
    ∃ ts, faultSet s i source fs = { s with tasks := ts } := by
  cases fs with
  | nil => exact ⟨s.tasks, rfl⟩
  | cons p rest =>
    obtain ⟨t, x⟩ := p
    have hx : x.cause ≠ cPOISONED := h _ (List.mem_cons_self ..)
    obtain ⟨ts, hts⟩ := raiseFault_tasks s i.c (r := threadRec s i.c i.g t i.pc source x) hx
    unfold faultSet
    dsimp only
    rw [hts]
    split
    · exact ⟨ts, rfl⟩
    · obtain ⟨us, hus⟩ := countFurther_tasks { s with tasks := ts } i.c rest.length
      exact ⟨us, hus⟩

/-- A change of the task of a core that has one. -/
theorem coreTask_modCoreTask {s : State} {c : Nat} {k : Task} (f : Task → Task) (h : coreTask s c = some k) :
    coreTask (s.modCoreTask c f) c = some (f k) := by
  unfold coreTask at h
  cases ht : (s.core c).task with
  | none => rw [ht] at h; cases h
  | some n =>
    rw [ht] at h
    have hk : s.task n = some k := h
    have hset : s.modCoreTask c f = s.setTask n (some (f k)) := by
      unfold State.modCoreTask State.modTask; rw [ht]; dsimp only; rw [hk]
    rw [hset]
    show ((s.core c).task).bind (s.setTask n (some (f k))).task = some (f k)
    rw [ht]
    simp

theorem Task.judged_of_stop {t : Task} (h : t.stop = none) (tick : Nat) : t.judged tick = true := by unfold Task.judged; rw [h]

/-- The lowest faulting thread of an issue is recorded, and the others count in FURTHER. -/
theorem faultSet_faultedFrom {s u : State} {i : Ctx} {th source : Nat} {x : Cause} {rest : List (Nat × Cause)} (h : SameCase s u i)
    (hstop : ∀ k, coreTask s i.c = some k → k.stop = none) (hx : x.cause ≠ cPOISONED) (hlen : rest.length < i.members.length) :
    FaultedFrom s (faultSet u i source ((th, x) :: rest)) i th source x := by
  intro k hk hfault hfirst
  have hrec : threadRec u i.c i.g th i.pc source x = threadRec s i.c i.g th i.pc source x := by
    have hl : (grp (u.core i.c) i.g).launch = (grp (s.core i.c) i.g).launch := h.launch
    unfold threadRec; rw [h.rank, hl]
  have hfirst' : replayFirst u i.c = false := h.cores.replayFirst h.task h.clk hfirst
  have hraise : raiseFault u i.c (threadRec u i.c i.g th i.pc source x) =
      u.modCoreTask i.c (fun t => stopTask s.clk.tick t ⟨stFAULTED, x.cause⟩ (threadRec s i.c i.g th i.pc source x)) := by
    unfold raiseFault
    rw [if_neg (by exact hx), hfirst', hrec, h.clk]
    rfl
  have hstopped : stopTask s.clk.tick k ⟨stFAULTED, x.cause⟩ (threadRec s i.c i.g th i.pc source x) =
      { k with fault := some (threadRec s i.c i.g th i.pc source x), stop := some ⟨stFAULTED, x.cause⟩, stopAt := s.clk.tick } := by
    unfold stopTask; rw [hfault]; dsimp only; rw [if_pos (Task.judged_of_stop (hstop k hk) _)]
  have htask : coreTask (raiseFault u i.c (threadRec u i.c i.g th i.pc source x)) i.c =
      some { k with fault := some (threadRec s i.c i.g th i.pc source x), stop := some ⟨stFAULTED, x.cause⟩, stopAt := s.clk.tick } := by
    rw [hraise, coreTask_modCoreTask _ (h.coreTask.trans hk), hstopped]
  unfold faultSet
  dsimp only
  split
  · exact ⟨0, by omega, htask⟩
  · refine ⟨satAdd 0xFFFF 0 rest.length, by unfold satAdd; omega, ?_⟩
    unfold countFurther
    rw [coreTask_modCoreTask _ htask]
    rfl

/-- The task of a core whose instruction issues has not stopped (R137). -/
theorem issueCtx_running {s : State} {x : Site} {w : Word64} {regs preds : List Nat} {i : Ctx} (h : issueCtx s x w regs preds = some i) :
    (s.core i.c).phase = .running ∧ ∀ k, coreTask s i.c = some k → k.stop = none := by
  obtain ⟨hc, _⟩ := issueCtx_members h
  unfold issueCtx at h
  dsimp only at h
  split at h
  · cases h
  · split at h
    next hcond =>
      obtain ⟨hissue, _⟩ := hcond
      rw [← hc] at hissue
      unfold coreIssues at hissue
      rw [Bool.and_eq_true] at hissue
      refine ⟨by simpa using hissue.1, fun k hk => ?_⟩
      have h2 := hissue.2
      rw [hk] at h2
      simpa using h2
    · cases h

theorem OnlyCore.sameCase {s u : State} {i : Ctx} (hc : OnlyCore s u i.c) (hg : OnlyGroups s u i.c)
    (hl : (grpOf u i.c i.g).launch = (grpOf s i.c i.g).launch) (hr : CoresRun s u) : SameCase s u i :=
  ⟨by rw [hc.1], by rw [hc.1], onlyGroups_task hg, onlyGroups_rank hg, hl, hr⟩

theorem slotted_sameCase {s : State} {i : Ctx} (h : (s.core i.c).phase = .running) : SameCase s (slotted s i) i :=
  (slotted_onlyCore s i).sameCase (slotted_onlyGroups s i) (slotted_regs s i i.g).launch (slotted_coresRun s i h)

theorem counted_sameCase {s : State} {i : Ctx} (h : (s.core i.c).phase = .running) : SameCase s (counted s i) i :=
  (counted_onlyCore s i).sameCase (counted_onlyGroups s i) (counted_regs s i i.g).launch (counted_coresRun s i h)

theorem SameCase.trans {a b c : State} {i : Ctx} (h : SameCase a b i) (k : SameCase b c i) : SameCase a c i :=
  ⟨k.tasks.trans h.tasks, k.clk.trans h.clk, k.task.trans h.task, k.rank.trans h.rank, k.launch.trans h.launch, h.cores.trans k.cores⟩

/-- A change of the issue's group that keeps its launch. -/
theorem modGrp_sameCase {s : State} {i : Ctx} (h : (s.core i.c).phase = .running) {f : Group → Group} (hl : ∀ g, (f g).launch = g.launch) :
    SameCase s (s.modGrp i.c i.g f) i := by
  refine (modGrp_onlyCore ..).sameCase (modGrp_onlyGroups ..) ?_ (modCore_coresRun _ _ h)
  rw [grpOf_modGrp, if_pos rfl, hl]

theorem advance_sameCase {s : State} {i : Ctx} (h : (s.core i.c).phase = .running) (ts : List Nat) (pc : Nat) : SameCase s (advance s i ts pc) i :=
  modGrp_sameCase h fun g => by rw [(SameRegs.normGroup _).launch, modThrs_launch]

end Sys2Proof.Machine
end

section
/-! SUPPORT. Settling groups and barriers opens blocks and sets none but waits at a join (R113, R114, R120, R121). -/
namespace Sys2Proof.Machine

/-- Thread `b` is blocked as `a` was, or by nothing, or at a join. -/
def Opens (a b : Thread) : Prop := b.block = a.block ∨ b.block = .no ∨ ∃ n d, b.block = .join n d

theorem Opens.rfl {a : Thread} : Opens a a := .inl (by rfl)

theorem Opens.of_block {a b : Thread} (h : b.block = a.block) : Opens a b := .inl h

theorem Opens.trans {a b c : Thread} (h : Opens a b) (k : Opens b c) : Opens a c := by
  rcases k with k | k
  · unfold Opens; rw [k]; exact h
  · exact .inr k

/-- A block of another kind was there before. -/
theorem Opens.block {a b : Thread} (h : Opens a b) (hno : b.block ≠ .no) (hjoin : ∀ n d, b.block ≠ .join n d) : a.block = b.block := by
  rcases h with h | h | ⟨n, d, h⟩
  · exact h.symm
  · exact absurd h hno
  · exact absurd h (hjoin n d)

/-- Every thread of a group opens. -/
def OpensG (a b : Group) : Prop := ∀ t, Opens (thr a t) (thr b t)

theorem OpensG.rfl {a : Group} : OpensG a a := fun _ => .rfl
theorem OpensG.trans {a b c : Group} (h : OpensG a b) (k : OpensG b c) : OpensG a c := fun t => (h t).trans (k t)

theorem OpensG.modThrs (gr : Group) (ts : List Nat) (f : Nat → Thread → Thread) (hf : ∀ t x, Opens x (f t x)) :
    OpensG gr (modThrs gr ts f) := by
  unfold Machine.modThrs
  induction ts generalizing gr with
  | nil => exact .rfl
  | cons a ts ih =>
    rw [List.foldl_cons]
    refine OpensG.trans (fun u => ?_) (ih _)
    rw [thr_modThr]
    split
    next h => rw [h]; exact hf a _
    · exact .rfl

theorem OpensG.joinMark (gr : Group) : OpensG gr (joinMark gr) := by
  unfold Machine.joinMark
  split
  · exact .rfl
  · exact .modThrs _ _ _ fun _ _ => .inr (.inr ⟨_, _, by rfl⟩)

theorem opens_joinLeft (d : Nat) (t : Thread) : Opens t (joinLeft d t) := by
  unfold joinLeft
  split
  · split
    · exact .inr (.inl (by rfl))
    · split
      · exact .inr (.inr ⟨_, _, by rfl⟩)
      · exact .rfl
  · exact .rfl

theorem OpensG.joinPop (gr : Group) (d : Nat) : OpensG gr (joinPop gr d) := by
  unfold Machine.joinPop
  exact OpensG.trans (b := { gr with joins := ((joinStack gr).filter (fun e => e.1 != d)).map (·.2) }) .rfl
    (.modThrs _ _ _ fun _ => opens_joinLeft d)

theorem OpensG.joinSettle (n : Nat) (gr : Group) : OpensG gr (joinSettle n gr) := by
  induction n generalizing gr with
  | zero => exact .rfl
  | succ n ih =>
    simp only [Machine.joinSettle]
    split
    · exact (OpensG.joinMark gr).trans ((OpensG.joinPop _ _).trans (ih _))
    · exact .joinMark gr

theorem OpensG.normGroup (gr : Group) : OpensG gr (normGroup gr) := by
  unfold Machine.normGroup
  exact OpensG.trans (b := { gr with sets := gr.sets.flatMap (splitSet gr) }) .rfl ((OpensG.joinSettle 9 _).trans .rfl)

theorem OpensG.releaseG (gr : Group) : OpensG gr (releaseG gr) := by
  unfold Machine.releaseG
  dsimp only
  generalize liveThreads gr = ls
  generalize List.range 16 = ids
  induction ids generalizing gr with
  | nil => exact .rfl
  | cons a ids ih =>
    rw [List.foldl_cons]
    refine OpensG.trans ?_ (ih _)
    split
    · refine OpensG.trans (b := Machine.modThrs { gr with genG := gr.genG ^^^ BitVec.ofNat 16 (2 ^ a) } ls fun _ t => { t with block := .no })
        ?_ (.normGroup _)
      exact OpensG.trans (b := { gr with genG := gr.genG ^^^ BitVec.ofNat 16 (2 ^ a) }) .rfl (.modThrs _ _ _ fun _ _ => .inr (.inl (by rfl)))
    · exact .rfl

/-! ## Cores -/

/-- Every thread of every group of a core opens. -/
def OpensK (a b : Core) : Prop := ∀ g, OpensG (grp a g) (grp b g)

theorem OpensK.rfl {a : Core} : OpensK a a := fun _ => .rfl
theorem OpensK.trans {a b c : Core} (h : OpensK a b) (k : OpensK b c) : OpensK a c := fun g => (h g).trans (k g)

theorem OpensK.of_groups {a b : Core} (h : b.groups = a.groups) : OpensK a b := fun g => by
  have hg : grp b g = grp a g := by unfold grp; rw [h]
  rw [hg]
  exact .rfl

theorem opensK_setGrp {k : Core} {g : Nat} {v : Group} (h : OpensG (grp k g) v) : OpensK k (setGrp k g v) := by
  intro u
  by_cases hu : u = g
  · subst hu; rw [grp_setGrp_same]; exact h
  · rw [grp_setGrp_other k _ hu]; exact .rfl

theorem opensK_foldl (k : Core) (gs : List Nat) (f : Nat → Group → Group) (hf : ∀ g x, OpensG x (f g x)) :
    OpensK k (gs.foldl (fun k g => setGrp k g (f g (grp k g))) k) := by
  induction gs generalizing k with
  | nil => exact .rfl
  | cons a gs ih =>
    rw [List.foldl_cons]
    exact (opensK_setGrp (hf a _)).trans (ih _)

theorem opensK_openThreads (k : Core) : OpensK k (openThreads k) :=
  opensK_foldl k _ (fun _ gr => normGroup (modThrs gr (liveThreads gr) (fun _ t => { t with block := .no })))
    fun _ _ => (OpensG.modThrs _ _ _ fun _ _ => .inr (.inl (by rfl))).trans (.normGroup _)

theorem opensK_openBarT (k : Core) (id : Nat) : OpensK k (openBarT k id) :=
  (OpensK.of_groups (b := { k with genT := k.genT ^^^ BitVec.ofNat 16 (2 ^ id) }) (by rfl)).trans (opensK_openThreads _)

/-- The groups of a core with their full group barriers released. -/
def releasedK (k : Core) : Core := (heldGroups k).foldl (fun k g => setGrp k g (releaseG (grp k g))) k

theorem opensK_releasedK (k : Core) : OpensK k (releasedK k) := opensK_foldl k _ (fun _ => releaseG) fun _ => .releaseG

theorem noGroups_releasedK (k : Core) : noGroups (releasedK k) = noGroups k := noGroups_foldl k _ (fun g k => releaseG (grp k g))

/-- What settling its barriers makes of a core (R120 to R125, R134, R135). -/
def settledK (k : Core) : Core :=
  let k := releasedK k
  if k.phase ≠ .running then k
  else match fullBarT k with
  | none => k
  | some id =>
    if !segMarked k id then openBarT k id
    else if !ticketsDone k ∨ uniformPending k then k
    else match holdsLock k with
    | some _ => k
    | none => { k with phase := .ckptWrite, ckptNext := some (ckptOf (openBarT k id)) }

theorem opensK_settledK (k : Core) : OpensK k (settledK k) := by
  refine (opensK_releasedK k).trans ?_
  unfold settledK
  dsimp only
  generalize releasedK k = r
  split
  · exact .rfl
  · split
    · exact .rfl
    · split
      · exact opensK_openBarT _ _
      · split
        · exact .rfl
        · split
          · exact .rfl
          · exact .of_groups (by rfl)

theorem filter_tins {V : Type} (k : Nat) (v : V) (t : Tab V) :
    (tins k v t).filter (fun p => decide (p.1 ≠ k)) = t.filter (fun p => decide (p.1 ≠ k)) := by
  induction t with
  | nil => simp [tins]
  | cons a t ih =>
    obtain ⟨a, w⟩ := a
    simp only [tins]
    split
    · simp
    · simp only [List.filter_cons, ih]

/-- The later write of a key stands. -/
theorem tset_tset_same {V : Type} [DecidableEq V] (d : V) (t : Tab V) (k : Nat) (v w : V) : tset d (tset d t k v) k w = tset d t k w := by
  have hf : (tset d t k v).filter (fun p => decide (p.1 ≠ k)) = t.filter (fun p => decide (p.1 ≠ k)) := by
    unfold tset
    dsimp only
    split
    · rw [List.filter_filter]; simp
    · rw [filter_tins, List.filter_filter]; simp
  show (if w = d then (tset d t k v).filter (fun p => decide (p.1 ≠ k)) else tins k w ((tset d t k v).filter (fun p => decide (p.1 ≠ k)))) = _
  rw [hf]
  rfl

@[simp] theorem setCore_setCore (s : State) (c : Nat) (k l : Core) : (s.setCore c k).setCore c l = s.setCore c l := by
  unfold State.setCore
  simp only [tset_tset_same]

/-- Settling barriers changes the core so, and of everything else the tasks at most: a holder of a lock at a marked barrier faults. -/
theorem settleBarriers_eq (s : State) (c : Nat) : ∃ ts, settleBarriers s c = { s.setCore c (settledK (s.core c)) with tasks := ts } := by
  have hr : (heldGroups (s.core c)).foldl (fun k g => setGrp k g (releaseG (grp k g))) (s.core c) = releasedK (s.core c) := rfl
  unfold settleBarriers settledK
  dsimp only
  rw [hr]
  generalize releasedK (s.core c) = k
  by_cases hrun : k.phase ≠ .running
  · rw [if_pos hrun, if_pos hrun]; exact ⟨s.tasks, rfl⟩
  rw [if_neg hrun, if_neg hrun]
  cases fullBarT k with
  | none => exact ⟨s.tasks, rfl⟩
  | some id =>
    dsimp only
    by_cases hseg : (!segMarked k id) = true
    · rw [if_pos hseg, if_pos hseg, setCore_setCore]; exact ⟨s.tasks, rfl⟩
    rw [if_neg hseg, if_neg hseg]
    by_cases hwait : (!ticketsDone k) = true ∨ uniformPending k = true
    · rw [if_pos hwait, if_pos hwait]; exact ⟨s.tasks, rfl⟩
    rw [if_neg hwait, if_neg hwait]
    cases holdsLock k with
    | none => dsimp only; rw [setCore_setCore]; exact ⟨s.tasks, rfl⟩
    | some q =>
      obtain ⟨g, t⟩ := q
      obtain ⟨ts, h⟩ := raiseFault_tasks (s.setCore c k) c (r := threadRec (s.setCore c k) c g t ((thr (grp k g) t).pc - 8) 0
        ⟨cLOCK_ACROSS_SEGMENT, 0, 0⟩) (show cLOCK_ACROSS_SEGMENT ≠ cPOISONED by decide)
      exact ⟨ts, h⟩

theorem settleBarriers_core (s : State) (c : Nat) : (settleBarriers s c).core c = settledK (s.core c) := by
  obtain ⟨ts, h⟩ := settleBarriers_eq s c
  rw [h]
  exact core_setCore_same ..

theorem settleBarriers_core_other (s : State) {c d : Nat} (hd : d ≠ c) : (settleBarriers s c).core d = s.core d := by
  obtain ⟨ts, h⟩ := settleBarriers_eq s c
  rw [h]
  exact core_setCore_other _ _ hd

theorem opens_settleBarriers (s : State) (c g t : Nat) : Opens (thrOf s c g t) (thrOf (settleBarriers s c) c g t) := by
  unfold thrOf grpOf
  rw [settleBarriers_core]
  exact opensK_settledK _ g t

end Sys2Proof.Machine
end

section
/-! SUPPORT. Waits that a join takes away: the statements on fences, barriers and locks speak of every state, also of one in which a set
holds a thread at a join beside one that is about to wait. When the join's entry leaves the stack, the set's lowest thread is free, and
the entry below it, of the same PC, blocks the whole set anew (R113, R114). -/
namespace Sys2Proof.Machine
open Sys2Proof.Tests

/-! ## The bench after a slot -/

theorem slotted_bench_grp (k : Core) (mem : List Host.Cell) {i : Ctx} (hc : i.c = 0) (g : Nat) :
    grpOf (slotted (bench k mem) i) 0 g = grp (countSlot (mergeCore k) i.g i.mask) g := by
  obtain ⟨c, hi⟩ := icFetch_core (bench k mem) i
  obtain ⟨m, sg, e, hk⟩ := counted_core (icFetch (bench k mem) i) i
  have hb : (bench k mem).core i.c = k := by rw [hc]; rfl
  unfold grpOf slotted
  rw [← hc, hk, hi, hb, mergeCore_icache, countSlot_icache]
  rfl

/-- A group that moves on, after a change of it. -/
theorem grpOf_advance_modGrp (u : State) (i : Ctx) (f : Group → Group) (ts : List Nat) (pc : Nat) :
    grpOf (advance (u.modGrp i.c i.g f) i ts pc) i.c i.g =
      normGroup (modThrs (f (grpOf u i.c i.g)) ts (fun _ th => { th with pc := pc })) := by
  unfold advance
  rw [grpOf_modGrp, if_pos rfl, grpOf_modGrp, if_pos rfl]

/-! ## A group of three threads: thread 1 waits at the upper of two joins at PC 8, and thread 2 is at PC 0, also in a set with it -/

def thr1J : Thread := { thr0 with block := .join 0 1, pc := 8 }
def grpJ : Group :=
  { Group.empty with threads := [(1, thr1J), (2, { thr0 with writes := 1 })], sets := [⟨4, 0⟩, ⟨6, 0⟩], joins := [⟨8, 2⟩, ⟨8, 6⟩] }
def coreJ : Core := { core0 with groups := [(0, grpJ)] }
def site2 : Site := ⟨0, 0, 2, .none⟩
def ctx2 (w : Word64) : Ctx := ⟨0, 0, 0, 4, [2], [2], w⟩

/-- FENCE.W of thread 2, which has a write-through unacknowledged. -/
def wFenceW : Word64 := wM 0x13 0 0 0 7 0xC0 0xC0 0
/-- BAR.G 3 of thread 2. -/
def wBarG3 : Word64 := wC 0x15 2 3 0 0

theorem coreJ_issues {w : Word64} (h : issueCtx (bench coreJ []) site2 w [] [] = some (ctx2 w)) : Issues (bench coreJ []) site2 w [] [] (ctx2 w) :=
  bench_issues h rfl rfl (show 0 < 64 by decide)

/-- Whatever block thread 2 gets as it moves on, both joins open it again. -/
theorem coreJ_after_fence : (thr (normGroup (modThrs (modThrs (grp (countSlot (mergeCore coreJ) 0 4) 0) [2] (fun _ t => { t with block := .fence false }))
    [2] (fun _ th => { th with pc := 8 }))) 2).block = .no := by decide

theorem coreJ_after_barG : (thr (normGroup (modThrs (modThrs (grp (countSlot (mergeCore coreJ) 0 4) 0) [2] (fun _ t => { t with block := .barG 3 }))
    [2] (fun _ th => { th with pc := 8 }))) 2).block = .no := by decide

/-- A row that issues answers the effect of its body, and no other state. -/
theorem eq_of_coreRow_issue {s t : State} {x : Site} {w : Word64} {regs preds : List Nat} {i : Ctx} {own legal : Bool} {body : State → Ctx → State}
    (hi : Issues s x w regs preds i) (hown : own = true) (hlegal : legal = true)
    (h : coreRow own w (issue s x w regs preds legal body) = .next t) : t = body (slotted s i) i := by
  subst hown hlegal
  rw [issue_legal hi] at h
  exact (Host.Outcome.next.inj h).symm

/-- A wait of thread 2 that its move on to PC 8 opens is not there after the barriers have settled. -/
theorem coreJ_opened {b : Block} (hno : b ≠ .no) (hjoin : ∀ n d, b ≠ .join n d) {u t : State} {w : Word64}
    (hu : grpOf u 0 0 = grp (countSlot (mergeCore coreJ) 0 4) 0)
    (hopen : (thr (normGroup (modThrs (modThrs (grp (countSlot (mergeCore coreJ) 0 4) 0) [2] (fun _ t => { t with block := b })) [2]
      (fun _ th => { th with pc := 8 }))) 2).block = .no)
    (ht : t = settleBarriers (advance (u.modGrp 0 0 (fun gr => modThrs gr [2] (fun _ t => { t with block := b }))) (ctx2 w) [2] 8) 0) :
    (thrOf t 0 0 2).block ≠ b := by
  intro hb
  have hopens := opens_settleBarriers (advance (u.modGrp 0 0 (fun gr => modThrs gr [2] (fun _ t => { t with block := b }))) (ctx2 w) [2] 8) 0 0 2
  rw [← ht] at hopens
  have hbefore := hopens.block (hb ▸ hno) (hb ▸ hjoin)
  have hmoved : grpOf (advance (u.modGrp 0 0 (fun gr => modThrs gr [2] (fun _ t => { t with block := b }))) (ctx2 w) [2] 8) 0 0 = _ :=
    grpOf_advance_modGrp u (ctx2 w) _ [2] 8
  unfold thrOf at hbefore hb
  rw [hmoved, show grpOf u (ctx2 w).c (ctx2 w).g = _ from hu, hopen, hb] at hbefore
  exact hno hbefore.symm

theorem fenceBody_write {s : State} {i : Ctx} {late : List Nat} (h : i.active.filter (fun t => (thrOf s i.c i.g t).writes != 0) = late) :
    fenceBody true false s i = settleBarriers (advance (s.modGrp i.c i.g (fun gr => modThrs gr late (fun _ t => { t with block := .fence false })))
      i i.members (i.pc + 8)) i.c := by
  subst h
  unfold fenceBody
  simp only [if_true, Bool.false_eq_true, false_and, if_false]
  rfl

/-- Refutes O14: a FENCE.W with a write-through to wait for leaves its thread unblocked where two joins of the next PC open its set. -/
theorem not_fencesWaitAndInvalidate : ¬ Obligations.FencesWaitAndInvalidate := by
  unfold Obligations.FencesWaitAndInvalidate
  intro h
  have hi : Issues (bench coreJ []) site2 wFenceW [] [] (ctx2 wFenceW) := coreJ_issues (by decide)
  obtain ⟨hw, -, -⟩ := h _ _ _ _ hi
  obtain ⟨t, ht, -, -, -, -, -, -, -, hblock, -⟩ := hw (by decide)
  have hlate : (thrOf (bench coreJ []) 0 0 2).writes ≠ 0 := by decide
  have hfence : (thrOf t 0 0 2).block = .fence false := hblock 2 (List.mem_singleton.2 rfl) (decide_eq_true hlate)
  have hgrp : grpOf (slotted (bench coreJ []) (ctx2 wFenceW)) 0 0 = grp (countSlot (mergeCore coreJ) 0 4) 0 := slotted_bench_grp coreJ [] rfl 0
  have hnow : [2].filter (fun t => (thrOf (slotted (bench coreJ []) (ctx2 wFenceW)) 0 0 t).writes != 0) = [2] := by
    unfold thrOf; rw [hgrp]; decide
  exact coreJ_opened (b := .fence false) nofun nofun hgrp coreJ_after_fence ((eq_of_coreRow_issue hi (own := isRow 0x13 0 wFenceW) (by decide)
    (legal := legalFence 0 wFenceW) (by decide) ht).trans (fenceBody_write hnow)) hfence

/-- Refutes O18: a thread that arrives at BAR.G is not held there in the same way, though another live thread of its group has not arrived. -/
theorem not_barriersHoldAndRelease : ¬ Obligations.BarriersHoldAndRelease := by
  unfold Obligations.BarriersHoldAndRelease
  intro h
  have hi : Issues (bench coreJ []) site2 wBarG3 [] [] (ctx2 wBarG3) := coreJ_issues (by decide)
  obtain ⟨hbar, -⟩ := h (bench coreJ []) site2 wBarG3 (ctx2 wBarG3) (by decide)
  obtain ⟨hheld, -⟩ := hbar hi (by decide)
  have hwaits : ∃ q ∈ (liveThreads (grpOf (bench coreJ []) 0 0)).map (fun th => (0, th)),
      ¬ ((q ∈ [2].map (fun th => (0, th)) ∨ (thrOf (bench coreJ []) 0 q.1 q.2).block = .barG (cId wBarG3)) ∧
        (thrOf (bench coreJ []) 0 q.1 q.2).settled = true) := ⟨(0, 1), by decide, by decide⟩
  obtain ⟨t, ht, -, -, -, -, hblock⟩ := hheld hwaits
  have hgrp : grpOf (slotted (bench coreJ []) (ctx2 wBarG3)) 0 0 = grp (countSlot (mergeCore coreJ) 0 4) 0 := slotted_bench_grp coreJ [] rfl 0
  exact coreJ_opened (b := .barG 3) nofun nofun hgrp coreJ_after_barG (eq_of_coreRow_issue hi (own := isRow 0x15 2 wBarG3) (by decide)
    (legal := legalC 0x15 2 true false false false wBarG3) (by decide) ht) (hblock (0, 2) (by decide))

end Sys2Proof.Machine
end

section
/-! SUPPORT. Waits for a lock that a join takes away, as with fences and barriers (R113, R114, R127). -/
namespace Sys2Proof.Machine
open Sys2Proof.Tests

/-! ## Meters -/

theorem countCore_pmc (s : State) (c code n : Nat) (a : Option Nat) : ∃ p, countCore s c code n a = { s with pmc := p } := countEvent_pmc ..

theorem addMeters_eq (s : State) (c a : Nat) (x : Cost) : ∃ p, addMeters s c a x =
    { s with pmc := p }.modCore c (fun k => { k with meters := addCost k.meters x, seg := addCost k.seg x }) := by
  obtain ⟨p, hp⟩ := countCore_pmc s c 0x08 x.llc (some a)
  obtain ⟨q, hq⟩ := countCore_pmc { s with pmc := p } c 0x09 x.hbm (some a)
  obtain ⟨r, hr⟩ := countCore_pmc { s with pmc := q } c 0x0A x.vert (some a)
  refine ⟨r, ?_⟩
  unfold addMeters
  rw [hp, hq]
  exact congrArg (fun u : State => u.modCore c _) hr

theorem grpOf_modCore_groups (s : State) (c : Nat) {f : Core → Core} (hf : ∀ k, (f k).groups = k.groups) (d g : Nat) :
    grpOf (s.modCore c f) d g = grpOf s d g := by
  unfold grpOf
  by_cases h : d = c
  · subst h; rw [core_modCore_same]; unfold grp; rw [hf]
  · rw [core_modCore_other _ _ h]

theorem grpOf_addMeters (s : State) (c a : Nat) (x : Cost) (d g : Nat) : grpOf (addMeters s c a x) d g = grpOf s d g := by
  obtain ⟨p, h⟩ := addMeters_eq s c a x
  rw [h]
  exact grpOf_modCore_groups _ c (f := fun k => { k with meters := addCost k.meters x, seg := addCost k.seg x }) (fun _ => rfl) d g

@[simp] theorem addMeters_modId (s : State) (c a : Nat) (x : Cost) : (addMeters s c a x).modId = s.modId := by
  obtain ⟨p, h⟩ := addMeters_eq s c a x; rw [h]; rfl

@[simp] theorem addMeters_mem (s : State) (c a : Nat) (x : Cost) : (addMeters s c a x).mem = s.mem := by
  obtain ⟨p, h⟩ := addMeters_eq s c a x; rw [h]; rfl

/-! ## Attempts that wait -/

/-- The wait of an attempt at a lock. -/
def acqBlock (w : Word64) : LockAt → Block
  | .ls off => .lock false off (mPdst w)
  | .dev a => .lock true a (mPdst w)

/-- The attempt does not take the lock in its slot: the word in local store is held, or the word lies at a home of this module. -/
def Waits (s : State) (c : Nat) : LockAt → Prop
  | .ls off => nbit (s.word64 (lsAddr c + off)) 0 = true
  | .dev a => addrModule a = s.modId

theorem Waits.congr {s u : State} {c : Nat} {l : LockAt} (h : Waits s c l) (hmem : u.mem = s.mem) (hmod : u.modId = s.modId) : Waits u c l := by
  cases l with
  | ls off => exact (congrArg (fun m => nbit (leNat (readBytes m (addrLow (lsAddr c + off)) 8)) 0) hmem).trans h
  | dev a => exact (show addrModule a = s.modId from h).trans hmod.symm

theorem acquire_waits {s : State} {w : Word64} {i : Ctx} {t : Nat} {l : LockAt} (h : Waits s i.c l) :
    grpOf (acquire w i s t l) i.c i.g = modThr (grpOf s i.c i.g) t (fun th => { th with block := acqBlock w l }) ∧
      (acquire w i s t l).mem = s.mem ∧ (acquire w i s t l).modId = s.modId := by
  cases l with
  | ls off =>
    have hw : nbit (s.word64 (lsAddr i.c + off)) 0 = true := h
    unfold acquire
    dsimp only
    rw [if_pos hw]
    exact ⟨by unfold State.modThread; rw [grpOf_modGrp, if_pos rfl]; rfl, rfl, rfl⟩
  | dev a =>
    have hw : addrModule a = s.modId := h
    unfold acquire sendHome
    dsimp only
    rw [modThread_modId, meterLine, addMeters_modId, if_pos hw]
    refine ⟨?_, addMeters_mem .., addMeters_modId ..⟩
    show grpOf ((addMeters s i.c a _).modThread i.c i.g t _) i.c i.g = _
    unfold State.modThread
    rw [grpOf_modGrp, if_pos rfl, grpOf_addMeters]
    rfl

/-- Two attempts that pass their checks and wait. -/
theorem acqSplit_two {s : State} {i : Ctx} {f : Nat → List LockAt → Except Cause LockAt} {a b : Nat} {l m : LockAt}
    (ha : f a [] = .ok l) (hb : f b [] = .ok m) (hl : takesNow s i.c [] l = false) : acqSplit s i f [a, b] [] = ([(a, l), (b, m)], []) := by
  simp [acqSplit, ha, hb, hl]

/-- LOCK.ACQ of two threads that both wait. -/
theorem acqBody_two {glob : Bool} {w : Word64} {s : State} {i : Ctx} {a b : Nat} {l m : LockAt} (hact : i.active = [a, b])
    (hsrc : srcOk (mBase w) (if glob then 2 else 1) = true)
    (hl : lockAddr glob s (grpOf s i.c i.g) i a = .ok l) (hm : lockAddr glob s (grpOf s i.c i.g) i b = .ok m)
    (hfl : ∀ x, acqFault s i a l x 0 = none ∧ lockPoison s i.c l x = none) (hfm : ∀ x, acqFault s i b m x 0 = none ∧ lockPoison s i.c m x = none)
    (hwl : Waits s i.c l) (hwm : Waits s i.c m) (htake : takesNow s i.c [] l = false) :
    ∃ u, acqBody glob w s i = settleBarriers (u.modGrp i.c i.g normGroup) i.c ∧
      grpOf u i.c i.g = modThr (modThr (normGroup (modThrs (grpOf s i.c i.g) i.members (fun _ th => { th with pc := i.pc + 8 }))) a
        (fun th => { th with block := acqBlock w l })) b (fun th => { th with block := acqBlock w m }) := by
  have hadv : ∀ n, Waits s i.c n → Waits (advance s i i.members (i.pc + 8)) i.c n := fun n h => h.congr rfl rfl
  obtain ⟨hg1, hmem1, hmod1⟩ := acquire_waits (w := w) (t := a) (hadv l hwl)
  obtain ⟨hg2, -, -⟩ := acquire_waits (w := w) (t := b) ((hadv m hwm).congr hmem1 hmod1)
  refine ⟨acquire w i (acquire w i (advance s i i.members (i.pc + 8)) a l) b m, ?_, ?_⟩
  · have hl' : lockAddr glob s (grp (s.core i.c) i.g) i a = .ok l := hl
    have hm' : lockAddr glob s (grp (s.core i.c) i.g) i b = .ok m := hm
    unfold acqBody
    dsimp only
    rw [hact, acqSplit_two ?_ ?_ htake]
    · simp only [goOn_nil, faultSet_nil, List.foldl_cons, List.foldl_nil]
      rfl
    · simp only [hsrc, hl', List.length_nil, (hfl _).1, (hfl _).2]; rfl
    · simp only [hsrc, hm', List.length_nil, (hfm _).1, (hfm _).2]; rfl
  · rw [hg2, hg1]
    unfold advance
    rw [grpOf_modGrp, if_pos rfl]

/-! ## Addresses after a slot -/

theorem slotted_coreTask (s : State) (i : Ctx) : coreTask (slotted s i) i.c = coreTask s i.c := by
  have ht := onlyGroups_task (slotted_onlyGroups s i)
  have hs : (slotted s i).tasks = s.tasks := by rw [(slotted_onlyCore s i).1]
  unfold coreTask State.task
  rw [ht, hs]

theorem globalCheck_slotted (s : State) (i : Ctx) (a n : Nat) (rd wr : Bool) :
    globalCheck (slotted s i) i.c a n rd wr = globalCheck s i.c a n rd wr := by
  have hctx : (slotted s i).contexts = s.contexts := by rw [(slotted_onlyCore s i).1]
  have hmod : (slotted s i).modId = s.modId := by rw [(slotted_onlyCore s i).1]
  unfold globalCheck ownLs taskWindows State.context
  rw [slotted_coreTask, hctx, hmod]

theorem lockAddr_slotted (glob : Bool) (s : State) (gr : Group) (i : Ctx) (t : Nat) :
    lockAddr glob (slotted s i) gr i t = lockAddr glob s gr i t := by
  have hmod : (slotted s i).modId = s.modId := by rw [(slotted_onlyCore s i).1]
  unfold lockAddr ownLs
  rw [hmod]
  simp only [globalCheck_slotted]

/-! ## A group of three threads: threads 2 and 3 attempt a lock, thread 1 goes on with them, and thread 3 was blocked before -/

def thrL (p : BitVec 8) : Thread := { thr0 with preds := p }
def grpL : Group :=
  { Group.empty with threads := [(1, thrL 0), (2, thrL 1), (3, { thrL 1 with block := .ticket 5 })], sets := [⟨14, 0⟩], joins := [⟨8, 14⟩, ⟨8, 2⟩] }
def coreL : Core := { core0 with groups := [(0, grpL)] }
def site1 : Site := ⟨0, 0, 1, .none⟩
def ctxL (w : Word64) : Ctx := ⟨0, 0, 0, 14, [1, 2, 3], [2, 3], w⟩

/-- LOCK.ACQ.L of the word at offset 0 and LOCK.ACQ.G of the word that R4 and R5 name, guarded by P0. -/
def wAcqL : Word64 := wM 0x12 0 3 0 6 0xC0 0xC0 0 - BitVec.ofNat 64 (7 * 2 ^ 52)
def wAcqG : Word64 := wM 0x12 1 3 0 6 0xC0 4 0 - BitVec.ofNat 64 (7 * 2 ^ 52)

/-- A word that a thread of another core holds. -/
def heldL : List Host.Cell := [(0x9000000000, 1)]

/-- Whatever wait threads 2 and 3 get, both joins open that of thread 2. -/
theorem coreL_opened {b : Block} (hno : b ≠ .no) (hjoin : ∀ n d, b ≠ .join n d) {u t : State} {v : Group}
    (hu : grpOf u 0 0 = v) (hopen : (thr (normGroup v) 2).block = .no) (ht : t = settleBarriers (u.modGrp 0 0 normGroup) 0) :
    (thrOf t 0 0 2).block ≠ b := by
  intro hb
  have hopens := opens_settleBarriers (u.modGrp 0 0 normGroup) 0 0 2
  rw [← ht] at hopens
  have hbefore := hopens.block (hb ▸ hno) (hb ▸ hjoin)
  rw [hb] at hbefore
  unfold thrOf at hbefore
  rw [grpOf_modGrp, if_pos rfl, hu, hopen] at hbefore
  exact hno hbefore.symm

theorem coreL_core (mem : List Host.Cell) (w : Word64) : grpOf (slotted (bench coreL mem) (ctxL w)) 0 0 = grp (countSlot (mergeCore coreL) 0 14) 0 :=
  slotted_bench_grp coreL mem rfl 0

theorem coreL_free (mem : List Host.Cell) (w : Word64) {t : Nat} (ht : t ∈ [2, 3]) (l : LockAt) (a n : Nat) (hn : n < 128) :
    acqFault (slotted (bench coreL mem) (ctxL w)) (ctxL w) t l a n = none := by
  refine acq_free rfl ?_
  have h' : t = 2 ∨ t = 3 := by simpa using ht
  have hheld : coreHeld (countSlot (mergeCore coreL) 0 14) = 0 := by decide +kernel
  unfold acqFault
  show (if (thr (grp (countSlot (mergeCore coreL) 0 14) 0) t).held.contains (lockHeld l) = true then _
    else if 4 ≤ (thr (grp (countSlot (mergeCore coreL) 0 14) 0) t).held.length ∨ 128 ≤ coreHeld (countSlot (mergeCore coreL) 0 14) + n then _ else none) = none
  have hnil : (thr (grp (countSlot (mergeCore coreL) 0 14) 0) t).held = [] := by rcases h' with rfl | rfl <;> decide
  rw [hnil, hheld]
  simp [hn]

/-- The group of LOCK.ACQ once both threads wait. -/
def lockedL (b : Block) : Group :=
  modThr (modThr (normGroup (modThrs (grp (countSlot (mergeCore coreL) 0 14) 0) [1, 2, 3] (fun _ th => { th with pc := 8 }))) 2
    (fun th => { th with block := b })) 3 (fun th => { th with block := b })

/-- Refutes O12: a thread that attempts a held word does not stay blocked where two joins of the next PC open its set. -/
theorem not_localLocks : ¬ Obligations.LocalLocks := by
  unfold Obligations.LocalLocks
  intro h
  have hi : Issues (bench coreL heldL) site1 wAcqL (codeRange (mBase wAcqL) 1) [] (ctxL wAcqL) :=
    bench_issues (by decide) rfl rfl (show 0 < 64 by decide)
  obtain ⟨hacq, -⟩ := h (bench coreL heldL) site1 wAcqL (ctxL wAcqL)
  obtain ⟨t, ht, -, -, -, -, hblock⟩ := hacq hi (by decide) (by decide) (by decide)
    (fun th hth => coreL_free heldL wAcqL hth _ _ _ (by
      refine lt_of_le_of_lt (List.length_filter_le _ _) (by decide)))
  have hlost : (thrOf t 0 0 2).block = .lock false 0 6 := hblock 2 (by decide) (by decide)
  have hbody : t = acqBody false wAcqL (slotted (bench coreL heldL) (ctxL wAcqL)) (ctxL wAcqL) :=
    eq_of_coreRow_issue hi (own := isRow 0x12 0 wAcqL) (by decide) (legal := legalLock 0 true wAcqL) (by decide) ht
  have hgrp := coreL_core heldL wAcqL
  have hword : Waits (slotted (bench coreL heldL) (ctxL wAcqL)) 0 (.ls 0) :=
    Waits.congr (s := bench coreL heldL) (by show nbit _ 0 = true; decide) (by rw [(slotted_onlyCore _ _).1]) (by rw [(slotted_onlyCore _ _).1])
  have hpoison : (slotted (bench coreL heldL) (ctxL wAcqL)).poison = [] := by rw [(slotted_onlyCore _ _).1]; rfl
  have hchk : ∀ th ∈ [2, 3], ∀ x, acqFault (slotted (bench coreL heldL) (ctxL wAcqL)) (ctxL wAcqL) th (.ls 0) x 0 = none ∧
      lockPoison (slotted (bench coreL heldL) (ctxL wAcqL)) 0 (.ls 0) x = none := by
    refine fun th hth x => ⟨coreL_free _ _ hth _ _ _ (by decide), ?_⟩
    unfold lockPoison
    rw [hpoison]
    rfl
  have htake : takesNow (slotted (bench coreL heldL) (ctxL wAcqL)) 0 [] (.ls 0) = false := by
    show (!nbit ((slotted (bench coreL heldL) (ctxL wAcqL)).word64 (lsAddr 0 + 0)) 0 && _) = false
    rw [show nbit ((slotted (bench coreL heldL) (ctxL wAcqL)).word64 (lsAddr 0 + 0)) 0 = true from hword]
    rfl
  have haddr : ∀ th ∈ [2, 3], lockAddr false (slotted (bench coreL heldL) (ctxL wAcqL)) (grpOf (slotted (bench coreL heldL) (ctxL wAcqL)) 0 0)
      (ctxL wAcqL) th = .ok (.ls 0) := by
    rw [hgrp]
    intro th hth
    have h' : th = 2 ∨ th = 3 := by simpa using hth
    rcases h' with rfl | rfl <;> rfl
  obtain ⟨u, hu, hug⟩ := acqBody_two (glob := false) (w := wAcqL) (i := ctxL wAcqL) (a := 2) (b := 3) rfl (by decide) (haddr 2 (by decide))
    (haddr 3 (by decide)) (hchk 2 (by decide)) (hchk 3 (by decide)) hword hword htake
  have hgroup : grpOf u 0 0 = lockedL (.lock false 0 6) := by
    refine hug.trans ?_
    rw [show grpOf (slotted _ _) (ctxL wAcqL).c (ctxL wAcqL).g = _ from hgrp]
    rfl
  exact coreL_opened (b := .lock false 0 6) nofun nofun hgroup (by decide) (hbody.trans hu) hlost


/-- The word that R4 and R5 name. -/
def homeWord : Nat := 0x101000000

theorem coreL_home {th : Nat} (ht : th ∈ [2, 3]) :
    lockAddr true (slotted (bench coreL []) (ctxL wAcqG)) (grpOf (slotted (bench coreL []) (ctxL wAcqG)) 0 0) (ctxL wAcqG) th =
      .ok (.dev homeWord) ∧ lockAddr true (bench coreL []) (grpOf (bench coreL []) 0 0) (ctxL wAcqG) th = .ok (.dev homeWord) := by
  have h' : th = 2 ∨ th = 3 := by simpa using ht
  rw [lockAddr_slotted, coreL_core]
  rcases h' with rfl | rfl <;> exact ⟨by rfl, by rfl⟩

/-- Refutes O13: LOCK.ACQ.G does not leave its thread blocked where two joins of the next PC open its set. -/
theorem not_globalLocks : ¬ Obligations.GlobalLocks := by
  unfold Obligations.GlobalLocks
  intro h
  have hi : Issues (bench coreL []) site1 wAcqG (codeRange (mBase wAcqG) 2) [] (ctxL wAcqG) :=
    bench_issues (by decide) rfl rfl (show 0 < 64 by decide)
  have haddr : ∀ th ∈ [2, 3], mGlobal (grpOf (bench coreL []) 0 0) (ctxL wAcqG) th = homeWord := by
    intro th hth
    have h' : th = 2 ∨ th = 3 := by simpa using hth
    rcases h' with rfl | rfl <;> rfl
  obtain ⟨hacq, -⟩ := h (bench coreL []) site1 wAcqG (ctxL wAcqG)
  obtain ⟨t, ht, -, -, -, hblock⟩ := hacq hi (by decide) (by decide)
    (fun th hth => by
      dsimp only
      rw [show mGlobal (grpOf (bench coreL []) (ctxL wAcqG).c (ctxL wAcqG).g) (ctxL wAcqG) th = homeWord from haddr th hth]
      exact ⟨(coreL_home hth).2, by rfl, rfl⟩)
    (fun th hth => coreL_free [] wAcqG hth _ _ _ (by decide))
  have hlost : (thrOf t 0 0 2).block = .lock true homeWord 6 := by
    obtain ⟨hb, -⟩ := hblock 2 (by decide)
    exact hb.trans (congrArg (fun a => Block.lock true a 6) (haddr 2 (by decide)))
  have hbody : t = acqBody true wAcqG (slotted (bench coreL []) (ctxL wAcqG)) (ctxL wAcqG) :=
    eq_of_coreRow_issue hi (own := isRow 0x12 1 wAcqG) (by decide) (legal := legalLock 1 true wAcqG) (by decide) ht
  have hgrp := coreL_core [] wAcqG
  have hpoison : (slotted (bench coreL []) (ctxL wAcqG)).poison = [] := by rw [(slotted_onlyCore _ _).1]; rfl
  have hword : Waits (slotted (bench coreL []) (ctxL wAcqG)) 0 (.dev homeWord) :=
    Waits.congr (s := bench coreL []) (by show addrModule homeWord = 0; decide) (by rw [(slotted_onlyCore _ _).1]) (by rw [(slotted_onlyCore _ _).1])
  have hchk : ∀ th ∈ [2, 3], ∀ x, acqFault (slotted (bench coreL []) (ctxL wAcqG)) (ctxL wAcqG) th (.dev homeWord) x 0 = none ∧
      lockPoison (slotted (bench coreL []) (ctxL wAcqG)) 0 (.dev homeWord) x = none := by
    refine fun th hth x => ⟨coreL_free _ _ hth _ _ _ (by decide), ?_⟩
    unfold lockPoison
    rw [hpoison]
    exact if_neg (by simp [isPoisoned])
  obtain ⟨u, hu, hug⟩ := acqBody_two (glob := true) (w := wAcqG) (i := ctxL wAcqG) (a := 2) (b := 3) rfl (by decide) (coreL_home (by decide)).1
    (coreL_home (by decide)).1 (hchk 2 (by decide)) (hchk 3 (by decide)) hword hword rfl
  have hgroup : grpOf u 0 0 = lockedL (.lock true homeWord 6) := by
    refine hug.trans ?_
    rw [show grpOf (slotted _ _) (ctxL wAcqG).c (ctxL wAcqG).g = _ from hgrp]
    rfl
  exact coreL_opened (b := .lock true homeWord 6) nofun nofun hgroup (by decide) (hbody.trans hu) hlost

end Sys2Proof.Machine
end

section
/-! SUPPORT. What an entry of the RAS log touches: registers, the log, interrupt messages and what is sent (R331, R465 to R468). -/
namespace Sys2Proof.Machine

/-- Nothing but registers, the RAS log, interrupt messages and what is sent differs. -/
def LogsOnly (s t : State) : Prop := t = { s with regs := t.regs, ras := t.ras, msix := t.msix, out := t.out }

theorem LogsOnly.rfl {s : State} : LogsOnly s s := by unfold LogsOnly; rfl

theorem LogsOnly.trans {a b c : State} (h : LogsOnly a b) (k : LogsOnly b c) : LogsOnly a c := by
  unfold LogsOnly at *; rw [k, h]

section
variable {s t : State} (h : LogsOnly s t)
include h
theorem LogsOnly.mem : t.mem = s.mem := by unfold LogsOnly at h; rw [h]
theorem LogsOnly.poison : t.poison = s.poison := by unfold LogsOnly at h; rw [h]
theorem LogsOnly.cores : t.cores = s.cores := by unfold LogsOnly at h; rw [h]
theorem LogsOnly.tasks : t.tasks = s.tasks := by unfold LogsOnly at h; rw [h]
theorem LogsOnly.llc : t.llc = s.llc := by unfold LogsOnly at h; rw [h]
theorem LogsOnly.still : Still s t := ⟨⟨h.mem, h.poison, h.cores, h.tasks⟩, h.llc⟩
end

theorem setReg_logsOnly (s : State) (o : Nat) (v : Word) : LogsOnly s (s.setReg o v) := by unfold LogsOnly; rfl
theorem setField_logsOnly (s : State) (o hi lo v : Nat) : LogsOnly s (s.setField o hi lo v) := by unfold LogsOnly; rfl

theorem sendMsix_logsOnly (s : State) (v : Nat) : LogsOnly s (sendMsix s v) := by
  unfold sendMsix
  split
  · exact .rfl
  · split <;> (unfold LogsOnly; rfl)

theorem rasLogT_logsOnly (s : State) (e : LogEv) (training : Bool) : LogsOnly s (rasLogT s e training) := by
  have entry : ∀ r : Ras, LogsOnly s { s with ras := r } := fun _ => by unfold LogsOnly; rfl
  have head : ∀ (u : State) (full : Bool) (v : Nat) (w : Word), LogsOnly u ((if full then u.setField rLogStat 15 0 v else u).setReg rLogHead w) := by
    intro u full v w
    cases full
    · exact setReg_logsOnly ..
    · exact (setField_logsOnly ..).trans (setReg_logsOnly ..)
  unfold rasLogT
  dsimp only
  split
  · exact (entry _).trans ((head _ _ _ _).trans ((setReg_logsOnly ..).trans (sendMsix_logsOnly ..)))
  · exact (entry _).trans (head _ _ _ _)

theorem rasLog_logsOnly (s : State) (e : LogEv) : LogsOnly s (rasLog s e) := rasLogT_logsOnly s e false

theorem countConsumed_logsOnly (s : State) (u a : Nat) : LogsOnly s (countConsumed s u a) := (setField_logsOnly ..).trans (rasLog_logsOnly ..)

theorem accessViolation_logsOnly (s : State) (iface off value : Nat) : LogsOnly s (accessViolation s iface off value) := rasLog_logsOnly ..

end Sys2Proof.Machine
end

section
/-! SUPPORT. Issues whose threads fault, and core faults (R137, R139, R140, R162, R170, R293, R303). -/
namespace Sys2Proof.Machine

/-- Registers of a core whose groups all keep theirs. -/
theorem regFrame_of_sameRegs {s t : State} {i : Ctx} (h : ∀ g, SameRegs (grpOf s i.c g) (grpOf t i.c g)) (code n p : Nat) : RegFrame s t i code n p := by
  refine ⟨fun g th r _ _ => ?_, fun g r _ _ => ?_, fun g th q _ _ => ?_⟩
  · unfold gprOf thrOf; rw [(h g).gpr]
  · unfold urfOf; rw [(h g).urf]
  · unfold predOf predVal thrOf; rw [(h g).preds]

/-! ## Every member faults -/

theorem causes_of_map {x : Cause} (hx : x.cause ≠ cPOISONED) (ts : List Nat) : ∀ p ∈ ts.map (fun t => (t, x)), p.2.cause ≠ cPOISONED := by
  intro p hp
  obtain ⟨a, -, rfl⟩ := List.mem_map.1 hp
  exact hx

/-- The members' fault ends the task FAULTED and changes no register of theirs and no memory. -/
theorem faultSet_members {s u : State} {i : Ctx} {th : Nat} {x : Cause} (hcase : SameCase s u i) (hregs : ∀ g, SameRegs (grpOf s i.c g) (grpOf u i.c g))
    (hmem : u.mem = s.mem) (hstop : ∀ k, coreTask s i.c = some k → k.stop = none) (hx : x.cause ≠ cPOISONED) (hth : i.members.head? = some th) :
    FaultedAs s (faultSet u i 0 (i.members.map (fun t => (t, x)))) i th x ∧
      RegFrame s (faultSet u i 0 (i.members.map (fun t => (t, x)))) i 0xC0 0 7 ∧ (faultSet u i 0 (i.members.map (fun t => (t, x)))).mem = s.mem := by
  obtain ⟨rest, hms⟩ : ∃ rest, i.members = th :: rest := by
    cases hm : i.members with
    | nil => rw [hm] at hth; cases hth
    | cons a rest => rw [hm] at hth; cases hth; exact ⟨rest, rfl⟩
  obtain ⟨ts, hts⟩ := faultSet_tasks u i 0 (i.members.map (fun t => (t, x))) (causes_of_map hx _)
  refine ⟨?_, ?_, by rw [hts, ← hmem]⟩
  · rw [hms, List.map_cons]
    exact faultSet_faultedFrom hcase hstop hx (by rw [hms]; simp)
  · rw [hts]
    exact regFrame_of_sameRegs hregs _ _ _

section
variable {s : State} {x : Site} {w : Word64} {regs preds : List Nat} {i : Ctx}

/-- A word without legal spelling faults every member. -/
theorem issue_illegal (h : Issues s x w regs preds i) (body : State → Ctx → State) :
    issue s x w regs preds false body = faultSet (slotted s i) i 0 (i.members.map (fun t => (t, ⟨cILLEGAL_INSTRUCTION, w.toNat, 0⟩))) := by
  obtain ⟨hctx, hpc, hpoison, herr⟩ := h
  unfold issue
  rw [hctx, herr]
  simp [arrayCheck, Nat.not_le.2 hpc, hpoison]

theorem issue_illegal_fails (h : Issues s x w regs preds i) (body : State → Ctx → State) {th : Nat} (hth : i.members.head? = some th) :
    FaultedAs s (issue s x w regs preds false body) i th ⟨cILLEGAL_INSTRUCTION, w.toNat, 0⟩ ∧
      RegFrame s (issue s x w regs preds false body) i 0xC0 0 7 ∧ (issue s x w regs preds false body).mem = s.mem := by
  obtain ⟨hrun, hstop⟩ := issueCtx_running h.1
  rw [issue_illegal h]
  exact faultSet_members (slotted_sameCase hrun) (slotted_regs s i) (by rw [(slotted_onlyCore s i).1]) hstop (show cILLEGAL_INSTRUCTION ≠ cPOISONED by decide) hth

/-- A PC outside the code section faults every member. -/
theorem issue_badTarget_fails (h : issueCtx s x w regs preds = some i) (herr : x.err = .none) (hpc : codeSize s i.c ≤ i.pc) (legal : Bool)
    (body : State → Ctx → State) {th : Nat} (hth : i.members.head? = some th) :
    FaultedAs s (issue s x w regs preds legal body) i th ⟨cBAD_TARGET, 0, 0⟩ ∧
      RegFrame s (issue s x w regs preds legal body) i 0xC0 0 7 ∧ (issue s x w regs preds legal body).mem = s.mem := by
  obtain ⟨hrun, hstop⟩ := issueCtx_running h
  have hissue : issue s x w regs preds legal body = faultSet (counted s i) i 0 (i.members.map (fun t => (t, ⟨cBAD_TARGET, 0, 0⟩))) := by
    unfold issue
    rw [h, herr]
    simp [arrayCheck, hpc]
  rw [hissue]
  exact faultSet_members (counted_sameCase hrun) (counted_regs s i) (by rw [(counted_onlyCore s i).1]) hstop (by decide) hth

/-! ## Active threads that fault -/

/-- The active threads that meet no fault, and those that do. -/
def oksOf (i : Ctx) (bad : Nat → Bool) : List Nat := i.active.filter (fun t => !bad t)
def badsOf (i : Ctx) (bad : Nat → Bool) : List Nat := i.active.filter bad

theorem runThreads_split {α : Type} (i : Ctx) (f : Nat → TRes α) (bad : Nat → Bool) (y : Cause) (e : Nat → α)
    (h : ∀ t ∈ i.active, f t = if bad t then .fault y else .ok (e t)) :
    runThreads i f = ((oksOf i bad).map (fun t => (t, e t)), (badsOf i bad).map (fun t => (t, y))) := by
  unfold runThreads oksOf badsOf
  generalize i.active = ts at h ⊢
  induction ts with
  | nil => rfl
  | cons a ts ih =>
    rw [List.foldr_cons, ih (fun t ht => h t (List.mem_cons_of_mem _ ht)), h a (List.mem_cons_self ..)]
    cases hb : bad a <;> simp [hb]

/-- The group after the effects of the listed threads. -/
def effOver (i : Ctx) (e : Nat → Eff) (ts : List Nat) (gr : Group) : Group := ts.foldl (fun gr t => applyEff i gr t (e t)) gr

theorem thr_effOver (i : Ctx) (e : Nat → Eff) {ts : List Nat} (nd : ts.Nodup) (gr : Group) (u : Nat) :
    thr (effOver i e ts gr) u = if u ∈ ts then effThread (e u) (thr gr u) else thr gr u :=
  foldl_thr _ (fun t => effThread (e t)) (fun gr t u => thr_applyEff i gr t (e t) u) _ nd gr u

theorem urf_effOver_of_not_head (i : Ctx) (e : Nat → Eff) (ts : List Nat) (gr : Group) (h : ∀ t ∈ ts, i.active.head? ≠ some t) :
    (effOver i e ts gr).urf = gr.urf := by
  unfold effOver
  induction ts generalizing gr with
  | nil => rfl
  | cons a ts ih =>
    rw [List.foldl_cons, ih _ (fun t ht => h t (List.mem_cons_of_mem _ ht)), urf_applyEff_of_not_head (h a (List.mem_cons_self ..))]

/-- The lowest active thread, when it is listed, leaves its words in the uniform registers. -/
theorem urf_effOver_of_head {i : Ctx} {e : Nat → Eff} {ts : List Nat} (nd : ts.Nodup) (gr : Group) {u : Nat} (hu : u ∈ ts) (hhead : i.active.head? = some u) :
    ∃ gr', (effOver i e ts gr).urf = (applyEff i gr' u (e u)).urf := by
  obtain ⟨as, bs, rfl⟩ := List.append_of_mem hu
  refine ⟨effOver i e as gr, ?_⟩
  have hsplit : effOver i e (as ++ u :: bs) gr = effOver i e bs (applyEff i (effOver i e as gr) u (e u)) := by
    unfold effOver; rw [List.foldl_append, List.foldl_cons]
  rw [hsplit, urf_effOver_of_not_head]
  intro t ht hh
  rw [hhead] at hh
  cases hh
  rw [List.nodup_append] at nd
  exact (List.nodup_cons.1 nd.2.1).1 ht

theorem writeReg_launch (gr : Group) (t code n v : Nat) : (writeReg gr t code n v).launch = gr.launch := by
  unfold writeReg
  dsimp only
  split
  · rfl
  · split <;> rfl

theorem applyEff_launch (i : Ctx) (gr : Group) (t : Nat) (e : Eff) : (applyEff i gr t e).launch = gr.launch := by
  obtain ⟨dst, pred, sr, nan⟩ := e
  have hpred : ∀ gr p b, (writePred gr t p b).launch = gr.launch := fun gr p b => by unfold writePred; split <;> rfl
  have hdst : ∀ code n v, (writeDst i gr t code n v).launch = gr.launch := fun code n v => by
    unfold writeDst
    split
    · rfl
    · exact writeReg_launch ..
  unfold applyEff
  dsimp only
  rw [apply_ite Group.launch, show ∀ (gr : Group) f, (modThr gr t f).launch = gr.launch from fun _ _ => rfl, ite_self]
  rcases dst with _ | ⟨code, n, v⟩ <;> rcases pred with _ | ⟨p, b⟩ <;> simp [hpred, hdst]

/-- A thread-by-thread instruction some of whose threads fault: the state before the faults are raised. -/
theorem perThread_split {u : State} (f : Group → Ctx → Nat → TRes Eff) {bad : Nat → Bool} {y : Cause} {e : Nat → Eff} (hu : Ready s u i)
    (hcase : SameCase s u i) (hrun : (s.core i.c).phase = .running)
    (hf : ∀ t ∈ i.active, f (grpOf u i.c i.g) i t = if bad t then .fault y else .ok (e t)) :
    ∃ v, perThread f u i = faultSet v i 0 ((badsOf i bad).map (fun t => (t, y))) ∧ SameCase s v i ∧ v.mem = s.mem ∧
      Moved s v i (effOver i e (oksOf i bad) (grpOf u i.c i.g)) (goOn i ((badsOf i bad).map (fun t => (t, y)))) (i.pc + 8) := by
  have hruns := runThreads_split i (f (grpOf u i.c i.g) i) bad y e hf
  have hphase : ∀ {v : State}, OnlyGroups s v i.c → (v.core i.c).phase = .running := fun h => by rw [onlyGroups_phase h, hrun]
  let v1 := u.modGrp i.c i.g (effOver i e (oksOf i bad))
  let v2 := addTaskCounter v1 i.c tcCvtNan ((oksOf i bad).foldl (fun n t => n + (e t).nan) 0)
  have hl : ∀ gr, (effOver i e (oksOf i bad) gr).launch = gr.launch := by
    intro gr
    unfold effOver
    generalize oksOf i bad = ts
    induction ts generalizing gr with
    | nil => rfl
    | cons a ts ih => rw [List.foldl_cons, ih, applyEff_launch]
  have hg1 : OnlyGroups s v1 i.c := hu.groups.trans (modGrp_onlyGroups ..)
  have hc1 : SameCase s v1 i := hcase.trans (modGrp_sameCase (hphase hu.groups) hl)
  have hg2 : OnlyGroups s v2 i.c := hg1.trans (addTaskCounter_onlyGroups ..)
  have hc2 : SameCase s v2 i := by
    refine hc1.trans ((addTaskCounter_onlyCore ..).sameCase (addTaskCounter_onlyGroups ..) (by rw [grpOf_addTaskCounter]) ?_)
    show CoresRun v1 (addTaskCounter v1 i.c tcCvtNan _)
    unfold addTaskCounter
    split
    · exact .rfl
    · exact modCore_coresRun _ _ (hphase hg1)
  refine ⟨advance v2 i (goOn i ((badsOf i bad).map (fun t => (t, y)))) (i.pc + 8), ?_, hc2.trans (advance_sameCase (hphase hg2) _ _), ?_, ?_⟩
  · unfold perThread
    dsimp only
    rw [show runThreads i (f (grp (u.core i.c) i.g) i) = _ from hruns]
    simp only [List.foldl_map]
    rfl
  · have hm : u.mem = s.mem := by rw [hu.core.1]
    show v2.mem = s.mem
    exact (congrArg State.mem (addTaskCounter_onlyCore v1 i.c tcCvtNan ((oksOf i bad).foldl (fun n t => n + (e t).nan) 0)).1).trans hm
  · refine advance_moved _ _ (fun g h => ?_) ?_
    · show SameRegs _ (grpOf (addTaskCounter v1 ..) i.c g)
      rw [grpOf_addTaskCounter, grpOf_modGrp, if_neg h]; exact hu.regs g
    · show SameRegs _ (grpOf (addTaskCounter v1 ..) i.c i.g)
      rw [grpOf_addTaskCounter, grpOf_modGrp, if_pos rfl]; exact .rfl

end

/-! ## Core faults -/

theorem setPhys_core (s : State) (l : Nat) (p : Option Nat) (c : Nat) : (s.setPhys l p).core c = s.core c := rfl

theorem refreshClcore_logsOnly (s : State) (cl : Nat) : LogsOnly s (refreshClcore s cl) := by
  unfold refreshClcore
  exact (setField_logsOnly ..).trans ((setField_logsOnly ..).trans ((setField_logsOnly ..).trans ((setField_logsOnly ..).trans (setField_logsOnly ..))))

/-- A core that leaves dispatch keeps its work; memory and tasks stay. -/
theorem leaveDispatch_keeps (s : State) (c : Nat) :
    ((leaveDispatch s c).core c).task = (s.core c).task ∧ (leaveDispatch s c).mem = s.mem ∧ (leaveDispatch s c).tasks = s.tasks := by
  have hsvc : ((s.modCore c (fun k => { k with svc := max k.svc 1 })).core c).task = (s.core c).task := by rw [core_modCore_same]
  unfold leaveDispatch
  dsimp only
  have hl := fun u : State => refreshClcore_logsOnly u (clusterOf c)
  refine ⟨?_, ?_, ?_⟩
  · unfold State.core; rw [(hl _).cores]; split <;> exact hsvc
  · rw [(hl _).mem]; split <;> rfl
  · rw [(hl _).tasks]; split <;> rfl

theorem modCoreTask_eq (s : State) (c : Nat) (f : Task → Task) : ∃ ts, s.modCoreTask c f = { s with tasks := ts } := by
  unfold State.modCoreTask State.modTask
  split
  · exact ⟨s.tasks, rfl⟩
  · split
    · exact ⟨s.tasks, rfl⟩
    · exact ⟨_, rfl⟩

/-- A core of a rank that faults stops with the code (R140). -/
theorem stopCore_stopped {s : State} {c : Nat} (h : (s.core c).task.isSome = true) (code : Nat) :
    ((stopCore s c code).core c).phase = .stopped ∧ ((stopCore s c code).core c).fault = code ∧ (stopCore s c code).mem = s.mem := by
  obtain ⟨ts, hts⟩ := modCoreTask_eq s c (giveWay s.clk.tick)
  unfold stopCore
  rw [if_pos h, core_modCore_same, hts]
  exact ⟨rfl, rfl, rfl⟩

theorem coreFault_stopped {s : State} {c : Nat} (h : (s.core c).task.isSome = true) (code : Nat) :
    ((coreFault s c code).core c).phase = .stopped ∧ ((coreFault s c code).core c).fault = code ∧ (coreFault s c code).mem = s.mem := by
  obtain ⟨htask, hmem, -⟩ := leaveDispatch_keeps (s.modCore c (fun k => { k with test := code })) c
  have hlog := fun e => rasLog_logsOnly (leaveDispatch (s.modCore c (fun k => { k with test := code })) c) e
  unfold coreFault
  dsimp only
  obtain ⟨hphase, hfault, hm⟩ := stopCore_stopped (s := rasLog (leaveDispatch (s.modCore c (fun k => { k with test := code })) c)
    (evTask (leaveDispatch (s.modCore c (fun k => { k with test := code })) c) c (logEv code (unitOf 4 c)
      (if decide (code < rasCoreFault) = true then gstat (leaveDispatch (s.modCore c (fun k => { k with test := code })) c) c
       else ((leaveDispatch (s.modCore c (fun k => { k with test := code })) c).reg (rClcore (clusterOf c))).toNat)))) (c := c) (by
    unfold State.core; rw [(hlog _).cores]
    show ((leaveDispatch _ c).core c).task.isSome = true
    rw [htask, core_modCore_same]; exact h) code
  exact ⟨hphase, hfault, by rw [hm, (hlog _).mem, hmem]; rfl⟩

end Sys2Proof.Machine
end

section
/-! SUPPORT. Precise faults, poisoned fetches and registers that cannot be corrected (R137, R149, R162, R293, R303). -/
namespace Sys2Proof.Machine

theorem coreRow_unlisted {own : Bool} {w : Word64} (h : listedWord w = false) (r : State) : coreRow own w r = .next r := by
  unfold coreRow wordOk; simp [h]

theorem isClass_listed {cls : Nat} {w : Word64} (h : isClass cls w = true) (hops : classOps cls = none) : listedWord w = true := by
  unfold isClass at h
  unfold listedWord
  simp only [Bool.and_eq_true, beq_iff_eq] at h ⊢
  obtain ⟨hcls, hfmt⟩ := h
  rw [hcls, hops]
  exact ⟨hfmt, rfl⟩

theorem isRow_listed {cls op n : Nat} {w : Word64} (h : isRow cls op w = true) (hops : classOps cls = some n) (hop : op < n) : listedWord w = true := by
  unfold isRow isClass at h
  unfold listedWord
  simp only [Bool.and_eq_true, beq_iff_eq] at h ⊢
  obtain ⟨⟨hcls, hfmt⟩, hop'⟩ := h
  rw [hcls, hops]
  exact ⟨hfmt, by simpa [hop'] using hop⟩

theorem isRow_of_unlisted {cls op n : Nat} {w : Word64} (h : listedWord w = false) (hops : classOps cls = some n) (hop : op < n) : isRow cls op w = false := by
  rw [Bool.eq_false_iff]
  intro hr
  rw [isRow_listed hr hops hop] at h
  cases h

/-- What a precise fault of the whole issue leaves. -/
def FailsAs (s : State) (i : Ctx) (th : Nat) (x : Cause) (o : Outcome) : Prop :=
  ∃ t, o = .next t ∧ FaultedAs s t i th x ∧ RegFrame s t i 0xC0 0 7 ∧ t.mem = s.mem

/-- The core of an issue has a task. -/
theorem issueCtx_hasTask {s : State} {x : Site} {w : Word64} {regs preds : List Nat} {i : Ctx} (h : issueCtx s x w regs preds = some i) :
    (s.core i.c).task.isSome = true := by
  obtain ⟨hc, _⟩ := issueCtx_members h
  unfold issueCtx at h
  dsimp only at h
  split at h
  · cases h
  · split at h
    next hcond =>
      obtain ⟨hissue, _⟩ := hcond
      rw [← hc] at hissue
      unfold coreIssues coreTask at hissue
      cases ht : (s.core i.c).task with
      | none => rw [ht] at hissue; simp at hissue
      | some n => rfl
    · cases h

section
variable {s : State} {x : Site} {w : Word64} {regs preds : List Nat} {i : Ctx} {th : Nat}

/-- An unlisted word is illegal in every row (R149). -/
theorem coreRow_unlisted_fails (h : Issues s x w [] [] i) (hth : i.members.head? = some th) (hw : listedWord w = false) {own legal : Bool}
    (hl : legal = false) (body : State → Ctx → State) :
    FailsAs s i th ⟨cILLEGAL_INSTRUCTION, w.toNat, 0⟩ (coreRow own w (issue s x w [] [] legal body)) := by
  subst hl
  exact ⟨_, coreRow_unlisted hw _, issue_illegal_fails h body hth⟩

theorem legalC_of_not_row {cls op : Nat} {id seg jv tgt : Bool} (h : isRow cls op w = false) : legalC cls op id seg jv tgt w = false := by
  unfold legalC; rw [h]; rfl

/-- A NOP with a reserved field set is illegal. -/
theorem legalNop_of_reserved (h : bits w 31 0 ≠ 0 ∨ bits w 47 40 ≠ 0) : legalC 0x15 0 false false false false w = false := by
  rw [Bool.eq_false_iff]
  intro hl
  unfold legalC cId cSeg cJv BitVec.getLsbD bits at hl
  unfold bits at h
  simp only [Bool.false_or, Bool.false_and, Bool.and_eq_true, beq_iff_eq, Bool.not_eq_true', Nat.testBit_eq_decide_div_mod_eq,
    decide_eq_false_iff_not, Nat.shiftRight_eq_div_pow] at hl h
  norm_num at hl h
  omega

/-- MOVI to a field that names no register faults every active thread (R142). -/
theorem movi_fails (h : Issues s x w [] [] i) (hth : i.active.head? = some th) (hrow : isRow 0x0D 0 w = true) (hdst : dstOk (bDst w) 1 = false) :
    FailsAs s i th ⟨cILLEGAL_OPERAND, 0, 0⟩ (exec (.moviMov x w) s) := by
  obtain ⟨hrun, hstop⟩ := issueCtx_running h.1
  obtain ⟨-, -, -, -, nd, hsub⟩ := issueCtx_members h.1
  obtain ⟨v, hv, hcase, hmem, hmoved⟩ := perThread_split (i := i) (bad := fun _ => true) (y := ⟨cILLEGAL_OPERAND, 0, 0⟩) (e := fun _ => regEff 0 0 0)
    (fun _ _ _ => withRegs [] (some (bDst w, 1)) (.ok (regEff (bDst w) 1 (bImm w).toNat))) (slotted_ready s i) (slotted_sameCase hrun) hrun
    (fun t _ => by simp [withRegs, hdst, illOperand])
  have hoks : oksOf i (fun _ => true) = [] := by simp [oksOf]
  have hbads : badsOf i (fun _ => true) = i.active := by simp [badsOf]
  rw [hbads] at hv
  rw [hoks, show effOver i (fun _ => regEff 0 0 0) [] (grpOf (slotted s i) i.c i.g) = grpOf (slotted s i) i.c i.g from rfl] at hmoved
  obtain ⟨rest, hact⟩ : ∃ rest, i.active = th :: rest := by
    cases hm : i.active with
    | nil => rw [hm] at hth; cases hth
    | cons a rest => rw [hm] at hth; cases hth; exact ⟨rest, rfl⟩
  have hlen : rest.length < i.members.length := by
    have := (List.Nodup.subperm nd hsub).length_le
    rw [hact, List.length_cons] at this
    omega
  obtain ⟨ts, hts⟩ := faultSet_tasks v i 0 (i.active.map (fun t => (t, ⟨cILLEGAL_OPERAND, 0, 0⟩))) (causes_of_map (by decide) _)
  refine ⟨faultSet v i 0 (i.active.map (fun t => (t, ⟨cILLEGAL_OPERAND, 0, 0⟩))), ?_, ?_, ?_, by rw [hts, ← hmem]⟩
  · rw [← hv]
    show execMoviMov x w s = _
    unfold execMoviMov coreRow wordOk
    rw [hrow, issue_legal h]
    rfl
  · rw [hact, List.map_cons]
    exact faultSet_faultedFrom hcase hstop (by decide) (by simpa using hlen)
  · rw [hts]
    have hgr := slotted_regs s i i.g
    exact hmoved.regFrame (fun u r _ _ => by rw [hgr.gpr]; rfl) (fun r _ _ => by rw [hgr.urf]; rfl)
      (fun u q _ _ => by unfold predVal predOf predVal thrOf; rw [hgr.preds])

/-- IDIV: zero divisors fault, the other active threads get their results (R137, R156). -/
theorem idiv_splits (op : IdivOp) (h : Issues s x w [aSrcA w, aSrcB w] [] i) (hw : legalA 0x01 [3, 4] w = true)
    (ha : srcOk (aSrcA w) 1 = true) (hb : srcOk (aSrcB w) 1 = true) (hd : dstOk (aDst w) 1 = true)
    (hth : (i.active.filter (fun u => srcOf s i u (aSrcB w) == 0)).head? = some th) :
    ∃ t, exec (.idiv x (some op) w) s = .next t ∧ FaultedAs s t i th ⟨cINT_DIV_ZERO, 0, 0⟩ ∧ t.mem = s.mem ∧
      (∀ u ∈ i.active, srcOf s i u (aSrcB w) = 0 → ∀ r, r < 0x80 → gprOf t i.c i.g u r = gprOf s i.c i.g u r) ∧
      (∀ u ∈ i.active, srcOf s i u (aSrcB w) ≠ 0 →
        ThreadHolds t i u (aDst w) 1 (idivOp op (aType w == 3) (srcOf s i u (aSrcA w)) (srcOf s i u (aSrcB w))).toNat) := by
  obtain ⟨hrun, hstop⟩ := issueCtx_running h.1
  obtain ⟨-, -, -, -, nd, hsub⟩ := issueCtx_members h.1
  have hgr := slotted_regs s i i.g
  have hsrc : ∀ t c, readReg (grpOf (slotted s i) i.c i.g) i.mask t c = srcOf s i t c := fun t c => readReg_of_sameRegs hgr ..
  let res := fun t => (idivOp op (aType w == 3) (srcOf s i t (aSrcA w)) (srcOf s i t (aSrcB w))).toNat
  obtain ⟨v, hv, hcase, hmem, hmoved⟩ := perThread_split (i := i) (bad := fun u => srcOf s i u (aSrcB w) == 0) (y := ⟨cINT_DIV_ZERO, 0, 0⟩)
    (e := fun t => regEff (aDst w) 1 (res t))
    (fun gr i t => withRegs [(aSrcA w, 1), (aSrcB w, 1)] (some (aDst w, 1))
      (if readReg gr i.mask t (aSrcB w) = 0 then .fault ⟨cINT_DIV_ZERO, 0, 0⟩
       else .ok (regEff (aDst w) 1 (idivOp op (aType w == 3) (readReg gr i.mask t (aSrcA w)) (readReg gr i.mask t (aSrcB w))).toNat)))
    (slotted_ready s i) (slotted_sameCase hrun) hrun
    (fun t _ => by
      rw [withRegs_ok (by simp [ha, hb]) (by simp [hd]), hsrc, hsrc]
      simp only [beq_iff_eq]
      rfl)
  obtain ⟨rest, hbads⟩ : ∃ rest, badsOf i (fun u => srcOf s i u (aSrcB w) == 0) = th :: rest := by
    unfold badsOf
    cases hm : i.active.filter (fun u => srcOf s i u (aSrcB w) == 0) with
    | nil => rw [hm] at hth; cases hth
    | cons a rest => rw [hm] at hth; cases hth; exact ⟨rest, rfl⟩
  have hlen : rest.length < i.members.length := by
    have h1 := (List.Nodup.subperm nd hsub).length_le
    have h2 : (th :: rest).length ≤ i.active.length := by rw [← hbads]; exact List.length_filter_le _ _
    rw [List.length_cons] at h2
    omega
  have ndo : (oksOf i (fun u => srcOf s i u (aSrcB w) == 0)).Nodup := nd.filter _
  have hmemOks : ∀ {u}, u ∈ oksOf i (fun u => srcOf s i u (aSrcB w) == 0) ↔ u ∈ i.active ∧ srcOf s i u (aSrcB w) ≠ 0 := by
    intro u; simp [oksOf]
  rw [hbads] at hv
  obtain ⟨ts, hts⟩ := faultSet_tasks v i 0 ((th :: rest).map (fun t => (t, ⟨cINT_DIV_ZERO, 0, 0⟩))) (causes_of_map (by decide) _)
  refine ⟨faultSet v i 0 ((th :: rest).map (fun t => (t, ⟨cINT_DIV_ZERO, 0, 0⟩))), ?_, ?_, by rw [hts, ← hmem], ?_, ?_⟩
  · rw [← hv]
    show execIdiv x (some op) w s = _
    unfold execIdiv coreRow wordOk
    rw [isClass_of_legalA hw, hw]
    simp only [Option.isSome_some, Bool.and_self, issue_legal h]
    rfl
  · rw [List.map_cons]
    exact faultSet_faultedFrom hcase hstop (by decide) (by simpa using hlen)
  · intro u _ hzero r _
    rw [hts]
    show tget 0 (thrOf v i.c i.g u).gpr r = _
    rw [hmoved.gpr, thr_effOver i _ ndo, if_neg (fun hu => (hmemOks.1 hu).2 hzero), hgr.gpr]
    rfl
  · intro u hu hne
    have hin := hmemOks.2 ⟨hu, hne⟩
    have hwr := regEff_writes (aDst w) 1 (res u) true
    rw [hts]
    refine ⟨fun hc j hj => ?_, fun h1 h2 hhead j hj => ?_⟩
    · show tget 0 (thrOf v i.c i.g u).gpr _ = _
      rw [hmoved.gpr, thr_effOver i _ ndo, if_pos hin, hwr.thread, drawThread_gpr, predThread_gpr, regThread_gpr_get _ hc hj]
    · show tget 0 (grpOf v i.c i.g).urf _ = _
      obtain ⟨gr', hgr'⟩ := urf_effOver_of_head (e := fun t => regEff (aDst w) 1 (res t)) ndo (grpOf (slotted s i) i.c i.g) hin hhead
      rw [hmoved.urf, hgr', hwr.urf, urf_writeDst_get h1 h2 hhead hj]

/-- A fetch that meets poison stops the core of a rank that has not replayed (R303, R304). -/
theorem issue_poisoned_stops (h : issueCtx s x w regs preds = some i) (herr : x.err = .none) (hpc : i.pc < codeSize s i.c) {a : Nat}
    (hpoison : fetchPoison s i = some a) (hms : i.members ≠ []) {k : Task} (hk : coreTask s i.c = some k) (hrep : k.replays = 0) (legal : Bool)
    (body : State → Ctx → State) :
    ((issue s x w regs preds legal body).core i.c).phase = .stopped ∧ ((issue s x w regs preds legal body).core i.c).fault = cPOISONED ∧
      (issue s x w regs preds legal body).mem = s.mem := by
  obtain ⟨hrun, -⟩ := issueCtx_running h
  let u := countConsumed (counted s i) (addrUnit s i.c a) a
  have hlog : LogsOnly (counted s i) u := countConsumed_logsOnly ..
  have hcore : u.core i.c = (counted s i).core i.c := by unfold State.core; rw [hlog.cores]
  have hcase := counted_sameCase (i := i) hrun
  have htask : coreTask u i.c = some k := by
    have : coreTask u i.c = coreTask (counted s i) i.c := by unfold coreTask State.task; rw [hcore, hlog.tasks]
    rw [this, hcase.coreTask, hk]
  have hissue : issue s x w regs preds legal body = faultSet u i 0 (i.members.map (fun t => (t, ⟨cPOISONED, 0, 0⟩))) := by
    unfold issue
    rw [h, herr]
    simp [arrayCheck, Nat.not_le.2 hpc, hpoison]
    rfl
  have hphase : (u.core i.c).phase = .running := by rw [hcore, onlyGroups_phase (counted_onlyGroups s i), hrun]
  have hraise : ∀ th, raiseFault u i.c (threadRec u i.c i.g th i.pc 0 ⟨cPOISONED, 0, 0⟩) =
      u.modCore i.c (fun k => { k with phase := .stopped, fault := cPOISONED, faultAt := u.clk.tick }) := by
    intro th
    have hheld : replayHeld (u.core i.c) = false := by unfold replayHeld; rw [hphase]; rfl
    unfold raiseFault rankFault
    rw [show (threadRec u i.c i.g th i.pc 0 ⟨cPOISONED, 0, 0⟩).cause = cPOISONED from rfl, if_pos rfl, htask]
    simp [hheld, hrep]
  obtain ⟨th, rest, hcons⟩ := List.exists_cons_of_ne_nil hms
  have hm : u.mem = s.mem := by rw [hlog.mem, (counted_onlyCore s i).1]
  rw [hissue, hcons, List.map_cons]
  unfold faultSet
  dsimp only
  rw [hraise]
  have hstopped : ((u.modCore i.c (fun k => { k with phase := .stopped, fault := cPOISONED, faultAt := u.clk.tick })).core i.c).phase = .stopped ∧
      ((u.modCore i.c (fun k => { k with phase := .stopped, fault := cPOISONED, faultAt := u.clk.tick })).core i.c).fault = cPOISONED := by
    rw [core_modCore_same]; exact ⟨rfl, rfl⟩
  obtain ⟨hp, hf⟩ := hstopped
  split
  · exact ⟨hp, hf, hm⟩
  · obtain ⟨ts, hts⟩ := countFurther_tasks (u.modCore i.c (fun k => { k with phase := .stopped, fault := cPOISONED, faultAt := u.clk.tick })) i.c
      (rest.map (fun t => (t, (⟨cPOISONED, 0, 0⟩ : Cause)))).length
    rw [hts]
    exact ⟨hp, hf, hm⟩

/-- A register that cannot be corrected stops the core (R293). -/
theorem issue_regUe_stops (h : issueCtx s x w regs preds = some i) (herr : x.err = .regUe) (legal : Bool) (body : State → Ctx → State) :
    ((issue s x w regs preds legal body).core i.c).phase = .stopped ∧ ((issue s x w regs preds legal body).core i.c).fault = rasCoreFault ∧
      (issue s x w regs preds legal body).mem = s.mem := by
  have hissue : issue s x w regs preds legal body = coreFault s i.c rasCoreFault := by
    unfold issue
    rw [h, herr]
    rfl
  rw [hissue]
  exact coreFault_stopped (issueCtx_hasTask h) _

end

/-- Settles O7: each kind of fault by what `issue` and the thread-by-thread body do with it. -/
theorem threadsFaultPrecisely : Obligations.ThreadsFaultPrecisely := by
  unfold Obligations.ThreadsFaultPrecisely
  intro s x w i
  refine ⟨fun th hth h => ⟨fun hw c hc => ?_, fun hrow hbits => ?_⟩, fun th hth h herr hpc hrow => ?_, fun th hth h hrow hdst => ?_,
    fun op th h hw ha hb hd hth => idiv_splits op h hw ha hb hd hth, fun k a h herr hpc hpoison hms hk hrep hrow => ?_, fun h herr hrow => ?_⟩
  · have hnot : ∀ {cls op n}, classOps cls = some n → op < n → isRow cls op w = false := fun hops hop => isRow_of_unlisted hw hops hop
    have fails : ∀ {own legal : Bool} (body : State → Ctx → State), legal = false →
        FailsAs s i th ⟨cILLEGAL_INSTRUCTION, w.toNat, 0⟩ (coreRow own w (issue s x w [] [] legal body)) :=
      fun body hl => coreRow_unlisted_fails h hth hw hl body
    simp only [List.mem_cons, List.not_mem_nil, or_false] at hc
    rcases hc with rfl | rfl | rfl | rfl | rfl | rfl | rfl | rfl | rfl
    · exact fails _ (legalC_of_not_row (hnot rfl (by decide)))
    · exact fails _ (legalC_of_not_row (hnot rfl (by decide)))
    · exact fails _ (legalC_of_not_row (hnot rfl (by decide)))
    · exact fails _ (legalC_of_not_row (hnot rfl (by decide)))
    · exact fails _ (legalC_of_not_row (hnot rfl (by decide)))
    · exact fails _ (hnot rfl (by decide))
    · exact fails _ (by rw [legalC_of_not_row (hnot rfl (by decide))]; rfl)
    · exact fails _ (by unfold legalFence legalM; rw [hnot rfl (by decide)]; rfl)
    · exact fails _ (by rw [hnot rfl (by decide)]; rfl)
  · refine ⟨_, ?_, issue_illegal_fails h (fun s i => advance s i i.members (i.pc + 8)) hth⟩
    show execNop x w s = _
    unfold execNop coreRow wordOk
    rw [hrow, legalNop_of_reserved hbits]
    rfl
  · refine ⟨_, ?_, issue_badTarget_fails h herr hpc (legalC 0x15 0 false false false false w) (fun s i => advance s i i.members (i.pc + 8)) hth⟩
    show execNop x w s = _
    unfold execNop coreRow wordOk
    rw [hrow]
    rfl
  · exact movi_fails h hth hrow hdst
  · refine ⟨_, ?_, issue_poisoned_stops h herr hpc hpoison hms hk hrep (legalC 0x15 0 false false false false w) (fun s i => advance s i i.members (i.pc + 8))⟩
    show execNop x w s = _
    unfold execNop coreRow wordOk
    rw [hrow]
    rfl
  · refine ⟨_, ?_, issue_regUe_stops h herr (legalC 0x15 0 false false false false w) (fun s i => advance s i i.members (i.pc + 8))⟩
    show execNop x w s = _
    unfold execNop coreRow wordOk
    rw [hrow]
    rfl

end Sys2Proof.Machine
end

section
/-! SUPPORT. Branches: each thread goes to its own PC, and nothing but PCs changes (R112, R114, R161). -/
namespace Sys2Proof.Machine

theorem codeSize_slotted (s : State) (i : Ctx) : codeSize (slotted s i) i.c = codeSize s i.c := by
  have hprog : (slotted s i).programs = s.programs := by rw [(slotted_onlyCore s i).1]
  unfold codeSize State.program
  rw [slotted_coreTask, hprog]

theorem inCode_slotted (s : State) (i : Ctx) (pc : Int) : inCode (slotted s i) i.c pc = inCode s i.c pc := by
  unfold inCode; rw [codeSize_slotted]

/-- A thread without its block and its PC. -/
def pcless (t : Thread) : Thread := { unblocked t with pc := 0 }

theorem gpr_of_pcless {a b : Thread} (h : pcless a = pcless b) : a.gpr = b.gpr := show (pcless a).gpr = (pcless b).gpr by rw [h]
theorem preds_of_pcless {a b : Thread} (h : pcless a = pcless b) : a.preds = b.preds := show (pcless a).preds = (pcless b).preds by rw [h]
theorem pcless_of_unblocked {a b : Thread} (h : unblocked a = unblocked b) : pcless a = pcless b := congrArg (fun t => { t with pc := 0 }) h
theorem pc_of_unblocked {a b : Thread} (h : unblocked a = unblocked b) : a.pc = b.pc := show (unblocked a).pc = (unblocked b).pc by rw [h]

/-- The two groups differ in PCs, blocks and sets alone. -/
structure SameButPcs (a b : Group) : Prop where
  launch : b.launch = a.launch
  urf : b.urf = a.urf
  thrs : ∀ t, pcless (thr b t) = pcless (thr a t)

theorem SameRegs.butPcs {a b : Group} (h : SameRegs a b) : SameButPcs a b := ⟨h.launch, h.urf, fun t => pcless_of_unblocked (h.thrs t)⟩

theorem SameButPcs.trans {a b c : Group} (h : SameButPcs a b) (k : SameButPcs b c) : SameButPcs a c :=
  ⟨k.launch.trans h.launch, k.urf.trans h.urf, fun t => (k.thrs t).trans (h.thrs t)⟩

theorem regFrame_of_butPcs {s t : State} {i : Ctx} (h : ∀ g, SameButPcs (grpOf s i.c g) (grpOf t i.c g)) (code n p : Nat) : RegFrame s t i code n p := by
  refine ⟨fun g th r _ _ => ?_, fun g r _ _ => ?_, fun g th q _ _ => ?_⟩
  · unfold gprOf thrOf; rw [gpr_of_pcless ((h g).thrs th)]
  · unfold urfOf; rw [(h g).urf]
  · unfold predOf predVal thrOf; rw [preds_of_pcless ((h g).thrs th)]

/-- A branch: from state `u` the group goes to `gr`, in which only PCs differ, and settles. -/
theorem branch_keeps {s u : State} {i : Ctx} {f : Group → Group} (hu : Ready s u i) (hf : SameButPcs (grpOf u i.c i.g) (f (grpOf u i.c i.g))) :
    let t := u.modGrp i.c i.g (fun gr => normGroup (f gr))
    RegFrame s t i 0xC0 0 7 ∧ OnlyCore s t i.c ∧ OnlyGroups s t i.c ∧
      ∀ th, (thrOf t i.c i.g th).pc = (thr (f (grpOf u i.c i.g)) th).pc := by
  refine ⟨regFrame_of_butPcs (fun g => ?_) _ _ _, hu.core.trans (modGrp_onlyCore ..), hu.groups.trans (modGrp_onlyGroups ..), fun th => ?_⟩
  · rw [grpOf_modGrp]
    split
    next h => subst h; exact (hu.regs _).butPcs.trans (hf.trans (SameRegs.normGroup _).butPcs)
    · exact (hu.regs g).butPcs
  · unfold thrOf
    rw [grpOf_modGrp, if_pos rfl]
    exact (SameRegs.normGroup _).pc th

theorem countCore_ready {s u : State} {i : Ctx} (hu : Ready s u i) (code n : Nat) (a : Option Nat) : Ready s (countCore u i.c code n a) i := by
  obtain ⟨p, hp⟩ := countCore_pmc u i.c code n a
  rw [hp]
  exact ⟨hu.regs, hu.core.trans ⟨rfl, fun _ _ => rfl⟩, hu.groups⟩

/-- PCs of listed threads. -/
theorem thr_modThrs_pc (gr : Group) (ts : List Nat) (pc u : Nat) :
    thr (modThrs gr ts (fun _ t => { t with pc := pc })) u = if u ∈ ts then { thr gr u with pc := pc } else thr gr u :=
  thr_modThrs gr ts (fun t => { t with pc := pc }) (fun _ => rfl) u

theorem modThrs_pc_butPcs (gr : Group) (ts : List Nat) (pc : Nat) : SameButPcs gr (modThrs gr ts (fun _ t => { t with pc := pc })) := by
  refine ⟨modThrs_launch .., modThrs_urf .., fun t => ?_⟩
  rw [thr_modThrs_pc]
  split <;> rfl

/-- The group of a branch whose active threads go to `to_`, and the others to `next` (R112). -/
def branchGroup (gr : Group) (act rest : List Nat) (to_ next : Nat) : Group :=
  modThrs (modThrs gr act (fun _ t => { t with pc := to_ })) rest (fun _ t => { t with pc := next })

theorem branchGroup_butPcs (gr : Group) (act rest : List Nat) (to_ next : Nat) : SameButPcs gr (branchGroup gr act rest to_ next) :=
  (modThrs_pc_butPcs ..).trans (modThrs_pc_butPcs ..)

theorem branchGroup_pc {gr : Group} {act rest : List Nat} {to_ next u : Nat} :
    (thr (branchGroup gr act rest to_ next) u).pc = if u ∈ rest then next else if u ∈ act then to_ else (thr gr u).pc := by
  unfold branchGroup
  rw [thr_modThrs_pc, thr_modThrs_pc]
  split
  · rfl
  · split <;> rfl

/-- The members without a true guard. -/
def passive (i : Ctx) : List Nat := i.members.filter (fun t => !i.active.contains t)

theorem mem_passive {i : Ctx} {th : Nat} : th ∈ passive i ↔ th ∈ i.members ∧ th ∉ i.active := by
  simp [passive]

/-- The group with the joining point of a taken branch that splits its set (R112). -/
def joinPushed (w : Word64) (i : Ctx) (push : Bool) (gr : Group) : Group :=
  if push = true ∧ gr.joins.length < 8 then { gr with joins := ⟨(((i.pc : Int) + 8 * cJoin w) % 2 ^ 32).toNat, i.mask⟩ :: gr.joins } else gr

theorem thr_joinPushed (w : Word64) (i : Ctx) (push : Bool) (gr : Group) (th : Nat) : thr (joinPushed w i push gr) th = thr gr th := by
  unfold joinPushed; split <;> rfl

theorem joinPushed_butPcs (w : Word64) (i : Ctx) (push : Bool) (gr : Group) : SameButPcs gr (joinPushed w i push gr) := by
  refine ⟨?_, ?_, fun th => by rw [thr_joinPushed]⟩ <;> (unfold joinPushed; split <;> rfl)

theorem isRow_of_legalC {cls op : Nat} {id seg jv tgt : Bool} {w : Word64} (h : legalC cls op id seg jv tgt w = true) : isRow cls op w = true := by
  unfold legalC at h
  simp only [Bool.and_eq_true] at h
  obtain ⟨⟨⟨⟨⟨⟨hrow, -⟩, -⟩, -⟩, -⟩, -⟩, -⟩ := h
  exact hrow

/-- A legal word of format C is its row's own. -/
theorem coreRow_legalC {s : State} {x : Site} {w : Word64} {regs preds : List Nat} {i : Ctx} (h : Issues s x w regs preds i) {cls op : Nat}
    {id seg jv tgt : Bool} (hl : legalC cls op id seg jv tgt w = true) (body : State → Ctx → State) :
    coreRow (isRow cls op w) w (issue s x w regs preds (legalC cls op id seg jv tgt w) body) = .next (body (slotted s i) i) := by
  rw [isRow_of_legalC hl, hl, issue_legal h]; rfl

/-- PCs of their own for the listed threads. -/
theorem foldl_pcs_butPcs (ts : List Nat) (v : Nat → Nat) (gr : Group) :
    SameButPcs gr (ts.foldl (fun gr t => modThr gr t (fun th => { th with pc := v t })) gr) := by
  induction ts generalizing gr with
  | nil => exact ⟨rfl, rfl, fun _ => rfl⟩
  | cons a ts ih =>
    have hone : SameButPcs gr (modThr gr a (fun th => { th with pc := v a })) := by
      refine ⟨rfl, rfl, fun u => ?_⟩
      rw [thr_modThr]
      split
      next h => subst h; rfl
      · rfl
    exact hone.trans (ih _)

theorem thr_foldl_pcs {ts : List Nat} (nd : ts.Nodup) (v : Nat → Nat) (gr : Group) (u : Nat) :
    thr (ts.foldl (fun gr t => modThr gr t (fun th => { th with pc := v t })) gr) u = if u ∈ ts then { thr gr u with pc := v u } else thr gr u :=
  foldl_thr _ (fun t th => { th with pc := v t }) (fun gr t u => thr_modThr gr t u _) _ nd gr u

/-- Where BRX sends a thread. -/
def brxTo (s : State) (i : Ctx) (w : Word64) (t : Nat) : Nat := (srcOf s i t (cReg w)).toNat

/-- Whether that is no instruction of the code section. -/
def brxBad (s : State) (i : Ctx) (w : Word64) (t : Nat) : Bool := brxTo s i w t % 8 != 0 || decide (codeSize s i.c ≤ brxTo s i w t)

/-- The group after BRX. -/
def brxGroup (s : State) (i : Ctx) (w : Word64) (gr : Group) : Group :=
  modThrs ((oksOf i (brxBad s i w)).foldl (fun gr t => modThr gr t (fun th => { th with pc := brxTo s i w t })) gr) (passive i)
    (fun _ t => { t with pc := i.pc + 8 })

theorem brxGroup_butPcs (s : State) (i : Ctx) (w : Word64) (gr : Group) : SameButPcs gr (brxGroup s i w gr) :=
  (foldl_pcs_butPcs ..).trans (modThrs_pc_butPcs ..)

section
variable {s : State} {x : Site} {w : Word64} {i : Ctx} {regs preds : List Nat}

/-- The lowest of the threads that fault with `y` is recorded. -/
theorem faultedAs_of_list {u : State} (h : issueCtx s x w regs preds = some i) (hcase : SameCase s u i) (hmem : u.mem = s.mem) {y : Cause} (hy : y.cause ≠ cPOISONED)
    {ts : List Nat} (hts : ts.Sublist i.active) {th : Nat} (hth : ts.head? = some th) :
    FaultedAs s (faultSet u i 0 (ts.map (fun t => (t, y)))) i th y ∧ (faultSet u i 0 (ts.map (fun t => (t, y)))).mem = s.mem := by
  obtain ⟨-, hstop⟩ := issueCtx_running h
  obtain ⟨-, -, -, -, nd, hsub⟩ := issueCtx_members h
  have hlen : ts.length ≤ i.members.length := hts.length_le.trans (List.Nodup.subperm nd hsub).length_le
  obtain ⟨us, hus⟩ := faultSet_tasks u i 0 (ts.map (fun t => (t, y))) (causes_of_map hy _)
  cases ts with
  | nil => cases hth
  | cons a rest =>
    obtain rfl : a = th := by simpa using hth
    rw [List.length_cons] at hlen
    refine ⟨?_, by rw [hus, ← hmem]⟩
    rw [List.map_cons]
    exact faultSet_faultedFrom hcase hstop hy (by simpa using hlen)

theorem bra_taken (h : Issues s x w [] [] i) (hl : legalC 0x14 0 false false true true w = true) (h0 : 0 ≤ (i.pc + 8 * cTgt w : Int))
    (hsize : (i.pc + 8 * cTgt w : Int) < codeSize s i.c) :
    ∃ t, exec (.bra x w) s = .next t ∧ (RegFrame s t i 0xC0 0 7 ∧ OnlyCore s t i.c ∧ OnlyGroups s t i.c) ∧
      (∀ th ∈ i.active, (thrOf t i.c i.g th).pc = (i.pc + 8 * cTgt w : Int).toNat) ∧
      ∀ th ∈ i.members, th ∉ i.active → (thrOf t i.c i.g th).pc = i.pc + 8 := by
  have hin : inCode (slotted s i) i.c (i.pc + 8 * cTgt w) = true := by
    rw [inCode_slotted]; unfold inCode; exact decide_eq_true ⟨h0, hsize⟩
  have hready := countCore_ready (slotted_ready s i) 0x12 (if !(passive i).isEmpty && !i.active.isEmpty then 1 else 0) none
  obtain ⟨hframe, hcore, hgroups, hpc⟩ := branch_keeps hready
    (f := fun gr => joinPushed w i (cJv w && (!(passive i).isEmpty && !i.active.isEmpty))
      (branchGroup gr i.active (passive i) (i.pc + 8 * cTgt w : Int).toNat (i.pc + 8)))
    ((branchGroup_butPcs ..).trans (joinPushed_butPcs ..))
  refine ⟨_, ?_, ⟨hframe, hcore, hgroups⟩, fun th hth => ?_, fun th hth hnot => ?_⟩
  · refine (coreRow_legalC h hl _).trans ?_
    dsimp only
    rw [hin]
    rfl
  · rw [hpc, thr_joinPushed, branchGroup_pc, if_neg (fun hp => (mem_passive.1 hp).2 hth), if_pos hth]
  · rw [hpc, thr_joinPushed, branchGroup_pc, if_pos (mem_passive.2 ⟨hth, hnot⟩)]

theorem bra_fails (h : Issues s x w [] [] i) (hl : legalC 0x14 0 false false true true w = true)
    (hout : ¬ (0 ≤ (i.pc + 8 * cTgt w : Int) ∧ (i.pc + 8 * cTgt w : Int) < codeSize s i.c)) {th : Nat} (hth : i.active.head? = some th) :
    ∃ t, exec (.bra x w) s = .next t ∧ FaultedAs s t i th ⟨cBAD_TARGET, 0, 0⟩ ∧ t.mem = s.mem := by
  obtain ⟨hrun, -⟩ := issueCtx_running h.1
  have hin : inCode (slotted s i) i.c (i.pc + 8 * cTgt w) = false := by
    rw [inCode_slotted]; unfold inCode; exact decide_eq_false hout
  have hact : i.active.isEmpty = false := by
    cases ha : i.active with
    | nil => rw [ha] at hth; cases hth
    | cons a l => rfl
  have hcase : SameCase s (advance (slotted s i) i (goOn i (i.active.map (fun t => (t, (⟨cBAD_TARGET, 0, 0⟩ : Cause))))) (i.pc + 8)) i :=
    (slotted_sameCase hrun).trans (advance_sameCase (by rw [onlyGroups_phase (slotted_onlyGroups s i), hrun]) _ _)
  refine ⟨_, ?_, faultedAs_of_list h.1 hcase (by show (slotted s i).mem = s.mem; rw [(slotted_onlyCore s i).1]) (by decide) (List.Sublist.refl _) hth⟩
  refine (coreRow_legalC h hl _).trans ?_
  dsimp only
  rw [hin, hact]
  rfl

/-- The body of BRX on a state whose slot is counted. -/
theorem brx_next (h : Issues s x w [cReg w] [] i) (hl : legalC 0x14 1 false false false false w = true) (hsrc : srcOk (cReg w) 1 = true) :
    ∃ n, exec (.brx x w) s = .next (faultSet ((countCore (slotted s i) i.c 0x12 n none).modGrp i.c i.g (fun gr => normGroup (brxGroup s i w gr)))
      i 0 ((badsOf i (brxBad s i w)).map (fun t => (t, ⟨cBAD_TARGET, 0, 0⟩)))) := by
  have hread : ∀ t, (readReg (grp ((slotted s i).core i.c) i.g) i.mask t (cReg w)).toNat = brxTo s i w t := fun t =>
    congrArg BitVec.toNat (readReg_of_sameRegs (slotted_regs s i i.g) ..)
  have hruns := runThreads_split i (fun t => if !srcOk (cReg w) 1 then .fault ⟨cILLEGAL_OPERAND, 0, 0⟩
      else if (readReg (grp ((slotted s i).core i.c) i.g) i.mask t (cReg w)).toNat % 8 ≠ 0 ∨
        !inCode (slotted s i) i.c (readReg (grp ((slotted s i).core i.c) i.g) i.mask t (cReg w)).toNat then .fault ⟨cBAD_TARGET, 0, 0⟩
      else .ok (readReg (grp ((slotted s i).core i.c) i.g) i.mask t (cReg w)).toNat)
    (brxBad s i w) ⟨cBAD_TARGET, 0, 0⟩ (brxTo s i w) (fun t _ => by
      rw [hread, hsrc, inCode_slotted]
      simp [inCode, brxBad])
  let oks := (oksOf i (brxBad s i w)).map (fun t => (t, brxTo s i w t))
  refine ⟨(oks.map (·.2) ++ (if (passive i).isEmpty then [] else [i.pc + 8])).eraseDups.length - 1, ?_⟩
  refine (coreRow_legalC h hl _).trans ?_
  dsimp only
  rw [hruns]
  simp only [List.foldl_map]
  rfl

theorem brx_taken (h : Issues s x w [cReg w] [] i) (hl : legalC 0x14 1 false false false false w = true) (hsrc : srcOk (cReg w) 1 = true)
    (hok : ∀ th ∈ i.active, brxTo s i w th % 8 = 0 ∧ brxTo s i w th < codeSize s i.c) :
    ∃ t, exec (.brx x w) s = .next t ∧ (RegFrame s t i 0xC0 0 7 ∧ OnlyCore s t i.c ∧ OnlyGroups s t i.c) ∧
      (∀ th ∈ i.active, (thrOf t i.c i.g th).pc = brxTo s i w th) ∧
      ∀ th ∈ i.members, th ∉ i.active → (thrOf t i.c i.g th).pc = i.pc + 8 := by
  obtain ⟨-, -, -, -, nd, -⟩ := issueCtx_members h.1
  obtain ⟨n, hn⟩ := brx_next h hl hsrc
  have hgood : ∀ th ∈ i.active, brxBad s i w th = false := by
    intro th hth
    obtain ⟨h8, hlt⟩ := hok th hth
    simp [brxBad, h8, Nat.not_le.2 hlt]
  have hbads : badsOf i (brxBad s i w) = [] := List.filter_eq_nil_iff.2 fun th hth => by rw [hgood th hth]; decide
  have hoks : oksOf i (brxBad s i w) = i.active := List.filter_eq_self.2 fun th hth => by rw [hgood th hth]; rfl
  rw [hbads] at hn
  obtain ⟨hframe, hcore, hgroups, hpc⟩ := branch_keeps (countCore_ready (slotted_ready s i) 0x12 n none) (brxGroup_butPcs s i w _)
  refine ⟨_, hn, ⟨hframe, hcore, hgroups⟩, fun th hth => (hpc th).trans ?_, fun th hth hnot => (hpc th).trans ?_⟩
  · unfold brxGroup
    rw [thr_modThrs_pc, if_neg (fun hp => (mem_passive.1 hp).2 hth), hoks, thr_foldl_pcs nd, if_pos hth]
  · unfold brxGroup
    rw [thr_modThrs_pc, if_pos (mem_passive.2 ⟨hth, hnot⟩)]

theorem brx_fails (h : Issues s x w [cReg w] [] i) (hl : legalC 0x14 1 false false false false w = true) (hsrc : srcOk (cReg w) 1 = true) {th : Nat}
    (hth : (badsOf i (brxBad s i w)).head? = some th) :
    ∃ t, exec (.brx x w) s = .next t ∧ FaultedAs s t i th ⟨cBAD_TARGET, 0, 0⟩ ∧ t.mem = s.mem := by
  obtain ⟨hrun, -⟩ := issueCtx_running h.1
  obtain ⟨n, hn⟩ := brx_next h hl hsrc
  have hready := countCore_ready (slotted_ready s i) 0x12 n none
  obtain ⟨p, hp⟩ := countCore_pmc (slotted s i) i.c 0x12 n none
  have hcount : SameCase (slotted s i) (countCore (slotted s i) i.c 0x12 n none) i := by rw [hp]; exact ⟨rfl, rfl, rfl, rfl, rfl, .rfl⟩
  have hmove : SameCase (countCore (slotted s i) i.c 0x12 n none)
      ((countCore (slotted s i) i.c 0x12 n none).modGrp i.c i.g (fun gr => normGroup (brxGroup s i w gr))) i :=
    modGrp_sameCase (by rw [onlyGroups_phase hready.groups, hrun]) fun gr => ((brxGroup_butPcs s i w gr).trans (SameRegs.normGroup _).butPcs).launch
  exact ⟨_, hn, faultedAs_of_list h.1 ((slotted_sameCase hrun).trans (hcount.trans hmove))
    (by show (countCore (slotted s i) i.c 0x12 n none).mem = s.mem; rw [hready.core.1]) (by decide) List.filter_sublist hth⟩

end

/-- Settles O16: the group of a branch differs in PCs alone, and its faulting threads are those whose target lies outside the code. -/
theorem branchesMoveThreads : Obligations.BranchesMoveThreads := by
  unfold Obligations.BranchesMoveThreads
  intro s x w i
  refine ⟨bra_taken, fun th h hl hout hth => bra_fails h hl hout hth, brx_taken, fun th h hl hsrc hth => brx_fails h hl hsrc hth, fun h hl => ?_⟩
  have hm := advance_moved (s := s) (u := slotted s i) (i := i) i.members (i.pc + 8) (fun g _ => slotted_regs s i g) .rfl
  obtain ⟨hframe, hpcs⟩ := hm.noRegs (slotted_regs s i i.g)
  exact ⟨_, coreRow_legalC h hl _, ⟨hframe, (slotted_onlyCore s i).trans (modGrp_onlyCore ..), (slotted_onlyGroups s i).trans (modGrp_onlyGroups ..)⟩, hpcs⟩

end Sys2Proof.Machine
end

section
/-! SUPPORT. PMC READ: the counter less the task's base in a register pair, or a denial (R524). -/
namespace Sys2Proof.Machine

/-- The words of one value written by every active thread. -/
theorem foldl_writeDst (i : Ctx) (code n v : Nat) (gr : Group) :
    i.active.foldl (fun gr t => writeDst i gr t code n v) gr = effAll i (fun _ => regEff code n v) gr := by
  unfold effAll
  congr 1

/-- What PMC READ gives: the counter as the issue leaves it, less the base that the task found. -/
def counterRead (s : State) (i : Ctx) (w : Word64) : Nat :=
  ((slotted s i).count (pairCore i.c (cId w)) + 2 ^ 48 - tget 0 (s.core i.c).base (cId w)) % 2 ^ 48

section
variable {s : State} {x : Site} {w : Word64} {i : Ctx} {k : Task}

theorem slotted_base (s : State) (i : Ctx) : ((slotted s i).core i.c).base = (s.core i.c).base := by
  have h := slotted_onlyGroups s i
  unfold OnlyGroups at h
  rw [h]

/-- The threads that PMC READ denies. -/
def pmcBad (s : State) (i : Ctx) (k : Task) : List (Nat × Cause) :=
  if !(userRead s && flagCounters k.flags) then i.active.map (fun t => (t, ⟨cCOUNTER_DENIED, 0, 0⟩)) else []

/-- The body of PMC READ with a destination that names a register pair. -/
theorem pmcRead_next (h : Issues s x w [] [] i) (hl : legalC 0x16 0 true false false false w = true) (hid : cId w < 12) (hdst : dstOk (cReg w) 2 = true)
    (hk : coreTask s i.c = some k) :
    exec (.pmcRead x w) s = .next (faultSet (advance (if (pmcBad s i k).isEmpty then
      (slotted s i).modGrp i.c i.g (effAll i (fun _ => regEff (cReg w) 2 (counterRead s i w))) else slotted s i) i
        (goOn i (pmcBad s i k)) (i.pc + 8)) i 0 (pmcBad s i k)) := by
  have hlegal : (legalC 0x16 0 true false false false w && decide (cId w < 12)) = true := by rw [hl, decide_eq_true hid]; rfl
  have huser : userRead (slotted s i) = userRead s := by
    unfold userRead State.regBit State.reg
    rw [(slotted_onlyCore s i).1]
  show execPmcRead x w s = _
  unfold execPmcRead coreRow wordOk
  rw [isRow_of_legalC hl, hlegal, issue_legal h]
  simp only [slotted_coreTask, hk, huser, hdst, slotted_base, foldl_writeDst]
  rfl

theorem pmcRead_allowed (h : Issues s x w [] [] i) (hl : legalC 0x16 0 true false false false w = true) (hid : cId w < 12)
    (hdst : dstOk (cReg w) 2 = true) (hk : coreTask s i.c = some k) (huser : userRead s = true) (hflag : flagCounters k.flags = true) :
    ∃ t, exec (.pmcRead x w) s = .next t ∧ RegEffect s t i (cReg w) 2 (fun _ => counterRead s i w) := by
  obtain ⟨-, -, -, -, nd, -⟩ := issueCtx_members h.1
  have hbad : pmcBad s i k = [] := by unfold pmcBad; rw [huser, hflag]; rfl
  have hnext := pmcRead_next h hl hid hdst hk
  simp only [hbad, List.isEmpty_nil, if_true, goOn_nil, faultSet_nil] at hnext
  have hm : Moved s (advance ((slotted s i).modGrp i.c i.g (effAll i (fun _ => regEff (cReg w) 2 (counterRead s i w)))) i i.members (i.pc + 8)) i
      (effAll i (fun _ => regEff (cReg w) 2 (counterRead s i w)) (grpOf (slotted s i) i.c i.g)) i.members (i.pc + 8) := by
    refine advance_moved _ _ (fun g hg => ?_) ?_
    · rw [grpOf_modGrp, if_neg hg]; exact slotted_regs s i g
    · rw [grpOf_modGrp, if_pos rfl]; exact .rfl
  obtain ⟨hregs, -, hframe⟩ := hm.writes_eff (p := 7) (v := fun _ => counterRead s i w) (b := fun _ => true) nd (slotted_regs s i i.g)
    (fun _ _ => regEff_writes ..) (by decide)
  exact ⟨_, hnext, hregs, hframe, hm.allAt rfl, (slotted_onlyCore s i).trans ((modGrp_onlyCore ..).trans (modGrp_onlyCore ..)),
    (slotted_onlyGroups s i).trans ((modGrp_onlyGroups ..).trans (modGrp_onlyGroups ..))⟩

theorem pmcRead_denied (h : Issues s x w [] [] i) (hl : legalC 0x16 0 true false false false w = true) (hid : cId w < 12)
    (hdst : dstOk (cReg w) 2 = true) (hk : coreTask s i.c = some k) (hno : userRead s = false ∨ flagCounters k.flags = false) {th : Nat}
    (hth : i.active.head? = some th) :
    ∃ t, exec (.pmcRead x w) s = .next t ∧ FaultedAs s t i th ⟨cCOUNTER_DENIED, 0, 0⟩ ∧ RegFrame s t i 0xC0 0 7 ∧ t.mem = s.mem := by
  obtain ⟨hrun, -⟩ := issueCtx_running h.1
  have hbad : pmcBad s i k = i.active.map (fun t => (t, ⟨cCOUNTER_DENIED, 0, 0⟩)) := by
    unfold pmcBad; rcases hno with hno | hno <;> simp [hno]
  have hne : (i.active.map (fun t => (t, (⟨cCOUNTER_DENIED, 0, 0⟩ : Cause)))).isEmpty = false := by
    cases ha : i.active with
    | nil => rw [ha] at hth; cases hth
    | cons a l => rfl
  have hnext := pmcRead_next h hl hid hdst hk
  rw [hbad, hne] at hnext
  have hcase : SameCase s (advance (slotted s i) i (goOn i (i.active.map (fun t => (t, (⟨cCOUNTER_DENIED, 0, 0⟩ : Cause))))) (i.pc + 8)) i :=
    (slotted_sameCase hrun).trans (advance_sameCase (by rw [onlyGroups_phase (slotted_onlyGroups s i), hrun]) _ _)
  obtain ⟨hfault, hmem⟩ := faultedAs_of_list h.1 hcase (by show (slotted s i).mem = s.mem; rw [(slotted_onlyCore s i).1]) (y := ⟨cCOUNTER_DENIED, 0, 0⟩)
    (by decide) (List.Sublist.refl _) hth
  refine ⟨_, hnext, hfault, ?_, hmem⟩
  obtain ⟨ts, hts⟩ := faultSet_tasks (advance (slotted s i) i (goOn i (i.active.map (fun t => (t, (⟨cCOUNTER_DENIED, 0, 0⟩ : Cause))))) (i.pc + 8)) i 0
    (i.active.map (fun t => (t, ⟨cCOUNTER_DENIED, 0, 0⟩))) (causes_of_map (by decide) _)
  have hgr := slotted_regs s i i.g
  have hm := advance_moved (s := s) (u := slotted s i) (i := i) (goOn i (i.active.map (fun t => (t, (⟨cCOUNTER_DENIED, 0, 0⟩ : Cause))))) (i.pc + 8)
    (fun g _ => slotted_regs s i g) .rfl
  have hframe : RegFrame s (advance (slotted s i) i (goOn i (i.active.map (fun t => (t, (⟨cCOUNTER_DENIED, 0, 0⟩ : Cause))))) (i.pc + 8)) i 0xC0 0 7 :=
    hm.regFrame (fun u r _ _ => by rw [hgr.gpr]; rfl) (fun r _ _ => by rw [hgr.urf]; rfl)
      (fun u q _ _ => by unfold predVal predOf predVal thrOf; rw [hgr.preds])
  rw [show (if false = true then _ else slotted s i) = slotted s i from rfl, hts]
  exact hframe

end

/-- Settles O19: the counter is read after the slot is counted, and the base is the core's. -/
theorem counterReadsFromCode : Obligations.CounterReadsFromCode := by
  unfold Obligations.CounterReadsFromCode
  intro s x w i k h hl hid hdst hk
  exact ⟨pmcRead_allowed h hl hid hdst hk, fun th hno hth => pmcRead_denied h hl hid hdst hk hno hth⟩

end Sys2Proof.Machine
end

section
/-! SUPPORT. Settling barriers changes no register (R120 to R125). -/
namespace Sys2Proof.Machine

theorem SameRegs.releaseG (gr : Group) : SameRegs gr (releaseG gr) := by
  unfold Machine.releaseG
  dsimp only
  generalize liveThreads gr = ls
  generalize List.range 16 = ids
  induction ids generalizing gr with
  | nil => exact .rfl
  | cons a ids ih =>
    rw [List.foldl_cons]
    refine SameRegs.trans ?_ (ih _)
    split
    · refine SameRegs.trans (b := Machine.modThrs { gr with genG := gr.genG ^^^ BitVec.ofNat 16 (2 ^ a) } ls fun _ t => { t with block := .no })
        ?_ (.normGroup _)
      exact SameRegs.trans (b := { gr with genG := gr.genG ^^^ BitVec.ofNat 16 (2 ^ a) }) ⟨by rfl, by rfl, by rfl, by rfl, fun _ => by rfl⟩
        (.modThrs _ _ _ fun _ _ => by rfl)
    · exact .rfl

theorem sameRegs_openBarT (k : Core) (id g : Nat) : SameRegs (grp k g) (grp (openBarT k id) g) :=
  sameRegs_foldl { k with genT := k.genT ^^^ BitVec.ofNat 16 (2 ^ id) } _
    (fun _ gr => normGroup (modThrs gr (liveThreads gr) (fun _ t => { t with block := .no })))
    (fun _ _ => (SameRegs.modThrs _ _ _ fun _ _ => by rfl).trans (.normGroup _)) g

theorem sameRegs_settledK (k : Core) (g : Nat) : SameRegs (grp k g) (grp (settledK k) g) := by
  have hr : SameRegs (grp k g) (grp (releasedK k) g) := sameRegs_foldl k _ (fun _ => releaseG) (fun _ => .releaseG) g
  refine hr.trans ?_
  unfold settledK
  dsimp only
  generalize releasedK k = r
  split
  · exact .rfl
  · split
    · exact .rfl
    · split
      · exact sameRegs_openBarT _ _ _
      · split
        · exact .rfl
        · split <;> exact .rfl

theorem sameRegs_settleBarriers (s : State) (c d g : Nat) : SameRegs (grpOf s d g) (grpOf (settleBarriers s c) d g) := by
  unfold grpOf
  by_cases hd : d = c
  · subst hd; rw [settleBarriers_core]; exact sameRegs_settledK _ g
  · rw [settleBarriers_core_other _ hd]; exact .rfl

/-! ## The slot of an issue -/

/-- Counting a slot only lets join waits grow (R114). -/
theorem opensK_countSlot (k : Core) (g : Nat) (m : Word) : OpensK k (countSlot k g m) := by
  have hwait : ∀ x : Thread, Opens x (match x.block with | .join n d => { x with block := .join (n + 1) d } | _ => x) := by
    intro x
    split
    · exact .inr (.inr ⟨_, _, by rfl⟩)
    · exact .rfl
  have hother : ∀ (gs : List Nat) (k : Core),
      OpensK k (gs.foldl (fun k h => if h = g then k else setGrp k h { grp k h with unsel := (grp k h).unsel + 1 }) k) := by
    intro gs
    induction gs with
    | nil => exact fun _ => .rfl
    | cons a gs ih =>
      intro k
      rw [List.foldl_cons]
      refine OpensK.trans ?_ (ih _)
      split
      · exact .rfl
      · exact opensK_setGrp .rfl
  unfold countSlot
  refine (hother (heldGroups k) k).trans (OpensK.trans (opensK_setGrp ?_) (.of_groups rfl))
  exact OpensG.trans (b := { grp _ g with unsel := 0, overdue := false, sets := _ }) .rfl (.modThrs _ _ _ fun _ x => hwait x)

theorem opensK_mergeCore (k : Core) : OpensK k (mergeCore k) := opensK_foldl k _ (fun _ => mergeSets) fun _ _ => .rfl

/-- The slot of an issue only lets join waits grow. -/
theorem opens_slotted (s : State) (i : Ctx) (g t : Nat) : Opens (thrOf s i.c g t) (thrOf (slotted s i) i.c g t) := by
  obtain ⟨m, gg, e, h⟩ := counted_core (icFetch s i) i
  obtain ⟨l, hl⟩ := icFetch_core s i
  have hfetch : OpensK (s.core i.c) ((icFetch s i).core i.c) := .of_groups (by rw [hl])
  have hslot : OpensK (s.core i.c) (countSlot (mergeCore ((icFetch s i).core i.c)) i.g i.mask) :=
    hfetch.trans ((opensK_mergeCore _).trans (opensK_countSlot _ i.g i.mask))
  have hcore : OpensK (s.core i.c) ((slotted s i).core i.c) := hslot.trans (.of_groups (by unfold slotted; rw [h]))
  exact hcore g t

theorem noGroups_openBarT (k : Core) (id : Nat) : noGroups (openBarT k id) = noGroups { k with genT := k.genT ^^^ BitVec.ofNat 16 (2 ^ id) } :=
  noGroups_foldl _ _ (fun g k => normGroup (modThrs (grp k g) (liveThreads (grp k g)) (fun _ t => { t with block := .no })))

/-- A core but for its groups, its task barriers, its phase and its next checkpoint. -/
def unsettled (k : Core) : Core := { k with groups := [], genT := 0, phase := .idle, ckptNext := none }

theorem unsettled_settledK (k : Core) : unsettled (settledK k) = unsettled k := by
  have hr : unsettled (releasedK k) = unsettled k := by
    have h := noGroups_releasedK k
    exact congrArg (fun k : Core => { k with genT := 0, phase := .idle, ckptNext := none }) h
  refine Eq.trans ?_ hr
  unfold settledK
  dsimp only
  generalize releasedK k = r
  split
  · rfl
  · split
    · rfl
    · split
      next id _ _ =>
        exact congrArg (fun k : Core => { k with genT := 0, phase := .idle, ckptNext := none }) (noGroups_openBarT r id)
      · split
        · rfl
        · split <;> rfl

theorem unsettled_settleBarriers (s : State) (c : Nat) : unsettled ((settleBarriers s c).core c) = unsettled (s.core c) := by
  rw [settleBarriers_core]; exact unsettled_settledK _

end Sys2Proof.Machine
end

section
/-! SUPPORT. EXIT: the threads that leave release their locks one after another (R113, R130, R161, R525). -/
namespace Sys2Proof.Machine

/-- A thread that others' releases leave as it is, up to a block that opens. -/
structure Undisturbed (a b : Thread) : Prop where
  live : b.live = a.live
  held : b.held = a.held
  pc : b.pc = a.pc
  opens : Opens a b

theorem Undisturbed.rfl {a : Thread} : Undisturbed a a := ⟨by rfl, by rfl, by rfl, .rfl⟩

theorem Undisturbed.trans {a b c : Thread} (h : Undisturbed a b) (k : Undisturbed b c) : Undisturbed a c :=
  ⟨k.live.trans h.live, k.held.trans h.held, k.pc.trans h.pc, h.opens.trans k.opens⟩

theorem live_of_unblocked {a b : Thread} (h : unblocked a = unblocked b) : a.live = b.live := show (unblocked a).live = (unblocked b).live by rw [h]
theorem held_of_unblocked {a b : Thread} (h : unblocked a = unblocked b) : a.held = b.held := show (unblocked a).held = (unblocked b).held by rw [h]

theorem undisturbed_normGroup (gr : Group) (th : Nat) : Undisturbed (thr gr th) (thr (normGroup gr) th) :=
  have h := (SameRegs.normGroup gr).thrs th
  ⟨live_of_unblocked h, held_of_unblocked h, pc_of_unblocked h, OpensG.normGroup gr th⟩

/-- The thread waits for no lock. -/
def NotLocked (a : Thread) : Prop := ∀ b o p, a.block ≠ .lock b o p

theorem Undisturbed.notLocked {a b : Thread} (h : Undisturbed a b) (ha : NotLocked a) : NotLocked b := by
  intro g o p hb
  have := h.opens.block (by rw [hb]; nofun) (by rw [hb]; nofun)
  exact ha g o p (this.trans hb)

/-! ## Releases -/

theorem pumpLoop_cores (l : Nat) (ms : List LMsg) (b : List Nat) (s : State) : (pumpLoop l ms b s).cores = s.cores := by
  induction ms generalizing b s with
  | nil => rfl
  | cons m ms ih =>
    unfold pumpLoop; dsimp only
    split
    · exact ih _ _
    · exact ih _ _

theorem sendMsg_cores (s : State) (m : LMsg) : (sendMsg s m).cores = s.cores := by
  unfold sendMsg; dsimp only; split
  · rfl
  · unfold pumpLink; rw [pumpLoop_cores]; rfl

theorem sendRequest_cores (s : State) (m : LMsg) : (sendRequest s m).cores = s.cores := by
  unfold sendRequest; split
  · exact sendMsg_cores s m
  · rfl

theorem sendRemote_cores (s : State) (label c g t a : Nat) (k : ReqKind) (pay : Option (Nat × LPay)) :
    (sendRemote s label c g t a k pay).cores = s.cores := by
  unfold sendRemote; exact sendRequest_cores _ _

theorem sendHome_cores (s : State) (c g t a : Nat) (k : ReqKind) : (sendHome s c g t a k).cores = s.cores := by
  unfold sendHome; split
  · rfl
  · exact sendRemote_cores ..

theorem thr_grp_setGrp {k : Core} {g h t : Nat} {v : Group} : thr (grp (setGrp k g v) h) t = if h = g then thr v t else thr (grp k h) t := by
  by_cases hg : h = g
  · subst hg; simp
  · rw [if_neg hg, grp_setGrp_other _ _ hg]

/-- A thread that waits for no lock is not the one that a release hands the lock to. -/
theorem localWaiter_locked {k : Core} {off g t p : Nat} (h : localWaiter k off = some (g, t, p)) : ∃ o, (thr (grp k g) t).block = .lock false o p := by
  unfold localWaiter at h
  obtain ⟨⟨a, b⟩, -, hq⟩ := List.exists_of_findSome?_eq_some h
  dsimp only at hq
  split at hq
  next o q hb =>
    split at hq
    · cases hq; exact ⟨o, hb⟩
    · cases hq
  · cases hq

/-- What a release of a local lock does to the threads that wait for none, and to the task counters. -/
theorem releaseLocal_undisturbed (s : State) (c off : Nat) (lost : Bool) :
    ((releaseLocal s c off lost).core c).tcnt = (s.core c).tcnt ∧
      ∀ g th, NotLocked (thrOf s c g th) → Undisturbed (thrOf s c g th) (thrOf (releaseLocal s c off lost) c g th) := by
  unfold releaseLocal
  split
  next g t p hw =>
    obtain ⟨o, hlock⟩ := localWaiter_locked hw
    let gr := modThr (grp (s.core c) g) t (fun th => { th with held := th.held ++ [⟨false, off⟩], block := .no })
    have hcore : ((takeLock s false (lsAddr c + off) off c g t p lost).setBytes (lsAddr c + off) (natLe 8 (handedWord c g t s.modId lost))).core c =
        setGrp (s.core c) g (normGroup (writePred gr t p lost)) := by
      refine Eq.trans (b := ((s.setBytes (lsAddr c + off) (natLe 8 (lockWord c g t s.modId))).modCore c
        (fun k => setGrp k g (normGroup (writePred (modThr (grp k g) t (fun th => { th with held := th.held ++ [⟨false, off⟩], block := .no })) t p lost)))).core c)
        rfl ?_
      exact core_modCore_same _ _ _
    refine ⟨by rw [hcore]; rfl, fun h th hno => ?_⟩
    unfold thrOf grpOf
    rw [hcore, thr_grp_setGrp]
    split
    next hg =>
      subst hg
      have hne : th ≠ t := fun e => hno false o p (e ▸ hlock)
      have hsame : thr (writePred gr t p lost) th = thr (grp (s.core c) h) th := by
        rw [thr_writePred_predThread, if_neg hne]
        exact thr_setThr_other _ _ hne
      exact hsame ▸ undisturbed_normGroup (writePred gr t p lost) th
    · exact .rfl
  · exact ⟨rfl, fun _ _ _ => .rfl⟩

/-! ## Leaving with locks held -/

/-- Group `i.g`'s members in a state on the way of EXIT: live, waiting for no lock, at the issue's PC, and with these locks. -/
structure Leaving (s u : State) (i : Ctx) (held : Nat → List Held) : Prop where
  live : ∀ th ∈ i.members, (thrOf u i.c i.g th).live = true
  free : ∀ th ∈ i.members, NotLocked (thrOf u i.c i.g th)
  held : ∀ th ∈ i.members, (thrOf u i.c i.g th).held = held th

/-- The locks lost by the threads of a core so far. -/
def lostOf (s : State) (c : Nat) : Nat := tget 0 (s.core c).tcnt tcLockLost

/-- One lock of a leaving thread. -/
def releaseOne (c g t : Nat) (s : State) (h : Held) : State :=
  if h.glob then sendHome (addTaskCounter (dropHeld s c g t h) c tcLockLost 1) c g t h.addr (.lockRel true)
  else releaseLocal (addTaskCounter (dropHeld s c g t h) c tcLockLost 1) c h.addr true

theorem releaseHeld_eq (s : State) (c g t : Nat) : releaseHeld s c g t = (thrOf s c g t).held.foldl (releaseOne c g t) s := rfl

theorem dropHeld_thr (s : State) (c g t : Nat) (h : Held) (th : Nat) :
    thrOf (dropHeld s c g t h) c g th = if th = t then { thrOf s c g t with held := (thrOf s c g t).held.erase h } else thrOf s c g th := by
  have hgroup : ∀ k : Core, ∀ m, thr (grp (if h.glob then { k with mirror := m } else k) g) th = thr (grp k g) th := fun k m => by split <;> rfl
  unfold dropHeld thrOf grpOf
  rw [core_modCore_same]
  dsimp only
  rw [hgroup, thr_grp_setGrp, if_pos rfl, thr_modThr]

theorem dropHeld_lost (s : State) (c g t : Nat) (h : Held) : ((dropHeld s c g t h).core c).tcnt = (s.core c).tcnt := by
  unfold dropHeld
  rw [core_modCore_same]
  dsimp only
  split <;> rfl

theorem addTaskCounter_lost (s : State) (c : Nat) : lostOf (addTaskCounter s c tcLockLost 1) c = (lostOf s c + 1) % 2 ^ 48 := by
  unfold lostOf addTaskCounter
  rw [if_neg (by decide), core_modCore_same]
  simp

/-- A leaving thread drops its first lock. -/
theorem releaseOne_leaving {s u : State} {i : Ctx} {held : Nat → List Held} (hu : Leaving s u i held) {t : Nat} (ht : t ∈ i.members) {h : Held}
    {hs : List Held} (hheld : held t = h :: hs) :
    Leaving s (releaseOne i.c i.g t u h) i (Function.update held t hs) ∧
      lostOf (releaseOne i.c i.g t u h) i.c = (lostOf u i.c + 1) % 2 ^ 48 := by
  let v := addTaskCounter (dropHeld u i.c i.g t h) i.c tcLockLost 1
  have hthr : ∀ th, thrOf v i.c i.g th = if th = t then { thrOf u i.c i.g t with held := (thrOf u i.c i.g t).held.erase h } else thrOf u i.c i.g th := by
    intro th
    show thrOf (addTaskCounter _ _ _ _) _ _ _ = _
    unfold thrOf
    rw [grpOf_addTaskCounter]
    exact dropHeld_thr u i.c i.g t h th
  have hv : Leaving s v i (Function.update held t hs) := by
    refine ⟨fun th hth => ?_, fun th hth => ?_, fun th hth => ?_⟩
    · rw [hthr]; split
      · exact hu.live t ht
      · exact hu.live th hth
    · rw [hthr]; split
      · exact hu.free t ht
      · exact hu.free th hth
    · rw [hthr]; split
      next e => subst e; rw [Function.update_self]; show (thrOf u i.c i.g th).held.erase h = hs; rw [hu.held th hth, hheld, List.erase_cons_head]
      next e => rw [Function.update_of_ne e, hu.held th hth]
  have hlost : lostOf v i.c = (lostOf u i.c + 1) % 2 ^ 48 := by
    rw [addTaskCounter_lost]; unfold lostOf; rw [dropHeld_lost]
  unfold releaseOne
  split
  · have hcores := sendHome_cores v i.c i.g t h.addr (.lockRel true)
    have hcore : (sendHome v i.c i.g t h.addr (.lockRel true)).core i.c = v.core i.c := by unfold State.core; rw [hcores]
    refine ⟨⟨fun th hth => ?_, fun th hth => ?_, fun th hth => ?_⟩, ?_⟩
    · unfold thrOf grpOf; rw [hcore]; exact hv.live th hth
    · unfold thrOf grpOf; rw [hcore]; exact hv.free th hth
    · unfold thrOf grpOf; rw [hcore]; exact hv.held th hth
    · unfold lostOf; rw [hcore]; exact hlost
  · obtain ⟨hcnt, hkeep⟩ := releaseLocal_undisturbed v i.c h.addr true
    refine ⟨⟨fun th hth => ?_, fun th hth => ?_, fun th hth => ?_⟩, ?_⟩
    · exact (hkeep i.g th (hv.free th hth)).live.trans (hv.live th hth)
    · exact (hkeep i.g th (hv.free th hth)).notLocked (hv.free th hth)
    · exact (hkeep i.g th (hv.free th hth)).held.trans (hv.held th hth)
    · unfold lostOf; rw [hcnt]; exact hlost

theorem releaseAll_leaving {s u : State} {i : Ctx} {held : Nat → List Held} (hu : Leaving s u i held) {t : Nat} (ht : t ∈ i.members)
    {hs : List Held} (hheld : held t = hs) :
    Leaving s (hs.foldl (releaseOne i.c i.g t) u) i (Function.update held t []) ∧
      lostOf (hs.foldl (releaseOne i.c i.g t) u) i.c % 2 ^ 48 = (lostOf u i.c + hs.length) % 2 ^ 48 := by
  induction hs generalizing u held with
  | nil =>
    have hsame : Function.update held t [] = held := by rw [← hheld]; exact Function.update_eq_self t held
    rw [hsame]
    exact ⟨hu, rfl⟩
  | cons h hs ih =>
    obtain ⟨hone, hlost⟩ := releaseOne_leaving hu ht hheld
    obtain ⟨hall, hsum⟩ := ih hone (Function.update_self ..)
    rw [Function.update_idem] at hall
    refine ⟨hall, ?_⟩
    rw [List.foldl_cons, hsum, hlost, List.length_cons]
    omega

theorem releaseThreads_leaving {s u : State} {i : Ctx} {held : Nat → List Held} (hu : Leaving s u i held) {ts : List Nat} (hts : ∀ t ∈ ts, t ∈ i.members)
    (nd : ts.Nodup) :
    Leaving s (ts.foldl (fun s t => releaseHeld s i.c i.g t) u) i (fun th => if th ∈ ts then [] else held th) ∧
      lostOf (ts.foldl (fun s t => releaseHeld s i.c i.g t) u) i.c % 2 ^ 48 = (lostOf u i.c + (ts.map (fun th => (held th).length)).sum) % 2 ^ 48 := by
  induction ts generalizing u held with
  | nil => exact ⟨by simpa using hu, by simp⟩
  | cons t ts ih =>
    obtain ⟨hnot, nd'⟩ := List.nodup_cons.1 nd
    have ht := hts t (List.mem_cons_self ..)
    obtain ⟨hone, hlost⟩ := releaseAll_leaving hu ht rfl
    have hrel : releaseHeld u i.c i.g t = (held t).foldl (releaseOne i.c i.g t) u := by rw [releaseHeld_eq, hu.held t ht]
    obtain ⟨hall, hsum⟩ := ih hone (fun x hx => hts x (List.mem_cons_of_mem _ hx)) nd'
    rw [List.foldl_cons, hrel]
    refine ⟨?_, ?_⟩
    · have hfun : (fun th => if th ∈ t :: ts then [] else held th) = fun th => if th ∈ ts then [] else Function.update held t [] th := by
        funext th
        by_cases e : th = t
        · subst e; simp [hnot]
        · simp [e]
      rw [hfun]
      exact hall
    · have hmap : ts.map (fun th => (Function.update held t [] th).length) = ts.map (fun th => (held th).length) :=
        List.map_congr_left fun x hx => by
        have hne : x ≠ t := fun e => by subst e; exact hnot hx
        rw [Function.update_of_ne hne]
      rw [hsum, hmap, List.map_cons, List.sum_cons]
      omega

/-! ## The row -/

/-- The threads without a true guard move on, the active ones are no longer live. -/
def exitGroup (i : Ctx) (gr : Group) : Group :=
  modThrs (modThrs gr (passive i) (fun _ t => { t with pc := i.pc + 8 })) i.active (fun _ t => { t with live := false })

theorem thr_exitGroup (i : Ctx) (gr : Group) (u : Nat) : thr (exitGroup i gr) u =
    if u ∈ i.active then { (if u ∈ passive i then { thr gr u with pc := i.pc + 8 } else thr gr u) with live := false }
    else if u ∈ passive i then { thr gr u with pc := i.pc + 8 } else thr gr u := by
  unfold exitGroup
  rw [thr_modThrs _ _ (fun t => { t with live := false }) (fun _ => rfl), thr_modThrs_pc]

theorem lostOf_settleBarriers (s : State) (c : Nat) : lostOf (settleBarriers s c) c = lostOf s c := by
  have h : ((settleBarriers s c).core c).tcnt = (s.core c).tcnt := show (unsettled ((settleBarriers s c).core c)).tcnt = (unsettled (s.core c)).tcnt by rw [unsettled_settleBarriers]
  unfold lostOf; rw [h]

theorem lostOf_modGrp (s : State) (c g : Nat) (f : Group → Group) : lostOf (s.modGrp c g f) c = lostOf s c := by
  unfold lostOf State.modGrp; rw [core_modCore_same]; rfl

theorem lostOf_slotted (s : State) (i : Ctx) : lostOf (slotted s i) i.c = lostOf s i.c := by
  have hslot : ∀ k g m, (countSlot k g m).tcnt = k.tcnt := fun k g m => show (noGroups (countSlot k g m)).tcnt = _ by rw [noGroups_countSlot]; rfl
  have hmerge : ∀ k, (mergeCore k).tcnt = k.tcnt := fun k => show (noGroups (mergeCore k)).tcnt = _ by rw [noGroups_mergeCore]; rfl
  obtain ⟨m, g, e, h⟩ := counted_core (icFetch s i) i
  obtain ⟨l, hl⟩ := icFetch_core s i
  have htcnt : ((slotted s i).core i.c).tcnt = (s.core i.c).tcnt := by
    unfold slotted
    rw [h]
    show (countSlot (mergeCore ((icFetch s i).core i.c)) i.g i.mask).tcnt = _
    rw [hslot, hmerge, hl]
  unfold lostOf; rw [htcnt]

/-- Settles O17: the locks of each active thread are dropped one by one, then the thread is no longer live. -/
theorem exitLeavesEverything : Obligations.ExitLeavesEverything := by
  unfold Obligations.ExitLeavesEverything
  intro s x w i
  dsimp only
  intro h hl hmembers
  obtain ⟨-, -, -, -, nd, hsub⟩ := issueCtx_members h.1
  have hslot := fun th => (slotted_regs s i i.g).thrs th
  have hopens : ∀ th ∈ i.members, NotLocked (thrOf (slotted s i) i.c i.g th) := by
    intro th hth b o p hb
    have hblock := (opens_slotted s i i.g th).block (by rw [hb]; nofun) (by rw [hb]; nofun)
    rw [(hmembers th hth).2, hb] at hblock
    cases hblock
  have hstart : Leaving s (slotted s i) i (fun th => (thrOf s i.c i.g th).held) :=
    ⟨fun th hth => (live_of_unblocked (hslot th)).trans (hmembers th hth).1, hopens, fun th _ => held_of_unblocked (hslot th)⟩
  obtain ⟨hleft, hlost⟩ := releaseThreads_leaving hstart hsub nd
  let u := i.active.foldl (fun s t => releaseHeld s i.c i.g t) (slotted s i)
  let v := (u.modGrp i.c i.g (exitGroup i)).modGrp i.c i.g normGroup
  have hnext : exec (.exit x w) s = .next (settleBarriers v i.c) := coreRow_legalC h hl _
  have hthr : ∀ th, unblocked (thrOf (settleBarriers v i.c) i.c i.g th) = unblocked (thr (exitGroup i (grpOf u i.c i.g)) th) := by
    intro th
    refine ((sameRegs_settleBarriers v i.c i.c i.g).thrs th).trans ?_
    rw [grpOf_modGrp, if_pos rfl, (SameRegs.normGroup _).thrs, grpOf_modGrp, if_pos rfl]
  refine ⟨_, hnext, fun th hth => ?_, fun th hth hnot => ?_, ?_, fun hnone => ?_⟩
  · rw [live_of_unblocked (hthr th), held_of_unblocked (hthr th), thr_exitGroup, if_pos hth]
    refine ⟨rfl, ?_⟩
    rw [if_neg (fun hp => (mem_passive.1 hp).2 hth)]
    show (thrOf u i.c i.g th).held = []
    rw [hleft.held th (hsub th hth), if_pos hth]
  · have hp := mem_passive.2 ⟨hth, hnot⟩
    rw [pc_of_unblocked (hthr th), live_of_unblocked (hthr th), thr_exitGroup, if_neg hnot, if_pos hp]
    exact ⟨rfl, hleft.live th hth⟩
  · show lostOf _ i.c % _ = (lostOf s i.c + _) % _
    rw [lostOf_settleBarriers, lostOf_modGrp, lostOf_modGrp, ← lostOf_slotted s i]
    exact hlost
  · have hu : u = slotted s i := by
      show i.active.foldl (fun s t => releaseHeld s i.c i.g t) (slotted s i) = slotted s i
      have hnil : ∀ th ∈ i.active, (thrOf (slotted s i) i.c i.g th).held = [] := fun th hth => (held_of_unblocked (hslot th)).trans (hnone th hth)
      generalize i.active = ts at hnil
      induction ts with
      | nil => rfl
      | cons a ts ih =>
        rw [List.foldl_cons, releaseHeld_eq, hnil a (List.mem_cons_self ..)]
        exact ih fun th hth => hnil th (List.mem_cons_of_mem _ hth)
    obtain ⟨ts, hts⟩ := settleBarriers_eq v i.c
    have hv : ∀ {α : Type} (f : State → α), (∀ (s : State) k, f (s.setCore i.c k) = f s) → (∀ (s : State) ts, f { s with tasks := ts } = f s) →
        f (settleBarriers v i.c) = f (slotted s i) := by
      intro α f hcore htask
      rw [hts, htask, hcore]
      show f ((u.modGrp i.c i.g (exitGroup i)).modGrp i.c i.g normGroup) = _
      unfold State.modGrp State.modCore
      rw [hcore, hcore, hu]
    rw [hv State.mem (fun _ _ => rfl) (fun _ _ => rfl), hv State.llc (fun _ _ => rfl) (fun _ _ => rfl), hv State.regs (fun _ _ => rfl) (fun _ _ => rfl)]
    rw [(slotted_onlyCore s i).1]
    exact ⟨rfl, rfl, rfl⟩

end Sys2Proof.Machine
end

section
/-! SUPPORT. Responses and acknowledgements at their core (R109, R133, R160, R168, R303, R304). -/
namespace Sys2Proof.Machine

/-! ## Faults that arrive with a message -/

/-- The task's count of replays, when the core has a task. -/
def replaysOf (s : State) (c : Nat) : Option Nat := (coreTask s c).map (·.replays)

theorem replaysOf_modCoreTask (s : State) (c : Nat) {f : Task → Task} (hf : ∀ k, (f k).replays = k.replays) :
    replaysOf (s.modCoreTask c f) c = replaysOf s c := by
  unfold replaysOf
  cases hk : coreTask s c with
  | some k => rw [coreTask_modCoreTask f hk]; exact congrArg some (hf k)
  | none =>
    have hsame : s.modCoreTask c f = s := by
      unfold State.modCoreTask State.modTask
      unfold coreTask at hk
      split
      · rfl
      next n hn =>
        rw [hn] at hk
        have : s.task n = none := hk
        rw [this]
    rw [hsame, hk]

theorem stopTask_replays (tick : Nat) (t : Task) (st : Stop) (r : FaultRec) : (stopTask tick t st r).replays = t.replays := by
  unfold stopTask
  split
  · rfl
  · split <;> rfl

theorem replaysOf_settleBarriers (s : State) (c : Nat) : replaysOf (settleBarriers s c) c = replaysOf s c := by
  have hset : ∀ (s : State) (k : Core), k.task = (s.core c).task → replaysOf (s.setCore c k) c = replaysOf s c := by
    intro s k hk
    unfold replaysOf coreTask
    rw [core_setCore_same, hk]
    rfl
  have hr : (releasedK (s.core c)).task = (s.core c).task := show (noGroups (releasedK _)).task = (noGroups _).task by rw [noGroups_releasedK]
  have hbase := hset s _ hr
  unfold settleBarriers
  dsimp only
  rw [show (heldGroups (s.core c)).foldl (fun k g => setGrp k g (releaseG (grp k g))) (s.core c) = releasedK (s.core c) from rfl]
  generalize releasedK (s.core c) = k at hr hbase ⊢
  split
  · exact hbase
  · split
    · exact hbase
    · split
      next id _ _ =>
        rw [setCore_setCore]
        refine hset s _ (Eq.trans ?_ hr)
        show (noGroups (openBarT k id)).task = k.task
        rw [noGroups_openBarT]
        rfl
      · split
        · exact hbase
        · split
          · unfold raiseFault
            rw [if_neg (show ¬ (threadRec _ _ _ _ _ _ ⟨cLOCK_ACROSS_SEGMENT, 0, 0⟩).cause = cPOISONED from show cLOCK_ACROSS_SEGMENT ≠ cPOISONED by decide)]
            split
            · exact hbase
            · rw [replaysOf_modCoreTask _ _ fun _ => stopTask_replays ..]; exact hbase
          · rw [setCore_setCore]; exact hset s _ hr

theorem replayHeld_settleBarriers {s : State} {c : Nat} (h : replayHeld (s.core c) = false) : replayHeld ((settleBarriers s c).core c) = false := by
  rw [settleBarriers_core]
  have hr : (releasedK (s.core c)).phase = (s.core c).phase := show (noGroups (releasedK _)).phase = (noGroups _).phase by rw [noGroups_releasedK]
  have hbase : replayHeld (releasedK (s.core c)) = false := by unfold replayHeld at h ⊢; rw [hr]; exact h
  unfold settledK
  dsimp only
  generalize releasedK (s.core c) = k at hbase ⊢
  split
  · exact hbase
  · split
    · exact hbase
    · split
      next id _ _ =>
        have hphase : (openBarT k id).phase = k.phase := show (noGroups (openBarT k id)).phase = k.phase by rw [noGroups_openBarT]; rfl
        unfold replayHeld at hbase ⊢; rw [hphase]; exact hbase
      · split
        · exact hbase
        · split
          · exact hbase
          · rfl

/-- A core with its phase and its fault, and when it came, as a core fault leaves them. -/
def faultedK (k : Core) (p : CorePhase) (f a : Nat) : Core := { k with phase := p, fault := f, faultAt := a }

/-- Consumed poison changes of cores at most the phase and the fault of its own, and no memory. -/
theorem raisePoison_core (s : State) (c u a : Nat) (r : FaultRec) (h : r.cause = cPOISONED) :
    (raiseFault (countConsumed s u a) c r).mem = s.mem ∧
      (∃ p f t, (raiseFault (countConsumed s u a) c r).core c = faultedK (s.core c) p f t) ∧
      (replayHeld (s.core c) = false → replaysOf s c = some 0 →
        ((raiseFault (countConsumed s u a) c r).core c).phase = .stopped ∧ ((raiseFault (countConsumed s u a) c r).core c).fault = cPOISONED) := by
  have hlog := countConsumed_logsOnly s u a
  have hcore : ∀ d, (countConsumed s u a).core d = s.core d := fun d => by unfold State.core; rw [hlog.cores]
  have htask : coreTask (countConsumed s u a) c = coreTask s c := by unfold coreTask State.task; rw [hcore, hlog.tasks]
  have hself : ∃ p f t, (countConsumed s u a).core c = faultedK (s.core c) p f t := ⟨_, _, _, hcore c⟩
  unfold raiseFault rankFault replaysOf
  rw [if_pos h, htask]
  split
  next hk => rw [hk]; exact ⟨hlog.mem, hself, fun _ h => by cases h⟩
  next k hk =>
    rw [hk]
    split
    next hheld => exact ⟨hlog.mem, hself, fun hno _ => by rw [hcore, hno] at hheld; cases hheld⟩
    · split
      next hrep =>
        obtain ⟨ts, hts⟩ := modCoreTask_eq (countConsumed s u a) c (fun t => stopTask (countConsumed s u a).clk.tick t ⟨stPARTIAL, cPOISONED⟩ r)
        rw [hts]
        refine ⟨hlog.mem, hself, fun _ h0 => ?_⟩
        have : k.replays = 0 := by simpa using h0
        exact absurd this hrep.2
      · rw [core_modCore_same]
        exact ⟨hlog.mem, ⟨_, _, _, by rw [hcore]; rfl⟩, fun _ _ => ⟨rfl, h⟩⟩

/-! ## Responses -/

theorem takePend_thr (gr : Group) (t req u : Nat) : thr (takePend gr t req).1 u = if u = t then
    { thr gr t with pend := (thr gr t).pend.filter (fun p => p.req != req), mems := (thr gr t).mems.filter (fun m => m.1 != req) } else thr gr u := by
  unfold takePend
  exact thr_modThr _ _ _ _

/-- No register of the thread waits for the request any more. -/
def Answered1 (req : Nat) (th : Thread) : Prop := ∀ p ∈ th.pend, p.req ≠ req

theorem unpend_req {rs : List Nat} {ps : List Pend} {req : Nat} (h : ∀ p ∈ ps, p.req ≠ req) : ∀ p ∈ unpend rs ps, p.req ≠ req := by
  intro p hp
  unfold unpend at hp
  obtain ⟨hmap, -⟩ := List.mem_filter.1 hp
  obtain ⟨q, hq, rfl⟩ := List.mem_map.1 hmap
  exact h q hq

theorem regThread_answered {req code n v : Nat} {th : Thread} (h : Answered1 req th) : Answered1 req (regThread code n v th) := by
  unfold regThread
  split
  · exact unpend_req h
  · exact h

theorem predThread_answered {req p : Nat} {b : Bool} {th : Thread} (h : Answered1 req th) : Answered1 req (predThread p b th) := by
  unfold predThread
  split
  · exact h
  · intro q hq
    obtain ⟨hmap, -⟩ := List.mem_filter.1 hq
    obtain ⟨x, hx, rfl⟩ := List.mem_map.1 hmap
    have := h x hx
    split <;> exact this

/-- The words of a response for the registers that still waited. -/
def putWords (t dst v : Nat) (regs : List Nat) (gr : Group) : Group :=
  regs.foldl (fun gr code => writeReg gr t code 1 (v >>> (32 * (code - dst)))) gr

theorem putWords_answered {t dst v req : Nat} (regs : List Nat) {gr : Group} (h : Answered1 req (thr gr t)) : Answered1 req (thr (putWords t dst v regs gr) t) := by
  unfold putWords
  induction regs generalizing gr with
  | nil => exact h
  | cons a regs ih =>
    rw [List.foldl_cons]
    refine ih ?_
    rw [thr_writeReg_regThread, if_pos rfl]
    exact regThread_answered h

theorem putWords_get {t dst v code : Nat} (regs : List Nat) (gr : Group) (hc : code < 0x80)
    (h : code ∈ regs ∨ tget 0 (thr gr t).gpr code = BitVec.ofNat 32 (v >>> (32 * (code - dst)))) :
    tget 0 (thr (putWords t dst v regs gr) t).gpr code = BitVec.ofNat 32 (v >>> (32 * (code - dst))) := by
  unfold putWords
  induction regs generalizing gr with
  | nil => exact h.resolve_left (List.not_mem_nil)
  | cons a regs ih =>
    rw [List.foldl_cons]
    refine ih _ ?_
    rw [thr_writeReg_regThread, if_pos rfl]
    by_cases ha : a = code
    · subst ha
      right
      have := regThread_gpr_get (code := a) (n := 1) (v := v >>> (32 * (a - dst))) (j := 0) (thr gr t) hc (by omega)
      simpa using this
    · rw [regThread_gpr_other _ (by omega)]
      exact h.imp_left fun hm => (List.mem_cons.1 hm).resolve_left (Ne.symm ha)

/-- A group's predicate of a response. -/
def putPred (t : Nat) (preds : List Nat) (pr : Option (Nat × Bool)) (gr : Group) : Group :=
  match pr with
  | some (p, b) => if preds.contains p then writePred gr t p b else gr
  | none => gr

theorem thr_putPred (t : Nat) (preds : List Nat) (pr : Option (Nat × Bool)) (gr : Group) :
    thr (putPred t preds pr gr) t = thr gr t ∨ ∃ p b, thr (putPred t preds pr gr) t = predThread p b (thr gr t) := by
  unfold putPred
  split
  next p b =>
    split
    · exact .inr ⟨p, b, by rw [thr_writePred_predThread, if_pos rfl]⟩
    · exact .inl rfl
  · exact .inl rfl

theorem l1Insert_eq (k : Core) (line : Nat) (data : List Nat) : ∃ l, l1Insert k line data = { k with l1 := l } := ⟨_, rfl⟩

/-- The core without the response. -/
def popResp (s : State) (c : Nat) (r : Resp) : State := s.modCore c (fun k => { k with resps := k.resps.erase r })

/-- The response's request is awaited no more. -/
def endWait (s : State) (c : Nat) (r : Resp) : State := s.modGrp c r.group (fun gr => (takePend gr r.thread r.req).1)

/-- The group of a clean response. -/
def answeredGrp (r : Resp) (gr : Group) : Group :=
  putPred r.thread (takePend gr r.thread r.req).2.2.1 r.pred (putWords r.thread r.dst r.value (takePend gr r.thread r.req).2.1 (takePend gr r.thread r.req).1)

/-- The response's line, when L1 takes it. -/
def fillResp (s : State) (c : Nat) (r : Resp) : State :=
  if r.fill = [] then s else s.setCore c (l1Insert (s.core c) (r.addr / 128) r.fill)

theorem popResp_core (s : State) (c : Nat) (r : Resp) : (popResp s c r).core c = { s.core c with resps := (s.core c).resps.erase r } := core_modCore_same ..

theorem fillResp_core (s : State) (c : Nat) (r : Resp) : ∃ l, (fillResp s c r).core c = { s.core c with l1 := l } := by
  unfold fillResp
  split
  · exact ⟨(s.core c).l1, rfl⟩
  · obtain ⟨l, hl⟩ := l1Insert_eq (s.core c) (r.addr / 128) r.fill
    exact ⟨l, by rw [core_setCore_same, hl]⟩

theorem fillResp_mem (s : State) (c : Nat) (r : Resp) : (fillResp s c r).mem = s.mem := by unfold fillResp; split <;> rfl

theorem modGrp_modGrp (s : State) (c g : Nat) (f h : Group → Group) : (s.modGrp c g f).modGrp c g h = s.modGrp c g (fun gr => h (f gr)) := by
  have hset : ∀ (k : Core) v w, setGrp (setGrp k g v) g w = setGrp k g w := fun k v w => by
    unfold setGrp; exact congrArg (fun t => { k with groups := t }) (tset_tset_same ..)
  unfold State.modGrp State.modCore
  rw [core_setCore_same, setCore_setCore]
  dsimp only
  rw [hset, grp_setGrp_same]

/-- A response of a core that is stopped for a replay is consumed. -/
theorem deliver_held {s : State} {c : Nat} (r : Resp) (h : replayHeld (s.core c) = true) : deliver s c r = popResp s c r := by
  have hheld : replayHeld ((popResp s c r).core c) = true := by rw [popResp_core]; exact h
  unfold deliver
  exact if_pos hheld

theorem deliver_poison {s : State} {c : Nat} {r : Resp} (h : replayHeld (s.core c) = false) (hp : r.poison = true) :
    ∃ u f, deliver s c r = raiseFault (countConsumed (endWait (popResp s c r) c r) u r.addr) c f ∧ f.cause = cPOISONED := by
  have hheld : ¬ replayHeld ((popResp s c r).core c) = true := by rw [popResp_core]; simp [replayHeld] at h ⊢; exact h
  refine ⟨addrUnit (endWait (popResp s c r) c r) c r.addr, threadRec (countConsumed (endWait (popResp s c r) c r) (addrUnit (endWait (popResp s c r) c r) c r.addr) r.addr)
    c r.group r.thread (takePend (grp ((popResp s c r).core c) r.group) r.thread r.req).2.2.2 0 ⟨cPOISONED, r.addr, 0⟩, ?_, rfl⟩
  unfold deliver
  refine (if_neg hheld).trans ?_
  exact if_pos hp

/-- A clean response put into a group whose wait has ended. -/
def putResp (s : State) (c : Nat) (r : Resp) (p : Group × List Nat × List Nat × Nat) : State :=
  ((s.modGrp c r.group (fun _ => p.1)).modGrp c r.group (putWords r.thread r.dst r.value p.2.1)).modGrp c r.group (putPred r.thread p.2.2.1 r.pred)

theorem putResp_taken (s : State) (c : Nat) (r : Resp) :
    putResp s c r (takePend (grp (s.core c) r.group) r.thread r.req) = s.modGrp c r.group (answeredGrp r) := by
  unfold putResp
  rw [modGrp_modGrp, modGrp_modGrp]
  rfl

theorem deliver_clean {s : State} {c : Nat} {r : Resp} (h : replayHeld (s.core c) = false) (hp : r.poison = false) :
    deliver s c r = settleBarriers (fillResp ((popResp s c r).modGrp c r.group (answeredGrp r)) c r) c := by
  have hheld : ¬ replayHeld ((popResp s c r).core c) = true := by rw [popResp_core]; simp [replayHeld] at h ⊢; exact h
  rw [← putResp_taken]
  unfold deliver
  refine (if_neg hheld).trans ?_
  refine (if_neg (by rw [hp]; decide)).trans ?_
  rfl

theorem answeredGrp_pend (r : Resp) (gr : Group) : Answered1 r.req (thr (answeredGrp r gr) r.thread) := by
  have hput : Answered1 r.req (thr (putWords r.thread r.dst r.value (takePend gr r.thread r.req).2.1 (takePend gr r.thread r.req).1) r.thread) := by
    refine putWords_answered _ fun p hp => ?_
    rw [takePend_thr, if_pos rfl] at hp
    simpa using (List.mem_filter.1 hp).2
  unfold answeredGrp
  rcases thr_putPred r.thread (takePend gr r.thread r.req).2.2.1 r.pred
    (putWords r.thread r.dst r.value (takePend gr r.thread r.req).2.1 (takePend gr r.thread r.req).1) with e | ⟨p, b, e⟩
  · rw [e]; exact hput
  · rw [e]; exact predThread_answered hput

theorem answeredGrp_get {r : Resp} {gr : Group} {p : Pend} (hp : p ∈ (thr gr r.thread).pend) (hreq : p.req = r.req) {code : Nat} (hcode : code ∈ p.regs)
    (hc : code < 0x80) : tget 0 (thr (answeredGrp r gr) r.thread).gpr code = BitVec.ofNat 32 (r.value >>> (32 * (code - r.dst))) := by
  have hmem : code ∈ (takePend gr r.thread r.req).2.1 := by
    unfold takePend
    exact List.mem_flatMap.2 ⟨p, List.mem_filter.2 ⟨List.mem_append_left _ hp, by simpa using hreq⟩, hcode⟩
  have hput := putWords_get (t := r.thread) (dst := r.dst) (v := r.value) (takePend gr r.thread r.req).2.1 (takePend gr r.thread r.req).1 hc (.inl hmem)
  unfold answeredGrp
  rcases thr_putPred r.thread (takePend gr r.thread r.req).2.2.1 r.pred
    (putWords r.thread r.dst r.value (takePend gr r.thread r.req).2.1 (takePend gr r.thread r.req).1) with e | ⟨p, b, e⟩
  · rw [e]; exact hput
  · rw [e, predThread_gpr]; exact hput

theorem pend_of_unblocked {a b : Thread} (h : unblocked a = unblocked b) : a.pend = b.pend := show (unblocked a).pend = (unblocked b).pend by rw [h]
theorem gpr_of_unblocked {a b : Thread} (h : unblocked a = unblocked b) : a.gpr = b.gpr := show (unblocked a).gpr = (unblocked b).gpr by rw [h]
theorem writes_of_unblocked {a b : Thread} (h : unblocked a = unblocked b) : a.writes = b.writes := show (unblocked a).writes = (unblocked b).writes by rw [h]

theorem settleBarriers_mem (s : State) (c : Nat) : (settleBarriers s c).mem = s.mem := by
  obtain ⟨ts, h⟩ := settleBarriers_eq s c; rw [h]; rfl

section
variable {s : State} {c : Nat} {r : Resp} {rs : List Resp} (hr : (s.core c).resps = r :: rs)
include hr

theorem popResp_resps : ((popResp s c r).core c).resps = rs := by rw [popResp_core]; show (s.core c).resps.erase r = rs; rw [hr, List.erase_cons_head]

/-- A clean response at a core that goes on. -/
theorem deliver_clean_holds (h : replayHeld (s.core c) = false) (hp : r.poison = false) :
    ((deliver s c r).core c).resps = rs ∧ (deliver s c r).mem = s.mem ∧
      unblocked (thrOf (deliver s c r) c r.group r.thread) = unblocked (thr (answeredGrp r (grpOf s c r.group)) r.thread) := by
  let u := (popResp s c r).modGrp c r.group (answeredGrp r)
  obtain ⟨l, hl⟩ := fillResp_core u c r
  have hu : u.core c = setGrp ((popResp s c r).core c) r.group (answeredGrp r (grp ((popResp s c r).core c) r.group)) := by
    show ((popResp s c r).modGrp c r.group (answeredGrp r)).core c = _
    rw [core_modGrp, if_pos rfl]
  rw [deliver_clean h hp]
  refine ⟨?_, ?_, ?_⟩
  · have hset : ((settleBarriers (fillResp u c r) c).core c).resps = ((fillResp u c r).core c).resps :=
      show (unsettled ((settleBarriers (fillResp u c r) c).core c)).resps = (unsettled ((fillResp u c r).core c)).resps by rw [unsettled_settleBarriers]
    rw [hset, hl]
    show (u.core c).resps = rs
    rw [hu]
    exact popResp_resps hr
  · rw [settleBarriers_mem, fillResp_mem]; rfl
  · refine ((sameRegs_settleBarriers (fillResp u c r) c c r.group).thrs r.thread).trans ?_
    unfold grpOf
    rw [hl]
    show unblocked (thr (grp (u.core c) r.group) r.thread) = _
    rw [hu, grp_setGrp_same, popResp_core]
    rfl

/-- A poisoned one. -/
theorem deliver_poison_holds (h : replayHeld (s.core c) = false) (hp : r.poison = true) :
    ((deliver s c r).core c).resps = rs ∧ (deliver s c r).mem = s.mem ∧
      (∀ g, grpOf (deliver s c r) c g = if g = r.group then (takePend (grpOf s c r.group) r.thread r.req).1 else grpOf s c g) ∧
      (replaysOf s c = some 0 → ((deliver s c r).core c).phase = .stopped ∧ ((deliver s c r).core c).fault = cPOISONED) := by
  let u := endWait (popResp s c r) c r
  have hu : u.core c = setGrp ((popResp s c r).core c) r.group (takePend (grp ((popResp s c r).core c) r.group) r.thread r.req).1 := by
    show ((popResp s c r).modGrp c r.group _).core c = _
    rw [core_modGrp, if_pos rfl]
  obtain ⟨a, f, hdel, hf⟩ := deliver_poison h hp
  obtain ⟨hmem, ⟨p, q, t, hcore⟩, hstop⟩ := raisePoison_core u c a r.addr f hf
  rw [hdel]
  refine ⟨?_, hmem, fun g => ?_, fun hrep => hstop ?_ ?_⟩
  · rw [hcore]
    show (u.core c).resps = rs
    rw [hu]; exact popResp_resps hr
  · unfold grpOf
    rw [hcore]
    show grp (u.core c) g = _
    rw [hu, popResp_core]
    split
    next e => subst e; exact grp_setGrp_same ..
    next e => exact grp_setGrp_other _ _ e
  · rw [hu, popResp_core]; exact h
  · have htask : coreTask u c = coreTask s c := by
      unfold coreTask
      rw [hu, popResp_core]
      rfl
    unfold replaysOf at hrep ⊢
    rw [htask]; exact hrep

end

/-! ## Acknowledgements -/

/-- The acknowledgement counted off at the core and at the thread. -/
def countAck (s : State) (c : Nat) (a : Ack) (as : List Ack) : State :=
  (s.modCore c (fun k => { k with acks := as, writes := k.writes - 1, redOut := if a.red then k.redOut - 1 else k.redOut })).modThread c a.group a.thread
    (fun th => { th with writes := th.writes - 1 })

theorem countAck_thr (s : State) (c : Nat) (a : Ack) (as : List Ack) :
    thrOf (countAck s c a as) c a.group a.thread = { thrOf s c a.group a.thread with writes := (thrOf s c a.group a.thread).writes - 1 } := by
  unfold countAck State.modThread thrOf
  rw [grpOf_modGrp, if_pos rfl, thr_modThr, if_pos rfl, grpOf_modCore_groups]
  exact fun _ => rfl

theorem countAck_core (s : State) (c : Nat) (a : Ack) (as : List Ack) : ∃ gs, (countAck s c a as).core c =
    { s.core c with acks := as, writes := (s.core c).writes - 1, redOut := if a.red then (s.core c).redOut - 1 else (s.core c).redOut, groups := gs } := by
  unfold countAck State.modThread
  rw [core_modGrp, if_pos rfl, core_modCore_same]
  exact ⟨_, rfl⟩

/-- Passing a fence leaves of the core and the thread what an acknowledgement has counted. -/
structure FencePassed (s t : State) (c g th : Nat) : Prop where
  mem : t.mem = s.mem
  acks : (t.core c).acks = (s.core c).acks
  writes : (t.core c).writes = (s.core c).writes
  thread : (thrOf t c g th).writes = (thrOf s c g th).writes
  replays : replaysOf t c = replaysOf s c
  held : replayHeld (s.core c) = false → replayHeld (t.core c) = false
  opens : ∀ inval, (thrOf s c g th).block = .fence inval → (thrOf s c g th).writes = 0 →
    (thrOf t c g th).block ≠ .fence inval ∧ (inval = true → (t.core c).l1 = [])

theorem voidFill_core (s : State) (c d : Nat) (hit : Nat → Bool) : (voidFill s c hit).core d = s.core d := rfl

theorem flushL1_core (s : State) (c : Nat) : (flushL1 s c).core c = l1Flush (s.core c) := by unfold flushL1; rw [voidFill_core, core_setCore_same]

theorem grp_l1Flush (k : Core) (g : Nat) : grp (l1Flush k) g = grp k g := rfl

/-- A counter of the task that a window adds to. -/
def countWindow (s : State) (c : Nat) (b : Bool) : State := if b then addTaskCounter s c tcWindow 1 else s

theorem countWindow_core (s : State) (c : Nat) (b : Bool) : (countWindow s c b).mem = s.mem ∧ (countWindow s c b).tasks = s.tasks ∧
    ∃ x, (countWindow s c b).core c = { s.core c with tcnt := x } := by
  unfold countWindow
  split
  · obtain ⟨h, -⟩ := addTaskCounter_onlyCore s c tcWindow 1
    exact ⟨by rw [h], by rw [h], addTaskCounter_core s c tcWindow 1 c⟩
  · exact ⟨rfl, rfl, (s.core c).tcnt, rfl⟩

/-- A fence opened, and L1 emptied where it says so. -/
def passFence (s : State) (c g th : Nat) (inval : Bool) : State :=
  if inval then flushL1 (s.modGrp c g (fun gr => normGroup (modThr gr th (fun th => { th with block := .no })))) c
  else s.modGrp c g (fun gr => normGroup (modThr gr th (fun th => { th with block := .no })))

theorem passFence_core (s : State) (c g th : Nat) (inval : Bool) : (passFence s c g th inval).core c =
    if inval then l1Flush (setGrp (s.core c) g (normGroup (modThr (grpOf s c g) th (fun th => { th with block := .no }))))
    else setGrp (s.core c) g (normGroup (modThr (grpOf s c g) th (fun th => { th with block := .no }))) := by
  unfold passFence
  split
  · rw [flushL1_core, core_modGrp, if_pos rfl]; rfl
  · rw [core_modGrp, if_pos rfl]; rfl

theorem passFence_shape (s : State) (c g th : Nat) (inval : Bool) : ∃ gs l rs, (passFence s c g th inval).core c =
    { s.core c with groups := gs, l1 := l, resps := rs } ∧ (inval = true → l = []) := by
  rw [passFence_core]
  generalize normGroup (modThr (grpOf s c g) th (fun th => { th with block := .no })) = v
  cases inval
  · exact ⟨(setGrp (s.core c) g v).groups, (s.core c).l1, (s.core c).resps, rfl, nofun⟩
  · exact ⟨(setGrp (s.core c) g v).groups, [], _, rfl, fun _ => rfl⟩

theorem passFence_tasks (s : State) (c g th : Nat) (inval : Bool) : (passFence s c g th inval).mem = s.mem ∧ (passFence s c g th inval).tasks = s.tasks := by
  unfold passFence
  split <;> exact ⟨rfl, rfl⟩

theorem passFence_thr (s : State) (c g th : Nat) (inval : Bool) :
    (thrOf (passFence s c g th inval) c g th).writes = (thrOf s c g th).writes ∧ Opens { thrOf s c g th with block := .no } (thrOf (passFence s c g th inval) c g th) := by
  have hgrp : grpOf (passFence s c g th inval) c g = normGroup (modThr (grpOf s c g) th (fun th => { th with block := .no })) := by
    unfold grpOf
    rw [passFence_core]
    split
    · rw [grp_l1Flush, grp_setGrp_same]; rfl
    · rw [grp_setGrp_same]; rfl
  unfold thrOf
  rw [hgrp]
  have hthr : thr (modThr (grpOf s c g) th (fun th => { th with block := .no })) th = { thr (grpOf s c g) th with block := .no } := by rw [thr_modThr, if_pos rfl]
  refine ⟨(writes_of_unblocked ((SameRegs.normGroup _).thrs th)).trans (by rw [hthr]), ?_⟩
  exact hthr ▸ OpensG.normGroup _ th

theorem settle_passed {s u : State} {c g th : Nat} {inval : Bool} (hb : (thrOf s c g th).block = .fence inval) (hu : u = passFence s c g th inval) :
    FencePassed s (settleBarriers u c) c g th := by
  subst hu
  have hcore : ∀ {α : Type} (f : Core → α), (∀ k, f k = f (unsettled k)) →
      f ((settleBarriers (passFence s c g th inval) c).core c) = f ((passFence s c g th inval).core c) := by
    intro α f hf
    rw [hf, hf ((passFence s c g th inval).core c), unsettled_settleBarriers]
  obtain ⟨hwrites, hopens⟩ := passFence_thr s c g th inval
  obtain ⟨gs, l, rs, hset, hl⟩ := passFence_shape s c g th inval
  obtain ⟨hmem, htasks⟩ := passFence_tasks s c g th inval
  refine ⟨?_, ?_, ?_, ?_, ?_, fun h => replayHeld_settleBarriers ?_, fun b hfence _ => ⟨fun hblock => ?_, fun ht => ?_⟩⟩
  · rw [settleBarriers_mem, hmem]
  · rw [hcore Core.acks fun _ => rfl, hset]
  · rw [hcore Core.writes fun _ => rfl, hset]
  · exact (writes_of_unblocked ((sameRegs_settleBarriers _ c c g).thrs th)).trans hwrites
  · rw [replaysOf_settleBarriers]
    unfold replaysOf coreTask State.task
    rw [hset, htasks]
  · rw [hset]; exact h
  · have hall := hopens.trans (opens_settleBarriers (passFence s c g th inval) c g th)
    have := hall.block (by rw [hblock]; nofun) (by rw [hblock]; nofun)
    rw [hblock] at this
    cases this
  · rw [hcore Core.l1 fun _ => rfl, hset]
    rw [hb] at hfence
    cases hfence
    exact hl ht

theorem fenceDone_passed (s : State) (c g th : Nat) : FencePassed s (fenceDone s c g th) c g th := by
  have hself : (∀ inval, (thrOf s c g th).block = .fence inval → (thrOf s c g th).writes ≠ 0) → FencePassed s s c g th := fun h =>
    ⟨rfl, rfl, rfl, rfl, rfl, id, fun inval hb hw => absurd hw (h inval hb)⟩
  unfold fenceDone
  split
  next inval hb =>
    split
    next hw => exact settle_passed hb rfl
    next hw => exact hself fun _ _ => hw
  next hno => exact hself fun inval hb => absurd hb (hno inval)

/-- The state of an acknowledgement before its poison is looked at: counted, with a passed fence and the window. -/
def ackCounted (s : State) (c : CoreId) (a : Ack) (as : List Ack) : State := countWindow (fenceDone (countAck s c a as) c a.group a.thread) c a.window

/-- The fault of a poisoned acknowledgement. -/
def ackFault (v : State) (c : CoreId) (a : Ack) : State :=
  raiseFault (countConsumed v (addrUnit v c a.addr) a.addr) c
    { threadRec (countConsumed v (addrUnit v c a.addr) a.addr) c a.group 0xFF 0 2 ⟨cPOISONED, a.addr, 0⟩ with thread := 0xFF }

theorem writeAck_counted {s : State} {c : CoreId} {a : Ack} {as : List Ack} (ha : (s.core c).acks = a :: as) :
    exec (.writeAck c) s = .next (if a.poison ∧ ¬ replayHeld ((ackCounted s c a as).core c) then ackFault (ackCounted s c a as) c a else ackCounted s c a as) := by
  show execWriteAck c s = _
  unfold execWriteAck
  rw [ha]
  rfl

/-- What an acknowledgement leaves: its queue, one write-through fewer, an open fence, no other byte and no other replay. -/
structure AckKept (s t : State) (c : CoreId) (a : Ack) (as : List Ack) : Prop where
  acks : (t.core c).acks = as
  mem : t.mem = s.mem
  writes : (t.core c).writes = (s.core c).writes - 1
  thread : (thrOf t c a.group a.thread).writes = (thrOf s c a.group a.thread).writes - 1
  fence : ∀ inval, (thrOf s c a.group a.thread).block = .fence inval → (thrOf s c a.group a.thread).writes = 1 →
    (thrOf t c a.group a.thread).block ≠ .fence inval ∧ (inval = true → (t.core c).l1 = [])

theorem ackCounted_kept (s : State) (c : CoreId) (a : Ack) (as : List Ack) : AckKept s (ackCounted s c a as) c a as := by
  obtain ⟨gs, hcount⟩ := countAck_core s c a as
  have hthr := countAck_thr s c a as
  have hpass := fenceDone_passed (countAck s c a as) c a.group a.thread
  obtain ⟨hvmem, -, n, hvcore⟩ := countWindow_core (fenceDone (countAck s c a as) c a.group a.thread) c a.window
  have hvthr : thrOf (ackCounted s c a as) c a.group a.thread = thrOf (fenceDone (countAck s c a as) c a.group a.thread) c a.group a.thread := by
    unfold thrOf grpOf ackCounted; rw [hvcore]; rfl
  refine ⟨?_, hvmem.trans (hpass.mem.trans rfl), ?_, by rw [hvthr, hpass.thread, hthr], fun inval hb hw => ?_⟩
  · unfold ackCounted; rw [hvcore]; exact hpass.acks.trans (by rw [hcount])
  · unfold ackCounted; rw [hvcore]; exact hpass.writes.trans (by rw [hcount])
  · rw [hvthr]
    unfold ackCounted
    rw [hvcore]
    exact hpass.opens inval (by rw [hthr]; exact hb) (by rw [hthr]; show (thrOf s c a.group a.thread).writes - 1 = 0; rw [hw])

theorem ackCounted_replays (s : State) (c : CoreId) (a : Ack) (as : List Ack) : replaysOf (ackCounted s c a as) c = replaysOf s c := by
  obtain ⟨gs, hcount⟩ := countAck_core s c a as
  obtain ⟨-, hvtasks, n, hvcore⟩ := countWindow_core (fenceDone (countAck s c a as) c a.group a.thread) c a.window
  have h1 : replaysOf (ackCounted s c a as) c = replaysOf (fenceDone (countAck s c a as) c a.group a.thread) c := by
    unfold replaysOf coreTask State.task ackCounted; rw [hvcore, hvtasks]
  have h2 : replaysOf (countAck s c a as) c = replaysOf s c := by unfold replaysOf coreTask; rw [hcount]; rfl
  rw [h1, (fenceDone_passed _ _ _ _).replays, h2]

theorem ackCounted_held {s : State} {c : CoreId} {a : Ack} {as : List Ack} (h : replayHeld (s.core c) = false) :
    replayHeld ((ackCounted s c a as).core c) = false := by
  obtain ⟨gs, hcount⟩ := countAck_core s c a as
  obtain ⟨-, -, n, hvcore⟩ := countWindow_core (fenceDone (countAck s c a as) c a.group a.thread) c a.window
  unfold ackCounted
  rw [hvcore]
  exact (fenceDone_passed (countAck s c a as) c a.group a.thread).held (by rw [hcount]; exact h)

theorem ackFault_kept {s v : State} {c : CoreId} {a : Ack} {as : List Ack} (h : AckKept s v c a as) : AckKept s (ackFault v c a) c a as := by
  obtain ⟨hmem, ⟨p, q, t, hcore⟩, -⟩ := raisePoison_core v c (addrUnit v c a.addr) a.addr
    { threadRec (countConsumed v (addrUnit v c a.addr) a.addr) c a.group 0xFF 0 2 ⟨cPOISONED, a.addr, 0⟩ with thread := 0xFF } rfl
  have hth : ∀ x, thrOf (ackFault v c a) c a.group x = thrOf v c a.group x := fun x => by unfold thrOf grpOf ackFault; rw [hcore]; rfl
  refine ⟨?_, hmem.trans h.mem, ?_, by rw [hth]; exact h.thread, fun inval hb hw => ?_⟩
  · unfold ackFault; rw [hcore]; exact h.acks
  · unfold ackFault; rw [hcore]; exact h.writes
  · rw [hth]; unfold ackFault; rw [hcore]; exact h.fence inval hb hw

theorem ackFault_stops {v : State} {c : CoreId} (a : Ack) (hheld : replayHeld (v.core c) = false) (hrep : replaysOf v c = some 0) :
    ((ackFault v c a).core c).phase = .stopped ∧ ((ackFault v c a).core c).fault = cPOISONED := by
  obtain ⟨-, -, hstop⟩ := raisePoison_core v c (addrUnit v c a.addr) a.addr
    { threadRec (countConsumed v (addrUnit v c a.addr) a.addr) c a.group 0xFF 0 2 ⟨cPOISONED, a.addr, 0⟩ with thread := 0xFF } rfl
  exact hstop hheld hrep

theorem replaysOf_task {s : State} {c : CoreId} {k : Task} (hk : coreTask s c = some k) (h0 : k.replays = 0) : replaysOf s c = some 0 := by
  unfold replaysOf; rw [hk]; exact congrArg some h0

theorem loadResponse_delivers {s : State} {c : CoreId} {r : Resp} {rs : List Resp} (hr : (s.core c).resps = r :: rs) :
    exec (.loadResponse c) s = .next (deliver s c r) := by
  show execLoadResponse c s = _
  unfold execLoadResponse
  rw [hr]

theorem deliver_held_only {s : State} {c : CoreId} {r : Resp} (hheld : replayHeld (s.core c) = true) :
    OnlyCore s (deliver s c r) c ∧ ((deliver s c r).core c).groups = (s.core c).groups ∧ ((deliver s c r).core c).phase = (s.core c).phase := by
  rw [deliver_held r hheld, popResp_core]
  exact ⟨⟨rfl, fun d hd => core_modCore_other _ _ hd⟩, rfl, rfl⟩

theorem deliver_poison_thr {s : State} {c : CoreId} {r : Resp} {rs : List Resp} (hr : (s.core c).resps = r :: rs) (hheld : replayHeld (s.core c) = false)
    (hp : r.poison = true) :
    (∀ p ∈ (thrOf (deliver s c r) c r.group r.thread).pend, p.req ≠ r.req) ∧ ∀ g th q, gprOf (deliver s c r) c g th q = gprOf s c g th q := by
  obtain ⟨-, -, hgrp, -⟩ := deliver_poison_holds hr hheld hp
  refine ⟨fun p hpend => ?_, fun g th q => ?_⟩
  · have hthr : thrOf (deliver s c r) c r.group r.thread = thr (takePend (grpOf s c r.group) r.thread r.req).1 r.thread := by
      unfold thrOf; rw [hgrp, if_pos rfl]
    rw [hthr, takePend_thr, if_pos rfl] at hpend
    simpa using (List.mem_filter.1 hpend).2
  · unfold gprOf thrOf
    rw [hgrp]
    split
    next e =>
      subst e
      rw [takePend_thr]
      split
      next e => subst e; rfl
      · rfl
    · rfl

/-- Settles O15: a response's words and waits are those of its thread, and settling a core changes none of them; an acknowledgement likewise. -/
theorem responsesReachTheirThread : Obligations.ResponsesReachTheirThread := by
  unfold Obligations.ResponsesReachTheirThread
  refine ⟨fun s c r rs hr => ⟨_, loadResponse_delivers hr, ?_⟩, fun s c a as ha => ⟨_, writeAck_counted ha, ?_⟩⟩
  · cases hheld : replayHeld (s.core c) with
    | true =>
      refine ⟨?_, ?_, fun _ => deliver_held_only hheld, nofun⟩
      · rw [deliver_held r hheld]; exact popResp_resps hr
      · rw [deliver_held r hheld]; rfl
    | false =>
      cases hp : r.poison with
      | false =>
        obtain ⟨hresps, hmem, hthr⟩ := deliver_clean_holds hr hheld hp
        refine ⟨hresps, hmem, nofun, fun _ => ⟨?_, fun _ p hpend hreq code hcode hc => ?_, nofun⟩⟩
        · rw [pend_of_unblocked hthr]; exact answeredGrp_pend r _
        · unfold gprOf; rw [gpr_of_unblocked hthr]; exact answeredGrp_get hpend hreq hcode hc
      | true =>
        obtain ⟨hresps, hmem, -, hstop⟩ := deliver_poison_holds hr hheld hp
        obtain ⟨hpend, hgpr⟩ := deliver_poison_thr hr hheld hp
        exact ⟨hresps, hmem, nofun, fun _ => ⟨hpend, nofun, fun _ => ⟨hgpr, fun k hk h0 => hstop (replaysOf_task hk h0)⟩⟩⟩
  · have hv := ackCounted_kept s c a as
    split
    next hp =>
      obtain ⟨hacks, hmem, hwrites, hthread, hfence⟩ := ackFault_kept hv
      exact ⟨hacks, hmem, hwrites, hthread, hfence, fun _ hno k hk h0 =>
        ackFault_stops a (ackCounted_held hno) ((ackCounted_replays s c a as).trans (replaysOf_task hk h0))⟩
    next hp => exact ⟨hv.acks, hv.mem, hv.writes, hv.thread, hv.fence, fun hpo hno => absurd ⟨hpo, by rw [ackCounted_held hno]; decide⟩ hp⟩

end Sys2Proof.Machine
end

section
/-! SUPPORT. Bursts of the load units (R196 to R198, R416). -/
namespace Sys2Proof.Machine

theorem setRun_mem (s : State) (u : LoadUnit) (r : GridRun) : (setRun s u r).mem = s.mem := by cases u <;> rfl

theorem unitRun_setRun (s : State) (u : LoadUnit) (r : GridRun) : unitRun (setRun s u r) u = r := by
  cases u with
  | grid c => show ((s.modCore c _).core c).grid = r; rw [core_modCore_same]
  | attn cl => show ((s.modCluster cl _).cluster cl).attnRun = r; rw [cluster_modCluster_same]

theorem countWake_pmc (s : State) (u : LoadUnit) : ∃ p, countWake s u = { s with pmc := p } := by
  cases u with
  | grid c => exact countCore_pmc ..
  | attn cl => exact ⟨s.pmc, rfl⟩

/-- A change of a cluster's raise leaves every unit's burst state. -/
theorem unitRun_preRaise (s : State) (u : LoadUnit) (cl n : Nat) : unitRun (s.modCluster cl (fun k => { k with preRaise := n })) u = unitRun s u := by
  cases u with
  | grid c => rfl
  | attn e =>
    show ((s.modCluster cl _).cluster e).attnRun = (s.cluster e).attnRun
    by_cases h : e.val = cl
    · rw [h, cluster_modCluster_same]
    · rw [cluster_modCluster_other _ _ h]

section
variable {s : State} {u : LoadUnit}

theorem loadNotice_announces (hrun : unitRun s u = .stopped) (hwant : unitWanted s u = true) :
    ∃ t, exec (.loadNotice u) s = .next t ∧ t.mem = s.mem ∧ unitRun t u = .notice ∧
      (t.cluster (unitCluster u)).preRaise = min 20 (920 - s.regField (rCfloor (unitCluster u)) 9 0) := by
  obtain ⟨p, hp⟩ := countEvent_pmc (setRun s u .notice) 1 (unitCluster u) 0x46 1 ⟨none, none, none, none, none⟩
  obtain ⟨q, hq⟩ := countWake_pmc { setRun s u .notice with pmc := p } u
  have hexec : exec (.loadNotice u) s = .next ({ setRun s u .notice with pmc := q }.modCluster (unitCluster u) (fun k =>
      { k with preRaise := min 20 (920 - s.regField (rCfloor (unitCluster u)) 9 0) })) := by
    show execLoadNotice u s = _
    unfold execLoadNotice
    rw [if_pos ⟨hrun, hwant⟩, hp, hq]
  refine ⟨_, hexec, setRun_mem s u .notice, ?_, ?_⟩
  · rw [unitRun_preRaise]
    exact (show unitRun { setRun s u .notice with pmc := q } u = unitRun (setRun s u .notice) u by cases u <;> rfl).trans (unitRun_setRun ..)
  · rw [cluster_modCluster_same]

theorem setRun_step {c : Instr} {r : GridRun} (h : exec c s = .next (setRun s u r)) : ∃ t, exec c s = .next t ∧ t.mem = s.mem ∧ unitRun t u = r :=
  ⟨_, h, setRun_mem s u r, unitRun_setRun s u r⟩

theorem preRaise_returns (cl : ClusterId) (hattn : (s.cluster cl).attnRun ≠ .notice) (hacked : (s.cluster cl).attnRun ≠ .acked)
    (hcores : ∀ c ∈ clusterCores cl, (s.core c).grid ≠ .notice ∧ (s.core c).grid ≠ .acked) :
    ∃ t, exec (.preRaiseReturn cl) s = .next t ∧ t.mem = s.mem ∧ (t.cluster cl).preRaise = 0 ∧ ∀ e, e ≠ cl.val → t.cluster e = s.cluster e := by
  have hidle : ((unitRun s (.attn cl) == .notice || unitRun s (.attn cl) == .acked) ||
      (clusterCores cl).any (fun c => (s.core c).grid == .notice || (s.core c).grid == .acked)) = false := by
    rw [Bool.or_eq_false_iff, List.any_eq_false]
    refine ⟨?_, fun c hc => ?_⟩
    · show ((s.cluster cl).attnRun == .notice || (s.cluster cl).attnRun == .acked) = false
      simp [hattn, hacked]
    · obtain ⟨hn, ha⟩ := hcores c hc
      simp [hn, ha]
  refine ⟨s.modCluster cl (fun k => { k with preRaise := 0 }), ?_, rfl, by rw [cluster_modCluster_same], fun e he => cluster_modCluster_other _ _ he⟩
  show execPreRaiseReturn cl s = _
  unfold execPreRaiseReturn
  dsimp only
  rw [hidle]
  rfl

end

/-- Settles O24: each command changes the unit's burst state, or its cluster's raise, and nothing of memory. -/
theorem loadUnitsAnnounceTheirBursts : Obligations.LoadUnitsAnnounceTheirBursts := by
  unfold Obligations.LoadUnitsAnnounceTheirBursts
  intro s u
  refine ⟨loadNotice_announces, fun hrun => setRun_step ?_, preRaise_returns, fun hrun hempty => setRun_step ?_, fun hidle hempty hq => setRun_step ?_⟩
  · show execLoadNoticeAck u s = _
    unfold execLoadNoticeAck
    rw [if_pos hrun]
  · show execBurstEnd u s = _
    unfold execBurstEnd
    rw [if_pos ⟨hrun, hempty⟩]
  · show execGridStop u s = _
    unfold execGridStop
    cases u with
    | grid c =>
      dsimp only
      rw [if_pos ⟨hidle, by rw [hq c rfl]; rfl⟩]
    | attn cl =>
      dsimp only
      rw [if_pos ⟨hidle, hempty⟩]

end Sys2Proof.Machine
end

section
/-! SUPPORT. What the errors that reads find can touch (R293, R300, R301, R311, R316). -/
namespace Sys2Proof.Machine

/-- Nothing but memory, poison, caches, registers, error counts, logs and what is sent differs. -/
def FlawsOnly (s t : State) : Prop :=
  t = { s with mem := t.mem, poison := t.poison, regs := t.regs, ecc := t.ecc, ras := t.ras, msix := t.msix, out := t.out, llc := t.llc }

theorem FlawsOnly.rfl {s : State} : FlawsOnly s s := by unfold FlawsOnly; rfl
theorem FlawsOnly.trans {a b c : State} (h : FlawsOnly a b) (k : FlawsOnly b c) : FlawsOnly a c := by
  unfold FlawsOnly at *; rw [k, h]

theorem LogsOnly.flaws {s t : State} (h : LogsOnly s t) : FlawsOnly s t := by
  unfold LogsOnly at h; unfold FlawsOnly; rw [h]

section
variable {s t : State} (h : FlawsOnly s t)
include h
theorem FlawsOnly.cores : t.cores = s.cores := by unfold FlawsOnly at h; rw [h]
theorem FlawsOnly.tasks : t.tasks = s.tasks := by unfold FlawsOnly at h; rw [h]
theorem FlawsOnly.fresh : t.fresh = s.fresh := by unfold FlawsOnly at h; rw [h]
theorem FlawsOnly.core (c : Nat) : t.core c = s.core c := by unfold State.core; rw [h.cores]
theorem FlawsOnly.coreTask (c : Nat) : coreTask t c = coreTask s c := by unfold Machine.coreTask State.task; rw [h.core, h.tasks]
end

theorem ecc_flaws (s : State) (e : Ecc) : FlawsOnly s { s with ecc := e } := by unfold FlawsOnly; rfl
theorem llc_flaws (s : State) (l : Llc) : FlawsOnly s { s with llc := l } := by unfold FlawsOnly; rfl
theorem modLine_flaws (s : State) (l : Nat) (f : Line → Line) : FlawsOnly s (modLine s l f) := by unfold FlawsOnly; rfl
theorem poisonBytes_flaws (s : State) (a n : Nat) : FlawsOnly s (poisonBytes s a n) := by unfold FlawsOnly; rfl

theorem flaws_foldl {α : Type} (f : State → α → State) (hf : ∀ s a, FlawsOnly s (f s a)) (l : List α) (s : State) : FlawsOnly s (l.foldl f s) := by
  induction l generalizing s with
  | nil => exact .rfl
  | cons a l ih => rw [List.foldl_cons]; exact (hf s a).trans (ih _)

theorem noteCe_flaws (s : State) (u a : Nat) : FlawsOnly s (noteCe s u a) := by
  unfold noteCe
  dsimp only
  split
  · exact (setField_logsOnly ..).flaws.trans (ecc_flaws ..)
  · exact (setField_logsOnly ..).flaws.trans ((ecc_flaws ..).trans (rasLog_logsOnly ..).flaws)

theorem countUe_flaws (s : State) (u a code source : Nat) : FlawsOnly s (countUe s u a code source) :=
  (setField_logsOnly ..).flaws.trans (rasLog_logsOnly ..).flaws

theorem logCe_flaws (s : State) (u a : Nat) : FlawsOnly s (logCe s u a) := by
  unfold logCe
  exact (noteCe_flaws s u a).trans (ecc_flaws ..)

theorem noteFind_flaws (s : State) (k : Nat) (f : Find) (r : Option ScrubRun) : FlawsOnly s (noteFind s k f r) := by
  unfold noteFind
  dsimp only
  split
  · exact (ecc_flaws ..).trans (ecc_flaws ..)
  · split
    · exact ecc_flaws ..
    · unfold FlawsOnly; rfl

theorem poisonSram_flaws (s : State) (a n : Nat) : FlawsOnly s (poisonSram s a n) := (modLine_flaws ..).trans (poisonBytes_flaws ..)

theorem poisonHbm_flaws (s : State) (x : Nat) : FlawsOnly s (poisonHbm s x) := by
  unfold poisonHbm
  split
  · exact poisonBytes_flaws ..
  · split
    · exact .rfl
    · exact modLine_flaws ..

theorem sramFlaw_flaws (src : Nat) (r : Option ScrubRun) (a n : Nat) (s : State) (e : Flaw) : FlawsOnly s (sramFlaw src r a n s e) := by
  unfold sramFlaw
  dsimp only
  split
  · exact .rfl
  · split
    · exact .rfl
    · split
      · exact noteCe_flaws ..
      · exact (poisonSram_flaws ..).trans (countUe_flaws ..)
  · split
    · exact .rfl
    · split
      · exact (noteFind_flaws ..).trans ((poisonSram_flaws ..).trans (countUe_flaws ..))
      · exact (noteFind_flaws ..).trans ((logCe_flaws ..).trans (llc_flaws ..))

theorem hbmFlaw_flaws (src : Nat) (r : Option ScrubRun) (a n : Nat) (s : State) (e : Flaw) : FlawsOnly s (hbmFlaw src r a n s e) := by
  unfold hbmFlaw
  dsimp only
  split
  · exact noteCe_flaws ..
  · exact .rfl
  · split
    · exact .rfl
    · split
      · exact (noteFind_flaws ..).trans ((poisonHbm_flaws ..).trans (countUe_flaws ..))
      · exact (noteFind_flaws ..).trans ((noteCe_flaws ..).trans (llc_flaws ..))

theorem storeFlaw_flaws (c lo n : Nat) (s : State) (e : Flaw) : FlawsOnly s (storeFlaw c lo n s e) := by
  unfold storeFlaw
  split
  · dsimp only
    split
    · exact .rfl
    · split
      · exact (poisonBytes_flaws ..).trans (countUe_flaws ..)
      · exact noteCe_flaws ..
  · split
    · exact .rfl
    · exact noteCe_flaws ..
  · exact .rfl

theorem sramRead_flaws (s : State) (a n : Nat) (e : EccRes) (src : Nat) : FlawsOnly s (sramRead s a n e src) :=
  flaws_foldl _ (fun _ _ => sramFlaw_flaws ..) e s

theorem hbmRead_flaws (s : State) (a n : Nat) (e : EccRes) : FlawsOnly s (hbmRead s a n e) := flaws_foldl _ (fun _ _ => hbmFlaw_flaws ..) e s

/-- The errors that an engine's reads find leave cores and tasks alone. -/
theorem findErrs_flaws (c : Nat) (s : State) (errs : List (Nat × Flaw)) : FlawsOnly s (findErrs c s errs) := by
  unfold findErrs
  refine flaws_foldl _ (fun s p => ?_) errs s
  obtain ⟨a, e⟩ := p
  dsimp only
  split
  · exact storeFlaw_flaws ..
  · split
    · exact .rfl
    · split
      · exact sramFlaw_flaws ..
      · exact hbmFlaw_flaws ..

end Sys2Proof.Machine
end

section
/-! SUPPORT. What takes an operation out of an engine's queue, and what the accumulator sets of a core hold (R118, R186, R202). -/
namespace Sys2Proof.Machine

/-! ## Completed tickets -/

theorem core_modCore (s : State) (c : Nat) (f : Core → Core) : (s.modCore c f).core c = f (s.core c) := core_modCore_same ..

/-- Waking the threads of a completed ticket settles the core, and changes of everything else the tasks at most. -/
theorem wakeTickets_eq (s : State) (c : Nat) : ∃ k ts, wakeTickets s c = { s.setCore c k with tasks := ts } ∧ unsettled k = unsettled (s.core c) := by
  let woken := (heldGroups (s.core c)).foldl (fun k g => setGrp k g (normGroup (modThrs (grp k g) (liveThreads (grp k g)) (fun _ t =>
      match t.block with
      | .ticket v => if ticketState k v == some true then { t with block := .no } else t
      | _ => t)))) (s.core c)
  have hwoken : noGroups woken = noGroups (s.core c) := noGroups_foldl (s.core c) _ (fun g k => normGroup (modThrs (grp k g) (liveThreads (grp k g)) (fun _ t =>
      match t.block with
      | .ticket v => if ticketState k v == some true then { t with block := .no } else t
      | _ => t)))
  obtain ⟨ts, hts⟩ := settleBarriers_eq (s.setCore c woken) c
  rw [core_setCore_same, setCore_setCore] at hts
  refine ⟨settledK woken, ts, hts, (unsettled_settledK woken).trans ?_⟩
  exact congrArg (fun k : Core => { k with genT := 0, phase := .idle, ckptNext := none }) hwoken

theorem wakeTickets_mem (s : State) (c : Nat) : (wakeTickets s c).mem = s.mem := by obtain ⟨k, ts, h, -⟩ := wakeTickets_eq s c; rw [h]; rfl
theorem wakeTickets_poison (s : State) (c : Nat) : (wakeTickets s c).poison = s.poison := by obtain ⟨k, ts, h, -⟩ := wakeTickets_eq s c; rw [h]; rfl

theorem wakeTickets_core {α : Type} (f : Core → α) (hf : ∀ k, f k = f (unsettled k)) (s : State) (c : Nat) : f ((wakeTickets s c).core c) = f (s.core c) := by
  obtain ⟨k, ts, h, hk⟩ := wakeTickets_eq s c
  have hcore : (wakeTickets s c).core c = k := by rw [h]; exact core_setCore_same ..
  rw [hcore, hf, hk, ← hf]

theorem endMma_mem (s : State) (c seq : Nat) : (endMma s c seq).mem = s.mem := (wakeTickets_mem ..).trans rfl

theorem endMma_gone (s : State) (c seq : Nat) : ∀ p ∈ ((endMma s c seq).core c).mmaQ, p.org.seq ≠ seq := by
  have h : ((endMma s c seq).core c).mmaQ = (s.core c).mmaQ.filter (fun o => o.org.seq != seq) := by
    refine (wakeTickets_core Core.mmaQ (fun _ => rfl) _ c).trans ?_
    rw [core_modCore_same]
  intro p hp
  rw [h] at hp
  simpa using (List.mem_filter.1 hp).2

theorem endMma_accs (s : State) (c seq : Nat) : ((endMma s c seq).core c).accs = (s.core c).accs := by
  refine (wakeTickets_core Core.accs (fun _ => rfl) _ c).trans ?_
  rw [core_modCore_same]

/-! ## Core faults -/

theorem leaveDispatch_core (s : State) (c : Nat) : (leaveDispatch s c).core c = { s.core c with svc := max (s.core c).svc 1 } := by
  have hl := fun u : State => refreshClcore_logsOnly u (clusterOf c)
  have hsvc : (s.modCore c (fun k => { k with svc := max k.svc 1 })).core c = { s.core c with svc := max (s.core c).svc 1 } := core_modCore_same ..
  unfold leaveDispatch
  dsimp only
  rw [show ∀ u, (refreshClcore u (clusterOf c)).core c = u.core c from fun u => by unfold State.core; rw [(hl u).cores]]
  split <;> exact hsvc

theorem stopCore_core {s : State} {c : Nat} (h : (s.core c).task.isSome = true) (code : Nat) :
    (stopCore s c code).core c = { s.core c with phase := .stopped, fault := code, faultAt := s.clk.tick } := by
  obtain ⟨ts, hts⟩ := modCoreTask_eq s c (giveWay s.clk.tick)
  unfold stopCore
  rw [if_pos h, core_modCore_same, hts]
  rfl

/-- The core after a fault of its own. -/
theorem coreFault_core {s : State} {c : Nat} (h : (s.core c).task.isSome = true) (code : Nat) :
    ∃ n, (coreFault s c code).core c = { s.core c with test := code, svc := max (s.core c).svc 1, phase := .stopped, fault := code, faultAt := n } := by
  let u := leaveDispatch (s.modCore c (fun k => { k with test := code })) c
  have hu : u.core c = { s.core c with test := code, svc := max (s.core c).svc 1 } := by
    show (leaveDispatch _ c).core c = _
    rw [leaveDispatch_core, core_modCore_same]
  let v := rasLog u (evTask u c (logEv code (unitOf 4 c) (if decide (code < rasCoreFault) then gstat u c else (u.reg (rClcore (clusterOf c))).toNat)))
  have hv : v.core c = u.core c := by
    have hlog : LogsOnly u v := rasLog_logsOnly ..
    unfold State.core; rw [hlog.cores]
  have hstop : coreFault s c code = stopCore v c code := rfl
  rw [hstop, stopCore_core (by rw [hv, hu]; exact h), hv, hu]
  exact ⟨_, rfl⟩

/-- A fault of a core that runs a rank: the core leaves service and stops. -/
theorem coreFault_leaves {s : State} {c : Nat} (h : (s.core c).task.isSome = true) (code : Nat) :
    (coreFault s c code).mem = s.mem ∧ 1 ≤ ((coreFault s c code).core c).svc ∧ ((coreFault s c code).core c).test = code ∧
      ((coreFault s c code).core c).phase = .stopped := by
  obtain ⟨-, -, hmem⟩ := coreFault_stopped h code
  obtain ⟨n, hcore⟩ := coreFault_core h code
  rw [hcore]
  exact ⟨hmem, le_max_right .., rfl, rfl⟩

/-! ## Accumulator sets -/

theorem setAcc_acc (s : State) (c acc : Nat) (x : AccSet) : accOf ((setAcc s c acc x).core c) acc = x := by
  have hsame : ∀ t : Tab AccSet, tget AccSet.empty (tset AccSet.empty t acc x) acc = x := fun t => tget_tset_same ..
  unfold setAcc accOf
  rw [core_modCore_same]
  dsimp only
  split
  · exact (tget_tset_other _ _ _ (by omega : acc ≠ acc + 2)).trans (hsame _)
  · exact hsame _

theorem setAcc_core (s : State) (c acc : Nat) (x : AccSet) : ∃ a, (setAcc s c acc x).core c = { s.core c with accs := a } := by
  unfold setAcc
  rw [core_modCore_same]
  dsimp only
  split <;> exact ⟨_, rfl⟩

theorem setAcc_mem (s : State) (c acc : Nat) (x : AccSet) : (setAcc s c acc x).mem = s.mem := rfl

theorem addTaskCounter_mem (s : State) (c k n : Nat) : (addTaskCounter s c k n).mem = s.mem := by rw [(addTaskCounter_onlyCore s c k n).1]
theorem addTaskCounter_poison (s : State) (c k n : Nat) : (addTaskCounter s c k n).poison = s.poison := by rw [(addTaskCounter_onlyCore s c k n).1]
theorem countFixed_mem (s : State) (c id n : Nat) : (countFixed s c id n).mem = s.mem := by rw [countFixed_eq]

/-- A tile begins: its set stands, and of the core nothing else changes but task counters. -/
theorem beginTile_holds (s : State) (c : CoreId) (d : MmaD) :
    (beginTile s c d).mem = s.mem ∧ (∃ a x, (beginTile s c d).core c = { s.core c with accs := a, tcnt := x }) ∧
      accOf ((beginTile s c d).core c) d.acc = startSet s.mem c d (accOf (s.core c) d.acc) (Config.zeroTileL s.fresh) := by
  let x := startSet s.mem c d (accOf (s.core c) d.acc) (Config.zeroTileL s.fresh)
  let u : State := { setAcc s c d.acc x with fresh := s.fresh + 1 }
  obtain ⟨a, ha⟩ := setAcc_core s c d.acc x
  have hu : u.core c = { s.core c with accs := a } := ha
  have hacc : accOf (u.core c) d.acc = x := setAcc_acc s c d.acc x
  have hbegin : beginTile s c d = if x.ordered && (d.init != 1 || d.mx) then addTaskCounter u c tcWindow 1 else u := rfl
  rw [hbegin]
  split
  · obtain ⟨n, hn⟩ := addTaskCounter_core u c tcWindow 1 c
    rw [hn]
    exact ⟨addTaskCounter_mem u c tcWindow 1, ⟨a, n, by rw [hu]⟩, hacc⟩
  · exact ⟨rfl, ⟨a, (s.core c).tcnt, by rw [hu]⟩, hacc⟩

/-- An operation of the grid's queue after a change of its phase. -/
theorem modMma_core (s : State) (c seq : Nat) (f : MmaOp → MmaOp) :
    (modMma s c seq f).core c = { s.core c with mmaQ := (s.core c).mmaQ.map (fun o => if o.org.seq = seq then f o else o) } := core_modCore_same ..

theorem modMma_stands {s : State} {c : Nat} {o : MmaOp} {ph : MmaPhase} (ho : o ∈ (s.core c).mmaQ) :
    ∃ p ∈ ((modMma s c o.org.seq (fun o => { o with phase := ph })).core c).mmaQ, p.org = o.org ∧ p.phase = ph := by
  rw [modMma_core]
  exact ⟨{ o with phase := ph }, List.mem_map.2 ⟨o, ho, if_pos rfl⟩, rfl, rfl⟩

end Sys2Proof.Machine
end

section
/-! SUPPORT. The phases of an MMA in the grid (R182 to R186, R200, R201). -/
namespace Sys2Proof.Machine

theorem task_of_coreIssues {s : State} {c : Nat} (h : coreIssues s c = true) : (s.core c).task.isSome = true := by
  unfold coreIssues coreTask at h
  cases ht : (s.core c).task with
  | none => rw [ht] at h; simp at h
  | some n => rfl

section
variable {s : State} {c : CoreId} {o : MmaOp}

/-- The head of the queue starts: its tile begins, unless it takes the set over later, and it streams. -/
theorem mmaStart_starts (hissue : coreIssues s c = true) (hq : (s.core c).mmaQ.find? (fun o => o.phase == .queued) = some o)
    (hmay : mmaMayStart (s.core c) o = true) (hclean : feederPoison s c (mmaD o.desc) = none) :
    ∃ t, exec (.mmaStart c) s = .next t ∧ t.mem = s.mem ∧ (∃ p ∈ (t.core c).mmaQ, p.org = o.org ∧ p.phase = .streaming) ∧
      (t.core c).grid = .running ∧ accOf (t.core c) (mmaD o.desc).acc = (if (mmaD o.desc).rebases then accOf (s.core c) (mmaD o.desc).acc
        else startSet s.mem c (mmaD o.desc) (accOf (s.core c) (mmaD o.desc).acc) (Config.zeroTileL s.fresh)) := by
  obtain ⟨p, hp⟩ := countCore_pmc s c 0x0D 1 none
  let u : State := { s with pmc := p }
  let v := if (mmaD o.desc).rebases then u else beginTile u c (mmaD o.desc)
  have hv : v.mem = s.mem ∧ (∃ a x, v.core c = { s.core c with accs := a, tcnt := x }) ∧
      accOf (v.core c) (mmaD o.desc).acc = (if (mmaD o.desc).rebases then accOf (s.core c) (mmaD o.desc).acc
        else startSet s.mem c (mmaD o.desc) (accOf (s.core c) (mmaD o.desc).acc) (Config.zeroTileL s.fresh)) := by
    show (if (mmaD o.desc).rebases then u else beginTile u c (mmaD o.desc)).mem = s.mem ∧
      (∃ a x, (if (mmaD o.desc).rebases then u else beginTile u c (mmaD o.desc)).core c = _) ∧
      accOf ((if (mmaD o.desc).rebases then u else beginTile u c (mmaD o.desc)).core c) _ = _
    split
    · exact ⟨rfl, ⟨(s.core c).accs, (s.core c).tcnt, rfl⟩, rfl⟩
    · exact beginTile_holds u c (mmaD o.desc)
  obtain ⟨hmem, ⟨a, x, hcore⟩, hacc⟩ := hv
  have hexec : exec (.mmaStart c) s = .next ((modMma v c o.org.seq (fun o => { o with phase := .streaming })).modCore c (fun k => { k with grid := .running })) := by
    show execMmaStart c s = _
    unfold execMmaStart
    dsimp only
    rw [hq]
    dsimp only
    rw [if_neg (by simp [hissue, hmay]), hclean]
    dsimp only
    rw [hp]
  have hmem_o : o ∈ (v.core c).mmaQ := by rw [hcore]; exact List.mem_of_find?_eq_some hq
  refine ⟨_, hexec, hmem, ?_, ?_, ?_⟩
  · rw [core_modCore_same]; exact modMma_stands hmem_o
  · rw [core_modCore_same]
  · rw [core_modCore_same, modMma_core]; exact hacc

/-- The last products: the set holds them, and the MMA waits for its drain or has left. -/
theorem mmaLastProduct_completes {errs : List (Nat × Flaw)} (hissue : coreIssues s c = true) (hq : (s.core c).mmaQ.find? (fun o => o.phase == .streaming) = some o)
    (hclean : feederPoison (findErrs c s errs) c (mmaD o.desc) = none) :
    ∃ t, exec (.mmaLastProduct ⟨c, errs⟩) s = .next t ∧ t.mem = (findErrs c s errs).mem ∧
      accOf (t.core c) (mmaD o.desc).acc = accSet (findErrs c s errs).mem c (mmaD o.desc) (if (mmaD o.desc).rebases then
        startSet (findErrs c s errs).mem c (mmaD o.desc) (accOf (s.core c) (mmaD o.desc).acc) (Config.zeroTileL s.fresh)
        else accOf (s.core c) (mmaD o.desc).acc) ∧
      ((mmaD o.desc).drain = true → ∃ p ∈ (t.core c).mmaQ, p.org = o.org ∧ p.phase = .products) ∧
      ((mmaD o.desc).drain = false → ∀ p ∈ (t.core c).mmaQ, p.org.seq ≠ o.org.seq) := by
  have hflaws := findErrs_flaws c s errs
  let u := findErrs c s errs
  have hu : u.core c = s.core c := hflaws.core c
  let v := if (mmaD o.desc).rebases then beginTile u c (mmaD o.desc) else u
  let old := if (mmaD o.desc).rebases then startSet u.mem c (mmaD o.desc) (accOf (s.core c) (mmaD o.desc).acc) (Config.zeroTileL s.fresh)
    else accOf (s.core c) (mmaD o.desc).acc
  have hv : v.mem = u.mem ∧ (∃ a x, v.core c = { s.core c with accs := a, tcnt := x }) ∧ accOf (v.core c) (mmaD o.desc).acc = old := by
    show (if (mmaD o.desc).rebases then beginTile u c (mmaD o.desc) else u).mem = u.mem ∧
      (∃ a x, (if (mmaD o.desc).rebases then beginTile u c (mmaD o.desc) else u).core c = _) ∧
      accOf ((if (mmaD o.desc).rebases then beginTile u c (mmaD o.desc) else u).core c) _ = if _ then _ else _
    split
    · have h := beginTile_holds u c (mmaD o.desc)
      rw [hu, hflaws.fresh] at h
      exact h
    · rw [hu]; exact ⟨rfl, ⟨(s.core c).accs, (s.core c).tcnt, rfl⟩, rfl⟩
  obtain ⟨hmem, ⟨a, x, hcore⟩, hold⟩ := hv
  let y := accSet u.mem c (mmaD o.desc) old
  let w := countFixed (setAcc v c (mmaD o.desc).acc y) c 3 (mmaSteps v c (mmaD o.desc))
  let z := if y.ordered && !old.ordered then addTaskCounter w c tcWindow 1 else w
  obtain ⟨b, hb⟩ := setAcc_core v c (mmaD o.desc).acc y
  have hw : w.mem = u.mem ∧ w.core c = { v.core c with accs := b } ∧ accOf (w.core c) (mmaD o.desc).acc = y := by
    refine ⟨?_, ?_, ?_⟩
    · exact (countFixed_mem ..).trans hmem
    · exact (countFixed_core ..).trans hb
    · show accOf ((countFixed _ _ _ _).core c) _ = y
      rw [countFixed_core]; exact setAcc_acc v c _ y
  obtain ⟨hwmem, hwcore, hwacc⟩ := hw
  have hz : z.mem = u.mem ∧ (∃ n, z.core c = { w.core c with tcnt := n }) := by
    show (if y.ordered && !old.ordered then addTaskCounter w c tcWindow 1 else w).mem = u.mem ∧ ∃ n, (if y.ordered && !old.ordered then addTaskCounter w c tcWindow 1 else w).core c = _
    split
    · exact ⟨(addTaskCounter_mem ..).trans hwmem, addTaskCounter_core w c tcWindow 1 c⟩
    · exact ⟨hwmem, (w.core c).tcnt, rfl⟩
  obtain ⟨hzmem, n, hzcore⟩ := hz
  have hzacc : accOf (z.core c) (mmaD o.desc).acc = y := by rw [hzcore]; exact hwacc
  have hexec : exec (.mmaLastProduct ⟨c, errs⟩) s = .next (if (mmaD o.desc).drain then modMma z c o.org.seq (fun o => { o with phase := .products })
      else endMma z c o.org.seq) := by
    show execMmaLastProduct ⟨c, errs⟩ s = _
    unfold execMmaLastProduct
    dsimp only
    rw [hq]
    dsimp only
    rw [if_neg (by simp [hissue]), hclean]
    dsimp only
    have hy : accSet v.mem c (mmaD o.desc) (accOf (v.core c) (mmaD o.desc).acc) = y := by rw [hmem, hold]
    have hord : (accOf (v.core c) (mmaD o.desc).acc).ordered = old.ordered := by rw [hold]
    show Host.Outcome.next (if (mmaD o.desc).drain then modMma (if _ then addTaskCounter (countFixed (setAcc v c _ _) c 3 _) c tcWindow 1 else _) c _ _ else _) = _
    rw [hy, hord]
  refine ⟨_, hexec, ?_⟩
  cases hdrain : (mmaD o.desc).drain with
  | true =>
    rw [if_pos rfl]
    refine ⟨hzmem, ?_, fun _ => modMma_stands ?_, nofun⟩
    · rw [modMma_core]; exact hzacc
    · rw [hzcore, hwcore, hcore]; exact List.mem_of_find?_eq_some hq
  | false =>
    rw [if_neg (by decide)]
    refine ⟨(endMma_mem ..).trans hzmem, ?_, nofun, fun _ => endMma_gone z c o.org.seq⟩
    unfold accOf
    rw [endMma_accs]
    exact hzacc

/-- The drain starts, or its check fails and the core leaves service. -/
theorem drainStart_starts (hissue : coreIssues s c = true) (hq : (s.core c).mmaQ.find? (fun o => o.phase == .products) = some o)
    (hnone : (s.core c).mmaQ.any (fun p => p.phase == .draining) = false) :
    (∃ t, exec (.drainStart c none) s = .next t ∧ t.mem = s.mem ∧ ∃ p ∈ (t.core c).mmaQ, p.org = o.org ∧ p.phase = .draining) ∧
      ∀ f, ∃ t, exec (.drainStart c (some f)) s = .next t ∧ t.mem = s.mem ∧ 1 ≤ (t.core c).svc ∧
        (t.core c).test = (match f with | .parity => rasGridParity | .residue => rasGridResidue) ∧ (t.core c).phase = .stopped := by
  have hexec : ∀ f, exec (.drainStart c f) s = .next (match f with
      | none => modMma s c o.org.seq (fun o => { o with phase := .draining })
      | some .parity => coreFault s c rasGridParity
      | some .residue => coreFault s c rasGridResidue) := by
    intro f
    show execDrainStart c f s = _
    unfold execDrainStart
    dsimp only
    rw [hq]
    exact congrArg Host.Outcome.next ((if_neg (by rw [hissue, hnone]; decide)).trans rfl)
  refine ⟨⟨_, hexec none, rfl, modMma_stands (List.mem_of_find?_eq_some hq)⟩, fun f => ⟨_, hexec (some f), ?_⟩⟩
  have hfault := fun code => coreFault_leaves (c := c) (task_of_coreIssues hissue) code
  cases f with
  | parity => exact hfault rasGridParity
  | residue => exact hfault rasGridResidue

end

/-! ## Rows in local store -/

/-- Rows of bytes stored one after another. -/
def storeRows (s : State) (n : Nat) (at_ : Nat → Nat) (row : Nat → List Nat) : State := (List.range n).foldl (fun s a => storeBytes s (at_ a) (row a)) s

theorem storeRows_succ (s : State) (n : Nat) (at_ : Nat → Nat) (row : Nat → List Nat) :
    storeRows s (n + 1) at_ row = storeBytes (storeRows s n at_ row) (at_ n) (row n) := by
  unfold storeRows; rw [List.range_succ, List.foldl_append]; rfl

theorem storeRows_eq (s : State) (n : Nat) (at_ : Nat → Nat) (row : Nat → List Nat) : ∃ m p, storeRows s n at_ row = { s with mem := m, poison := p } := by
  induction n with
  | zero => exact ⟨s.mem, s.poison, rfl⟩
  | succ n ih =>
    obtain ⟨m, p, h⟩ := ih
    rw [storeRows_succ, h]
    exact ⟨_, _, rfl⟩

theorem storeRows_frame (s : State) {n : Nat} {at_ : Nat → Nat} (row : Nat → List Nat) (hlow : ∀ a < n, addrLow (at_ a) = at_ a) :
    MemFrame s (storeRows s n at_ row) ((List.range n).map (fun a => (at_ a, (row a).length))) := by
  intro b hb
  induction n with
  | zero => rfl
  | succ n ih =>
    have hlast := hb (at_ n, (row n).length) (List.mem_map.2 ⟨n, List.mem_range.2 (by omega), rfl⟩)
    rw [storeRows_succ, storeBytes_mem, hlow n (by omega), memGet_writeBytes_other _ _ _ hlast]
    refine ih (fun a ha => hlow a (by omega)) fun p hp => hb p ?_
    obtain ⟨a, ha, rfl⟩ := List.mem_map.1 hp
    exact List.mem_map.2 ⟨a, List.mem_range.2 (by have := List.mem_range.1 ha; omega), rfl⟩

theorem storeRows_holds (s : State) {n : Nat} {at_ : Nat → Nat} {row : Nat → List Nat} (hlow : ∀ a < n, addrLow (at_ a) = at_ a)
    (happart : ∀ a b, a < b → b < n → at_ a + (row a).length ≤ at_ b) {a : Nat} (ha : a < n) : MemHolds (storeRows s n at_ row) (at_ a) (row a) := by
  intro j hj
  induction n with
  | zero => omega
  | succ n ih =>
    rw [storeRows_succ, storeBytes_mem, hlow n (by omega)]
    by_cases hlast : a = n
    · subst hlast
      rw [memGet_writeBytes _ _ _ hj, List.getD_eq_getElem _ _ hj]
    · have hbefore := happart a n (by omega) (by omega)
      rw [memGet_writeBytes_other _ _ _ (by omega)]
      exact ih (fun a ha => hlow a (by omega)) (fun a b hab hb => happart a b hab (by omega)) (by omega)

theorem leNat_lt (bs : List Nat) : leNat bs < 256 ^ bs.length := by
  induction bs with
  | nil => simp [leNat]
  | cons b bs ih =>
    rw [leNat, List.length_cons, Nat.pow_succ]
    have := Nat.mod_lt b (show 0 < 256 by decide)
    omega

theorem fieldLe_lt (bs : List Nat) (a n : Nat) : fieldLe bs a n < 256 ^ n :=
  lt_of_lt_of_le (leNat_lt _) (Nat.pow_le_pow_right (by decide) (List.length_take_le ..))

/-- The rows of a drain lie below the end of the address domain. -/
theorem addrLow_drain (c : CoreId) (d : List Nat) {a : Nat} (ha : a < (mmaD d).m) :
    addrLow (lsAddr c + (mmaD d).dOff + a * (mmaD d).dStr) = lsAddr c + (mmaD d).dOff + a * (mmaD d).dStr := by
  have hm : (mmaD d).m < 256 ^ 1 := fieldLe_lt d 10 1
  have hoff : (mmaD d).dOff < 256 ^ 4 := fieldLe_lt d 48 4
  have hstr : (mmaD d).dStr < 256 ^ 4 := fieldLe_lt d 52 4
  have hmul : a * (mmaD d).dStr ≤ 256 * 256 ^ 4 := Nat.mul_le_mul (by omega) hstr.le
  have hc := c.isLt
  unfold addrLow lsAddr lsBase
  refine Nat.mod_eq_of_lt ?_
  norm_num at hoff hmul ⊢
  omega

section
variable {s : State} {c : CoreId} {o : MmaOp}

/-- The rows of a complete drain stand in local store, and its set is free. -/
theorem drainComplete_drains (hissue : coreIssues s c = true) (hq : (s.core c).mmaQ.find? (fun o => o.phase == .draining) = some o) :
    ∃ t, exec (.drainComplete c false) s = .next t ∧ (∀ p ∈ (t.core c).mmaQ, p.org.seq ≠ o.org.seq) ∧
      accOf (t.core c) (mmaD o.desc).acc = AccSet.empty ∧
      MemFrame s t ((List.range (mmaD o.desc).m).map (fun a => (lsAddr c + (mmaD o.desc).dOff + a * (mmaD o.desc).dStr,
        (drainRow (mmaD o.desc) (accOf (s.core c) (mmaD o.desc).acc) a).1.length))) ∧
      ((∀ a, a < (mmaD o.desc).m → (drainRow (mmaD o.desc) (accOf (s.core c) (mmaD o.desc).acc) a).1.length ≤ (mmaD o.desc).dStr) →
        ∀ a, a < (mmaD o.desc).m → MemHolds t (lsAddr c + (mmaD o.desc).dOff + a * (mmaD o.desc).dStr)
          (drainRow (mmaD o.desc) (accOf (s.core c) (mmaD o.desc).acc) a).1) := by
  let at_ := fun a => lsAddr c + (mmaD o.desc).dOff + a * (mmaD o.desc).dStr
  let row := fun a => (drainRow (mmaD o.desc) (accOf (s.core c) (mmaD o.desc).acc) a).1
  let r := drainRows (mmaD o.desc) (accOf (s.core c) (mmaD o.desc).acc)
  have hrows : storeLocal s c r.1 = storeRows s (mmaD o.desc).m at_ row := by
    show List.foldl _ s (List.map _ (List.map _ (List.range _))) = _
    rw [List.map_map, List.foldl_map]
    unfold storeRows
    congr 1
    funext s a
    show storeBytes s (lsAddr c + ((mmaD o.desc).dOff + a * (mmaD o.desc).dStr)) _ = _
    rw [← Nat.add_assoc]
  have hexec : exec (.drainComplete c false) s =
      .next (endMma (setAcc (addTaskCounter (storeLocal s c r.1) c tcDrainSat r.2) c (mmaD o.desc).acc AccSet.empty) c o.org.seq) := by
    show execDrainComplete c false s = _
    unfold execDrainComplete
    dsimp only
    rw [hq]
    dsimp only
    rw [if_neg (by simp [hissue]), if_neg (by simp)]
  have hmem : (endMma (setAcc (addTaskCounter (storeLocal s c r.1) c tcDrainSat r.2) c (mmaD o.desc).acc AccSet.empty) c o.org.seq).mem =
      (storeRows s (mmaD o.desc).m at_ row).mem := by
    rw [endMma_mem, setAcc_mem, addTaskCounter_mem, hrows]
  have hlow : ∀ a < (mmaD o.desc).m, addrLow (at_ a) = at_ a := fun a ha => addrLow_drain c o.desc ha
  refine ⟨_, hexec, endMma_gone _ c o.org.seq, ?_, fun b hb => ?_, fun hfit a ha j hj => ?_⟩
  · unfold accOf; rw [endMma_accs]; exact setAcc_acc ..
  · rw [hmem]; exact storeRows_frame s row hlow b hb
  · rw [hmem]
    refine storeRows_holds s hlow (fun a b hab hb => ?_) ha j hj
    have hrow : (row a).length ≤ (mmaD o.desc).dStr := hfit a (by omega)
    have hstep : (a + 1) * (mmaD o.desc).dStr ≤ b * (mmaD o.desc).dStr := Nat.mul_le_mul_right _ hab
    rw [Nat.add_mul] at hstep
    show lsAddr c + (mmaD o.desc).dOff + a * (mmaD o.desc).dStr + (row a).length ≤ lsAddr c + (mmaD o.desc).dOff + b * (mmaD o.desc).dStr
    omega

end

/-- A tile that starts from nothing is zero. -/
theorem elemOf_startSet_zero {m : List Host.Cell} {c : Nat} {d : MmaD} {old : AccSet} {free : Int} (h : d.init = 0) (a b : Nat) :
    elemOf (startSet m c d old free) a b = AccElem.zero := by
  unfold startSet
  dsimp only
  rw [if_pos h]
  generalize hscales : (if d.mx then tileScales m (opA c d) (opB c d) d else []) = scales
  split <;> rfl

/-- Settles O22: each phase by what its command does to the queue, the set and local store. -/
theorem matrixEventsAdvanceTheQueue : Obligations.MatrixEventsAdvanceTheQueue := by
  unfold Obligations.MatrixEventsAdvanceTheQueue
  intro s c o
  dsimp only
  intro hissue
  refine ⟨fun hq hmay hclean => ?_, fun errs hq hclean => mmaLastProduct_completes hissue hq hclean, drainStart_starts hissue, drainComplete_drains hissue⟩
  obtain ⟨t, hexec, hmem, hstands, hgrid, hacc⟩ := mmaStart_starts hissue hq hmay hclean
  refine ⟨t, hexec, hmem, hstands, hgrid, hacc, fun h0 a b => ?_⟩
  have hno : (mmaD o.desc).rebases = false := by unfold MmaD.rebases; rw [h0]; rfl
  rw [hacc, hno]
  exact elemOf_startSet_zero h0 a b

end Sys2Proof.Machine
end

section
/-! SUPPORT. The exact accumulator of the grid (R81 to R83, R178). -/
namespace Sys2Proof.Machine

/-- A product of two values counts with the product of their integers; a product of NaN or infinity counts nothing. -/
theorem addProduct_a (ca cb : Nat) (p : Part) (x y : FVal) : (addProduct ca cb p x y).a = p.a + elemInt ca x * elemInt cb y := by
  unfold addProduct mulV
  cases x with
  | nan => simp [elemInt]
  | inf n =>
    cases y with
    | nan => simp [elemInt]
    | inf n' => cases n <;> cases n' <;> simp [elemInt]
    | fin n' m e => by_cases hm : m = 0 <;> cases n <;> cases n' <;> simp [elemInt, hm]
  | fin n m e =>
    cases y with
    | nan => simp [elemInt]
    | inf n' => by_cases hm : m = 0 <;> cases n <;> cases n' <;> simp [elemInt, hm]
    | fin n' m' e' => rfl

theorem foldl_addProduct_a (ca cb : Nat) (f g : Nat → FVal) (ks : List Nat) (p : Part) :
    (ks.foldl (fun p k => addProduct ca cb p (f k) (g k)) p).a = p.a + (ks.map fun k => elemInt ca (f k) * elemInt cb (g k)).sum := by
  induction ks generalizing p with
  | nil => simp
  | cons k ks ih => rw [List.foldl_cons, ih, addProduct_a, List.map_cons, List.sum_cons, add_assoc]

/-- A register of 96 bits holds its value up to a multiple of 2^96. -/
theorem reg96_congr (x : Int) : ∃ q : Int, reg96 x = x + q * 2 ^ 96 := by
  unfold reg96 sext trunc
  have := Int.emod_add_mul_ediv x (2 ^ 96)
  split
  · exact ⟨-(x / 2 ^ 96), by omega⟩
  · exact ⟨-(x / 2 ^ 96) - 1, by omega⟩

theorem reg96_add_mul (x q : Int) : reg96 (x + q * 2 ^ 96) = reg96 x := by
  unfold reg96 trunc
  rw [Int.add_mul_emod_self_right]

theorem reg96_reg96_add (x y : Int) : reg96 (reg96 x + y) = reg96 (x + y) := by
  obtain ⟨q, hq⟩ := reg96_congr x
  rw [hq, add_right_comm, reg96_add_mul]

theorem reg96_of_fits {x : Int} (h : fits96 x = true) : reg96 x = x := by
  unfold fits96 at h
  obtain ⟨hlo, hhi⟩ := of_decide_eq_true h
  unfold reg96 sext trunc
  split <;> omega

section
variable (m : List Host.Cell) (a b : Operand) (i j : Nat)

/-- The integer product of element `k` of row `i` of A and row `j` of B. -/
def productInt (k : Nat) : Int := elemInt a.typ (elemAt m a i k) * elemInt b.typ (elemAt m b j k)

theorem blockPart_a (lo hi : Nat) : (blockPart m a b i j lo hi).a = ((List.range (hi - lo)).map fun k => productInt m a b i j (k + lo)).sum := by
  unfold blockPart
  rw [foldl_addProduct_a, zero_add, List.map_map]
  rfl

/-- The products before the end of a block are those before its start and its own. -/
theorem sum_block {n kTop : Nat} (h : 32 * n ≤ kTop) :
    ((List.range (min (32 * n + 32) kTop)).map (productInt m a b i j)).sum =
      ((List.range (min (32 * n) kTop)).map (productInt m a b i j)).sum + (blockPart m a b i j (32 * n) (min (32 * n + 32) kTop)).a := by
  have hsplit : min (32 * n + 32) kTop = 32 * n + (min (32 * n + 32) kTop - 32 * n) := by omega
  rw [blockPart_a, Nat.min_eq_left h]
  generalize min (32 * n + 32) kTop - 32 * n = r at *
  rw [hsplit, List.range_add, List.map_append, List.sum_append, List.map_map]
  simp only [Function.comp_def, Nat.add_comm]

variable {m a b i j}

/-- The register after an exact block. -/
theorem addBlock_exact (kTop : Nat) (lexp lsb : Int) (x : AccElem × Bool) (kb : Nat) (hmx : a.mx = false) :
    (addBlock m a b i j kTop lexp lsb x kb true).1.a =
      reg96 (x.1.a + (blockPart m a b i j (32 * kb) (min (32 * kb + 32) kTop)).a * 2 ^ (lsb - lexp).toNat) := by
  unfold addBlock blockE
  simp only [hmx, if_true, Bool.false_eq_true, if_false, add_zero]

/-- The register after every exact block, up to a multiple of 2^96. -/
theorem foldl_addBlock_exact (kTop n : Nat) (lexp lsb : Int) (e : AccElem × Bool) (hmx : a.mx = false) (h : 32 * n < kTop + 32) :
    reg96 ((List.range n).foldl (fun x kb => addBlock m a b i j kTop lexp lsb x kb true) e).1.a =
      reg96 (e.1.a + ((List.range (min (32 * n) kTop)).map (productInt m a b i j)).sum * 2 ^ (lsb - lexp).toNat) := by
  induction n with
  | zero => simp
  | succ n ih =>
    have hidem : ∀ x, reg96 (reg96 x) = reg96 x := fun x => by have := reg96_reg96_add x 0; rwa [add_zero, add_zero] at this
    rw [List.range_succ, List.foldl_append, List.foldl_cons, List.foldl_nil, addBlock_exact _ _ _ _ _ hmx, hidem,
      ← reg96_reg96_add, ih (by omega), reg96_reg96_add, Nat.mul_succ, sum_block m a b i j (by omega), add_mul, add_assoc]

end

/-- The element of an exact tile after the MMA's products. -/
theorem accElement_exact {m : List Host.Cell} {a b : Operand} {d : MmaD} {old : AccSet} (i j : Nat) (hmx : a.mx = false) (hhalf : d.half = false)
    (hk : 0 < d.k) : (accElement m a b d old (ceilDiv d.k 32) i j).a =
      reg96 ((elemOf old i j).a + ((List.range d.k).map (productInt m a b i j)).sum * 2 ^ (typeLsb d.atype + typeLsb d.btype - old.lexp).toNat) := by
  obtain ⟨n, hn⟩ : ∃ n, ceilDiv d.k 32 = n + 1 := ⟨ceilDiv d.k 32 - 1, by unfold ceilDiv; omega⟩
  have hlo : 32 * n < d.k := by unfold ceilDiv at hn; omega
  have hhi : d.k ≤ 32 * n + 32 := by unfold ceilDiv at hn; omega
  have hexact : ∀ kb ∈ List.range (n + 1), decide (kb < n + 1) = true := fun kb h => decide_eq_true (List.mem_range.1 h)
  unfold accElement
  rw [if_neg (by rw [hhalf]; nofun), hn]
  dsimp only
  rw [List.foldl_ext (H := fun x kb h => by rw [hexact kb h]), List.range_succ, List.foldl_append, List.foldl_cons, List.foldl_nil,
    addBlock_exact _ _ _ _ _ hmx, ← reg96_reg96_add, foldl_addBlock_exact _ _ _ _ _ hmx (by omega), reg96_reg96_add, add_assoc, ← add_mul,
    ← sum_block m a b i j (by omega), Nat.min_eq_right (by omega)]

theorem tget_foldl_tset_absent {V P : Type} [DecidableEq V] (d : V) (key : P → Nat) (val : P → V) (ps : List P) (t : Tab V) {x : Nat}
    (h : ∀ p ∈ ps, key p ≠ x) : tget d (ps.foldl (fun t p => tset d t (key p) (val p)) t) x = tget d t x := by
  induction ps generalizing t with
  | nil => rfl
  | cons p ps ih =>
    rw [List.foldl_cons, ih _ fun q hq => h q (List.mem_cons_of_mem _ hq), tget_tset_other _ _ _ (Ne.symm (h p List.mem_cons_self))]

theorem tget_foldl_tset_present {V P : Type} [DecidableEq V] (d : V) (key : P → Nat) (val : P → V) (ps : List P) (t : Tab V) {p : P} (hp : p ∈ ps)
    (h : ∀ q ∈ ps, key q = key p → q = p) : tget d (ps.foldl (fun t p => tset d t (key p) (val p)) t) (key p) = val p := by
  induction ps generalizing t with
  | nil => cases hp
  | cons q ps ih =>
    rw [List.foldl_cons]
    by_cases hin : p ∈ ps
    · exact ih _ hin fun r hr => h r (List.mem_cons_of_mem _ hr)
    · have hqp : q = p := (List.mem_cons.1 hp).elim Eq.symm fun h => absurd h hin
      subst hqp
      rw [tget_foldl_tset_absent d key val ps _ fun r hr he => hin (h r (List.mem_cons_of_mem _ hr) he ▸ hr), tget_tset_same]

theorem mem_cells {m n : Nat} {p : Nat × Nat} :
    p ∈ (List.range m).flatMap (fun i => (List.range n).map (fun j => (i, j))) ↔ p.1 < m ∧ p.2 < n := by
  obtain ⟨i, j⟩ := p
  simp [List.mem_flatMap]

section
variable (mem : List Host.Cell) (c : Nat) (d : MmaD) (old : AccSet)

theorem accSet_elem {i j : Nat} (hn : d.n ≤ 64) (hi : i < d.m) (hj : j < d.n) :
    elemOf (accSet mem c d old) i j = accElement mem (opA c d) (opB c d) d old (exactBlocks d old) i j :=
  tget_foldl_tset_present AccElem.zero (fun p : Nat × Nat => 64 * p.1 + p.2) (fun p => accElement mem (opA c d) (opB c d) d old (exactBlocks d old) p.1 p.2)
    _ old.elems (p := (i, j)) (mem_cells.2 ⟨hi, hj⟩) fun q hq he => by
      obtain ⟨-, hq2⟩ := mem_cells.1 hq
      dsimp only at he
      exact Prod.ext (by dsimp only; omega) (by dsimp only; omega)

theorem accSet_elem_outside {i j : Nat} (hn : d.n ≤ 64) (hj : j < 64) (hout : ¬ (i < d.m ∧ j < d.n)) :
    elemOf (accSet mem c d old) i j = elemOf old i j :=
  tget_foldl_tset_absent AccElem.zero (fun p : Nat × Nat => 64 * p.1 + p.2) (fun p => accElement mem (opA c d) (opB c d) d old (exactBlocks d old) p.1 p.2)
    _ old.elems fun q hq he => by
      obtain ⟨hq1, hq2⟩ := mem_cells.1 hq
      exact hout ⟨by omega, by omega⟩

end

/-- Settles O23: an exact tile's K-blocks are added to the 96-bit register one after another, which is the sum of the products. -/
theorem matrixProductsAreExact : Obligations.MatrixProductsAreExact := by
  unfold Obligations.MatrixProductsAreExact
  dsimp only
  intro s c o errs hissue hq hclean hmx hhalf hord hcount hk _ hn
  obtain ⟨t, hexec, -, hacc, -, -⟩ := mmaLastProduct_completes hissue hq hclean
  have hbase : (mmaD o.desc).rebases = false := by unfold MmaD.rebases; rw [hmx, Bool.and_false]
  have hblocks : exactBlocks (mmaD o.desc) (accOf (s.core c) (mmaD o.desc).acc) = ceilDiv (mmaD o.desc).k 32 := by
    unfold exactBlocks
    rw [if_neg (by rw [hord]; nofun)]
    exact if_pos hcount
  rw [hbase, if_neg Bool.false_ne_true] at hacc
  have helem : ∀ a b, a < (mmaD o.desc).m → b < (mmaD o.desc).n → (elemOf (accOf (t.core c) (mmaD o.desc).acc) a b).a = _ := fun a b ha hb => by
    rw [hacc, accSet_elem _ _ _ _ hn ha hb, hblocks, accElement_exact _ _ hmx hhalf hk]
  refine ⟨t, hexec, ?_, ?_, ?_, fun a b ha hb => ⟨helem a b ha hb, fun hfit => (helem a b ha hb).trans (reg96_of_fits hfit)⟩, fun a b hb hout => ?_⟩
  · rw [hacc]
    unfold accSet
    dsimp only
    rw [hblocks, hord, decide_eq_false (Nat.lt_irrefl _), Bool.or_false, Bool.and_false]
  · rw [hacc]; rfl
  · rw [hacc]; rfl
  · rw [hacc, accSet_elem_outside _ _ _ _ hn hb hout]

end Sys2Proof.Machine
end

section
/-! SUPPORT. Bytes that threads store one after another (R157, R158, R302). -/
namespace Sys2Proof.Machine

/-- The bytes `row` of every listed thread stored at its address, one after another. -/
def storeEach (s : State) (ths : List Nat) (at_ : Nat → Nat) (row : Nat → List Nat) : State :=
  ths.foldl (fun s th => storeBytes s (at_ th) (row th)) s

section
variable (s : State) (ths : List Nat) (at_ : Nat → Nat) (row : Nat → List Nat)

theorem storeEach_append (us : List Nat) : storeEach s (ths ++ us) at_ row = storeEach (storeEach s ths at_ row) us at_ row := List.foldl_append ..

theorem storeEach_eq : storeEach s ths at_ row = { s with mem := (storeEach s ths at_ row).mem, poison := (storeEach s ths at_ row).poison } := by
  unfold storeEach
  induction ths generalizing s with
  | nil => rfl
  | cons th ths ih => rw [List.foldl_cons]; exact ih _

theorem storeEach_core (d : Nat) : (storeEach s ths at_ row).core d = s.core d := by rw [storeEach_eq]; rfl

variable {ths at_}

theorem storeEach_frame (hlow : ∀ th ∈ ths, addrLow (at_ th) = at_ th) :
    MemFrame s (storeEach s ths at_ row) (ths.map fun th => (at_ th, (row th).length)) := by
  intro b hb
  unfold storeEach
  induction ths generalizing s with
  | nil => rfl
  | cons th ths ih =>
    rw [List.foldl_cons, ih _ (fun u hu => hlow u (List.mem_cons_of_mem _ hu)) (fun p hp => hb p (List.mem_cons_of_mem _ hp)), storeBytes_mem,
      hlow th List.mem_cons_self]
    exact memGet_writeBytes_other _ _ _ (hb _ List.mem_cons_self)

theorem storeEach_holds {n th : Nat} (hlow : ∀ u ∈ ths, addrLow (at_ u) = at_ u) (hlen : ∀ u ∈ ths, (row u).length = n) (hsort : ths.Pairwise (· < ·))
    (hth : th ∈ ths) (hlast : lastAt ths at_ n th) : MemHolds (storeEach s ths at_ row) (at_ th) (row th) := by
  intro j hj
  unfold storeEach
  induction ths generalizing s with
  | nil => cases hth
  | cons a ths ih =>
    rw [List.foldl_cons]
    obtain ⟨hlt, hsort⟩ := List.pairwise_cons.1 hsort
    rcases List.mem_cons.1 hth with rfl | hin
    · have hrest := storeEach_frame (storeBytes s (at_ th) (row th)) row (fun u hu => hlow u (List.mem_cons_of_mem _ hu)) (at_ th + j) fun p hp => by
        obtain ⟨u, hu, rfl⟩ := List.mem_map.1 hp
        have := hlast u (List.mem_cons_of_mem _ hu) (hlt u hu)
        have h1 := hlen th hth
        have h2 := hlen u (List.mem_cons_of_mem _ hu)
        dsimp only
        omega
      refine hrest.trans ?_
      rw [storeBytes_mem, hlow th List.mem_cons_self, memGet_writeBytes _ _ _ hj, List.getD_eq_getElem _ _ hj]
    · exact ih _ (fun u hu => hlow u (List.mem_cons_of_mem _ hu)) (fun u hu => hlen u (List.mem_cons_of_mem _ hu)) hsort hin
        fun u hu => hlast u (List.mem_cons_of_mem _ hu)

theorem mem_coverPoison {p : List Nat} {a n w : Nat} : w ∈ coverPoison p a n ↔ w ∈ p ∧ ¬ (a ≤ 16 * w ∧ 16 * w + 16 ≤ a + n) := by
  unfold coverPoison; rw [List.mem_filter, decide_eq_true_eq]

theorem storeEach_poison (hlow : ∀ th ∈ ths, addrLow (at_ th) = at_ th) (w : Nat) : w ∈ (storeEach s ths at_ row).poison ↔
    w ∈ s.poison ∧ ∀ th ∈ ths, ¬ (at_ th ≤ 16 * w ∧ 16 * w + 16 ≤ at_ th + (row th).length) := by
  unfold storeEach
  induction ths generalizing s with
  | nil => simp
  | cons th ths ih =>
    rw [List.foldl_cons, ih _ fun u hu => hlow u (List.mem_cons_of_mem _ hu)]
    show w ∈ coverPoison s.poison (addrLow (at_ th)) (row th).length ∧ _ ↔ _
    rw [mem_coverPoison, hlow th List.mem_cons_self, List.forall_mem_cons, and_assoc]

end

/-! Where an issue's local accesses go. -/

theorem maskList_sorted (w : Word) : (maskList w).Pairwise (· < ·) := List.Pairwise.filter _ List.pairwise_lt_range

theorem issueCtx_sorted {s : State} {x : Site} {w : Word64} {regs preds : List Nat} {i : Ctx} (h : issueCtx s x w regs preds = some i) :
    i.active.Pairwise (· < ·) := by
  unfold issueCtx at h
  dsimp only at h
  split at h
  · cases h
  · split at h
    · cases h
      exact List.Pairwise.filter _ (maskList_sorted _)
    · cases h

/-- A place in a local store lies below the end of the address domain. -/
theorem addrLow_lsAddr (c : CoreId) {off : Nat} (h : off ≤ lsBytes) : addrLow (lsAddr c + off) = lsAddr c + off := by
  have := c.isLt
  unfold lsBytes at h
  unfold addrLow lsAddr lsBase
  exact Nat.mod_eq_of_lt (by omega)

theorem mLocal_of_sameRegs {s : State} {i : Ctx} {gr : Group} (h : SameRegs (grpOf s i.c i.g) gr) (th : Nat) : mLocal gr i th = mLocal (grpOf s i.c i.g) i th := by
  unfold mLocal; rw [readReg_of_sameRegs h]; rfl

theorem mGlobal_of_sameRegs {s : State} {i : Ctx} {gr : Group} (h : SameRegs (grpOf s i.c i.g) gr) (th : Nat) :
    mGlobal gr i th = mGlobal (grpOf s i.c i.g) i th := by
  unfold mGlobal; rw [readWide_of_sameRegs h]; rfl

theorem storeData_of_sameRegs {s : State} {i : Ctx} {gr : Group} (h : SameRegs (grpOf s i.c i.g) gr) (th : Nat) (w : Word64) :
    storeData gr i th w = storeData (grpOf s i.c i.g) i th w := by
  unfold storeData; rw [readWide_of_sameRegs h]; rfl

theorem isRow_of_legalM {cls op : Nat} {sizes : List Nat} {ca pd : Bool} {w : Word64} (h : legalM cls op sizes ca pd w = true) : isRow cls op w = true := by
  unfold legalM at h
  simp only [Bool.and_eq_true] at h
  exact h.1.1.1

end Sys2Proof.Machine
end

section
/-! SUPPORT. Local loads and stores (R157, R158, R302). -/
namespace Sys2Proof.Machine

section
variable {s : State} {x : Site} {w : Word64} {i : Ctx}

theorem OnlyCore.shape {s u : State} {c : Nat} (h : OnlyCore s u c) : ∃ k p, u = { s with cores := k, pmc := p } := ⟨_, _, h.1⟩

theorem OnlyCore.memory {s u : State} {c : Nat} (h : OnlyCore s u c) : u.mem = s.mem ∧ u.poison = s.poison := by
  obtain ⟨k, p, rfl⟩ := h.shape
  exact ⟨rfl, rfl⟩

theorem localAccess_ok {u : State} {gr : Group} {th n : Nat} (rd : Bool) (h1 : mLocal gr i th % n = 0) (h2 : mLocal gr i th + n ≤ lsBytes)
    (h3 : rd = true → firstPoison u.poison (lsAddr i.c + mLocal gr i th) n = none) : localAccess u gr i th n rd = .ok (mLocal gr i th) := by
  unfold localAccess localCheck
  dsimp only
  rw [if_neg (by omega), if_neg (by omega)]
  dsimp only
  cases rd with
  | false => rfl
  | true => rw [if_pos rfl, h3 rfl]

/-- One thread's part of a local load. -/
def loadThread (u : State) (sg : Bool) (w : Word64) (gr : Group) (i : Ctx) (t : Nat) : TRes Eff :=
  if !(srcOk (mBase w) 1 && dstOk (mData w) (sizeWords (mSize w))) then illOperand
  else match localAccess u gr i t (mSize w) true with
  | .error x => .fault x
  | .ok a => .ok (regEff (mData w) (sizeWords (mSize w)) (extendVal (mSize w) sg (leNat (readBytes u.mem (lsAddr i.c + a) (mSize w)))))

theorem loadLocal_eq (u : State) (sg : Bool) : loadLocal sg w u i =
    countPoisoned (perThread (loadThread u sg w) u i) (coreUnit i.c) (runThreads i (loadThread u sg w (grpOf u i.c i.g) i)).2 := rfl

theorem loadThread_ok {u : State} {gr : Group} {th : Nat} (sg : Bool) (hb : srcOk (mBase w) 1 = true) (hd : dstOk (mData w) (sizeWords (mSize w)) = true)
    (hmem : u.mem = s.mem) (hpoison : u.poison = s.poison) (hgr : SameRegs (grpOf s i.c i.g) gr)
    (h1 : mLocal (grpOf s i.c i.g) i th % mSize w = 0) (h2 : mLocal (grpOf s i.c i.g) i th + mSize w ≤ lsBytes)
    (h3 : firstPoison s.poison (lsAddr i.c + mLocal (grpOf s i.c i.g) i th) (mSize w) = none) :
    loadThread u sg w gr i th = .ok (regEff (mData w) (sizeWords (mSize w))
      (extendVal (mSize w) sg (leNat (readBytes s.mem (lsAddr i.c + mLocal (grpOf s i.c i.g) i th) (mSize w))))) := by
  rw [← mLocal_of_sameRegs hgr th] at h1 h2 h3 ⊢
  unfold loadThread
  rw [hb, hd, if_neg (by decide), localAccess_ok true h1 h2 (fun _ => by rw [hpoison]; exact h3), hmem]

/-- A local load that passes its checks in every thread. -/
theorem loadLocal_regEffect (sg : Bool) {own legal : Bool} (hi : Issues s x w (codeRange (mBase w) 1) [] i) (hown : own = true) (hlegal : legal = true)
    (hb : srcOk (mBase w) 1 = true) (hd : dstOk (mData w) (sizeWords (mSize w)) = true)
    (hok : ∀ th ∈ i.active, mLocal (grpOf s i.c i.g) i th % mSize w = 0 ∧ mLocal (grpOf s i.c i.g) i th + mSize w ≤ lsBytes ∧
      firstPoison s.poison (lsAddr i.c + mLocal (grpOf s i.c i.g) i th) (mSize w) = none) :
    ∃ t, coreRow own w (issue s x w (codeRange (mBase w) 1) [] legal (loadLocal sg w)) = .next t ∧
      RegEffect s t i (mData w) (sizeWords (mSize w))
        (fun th => extendVal (mSize w) sg (leNat (readBytes s.mem (lsAddr i.c + mLocal (grpOf s i.c i.g) i th) (mSize w)))) := by
  subst hown hlegal
  obtain ⟨_, _, _, _, nd, _⟩ := issueCtx_members hi.1
  have hready := slotted_ready s i
  obtain ⟨hmem, hpoison⟩ := hready.core.memory
  have hf : ∀ gr, SameRegs (grpOf s i.c i.g) gr → ∀ t ∈ i.active, loadThread (slotted s i) sg w gr i t = _ := fun gr hgr t ht =>
    loadThread_ok sg hb hd hmem hpoison hgr (hok t ht).1 (hok t ht).2.1 (hok t ht).2.2
  obtain ⟨hwrote, -⟩ := perThread_wrote nd hready hf (fun u _ => regEff_writes (mData w) (sizeWords (mSize w)) _ true) (by decide)
  refine ⟨_, by rw [issue_legal hi, loadLocal_eq, runThreads_ok i _ _ (hf _ (hready.regs i.g))]; rfl, hwrote.regEffect⟩

/-- Bytes stored in memory before the threads of a ready state go on. -/
theorem advance_stored {u : State} {m : List Host.Cell} {p : List Nat} (hu : Ready s u i) :
    let t := advance { u with mem := m, poison := p } i i.members (i.pc + 8)
    NoRegs s t i ∧ OnlyCore s { t with mem := s.mem, poison := s.poison } i.c ∧ OnlyGroups s t i.c := by
  have hmoved : Moved s (advance { u with mem := m, poison := p } i i.members (i.pc + 8)) i (grpOf u i.c i.g) i.members (i.pc + 8) :=
    advance_moved _ _ (fun g _ => hu.regs g) .rfl
  obtain ⟨-, hother⟩ := hu.core.trans (modGrp_onlyCore u i.c i.g fun gr => normGroup (modThrs gr i.members fun _ t => { t with pc := i.pc + 8 }))
  have hgroups := hu.groups.trans (modGrp_onlyGroups u i.c i.g fun gr => normGroup (modThrs gr i.members fun _ t => { t with pc := i.pc + 8 }))
  obtain ⟨k, q, rfl⟩ := hu.core.shape
  exact ⟨hmoved.noRegs (hu.regs i.g), ⟨rfl, hother⟩, hgroups⟩

/-- A local store that passes its checks in every thread. -/
theorem ldstLSt_stores (hi : Issues s x w (storeSrcs w 1) [] i) (hl : legalM 0x0F 2 [0, 1, 2, 3, 4] false false w = true) (hb : srcOk (mBase w) 1 = true)
    (hd : srcOk (mData w) (sizeWords (mSize w)) = true)
    (hok : ∀ th ∈ i.active, mLocal (grpOf s i.c i.g) i th % mSize w = 0 ∧ mLocal (grpOf s i.c i.g) i th + mSize w ≤ lsBytes) :
    exec (.ldstLSt x w) s = .next (advance (storeEach (slotted s i) i.active (fun th => lsAddr i.c + mLocal (grpOf s i.c i.g) i th)
      (fun th => storeData (grpOf s i.c i.g) i th w)) i i.members (i.pc + 8)) := by
  have hreg := (slotted_ready s i).regs i.g
  show execLdstLSt x w s = _
  unfold execLdstLSt
  rw [hl, isRow_of_legalM hl, issue_legal hi]
  dsimp only
  rw [runThreads_ok i _ (fun t => (mLocal (grpOf s i.c i.g) i t, storeData (grpOf s i.c i.g) i t w))]
  · simp only [goOn_nil, faultSet_nil, List.foldl_map]
    rfl
  · intro t ht
    obtain ⟨h1, h2⟩ := hok t ht
    have hloc := mLocal_of_sameRegs hreg t
    have hg : grp ((slotted s i).core i.c) i.g = grpOf (slotted s i) i.c i.g := rfl
    rw [hg, hb, hd, if_neg (by decide), localAccess_ok false (hloc ▸ h1) (hloc ▸ h2) nofun, hloc, storeData_of_sameRegs hreg]

end

/-- Settles O8: the loads write registers alone; the stores put their bytes one thread after another. -/
theorem localLoadsAndStores : Obligations.LocalLoadsAndStores := by
  unfold Obligations.LocalLoadsAndStores
  dsimp only
  refine fun s x w i => ⟨fun sg hi hl hb hd hok => ?_, fun hi hl hb hd hok => ⟨_, ldstLSt_stores hi hl hb hd hok, ?_⟩⟩
  · cases sg with
    | false => exact loadLocal_regEffect false hi (isRow_of_legalM hl) hl hb hd hok
    | true => exact loadLocal_regEffect true hi (isRow_of_legalM hl) hl hb hd hok
  · obtain ⟨hc, -⟩ := issueCtx_members hi.1
    let at_ := fun th => lsAddr i.c + mLocal (grpOf s i.c i.g) i th
    let row := fun th => storeData (grpOf s i.c i.g) i th w
    have hlow : ∀ th ∈ i.active, addrLow (at_ th) = at_ th := fun th hth => by
      have hbelow : ∀ off ≤ lsBytes, addrLow (lsAddr i.c + off) = lsAddr i.c + off := hc ▸ fun off => addrLow_lsAddr x.core
      exact hbelow _ (le_trans (Nat.le_add_right _ _) (hok th hth).2)
    have hlen : ∀ th, (row th).length = mSize w := fun th => natLe_length _ _
    have hready := slotted_ready s i
    obtain ⟨hmem, hpoison⟩ := hready.core.memory
    obtain ⟨hno, hcore, hgroups⟩ := advance_stored (m := (storeEach (slotted s i) i.active at_ row).mem)
      (p := (storeEach (slotted s i) i.active at_ row).poison) hready
    rw [← storeEach_eq] at hno hcore hgroups
    refine ⟨fun th hth hlast j hj => ?_, fun b hb => ?_, fun p => ?_, hno, hcore, hgroups⟩
    · refine storeEach_holds (slotted s i) row hlow (fun u _ => hlen u) (issueCtx_sorted hi.1) hth (fun u hu hlt => ?_) j hj
      have := hlast u hu hlt
      beta_reduce at this
      show lsAddr i.c + _ + _ ≤ lsAddr i.c + _ ∨ lsAddr i.c + _ + _ ≤ lsAddr i.c + _
      omega
    · refine (storeEach_frame (slotted s i) row hlow b fun p hp => ?_).trans (congrArg (memGet · b) hmem)
      obtain ⟨th, hth, rfl⟩ := List.mem_map.1 hp
      have := hb _ (List.mem_map_of_mem hth)
      dsimp only
      rw [hlen]
      exact this
    · refine (storeEach_poison (slotted s i) row hlow p).trans ?_
      simp only [hlen, hpoison]
      rfl

end Sys2Proof.Machine
end

section
/-! SUPPORT. What leaves a core for the homes of lines, thread by thread (R132, R159, R234, R243). -/
namespace Sys2Proof.Machine

/-- Nothing but memory, poison, core `c`, the counters and what leaves the core for the homes differs; earlier requests stay. -/
structure Traffic (s t : State) (c : Nat) : Prop where
  shape : t = { s with mem := t.mem, poison := t.poison, cores := t.cores, pmc := t.pmc, lup := t.lup, out := t.out,
                       llc := { s.llc with nextReq := t.llc.nextReq, reqs := t.llc.reqs, remote := t.llc.remote } }
  other : ∀ d, d ≠ c → t.core d = s.core d
  kept : ReqsKept s t
  next : s.llc.nextReq ≤ t.llc.nextReq

theorem Traffic.rfl {s : State} {c : Nat} : Traffic s s c := ⟨by rfl, fun _ _ => by rfl, List.prefix_refl _, le_rfl⟩

theorem Traffic.trans {a b d : State} {c : Nat} (h : Traffic a b c) (k : Traffic b d c) : Traffic a d c :=
  ⟨by rw [k.shape, h.shape], fun e he => (k.other e he).trans (h.other e he), h.kept.trans k.kept, h.next.trans k.next⟩

section
variable {s t : State} {c : Nat} (h : Traffic s t c)
include h
theorem Traffic.modId : t.modId = s.modId := by rw [h.shape]
theorem Traffic.tasks : t.tasks = s.tasks := by rw [h.shape]
theorem Traffic.sendsOnly (hm : t.mem = s.mem) (hp : t.poison = s.poison) : SendsOnly s t c := by
  refine ⟨?_, h.other⟩
  have := h.shape
  rwa [hm, hp] at this
theorem Traffic.sendsOnly_mem (hp : t.poison = s.poison) : SendsOnly s { t with mem := s.mem } c := by
  refine ⟨?_, h.other⟩
  have := h.shape
  rw [hp] at this
  rw [this]
theorem Traffic.sendsOnly_store : SendsOnly s { t with mem := s.mem, poison := s.poison } c := by
  refine ⟨?_, h.other⟩
  rw [h.shape]
end

theorem OnlyCore.traffic {s t : State} {c : Nat} (h : OnlyCore s t c) : Traffic s t c := by
  obtain ⟨h, ho⟩ := h
  exact ⟨by rw [h], ho, by rw [h]; exact List.prefix_refl _, by rw [h]⟩

theorem traffic_of_sent {s t : State} {c : Nat} (h : t = { s with lup := t.lup, out := t.out }) : Traffic s t c := by
  refine ⟨by rw [h], fun d _ => ?_, ?_, ?_⟩ <;> rw [h]
  · rfl
  · exact List.prefix_refl _

/-! ## Messages -/

/-- Nothing but the links and what is sent differs. -/
def SentOnly (s t : State) : Prop := t = { s with lup := t.lup, out := t.out }

theorem SentOnly.rfl {s : State} : SentOnly s s := by unfold SentOnly; rfl
theorem SentOnly.trans {a b c : State} (h : SentOnly a b) (k : SentOnly b c) : SentOnly a c := by unfold SentOnly at *; rw [k, h]

theorem SentOnly.mem {s t : State} (h : SentOnly s t) : t.mem = s.mem := by unfold SentOnly at h; rw [h]
theorem SentOnly.poison {s t : State} (h : SentOnly s t) : t.poison = s.poison := by unfold SentOnly at h; rw [h]

theorem pumpLoop_sentOnly (l : Nat) (ms : List LMsg) (b : List Nat) (s : State) : SentOnly s (pumpLoop l ms b s) := by
  induction ms generalizing b s with
  | nil => exact .rfl
  | cons m ms ih =>
    unfold pumpLoop
    dsimp only
    split
    · exact ih _ _
    · refine SentOnly.trans ?_ (ih _ _)
      unfold SentOnly; rfl

theorem sendMsg_sentOnly (s : State) (m : LMsg) : SentOnly s (sendMsg s m) := by
  unfold sendMsg
  dsimp only
  split
  · exact .rfl
  · refine SentOnly.trans ?_ (pumpLoop_sentOnly ..)
    unfold SentOnly; rfl

theorem sendRequest_sentOnly (s : State) (m : LMsg) : SentOnly s (sendRequest s m) := by
  unfold sendRequest
  split
  · exact sendMsg_sentOnly s m
  · unfold SentOnly; rfl

theorem sendHome_traffic (s : State) (c g t a : Nat) (k : ReqKind) : Traffic s (sendHome s c g t a k) c := by
  unfold sendHome
  split
  · exact ⟨rfl, fun _ _ => rfl, List.prefix_append .., Nat.le_succ _⟩
  · unfold sendRemote
    refine Traffic.trans ?_ (traffic_of_sent (sendRequest_sentOnly ..))
    exact ⟨rfl, fun _ _ => rfl, List.prefix_refl _, Nat.le_succ _⟩

theorem sendHome_mem (s : State) (c g t a : Nat) (k : ReqKind) : (sendHome s c g t a k).mem = s.mem ∧ (sendHome s c g t a k).poison = s.poison := by
  unfold sendHome
  split
  · exact ⟨rfl, rfl⟩
  · unfold sendRemote
    exact ⟨(sendRequest_sentOnly _ _).mem, (sendRequest_sentOnly _ _).poison⟩

theorem sendHome_requests {s : State} {c a : Nat} (g t : Nat) (k : ReqKind) (h : addrModule a = s.modId) :
    (⟨s.llc.nextReq, c, g, t, a, k⟩ : Req) ∈ (sendHome s c g t a k).llc.reqs := by
  unfold sendHome
  rw [if_pos h]
  exact List.mem_append_right _ List.mem_cons_self

theorem grpOf_sendHome (s : State) (c g t a : Nat) (k : ReqKind) (d h : Nat) : grpOf (sendHome s c g t a k) d h = grpOf s d h := by
  unfold grpOf State.core; rw [sendHome_cores]

/-! ## Threads that act one after another -/

/-- The listed threads have had their part: their destination, the predicate `p` and what they wait for, and no other register. -/
structure Acts (i : Ctx) (a b : State) (ths : List Nat) (code n p : Nat) : Prop where
  groups : ∀ g, g ≠ i.g → grpOf b i.c g = grpOf a i.c g
  thrs : ∀ u, u ∉ ths → thrOf b i.c i.g u = thrOf a i.c i.g u
  gpr : ∀ u r, ¬ (code ≤ r ∧ r < code + n) → gprOf b i.c i.g u r = gprOf a i.c i.g u r
  preds : ∀ u q, q < 7 → ¬ (u ∈ ths ∧ q = p) → predOf b i.c i.g u q = predOf a i.c i.g u q
  urf : ∀ r, ¬ (code ≤ 0x80 + r ∧ 0x80 + r < code + n) → urfOf b i.c i.g r = urfOf a i.c i.g r
  head : (∀ u ∈ ths, i.active.head? ≠ some u) → (grpOf b i.c i.g).urf = (grpOf a i.c i.g).urf

namespace Acts

theorem nil {i : Ctx} {a : State} {code n p : Nat} : Acts i a a [] code n p :=
  ⟨fun _ _ => by rfl, fun _ _ => by rfl, fun _ _ _ => by rfl, fun _ _ _ _ => by rfl, fun _ _ => by rfl, fun _ => by rfl⟩

theorem trans {i : Ctx} {a b c : State} {ths us : List Nat} {code n p : Nat} (h : Acts i a b ths code n p) (k : Acts i b c us code n p) :
    Acts i a c (ths ++ us) code n p :=
  ⟨fun g hg => (k.groups g hg).trans (h.groups g hg),
    fun u hu => (k.thrs u fun hin => hu (List.mem_append_right _ hin)).trans (h.thrs u fun hin => hu (List.mem_append_left _ hin)),
    fun u r hr => (k.gpr u r hr).trans (h.gpr u r hr),
    fun u q hq hu => (k.preds u q hq fun hin => hu ⟨List.mem_append_right _ hin.1, hin.2⟩).trans
      (h.preds u q hq fun hin => hu ⟨List.mem_append_left _ hin.1, hin.2⟩),
    fun r hr => (k.urf r hr).trans (h.urf r hr),
    fun hu => (k.head fun u hin => hu u (List.mem_append_right _ hin)).trans (h.head fun u hin => hu u (List.mem_append_left _ hin))⟩

/-- A step that leaves every group alone. -/
theorem of_groups {i : Ctx} {a b : State} (ths : List Nat) (code n p : Nat) (hg : ∀ g, grpOf b i.c g = grpOf a i.c g) : Acts i a b ths code n p := by
  refine ⟨fun g _ => hg g, fun u _ => ?_, fun u r _ => ?_, fun u q _ _ => ?_, fun r _ => ?_, fun _ => ?_⟩ <;>
    simp only [thrOf, gprOf, urfOf, predOf, hg]

/-- One thread's destination is written. -/
theorem of_writeDst (i : Ctx) (a : State) (th code n v : Nat) : Acts i a (a.modGrp i.c i.g fun gr => writeDst i gr th code n v) [th] code n 7 := by
  have hown : grpOf (a.modGrp i.c i.g fun gr => writeDst i gr th code n v) i.c i.g = writeDst i (grpOf a i.c i.g) th code n v := by
    rw [grpOf_modGrp, if_pos rfl]
  refine ⟨fun g hg => by rw [grpOf_modGrp, if_neg hg], fun u hu => ?_, fun u r hr => ?_, fun u q _ _ => ?_, fun r hr => ?_, fun hu => ?_⟩ <;>
    simp only [thrOf, gprOf, urfOf, predOf, hown]
  · rw [thr_writeDst_regThread, if_neg (by rintro rfl; exact hu List.mem_cons_self)]
  · rw [thr_writeDst_regThread]
    split
    next h => subst h; exact regThread_gpr_other _ hr
    · rfl
  · have hp : (thr (writeDst i (grpOf a i.c i.g) th code n v) u).preds = (thr (grpOf a i.c i.g) u).preds := by
      rw [thr_writeDst_regThread]
      split
      next h => subst h; exact regThread_preds ..
      · rfl
    unfold predVal
    rw [hp]
  · exact urf_writeDst_other hr
  · unfold writeDst
    split
    · rfl
    next h =>
      unfold writeReg
      dsimp only
      split
      · rfl
      · split
        · exact absurd ⟨by omega, by assumption, hu th List.mem_cons_self⟩ h
        · rfl

/-- A step on the group that writes no register but `p` of its thread and leaves every other thread alone. -/
theorem of_grp (i : Ctx) (a : State) (th code n p : Nat) (f : Group → Group) (hother : ∀ gr u, u ≠ th → thr (f gr) u = thr gr u)
    (hgpr : ∀ gr, (thr (f gr) th).gpr = (thr gr th).gpr) (hpreds : ∀ gr q, q < 7 → q ≠ p → predVal (thr (f gr) th) q = predVal (thr gr th) q)
    (hurf : ∀ gr, (f gr).urf = gr.urf) : Acts i a (a.modGrp i.c i.g f) [th] code n p := by
  have hown : grpOf (a.modGrp i.c i.g f) i.c i.g = f (grpOf a i.c i.g) := by rw [grpOf_modGrp, if_pos rfl]
  refine ⟨fun g hg => by rw [grpOf_modGrp, if_neg hg], fun u hu => ?_, fun u r hr => ?_, fun u q hq hu => ?_, fun r hr => ?_, fun hu => ?_⟩
  · unfold thrOf; rw [hown, hother _ _ (by rintro rfl; exact hu List.mem_cons_self)]
  · unfold gprOf thrOf
    rw [hown]
    by_cases h : u = th
    · rw [h, hgpr]
    · rw [hother _ _ h]
  · unfold predOf thrOf
    rw [hown]
    by_cases h : u = th
    · rw [h]; exact hpreds _ q hq fun hp => hu ⟨h ▸ List.mem_cons_self, hp⟩
    · rw [hother _ _ h]
  · unfold urfOf; rw [hown, hurf]
  · rw [hown, hurf]

/-- What one thread waits for, and the write-throughs it counts, are no registers. -/
theorem of_modThr (i : Ctx) (a : State) (th code n p : Nat) (f : Thread → Thread) (hf : ∀ x, (f x).gpr = x.gpr ∧ (f x).preds = x.preds) :
    Acts i a (a.modGrp i.c i.g fun gr => modThr gr th f) [th] code n p :=
  of_grp i a th code n p _ (fun gr u hu => by rw [thr_modThr, if_neg hu]) (fun gr => by rw [thr_modThr, if_pos rfl, (hf _).1])
    (fun gr q _ _ => by unfold predVal; rw [thr_modThr, if_pos rfl, (hf _).2]) fun _ => by rfl

end Acts

/-- And nothing but memory, the core and what leaves it differs. -/
structure Turns (i : Ctx) (a b : State) (ths : List Nat) (code n : Nat) : Prop extends Acts i a b ths code n 7 where
  traffic : Traffic a b i.c

namespace Turns

theorem nil {i : Ctx} {a : State} {code n : Nat} : Turns i a a [] code n := ⟨.nil, .rfl⟩

theorem trans {i : Ctx} {a b c : State} {ths us : List Nat} {code n : Nat} (h : Turns i a b ths code n) (k : Turns i b c us code n) :
    Turns i a c (ths ++ us) code n := ⟨h.toActs.trans k.toActs, h.traffic.trans k.traffic⟩

theorem of_groups {i : Ctx} {a b : State} (ths : List Nat) (code n : Nat) (ht : Traffic a b i.c) (hg : ∀ g, grpOf b i.c g = grpOf a i.c g) :
    Turns i a b ths code n := ⟨.of_groups ths code n 7 hg, ht⟩

theorem of_writeDst (i : Ctx) (a : State) (th code n v : Nat) : Turns i a (a.modGrp i.c i.g fun gr => writeDst i gr th code n v) [th] code n :=
  ⟨.of_writeDst .., (modGrp_onlyCore ..).traffic⟩

theorem of_modThr (i : Ctx) (a : State) (th code n : Nat) (f : Thread → Thread) (hf : ∀ x, (f x).gpr = x.gpr ∧ (f x).preds = x.preds) :
    Turns i a (a.modGrp i.c i.g fun gr => modThr gr th f) [th] code n := ⟨.of_modThr i a th code n 7 f hf, (modGrp_onlyCore ..).traffic⟩

end Turns

theorem awaitReq_urf (gr : Group) (t req pc code n : Nat) (pred : Option Nat) : (awaitReq gr t req pc code n pred).urf = gr.urf := by
  unfold awaitReq noteMem addPend
  dsimp only
  split
  · rfl
  · split <;> rfl

theorem addPend_thr (gr : Group) (t req pc code n : Nat) (pred : Option Nat) (u : Nat) :
    ∃ p, thr (addPend gr t req pc code n pred) u = if u = t then { thr gr t with pend := p } else thr gr u := by
  unfold addPend
  dsimp only
  split
  · exact ⟨(thr gr t).pend, by
      split
      next h => subst h; rfl
      · rfl⟩
  · split
    · exact ⟨(thr gr t).pend, by
      split
      next h => subst h; rfl
      · rfl⟩
    · exact ⟨_, by rw [thr_modThr]⟩

theorem awaitReq_thr (gr : Group) (t req pc code n : Nat) (pred : Option Nat) (u : Nat) :
    ∃ p m, thr (awaitReq gr t req pc code n pred) u = if u = t then { thr gr t with pend := p, mems := m } else thr gr u := by
  obtain ⟨p, hp⟩ := addPend_thr gr t req pc code n pred t
  obtain ⟨p', hp'⟩ := addPend_thr gr t req pc code n pred u
  unfold awaitReq noteMem
  rw [thr_modThr]
  split
  next h => subst h; rw [hp, if_pos rfl]; exact ⟨_, _, rfl⟩
  next h => rw [hp', if_neg h]; exact ⟨[], [], rfl⟩

theorem awaitReq_waits (gr : Group) (t req pc : Nat) {code n : Nat} (pred : Option Nat) (hc : code < 0x80) (hn : 0 < n) :
    ∃ p ∈ (thr (awaitReq gr t req pc code n pred) t).pend, p.req = req ∧ p.regs = codeRange code n := by
  have hne : (codeRange code n).isEmpty = false := by
    unfold codeRange
    rw [if_neg (by omega)]
    cases n with
    | zero => omega
    | succ n => rw [List.range_succ_eq_map]; rfl
  unfold awaitReq noteMem addPend
  dsimp only
  rw [if_neg (by omega), if_neg (by rw [hne]; simp), thr_modThr, if_pos rfl, thr_modThr, if_pos rfl]
  exact ⟨_, List.mem_append_right _ List.mem_cons_self, rfl, rfl⟩

theorem Acts.of_await (i : Ctx) (a : State) (th req dst m : Nat) (pred : Option Nat) (code n p : Nat) :
    Acts i a (a.modGrp i.c i.g fun gr => awaitReq gr th req i.pc dst m pred) [th] code n p := by
  have hown : ∀ gr, ∃ p q, thr (awaitReq gr th req i.pc dst m pred) th = { thr gr th with pend := p, mems := q } := fun gr => by
    obtain ⟨p, q, h⟩ := awaitReq_thr gr th req i.pc dst m pred th
    exact ⟨p, q, by rw [h, if_pos rfl]⟩
  refine .of_grp i a th code n p _ (fun gr u hu => ?_) (fun gr => ?_) (fun gr q _ _ => ?_) fun gr => awaitReq_urf ..
  · obtain ⟨p, q, h⟩ := awaitReq_thr gr th req i.pc dst m pred u
    rw [h, if_neg hu]
  · obtain ⟨p, q, h⟩ := hown gr; rw [h]
  · obtain ⟨p, m, h⟩ := hown gr; unfold predVal; rw [h]

theorem Turns.of_await (i : Ctx) (a : State) (th req dst m : Nat) (pred : Option Nat) (code n : Nat) :
    Turns i a (a.modGrp i.c i.g fun gr => awaitReq gr th req i.pc dst m pred) [th] code n := ⟨.of_await .., (modGrp_onlyCore ..).traffic⟩

/-! ## One turn among the others -/

section
variable {T : State → State → List Nat → Prop} (hnil : ∀ a, T a a []) (htrans : ∀ {a b c ths us}, T a b ths → T b c us → T a c (ths ++ us))
include hnil htrans

/-- What a fold over the threads keeps at every turn. -/
theorem rel_foldl (step : State → Nat → State) (Inv : State → Prop) (ths : List Nat)
    (hstep : ∀ a, Inv a → ∀ th ∈ ths, T a (step a th) [th] ∧ Inv (step a th)) (a : State) (ha : Inv a) :
    T a (ths.foldl step a) ths ∧ Inv (ths.foldl step a) := by
  induction ths generalizing a with
  | nil => exact ⟨hnil a, ha⟩
  | cons th ths ih =>
    obtain ⟨h1, h2⟩ := hstep a ha th List.mem_cons_self
    obtain ⟨h3, h4⟩ := ih (fun b hb u hu => hstep b hb u (List.mem_cons_of_mem _ hu)) _ h2
    exact ⟨htrans h1 h3, h4⟩

/-- The turn of one thread: a state before it, and the turns of the others. -/
theorem rel_of_mem (step : State → Nat → State) (Inv : State → Prop) {ths : List Nat} (nd : ths.Nodup)
    (hstep : ∀ a, Inv a → ∀ th ∈ ths, T a (step a th) [th] ∧ Inv (step a th)) {a : State} (ha : Inv a) {th : Nat} (hth : th ∈ ths) :
    ∃ pre post, ths = pre ++ th :: post ∧ Inv (pre.foldl step a) ∧ th ∉ post ∧ th ∉ pre ∧ T a (pre.foldl step a) pre ∧
      T (step (pre.foldl step a) th) (ths.foldl step a) post := by
  obtain ⟨pre, post, rfl⟩ := List.append_of_mem hth
  obtain ⟨h1, h2⟩ := rel_foldl hnil htrans step Inv pre (fun b hb u hu => hstep b hb u (List.mem_append_left _ hu)) a ha
  obtain ⟨h3, h4⟩ := hstep _ h2 th hth
  obtain ⟨h5, -⟩ := rel_foldl hnil htrans step Inv post (fun b hb u hu => hstep b hb u (List.mem_append_right _ (List.mem_cons_of_mem _ hu))) _ h4
  rw [List.nodup_append] at nd
  obtain ⟨-, hnd, hdisj⟩ := nd
  refine ⟨pre, post, rfl, h2, (List.nodup_cons.1 hnd).1, fun hin => hdisj th hin th List.mem_cons_self rfl, h1, ?_⟩
  rw [List.foldl_append, List.foldl_cons]
  exact h5

end

theorem turns_foldl {i : Ctx} {code n : Nat} (step : State → Nat → State) (Inv : State → Prop) (ths : List Nat)
    (hstep : ∀ a, Inv a → ∀ th ∈ ths, Turns i a (step a th) [th] code n ∧ Inv (step a th)) (a : State) (ha : Inv a) :
    Turns i a (ths.foldl step a) ths code n ∧ Inv (ths.foldl step a) :=
  rel_foldl (T := fun a b ths => Turns i a b ths code n) (fun _ => .nil) (fun h k => h.trans k) step Inv ths hstep a ha

theorem turn_of_mem {i : Ctx} {code n : Nat} (step : State → Nat → State) (Inv : State → Prop) {ths : List Nat} (nd : ths.Nodup)
    (hstep : ∀ a, Inv a → ∀ th ∈ ths, Turns i a (step a th) [th] code n ∧ Inv (step a th)) {a : State} (ha : Inv a) {th : Nat} (hth : th ∈ ths) :
    ∃ pre post, ths = pre ++ th :: post ∧ Inv (pre.foldl step a) ∧ th ∉ post ∧ th ∉ pre ∧ Turns i a (pre.foldl step a) pre code n ∧
      Turns i (step (pre.foldl step a) th) (ths.foldl step a) post code n :=
  rel_of_mem (T := fun a b ths => Turns i a b ths code n) (fun _ => .nil) (fun h k => h.trans k) step Inv nd hstep ha hth

/-- `n` words at field `code` of a group hold `v` for thread `th`. -/
def GroupHolds (gr : Group) (i : Ctx) (th code n v : Nat) : Prop :=
  (code < 0x80 → ∀ j < n, tget 0 (thr gr th).gpr (code + j) = BitVec.ofNat 32 (v >>> (32 * j))) ∧
  (0x80 ≤ code → code < 0xC0 → i.active.head? = some th → ∀ j < n, tget 0 gr.urf (code - 0x80 + j) = BitVec.ofNat 32 (v >>> (32 * j)))

theorem groupHolds_writeDst (i : Ctx) (gr : Group) (th code n v : Nat) : GroupHolds (writeDst i gr th code n v) i th code n v := by
  refine ⟨fun hc j hj => ?_, fun h1 h2 hhead j hj => urf_writeDst_get h1 h2 hhead hj⟩
  rw [thr_writeDst_regThread, if_pos rfl, regThread_gpr_get _ hc hj]

theorem Turns.holds {i : Ctx} {a b : State} {ths : List Nat} {code n m k v th : Nat} (h : Turns i a b ths code n) (hth : th ∉ ths)
    (ha : GroupHolds (grpOf a i.c i.g) i th m k v) : GroupHolds (grpOf b i.c i.g) i th m k v := by
  obtain ⟨hg, hu⟩ := ha
  refine ⟨fun hc j hj => ?_, fun h1 h2 hhead j hj => ?_⟩
  · have := h.thrs th hth
    unfold thrOf at this
    rw [this]
    exact hg hc j hj
  · rw [h.head fun u hin heq => hth (Option.some.inj (hhead.symm.trans heq) ▸ hin)]
    exact hu h1 h2 hhead j hj

section
variable {s u t : State} {i : Ctx} {code n : Nat}

theorem GroupHolds.thread {th v m k : Nat} {ts : List Nat} {np : Nat} (h : GroupHolds (grpOf u i.c i.g) i th m k v)
    (hm : Moved s t i (grpOf u i.c i.g) ts np) : ThreadHolds t i th m k v := by
  obtain ⟨hg, hu⟩ := h
  refine ⟨fun hc j hj => ?_, fun h1 h2 hhead j hj => ?_⟩
  · unfold gprOf; rw [hm.gpr]; exact hg hc j hj
  · unfold urfOf; rw [hm.urf]; exact hu h1 h2 hhead j hj

/-- After the turns of the active threads the members go on. -/
theorem Acts.advance {v : State} {ths : List Nat} {p : Nat} (hu : ∀ g, SameRegs (grpOf s i.c g) (grpOf u i.c g)) (h : Acts i u v ths code n p) :
    Moved s (Machine.advance v i i.members (i.pc + 8)) i (grpOf v i.c i.g) i.members (i.pc + 8) :=
  advance_moved _ _ (fun g hg => by rw [h.groups g hg]; exact hu g) .rfl

theorem Turns.advance {v : State} {ths : List Nat} (hu : Ready s u i) (h : Turns i u v ths code n) :
    Moved s (Machine.advance v i i.members (i.pc + 8)) i (grpOf v i.c i.g) i.members (i.pc + 8) ∧ Traffic s (Machine.advance v i i.members (i.pc + 8)) i.c :=
  ⟨h.toActs.advance hu.regs, hu.core.traffic.trans (h.traffic.trans (modGrp_onlyCore ..).traffic)⟩

theorem Acts.regFrame {v : State} {ths ts : List Nat} {np p : Nat} (hu : ∀ g, SameRegs (grpOf s i.c g) (grpOf u i.c g)) (h : Acts i u v ths code n p)
    (hths : ∀ th ∈ ths, th ∈ i.active) (hm : Moved s t i (grpOf v i.c i.g) ts np) : RegFrame s t i code n p := by
  have hreg := hu i.g
  refine hm.regFrame (fun th r hr _ => ?_) (fun r hr _ => ?_) (fun th q hq hlt => ?_)
  · by_cases hin : th ∈ ths
    · exact (h.gpr th r fun hc => hr ⟨hths th hin, hc⟩).trans (congrArg (tget 0 · r) (hreg.gpr th))
    · exact (congrArg (fun x => tget 0 x.gpr r) (h.thrs th hin)).trans (congrArg (tget 0 · r) (hreg.gpr th))
  · exact (h.urf r hr).trans (congrArg (tget 0 · r) hreg.urf)
  · exact (h.preds th q hlt fun hin => hq ⟨hths th hin.1, hin.2⟩).trans (predVal_of_sameRegs hreg th q)

theorem Turns.regFrame {v : State} {ths ts : List Nat} {np : Nat} (hu : Ready s u i) (h : Turns i u v ths code n) (hths : ∀ th ∈ ths, th ∈ i.active)
    (hm : Moved s t i (grpOf v i.c i.g) ts np) : RegFrame s t i code n 7 := h.toActs.regFrame hu.regs hths hm

end

end Sys2Proof.Machine
end

section
/-! SUPPORT. Global loads (R157 to R160, R228 to R234, R243). -/
namespace Sys2Proof.Machine

/-- What the turns of earlier threads leave for a later one: memory, poison and what L1 holds. -/
structure SameData (s u : State) (c : Nat) : Prop where
  mem : u.mem = s.mem
  poison : u.poison = s.poison
  modId : u.modId = s.modId
  next : s.llc.nextReq ≤ u.llc.nextReq
  l1 : ∀ line, (l1Find (u.core c) line).map L1Line.data = (l1Find (s.core c) line).map L1Line.data

theorem SameData.rfl {s : State} {c : Nat} : SameData s s c := ⟨by rfl, by rfl, by rfl, le_rfl, fun _ => by rfl⟩

theorem SameData.trans {a b d : State} {c : Nat} (h : SameData a b c) (k : SameData b d c) : SameData a d c :=
  ⟨k.mem.trans h.mem, k.poison.trans h.poison, k.modId.trans h.modId, h.next.trans k.next, fun l => (k.l1 l).trans (h.l1 l)⟩

theorem l1Find_of_l1 {k k' : Core} (h : k'.l1 = k.l1) (line : Nat) : l1Find k' line = l1Find k line := by unfold l1Find; rw [h]

/-- Traffic that keeps memory, poison and the L1 of its core. -/
theorem Traffic.sameData {s u : State} {c : Nat} (h : Traffic s u c) (hm : u.mem = s.mem) (hp : u.poison = s.poison) (hl : (u.core c).l1 = (s.core c).l1) :
    SameData s u c := ⟨hm, hp, h.modId, h.next, fun _ => by rw [l1Find_of_l1 hl]⟩

theorem modGrp_l1 (s : State) (c g : Nat) (f : Group → Group) : ((s.modGrp c g f).core c).l1 = (s.core c).l1 := by
  unfold State.modGrp; rw [core_modCore_same]; rfl

theorem modGrp_sameData (s : State) (c g : Nat) (f : Group → Group) : SameData s (s.modGrp c g f) c :=
  (modGrp_onlyCore s c g f).traffic.sameData rfl rfl (modGrp_l1 ..)

theorem l1Find_l1Touch (k : Core) (line x : Nat) : (l1Find (l1Touch k line) x).map L1Line.data = (l1Find k x).map L1Line.data := by
  unfold l1Find l1Touch
  rw [List.find?_map]
  have hkey : ((fun l => l.line == x) ∘ fun l : L1Line => if l.line = line then { l with stamp := k.slots } else l) = fun l => l.line == x := by
    funext l
    show ((if l.line = line then { l with stamp := k.slots } else l).line == x) = (l.line == x)
    split <;> rfl
  rw [hkey]
  cases k.l1.find? fun l => l.line == x with
  | none => rfl
  | some l => show some (if l.line = line then { l with stamp := k.slots } else l).data = some l.data; split <;> rfl

theorem addMeters_onlyCore (s : State) (c a : Nat) (x : Cost) : OnlyCore s (addMeters s c a x) c := by
  obtain ⟨p, h⟩ := addMeters_eq s c a x
  rw [h]
  exact ⟨rfl, fun d hd => core_modCore_other _ _ hd⟩

theorem addMeters_l1 (s : State) (c a : Nat) (x : Cost) : ((addMeters s c a x).core c).l1 = (s.core c).l1 := by
  obtain ⟨p, h⟩ := addMeters_eq s c a x
  rw [h, core_modCore_same]
  rfl

theorem addMeters_sameData (s : State) (c a : Nat) (x : Cost) : SameData s (addMeters s c a x) c :=
  (addMeters_onlyCore s c a x).traffic.sameData (addMeters_onlyCore s c a x).memory.1 (addMeters_onlyCore s c a x).memory.2 (addMeters_l1 ..)

theorem sendHome_sameData (s : State) (c g t a : Nat) (k : ReqKind) : SameData s (sendHome s c g t a k) c := by
  refine (sendHome_traffic s c g t a k).sameData (sendHome_mem ..).1 (sendHome_mem ..).2 ?_
  unfold State.core; rw [sendHome_cores]

theorem OnlyGroups.l1 {s u : State} {c : Nat} (h : OnlyGroups s u c) : (u.core c).l1 = (s.core c).l1 := by unfold OnlyGroups at h; rw [h]

/-- A request of a thread, for which its destination waits. -/
def sendAwait (i : Ctx) (s : State) (th a dst words : Nat) (k : ReqKind) : State :=
  (sendHome s i.c i.g th a k).modGrp i.c i.g (fun gr => awaitReq gr th s.llc.nextReq i.pc dst words none)

theorem sendAwait_turn (i : Ctx) (s : State) (th a dst words : Nat) (k : ReqKind) (code n : Nat) :
    Turns i s (sendAwait i s th a dst words k) [th] code n ∧ SameData s (sendAwait i s th a dst words k) i.c :=
  ⟨(Turns.of_groups [] code n (sendHome_traffic ..) fun _ => grpOf_sendHome ..).trans (Turns.of_await ..),
    (sendHome_sameData ..).trans (modGrp_sameData ..)⟩

/-- The request is on its way and its destination waits, before other threads' turns and after. -/
theorem sendAwait_asks {i : Ctx} {s u b t : State} {th a dst words code n : Nat} {k : ReqKind} {ths ts : List Nat} {np : Nat}
    (hnext : s.llc.nextReq ≤ u.llc.nextReq) (hmod : u.modId = s.modId) (ha : addrModule a = s.modId) (hb : Turns i (sendAwait i u th a dst words k) b ths code n) (hth : th ∉ ths)
    (hreqs : b.llc.reqs <+: t.llc.reqs) (hm : Moved s t i (grpOf b i.c i.g) ts np) (hw : 0 < words) :
    ∃ id, Requested s t i th a k id ∧ (dst < 0x80 → ∃ p ∈ (thrOf t i.c i.g th).pend, p.req = id ∧ p.regs = codeRange dst words) := by
  refine ⟨u.llc.nextReq, ⟨hnext, hreqs.subset (hb.traffic.kept.subset ?_)⟩, fun hc => ?_⟩
  · exact sendHome_requests i.g th k (ha.trans hmod.symm)
  · rw [hm.pend, show thr (grpOf b i.c i.g) th = _ from hb.thrs th hth]
    unfold thrOf sendAwait
    rw [grpOf_modGrp, if_pos rfl]
    exact awaitReq_waits _ _ _ _ _ hc hw

section
variable {s : State} {x : Site} {w : Word64} {i : Ctx}

theorem sizeWords_pos (n : Nat) : 0 < sizeWords n := by unfold sizeWords; omega

/-- A load's turn, and what it leaves for the others. -/
theorem loadPlace_turn (sg : Bool) (u : State) (th : Nat) (p : Place) :
    Turns i u (loadPlace sg w i u th p) [th] (mData w) (sizeWords (mSize w)) ∧ SameData u (loadPlace sg w i u th p) i.c := by
  unfold loadPlace
  dsimp only
  split
  · exact ⟨.of_writeDst .., modGrp_sameData ..⟩
  · split
    · refine ⟨(Turns.of_groups [] _ _ ?_ fun g => ?_).trans (.of_writeDst ..), SameData.trans ?_ (modGrp_sameData ..)⟩
      · exact ⟨rfl, fun d hd => core_modCore_other u (fun k => l1Touch k _) hd, List.prefix_refl _, le_rfl⟩
      · exact grpOf_modCore_groups u i.c (f := fun k => l1Touch k _) (fun _ => rfl) i.c g
      · exact ⟨rfl, rfl, rfl, le_rfl, fun line => by rw [core_setCore_same]; exact l1Find_l1Touch ..⟩
    · obtain ⟨h1, h2⟩ := sendAwait_turn i (meterLine u i.c _ (if decide (mCache w = 0) then 128 else mSize w)) th _
        (if decide (0x80 ≤ mData w ∧ mData w < 0xC0) ∧ i.active.head? ≠ some th then 0xC0 else mData w) (sizeWords (mSize w))
        (.load (mSize w) sg (decide (0x80 ≤ mData w ∧ mData w < 0xC0)) (decide (mCache w = 0))
          (if decide (0x80 ≤ mData w ∧ mData w < 0xC0) ∧ i.active.head? ≠ some th then 0xC0 else mData w)) (mData w) (sizeWords (mSize w))
      exact ⟨(Turns.of_groups [] _ _ (addMeters_onlyCore ..).traffic fun g => grpOf_addMeters ..).trans h1, (addMeters_sameData ..).trans h2⟩

/-- The request that a load's turn sends, when neither the own local store nor L1 answers. -/
theorem loadPlace_miss (sg : Bool) (u : State) (th a : Nat) (h : (if mCache w = 1 then none else l1Find (u.core i.c) (a / 128)) = none) :
    loadPlace sg w i u th (.glob a) = sendAwait i (meterLine u i.c a (if decide (mCache w = 0) then 128 else mSize w)) th a (reqDst i th (mData w))
      (sizeWords (mSize w)) (.load (mSize w) sg (isUni (mData w)) (mCache w == 0) (reqDst i th (mData w))) := by
  have hdst : (if decide (0x80 ≤ mData w ∧ mData w < 0xC0) = true ∧ i.active.head? ≠ some th then 0xC0 else mData w) = reqDst i th (mData w) := by
    unfold reqDst; simp only [decide_eq_true_eq]
  unfold loadPlace
  dsimp only
  rw [h, hdst]
  rfl

/-- Which value a load's turn leaves at once. -/
theorem loadPlace_own (sg : Bool) {u : State} (hu : u.mem = s.mem) (th off : Nat) :
    GroupHolds (grpOf (loadPlace sg w i u th (.own off)) i.c i.g) i th (mData w) (sizeWords (mSize w))
      (extendVal (mSize w) sg (leNat (readBytes s.mem (lsAddr i.c + off) (mSize w)))) := by
  unfold loadPlace
  dsimp only
  rw [grpOf_modGrp, if_pos rfl, hu]
  exact groupHolds_writeDst ..

theorem loadPlace_hit (sg : Bool) {u : State} (hu : SameData s u i.c) {th a : Nat} {l : L1Line} (hc : mCache w ≠ 1) (hl : l1Find (s.core i.c) (a / 128) = some l) :
    GroupHolds (grpOf (loadPlace sg w i u th (.glob a)) i.c i.g) i th (mData w) (sizeWords (mSize w))
      (extendVal (mSize w) sg (fieldLe l.data (a % 128) (mSize w))) := by
  have hsame := hu.l1 (a / 128)
  rw [hl] at hsame
  obtain ⟨l', hl', hdata⟩ := Option.map_eq_some_iff.1 hsame
  unfold loadPlace
  dsimp only
  rw [if_neg hc, hl']
  dsimp only
  rw [grpOf_modGrp, if_pos rfl, hdata]
  exact groupHolds_writeDst ..

end

/-! ## The row -/

section
variable {s : State} {x : Site} {w : Word64} {i : Ctx} {at_ : Nat → Nat} {place : Nat → Place}

theorem countL1_eq (s : State) (c : Nat) (ls : List (Nat × Bool)) : ∃ p, countL1 s c ls = { s with pmc := p } := by
  unfold countL1
  induction ls generalizing s with
  | nil => exact ⟨s.pmc, rfl⟩
  | cons l ls ih =>
    obtain ⟨p, hp⟩ := countCore_pmc s c (if l.2 then 0x06 else 0x07) 1 (some (128 * l.1))
    rw [List.foldl_cons, hp]
    obtain ⟨q, hq⟩ := ih { s with pmc := p }
    exact ⟨q, hq⟩

theorem Ready.count {u : State} (h : Ready s u i) (ls : List (Nat × Bool)) : Ready s (countL1 u i.c ls) i := by
  obtain ⟨p, hp⟩ := countL1_eq u i.c ls
  rw [hp]
  exact ⟨h.regs, h.core.trans ⟨rfl, fun _ _ => rfl⟩, h.groups⟩

theorem Ready.sameData {u : State} (h : Ready s u i) : SameData s u i.c :=
  h.core.traffic.sameData h.core.memory.1 h.core.memory.2 h.groups.l1

theorem globalAccess_slotted {gr : Group} (hgr : SameRegs (grpOf s i.c i.g) gr) (th n : Nat) (rd wr : Bool) :
    globalAccess (slotted s i) gr i th n rd wr = globalAccess s (grpOf s i.c i.g) i th n rd wr := by
  unfold globalAccess
  rw [mGlobal_of_sameRegs hgr]
  simp only [globalCheck_slotted]

theorem meetsPoison_slotted (a : Nat) (p : Place) (n : Nat) (cached : Bool) : meetsPoison (slotted s i) i.c a p n cached = meetsPoison s i.c a p n cached := by
  have hready := slotted_ready s i
  have hl : ∀ b, l1Find ((slotted s i).core i.c) b = l1Find (s.core i.c) b := fun b => l1Find_of_l1 hready.groups.l1 b
  unfold meetsPoison storeWaits
  simp only [hl]
  rw [hready.core.1]

/-- The state after a load's issue, whose threads pass their checks. -/
theorem loadGlobal_turns (sg : Bool) {own legal : Bool} (hi : Issues s x w (codeRange (mBase w) 2) [] i) (hown : own = true) (hlegal : legal = true)
    (hb : srcOk (mBase w) 2 = true) (hd : dstOk (mData w) (sizeWords (mSize w)) = true)
    (hok : ∀ th ∈ i.active, globalAccess s (grpOf s i.c i.g) i th (mSize w) true false = .ok (at_ th, place th) ∧
      meetsPoison s i.c (at_ th) (place th) (mSize w) (mCache w != 1) = none) :
    ∃ u, Ready s u i ∧ coreRow own w (issue s x w (codeRange (mBase w) 2) [] legal (loadGlobal sg w)) =
      .next (advance (i.active.foldl (fun u th => loadPlace sg w i u th (place th)) u) i i.members (i.pc + 8)) := by
  subst hown hlegal
  have hready := slotted_ready s i
  refine ⟨_, hready.count (l1Looks (slotted s i) i.c w (i.active.map place)), ?_⟩
  rw [issue_legal hi]
  unfold loadGlobal
  dsimp only
  rw [runThreads_ok i _ place]
  · simp only [goOn_nil, faultSet_nil, List.foldl_map, List.map_map, countPoisonedAt, List.foldl_nil]
    rfl
  · intro th hth
    obtain ⟨h1, h2⟩ := hok th hth
    have hg : grp ((slotted s i).core i.c) i.g = grpOf (slotted s i) i.c i.g := rfl
    rw [hg, hb, hd, if_neg (by decide), globalAccess_slotted (hready.regs i.g), h1]
    dsimp only
    rw [meetsPoison_slotted, h2]

/-- A global load whose threads pass their checks. -/
theorem loadGlobal_answers (sg : Bool) {own legal : Bool} (hi : Issues s x w (codeRange (mBase w) 2) [] i) (hown : own = true) (hlegal : legal = true)
    (hb : srcOk (mBase w) 2 = true) (hd : dstOk (mData w) (sizeWords (mSize w)) = true)
    (hok : ∀ th ∈ i.active, globalAccess s (grpOf s i.c i.g) i th (mSize w) true false = .ok (at_ th, place th) ∧
      meetsPoison s i.c (at_ th) (place th) (mSize w) (mCache w != 1) = none) :
    ∃ t, coreRow own w (issue s x w (codeRange (mBase w) 2) [] legal (loadGlobal sg w)) = .next t ∧ SendsOnly s t i.c ∧ ReqsKept s t ∧
      RegFrame s t i (mData w) (sizeWords (mSize w)) 7 ∧ AllAt t i (i.pc + 8) ∧
      ∀ th ∈ i.active,
        (∀ off, place th = .own off →
          ThreadHolds t i th (mData w) (sizeWords (mSize w)) (extendVal (mSize w) sg (leNat (readBytes s.mem (lsAddr i.c + off) (mSize w))))) ∧
        (∀ a l, place th = .glob a → mCache w ≠ 1 → l1Find (s.core i.c) (a / 128) = some l →
          ThreadHolds t i th (mData w) (sizeWords (mSize w)) (extendVal (mSize w) sg (fieldLe l.data (a % 128) (mSize w)))) ∧
        (∀ a, place th = .glob a → (mCache w = 1 ∨ l1Find (s.core i.c) (a / 128) = none) → addrModule a = s.modId →
          ∃ id, Requested s t i th a (.load (mSize w) sg (isUni (mData w)) (mCache w == 0) (reqDst i th (mData w))) id ∧
            Awaits t i th (mData w) (sizeWords (mSize w)) id) := by
  obtain ⟨_, _, _, _, nd, _⟩ := issueCtx_members hi.1
  obtain ⟨u, hready, hexec⟩ := loadGlobal_turns sg hi hown hlegal hb hd hok
  let step := fun u th => loadPlace sg w i u th (place th)
  have hstep : ∀ a, SameData s a i.c → ∀ th ∈ i.active, Turns i a (step a th) [th] (mData w) (sizeWords (mSize w)) ∧ SameData s (step a th) i.c :=
    fun a ha th _ => ⟨(loadPlace_turn sg a th (place th)).1, ha.trans (loadPlace_turn sg a th (place th)).2⟩
  obtain ⟨hturns, hdata⟩ := turns_foldl step (SameData s · i.c) i.active hstep u hready.sameData
  obtain ⟨hmoved, htraffic⟩ := hturns.advance hready
  refine ⟨_, hexec, htraffic.sendsOnly hdata.mem hdata.poison, htraffic.kept, hturns.regFrame hready (fun _ h => h) hmoved, hmoved.allAt rfl, fun th hth => ?_⟩
  obtain ⟨pre, post, -, hpre, hpost, -, -, hrest⟩ := turn_of_mem step (SameData s · i.c) nd hstep hready.sameData hth
  refine ⟨fun off hp => ?_, fun a l hp hc hl => ?_, fun a hp hmiss ha => ?_⟩
  · have hval := loadPlace_own (w := w) (i := i) sg hpre.mem th off
    rw [← hp] at hval
    exact (hrest.holds hpost hval).thread hmoved
  · have hval := loadPlace_hit (th := th) sg hpre hc hl
    rw [← hp] at hval
    exact (hrest.holds hpost hval).thread hmoved
  · have hnone : (if mCache w = 1 then none else l1Find ((pre.foldl step u).core i.c) (a / 128)) = none := by
      split
      · rfl
      next hc =>
        have hsame := hpre.l1 (a / 128)
        rw [hmiss.resolve_left hc] at hsame
        exact Option.map_eq_none_iff.1 hsame
    have hturn : step (pre.foldl step u) th = _ := (congrArg _ hp).trans (loadPlace_miss sg _ th a hnone)
    rw [hturn] at hrest
    obtain ⟨id, hreq, hwait⟩ := sendAwait_asks (t := advance (i.active.foldl step u) i i.members (i.pc + 8)) (hpre.trans (addMeters_sameData ..)).next (hpre.trans (addMeters_sameData ..)).modId ha hrest hpost (List.prefix_refl _) hmoved (sizeWords_pos _)
    refine ⟨id, hreq, fun hc => ?_⟩
    have hdst : reqDst i th (mData w) = mData w := by unfold reqDst; rw [if_neg (by omega)]
    rw [hdst] at hwait
    exact hwait hc

end

/-- Settles O9: the threads take their turns; what the own store or L1 holds is written at once, and the rest is asked for. -/
theorem globalLoads : Obligations.GlobalLoads := by
  unfold Obligations.GlobalLoads
  dsimp only
  intro s x w i sg at_ place hi hl hb hd hok
  cases sg with
  | false => exact loadGlobal_answers false hi (isRow_of_legalM hl) hl hb hd hok
  | true => exact loadGlobal_answers true hi (isRow_of_legalM hl) hl hb hd hok

end Sys2Proof.Machine
end

section
/-! SUPPORT. Global stores (R132, R157 to R159, R237, R243). -/
namespace Sys2Proof.Machine

/-- Bytes that a turn may write: those of the thread's own-store access. -/
def MissesOwn (c n : Nat) (p : Place) (b : Nat) : Prop := ∀ off, p = .own off → b < lsAddr c + off ∨ lsAddr c + off + n ≤ b

theorem memGet_foldl_turns (step : State → Nat → State) (ths : List Nat) {b : Nat}
    (hstep : ∀ a, ∀ th ∈ ths, memGet (step a th).mem b = memGet a.mem b) (a : State) : memGet (ths.foldl step a).mem b = memGet a.mem b := by
  induction ths generalizing a with
  | nil => rfl
  | cons th ths ih => rw [List.foldl_cons, ih fun a u hu => hstep a u (List.mem_cons_of_mem _ hu), hstep a th List.mem_cons_self]

theorem missesOwn_of_ranges {c n : Nat} {ths : List Nat} {place : Nat → Place} {b : Nat} (h : ∀ p ∈ ownRanges c n ths place, b < p.1 ∨ p.1 + p.2 ≤ b) :
    ∀ th ∈ ths, MissesOwn c n (place th) b := fun th hth off hp =>
  h (lsAddr c + off, n) (List.mem_filterMap.2 ⟨th, hth, by rw [hp]⟩)

/-- A place in the own store that a check gave lies in the store. -/
theorem globalAccess_own {s : State} {gr : Group} {i : Ctx} {th n a off : Nat} {rd wr : Bool} (h : globalAccess s gr i th n rd wr = .ok (a, .own off)) :
    off + n ≤ lsBytes := by
  unfold globalAccess at h
  dsimp only at h
  split at h
  · cases h
  · unfold globalCheck at h
    dsimp only at h
    split at h
    · cases h
    · split at h
      · split at h
        next hle => cases h; exact hle
        · cases h
      · split at h
        · cases h
        · split at h <;> cases h

section
variable {s : State} {x : Site} {w : Word64} {i : Ctx}

theorem storeL1_traffic (s : State) (c a : Nat) (bs : List Nat) : Traffic s (storeL1 s c a bs) c :=
  ⟨rfl, fun _ hd => core_modCore_other s (fun k => l1Store k a bs) hd, List.prefix_refl _, le_rfl⟩

theorem grpOf_storeL1 (s : State) (c a : Nat) (bs : List Nat) (d g : Nat) : grpOf (storeL1 s c a bs) d g = grpOf s d g :=
  grpOf_modCore_groups s c (f := fun k => l1Store k a bs) (fun _ => rfl) d g

/-- A store counted in the meters of the task, and once more for its granule's source. -/
def meterStore (s : State) (c a n : Nat) : State := meterSource (meterLine s c a n) c a n

theorem meterStore_onlyCore (s : State) (c a n : Nat) : OnlyCore s (meterStore s c a n) c := by
  unfold meterStore meterSource
  dsimp only
  split
  · exact addMeters_onlyCore ..
  · exact (addMeters_onlyCore ..).trans (addMeters_onlyCore ..)

theorem grpOf_meterStore (s : State) (c a n d g : Nat) : grpOf (meterStore s c a n) d g = grpOf s d g := by
  unfold meterStore meterSource
  dsimp only
  split
  · exact grpOf_addMeters ..
  · rw [grpOf_addMeters]; exact grpOf_addMeters ..

theorem addWrite_turn (i : Ctx) (s : State) (th : Nat) : Turns i s (addWrite s i.c i.g th) [th] 0xC0 0 := by
  refine (Turns.of_modThr i s th 0xC0 0 (fun th => { th with writes := th.writes + 1 }) fun _ => ⟨rfl, rfl⟩).trans
    (.of_groups [] _ _ ⟨rfl, fun _ hd => core_modCore_other _ _ hd, List.prefix_refl _, le_rfl⟩ fun g => ?_)
  exact grpOf_modCore_groups _ _ (f := fun k => { k with writes := k.writes + 1 }) (fun _ => rfl) _ _

theorem addWrite_writes (s : State) (c g th : Nat) : (thrOf (addWrite s c g th) c g th).writes = (thrOf s c g th).writes + 1 := by
  unfold thrOf addWrite State.modThread
  rw [grpOf_modCore_groups _ _ (f := fun k => { k with writes := k.writes + 1 }) (fun _ => rfl), grpOf_modGrp, if_pos rfl, thr_modThr, if_pos rfl]

theorem storePlace_glob (u : State) (th a : Nat) (bs : List Nat) : storePlace i u th (.glob a) bs =
    addWrite (sendHome (meterStore (storeL1 u i.c a bs) i.c a bs.length) i.c i.g th a (.store bs)) i.c i.g th := rfl

theorem storePlace_turn (u : State) (th : Nat) (p : Place) (bs : List Nat) : Turns i u (storePlace i u th p bs) [th] 0xC0 0 := by
  cases p with
  | own off => exact .of_groups _ _ _ ⟨rfl, fun _ _ => rfl, List.prefix_refl _, le_rfl⟩ fun _ => rfl
  | glob a =>
    rw [storePlace_glob]
    exact ((Turns.of_groups [] _ _ (storeL1_traffic ..) fun g => grpOf_storeL1 ..).trans
      ((Turns.of_groups [] _ _ (meterStore_onlyCore ..).traffic fun g => grpOf_meterStore ..).trans
      (Turns.of_groups [] _ _ (sendHome_traffic ..) fun g => grpOf_sendHome ..))).trans (addWrite_turn ..)

theorem storePlace_glob_mem (u : State) (th a : Nat) (bs : List Nat) : (storePlace i u th (.glob a) bs).mem = u.mem := by
  rw [storePlace_glob]
  show (sendHome _ _ _ _ _ _).mem = _
  rw [(sendHome_mem ..).1, (meterStore_onlyCore ..).memory.1]
  rfl

theorem storePlace_misses {u : State} {th : Nat} {p : Place} {bs : List Nat} {b : Nat}
    (hlow : ∀ off, p = .own off → addrLow (lsAddr i.c + off) = lsAddr i.c + off) (h : MissesOwn i.c bs.length p b) :
    memGet (storePlace i u th p bs).mem b = memGet u.mem b := by
  cases p with
  | own off =>
    show memGet (storeBytes u _ bs).mem b = _
    rw [storeBytes_mem, hlow off rfl]
    exact memGet_writeBytes_other _ _ _ (h off rfl)
  | glob a => rw [storePlace_glob_mem]

theorem storePlace_asks {u : State} {th a : Nat} {bs : List Nat} (ha : addrModule a = u.modId) :
    ∃ id, u.llc.nextReq ≤ id ∧ (⟨id, i.c, i.g, th, a, .store bs⟩ : Req) ∈ (storePlace i u th (.glob a) bs).llc.reqs := by
  have htraffic : Traffic u (meterStore (storeL1 u i.c a bs) i.c a bs.length) i.c := (storeL1_traffic ..).trans (meterStore_onlyCore ..).traffic
  exact ⟨_, htraffic.next, sendHome_requests i.g th (.store bs) (ha.trans htraffic.modId.symm)⟩

/-- The state after a global store's issue, whose threads pass their checks. -/
theorem ldstGSt_turns {at_ : Nat → Nat} {place : Nat → Place} (hi : Issues s x w (storeSrcs w 2) [] i)
    (hl : legalM 0x10 2 [0, 1, 2, 3, 4] true false w = true) (hb : srcOk (mBase w) 2 = true) (hd : srcOk (mData w) (sizeWords (mSize w)) = true)
    (hok : ∀ th ∈ i.active, globalAccess s (grpOf s i.c i.g) i th (mSize w) false true = .ok (at_ th, place th)) :
    exec (.ldstGSt x w) s = .next (advance (i.active.foldl (fun u th => storePlace i u th (place th) (storeData (grpOf s i.c i.g) i th w)) (slotted s i))
      i i.members (i.pc + 8)) := by
  have hreg := (slotted_ready s i).regs i.g
  show execLdstGSt x w s = _
  unfold execLdstGSt
  rw [hl, isRow_of_legalM hl, issue_legal hi]
  dsimp only
  rw [runThreads_ok i _ (fun th => (place th, storeData (grpOf s i.c i.g) i th w))]
  · simp only [goOn_nil, faultSet_nil, List.foldl_map]
    rfl
  · intro th hth
    have hg : grp ((slotted s i).core i.c) i.g = grpOf (slotted s i) i.c i.g := rfl
    rw [hg, hb, hd, if_neg (by decide), globalAccess_slotted hreg, hok th hth, storeData_of_sameRegs hreg]

end

/-- Settles O10: the threads take their turns; a store of the own core writes its bytes, and every other one is sent and counted. -/
theorem globalStores : Obligations.GlobalStores := by
  unfold Obligations.GlobalStores
  dsimp only
  intro s x w i at_ place hi hl hb hd hok
  obtain ⟨hc, _, _, _, nd, _⟩ := issueCtx_members hi.1
  have hready := slotted_ready s i
  let row := fun th => storeData (grpOf s i.c i.g) i th w
  let step := fun u th => storePlace i u th (place th) (row th)
  have hlen : ∀ th, (row th).length = mSize w := fun th => natLe_length _ _
  have hlow : ∀ th ∈ i.active, ∀ off, place th = .own off → addrLow (lsAddr i.c + off) = lsAddr i.c + off := fun th hth off hp => by
    have hbelow : ∀ off ≤ lsBytes, addrLow (lsAddr i.c + off) = lsAddr i.c + off := hc ▸ fun off => addrLow_lsAddr x.core
    have := hok th hth
    rw [hp] at this
    exact hbelow off (le_trans (Nat.le_add_right _ _) (globalAccess_own this))
  have hstep : ∀ a, True → ∀ th ∈ i.active, Turns i a (step a th) [th] 0xC0 0 ∧ True := fun a _ th _ => ⟨storePlace_turn a th (place th) (row th), trivial⟩
  obtain ⟨hturns, -⟩ := turns_foldl step (fun _ => True) i.active hstep (slotted s i) trivial
  obtain ⟨hmoved, htraffic⟩ := hturns.advance hready
  have hmem : (slotted s i).mem = s.mem := hready.core.memory.1
  have hmiss : ∀ b, ∀ a, ∀ th ∈ i.active, MissesOwn i.c (mSize w) (place th) b → memGet (step a th).mem b = memGet a.mem b := fun b a th hth hm =>
    storePlace_misses (hlow th hth) (hlen th ▸ hm)
  refine ⟨_, ldstGSt_turns hi hl hb hd hok, htraffic.sendsOnly_store, htraffic.kept, ⟨hturns.regFrame hready (fun _ h => h) hmoved, hmoved.allAt rfl⟩,
    fun b hb => ?_, fun th hth => ?_⟩
  · have hmisses := missesOwn_of_ranges hb
    exact (memGet_foldl_turns step i.active (fun a th hth => hmiss b a th hth (hmisses th hth)) _).trans
      (congrArg (memGet · b) hmem)
  · obtain ⟨pre, post, hsplit, -, hpost, hnpre, hpre, hrest⟩ := turn_of_mem step (fun _ => True) nd hstep (a := slotted s i) trivial hth
    refine ⟨fun off hp hlast j hj => ?_, fun a hp => ⟨?_, fun ha => ?_⟩⟩
    · have hsort := issueCtx_sorted hi.1
      rw [hsplit] at hsort
      obtain ⟨-, hsort, -⟩ := List.pairwise_append.1 hsort
      have hlater : ∀ u ∈ post, th < u := (List.pairwise_cons.1 hsort).1
      have hin : ∀ u ∈ post, u ∈ i.active := fun u hu => hsplit ▸ List.mem_append_right _ (List.mem_cons_of_mem _ hu)
      have hj' : j < mSize w := hlen th ▸ hj
      show memGet (i.active.foldl step (slotted s i)).mem _ = _
      rw [hsplit, List.foldl_append, List.foldl_cons, memGet_foldl_turns step post fun a u hu => ?_]
      · show memGet (storePlace i _ th (place th) (row th)).mem _ = _
        rw [hp]
        show memGet (storeBytes _ _ (row th)).mem _ = _
        rw [storeBytes_mem, hlow th hth off hp, memGet_writeBytes _ _ _ hj, List.getD_eq_getElem _ _ hj]
      · refine hmiss _ a u (hin u hu) fun o ho => ?_
        have := hlast u (hin u hu) (hlater u hu) o ho
        omega
    · rw [hmoved.writes, show thr (grpOf (i.active.foldl step (slotted s i)) i.c i.g) th = _ from hrest.thrs th hpost]
      show (thrOf (storePlace i _ th (place th) (row th)) i.c i.g th).writes = _
      rw [hp, storePlace_glob, addWrite_writes]
      unfold thrOf
      rw [grpOf_sendHome, grpOf_meterStore, grpOf_storeL1]
      have h1 : thr (grpOf (pre.foldl step (slotted s i)) i.c i.g) th = thr (grpOf (slotted s i) i.c i.g) th := hpre.thrs th hnpre
      rw [h1, writes_of_unblocked ((hready.regs i.g).thrs th)]
    · have htr : Traffic s (pre.foldl step (slotted s i)) i.c := hready.core.traffic.trans hpre.traffic
      obtain ⟨id, hle, hmem'⟩ := storePlace_asks (i := i) (u := pre.foldl step (slotted s i)) (th := th) (bs := row th) (ha.trans htr.modId.symm)
      rw [← hp] at hmem'
      exact ⟨id, htr.next.trans hle, hrest.traffic.kept.subset hmem'⟩

end Sys2Proof.Machine
end

section
/-! SUPPORT. Atomics (R158, R159, R456). -/
namespace Sys2Proof.Machine

section
variable {s : State} {x : Site} {w : Word64} {i : Ctx}

theorem dropL1_traffic (s : State) (c line : Nat) : Traffic s (dropL1 s c line) c :=
  ⟨rfl, fun _ hd => core_modCore_other s (fun k => l1Drop k line) hd, List.prefix_refl _, le_rfl⟩

theorem grpOf_dropL1 (s : State) (c line d g : Nat) : grpOf (dropL1 s c line) d g = grpOf s d g :=
  grpOf_modCore_groups s c (f := fun k => l1Drop k line) (fun _ => rfl) d g

/-- The rest of an atomic for an address elsewhere: its logged value, or its request. -/
def atomElsewhere (op : Nat) (w : Word64) (i : Ctx) (s : State) (th a : Nat) (args : Nat × Nat) : State :=
  match (s.core i.c).atomReplay.find? (fun l => l.group == i.g && l.thread == th) with
  | some l => (s.modCore i.c (fun k => { k with atomReplay := k.atomReplay.erase l })).modGrp i.c i.g
      (fun gr => writeDst i gr th (mData w) (sizeWords (mSize w)) l.value)
  | none => sendAwait i (meterLine s i.c a (mSize w)) th a (reqDst i th (mData w)) (sizeWords (mSize w))
      (.atom op (mSize w) (isUni (mData w)) (reqDst i th (mData w)) args.1 args.2)

theorem atomPlace_glob (op : Nat) (u : State) (th a : Nat) (args : Nat × Nat) :
    atomPlace op w i u th (.glob a) args = atomElsewhere op w i (dropL1 u i.c (a / 128)) th a args := by
  have hdst : (if decide (0x80 ≤ mData w ∧ mData w < 0xC0) = true ∧ i.active.head? ≠ some th then 0xC0 else mData w) = reqDst i th (mData w) := by
    unfold reqDst; simp only [decide_eq_true_eq]
  unfold atomPlace atomElsewhere
  dsimp only
  rw [hdst]
  rfl

/-- The value of a thread's own-store atomic, and the state that its turn leaves. -/
def atomOwn (op : Nat) (w : Word64) (i : Ctx) (s : State) (th off : Nat) (args : Nat × Nat) : State :=
  (s.setBytes (lsAddr i.c + off) (natLe (mSize w) (atomOp op (mSize w) (leNat (readBytes s.mem (lsAddr i.c + off) (mSize w))) args.1 args.2))).modGrp i.c i.g
    (fun gr => writeDst i gr th (mData w) (sizeWords (mSize w)) (leNat (readBytes s.mem (lsAddr i.c + off) (mSize w))))

theorem atomPlace_own (op : Nat) (u : State) (th off : Nat) (args : Nat × Nat) : atomPlace op w i u th (.own off) args = atomOwn op w i u th off args := rfl

/-- What the turns of earlier threads leave of an atomic's core for thread `th`. -/
structure AtomKept (s u : State) (i : Ctx) (th : Nat) : Prop where
  replay : (u.core i.c).atomReplay.find? (fun l => l.group == i.g && l.thread == th) = (s.core i.c).atomReplay.find? (fun l => l.group == i.g && l.thread == th)
  l1 : ∀ l ∈ (u.core i.c).l1, l ∈ (s.core i.c).l1

theorem AtomKept.trans {a b d : State} {i : Ctx} {th : Nat} (h : AtomKept a b i th) (k : AtomKept b d i th) : AtomKept a d i th :=
  ⟨k.replay.trans h.replay, fun l hl => h.l1 l (k.l1 l hl)⟩

theorem AtomKept.of_core {a b : State} {i : Ctx} (th : Nat) (h1 : (b.core i.c).atomReplay = (a.core i.c).atomReplay) (h2 : (b.core i.c).l1 = (a.core i.c).l1) :
    AtomKept a b i th := ⟨by rw [h1], fun l hl => h2 ▸ hl⟩

theorem find?_erase_other {α : Type} [DecidableEq α] (p : α → Bool) (l : List α) {a : α} (h : p a = false) : (l.erase a).find? p = l.find? p := by
  induction l with
  | nil => rfl
  | cons b l ih =>
    rw [List.erase_cons]
    split
    next hb => rw [List.find?_cons, eq_of_beq hb, h]
    next hb => rw [List.find?_cons, List.find?_cons, ih]

theorem addMeters_core (s : State) (c a : Nat) (y : Cost) : ∃ m g, (addMeters s c a y).core c = { s.core c with meters := m, seg := g } := by
  obtain ⟨p, h⟩ := addMeters_eq s c a y
  exact ⟨_, _, by rw [h, core_modCore_same]; rfl⟩

theorem sendHome_core (s : State) (c g t a : Nat) (k : ReqKind) (d : Nat) : (sendHome s c g t a k).core d = s.core d := by
  unfold State.core; rw [sendHome_cores]

theorem modGrp_core (s : State) (c g : Nat) (f : Group → Group) : ∃ gs, (s.modGrp c g f).core c = { s.core c with groups := gs } :=
  ⟨_, by unfold State.modGrp; rw [core_modCore_same]; rfl⟩

theorem sendAwait_core (i : Ctx) (s : State) (th a dst words : Nat) (k : ReqKind) :
    ∃ gs, (sendAwait i s th a dst words k).core i.c = { s.core i.c with groups := gs } := by
  obtain ⟨gs, h⟩ := modGrp_core (sendHome s i.c i.g th a k) i.c i.g (fun gr => awaitReq gr th s.llc.nextReq i.pc dst words none)
  exact ⟨gs, by unfold sendAwait; rw [h, sendHome_core]⟩

theorem atomElsewhere_kept (op : Nat) (u : State) (th a : Nat) (args : Nat × Nat) {v : Nat} (hv : v ≠ th) :
    AtomKept u (atomElsewhere op w i u th a args) i v := by
  unfold atomElsewhere
  split
  next l hl =>
    obtain ⟨gs, hcore⟩ := modGrp_core (u.modCore i.c (fun k => { k with atomReplay := k.atomReplay.erase l })) i.c i.g
      (fun gr => writeDst i gr th (mData w) (sizeWords (mSize w)) l.value)
    have hkey := List.find?_some hl
    simp only [Bool.and_eq_true, beq_iff_eq] at hkey
    refine ⟨?_, fun l' hl' => ?_⟩
    · rw [hcore, core_modCore_same]
      exact find?_erase_other _ _ (by rw [hkey.2, beq_false_of_ne (Ne.symm hv), Bool.and_false])
    · rw [hcore, core_modCore_same] at hl'
      exact hl'
  · obtain ⟨m, g, hm⟩ := addMeters_core u i.c a ⟨0, 1, 0, layersOf i.c * ceilDiv (mSize w) 4, 0⟩
    obtain ⟨gs, hcore⟩ := sendAwait_core i (meterLine u i.c a (mSize w)) th a (reqDst i th (mData w)) (sizeWords (mSize w))
      (.atom op (mSize w) (isUni (mData w)) (reqDst i th (mData w)) args.1 args.2)
    exact .of_core v (by rw [hcore]; exact (congrArg Core.atomReplay hm).trans rfl) (by rw [hcore]; exact (congrArg Core.l1 hm).trans rfl)

theorem dropL1_core (s : State) (c line : Nat) : (dropL1 s c line).core c = l1Drop (s.core c) line := core_setCore_same s c (l1Drop (s.core c) line)

theorem dropL1_kept (u : State) (line v : Nat) : AtomKept u (dropL1 u i.c line) i v :=
  ⟨by rw [dropL1_core]; rfl, fun l hl => by rw [dropL1_core] at hl; exact (List.mem_filter.1 hl).1⟩

theorem atomPlace_kept (op : Nat) (u : State) (th : Nat) (p : Place) (args : Nat × Nat) {v : Nat} (hv : v ≠ th) : AtomKept u (atomPlace op w i u th p args) i v := by
  cases p with
  | own off =>
    rw [atomPlace_own]
    unfold atomOwn
    obtain ⟨gs, h⟩ := modGrp_core (u.setBytes (lsAddr i.c + off) (natLe (mSize w) (atomOp op (mSize w) (leNat (readBytes u.mem (lsAddr i.c + off) (mSize w))) args.1 args.2)))
      i.c i.g (fun gr => writeDst i gr th (mData w) (sizeWords (mSize w)) (leNat (readBytes u.mem (lsAddr i.c + off) (mSize w))))
    exact .of_core v (by rw [h]; rfl) (by rw [h]; rfl)
  | glob a => rw [atomPlace_glob]; exact (dropL1_kept ..).trans (atomElsewhere_kept op _ th a args hv)

theorem atomElsewhere_turn (op : Nat) (u : State) (th a : Nat) (args : Nat × Nat) :
    Turns i u (atomElsewhere op w i u th a args) [th] (mData w) (sizeWords (mSize w)) := by
  unfold atomElsewhere
  split
  next l _ =>
    refine (Turns.of_groups [] _ _ ?_ fun g => ?_).trans (.of_writeDst ..)
    · exact ⟨rfl, fun _ hd => core_modCore_other _ _ hd, List.prefix_refl _, le_rfl⟩
    · exact grpOf_modCore_groups u i.c (f := fun k => { k with atomReplay := k.atomReplay.erase l }) (fun _ => rfl) i.c g
  · exact (Turns.of_groups [] _ _ (addMeters_onlyCore ..).traffic fun g => grpOf_addMeters ..).trans (sendAwait_turn ..).1

theorem atomPlace_turn (op : Nat) (u : State) (th : Nat) (p : Place) (args : Nat × Nat) :
    Turns i u (atomPlace op w i u th p args) [th] (mData w) (sizeWords (mSize w)) := by
  cases p with
  | own off =>
    rw [atomPlace_own]
    unfold atomOwn
    generalize natLe (mSize w) (atomOp op (mSize w) (leNat (readBytes u.mem (lsAddr i.c + off) (mSize w))) args.1 args.2) = bs
    have hput : Turns i u (u.setBytes (lsAddr i.c + off) bs) [] (mData w) (sizeWords (mSize w)) :=
      .of_groups [] _ _ ⟨rfl, fun _ _ => rfl, List.prefix_refl _, le_rfl⟩ fun _ => rfl
    exact hput.trans (.of_writeDst ..)
  | glob a =>
    rw [atomPlace_glob]
    exact (Turns.of_groups [] _ _ (dropL1_traffic ..) fun g => grpOf_dropL1 ..).trans (atomElsewhere_turn ..)

theorem atomElsewhere_mem (op : Nat) (u : State) (th a : Nat) (args : Nat × Nat) :
    (atomElsewhere op w i u th a args).mem = u.mem ∧ (atomElsewhere op w i u th a args).poison = u.poison := by
  unfold atomElsewhere
  split
  · exact ⟨rfl, rfl⟩
  · have h := sendAwait_turn i (meterLine u i.c a (mSize w)) th a (reqDst i th (mData w)) (sizeWords (mSize w))
      (.atom op (mSize w) (isUni (mData w)) (reqDst i th (mData w)) args.1 args.2) 0 0
    exact ⟨h.2.mem.trans (addMeters_onlyCore ..).memory.1, h.2.poison.trans (addMeters_onlyCore ..).memory.2⟩

theorem atomPlace_poison (op : Nat) (u : State) (th : Nat) (p : Place) (args : Nat × Nat) : (atomPlace op w i u th p args).poison = u.poison := by
  cases p with
  | own off => rfl
  | glob a => rw [atomPlace_glob, (atomElsewhere_mem ..).2]; rfl

theorem atomPlace_misses {op : Nat} {u : State} {th : Nat} {p : Place} {args : Nat × Nat} {b : Nat}
    (hlow : ∀ off, p = .own off → addrLow (lsAddr i.c + off) = lsAddr i.c + off) (h : MissesOwn i.c (mSize w) p b) :
    memGet (atomPlace op w i u th p args).mem b = memGet u.mem b := by
  cases p with
  | own off =>
    show memGet (u.setBytes _ _).mem b = _
    rw [setBytes_mem, hlow off rfl]
    exact memGet_writeBytes_other _ _ _ (by rw [natLe_length]; exact h off rfl)
  | glob a => rw [atomPlace_glob, (atomElsewhere_mem ..).1]; rfl

theorem atomPlace_own_holds (op : Nat) (u : State) (th off : Nat) (args : Nat × Nat) :
    GroupHolds (grpOf (atomPlace op w i u th (.own off) args) i.c i.g) i th (mData w) (sizeWords (mSize w))
      (leNat (readBytes u.mem (lsAddr i.c + off) (mSize w))) := by
  rw [atomPlace_own]
  unfold atomOwn
  rw [grpOf_modGrp, if_pos rfl]
  exact groupHolds_writeDst ..

theorem atomPlace_own_mem (op : Nat) (u : State) (th : Nat) {off : Nat} (args : Nat × Nat) (h : addrLow (lsAddr i.c + off) = lsAddr i.c + off) :
    MemHolds (atomPlace op w i u th (.own off) args) (lsAddr i.c + off)
      (natLe (mSize w) (atomOp op (mSize w) (leNat (readBytes u.mem (lsAddr i.c + off) (mSize w))) args.1 args.2)) := by
  intro j hj
  rw [atomPlace_own]
  show memGet (writeBytes u.mem (addrLow (lsAddr i.c + off)) _) _ = _
  rw [h, memGet_writeBytes _ _ _ hj, List.getD_eq_getElem _ _ hj]

theorem atomPlace_glob_drops (op : Nat) (u : State) (th a : Nat) (args : Nat × Nat) :
    ∀ l ∈ ((atomPlace op w i u th (.glob a) args).core i.c).l1, l.line ≠ a / 128 := by
  intro l hl
  rw [atomPlace_glob] at hl
  have hkept := (atomElsewhere_kept (w := w) (i := i) op (dropL1 u i.c (a / 128)) th a args (v := th + 1) (by omega)).l1 l hl
  rw [dropL1_core] at hkept
  simpa using (List.mem_filter.1 hkept).2

/-- The state after an atomic's issue, whose threads pass their checks. -/
theorem atomRow_turns {op : Nat} {at_ : Nat → Nat} {place : Nat → Place} (hi : Issues s x w (atomSrcs op w) [] i)
    (hl : legalM 0x11 op (if op = 1 then [2] else [2, 3]) false false w = true) (hb : srcOk (mBase w) 2 = true) (hd : atomDataOk op (mSize w) (mData w) = true)
    (hok : ∀ th ∈ i.active, globalAccess s (grpOf s i.c i.g) i th (mSize w) true true = .ok (at_ th, place th) ∧
      meetsPoison s i.c (at_ th) (place th) (mSize w) false = none) :
    atomRow op x w s = .next (advance (i.active.foldl (fun u th => atomPlace op w i u th (place th) (atomArgs (grpOf s i.c i.g) i th op w)) (slotted s i))
      i i.members (i.pc + 8)) := by
  have hreg := (slotted_ready s i).regs i.g
  unfold atomRow
  rw [hl, isRow_of_legalM hl, issue_legal hi]
  unfold atomBody
  dsimp only
  rw [runThreads_ok i _ (fun th => (place th, atomArgs (grpOf s i.c i.g) i th op w))]
  · simp only [goOn_nil, faultSet_nil, List.foldl_map, countPoisonedAt, List.foldl_nil]
    rfl
  · intro th hth
    obtain ⟨h1, h2⟩ := hok th hth
    have hg : grp ((slotted s i).core i.c) i.g = grpOf (slotted s i) i.c i.g := rfl
    have hargs : atomArgs (grpOf (slotted s i) i.c i.g) i th op w = atomArgs (grpOf s i.c i.g) i th op w := by
      unfold atomArgs
      simp only [readWide_of_sameRegs hreg]
      rfl
    rw [hg, hb, hd, if_neg (by decide), globalAccess_slotted hreg, h1]
    dsimp only
    rw [meetsPoison_slotted, h2, hargs]

theorem readBytes_congr {m m' : List Host.Cell} {a n : Nat} (h : ∀ b, a ≤ b → b < a + n → memGet m b = memGet m' b) : readBytes m a n = readBytes m' a n := by
  unfold readBytes
  refine List.map_congr_left fun k hk => ?_
  rw [h _ (Nat.le_add_right _ _) (by have := List.mem_range.1 hk; omega)]

/-- One thread's turn of an atomic. -/
def atomTurn (op : Nat) (w : Word64) (i : Ctx) (gr : Group) (place : Nat → Place) (u : State) (th : Nat) : State :=
  atomPlace op w i u th (place th) (atomArgs gr i th op w)

theorem atomTurn_kept_foldl (op : Nat) (gr : Group) (place : Nat → Place) {v : Nat} {ths : List Nat} (hv : v ∉ ths) (a : State) :
    AtomKept a (ths.foldl (atomTurn op w i gr place) a) i v := by
  induction ths generalizing a with
  | nil => exact .of_core v rfl rfl
  | cons th ths ih =>
    have hfirst : AtomKept a (atomTurn op w i gr place a th) i v := atomPlace_kept op a th (place th) _ (by rintro rfl; exact hv List.mem_cons_self)
    exact hfirst.trans (ih (fun h => hv (List.mem_cons_of_mem _ h)) _)

theorem l1_atomTurn_foldl (op : Nat) (gr : Group) (place : Nat → Place) (ths : List Nat) (a : State) :
    ∀ l ∈ ((ths.foldl (atomTurn op w i gr place) a).core i.c).l1, l ∈ (a.core i.c).l1 := by
  induction ths generalizing a with
  | nil => exact fun _ h => h
  | cons th ths ih =>
    exact fun l hl => (atomPlace_kept op a th (place th) (atomArgs gr i th op w) (v := th + 1) (by omega)).l1 l (ih _ l hl)

/-- Turns that leave the bytes of an own-store access alone. -/
theorem atomTurn_readBytes {op : Nat} {gr : Group} {place : Nat → Place} {ths : List Nat} {off : Nat}
    (hlow : ∀ th ∈ ths, ∀ o, place th = .own o → addrLow (lsAddr i.c + o) = lsAddr i.c + o)
    (h : ∀ u ∈ ths, ∀ o, place u = .own o → o + mSize w ≤ off ∨ off + mSize w ≤ o) (a : State) {b : Nat} (hlo : lsAddr i.c + off ≤ b)
    (hhi : b < lsAddr i.c + off + mSize w) : memGet (ths.foldl (atomTurn op w i gr place) a).mem b = memGet a.mem b :=
  memGet_foldl_turns _ ths (fun _ th hth => atomPlace_misses (hlow th hth) fun o ho => by have := h th hth o ho; omega) a

/-- The value that an atomic's turn leaves for an address elsewhere: logged, or asked for. -/
theorem atomElsewhere_asks {op : Nat} {u b t : State} {th a : Nat} {args : Nat × Nat} {post ts : List Nat} {np : Nat} (htraffic : Traffic s u i.c)
    (hreplay : (u.core i.c).atomReplay.find? (fun l => l.group == i.g && l.thread == th) = (s.core i.c).atomReplay.find? (fun l => l.group == i.g && l.thread == th))
    (hrest : Turns i (atomElsewhere op w i u th a args) b post (mData w) (sizeWords (mSize w))) (hpost : th ∉ post)
    (hreqs : b.llc.reqs <+: t.llc.reqs) (hmoved : Moved s t i (grpOf b i.c i.g) ts np) :
    match (s.core i.c).atomReplay.find? (fun l => l.group == i.g && l.thread == th) with
    | some l => ThreadHolds t i th (mData w) (sizeWords (mSize w)) l.value
    | none => addrModule a = s.modId → ∃ id,
        Requested s t i th a (.atom op (mSize w) (isUni (mData w)) (reqDst i th (mData w)) args.1 args.2) id ∧ Awaits t i th (mData w) (sizeWords (mSize w)) id := by
  unfold atomElsewhere at hrest
  rw [hreplay] at hrest
  split
  next l hl =>
    rw [hl] at hrest
    dsimp only at hrest
    refine (hrest.holds (v := l.value) hpost ?_).thread hmoved
    rw [grpOf_modGrp, if_pos rfl]
    exact groupHolds_writeDst ..
  next hl =>
    rw [hl] at hrest
    dsimp only at hrest
    intro ha
    have hmeter : Traffic s (meterLine u i.c a (mSize w)) i.c := htraffic.trans (addMeters_onlyCore ..).traffic
    obtain ⟨id, hreq, hwait⟩ := sendAwait_asks hmeter.next hmeter.modId ha hrest hpost hreqs hmoved (sizeWords_pos _)
    refine ⟨id, hreq, fun hc => ?_⟩
    have hdst : reqDst i th (mData w) = mData w := by unfold reqDst; rw [if_neg (by omega)]
    rw [hdst] at hwait
    exact hwait hc

/-- An atomic whose threads pass their checks. -/
theorem atomRow_operates {op : Nat} {at_ : Nat → Nat} {place : Nat → Place} (hi : Issues s x w (atomSrcs op w) [] i)
    (hl : legalM 0x11 op (if op = 1 then [2] else [2, 3]) false false w = true) (hb : srcOk (mBase w) 2 = true) (hd : atomDataOk op (mSize w) (mData w) = true)
    (hok : ∀ th ∈ i.active, globalAccess s (grpOf s i.c i.g) i th (mSize w) true true = .ok (at_ th, place th) ∧
      meetsPoison s i.c (at_ th) (place th) (mSize w) false = none) :
    ∃ t, atomRow op x w s = .next t ∧ SendsOnly s { t with mem := s.mem } i.c ∧ ReqsKept s t ∧
      RegFrame s t i (mData w) (sizeWords (mSize w)) 7 ∧ AllAt t i (i.pc + 8) ∧ MemFrame s t (ownRanges i.c (mSize w) i.active place) ∧
      ∀ th ∈ i.active,
        (∀ off, place th = .own off → ownFirst i.active place (mSize w) th off →
          ThreadHolds t i th (mData w) (sizeWords (mSize w)) (leNat (readBytes s.mem (lsAddr i.c + off) (mSize w))) ∧
            (ownLast i.active place (mSize w) th off → MemHolds t (lsAddr i.c + off) (natLe (mSize w)
              (atomOp op (mSize w) (leNat (readBytes s.mem (lsAddr i.c + off) (mSize w)))
                (atomArgs (grpOf s i.c i.g) i th op w).1 (atomArgs (grpOf s i.c i.g) i th op w).2)))) ∧
        (∀ a, place th = .glob a → (∀ l ∈ (t.core i.c).l1, l.line ≠ a / 128) ∧
          match (s.core i.c).atomReplay.find? (fun l => l.group == i.g && l.thread == th) with
          | some l => ThreadHolds t i th (mData w) (sizeWords (mSize w)) l.value
          | none => addrModule a = s.modId → ∃ id,
              Requested s t i th a (.atom op (mSize w) (isUni (mData w)) (reqDst i th (mData w)) (atomArgs (grpOf s i.c i.g) i th op w).1
                (atomArgs (grpOf s i.c i.g) i th op w).2) id ∧ Awaits t i th (mData w) (sizeWords (mSize w)) id) := by
  obtain ⟨hc, _, _, _, nd, _⟩ := issueCtx_members hi.1
  have hready := slotted_ready s i
  let step := atomTurn op w i (grpOf s i.c i.g) place
  have hlow : ∀ th ∈ i.active, ∀ off, place th = .own off → addrLow (lsAddr i.c + off) = lsAddr i.c + off := fun th hth off hp => by
    have hbelow : ∀ off ≤ lsBytes, addrLow (lsAddr i.c + off) = lsAddr i.c + off := hc ▸ fun off => addrLow_lsAddr x.core
    have := (hok th hth).1
    rw [hp] at this
    exact hbelow off (le_trans (Nat.le_add_right _ _) (globalAccess_own this))
  have hstep : ∀ a, a.poison = s.poison → ∀ th ∈ i.active, Turns i a (step a th) [th] (mData w) (sizeWords (mSize w)) ∧ (step a th).poison = s.poison :=
    fun a ha th _ => ⟨atomPlace_turn .., (atomPlace_poison ..).trans ha⟩
  have hpoison : (slotted s i).poison = s.poison := hready.core.memory.2
  obtain ⟨hturns, hpoison'⟩ := turns_foldl step (·.poison = s.poison) i.active hstep (slotted s i) hpoison
  obtain ⟨hmoved, htraffic⟩ := hturns.advance hready
  have hmem : (slotted s i).mem = s.mem := hready.core.memory.1
  have hmiss : ∀ b, ∀ a, ∀ th ∈ i.active, MissesOwn i.c (mSize w) (place th) b → memGet (step a th).mem b = memGet a.mem b := fun b a th hth hm =>
    atomPlace_misses (hlow th hth) hm
  refine ⟨_, atomRow_turns hi hl hb hd hok, htraffic.sendsOnly_mem hpoison', htraffic.kept, hturns.regFrame hready (fun _ h => h) hmoved, hmoved.allAt rfl,
    fun b hb => ?_, fun th hth => ?_⟩
  · have hmisses := missesOwn_of_ranges hb
    exact (memGet_foldl_turns step i.active (fun a th hth => hmiss b a th hth (hmisses th hth)) _).trans (congrArg (memGet · b) hmem)
  · obtain ⟨pre, post, hsplit, hprep, hpost, hnpre, hpre, hrest⟩ := turn_of_mem step (·.poison = s.poison) nd hstep hpoison hth
    have hin : ∀ u, u ∈ pre ∨ u ∈ post → u ∈ i.active := fun u hu => by rw [hsplit]; simp only [List.mem_append, List.mem_cons]; tauto
    have hsort := issueCtx_sorted hi.1
    rw [hsplit] at hsort
    obtain ⟨-, hsort, hcross⟩ := List.pairwise_append.1 hsort
    have hlater : ∀ u ∈ post, th < u := (List.pairwise_cons.1 hsort).1
    refine ⟨fun off hp hfirst => ?_, fun a hp => ⟨fun l hl => ?_, ?_⟩⟩
    · have hold : readBytes (pre.foldl step (slotted s i)).mem (lsAddr i.c + off) (mSize w) = readBytes s.mem (lsAddr i.c + off) (mSize w) :=
        readBytes_congr fun b hlo hhi => (atomTurn_readBytes (fun u hu => hlow u (hin u (.inl hu)))
          (fun u hu => hfirst u (hin u (.inl hu)) (hcross u hu th List.mem_cons_self)) (slotted s i) hlo hhi).trans (congrArg (memGet · b) hmem)
      have hturn : step (pre.foldl step (slotted s i)) th = atomPlace op w i (pre.foldl step (slotted s i)) th (.own off) (atomArgs (grpOf s i.c i.g) i th op w) :=
        congrArg (fun p => atomPlace op w i _ th p _) hp
      rw [hturn] at hrest
      have hholds := atomPlace_own_holds (w := w) (i := i) op (pre.foldl step (slotted s i)) th off (atomArgs (grpOf s i.c i.g) i th op w)
      have hbytes := atomPlace_own_mem (w := w) (i := i) op (pre.foldl step (slotted s i)) th (atomArgs (grpOf s i.c i.g) i th op w) (hlow th hth off hp)
      rw [hold] at hholds hbytes
      refine ⟨(hrest.holds hpost hholds).thread hmoved, fun hlast j hj => ?_⟩
      have hj' : j < mSize w := natLe_length (mSize w) _ ▸ hj
      refine Eq.trans ?_ (hbytes j hj)
      show memGet (i.active.foldl step (slotted s i)).mem _ = _
      rw [hsplit, List.foldl_append, List.foldl_cons, hturn]
      exact atomTurn_readBytes (off := off) (fun u hu => hlow u (hin u (.inr hu))) (fun u hu o ho => hlast u (hin u (.inr hu)) (hlater u hu) o ho) _ (by omega) (by omega)
    · have hl' : l ∈ ((i.active.foldl step (slotted s i)).core i.c).l1 := by rw [← modGrp_l1 _ i.c i.g]; exact hl
      rw [hsplit, List.foldl_append, List.foldl_cons] at hl'
      have hdrop := l1_atomTurn_foldl op (grpOf s i.c i.g) place post _ l hl'
      refine atomPlace_glob_drops (w := w) (i := i) op (pre.foldl step (slotted s i)) th a (atomArgs (grpOf s i.c i.g) i th op w) l ?_
      rw [← hp]
      exact hdrop
    · have hturn : step (pre.foldl step (slotted s i)) th = atomElsewhere op w i (dropL1 (pre.foldl step (slotted s i)) i.c (a / 128)) th a
          (atomArgs (grpOf s i.c i.g) i th op w) := (congrArg (fun p => atomPlace op w i _ th p _) hp).trans (atomPlace_glob ..)
      rw [hturn] at hrest
      have hkept := (atomTurn_kept_foldl (w := w) (i := i) op (grpOf s i.c i.g) place hnpre (slotted s i)).trans (dropL1_kept _ (a / 128) th)
      have hslot : ((slotted s i).core i.c).atomReplay = (s.core i.c).atomReplay := by have := hready.groups; unfold OnlyGroups at this; rw [this]
      refine atomElsewhere_asks (t := advance (i.active.foldl step (slotted s i)) i i.members (i.pc + 8)) (hready.core.traffic.trans (hpre.traffic.trans (dropL1_traffic ..))) ?_ hrest hpost (List.prefix_refl _) hmoved
      rw [hkept.replay, hslot]

end

/-- Settles O11: the eleven rows are one body; the threads take their turns in ascending order. -/
theorem atomicsOfEveryOperation : Obligations.AtomicsOfEveryOperation := by
  unfold Obligations.AtomicsOfEveryOperation
  dsimp only
  intro s x w i at_ place p hp hi hl hb hd hok
  have hexec : exec p.2 s = atomRow p.1 x w s := by
    simp only [List.mem_cons, List.not_mem_nil, or_false] at hp
    rcases hp with rfl | rfl | rfl | rfl | rfl | rfl | rfl | rfl | rfl | rfl | rfl <;> rfl
  rw [hexec]
  exact atomRow_operates hi hl hb hd hok

end Sys2Proof.Machine
end

section
/-! SUPPORT. Single-issue instructions (R115 to R119, R163 to R165). -/
namespace Sys2Proof.Machine

/-! ## The ticket register -/

section
variable {w : Word64} {v : Nat} {gr : Group}

theorem dTkt_lt (w : Word64) : dTkt w < 64 := bits_lt w 46 41

theorem writeTicket_eq (w : Word64) (v : Nat) (gr : Group) : ∃ p, writeTicket w v gr = { gr with urf := tset 0 gr.urf (dTkt w) (BitVec.ofNat 32 v), upend := p } := by
  have := dTkt_lt w
  unfold writeTicket writeReg
  dsimp only
  rw [if_neg (by omega), if_pos (by omega)]
  refine ⟨unpend (codeRange (0x80 + dTkt w) 1) gr.upend, ?_⟩
  simp

theorem writeTicket_thr (u : Nat) : thr (writeTicket w v gr) u = thr gr u := by obtain ⟨p, h⟩ := writeTicket_eq w v gr; rw [h]; rfl

end

section
variable {s : State} {x : Site} {w : Word64} {i : Ctx}

theorem advance_onlyCore (u : State) (i : Ctx) (ts : List Nat) (pc : Nat) : OnlyCore u (advance u i ts pc) i.c := modGrp_onlyCore ..
theorem advance_onlyGroups (u : State) (i : Ctx) (ts : List Nat) (pc : Nat) : OnlyGroups u (advance u i ts pc) i.c := modGrp_onlyGroups ..

/-- What a fault changes beside tasks is nothing. -/
theorem faultSet_keeps {s u : State} {i j : Ctx} {source code n p : Nat} {fs : List (Nat × Cause)} (hf : ∀ q ∈ fs, q.2.cause ≠ cPOISONED)
    (hframe : RegFrame s u i code n p) (hgroups : OnlyGroups s u i.c) :
    RegFrame s (faultSet u j source fs) i code n p ∧ (faultSet u j source fs).mem = u.mem ∧ OnlyGroups s (faultSet u j source fs) i.c := by
  obtain ⟨ts, h⟩ := faultSet_tasks u j source fs hf
  rw [h]
  exact ⟨hframe, rfl, hgroups⟩

/-- A core that has done its part of a single-issue instruction: registers as before, and no other core touched. -/
structure Served1 (s u : State) (i : Ctx) : Prop where
  regs : ∀ g, SameRegs (grpOf s i.c g) (grpOf u i.c g)
  core : OnlyCore s u i.c

/-- The ticket is written and the members go on. -/
def ticketed (u : State) (i : Ctx) (w : Word64) (v : Nat) : State := advance (u.modGrp i.c i.g (writeTicket w v)) i i.members (i.pc + 8)

theorem ticketed_holds {u : State} (hu : Served1 s u i) (v : Nat) :
    OnlyCore s (ticketed u i w v) i.c ∧ RegFrame s (ticketed u i w v) i (0x80 + dTkt w) 1 7 ∧ AllAt (ticketed u i w v) i (i.pc + 8) ∧
      urfOf (ticketed u i w v) i.c i.g (dTkt w) = BitVec.ofNat 32 v := by
  have hreg := hu.regs i.g
  obtain ⟨p, hp⟩ := writeTicket_eq w v (grpOf u i.c i.g)
  have hm : Moved s (ticketed u i w v) i (writeTicket w v (grpOf u i.c i.g)) i.members (i.pc + 8) :=
    advance_moved _ _ (fun g h => by rw [grpOf_modGrp, if_neg h]; exact hu.regs g) (by rw [grpOf_modGrp, if_pos rfl]; exact .rfl)
  have hcore : OnlyCore s (ticketed u i w v) i.c := (hu.core.trans (modGrp_onlyCore u i.c i.g (writeTicket w v))).trans (advance_onlyCore ..)
  refine ⟨hcore, hm.regFrame (fun th r _ _ => ?_) (fun r hr _ => ?_) (fun th q _ _ => ?_),
    hm.allAt rfl, ?_⟩
  · rw [writeTicket_thr]; exact congrArg (tget 0 · r) (hreg.gpr th)
  · rw [hp]
    exact (tget_tset_other 0 (grpOf u i.c i.g).urf _ (by omega)).trans (congrArg (tget 0 · r) hreg.urf)
  · unfold predVal; rw [writeTicket_thr]; exact predVal_of_sameRegs hreg th q
  · unfold urfOf
    rw [hm.urf, hp]
    exact tget_tset_same ..

theorem ticketed_core (u : State) (v : Nat) : ∃ gs, (ticketed u i w v).core i.c = { u.core i.c with groups := gs } := by
  obtain ⟨gs, h⟩ := modGrp_core (u.modGrp i.c i.g (writeTicket w v)) i.c i.g (fun gr => normGroup (modThrs gr i.members (fun _ t => { t with pc := i.pc + 8 })))
  obtain ⟨gs', h'⟩ := modGrp_core u i.c i.g (writeTicket w v)
  exact ⟨gs, by unfold ticketed advance; rw [h, h']⟩

theorem Ready.served {u : State} (h : Ready s u i) : Served1 s u i := ⟨h.regs, h.core⟩

/-- Work put in a queue of the core leaves its groups alone. -/
theorem Served1.modCore {u : State} (h : Served1 s u i) {f : Core → Core} (hf : ∀ k, (f k).groups = k.groups) : Served1 s (u.modCore i.c f) i :=
  ⟨fun g => by rw [grpOf_modCore_groups _ _ hf]; exact h.regs g, h.core.trans ⟨rfl, fun _ hd => core_modCore_other _ _ hd⟩⟩

theorem Served1.addMeters {u : State} (h : Served1 s u i) (a : Nat) (y : Cost) : Served1 s (addMeters u i.c a y) i :=
  ⟨fun g => by rw [grpOf_addMeters]; exact h.regs g, h.core.trans (addMeters_onlyCore ..)⟩

/-! ## The row -/

theorem readDesc_slotted {gr : Group} (hgr : SameRegs (grpOf s i.c i.g) gr) (th kind size : Nat) :
    readDesc (slotted s i) gr i th kind size = readDesc s (grpOf s i.c i.g) i th kind size := by
  have hcore := (slotted_onlyCore s i).memory
  unfold readDesc descRegs
  rw [hcore.1, hcore.2, hgr.urf, readReg_of_sameRegs hgr]
  rfl

theorem originOf_slotted (th kind : Nat) : originOf (slotted s i) i th kind = originOf s i th kind := by
  have hg := slotted_onlyGroups s i
  have hl : (grp ((slotted s i).core i.c) i.g).launch = (grp (s.core i.c) i.g).launch := ((slotted_ready s i).regs i.g).launch
  unfold originOf ticketCtr
  rw [hl]
  unfold OnlyGroups at hg
  rw [hg]

variable {cls kind size : Nat} {full : Core → Bool} {check : State → Ctx → Nat → List Nat → Option Cause}
  {put : State → Ctx → Origin → List Nat → Bool → State}

theorem singleIssue_runs (hi : Issues s x w (descSrcs w size) [] i) (hl : legalD cls 0 true false w = true) (hfull : full (s.core i.c) = false) :
    singleIssue cls kind size full check put x w s = .next (singleBody kind size check put w (slotted s i) i) := by
  obtain ⟨hc, -⟩ := issueCtx_members hi.1
  have hrow : isRow cls 0 w = true := by unfold legalD at hl; simp only [Bool.and_eq_true] at hl; exact hl.1.1.1.1
  unfold singleIssue
  dsimp only
  rw [hl, ← hc, hfull, hrow, issue_legal hi]
  rfl

theorem singleBody_none (hact : i.active = []) : singleBody kind size check put w (slotted s i) i = ticketed (slotted s i) i w 0 := by
  unfold singleBody ticketed
  dsimp only
  rw [hact]

variable {th : Nat} {d : List Nat} {ls : Bool}

theorem singleBody_fails {f : Cause} (hhead : i.active.head? = some th) (hread : readDesc s (grpOf s i.c i.g) i th (descKind kind) size = .ok (d, ls))
    (hcheck : check (slotted s i) i th d = some f) (hf : f.cause ≠ cPOISONED) :
    singleBody kind size check put w (slotted s i) i =
      faultSet (advance (slotted s i) i (i.members.filter (· != th)) (i.pc + 8)) i 1 [(th, f)] := by
  obtain ⟨ts, hact⟩ := List.head?_eq_some_iff.1 hhead
  have hread' := (readDesc_slotted ((slotted_ready s i).regs i.g) th (descKind kind) size).trans hread
  have hg : grp ((slotted s i).core i.c) i.g = grpOf (slotted s i) i.c i.g := rfl
  unfold singleBody
  dsimp only
  rw [hact]
  dsimp only
  rw [hg, hread']
  dsimp only
  rw [hcheck]
  simp only [countPoisoned, List.foldl_cons, List.foldl_nil, if_neg hf]

theorem singleBody_queues (hhead : i.active.head? = some th) (hread : readDesc s (grpOf s i.c i.g) i th (descKind kind) size = .ok (d, ls))
    (hcheck : check (slotted s i) i th d = none) : singleBody kind size check put w (slotted s i) i =
      ticketed (put ((slotted s i).modCore i.c (fun k => bumpTicket k kind)) i (originOf s i th kind) d ls) i w (ticketOf kind (originOf s i th kind).seq) := by
  obtain ⟨ts, hact⟩ := List.head?_eq_some_iff.1 hhead
  have hread' := (readDesc_slotted ((slotted_ready s i).regs i.g) th (descKind kind) size).trans hread
  have hg : grp ((slotted s i).core i.c) i.g = grpOf (slotted s i) i.c i.g := rfl
  unfold singleBody
  dsimp only
  rw [hact]
  dsimp only
  rw [hg, hread']
  dsimp only
  rw [hcheck, originOf_slotted]
  rfl

/-- The fault of a descriptor's thread. -/
theorem singleBody_faulted {f : Cause} {regs preds : List Nat} (hi : Issues s x w regs preds i) (hhead : i.active.head? = some th) (hf : f.cause ≠ cPOISONED) :
    let t := faultSet (advance (slotted s i) i (i.members.filter (· != th)) (i.pc + 8)) i 1 [(th, f)]
    FaultedFrom s t i th 1 f ∧ RegFrame s t i 0xC0 0 7 ∧ t.mem = s.mem ∧ OnlyGroups s t i.c := by
  obtain ⟨_, _, _, _, _, hsub⟩ := issueCtx_members hi.1
  obtain ⟨hrun, hstop⟩ := issueCtx_running hi.1
  have hready := slotted_ready s i
  have hmem : th ∈ i.members := hsub th (List.mem_of_head? hhead)
  have hcase : SameCase s (advance (slotted s i) i (i.members.filter (· != th)) (i.pc + 8)) i :=
    (slotted_sameCase hrun).trans (advance_sameCase (by rw [onlyGroups_phase hready.groups]; exact hrun) _ _)
  have hm : Moved s (advance (slotted s i) i (i.members.filter (· != th)) (i.pc + 8)) i (grpOf (slotted s i) i.c i.g) (i.members.filter (· != th)) (i.pc + 8) :=
    advance_moved _ _ (fun g _ => hready.regs g) .rfl
  have hreg := hready.regs i.g
  obtain ⟨h1, h2, h3⟩ := faultSet_keeps (j := i) (source := 1) (fs := [(th, f)]) (fun p hp => by rw [List.mem_singleton.1 hp]; exact hf)
    (hm.regFrame (code := 0xC0) (n := 0) (p := 7) (fun u r _ _ => congrArg (tget 0 · r) (hreg.gpr u)) (fun r _ _ => congrArg (tget 0 · r) hreg.urf)
      fun u q _ _ => predVal_of_sameRegs hreg u q) (hready.groups.trans (advance_onlyGroups ..))
  exact ⟨faultSet_faultedFrom hcase hstop hf (List.length_pos_of_mem hmem), h1,
    h2.trans ((advance_onlyCore ..).memory.1.trans hready.core.memory.1), h3⟩

/-! ## The checks of the three engines -/

theorem cause_ne {k a n : Nat} (h : k ≠ cPOISONED) : (⟨k, a, n⟩ : Cause).cause ≠ cPOISONED := h

theorem globalCheck_cause {u : State} {c a n : Nat} {rd wr : Bool} {f : Cause} (h : globalCheck u c a n rd wr = .error f) : f.cause ≠ cPOISONED := by
  unfold globalCheck at h
  dsimp only at h
  split at h
  · cases h; exact cause_ne (by decide)
  · split at h
    · split at h
      · cases h
      · cases h; exact cause_ne (by decide)
    · split at h
      · cases h; exact cause_ne (by decide)
      · split at h
        · cases h
        · cases h; exact cause_ne (by decide)

theorem mmaCheck_slotted (th : Nat) (b : List Nat) : mmaCheck (slotted s i) i th b = mmaCheck s i th b := by
  have hrec : ((slotted s i).core i.c).setRecs = (s.core i.c).setRecs := by have := slotted_onlyGroups s i; unfold OnlyGroups at this; rw [this]
  unfold mmaCheck taskFlag
  rw [slotted_coreTask, hrec]

theorem mmaCheck_cause {u : State} {th : Nat} {b : List Nat} {f : Cause} (h : mmaCheck u i th b = some f) : f.cause ≠ cPOISONED := by
  unfold mmaCheck at h
  dsimp only at h
  split at h
  · cases h; exact cause_ne (by decide)
  · split at h
    · cases h; exact cause_ne (by decide)
    · split at h
      · cases h; exact cause_ne (by decide)
      · obtain ⟨a, -, rfl⟩ := Option.map_eq_some_iff.1 h; exact cause_ne (by decide)

theorem slotted_programs : (slotted s i).programs = s.programs := by rw [(slotted_onlyCore s i).1]

theorem xferPlace_slotted (d : XferD) : xferPlace (slotted s i) i.c d = xferPlace s i.c d := by
  unfold xferPlace
  simp only [globalCheck_slotted]

theorem xferCheck_slotted (th : Nat) (b : List Nat) : xferCheck (slotted s i) i th b = xferCheck s i th b := by
  have htiles : imageTiles (slotted s i) i.c = imageTiles s i.c := by
    unfold imageTiles State.program; rw [slotted_coreTask, slotted_programs]
  unfold xferCheck
  rw [htiles]
  simp only [xferPlace_slotted]

theorem xferPlace_cause {u : State} {c : Nat} {d : XferD} {f : Cause} (h : xferPlace u c d = .error f) : f.cause ≠ cPOISONED := by
  unfold xferPlace at h
  split at h
  · cases h
  · dsimp only at h
    split at h
    · cases h; exact cause_ne (by decide)
    · split at h
      · cases h
      next y hy =>
        cases h
        split
        · exact cause_ne (by decide)
        · exact globalCheck_cause hy

theorem xferCheck_cause {u : State} {th : Nat} {b : List Nat} {f : Cause} (h : xferCheck u i th b = some f) : f.cause ≠ cPOISONED := by
  unfold xferCheck at h
  dsimp only at h
  split at h
  · cases h; exact cause_ne (by decide)
  · split at h
    · cases h; exact cause_ne (by decide)
    · split at h
      · cases h; exact cause_ne (by decide)
      · split at h
        · cases h; exact cause_ne (by decide)
        · split at h
          next y hy => cases h; exact xferPlace_cause hy
          · cases h

theorem attnCheck_slotted (th : Nat) (b : List Nat) : attnCheck (slotted s i) i th b = attnCheck s i th b := by
  have hflag : ∀ n, imageFlag (slotted s i) i.c n = imageFlag s i.c n := fun n => by
    unfold imageFlag State.program; rw [slotted_coreTask, slotted_programs]
  unfold attnCheck attendFields appendFields
  simp only [globalCheck_slotted, hflag]

theorem attnCheck_cause {u : State} {th : Nat} {b : List Nat} {f : Cause} (h : attnCheck u i th b = some f) : f.cause ≠ cPOISONED := by
  have hwin : ∀ r : Except Cause Place, (∀ y, r = .error y → y.cause ≠ cPOISONED) →
      (match r with | .error x => some x | .ok _ => none) = some f → f.cause ≠ cPOISONED := fun r hr hf => by
    cases r with
    | ok p => cases hf
    | error y => cases hf; exact hr _ rfl
  unfold attnCheck at h
  dsimp only at h
  split at h
  · split at h
    · cases h; exact cause_ne (by decide)
    · split at h
      · cases h; exact cause_ne (by decide)
      · split at h
        · cases h; exact cause_ne (by decide)
        · exact hwin _ (fun y hy => globalCheck_cause hy) h
  · split at h
    · split at h
      · cases h; exact cause_ne (by decide)
      · split at h
        · cases h; exact cause_ne (by decide)
        · split at h
          · cases h; exact cause_ne (by decide)
          · exact hwin _ (fun y hy => globalCheck_cause hy) h
    · cases h; exact cause_ne (by decide)

theorem meterCompute_attn (l : Option (Cost × Cost)) (n : Nat) (k : Core) : (meterCompute l n k).meters.attn = k.meters.attn := by
  unfold meterCompute; split <;> rfl

theorem countSlot_meters (k : Core) (g : Nat) (m : Word) : (countSlot (mergeCore k) g m).meters = k.meters := by
  have h := congrArg Core.meters (noGroups_countSlot (mergeCore k) g m)
  have h2 : (noGroups (mergeCore k)).meters = (noGroups k).meters := congrArg Core.meters (noGroups_mergeCore k)
  exact h.trans h2

theorem slotted_attnMeter : ((slotted s i).core i.c).meters.attn = (s.core i.c).meters.attn := by
  obtain ⟨l, h⟩ := icFetch_core s i
  unfold slotted counted
  dsimp only
  rw [countFixed_core, countFixed_core]
  unfold tickCompute
  rw [core_modCore_same, meterCompute_attn, countFixed_core, core_setCore_same, countSlot_meters, h]

/-- What stays of the three queues. -/
def SameQueues (s t : State) (c : Nat) : Prop :=
  (t.core c).mmaQ = (s.core c).mmaQ ∧ (t.core c).xferQ = (s.core c).xferQ ∧ (t.core c).attnQ = (s.core c).attnQ

theorem OnlyGroups.sameQueues {t : State} {c : Nat} (h : OnlyGroups s t c) : SameQueues s t c := by
  unfold OnlyGroups at h
  unfold SameQueues
  rw [h]
  exact ⟨rfl, rfl, rfl⟩

/-- Without an active thread the ticket is the null ticket. -/
theorem singleIssue_none (hi : Issues s x w (descSrcs w size) [] i) (hl : legalD cls 0 true false w = true) (hfull : full (s.core i.c) = false)
    (hact : i.active = []) : ∃ t, singleIssue cls kind size full check put x w s = .next t ∧
      (OnlyCore s t i.c ∧ RegFrame s t i (0x80 + dTkt w) 1 7) ∧ AllAt t i (i.pc + 8) ∧ urfOf t i.c i.g (dTkt w) = BitVec.ofNat 32 0 ∧ SameQueues s t i.c := by
  obtain ⟨h1, h2, h3, h4⟩ := ticketed_holds (w := w) (slotted_ready s i).served 0
  obtain ⟨gs, hcore⟩ := ticketed_core (w := w) (i := i) (slotted s i) 0
  obtain ⟨q1, q2, q3⟩ := (slotted_onlyGroups s i).sameQueues
  refine ⟨_, by rw [singleIssue_runs hi hl hfull, singleBody_none hact], ⟨h1, h2⟩, h3, h4, ?_⟩
  unfold SameQueues
  rw [hcore]
  exact ⟨q1, q2, q3⟩

/-- A descriptor that fails its check. -/
theorem singleIssue_fails {f : Cause} (hi : Issues s x w (descSrcs w size) [] i) (hl : legalD cls 0 true false w = true) (hfull : full (s.core i.c) = false)
    (hhead : i.active.head? = some th) (hread : readDesc s (grpOf s i.c i.g) i th (descKind kind) size = .ok (d, ls))
    (hslot : check (slotted s i) i th d = check s i th d) (hcheck : check s i th d = some f) (hf : f.cause ≠ cPOISONED) :
    ∃ t, singleIssue cls kind size full check put x w s = .next t ∧ FaultedFrom s t i th 1 f ∧ RegFrame s t i 0xC0 0 7 ∧ t.mem = s.mem ∧ SameQueues s t i.c := by
  obtain ⟨h1, h2, h3, h4⟩ := singleBody_faulted hi hhead hf
  exact ⟨_, by rw [singleIssue_runs hi hl hfull, singleBody_fails hhead hread (hslot.trans hcheck) hf], h1, h2, h3, h4.sameQueues⟩

/-- A descriptor that passes its check: its engine's queue takes it. -/
theorem singleIssue_queues (hi : Issues s x w (descSrcs w size) [] i) (hl : legalD cls 0 true false w = true) (hfull : full (s.core i.c) = false)
    (hhead : i.active.head? = some th) (hread : readDesc s (grpOf s i.c i.g) i th (descKind kind) size = .ok (d, ls))
    (hslot : check (slotted s i) i th d = check s i th d) (hcheck : check s i th d = none)
    (hput : Served1 s (put ((slotted s i).modCore i.c (fun k => bumpTicket k kind)) i (originOf s i th kind) d ls) i) :
    ∃ t gs, singleIssue cls kind size full check put x w s = .next t ∧ (OnlyCore s t i.c ∧ RegFrame s t i (0x80 + dTkt w) 1 7) ∧ AllAt t i (i.pc + 8) ∧
      urfOf t i.c i.g (dTkt w) = BitVec.ofNat 32 (ticketOf kind (ticketCtr (s.core i.c) kind)) ∧
      t.core i.c = { (put ((slotted s i).modCore i.c (fun k => bumpTicket k kind)) i (originOf s i th kind) d ls).core i.c with groups := gs } := by
  obtain ⟨h1, h2, h3, h4⟩ := ticketed_holds (w := w) hput (ticketOf kind (originOf s i th kind).seq)
  obtain ⟨gs, hcore⟩ := ticketed_core (w := w) (i := i) (put ((slotted s i).modCore i.c (fun k => bumpTicket k kind)) i (originOf s i th kind) d ls)
    (ticketOf kind (originOf s i th kind).seq)
  exact ⟨_, gs, by rw [singleIssue_runs hi hl hfull, singleBody_queues hhead hread (hslot.trans hcheck)], ⟨h1, h2⟩, h3, h4, hcore⟩

theorem bumped_served (kind : Nat) : Served1 s ((slotted s i).modCore i.c (fun k => bumpTicket k kind)) i :=
  (slotted_ready s i).served.modCore (f := fun k => bumpTicket k kind) fun k => by unfold bumpTicket; split <;> (try split) <;> rfl

end

section
variable {s : State} {x : Site} {w : Word64} {i : Ctx} {th : Nat} {d : List Nat} {ls : Bool}

theorem notFull {n m : Nat} (h : n < m) : decide (m ≤ n) = false := decide_eq_false (by omega)

theorem mmaPut_served {u : State} (h : Served1 s u i) (o : Origin) : Served1 s (mmaPut u i o d ls) i := by
  unfold mmaPut; exact h.modCore fun _ => rfl

theorem xferPut_served {u : State} (h : Served1 s u i) (o : Origin) : Served1 s (xferPut u i o d ls) i := by
  unfold xferPut; exact h.modCore fun _ => rfl

theorem attnPut_served {u : State} (h : Served1 s u i) (o : Origin) : Served1 s (attnPut u i o d ls) i := by
  have hput : Served1 s (u.modCore i.c (fun k => { k with
      attnQ := k.attnQ ++ [⟨o, d, false, [], [], [], [], [], false, 0, 0, [], [], [], [], [], []⟩] })) i := h.modCore fun _ => rfl
  exact hput.addMeters 0 ⟨0, 0, 0, 0, attnCount d⟩

theorem addMeters_core_eq (s : State) (c a : Nat) (y : Cost) :
    (addMeters s c a y).core c = { s.core c with meters := addCost (s.core c).meters y, seg := addCost (s.core c).seg y } := by
  obtain ⟨p, h⟩ := addMeters_eq s c a y
  rw [h, core_modCore_same]
  rfl

/-- The entry of the attention engine's queue. -/
def attnEntry (o : Origin) (d : List Nat) : AttnOp := ⟨o, d, false, [], [], [], [], [], false, 0, 0, [], [], [], [], [], []⟩

theorem attnPut_core (u : State) (o : Origin) : (attnPut u i o d ls).core i.c = { u.core i.c with
    attnQ := (u.core i.c).attnQ ++ [attnEntry o d], meters := addCost (u.core i.c).meters ⟨0, 0, 0, 0, attnCount d⟩,
    seg := addCost (u.core i.c).seg ⟨0, 0, 0, 0, attnCount d⟩ } := by
  unfold attnPut
  rw [addMeters_core_eq, core_modCore_same]
  rfl

theorem mma_queues (hi : Issues s x w (descSrcs w 64) [] i) (hl : legalD 0x17 0 true false w = true) (hroom : (s.core i.c).mmaQ.length < 8)
    (hhead : i.active.head? = some th) (hread : readDesc s (grpOf s i.c i.g) i th 1 64 = .ok (d, ls)) (hcheck : mmaCheck s i th d = none) :
    ∃ t, exec (.mma x w) s = .next t ∧ (OnlyCore s t i.c ∧ RegFrame s t i (0x80 + dTkt w) 1 7) ∧ AllAt t i (i.pc + 8) ∧
      urfOf t i.c i.g (dTkt w) = BitVec.ofNat 32 (ticketOf kindMma (s.core i.c).ctrMma) ∧ (t.core i.c).ctrMma = ((s.core i.c).ctrMma + 1) % 2 ^ 24 ∧
      (t.core i.c).mmaQ = (s.core i.c).mmaQ ++ [⟨originOf s i th kindMma, d, ls, .queued⟩] ∧
      (t.core i.c).setRecs = tset none (s.core i.c).setRecs (mmaD d).acc
        (if (mmaD d).drain then none else some ⟨(mmaD d).atype, (mmaD d).btype, (mmaD d).mx⟩) := by
  have hg := slotted_onlyGroups s i
  obtain ⟨t, gs, hexec, h1, h2, h3, hcore⟩ := singleIssue_queues (kind := kindMma) (check := mmaCheck) (put := mmaPut) hi hl (full := fun k => decide (8 ≤ k.mmaQ.length))
    (notFull hroom) hhead hread (mmaCheck_slotted th d) hcheck (mmaPut_served (bumped_served kindMma) _)
  unfold mmaPut at hcore
  rw [core_modCore_same, core_modCore_same, hg] at hcore
  exact ⟨t, hexec, h1, h2, h3, by rw [hcore]; rfl, by rw [hcore]; rfl, by rw [hcore]; rfl⟩

theorem openReds_of_llc {u : State} (h : u.llc = s.llc) (c : Nat) : openReds u c = openReds s c := by unfold openReds; rw [h]

theorem xfer_queues (hi : Issues s x w (descSrcs w 128) [] i) (hl : legalD 0x19 0 true false w = true) (hroom : (s.core i.c).xferQ.length < 16)
    (hhead : i.active.head? = some th) (hread : readDesc s (grpOf s i.c i.g) i th 3 128 = .ok (d, ls)) (hcheck : xferCheck s i th d = none) :
    ∃ t, exec (.xfer x w) s = .next t ∧ (OnlyCore s t i.c ∧ RegFrame s t i (0x80 + dTkt w) 1 7) ∧ AllAt t i (i.pc + 8) ∧
      urfOf t i.c i.g (dTkt w) = BitVec.ofNat 32 (ticketOf kindXfer (s.core i.c).ctrXfer) ∧ (t.core i.c).ctrXfer = ((s.core i.c).ctrXfer + 1) % 2 ^ 24 ∧
      (t.core i.c).xferQ = (s.core i.c).xferQ ++ [⟨originOf s i th kindXfer, d, false,
        ((s.core i.c).attnQ.filter (fun p => attnIsAppend p.desc)).map (fun p => p.org.seq), openReds s i.c, 0, 0, []⟩] := by
  have hg := slotted_onlyGroups s i
  obtain ⟨t, gs, hexec, h1, h2, h3, hcore⟩ := singleIssue_queues (kind := kindXfer) (check := xferCheck) (put := xferPut) hi hl (full := fun k => decide (16 ≤ k.xferQ.length))
    (notFull hroom) hhead hread (xferCheck_slotted th d) hcheck (xferPut_served (bumped_served kindXfer) _)
  have hred : openReds ((slotted s i).modCore i.c (fun k => bumpTicket k kindXfer)) i.c = openReds s i.c :=
    openReds_of_llc (by rw [(bumped_served (s := s) (i := i) kindXfer).core.1]) _
  unfold xferPut at hcore
  rw [core_modCore_same, core_modCore_same, hred, hg] at hcore
  exact ⟨t, hexec, h1, h2, h3, by rw [hcore]; rfl, by rw [hcore]; rfl⟩

theorem attn_queues (hi : Issues s x w (descSrcs w 128) [] i) (hl : legalD 0x18 0 true false w = true) (hroom : (s.core i.c).attnQ.length < 4)
    (hhead : i.active.head? = some th) (hread : readDesc s (grpOf s i.c i.g) i th 2 128 = .ok (d, ls)) (hcheck : attnCheck s i th d = none) :
    ∃ t, attnIssue x w s = .next t ∧ (OnlyCore s t i.c ∧ RegFrame s t i (0x80 + dTkt w) 1 7) ∧ AllAt t i (i.pc + 8) ∧
      urfOf t i.c i.g (dTkt w) = BitVec.ofNat 32 (ticketOf kindAttn (s.core i.c).ctrAttn) ∧ (t.core i.c).ctrAttn = ((s.core i.c).ctrAttn + 1) % 2 ^ 24 ∧
      (t.core i.c).attnQ = (s.core i.c).attnQ ++ [⟨originOf s i th kindAttn, d, false, [], [], [], [], [], false, 0, 0, [], [], [], [], [], []⟩] ∧
      (t.core i.c).meters.attn = (s.core i.c).meters.attn + attnCount d := by
  have hg := slotted_onlyGroups s i
  have hmeter := slotted_attnMeter (s := s) (i := i)
  obtain ⟨t, gs, hexec, h1, h2, h3, hcore⟩ := singleIssue_queues (kind := kindAttn) (check := attnCheck) (put := attnPut) hi hl (full := fun k => decide (4 ≤ k.attnQ.length))
    (notFull hroom) hhead hread (attnCheck_slotted th d) hcheck (attnPut_served (bumped_served kindAttn) _)
  rw [attnPut_core, core_modCore_same] at hcore
  refine ⟨t, hexec, h1, h2, h3, ?_, ?_, ?_⟩
  · rw [hcore, hg]; rfl
  · rw [hcore, hg]; rfl
  · rw [hcore]; exact congrArg (· + attnCount d) hmeter

end

/-- Settles O20: the four rows are one body, whose checks and queues are each engine's own. -/
theorem descriptorsAreQueuedForATicket : Obligations.DescriptorsAreQueuedForATicket := by
  unfold Obligations.DescriptorsAreQueuedForATicket
  dsimp only
  have hmma : ∀ x w s, exec (.mma x w) s = singleIssue 0x17 kindMma 64 (fun k => decide (8 ≤ k.mmaQ.length)) mmaCheck mmaPut x w s := fun _ _ _ => rfl
  have hxfer : ∀ x w s, exec (.xfer x w) s = singleIssue 0x19 kindXfer 128 (fun k => decide (16 ≤ k.xferQ.length)) xferCheck xferPut x w s := fun _ _ _ => rfl
  refine fun s x w i => ⟨fun hi hl hroom => ⟨?_, fun th d ls hhead hread => ⟨fun f hf => ?_, fun hf => ?_⟩⟩,
    fun hi hl hroom => ⟨?_, fun th d ls hhead hread => ⟨fun f hf => ?_, fun hf => ?_⟩⟩, fun hi hl hroom c hc => ?_⟩
  · rw [hmma]; exact singleIssue_none hi hl (notFull hroom)
  · rw [hmma]; exact singleIssue_fails (kind := kindMma) hi hl (notFull hroom) hhead hread (mmaCheck_slotted th d) hf (mmaCheck_cause hf)
  · exact mma_queues hi hl hroom hhead hread hf
  · rw [hxfer]; exact singleIssue_none hi hl (notFull hroom)
  · rw [hxfer]; exact singleIssue_fails (kind := kindXfer) hi hl (notFull hroom) hhead hread (xferCheck_slotted th d) hf (xferCheck_cause hf)
  · exact xfer_queues hi hl hroom hhead hread hf
  · have hexec : exec c s = attnIssue x w s := by
      rcases List.mem_pair.1 hc with rfl | rfl <;> rfl
    rw [hexec]
    refine ⟨?_, fun th d ls hhead hread => ⟨fun f hf => ?_, fun hf => ?_⟩⟩
    · exact singleIssue_none hi hl (notFull hroom)
    · exact singleIssue_fails (kind := kindAttn) hi hl (notFull hroom) hhead hread (attnCheck_slotted th d) hf (attnCheck_cause hf)
    · exact attn_queues hi hl hroom hhead hread hf

end Sys2Proof.Machine
end

section
/-! SUPPORT. REDUCE, PIN and UNPIN (R166, R167, R246 to R250). -/
namespace Sys2Proof.Machine

/-- Requests that waited before still wait, in their order, and so do the parts of REDUCE and PIN. -/
structure Flow (s t : State) : Prop where
  modId : t.modId = s.modId
  kept : ReqsKept s t
  next : s.llc.nextReq ≤ t.llc.nextReq
  reds : s.llc.redReqs <+: t.llc.redReqs
  pins : s.llc.pinReqs <+: t.llc.pinReqs

theorem Flow.rfl {s : State} : Flow s s := ⟨by rfl, List.prefix_refl _, le_rfl, List.prefix_refl _, List.prefix_refl _⟩

theorem Flow.trans {a b c : State} (h : Flow a b) (k : Flow b c) : Flow a c :=
  ⟨k.modId.trans h.modId, h.kept.trans k.kept, h.next.trans k.next, h.reds.trans k.reds, h.pins.trans k.pins⟩

theorem Flow.of_llc {s t : State} (hm : t.modId = s.modId) (hl : t.llc = s.llc) : Flow s t :=
  ⟨hm, by unfold ReqsKept; rw [hl], by rw [hl], by rw [hl], by rw [hl]⟩

theorem Traffic.flow {s t : State} {c : Nat} (h : Traffic s t c) : Flow s t :=
  ⟨h.modId, h.kept, h.next, by rw [h.shape], by rw [h.shape]⟩

theorem Acts.mono {i : Ctx} {a b : State} {ths us : List Nat} {code n p : Nat} (h : Acts i a b ths code n p) (hsub : ∀ u ∈ ths, u ∈ us) : Acts i a b us code n p :=
  ⟨h.groups, fun u hu => h.thrs u fun hin => hu (hsub u hin), h.gpr, fun u q hq hu => h.preds u q hq fun hin => hu ⟨hsub u hin.1, hin.2⟩, h.urf,
    fun hu => h.head fun u hin => hu u (hsub u hin)⟩

/-- Requests to the homes of several places, one after another. -/
def sendEach (i : Ctx) (th : Nat) (pre : State → Nat × Nat → State) (kind : Nat × Nat → ReqKind) (s : State) (ps : List (Nat × Nat)) : State :=
  ps.foldl (fun s p => sendHome (pre s p) i.c i.g th p.1 (kind p)) s

section
variable {i : Ctx} {th : Nat} {pre : State → Nat × Nat → State} {kind : Nat × Nat → ReqKind}
  (hpre : ∀ s p, Traffic s (pre s p) i.c ∧ ∀ g, grpOf (pre s p) i.c g = grpOf s i.c g)
include hpre

theorem sendEach_traffic (s : State) (ps : List (Nat × Nat)) :
    Traffic s (sendEach i th pre kind s ps) i.c ∧ ∀ g, grpOf (sendEach i th pre kind s ps) i.c g = grpOf s i.c g := by
  induction ps generalizing s with
  | nil => exact ⟨.rfl, fun _ => rfl⟩
  | cons p ps ih =>
    obtain ⟨h1, h2⟩ := ih (sendHome (pre s p) i.c i.g th p.1 (kind p))
    exact ⟨((hpre s p).1.trans (sendHome_traffic ..)).trans h1, fun g => (h2 g).trans ((grpOf_sendHome ..).trans ((hpre s p).2 g))⟩

/-- Every place of this module has its request on the way. -/
theorem sendEach_asks (s : State) {ps : List (Nat × Nat)} {p : Nat × Nat} (hp : p ∈ ps) (hmod : addrModule p.1 = s.modId) :
    ∃ id, s.llc.nextReq ≤ id ∧ (⟨id, i.c, i.g, th, p.1, kind p⟩ : Req) ∈ (sendEach i th pre kind s ps).llc.reqs := by
  obtain ⟨before, after, rfl⟩ := List.append_of_mem hp
  have h1 := (sendEach_traffic (th := th) (kind := kind) hpre s before).1
  let u := pre (sendEach i th pre kind s before) p
  have h2 : Traffic s u i.c := h1.trans (hpre _ p).1
  have h3 := (sendEach_traffic (th := th) (kind := kind) hpre (sendHome u i.c i.g th p.1 (kind p)) after).1
  refine ⟨u.llc.nextReq, h2.next, ?_⟩
  have hsplit : sendEach i th pre kind s (before ++ p :: after) = sendEach i th pre kind (sendHome u i.c i.g th p.1 (kind p)) after := by
    unfold sendEach; rw [List.foldl_append]; rfl
  rw [hsplit]
  exact h3.kept.subset (sendHome_requests i.g th (kind p) (hmod.trans h2.modId.symm))

end

/-! ## A REDUCE of the own local store -/

theorem redElem_length (oper etype : Nat) (old new : List Nat) : (redElem oper etype old new).1.length = elemSize oper := by
  unfold redElem elemSize
  split
  · show (encodeWide _).length = 16
    unfold encodeWide
    simp [natLe_length]
  · exact natLe_length _ _

theorem redLocal_eq (oper etype : Nat) (base n : Nat) (data : List Nat) (s : State) (p v : Bool) :
    ∃ m q r, redLocal oper etype base n data (s, p, v) = ({ s with mem := m }, q, r) := by
  induction n generalizing base data s p v with
  | zero => exact ⟨s.mem, p, v, rfl⟩
  | succ n ih =>
    unfold redLocal
    dsimp only
    split
    · exact ih ..
    · obtain ⟨m, q, r, h⟩ := ih (base + elemSize oper) (data.drop (elemSize oper)) (s.setBytes base (redElem oper etype (readBytes s.mem base (elemSize oper))
        (data.take (elemSize oper))).1) p (v || (redElem oper etype (readBytes s.mem base (elemSize oper)) (data.take (elemSize oper))).2)
      exact ⟨m, q, r, h⟩

theorem isPoisoned_of_sub {p : List Nat} {a n b m : Nat} (h : isPoisoned p a n = false) (hlo : a ≤ b) (hhi : b + m ≤ a + n) : isPoisoned p b m = false := by
  unfold isPoisoned at *
  rw [List.any_eq_false] at *
  intro w hw
  have := h w hw
  simp only [decide_eq_true_eq] at *
  omega

/-- An unpoisoned own-store range: every element is combined, and nothing else changes. -/
theorem redLocal_clean {oper etype : Nat} {base n : Nat} (data : List Nat) {s : State} (v : Bool) (hlow : ∀ b, base ≤ b → b < base + elemSize oper * n → addrLow b = b)
    (hclean : isPoisoned s.poison base (elemSize oper * n) = false) :
    (redLocal oper etype base n data (s, false, v)).2.1 = false ∧
      (∀ b, b < base ∨ base + elemSize oper * n ≤ b → memGet (redLocal oper etype base n data (s, false, v)).1.mem b = memGet s.mem b) ∧
      ∀ j < n, MemHolds (redLocal oper etype base n data (s, false, v)).1 (base + elemSize oper * j)
        (redElem oper etype (readBytes s.mem (base + elemSize oper * j) (elemSize oper)) ((data.drop (elemSize oper * j)).take (elemSize oper))).1 := by
  have hk : 0 < elemSize oper := by unfold elemSize; split <;> decide
  induction n generalizing base data s v with
  | zero => exact ⟨rfl, fun _ _ => rfl, fun j hj => absurd hj (Nat.not_lt_zero j)⟩
  | succ n ih =>
    rw [Nat.mul_succ] at hlow hclean
    let r := redElem oper etype (readBytes s.mem base (elemSize oper)) (data.take (elemSize oper))
    have hlen : r.1.length = elemSize oper := redElem_length ..
    have hbase : addrLow base = base := hlow base le_rfl (by omega)
    have hstep : redLocal oper etype base (n + 1) data (s, false, v) =
        redLocal oper etype (base + elemSize oper) n (data.drop (elemSize oper)) (s.setBytes base r.1, false, v || r.2) := by
      show (if isPoisoned s.poison base (elemSize oper) then _ else _) = _
      rw [if_neg (by rw [isPoisoned_of_sub hclean le_rfl (by omega)]; nofun)]
    obtain ⟨h1, h2, h3⟩ := ih (base := base + elemSize oper) (data.drop (elemSize oper)) (s := s.setBytes base r.1) (v || r.2)
      (fun b hlo hhi => hlow b (by omega) (by omega)) (isPoisoned_of_sub hclean (by omega) (by omega))
    have hput : ∀ b, b < base ∨ base + elemSize oper ≤ b → memGet (s.setBytes base r.1).mem b = memGet s.mem b := fun b hb => by
      rw [setBytes_mem, hbase]; exact memGet_writeBytes_other _ _ _ (by rw [hlen]; exact hb)
    rw [hstep]
    refine ⟨h1, fun b hb => ?_, fun j hj => ?_⟩
    · rw [Nat.mul_succ] at hb
      rw [h2 b (by omega), hput b (by omega)]
    · cases j with
      | zero =>
        intro a ha
        rw [h2 _ (by rw [redElem_length] at ha; omega)]
        show memGet (writeBytes s.mem (addrLow base) r.1) (base + elemSize oper * 0 + a) = _
        rw [hbase, Nat.mul_zero, Nat.add_zero, List.drop_zero, memGet_writeBytes _ _ _ (by rw [hlen]; rwa [redElem_length] at ha), List.getD_eq_getElem]
      | succ j =>
        have hat : base + elemSize oper * (j + 1) = base + elemSize oper + elemSize oper * j := by rw [Nat.mul_succ]; omega
        have hold : readBytes (s.setBytes base r.1).mem (base + elemSize oper + elemSize oper * j) (elemSize oper) =
            readBytes s.mem (base + elemSize oper + elemSize oper * j) (elemSize oper) := readBytes_congr fun b hlo _ => hput b (by omega)
        have := h3 j (by omega)
        rw [hold, List.drop_drop] at this
        rw [hat, show elemSize oper * (j + 1) = elemSize oper + elemSize oper * j by rw [Nat.mul_succ]; omega]
        exact this

/-! ## A thread's REDUCE -/

/-- A thread's REDUCE of its own local store, and of memory elsewhere. -/
def redOwn (i : Ctx) (s : State) (off : Nat) (r : RedDo) : State :=
  let (s, p, v) := redLocal r.oper r.etype (lsAddr i.c + off) (r.data.length / elemSize r.oper) r.data (s, false, false)
  let s := if v then addTaskCounter s i.c tcWindow 1 else s
  if p then
    raiseFault (countConsumed s (coreUnit i.c) r.dst) i.c
      { threadRec s i.c i.g 0xFF 0 2 ⟨cPOISONED, r.dst, 0⟩ with thread := 0xFF }
  else s

def redTurn (i : Ctx) (r : Nat → RedDo) (s : State) (th : Nat) : State :=
  match (r th).place with
  | .own off => redOwn i s off (r th)
  | .glob a => redSend i s th a (r th)

theorem raisePoison_flow (s : State) (c u a : Nat) (r : FaultRec) (h : r.cause = cPOISONED) :
    Flow s (raiseFault (countConsumed s u a) c r) ∧ ∀ g, grpOf (raiseFault (countConsumed s u a) c r) c g = grpOf s c g := by
  have hlog := countConsumed_logsOnly s u a
  obtain ⟨-, ⟨p, f, t, hcore⟩, -⟩ := raisePoison_core s c u a r h
  refine ⟨(Flow.of_llc (by unfold LogsOnly at hlog; rw [hlog]) hlog.llc).trans ?_, fun g => ?_⟩
  · unfold raiseFault rankFault
    rw [if_pos h]
    split
    · exact .rfl
    · split
      · exact .rfl
      · split
        · obtain ⟨ts, hts⟩ := modCoreTask_eq (countConsumed s u a) c (fun t => stopTask (countConsumed s u a).clk.tick t ⟨stPARTIAL, cPOISONED⟩ r)
          rw [hts]
          exact .of_llc rfl rfl
        · exact .of_llc rfl rfl
  · unfold grpOf; rw [hcore]; rfl

theorem redOwn_flow (i : Ctx) (s : State) (off : Nat) (r : RedDo) : Flow s (redOwn i s off r) ∧ ∀ g, grpOf (redOwn i s off r) i.c g = grpOf s i.c g := by
  obtain ⟨m, p, v, h⟩ := redLocal_eq r.oper r.etype (lsAddr i.c + off) (r.data.length / elemSize r.oper) r.data s false false
  unfold redOwn
  rw [h]
  dsimp only
  have hcount : Flow s (if v then addTaskCounter { s with mem := m } i.c tcWindow 1 else { s with mem := m }) ∧
      ∀ g, grpOf (if v then addTaskCounter { s with mem := m } i.c tcWindow 1 else { s with mem := m }) i.c g = grpOf s i.c g := by
    split
    · exact ⟨.of_llc (by rw [(addTaskCounter_onlyCore ..).1]) (by rw [(addTaskCounter_onlyCore ..).1]), fun g => grpOf_addTaskCounter ..⟩
    · exact ⟨.of_llc rfl rfl, fun _ => rfl⟩
  split
  · obtain ⟨h1, h2⟩ := raisePoison_flow (if v then addTaskCounter { s with mem := m } i.c tcWindow 1 else { s with mem := m }) i.c (coreUnit i.c) r.dst
      { threadRec (if v then addTaskCounter { s with mem := m } i.c tcWindow 1 else { s with mem := m }) i.c i.g 0xFF 0 2 ⟨cPOISONED, r.dst, 0⟩ with thread := 0xFF } rfl
    exact ⟨hcount.1.trans h1, fun g => (h2 g).trans (hcount.2 g)⟩
  · exact hcount

/-- The parts of a REDUCE go to the homes of their lines. -/
def redParts (i : Ctx) (s : State) (th a : Nat) (r : RedDo) (id : Nat) : State :=
  sendEach i th (fun s p => meterLine s i.c p.1 p.2) (fun p => .reduce r.oper r.etype ((r.data.drop (p.1 - a)).take p.2) id) s (lineParts a r.data.length)

theorem meterLine_pre (i : Ctx) (s : State) (p : Nat × Nat) :
    Traffic s (meterLine s i.c p.1 p.2) i.c ∧ ∀ g, grpOf (meterLine s i.c p.1 p.2) i.c g = grpOf s i.c g :=
  ⟨(addMeters_onlyCore ..).traffic, fun _ => grpOf_addMeters ..⟩

/-- A new REDUCE request of a thread. -/
def redOpen (i : Ctx) (s : State) (th a : Nat) (r : RedDo) : State :=
  { s with llc := { s.llc with
      nextReq := s.llc.nextReq + 1
      redReqs := s.llc.redReqs ++ [⟨s.llc.nextReq, i.c, i.g, th, (lineParts a r.data.length).length, false, false, a, none⟩] } }

theorem redSend_eq {i : Ctx} {s : State} {th a : Nat} {r : RedDo} (h : (thrOf s i.c i.g th).redSkip = 0) : redSend i s th a r =
    ((addWrite (redParts i (redOpen i s th a r) th a r s.llc.nextReq) i.c i.g th).modThread i.c i.g th
      (fun th => { th with redSent := th.redSent + 1 })).modCore i.c (fun k => { k with redOut := k.redOut + 1 }) := by
  have h' : (thr (grp (s.core i.c) i.g) th).redSkip = 0 := h
  unfold redSend
  rw [if_neg (by rw [h']; decide)]
  rfl

theorem redOpen_flow (i : Ctx) (s : State) (th a : Nat) (r : RedDo) : Flow s (redOpen i s th a r) :=
  ⟨rfl, List.prefix_refl _, Nat.le_succ _, List.prefix_append .., List.prefix_refl _⟩

theorem grpOf_redOut (s : State) (c d g : Nat) : grpOf (s.modCore c (fun k => { k with redOut := k.redOut + 1 })) d g = grpOf s d g :=
  grpOf_modCore_groups s c (f := fun k => { k with redOut := k.redOut + 1 }) (fun _ => rfl) d g

/-- The steps of a REDUCE that is sent. -/
theorem redSend_turn {i : Ctx} {s : State} {th a : Nat} {r : RedDo} (h : (thrOf s i.c i.g th).redSkip = 0) :
    Acts i s (redSend i s th a r) [th] 0xC0 0 7 ∧ Flow s (redSend i s th a r) := by
  obtain ⟨hparts, hgroups⟩ := sendEach_traffic (i := i) (th := th) (kind := fun p => .reduce r.oper r.etype ((r.data.drop (p.1 - a)).take p.2) s.llc.nextReq)
    (meterLine_pre i) (redOpen i s th a r) (lineParts a r.data.length)
  have hwrite := addWrite_turn i (redParts i (redOpen i s th a r) th a r s.llc.nextReq) th
  rw [redSend_eq h]
  have hopen : Acts i s (redOpen i s th a r) [] 0xC0 0 7 := .of_groups _ _ _ _ fun _ => rfl
  have hacts := ((hopen.trans ((Acts.of_groups [] 0xC0 0 7 hgroups).trans hwrite.toActs)).trans
    (Acts.of_modThr i _ th 0xC0 0 7 (fun th => { th with redSent := th.redSent + 1 }) fun _ => ⟨rfl, rfl⟩)).trans (.of_groups [] 0xC0 0 7 fun g => grpOf_redOut _ i.c i.c g)
  exact ⟨hacts.mono (by simp), ((redOpen_flow ..).trans hparts.flow).trans (hwrite.traffic.flow.trans (.of_llc rfl rfl))⟩

theorem addWrite_thr (s : State) (c g th : Nat) : thrOf (addWrite s c g th) c g th = { thrOf s c g th with writes := (thrOf s c g th).writes + 1 } := by
  unfold thrOf addWrite State.modThread
  rw [grpOf_modCore_groups _ _ (f := fun k => { k with writes := k.writes + 1 }) (fun _ => rfl), grpOf_modGrp, if_pos rfl, thr_modThr, if_pos rfl]

/-- The thread's write-through is counted. -/
theorem redSend_thr {i : Ctx} {s : State} {th a : Nat} {r : RedDo} (h : (thrOf s i.c i.g th).redSkip = 0) : thrOf (redSend i s th a r) i.c i.g th =
    { thrOf s i.c i.g th with writes := (thrOf s i.c i.g th).writes + 1, redSent := (thrOf s i.c i.g th).redSent + 1 } := by
  obtain ⟨-, hgroups⟩ := sendEach_traffic (i := i) (th := th) (kind := fun p => .reduce r.oper r.etype ((r.data.drop (p.1 - a)).take p.2) s.llc.nextReq)
    (meterLine_pre i) (redOpen i s th a r) (lineParts a r.data.length)
  have hparts : thrOf (redParts i (redOpen i s th a r) th a r s.llc.nextReq) i.c i.g th = thrOf s i.c i.g th := congrArg (thr · th) (hgroups i.g)
  have hbump : ∀ u : State, thrOf ((u.modThread i.c i.g th (fun th => { th with redSent := th.redSent + 1 })).modCore i.c
      (fun k => { k with redOut := k.redOut + 1 })) i.c i.g th = { thrOf u i.c i.g th with redSent := (thrOf u i.c i.g th).redSent + 1 } := fun u => by
    unfold thrOf
    rw [grpOf_redOut]
    unfold State.modThread
    rw [grpOf_modGrp, if_pos rfl, thr_modThr, if_pos rfl]
  rw [redSend_eq h, hbump, addWrite_thr, hparts]

/-- The thread's request is open, and its parts are asked for. -/
theorem redSend_asks {i : Ctx} {s : State} {th a : Nat} {r : RedDo} (h : (thrOf s i.c i.g th).redSkip = 0) :
      (⟨s.llc.nextReq, i.c, i.g, th, (lineParts a r.data.length).length, false, false, a, none⟩ : RedReq) ∈ (redSend i s th a r).llc.redReqs ∧
      ∀ p ∈ lineParts a r.data.length, addrModule p.1 = s.modId → ∃ rid, s.llc.nextReq ≤ rid ∧
        (⟨rid, i.c, i.g, th, p.1, .reduce r.oper r.etype ((r.data.drop (p.1 - a)).take p.2) s.llc.nextReq⟩ : Req) ∈ (redSend i s th a r).llc.reqs := by
  obtain ⟨hparts, hgroups⟩ := sendEach_traffic (i := i) (th := th) (kind := fun p => .reduce r.oper r.etype ((r.data.drop (p.1 - a)).take p.2) s.llc.nextReq)
    (meterLine_pre i) (redOpen i s th a r) (lineParts a r.data.length)
  have hwrite : Flow (redParts i (redOpen i s th a r) th a r s.llc.nextReq) (addWrite (redParts i (redOpen i s th a r) th a r s.llc.nextReq) i.c i.g th) :=
    (addWrite_turn i _ th).traffic.flow
  rw [redSend_eq h]
  refine ⟨hwrite.reds.subset (hparts.flow.reds.subset (List.mem_append_right _ List.mem_cons_self)), fun p hp hmod => ?_⟩
  obtain ⟨id, hle, hin⟩ := sendEach_asks (i := i) (th := th) (kind := fun p => .reduce r.oper r.etype ((r.data.drop (p.1 - a)).take p.2) s.llc.nextReq)
    (meterLine_pre i) (redOpen i s th a r) hp hmod
  exact ⟨id, le_trans (Nat.le_succ _) hle, hwrite.kept.subset hin⟩

/-- No listed thread has a REDUCE to skip, and the requests before stay. -/
structure RedInv (i : Ctx) (ths : List Nat) (s u : State) : Prop where
  flow : Flow s u
  skip : ∀ th ∈ ths, (thrOf u i.c i.g th).redSkip = 0

theorem redTurn_acts {i : Ctx} {ths : List Nat} {r : Nat → RedDo} {s u : State} {th : Nat} (h : RedInv i ths s u) (hth : th ∈ ths) :
    (Acts i u (redTurn i r u th) [th] 0xC0 0 7 ∧ Flow u (redTurn i r u th)) ∧ RedInv i ths s (redTurn i r u th) := by
  have hskip := h.skip th hth
  have hturn : Acts i u (redTurn i r u th) [th] 0xC0 0 7 ∧ Flow u (redTurn i r u th) ∧ (thrOf (redTurn i r u th) i.c i.g th).redSkip = 0 := by
    unfold redTurn
    split
    · obtain ⟨h1, h2⟩ := redOwn_flow i u _ (r th)
      exact ⟨.of_groups _ _ _ _ h2, h1, by unfold thrOf; rw [h2]; exact hskip⟩
    · obtain ⟨h1, h2⟩ := redSend_turn (r := r th) hskip
      exact ⟨h1, h2, by rw [redSend_thr hskip]; exact hskip⟩
  obtain ⟨hacts, hflow, hown⟩ := hturn
  refine ⟨⟨hacts, hflow⟩, h.flow.trans hflow, fun v hv => ?_⟩
  by_cases hvt : v = th
  · rw [hvt]; exact hown
  · rw [hacts.thrs v (by simpa using hvt)]; exact h.skip v hv

section
variable {s : State} {x : Site} {w : Word64} {i : Ctx} {d : Nat → List Nat × Bool} {r : Nat → RedDo}

theorem redCheck_slotted (b : List Nat) : redCheck (slotted s i) i b = redCheck s i b := by
  have hcore := (slotted_onlyCore s i).memory
  unfold redCheck
  rw [hcore.1, hcore.2]
  simp only [globalCheck_slotted]

theorem isRow_of_legalD {cls op : Nat} {t p : Bool} (h : legalD cls op t p w = true) : isRow cls op w = true := by
  unfold legalD at h
  simp only [Bool.and_eq_true] at h
  exact h.1.1.1.1

/-- The state after a REDUCE's issue, whose threads pass their checks. -/
theorem reduce_turns (hi : Issues s x w (descSrcs w 32) [] i) (hl : legalD 0x1A 0 false false w = true) (hroom : (s.core i.c).redOut + i.active.length ≤ 64)
    (hok : ∀ th ∈ i.active, readDesc s (grpOf s i.c i.g) i th 4 32 = .ok (d th) ∧ redCheck s i (d th).1 = .ok (r th)) :
    exec (.reduce x w) s = .next (advance (i.active.foldl (redTurn i r) (slotted s i)) i i.members (i.pc + 8)) := by
  have hreg := (slotted_ready s i).regs i.g
  show execReduce x w s = _
  unfold execReduce
  dsimp only
  rw [hl, isRow_of_legalD hl, hi.1]
  dsimp only
  rw [if_neg (by rw [decide_eq_false (by omega)]; nofun), issue_legal hi]
  rw [runThreads_ok i _ r]
  · simp only [goOn_nil, faultSet_nil, List.foldl_map, countPoisoned, List.foldl_nil]
    rfl
  · intro th hth
    obtain ⟨h1, h2⟩ := hok th hth
    have hg : grp ((slotted s i).core i.c) i.g = grpOf (slotted s i) i.c i.g := rfl
    rw [hg, readDesc_slotted hreg, h1]
    dsimp only
    rw [redCheck_slotted, h2]

theorem ok_of_ite {α : Type} {c : Prop} [Decidable c] {e : Cause} {y : Except Cause α} {q : α} (h : (if c then .error e else y) = .ok q) : y = .ok q := by
  split at h
  · cases h
  · exact h

theorem globalCheck_own {u : State} {c a n off : Nat} {rd wr : Bool} (h : globalCheck u c a n rd wr = .ok (.own off)) : off + n ≤ lsBytes := by
  unfold globalCheck at h
  replace h := ok_of_ite h
  split at h
  · split at h
    next hle => cases h; exact hle
    · cases h
  · split at h
    · cases h
    · split at h <;> cases h

/-- A REDUCE that passed its checks holds whole elements; one of the own store ends in it. -/
theorem redCheck_own {u : State} {b : List Nat} {q : RedDo} {off : Nat} (h : redCheck u i b = .ok q) (hp : q.place = .own off) :
    q.data.length = fieldLe b 12 4 * elemSize q.oper ∧ off + q.data.length ≤ lsBytes := by
  unfold redCheck at h
  replace h := ok_of_ite (ok_of_ite (ok_of_ite h))
  split at h
  · cases h
  next p hcheck =>
    split at h
    · cases h
    · cases h
      dsimp only at hp
      subst hp
      have hlen : (readBytes u.mem (lsAddr i.c + fieldLe b 8 4) (fieldLe b 12 4 * elemSize (fieldLe b 4 1))).length =
          fieldLe b 12 4 * elemSize (fieldLe b 4 1) := by simp [readBytes]
      exact ⟨hlen, by rw [hlen]; exact globalCheck_own hcheck⟩

/-- What a REDUCE of the own local store leaves there. -/
theorem redOwn_holds {u : State} {q : RedDo} {off n : Nat} (hlen : q.data.length = n * elemSize q.oper)
    (hlow : ∀ o ≤ lsBytes, addrLow (lsAddr i.c + o) = lsAddr i.c + o) (hend : off + q.data.length ≤ lsBytes)
    (hclean : isPoisoned u.poison (lsAddr i.c + off) q.data.length = false) {j : Nat} (hj : j < q.data.length / elemSize q.oper) :
    MemHolds (redOwn i u off q) (lsAddr i.c + off + elemSize q.oper * j) (redElem q.oper q.etype
      (readBytes u.mem (lsAddr i.c + off + elemSize q.oper * j) (elemSize q.oper)) ((q.data.drop (elemSize q.oper * j)).take (elemSize q.oper))).1 := by
  have hk : 0 < elemSize q.oper := by unfold elemSize; split <;> decide
  have hn : q.data.length / elemSize q.oper = n := by rw [hlen]; exact Nat.mul_div_cancel _ hk
  have hsize : elemSize q.oper * n = q.data.length := by rw [hlen, Nat.mul_comm]
  obtain ⟨h1, -, h3⟩ := redLocal_clean (oper := q.oper) (etype := q.etype) (base := lsAddr i.c + off) (n := n) q.data (s := u) false (fun b hlo hhi => by
    have := hlow (b - lsAddr i.c) (by omega)
    rwa [show lsAddr i.c + (b - lsAddr i.c) = b by omega] at this) (by rw [hsize]; exact hclean)
  rw [hn] at hj
  have hmem : (redOwn i u off q).mem = (redLocal q.oper q.etype (lsAddr i.c + off) n q.data (u, false, false)).1.mem := by
    unfold redOwn
    rw [hn]
    generalize redLocal q.oper q.etype (lsAddr i.c + off) n q.data (u, false, false) = x at h1 ⊢
    obtain ⟨v, p, f⟩ := x
    dsimp only at h1 ⊢
    subst h1
    rw [if_neg (by decide)]
    split
    · exact addTaskCounter_mem ..
    · rfl
  intro b hb
  rw [hmem]
  exact h3 j hj b hb

/-- REDUCE whose threads pass their checks. -/
theorem reduce_requests (hi : Issues s x w (descSrcs w 32) [] i) (hl : legalD 0x1A 0 false false w = true) (hroom : (s.core i.c).redOut + i.active.length ≤ 64)
    (hok : ∀ th ∈ i.active, readDesc s (grpOf s i.c i.g) i th 4 32 = .ok (d th) ∧ redCheck s i (d th).1 = .ok (r th) ∧ (thrOf s i.c i.g th).redSkip = 0) :
    ∃ t, exec (.reduce x w) s = .next t ∧ RegFrame s t i 0xC0 0 7 ∧ AllAt t i (i.pc + 8) ∧ ReqsKept s t ∧
      (∀ th ∈ i.active, ∀ a, (r th).place = .glob a →
        (thrOf t i.c i.g th).writes = (thrOf s i.c i.g th).writes + 1 ∧
        ∃ id, (⟨id, i.c, i.g, th, (lineParts a (r th).data.length).length, false, false, a, none⟩ : RedReq) ∈ t.llc.redReqs ∧
          ∀ p ∈ lineParts a (r th).data.length, addrModule p.1 = s.modId → ∃ rid, Requested s t i th p.1
            (.reduce (r th).oper (r th).etype (((r th).data.drop (p.1 - a)).take p.2) id) rid) ∧
      (∀ th off, i.active = [th] → (r th).place = .own off →
        isPoisoned s.poison (lsAddr i.c + off) (r th).data.length = false → ∀ j, j < (r th).data.length / elemSize (r th).oper →
        MemHolds t (lsAddr i.c + off + elemSize (r th).oper * j) (redElem (r th).oper (r th).etype
          (readBytes s.mem (lsAddr i.c + off + elemSize (r th).oper * j) (elemSize (r th).oper))
          (((r th).data.drop (elemSize (r th).oper * j)).take (elemSize (r th).oper))).1) := by
  obtain ⟨hc, _, _, _, nd, _⟩ := issueCtx_members hi.1
  have hready := slotted_ready s i
  have hflow0 : Flow s (slotted s i) := hready.core.traffic.flow
  have hsame : ∀ th, unblocked (thrOf (slotted s i) i.c i.g th) = unblocked (thrOf s i.c i.g th) := fun th => (hready.regs i.g).thrs th
  have hinv : RedInv i i.active s (slotted s i) := ⟨hflow0, fun th hth => (congrArg Thread.redSkip (hsame th)).trans (hok th hth).2.2⟩
  have hstep : ∀ a, RedInv i i.active s a → ∀ th ∈ i.active, (Acts i a (redTurn i r a th) [th] 0xC0 0 7 ∧ Flow a (redTurn i r a th)) ∧
      RedInv i i.active s (redTurn i r a th) := fun a ha th hth => redTurn_acts ha hth
  obtain ⟨⟨hacts, -⟩, hend⟩ := rel_foldl (T := fun a b ths => Acts i a b ths 0xC0 0 7 ∧ Flow a b) (fun _ => ⟨.nil, .rfl⟩)
    (fun h k => ⟨h.1.trans k.1, h.2.trans k.2⟩) (redTurn i r) (RedInv i i.active s) i.active hstep (slotted s i) hinv
  have hmoved := hacts.advance hready.regs
  refine ⟨_, reduce_turns hi hl hroom fun th hth => ⟨(hok th hth).1, (hok th hth).2.1⟩, hacts.regFrame hready.regs (fun _ h => h) hmoved, hmoved.allAt rfl, hend.flow.kept,
    fun th hth a hp => ?_, fun th off hone hp hclean j hj => ?_⟩
  · obtain ⟨pre, post, hsplit, hpre, hpost, hnpre, hbefore, hafter⟩ := rel_of_mem (T := fun a b ths => Acts i a b ths 0xC0 0 7 ∧ Flow a b)
      (fun _ => ⟨.nil, .rfl⟩) (fun h k => ⟨h.1.trans k.1, h.2.trans k.2⟩) (redTurn i r) (RedInv i i.active s) nd hstep hinv hth
    have hturn : redTurn i r (pre.foldl (redTurn i r) (slotted s i)) th = redSend i (pre.foldl (redTurn i r) (slotted s i)) th a (r th) := by
      show (match (r th).place with | .own off => _ | .glob a => _) = _
      rw [hp]
    rw [hturn] at hafter
    obtain ⟨hred, hask⟩ := redSend_asks (a := a) (r := r th) (hpre.skip th hth)
    refine ⟨?_, _, hafter.2.reds.subset hred, fun p hpin hmod => ?_⟩
    · rw [hmoved.writes]
      show (thrOf (i.active.foldl (redTurn i r) (slotted s i)) i.c i.g th).writes = _
      rw [hafter.1.thrs th hpost, redSend_thr (hpre.skip th hth)]
      show (thrOf _ i.c i.g th).writes + 1 = _
      rw [hbefore.1.thrs th hnpre, writes_of_unblocked (hsame th)]
    · obtain ⟨rid, hle, hin⟩ := hask p hpin (hmod.trans hpre.flow.modId.symm)
      exact ⟨rid, hpre.flow.next.trans hle, hafter.2.kept.subset hin⟩
  · obtain ⟨hlen, hfit⟩ := redCheck_own (hok th (hone ▸ List.mem_cons_self)).2.1 hp
    have hlow : ∀ o ≤ lsBytes, addrLow (lsAddr i.c + o) = lsAddr i.c + o := hc ▸ fun o => addrLow_lsAddr x.core
    have hcore := hready.core.memory
    have hholds := redOwn_holds (i := i) (u := slotted s i) hlen hlow hfit (hcore.2 ▸ hclean) hj
    rw [hcore.1] at hholds
    have hturn : i.active.foldl (redTurn i r) (slotted s i) = redOwn i (slotted s i) off (r th) := by
      rw [hone]
      show (match (r th).place with | .own off => _ | .glob a => _) = _
      rw [hp]
    rw [hturn]
    exact hholds

end

/-! ## PIN and UNPIN -/

section
variable {i : Ctx} {w : Word64} {s : State} {th : Nat}

/-- A pin request of a thread. -/
def pinOpen (i : Ctx) (w : Word64) (s : State) (th n : Nat) : State :=
  { s with llc := { s.llc with
      nextReq := s.llc.nextReq + 1
      pinReqs := s.llc.pinReqs ++ [⟨s.llc.nextReq, i.c, i.g, th, dPdst w, n / 128, true⟩] } }

/-- The places of its lines. -/
def pinLines (a n : Nat) : List (Nat × Nat) := (List.range (n / 128)).map (fun j => (a + 128 * j, 0))

def pinSent (un : Bool) (i : Ctx) (w : Word64) (s : State) (th n a cls : Nat) : State :=
  sendEach i th (fun s _ => s) (fun _ => .pinLine un cls s.llc.nextReq) (pinOpen i w s th n) (pinLines a n)

theorem pinSend_sent (un : Bool) {n a : Nat} {k : Task} (hk : coreTask s i.c = some k) (h : (!isHbm a && addrModule a == s.modId) = false) :
    pinSend un w i s th n (.glob a) = (pinSent un i w s th n a k.cls).modGrp i.c i.g
      (fun gr => awaitReq gr th s.llc.nextReq i.pc 0xC0 0 (if dPdst w = 7 then none else some (dPdst w))) := by
  unfold pinSend pinSent sendEach pinLines
  dsimp only
  rw [if_neg (by rw [h]; nofun), hk, List.foldl_map]
  rfl

theorem pinSend_own (un : Bool) (n off : Nat) : pinSend un w i s th n (.own off) = s.modGrp i.c i.g (fun gr => writePred gr th (dPdst w) true) := rfl

theorem pinSend_resident (un : Bool) {n a : Nat} (h : (!isHbm a && addrModule a == s.modId) = true) :
    pinSend un w i s th n (.glob a) = s.modGrp i.c i.g (fun gr => writePred gr th (dPdst w) true) := by
  unfold pinSend
  dsimp only
  rw [if_pos h]

theorem pinPre (i : Ctx) (s : State) (_ : Nat × Nat) : Traffic s s i.c ∧ ∀ g, grpOf s i.c g = grpOf s i.c g := ⟨.rfl, fun _ => rfl⟩

/-- What PIN requests of other threads leave for a later one. -/
structure PinInv (s u : State) (i : Ctx) : Prop where
  flow : Flow s u
  mem : u.mem = s.mem
  task : coreTask u i.c = coreTask s i.c

theorem PinInv.trans {a b c : State} (h : PinInv a b i) (k : PinInv b c i) : PinInv a c i :=
  ⟨h.flow.trans k.flow, k.mem.trans h.mem, k.task.trans h.task⟩

theorem modGrp_pinInv (s : State) (i : Ctx) (f : Group → Group) : PinInv s (s.modGrp i.c i.g f) i := by
  obtain ⟨gs, h⟩ := modGrp_core s i.c i.g f
  refine ⟨(modGrp_onlyCore ..).traffic.flow, rfl, ?_⟩
  unfold coreTask State.task
  rw [h]
  rfl

theorem sendEach_pinInv (kind : Nat × Nat → ReqKind) (s : State) (ps : List (Nat × Nat)) : PinInv s (sendEach i th (fun s _ => s) kind s ps) i := by
  induction ps generalizing s with
  | nil => exact ⟨.rfl, rfl, rfl⟩
  | cons p ps ih =>
    refine PinInv.trans ⟨(sendHome_traffic s i.c i.g th p.1 (kind p)).flow, (sendHome_mem ..).1, ?_⟩ (ih (sendHome s i.c i.g th p.1 (kind p)))
    unfold coreTask State.task
    rw [sendHome_core, (sendHome_traffic s i.c i.g th p.1 (kind p)).tasks]

theorem pinSent_inv (un : Bool) (n a cls : Nat) : PinInv s (pinSent un i w s th n a cls) i := by
  have hopen : PinInv s (pinOpen i w s th n) i := ⟨⟨rfl, List.prefix_refl _, Nat.le_succ _, List.prefix_refl _, List.prefix_append ..⟩, rfl, rfl⟩
  exact hopen.trans (sendEach_pinInv ..)

theorem pinSent_groups (un : Bool) (n a cls g : Nat) : grpOf (pinSent un i w s th n a cls) i.c g = grpOf s i.c g :=
  (sendEach_traffic (i := i) (th := th) (kind := fun _ => .pinLine un cls s.llc.nextReq) (pinPre i) (pinOpen i w s th n) (pinLines a n)).2 g

theorem dPdst_lt (w : Word64) : dPdst w < 8 := bits_lt w _ _

theorem writePred_acts (i : Ctx) (s : State) (th p : Nat) (b : Bool) : Acts i s (s.modGrp i.c i.g (fun gr => writePred gr th p b)) [th] 0xC0 0 p := by
  refine .of_grp i s th 0xC0 0 p _ (fun gr u hu => ?_) (fun gr => ?_) (fun gr q hq hne => ?_) fun gr => writePred_urf ..
  · rw [thr_writePred_predThread, if_neg hu]
  · rw [thr_writePred_predThread, if_pos rfl, predThread_gpr]
  · rw [thr_writePred_predThread, if_pos rfl, predThread_val _ _ hq, if_neg hne]

theorem pinSend_turn (un : Bool) (n : Nat) (p : Place) {k : Task} (hk : coreTask s i.c = some k) :
    Acts i s (pinSend un w i s th n p) [th] 0xC0 0 (dPdst w) ∧ PinInv s (pinSend un w i s th n p) i := by
  cases p with
  | own off => rw [pinSend_own]; exact ⟨writePred_acts .., modGrp_pinInv ..⟩
  | glob a =>
    cases h : !isHbm a && addrModule a == s.modId with
    | true => rw [pinSend_resident un h]; exact ⟨writePred_acts .., modGrp_pinInv ..⟩
    | false =>
      rw [pinSend_sent un hk h]
      exact ⟨(Acts.of_groups [] _ _ _ fun g => pinSent_groups un n a k.cls g).trans (.of_await ..), (pinSent_inv ..).trans (modGrp_pinInv ..)⟩

/-- The request of the thread is open, and its lines are asked for. -/
theorem pinSend_asks (un : Bool) {n a : Nat} {k : Task} (hk : coreTask s i.c = some k) (h : isHbm a = true) :
    (⟨s.llc.nextReq, i.c, i.g, th, dPdst w, n / 128, true⟩ : PinReq) ∈ (pinSend un w i s th n (.glob a)).llc.pinReqs ∧
      ∀ j, j < n / 128 → addrModule (a + 128 * j) = s.modId → ∃ rid, s.llc.nextReq ≤ rid ∧
        (⟨rid, i.c, i.g, th, a + 128 * j, .pinLine un k.cls s.llc.nextReq⟩ : Req) ∈ (pinSend un w i s th n (.glob a)).llc.reqs := by
  have hsend := (sendEach_traffic (i := i) (th := th) (kind := fun _ => .pinLine un k.cls s.llc.nextReq) (pinPre i) (pinOpen i w s th n) (pinLines a n)).1
  rw [pinSend_sent un hk (by rw [h]; rfl)]
  refine ⟨hsend.flow.pins.subset (List.mem_append_right _ List.mem_cons_self), fun j hj hmod => ?_⟩
  obtain ⟨id, hle, hin⟩ := sendEach_asks (i := i) (th := th) (kind := fun _ => .pinLine un k.cls s.llc.nextReq) (pinPre i) (pinOpen i w s th n)
    (List.mem_map.2 ⟨j, List.mem_range.2 hj, rfl⟩ : (a + 128 * j, 0) ∈ pinLines a n) hmod
  exact ⟨id, le_trans (Nat.le_succ _) hle, hin⟩

/-- The predicate of a thread whose lines are resident. -/
theorem writePred_pred {p : Nat} (hp : p < 8) (h7 : p ≠ 7) : predOf (s.modGrp i.c i.g (fun gr => writePred gr th p true)) i.c i.g th p = true := by
  unfold predOf thrOf
  rw [grpOf_modGrp, if_pos rfl, thr_writePred_predThread, if_pos rfl, predThread_val _ _ (by omega), if_pos rfl]

end

section
variable {s : State} {x : Site} {w : Word64} {i : Ctx} {d : Nat → List Nat × Bool} {r : Nat → Nat × Place} {op : Nat}

theorem pinCheck_slotted (b : List Nat) : pinCheck (slotted s i) i b = pinCheck s i b := by
  unfold pinCheck
  simp only [globalCheck_slotted]

/-- The state after a PIN's issue, whose threads pass their checks. -/
theorem pinRow_turns (hi : Issues s x w (descSrcs w 16) [] i) (hl : legalD 0x1B op false true w = true)
    (hok : ∀ th ∈ i.active, readDesc s (grpOf s i.c i.g) i th 5 16 = .ok (d th) ∧ pinCheck s i (d th).1 = .ok (r th)) :
    pinRow op x w s = .next (advance (i.active.foldl (fun u th => pinSend (op == 1) w i u th (r th).1 (r th).2) (slotted s i)) i i.members (i.pc + 8)) := by
  have hreg := (slotted_ready s i).regs i.g
  unfold pinRow
  rw [hl, isRow_of_legalD hl, issue_legal hi]
  dsimp only
  rw [runThreads_ok i _ r]
  · simp only [goOn_nil, faultSet_nil, List.foldl_map, countPoisoned, List.foldl_nil]
    rfl
  · intro th hth
    obtain ⟨h1, h2⟩ := hok th hth
    have hg : grp ((slotted s i).core i.c) i.g = grpOf (slotted s i) i.c i.g := rfl
    rw [hg, readDesc_slotted hreg, h1]
    dsimp only
    rw [pinCheck_slotted, h2]

/-- A PIN or UNPIN whose threads pass their checks. -/
theorem pinRow_requests {k : Task} (hi : Issues s x w (descSrcs w 16) [] i) (hl : legalD 0x1B op false true w = true) (hk : coreTask s i.c = some k)
    (hok : ∀ th ∈ i.active, readDesc s (grpOf s i.c i.g) i th 5 16 = .ok (d th) ∧ pinCheck s i (d th).1 = .ok (r th)) :
    ∃ t, pinRow op x w s = .next t ∧ t.mem = s.mem ∧ RegFrame s t i 0xC0 0 (dPdst w) ∧
      AllAt t i (i.pc + 8) ∧ ReqsKept s t ∧ ∀ th ∈ i.active, match (r th).2 with
        | .own _ => dPdst w ≠ 7 → predOf t i.c i.g th (dPdst w) = true
        | .glob a => addrModule a = s.modId →
          (isHbm a = false → dPdst w ≠ 7 → predOf t i.c i.g th (dPdst w) = true) ∧
          (isHbm a = true → ∃ id, (⟨id, i.c, i.g, th, dPdst w, (r th).1 / 128, true⟩ : PinReq) ∈ t.llc.pinReqs ∧
            ∀ j, j < (r th).1 / 128 → addrModule (a + 128 * j) = s.modId →
              ∃ rid, Requested s t i th (a + 128 * j) (.pinLine (op == 1) k.cls id) rid) := by
  obtain ⟨hc, _, _, _, nd, _⟩ := issueCtx_members hi.1
  have hready := slotted_ready s i
  let step := fun u th => pinSend (op == 1) w i u th (r th).1 (r th).2
  have hinv : PinInv s (slotted s i) i := ⟨hready.core.traffic.flow, hready.core.memory.1, slotted_coreTask s i⟩
  have hstep : ∀ a, PinInv s a i → ∀ th ∈ i.active, (Acts i a (step a th) [th] 0xC0 0 (dPdst w) ∧ Flow a (step a th)) ∧ PinInv s (step a th) i :=
    fun a ha th _ => by
      obtain ⟨h1, h2⟩ := pinSend_turn (w := w) (th := th) (op == 1) (r th).1 (r th).2 (ha.task.trans hk)
      exact ⟨⟨h1, h2.flow⟩, ha.trans h2⟩
  obtain ⟨⟨hacts, -⟩, hend⟩ := rel_foldl (T := fun a b ths => Acts i a b ths 0xC0 0 (dPdst w) ∧ Flow a b) (fun _ => ⟨.nil, .rfl⟩)
    (fun h k => ⟨h.1.trans k.1, h.2.trans k.2⟩) step (PinInv s · i) i.active hstep (slotted s i) hinv
  have hmoved := hacts.advance hready.regs
  refine ⟨_, pinRow_turns hi hl hok, hend.mem, hacts.regFrame hready.regs (fun _ h => h) hmoved, hmoved.allAt rfl, hend.flow.kept, fun th hth => ?_⟩
  obtain ⟨pre, post, hsplit, hpre, hpost, hnpre, hbefore, hafter⟩ := rel_of_mem (T := fun a b ths => Acts i a b ths 0xC0 0 (dPdst w) ∧ Flow a b)
    (fun _ => ⟨.nil, .rfl⟩) (fun h k => ⟨h.1.trans k.1, h.2.trans k.2⟩) step (PinInv s · i) nd hstep hinv hth
  have hset : (step (pre.foldl step (slotted s i)) th = (pre.foldl step (slotted s i)).modGrp i.c i.g (fun gr => writePred gr th (dPdst w) true)) →
      dPdst w ≠ 7 → predOf (advance (i.active.foldl step (slotted s i)) i i.members (i.pc + 8)) i.c i.g th (dPdst w) = true := fun heq h7 => by
    have hval := writePred_pred (s := pre.foldl step (slotted s i)) (i := i) (th := th) (dPdst_lt w) h7
    rw [← heq] at hval
    unfold predOf predVal at hval ⊢
    rw [hmoved.preds]
    show (if dPdst w = 7 then true else (thrOf (i.active.foldl step (slotted s i)) i.c i.g th).preds.getLsbD (dPdst w)) = true
    rw [hafter.1.thrs th hpost]
    exact hval
  cases hp : (r th).2 with
  | own off => exact hset (congrArg (fun p => pinSend (op == 1) w i _ th (r th).1 p) hp)
  | glob a =>
    intro hmod
    have hmod' : addrModule a = (pre.foldl step (slotted s i)).modId := hmod.trans hpre.flow.modId.symm
    refine ⟨fun hb => hset ?_, fun hb => ?_⟩
    · show pinSend (op == 1) w i _ th (r th).1 (r th).2 = _
      rw [hp, pinSend_resident _ (by rw [hb, hmod']; simp)]
    · obtain ⟨hpin, hask⟩ := pinSend_asks (i := i) (w := w) (th := th) (n := (r th).1) (op == 1) (hpre.task.trans hk) hb
      rw [← hp] at hpin hask
      refine ⟨_, hafter.2.pins.subset hpin, fun j hj hjm => ?_⟩
      obtain ⟨rid, hle, hin⟩ := hask j hj (hjm.trans hpre.flow.modId.symm)
      exact ⟨rid, hpre.flow.next.trans hle, hafter.2.kept.subset hin⟩

end

/-- Settles O21: the threads take their turns; each line's request is sent once, and the own store or a resident line acts at once. -/
theorem reduceAndPinRequests : Obligations.ReduceAndPinRequests := by
  unfold Obligations.ReduceAndPinRequests
  dsimp only
  refine fun s x w i => ⟨fun d r hi hl hroom hok => reduce_requests hi hl hroom hok, fun un d r k hi hl hk hok => ?_⟩
  cases un with
  | false => exact pinRow_requests hi hl hk hok
  | true => exact pinRow_requests hi hl hk hok

end Sys2Proof.Machine
end

section
/-! SUPPORT. Two commands that do more than their statements allow: a calibration that finds the power held back stops a core whose
task had stopped for its budget (R47, R138), and a region change that finds a word bad logs it before the region (R297, R316). -/
namespace Sys2Proof.Machine
open Sys2Proof.Tests

/-- A module that boots with margins of tower 0 to calibrate; the task of core 0 has stopped OVERRUN in this tick. -/
def calibratedOverrun : State := { State.reset with
  md := { Md.fresh with booting := true }
  regs := [(rCrate 0, 511#32)]
  cores := [(0, { Core.idle with task := some 0, phase := .running })]
  tasks := [(0, some { task0 with stop := some { status := stOVERRUN, code := 0 }, floors := [1000] })] }

/-- The calibration commits no power to the task, whose core stops for a replay; the budget's stop gives way to it. -/
theorem recalibration_giveWay : ∃ t, exec (.recalibration 0 0 [(0, 0, 0, 0)]) calibratedOverrun = .next t ∧
    ((t.task 0).bind (·.stop)).isSome = false :=
  have h : (match exec (.recalibration 0 0 [(0, 0, 0, 0)]) calibratedOverrun with
    | .next t => !((t.task 0).bind (·.stop)).isSome
    | _ => false) = true := by decide +kernel
  match hx : exec (.recalibration 0 0 [(0, 0, 0, 0)]) calibratedOverrun, h with
  | .next t, h => ⟨t, rfl, by simpa using h⟩

/-- Refutes O31: a calibration can stop a core, and then a task's stop for its budget in the same tick gives way. -/
theorem not_banksRetireAndRegionsCalibrate : ¬ Obligations.BanksRetireAndRegionsCalibrate := by
  unfold Obligations.BanksRetireAndRegionsCalibrate
  intro h
  obtain ⟨-, hcal, -⟩ := h calibratedOverrun 0
  obtain ⟨-, hdue⟩ := hcal 0 [(0, 0, 0, 0)] (by decide)
  obtain ⟨t, ht, -, htasks, -⟩ := hdue (by decide +kernel)
  obtain ⟨u, hu, hstop⟩ := recalibration_giveWay
  obtain rfl : t = u := Host.Outcome.next.inj (ht.symm.trans hu)
  have hsome : ((t.task 0).bind (·.stop)).isSome = true := by rw [State.task, htasks]; decide +kernel
  exact Bool.false_ne_true (hstop.symm.trans hsome)

/-- A module whose first ECC region is about to cover the first 64 MiB with code 1. -/
def regionPlanned : State := { State.reset with ecc := { State.reset.ecc with region := some (0, 2 ^ 13, 1) } }

/-- The word found bad is logged, and then the region: two entries. -/
theorem regionApplied_logsTwice : ∃ t, exec (.regionApplied [0]) regionPlanned = .next t ∧ t.ras.seq = 2 :=
  have h : (match exec (.regionApplied [0]) regionPlanned with
    | .next t => t.ras.seq == 2
    | _ => false) = true := by decide +kernel
  match hx : exec (.regionApplied [0]) regionPlanned, h with
  | .next t, h => ⟨t, rfl, by simpa using h⟩

/-- Refutes O48: where the change finds a word bad, its entry of the log comes before the region's. -/
theorem not_cacheRegionAndClassSettingsApply : ¬ Obligations.CacheRegionAndClassSettingsApply := by
  unfold Obligations.CacheRegionAndClassSettingsApply
  intro h
  obtain ⟨-, -, -, -, hregion, -⟩ := h regionPlanned 0 0
  obtain ⟨t, ht, -, -, -, -, -, -, ⟨-, hseq⟩, -⟩ := hregion 0 (2 ^ 13) 1 [0] (by decide) (by decide) (by decide) rfl
  obtain ⟨u, hu, hu2⟩ := regionApplied_logsTwice
  obtain rfl : t = u := Host.Outcome.next.inj (ht.symm.trans hu)
  exact absurd (hseq.symm.trans hu2) (by decide)

end Sys2Proof.Machine
end

section
/-! SUPPORT. Fields of registers: what a field or a bit reads after another write to its register (R3). -/
namespace Sys2Proof.Machine

theorem testBit_nbits (n hi lo i : Nat) : (nbits n hi lo).testBit i = (decide (i < hi + 1 - lo) && n.testBit (lo + i)) := by
  rw [nbits, Nat.testBit_mod_two_pow, Nat.testBit_shiftRight]

theorem bits_eq_nbits {k : Nat} (w : BitVec k) (hi lo : Nat) : bits w hi lo = nbits w.toNat hi lo := rfl

/-- Bits of a number whose field is replaced. -/
theorem testBit_putBits (n v : Nat) {hi lo : Nat} (h : lo ≤ hi) (i : Nat) :
    (putBits n hi lo v).testBit i = if lo ≤ i ∧ i ≤ hi then v.testBit (i - lo) else n.testBit i := by
  obtain ⟨w, rfl⟩ : ∃ w, hi = lo + w := ⟨hi - lo, by omega⟩
  have hw : lo + w + 1 - lo = w + 1 := by omega
  have hn : n = 2 ^ lo * (2 ^ (w + 1) * (n >>> lo / 2 ^ (w + 1)) + (n >>> lo) % 2 ^ (w + 1)) + n % 2 ^ lo := by
    rw [Nat.div_add_mod, Nat.shiftRight_eq_div_pow, Nat.div_add_mod]
  have hput : putBits n (lo + w) lo v = 2 ^ lo * (2 ^ (w + 1) * (n >>> lo / 2 ^ (w + 1)) + v % 2 ^ (w + 1)) + n % 2 ^ lo := by
    rw [putBits, hw]
    conv_lhs => rw [hn]
    have hs : (2 ^ lo * (2 ^ (w + 1) * (n >>> lo / 2 ^ (w + 1)) + (n >>> lo) % 2 ^ (w + 1)) + n % 2 ^ lo) >>> lo = n >>> lo := by rw [← hn]
    rw [hs, Nat.mul_add, Nat.mul_add]
    rw [Nat.mul_comm (n >>> lo % _) (2 ^ lo), Nat.mul_comm (v % _) (2 ^ lo)]
    omega
  rw [hput, Nat.testBit_two_pow_mul_add _ (Nat.mod_lt _ (Nat.two_pow_pos _)), Nat.testBit_two_pow_mul_add _ (Nat.mod_lt _ (Nat.two_pow_pos _))]
  rw [Nat.testBit_mod_two_pow, Nat.testBit_mod_two_pow, Nat.testBit_div_two_pow, Nat.testBit_shiftRight]
  by_cases h1 : i < lo
  · rw [if_pos h1, if_neg (by omega), decide_eq_true h1, Bool.true_and]
  · rw [if_neg h1]
    by_cases h2 : i ≤ lo + w
    · rw [if_pos (by omega), if_pos (by omega), decide_eq_true (by omega : i - lo < w + 1), Bool.true_and]
    · rw [if_neg (by omega), if_neg (by omega), show lo + (i - lo - (w + 1) + (w + 1)) = i by omega]


/-! ## Fields and bits of a register -/

section
variable (s : State)

theorem regBit_eq (off i : Nat) : s.regBit off i = (s.reg off).toNat.testBit i := rfl

theorem testBit_regField (off hi lo i : Nat) : (s.regField off hi lo).testBit i = (decide (i < hi + 1 - lo) && s.regBit off (lo + i)) :=
  testBit_nbits ..

/-- Two states agree on a field when they agree on its bits. -/
theorem regField_ext {s t : State} {a b hi lo : Nat} (h : ∀ i, lo ≤ i → i ≤ hi → t.regBit b i = s.regBit a i) :
    t.regField b hi lo = s.regField a hi lo := by
  refine Nat.eq_of_testBit_eq fun i => ?_
  rw [testBit_regField, testBit_regField]
  by_cases hi' : i < hi + 1 - lo
  · rw [h (lo + i) (by omega) (by omega)]
  · rw [decide_eq_false hi', Bool.false_and, Bool.false_and]

theorem regBit_of_le (off : Nat) {i : Nat} (h : 32 ≤ i) : s.regBit off i = false := BitVec.getLsbD_of_ge _ _ h

theorem regBit_setField (off v : Nat) {hi lo : Nat} (h : lo ≤ hi) (h32 : hi < 32) (i : Nat) :
    (s.setField off hi lo v).regBit off i = if lo ≤ i ∧ i ≤ hi then v.testBit (i - lo) else s.regBit off i := by
  have hreg : (s.setField off hi lo v).reg off = BitVec.ofNat 32 (putBits (s.reg off).toNat hi lo v) := tget_tset_same ..
  rw [regBit_eq, hreg, BitVec.toNat_ofNat, Nat.testBit_mod_two_pow, testBit_putBits _ _ h]
  by_cases hi32 : i < 32
  · rw [decide_eq_true hi32, Bool.true_and]; rfl
  · rw [decide_eq_false hi32, Bool.false_and, if_neg (by omega), regBit_of_le s off (by omega)]

/-- The field that is written. -/
theorem regField_setField (off v : Nat) {hi lo : Nat} (h : lo ≤ hi) (h32 : hi < 32) :
    (s.setField off hi lo v).regField off hi lo = v % 2 ^ (hi + 1 - lo) := by
  refine Nat.eq_of_testBit_eq fun i => ?_
  rw [testBit_regField, regBit_setField s off v h h32, Nat.testBit_mod_two_pow]
  by_cases hi' : i < hi + 1 - lo
  · rw [if_pos (by omega), Nat.add_sub_cancel_left]
  · rw [decide_eq_false hi', Bool.false_and, Bool.false_and]

/-- A field apart from the one that is written. -/
theorem regField_setField_apart (off v : Nat) {hi lo hi' lo' : Nat} (h : lo ≤ hi) (h32 : hi < 32) (hap : hi' < lo ∨ hi < lo') :
    (s.setField off hi lo v).regField off hi' lo' = s.regField off hi' lo' :=
  regField_ext fun i h1 h2 => by rw [regBit_setField s off v h h32, if_neg (by omega)]

theorem regBit_setField_apart (off v : Nat) {hi lo i : Nat} (h : lo ≤ hi) (h32 : hi < 32) (hap : i < lo ∨ hi < i) :
    (s.setField off hi lo v).regBit off i = s.regBit off i := by
  rw [regBit_setField s off v h h32, if_neg (by omega)]

/-- A bit that is written. -/
theorem regBit_setBit (off : Nat) {i : Nat} (h32 : i < 32) (b : Bool) : (s.setField off i i (if b then 1 else 0)).regBit off i = b := by
  rw [regBit_setField s off _ (Nat.le_refl i) h32, if_pos ⟨Nat.le_refl i, Nat.le_refl i⟩, Nat.sub_self]
  cases b <;> rfl

theorem regField_setField_other {a b : Nat} (hi lo v hi' lo' : Nat) (h : b ≠ a) :
    (s.setField a hi lo v).regField b hi' lo' = s.regField b hi' lo' := by
  rw [State.regField, reg_setField_other s hi lo v h]; rfl

theorem regBit_setField_other {a b : Nat} (hi lo v i : Nat) (h : b ≠ a) : (s.setField a hi lo v).regBit b i = s.regBit b i := by
  rw [State.regBit, reg_setField_other s hi lo v h]; rfl

theorem regField_lt (off hi lo : Nat) : s.regField off hi lo < 2 ^ (hi + 1 - lo) := Nat.mod_lt _ (Nat.two_pow_pos _)

end

section
variable {s t : State} {off : Nat} (h : t.reg off = s.reg off)
include h
theorem regField_of_reg (hi lo : Nat) : t.regField off hi lo = s.regField off hi lo := by rw [State.regField, h]; rfl
theorem regBit_of_reg (i : Nat) : t.regBit off i = s.regBit off i := by rw [State.regBit, h]; rfl
end

end Sys2Proof.Machine
end

section
/-! SUPPORT. Messages on the Lupin links: what sending one touches, and that a message put on a link stays in its queue or its retry
buffer (R472, R475, R476, R485, R489). -/
namespace Sys2Proof.Machine

theorem Calm.trans {a b c : State} (h : Calm a b) (k : Calm b c) : Calm a c :=
  ⟨k.1.trans h.1, k.2.1.trans h.2.1, k.2.2.1.trans h.2.2.1, k.2.2.2.trans h.2.2.2⟩

theorem Still.trans {a b c : State} (h : Still a b) (k : Still b c) : Still a c := ⟨h.1.trans k.1, k.2.trans h.2⟩

theorem Still.rfl {s : State} : Still s s := ⟨⟨Eq.refl _, Eq.refl _, Eq.refl _, Eq.refl _⟩, Eq.refl _⟩

/-- Nothing but the state of the links, the requests that wait at the port, the next TAGs and what is sent differs. -/
def LinksOnly (s t : State) : Prop := t = { s with lup := { s.lup with links := t.lup.links, port := t.lup.port, tags := t.lup.tags }, out := t.out }

theorem LinksOnly.rfl {s : State} : LinksOnly s s := by unfold LinksOnly; rfl

theorem LinksOnly.trans {a b c : State} (h : LinksOnly a b) (k : LinksOnly b c) : LinksOnly a c := by
  unfold LinksOnly at *; rw [k, h]

section
variable {s t : State} (h : LinksOnly s t)
include h
theorem LinksOnly.mem : t.mem = s.mem := by unfold LinksOnly at h; rw [h]
theorem LinksOnly.poison : t.poison = s.poison := by unfold LinksOnly at h; rw [h]
theorem LinksOnly.cores : t.cores = s.cores := by unfold LinksOnly at h; rw [h]
theorem LinksOnly.tasks : t.tasks = s.tasks := by unfold LinksOnly at h; rw [h]
theorem LinksOnly.llc : t.llc = s.llc := by unfold LinksOnly at h; rw [h]
theorem LinksOnly.regs : t.regs = s.regs := by unfold LinksOnly at h; rw [h]
theorem LinksOnly.host : t.host = s.host := by unfold LinksOnly at h; rw [h]
theorem LinksOnly.fw : t.fw = s.fw := by unfold LinksOnly at h; rw [h]
theorem LinksOnly.md : t.md = s.md := by unfold LinksOnly at h; rw [h]
theorem LinksOnly.adm : t.adm = s.adm := by unfold LinksOnly at h; rw [h]
theorem LinksOnly.ras : t.ras = s.ras := by unfold LinksOnly at h; rw [h]
theorem LinksOnly.clk : t.clk = s.clk := by unfold LinksOnly at h; rw [h]
theorem LinksOnly.modId : t.modId = s.modId := by unfold LinksOnly at h; rw [h]
theorem LinksOnly.routes : t.lup.routes = s.lup.routes := by unfold LinksOnly at h; rw [h]
theorem LinksOnly.failed : t.lup.failed = s.lup.failed := by unfold LinksOnly at h; rw [h]
theorem LinksOnly.failover : t.lup.failover = s.lup.failover := by unfold LinksOnly at h; rw [h]
theorem LinksOnly.members : t.lup.members = s.lup.members := by unfold LinksOnly at h; rw [h]
theorem LinksOnly.epoch : t.lup.epoch = s.lup.epoch := by unfold LinksOnly at h; rw [h]
theorem LinksOnly.old : t.lup.old = s.lup.old := by unfold LinksOnly at h; rw [h]
theorem LinksOnly.asks : t.lup.asks = s.lup.asks := by unfold LinksOnly at h; rw [h]
theorem LinksOnly.still : Still s t := ⟨⟨h.mem, h.poison, h.cores, h.tasks⟩, h.llc⟩
theorem LinksOnly.reg (off : Nat) : t.reg off = s.reg off := by rw [State.reg, h.regs]; rfl
theorem LinksOnly.routeTo (m : Nat) : routeTo t m = routeTo s m := by rw [Machine.routeTo, h.routes]; rfl
end

theorem emit_linksOnly (s : State) (o : Out) : LinksOnly s (s.emit o) := by unfold LinksOnly; rfl
theorem modLink_linksOnly (s : State) (l : Nat) (f : LLink → LLink) : LinksOnly s (s.modLink l f) := by unfold LinksOnly; rfl

/-- A message waits on a link, or has been sent over it and is not acknowledged. -/
def OnLink (s : State) (l : Nat) (m : LMsg) : Prop := m ∈ (s.link l).txq ∨ ∃ q, (q, m) ∈ (s.link l).retry

theorem sent_iff (t : State) (m : LMsg) : Sent t m ↔ ((routeTo t m.dst).1 ≠ 0 → OnLink t (routeTo t m.dst).1 m) := Iff.rfl

/-- Messages of link `l` go from its queue to its retry buffer, and nothing else of the links changes. -/
structure Pumps (s t : State) (l : Nat) : Prop where
  only : LinksOnly s t
  other : ∀ k, k ≠ l → t.link k = s.link k
  same : t.link l = { s.link l with used := (t.link l).used, txq := (t.link l).txq, retry := (t.link l).retry, txSeq := (t.link l).txSeq }
  retry : ∃ more, (t.link l).retry = (s.link l).retry ++ more
  held : ∀ m, OnLink s l m → OnLink t l m
  out : ∃ more, t.out = s.out ++ more

theorem Pumps.rfl {s : State} {l : Nat} : Pumps s s l :=
  ⟨.rfl, fun _ _ => Eq.refl _, Eq.refl _, ⟨[], by simp⟩, fun _ h => h, ⟨[], by simp⟩⟩

theorem Pumps.trans {a b c : State} {l : Nat} (h : Pumps a b l) (k : Pumps b c l) : Pumps a c l where
  only := h.only.trans k.only
  other j hj := (k.other j hj).trans (h.other j hj)
  same := by rw [k.same, h.same]
  retry := by
    obtain ⟨x, hx⟩ := h.retry
    obtain ⟨y, hy⟩ := k.retry
    exact ⟨x ++ y, by rw [hy, hx, List.append_assoc]⟩
  held m hm := k.held m (h.held m hm)
  out := by
    obtain ⟨x, hx⟩ := h.out
    obtain ⟨y, hy⟩ := k.out
    exact ⟨x ++ y, by rw [hy, hx, List.append_assoc]⟩

theorem Pumps.held_any {s t : State} {l : Nat} (h : Pumps s t l) {k : Nat} {m : LMsg} (hm : OnLink s k m) : OnLink t k m := by
  by_cases hk : k = l
  · exact hk ▸ h.held m (hk ▸ hm)
  · unfold OnLink; rw [h.other k hk]; exact hm

theorem drawCredit_eq {k k' : LLink} {c n : Nat} {e : Bool} (h : drawCredit k c e n = some k') : k' = { k with used := k'.used } := by
  unfold drawCredit at h
  split at h
  · rw [← Option.some.inj h]
  · split at h
    · rw [← Option.some.inj h]
    · exact absurd h nofun

/-- A message leaves the queue of its link for the retry buffer. -/
theorem sendOne_pumps (s : State) (l : Nat) (m : LMsg) {k : LLink} (o : Out) (hk : k = { s.link l with used := k.used }) :
    Pumps s ((s.modLink l (fun _ => { k with
      txq := k.txq.erase m, retry := k.retry ++ [(k.txSeq, m)], txSeq := (k.txSeq + 1) % 4096 })).emit o) l := by
  have hlink : ∀ (u : State) {j : Nat}, (u.emit o).link j = u.link j := fun _ => Eq.refl _
  have htx : k.txq = (s.link l).txq := by rw [hk]
  have hre : k.retry = (s.link l).retry := by rw [hk]
  refine ⟨(modLink_linksOnly ..).trans (emit_linksOnly ..), fun j hj => (hlink _).trans (link_modLink_other _ _ hj), ?_, ⟨[(k.txSeq, m)], ?_⟩, fun x hx => ?_, ⟨[o], rfl⟩⟩
  · rw [hlink, link_modLink_same, hk]
  · rw [hlink, link_modLink_same, hre]
  · unfold OnLink at *
    rw [hlink, link_modLink_same]
    dsimp only
    rw [htx, hre]
    obtain hx | ⟨q, hx⟩ := hx
    · by_cases hxm : x = m
      · exact .inr ⟨k.txSeq, by simp [hxm]⟩
      · exact .inl ((List.mem_erase_of_ne hxm).2 hx)
    · exact .inr ⟨q, List.mem_append_left _ hx⟩

theorem pumpLoop_pumps (l : Nat) (ms : List LMsg) (b : List Nat) (s : State) : Pumps s (pumpLoop l ms b s) l := by
  induction ms generalizing b s with
  | nil => exact .rfl
  | cons m ms ih =>
    rw [pumpLoop]
    dsimp only
    split
    · exact ih _ _
    · next k hk =>
      refine Pumps.trans (sendOne_pumps s l m _ ?_) (ih _ _)
      split at hk
      · exact absurd hk nofun
      · exact drawCredit_eq hk

theorem pumpLink_pumps (s : State) (l : Nat) : Pumps s (pumpLink s l) l := pumpLoop_pumps ..

/-- A message is put on link `l`: the queue takes it, and what is held stays held. -/
theorem sendOn_held (s : State) (l : Nat) (m : LMsg) : OnLink (sendOn s l m) l m :=
  (pumpLink_pumps ..).held m (.inl (by rw [link_modLink_same]; exact List.mem_append_right _ (List.mem_singleton.2 rfl)))

theorem sendOn_linksOnly (s : State) (l : Nat) (m : LMsg) : LinksOnly s (sendOn s l m) := (modLink_linksOnly ..).trans (pumpLink_pumps ..).only

theorem sendOn_mono (s : State) (l : Nat) (m : LMsg) {k : Nat} {x : LMsg} (h : OnLink s k x) : OnLink (sendOn s l m) k x := by
  refine (pumpLink_pumps ..).held_any ?_
  by_cases hk : k = l
  · subst hk
    unfold OnLink at *
    rw [link_modLink_same]
    exact h.imp (fun h => List.mem_append_left _ h) id
  · unfold OnLink
    rw [link_modLink_other _ _ hk]
    exact h

theorem sendMsg_eq (s : State) (m : LMsg) : sendMsg s m = if (routeTo s m.dst).1 = 0 then s else sendOn s (routeTo s m.dst).1 m := rfl

theorem sendMsg_linksOnly (s : State) (m : LMsg) : LinksOnly s (sendMsg s m) := by
  rw [sendMsg_eq]
  split
  · exact .rfl
  · exact sendOn_linksOnly ..

theorem sendMsg_out (s : State) (m : LMsg) : ∃ more, (sendMsg s m).out = s.out ++ more := by
  rw [sendMsg_eq]
  split
  · exact ⟨[], by simp⟩
  · exact (pumpLink_pumps ..).out

/-- A message that is sent waits on its route (R475, R489). -/
theorem sendMsg_sent (s : State) (m : LMsg) : Sent (sendMsg s m) m := by
  rw [sent_iff, (sendMsg_linksOnly s m).routeTo, sendMsg_eq]
  intro h
  rw [if_neg h]
  exact sendOn_held ..

theorem sendMsg_mono (s : State) (m : LMsg) {x : LMsg} (h : Sent s x) : Sent (sendMsg s m) x := by
  rw [sent_iff] at *
  rw [(sendMsg_linksOnly s m).routeTo, sendMsg_eq]
  intro hx
  split
  · exact h hx
  · exact sendOn_mono _ _ _ (h hx)

/-- What a message is does not depend on the links. -/
theorem Sent.congr {s t : State} {m : LMsg} (h : Sent s m) (hl : t.lup = s.lup) : Sent t m := by
  unfold Sent at *
  unfold routeTo State.link at *
  rw [hl]
  exact h

/-! ## Entries of the log send nothing but vector 0 (R466) -/

/-- An entry of severity 0 or 1 sends nothing. -/
theorem rasLog_out (s : State) (e : LogEv) (h : e.sev < 2) : (rasLog s e).out = s.out := by
  unfold rasLog rasLogT
  dsimp only
  rw [if_neg (by omega)]
  split <;> rfl

/-! ## The port (R487) -/

theorem takeTag_linksOnly (s : State) (dst : Nat) : LinksOnly s (takeTag s dst).2 := by unfold LinksOnly; rfl

theorem linksOnly_foldl {α : Type} {f : State → α → State} (hf : ∀ s a, LinksOnly s (f s a)) (l : List α) (s : State) :
    LinksOnly s (l.foldl f s) := by
  induction l generalizing s with
  | nil => exact .rfl
  | cons a l ih => exact (hf s a).trans (ih _)


theorem sendRequest_linksOnly (s : State) (m : LMsg) : LinksOnly s (sendRequest s m) := by
  unfold sendRequest
  split
  · exact sendMsg_linksOnly ..
  · unfold LinksOnly; rfl

theorem drainPort_linksOnly (s : State) (dst : Nat) : LinksOnly s (drainPort s dst) := by
  unfold drainPort
  split
  · exact .rfl
  · split
    · exact .rfl
    · refine LinksOnly.trans ?_ (sendMsg_linksOnly ..)
      unfold LinksOnly; rfl

theorem drainPort_out (s : State) (dst : Nat) : ∃ more, (drainPort s dst).out = s.out ++ more := by
  unfold drainPort
  split
  · exact ⟨[], by simp⟩
  · split
    · exact ⟨[], by simp⟩
    · exact sendMsg_out ..

end Sys2Proof.Machine
end

section
/-! SUPPORT. Answers of other modules, and requests that are never answered (R478, R480, R487, R489, R490, R494). -/
namespace Sys2Proof.Machine

/-! ## A message that passes its checks (R480) -/

/-- None of R480's reasons holds of a message for this module. -/
theorem rxReason_none {s : State} {m : LMsg} (hdst : m.dst = s.modId) (hlead : leadOnly m = false) (hfrom : fromLead m = false)
    (hshape : shapeOk m = true) (haddr : hasAddr m.typ = true → m.addr % 2 ^ m.size = 0 ∧ m.addr / 2 ^ 48 = m.dst)
    (hmap : offMap s m = false) : rxReason s m 0 = none := by
  unfold rxReason
  rw [if_neg (by simp [hlead, hfrom]), if_neg (by simp [hshape]), if_neg (by simp [hdst]), if_neg ?_]
  · rfl
  · rintro (h | ⟨h, h1 | h1⟩ | ⟨-, h⟩)
    · exact absurd h (by decide)
    · exact h1 (haddr h).1
    · exact h1 (haddr h).2
    · rw [hmap] at h; exact absurd h (by decide)

/-- An answer that has come is taken at once, whatever has come before. -/
theorem arriveMsg_answer {s : State} {link : Fin 8} {m : LMsg} {typ : Nat} (htyp : m.typ = typ) (hup : linkState s (link.val + 1) = 2)
    (hrx : rxReason s m 0 = none) (hdst : m.dst = s.modId) (hcls : msgClass typ = some 0) (f : State → Nat → State) :
    arriveMsg link m typ 0 s f = .next (f s (link.val + 1)) := by
  unfold arriveMsg
  rw [if_neg (not_not_intro htyp)]
  dsimp only
  rw [if_neg (not_not_intro (.inl hup)), show rxReason s m (0 : Fin 8).val = none from hrx]
  dsimp only
  rw [if_neg (not_not_intro hdst), if_pos hcls]

section
variable {s : State} {link : Fin 8} {m : LMsg}

theorem Comes.answers {typ : Nat} (h : Comes s link m typ) (hcls : msgClass typ = some 0) (hlead : leadOnly m = false)
    (hfrom : fromLead m = false) (hshape : shapeOk m = true) (haddr : hasAddr m.typ = false) (hmap : offMap s m = false)
    (f : State → Nat → State) : arriveMsg link m typ 0 s f = .next (f s (link.val + 1)) := by
  obtain ⟨htyp, hdst, -, hup⟩ := h
  exact arriveMsg_answer htyp hup (rxReason_none hdst hlead hfrom hshape (fun h => absurd (haddr ▸ h) (by decide)) hmap) hdst hcls f

/-- The four kinds of answers, with payloads of their types, pass the checks. -/
theorem Comes.rdresp (h : Comes s link m tRDRESP) {b : List Nat} (hp : m.pay = .data b) (hb : b.length = 2 ^ m.size) (f : State → Nat → State) :
    arriveMsg link m tRDRESP 0 s f = .next (f s (link.val + 1)) :=
  h.answers rfl (by rw [leadOnly, h.1]; rfl) (by rw [fromLead, hp]) (by simp [shapeOk, hp, hb, h.1, h.2.2.1]) (by rw [h.1]; rfl)
    (by rw [offMap, hp, h.1]; rfl) f

theorem Comes.ack (h : Comes s link m tACK) (hp : m.pay = .none) (f : State → Nat → State) :
    arriveMsg link m tACK 0 s f = .next (f s (link.val + 1)) :=
  h.answers rfl (by rw [leadOnly, h.1]; rfl) (by rw [fromLead, hp]) (by simp [shapeOk, hp, h.1, h.2.2.1]) (by rw [h.1]; rfl)
    (by rw [offMap, hp, h.1]; rfl) f

theorem Comes.atomresp (h : Comes s link m tATOMRESP) {v : Nat} {fl : Bool} (hp : m.pay = .value v fl) (f : State → Nat → State) :
    arriveMsg link m tATOMRESP 0 s f = .next (f s (link.val + 1)) :=
  h.answers rfl (by rw [leadOnly, h.1]; rfl) (by rw [fromLead, hp]) (by simp [shapeOk, hp, h.1, h.2.2.1]) (by rw [h.1]; rfl)
    (by rw [offMap, hp]) f

theorem Comes.nack (h : Comes s link m tNACK) (hp : m.pay = .none) (f : State → Nat → State) :
    arriveMsg link m tNACK 0 s f = .next (f s (link.val + 1)) :=
  h.answers rfl (by rw [leadOnly, h.1]; rfl) (by rw [fromLead, hp]) (by simp [shapeOk, hp, h.1, h.2.2.1]) (by rw [h.1]; rfl)
    (by rw [offMap, hp, h.1]; rfl) f

/-! ## The request that is answered (R487) -/

/-- The request is no longer awaited. -/
def ended (s : State) (r : RemReq) : State := { s with llc := { s.llc with remote := s.llc.remote.erase r } }

theorem takeAnswer_none (h : ∀ r, ¬ Asked s m r) : takeAnswer s m = s := by
  unfold takeAnswer
  split
  · next r _ hr _ => exact absurd hr (h r)
  · rfl

theorem takeAnswer_ignored (h : answerCause m = none) : takeAnswer s m = s := by
  unfold takeAnswer
  rw [h]
  split
  · next hc => exact absurd hc nofun
  · rfl

theorem takeAnswer_ok {r : RemReq} (hr : Asked s m r) (hc : answerCause m = some 0) :
    takeAnswer s m = drainPort (answerOk (ended s r) r.req r.nofill m) m.src := by
  unfold takeAnswer
  unfold Asked at hr
  rw [hr, hc]
  rfl

theorem takeAnswer_fault {r : RemReq} {cause : Nat} (hr : Asked s m r) (hc : answerCause m = some cause) (h0 : cause ≠ 0) :
    takeAnswer s m = drainPort (answerFault (ended s r) r.req cause m.status) m.src := by
  unfold takeAnswer
  unfold Asked at hr
  rw [hr, hc]
  dsimp only
  rw [if_neg h0]
  rfl

theorem answerCause_ok (htyp : m.typ ≠ tNACK) (hst : m.status = 0) : answerCause m = some 0 := by
  rw [answerCause, if_neg htyp, if_pos hst]

/-! ## What an answer does to its requester (R478, R489) -/

/-- A load's extended value, and the line that it brings for L1 (R478). -/
def loadResp (r : RemReq) (n : Nat) (sg uni al : Bool) (dst : Nat) (b : List Nat) : Resp :=
  ⟨r.req.id, r.req.group, r.req.thread, r.req.addr, n, extendVal n sg (leNat (if al then (b.drop (r.req.addr % 128)).take n else b.take n)), dst,
    sizeWords n, uni, false, none, if al && !r.nofill then b else []⟩

theorem answerOk_load (u : State) {r : RemReq} {b : List Nat} {n dst : Nat} {sg uni al : Bool} (hp : m.pay = .data b)
    (hk : r.req.kind = .load n sg uni al dst) : answerOk u r.req r.nofill m =
      u.modCore r.req.core (fun k => { k with resps := k.resps ++ [loadResp r n sg uni al dst b] }) := by
  unfold answerOk
  rw [hk, hp]
  unfold respond loadResp
  simp only [Bool.and_eq_true, Bool.not_eq_true', Bool.not_eq_true]

/-- Memory and tasks stay, and the request is no longer awaited. -/
def Ends (s t : State) (r : RemReq) : Prop := t.mem = s.mem ∧ t.tasks = s.tasks ∧ t.llc.remote = s.llc.remote.erase r

theorem Ends.drained {s u : State} {r : RemReq} {d : Nat} (h : Ends s u r) : Ends s (drainPort u d) r := by
  have k := drainPort_linksOnly u d
  obtain ⟨hm, ht, hr⟩ := h
  exact ⟨k.mem.trans hm, k.tasks.trans ht, by rw [k.llc, hr]⟩

theorem drainPort_core (u : State) (d c : Nat) : (drainPort u d).core c = u.core c := by
  rw [State.core, (drainPort_linksOnly u d).cores]; rfl

/-- What is sent before the port drains is sent. -/
theorem mem_out_drainPort {u : State} {d : Nat} {o : Out} (h : o ∈ u.out) : o ∈ (drainPort u d).out := by
  obtain ⟨more, hm⟩ := drainPort_out u d
  rw [hm]
  exact List.mem_append_left _ h

end

/-! ## The rows -/

/-- Data of the lead for a descriptor, or of a home for a request (R490). -/
def takeData (s : State) (m : LMsg) : State :=
  if m.src = 0 ∧ s.lup.asks.any (fun a => a.1 == m.tag) then takeDescriptor s m else takeAnswer s m

section
variable (s : State) (link : Fin 8) (m : LMsg)
theorem exec_rdresp_eq : exec (.rdresp link m 0) s = arriveMsg link m tRDRESP 0 s (fun s _ => takeData s m) := rfl
theorem exec_ack_eq : exec (.ack link m 0) s = arriveMsg link m tACK 0 s (fun s _ => takeAnswer s m) := rfl
theorem exec_atomresp_eq : exec (.atomresp link m 0) s = arriveMsg link m tATOMRESP 0 s (fun s _ => takeAnswer s m) := rfl
theorem exec_nack_eq : exec (.nack link m 0) s = arriveMsg link m tNACK 0 s (fun s _ => takeData s m) := rfl
end

/-- The message is for a request of this module, not for a descriptor that the lead reads. -/
def ForRequest (s : State) (m : LMsg) : Prop := ¬ (m.src = 0 ∧ s.lup.asks.any (fun a => a.1 == m.tag) = true)

theorem takeData_request {s : State} {m : LMsg} (h : ForRequest s m) : takeData s m = takeAnswer s m := if_neg h

/-! ## The statement -/

section
variable {s : State} {link : Fin 8} {m : LMsg} {r : RemReq}

/-- A response without a request is discarded (R487). -/
theorem exec_answer_unasked {p : Instr × Nat}
    (hp : p ∈ [(Instr.rdresp link m 0, tRDRESP), (.ack link m 0, tACK), (.atomresp link m 0, tATOMRESP), (.nack link m 0, tNACK)])
    (h : Arrives s link m p.2) (hown : ForRequest s m) (hr : ∀ r, ¬ Asked s m r) :
    exec p.1 s = .next s := by
  obtain ⟨htyp, hup, hrx, hdst, -⟩ := h
  have htake := takeAnswer_none hr
  simp only [List.mem_cons, List.mem_nil_iff, or_false] at hp
  obtain rfl | rfl | rfl | rfl := hp
  · rw [exec_rdresp_eq, arriveMsg_answer htyp hup hrx hdst rfl, takeData_request hown, htake]
  · rw [exec_ack_eq, arriveMsg_answer htyp hup hrx hdst rfl, htake]
  · rw [exec_atomresp_eq, arriveMsg_answer htyp hup hrx hdst rfl, htake]
  · rw [exec_nack_eq, arriveMsg_answer htyp hup hrx hdst rfl, takeData_request hown, htake]

/-- Data for a request of this module. -/
theorem exec_rdresp {b : List Nat} (h : Comes s link m tRDRESP) (hp : m.pay = .data b) (hb : b.length = 2 ^ m.size)
    (hown : ForRequest s m) : exec (.rdresp link m 0) s = .next (takeAnswer s m) := by
  rw [exec_rdresp_eq, h.rdresp hp hb, takeData_request hown]

theorem rdresp_load {b : List Nat} {n dst : Nat} {sg uni al : Bool} (h : Comes s link m tRDRESP) (hp : m.pay = .data b) (hb : b.length = 2 ^ m.size)
    (hown : ForRequest s m) (hr : Asked s m r) (hst : m.status = 0)
    (hk : r.req.kind = .load n sg uni al dst) : ∃ t, exec (.rdresp link m 0) s = .next t ∧ Ends s t r ∧
      Responded s t r.req.core (loadResp r n sg uni al dst b) := by
  refine ⟨_, exec_rdresp h hp hb hown, ?_⟩
  rw [takeAnswer_ok hr (answerCause_ok (by rw [h.1]; decide) hst), answerOk_load _ hp hk]
  refine ⟨Ends.drained ⟨rfl, rfl, rfl⟩, ?_⟩
  rw [Responded, drainPort_core, core_modCore_same]
  rfl

theorem rdresp_hostRd {b : List Nat} {off n : Nat} (h : Comes s link m tRDRESP) (hp : m.pay = .data b) (hb : b.length = 2 ^ m.size)
    (hown : ForRequest s m) (hr : Asked s m r) (hst : m.status = 0)
    (hk : r.req.kind = .hostRd off n) : ∃ t, exec (.rdresp link m 0) s = .next t ∧ Ends s t r ∧ t.cores = s.cores ∧
      Out.answer ((b.drop off).take n) false ∈ t.out := by
  refine ⟨_, exec_rdresp h hp hb hown, ?_⟩
  have hok : answerOk (ended s r) r.req r.nofill m = (ended s r).emit (.answer ((b.drop off).take n) false) := by
    unfold answerOk; rw [hk, hp]
  rw [takeAnswer_ok hr (answerCause_ok (by rw [h.1]; decide) hst), hok]
  exact ⟨Ends.drained ⟨rfl, rfl, rfl⟩, (drainPort_linksOnly ..).cores, mem_out_drainPort (List.mem_append_right _ (List.mem_singleton.2 rfl))⟩

theorem calm_drainPort {s u : State} {d : Nat} (h : Calm s u) : Calm s (drainPort u d) := by
  obtain ⟨hm, hp, hc, ht⟩ := h
  have k := drainPort_linksOnly u d
  exact ⟨k.mem.trans hm, k.poison.trans hp, k.cores.trans hc, k.tasks.trans ht⟩

theorem LogsOnly.host_eq {s t : State} (h : LogsOnly s t) : t.host = s.host := by unfold LogsOnly at h; rw [h]

/-- A host read that its home finds poisoned (R303). -/
theorem rdresp_poison {b : List Nat} {off n : Nat} (h : Comes s link m tRDRESP) (hp : m.pay = .data b) (hb : b.length = 2 ^ m.size)
    (hown : ForRequest s m) (hr : Asked s m r) (hst : m.status = 1)
    (hk : r.req.kind = .hostRd off n) : ∃ t, exec (.rdresp link m 0) s = .next t ∧ Ends s t r ∧ Calm s t ∧
      Out.answer (List.replicate n 0) true ∈ t.out := by
  refine ⟨_, exec_rdresp h hp hb hown, ?_⟩
  have hcause : answerCause m = some cPOISONED := by
    rw [answerCause, if_neg (by rw [h.1]; decide), if_neg (by omega), if_neg (by omega)]
  have hfault : answerFault (ended s r) r.req cPOISONED m.status = (countConsumed (ended s r) 14 r.req.addr).emit (.answer (List.replicate n 0) true) := by
    unfold answerFault; rw [hk]; dsimp only; rw [if_pos hst]
  rw [takeAnswer_fault hr hcause (by decide), hfault]
  have k := countConsumed_logsOnly (ended s r) 14 r.req.addr
  have hcalm : Calm s ((countConsumed (ended s r) 14 r.req.addr).emit (.answer (List.replicate n 0) true)) := k.still.1
  refine ⟨Ends.drained ⟨hcalm.1, hcalm.2.2.2, ?_⟩, calm_drainPort hcalm, mem_out_drainPort (List.mem_append_right _ (List.mem_singleton.2 rfl))⟩
  rw [emit_llc, k.llc]
  rfl

/-- A descriptor that the lead read for this module reaches the one that waits for it (R490). -/
theorem rdresp_descriptor {b : List Nat} {tag q i : Nat} (h : Comes s link m tRDRESP) (hp : m.pay = .data b) (hb : b.length = 2 ^ m.size)
    (hsrc : m.src = 0) (hask : s.lup.asks.find? (fun a => a.1 == m.tag) = some (tag, q, i)) (hst : m.status = 0) (hlen : b.length = descSize s q) :
    ∃ t, exec (.rdresp link m 0) s = .next t ∧ Calm s t ∧ t.lup.asks = s.lup.asks.filter (fun a => a.1 != tag) ∧
      t.adm.und = s.adm.und.map (fun u => if u.queue = q ∧ u.idx = i ∧ u.data = none then { u with data := some b } else u) := by
  refine ⟨takeData s m, (exec_rdresp_eq ..).trans (h.rdresp hp hb _), ?_⟩
  have hany : s.lup.asks.any (fun a => a.1 == m.tag) = true :=
    List.any_eq_true.2 ⟨_, List.mem_of_find?_eq_some hask, by have := List.find?_some hask; exact this⟩
  have htake : takeData s m = { s with
      lup := { s.lup with asks := s.lup.asks.filter (fun a => a.1 != tag) }
      adm := { s.adm with und := s.adm.und.map (fun u =>
        if u.queue = q ∧ u.idx = i ∧ u.data = none then { u with data := some b } else u) } } := by
    rw [takeData, if_pos ⟨hsrc, hany⟩, takeDescriptor, hask]
    dsimp only
    rw [hp]
    dsimp only
    rw [if_pos ⟨hst, hlen⟩]
  rw [htake]
  exact ⟨⟨rfl, rfl, rfl, rfl⟩, rfl, rfl⟩

/-- An acknowledgement of a store waits at its core (R133). -/
theorem ack_store {bs : List Nat} (h : Comes s link m tACK) (hp : m.pay = .none) (hst : m.status = 0) (hr : Asked s m r)
    (hk : r.req.kind = .store bs) : ∃ t, exec (.ack link m 0) s = .next t ∧ Ends s t r ∧
      (t.core r.req.core).acks = (s.core r.req.core).acks ++ [⟨r.req.group, r.req.thread, false, false, false, r.req.addr⟩] := by
  refine ⟨takeAnswer s m, (exec_ack_eq ..).trans (h.ack hp _), ?_⟩
  have hok : answerOk (ended s r) r.req r.nofill m = (ended s r).modCore r.req.core
      (fun k => { k with acks := k.acks ++ [⟨r.req.group, r.req.thread, false, false, false, r.req.addr⟩] }) := by
    unfold answerOk; rw [hk]
  rw [takeAnswer_ok hr (answerCause_ok (by rw [h.1]; decide) hst), hok]
  refine ⟨Ends.drained ⟨rfl, rfl, rfl⟩, ?_⟩
  rw [drainPort_core, core_modCore_same]
  rfl

/-- An atomic's old value, after which L1 holds no copy of the line (R159). -/
theorem atomresp_atom {v op n dst x c : Nat} {fl uni : Bool} (h : Comes s link m tATOMRESP) (hp : m.pay = .value v fl) (hst : m.status = 0)
    (hr : Asked s m r) (hk : r.req.kind = .atom op n uni dst x c) : ∃ t, exec (.atomresp link m 0) s = .next t ∧ Ends s t r ∧
      RespondedDropping s t r.req.core ⟨r.req.id, r.req.group, r.req.thread, r.req.addr, n, v, dst, sizeWords n, uni, false, none, []⟩ := by
  refine ⟨takeAnswer s m, (exec_atomresp_eq ..).trans (h.atomresp hp _), ?_⟩
  rw [takeAnswer_ok hr (answerCause_ok (by rw [h.1]; decide) hst)]
  have hok : ∃ log, answerOk (ended s r) r.req r.nofill m = (ended s r).modCore r.req.core (fun k => { l1Drop k (r.req.addr / 128) with
      resps := (l1Drop k (r.req.addr / 128)).resps ++
        [⟨r.req.id, r.req.group, r.req.thread, r.req.addr, n, v, dst, sizeWords n, uni, false, none, []⟩], atomLog := log }) := by
    unfold answerOk
    rw [hk, hp]
    unfold respond
    dsimp only
    rw [State.modCore, State.modCore, State.modCore]
    simp only [core_setCore_same, setCore_setCore]
    split
    · exact ⟨_, rfl⟩
    · exact ⟨_, rfl⟩
  obtain ⟨log, hok⟩ := hok
  rw [hok]
  refine ⟨Ends.drained ⟨rfl, rfl, rfl⟩, ?_⟩
  rw [RespondedDropping, drainPort_core, core_modCore_same]
  rfl

/-- A lock's grant, or that it could not be recorded, for a thread that waits for it (R127, R128). -/
theorem atomresp_lock {v p : Nat} {fl : Bool} (h : Comes s link m tATOMRESP) (hp : m.pay = .value v fl) (hst : m.status = 0)
    (hr : Asked s m r) (hk : r.req.kind = .lockAcq p) (hw : waitsFor s r.req.core r.req.group r.req.thread r.req.addr = true) :
    ∃ t, exec (.atomresp link m 0) s = .next t ∧ Ends s t r ∧ t.cores = s.cores ∧
      (fl = true → t.llc.wakes = s.llc.wakes ++ [⟨r.req.addr, r.req.core, r.req.group, r.req.thread, p, v == 1, none⟩]) ∧
      (fl = false → t.llc.unrecorded = s.llc.unrecorded ++ [⟨r.req.addr, r.req.core, r.req.group, r.req.thread, p, v == 1, none⟩]) := by
  refine ⟨takeAnswer s m, (exec_atomresp_eq ..).trans (h.atomresp hp _), ?_⟩
  rw [takeAnswer_ok hr (answerCause_ok (by rw [h.1]; decide) hst)]
  have hw' : waitsFor (ended s r) r.req.core r.req.group r.req.thread r.req.addr = true := hw
  have k := fun u => drainPort_linksOnly u m.src
  cases fl
  · have hok : answerOk (ended s r) r.req r.nofill m = { ended s r with llc := { (ended s r).llc with unrecorded := (ended s r).llc.unrecorded ++
        [⟨r.req.addr, r.req.core, r.req.group, r.req.thread, p, v == 1, none⟩] } } := by
      unfold answerOk; rw [hk, hp]; dsimp only; rw [if_neg (by decide), if_neg (not_not_intro hw')]
    rw [hok]
    exact ⟨Ends.drained ⟨rfl, rfl, rfl⟩, (k _).cores, nofun, fun _ => by rw [(k _).llc]; rfl⟩
  · have hok : answerOk (ended s r) r.req r.nofill m = { ended s r with llc := { (ended s r).llc with wakes := (ended s r).llc.wakes ++
        [⟨r.req.addr, r.req.core, r.req.group, r.req.thread, p, v == 1, none⟩] } } := by
      unfold answerOk; rw [hk, hp]; dsimp only; rw [if_pos rfl, if_pos hw']
    rw [hok]
    exact ⟨Ends.drained ⟨rfl, rfl, rfl⟩, (k _).cores, fun _ => by rw [(k _).llc]; rfl, nofun⟩

/-- A NACK whose reason names the access aborts the host's (R480). -/
theorem answerCause_nack (htyp : m.typ = tNACK) (h : m.reason = 1 ∨ m.reason = 4) : ∃ c, c ≠ 0 ∧ answerCause m = some c := by
  rw [answerCause, if_pos htyp]
  obtain h | h := h
  · exact ⟨cRIGHTS_FAULT, by decide, by rw [if_pos h]⟩
  · exact ⟨cWINDOW_FAULT, by decide, by rw [if_neg (by omega), if_pos h]⟩

theorem exec_nack (h : Comes s link m tNACK) (hp : m.pay = .none) (hown : ForRequest s m) : exec (.nack link m 0) s = .next (takeAnswer s m) := by
  rw [exec_nack_eq, h.nack hp, takeData_request hown]

theorem nack_hostRd {off n : Nat} (h : Comes s link m tNACK) (hp : m.pay = .none) (hown : ForRequest s m) (hr : Asked s m r)
    (hreason : m.reason = 1 ∨ m.reason = 4) (hst : m.status = 0) (hk : r.req.kind = .hostRd off n) :
    ∃ t, exec (.nack link m 0) s = .next t ∧ Ends s t r ∧ Calm s t ∧ Out.abort true ∈ t.out := by
  refine ⟨_, exec_nack h hp hown, ?_⟩
  obtain ⟨c, hc0, hc⟩ := answerCause_nack h.1 hreason
  have hfault : answerFault (ended s r) r.req c m.status = (ended s r).emit (.abort true) := by
    unfold answerFault; rw [hk]; dsimp only; rw [if_neg (by omega)]
  rw [takeAnswer_fault hr hc hc0, hfault]
  exact ⟨Ends.drained ⟨rfl, rfl, rfl⟩, calm_drainPort ⟨rfl, rfl, rfl, rfl⟩, mem_out_drainPort (List.mem_append_right _ (List.mem_singleton.2 rfl))⟩

theorem nack_hostWr (h : Comes s link m tNACK) (hp : m.pay = .none) (hown : ForRequest s m) (hr : Asked s m r)
    (hreason : m.reason = 1 ∨ m.reason = 4) (hk : r.req.kind = .hostWr) :
    ∃ t, exec (.nack link m 0) s = .next t ∧ Ends s t r ∧ Calm s t ∧ Out.abort false ∈ t.out := by
  refine ⟨_, exec_nack h hp hown, ?_⟩
  obtain ⟨c, hc0, hc⟩ := answerCause_nack h.1 hreason
  have hfault : answerFault (ended s r) r.req c m.status = (ended s r).emit (.abort false) := by unfold answerFault; rw [hk]
  rw [takeAnswer_fault hr hc hc0, hfault]
  exact ⟨Ends.drained ⟨rfl, rfl, rfl⟩, calm_drainPort ⟨rfl, rfl, rfl, rfl⟩, mem_out_drainPort (List.mem_append_right _ (List.mem_singleton.2 rfl))⟩

theorem nack_ignored (h : Comes s link m tNACK) (hp : m.pay = .none) (hown : ForRequest s m) (h1 : m.reason ≠ 1) (h4 : m.reason ≠ 4) :
    exec (.nack link m 0) s = .next s := by
  rw [exec_nack h hp hown, takeAnswer_ignored]
  rw [answerCause, if_pos h.1, if_neg h1, if_neg h4]

/-! ## Time-outs (R489, R494) -/

/-- A LOCK waits at its home as long as its module has a route. -/
def stillWaits (s : State) (module : Nat) (r : RemReq) : Bool :=
  match r.req.kind with
  | .lockAcq _ => reaches s module
  | _ => false

theorem stillWaits_iff (s : State) (module : Nat) (r : RemReq) :
    stillWaits s module r = true ↔ (∃ p, r.req.kind = .lockAcq p) ∧ reaches s module = true := by
  unfold stillWaits
  cases hk : r.req.kind <;> simp

variable {module : Fin 64} {tag : Fin 65536}

theorem remoteTimeout_waits (hr : s.llc.remote.find? (fun r => r.tag == tag.val && addrModule r.req.addr == module.val) = some r)
    (h : s.clk.tick < r.at_ + ticksPerMs ∨ stillWaits s module r = true) : exec (.remoteTimeout module tag) s = .next s := by
  show execRemoteTimeout module tag s = _
  unfold execRemoteTimeout
  rw [hr]
  exact congrArg _ (if_pos h.symm)

/-- What a request that is never answered leaves. -/
def timedOut (s : State) (module : Nat) (r : RemReq) : State :=
  match r.req.kind with
  | .hostRd _ _ => abortRead (drainPort (ended s r) module)
  | .hostWr => hostErr (drainPort (ended s r) module)
  | _ => stopCore (drainPort (ended s r) module) r.req.core rasCoreFault

theorem exec_remoteTimeout (hr : s.llc.remote.find? (fun r => r.tag == tag.val && addrModule r.req.addr == module.val) = some r)
    (hlate : r.at_ + ticksPerMs ≤ s.clk.tick) (hw : ¬ stillWaits s module r = true) :
    exec (.remoteTimeout module tag) s = .next (timedOut s module r) := by
  show execRemoteTimeout module tag s = _
  unfold execRemoteTimeout
  rw [hr]
  refine congrArg _ (if_neg ?_)
  rintro (h | h)
  · exact hw h
  · omega

theorem hostErr_logsOnly (s : State) : LogsOnly s (hostErr s) := rasLog_logsOnly ..
theorem hostErr_logged (s : State) : Logged s (hostErr s) 0x0606 := rasLog_logged s _ (by decide : 0x0606 < 2 ^ 16)

theorem Logged.of_same {s u t : State} {code : Nat} (h : Logged u t code) (hras : u.ras = s.ras) (hreg : u.reg rLogHead = s.reg rLogHead) :
    Logged s t code := by
  unfold Logged State.regField at *
  rwa [← hras, ← hreg]

/-- A core that stops for a replay touches its task and itself alone. -/
theorem stopCore_eq (s : State) (c code : Nat) : ∃ ts cs, stopCore s c code = { s with tasks := ts, cores := cs } := by
  obtain ⟨ts, hts⟩ := modCoreTask_eq s c (giveWay s.clk.tick)
  unfold stopCore
  split
  · rw [hts]; exact ⟨ts, _, rfl⟩
  · exact ⟨s.tasks, s.cores, rfl⟩

theorem stopCore_core_other (s : State) {c d : Nat} (code : Nat) (h : d ≠ c) : (stopCore s c code).core d = s.core d := by
  obtain ⟨ts, hts⟩ := modCoreTask_eq s c (giveWay s.clk.tick)
  unfold stopCore
  split
  · rw [core_modCore_other _ _ h, hts]; rfl
  · rfl

/-- The host hears of its own access alone (R489). -/
theorem timedOut_hostRd (s : State) (module : Nat) {r : RemReq} {off n : Nat} (hk : r.req.kind = .hostRd off n) :
    Calm s (timedOut s module r) ∧ Out.abort true ∈ (timedOut s module r).out ∧ Logged s (timedOut s module r) 0x0606 := by
  let u := drainPort (ended s r) module
  have k : LinksOnly (ended s r) u := drainPort_linksOnly ..
  have heq : timedOut s module r = hostErr (u.emit (.abort true)) := by unfold timedOut; rw [hk]; rfl
  have hlog := hostErr_logsOnly (u.emit (.abort true))
  have hcalm : Calm s (u.emit (.abort true)) := ⟨k.mem, k.poison, k.cores, k.tasks⟩
  obtain ⟨hm, hp, hc, ht⟩ := hcalm
  rw [heq]
  refine ⟨⟨hlog.mem.trans hm, hlog.poison.trans hp, hlog.cores.trans hc, hlog.tasks.trans ht⟩, ?_,
    (hostErr_logged _).of_same k.ras (k.reg rLogHead)⟩
  have hout : (hostErr (u.emit (.abort true))).out = (u.emit (.abort true)).out := rasLog_out _ _ (by show severity 0x0606 < 2; decide)
  rw [hout]
  exact List.mem_append_right _ (List.mem_singleton.2 rfl)

theorem timedOut_hostWr (s : State) (module : Nat) {r : RemReq} (hk : r.req.kind = .hostWr) :
    Calm s (timedOut s module r) ∧ Logged s (timedOut s module r) 0x0606 := by
  let u := drainPort (ended s r) module
  have k : LinksOnly (ended s r) u := drainPort_linksOnly ..
  have heq : timedOut s module r = hostErr u := by unfold timedOut; rw [hk]
  have hlog := hostErr_logsOnly u
  rw [heq]
  exact ⟨⟨hlog.mem.trans k.mem, hlog.poison.trans k.poison, hlog.cores.trans k.cores, hlog.tasks.trans k.tasks⟩,
    (hostErr_logged _).of_same k.ras (k.reg rLogHead)⟩

/-- Every other request stops the core of its rank (R489). -/
theorem timedOut_core (s : State) (module : Nat) {r : RemReq} (hrd : ∀ off n, r.req.kind ≠ .hostRd off n) (hwr : r.req.kind ≠ .hostWr) :
    timedOut s module r = stopCore (drainPort (ended s r) module) r.req.core rasCoreFault := by
  unfold timedOut
  split
  · next off n hk => exact absurd hk (hrd off n)
  · next hk => exact absurd hk hwr
  · rfl

theorem timedOut_stops (s : State) (module : Nat) {r : RemReq} (hrd : ∀ off n, r.req.kind ≠ .hostRd off n) (hwr : r.req.kind ≠ .hostWr)
    (htask : (s.core r.req.core).task.isSome = true) : ((timedOut s module r).core r.req.core).phase = .stopped ∧
      ((timedOut s module r).core r.req.core).fault = rasCoreFault ∧ ∀ c, c ≠ r.req.core → (timedOut s module r).core c = s.core c := by
  have hcore : ∀ c, (drainPort (ended s r) module).core c = s.core c := fun c => drainPort_core ..
  rw [timedOut_core s module hrd hwr]
  obtain ⟨hphase, hfault, -⟩ := stopCore_stopped (s := drainPort (ended s r) module) (c := r.req.core) (by rw [hcore]; exact htask) rasCoreFault
  exact ⟨hphase, hfault, fun c hc => (stopCore_core_other _ _ hc).trans (hcore c)⟩

theorem timedOut_ends (s : State) (module : Nat) (r : RemReq) : (timedOut s module r).mem = s.mem ∧
    (timedOut s module r).llc.remote = s.llc.remote.erase r := by
  have k := drainPort_linksOnly (ended s r) module
  have log : ∀ u, LogsOnly (drainPort (ended s r) module) u → u.mem = s.mem ∧ u.llc.remote = s.llc.remote.erase r := fun u hu =>
    ⟨hu.mem.trans k.mem, by rw [hu.llc, k.llc]; rfl⟩
  unfold timedOut
  split
  · exact log _ ((show LogsOnly (drainPort (ended s r) module) (State.emit _ _) by unfold LogsOnly; rfl).trans (hostErr_logsOnly _))
  · exact log _ (hostErr_logsOnly _)
  · obtain ⟨ts, cs, h⟩ := stopCore_eq (drainPort (ended s r) module) r.req.core rasCoreFault
    rw [h]
    exact ⟨k.mem, by rw [k.llc]; rfl⟩

end

/-- Settles O54: a request ends with its answer, whose effect the kind of the request gives; without a request nothing happens. -/
theorem answersReachTheirRequesters : Obligations.AnswersReachTheirRequesters := by
  unfold Obligations.AnswersReachTheirRequesters
  intro s link m
  refine ⟨fun p hp h hown hr => exec_answer_unasked hp h hown hr, fun b h hp hb hown r hr => ⟨fun hst n sg uni al dst hk => ?_,
    fun hst off n hk => rdresp_hostRd h hp hb hown hr hst hk, fun hst off n hk => rdresp_poison h hp hb hown hr hst hk⟩,
    fun tag q i b h hp hb hsrc hask hst hlen => rdresp_descriptor h hp hb hsrc hask hst hlen,
    fun r bs h hp hst hr hk => ack_store h hp hst hr hk,
    fun r v fl h hp hst hr => ⟨fun op n uni dst x c hk => atomresp_atom h hp hst hr hk, fun p hk hw => atomresp_lock h hp hst hr hk hw⟩,
    fun r h hp hown hr => ⟨fun hreason hst off n hk => nack_hostRd h hp hown hr hreason hst hk,
      fun hreason hk => nack_hostWr h hp hown hr hreason hk, fun h1 h4 => nack_ignored h hp hown h1 h4⟩,
    fun module tag r hr => ⟨fun h => ?_, fun hlate hw => ?_⟩⟩
  · exact rdresp_load h hp hb hown hr hst hk
  · exact remoteTimeout_waits hr (h.imp_right (stillWaits_iff s module r).2)
  · obtain ⟨hmem, hremote⟩ := timedOut_ends s module r
    exact ⟨_, exec_remoteTimeout hr hlate (fun h => hw ((stillWaits_iff s module r).1 h)), hmem, hremote, fun off n hk => timedOut_hostRd s module hk,
      fun hk => timedOut_hostWr s module hk, fun hrd hwr htask => timedOut_stops s module hrd hwr htask⟩

end Sys2Proof.Machine
end

section
/-! SUPPORT. The domain: what a new epoch, the failure of a link and a link that goes down leave (R479, R484 to R488). -/
namespace Sys2Proof.Machine

/-- The registers of the log, of LUP_REACH and LUP_DSTAT. -/
def DomainReg (off : Nat) : Prop :=
  (off = rLogHead ∨ off = rLogStat ∨ off = rAlert) ∨ (off = 0x02010104 ∨ off = 0x02010108) ∨ off = oLupDstat

/-- Nothing but the Lupin state, the log, interrupt messages, what is sent and the registers of the domain differs. -/
structure Domain (s t : State) : Prop where
  only : t = { s with lup := t.lup, regs := t.regs, ras := t.ras, msix := t.msix, out := t.out }
  reg : ∀ off, ¬ DomainReg off → t.reg off = s.reg off

theorem Domain.rfl {s : State} : Domain s s := ⟨Eq.refl _, fun _ _ => Eq.refl _⟩

theorem Domain.trans {a b c : State} (h : Domain a b) (k : Domain b c) : Domain a c :=
  ⟨by rw [k.only, h.only], fun off ho => (k.reg off ho).trans (h.reg off ho)⟩

theorem domain_foldl {α : Type} {f : State → α → State} (hf : ∀ s a, Domain s (f s a)) (l : List α) (s : State) : Domain s (l.foldl f s) := by
  induction l generalizing s with
  | nil => exact .rfl
  | cons a l ih => exact (hf s a).trans (ih _)

section
variable {s t : State} (h : Domain s t)
include h
theorem Domain.still : Still s t := by rw [h.only]; exact ⟨⟨Eq.refl _, Eq.refl _, Eq.refl _, Eq.refl _⟩, Eq.refl _⟩
theorem Domain.modId : t.modId = s.modId := by rw [h.only]
theorem Domain.clk : t.clk = s.clk := by rw [h.only]
theorem Domain.fw : t.fw = s.fw := by rw [h.only]
end

theorem LinksOnly.domain {s t : State} (h : LinksOnly s t) : Domain s t := by
  refine ⟨?_, fun off _ => h.reg off⟩
  unfold LinksOnly at h
  rw [h]

/-- Nothing but the registers of the log, the log and what it sends differs. -/
structure Logs (s t : State) : Prop where
  only : LogsOnly s t
  reg : ∀ off, ¬ (off = rLogHead ∨ off = rLogStat ∨ off = rAlert) → t.reg off = s.reg off

theorem Logs.domain {s t : State} (h : Logs s t) : Domain s t := by
  refine ⟨?_, fun off ho => h.reg off fun k => ho (.inl k)⟩
  have hl := h.only
  unfold LogsOnly at hl
  rw [hl]

theorem LogsOnly.lup {s t : State} (h : LogsOnly s t) : t.lup = s.lup := by unfold LogsOnly at h; rw [h]

theorem rasLog_logs (s : State) (e : LogEv) : Logs s (rasLog s e) :=
  ⟨rasLog_logsOnly s e, fun _ h => reg_rasLog_other s e (fun k => h (.inl k)) (fun k => h (.inr (.inl k))) (fun k => h (.inr (.inr k)))⟩

theorem lupLog_logs (s : State) (code sev l : Nat) : Logs s (lupLog s code sev l) := rasLog_logs ..
theorem lupLog_logged (s : State) {code : Nat} (sev l : Nat) (h : code < 2 ^ 16) : Logged s (lupLog s code sev l) code := rasLog_logged s _ h

/-! ## LUP_REACH (R488) -/

/-- Only registers of the domain other than LUP_DSTAT, and the log. -/
structure Reaches (s t : State) : Prop where
  only : LogsOnly s t
  reg : ∀ off, ¬ ((off = rLogHead ∨ off = rLogStat ∨ off = rAlert) ∨ off = 0x02010104 ∨ off = 0x02010108) → t.reg off = s.reg off

theorem reachStep_reaches (s : State) (m : Nat) : Reaches s (reachStep s m) := by
  have hset : ∀ v, Reaches s (s.setField (reachOff m) (m % 32) (m % 32) v) := fun v =>
    ⟨setField_logsOnly .., fun off ho => reg_setField_other s _ _ v fun h => ho (.inr (by
      rw [h, reachOff]; split
      · exact .inl rfl
      · exact .inr rfl))⟩
  unfold reachStep
  dsimp only
  split
  · have hlog := lupLog_logs (s.setField (reachOff m) (m % 32) (m % 32)
      (if (m == s.modId || (s.lup.members.contains m && (routeTo s m).1 != 0 && decide ((routeTo s m).2 ≤ 8))) then 1 else 0)) 0x06F4 2
      (tget (0, 0xF) s.lup.old m).1
    exact ⟨(hset _).only.trans hlog.only, fun off ho => (hlog.reg off fun k => ho (.inl k)).trans ((hset _).reg off ho)⟩
  · exact hset _

theorem refreshReach_reaches (s : State) : Reaches s (refreshReach s) := by
  unfold refreshReach
  generalize List.range 64 = l
  induction l generalizing s with
  | nil => exact ⟨.rfl, fun _ _ => rfl⟩
  | cons a l ih =>
    have h := reachStep_reaches s a
    have k := ih (reachStep s a)
    exact ⟨h.only.trans k.only, fun off ho => (k.reg off ho).trans (h.reg off ho)⟩

theorem Reaches.domain {s t : State} (h : Reaches s t) : Domain s t := by
  refine ⟨?_, fun off ho => h.reg off fun k => ho (k.imp_right .inl)⟩
  have hl := h.only
  unfold LogsOnly at hl
  rw [hl]

/-! ## A new epoch (R486) -/

theorem reroute_linksOnly (s : State) (l : Nat) : LinksOnly s (reroute s l) :=
  (modLink_linksOnly ..).trans (linksOnly_foldl (fun _ _ => sendMsg_linksOnly ..) _ _)

/-- What a new epoch with a table of routes is. -/
structure Epoch (s t : State) (routes : Tab (Nat × Nat)) : Prop where
  domain : Domain s t
  epoch : t.lup.epoch = !s.lup.epoch
  routes : t.lup.routes = tset (0, 0xF) routes s.modId (0, 0)
  old : t.lup.old = s.lup.routes
  failed : t.lup.failed = s.lup.failed
  failover : t.lup.failover = s.lup.failover
  members : t.lup.members = s.lup.members
  parity : t.regBit oLupDstat 15 = !s.lup.epoch
  ready : t.regBit oLupDstat 16 = false
  dstat : ∀ i, i ≠ 15 → i ≠ 16 → t.regBit oLupDstat i = s.regBit oLupDstat i

theorem newEpoch_epoch (s : State) (routes : Tab (Nat × Nat)) : Epoch s (newEpoch s routes) routes := by
  let s1 : State := { s with lup := { s.lup with old := s.lup.routes, routes := tset (0, 0xF) routes s.modId (0, 0), epoch := !s.lup.epoch } }
  let s2 : State := (s1.setField oLupDstat 15 15 (if s1.lup.epoch then 1 else 0)).setField oLupDstat 16 16 0
  let s3 : State := refreshReach (lupLog s2 0x06F3 0 0)
  let t : State := (allLinks.filter (fun l => linkState s3 l != 2)).foldl reroute s3
  have ht : newEpoch s routes = t := rfl
  have hlog : Logs s2 (lupLog s2 0x06F3 0 0) := lupLog_logs ..
  have hreach : Reaches (lupLog s2 0x06F3 0 0) s3 := refreshReach_reaches _
  have hre : LinksOnly s3 t := linksOnly_foldl (fun _ _ => reroute_linksOnly ..) _ _
  have hlup : s3.lup = s1.lup := hreach.only.lup.trans hlog.only.lup
  have hbit : ∀ i, t.regBit oLupDstat i = s2.regBit oLupDstat i := fun i => regBit_of_reg
    ((hre.reg _).trans ((hreach.reg _ (by decide)).trans (hlog.reg _ (by decide)))) i
  have h12 : Domain s s2 := ⟨rfl, fun off ho => (reg_setField_other _ _ _ _ fun h => ho (.inr (.inr h))).trans
    (reg_setField_other _ _ _ _ fun h => ho (.inr (.inr h)))⟩
  rw [ht]
  refine ⟨h12.trans (hlog.domain.trans (hreach.domain.trans hre.domain)), hre.epoch.trans (by rw [hlup]), hre.routes.trans (by rw [hlup]),
    hre.old.trans (by rw [hlup]), hre.failed.trans (by rw [hlup]), hre.failover.trans (by rw [hlup]), hre.members.trans (by rw [hlup]),
    ?_, ?_, fun i h15 h16 => ?_⟩
  · rw [hbit, regBit_setField_apart _ _ _ (by decide) (by decide) (by decide)]
    exact regBit_setBit _ _ (by decide) (!s.lup.epoch)
  · rw [hbit]
    exact regBit_setBit _ _ (by decide) false
  · rw [hbit, regBit_setField_apart _ _ _ (by decide) (by decide) (by omega), regBit_setField_apart _ _ _ (by decide) (by decide) (by omega)]
    rfl

theorem Epoch.routeTo_other {s t : State} {routes : Tab (Nat × Nat)} (h : Epoch s t routes) {d : Nat} (hd : d ≠ s.modId) :
    routeTo t d = tget (0, 0xF) routes d := by rw [routeTo, h.routes, tget_tset_other _ _ _ hd]

/-! ## The failure of a link (R486) -/

theorem flood_linksOnly (s : State) (module link but : Nat) : LinksOnly s (flood s module link but) :=
  linksOnly_foldl (fun _ _ => (takeTag_linksOnly ..).trans (sendOn_linksOnly ..)) _ _

theorem knownFailure_congr {s t : State} (hf : t.lup.failed = s.lup.failed) (ho : t.lup.failover = s.lup.failover) (key : Nat) :
    knownFailure t key = knownFailure s key := by
  unfold knownFailure sameLink
  rw [hf, ho]

theorem LinksOnly.knownFailure {s t : State} (h : LinksOnly s t) (key : Nat) : knownFailure t key = knownFailure s key :=
  knownFailure_congr h.failed h.failover key

theorem failTo_known {s : State} {key : Nat} (h : knownFailure s key = true) : failTo s key = s := if_pos h

/-- The failure is noted, and the routes switch at once where the lead's tables are in place. -/
def noteFailure (s : State) (key : Nat) : State :=
  { s with lup := { s.lup with failed := s.lup.failed ++ [(key, s.regBit oLupDstat 16)] } }

theorem failTo_waits {s : State} {key : Nat} (h : knownFailure s key = false) (hr : s.regBit oLupDstat 16 = false) :
    failTo s key = noteFailure s key := by
  unfold failTo
  rw [if_neg (by rw [h]; decide)]
  dsimp only
  rw [if_neg (by rw [hr]; decide)]
  rfl

theorem failTo_switches {s : State} {key : Nat} (h : knownFailure s key = false) (hr : s.regBit oLupDstat 16 = true) :
    failTo s key = newEpoch (noteFailure s key) (tget [] s.lup.failover key) := by
  unfold failTo
  rw [if_neg (by rw [h]; decide)]
  dsimp only
  rw [if_pos hr]
  rfl

theorem noteFailure_domain (s : State) (key : Nat) : Domain s (noteFailure s key) := ⟨rfl, fun _ _ => rfl⟩

theorem failTo_domain (s : State) (key : Nat) : Domain s (failTo s key) := by
  cases hk : knownFailure s key
  · cases hr : s.regBit oLupDstat 16
    · rw [failTo_waits hk hr]; exact noteFailure_domain s key
    · rw [failTo_switches hk hr]; exact (noteFailure_domain s key).trans (newEpoch_epoch ..).domain
  · rw [failTo_known hk]; exact .rfl

/-- What a failure that switches the routes leaves. -/
structure Switched (s t : State) (key : Nat) : Prop where
  domain : Domain s t
  epoch : t.lup.epoch = !s.lup.epoch
  parity : t.regBit oLupDstat 15 = t.lup.epoch
  ready : t.regBit oLupDstat 16 = false
  old : t.lup.old = s.lup.routes
  failed : t.lup.failed = s.lup.failed ++ [(key, true)]
  failover : t.lup.failover = s.lup.failover
  route : ∀ d, d ≠ s.modId → routeTo t d = tget (0, 0xF) (tget [] s.lup.failover key) d

theorem failTo_switched {s : State} {key : Nat} (h : knownFailure s key = false) (hr : s.regBit oLupDstat 16 = true) :
    Switched s (failTo s key) key := by
  rw [failTo_switches h hr]
  have he := newEpoch_epoch (noteFailure s key) (tget [] s.lup.failover key)
  exact ⟨(noteFailure_domain s key).trans he.domain, he.epoch, he.parity.trans he.epoch.symm, he.ready, he.old,
    he.failed.trans (by rw [noteFailure, hr]), he.failover, fun d hd => he.routeTo_other hd⟩

theorem failTo_routes {s : State} {key : Nat} (h : knownFailure s key = true ∨ s.regBit oLupDstat 16 = false) :
    (failTo s key).lup.routes = s.lup.routes := by
  cases hk : knownFailure s key
  · rw [failTo_waits hk (h.resolve_left (by rw [hk]; decide))]; rfl
  · rw [failTo_known hk]

/-- The same after the links have carried the news (R486 step 2). -/
theorem Switched.of_links {s u t : State} {key : Nat} (h : LinksOnly s u) (k : Switched u t key) : Switched s t key where
  domain := h.domain.trans k.domain
  epoch := k.epoch.trans (by rw [h.epoch])
  parity := k.parity
  ready := k.ready
  old := k.old.trans h.routes
  failed := k.failed.trans (by rw [h.failed])
  failover := k.failover.trans h.failover
  route d hd := (k.route d (by rw [h.modId]; exact hd)).trans (by rw [h.failover])

theorem flood_failTo_domain (s : State) (module link but key : Nat) : Domain s (failTo (flood s module link but) key) :=
  (flood_linksOnly ..).domain.trans (failTo_domain ..)

theorem flood_failTo_switched {s : State} {key : Nat} (module link but : Nat) (h : knownFailure s key = false) (hr : s.regBit oLupDstat 16 = true) :
    Switched s (failTo (flood s module link but) key) key :=
  have hf := flood_linksOnly s module link but
  .of_links hf (failTo_switched ((hf.knownFailure key).trans h) ((regBit_of_reg (hf.reg _) 16).trans hr))

theorem flood_failTo_routes {s : State} {key : Nat} (module link but : Nat) (h : knownFailure s key = true ∨ s.regBit oLupDstat 16 = false) :
    (failTo (flood s module link but) key).lup.routes = s.lup.routes :=
  have hf := flood_linksOnly s module link but
  (failTo_routes (h.imp (hf.knownFailure key).trans (regBit_of_reg (hf.reg _) 16).trans)).trans hf.routes

end Sys2Proof.Machine
end

section
/-! SUPPORT. Links that train, lose lanes, go down and obey their controls (R477 to R486, R493, R494, R548). -/
namespace Sys2Proof.Machine

/-! ## Registers of a link -/

section
variable {l : Nat} (h : l ≤ 8)
include h
theorem rLstat_apart : ¬ DomainReg (rLstat l) := by
  simp only [DomainReg, rLstat, rLogHead, rLogStat, rAlert, oLupDstat]; omega
theorem rLerr_apart : ¬ DomainReg (rLerr l) := by
  simp only [DomainReg, rLerr, rLogHead, rLogStat, rAlert, oLupDstat]; omega
theorem rLctl_apart : ¬ DomainReg (rLctl l) := by
  simp only [DomainReg, rLctl, rLogHead, rLogStat, rAlert, oLupDstat]; omega
end

theorem rLstat_ne_rLerr (l : Nat) : rLstat l ≠ rLerr l := by simp only [rLstat, rLerr]; omega
theorem rLstat_ne_rLctl (l : Nat) : rLstat l ≠ rLctl l := by simp only [rLstat, rLctl]; omega

theorem linkState_of_reg {s t : State} {l : Nat} (h : t.reg (rLstat l) = s.reg (rLstat l)) : linkState t l = linkState s l := regField_of_reg h 2 0

theorem lanesUp_of_reg {s t : State} {l : Nat} (h : t.reg (rLstat l) = s.reg (rLstat l)) : lanesUp t l = lanesUp s l := by
  unfold lanesUp State.regBit; rw [h]

theorem Domain.linkState {s t : State} (h : Domain s t) {l : Nat} (hl : l ≤ 8) : linkState t l = linkState s l :=
  linkState_of_reg (h.reg _ (rLstat_apart hl))

theorem Domain.lanesUp {s t : State} (h : Domain s t) {l : Nat} (hl : l ≤ 8) : lanesUp t l = lanesUp s l :=
  lanesUp_of_reg (h.reg _ (rLstat_apart hl))

theorem linkState_setState (s : State) (l : Nat) {v : Nat} (hv : v < 8) : linkState (s.setField (rLstat l) 2 0 v) l = v :=
  (regField_setField s _ v (by decide) (by decide)).trans (Nat.mod_eq_of_lt hv)

/-! ## A link that goes down (R479) -/

/-- The link's registers as it goes down. -/
def lowered (s : State) (l st : Nat) : State :=
  (((s.setField (rLstat l) 2 0 st).setField (rLstat l) 7 4 0).setField (rLstat l) 15 15 0).modLink l
    (fun k => { k with used := [], owed := [], naking := false, nakRun := 0 })

section
variable (s : State) (l : Nat)

theorem lowered_reg_other (st : Nat) {off : Nat} (h : off ≠ rLstat l) : (lowered s l st).reg off = s.reg off :=
  (modLink_linksOnly _ l _ |>.reg off).trans
    ((reg_setField_other _ _ _ _ h).trans ((reg_setField_other _ _ _ _ h).trans (reg_setField_other _ _ _ _ h)))

theorem lowered_still (st : Nat) : Still s (lowered s l st) :=
  (setField_logsOnly s _ 2 0 st).still.trans ((setField_logsOnly _ _ 7 4 0).still.trans ((setField_logsOnly _ _ 15 15 0).still.trans
    (modLink_linksOnly _ l _).still))

theorem lowered_linkState {st : Nat} (h : st < 8) : linkState (lowered s l st) l = st := by
  rw [lowered, linkState_of_reg ((modLink_linksOnly _ l _).reg _)]
  rw [linkState, regField_setField_apart _ _ _ (by decide) (by decide) (by decide), regField_setField_apart _ _ _ (by decide) (by decide) (by decide)]
  exact linkState_setState s l h

theorem lowered_lanesUp (st : Nat) : lanesUp (lowered s l st) l = 0 := by
  have hbit : ∀ n, n < 4 → (lowered s l st).regBit (rLstat l) (4 + n) = false := fun n hn => by
    rw [lowered, regBit_of_reg ((modLink_linksOnly _ l _).reg _), regBit_setField_apart _ _ _ (by decide) (by decide) (by omega),
      regBit_setField _ _ _ (by decide) (by decide), if_pos (by omega)]
    exact Nat.zero_testBit _
  rw [lanesUp, List.length_eq_zero_iff, List.filter_eq_nil_iff]
  intro n hn
  rw [hbit n (List.mem_range.1 hn)]
  decide

theorem lowerLink_eq (st sev : Nat) : lowerLink s l st sev =
    if linkState s l = 2 ∨ linkState s l = 3 then
      (if linkState s l = 2 then dropFromRoutes (lupLog (lowered s l st) 0x06F1 sev l) l else lupLog (lowered s l st) 0x06F1 sev l)
    else lowered s l st := rfl

theorem lowerLink_domain (st sev : Nat) : Domain (lowered s l st) (lowerLink s l st sev) := by
  rw [lowerLink_eq]
  split
  · split
    · exact (lupLog_logs ..).domain.trans (flood_failTo_domain ..)
    · exact (lupLog_logs ..).domain
  · exact .rfl

variable {s l}

theorem lowerLink_still (st sev : Nat) : Still s (lowerLink s l st sev) :=
  (lowered_still s l st).trans (lowerLink_domain s l st sev).still

theorem lowerLink_reg {st sev off : Nat} (hoff : ¬ DomainReg off) (h : off ≠ rLstat l) : (lowerLink s l st sev).reg off = s.reg off :=
  ((lowerLink_domain s l st sev).reg off hoff).trans (lowered_reg_other s l st h)

variable (hl : l ≤ 8)
include hl

theorem lowerLink_linkState {st : Nat} (sev : Nat) (h : st < 8) : linkState (lowerLink s l st sev) l = st :=
  ((lowerLink_domain s l st sev).linkState hl).trans (lowered_linkState s l h)

theorem lowerLink_lanesUp (st sev : Nat) : lanesUp (lowerLink s l st sev) l = 0 :=
  ((lowerLink_domain s l st sev).lanesUp hl).trans (lowered_lanesUp s l st)

/-- The routes switch when the link was up and its failure is new (R486). -/
theorem lowerLink_switched (st sev : Nat) (hup : linkState s l = 2) (hr : s.regBit oLupDstat 16 = true)
    (hk : knownFailure s (16 * s.modId + l) = false) : Switched (lowered s l st) (lowerLink s l st sev) (16 * s.modId + l) := by
  have hlog := lupLog_logs (lowered s l st) 0x06F1 sev l
  have hlup : (lupLog (lowered s l st) 0x06F1 sev l).lup = (lowered s l st).lup := hlog.only.lup
  have hmod : (lupLog (lowered s l st) 0x06F1 sev l).modId = s.modId := hlog.domain.modId
  rw [lowerLink_eq, if_pos (.inl hup), if_pos hup, dropFromRoutes, hmod]
  have hd : ∀ off, oLupDstat = off → (lupLog (lowered s l st) 0x06F1 sev l).reg off = s.reg off := fun off ho => by
    subst ho
    exact (hlog.reg _ (by decide)).trans (lowered_reg_other s l st (fun h => rLstat_apart hl (h ▸ .inr (.inr rfl))))
  have k := flood_failTo_switched (s := lupLog (lowered s l st) 0x06F1 sev l) (key := 16 * s.modId + l) s.modId l l
    ((knownFailure_congr (s := s) (by rw [hlup]; rfl) (by rw [hlup]; rfl) _).trans hk) ((regBit_of_reg (hd _ rfl) 16).trans hr)
  exact ⟨hlog.domain.trans k.domain, k.epoch.trans (by rw [hlup]), k.parity, k.ready, k.old.trans (by rw [hlup]), k.failed.trans (by rw [hlup]),
    k.failover.trans (by rw [hlup]), fun d hd => (k.route d (by rw [hmod]; exact hd)).trans (by rw [hlup])⟩

theorem lowerLink_routes (st sev : Nat)
    (h : linkState s l ≠ 2 ∨ s.regBit oLupDstat 16 = false ∨ knownFailure s (16 * s.modId + l) = true) :
    (lowerLink s l st sev).lup.routes = s.lup.routes := by
  have hlog := lupLog_logs (lowered s l st) 0x06F1 sev l
  have hlup : (lupLog (lowered s l st) 0x06F1 sev l).lup = (lowered s l st).lup := hlog.only.lup
  have hmod : (lupLog (lowered s l st) 0x06F1 sev l).modId = s.modId := hlog.domain.modId
  rw [lowerLink_eq]
  split
  · split
    · next hup =>
      have h := h.resolve_left (not_not_intro hup)
      have hd : (lupLog (lowered s l st) 0x06F1 sev l).reg oLupDstat = s.reg oLupDstat :=
        (hlog.reg _ (by decide)).trans (lowered_reg_other s l st (fun h => rLstat_apart hl (h ▸ .inr (.inr rfl))))
      rw [dropFromRoutes, hmod]
      refine (flood_failTo_routes _ _ _ ?_).trans (by rw [hlup]; rfl)
      exact h.symm.imp (knownFailure_congr (s := s) (by rw [hlup]; rfl) (by rw [hlup]; rfl) _).trans (regBit_of_reg hd 16).trans
    · rw [hlup]; rfl
  · rfl

end

end Sys2Proof.Machine
end

section
namespace Sys2Proof.Machine

/-! ## Training (R477, R478, R482) -/

/-- What LUP_LSTAT holds of a link that trains. -/
def trainedWord (fa slow : Bool) (lanes peer : Nat) : Nat :=
  1 + (if fa ∨ slow then 8 else 0) + 16 * lanes + 256 * peer + (if fa then 2 ^ 14 else 0)

section
variable (fa slow : Bool) {lanes peer : Nat}
theorem trainedWord_lt (hl : lanes < 16) (hp : peer < 64) : trainedWord fa slow lanes peer < 2 ^ 32 := by
  unfold trainedWord; split <;> split <;> omega
theorem trainedWord_state : nbits (trainedWord fa slow lanes peer) 2 0 = 1 := by
  simp only [nbits, Nat.shiftRight_eq_div_pow, trainedWord]; split <;> split <;> omega
theorem trainedWord_lanes (hl : lanes < 16) : nbits (trainedWord fa slow lanes peer) 7 4 = lanes := by
  simp only [nbits, Nat.shiftRight_eq_div_pow, trainedWord]; split <;> split <;> omega
theorem trainedWord_peer (hl : lanes < 16) (hp : peer < 64) : nbits (trainedWord fa slow lanes peer) 13 8 = peer := by
  simp only [nbits, Nat.shiftRight_eq_div_pow, trainedWord]; split <;> split <;> omega
theorem trainedWord_slow : (trainedWord fa slow lanes peer).testBit 3 = (fa || slow) := by
  rw [Nat.testBit_eq_decide_div_mod_eq, trainedWord]
  cases fa <;> cases slow <;> simp <;> omega
theorem trainedWord_fa (hl : lanes < 16) (hp : peer < 64) : (trainedWord fa slow lanes peer).testBit 14 = fa := by
  rw [Nat.testBit_eq_decide_div_mod_eq, trainedWord]
  cases fa <;> cases slow <;> simp <;> omega
end

theorem regField_setReg_same (s : State) (off : Nat) {n : Nat} (h : n < 2 ^ 32) (hi lo : Nat) :
    (s.setReg off (BitVec.ofNat 32 n)).regField off hi lo = nbits n hi lo := by
  rw [State.regField, bits_eq_nbits, reg_setReg_same, BitVec.toNat_ofNat, Nat.mod_eq_of_lt h]

theorem regBit_setReg_same (s : State) (off : Nat) {n : Nat} (h : n < 2 ^ 32) (i : Nat) :
    (s.setReg off (BitVec.ofNat 32 n)).regBit off i = n.testBit i := by
  rw [regBit_eq, reg_setReg_same, BitVec.toNat_ofNat, Nat.mod_eq_of_lt h]

/-- The link as it trains with a partner. -/
def trained (s : State) (l : Nat) (fa slow : Bool) (lanes peer : Nat) : State :=
  ((s.setReg (rLstat l) (BitVec.ofNat 32 (trainedWord fa slow lanes peer))).setField (rLerr l) 31 16 0).modLink l
    (fun k => { LLink.fresh with txq := k.retry.map (·.2) ++ k.txq })

theorem trained_reg (s : State) (l : Nat) (fa slow : Bool) (lanes peer : Nat) :
    (trained s l fa slow lanes peer).reg (rLstat l) = (s.setReg (rLstat l) (BitVec.ofNat 32 (trainedWord fa slow lanes peer))).reg (rLstat l) :=
  ((modLink_linksOnly ..).reg _).trans (reg_setField_other _ _ _ _ (rLstat_ne_rLerr l))

theorem trained_still (s : State) (l : Nat) (fa slow : Bool) (lanes peer : Nat) : Still s (trained s l fa slow lanes peer) :=
  (setReg_logsOnly ..).still.trans ((setField_logsOnly ..).still.trans (modLink_linksOnly ..).still)

/-- A link that may train (R477). -/
theorem execLinkTraining_eq {s : State} {link : Fin 8} (peer : Fin 64) (fa : Bool) (lanes : Fin 16) (slow : Bool) (hrun : s.clk.run = true)
    (hoff : s.md.off = false) (hdown : procDown s 3 = false) (hdis : s.regBit (rLctl (link.val + 1)) 0 = false)
    (hst : linkState s (link.val + 1) = 0 ∨ linkState s (link.val + 1) = 1) :
    exec (.linkTraining link peer fa lanes slow) s = .next
      (if ((List.range 4).filter (fun n => nbit lanes n)).length < 3 then s.setField (rLstat (link.val + 1)) 2 0 0
       else if peer.val = s.modId then lupLog (s.setField (rLstat (link.val + 1)) 2 0 0) 0x06F6 2 (link.val + 1)
       else trained s (link.val + 1) fa slow lanes peer) :=
  congrArg Host.Outcome.next (if_neg (by
    rintro (h | h | h | h | h)
    · exact h hrun
    · rw [hoff] at h; exact absurd h nofun
    · rw [hdown] at h; exact absurd h nofun
    · rw [hdis] at h; exact absurd h nofun
    · exact h hst))

/-- The LinksTrainAndFail clause of LINK_TRAINING. -/
theorem linkTraining_trains {s : State} {link : Fin 8} (peer : Fin 64) (fa : Bool) (lanes : Fin 16) (slow : Bool) (hrun : s.clk.run = true)
    (hoff : s.md.off = false) (hdown : procDown s 3 = false) (hdis : s.regBit (rLctl (link.val + 1)) 0 = false)
    (hst : linkState s (link.val + 1) = 0 ∨ linkState s (link.val + 1) = 1) :
    let l := link.val + 1
    let up := ((List.range 4).filter (fun n => nbit lanes n)).length
    ∃ t, exec (.linkTraining link peer fa lanes slow) s = .next t ∧ Still s t ∧
      (up < 3 → linkState t l = 0) ∧
      (3 ≤ up → peer.val = s.modId → linkState t l = 0 ∧ Logged s t 0x06F6) ∧
      (3 ≤ up → peer.val ≠ s.modId → linkState t l = 1 ∧ t.regField (rLstat l) 7 4 = lanes.val ∧ t.regField (rLstat l) 13 8 = peer.val ∧
        t.regBit (rLstat l) 3 = (fa || slow) ∧ t.regBit (rLstat l) 14 = fa ∧ t.regField (rLerr l) 31 16 = 0 ∧ (t.link l).retry = []) := by
  intro l up
  have hl : l ≤ 8 := link.isLt
  have hset : Still s (s.setField (rLstat l) 2 0 0) := (setField_logsOnly ..).still
  refine ⟨_, execLinkTraining_eq peer fa lanes slow hrun hoff hdown hdis hst, ?_⟩
  by_cases hup : up < 3
  · rw [if_pos hup]
    exact ⟨hset, fun _ => linkState_setState s l (by decide), fun h => absurd hup (by omega), fun h => absurd hup (by omega)⟩
  · rw [if_neg hup]
    by_cases hpeer : peer.val = s.modId
    · rw [if_pos hpeer]
      have hlog : Domain (s.setField (rLstat l) 2 0 0) (lupLog (s.setField (rLstat l) 2 0 0) 0x06F6 2 l) := (lupLog_logs ..).domain
      have hlogged : Logged (s.setField (rLstat l) 2 0 0) (lupLog (s.setField (rLstat l) 2 0 0) 0x06F6 2 l) 0x06F6 :=
        lupLog_logged _ _ _ (by decide)
      exact ⟨hset.trans hlog.still, fun h => absurd h hup, fun _ _ => ⟨(hlog.linkState hl).trans (linkState_setState s l (by decide)),
        hlogged.of_same rfl (reg_setField_other _ _ _ _ fun h => rLstat_apart hl (h ▸ .inl (.inl rfl)))⟩,
        fun _ h => absurd hpeer h⟩
    · rw [if_neg hpeer]
      have hlt := trainedWord_lt fa slow lanes.isLt peer.isLt
      have hf : ∀ hi lo, (trained s l fa slow lanes peer).regField (rLstat l) hi lo = nbits (trainedWord fa slow lanes peer) hi lo :=
        fun hi lo => (regField_of_reg (trained_reg ..) hi lo).trans (regField_setReg_same s _ hlt hi lo)
      have hb : ∀ i, (trained s l fa slow lanes peer).regBit (rLstat l) i = (trainedWord fa slow lanes peer).testBit i :=
        fun i => (regBit_of_reg (trained_reg ..) i).trans (regBit_setReg_same s _ hlt i)
      refine ⟨trained_still .., fun h => absurd h hup, fun _ h => absurd h hpeer, fun _ _ => ⟨?_, ?_, ?_, ?_, ?_, ?_, ?_⟩⟩
      · exact (hf 2 0).trans (trainedWord_state fa slow)
      · exact (hf 7 4).trans (trainedWord_lanes fa slow lanes.isLt)
      · exact (hf 13 8).trans (trainedWord_peer fa slow lanes.isLt peer.isLt)
      · exact (hb 3).trans (trainedWord_slow fa slow)
      · exact (hb 14).trans (trainedWord_fa fa slow lanes.isLt peer.isLt)
      · exact (regField_of_reg ((modLink_linksOnly ..).reg _) 31 16).trans (regField_setField _ _ 0 (by decide) (by decide))
      · rw [trained, link_modLink_same]; rfl

end Sys2Proof.Machine
end

section
namespace Sys2Proof.Machine

/-! ## A link that comes up (R477, R483 to R486) -/

theorem pumpLink_linksOnly (s : State) (l : Nat) : LinksOnly s (pumpLink s l) := (pumpLink_pumps s l).only

/-- The link is up; the lead has yet to welcome it. -/
def raised (s : State) (l : Nat) : State := pumpLink (lupLog (s.setField (rLstat l) 2 0 2) 0x06F2 0 l) l

theorem raised_still (s : State) (l : Nat) : Still s (raised s l) :=
  (setField_logsOnly ..).still.trans ((lupLog_logs ..).domain.still.trans (pumpLink_linksOnly ..).still)

theorem raised_domain (s : State) (l : Nat) : Domain (s.setField (rLstat l) 2 0 2) (raised s l) :=
  (lupLog_logs ..).domain.trans (pumpLink_linksOnly ..).domain

theorem raised_linkState (s : State) {l : Nat} (hl : l ≤ 8) : linkState (raised s l) l = 2 :=
  ((raised_domain s l).linkState hl).trans (linkState_setState s l (by decide))

theorem raised_isLead (s : State) {l : Nat} (hl : l ≤ 8) : isLead (raised s l) = isLead s :=
  regBit_of_reg (((pumpLink_linksOnly ..).reg _).trans (((lupLog_logs ..).reg _ (by decide)).trans
    (reg_setField_other _ _ _ _ fun h => rLstat_apart hl (.inr (.inr h.symm))))) 6

theorem raised_lup (s : State) (l : Nat) : (raised s l).lup.members = s.lup.members ∧ (raised s l).lup.epoch = s.lup.epoch := by
  have hp := pumpLink_linksOnly (lupLog (s.setField (rLstat l) 2 0 2) 0x06F2 0 l) l
  have hl : (lupLog (s.setField (rLstat l) 2 0 2) 0x06F2 0 l).lup = s.lup := (lupLog_logs ..).only.lup
  exact ⟨hp.members.trans (by rw [hl]), hp.epoch.trans (by rw [hl])⟩

theorem raised_logged (s : State) {l : Nat} (hl : l ≤ 8) : Logged s (raised s l) 0x06F2 := by
  have h : Logged (s.setField (rLstat l) 2 0 2) (lupLog (s.setField (rLstat l) 2 0 2) 0x06F2 0 l) 0x06F2 := lupLog_logged _ _ _ (by decide)
  have h : Logged s _ 0x06F2 := h.of_same rfl (reg_setField_other s 2 0 2 fun h => rLstat_apart hl (.inl (.inl h.symm)))
  unfold Logged at *
  rwa [show (raised s l).ras = _ from (pumpLink_linksOnly ..).ras]

/-- The lead's routes for a member. -/
def routesFor (tables : List (Fin 64 × List (Fin 64 × Fin 9 × Fin 16))) (m : Nat) : List (Nat × Nat × Nat) :=
  (tables.filter (fun t => t.1.val == m)).flatMap (fun t => t.2.map (fun r => (r.1.val, r.2.1.val, r.2.2.val)))

/-- The lead's answer to a new link: who is left out is logged, the next epoch begins and every member hears of it. -/
def welcome (u : State) (l : Nat) (ms out : List Nat) (tab : Nat → List (Nat × Nat × Nat)) : State :=
  let v := out.foldl (fun s _ => lupLog s 0x06F7 1 l) u
  let w := setMembers (newEpoch v (routeTab (tab v.modId))) ms
  (ms.filter (· != w.modId)).foldl (fun s m => sendMsg (takeTag s m).2 (newMsg (takeTag s m).2 tMGMT 15 0 m (takeTag s m).1 0
    (.routes (takeTag s m).2.lup.epoch (tab m) ms))) w

/-- Logging leaves the domain's state alone. -/
theorem logs_foldl {α : Type} {f : State → α → State} (hf : ∀ s a, Logs s (f s a)) (l : List α) (s : State) : Logs s (l.foldl f s) := by
  induction l generalizing s with
  | nil => exact ⟨.rfl, fun _ _ => rfl⟩
  | cons a l ih =>
    have h := hf s a
    have k := ih (f s a)
    exact ⟨h.only.trans k.only, fun _ ho => (k.reg _ ho).trans (h.reg _ ho)⟩

theorem setMembers_domain (s : State) (ms : List Nat) : Domain s (setMembers s ms) :=
  ⟨rfl, fun _ ho => (reg_setField_other _ _ _ _ fun h => ho (.inr (.inr h))).trans
    (reg_setField_other _ _ _ _ fun h => ho (.inr (.inr h)))⟩

/-- What admission leaves. -/
theorem welcome_spec (u : State) (l : Nat) (ms out : List Nat) (tab : Nat → List (Nat × Nat × Nat)) :
    Domain u (welcome u l ms out tab) ∧ (welcome u l ms out tab).lup.members = ms ∧ (welcome u l ms out tab).lup.epoch = !u.lup.epoch := by
  have hlog : Logs u (out.foldl (fun s _ => lupLog s 0x06F7 1 l) u) := logs_foldl (fun s _ => lupLog_logs s _ _ _) out u
  unfold welcome
  generalize out.foldl (fun s _ => lupLog s 0x06F7 1 l) u = v at hlog
  dsimp only
  have hep := newEpoch_epoch v (routeTab (tab v.modId))
  generalize newEpoch v (routeTab (tab v.modId)) = w at hep
  have hset := setMembers_domain w ms
  have hsend : ∀ (x : State), LinksOnly (setMembers w ms) ((ms.filter (· != x.modId)).foldl _ (setMembers w ms)) := fun _ =>
    linksOnly_foldl (fun s m => (takeTag_linksOnly s m).trans (sendMsg_linksOnly _ (newMsg (takeTag s m).2 tMGMT 15 0 m (takeTag s m).1 0
      (.routes (takeTag s m).2.lup.epoch (tab m) ms)))) _ _
  have hsend := hsend (setMembers w ms)
  exact ⟨hlog.domain.trans (hep.domain.trans (hset.trans hsend.domain)), hsend.members,
    hsend.epoch.trans (hep.epoch.trans (by rw [hlog.only.lup]))⟩

theorem execLupinLinkUp_eq {s : State} {link : Fin 8} (present : List (Fin 64)) (tables : List (Fin 64 × List (Fin 64 × Fin 9 × Fin 16)))
    (hst : linkState s (link.val + 1) = 1) (hln : 3 ≤ lanesUp s (link.val + 1)) :
    exec (.lupinLinkUp link present tables) s = .next (if !isLead (raised s (link.val + 1)) then raised s (link.val + 1) else
      welcome (raised s (link.val + 1)) (link.val + 1) (admitted (raised s (link.val + 1)) (present.map (·.val))).1
        (admitted (raised s (link.val + 1)) (present.map (·.val))).2 (routesFor tables)) := by
  refine congrArg Host.Outcome.next (if_neg ?_)
  rintro (h | h)
  · exact h hst
  · omega

theorem admitted_ms (s : State) {l : Nat} (present : List Nat) : admitted (raised s l) present = admitted s present := by
  have h := raised_domain s l
  have hf : (raised s l).fw = s.fw := h.fw
  have hm : (raised s l).modId = s.modId := h.modId
  unfold admitted licFeatures
  rw [hf, hm]

/-- The LinksTrainAndFail clause of LUPIN_LINK_UP. -/
theorem lupinLinkUp_rises {s : State} {link : Fin 8} (present : List (Fin 64)) (tables : List (Fin 64 × List (Fin 64 × Fin 9 × Fin 16)))
    (hst : linkState s (link.val + 1) = 1) (hln : 3 ≤ lanesUp s (link.val + 1)) :
    let l := link.val + 1
    ∃ t, exec (.lupinLinkUp link present tables) s = .next t ∧ Still s t ∧
      linkState t l = 2 ∧ (isLead s = false → Logged s t 0x06F2 ∧ t.lup.members = s.lup.members) ∧
      (isLead s = true → t.lup.members = (admitted s (present.map (·.val))).1 ∧ t.lup.epoch = !s.lup.epoch) := by
  intro l
  have hl : l ≤ 8 := link.isLt
  have hst' := raised_linkState s hl
  refine ⟨_, execLupinLinkUp_eq present tables hst hln, ?_⟩
  rw [raised_isLead s hl]
  cases hlead : isLead s
  · rw [if_pos (by decide)]
    exact ⟨raised_still s l, hst', fun _ => ⟨raised_logged s hl, (raised_lup s l).1⟩, fun h => absurd h nofun⟩
  · rw [if_neg (by decide)]
    obtain ⟨hd, hms, hep⟩ := welcome_spec (raised s l) l (admitted (raised s l) (present.map (·.val))).1
      (admitted (raised s l) (present.map (·.val))).2 (routesFor tables)
    exact ⟨(raised_still s l).trans hd.still, (hd.linkState hl).trans hst', fun h => absurd h nofun,
      fun _ => ⟨hms.trans (by rw [admitted_ms]), hep.trans (by rw [(raised_lup s l).2])⟩⟩

/-! ## Lanes and links that are lost (R479, R486) -/

theorem lanesUp_setLane {s : State} {l : Nat} (lane : Fin 4) (h : lanesUp s l = 4) :
    lanesUp (s.setField (rLstat l) (4 + lane.val) (4 + lane.val) 0) l = 3 := by
  have hall : ∀ n ∈ List.range 4, s.regBit (rLstat l) (4 + n) = true := List.length_filter_eq_length_iff.1 (h.trans (by decide))
  have hp : ∀ n ∈ List.range 4, (s.setField (rLstat l) (4 + lane.val) (4 + lane.val) 0).regBit (rLstat l) (4 + n) = decide (n ≠ lane.val) := fun n hn => by
    have hlt := List.mem_range.1 hn
    rw [regBit_setField _ _ _ (Nat.le_refl _) (by omega), hall n hn]
    by_cases he : n = lane.val
    · rw [if_pos (by omega), Nat.zero_testBit, he]; simp
    · rw [if_neg (by omega)]; simp [he]
  rw [lanesUp, List.filter_congr hp]
  clear hp
  revert lane
  decide

theorem not_live {s : State} {l : Nat} : linkLive s l = true ↔ linkState s l = 2 ∨ linkState s l = 3 := by
  simp [linkLive]

/-- The LinksTrainAndFail clause of LUPIN_LANE_LOST. -/
theorem lupinLaneLost_loses {s : State} {link : Fin 8} (lane : Fin 4) (hlive : linkLive s (link.val + 1) = true)
    (hbit : s.regBit (rLstat (link.val + 1)) (4 + lane.val) = true) :
    let l := link.val + 1
    ∃ t, exec (.lupinLaneLost link lane) s = .next t ∧ Still s t ∧
      (lanesUp s l = 4 → t.regBit (rLstat l) (4 + lane.val) = false ∧ linkState t l = linkState s l ∧ lanesUp t l = 3 ∧ Logged s t 0x06F0) ∧
      (lanesUp s l ≠ 4 → linkState t l = 0 ∧ lanesUp t l = 0) := by
  intro l
  have hl : l ≤ 8 := link.isLt
  have he : exec (.lupinLaneLost link lane) s = .next (if lanesUp s l = 4 then
      lupLog (s.setField (rLstat l) (4 + lane.val) (4 + lane.val) 0) 0x06F0 1 l else lowerLink s l 0 1) :=
    congrArg Host.Outcome.next (if_neg fun h => h.elim (· (not_live.1 hlive)) (· hbit))
  refine ⟨_, he, ?_⟩
  by_cases h4 : lanesUp s l = 4
  · rw [if_pos h4]
    generalize hu : s.setField (rLstat l) (4 + lane.val) (4 + lane.val) 0 = u
    have hlog := lupLog_logs u 0x06F0 1 l
    have hlogged := lupLog_logged u (code := 0x06F0) 1 l (by decide)
    refine ⟨Still.trans (by rw [← hu]; exact (setField_logsOnly ..).still) hlog.domain.still, fun _ => ⟨?_, ?_, ?_, ?_⟩, fun h => absurd h4 h⟩
    · rw [regBit_of_reg (hlog.domain.reg _ (rLstat_apart hl)), ← hu, regBit_setField _ _ _ (Nat.le_refl _) (by omega), if_pos (by omega)]
      exact Nat.zero_testBit _
    · rw [hlog.domain.linkState hl, ← hu]
      exact regField_setField_apart _ _ _ (Nat.le_refl _) (by omega) (by omega)
    · rw [hlog.domain.lanesUp hl, ← hu]
      exact lanesUp_setLane lane h4
    · exact hlogged.of_same (by rw [← hu]; rfl) (by
        rw [← hu]; exact reg_setField_other _ _ _ _ fun h => rLstat_apart hl (.inl (.inl h.symm)))
  · rw [if_neg h4]
    exact ⟨lowerLink_still 0 1, fun h => absurd h h4, fun _ => ⟨lowerLink_linkState hl 1 (by decide), lowerLink_lanesUp hl 0 1⟩⟩

/-- The LinksTrainAndFail clause of LUPIN_LINK_DOWN. -/
theorem lupinLinkDown_lowers {s : State} {link : Fin 8} (absent : Bool) (hst : linkState s (link.val + 1) = 1 ∨ linkLive s (link.val + 1) = true) :
    let l := link.val + 1
    ∃ t, exec (.lupinLinkDown link absent) s = .next t ∧ Still s t ∧ linkState t l = 0 ∧ lanesUp t l = 0 ∧
      (linkState s l = 2 → s.regBit oLupDstat 16 = true → knownFailure s (16 * s.modId + l) = false →
        t.lup.epoch = (!s.lup.epoch) ∧ t.regBit oLupDstat 16 = false ∧
        ∀ d, d ≠ s.modId → routeTo t d = tget (0, 0xF) (tget [] s.lup.failover (16 * s.modId + l)) d) ∧
      (linkState s l ≠ 2 ∨ s.regBit oLupDstat 16 = false ∨ knownFailure s (16 * s.modId + l) = true → t.lup.routes = s.lup.routes) := by
  intro l
  have hl : l ≤ 8 := link.isLt
  have he : exec (.lupinLinkDown link absent) s = .next (lowerLink s l 0 (if absent then 0 else 1)) :=
    congrArg Host.Outcome.next (if_pos (hst.imp_right not_live.1))
  refine ⟨_, he, lowerLink_still .., lowerLink_linkState hl _ (by decide), lowerLink_lanesUp hl .., fun hup hr hk => ?_,
    fun h => lowerLink_routes hl 0 _ h⟩
  have k := lowerLink_switched hl 0 (if absent then 0 else 1) hup hr hk
  exact ⟨k.epoch, k.ready, fun d hd => k.route d hd⟩

/-! ## Notices and tables of the lead (R486) -/

theorem liveLinks_contains (s : State) (link : Fin 8) : (liveLinks s).contains (link.val + 1) = linkLive s (link.val + 1) := by
  have hmem : ∀ link : Fin 8, link.val + 1 ∈ allLinks := by decide
  rw [Bool.eq_iff_iff, List.contains_iff_mem, liveLinks, List.mem_filter]
  exact ⟨fun h => h.2, fun h => ⟨hmem link, h⟩⟩

/-- The LinksTrainAndFail clause of LINKDOWN_NOTICE. -/
theorem linkdownNotice_taken (s : State) (link : Fin 8) (module : Fin 64) (failed : Fin 9) :
    let l := link.val + 1
    let key := 16 * module.val + failed.val
    (linkLive s l = false ∨ knownFailure s key = true → exec (.linkdownNotice link module failed) s = .next s) ∧
    (linkLive s l = true → knownFailure s key = false → ∃ t, exec (.linkdownNotice link module failed) s = .next t ∧ Still s t ∧
      t.lup.failed = s.lup.failed ++ [(key, s.regBit oLupDstat 16)] ∧ (s.regBit oLupDstat 16 = false → t.lup.routes = s.lup.routes) ∧
      (s.regBit oLupDstat 16 = true → t.lup.epoch = (!s.lup.epoch) ∧ t.regBit oLupDstat 16 = false ∧ t.regBit oLupDstat 15 = t.lup.epoch ∧
        t.lup.old = s.lup.routes ∧ ∀ d, d ≠ s.modId → routeTo t d = tget (0, 0xF) (tget [] s.lup.failover key) d)) := by
  intro l key
  have he : exec (.linkdownNotice link module failed) s = .next (if (liveLinks s).contains l then
      (if knownFailure s key then s else failTo (flood s module failed l) key) else s) := rfl
  rw [he, liveLinks_contains]
  refine ⟨fun h => ?_, fun hlive hk => ⟨_, rfl, ?_⟩⟩
  · split
    · next hlive => rw [if_pos (h.resolve_left (by rw [hlive]; decide))]
    · rfl
  · rw [if_pos hlive, if_neg (by rw [hk]; decide)]
    refine ⟨(flood_failTo_domain ..).still, ?_, fun hr => flood_failTo_routes _ _ _ (.inr hr), fun hr => ?_⟩
    · cases hr : s.regBit oLupDstat 16
      · have hf := flood_linksOnly s module failed l
        rw [failTo_waits ((hf.knownFailure key).trans hk) ((regBit_of_reg (hf.reg _) 16).trans hr)]
        exact congrArg₂ (fun a b => a ++ [(key, b)]) hf.failed ((regBit_of_reg (hf.reg _) 16).trans hr)
      · exact (flood_failTo_switched _ _ _ hk hr).failed
    · have k := flood_failTo_switched module failed l hk hr
      exact ⟨k.epoch, k.ready, k.parity, k.old, k.route⟩

end Sys2Proof.Machine
end

section
namespace Sys2Proof.Machine

/-! ## The lead's tables (R486, R494) -/

theorem failTo_failover (s : State) (key : Nat) : (failTo s key).lup.failover = s.lup.failover := by
  cases hk : knownFailure s key
  · cases hr : s.regBit oLupDstat 16
    · rw [failTo_waits hk hr]; rfl
    · exact (failTo_switched hk hr).failover
  · rw [failTo_known hk]

theorem failTo_foldl (ks : List Nat) (s : State) : Domain s (ks.foldl failTo s) ∧ (ks.foldl failTo s).lup.failover = s.lup.failover := by
  induction ks generalizing s with
  | nil => exact ⟨.rfl, rfl⟩
  | cons k ks ih => exact ⟨(failTo_domain s k).trans (ih _).1, (ih _).2.trans (failTo_failover s k)⟩

/-- The state with FAILOVER_READY and no failure taken. -/
def readied (s : State) : State := ({ s with lup := { s.lup with failed := [] } }).setField oLupDstat 16 16 1

/-- The failures that wait for the lead's tables and have one. -/
def waiting (s : State) : List Nat := ((s.lup.failed.filter (fun p => !p.2)).map (·.1)).filter (fun key => tget [] s.lup.failover key != [])

theorem tablesReady_eq (s : State) : tablesReady s = (waiting s).foldl failTo (readied s) := rfl

theorem setDstat_domain (s : State) (hi lo v : Nat) : Domain s (s.setField oLupDstat hi lo v) :=
  ⟨rfl, fun _ ho => reg_setField_other _ _ _ _ fun h => ho (.inr (.inr h))⟩

theorem readied_domain (s : State) : Domain s (readied s) := by
  have h : Domain s { s with lup := { s.lup with failed := [] } } := ⟨rfl, fun _ _ => rfl⟩
  exact h.trans (setDstat_domain ..)

theorem readied_ready (s : State) : (readied s).regBit oLupDstat 16 = true := regBit_setBit _ _ (by decide) true

theorem tablesReady_domain (s : State) : Domain s (tablesReady s) := (readied_domain s).trans (failTo_foldl _ _).1

theorem tablesReady_failover (s : State) : (tablesReady s).lup.failover = s.lup.failover := (failTo_foldl _ _).2

theorem tablesReady_ready {s : State} (h : s.lup.failed = []) : (tablesReady s).regBit oLupDstat 16 = true := by
  rw [tablesReady_eq, waiting, h]
  exact readied_ready s

/-- A failure that waited is taken with its table. -/
theorem tablesReady_switched {s : State} {key : Nat} (h : s.lup.failed = [(key, false)]) (ht : tget [] s.lup.failover key ≠ []) :
    Switched (readied s) (tablesReady s) key := by
  have hw : waiting s = [key] := by
    rw [waiting, h]
    simp [ht]
  rw [tablesReady_eq, hw]
  exact failTo_switched rfl (readied_ready s)

/-- One table of the lead: its own is stored, another member's is sent. -/
def oneTable (s : State) (key mm : Nat) (tab : List (Nat × Nat × Nat)) : State :=
  if mm = s.modId then storeFailover s key tab
  else sendMsg (takeTag s mm).2 (newMsg (takeTag s mm).2 tMGMT 15 0 mm (takeTag s mm).1 0 (.failover key tab))

/-- The members are told that all have their tables. -/
def tellReady (s : State) : State := (s.lup.members.filter (· != s.modId)).foldl (fun s m =>
  sendMsg (takeTag s m).2 (newMsg (takeTag s m).2 tMGMT 15 0 m (takeTag s m).1 0 (.failover 0 []))) s

theorem tellReady_linksOnly (s : State) : LinksOnly s (tellReady s) :=
  linksOnly_foldl (fun _ _ => (takeTag_linksOnly ..).trans (sendMsg_linksOnly ..)) _ _

theorem oneTable_domain (s : State) (key mm : Nat) (tab : List (Nat × Nat × Nat)) : Domain s (oneTable s key mm tab) := by
  unfold oneTable
  split
  · exact ⟨rfl, fun _ _ => rfl⟩
  · exact ((takeTag_linksOnly ..).trans (sendMsg_linksOnly ..)).domain

theorem oneTable_failed (s : State) (key mm : Nat) (tab : List (Nat × Nat × Nat)) :
    (oneTable s key mm tab).lup.failed = s.lup.failed ∧ (oneTable s key mm tab).lup.epoch = s.lup.epoch := by
  unfold oneTable
  split
  · exact ⟨rfl, rfl⟩
  · have h := (takeTag_linksOnly s mm).trans (sendMsg_linksOnly _ (newMsg (takeTag s mm).2 tMGMT 15 0 mm (takeTag s mm).1 0 (.failover key tab)))
    exact ⟨h.failed, h.epoch⟩

theorem oneTable_own (s : State) (key : Nat) (tab : List (Nat × Nat × Nat)) :
    tget [] (oneTable s key s.modId tab).lup.failover key = routeTab tab := by
  rw [oneTable, if_pos rfl]
  exact tget_tset_same ..

/-- The LinksTrainAndFail clause of FAILOVER_TABLES. -/
theorem failoverTables_taken {s : State} (hlead : isLead s = true) (key : Fin 1024) (mm : Fin 64) (tab : List (Fin 64 × Fin 9 × Fin 16)) :
    ∃ t, exec (.failoverTables [(key, mm, tab)]) s = .next t ∧ Still s t ∧
      let rt := routeTab (tab.map (fun r => (r.1.val, r.2.1.val, r.2.2.val)))
      (s.lup.failed = [] → t.regBit oLupDstat 16 = true) ∧ (mm.val = s.modId → tget [] t.lup.failover key = rt) ∧
      (mm.val = s.modId → s.lup.failed = [(key.val, false)] → rt ≠ [] → t.regBit oLupDstat 16 = false ∧ t.lup.epoch = (!s.lup.epoch) ∧
        ∀ d, d ≠ s.modId → routeTo t d = tget (0, 0xF) rt d) := by
  generalize hr : tab.map (fun r => (r.1.val, r.2.1.val, r.2.2.val)) = tb
  have he : exec (.failoverTables [(key, mm, tab)]) s = .next (tablesReady (tellReady (oneTable s key mm tb))) := by
    rw [← hr]
    exact congrArg Host.Outcome.next (if_neg (by rw [hlead]; decide))
  have h1 := oneTable_domain s key mm tb
  obtain ⟨hfailed, hepoch⟩ := oneTable_failed s key mm tb
  have hown := oneTable_own s key tb
  have h2 := tellReady_linksOnly (oneTable s key mm tb)
  have h3 := tablesReady_domain (tellReady (oneTable s key mm tb))
  refine ⟨_, he, h1.still.trans (h2.still.trans h3.still), fun hf => tablesReady_ready (h2.failed.trans (hfailed.trans hf)), fun hm => ?_,
    fun hm hf hrt => ?_⟩
  · rw [tablesReady_failover, h2.failover, hm]
    exact hown
  · have htab : tget [] (tellReady (oneTable s key mm tb)).lup.failover key = routeTab tb := by
      rw [h2.failover, hm]; exact hown
    have k := tablesReady_switched (h2.failed.trans (hfailed.trans hf)) (by rw [htab]; exact hrt)
    have hmod : (readied (tellReady (oneTable s key mm tb))).modId = s.modId := (h1.trans (h2.domain.trans (readied_domain _))).modId
    exact ⟨k.ready, k.epoch.trans (by rw [← hepoch, ← h2.epoch]; rfl), fun d hd => (k.route d (by rw [hmod]; exact hd)).trans (by rw [← htab]; rfl)⟩

/-! ## RETRAIN and DISABLE (R481, R494, R548) -/

theorem retrainLink_eq {s : State} {l : Nat} (h4 : linkState s l ≠ 4) (h5 : linkState s l ≠ 5) : retrainLink s l =
    ((lowerLink s l 1 1).setField (rLerr l) 31 16 0).modLink l (fun k => { k with malMs := ⟨0, 0⟩ }) :=
  if_neg (by rintro (h | h) <;> contradiction)

/-- A link that trains again. -/
theorem retrainLink_trains {s : State} {l : Nat} (hl : l ≤ 8) (h4 : linkState s l ≠ 4) (h5 : linkState s l ≠ 5) :
    Still s (retrainLink s l) ∧ linkState (retrainLink s l) l = 1 ∧ (retrainLink s l).regField (rLerr l) 31 16 = 0 := by
  rw [retrainLink_eq h4 h5]
  refine ⟨(lowerLink_still 1 1).trans ((setField_logsOnly ..).still.trans (modLink_linksOnly ..).still), ?_, ?_⟩
  · rw [linkState_of_reg ((modLink_linksOnly ..).reg _), linkState_of_reg (reg_setField_other _ _ _ _ (rLstat_ne_rLerr l))]
    exact lowerLink_linkState hl 1 (by decide)
  · rw [regField_of_reg ((modLink_linksOnly ..).reg _)]
    exact regField_setField _ _ 0 (by decide) (by decide)

theorem writeLctl_eq (s : State) (iface l v : Nat) : writeLctl s iface l v =
    if nbit v 1 then retrainLink (if locked s (rLctl l) then accessViolation s iface (rLctl l) v
      else if s.regField (rLctl l) 0 0 = nbits v 0 0 then s else disableLink s l (nbits v 0 0)) l
    else if locked s (rLctl l) then accessViolation s iface (rLctl l) v
      else if s.regField (rLctl l) 0 0 = nbits v 0 0 then s else disableLink s l (nbits v 0 0) := rfl

theorem regField_bit (s : State) (off i : Nat) : s.regField off i i = if s.regBit off i then 1 else 0 := by
  rw [State.regField, bits_eq_nbits, nbits, Nat.shiftRight_eq_div_pow, regBit_eq, Nat.testBit_eq_decide_div_mod_eq,
    show i + 1 - i = 1 by omega, Nat.pow_one]
  have h2 := Nat.mod_lt ((s.reg off).toNat / 2 ^ i) (by decide : 0 < 2)
  generalize (s.reg off).toNat / 2 ^ i % 2 = b at h2 ⊢
  interval_cases b <;> rfl

theorem exec_retrain (s : State) (iface : Iface) (link : Fin 8) : exec (.retrain iface link) s =
    .next (writeLctl s iface (link.val + 1) (2 + s.regField (rLctl (link.val + 1)) 0 0)) := rfl

theorem exec_linkDisable (s : State) (iface : Iface) (link : Fin 8) (on : Bool) : exec (.linkDisable iface link on) s =
    .next (writeLctl s iface (link.val + 1) (if on then 1 else 0)) := rfl

/-- RETRAIN with DISABLE as it stands. -/
theorem writeLctl_retrain (s : State) (iface l : Nat) : writeLctl s iface l (2 + s.regField (rLctl l) 0 0) =
    retrainLink (if locked s (rLctl l) then accessViolation s iface (rLctl l) (2 + s.regField (rLctl l) 0 0) else s) l := by
  rw [writeLctl_eq, regField_bit]
  cases s.regBit (rLctl l) 0
  · rw [if_pos (by decide), if_pos (c := _ = nbits _ 0 0) (by decide)]
  · rw [if_pos (by decide), if_pos (c := _ = nbits _ 0 0) (by decide)]

/-- DISABLE takes its value where the register is not locked. -/
theorem writeLctl_disable {s : State} {l : Nat} (iface : Nat) (on : Bool) (h : locked s (rLctl l) = false) :
    writeLctl s iface l (if on then 1 else 0) = if s.regBit (rLctl l) 0 = on then s else disableLink s l (if on then 1 else 0) := by
  rw [writeLctl_eq, h, regField_bit]
  cases s.regBit (rLctl l) 0 <;> cases on <;> rfl

/-- A value of DISABLE that holds the link down, or lets it go. -/
theorem disableLink_on {s : State} {l : Nat} (hl : l ≤ 8) (h4 : linkState s l ≠ 4) :
    Still s (disableLink s l 1) ∧ linkState (disableLink s l 1) l = 5 ∧ (disableLink s l 1).regBit (rLctl l) 0 = true := by
  have hst : linkState (s.setField (rLctl l) 0 0 1) l = linkState s l := linkState_of_reg (reg_setField_other _ _ _ _ (rLstat_ne_rLctl l))
  have he : disableLink s l 1 = lowerLink (s.setField (rLctl l) 0 0 1) l 5 1 :=
    (if_neg (by rw [hst]; exact h4)).trans (if_pos rfl)
  rw [he]
  refine ⟨(setField_logsOnly ..).still.trans (lowerLink_still 5 1), lowerLink_linkState hl 1 (by decide), ?_⟩
  rw [regBit_of_reg (lowerLink_reg (rLctl_apart hl) (rLstat_ne_rLctl l).symm)]
  exact regBit_setBit _ _ (by decide) true

theorem disableLink_off (s : State) (l : Nat) : Still s (disableLink s l 0) ∧ (disableLink s l 0).regBit (rLctl l) 0 = false ∧
    linkState (disableLink s l 0) l = if linkState s l = 5 then 0 else linkState s l := by
  have hst : linkState (s.setField (rLctl l) 0 0 0) l = linkState s l := linkState_of_reg (reg_setField_other _ _ _ _ (rLstat_ne_rLctl l))
  have hbit : (s.setField (rLctl l) 0 0 0).regBit (rLctl l) 0 = false := regBit_setBit _ _ (by decide) false
  have hs : Still s (s.setField (rLctl l) 0 0 0) := (setField_logsOnly ..).still
  have he : disableLink s l 0 = if linkState (s.setField (rLctl l) 0 0 0) l = 4 then s.setField (rLctl l) 0 0 0
      else if linkState (s.setField (rLctl l) 0 0 0) l = 5 then (s.setField (rLctl l) 0 0 0).setField (rLstat l) 2 0 0
      else s.setField (rLctl l) 0 0 0 := rfl
  rw [he, hst]
  by_cases h5 : linkState s l = 5
  · rw [if_neg (by rw [h5]; decide), if_pos h5, if_pos h5]
    exact ⟨hs.trans (setField_logsOnly ..).still, (regBit_setField_other _ _ _ _ _ (rLstat_ne_rLctl l).symm).trans hbit,
      linkState_setState _ _ (by decide)⟩
  · rw [if_neg h5, if_neg h5, ite_self]
    exact ⟨hs, hbit, hst⟩

/-- The LinksTrainAndFail clause of RETRAIN and LINK_DISABLE. -/
theorem lctl_obeyed (s : State) (link : Fin 8) (iface : Iface) :
    let l := link.val + 1
    (locked s (rLctl l) = false →
      (linkState s l = 4 ∨ linkState s l = 5 → exec (.retrain iface link) s = .next s) ∧
      (linkState s l ≠ 4 → linkState s l ≠ 5 → ∃ t, exec (.retrain iface link) s = .next t ∧ Still s t ∧ linkState t l = 1 ∧
        t.regField (rLerr l) 31 16 = 0) ∧
      (∀ on, s.regBit (rLctl l) 0 = on → exec (.linkDisable iface link on) s = .next s) ∧
      (s.regBit (rLctl l) 0 = false → linkState s l ≠ 4 → ∃ t, exec (.linkDisable iface link true) s = .next t ∧ Still s t ∧
        linkState t l = 5 ∧ t.regBit (rLctl l) 0 = true) ∧
      (s.regBit (rLctl l) 0 = true → ∃ t, exec (.linkDisable iface link false) s = .next t ∧ Still s t ∧ t.regBit (rLctl l) 0 = false ∧
        linkState t l = if linkState s l = 5 then 0 else linkState s l)) ∧
    (locked s (rLctl l) = true →
      (linkState s l ≠ 4 → linkState s l ≠ 5 → ∃ t, exec (.retrain iface link) s = .next t ∧ Still s t ∧ linkState t l = 1) ∧
      (∀ on, ∃ t, exec (.linkDisable iface link on) s = .next t ∧ Dropped s t (rLctl l) ∧ linkState t l = linkState s l)) := by
  intro l
  have hl : l ≤ 8 := link.isLt
  refine ⟨fun hlock => ?_, fun hlock => ?_⟩
  · have hr : exec (.retrain iface link) s = .next (retrainLink s l) := by
      rw [exec_retrain, writeLctl_retrain, if_neg (by rw [hlock]; decide)]
    have hd : ∀ on, exec (.linkDisable iface link on) s = .next (if s.regBit (rLctl l) 0 = on then s else disableLink s l (if on then 1 else 0)) :=
      fun on => by rw [exec_linkDisable, writeLctl_disable iface on hlock]
    refine ⟨fun h => hr.trans (congrArg _ (if_pos h)), fun h4 h5 => ⟨_, hr, retrainLink_trains hl h4 h5⟩,
      fun on h => (hd on).trans (by rw [if_pos h]), fun h h4 => ⟨_, hd true, ?_⟩, fun h => ⟨_, hd false, ?_⟩⟩
    · rw [if_neg (by rw [h]; decide)]
      exact disableLink_on hl h4
    · rw [if_neg (by rw [h]; decide)]
      exact disableLink_off s l
  · have hav : ∀ v, Logs s (accessViolation s iface (rLctl l) v) := fun v => rasLog_logs ..
    have hst : ∀ v, linkState (accessViolation s iface (rLctl l) v) l = linkState s l := fun v => (hav v).domain.linkState hl
    have hr : exec (.retrain iface link) s = .next (retrainLink (accessViolation s iface (rLctl l) (2 + s.regField (rLctl l) 0 0)) l) := by
      rw [exec_retrain, writeLctl_retrain, if_pos hlock]
    have hd : ∀ on : Bool, exec (.linkDisable iface link on) s = .next (accessViolation s iface (rLctl l) (if on then 1 else 0)) := fun on => by
      rw [exec_linkDisable, writeLctl_eq, if_neg (by cases on <;> decide), if_pos hlock]
    refine ⟨fun h4 h5 => ⟨_, hr, ?_⟩, fun on => ⟨_, hd on, ⟨(hav _).domain.still, (hav _).domain.reg _ (rLctl_apart hl), rasLog_logged _ _ (by decide : 0x0607 < 2 ^ 16)⟩, hst _⟩⟩
    obtain ⟨hs, h1, -⟩ := retrainLink_trains (s := accessViolation s iface (rLctl l) (2 + s.regField (rLctl l) 0 0)) hl ((hst _).symm ▸ h4) ((hst _).symm ▸ h5)
    exact ⟨(hav _).domain.still.trans hs, h1⟩

/-- Settles O56: each step of a link sets its state in LUP_LSTAT, and only its failure reaches the routes. -/
theorem linksTrainAndFail : Obligations.LinksTrainAndFail := by
  unfold Obligations.LinksTrainAndFail
  intro s link
  exact ⟨fun peer fa lanes slow => linkTraining_trains peer fa lanes slow, fun present tables => lupinLinkUp_rises present tables,
    fun lane => lupinLaneLost_loses lane, fun absent => lupinLinkDown_lowers absent, linkdownNotice_taken s link,
    fun h tables => congrArg Host.Outcome.next (if_pos (by rw [h]; decide)), fun h => failoverTables_taken h, lctl_obeyed s link⟩

end Sys2Proof.Machine
end

section
/-! SUPPORT. Mailboxes: the payload, the end of a command, GO and the service of the only call (R388 to R392). -/
namespace Sys2Proof.Machine

/-! ## The payload (R389) -/

theorem payload_length (s : State) (n : Nat) : (payload s n).length = 4096 := by
  simp only [payload, List.length_take, List.length_append, List.length_replicate]; omega

theorem tget_payload (s : State) (n : Nat) (b : List Nat) :
    tget [] (setPayload s n b).fw.payload n = (b ++ (payload s n).drop b.length).take 4096 := tget_tset_same ..

/-- The payload holds the bytes written, and behind them what it held. -/
theorem payload_setPayload (s : State) (n : Nat) {b : List Nat} (h : b.length ≤ 4096) :
    payload (setPayload s n b) n = b ++ (payload s n).drop b.length := by
  have hlen : (b ++ (payload s n).drop b.length).length = 4096 := by
    rw [List.length_append, List.length_drop, payload_length]; omega
  rw [payload, tget_payload, List.take_of_length_le (Nat.le_of_eq hlen), hlen]
  simp [hlen]

theorem payload_setPayload_take (s : State) (n : Nat) {b : List Nat} (h : b.length ≤ 4096) :
    (payload (setPayload s n b) n).take b.length = b := by
  rw [payload_setPayload s n h, List.take_left]

theorem payload_of_tab {s t : State} {n : Nat} (h : tget [] t.fw.payload n = tget [] s.fw.payload n) : payload t n = payload s n := by
  unfold payload; rw [h]

/-! ## What the mailbox itself touches -/

/-- Nothing but the waiting calls, the payloads, the command and status registers of mailbox `n`, interrupt messages, messages on the
links and what is sent differs. -/
structure Posts (s t : State) (n : Nat) : Prop where
  only : t = { s with
    fw := { s.fw with calls := t.fw.calls, payload := t.fw.payload }, regs := t.regs, msix := t.msix, out := t.out,
    lup := { s.lup with links := t.lup.links, port := t.lup.port, tags := t.lup.tags } }
  reg : ∀ off, off ≠ rMbx n → off ≠ rMbx n + 4 → t.reg off = s.reg off

theorem Posts.trans {a b c : State} {n : Nat} (h : Posts a b n) (k : Posts b c n) : Posts a c n :=
  ⟨by rw [k.only, h.only], fun off h1 h2 => (k.reg off h1 h2).trans (h.reg off h1 h2)⟩

theorem Posts.rfl {s : State} {n : Nat} : Posts s s n := ⟨Eq.refl _, fun _ _ _ => Eq.refl _⟩

section
variable {s t : State} {n : Nat} (h : Posts s t n)
include h
theorem Posts.still : Still s t := by rw [h.only]; exact ⟨⟨Eq.refl _, Eq.refl _, Eq.refl _, Eq.refl _⟩, Eq.refl _⟩
theorem Posts.session (m : Nat) : t.session m = s.session m := by rw [h.only]; rfl
theorem Posts.jobs : t.fw.jobs = s.fw.jobs := by rw [h.only]
theorem Posts.md : t.md = s.md := by rw [h.only]
theorem Posts.ras : t.ras = s.ras := by rw [h.only]
end

theorem setPayload_posts (s : State) (n : Nat) (b : List Nat) : Posts s (setPayload s n b) n := ⟨rfl, fun _ _ _ => rfl⟩
theorem setCmd_posts (s : State) (n : Nat) (v : Word) : Posts s (s.setReg (rMbx n) v) n := ⟨rfl, fun _ h _ => reg_setReg_other _ _ h⟩
theorem setStat_posts (s : State) (n hi lo v : Nat) : Posts s (s.setField (rMbx n + 4) hi lo v) n :=
  ⟨rfl, fun _ _ h => reg_setField_other _ _ _ _ h⟩
theorem setCalls_posts (s : State) (n : Nat) (cs : List Call) : Posts s { s with fw := { s.fw with calls := cs } } n := ⟨rfl, fun _ _ _ => rfl⟩

theorem sendMsix_eq (s : State) (v : Nat) : ∃ m o, sendMsix s v = { s with msix := m, out := o } := by
  unfold sendMsix
  split
  · exact ⟨s.msix, s.out, rfl⟩
  · split
    · exact ⟨s.msix, s.out ++ [.msix v], rfl⟩
    · exact ⟨_, s.out, rfl⟩

theorem sendMsix_posts (s : State) (n v : Nat) :
    Posts s (sendMsix s v) n ∧ (sendMsix s v).fw = s.fw ∧ ∀ off, (sendMsix s v).reg off = s.reg off := by
  obtain ⟨m, o, h⟩ := sendMsix_eq s v
  rw [h]
  exact ⟨⟨rfl, fun _ _ _ => rfl⟩, rfl, fun _ => rfl⟩

theorem LinksOnly.posts {s t : State} (h : LinksOnly s t) (n : Nat) : Posts s t n :=
  ⟨by unfold LinksOnly at h; rw [h], fun off _ _ => h.reg off⟩

/-! ## The end of a command (R389 steps 4 and 5, R392) -/

/-- The bytes of an answer. -/
def answerBytes (c : Call) (status detail : Nat) (answer : List Nat) : List Nat :=
  if status ≤ mIN_PROGRESS then answer
  else natLe 4 (if isG1 c.mbx && decide (mCHECK_FAILED < status) then detail % 2 ^ 24 + status * 2 ^ 24 else detail)

/-- The mailbox's registers and payload as a command ends. -/
def closed (s : State) (c : Call) (status detail : Nat) (answer : List Nat) : State :=
  (((setPayload { s with fw := { s.fw with calls := s.fw.calls.filter (fun x => x.mbx != c.mbx) } } c.mbx
      (answerBytes c status detail answer)).setField (rMbx c.mbx + 4) 28 16 (answerBytes c status detail answer).length).setField
    (rMbx c.mbx + 4) 15 8 (if isG1 c.mbx && decide (mCHECK_FAILED < status) then mBAD_ARGUMENT else status)).setField
    (rMbx c.mbx + 4) 1 0 stDoneM

/-- What goes out with the end of a command: vector 1 when asked, and the answer to the lead. -/
def answered (s : State) (c : Call) (status detail : Nat) (answer : List Nat) : State :=
  let s := if c.irq ∧ c.mbx < 16 then sendMsix s 1 else s
  match c.src with
  | none => s
  | some (m, tag) => sendMsg s (newMsg s tMGMTRESP 15 0 m tag 0 (.mboxAns c.mbx status detail answer))

theorem finish_eq (s : State) (c : Call) (status detail : Nat) (answer : List Nat) :
    finish s c status detail answer = answered (closed s c status detail answer) c status detail answer := by
  unfold finish answered closed answerBytes
  simp only [decide_eq_true_eq] <;> rfl

theorem answered_posts (s : State) (c : Call) (status detail : Nat) (answer : List Nat) (n : Nat) :
    Posts s (answered s c status detail answer) n ∧ (answered s c status detail answer).fw = s.fw ∧
    ∀ off, (answered s c status detail answer).reg off = s.reg off := by
  have hl : ∀ (u : State) m, Posts u (sendMsg u m) n ∧ (sendMsg u m).fw = u.fw ∧ ∀ off, (sendMsg u m).reg off = u.reg off := fun u m =>
    ⟨(sendMsg_linksOnly u m).posts n, (sendMsg_linksOnly u m).fw, (sendMsg_linksOnly u m).reg⟩
  have hif : ∀ (p : Prop) [Decidable p], Posts s (if p then sendMsix s 1 else s) n ∧ (if p then sendMsix s 1 else s).fw = s.fw ∧
      ∀ off, (if p then sendMsix s 1 else s).reg off = s.reg off := fun p _ => by
    split
    · exact sendMsix_posts s n 1
    · exact ⟨.rfl, rfl, fun _ => rfl⟩
  unfold answered
  obtain ⟨h1, h2, h3⟩ := hif (c.irq ∧ c.mbx < 16)
  dsimp only
  split
  · exact ⟨h1, h2, h3⟩
  · next m tag _ =>
    obtain ⟨k1, k2, k3⟩ := hl (if c.irq ∧ c.mbx < 16 then sendMsix s 1 else s) (newMsg (if c.irq ∧ c.mbx < 16 then sendMsix s 1 else s) tMGMTRESP 15 0 m tag 0
      (.mboxAns c.mbx status detail answer))
    exact ⟨h1.trans k1, k2.trans h2, fun off => (k3 off).trans (h3 off)⟩

theorem closed_posts (s : State) (c : Call) (status detail : Nat) (answer : List Nat) : Posts s (closed s c status detail answer) c.mbx :=
  (setCalls_posts ..).trans ((setPayload_posts ..).trans ((setStat_posts ..).trans ((setStat_posts ..).trans (setStat_posts ..))))

theorem finish_posts (s : State) (c : Call) (status detail : Nat) (answer : List Nat) : Posts s (finish s c status detail answer) c.mbx := by
  rw [finish_eq]
  exact (closed_posts ..).trans (answered_posts ..).1

theorem finish_calls (s : State) (c : Call) (status detail : Nat) (answer : List Nat) :
    (finish s c status detail answer).fw.calls = s.fw.calls.filter (fun x => x.mbx != c.mbx) := by
  rw [finish_eq, (answered_posts _ c status detail answer c.mbx).2.1]
  rfl

/-- The status register of the mailbox as a command ends. -/
theorem finish_stat (s : State) (c : Call) (status detail : Nat) (answer : List Nat) :
    (finish s c status detail answer).regField (rMbx c.mbx + 4) 1 0 = stDoneM ∧
    (finish s c status detail answer).regField (rMbx c.mbx + 4) 15 8 =
      (if isG1 c.mbx && decide (mCHECK_FAILED < status) then mBAD_ARGUMENT else status) % 2 ^ 8 ∧
    (finish s c status detail answer).regField (rMbx c.mbx + 4) 28 16 = (answerBytes c status detail answer).length % 2 ^ 13 ∧
    (finish s c status detail answer).regField (rMbx c.mbx + 4) 3 2 = s.regField (rMbx c.mbx + 4) 3 2 := by
  have hr : ∀ hi lo, (finish s c status detail answer).regField (rMbx c.mbx + 4) hi lo =
      (closed s c status detail answer).regField (rMbx c.mbx + 4) hi lo := fun hi lo => by
    rw [finish_eq]
    exact regField_of_reg ((answered_posts _ c status detail answer c.mbx).2.2 _) hi lo
  refine ⟨(hr 1 0).trans (regField_setField _ _ _ (by decide) (by decide)), ?_, ?_, ?_⟩
  · refine (hr 15 8).trans ((regField_setField_apart _ _ _ (by decide) (by decide) (by decide)).trans ?_)
    exact regField_setField _ _ _ (by decide) (by decide)
  · refine (hr 28 16).trans ((regField_setField_apart _ _ _ (by decide) (by decide) (by decide)).trans ?_)
    refine (regField_setField_apart _ _ _ (by decide) (by decide) (by decide)).trans ?_
    exact regField_setField _ _ _ (by decide) (by decide)
  · refine (hr 3 2).trans ((regField_setField_apart _ _ _ (by decide) (by decide) (by decide)).trans ?_)
    refine (regField_setField_apart _ _ _ (by decide) (by decide) (by decide)).trans ?_
    exact (regField_setField_apart _ _ _ (by decide) (by decide) (by decide)).trans rfl

theorem finish_payload (s : State) (c : Call) (status detail : Nat) (answer : List Nat)
    (h : (answerBytes c status detail answer).length ≤ 4096) :
    (payload (finish s c status detail answer) c.mbx).take (answerBytes c status detail answer).length = answerBytes c status detail answer := by
  rw [finish_eq, payload_of_tab (s := closed s c status detail answer) (by rw [(answered_posts _ c status detail answer c.mbx).2.1])]
  exact payload_setPayload_take { s with fw := { s.fw with calls := s.fw.calls.filter (fun x => x.mbx != c.mbx) } } c.mbx h

theorem busyMbx_of_field {s : State} {n v : Nat} (h : s.regField (rMbx n + 4) 1 0 = v) (hv : v ≠ stBusy) : busyMbx s n = false := by
  rw [busyMbx, h, beq_eq_false_iff_ne]; exact hv

/-- A command that ends well is answered with its bytes. -/
theorem finish_good (s : State) (c : Call) {status : Nat} (detail : Nat) {answer : List Nat} (hst : status ≤ mIN_PROGRESS) (ha : answer.length ≤ 4096) :
    Answered (finish s c status detail answer) c.mbx status answer := by
  have hb : answerBytes c status detail answer = answer := if_pos hst
  obtain ⟨h1, h2, h3, -⟩ := finish_stat s c status detail answer
  have hp := finish_payload s c status detail answer (by rw [hb]; exact ha)
  rw [hb] at h3 hp
  have h1' : status ≤ 1 := hst
  refine ⟨busyMbx_of_field h1 (by decide), h1, h2.trans ?_, h3.trans (Nat.mod_eq_of_lt (by omega)), hp⟩
  have hn : decide (mCHECK_FAILED < status) = false := decide_eq_false (Nat.not_lt.2 (h1'.trans (by decide)))
  rw [hn, Bool.and_false, if_neg (by decide), Nat.mod_eq_of_lt (by omega)]

/-- A command that ends with an error every mailbox kind knows is answered with its detail. -/
theorem finish_bad (s : State) (c : Call) {status : Nat} (detail : Nat) (answer : List Nat) (hlo : mIN_PROGRESS < status)
    (hhi : status ≤ mCHECK_FAILED ∨ (isG1 c.mbx = false ∧ status < 256)) :
    Answered (finish s c status detail answer) c.mbx status (natLe 4 detail) := by
  have hn : (isG1 c.mbx && decide (mCHECK_FAILED < status)) = false := by
    rcases hhi with h | ⟨h, -⟩
    · rw [decide_eq_false (Nat.not_lt.2 h), Bool.and_false]
    · rw [h, Bool.false_and]
  have hb : answerBytes c status detail answer = natLe 4 detail := by
    rw [answerBytes, if_neg (Nat.not_le.2 hlo), hn]; rfl
  obtain ⟨h1, h2, h3, -⟩ := finish_stat s c status detail answer
  have hp := finish_payload s c status detail answer (by rw [hb, natLe_length]; decide)
  rw [hb] at h3 hp
  have hlt : status < 256 := hhi.elim (fun h => Nat.lt_of_le_of_lt h (by decide)) (·.2)
  refine ⟨busyMbx_of_field h1 (by decide), h1, h2.trans ?_, h3.trans (Nat.mod_eq_of_lt (by rw [natLe_length]; decide)), hp⟩
  rw [hn, if_neg (by decide)]
  exact Nat.mod_eq_of_lt hlt

/-! ## GO and service (R388, R389, R391) -/

/-- A command that waits alone at its mailbox, its request in the payload. -/
def posted (s : State) (c : Call) : State :=
  let u := ((setPayload s c.mbx c.req).setReg (rMbx c.mbx)
    (BitVec.ofNat 32 (c.op % 65536 + (if c.irq then 65536 else 0) + 131072 * c.req.length))).setField (rMbx c.mbx + 4) 1 0 stBusy
  { u with fw := { u.fw with calls := s.fw.calls ++ [c] } }

theorem posted_posts (s : State) (c : Call) : Posts s (posted s c) c.mbx :=
  (setPayload_posts ..).trans ((setCmd_posts ..).trans ((setStat_posts ..).trans (setCalls_posts ..)))

theorem serverOf_congr {c d : Call} (ho : c.op = d.op) (hr : c.req = d.req) : serverOf c = serverOf d := by
  unfold serverOf; rw [ho, hr]

theorem pstate_of_serves {s : State} {q : Nat} (h : serves s q = true) : pstate s q ≠ pHELD := by
  intro k
  rw [serves, k] at h
  exact absurd h (by decide)

theorem rPstat_ne_rMbx (q : Nat) {n : Nat} (hq : q < 7) : rPstat q ≠ rMbx n ∧ rPstat q ≠ rMbx n + 4 := by
  unfold rPstat rMbx; split <;> omega

theorem serverOf_lt {c : Call} {q : Nat} (h : serverOf c = some q) : q < 7 := by
  unfold serverOf at h
  split at h
  · rw [← Option.some.inj h]; decide
  · split at h
    · rw [← Option.some.inj h]; decide
    · split at h
      · rw [← Option.some.inj h]; decide
      · split at h
        · exact absurd h nofun
        · rw [← Option.some.inj h]; decide

/-- The only call that waits is served at once, where its processor serves. -/
theorem serveCalls_only {s : State} {c : Call} (hc : s.fw.calls = [c]) (hf : c.fwd = none) (hb : c.begun = false)
    (hr : s.fw.recovery = false) (hs : ∀ q, serverOf c = some q → serves s q = true) : serveCalls s = startCmd s c := by
  have hfind : findCall s c.mbx = some c := by rw [findCall, hc]; simp
  have hpass : (passCall ⟨s, [], []⟩ c).s = startCmd s c := by
    unfold passCall
    rw [hf, hb, hr]
    rw [if_neg (by decide), if_neg (by decide), if_neg (by decide)]
    split
    · rfl
    · next q hq =>
      refine congrArg Pass.s ((if_neg ?_).trans ((if_neg ?_).trans (if_neg ?_)))
      · exact Bool.false_ne_true
      · exact pstate_of_serves (hs q hq)
      · simp [hs q hq]
  rw [serveCalls, hc]
  simp only [List.map_cons, List.map_nil, List.foldl_cons, List.foldl_nil, passMbx, hfind]
  exact hpass

/-- The call of a GO with its plan. -/
def goCall (n op : Nat) (req : List Nat) (irq : Bool) (plan : List (List Nat)) (num : Nat) : Call := ⟨n, op, req, irq, false, plan, num, none, none⟩

theorem lead_ne_rMbx {n off : Nat} (h : off = 0x02010100 ∨ ∃ k, k < 16 ∧ off = 0x02010200 + 4 * k) : off ≠ rMbx n ∧ off ≠ rMbx n + 4 := by
  unfold rMbx
  obtain rfl | ⟨k, hk, rfl⟩ := h <;> split <;> omega

/-- Which module a mailbox serves is not in its registers. -/
theorem Posts.mbxTarget {s t : State} {n : Nat} (h : Posts s t n) (m : Nat) : mbxTarget t m = mbxTarget s m := by
  have hm : t.modId = s.modId := by rw [h.only]
  unfold Machine.mbxTarget
  rw [hm]
  by_cases hn : m < 16
  · have h1 := lead_ne_rMbx (n := n) (.inl (Eq.refl _))
    have h2 := lead_ne_rMbx (n := n) (.inr ⟨m, hn, Eq.refl _⟩)
    rw [regBit_of_reg (h.reg _ h1.1 h1.2), regField_of_reg (h.reg _ h2.1 h2.2)]
  · rw [if_neg (fun h => hn h.1), if_neg (fun h => hn h.1)]

/-- A GO that asks the module itself, its request in the payload. -/
theorem mbxStart_own {s : State} {n : Nat} (irq : Bool) {op len : Nat} (plan : List (List Nat)) (num : Nat) (src : Option (Nat × Nat))
    (ht : src.isSome = true ∨ mbxTarget s n = s.modId) :
    mbxStart s n irq op len plan num src =
      serveCalls (let u := ((s.setReg (rMbx n) (BitVec.ofNat 32 (op % 65536 + (if irq then 65536 else 0) + 131072 * len))).setField
          (rMbx n + 4) 1 0 stBusy)
        { u with fw := { u.fw with calls := u.fw.calls ++ [⟨n, op, (payload s n ++ List.replicate (len - 4096) 0).take len, irq, false, plan, num, src, none⟩] } }) := by
  unfold mbxStart
  dsimp only
  have hp := (setCmd_posts s n (BitVec.ofNat 32 (op % 65536 + (if irq then 65536 else 0) + 131072 * len))).trans (setStat_posts _ n 1 0 stBusy)
  rw [if_pos]
  refine ht.imp id fun ht => ?_
  rw [hp.mbxTarget, ht]
  exact hp.only ▸ rfl

/-- GO of a free mailbox that serves this module runs its command at once. -/
theorem mbxGo_free {s : State} {n op : Nat} {b : List Nat} (h : MbxFree s n op b) (irq : Bool) (plan : List (List Nat)) (num : Nat) :
    mbxGo s n irq op b plan num = startCmd (posted s (goCall n op b irq plan num)) (goCall n op b irq plan num) := by
  obtain ⟨hdark, hbusy, ht, hcalls, hrec, hlen, hserve⟩ := h
  have hp := posted_posts s (goCall n op b irq plan num)
  have hreq : (payload (setPayload s n b) n ++ List.replicate (b.length - 4096) 0).take b.length = b := by
    rw [List.take_append_of_le_length (by rw [payload_length]; exact hlen), payload_setPayload_take s n hlen]
  have he : mbxGo s n irq op b plan num = mbxStart (setPayload s n b) n irq op b.length plan num none := by
    unfold mbxGo
    rw [List.take_of_length_le hlen, hdark, hbusy, if_neg (by decide), if_neg (by decide)]
  have hser : ∀ q, serverOf (goCall n op b irq plan num) = some q → serves (posted s (goCall n op b irq plan num)) q = true := fun q hq => by
    obtain ⟨h1, h2⟩ := rPstat_ne_rMbx (n := n) q (serverOf_lt hq)
    have hq' := hserve q ((serverOf_congr rfl rfl).trans hq)
    unfold serves pstate at *
    rw [regField_of_reg (hp.reg _ h1 h2)]
    exact hq'
  rw [he, mbxStart_own irq plan num none (.inr (((setPayload_posts s n b).mbxTarget n).trans ht)), hreq]
  exact serveCalls_only (c := goCall n op b irq plan num) (congrArg (· ++ [goCall n op b irq plan num]) hcalls) rfl rfl hrec hser

/-- The mailbox's checks do not read what GO wrote. -/
theorem callFault_posted {s t : State} {n : Nat} (h : Posts s t n) (hn : n ≤ 16) (c d : Call) (hm : c.mbx = d.mbx) (ho : c.op = d.op) (hr : c.req = d.req) :
    callFault t c = callFault s d := by
  have hmd : t.md = s.md := h.md
  have hlock : t.reg rLock = s.reg rLock := h.reg _ (by unfold rLock rMbx; split <;> omega) (by unfold rLock rMbx; split <;> omega)
  have hl : ∀ m b, lockedFor t m b = lockedFor s m b := fun m b => by
    unfold lockedFor ownsLocks
    rw [regField_of_reg hlock, regField_of_reg hlock, h.session]
  have hl : lockedFor t d.mbx = lockedFor s d.mbx := funext (hl _)
  unfold callFault
  rw [hm, ho, hr, hmd, h.session, hl]

theorem callFault_served {s : State} {n op : Nat} {b : List Nat} (h : Served s n op b) (irq : Bool) (plan : List (List Nat)) (num : Nat) :
    callFault s (goCall n op b irq plan num) = none := by
  obtain ⟨-, hlen, k, hk, htakes, hsess, hblock⟩ := h
  unfold callFault goCall
  dsimp only
  rw [hk]
  dsimp only
  rw [if_neg (by rw [htakes]; decide)]
  have hb : k.block.any (lockedFor s n) = false := by
    cases hkb : k.block with
    | none => rfl
    | some b' => exact hblock b' hkb
  rw [hb, if_neg (c := _ ≠ _) (not_not_intro hlen)]
  cases hks : k.sess with
  | false => simp
  | true =>
    obtain ⟨hopen, x, hx, hxb⟩ := hsess hks
    simp [hopen, hx, hxb]

/-- A command that is served runs. -/
theorem mbxGo_served {s : State} {n op : Nat} {b : List Nat} (h : Served s n op b) (hn : n ≤ 16) (irq : Bool) (plan : List (List Nat)) (num : Nat) :
    mbxGo s n irq op b plan num = runCmd (posted s (goCall n op b irq plan num)) (goCall n op b irq plan num) := by
  rw [mbxGo_free h.1, startCmd, callFault_posted (posted_posts ..) hn _ (goCall n op b irq plan num) rfl rfl rfl, callFault_served h]

end Sys2Proof.Machine
end

section
/-! SUPPORT. The sideband mirror, JTAG and the console (R389, R398, R510, R515, R539). -/
namespace Sys2Proof.Machine

/-! ## IDENTIFY (R508) -/

/-- The identity block reads the cluster registers, the module ID, the licences and the reset record. -/
theorem identityBlock_congr {s t : State} (hreg : ∀ k, k < 64 → t.reg (rClcore k) = s.reg (rClcore k)) (hid : t.modId = s.modId)
    (hlic : t.fw.lics = s.fw.lics) (hclean : t.md.clean = s.md.clean) (hready : t.md.ready = s.md.ready) (hkind : t.md.kind = s.md.kind)
    (hcause : t.md.cause = s.md.cause) : identityBlock t = identityBlock s := by
  have hmap : ∀ hi lo, (List.range 64).map (fun c => t.regField (rClcore c) hi lo) = (List.range 64).map (fun c => s.regField (rClcore c) hi lo) :=
    fun hi lo => List.map_congr_left fun c hc => regField_of_reg (hreg c (List.mem_range.1 hc)) hi lo
  unfold identityBlock tierOf licFeatures
  rw [hmap, hmap, hid, hlic, hclean, hready, hkind, hcause]

theorem rClcore_ne_rMbx {n k : Nat} (h : k < 64) : rClcore k ≠ rMbx n ∧ rClcore k ≠ rMbx n + 4 := by
  unfold rClcore rMbx; split <;> omega

/-- What IDENTIFY answers. -/
def identity (s : State) : List Nat :=
  identityBlock s ++ (List.range 64).flatMap (fun k => natLe 4 (s.reg (rClcore k)).toNat) ++ List.replicate 3584 0

theorem identity_posts {s t : State} {n : Nat} (h : Posts s t n) : identity t = identity s := by
  have hreg : ∀ k, k < 64 → t.reg (rClcore k) = s.reg (rClcore k) := fun k hk => h.reg _ (rClcore_ne_rMbx hk).1 (rClcore_ne_rMbx hk).2
  have hfl : (List.range 64).flatMap (fun k => natLe 4 (t.reg (rClcore k)).toNat) = (List.range 64).flatMap (fun k => natLe 4 (s.reg (rClcore k)).toNat) := by
    rw [List.flatMap_def, List.flatMap_def, List.map_congr_left fun k hk => congrArg (fun w => natLe 4 (BitVec.toNat w)) (hreg k (List.mem_range.1 hk))]
  have hmd := h.md
  unfold identity
  rw [identityBlock_congr hreg (by rw [h.only]) (by rw [h.only]) (by rw [hmd]) (by rw [hmd]) (by rw [hmd]) (by rw [hmd]), hfl]

theorem identity_length (s : State) : (identity s).length = 4096 := by
  have hfl : ((List.range 64).flatMap (fun k => natLe 4 (s.reg (rClcore k)).toNat)).length = 256 := by
    simp [List.length_flatMap, natLe_length]
  unfold identity
  rw [List.length_append, List.length_append, hfl]
  simp only [identityBlock, fuseBytes, List.length_append, List.length_cons, List.length_nil, List.length_map, List.length_range,
    List.length_replicate, natLe_length]

theorem runCmd_identify (s : State) {c : Call} (h : c.op = 0x01) : runCmd s c = finish s c mOK 0 (identity s) := by
  unfold runCmd; rw [h]; rfl

/-! ## The only call (R391) -/

/-- The only call that waits is served, refused, or waits on. -/
theorem serveCalls_single {s : State} {c : Call} (hc : s.fw.calls = [c]) (hf : c.fwd = none) (hb : c.begun = false) :
    serveCalls s = s ∨ serveCalls s = finish s c mPROC_HELD 0 [] ∨ serveCalls s = startCmd s c := by
  have hfind : findCall s c.mbx = some c := by rw [findCall, hc]; simp
  have he : serveCalls s = (passCall ⟨s, [], []⟩ c).s := by
    rw [serveCalls, hc]
    simp only [List.map_cons, List.map_nil, List.foldl_cons, List.foldl_nil, passMbx, hfind]
  rw [he, passCall, hf, hb]
  rw [if_neg (by decide), if_neg (by decide)]
  split
  · split
    · exact .inr (.inr rfl)
    · exact .inr (.inl rfl)
  · split
    · exact .inr (.inr rfl)
    · split
      · exact .inl rfl
      · split
        · exact .inr (.inl rfl)
        · split
          · exact .inl rfl
          · exact .inr (.inr rfl)

theorem startCmd_identify_posts (s : State) {c : Call} (h : c.op = 0x01) : Posts s (startCmd s c) c.mbx := by
  unfold startCmd
  split
  · exact finish_posts ..
  · rw [runCmd_identify s h]; exact finish_posts ..

/-! ## Writes to the mirror (R398) -/

theorem mirrorPut_past (f : Nat) {o : Nat} (bs : List Nat) (s : State) (h : 0x2000 ≤ o) : mirrorPut f o bs s = s := by
  induction f generalizing o bs with
  | zero => rfl
  | succ f ih =>
    cases bs with
    | nil => rfl
    | cons b bs =>
      rw [mirrorPut, if_neg (by omega), if_neg (by omega)]
      exact ih bs (by omega)

theorem mirrorPut_nil (f o : Nat) (s : State) : mirrorPut f o [] s = s := by
  cases f <;> rfl

/-- A run of the payload is written at once. -/
theorem mirrorPut_payload {o : Nat} {bs : List Nat} (s : State) (h1 : 0x1000 ≤ o) (h2 : o < 0x2000) (hne : bs ≠ []) :
    mirrorPut bs.length o bs s = writePayload s 1 16 (o - 0x1000) (bs.take (0x2000 - o)) := by
  obtain ⟨b, bs, rfl⟩ := List.exists_cons_of_ne_nil hne
  rw [List.length_cons, mirrorPut, if_neg (by omega), if_pos ⟨h1, h2⟩]
  dsimp only
  by_cases hlen : 0x2000 - o ≤ bs.length + 1
  · rw [Nat.min_eq_left hlen]
    exact mirrorPut_past _ _ _ (by omega)
  · rw [Nat.min_eq_right (by omega), List.drop_of_length_le (by simp), mirrorPut_nil, List.take_of_length_le (by simp),
      List.take_of_length_le (by simp; omega)]

theorem mirrorPut_word (f b : Nat) {bs : List Nat} {s : State} (h : 3 ≤ bs.length) :
    mirrorPut (f + 1) 0 (b :: bs) s = mirrorPut f 4 (bs.drop 3) (writeMbxCmd s 1 16 (leNat (b :: bs.take 3))) := by
  rw [mirrorPut, if_pos ⟨rfl, h⟩]

/-- GO of IDENTIFY over the mirror: one whole word of MBX_CMD. -/
theorem mirrorPut_go (s : State) : mirrorPut 4 0 (natLe 4 (2 ^ 31 + 1)) s = writeMbxCmd s 1 16 (2 ^ 31 + 1) := by
  have hv : leNat (1 :: List.take 3 [0, 0, 128]) = 2 ^ 31 + 1 := by decide
  rw [show natLe 4 (2 ^ 31 + 1) = [1, 0, 0, 128] by decide, mirrorPut_word 3 1 (by decide), hv]
  exact mirrorPut_nil ..

/-- The state with the next offset of the mirror. -/
def atOffset (s : State) (o : Nat) : State := { s with md := { s.md with sbOff := o } }

theorem mirrorWrite_eq (s : State) (o : Nat) (b : List Nat) : mirrorWrite s o b = mirrorPut b.length o b (atOffset s ((o + b.length) % 65536)) := rfl

theorem atOffset_still (s : State) (o : Nat) : Still s (atOffset s o) := ⟨⟨rfl, rfl, rfl, rfl⟩, rfl⟩

/-- The GO word at mailbox 16. -/
theorem writeMbxCmd_identify (s : State) (hb : busyMbx s 16 = false) :
    writeMbxCmd s 1 16 (2 ^ 31 + 1) = mbxStart s 16 false 1 0 [] 0 none := by
  unfold writeMbxCmd
  rw [hb, if_neg (by decide), if_pos (by decide)]
  rfl

/-- The call of that word, and the state in which it waits. -/
def goIdentify : Call := ⟨16, 1, [], false, false, [], 0, none, none⟩
def waitsIdentify (s : State) : State :=
  let u := (s.setReg (rMbx 16) (BitVec.ofNat 32 1)).setField (rMbx 16 + 4) 1 0 stBusy
  { u with fw := { u.fw with calls := u.fw.calls ++ [goIdentify] } }

theorem mbxStart_identify (s : State) : mbxStart s 16 false 1 0 [] 0 none = serveCalls (waitsIdentify s) := by
  rw [mbxStart_own false [] 0 none (.inr rfl)]
  have hr : (payload s 16 ++ List.replicate (0 - 4096) 0).take 0 = [] := List.take_zero
  rw [hr]
  rfl

theorem waitsIdentify_posts (s : State) : Posts s (waitsIdentify s) 16 :=
  (setCmd_posts s 16 _).trans ((setStat_posts ..).trans (setCalls_posts ..))

/-- The word changes the mailbox, or is dropped and counted where it is BUSY. -/
theorem writeMbxCmd_identify_still {s : State} (hc : s.fw.calls = []) :
    Still s (writeMbxCmd s 1 16 (2 ^ 31 + 1)) ∧ (writeMbxCmd s 1 16 (2 ^ 31 + 1)).md = s.md := by
  cases hb : busyMbx s 16
  · rw [writeMbxCmd_identify s hb, mbxStart_identify]
    have hw := waitsIdentify_posts s
    have hcs : (waitsIdentify s).fw.calls = [goIdentify] := congrArg (· ++ [goIdentify]) hc
    have hp : Posts s (serveCalls (waitsIdentify s)) 16 := by
      rcases serveCalls_single hcs rfl rfl with h | h | h <;> rw [h]
      · exact hw
      · exact hw.trans (finish_posts _ goIdentify _ _ _)
      · exact hw.trans (startCmd_identify_posts _ (c := goIdentify) rfl)
    exact ⟨hp.still, hp.md⟩
  · unfold writeMbxCmd
    rw [hb, if_pos rfl]
    have hl := accessViolation_logsOnly s 1 (rMbx 16) (2 ^ 31 + 1)
    exact ⟨hl.still, by unfold LogsOnly at hl; rw [hl]⟩

/-- IDENTIFY over the mirror. -/
theorem writeMbxCmd_identify_answered {s : State} (h : Served s 16 0x01 []) :
    Answered (writeMbxCmd s 1 16 (2 ^ 31 + 1)) 16 mOK (identity s) := by
  have hf := callFault_served h false [] 0
  obtain ⟨⟨-, hbusy, -, hcalls, hrec, -, hserve⟩, -⟩ := h
  have hw := waitsIdentify_posts s
  have hcs : (waitsIdentify s).fw.calls = [goIdentify] := congrArg (· ++ [goIdentify]) hcalls
  have hser : ∀ q, serverOf goIdentify = some q → serves (waitsIdentify s) q = true := fun q hq => by
    obtain ⟨h1, h2⟩ := rPstat_ne_rMbx (n := 16) q (serverOf_lt hq)
    have hq' := hserve q ((serverOf_congr rfl rfl).trans hq)
    unfold serves pstate at *
    rw [regField_of_reg (hw.reg _ h1 h2)]
    exact hq'
  rw [writeMbxCmd_identify s hbusy, mbxStart_identify, serveCalls_only hcs rfl rfl hrec hser, startCmd,
    callFault_posted hw (by decide) goIdentify (goCall 16 1 [] false [] 0) rfl rfl rfl, hf]
  dsimp only
  rw [runCmd_identify _ rfl, identity_posts hw]
  exact finish_good (waitsIdentify s) goIdentify 0 (by decide) (Nat.le_of_eq (identity_length s))

/-- What a write that begins with an offset does. -/
def WritesMirror (s t : State) (off : Nat) (b : List Nat) : Prop :=
  Still s t ∧ t.md.sbOff = (off + b.length) % 65536 ∧
  (0x1000 ≤ off → off + b.length ≤ 0x2000 → busyMbx s 16 = false →
    ((payload t 16).drop (off - 0x1000)).take b.length = b ∧ (payload t 16).take (off - 0x1000) = (payload s 16).take (off - 0x1000)) ∧
  (0x1000 ≤ off → off + b.length ≤ 0x2000 → busyMbx s 16 = true → tget [] t.fw.payload 16 = tget [] s.fw.payload 16) ∧
  (off = 0 → b = natLe 4 (2 ^ 31 + 1) → Served s 16 0x01 [] → Answered t 16 mOK (identity s))

theorem payload_written (s : State) (n k : Nat) (b : List Nat) (h : k + b.length ≤ 4096) :
    ((payload (setPayload s n ((payload s n).take k ++ b)) n).drop k).take b.length = b ∧
    (payload (setPayload s n ((payload s n).take k ++ b)) n).take k = (payload s n).take k := by
  have hk : ((payload s n).take k).length = k := by rw [List.length_take, payload_length]; omega
  have hlen : ((payload s n).take k ++ b).length ≤ 4096 := by rw [List.length_append, hk]; omega
  rw [payload_setPayload s n hlen, List.append_assoc]
  constructor
  · rw [List.drop_left' hk, List.take_left]
  · rw [List.take_left' hk]

theorem LogsOnly.fw {s t : State} (h : LogsOnly s t) : t.fw = s.fw := by unfold LogsOnly at h; rw [h]

theorem writePayload_still (s : State) (k : Nat) (b : List Nat) : Still s (writePayload s 1 16 k b) ∧ (writePayload s 1 16 k b).md = s.md := by
  unfold writePayload
  split
  · have hl := accessViolation_logsOnly s 1 (0x00011000 + 0x2000 * 16 + k) (leNat (b.take 4))
    exact ⟨hl.still, by unfold LogsOnly at hl; rw [hl]⟩
  · exact ⟨(setPayload_posts ..).still, rfl⟩

theorem mirrorWrite_payload (s : State) {off : Nat} (b : List Nat) (h : 0x1000 ≤ off) : WritesMirror s (mirrorWrite s off b) off b := by
  have hat := atOffset_still s ((off + b.length) % 65536)
  rw [mirrorWrite_eq]
  generalize hu : atOffset s ((off + b.length) % 65536) = u at hat
  have hmd : u.md.sbOff = (off + b.length) % 65536 := by rw [← hu]; rfl
  have hfw : u.fw = s.fw := by rw [← hu]; rfl
  have hbusy : busyMbx u 16 = busyMbx s 16 := by rw [← hu]; rfl
  have hpay : payload u 16 = payload s 16 := payload_of_tab (by rw [hfw])
  have h0 : ∀ t : State, off = 0 → b = natLe 4 (2 ^ 31 + 1) → Served s 16 0x01 [] → Answered t 16 mOK (identity s) := fun _ h => by omega
  by_cases hin : off < 0x2000 ∧ b ≠ []
  · rw [mirrorPut_payload u h hin.1 hin.2]
    obtain ⟨hs, hm⟩ := writePayload_still u (off - 0x1000) (b.take (0x2000 - off))
    refine ⟨hat.trans hs, (congrArg Md.sbOff hm).trans hmd, fun _ hlen hb => ?_, fun _ hlen hb => ?_, h0 _⟩
    · rw [List.take_of_length_le (l := b) (by omega), writePayload, hbusy, hb, if_neg (by decide), ← hpay]
      exact payload_written u 16 _ b (by omega)
    · rw [writePayload, hbusy, hb, if_pos rfl]
      have hl := accessViolation_logsOnly u 1 (0x00011000 + 0x2000 * 16 + (off - 0x1000)) (leNat ((b.take (0x2000 - off)).take 4))
      rw [hl.fw, ← hfw]
  · have he : mirrorPut b.length off b u = u := by
      by_cases hb : b = []
      · rw [hb]; rfl
      · exact mirrorPut_past _ _ _ (by by_contra hlt; exact hin ⟨by omega, hb⟩)
    rw [he]
    refine ⟨hat, hmd, fun _ hlen _ => ⟨?_, by rw [hpay]⟩, fun _ _ _ => by rw [hfw], h0 _⟩
    have hb : b = [] := by
      by_contra hb
      have := List.length_pos_iff.2 hb
      exact hin ⟨by omega, hb⟩
    rw [hb]; rfl

theorem mirrorWrite_go {s : State} (hc : s.fw.calls = []) : WritesMirror s (mirrorWrite s 0 (natLe 4 (2 ^ 31 + 1))) 0 (natLe 4 (2 ^ 31 + 1)) := by
  have hlen : (natLe 4 (2 ^ 31 + 1)).length = 4 := by decide
  rw [mirrorWrite_eq, hlen, mirrorPut_go]
  have hc' : (atOffset s ((0 + 4) % 65536)).fw.calls = [] := hc
  obtain ⟨hs, hm⟩ := writeMbxCmd_identify_still hc'
  refine ⟨(atOffset_still ..).trans hs, (congrArg Md.sbOff hm).trans rfl, fun h => absurd h (by decide), fun h => absurd h (by decide), fun _ _ hserved => ?_⟩
  have hserved' : Served (atOffset s ((0 + 4) % 65536)) 16 0x01 [] := hserved
  exact writeMbxCmd_identify_answered hserved'

theorem mirrorWrite_writes {s : State} {off : Nat} {b : List Nat} (h : 0x1000 ≤ off ∨ (off = 0 ∧ b = natLe 4 (2 ^ 31 + 1) ∧ s.fw.calls = [])) :
    WritesMirror s (mirrorWrite s off b) off b := by
  obtain h | ⟨rfl, rfl, hc⟩ := h
  · exact mirrorWrite_payload s b h
  · exact mirrorWrite_go hc

/-! ## Modes, reads and addresses (R398, R539) -/

section
variable {s : State} (hd : sideDark s = false)
include hd

theorem exec_i3cPrivateWrite (off : Fin 65536) (data : List Byte) : exec (.i3cPrivateWrite off data) s =
    .next (if s.md.sbDyn.isNone then s else mirrorWrite s off (reqBytes data)) := by
  show Host.Outcome.next (if sideDark s ∨ s.md.sbDyn.isNone then s else mirrorWrite s off (data.map (·.toNat))) = _
  rw [hd]
  simp [reqBytes]

theorem exec_smbusBlockWrite (off : Fin 65536) {data : List Byte} (h : data.length ≤ 30) : exec (.smbusBlockWrite off data) s =
    .next (if s.md.sbDyn.isSome then s else mirrorWrite s off (reqBytes data)) := by
  refine (if_neg (Nat.not_lt.2 h)).trans ?_
  rw [hd]
  simp [reqBytes]

theorem exec_i3cPrivateRead (n : Nat) : exec (.i3cPrivateRead n) s = .next (if s.md.sbDyn.isNone then s else mirrorRead s n) := by
  show Host.Outcome.next (if sideDark s ∨ s.md.sbDyn.isNone then s else mirrorRead s n) = _
  rw [hd]
  simp

theorem exec_smbusBlockRead : exec .smbusBlockRead s = .next (if s.md.sbDyn.isSome then s else mirrorRead s 32) := by
  show Host.Outcome.next (if sideDark s ∨ s.md.sbDyn.isSome then s else mirrorRead s 32) = _
  rw [hd]
  simp
end

theorem mirrorRead_spec (s : State) (n : Nat) : Still s (mirrorRead s n) ∧ (mirrorRead s n).md.sbOff = (s.md.sbOff + n) % 65536 ∧
    (mirrorRead s n).out = s.out ++ [.answer ((List.range n).map (fun i => mirrorByte s ((s.md.sbOff + i) % 65536))) false] :=
  ⟨⟨⟨rfl, rfl, rfl, rfl⟩, rfl⟩, rfl, rfl⟩

theorem takeAddress_eq (s : State) (addr : Nat) (v33 : Bool) : takeAddress s addr v33 =
    if s.md.input = true ∧ v33 = false then { s with md := { s.md with sbDyn := some addr } } else s := by
  unfold takeAddress sidePower
  cases s.md.input <;> cases v33 <;> rfl

/-! ## Debug (R510, R515) -/

/-- The first use is measured; a later one changes nothing. -/
theorem debugUse_spec {s : State} (hrun : s.clk.run = true) : Still s (debugUse s) ∧ (debugUse s).md = { s.md with debug := true } ∧
    (s.md.debug = true → debugUse s = s) ∧
    (s.md.debug = false → ∃ e, (debugUse s).fw.mlog.getLast? = some e ∧ e.take 3 = [5, 0xFF, 0xFF]) := by
  cases hdbg : s.md.debug
  · have he : debugUse s = measure { s with fresh := s.fresh + 64, md := { s.md with debug := true } } 5 0xFF 0xFF [] 0
        ((List.range 64).map (fun i => (Config.freeByte (s.fresh + i)).toNat)) false :=
      if_neg (by rw [hdbg, hrun]; decide)
    rw [he]
    refine ⟨⟨⟨rfl, rfl, rfl, rfl⟩, rfl⟩, rfl, nofun, fun _ => ⟨_, List.getLast?_concat, rfl⟩⟩
  · have he : debugUse s = s := if_pos (.inl hdbg)
    rw [he]
    exact ⟨.rfl, by rw [← hdbg], fun _ => rfl, nofun⟩

/-- Settles O57: in its mode a write of the mirror reaches the payload or GO, and a debug instruction acts under the licence alone. -/
theorem sidePortsAnswer : Obligations.SidePortsAnswer := by
  unfold Obligations.SidePortsAnswer
  intro s
  refine ⟨fun hd => ⟨fun off data => ?_, fun n => ?_⟩, fun addr static v33 => ?_, rfl, fun link => ?_, ?_, fun h => ?_, fun hlic hrun => ⟨?_, fun data => ?_⟩⟩
  · have hlen : (reqBytes data).length = data.length := List.length_map _
    refine ⟨fun h => ?_, fun hdyn h => ⟨mirrorWrite s off (reqBytes data), ?_, ?_⟩, fun hl hdyn => ?_,
      fun hl hdyn h => ⟨mirrorWrite s off (reqBytes data), ?_, ?_⟩⟩
    · exact (exec_i3cPrivateWrite hd ..).trans (by rw [h]; rfl)
    · rw [exec_i3cPrivateWrite hd, if_neg (by simpa using hdyn)]
    · rw [← hlen]; exact mirrorWrite_writes h
    · exact (exec_smbusBlockWrite hd off hl).trans (congrArg _ (if_pos (Option.isSome_iff_ne_none.2 hdyn)))
    · rw [exec_smbusBlockWrite hd off hl, hdyn]; rfl
    · rw [← hlen]; exact mirrorWrite_writes h
  · refine ⟨fun hdyn => ⟨mirrorRead s n, ?_, mirrorRead_spec s n⟩, fun hdyn => ?_, fun hdyn hn => ⟨mirrorRead s n, ?_, mirrorRead_spec s n⟩, fun hdyn => ?_⟩
    · rw [exec_i3cPrivateRead hd, if_neg (by simpa using hdyn)]
    · rw [exec_i3cPrivateRead hd, hdyn]; rfl
    · rw [exec_smbusBlockRead hd, hdyn, hn]; rfl
    · rw [exec_smbusBlockRead hd, if_pos (Option.isSome_iff_ne_none.2 hdyn)]
  · have he : exec (.entdaa addr v33) s = .next (if s.md.sbDyn.isSome then s else takeAddress s addr v33) := rfl
    have hset : exec (.setdasa static addr v33) s = .next (if s.md.sbDyn.isSome ∨ static.val ≠ 0x30 + s.md.straps % 16 then s else takeAddress s addr v33) := rfl
    rw [takeAddress_eq] at he hset
    dsimp only
    rw [he, hset]
    refine ⟨fun ⟨h1, h2⟩ => ?_, fun h => ?_, fun ⟨h1, h2⟩ h3 => ?_, fun h => ?_⟩
    · rw [h1, if_neg (by decide), if_pos h2]
    · cases hdyn : s.md.sbDyn with
      | some a => rfl
      | none => rw [if_neg (by decide), if_neg fun k => h ⟨hdyn, k⟩]
    · rw [if_neg (by rw [h1]; rintro (h | h) <;> [exact absurd h nofun; exact h h3]), if_pos h2]
    · cases hdyn : s.md.sbDyn with
      | some a => rfl
      | none =>
        obtain h | h := h
        · rw [if_neg (c := _ ∧ _) fun k => h ⟨hdyn, k⟩, ite_self]
        · rw [if_pos (.inr h)]
  · refine congrArg Host.Outcome.next ?_
    unfold sidePower
    cases s.md.input <;> cases s.md.perst <;> cases s.md.off <;> rfl
  · intro i hi
    simp only [List.mem_cons, List.not_mem_nil, or_false] at hi
    obtain rfl | rfl | rfl | rfl := hi <;> rfl
  · have hj : exec (.jtagInstruction .other) s = .next (if debugOn s then debugUse s else s) := rfl
    have hu : ∀ data, exec (.uartInput data) s = .next (if debugOn s ∧ s.clk.run then
        { debugUse s with md := { (debugUse s).md with console := (debugUse s).md.console ++ data.map (·.toNat) } } else s) := fun _ => rfl
    refine ⟨?_, fun data => ?_⟩
    · rw [hj]
      obtain h | h := h
      · rw [if_neg (by rw [debugOn, h]; decide)]
      · have hs : debugUse s = s := if_pos (.inr (by rw [h]; decide))
        rw [hs, ite_self]
    · rw [hu, if_neg]
      rintro ⟨h1, h2⟩
      obtain h | h := h
      · rw [debugOn, h] at h1; exact absurd h1 nofun
      · rw [h] at h2; exact absurd h2 nofun
  · obtain ⟨hs, hm, h1, h2⟩ := debugUse_spec hrun
    exact ⟨debugUse s, congrArg _ (if_pos hlic), hs, by rw [hm], h1, h2⟩
  · obtain ⟨hs, hm, -⟩ := debugUse_spec hrun
    refine ⟨{ debugUse s with md := { (debugUse s).md with console := (debugUse s).md.console ++ data.map (·.toNat) } },
      congrArg _ (if_pos ⟨hlic, hrun⟩), hs, by rw [hm], by rw [hm]; rfl⟩

end Sys2Proof.Machine
end

section
/-! SUPPORT. Registers that follow their access codes (R6, R395, R548): the fields of the table, and a write of them. -/
namespace Sys2Proof.Machine

/-! ## Fields of the table -/

/-- Bit `b` lies in a field. -/
def Field.has (f : Field) (b : Nat) : Prop := f.lo ≤ b ∧ b ≤ f.hi

/-- Fields of one register lie apart, inside 32 bits. -/
def FieldsApart (fs : List Field) : Prop := (∀ f ∈ fs, f.lo ≤ f.hi ∧ f.hi < 32) ∧ fs.Pairwise (fun f g => f.hi < g.lo ∨ g.hi < f.lo)

theorem regTable_apart : ∀ r ∈ regTable, FieldsApart r.fields := by
  have h : regTable.all (fun r => r.fields.all (fun f => decide (f.lo ≤ f.hi ∧ f.hi < 32)) &&
      decide (r.fields.Pairwise (fun f g => f.hi < g.lo ∨ g.hi < f.lo))) = true := by decide
  intro r hr
  have hr := List.all_eq_true.1 h r hr
  rw [Bool.and_eq_true, List.all_eq_true, decide_eq_true_iff] at hr
  exact ⟨fun f hf => of_decide_eq_true (hr.1 f hf), hr.2⟩

theorem pmcRegAt_fields {off : Nat} {r : RegDef} {i : Nat} (h : pmcRegAt off = some (r, i)) :
    r.fields = selFields true false ∨ r.fields = selFields false false ∨ r.fields = selFields false true ∨ r.fields = [⟨31, 0, .ro, 0, 56⟩] := by
  have hel : ∀ {c : Prop} [Decidable c] {base stride count : Nat} {fs : List Field} {j : Nat},
      (if c then some ((⟨base, stride, count, fs, []⟩ : RegDef), j) else none) = some (r, i) → r.fields = fs := fun h => by
    split at h
    · rw [← (Prod.mk.inj (Option.some.inj h)).1]
    · exact absurd h nofun
  unfold pmcRegAt at h
  dsimp only at h
  split at h
  · exact .inl (hel h)
  · split at h
    · exact .inr (.inl (hel h))
    · split at h
      · exact .inr (.inl (hel h))
      · split at h
        · exact .inr (.inr (.inl (hel h)))
        · exact .inr (.inr (.inr (hel h)))

theorem regAt_apart {off : Nat} {r : RegDef} {i : Nat} (h : regAt off = some (r, i)) : FieldsApart r.fields := by
  unfold regAt at h
  split at h
  · have hd : ∀ fs ∈ [selFields true false, selFields false false, selFields false true, [⟨31, 0, .ro, 0, 56⟩]],
        fs.all (fun f => decide (f.lo ≤ f.hi ∧ f.hi < 32)) = true ∧ fs.Pairwise (fun f g => f.hi < g.lo ∨ g.hi < f.lo) := by decide
    have hm : r.fields ∈ [selFields true false, selFields false false, selFields false true, [⟨31, 0, .ro, 0, 56⟩]] := by
      rcases pmcRegAt_fields h with h | h | h | h <;> rw [h] <;> simp
    obtain ⟨h1, h2⟩ := hd _ hm
    exact ⟨fun f hf => of_decide_eq_true (List.all_eq_true.1 h1 f hf), h2⟩
  · obtain ⟨r', hr', h⟩ := List.exists_of_findSome?_eq_some h
    obtain ⟨j, -, hj⟩ := Option.map_eq_some_iff.1 h
    rw [← (Prod.mk.inj hj).1]
    exact regTable_apart r' hr'

/-! ## Bits of a field after a write -/

section
variable (whole lock : Bool) (v : Nat)

theorem writeField_outside (w : Nat) {f : Field} (hf : f.lo ≤ f.hi) {b : Nat} (hb : ¬ f.has b) :
    (writeField whole lock v w f).testBit b = w.testBit b := by
  have hput : ∀ x, (putBits w f.hi f.lo x).testBit b = w.testBit b := fun x => (testBit_putBits _ _ hf b).trans (if_neg hb)
  unfold writeField
  dsimp only
  split
  · exact hput _
  · split
    · rfl
    · exact hput _
  · split
    · split
      · rfl
      · exact hput _
    · exact hput _
  all_goals rfl

theorem nbits_congr {w w' : Nat} {f : Field} (h : ∀ b, f.has b → w.testBit b = w'.testBit b) : nbits w f.hi f.lo = nbits w' f.hi f.lo := by
  refine Nat.eq_of_testBit_eq fun i => ?_
  rw [testBit_nbits, testBit_nbits]
  by_cases hi : i < f.hi + 1 - f.lo
  · rw [h _ ⟨by omega, by omega⟩]
  · simp [hi]

/-- A field's write reads no bit but the field's. -/
theorem writeField_congr {w w' : Nat} {f : Field} (hf : f.lo ≤ f.hi) (h : ∀ b, f.has b → w.testBit b = w'.testBit b) {b : Nat} (hb : f.has b) :
    (writeField whole lock v w f).testBit b = (writeField whole lock v w' f).testBit b := by
  have hput : ∀ x, (putBits w f.hi f.lo x).testBit b = (putBits w' f.hi f.lo x).testBit b := fun x => 
    ((testBit_putBits _ _ hf b).trans (if_pos hb)).trans ((testBit_putBits _ _ hf b).trans (if_pos hb)).symm
  unfold writeField
  dsimp only
  rw [nbits_congr h]
  split
  · exact hput _
  · split
    · exact h b hb
    · exact hput _
  · split
    · split
      · exact h b hb
      · exact hput _
    · exact hput _
  all_goals exact h b hb

/-- Fields that lie apart are written one by one. -/
theorem writeFields_bit {fs : List Field} (h : FieldsApart fs) (w : Nat) {b : Nat} :
    (∀ f ∈ fs, f.has b → (fs.foldl (writeField whole lock v) w).testBit b = (writeField whole lock v w f).testBit b) ∧
    ((∀ f ∈ fs, ¬ f.has b) → (fs.foldl (writeField whole lock v) w).testBit b = w.testBit b) := by
  induction fs generalizing w with
  | nil => exact ⟨fun _ h => absurd h (List.not_mem_nil), fun _ => rfl⟩
  | cons g fs ih =>
    obtain ⟨h32, hp⟩ := h
    obtain ⟨hg, hp⟩ := List.pairwise_cons.1 hp
    have ih := fun w => ih ⟨fun f hf => h32 f (List.mem_cons_of_mem _ hf), hp⟩ w
    have hgl := (h32 g List.mem_cons_self).1
    refine ⟨fun f hf hb => ?_, fun hn => ?_⟩
    · rcases List.mem_cons.1 hf with rfl | hf
      · refine (ih _).2 fun g' hg' hb' => ?_
        have := hg g' hg'
        unfold Field.has at hb hb'
        omega
      · have hdis := hg f hf
        refine ((ih _).1 f hf hb).trans (writeField_congr _ _ _ (h32 f (List.mem_cons_of_mem _ hf)).1 (fun b' hb' => ?_) hb)
        refine writeField_outside _ _ _ _ hgl fun h' => ?_
        unfold Field.has at hb' h'
        omega
    · exact ((ih _).2 fun f hf => hn f (List.mem_cons_of_mem _ hf)).trans
        (writeField_outside _ _ _ _ hgl (hn g List.mem_cons_self))

end

/-- What is left of a number without the bits of another. -/
theorem testBit_sub_and (a x i : Nat) : (a - (a &&& x)).testBit i = (a.testBit i && !x.testBit i) := by
  induction i generalizing a x with
  | zero =>
    have hle : a &&& x ≤ a := Nat.and_le_left
    have h0 : (a &&& x).testBit 0 = (a.testBit 0 && x.testBit 0) := Nat.testBit_and ..
    have hd : (a &&& x) / 2 ≤ a / 2 := Nat.div_le_div_right hle
    simp only [Nat.testBit_zero] at h0 ⊢
    by_cases ha : a % 2 = 1 <;> by_cases hx : x % 2 = 1 <;> simp only [ha, hx, decide_true, decide_false, Bool.and_true, Bool.and_false,
      Bool.not_true, Bool.not_false, decide_eq_true_eq, decide_eq_false_iff_not] at h0 ⊢ <;> omega
  | succ i ih =>
    have hle : a &&& x ≤ a := Nat.and_le_left
    have hd : (a &&& x) / 2 = a / 2 &&& x / 2 := Nat.and_div_two
    have h0 : (a &&& x).testBit 0 = (a.testBit 0 && x.testBit 0) := Nat.testBit_and ..
    have hlow : (a &&& x) % 2 ≤ a % 2 := by
      simp only [Nat.testBit_zero] at h0
      by_cases ha : a % 2 = 1
      · omega
      · simp only [ha, decide_false, Bool.false_and, decide_eq_false_iff_not] at h0; omega
    have he : (a - (a &&& x)) / 2 = a / 2 - (a / 2 &&& x / 2) := by rw [← hd]; omega
    rw [Nat.testBit_succ, Nat.testBit_succ, Nat.testBit_succ, he]
    exact ih _ _

/-! ## A write by access codes (R6) -/

/-- The register with every field written. -/
def fieldsWritten (s : State) (off : Nat) (r : RegDef) (v : Word) : State :=
  s.setReg off (BitVec.ofNat 32 (r.fields.foldl (writeField (clearsWhole off) (locked s off) v.toNat) (s.reg off).toNat))

section
variable {s : State} {off : Nat} {r : RegDef} {i : Nat} (v : Word)

theorem regBit_fieldsWritten (h : regAt off = some (r, i)) {f : Field} (hf : f ∈ r.fields) {b : Nat} (hb : f.has b) :
    (fieldsWritten s off r v).regBit off b = (writeField (clearsWhole off) (locked s off) v.toNat (s.reg off).toNat f).testBit b := by
  have ha := regAt_apart h
  have h32 := (ha.1 f hf).2
  rw [fieldsWritten, regBit_eq, reg_setReg_same, BitVec.toNat_ofNat, Nat.testBit_mod_two_pow, (writeFields_bit _ _ _ ha _).1 f hf hb,
    decide_eq_true (show b < 32 by unfold Field.has at hb; omega), Bool.true_and]

/-- A field holds a number where its bits do. -/
theorem regField_of_bits {t : State} {hi lo n : Nat} (hn : n < 2 ^ (hi + 1 - lo))
    (h : ∀ b, lo ≤ b → b ≤ hi → t.regBit off b = n.testBit (b - lo)) : t.regField off hi lo = n := by
  refine Nat.eq_of_testBit_eq fun k => ?_
  rw [testBit_regField]
  by_cases hk : k < hi + 1 - lo
  · rw [h _ (by omega) (by omega), decide_eq_true hk, Bool.true_and, Nat.add_sub_cancel_left]
  · rw [decide_eq_false hk, Bool.false_and, Nat.testBit_lt_two_pow (Nat.lt_of_lt_of_le hn (Nat.pow_le_pow_right (by decide) (by omega)))]

theorem nbits_lt (n hi lo : Nat) : nbits n hi lo < 2 ^ (hi + 1 - lo) := Nat.mod_lt _ (Nat.two_pow_pos _)

theorem testBit_nbits_in {n hi lo b : Nat} (h1 : lo ≤ b) (h2 : b ≤ hi) : (nbits n hi lo).testBit (b - lo) = n.testBit b := by
  rw [testBit_nbits, decide_eq_true (by omega), Bool.true_and, Nat.add_sub_cancel' h1]

/-- Every field of the register is written by its access code. -/
theorem fieldsWritten_written (h : regAt off = some (r, i)) : ∀ f ∈ r.fields, FieldWritten s (fieldsWritten s off r v) off v f := by
  intro f hf
  have hle := ((regAt_apart h).1 f hf).1
  have hbit := fun b (h1 : f.lo ≤ b) (h2 : b ≤ f.hi) => regBit_fieldsWritten (s := s) v h hf (b := b) ⟨h1, h2⟩
  have hput : ∀ x b, f.lo ≤ b → b ≤ f.hi → (putBits (s.reg off).toNat f.hi f.lo x).testBit b = x.testBit (b - f.lo) := fun x b h1 h2 =>
    (testBit_putBits _ _ hle b).trans (if_pos ⟨h1, h2⟩)
  have hkeep : (∀ w, writeField (clearsWhole off) (locked s off) v.toNat w f = w) →
      (fieldsWritten s off r v).regField off f.hi f.lo = s.regField off f.hi f.lo := fun hw =>
    regField_ext fun b h1 h2 => by rw [hbit b h1 h2, hw]; rfl
  have hset : (∀ w, writeField (clearsWhole off) (locked s off) v.toNat w f = putBits w f.hi f.lo (nbits v.toNat f.hi f.lo)) →
      (fieldsWritten s off r v).regField off f.hi f.lo = bits v f.hi f.lo := fun hw =>
    regField_of_bits (nbits_lt ..) fun b h1 h2 => by rw [hbit b h1 h2, hw, hput _ b h1 h2]; rfl
  unfold FieldWritten
  unfold writeField at *
  cases hacc : f.acc with
  | rw => exact hset fun _ => by rw [hacc]
  | rwl =>
    cases hl : locked s off with
    | false => exact hset fun _ => by rw [hacc, hl]; rfl
    | true => exact hkeep fun _ => by rw [hacc, hl]; rfl
  | w1c =>
    dsimp only
    split
    · next hw =>
      split
      · next hz => exact hkeep fun _ => by rw [hacc, hw]; exact (if_pos rfl).trans (if_pos hz)
      · next hz =>
        refine regField_of_bits (Nat.two_pow_pos _) fun b h1 h2 => ?_
        rw [hbit b h1 h2, hacc, hw]
        refine (congrArg (Nat.testBit · b) ((if_pos rfl).trans (if_neg hz))).trans ?_
        exact hput 0 b h1 h2
    · next hw =>
      intro b h1 h2
      rw [hbit b h1 h2, hacc]
      refine (congrArg (Nat.testBit · b) (if_neg hw)).trans ?_
      rw [hput _ b h1 h2, testBit_sub_and, testBit_nbits_in h1 h2, testBit_nbits_in h1 h2]
      rfl
  | ro => exact hkeep fun _ => by rw [hacc]
  | wo => exact hkeep fun _ => by rw [hacc]
  | rwf => exact hkeep fun _ => by rw [hacc]

end

/-- What a write does to a field is seen in the register alone. -/
theorem FieldWritten.of_reg {s t u : State} {off : Nat} {v : Word} {f : Field} (h : FieldWritten s t off v f) (hr : u.reg off = t.reg off) :
    FieldWritten s u off v f := by
  have hf := fun hi lo => regField_of_reg hr hi lo
  have hb := fun b => regBit_of_reg hr b
  unfold FieldWritten at *
  simp only [hf, hb]
  exact h

end Sys2Proof.Machine
end

section
/-! SUPPORT. Writes of BAR0 registers: access codes, what follows, and registers with a command of their own (R6, R63, R395, R432, R548). -/
namespace Sys2Proof.Machine

/-- Whether a write meets a field that only firmware or an open lock may change. -/
def meetsBar (s : State) (off : Nat) (r : RegDef) : Bool := r.fields.any (fun f => (f.acc == .rwl && locked s off) || f.acc == .rwf)

theorem plainWrite_none {s : State} {off : Nat} (iface v : Nat) (h : regAt off = none) : plainWrite s iface off v = s := by
  unfold plainWrite; rw [h]

theorem plainWrite_some {s : State} {off : Nat} {r : RegDef} {i : Nat} (iface : Nat) (v : Word) (h : regAt off = some (r, i)) :
    plainWrite s iface off v.toNat =
      if meetsBar s off r then accessViolation (fieldsWritten s off r v) iface off v.toNat else fieldsWritten s off r v := by
  unfold plainWrite; rw [h]; rfl

theorem fieldsWritten_logsOnly (s : State) (off : Nat) (r : RegDef) (v : Word) : LogsOnly s (fieldsWritten s off r v) := setReg_logsOnly ..

/-- The registers of the log have no field that a lock or firmware holds. -/
theorem logReg_open {off : Nat} {r : RegDef} {i : Nat} (h : regAt off = some (r, i)) (hl : off = rLogHead ∨ off = rLogStat ∨ off = rAlert) :
    ∀ f ∈ r.fields, f.acc ≠ .rwl ∧ f.acc ≠ .rwf := by
  have hd : ∀ o ∈ [rLogHead, rLogStat, rAlert], (regAt o).all (fun p => p.1.fields.all (fun f => f.acc != .rwl && f.acc != .rwf)) = true := by
    decide
  have h1 := hd off (by rcases hl with h | h | h <;> simp [h])
  rw [h] at h1
  intro f hf
  have := List.all_eq_true.1 h1 f hf
  simpa using this

theorem meetsBar_logReg {s : State} {off : Nat} {r : RegDef} {i : Nat} (h : regAt off = some (r, i)) (hm : meetsBar s off r = true) :
    ¬ (off = rLogHead ∨ off = rLogStat ∨ off = rAlert) := by
  intro hl
  obtain ⟨f, hf, hb⟩ := List.any_eq_true.1 hm
  obtain ⟨h1, h2⟩ := logReg_open h hl f hf
  rcases hacc : f.acc <;> simp_all

theorem accessViolation_logs (s : State) (iface off v : Nat) : Logs s (accessViolation s iface off v) := rasLog_logs ..

theorem accessViolation_logged (s : State) (iface off v : Nat) : Logged s (accessViolation s iface off v) 0x0607 :=
  rasLog_logged s _ (by decide : 0x0607 < 2 ^ 16)

/-! ## What follows a write -/

/-- Nothing but registers, the power planner's state, interrupt messages and what is sent differs, and one register stands. -/
structure Follows (s t : State) (off : Nat) : Prop where
  only : t = { s with regs := t.regs, pwr := t.pwr, msix := t.msix, out := t.out }
  reg : t.reg off = s.reg off

theorem Follows.trans {a b c : State} {off : Nat} (h : Follows a b off) (k : Follows b c off) : Follows a c off :=
  ⟨by rw [k.only, h.only], k.reg.trans h.reg⟩

theorem Follows.still {s t : State} {off : Nat} (h : Follows s t off) : Still s t := by
  rw [h.only]; exact ⟨⟨rfl, rfl, rfl, rfl⟩, rfl⟩

theorem setField_follows (s : State) {off o : Nat} (hi lo v : Nat) (h : off ≠ o) : Follows s (s.setField o hi lo v) off :=
  ⟨rfl, reg_setField_other _ _ _ _ h⟩

theorem follows_foldl {α : Type} {f : State → α → State} {off : Nat} (hf : ∀ s a, Follows s (f s a) off) (l : List α) (s : State) :
    Follows s (l.foldl f s) off := by
  induction l generalizing s with
  | nil => exact ⟨rfl, rfl⟩
  | cons a l ih => exact (hf s a).trans (ih _)

theorem refreshProfile_follows (s : State) : Follows s (refreshProfile s) oAdmCtrl := by
  have h1 := setField_follows s (off := oAdmCtrl) (o := oPwrCf) 11 0 (committedFloor s (commitOf s)) (by decide)
  have h2 : ∀ b : Nat, Follows (s.setField oPwrCf 11 0 (committedFloor s (commitOf s)))
      ((List.range 16).foldl (fun s i => s.setField (oProf i) 11 0 (committedFloor s (fun c => commitAt s c (b + i * horizon s / 16))))
        (s.setField oPwrCf 11 0 (committedFloor s (commitOf s)))) oAdmCtrl := fun b =>
    follows_foldl (fun s i => setField_follows s 11 0 _ (by unfold oProf oAdmCtrl; omega)) _ _
  have h3 : ∀ (u : State) p, Follows u { u with pwr := p } oAdmCtrl := fun _ _ => ⟨rfl, rfl⟩
  exact h1.trans ((h2 _).trans (h3 _ _))

theorem pwrEvent_follows (s : State) {off : Nat} (n : Nat) (h : off ≠ oPwrEvt) : Follows s (pwrEvent s n) off := by
  have h1 := setField_follows s n n 1 h
  have h2 : Follows (s.setField oPwrEvt n n 1) (sendMsix (s.setField oPwrEvt n n 1) 2) off := by
    obtain ⟨m, o, he⟩ := sendMsix_eq (s.setField oPwrEvt n n 1) 2
    rw [he]; exact ⟨rfl, rfl⟩
  unfold pwrEvent
  dsimp only
  split
  · exact h1.trans h2
  · exact h1

theorem refreshCeiling_follows (s : State) : Follows s (refreshCeiling s) oPwrCtrl := by
  have hp : ∀ (u : State) p, Follows u { u with pwr := p } oPwrCtrl := fun _ _ => ⟨rfl, rfl⟩
  have hset : ∀ (u : State) v, Follows u (u.setField oPwrLim 11 0 v) oPwrCtrl := fun u v => setField_follows u 11 0 v (by decide)
  have hif : ∀ (u : State) (c : Prop) [Decidable c] p, Follows u (if c then { u with pwr := p } else u) oPwrCtrl := fun u c _ p => by
    split
    · exact hp u p
    · exact ⟨rfl, rfl⟩
  unfold refreshCeiling
  exact (hif _ _ _).trans ((hif _ _ _).trans (hset _ _))

theorem curtailCheck_follows (s : State) : Follows s (curtailCheck s) oPwrCtrl := by
  unfold curtailCheck
  split
  · exact (setField_follows s 26 26 1 (by decide)).trans (pwrEvent_follows _ _ (by decide))
  · exact ⟨rfl, rfl⟩

/-- What follows a write leaves the register written, and memory, cores and tasks. -/
theorem afterWrite_follows (s : State) {off : Nat} (h : off ≠ rAlert) : Follows s (afterWrite s off) off := by
  unfold afterWrite
  split
  · next h => exact h ▸ refreshProfile_follows s
  · split
    · next h => exact h ▸ (refreshCeiling_follows s).trans (curtailCheck_follows _)
    · split
      · next h => exact setField_follows s 3 0 _ (by rcases h with h | h <;> rw [h] <;> decide)
      · exact ⟨rfl, rfl⟩

theorem afterWrite_other (s : State) {off : Nat} (h : off ≠ rAlert) (hf : ¬ Followed off) : afterWrite s off = s := by
  unfold Followed at hf
  unfold afterWrite
  rw [if_neg fun h => hf (.inl h), if_neg fun h => hf (.inr (.inl h)), if_neg fun h => hf (.inr (.inr h)), if_neg h]

theorem followed_register {off : Nat} (h : Followed off) : regAt off ≠ none := by
  have hd : ∀ o ∈ [oAdmCtrl, oPwrCtrl, oWwin, oNvcfg], regAt o ≠ none := by decide
  exact hd off (by rcases h with h | h | h | h <;> simp [h])

/-- Registers with a range stand apart from the log. -/
theorem inRange_logReg {off v : Nat} (h : inRange off v = false) : ¬ (off = rLogHead ∨ off = rLogStat ∨ off = rAlert) := by
  have h1 : inRange rLogHead v = true := rfl
  have h2 : inRange rLogStat v = true := rfl
  have h3 : inRange rAlert v = true := rfl
  rintro (rfl | rfl | rfl)
  · exact absurd (h1.symm.trans h) nofun
  · exact absurd (h2.symm.trans h) nofun
  · exact absurd (h3.symm.trans h) nofun

/-! ## Registers that follow their access codes -/

theorem regWrite_plain {s : State} {off : Nat} (iface v : Nat) (h : PlainReg off) :
    regWrite s iface off v = checkedWrite s iface off v (inRange off v) (fun s => afterWrite s off) := by
  obtain ⟨h1, h2, h3, h4, h5, h6, h7, h8, h9, h10, h11, h12, h13, h14, h15, h16, h17, h18⟩ := h
  unfold regWrite
  rw [if_neg h1, if_neg h2, if_neg h3, if_neg h4, if_neg h5, if_neg h6, if_neg h7, if_neg h8, if_neg h9, if_neg h10, if_neg h11, if_neg h12,
    if_neg h13, if_neg h14, if_neg h15, if_neg h16, if_neg (by rw [h17]; decide)]

/-- The RegistersFollowTheirAccess clause of a register that follows its access codes. -/
theorem plainReg_written (s : State) (iface : Iface) {off : Nat} (v : Word) (h : PlainReg off) :
    ∃ t, exec (.registerWrite iface off v) s = .next t ∧ Still s t ∧
      (regAt off = none → inRange off v.toNat = true → t = s) ∧
      ∀ r i, regAt off = some (r, i) →
        (inRange off v.toNat = false → Dropped s t off) ∧
        (inRange off v.toNat = true → (∀ f ∈ r.fields, FieldWritten s t off v f) ∧
          (¬ Followed off → (∃ f ∈ r.fields, f.acc = .rwl) → locked s off = true → Logged s t 0x0607) ∧
          (¬ Followed off → (∀ f ∈ r.fields, f.acc ≠ .rwf ∧ (f.acc = .rwl → locked s off = false)) →
            t = { s with regs := t.regs } ∧ ∀ o, o ≠ off → t.reg o = s.reg o)) := by
  have ha : off ≠ rAlert := h.2.2.2.2.2.2.2.2.2.2.2.2.2.2.2.2.2
  have he : exec (.registerWrite iface off v) s =
      .next (if inRange off v.toNat then afterWrite (plainWrite s iface off v.toNat) off else accessViolation s iface off v.toNat) :=
    congrArg Host.Outcome.next (regWrite_plain iface v.toNat h)
  refine ⟨_, he, ?_⟩
  cases hin : inRange off v.toNat with
  | false =>
    rw [if_neg (by decide)]
    have hl := accessViolation_logs s iface off v.toNat
    exact ⟨hl.only.still, fun _ h => absurd h nofun, fun r i _ => ⟨fun _ => ⟨hl.only.still, hl.reg _ (inRange_logReg hin),
      accessViolation_logged ..⟩, fun h => absurd h nofun⟩⟩
  | true =>
    rw [if_pos rfl]
    have hfol := afterWrite_follows (plainWrite s iface off v.toNat) ha
    cases hreg : regAt off with
    | none =>
      rw [plainWrite_none iface _ hreg] at hfol ⊢
      rw [afterWrite_other _ ha fun hf => followed_register hf hreg]
      exact ⟨.rfl, fun _ _ => rfl, fun r i h => absurd h nofun⟩
    | some p =>
      obtain ⟨r, i⟩ := p
      have hw := fieldsWritten_written (s := s) v hreg
      have hlo := fieldsWritten_logsOnly s off r v
      rw [plainWrite_some iface v hreg] at hfol ⊢
      cases hb : meetsBar s off r with
      | true =>
        rw [hb, if_pos rfl] at hfol
        rw [if_pos rfl]
        have hav := accessViolation_logs (fieldsWritten s off r v) iface off v.toNat
        have hlr := meetsBar_logReg hreg hb
        refine ⟨hlo.still.trans (hav.only.still.trans hfol.still), nofun, ?_⟩
        rintro r' i' h'
        obtain ⟨rfl, rfl⟩ := Prod.mk.inj (Option.some.inj h')
        refine ⟨nofun, fun _ => ⟨fun f hf => (hw f hf).of_reg (hfol.reg.trans (hav.reg _ hlr)), fun hnf _ _ => ?_, fun _ hopen => ?_⟩⟩
        · rw [afterWrite_other _ ha hnf]
          exact (accessViolation_logged ..).of_same rfl (reg_setReg_other _ _ fun h => hlr (.inl h.symm))
        · obtain ⟨f, hf, hbar⟩ := List.any_eq_true.1 hb
          obtain ⟨h1, h2⟩ := hopen f hf
          rcases hacc : f.acc <;> simp_all
      | false =>
        rw [hb, if_neg (by decide)] at hfol
        rw [if_neg (by decide)]
        refine ⟨hlo.still.trans hfol.still, nofun, ?_⟩
        rintro r' i' h'
        obtain ⟨rfl, rfl⟩ := Prod.mk.inj (Option.some.inj h')
        refine ⟨nofun, fun _ => ⟨fun f hf => (hw f hf).of_reg hfol.reg, fun _ hlk hlock => ?_, fun hnf _ => ?_⟩⟩
        · obtain ⟨f, hf, hacc⟩ := hlk
          have hm : meetsBar s off r = true := List.any_eq_true.2 ⟨f, hf, by rw [hacc, hlock]; rfl⟩
          exact absurd (hb.symm.trans hm) nofun
        · rw [afterWrite_other _ ha hnf]
          exact ⟨rfl, fun o ho => reg_setReg_other _ _ ho⟩

end Sys2Proof.Machine
end

section
namespace Sys2Proof.Machine

/-! ## Registers with a command of their own -/

section
variable (s : State) (iface off v : Nat)

theorem regWrite_place (h : 0x0200C100 ≤ off ∧ off < 0x0200C180) : regWrite s iface off v = writePlace s iface off v := by
  unfold regWrite
  rw [if_neg (by omega), if_neg (by omega), if_neg (by unfold rDstat; omega), if_neg (by unfold rRescfg llcBase; omega), if_pos h]

theorem regWrite_region (h : 0x0200E000 ≤ off ∧ off < 0x0200E200) : regWrite s iface off v =
    if off % 8 = 0 then writeRegionRng s iface ((off - 0x0200E000) / 8) v else writeRegionAttr s iface ((off - 0x0200E000) / 8) v := by
  unfold regWrite
  rw [if_neg (by omega), if_neg (by omega), if_neg (by unfold rDstat; omega), if_neg (by unfold rRescfg llcBase; omega), if_neg (by omega),
    if_pos h]

theorem regWrite_class (h : 0x00200100 ≤ off ∧ off < 0x00200200) : regWrite s iface off v =
    if off % 16 = 0 then writeCcfg s iface ((off - 0x00200100) / 16) v
    else if off % 16 = 4 then writeClmask s iface ((off - 0x00200100) / 16) false v
    else if off % 16 = 8 then writeClmask s iface ((off - 0x00200100) / 16) true v else s := by
  unfold regWrite
  rw [if_neg (by omega), if_neg (by omega), if_neg (by unfold rDstat; omega), if_neg (by unfold rRescfg llcBase; omega), if_neg (by omega),
    if_neg (by omega), if_neg (by omega), if_pos h]

/-- Counter pairs stand in the counter block. -/
theorem pairAt_range (h : (pairAt off).isSome = true) : 0x01000400 ≤ off ∧ off < 0x01090000 := by
  unfold pairAt at h
  dsimp only at h
  split at h
  · exact absurd h nofun
  · split at h
    · next h1 => have h1 := of_decide_eq_true h1; omega
    · split at h
      · next h1 => have h1 := of_decide_eq_true h1; omega
      · split at h
        · next h1 => have h1 := of_decide_eq_true h1; omega
        · split at h
          · next h1 => rcases h1 with h1 | h1 | h1 <;> have h1 := of_decide_eq_true h1 <;> omega
          · exact absurd h nofun

theorem regWrite_pair (h : (pairAt off).isSome = true) : regWrite s iface off v = writeCounterHalf s off v := by
  obtain ⟨h1, h2⟩ := pairAt_range off h
  unfold regWrite
  rw [if_neg (by omega), if_neg (by omega), if_neg (by unfold rDstat; omega), if_neg (by unfold rRescfg llcBase; omega), if_neg (by omega),
    if_neg (by omega), if_neg (by omega), if_neg (by omega), if_neg (by omega), if_neg (by omega), if_neg (by omega),
    if_neg (by unfold oBiasrng; omega), if_neg (by unfold oBiascmd; omega), if_neg (by omega), if_neg (by omega),
    if_neg (by unfold oRingcfg; omega), if_pos h]

end

theorem exec_registerWrite (s : State) (iface : Iface) (off : Nat) (v : Word) :
    exec (.registerWrite iface off v) s = .next (regWrite s iface off v.toNat) := rfl

theorem registerWrite_is (s : State) (iface : Iface) (v : Word) :
    ∀ p ∈ [(rRescfg, Instr.llcRescfgWrite iface v), (0x0200E3FC, .eccCclrWrite v), (0x00200020, .admCoverWrite iface false v),
      (0x00200024, .admCoverWrite iface true v), (oRingcfg, .pmcRingcfgWrite iface v), (rDstat, .mbxDstatClear v)],
      exec (.registerWrite iface p.1 v) s = exec p.2 s := by
  intro p hp
  simp only [List.mem_cons, List.not_mem_nil, or_false] at hp
  obtain rfl | rfl | rfl | rfl | rfl | rfl := hp <;> rfl

theorem registerWrite_place (s : State) (iface : Iface) (v : Word) (e : Fin 16) :
    exec (.registerWrite iface (rPlaceRng e) v) s = exec (.llcPlaceWrite iface e false v) s ∧
    exec (.registerWrite iface (rPlaceAttr e) v) s = exec (.llcPlaceWrite iface e true v) s := by
  have ha : rPlaceAttr e = rPlaceRng e + 4 := by simp only [rPlaceRng, rPlaceAttr]; omega
  have h1 : exec (.llcPlaceWrite iface e false v) s = .next (writePlace s iface (rPlaceRng e) v.toNat) := rfl
  have h2 : exec (.llcPlaceWrite iface e true v) s = .next (writePlace s iface (rPlaceRng e + 4) v.toNat) := rfl
  rw [h1, h2, exec_registerWrite, exec_registerWrite, regWrite_place _ _ _ _ (by simp only [rPlaceRng, llcBase]; omega),
    regWrite_place _ _ _ _ (by simp only [rPlaceAttr, llcBase]; omega), ha]
  exact ⟨rfl, rfl⟩

theorem registerWrite_region (s : State) (iface : Iface) (v : Word) (e : Fin 64) :
    exec (.registerWrite iface (rRgnRng e) v) s = exec (.eccRgnRngWrite iface e v) s ∧
    exec (.registerWrite iface (rRgnAttr e) v) s = exec (.eccRgnAttrWrite iface e v) s := by
  have k1 : ∀ e : Nat, (0x0200E000 + 8 * e - 0x0200E000) / 8 = e := fun _ => by omega
  have k2 : ∀ e : Nat, (0x0200E004 + 8 * e - 0x0200E000) / 8 = e := fun _ => by omega
  have hr : rRgnRng e = 0x0200E000 + 8 * e.val := rfl
  have ha : rRgnAttr e = 0x0200E004 + 8 * e.val := rfl
  have h1 : exec (.eccRgnRngWrite iface e v) s = .next (writeRegionRng s iface e v.toNat) := rfl
  have h2 : exec (.eccRgnAttrWrite iface e v) s = .next (writeRegionAttr s iface e v.toNat) := rfl
  rw [h1, h2, exec_registerWrite, exec_registerWrite, hr, ha, regWrite_region _ _ _ _ (by omega), regWrite_region _ _ _ _ (by omega), if_pos (by omega), if_neg (by omega), k1, k2]
  exact ⟨rfl, rfl⟩

theorem registerWrite_class (s : State) (iface : Iface) (v : Word) (c : ClassId) (hi : Bool) :
    exec (.registerWrite iface (rClmask c hi) v) s = exec (.admClmaskWrite iface c hi v) s ∧
    exec (.registerWrite iface (rCcfg c) v) s = exec (.admCcfgWrite iface c v) s := by
  have kc : ∀ c : Nat, (0x00200100 + 16 * c - 0x00200100) / 16 = c := fun c => by omega
  have k0 : ∀ c : Nat, (0x00200104 + 16 * c - 0x00200100) / 16 = c := fun c => by omega
  have k4 : ∀ c : Nat, (0x00200104 + 16 * c + 4 - 0x00200100) / 16 = c := fun c => by omega
  have hc : rCcfg c = 0x00200100 + 16 * c.val := rfl
  have hr0 : rClmask c false = 0x00200104 + 16 * c.val := rfl
  have hr4 : rClmask c true = 0x00200104 + 16 * c.val + 4 := rfl
  constructor
  · cases hi with
    | false =>
      rw [exec_registerWrite, hr0, regWrite_class _ _ _ _ (by omega), if_neg (by omega), if_pos (by omega), k0]
      rfl
    | true =>
      rw [exec_registerWrite, hr4, regWrite_class _ _ _ _ (by omega), if_neg (by omega), if_neg (by omega), if_pos (by omega), k4]
      rfl
  · rw [exec_registerWrite, hc, regWrite_class _ _ _ _ (by omega), if_pos (by omega), kc]
    rfl

theorem registerWrite_pair (s : State) (iface : Iface) (v : Word) {off : Nat} (h : (pairAt off).isSome = true) :
    (off % 8 = 0 → exec (.registerWrite iface off v) s = exec (.pmcCounterLoWrite off v) s) ∧
    (off % 8 = 4 → exec (.registerWrite iface off v) s = exec (.pmcCounterHiWrite off v) s) :=
  have hw := regWrite_pair s iface off v.toNat h
  ⟨fun h0 => congrArg Host.Outcome.next (hw.trans (if_pos h0).symm), fun h4 => congrArg Host.Outcome.next (hw.trans (if_pos h4).symm)⟩

theorem registerWrite_bias (s : State) (iface : Iface) (n : Fin 262144) :
    exec (.registerWrite iface oBiascmd (BitVec.ofNat 32 (262144 + n.val))) s = exec (.biasToHost n) s ∧
    exec (.registerWrite iface oBiascmd (BitVec.ofNat 32 n.val)) s = exec (.biasToDevice n) s := by
  have hw : ∀ v : Word, exec (.registerWrite iface oBiascmd v) s = .next (biasStart s (nbit v.toNat 18) (nbits v.toNat 17 0)) := fun _ => rfl
  have h1 : (BitVec.ofNat 32 (262144 + n.val)).toNat = 262144 + n.val := by rw [BitVec.toNat_ofNat]; omega
  have h2 : (BitVec.ofNat 32 n.val).toNat = n.val := by rw [BitVec.toNat_ofNat]; omega
  have hb : ∀ x, nbit x 18 = decide (x / 262144 % 2 = 1) := fun x => by rw [nbit, Nat.shiftRight_eq_div_pow]; rfl
  have hf : ∀ x, nbits x 17 0 = x % 262144 := fun x => by
    rw [nbits, Nat.shiftRight_eq_div_pow, Nat.pow_zero, Nat.div_one]; rfl
  rw [hw, hw, h1, h2, hb, hb, hf, hf]
  constructor
  · rw [decide_eq_true (by omega), show (262144 + n.val) % 262144 = n.val by omega]; rfl
  · rw [decide_eq_false (by omega), Nat.mod_eq_of_lt n.isLt]; rfl

/-! ## MBX_ALERT -/

theorem registerWrite_alert (s : State) (iface : Iface) (v : Word) :
    ∃ t, exec (.registerWrite iface rAlert v) s = .next t ∧ t = { s with regs := t.regs } ∧
      t.regBit rAlert 0 = (s.regBit rAlert 0 && !v.getLsbD 0) ∧ t.regBit rAlert 1 = t.regBit rAlert 0 ∧ ∀ o, o ≠ rAlert → t.reg o = s.reg o := by
  have hreg : regAt rAlert = some (rMbxAlert, 0) := by decide
  have he : exec (.registerWrite iface rAlert v) s = .next (afterWrite (plainWrite s iface rAlert v.toNat) rAlert) := rfl
  have hb : meetsBar s rAlert rMbxAlert = false := rfl
  have ha : ∀ u : State, afterWrite u rAlert = u.setField rAlert 1 1 (u.regField rAlert 0 0) := fun _ => rfl
  have h0 := fieldsWritten_written (s := s) v hreg ⟨0, 0, .w1c, 0, 254⟩ (List.mem_cons_self)
  have h0 : (fieldsWritten s rAlert rMbxAlert v).regBit rAlert 0 = (s.regBit rAlert 0 && !v.getLsbD 0) := h0 0 (Nat.le_refl _) (Nat.le_refl _)
  refine ⟨_, he, ?_⟩
  rw [plainWrite_some iface v hreg, hb, if_neg (by decide), ha, regField_bit]
  have hlow : ((fieldsWritten s rAlert rMbxAlert v).setField rAlert 1 1 (if (fieldsWritten s rAlert rMbxAlert v).regBit rAlert 0 then 1 else 0)).regBit
      rAlert 0 = (fieldsWritten s rAlert rMbxAlert v).regBit rAlert 0 := regBit_setField_apart _ _ _ (by decide) (by decide) (by decide)
  refine ⟨rfl, hlow.trans h0, ?_, fun o ho => (reg_setField_other _ _ _ _ ho).trans (reg_setReg_other _ _ ho)⟩
  rw [hlow]
  exact regBit_setBit _ _ (by decide) _

/-! ## Registers that latch (R63, R432) -/

theorem admTickLoRead_latches (s : State) (iface : Iface) :
    ∃ t, exec (.admTickLoRead iface) s = .next t ∧ t = { s with out := t.out, host := t.host } ∧
      t.out = s.out ++ [.answer (natLe 4 (s.clk.tick % 2 ^ 32)) false] ∧ bar0Word t iface 0x0020000C = s.clk.tick / 2 ^ 32 ∧
      ∀ i, i ≠ iface.val → bar0Word t i 0x0020000C = bar0Word s i 0x0020000C := by
  have hw : ∀ (u : State) (i : Nat), bar0Word u i 0x0020000C = tget 0 u.host.latchTick i := fun _ _ => rfl
  have he : exec (.admTickLoRead iface) s = .next ((latchTick s iface).emit (.answer (natLe 4 (s.clk.tick % 2 ^ 32)) false)) := rfl
  refine ⟨_, he, rfl, rfl, ?_, fun i hi => ?_⟩
  · rw [hw]; exact tget_tset_same ..
  · rw [hw, hw]; exact tget_tset_other _ _ _ hi

theorem bar0Word_prof (s : State) (iface : Nat) {k : Nat} (h : k < 16) : bar0Word s iface (oProf k) = profWord s iface (2 + k) := by
  have hk : (oProf k - 0x00300040) / 4 = k := by unfold oProf; omega
  unfold bar0Word
  rw [if_neg (by unfold oProf; omega), if_neg (by unfold oProf; omega), if_neg (by unfold oProf; omega), if_neg (by unfold oProf; omega),
    if_neg (by unfold oProf; omega), if_neg (by unfold oProf; omega), if_neg (by unfold oProf; omega), if_neg (by unfold oProf; omega),
    if_neg (by unfold oProf; omega), if_neg (by unfold oProf; omega), if_neg (by unfold oProf oPwrCf; omega), if_pos (by unfold oProf; omega), hk]

theorem profWord_latched (s : State) (iface i : Nat) : profWord (latchProfile s iface) iface i = (profNow s).getD i 0 := by
  have h : tget [] (tset [] s.host.latchProf iface (profNow s)) iface = profNow s := tget_tset_same ..
  have h : tget [] (latchProfile s iface).host.latchProf iface = profNow s := h
  have hne : profNow s ≠ [] := nofun
  have he : profWord (latchProfile s iface) iface i =
      (if tget [] (latchProfile s iface).host.latchProf iface = [] then profNow (latchProfile s iface)
        else tget [] (latchProfile s iface).host.latchProf iface).getD i 0 := rfl
  rw [he, h, if_neg hne]

theorem profNow_point (s : State) {k : Nat} (h : k < 16) : (profNow s).getD (2 + k) 0 = (s.reg (oProf k)).toNat := by
  rw [profNow, List.getD_append_right _ _ _ _ (by simp)]
  simp [h]

/-- A read sees the latch of its own interface alone. -/
theorem bar0Word_of_prof {s : State} {L : Tab (List Nat)} {o : List Out} {i : Nat} (off : Nat) (h : tget [] L i = tget [] s.host.latchProf i) :
    bar0Word { s with host := { s.host with latchProf := L }, out := o } i off = bar0Word s i off := by
  have hp : ∀ n, profWord { s with host := { s.host with latchProf := L }, out := o } i n = profWord s i n := fun n => by
    unfold profWord
    dsimp only
    rw [h]
    rfl
  generalize ht : { s with host := { s.host with latchProf := L }, out := o } = t at hp ⊢
  have h1 : identityBlock t = identityBlock s := by rw [← ht]; rfl
  have h2 : ∀ n, msixWord t n = msixWord s n := fun n => by rw [← ht]; rfl
  have h3 : ∀ n, pbaWord t n = pbaWord s n := fun n => by rw [← ht]; rfl
  have h4 : ∀ n, busyMbx t n = busyMbx s n := fun n => by rw [← ht]; rfl
  have h5 : ∀ n, payload t n = payload s n := fun n => by rw [← ht]; rfl
  have h6 : ∀ n m, dumpByte t n m = dumpByte s n m := fun n m => by rw [← ht]; rfl
  have h7 : ∀ n, pairValue t n = pairValue s n := fun n => by rw [← ht]; rfl
  have h8 : ∀ n, readHi t i n = readHi s i n := fun n => by rw [← ht]; rfl
  have h9 : ∀ n, viewWord t n = viewWord s n := fun n => by rw [← ht]; rfl
  have h10 : ∀ n, t.reg n = s.reg n := fun n => by rw [← ht]; rfl
  have h11 : t.fresh = s.fresh ∧ t.ras = s.ras ∧ t.clk = s.clk ∧ t.pwr = s.pwr ∧ t.host.latchTick = s.host.latchTick := by
    rw [← ht]; exact ⟨rfl, rfl, rfl, rfl, rfl⟩
  have h12 : ∀ a b c, t.regField a b c = s.regField a b c := fun a b c => by rw [← ht]; rfl
  obtain ⟨k1, k2, k3, k4, k5⟩ := h11
  unfold bar0Word
  simp only [hp, h1, h2, h3, h4, h5, h6, h7, h8, h9, h10, h12, k1, k2, k3, k4, k5]

theorem pwrPtickLoRead_latches (s : State) (iface : Iface) :
    ∃ t, exec (.pwrPtickLoRead iface) s = .next t ∧ t = { s with out := t.out, host := t.host } ∧
      t.out = s.out ++ [.answer (natLe 4 (s.pwr.profAt % 2 ^ 32)) false] ∧
      bar0Word t iface 0x00300014 = s.pwr.profAt / 2 ^ 32 ∧ bar0Word t iface oPwrCf = (s.reg oPwrCf).toNat ∧
      (∀ k, k < 16 → bar0Word t iface (oProf k) = (s.reg (oProf k)).toNat) ∧
      ∀ i k, i ≠ iface.val → bar0Word t i (oProf k) = bar0Word s i (oProf k) := by
  have h14 : ∀ (u : State) (i : Nat), bar0Word u i 0x00300014 = profWord u i 0 := fun _ _ => rfl
  have hcf : ∀ (u : State) (i : Nat), bar0Word u i oPwrCf = profWord u i 1 := fun _ _ => rfl
  have he : exec (.pwrPtickLoRead iface) s = .next ((latchProfile s iface).emit (.answer (natLe 4 (s.pwr.profAt % 2 ^ 32)) false)) := rfl
  have hem : ∀ (u : State) o i n, profWord (u.emit o) i n = profWord u i n := fun _ _ _ _ => rfl
  refine ⟨_, he, rfl, rfl, ?_, ?_, fun k hk => ?_, fun i k hi => ?_⟩
  · rw [h14, hem, profWord_latched]; rfl
  · rw [hcf, hem, profWord_latched]; rfl
  · rw [bar0Word_prof _ _ hk, hem, profWord_latched, profNow_point s hk]
  · have hl : tget [] (tset [] s.host.latchProf iface (profNow s)) i = tget [] s.host.latchProf i := tget_tset_other _ _ _ hi
    exact bar0Word_of_prof (oProf k) hl

end Sys2Proof.Machine
end

section
namespace Sys2Proof.Machine

/-! ## MBX_DSTAT, ECC_CCLR and the MSI-X masks (R316, R332, R404) -/

theorem rDstat_ne_rPstat (p : Nat) : rDstat ≠ rPstat p := by unfold rDstat rPstat; omega
theorem rPstat_inj {p q : Nat} (h : p ≠ q) : rPstat p ≠ rPstat q := by unfold rPstat; omega

/-- What a processor's dump and its two flags are. -/
def SameDump (s t : State) (p : Nat) : Prop :=
  (t.proc p).dump = (s.proc p).dump ∧ t.regBit rDstat p = s.regBit rDstat p ∧ t.regBit (rPstat p) 6 = s.regBit (rPstat p) 6

def NoDump (t : State) (p : Nat) : Prop := (t.proc p).dump = none ∧ t.regBit rDstat p = false ∧ t.regBit (rPstat p) 6 = false

theorem clearDump_still (s : State) (p : Nat) : Still s (clearDump s p) := ⟨⟨rfl, rfl, rfl, rfl⟩, rfl⟩

theorem clearDump_proc (s : State) (p q : Nat) : (clearDump s p).proc q = (s.modProc p (fun x => { x with dump := none })).proc q := rfl

theorem clearDump_same (s : State) {p : Nat} (h : p < 7) : NoDump (clearDump s p) p := by
  refine ⟨?_, ?_, ?_⟩
  · rw [clearDump_proc, State.modProc]
    exact congrArg Proc.dump (tget_tset_same ..)
  · rw [clearDump, regBit_setField_other _ _ _ _ _ (rDstat_ne_rPstat p)]
    exact regBit_setBit _ _ (by omega) false
  · exact regBit_setBit _ _ (by decide) false

theorem clearDump_other (s : State) {p q : Nat} (hp : p < 7) (h : q ≠ p) : SameDump s (clearDump s p) q := by
  refine ⟨?_, ?_, ?_⟩
  · rw [clearDump_proc, State.modProc]
    exact congrArg Proc.dump (tget_tset_other _ _ _ h)
  · rw [clearDump, regBit_setField_other _ _ _ _ _ (rDstat_ne_rPstat p), regBit_setField_apart _ _ _ (Nat.le_refl _) (by omega) (by omega)]
    rfl
  · rw [clearDump, regBit_setField_other _ _ _ _ _ (rPstat_inj h), regBit_setField_other _ _ _ _ _ (rDstat_ne_rPstat q).symm]
    rfl

theorem SameDump.trans {a b c : State} {p : Nat} (h : SameDump a b p) (k : SameDump b c p) : SameDump a c p :=
  ⟨k.1.trans h.1, k.2.1.trans h.2.1, k.2.2.trans h.2.2⟩

theorem NoDump.of_same {s t : State} {p : Nat} (h : NoDump s p) (k : SameDump s t p) : NoDump t p :=
  ⟨k.1.trans h.1, k.2.1.trans h.2.1, k.2.2.trans h.2.2⟩

/-- A 1 clears the dump of its processor, and no other. -/
theorem clearDumps (v : Nat) (l : List Nat) (hl : ∀ p ∈ l, p < 7) (s : State) :
    Still s (l.foldl (fun s p => if nbit v p then clearDump s p else s) s) ∧ ∀ q,
      (q ∈ l → nbit v q = true → NoDump (l.foldl (fun s p => if nbit v p then clearDump s p else s) s) q) ∧
      (nbit v q = false → SameDump s (l.foldl (fun s p => if nbit v p then clearDump s p else s) s) q) ∧
      (NoDump s q → NoDump (l.foldl (fun s p => if nbit v p then clearDump s p else s) s) q) := by
  induction l generalizing s with
  | nil => exact ⟨.rfl, fun q => ⟨fun h => absurd h List.not_mem_nil, fun _ => ⟨rfl, rfl, rfl⟩, id⟩⟩
  | cons p l ih =>
    have hp := hl p List.mem_cons_self
    obtain ⟨hs, ih⟩ := ih (fun q hq => hl q (List.mem_cons_of_mem _ hq)) (if nbit v p then clearDump s p else s)
    rw [List.foldl_cons]
    cases hb : nbit v p with
    | false =>
      rw [hb, if_neg (by decide)] at hs ih
      rw [if_neg (by decide)]
      refine ⟨hs, fun q => ⟨fun hq hv => ?_, (ih q).2.1, (ih q).2.2⟩⟩
      rcases List.mem_cons.1 hq with rfl | hq
      · exact absurd (hb.symm.trans hv) nofun
      · exact (ih q).1 hq hv
    | true =>
      rw [hb, if_pos rfl] at hs ih
      rw [if_pos rfl]
      have hkeep : ∀ q, NoDump s q → NoDump (clearDump s p) q := fun q hq => by
        by_cases h : q = p
        · rw [h]; exact clearDump_same s hp
        · exact hq.of_same (clearDump_other s hp h)
      refine ⟨(clearDump_still s p).trans hs, fun q => ⟨fun hq hv => ?_, fun hv => ?_, fun hq => (ih q).2.2 (hkeep q hq)⟩⟩
      · rcases List.mem_cons.1 hq with h | hq
        · exact (ih q).2.2 (by rw [h]; exact clearDump_same s hp)
        · exact (ih q).1 hq hv
      · exact (clearDump_other s hp fun h => by rw [h, hb] at hv; exact absurd hv nofun).trans ((ih q).2.1 hv)

theorem nbit_word (v : Word) (p : Nat) : nbit v.toNat p = v.getLsbD p := nbit_toNat v p

theorem mbxDstatClear_clears (s : State) (v : Word) : ∃ t, exec (.mbxDstatClear v) s = .next t ∧ Still s t ∧ ∀ p, p < 7 →
    (v.getLsbD p = true → (t.proc p).dump = none ∧ t.regBit rDstat p = false ∧ t.regBit (rPstat p) 6 = false) ∧
    (v.getLsbD p = false → (t.proc p).dump = (s.proc p).dump ∧ t.regBit rDstat p = s.regBit rDstat p) := by
  obtain ⟨hs, h⟩ := clearDumps v.toNat (List.range 7) (fun p hp => List.mem_range.1 hp) s
  refine ⟨_, rfl, hs, fun p hp => ⟨fun hv => (h p).1 (List.mem_range.2 hp) ((nbit_word v p).trans hv), fun hv => ?_⟩⟩
  obtain ⟨h1, h2, -⟩ := (h p).2.1 ((nbit_word v p).trans hv)
  exact ⟨h1, h2⟩

/-- The two counters of an error unit. -/
def unitCleared (s : State) (u : Nat) : State := (s.setReg (rUce u) 0).setReg (rUue u) 0

theorem unitCleared_same (s : State) (u : Nat) : (unitCleared s u).reg (rUce u) = 0 ∧ (unitCleared s u).reg (rUue u) = 0 :=
  ⟨(reg_setReg_other _ _ (by unfold rUce rUue; omega)).trans (reg_setReg_same ..), reg_setReg_same ..⟩

theorem unitCleared_other (s : State) {u w : Nat} (h : w ≠ u) :
    (unitCleared s u).reg (rUce w) = s.reg (rUce w) ∧ (unitCleared s u).reg (rUue w) = s.reg (rUue w) :=
  ⟨(reg_setReg_other _ _ (by unfold rUce rUue; omega)).trans (reg_setReg_other _ _ (by unfold rUce; omega)),
   (reg_setReg_other _ _ (by unfold rUue; omega)).trans (reg_setReg_other _ _ (by unfold rUce rUue; omega))⟩

/-- A 1 clears the counters of its unit, and no others. -/
theorem clearUnits (v : Nat) (l : List Nat) (s : State) :
    (l.foldl (fun s u => if nbit v u then (s.setReg (rUce u) 0).setReg (rUue u) 0 else s) s =
      { s with regs := (l.foldl (fun s u => if nbit v u then (s.setReg (rUce u) 0).setReg (rUue u) 0 else s) s).regs }) ∧ ∀ w,
      ((w ∈ l ∧ nbit v w = true) ∨ (s.reg (rUce w) = 0 ∧ s.reg (rUue w) = 0) →
        (l.foldl (fun s u => if nbit v u then (s.setReg (rUce u) 0).setReg (rUue u) 0 else s) s).reg (rUce w) = 0 ∧
        (l.foldl (fun s u => if nbit v u then (s.setReg (rUce u) 0).setReg (rUue u) 0 else s) s).reg (rUue w) = 0) ∧
      (nbit v w = false →
        (l.foldl (fun s u => if nbit v u then (s.setReg (rUce u) 0).setReg (rUue u) 0 else s) s).reg (rUce w) = s.reg (rUce w) ∧
        (l.foldl (fun s u => if nbit v u then (s.setReg (rUce u) 0).setReg (rUue u) 0 else s) s).reg (rUue w) = s.reg (rUue w)) := by
  induction l generalizing s with
  | nil => exact ⟨rfl, fun w => ⟨fun h => h.resolve_left fun h => absurd h.1 List.not_mem_nil, fun _ => ⟨rfl, rfl⟩⟩⟩
  | cons u l ih =>
    obtain ⟨hs, ih⟩ := ih (if nbit v u then unitCleared s u else s)
    rw [List.foldl_cons]
    change (List.foldl _ (if nbit v u then unitCleared s u else s) l = _ ∧ _)
    cases hb : nbit v u with
    | false =>
      rw [hb, if_neg (by decide)] at hs ih
      rw [if_neg (by decide)]
      refine ⟨hs, fun w => ⟨fun h => (ih w).1 (h.imp_left fun ⟨hm, hv⟩ => ⟨?_, hv⟩), (ih w).2⟩⟩
      exact (List.mem_cons.1 hm).resolve_left fun h => by rw [h, hb] at hv; exact absurd hv nofun
    | true =>
      rw [hb, if_pos rfl] at hs ih
      rw [if_pos rfl]
      refine ⟨hs.trans rfl, fun w => ⟨fun h => (ih w).1 ?_, fun hv => ?_⟩⟩
      · by_cases hw : w = u
        · exact .inr (hw ▸ unitCleared_same s u)
        · obtain ⟨h1, h2⟩ := unitCleared_other s hw
          exact h.imp (fun ⟨hm, hv⟩ => ⟨(List.mem_cons.1 hm).resolve_left hw, hv⟩) fun ⟨k1, k2⟩ => ⟨h1.trans k1, h2.trans k2⟩
      · obtain ⟨h1, h2⟩ := unitCleared_other s (u := u) (w := w) fun h => by rw [h, hb] at hv; exact absurd hv nofun
        exact ⟨((ih w).2 hv).1.trans h1, ((ih w).2 hv).2.trans h2⟩

theorem eccCclrWrite_clears (s : State) (v : Word) : ∃ t, exec (.eccCclrWrite v) s = .next t ∧ t = { s with regs := t.regs } ∧ ∀ u, u < 15 →
    (v.getLsbD u = true → t.reg (rUce u) = 0 ∧ t.reg (rUue u) = 0) ∧
    (v.getLsbD u = false → t.reg (rUce u) = s.reg (rUce u) ∧ t.reg (rUue u) = s.reg (rUue u)) := by
  obtain ⟨hs, h⟩ := clearUnits v.toNat (List.range 15) s
  exact ⟨_, rfl, hs, fun u hu => ⟨fun hv => (h u).1 (.inl ⟨List.mem_range.2 hu, (nbit_word v u).trans hv⟩),
    fun hv => (h u).2 ((nbit_word v u).trans hv)⟩⟩

theorem mem_insNat (k a : Nat) (l : List Nat) : a ∈ insNat k l ↔ a = k ∨ a ∈ l := by
  induction l with
  | nil => simp [insNat]
  | cons b l ih =>
    rw [insNat]
    split
    · simp
    · split
      · next h => rw [h]; simp
      · rw [List.mem_cons, ih, List.mem_cons]; tauto

theorem msixUnmask_sends (s : State) (v : Fin 2048) : ∃ t, exec (.msixUnmask v) s = .next t ∧ t = { s with msix := t.msix, out := t.out } ∧
    t.msix.open_.contains v.val = true ∧
    (s.msix.pba.contains v.val = true → s.msix.enable = true → s.msix.fmask = false →
      t.out = s.out ++ [.msix v] ∧ t.msix.pba.contains v.val = false) ∧
    (s.msix.pba.contains v.val = false → t.out = s.out ∧ t.msix.pba = s.msix.pba) := by
  have hopen : (insNat v s.msix.open_).contains v.val = true := by
    rw [List.contains_iff_mem, mem_insNat]; exact .inl rfl
  have he : exec (.msixUnmask v) s = .next (sendPending { s with msix := { s.msix with open_ := insNat v s.msix.open_ } } v) := rfl
  refine ⟨_, he, ?_⟩
  unfold sendPending
  split
  · next h =>
    refine ⟨rfl, hopen, fun _ _ _ => ⟨rfl, ?_⟩, fun hp => absurd (h.1.symm.trans hp) nofun⟩
    rw [← Bool.not_eq_true, List.contains_iff_mem]
    simp
  · next h =>
    refine ⟨rfl, hopen, fun hp hen hm => absurd ⟨hp, hen, fun k => ?_, hopen⟩ h, fun _ => ⟨rfl, rfl⟩⟩
    exact absurd (hm.symm.trans k) nofun

/-- Settles O47: a write takes each field by its access code, and nothing but what follows the register moves. -/
theorem registersFollowTheirAccess : Obligations.RegistersFollowTheirAccess := by
  unfold Obligations.RegistersFollowTheirAccess
  intro s iface
  exact ⟨fun off v h => plainReg_written s iface v h, registerWrite_alert s iface,
    fun v => ⟨registerWrite_is s iface v, registerWrite_place s iface v, registerWrite_region s iface v,
      registerWrite_class s iface v, fun off h => registerWrite_pair s iface v h⟩,
    registerWrite_bias s iface, admTickLoRead_latches s iface, pwrPtickLoRead_latches s iface, mbxDstatClear_clears s,
    eccCclrWrite_clears s, msixUnmask_sends s⟩

end Sys2Proof.Machine
end

section
/-! SUPPORT. Frames and checks of the Lupin links (R462, R471, R475, R476, R479 to R481, R487). -/
namespace Sys2Proof.Machine

/-! ## Frames (R471, R475, R476) -/

theorem link_emit (s : State) (o : Out) (l : Nat) : (s.emit o).link l = s.link l := rfl

/-- The control that answers a frame. -/
theorem answerFrame_spec (s : State) (l : Nat) (nak : Bool) : LinksOnly s (answerFrame s l nak) ∧
    (∃ c n, (answerFrame s l nak).out = s.out ++ [.control l (((s.link l).rxSeq + 4095) % 4096) nak (holding s) c n]) ∧
    (answerFrame s l nak).link l =
      { s.link l with owed := ((answerFrame s l nak).link l).owed, crTurn := ((answerFrame s l nak).link l).crTurn } := by
  refine ⟨(modLink_linksOnly ..).trans (emit_linksOnly ..), ⟨_, _, rfl⟩, ?_⟩
  unfold answerFrame
  rw [link_emit, link_modLink_same]

theorem takeAck_rxSeq (k : LLink) (a : Nat) : (takeAck k a).rxSeq = k.rxSeq := by
  unfold takeAck; split <;> rfl

theorem linkLive_iff {s : State} {l : Nat} : linkLive s l = true ↔ linkState s l = 2 ∨ linkState s l = 3 := not_live

section
variable {s : State} {link : Fin 8} (hlive : linkLive s (link.val + 1) = true)
include hlive

theorem not_dark : ¬ (!linkLive s (link.val + 1)) = true := by rw [hlive]; decide

/-- The FramesAndManagementAreTaken clauses of a frame that fails its checks. -/
theorem frameReceived_bad (fseq ak : Fin 4096) (hold : Bool) (flits : List (Fin 4 × Fin 21)) (cc : Fin 4) (cn : Fin 1024) :
    let l := link.val + 1
    let k := s.link l
    (k.naking = false → ∃ t, exec (.frameReceived link fseq ak hold false flits cc cn) s = .next t ∧ Still s t ∧ (t.link l).naking = true ∧
      ∃ c n, t.out = s.out ++ [.control l ((k.rxSeq + 4095) % 4096) true (holding s) c n]) ∧
    (k.naking = true → exec (.frameReceived link fseq ak hold false flits cc cn) s = .next s) := by
  intro l k
  have he : exec (.frameReceived link fseq ak hold false flits cc cn) s =
      .next (if k.naking then s else answerFrame (s.modLink l (fun k => { k with naking := true })) l true) :=
    congrArg Host.Outcome.next ((if_neg (not_dark hlive)).trans (if_pos rfl))
  refine ⟨fun hn => ⟨_, he, ?_⟩, fun hn => he.trans (congrArg _ (if_pos hn))⟩
  rw [if_neg (by rw [hn]; decide)]
  obtain ⟨honly, ⟨c, n, hout⟩, hlink⟩ := answerFrame_spec (s.modLink l (fun k => { k with naking := true })) l true
  rw [link_modLink_same] at hout hlink
  exact ⟨((modLink_linksOnly ..).trans honly).still, by rw [hlink], ⟨c, n, hout⟩⟩

theorem frameReceived_other {fseq : Fin 4096} (ak : Fin 4096) (hold : Bool) (flits : List (Fin 4 × Fin 21)) (cc : Fin 4) (cn : Fin 1024)
    (h : fseq.val ≠ (s.link (link.val + 1)).rxSeq) : exec (.frameReceived link fseq ak hold true flits cc cn) s = .next s :=
  congrArg Host.Outcome.next ((if_neg (not_dark hlive)).trans ((if_neg (by decide)).trans (if_pos h)))

/-- The link after a good frame in order. -/
def frameTaken (k : LLink) (ak : Nat) (flits : List (Fin 4 × Fin 21)) (cc cn : Nat) : LLink :=
  let k := returnCredit (takeAck k ak) cc cn
  { k with
    rxSeq := (k.rxSeq + 1) % 4096
    naking := false
    owed := flits.foldl (fun t f => tset 0 t f.1 (tget 0 t f.1 + f.2.val)) k.owed }

/-- The FramesAndManagementAreTaken clause of a good frame in order. -/
theorem frameReceived_good {fseq : Fin 4096} (ak : Fin 4096) (hold : Bool) (flits : List (Fin 4 × Fin 21)) (cc : Fin 4) (cn : Fin 1024)
    (h : fseq.val = (s.link (link.val + 1)).rxSeq) :
    let l := link.val + 1
    let k := s.link l
    ∃ t, exec (.frameReceived link fseq ak hold true flits cc cn) s = .next t ∧ Still s t ∧
      (t.link l).rxSeq = (k.rxSeq + 1) % 4096 ∧ (t.link l).naking = false ∧ t.regBit (rLstat l) 15 = hold ∧
      (∃ more, (t.link l).retry = (takeAck k ak).retry ++ more) ∧ ∃ c n, Out.control l k.rxSeq false (holding s) c n ∈ t.out := by
  intro l k
  let u := (s.modLink l (fun k => frameTaken k ak flits cc cn)).setField (rLstat l) 15 15 (if hold then 1 else 0)
  have he : exec (.frameReceived link fseq ak hold true flits cc cn) s = .next (pumpLink (answerFrame u l false) l) :=
    congrArg Host.Outcome.next ((if_neg (not_dark hlive)).trans ((if_neg (by decide)).trans (if_neg (not_not_intro h))))
  have hu : Still s u := (modLink_linksOnly ..).still.trans (setField_logsOnly ..).still
  have hul : (s.modLink l (fun k => frameTaken k ak flits cc cn)).link l = frameTaken k ak flits cc cn := link_modLink_same ..
  have hul : u.link l = frameTaken k ak flits cc cn := hul
  have hseq : (u.link l).rxSeq = (k.rxSeq + 1) % 4096 := by
    rw [hul]; exact congrArg (fun n => (n + 1) % 4096) (takeAck_rxSeq k ak)
  have hret : (u.link l).retry = (takeAck k ak).retry := by rw [hul]; rfl
  obtain ⟨honly, ⟨c, n, hout⟩, hlink⟩ := answerFrame_spec u l false
  have hp := pumpLink_pumps (answerFrame u l false) l
  refine ⟨_, he, hu.trans (honly.still.trans hp.only.still), ?_, ?_, ?_, ?_, ?_⟩
  · rw [hp.same, hlink]; exact hseq
  · rw [hp.same, hlink, hul]; rfl
  · rw [regBit_of_reg ((hp.only.reg _).trans (honly.reg _))]
    exact regBit_setBit _ _ (by decide) hold
  · obtain ⟨more, hm⟩ := hp.retry
    exact ⟨more, by rw [hm, hlink, ← hret]⟩
  · obtain ⟨more, hm⟩ := hp.out
    have hk : (((u.link l).rxSeq + 4095) % 4096) = k.rxSeq := by
      have hlt : k.rxSeq < 4096 := h ▸ fseq.isLt
      rw [hseq]; omega
    refine ⟨c, n, ?_⟩
    rw [hm, hout, hk]
    exact List.mem_append_left _ (List.mem_append_right _ (List.mem_singleton.2 rfl))

end

/-! ## Frames that are sent again (R475, R479) -/

theorem regField_setField_le (s : State) (off : Nat) {hi lo v : Nat} (h : lo ≤ hi) (h32 : hi < 32) (hv : v < 2 ^ (hi + 1 - lo)) :
    (s.setField off hi lo v).regField off hi lo = v := (regField_setField s off v h h32).trans (Nat.mod_eq_of_lt hv)

/-- What counting a resent frame leaves. -/
theorem countRetry_spec (s : State) {l : Nat} (hl : l ≤ 8) : Still s (countRetry s l) ∧ (countRetry s l).out = s.out ∧
    ((countRetry s l).link l).retry = (s.link l).retry ∧
    (countRetry s l).regField (rLerr l) 15 0 = min 65535 (s.regField (rLerr l) 15 0 + 1) := by
  let u := (s.setField (rLerr l) 15 0 (satAdd 0xFFFF (s.regField (rLerr l) 15 0) 1)).modLink l
    (fun k => { k with retrySec := ⟨s.clk.tick / ticksPerSecond,
      if (s.link l).retrySec.sec = s.clk.tick / ticksPerSecond then (s.link l).retrySec.cnt + 1 else 1⟩ })
  have hu : Still s u := (setField_logsOnly ..).still.trans (modLink_linksOnly ..).still
  have hlink : (u.link l).retry = (s.link l).retry := by
    show ((State.modLink _ l _).link l).retry = _
    rw [link_modLink_same]; rfl
  have hfield : u.regField (rLerr l) 15 0 = min 65535 (s.regField (rLerr l) 15 0 + 1) :=
    regField_setField_le s _ (by decide) (by decide) (Nat.lt_of_le_of_lt (Nat.min_le_left _ _) (by decide))
  have hlog := lupLog_logs u 0x06F5 1 l
  have hout : (lupLog u 0x06F5 1 l).out = u.out := rasLog_out _ _ (by decide : 1 < 2)
  have he : countRetry s l = if (if (s.link l).retrySec.sec = s.clk.tick / ticksPerSecond then (s.link l).retrySec.cnt + 1 else 1) = 101 then
      lupLog u 0x06F5 1 l else u := rfl
  rw [he]
  by_cases h101 : (if (s.link l).retrySec.sec = s.clk.tick / ticksPerSecond then (s.link l).retrySec.cnt + 1 else 1) = 101
  · rw [if_pos h101]
    refine ⟨hu.trans hlog.domain.still, hout, ?_, ?_⟩
    · rw [State.link, hlog.only.lup]; exact hlink
    · rw [regField_of_reg (hlog.domain.reg _ (rLerr_apart hl))]; exact hfield
  · rw [if_neg h101]
    exact ⟨hu, rfl, hlink, hfield⟩

/-- Every frame of a list is sent again and counted. -/
theorem resend_spec {l : Nat} (hl : l ≤ 8) (ps : List (Nat × LMsg)) (s : State) :
    let t := ps.foldl (fun s p => (countRetry s l).emit (.lupin l p.1 p.2)) s
    Still s t ∧ t.out = s.out ++ ps.map (fun p => .lupin l p.1 p.2) ∧ (t.link l).retry = (s.link l).retry ∧
    t.regField (rLerr l) 15 0 = min 65535 (s.regField (rLerr l) 15 0 + ps.length) := by
  induction ps generalizing s with
  | nil =>
    have := regField_lt s (rLerr l) 15 0
    exact ⟨.rfl, (List.append_nil _).symm, rfl, by simp only [List.foldl_nil, List.length_nil]; omega⟩
  | cons p ps ih =>
    obtain ⟨h1, h2, h3, h4⟩ := countRetry_spec s hl
    obtain ⟨k1, k2, k3, k4⟩ := ih ((countRetry s l).emit (.lupin l p.1 p.2))
    have hf : ((countRetry s l).emit (.lupin l p.1 p.2)).regField (rLerr l) 15 0 = (countRetry s l).regField (rLerr l) 15 0 := rfl
    refine ⟨h1.trans ((emit_linksOnly ..).still.trans k1), k2.trans ?_, k3.trans h3, k4.trans ?_⟩
    · have ho : ((countRetry s l).emit (.lupin l p.1 p.2)).out = (countRetry s l).out ++ [.lupin l p.1 p.2] := rfl
      rw [ho, h2, List.append_assoc]; rfl
    · rw [hf, h4, List.length_cons]; omega

/-- The FramesAndManagementAreTaken clauses of NAK. -/
theorem nak_resends {s : State} {link : Fin 8} (hlive : linkLive s (link.val + 1) = true) (ak : Fin 4096) :
    let l := link.val + 1
    let k := s.link l
    ((takeAck k ak).nakRun + 1 < 8 → ∃ t, exec (.nak link ak) s = .next t ∧ Still s t ∧
      t.out = s.out ++ (takeAck k ak).retry.map (fun p => .lupin l p.1 p.2) ∧ (t.link l).retry = (takeAck k ak).retry ∧
      t.regField (rLerr l) 15 0 = min 65535 (s.regField (rLerr l) 15 0 + (takeAck k ak).retry.length)) ∧
    (8 ≤ (takeAck k ak).nakRun + 1 → ∃ t, exec (.nak link ak) s = .next t ∧ Still s t ∧ linkState t l = 0) := by
  intro l k
  have hl : l ≤ 8 := link.isLt
  let u := s.modLink l (fun k => { takeAck k ak with nakRun := (takeAck k ak).nakRun + 1 })
  have hlink : u.link l = { takeAck k ak with nakRun := (takeAck k ak).nakRun + 1 } := link_modLink_same ..
  have hu : Still s u := (modLink_linksOnly ..).still
  have he : exec (.nak link ak) s = .next (if 8 ≤ (u.link l).nakRun then lowerLink u l 0 1
      else (u.link l).retry.foldl (fun s p => (countRetry s l).emit (.lupin l p.1 p.2)) u) :=
    congrArg Host.Outcome.next (if_neg (not_dark hlive))
  rw [hlink] at he
  refine ⟨fun h => ⟨_, he, ?_⟩, fun h => ⟨_, he, ?_⟩⟩
  · rw [if_neg (by dsimp only; omega)]
    obtain ⟨h1, h2, h3, h4⟩ := resend_spec hl (takeAck k ak).retry u
    exact ⟨hu.trans h1, h2, h3.trans (by rw [hlink]), h4⟩
  · rw [if_pos h]
    exact ⟨hu.trans (lowerLink_still 0 1), lowerLink_linkState hl 1 (by decide)⟩

/-! ## Malformed messages (R462, R480, R481) -/

/-- The link carries management only. -/
theorem quarantine_spec {s : State} {l : Nat} (hl : l ≤ 8) (h : linkState s l = 2) :
    Still s (quarantine s l) ∧ linkState (quarantine s l) l = 3 ∧ (quarantine s l).reg (rLerr l) = s.reg (rLerr l) := by
  have he : quarantine s l = dropFromRoutes (rasLog (s.setField (rLstat l) 2 0 3) (logEv 0x0609 (unitOf 11 l) (s.reg (rLstat l)).toNat)) l :=
    if_neg (not_not_intro h)
  have hlog := (rasLog_logs (s.setField (rLstat l) 2 0 3) (logEv 0x0609 (unitOf 11 l) (s.reg (rLstat l)).toNat)).domain
  have hd := hlog.trans (flood_failTo_domain (rasLog (s.setField (rLstat l) 2 0 3) (logEv 0x0609 (unitOf 11 l) (s.reg (rLstat l)).toNat))
    (rasLog (s.setField (rLstat l) 2 0 3) (logEv 0x0609 (unitOf 11 l) (s.reg (rLstat l)).toNat)).modId l l
    (16 * (rasLog (s.setField (rLstat l) 2 0 3) (logEv 0x0609 (unitOf 11 l) (s.reg (rLstat l)).toNat)).modId + l))
  rw [he]
  refine ⟨(setField_logsOnly ..).still.trans hd.still, ?_, ?_⟩
  · exact (hd.linkState hl).trans (linkState_setState s l (by decide))
  · exact (hd.reg _ (rLerr_apart hl)).trans (reg_setField_other _ _ _ _ (rLstat_ne_rLerr l).symm)

/-- The malformed message is counted and logged. -/
def noteMalformed (s : State) (l : Nat) : State :=
  let u := s.setField (rLerr l) 31 16 (satAdd 0xFFFF (s.regField (rLerr l) 31 16) 1)
  let sec := s.clk.tick / ticksPerSecond + 1
  let u := if (s.link l).malSec = sec then u else rasLog u (logEv 0x0608 (unitOf 11 l) (u.reg (rLstat l)).toNat)
  u.modLink l (fun k => { k with
    malMs := ⟨s.clk.tick / ticksPerMs, if (s.link l).malMs.sec = s.clk.tick / ticksPerMs then (s.link l).malMs.cnt + 1 else 1⟩, malSec := sec })

theorem dropMalformed_eq (s : State) (l : Nat) (m : LMsg) (reason : Nat) : dropMalformed s l m reason =
    if 16 < (if (s.link l).malMs.sec = s.clk.tick / ticksPerMs then (s.link l).malMs.cnt + 1 else 1) then
      quarantine (nack (noteMalformed s l) m reason) l else nack (noteMalformed s l) m reason := rfl

theorem noteMalformed_spec (s : State) {l : Nat} (hl : l ≤ 8) : Still s (noteMalformed s l) ∧
    (noteMalformed s l).regField (rLerr l) 31 16 = min 65535 (s.regField (rLerr l) 31 16 + 1) ∧
    linkState (noteMalformed s l) l = linkState s l ∧ (noteMalformed s l).modId = s.modId ∧ (noteMalformed s l).lup.epoch = s.lup.epoch := by
  let u := s.setField (rLerr l) 31 16 (satAdd 0xFFFF (s.regField (rLerr l) 31 16) 1)
  let e := logEv 0x0608 (unitOf 11 l) (u.reg (rLstat l)).toNat
  have hfield : u.regField (rLerr l) 31 16 = min 65535 (s.regField (rLerr l) 31 16 + 1) :=
    regField_setField_le s _ (by decide) (by decide) (Nat.lt_of_le_of_lt (Nat.min_le_left _ _) (by decide))
  have hst : linkState u l = linkState s l := linkState_of_reg (reg_setField_other _ _ _ _ (rLstat_ne_rLerr l))
  have hlog : Logs u (if (s.link l).malSec = s.clk.tick / ticksPerSecond + 1 then u else rasLog u e) := by
    split
    · exact ⟨.rfl, fun _ _ => rfl⟩
    · exact rasLog_logs u e
  have hmod := modLink_linksOnly (if (s.link l).malSec = s.clk.tick / ticksPerSecond + 1 then u else rasLog u e) l (fun k => { k with
    malMs := ⟨s.clk.tick / ticksPerMs, if (s.link l).malMs.sec = s.clk.tick / ticksPerMs then (s.link l).malMs.cnt + 1 else 1⟩,
    malSec := s.clk.tick / ticksPerSecond + 1 })
  have hd := hlog.domain.trans hmod.domain
  refine ⟨(setField_logsOnly ..).still.trans hd.still, ?_, (hd.linkState hl).trans hst, hd.modId, hmod.epoch.trans (congrArg Lup.epoch hlog.only.lup)⟩
  exact (regField_of_reg (hd.reg _ (rLerr_apart hl)) 31 16).trans hfield

theorem nackTo_eq {s t : State} (hid : t.modId = s.modId) (hep : t.lup.epoch = s.lup.epoch) (m : LMsg) (reason : Nat) :
    { newMsg t tNACK m.label 0 m.src m.tag 0 .none with reason := reason } = nackTo s m reason := by
  rw [nackTo, newMsg, newMsg, hid, hep]

/-- What a malformed message leaves. -/
theorem dropMalformed_spec {s : State} {l : Nat} (hl : l ≤ 8) (h2 : linkState s l = 2) (m : LMsg) (r : Nat) :
    let k := s.link l
    Still s (dropMalformed s l m r) ∧ (dropMalformed s l m r).regField (rLerr l) 31 16 = min 65535 (s.regField (rLerr l) 31 16 + 1) ∧
    (k.malMs.sec ≠ s.clk.tick / ticksPerMs ∨ k.malMs.cnt < 16 → m.typ ≠ tNACK → Sent (dropMalformed s l m r) (nackTo s m r)) ∧
    (k.malMs.sec = s.clk.tick / ticksPerMs → 16 ≤ k.malMs.cnt → linkState (dropMalformed s l m r) l = 3) := by
  dsimp only
  obtain ⟨h1, hf, hst, hid, hep⟩ := noteMalformed_spec s hl
  have hn : LinksOnly (noteMalformed s l) (nack (noteMalformed s l) m r) := by
    unfold nack
    split
    · exact .rfl
    · exact sendMsg_linksOnly ..
  have hst' : linkState (nack (noteMalformed s l) m r) l = 2 := (linkState_of_reg (hn.reg _)).trans (hst.trans h2)
  have hf' := (regField_of_reg (hn.reg (rLerr l)) 31 16).trans hf
  have hsent : m.typ ≠ tNACK → Sent (nack (noteMalformed s l) m r) (nackTo s m r) := fun ht => by
    unfold nack
    rw [if_neg ht, nackTo_eq hid hep]
    exact sendMsg_sent (noteMalformed s l) (nackTo s m r)
  obtain ⟨q1, q2, q3⟩ := quarantine_spec hl hst'
  rw [dropMalformed_eq]
  by_cases hms : (s.link l).malMs.sec = s.clk.tick / ticksPerMs
  · rw [if_pos hms]
    by_cases hc : 16 < (s.link l).malMs.cnt + 1
    · rw [if_pos hc]
      refine ⟨h1.trans (hn.still.trans q1), (regField_of_reg q3 31 16).trans hf', fun h => ?_, fun _ _ => q2⟩
      exact absurd hc (by rcases h with h | h <;> [exact absurd hms h; omega])
    · rw [if_neg hc]
      exact ⟨h1.trans hn.still, hf', fun _ ht => hsent ht, fun _ h => absurd h (by omega)⟩
  · rw [if_neg hms, if_neg (by decide)]
    exact ⟨h1.trans hn.still, hf', fun _ ht => hsent ht, fun h => absurd h hms⟩

end Sys2Proof.Machine
end

section
/-! SUPPORT. Mailbox commands: checks, identity, versions, sessions, locks and jobs (R388 to R395, R508). -/
namespace Sys2Proof.Machine

/-! ## What every command starts from -/

theorem rLock_ne_rMbx (n : Nat) : rLock ≠ rMbx n ∧ rLock ≠ rMbx n + 4 := by
  unfold rLock rMbx; split <;> omega

theorem Posts.rLock {s t : State} {n : Nat} (h : Posts s t n) : t.reg rLock = s.reg rLock := h.reg _ (rLock_ne_rMbx n).1 (rLock_ne_rMbx n).2

theorem Posts.ownsLocks {s t : State} {n : Nat} (h : Posts s t n) (m : Nat) : ownsLocks t m = ownsLocks s m := by
  unfold Machine.ownsLocks
  rw [regField_of_reg h.rLock, regField_of_reg h.rLock, h.session]

/-- A failed check has a status that every mailbox kind knows. -/
theorem callFault_range {s : State} {c : Call} {st d : Nat} (h : callFault s c = some (st, d)) : mIN_PROGRESS < st ∧ st ≤ mCHECK_FAILED := by
  unfold callFault at h
  have hs : ∀ {a b : Nat}, (some (a, b) = some (st, d)) → mIN_PROGRESS < a ∧ a ≤ mCHECK_FAILED → mIN_PROGRESS < st ∧ st ≤ mCHECK_FAILED := fun h k => by
    rw [← (Prod.mk.inj (Option.some.inj h)).1]; exact k
  split at h
  · exact hs h (by decide)
  · split at h
    · exact hs h (by decide)
    · split at h
      · exact hs h (by decide)
      · split at h
        · exact hs h (by decide)
        · split at h
          · exact hs h (by decide)
          · split at h
            · exact hs h (by decide)
            · split at h
              · exact hs h (by decide)
              · exact absurd h nofun

/-- A command that fails a check answers its status, and does nothing else. -/
theorem mbxGo_fault {s : State} {n op : Nat} {b : List Nat} {st d : Nat} (h : MbxFree s n op b) (hn : n ≤ 16) (irq : Bool) (plan : List (List Nat)) (num : Nat)
    (hf : callFault s (callOf n op b irq) = some (st, d)) :
    Still s (mbxGo s n irq op b plan num) ∧ Answered (mbxGo s n irq op b plan num) n st (natLe 4 d) := by
  have hp := posted_posts s (goCall n op b irq plan num)
  have hcf : callFault (posted s (goCall n op b irq plan num)) (goCall n op b irq plan num) = some (st, d) :=
    (callFault_posted hp hn _ (callOf n op b irq) rfl rfl rfl).trans hf
  obtain ⟨hlo, hhi⟩ := callFault_range hf
  rw [mbxGo_free h irq plan num, startCmd, hcf]
  exact ⟨hp.still.trans (finish_posts ..).still, finish_bad (posted s (goCall n op b irq plan num)) (goCall n op b irq plan num) d [] hlo (.inl hhi)⟩

/-- The commands and their numbers. -/
def mailboxCommands (n : MbxId) (irq : Bool) (req : List Byte) : List (Instr × Nat) :=
  [(.identify n irq req, 0x01), (.getVersion n irq req, 0x02), (.openSession n irq req, 0x03), (.closeSession n irq req, 0x04),
    (.lock n irq req, 0x06), (.unlock n irq req, 0x07), (.registerProgram n irq req, 0x10), (.withdrawProgram n irq req, 0x11),
    (.loadContext n irq req, 0x20), (.unloadContext n irq req, 0x21), (.loadGranules n irq req, 0x22), (.queueCreate n irq req, 0x30),
    (.queueModify n irq req, 0x31), (.queueReset n irq req, 0x32), (.queueDelete n irq req, 0x33), (.queueQuery n irq req, 0x34),
    (.scrub n irq req, 0x40), (.computeReset n irq req, 0x50), (.towerReset n irq req, 0x51), (.moduleReset n irq req, 0x52),
    (.powerQuery n irq req, 0x61), (.licenceInstall n irq req, 0x70), (.licenceList n irq req, 0x71), (.attest n irq req, 0x72),
    (.dumpRead n irq req, 0x80), (.dumpClear n irq req, 0x81), (.procRestart n irq req, 0x82), (.updateBegin n irq req, 0xA0),
    (.updateWrite n irq req, 0xA1), (.updateVerify n irq req, 0xA2), (.updateActivate n irq req, 0xA3), (.updateAbort n irq req, 0xA4)]

theorem mailboxCommands_go (s : State) (n : MbxId) (irq : Bool) (req : List Byte) :
    ∀ p ∈ mailboxCommands n irq req, exec p.1 s = .next (mbxGo s n irq p.2 (reqBytes req) [] 0) := by
  intro p hp
  simp only [mailboxCommands, List.mem_cons, List.not_mem_nil, or_false] at hp
  rcases hp with rfl | rfl | rfl | rfl | rfl | rfl | rfl | rfl | rfl | rfl | rfl | rfl | rfl | rfl | rfl | rfl | rfl | rfl | rfl | rfl | rfl |
    rfl | rfl | rfl | rfl | rfl | rfl | rfl | rfl | rfl | rfl | rfl <;> rfl

/-! ## Identity and versions -/

section
variable {s : State} {n : Nat} (hn : n ≤ 16) (irq : Bool) {b : List Nat}
include hn

theorem mbxGo_identify (h : Served s n 0x01 b) : Still s (mbxGo s n irq 0x01 b [] 0) ∧ Answered (mbxGo s n irq 0x01 b [] 0) n mOK (identity s) := by
  have hp := posted_posts s (goCall n 0x01 b irq [] 0)
  rw [mbxGo_served h hn, runCmd_identify _ rfl, identity_posts hp]
  exact ⟨hp.still.trans (finish_posts ..).still, finish_good _ (goCall n 0x01 b irq [] 0) 0 (by decide) (Nat.le_of_eq (identity_length s))⟩

/-- What GET_VERSION answers. -/
def versions (s : State) : List Nat :=
  natLe 2 verG2 ++ natLe 2 verG1 ++ List.replicate 12 0 ++ (List.range 7).flatMap (fun p =>
    slotBytes s p (activeSlot s p) 8 8 ++ slotBytes s p (1 - activeSlot s p) 8 8)

omit hn in
theorem versions_length (s : State) : (versions s).length = 128 := by
  have hs : ∀ p sl a k, (slotBytes s p sl a k).length = k := fun p sl a k => by rw [slotBytes, List.length_map, List.length_range]
  simp only [versions, List.length_append, natLe_length, List.length_replicate, List.length_flatMap, hs]
  decide

omit hn in
theorem versions_posts {t : State} (h : Posts s t n) : versions t = versions s := by
  have hslot : ∀ p sl a k, slotBytes t p sl a k = slotBytes s p sl a k := fun p sl a k => by
    have hf : t.fw.slots = s.fw.slots := by rw [h.only]
    unfold slotBytes slotByte; rw [hf]
  have hact : ∀ p, p < 7 → activeSlot t p = activeSlot s p := fun p hp => by
    have hpr : t.proc p = s.proc p := by rw [h.only]; rfl
    unfold activeSlot
    rw [regBit_of_reg (h.reg _ (rPstat_ne_rMbx p hp).1 (rPstat_ne_rMbx p hp).2), hpr]
  unfold versions
  rw [List.flatMap_def, List.flatMap_def, List.map_congr_left fun p hp => by rw [hslot, hslot, hact p (List.mem_range.1 hp)]]

theorem mbxGo_getVersion (h : Served s n 0x02 b) : Still s (mbxGo s n irq 0x02 b [] 0) ∧ Answered (mbxGo s n irq 0x02 b [] 0) n mOK (versions s) := by
  have hp := posted_posts s (goCall n 0x02 b irq [] 0)
  have hr : runCmd (posted s (goCall n 0x02 b irq [] 0)) (goCall n 0x02 b irq [] 0) =
      finish (posted s (goCall n 0x02 b irq [] 0)) (goCall n 0x02 b irq [] 0) mOK 0 (versions (posted s (goCall n 0x02 b irq [] 0))) := rfl
  rw [mbxGo_served h hn, hr, versions_posts hp]
  exact ⟨hp.still.trans (finish_posts ..).still, finish_good _ (goCall n 0x02 b irq [] 0) 0 (by decide) (by rw [versions_length]; decide)⟩

end

/-! ## Sessions (R393, R395) -/

theorem rMbx_sess_ne (n : Nat) : rMbx n + 8 ≠ rMbx n + 4 ∧ rMbx n + 8 ≠ rMbx n ∧ rLock ≠ rMbx n + 8 := by
  unfold rLock rMbx; split <;> omega

/-- The session of a mailbox ends with its flags. -/
def sessionEnded (s : State) (n : Nat) : State :=
  (({ s with fw := { s.fw with sess := tset none s.fw.sess n none, chunks := tset [] s.fw.chunks n [] } }.setField (rMbx n + 4) 3 2 0).setReg
    (rMbx n + 8) 0)

theorem endSession_eq (s : State) (n : Nat) : endSession s n =
    if (s.session n).any (fun x => !x.bad) = true ∧ (sessionEnded s n).regField rLock 11 0 ≠ 0 ∧ (sessionEnded s n).regField rLock 16 12 = n then
      (sessionEnded s n).setReg rLock 0 else sessionEnded s n := rfl

theorem sessionEnded_reg (s : State) (n : Nat) {off : Nat} (h4 : off ≠ rMbx n + 4) (h8 : off ≠ rMbx n + 8) : (sessionEnded s n).reg off = s.reg off :=
  (reg_setReg_other _ _ h8).trans (reg_setField_other _ _ _ _ h4)

theorem sessionEnded_lock (s : State) (n : Nat) : (sessionEnded s n).reg rLock = s.reg rLock :=
  sessionEnded_reg s n (rLock_ne_rMbx n).2 (rMbx_sess_ne n).2.2

/-- Nothing but the sessions, the chunks of licences, and registers differs, and of the registers only the mailbox's and the lock. -/
structure EndsSession (s t : State) (n : Nat) : Prop where
  only : t = { s with fw := { s.fw with sess := t.fw.sess, chunks := t.fw.chunks }, regs := t.regs }
  none : t.session n = none
  other : ∀ m, m ≠ n → t.session m = s.session m
  flag : t.regField (rMbx n + 4) 3 2 = 0
  reg : ∀ off, off ≠ rMbx n + 4 → off ≠ rMbx n + 8 → off ≠ rLock → t.reg off = s.reg off
  freed : (s.session n).any (fun x => !x.bad) = true → s.regField rLock 16 12 = n → t.regField rLock 11 0 = 0
  kept : s.regField rLock 16 12 ≠ n → t.reg rLock = s.reg rLock

theorem endSession_ends (s : State) (n : Nat) : EndsSession s (endSession s n) n := by
  have hl := sessionEnded_lock s n
  have hsess : ∀ m, (sessionEnded s n).session m = tget none (tset none s.fw.sess n none) m := fun _ => rfl
  have hflag : (sessionEnded s n).regField (rMbx n + 4) 3 2 = 0 :=
    (regField_of_reg (reg_setReg_other _ _ (rMbx_sess_ne n).1.symm) 3 2).trans (regField_setField _ _ 0 (by decide) (by decide))
  have h0 : EndsSession s (sessionEnded s n) n ∨ (s.session n).any (fun x => !x.bad) = true ∧ s.regField rLock 16 12 = n ∧
      (sessionEnded s n).regField rLock 11 0 ≠ 0 := by
    by_cases h : (s.session n).any (fun x => !x.bad) = true ∧ s.regField rLock 16 12 = n ∧ (sessionEnded s n).regField rLock 11 0 ≠ 0
    · exact .inr h
    · refine .inl ⟨rfl, (hsess n).trans (tget_tset_same ..), fun m hm => (hsess m).trans (tget_tset_other _ _ _ hm), hflag,
        fun off h4 h8 _ => sessionEnded_reg s n h4 h8, fun ho hn => ?_, fun _ => hl⟩
      by_contra hne
      exact h ⟨ho, hn, hne⟩
  rw [endSession_eq, regField_of_reg hl 16 12]
  by_cases hc : (s.session n).any (fun x => !x.bad) = true ∧ (sessionEnded s n).regField rLock 11 0 ≠ 0 ∧ s.regField rLock 16 12 = n
  · rw [if_pos hc]
    refine ⟨rfl, (hsess n).trans (tget_tset_same ..), fun m hm => (hsess m).trans (tget_tset_other _ _ _ hm), ?_, fun off h4 h8 hlk =>
      (reg_setReg_other _ _ hlk).trans (sessionEnded_reg s n h4 h8), fun _ _ => ?_, fun hn => absurd hc.2.2 hn⟩
    · rw [regField_of_reg (reg_setReg_other _ _ (rLock_ne_rMbx n).2.symm)]; exact hflag
    · rw [State.regField, reg_setReg_same]; rfl
  · rw [if_neg hc]
    exact h0.resolve_right fun ⟨h1, h2, h3⟩ => hc ⟨h1, h3, h2⟩

theorem EndsSession.still {s t : State} {n : Nat} (h : EndsSession s t n) : Still s t := by
  rw [h.only]; exact ⟨⟨rfl, rfl, rfl, rfl⟩, rfl⟩

/-- The flags of a session outlast the end of a command. -/
theorem finish_flag (s : State) (c : Call) (st d : Nat) (a : List Nat) :
    (finish s c st d a).regField (rMbx c.mbx + 4) 3 2 = s.regField (rMbx c.mbx + 4) 3 2 := (finish_stat s c st d a).2.2.2

theorem mbxGo_closeSession {s : State} {n : Nat} {b : List Nat} (hn : n ≤ 16) (irq : Bool) (h : Served s n 0x04 b) :
    let t := mbxGo s n irq 0x04 b [] 0
    Still s t ∧ t.session n = none ∧ (∀ m, m ≠ n → t.session m = s.session m) ∧ t.regField (rMbx n + 4) 3 2 = 0 ∧ Answered t n mOK [] ∧
      ((s.session n).any (fun x => !x.bad) = true → s.regField rLock 16 12 = n → t.regField rLock 11 0 = 0) ∧
      (s.regField rLock 16 12 ≠ n → t.reg rLock = s.reg rLock) := by
  let c := goCall n 0x04 b irq [] 0
  let u := posted s c
  have hp : Posts s u n := posted_posts s c
  have he : EndsSession u (endSession u n) n := endSession_ends u n
  have hf : Posts (endSession u n) (finish (endSession u n) c mOK 0 []) n := finish_posts (endSession u n) c mOK 0 []
  have hr : runCmd u c = finish (endSession u n) c mOK 0 [] := rfl
  dsimp only
  rw [mbxGo_served h hn, hr]
  refine ⟨hp.still.trans (he.still.trans hf.still), (hf.session n).trans he.none, fun m hm => (hf.session m).trans ((he.other m hm).trans (hp.session m)),
    (finish_flag _ c _ _ _).trans he.flag, finish_good (endSession u n) c 0 (by decide) (Nat.zero_le _), fun ho hl => ?_, fun hl => ?_⟩
  · rw [regField_of_reg hf.rLock]
    exact he.freed (by rw [hp.session]; exact ho) (by rw [regField_of_reg hp.rLock]; exact hl)
  · rw [hf.rLock, he.kept (by rw [regField_of_reg hp.rLock]; exact hl), hp.rLock]

/-! ### OPEN_SESSION -/

theorem unusedFrom_lt (used : List Nat) (f : Nat) {v : Nat} (h : v < 2 ^ 32) : unusedFrom used f v < 2 ^ 32 := by
  induction f generalizing v with
  | zero => exact h
  | succ f ih =>
    rw [unusedFrom]
    split
    · exact ih (Nat.mod_lt _ (by decide))
    · exact h

theorem newNumber_lt (s : State) (used : List Nat) : (newNumber s used).1 < 2 ^ 32 := unusedFrom_lt _ _ (BitVec.isLt _)

theorem badBits_zeroAt {c : Call} {l : List Nat} (h : ∀ o ∈ l, c.req.getD o 0 = 0) : badBits c (zeroAt l) = none := by
  unfold badBits zeroAt
  rw [List.findSome?_eq_none_iff]
  intro p hp
  obtain ⟨o, ho, rfl⟩ := List.mem_map.1 hp
  rw [if_neg]
  dsimp only
  rw [h o ho]
  decide

theorem natLe_two (v : Nat) : natLe 2 v = [v % 256, v / 256 % 256] := rfl

theorem fieldLe_two {v : Nat} (h : v < 2 ^ 16) (l : List Nat) : fieldLe (natLe 2 v ++ l) 0 2 = v := by
  have ht : ((natLe 2 v ++ l).drop 0).take 2 = natLe 2 v := by rw [List.drop_zero, List.take_left' (natLe_length 2 v)]
  rw [fieldLe, ht, leNat_natLe (by omega)]

theorem mbxGo_openSession {s : State} {n : Nat} {b : List Nat} (hn : n ≤ 16) (irq : Bool) (h : Served s n 0x03 b) {v : Nat} (hv : v < 2 ^ 16)
    (hb : b = natLe 2 v ++ [0, 0]) :
    let t := mbxGo s n irq 0x03 b [] 0
    Still s t ∧ (∀ m, m ≠ n → t.session m = s.session m) ∧
      (v / 256 ≠ verOf n / 256 → t.session n = some ⟨0, 0, true⟩ ∧ t.regField (rMbx n + 4) 3 2 = 2 ∧
        Answered t n mVERSION_MISMATCH (natLe 4 (verOf n))) ∧
      (v / 256 = verOf n / 256 → let ver := 256 * (verOf n / 256) + min (v % 256) (verOf n % 256)
        ∃ id, id < 2 ^ 32 ∧ t.session n = some ⟨id, ver, false⟩ ∧ t.regField (rMbx n + 4) 3 2 = 1 ∧
          t.reg (rMbx n + 8) = BitVec.ofNat 32 (ver + 65536 * (id % 65536)) ∧ Answered t n mOK (natLe 2 ver ++ [0, 0] ++ natLe 4 id)) := by
  let c := goCall n 0x03 b irq [] 0
  let u := posted s c
  have hp : Posts s u n := posted_posts s c
  let e := endSession u n
  have he : EndsSession u e n := endSession_ends u n
  have hbad : badBits c (zeroAt [2, 3]) = none := badBits_zeroAt (by
    intro o ho
    have hreq : c.req = natLe 2 v ++ [0, 0] := hb
    rw [hreq, natLe_two]
    simp only [List.mem_cons, List.not_mem_nil, or_false] at ho
    rcases ho with rfl | rfl <;> rfl)
  have hfl : fieldLe c.req 0 2 = v := by
    have hreq : c.req = natLe 2 v ++ [0, 0] := hb
    rw [hreq]; exact fieldLe_two hv _
  have hset : ∀ x : Option Session, ∀ m, ({ e with fw := { e.fw with sess := tset none e.fw.sess n x } } : State).session m =
      if m = n then x else s.session m := fun x m => by
    show tget none (tset none e.fw.sess n x) m = _
    split
    · next hm => rw [hm]; exact tget_tset_same ..
    · next hm => rw [tget_tset_other _ _ _ hm]; exact (he.other m hm).trans (hp.session m)
  have hes := hp.still.trans he.still
  dsimp only
  rw [mbxGo_served h hn]
  by_cases hmaj : v / 256 = verOf n / 256
  · let used := e.fw.sess.filterMap (fun p => p.2.map (·.id))
    let ver := 256 * (verOf n / 256) + min (v % 256) (verOf n % 256)
    let id := (newNumber e used).1
    let w : State := { (newNumber e used).2 with fw := { e.fw with sess := tset none e.fw.sess n (some ⟨id, ver, false⟩) } }
    let x : State := (w.setField (rMbx n + 4) 3 2 1).setReg (rMbx n + 8) (BitVec.ofNat 32 (ver + 65536 * (id % 65536)))
    have hr : runCmd u c = finish x c mOK 0 (natLe 2 ver ++ [0, 0] ++ natLe 4 id) := by
      show cmdOpen u c = _
      unfold cmdOpen
      rw [hbad]
      show (if fieldLe c.req 0 2 / 256 ≠ verOf n / 256 then _ else _) = _
      rw [if_neg (by rw [hfl]; exact not_not_intro hmaj), hfl]
      rfl
    have hf : Posts x (finish x c mOK 0 (natLe 2 ver ++ [0, 0] ++ natLe 4 id)) n := finish_posts x c mOK 0 (natLe 2 ver ++ [0, 0] ++ natLe 4 id)
    have hx : Still e x := ⟨⟨rfl, rfl, rfl, rfl⟩, rfl⟩
    have hsx : ∀ m, x.session m = if m = n then some ⟨id, ver, false⟩ else s.session m := fun m => hset _ m
    rw [hr]
    refine ⟨hes.trans (hx.trans hf.still), fun m hm => (hf.session m).trans ((hsx m).trans (if_neg hm)), fun k => absurd hmaj k, fun _ =>
      ⟨id, newNumber_lt .., (hf.session n).trans ((hsx n).trans (if_pos rfl)), ?_, ?_, ?_⟩⟩
    · refine (finish_flag x c _ _ _).trans ((regField_of_reg (reg_setReg_other _ _ (rMbx_sess_ne n).1.symm) 3 2).trans ?_)
      exact regField_setField_le _ _ (by decide) (by decide) (by decide)
    · exact (hf.reg _ (rMbx_sess_ne n).2.1 (rMbx_sess_ne n).1).trans (reg_setReg_same ..)
    · exact finish_good x c 0 (by decide) (by simp [natLe_length])
  · let w : State := { e with fw := { e.fw with sess := tset none e.fw.sess n (some ⟨0, 0, true⟩) } }
    let x : State := w.setField (rMbx n + 4) 3 2 2
    have hr : runCmd u c = finish x c mVERSION_MISMATCH (verOf n) [] := by
      show cmdOpen u c = _
      unfold cmdOpen
      rw [hbad]
      show (if fieldLe c.req 0 2 / 256 ≠ verOf n / 256 then _ else _) = _
      rw [if_pos (by rw [hfl]; exact hmaj)]
      rfl
    have hf : Posts x (finish x c mVERSION_MISMATCH (verOf n) []) n := finish_posts x c mVERSION_MISMATCH (verOf n) []
    have hx : Still e x := ⟨⟨rfl, rfl, rfl, rfl⟩, rfl⟩
    have hsx : ∀ m, x.session m = if m = n then some ⟨0, 0, true⟩ else s.session m := fun m => hset _ m
    rw [hr]
    refine ⟨hes.trans (hx.trans hf.still), fun m hm => (hf.session m).trans ((hsx m).trans (if_neg hm)), fun _ =>
      ⟨(hf.session n).trans ((hsx n).trans (if_pos rfl)), ?_, ?_⟩, fun k => absurd k hmaj⟩
    · exact (finish_flag x c _ _ _).trans (regField_setField_le _ _ (by decide) (by decide) (by decide))
    · exact finish_bad x c (verOf n) [] (by decide) (.inl (by decide))

end Sys2Proof.Machine
end

section
namespace Sys2Proof.Machine

/-! ## JOB_STATUS (R390) -/

/-- What JOB_STATUS answers of a job. -/
def jobReport (j : Job) (progress : Nat) : List Nat :=
  natLe 4 j.id ++ [if j.ended.isSome then 1 else 0, j.status] ++ natLe 2 (if j.ended.isSome then 1000 else progress) ++
    natLe 4 j.detail ++ List.replicate 4 0 ++ j.answer

theorem jobReport_length (j : Job) (progress : Nat) : (jobReport j progress).length = 16 + j.answer.length := by
  simp only [jobReport, List.length_append, natLe_length, List.length_cons, List.length_nil, List.length_replicate]

theorem mbxGo_jobStatus {s : State} {n : Nat} {b : List Nat} (hn : n ≤ 16) (irq : Bool) (h : Served s n 0x05 b) (progress : Nat) {j : Job}
    (hj : s.job (fieldLe b 0 4) = some j) (hm : j.mbx = n ∨ n = 16) (ha : j.answer.length ≤ 4080) :
    let t := mbxGo s n irq 0x05 b [] progress
    Still s t ∧ Answered t n mOK (jobReport j progress) ∧
      t.fw.jobs = if j.ended.isSome then s.fw.jobs.filter (fun x => x.id != j.id) else s.fw.jobs := by
  let c := goCall n 0x05 b irq [] progress
  let u := posted s c
  have hp : Posts s u n := posted_posts s c
  have hju : (u.job (fieldLe c.req 0 4)).filter (fun j => j.mbx == c.mbx || c.mbx == 16) = some j := by
    have hjob : u.job (fieldLe b 0 4) = some j := by rw [State.job, hp.jobs]; exact hj
    show (u.job (fieldLe b 0 4)).filter (fun j => j.mbx == n || n == 16) = some j
    rw [hjob, Option.filter_some, if_pos (by rcases hm with h | h <;> simp [h])]
  let w : State := if j.ended.isSome then { u with fw := { u.fw with jobs := u.fw.jobs.filter (fun x => x.id != j.id) } } else u
  have hw : Still u w := by
    show Still u (if j.ended.isSome then { u with fw := { u.fw with jobs := u.fw.jobs.filter (fun x => x.id != j.id) } } else u)
    split
    · exact ⟨⟨rfl, rfl, rfl, rfl⟩, rfl⟩
    · exact .rfl
  have hjobs : w.fw.jobs = if j.ended.isSome then s.fw.jobs.filter (fun x => x.id != j.id) else s.fw.jobs := by
    show (if j.ended.isSome then { u with fw := { u.fw with jobs := u.fw.jobs.filter (fun x => x.id != j.id) } } else u).fw.jobs = _
    rw [← hp.jobs]
    split <;> rfl
  have hr : runCmd u c = finish w c mOK 0 (jobReport j progress) := by
    show cmdJobStatus u c = _
    unfold cmdJobStatus
    rw [hju]
    rfl
  have hf : Posts w (finish w c mOK 0 (jobReport j progress)) n := finish_posts w c mOK 0 (jobReport j progress)
  dsimp only
  rw [mbxGo_served h hn, hr]
  exact ⟨hp.still.trans (hw.trans hf.still), finish_good w c 0 (by decide) (by rw [jobReport_length]; omega), hf.jobs.trans hjobs⟩

/-! ## LOCK and UNLOCK (R395) -/

/-- The lock register of a mask and its owner. -/
def mbxLockWord (m n : Nat) : Nat := if m = 0 then 0 else m + 4096 * n

theorem mbxLockWord_lt {m n : Nat} (hm : m < 4096) (hn : n ≤ 16) : mbxLockWord m n < 2 ^ 32 := by unfold mbxLockWord; split <;> omega

theorem mbxLockWord_mask {m n : Nat} (hm : m < 4096) : nbits (mbxLockWord m n) 11 0 = m := by
  simp only [nbits, Nat.shiftRight_eq_div_pow, mbxLockWord]; split <;> omega

theorem mbxLockWord_owner {m n : Nat} (hm : m < 4096) (hn : n ≤ 16) (h0 : m ≠ 0) : nbits (mbxLockWord m n) 16 12 = n := by
  simp only [nbits, Nat.shiftRight_eq_div_pow, mbxLockWord]; rw [if_neg h0]; omega

theorem fieldLe_mask {m : Nat} (hm : m < 4096) : fieldLe (natLe 4 m) 0 2 = m := by
  have ht : ((natLe 4 m).drop 0).take 2 = natLe 2 m := rfl
  rw [fieldLe, ht, leNat_natLe (by omega)]

theorem badBits_mask {c : Call} {m : Nat} (hm : m < 4096) (h : c.req = natLe 4 m) : badBits c [(1, 0x0F), (2, 0), (3, 0)] = none := by
  have hreq : natLe 4 m = [m % 256, m / 256 % 256, m / 256 / 256 % 256, m / 256 / 256 / 256 % 256] := rfl
  have h1 : ∀ x, x < 16 → nbits x 7 0 &&& (255 - 0x0F) = 0 := by decide
  have h2 : m / 256 % 256 < 16 := by omega
  have h3 : m / 256 / 256 % 256 = 0 := by omega
  have h4 : m / 256 / 256 / 256 % 256 = 0 := by omega
  unfold badBits
  rw [h, hreq, List.findSome?_eq_none_iff]
  intro p hp
  simp only [List.mem_cons, List.not_mem_nil, or_false] at hp
  rcases hp with rfl | rfl | rfl
  · exact if_neg (not_not_intro (h1 _ h2))
  · refine if_neg (not_not_intro ?_)
    show nbits (m / 256 / 256 % 256) 7 0 &&& (255 - 0) = 0
    rw [h3]; rfl
  · refine if_neg (not_not_intro ?_)
    show nbits (m / 256 / 256 / 256 % 256) 7 0 &&& (255 - 0) = 0
    rw [h4]; rfl

/-- What a command on the locks leaves: the mask of the owner, or LOCKED for another session. -/
structure Locks (s t : State) (n m : Nat) : Prop where
  still : Still s t
  own : ownsLocks s n = true → t.regField rLock 11 0 = m ∧ (m ≠ 0 → t.regField rLock 16 12 = n) ∧ Answered t n mOK []
  other : ownsLocks s n = false → t.reg rLock = s.reg rLock ∧ Answered t n mLOCKED (natLe 4 0)

/-- A command that sets the locks to a mask where its session owns them. -/
theorem lockCmd_locks {s : State} {c : Call} {m : Nat} (hn : c.mbx ≤ 16) (hm : m < 4096) :
    Locks s (if !ownsLocks s c.mbx then finish s c mLOCKED 0 [] else finish (s.setReg rLock (BitVec.ofNat 32 (mbxLockWord m c.mbx))) c mOK 0 []) c.mbx m := by
  cases ho : ownsLocks s c.mbx with
  | false =>
    rw [if_pos (by decide)]
    have hf := finish_posts s c mLOCKED 0 []
    exact ⟨hf.still, fun h => absurd (ho.symm.trans h) nofun, fun _ => ⟨hf.rLock, finish_bad s c 0 [] (by decide) (.inl (by decide))⟩⟩
  | true =>
    rw [if_neg (by decide)]
    let w := s.setReg rLock (BitVec.ofNat 32 (mbxLockWord m c.mbx))
    have hf : Posts w (finish w c mOK 0 []) c.mbx := finish_posts w c mOK 0 []
    have hw : Still s w := (setReg_logsOnly ..).still
    have hfield : ∀ hi lo, w.regField rLock hi lo = nbits (mbxLockWord m c.mbx) hi lo := fun hi lo =>
      regField_setReg_same s rLock (mbxLockWord_lt hm hn) hi lo
    refine ⟨hw.trans hf.still, fun _ => ⟨?_, fun h0 => ?_, finish_good w c 0 (by decide) (Nat.zero_le _)⟩, fun h => absurd (ho.symm.trans h) nofun⟩
    · rw [regField_of_reg hf.rLock, hfield, mbxLockWord_mask hm]
    · rw [regField_of_reg hf.rLock, hfield, mbxLockWord_owner hm hn h0]

theorem Locks.of_posts {s u t : State} {n m : Nat} (hp : Posts s u n) (h : Locks u t n m) : Locks s t n m where
  still := hp.still.trans h.still
  own ho := h.own ((hp.ownsLocks n).trans ho)
  other ho := ⟨(h.other ((hp.ownsLocks n).trans ho)).1.trans hp.rLock, (h.other ((hp.ownsLocks n).trans ho)).2⟩

section
variable {s : State} {n : Nat} {b : List Nat} (hn : n ≤ 16) (irq : Bool) {m : Nat} (hm : m < 4096) (hb : b = natLe 4 m)
include hn hm hb

theorem mbxGo_lock (h : Served s n 0x06 b) : Locks s (mbxGo s n irq 0x06 b [] 0) n (s.regField rLock 11 0 ||| m) := by
  let c := goCall n 0x06 b irq [] 0
  have hp : Posts s (posted s c) n := posted_posts s c
  have hold : (posted s c).regField rLock 11 0 = s.regField rLock 11 0 := regField_of_reg hp.rLock 11 0
  have hlt : s.regField rLock 11 0 ||| m < 4096 := Nat.or_lt_two_pow (n := 12) (regField_lt s rLock 11 0) hm
  have hr : runCmd (posted s c) c = if !ownsLocks (posted s c) n then finish (posted s c) c mLOCKED 0 []
      else finish ((posted s c).setReg rLock (BitVec.ofNat 32 (mbxLockWord (s.regField rLock 11 0 ||| m) n))) c mOK 0 [] := by
    show cmdLock (posted s c) c = _
    have hf : fieldLe c.req 0 2 = m := by
      show fieldLe b 0 2 = m
      rw [hb]; exact fieldLe_mask hm
    unfold cmdLock
    rw [badBits_mask hm (show c.req = natLe 4 m from hb), argCheck]
    dsimp only
    rw [hf, hold]
    rfl
  rw [mbxGo_served h hn, hr]
  exact (lockCmd_locks (c := c) hn hlt).of_posts hp

theorem mbxGo_unlock (h : Served s n 0x07 b) : Locks s (mbxGo s n irq 0x07 b [] 0) n (s.regField rLock 11 0 &&& (4095 - m)) := by
  let c := goCall n 0x07 b irq [] 0
  have hp : Posts s (posted s c) n := posted_posts s c
  have hold : (posted s c).regField rLock 11 0 = s.regField rLock 11 0 := regField_of_reg hp.rLock 11 0
  have hlt : s.regField rLock 11 0 &&& (4095 - m) < 4096 := Nat.lt_of_le_of_lt Nat.and_le_left (regField_lt s rLock 11 0)
  have hr : runCmd (posted s c) c = if !ownsLocks (posted s c) n then finish (posted s c) c mLOCKED 0 []
      else finish ((posted s c).setReg rLock (BitVec.ofNat 32 (mbxLockWord (s.regField rLock 11 0 &&& (4095 - m)) n))) c mOK 0 [] := by
    show cmdUnlock (posted s c) c = _
    have hf : fieldLe c.req 0 2 = m := by
      show fieldLe b 0 2 = m
      rw [hb]; exact fieldLe_mask hm
    unfold cmdUnlock
    rw [badBits_mask hm (show c.req = natLe 4 m from hb), argCheck]
    dsimp only
    rw [hf, hold]
    rfl
  rw [mbxGo_served h hn, hr]
  exact (lockCmd_locks (c := c) hn hlt).of_posts hp

end

/-- Settles O43: a failed check answers its status, and each of the seven common commands ends with STATUS OK and its answer. -/
theorem mailboxesAnswer : Obligations.MailboxesAnswer := by
  unfold Obligations.MailboxesAnswer
  intro s n irq req
  have hn : n.val ≤ 16 := Nat.le_of_lt_succ n.isLt
  refine ⟨fun p hp st d hfree hfault => ⟨_, mailboxCommands_go s n irq req p hp, mbxGo_fault hfree hn irq [] 0 hfault⟩,
    fun h => ⟨_, rfl, mbxGo_identify hn irq h⟩, fun h => ⟨_, rfl, mbxGo_getVersion hn irq h⟩,
    fun h v hv hb => ⟨_, rfl, mbxGo_openSession hn irq h hv hb⟩, fun h => ⟨_, rfl, mbxGo_closeSession hn irq h⟩,
    fun h pr j hj hm ha => ⟨_, rfl, mbxGo_jobStatus hn irq h pr hj hm ha⟩,
    fun m hm hb => ⟨fun h => ⟨_, rfl, ?_⟩, fun h => ⟨_, rfl, ?_⟩⟩⟩
  · have hl := mbxGo_lock hn irq hm hb h
    exact ⟨hl.still, hl.own, hl.other⟩
  · have hl := mbxGo_unlock hn irq hm hb h
    exact ⟨hl.still, fun ho => ⟨(hl.own ho).1, (hl.own ho).2.2⟩, hl.other⟩

end Sys2Proof.Machine
end

section
namespace Sys2Proof.Machine

/-! ## Messages that arrive (R475, R480, R485, R487) -/

/-- The commands of messages, by type. -/
noncomputable def messageCommands (link : Fin 8) (m : LMsg) (fl : Fin 8) : List (Instr × Nat) :=
  [(.rd link m fl [], tRD), (.wr link m fl, tWR), (.atom link m fl [], tATOM),
    (.lupinLock link m fl [], tLOCK), (.lupinPin link m fl, tPIN), (.red link m fl, tRED), (.rdresp link m fl, tRDRESP),
    (.ack link m fl, tACK), (.atomresp link m fl, tATOMRESP), (.nack link m fl, tNACK), (.lupinDoorbell link m fl, tDOORBELL),
    (.hostrd link m fl [], tHOSTRD), (.hostwr link m fl, tHOSTWR), (.lupinMsix link m fl, tMSIX), (.mgmt link m fl, tMGMT),
    (.mgmtresp link m fl, tMGMTRESP)]

theorem messageCommands_arrive (s : State) (link : Fin 8) (m : LMsg) (fl : Fin 8) :
    ∀ p ∈ messageCommands link m fl, ∃ f, exec p.1 s = arriveMsg link m p.2 fl s f := by
  intro p hp
  simp only [messageCommands, List.mem_cons, List.not_mem_nil, or_false] at hp
  rcases hp with rfl | rfl | rfl | rfl | rfl | rfl | rfl | rfl | rfl | rfl | rfl | rfl | rfl | rfl | rfl | rfl
  · exact ⟨_, (rfl : execRd link m fl [] s = arriveMsg link m tRD fl s _)⟩
  · exact ⟨_, (rfl : execWr link m fl s = arriveMsg link m tWR fl s _)⟩
  · exact ⟨_, (rfl : execAtom link m fl [] s = arriveMsg link m tATOM fl s _)⟩
  · exact ⟨_, (rfl : execLupinLock link m fl [] s = arriveMsg link m tLOCK fl s _)⟩
  · exact ⟨_, (rfl : execLupinPin link m fl s = arriveMsg link m tPIN fl s _)⟩
  · exact ⟨_, (rfl : execRed link m fl s = arriveMsg link m tRED fl s _)⟩
  · exact ⟨_, (rfl : execRdresp link m fl s = arriveMsg link m tRDRESP fl s _)⟩
  · exact ⟨_, (rfl : execAck link m fl s = arriveMsg link m tACK fl s _)⟩
  · exact ⟨_, (rfl : execAtomresp link m fl s = arriveMsg link m tATOMRESP fl s _)⟩
  · exact ⟨_, (rfl : execNack link m fl s = arriveMsg link m tNACK fl s _)⟩
  · exact ⟨_, (rfl : execLupinDoorbell link m fl s = arriveMsg link m tDOORBELL fl s _)⟩
  · exact ⟨_, (rfl : execHostrd link m fl [] s = arriveMsg link m tHOSTRD fl s _)⟩
  · exact ⟨_, (rfl : execHostwr link m fl s = arriveMsg link m tHOSTWR fl s _)⟩
  · exact ⟨_, (rfl : execLupinMsix link m fl s = arriveMsg link m tMSIX fl s _)⟩
  · exact ⟨_, (rfl : execMgmt link m fl s = arriveMsg link m tMGMT fl s _)⟩
  · exact ⟨_, (rfl : execMgmtresp link m fl s = arriveMsg link m tMGMTRESP fl s _)⟩

section
variable {s : State} {link : Fin 8} {m : LMsg} {typ : Nat} {fl : Fin 8} (ht : m.typ = typ) (f : State → Nat → State)
include ht

theorem arriveMsg_dead (h : linkLive s (link.val + 1) = false) : arriveMsg link m typ fl s f = .next s := by
  unfold arriveMsg
  rw [if_neg (not_not_intro ht)]
  refine congrArg Host.Outcome.next (if_pos fun k => ?_)
  have hl := linkLive_iff.2 (k.imp id (·.1))
  rw [h] at hl
  exact absurd hl nofun

variable (h2 : linkState s (link.val + 1) = 2)
include h2

theorem arriveMsg_bad {r : Nat} (hr : rxReason s m fl = some r) : arriveMsg link m typ fl s f = .next (dropMalformed s (link.val + 1) m r) := by
  unfold arriveMsg
  rw [if_neg (not_not_intro ht)]
  dsimp only
  rw [if_neg (not_not_intro (.inl h2)), hr]

theorem arriveMsg_good (hr : rxReason s m fl = none) : arriveMsg link m typ fl s f = .next
    (if m.dst ≠ s.modId then sendOn s (nextHop s m).1 { m with ttl := m.ttl - 1, epoch := (nextHop s m).2 }
     else if msgClass typ = some 0 then f s (link.val + 1)
     else if (tget [] s.lup.seen m.src).contains m.tag then s else f (recordTag s m) (link.val + 1)) := by
  unfold arriveMsg
  rw [if_neg (not_not_intro ht)]
  dsimp only
  rw [if_neg (not_not_intro (.inl h2)), hr]

end

/-- The FramesAndManagementAreTaken clauses of what every type of message meets. -/
theorem messages_checked (s : State) (link : Fin 8) (m : LMsg) (fl : Fin 8) (p : Instr × Nat) (hp : p ∈ messageCommands link m fl) (ht : m.typ = p.2) :
    let l := link.val + 1
    let k := s.link l
    (linkLive s l = false → exec p.1 s = .next s) ∧
    (linkState s l = 2 →
      (∀ r, rxReason s m fl = some r → ∃ t, exec p.1 s = .next t ∧ Still s t ∧
        t.regField (rLerr l) 31 16 = min 65535 (s.regField (rLerr l) 31 16 + 1) ∧
        (k.malMs.sec ≠ s.clk.tick / ticksPerMs ∨ k.malMs.cnt < 16 → m.typ ≠ tNACK → Sent t (nackTo s m r)) ∧
        (k.malMs.sec = s.clk.tick / ticksPerMs → 16 ≤ k.malMs.cnt → linkState t l = 3)) ∧
      (rxReason s m fl = none → m.dst ≠ s.modId → ∃ t, exec p.1 s = .next t ∧ Still s t ∧
        let m' := { m with ttl := m.ttl - 1, epoch := (nextHop s m).2 }
        m' ∈ (t.link (nextHop s m).1).txq ∨ ∃ q, (q, m') ∈ (t.link (nextHop s m).1).retry) ∧
      (rxReason s m fl = none → m.dst = s.modId → msgClass m.typ ≠ some 0 → (tget [] s.lup.seen m.src).contains m.tag = true →
        exec p.1 s = .next s)) := by
  intro l k
  have hl : l ≤ 8 := link.isLt
  obtain ⟨f, hf⟩ := messageCommands_arrive s link m fl p hp
  rw [hf]
  refine ⟨arriveMsg_dead ht f, fun h2 => ⟨fun r hr => ⟨_, arriveMsg_bad ht f h2 hr, dropMalformed_spec hl h2 m r⟩, fun hr hd => ?_,
    fun hr hd hc hs => ?_⟩⟩
  · refine ⟨_, (arriveMsg_good ht f h2 hr).trans (congrArg _ (if_pos hd)), (sendOn_linksOnly ..).still, ?_⟩
    exact sendOn_held s (nextHop s m).1 { m with ttl := m.ttl - 1, epoch := (nextHop s m).2 }
  · rw [arriveMsg_good ht f h2 hr, if_neg (not_not_intro hd), if_neg (by rw [← ht]; exact hc), if_pos hs]

/-- What only the lead serves or sends is refused elsewhere, and what no address of the module serves (R480). -/
theorem rxReason_refused {s : State} {m : LMsg} (hd : m.dst = s.modId) :
    ((leadOnly m = true ∧ isLead s = false) ∨ (fromLead m = true ∧ m.src ≠ 0) → rxReason s m 0 = some 1) ∧
    (leadOnly m = false → fromLead m = false → shapeOk m = true → hasAddr m.typ = true → offMap s m = true → rxReason s m 0 = some 4) := by
  refine ⟨fun h => if_pos (.inr ⟨hd, h.imp (fun ⟨h1, h2⟩ => ⟨h1, by rw [h2]; decide⟩) id⟩), fun h1 h2 h3 _ h5 => ?_⟩
  unfold rxReason
  rw [if_neg (by simp [h1, h2]), if_neg (by simp [h3]), if_neg (by simp [hd]), if_pos (.inr (.inr ⟨hd, h5⟩))]

section
variable {s : State} {link : Fin 8} {m : LMsg} {typ : Nat} (f : State → Nat → State)

theorem Arrives.request (h : Arrives s link m typ) (hc : msgClass typ ≠ some 0) :
    arriveMsg link m typ 0 s f = .next (f (recordTag s m) (link.val + 1)) := by
  obtain ⟨ht, h2, hr, hd, hs⟩ := h
  have hs := hs.resolve_left hc
  rw [arriveMsg_good ht f h2 hr, if_neg (not_not_intro hd), if_neg hc, if_neg (by rw [hs]; decide)]

theorem Arrives.posted (h : Arrives s link m typ) (hc : msgClass typ = some 0) : arriveMsg link m typ 0 s f = .next (f s (link.val + 1)) := by
  obtain ⟨ht, h2, hr, hd, -⟩ := h
  exact arriveMsg_answer ht h2 hr hd hc f
end

theorem recordTag_eq (s : State) (m : LMsg) : ∃ x, recordTag s m = { s with lup := { s.lup with seen := x } } := ⟨_, rfl⟩

theorem recordTag_still (s : State) (m : LMsg) : Still s (recordTag s m) := by
  obtain ⟨x, hx⟩ := recordTag_eq s m
  rw [hx]; exact ⟨⟨rfl, rfl, rfl, rfl⟩, rfl⟩

theorem recordTag_answers (s : State) (m : LMsg) : (recordTag s m).modId = s.modId ∧ (recordTag s m).lup.epoch = s.lup.epoch := by
  obtain ⟨x, hx⟩ := recordTag_eq s m
  rw [hx]; exact ⟨rfl, rfl⟩

/-! ## Doorbells, host memory and interrupts of members (R490) -/

theorem reply_eq (s : State) (m : LMsg) (typ status : Nat) (pay : LPay) : reply s m typ status pay = sendMsg s (answerTo s m typ status pay) := rfl

theorem reply_linksOnly (s : State) (m : LMsg) (typ status : Nat) (pay : LPay) : LinksOnly s (reply s m typ status pay) := sendMsg_linksOnly ..

theorem reply_sent (s : State) (m : LMsg) (typ status : Nat) (pay : LPay) : Sent (reply s m typ status pay) (answerTo s m typ status pay) :=
  sendMsg_sent s (answerTo s m typ status pay)

theorem answerTo_of {s t : State} (hid : t.modId = s.modId) (hep : t.lup.epoch = s.lup.epoch) (m : LMsg) (typ status : Nat) (pay : LPay) :
    answerTo t m typ status pay = answerTo s m typ status pay := by
  rw [answerTo, newMsg, hid, hep]; rfl

/-- The FramesAndManagementAreTaken clause of LUPIN_DOORBELL. -/
theorem lupinDoorbell_rings {s : State} {link : Fin 8} {m : LMsg} {w : Nat} (h : Arrives s link m tDOORBELL) (hp : m.pay = .word w) (head : Bool)
    (ha : addrLow m.addr = 0x00100000 + (if head then 8 else 0)) :
    let u := if head then ringCq (recordTag s m) w else ringSq (recordTag s m) w
    ∃ t, exec (.lupinDoorbell link m 0) s = .next t ∧ t.adm = u.adm ∧ t.mem = u.mem ∧ t.tasks = u.tasks ∧ Sent t (answerTo u m tACK 0 .none) := by
  intro u
  have he : exec (.lupinDoorbell link m 0) s = .next (reply u m tACK 0 .none) := by
    refine (h.request (fun s _ => reply (if addrLow m.addr = 0x00100008 then ringCq s (match m.pay with | .word w => w | _ => 0)
      else ringSq s (match m.pay with | .word w => w | _ => 0)) m tACK 0 .none) (by decide)).trans ?_
    rw [ha, hp]
    cases head <;> rfl
  have hl := reply_linksOnly u m tACK 0 .none
  exact ⟨_, he, hl.adm, hl.mem, hl.tasks, reply_sent u m tACK 0 .none⟩

/-- The FramesAndManagementAreTaken clause of HOSTRD. -/
theorem hostrd_reads {s : State} {link : Fin 8} {m : LMsg} (data : List Byte) (h : Arrives s link m tHOSTRD) :
    ∃ t, exec (.hostrd link m 0 data) s = .next t ∧ Still s t ∧
      Out.hostRead m.addr (2 ^ m.size) ∈ t.out ∧ Sent t (if data.length = 2 ^ m.size then answerTo s m tRDRESP 0 (.data (reqBytes data))
        else answerTo s m tRDRESP 1 (.data (List.replicate (2 ^ m.size) 0))) := by
  let u := (recordTag s m).emit (.hostRead m.addr (2 ^ m.size))
  have hu : Still s u := (recordTag_still s m).trans (emit_linksOnly ..).still
  have he : exec (.hostrd link m 0 data) s = .next (if data.length = 2 ^ m.size then reply u m tRDRESP 0 (.data (reqBytes data))
      else reply u m tRDRESP 1 (.data (List.replicate (2 ^ m.size) 0))) :=
    h.request (fun s _ => let s := s.emit (.hostRead m.addr (2 ^ m.size))
      if data.length = 2 ^ m.size then reply s m tRDRESP 0 (.data (data.map (·.toNat)))
      else reply s m tRDRESP 1 (.data (List.replicate (2 ^ m.size) 0))) (by decide)
  have hout : ∀ st pay, Out.hostRead m.addr (2 ^ m.size) ∈ (reply u m tRDRESP st pay).out := fun st pay => by
    obtain ⟨more, hm⟩ := sendMsg_out u (answerTo u m tRDRESP st pay)
    have huo : u.out = (recordTag s m).out ++ [.hostRead m.addr (2 ^ m.size)] := rfl
    rw [reply_eq, hm, huo]
    simp only [List.mem_append, List.mem_singleton, or_true, true_or]
  have hans : ∀ st pay, answerTo u m tRDRESP st pay = answerTo s m tRDRESP st pay := fun st pay =>
    answerTo_of (s := s) (t := u) ((emit_linksOnly ..).modId.trans (recordTag_answers s m).1)
      ((emit_linksOnly ..).epoch.trans (recordTag_answers s m).2) m tRDRESP st pay
  refine ⟨_, he, ?_⟩
  split
  · exact ⟨hu.trans (reply_linksOnly ..).still, hout _ _, by rw [← hans]; exact reply_sent u m tRDRESP 0 (.data (reqBytes data))⟩
  · exact ⟨hu.trans (reply_linksOnly ..).still, hout _ _, by rw [← hans]; exact reply_sent u m tRDRESP 1 (.data (List.replicate (2 ^ m.size) 0))⟩

theorem hostwr_writes {s : State} {link : Fin 8} {m : LMsg} {b : List Nat} (h : Arrives s link m tHOSTWR) (hp : m.pay = .data b) :
    exec (.hostwr link m 0) s = .next { s with out := s.out ++ [.hostWrite m.addr b] } := by
  refine (h.posted (fun s _ => match m.pay with | .data b => s.emit (.hostWrite m.addr b) | _ => s) rfl).trans ?_
  rw [hp]
  rfl

/-- The FramesAndManagementAreTaken clause of LUPIN_MSIX. -/
theorem lupinMsix_sends {s : State} {link : Fin 8} {m : LMsg} {v : Nat} (h : Arrives s link m tMSIX) (hp : m.pay = .word v) (hv : v < 4 ∨ 16 ≤ v) :
    ∃ t, exec (.lupinMsix link m 0) s = .next t ∧ t = { s with out := t.out, msix := t.msix } ∧
      (s.msix.enable = true → s.msix.fmask = false → v ∈ s.msix.open_ → t.out = s.out ++ [.msix v]) ∧
      (s.msix.enable = false ∨ s.msix.fmask = true ∨ v ∉ s.msix.open_ → t.msix.pba.contains v = true) := by
  have he : exec (.lupinMsix link m 0) s = .next (if s.msix.enable ∧ ¬ s.msix.fmask ∧ s.msix.open_.contains v then s.emit (.msix v)
      else { s with msix := { s.msix with pba := insNat v s.msix.pba } }) := by
    refine (h.posted (fun s _ => match m.pay with | .word v => sendMsix s v | _ => s) rfl).trans ?_
    rw [hp]
    exact congrArg Host.Outcome.next (if_neg (by omega))
  refine ⟨_, he, ?_⟩
  split
  · next hon =>
    refine ⟨rfl, fun _ _ _ => rfl, fun hoff => ?_⟩
    obtain ⟨h1, h2, h3⟩ := hon
    rcases hoff with hoff | hoff | hoff
    · exact absurd (hoff.symm.trans h1) nofun
    · exact absurd hoff h2
    · exact absurd (List.contains_iff_mem.1 h3) hoff
  · next hoff =>
    refine ⟨rfl, fun h1 h2 h3 => absurd ⟨h1, by rw [h2]; decide, List.contains_iff_mem.2 h3⟩ hoff, fun _ => ?_⟩
    exact List.contains_iff_mem.2 ((mem_insNat ..).2 (.inl rfl))

end Sys2Proof.Machine
end

section
namespace Sys2Proof.Machine

/-! ## Registers that a management message reads and writes (R491) -/

/-- The state with another record of the links. -/
def withLup (s : State) (L : Lup) : State := { s with lup := L }

/-- An operation that neither reads nor writes the record of the links. -/
def LupBlind (f : State → State) : Prop := ∀ s L, f (withLup s L) = withLup (f s) L

theorem setField_withLup (s : State) (L : Lup) (o hi lo v : Nat) : (withLup s L).setField o hi lo v = withLup (s.setField o hi lo v) L := rfl

theorem LupBlind.comp {f g : State → State} (hg : LupBlind g) (hf : LupBlind f) : LupBlind (fun s => g (f s)) :=
  fun s L => (congrArg g (hf s L)).trans (hg (f s) L)

theorem LupBlind.ite {c : State → Prop} [∀ s, Decidable (c s)] {f g : State → State} (hc : ∀ s L, c (withLup s L) = c s) (hf : LupBlind f)
    (hg : LupBlind g) : LupBlind (fun s => if c s then f s else g s) := fun s L => by
  have h : c (withLup s L) ↔ c s := by rw [hc]
  by_cases k : c s
  · simp only [if_pos k, if_pos (h.2 k)]; exact hf s L
  · simp only [if_neg k, if_neg fun x => k (h.1 x)]; exact hg s L

theorem LupBlind.foldl {α : Type} {f : State → α → State} (hf : ∀ a, LupBlind (fun s => f s a)) (l : List α) : LupBlind (fun s => l.foldl f s) := by
  induction l with
  | nil => exact fun _ _ => rfl
  | cons a l ih => exact ih.comp (hf a)

theorem sendMsix_withLup (s : State) (L : Lup) (v : Nat) : sendMsix (withLup s L) v = withLup (sendMsix s v) L := by
  have h1 : (withLup s L).msix = s.msix := rfl
  unfold sendMsix
  rw [h1]
  split
  · rfl
  · split <;> rfl

theorem rasLog_blind (e : LogEv) : LupBlind (fun s => rasLog s e) := fun s L => by
  have h1 : (withLup s L).ras = s.ras := rfl
  have h2 : ∀ o a b, (withLup s L).regField o a b = s.regField o a b := fun _ _ _ => rfl
  have h3 : flashOpen (withLup s L) = flashOpen s := rfl
  have h4 : (withLup s L).clk = s.clk := rfl
  show rasLog (withLup s L) e = withLup (rasLog s e) L
  unfold rasLog rasLogT
  rw [h1, h2, h3, h4]
  dsimp only
  generalize decide (tget [] s.ras.ring (s.regField rLogHead 11 0) ≠ []) = full
  cases full <;> split
  · rw [← sendMsix_withLup]; rfl
  · rfl
  · rw [← sendMsix_withLup]; rfl
  · rfl

/-- The points of the profile, from a tick on. -/
def profilePoints (b : Nat) (s : State) : State :=
  (List.range 16).foldl (fun s i => s.setField (oProf i) 11 0 (committedFloor s (fun c => commitAt s c (b + i * horizon s / 16)))) s

/-- The profile's base. -/
def profileBase (b : Nat) (s : State) : State := { s with pwr := { s.pwr with profAt := b } }

theorem refreshProfile_eq (s : State) : refreshProfile s =
    profileBase s.clk.tick (profilePoints s.clk.tick (s.setField oPwrCf 11 0 (committedFloor s (commitOf s)))) := rfl

theorem profilePoints_blind (b : Nat) : LupBlind (profilePoints b) :=
  LupBlind.foldl (f := fun s i => s.setField (oProf i) 11 0 (committedFloor s (fun c => commitAt s c (b + i * horizon s / 16))))
    (fun _ _ _ => rfl) _

theorem profileBase_blind (b : Nat) : LupBlind (profileBase b) := fun _ _ => rfl

theorem refreshProfile_blind : LupBlind refreshProfile := fun s L => by
  have hc : (withLup s L).clk = s.clk := rfl
  have hf : committedFloor (withLup s L) (commitOf (withLup s L)) = committedFloor s (commitOf s) := rfl
  rw [refreshProfile_eq, refreshProfile_eq, hc, hf, setField_withLup, profilePoints_blind, profileBase_blind]

theorem refreshCeiling_blind : LupBlind refreshCeiling := fun s L => by
  have h1 : staticCeiling (withLup s L) = staticCeiling s := rfl
  have h2 : ∀ o a b, (withLup s L).regField o a b = s.regField o a b := fun _ _ _ => rfl
  have h3 : (withLup s L).clk = s.clk := rfl
  unfold refreshCeiling
  rw [h1, h2, h3]
  dsimp only
  split <;> split <;> rfl

theorem pwrEvent_blind (n : Nat) : LupBlind (fun s => pwrEvent s n) := fun s L => by
  have hb : ∀ (u : State) o i, (withLup u L).regBit o i = u.regBit o i := fun _ _ _ => rfl
  show pwrEvent (withLup s L) n = withLup (pwrEvent s n) L
  unfold pwrEvent
  rw [setField_withLup]
  dsimp only
  rw [hb]
  split
  · exact sendMsix_withLup _ L 2
  · rfl

theorem curtailCheck_blind : LupBlind curtailCheck := by
  intro s L
  have hb : ∀ o i, (withLup s L).regBit o i = s.regBit o i := fun _ _ => rfl
  have hf : ∀ o a b, (withLup s L).regField o a b = s.regField o a b := fun _ _ _ => rfl
  have hc : curtailLevel (withLup s L) = curtailLevel s := rfl
  unfold curtailCheck
  rw [setField_withLup, hb, hb, hf, hc]
  split
  · exact pwrEvent_blind 2 (s.setField oPwrLim 26 26 1) L
  · rfl

theorem afterWrite_blind (off : Nat) : LupBlind (fun s => afterWrite s off) := by
  unfold afterWrite
  refine .ite (fun _ _ => rfl) refreshProfile_blind (.ite (fun _ _ => rfl) (curtailCheck_blind.comp refreshCeiling_blind)
    (.ite (fun _ _ => rfl) (fun _ _ => rfl) (.ite (fun _ _ => rfl) (fun _ _ => rfl) (fun _ _ => rfl))))

theorem plainWrite_blind (iface off v : Nat) : LupBlind (fun s => plainWrite s iface off v) := by
  unfold plainWrite
  cases regAt off with
  | none => exact fun _ _ => rfl
  | some p =>
    obtain ⟨r, i⟩ := p
    exact .ite (fun _ _ => rfl) ((rasLog_blind _).comp fun _ _ => rfl) (fun _ _ => rfl)

theorem regWrite_plain_blind {off : Nat} (h : PlainReg off) (iface v : Nat) : LupBlind (fun s => regWrite s iface off v) := by
  intro s L
  simp only [regWrite_plain iface v h]
  unfold checkedWrite
  split
  · exact (afterWrite_blind off).comp (plainWrite_blind iface off v) s L
  · exact rasLog_blind _ s L

/-- Reads of BAR0 see the routes of the links, and nothing else of their record. -/
theorem bar0Word_withLup {s : State} {L : Lup} (h : ∀ d, routeTo (withLup s L) d = routeTo s d) (i off : Nat) :
    bar0Word (withLup s L) i off = bar0Word s i off := by
  have h0 : viewWord (withLup s L) off = viewWord s off := by
    have k1 : ∀ a b c, (withLup s L).regField a b c = s.regField a b c := fun _ _ _ => rfl
    have k2 : bstat (withLup s L) = bstat s ∧ gstat (withLup s L) = gstat s ∧ mondat (withLup s L) = mondat s ∧ dstat (withLup s L) = dstat s ∧
      qstat (withLup s L) = qstat s := ⟨rfl, rfl, rfl, rfl, rfl⟩
    obtain ⟨k2, k3, k4, k5, k6⟩ := k2
    unfold viewWord
    simp only [k1, k2, k3, k4, k5, k6, h]
  have h1 : identityBlock (withLup s L) = identityBlock s := rfl
  have h2 : msixWord (withLup s L) = msixWord s ∧ pbaWord (withLup s L) = pbaWord s ∧ busyMbx (withLup s L) = busyMbx s ∧
    payload (withLup s L) = payload s ∧ dumpByte (withLup s L) = dumpByte s ∧ pairValue (withLup s L) = pairValue s ∧
    readHi (withLup s L) = readHi s ∧ profWord (withLup s L) = profWord s := ⟨rfl, rfl, rfl, rfl, rfl, rfl, rfl, rfl⟩
  have h3 : (∀ o, (withLup s L).reg o = s.reg o) ∧ (∀ a b c, (withLup s L).regField a b c = s.regField a b c) ∧ (withLup s L).fresh = s.fresh ∧
    (withLup s L).ras = s.ras ∧ (withLup s L).clk = s.clk ∧ (withLup s L).pwr = s.pwr ∧ (withLup s L).host = s.host :=
    ⟨fun _ => rfl, fun _ _ _ => rfl, rfl, rfl, rfl, rfl, rfl⟩
  obtain ⟨k2, k3, k4, k5, k6, k7, k8, k9⟩ := h2
  obtain ⟨k10, k11, k12, k13, k14, k15, k16⟩ := h3
  unfold bar0Word
  simp only [h0, h1, k2, k3, k4, k5, k6, k7, k8, k9, k10, k11, k12, k13, k14, k15, k16]

/-- What a read answers, and that it changes nothing but latches. -/
theorem bar0Read_spec (s : State) (i off : Nat) :
    (bar0Read s i off).1 = (match crateOf off with
      | some c => crateWord s i c
      | none => bar0Word s i off) ∧
    ∃ h, (bar0Read s i off).2 = { s with host := h } := by
  unfold bar0Read
  dsimp only
  split
  · exact ⟨rfl, _, rfl⟩
  · exact ⟨rfl, _, rfl⟩
  · split
    · exact ⟨rfl, _, rfl⟩
    · split
      · exact ⟨rfl, _, rfl⟩
      · split
        · next p _ _ =>
          refine ⟨rfl, ?_⟩
          show ∃ h, (if off % 8 = 0 then readLo s i p else s) = { s with host := h }
          split
          · exact ⟨_, rfl⟩
          · exact ⟨_, rfl⟩
        · exact ⟨rfl, _, rfl⟩

theorem bar0Read_withLup {s : State} {L : Lup} (h : ∀ d, routeTo (withLup s L) d = routeTo s d) (i off : Nat) :
    (bar0Read (withLup s L) i off).1 = (bar0Read s i off).1 := by
  have hc : crateWord (withLup s L) = crateWord s := rfl
  rw [(bar0Read_spec (withLup s L) i off).1, (bar0Read_spec s i off).1, bar0Word_withLup h, hc]

theorem recordTag_withLup (s : State) (m : LMsg) : ∃ x, recordTag s m = withLup s { s.lup with seen := x } := recordTag_eq s m

/-! ## Management messages (R484, R486, R491) -/

section
variable {s : State} {link : Fin 8} {m : LMsg}

theorem mgmt_acts (h : Arrives s link m tMGMT) : exec (.mgmt link m 0) s = .next (mgmtAct (recordTag s m) (link.val + 1) m) :=
  h.request (fun s l => mgmtAct s l m) (by decide)

theorem mgmt_reads {off : Nat} (h : Arrives s link m tMGMT) (hp : m.pay = .mmio off none) : ∃ t, exec (.mgmt link m 0) s = .next t ∧ Still s t ∧
    Sent t (answerTo s m tMGMTRESP 0 (.value (bar0Read s 2 off).1 true)) := by
  obtain ⟨x, hx⟩ := recordTag_withLup s m
  obtain ⟨-, k, hk⟩ := bar0Read_spec (recordTag s m) 2 off
  have hv : (bar0Read (recordTag s m) 2 off).1 = (bar0Read s 2 off).1 := by rw [hx]; exact bar0Read_withLup (L := { s.lup with seen := x }) (fun _ => rfl) 2 off
  have ha : mgmtAct (recordTag s m) (link.val + 1) m =
      reply (bar0Read (recordTag s m) 2 off).2 m tMGMTRESP 0 (.value (bar0Read (recordTag s m) 2 off).1 true) := by
    unfold mgmtAct; rw [hp]
  refine ⟨_, (mgmt_acts h).trans (congrArg _ ha), ?_⟩
  rw [hv, hk]
  obtain ⟨k1, k2⟩ := recordTag_answers s m
  have h0 := recordTag_still s m
  generalize recordTag s m = u at *
  have hw : ∀ a, answerTo { u with host := k } m tMGMTRESP 0 a = answerTo s m tMGMTRESP 0 a := fun a =>
    answerTo_of (s := s) (t := { u with host := k }) k1 k2 m tMGMTRESP 0 a
  have h2 : Still u { u with host := k } := ⟨⟨rfl, rfl, rfl, rfl⟩, rfl⟩
  exact ⟨h0.trans (h2.trans (reply_linksOnly ..).still),
    hw (.value (bar0Read s 2 off).1 true) ▸ reply_sent { u with host := k } m tMGMTRESP 0 (.value (bar0Read s 2 off).1 true)⟩

end

end Sys2Proof.Machine
end

section
namespace Sys2Proof.Machine

section
variable {s : State} {link : Fin 8} {m : LMsg}

theorem LogsOnly.modId {s t : State} (h : LogsOnly s t) : t.modId = s.modId := by unfold LogsOnly at h; rw [h]

theorem withLup_modId (s : State) (L : Lup) : (withLup s L).modId = s.modId := rfl

theorem withLup_still (s : State) (L : Lup) : Still s (withLup s L) := ⟨⟨rfl, rfl, rfl, rfl⟩, rfl⟩

theorem plainWrite_logsOnly (s : State) (iface off v : Nat) : LogsOnly s (plainWrite s iface off v) := by
  unfold plainWrite
  split
  · rfl
  · dsimp only
    split
    · exact (setReg_logsOnly ..).trans (accessViolation_logsOnly ..)
    · exact setReg_logsOnly ..

/-- A write of a plain register leaves memory, cores, tasks, links and the module ID. -/
theorem regWrite_plain_keeps {off : Nat} (h : PlainReg off) (iface v : Nat) :
    Still s (regWrite s iface off v) ∧ (regWrite s iface off v).modId = s.modId ∧ (regWrite s iface off v).lup = s.lup := by
  have ha : off ≠ rAlert := h.2.2.2.2.2.2.2.2.2.2.2.2.2.2.2.2.2
  rw [regWrite_plain iface v h]
  unfold checkedWrite
  split
  · have h1 := plainWrite_logsOnly s iface off v
    have h2 := afterWrite_follows (plainWrite s iface off v) ha
    refine ⟨h1.still.trans h2.still, ?_, ?_⟩
    · show (afterWrite (plainWrite s iface off v) off).modId = s.modId
      rw [h2.only]; exact h1.modId
    · show (afterWrite (plainWrite s iface off v) off).lup = s.lup
      rw [h2.only]; exact h1.lup
  · have h1 : LogsOnly s (accessViolation s iface off v) := accessViolation_logsOnly ..
    exact ⟨h1.still, h1.modId, h1.lup⟩

theorem mgmt_writes {off v : Nat} (h : Arrives s link m tMGMT) (hp : m.pay = .mmio off (some v)) (hr : PlainReg off) :
    ∃ t, exec (.mgmt link m 0) s = .next t ∧ Still s t ∧ t.regs = (regWrite s 2 off v).regs ∧ Sent t (answerTo s m tMGMTRESP 0 (.value 0 true)) := by
  obtain ⟨x, hx⟩ := recordTag_withLup s m
  have ha : mgmtAct (recordTag s m) (link.val + 1) m = reply (regWrite (recordTag s m) 2 off v) m tMGMTRESP 0 (.value 0 true) := by
    unfold mgmtAct; rw [hp]
  refine ⟨_, (mgmt_acts h).trans (congrArg _ ha), ?_⟩
  have hw : regWrite (recordTag s m) 2 off v = withLup (regWrite s 2 off v) { s.lup with seen := x } := by
    rw [hx]; exact regWrite_plain_blind hr 2 v s { s.lup with seen := x }
  obtain ⟨k1, k2, k3⟩ := regWrite_plain_keeps (s := s) hr 2 v
  rw [hw]
  generalize regWrite s 2 off v = u at *
  have hl := reply_linksOnly (withLup u { s.lup with seen := x }) m tMGMTRESP 0 (.value 0 true)
  have hs := withLup_still u { s.lup with seen := x }
  refine ⟨k1.trans (hs.trans hl.still), hl.regs, ?_⟩
  have hans : answerTo (withLup u { s.lup with seen := x }) m tMGMTRESP 0 (.value 0 true) = answerTo s m tMGMTRESP 0 (.value 0 true) :=
    answerTo_of (s := s) (t := withLup u { s.lup with seen := x }) k2 rfl m tMGMTRESP 0 (.value 0 true)
  exact hans ▸ reply_sent (withLup u { s.lup with seen := x }) m tMGMTRESP 0 (.value 0 true)

theorem setMembers_lup (s : State) (ms : List Nat) : (setMembers s ms).lup.members = ms ∧ (setMembers s ms).lup.routes = s.lup.routes ∧
    (setMembers s ms).lup.epoch = s.lup.epoch := ⟨rfl, rfl, rfl⟩

/-- What a lead's table of routes leaves. -/
structure Routed (s t : State) (e : Bool) (routes : Tab (Nat × Nat)) (members : List Nat) : Prop where
  still : Still s t
  members : t.lup.members = members
  epoch : t.lup.epoch = e
  admitted : t.regBit oLupDstat 7 = true
  parity : t.regBit oLupDstat 15 = e
  own : routeTo t s.modId = (0, 0)
  other : ∀ d, d ≠ s.modId → routeTo t d = tget (0, 0xF) routes d

theorem Epoch.routed {u v : State} {routes : Tab (Nat × Nat)} (h : Epoch u v routes) {e : Bool} (he : u.lup.epoch = !e) (ms : List Nat) :
    Routed u (setMembers v ms) e routes ms := by
  obtain ⟨h1, h2, h3⟩ := setMembers_lup v ms
  have hd := setMembers_domain v ms
  have hep : (!u.lup.epoch) = e := by rw [he, Bool.not_not]
  have ho : ∀ d, routeTo (setMembers v ms) d = routeTo v d := fun d => by rw [routeTo, h2]; rfl
  refine ⟨h.domain.still.trans hd.still, h1, h3.trans (h.epoch.trans hep), regBit_setBit _ _ (by decide) true, ?_, ?_, fun d hne => ?_⟩
  · exact (regBit_setField_apart _ _ _ (by decide) (by decide) (by decide)).trans
      ((regBit_setField_apart _ _ _ (by decide) (by decide) (by decide)).trans (h.parity.trans hep))
  · rw [ho, routeTo, h.routes, tget_tset_same]
  · rw [ho, h.routeTo_other hne]

theorem Routed.of_links {s t w : State} {e : Bool} {routes : Tab (Nat × Nat)} {ms : List Nat} (h : Routed s t e routes ms) (k : LinksOnly t w) :
    Routed s w e routes ms where
  still := h.still.trans k.still
  members := k.members.trans h.members
  epoch := k.epoch.trans h.epoch
  admitted := (regBit_of_reg (k.reg _) 7).trans h.admitted
  parity := (regBit_of_reg (k.reg _) 15).trans h.parity
  own := (k.routeTo _).trans h.own
  other d hd := (k.routeTo _).trans (h.other d hd)

theorem mgmtAct_routes (r : State) (l : Nat) {e : Bool} {table : List (Nat × Nat × Nat)} {members : List Nat} (hp : m.pay = .routes e table members) :
    mgmtAct r l m = reply (setMembers (newEpoch (withLup r { r.lup with epoch := !e }) (routeTab table)) members) m tMGMTRESP 0 (.value 0 true) := by
  have hw : withLup r { r.lup with epoch := !e } = { r with lup := { r.lup with epoch := !e } } := rfl
  unfold mgmtAct; rw [hp, hw]

theorem mgmt_routes {e : Bool} {table : List (Nat × Nat × Nat)} {members : List Nat} (h : Arrives s link m tMGMT) (hp : m.pay = .routes e table members) :
    ∃ t, exec (.mgmt link m 0) s = .next t ∧ Still s t ∧
      t.lup.members = members ∧ t.lup.epoch = e ∧ t.regBit oLupDstat 7 = true ∧ t.regBit oLupDstat 15 = e ∧
      routeTo t s.modId = (0, 0) ∧ ∀ d, d ≠ s.modId → routeTo t d = tget (0, 0xF) (routeTab table) d := by
  obtain ⟨k1, -⟩ := recordTag_answers s m
  have k0 := recordTag_still s m
  have hx := mgmt_acts h
  generalize recordTag s m = r at *
  have ha := mgmtAct_routes r (link.val + 1) hp
  have hu : Still r (withLup r { r.lup with epoch := !e }) := withLup_still ..
  have hid : (withLup r { r.lup with epoch := !e }).modId = s.modId := (withLup_modId ..).trans k1
  have he0 : (withLup r { r.lup with epoch := !e }).lup.epoch = !e := rfl
  have he1 := newEpoch_epoch (withLup r { r.lup with epoch := !e }) (routeTab table)
  rw [ha] at hx
  generalize withLup r { r.lup with epoch := !e } = u at *
  generalize newEpoch u (routeTab table) = v at *
  have hr := (he1.routed he0 members).of_links (reply_linksOnly (setMembers v members) m tMGMTRESP 0 (.value 0 true))
  obtain ⟨q1, q2, q3, q4, q5, q6, q7⟩ := hr
  rw [hid] at q6 q7
  exact ⟨_, hx, k0.trans (hu.trans q1), q2, q3, q4, q5, q6, q7⟩

theorem tablesReady_epoch {s : State} (h : s.lup.failed = []) : (tablesReady s).lup.epoch = s.lup.epoch := by
  rw [tablesReady_eq, waiting, h]; rfl

theorem storeFailover_spec (s : State) (key : Nat) (table : List (Nat × Nat × Nat)) : Still s (storeFailover s key table) ∧
    (storeFailover s key table).modId = s.modId ∧ (storeFailover s key table).lup.epoch = s.lup.epoch ∧
    tget [] (storeFailover s key table).lup.failover key = routeTab table := ⟨withLup_still .., rfl, rfl, tget_tset_same ..⟩

theorem reply_answers {s u : State} (k1 : u.modId = s.modId) (k2 : u.lup.epoch = s.lup.epoch) (m : LMsg) (typ st : Nat) (pay : LPay) :
    Sent (reply u m typ st pay) (answerTo s m typ st pay) :=
  answerTo_of (s := s) (t := u) k1 k2 m typ st pay ▸ reply_sent u m typ st pay

theorem mgmt_failover {key : Nat} {table : List (Nat × Nat × Nat)} (h : Arrives s link m tMGMT) (hp : m.pay = .failover key table) :
    ∃ t, exec (.mgmt link m 0) s = .next t ∧ Still s t ∧
      (key = 0 → table = [] → s.lup.failed = [] → t.regBit oLupDstat 16 = true ∧ Sent t (answerTo s m tMGMTRESP 0 (.value 0 true))) ∧
      (key ≠ 0 ∨ table ≠ [] → tget [] t.lup.failover key = routeTab table ∧ Sent t (answerTo s m tMGMTRESP 0 (.value 0 true))) := by
  obtain ⟨k1, k2⟩ := recordTag_answers s m
  have k3 : (recordTag s m).lup.failed = s.lup.failed := by obtain ⟨x, hx⟩ := recordTag_withLup s m; rw [hx]; rfl
  have k0 := recordTag_still s m
  have hx := mgmt_acts h
  generalize recordTag s m = u at *
  have ha : mgmtAct u (link.val + 1) m =
      reply (if key = 0 ∧ table = [] then tablesReady u else storeFailover u key table) m tMGMTRESP 0 (.value 0 true) := by
    unfold mgmtAct; rw [hp]
  rw [ha] at hx
  refine ⟨_, hx, ?_⟩
  by_cases hc : key = 0 ∧ table = []
  · rw [if_pos hc]
    have hl := reply_linksOnly (tablesReady u) m tMGMTRESP 0 (.value 0 true)
    have hd := tablesReady_domain u
    refine ⟨k0.trans (hd.still.trans hl.still), fun _ _ hf => ⟨(regBit_of_reg (hl.reg _) 16).trans (tablesReady_ready (k3.trans hf)),
      reply_answers (hd.modId.trans k1) ((tablesReady_epoch (k3.trans hf)).trans k2) m tMGMTRESP 0 (.value 0 true)⟩, fun hn => absurd hc (by tauto)⟩
  · rw [if_neg hc]
    obtain ⟨q1, q2, q3, q4⟩ := storeFailover_spec u key table
    have hl := reply_linksOnly (storeFailover u key table) m tMGMTRESP 0 (.value 0 true)
    refine ⟨k0.trans (q1.trans hl.still), fun h1 h2 => absurd ⟨h1, h2⟩ hc, fun _ => ⟨?_,
      reply_answers (q2.trans k1) (q3.trans k2) m tMGMTRESP 0 (.value 0 true)⟩⟩
    rw [hl.failover]; exact q4

end

end Sys2Proof.Machine
end

section
namespace Sys2Proof.Machine

/-! ## Mailbox commands over the links (R491) -/

theorem newMsg_of {s t : State} (hid : t.modId = s.modId) (hep : t.lup.epoch = s.lup.epoch) (typ vc src dst tag addr : Nat) (pay : LPay) :
    newMsg t typ vc src dst tag addr pay = newMsg s typ vc src dst tag addr pay := by
  rw [newMsg, hid, hep]; rfl

theorem sendMsg_new {s u : State} (k1 : u.modId = s.modId) (k2 : u.lup.epoch = s.lup.epoch) (typ vc src dst tag addr : Nat) (pay : LPay) :
    Sent (sendMsg u (newMsg u typ vc src dst tag addr pay)) (newMsg s typ vc src dst tag addr pay) :=
  newMsg_of (s := s) (t := u) k1 k2 typ vc src dst tag addr pay ▸ sendMsg_sent u (newMsg u typ vc src dst tag addr pay)

theorem Posts.answers {s t : State} {n : Nat} (h : Posts s t n) : t.modId = s.modId ∧ t.lup.epoch = s.lup.epoch := by
  rw [h.only]; exact ⟨Eq.refl _, Eq.refl _⟩

theorem EndsSession.answers {s t : State} {n : Nat} (h : EndsSession s t n) : t.modId = s.modId ∧ t.lup.epoch = s.lup.epoch := by
  rw [h.only]; exact ⟨rfl, rfl⟩

/-- The end of a forwarded command tells the lead. -/
theorem finish_told (s : State) {c : Call} {lead : Nat × Nat} (hs : c.src = some lead) (hi : c.irq = false) (st d : Nat) (ans : List Nat) :
    Sent (finish s c st d ans) (newMsg s tMGMTRESP 15 0 lead.1 lead.2 0 (.mboxAns c.mbx st d ans)) := by
  obtain ⟨k1, k2⟩ := (closed_posts s c st d ans).answers
  have he : answered (closed s c st d ans) c st d ans =
      sendMsg (closed s c st d ans) (newMsg (closed s c st d ans) tMGMTRESP 15 0 lead.1 lead.2 0 (.mboxAns c.mbx st d ans)) := by
    unfold answered
    rw [hs, hi, if_neg (by simp)]
  rw [finish_eq, he]
  exact sendMsg_new k1 k2 tMGMTRESP 15 0 lead.1 lead.2 0 (.mboxAns c.mbx st d ans)

/-- The call of a forwarded CLOSE_SESSION. -/
def closeCall (n : Nat) (plan : List (List Nat)) (num : Nat) (lead : Nat × Nat) : Call := ⟨n, 0x04, [], false, false, plan, num, some lead, none⟩

/-- A forwarded command that may be served runs at once. -/
theorem mbxStart_close {s : State} {n : Nat} (h : Served s n 0x04 []) (hn : n ≤ 16) (plan : List (List Nat)) (num : Nat) (lead : Nat × Nat) :
    mbxStart (setPayload s n []) n false 0x04 0 plan num (some lead) =
      finish (endSession (posted s (closeCall n plan num lead)) n) (closeCall n plan num lead) mOK 0 [] := by
  let c := closeCall n plan num lead
  obtain ⟨-, -, -, hcalls, hrec, -, hserve⟩ := h.1
  have hp := posted_posts s c
  have hser : ∀ q, serverOf c = some q → serves (posted s c) q = true := fun q hq => by
    obtain ⟨h1, h2⟩ := rPstat_ne_rMbx (n := n) q (serverOf_lt hq)
    have hq' := hserve q ((serverOf_congr rfl rfl).trans hq)
    unfold serves pstate at *
    rw [regField_of_reg (hp.reg _ h1 h2)]
    exact hq'
  have hf : callFault (posted s c) c = none :=
    (callFault_posted hp hn c (goCall n 0x04 [] false [] 0) rfl rfl rfl).trans (callFault_served h false [] 0)
  have hrun : startCmd (posted s c) c = finish (endSession (posted s c) n) c mOK 0 [] := by
    unfold startCmd; rw [hf]; rfl
  rw [mbxStart_own false plan num (some lead) (.inl rfl), ← hrun]
  exact serveCalls_only (s := posted s c) (c := c) (congrArg (· ++ [c]) hcalls) rfl rfl hrec hser

theorem mbxStart_closes {s : State} {n : Nat} (h : Served s n 0x04 []) (hn : n ≤ 16) (plan : List (List Nat)) (num : Nat) (lead : Nat × Nat) :
    let t := mbxStart (setPayload s n []) n false 0x04 0 plan num (some lead)
    Still s t ∧ t.session n = none ∧ Answered t n mOK [] ∧ Sent t (newMsg s tMGMTRESP 15 0 lead.1 lead.2 0 (.mboxAns n mOK 0 [])) := by
  let c := closeCall n plan num lead
  dsimp only
  rw [mbxStart_close h hn plan num lead]
  have hp : Posts s (posted s c) n := posted_posts s c
  have he : EndsSession (posted s c) (endSession (posted s c) n) n := endSession_ends (posted s c) n
  have hf : Posts (endSession (posted s c) n) (finish (endSession (posted s c) n) c mOK 0 []) n := finish_posts _ c mOK 0 []
  have ht := finish_told (endSession (posted s c) n) (c := c) rfl rfl mOK 0 []
  have hg := finish_good (endSession (posted s c) n) c (status := mOK) 0 (answer := []) (by decide) (Nat.zero_le _)
  have hm := newMsg_of (s := s) (t := endSession (posted s c) n) (he.answers.1.trans hp.answers.1) (he.answers.2.trans hp.answers.2) tMGMTRESP 15 0
    lead.1 lead.2 0 (.mboxAns n mOK 0 [])
  exact ⟨hp.still.trans (he.still.trans hf.still), (hf.session n).trans he.none, hg, hm ▸ ht⟩

theorem served_withLup {s : State} {n op : Nat} {b : List Nat} (h : Served s n op b) (L : Lup) : Served (withLup s L) n op b := h

section
variable {s : State} {link : Fin 8} {m : LMsg}

/-- The FramesAndManagementAreTaken clauses of a forwarded mailbox command. -/
theorem mgmt_mailbox {n op : Nat} {req : List Nat} {plan : List (List Nat)} {num : Nat} (h : Arrives s link m tMGMT)
    (hp : m.pay = .mboxGo n op req plan num) (hdark : mbxDark s = false) :
    (16 ≤ n → ∃ t, exec (.mgmt link m 0) s = .next t ∧ Still s t ∧
      Sent t (newMsg s tMGMTRESP 15 0 m.src m.tag 0 (.mboxAns n mWRONG_MAILBOX 0 []))) ∧
    (n < 16 → busyMbx s n = true → ∃ t, exec (.mgmt link m 0) s = .next t ∧ Still s t ∧
      Sent t (newMsg s tMGMTRESP 15 0 m.src m.tag 0 (.mboxAns n mBUSY 0 []))) ∧
    (n < 16 → op = 0x04 → req = [] → Served s n 0x04 [] → ∃ t, exec (.mgmt link m 0) s = .next t ∧ Still s t ∧ t.session n = none ∧
      Answered t n mOK [] ∧ Sent t (newMsg s tMGMTRESP 15 0 m.src m.tag 0 (.mboxAns n mOK 0 []))) := by
  obtain ⟨x, hx⟩ := recordTag_withLup s m
  obtain ⟨k1, k2⟩ := recordTag_answers s m
  have k0 := recordTag_still s m
  have hacts := mgmt_acts h
  have hdark : mbxDark (recordTag s m) = false := by rw [hx]; exact hdark
  have hbusy : busyMbx (recordTag s m) n = busyMbx s n := by rw [hx]; rfl
  have hserved : Served s n 0x04 [] → Served (recordTag s m) n 0x04 [] := fun hs => by rw [hx]; exact served_withLup hs _
  clear hx
  generalize recordTag s m = u at *
  have ha : mgmtAct u (link.val + 1) m = mgmtGo u m n op req plan num := by unfold mgmtAct; rw [hp]
  rw [ha] at hacts
  have hgo : mgmtGo u m n op req plan num =
      if 16 ≤ n then sendMsg u (newMsg u tMGMTRESP 15 0 m.src m.tag 0 (.mboxAns n mWRONG_MAILBOX 0 []))
      else if busyMbx u n then sendMsg u (newMsg u tMGMTRESP 15 0 m.src m.tag 0 (.mboxAns n mBUSY 0 []))
      else mbxStart (setPayload u n (req.take 4096)) n false op req.length plan num (some (m.src, m.tag)) := by
    unfold mgmtGo
    rw [hdark, if_neg (by decide)]
  rw [hgo] at hacts
  refine ⟨fun hn => ?_, fun hn hb => ?_, fun hn hop hreq hs => ?_⟩
  · rw [if_pos hn] at hacts
    exact ⟨_, hacts, k0.trans (sendMsg_linksOnly ..).still, sendMsg_new k1 k2 tMGMTRESP 15 0 m.src m.tag 0 (.mboxAns n mWRONG_MAILBOX 0 [])⟩
  · rw [if_neg (by omega), hbusy, if_pos hb] at hacts
    exact ⟨_, hacts, k0.trans (sendMsg_linksOnly ..).still, sendMsg_new k1 k2 tMGMTRESP 15 0 m.src m.tag 0 (.mboxAns n mBUSY 0 [])⟩
  · have hfree : busyMbx u n = false := (hserved hs).1.2.1
    subst hop hreq
    rw [if_neg (by omega), hfree, if_neg (by decide)] at hacts
    obtain ⟨q1, q2, q3, q4⟩ := mbxStart_closes (hserved hs) (by omega) plan num (m.src, m.tag)
    have hm := newMsg_of (s := s) (t := u) k1 k2 tMGMTRESP 15 0 m.src m.tag 0 (.mboxAns n mOK 0 [])
    exact ⟨_, hacts, k0.trans q1, q2.trans rfl, q3, hm ▸ q4⟩

theorem mgmtresp_answers {n : Nat} {ans : List Nat} {c : Call} (h : Arrives s link m tMGMTRESP) (hp : m.pay = .mboxAns n mOK 0 ans)
    (hc : s.fw.calls = [c]) (hn : c.mbx = n) (hf : c.fwd = some (m.src, m.tag)) (hl : ans.length ≤ 4096) :
    ∃ t, exec (.mgmtresp link m 0) s = .next t ∧ Still s t ∧ t.fw.calls = [] ∧ Answered t n mOK ans := by
  have hfind : s.fw.calls.find? (fun c => c.mbx == n && c.fwd == some (m.src, m.tag)) = some c := by
    rw [hc, List.find?_cons_of_pos]
    rw [hn, hf]; simp
  have hcalls : (finish s c mOK 0 ans).fw.calls = [] := by
    rw [finish_calls, hc]; simp
  have hserve : serveCalls (finish s c mOK 0 ans) = finish s c mOK 0 ans := by
    rw [serveCalls, hcalls]; rfl
  have he : exec (.mgmtresp link m 0) s = .next (finish s c mOK 0 ans) := by
    refine (h.posted (fun s _ => match m.pay with
      | .mboxAns n status detail answer =>
        match s.fw.calls.find? (fun c => c.mbx == n && c.fwd == some (m.src, m.tag)) with
        | none => s
        | some c => serveCalls (finish s c status detail answer)
      | _ => s) rfl).trans ?_
    rw [hp]
    dsimp only
    rw [hfind]
    exact congrArg _ hserve
  exact ⟨_, he, (finish_posts s c mOK 0 ans).still, hcalls, hn ▸ finish_good s c 0 (by decide) hl⟩

end

/-- Settles O55. -/
theorem framesAndManagementAreTaken : Obligations.FramesAndManagementAreTaken := by
  unfold Obligations.FramesAndManagementAreTaken
  intro s link m
  refine ⟨fun hlive fseq ak hold flits cc cn => ?_, fun fl p hp ht => messages_checked s link m fl p hp ht, fun hd => rxReason_refused hd,
    fun w h hp head ha => lupinDoorbell_rings h hp head ha, fun _ => ⟨fun data h => hostrd_reads data h, fun b h hp => hostwr_writes h hp,
      fun v h hp hv => lupinMsix_sends h hp hv⟩, fun h => ⟨fun off hp _ _ => mgmt_reads h hp, fun off v hp _ _ hr => mgmt_writes h hp hr,
      fun e table members hp _ => mgmt_routes h hp, fun key table hp _ => mgmt_failover h hp, fun n op req plan num hp hd => mgmt_mailbox h hp hd⟩,
    fun n ans c h hp _ hc hn hf hl => mgmtresp_answers h hp hc hn hf hl⟩
  exact ⟨(frameReceived_bad hlive fseq ak hold flits cc cn).1, (frameReceived_bad hlive fseq ak hold flits cc cn).2,
    fun h => frameReceived_other hlive ak hold flits cc cn h, fun h => frameReceived_good hlive ak hold flits cc cn h, (nak_resends hlive ak).1,
    (nak_resends hlive ak).2⟩

end Sys2Proof.Machine
end

section
/-! SUPPORT. Arbiters: grants, marks, rates, samples and epochs (R366 to R374, R381). -/
namespace Sys2Proof.Machine

/-! ## Tables filled one key at a time -/

/-- A fold that touches, for each element, the entry of its own key. -/
theorem tget_foldl_key {α β : Type} {d : β} {key : α → Nat} {f : Tab β → α → Tab β} {g : α → β → β} {k : Nat}
    (hf : ∀ t a, tget d (f t a) k = if key a = k then g a (tget d t k) else tget d t k) (l : List α) (hn : (l.map key).Nodup) (t : Tab β) :
    tget d (l.foldl f t) k = match l.find? (fun a => key a == k) with
      | some a => g a (tget d t k)
      | none => tget d t k := by
  induction l generalizing t with
  | nil => rfl
  | cons a l ih =>
    obtain ⟨hna, hnl⟩ := List.nodup_cons.1 hn
    rw [List.foldl_cons, ih hnl, hf]
    by_cases h : key a = k
    · have hnone : l.find? (fun a => key a == k) = none := List.find?_eq_none.2 fun b hb hk =>
        hna (by rw [h, ← beq_iff_eq.1 hk]; exact List.mem_map_of_mem hb)
      rw [hnone, List.find?_cons_of_pos (by simpa using h), if_pos h]
    · rw [List.find?_cons_of_neg (by simpa using h), if_neg h]

/-! ## Grants (R366 to R371) -/

/-- Nothing but the classes' state differs. -/
def ClsOnly (s t : State) : Prop := t = { s with cls := t.cls }

theorem ClsOnly.trans {a b c : State} (h : ClsOnly a b) (k : ClsOnly b c) : ClsOnly a c := by
  unfold ClsOnly at *; rw [k, h]

theorem setArb_cls (s : State) (a : Nat) (x : Arb) : ClsOnly s (s.setArb a x) := by unfold ClsOnly; rfl

theorem arb_setArb_same (s : State) (a : Nat) (x : Arb) : (s.setArb a x).arb a = x := tget_tset_same ..
theorem arb_setArb_other (s : State) {a b : Nat} (x : Arb) (h : b ≠ a) : (s.setArb a x).arb b = s.arb b := tget_tset_other _ _ _ h

theorem seeWaiting_keeps (x : Arb) : seeWaiting x = { x with seen := (seeWaiting x).seen } := rfl

theorem recordGrant_keeps (x : Arb) (credit : Nat → Bool) (m : Nat) (r : ArbReq) (rotated : Bool) :
    (recordGrant (countHeld x credit m) r rotated).queue = x.queue.erase r ∧ (recordGrant (countHeld x credit m) r rotated).grants = x.grants + 1 ∧
    (recordGrant (countHeld x credit m) r rotated).slots = x.slots ∧
    (tget [] (recordGrant (countHeld x credit m) r rotated).waits r.cls).getLast? = some (x.slots - r.slot) := by
  refine ⟨rfl, rfl, rfl, ?_⟩
  have h : tget [] (recordGrant (countHeld x credit m) r rotated).waits r.cls =
      (tget [] x.waits r.cls ++ [x.slots - r.slot]).drop ((tget [] x.waits r.cls).length - 15) := tget_tset_same ..
  rw [h, List.drop_append_of_le_length (Nat.sub_le ..)]
  exact List.getLast?_concat

/-- What a class-15 request does to a choice that is not by rotation (R368). -/
theorem pickClass_top {s : State} {x : Arb} {m : Nat} (hrot : (tget 0 x.served m + 1) % 16 ≠ 0)
    (h : x.queue.any (fun r => r.mc == m && r.cls == 15) = true) : pickClass s x m = 15 := by
  have hmem : (((List.range 16).map (fun i => (tget 15 x.rot m + 1 + i) % 16)).filter
      (fun c => x.queue.any (fun r => r.mc == m && r.cls == c))).contains 15 = true := by
    rw [List.contains_iff_mem, List.mem_filter, List.mem_map]
    exact ⟨⟨(15 + 16 - (tget 15 x.rot m + 1) % 16) % 16, List.mem_range.2 (Nat.mod_lt _ (by decide)), by omega⟩, h⟩
  unfold pickClass
  dsimp only
  rw [if_neg hrot, if_pos hmem]

theorem pickReq_class {x : Arb} {m c : Nat} {r : ArbReq} (h : pickReq x m c = some r) : r.cls = c := by
  have h := (List.mem_filter.1 (List.mem_of_find?_eq_some h)).2
  exact beq_iff_eq.1 (Bool.and_eq_true_iff.1 h).2

section
variable {s : State} {a : ArbiterId} {cr : Fin 16} {m : Nat} {r : ArbReq}

/-- The arbiter after a slot that grants a request. -/
def granted (x : Arb) (credit : Nat → Bool) (m : Nat) (r : ArbReq) : Arb :=
  recordGrant (countHeld x credit m) r (decide (2 ≤ m) && (tget 0 x.served m + 1) % 16 == 0)

theorem arbSlot_grants (hm : pickMc (s.arb (arbNum a)) (nbit cr) = some m)
    (hr : (if m < 2 then (s.arb (arbNum a)).queue.find? (fun (r : ArbReq) => r.mc == m) else pickReq (s.arb (arbNum a)) m (pickClass s (s.arb (arbNum a)) m)) = some r) :
    ∃ top, arbSlot s (arbNum a) (fun m => nbit cr m) = State.setArb { s with cls := { s.cls with top := top } } (arbNum a)
      (seeWaiting { granted (s.arb (arbNum a)) (fun m => nbit cr m) m r with slots := (granted (s.arb (arbNum a)) (fun m => nbit cr m) m r).slots + 1 }) := by
  have hc : ∀ top, pickClass { s with cls := { s.cls with top := top } } (s.arb (arbNum a)) m = pickClass s (s.arb (arbNum a)) m := fun _ => rfl
  unfold arbSlot
  dsimp only
  rw [show (fun m => nbit cr m) = nbit cr from rfl, hm]
  dsimp only
  rw [hc, hr]
  exact ⟨_, rfl⟩

/-- The ClassesShareTheArbiters clauses of ARBITER_GRANT. -/
theorem arbiter_grants (hm : pickMc (s.arb (arbNum a)) (nbit cr) = some m)
    (hr : (if m < 2 then (s.arb (arbNum a)).queue.find? (fun (r : ArbReq) => r.mc == m) else pickReq (s.arb (arbNum a)) m (pickClass s (s.arb (arbNum a)) m)) = some r) :
    let x := s.arb (arbNum a)
    let u := arbSlot s (arbNum a) (fun m => nbit cr m)
    ClsOnly s u ∧ (u.arb (arbNum a)).queue = x.queue.erase r ∧ (u.arb (arbNum a)).grants = x.grants + 1 ∧
      (u.arb (arbNum a)).slots = x.slots + 1 ∧ (tget [] (u.arb (arbNum a)).waits r.cls).getLast? = some (x.slots - r.slot) ∧
      ∀ b, b ≠ arbNum a → u.arb b = s.arb b := by
  intro x u
  obtain ⟨top, hu⟩ := arbSlot_grants hm hr
  have h1 : ClsOnly s u := (show ClsOnly s { s with cls := { s.cls with top := top } } by unfold ClsOnly; rfl).trans (by
    show ClsOnly _ (arbSlot s (arbNum a) (fun m => nbit cr m))
    rw [hu]; exact setArb_cls ..)
  have h2 : u.arb (arbNum a) = seeWaiting { granted x (fun m => nbit cr m) m r with slots := (granted x (fun m => nbit cr m) m r).slots + 1 } := by
    show (arbSlot s (arbNum a) (fun m => nbit cr m)).arb (arbNum a) = _
    rw [hu]; exact arb_setArb_same ..
  have h3 : ∀ b, b ≠ arbNum a → u.arb b = s.arb b := fun b hb => by
    show (arbSlot s (arbNum a) (fun m => nbit cr m)).arb b = _
    rw [hu]; exact arb_setArb_other _ _ hb
  obtain ⟨k1, k2, k3, k4⟩ := recordGrant_keeps x (fun m => nbit cr m) m r (decide (2 ≤ m) && (tget 0 x.served m + 1) % 16 == 0)
  refine ⟨h1, ?_, ?_, ?_, ?_, h3⟩
  · rw [h2]; exact k1
  · rw [h2]; exact k2
  · rw [h2]; exact congrArg (· + 1) k3
  · rw [h2]; exact k4

theorem arbArrive_joins (u : State) (a : Nat) (v : Arrival) (h : v.leaves = none ∨ v.mc.val < 2) :
    arbArrive a u v = u.setArb a { u.arb a with queue := (u.arb a).queue ++ [⟨v.mc, v.cls, masterNum v.master, (u.arb a).slots⟩] } := by
  unfold arbArrive
  dsimp only
  split
  · rfl
  · next hl => exact if_pos (h.resolve_left (by rw [hl]; nofun))

end

/-! ## Marks, recovery, samples and epochs (R372, R373) -/

theorem bucketKey_inj {m c m' c' : Nat} (h : c < 16) (h' : c' < 16) (he : bucketKey m c = bucketKey m' c') : m = m' ∧ c = c' := by
  unfold bucketKey at he; omega

/-- A rate that is set. -/
def setRate (s : State) (k : Nat) (v : Option Nat) : State := { s with cls := { s.cls with rates := tset none s.cls.rates k v } }

theorem setRate_get (s : State) (k : Nat) (v : Option Nat) : tget none (setRate s k v).cls.rates k = v :=
  tget_tset_same (V := Option Nat) none s.cls.rates k v

theorem setRate_get_other (s : State) {k j : Nat} (v : Option Nat) (h : j ≠ k) : tget none (setRate s k v).cls.rates j = tget none s.cls.rates j :=
  tget_tset_other (V := Option Nat) none s.cls.rates v h

theorem markRate_set (s : State) (m : Nat) {c : Nat} (h : c ≠ 15) :
    markRate s m c = setRate s (bucketKey m c) (some (max (rateMin s c) (rateOf s m c / 2))) := if_neg h

theorem markRate_keeps (s : State) (m c : Nat) : ClsOnly s (markRate s m c) ∧ (markRate s m c).cls.arbs = s.cls.arbs ∧
    (∀ k, k ≠ bucketKey m c → tget none (markRate s m c).cls.rates k = tget none s.cls.rates k) := by
  unfold markRate
  split
  · exact ⟨by unfold ClsOnly; rfl, rfl, fun _ _ => rfl⟩
  · exact ⟨by unfold ClsOnly; rfl, rfl, fun k hk => setRate_get_other s _ hk⟩

theorem ClsOnly.rateMin {s t : State} (h : ClsOnly s t) (c : Nat) : rateMin t c = rateMin s c := by unfold ClsOnly at h; rw [h]; rfl
theorem ClsOnly.rateMax {s t : State} (h : ClsOnly s t) (c : Nat) : rateMax t c = rateMax s c := by unfold ClsOnly at h; rw [h]; rfl

theorem ClsOnly.rateOf {s t : State} (h : ClsOnly s t) {m c : Nat} (hr : tget none t.cls.rates (bucketKey m c) = tget none s.cls.rates (bucketKey m c)) :
    rateOf t m c = rateOf s m c := by
  unfold Machine.rateOf
  rw [hr, h.rateMin, h.rateMax]

theorem nodup_eraseDups {α : Type} [BEq α] [LawfulBEq α] (l : List α) : l.eraseDups.Nodup := by
  induction h : l.length using Nat.strongRecOn generalizing l with
  | _ n ih =>
    cases l with
    | nil => exact List.nodup_nil
    | cons a l =>
      rw [List.eraseDups_cons, List.nodup_cons]
      refine ⟨fun hm => ?_, ih _ (by rw [← h]; exact Nat.lt_succ_of_le (List.length_filter_le ..)) _ rfl⟩
      have := (List.mem_filter.1 (List.mem_eraseDups.1 hm)).2
      simp at this

/-- Marks of the pairs of a list. -/
def markAll (s : State) (l : List (Nat × Nat)) : State := l.foldl (fun s p => markRate s p.1 p.2) s

theorem markAll_keeps (s : State) (l : List (Nat × Nat)) : ClsOnly s (markAll s l) ∧ (markAll s l).cls.arbs = s.cls.arbs := by
  induction l generalizing s with
  | nil => exact ⟨by unfold ClsOnly; rfl, rfl⟩
  | cons p l ih =>
    obtain ⟨h1, h2, -⟩ := markRate_keeps s p.1 p.2
    obtain ⟨k1, k2⟩ := ih (markRate s p.1 p.2)
    exact ⟨h1.trans k1, k2.trans h2⟩

theorem markAll_other {l : List (Nat × Nat)} {p : Nat × Nat} (hp : p.2 < 16) (hb : ∀ q ∈ l, q.2 < 16) (hn : p ∉ l) (s : State) :
    tget none (markAll s l).cls.rates (bucketKey p.1 p.2) = tget none s.cls.rates (bucketKey p.1 p.2) := by
  induction l generalizing s with
  | nil => rfl
  | cons q l ih =>
    obtain ⟨hpq, hpl⟩ := not_or.1 (fun h => hn (List.mem_cons.2 h))
    refine (ih (fun q hq => hb q (List.mem_cons_of_mem _ hq)) hpl (markRate s q.1 q.2)).trans ((markRate_keeps s q.1 q.2).2.2 _ fun he => hpq ?_)
    obtain ⟨h1, h2⟩ := bucketKey_inj hp (hb q List.mem_cons_self) he
    exact Prod.ext h1 h2

/-- Every pair marked has its rate halved once. -/
theorem markAll_rate {l : List (Nat × Nat)} {p : Nat × Nat} (hp : p ∈ l) (hb : ∀ q ∈ l, q.2 < 16) (hn : l.Nodup) (h15 : p.2 ≠ 15) (s : State) :
    tget none (markAll s l).cls.rates (bucketKey p.1 p.2) = some (max (rateMin s p.2) (rateOf s p.1 p.2 / 2)) := by
  induction l generalizing s with
  | nil => exact absurd hp (List.not_mem_nil)
  | cons q l ih =>
    obtain ⟨hql, hnl⟩ := List.nodup_cons.1 hn
    have hbl : ∀ q ∈ l, q.2 < 16 := fun q hq => hb q (List.mem_cons_of_mem _ hq)
    obtain ⟨h1, -, h3⟩ := markRate_keeps s q.1 q.2
    rcases List.mem_cons.1 hp with rfl | hpl
    · refine (markAll_other (hb p List.mem_cons_self) hbl hql (markRate s p.1 p.2)).trans ?_
      rw [markRate_set s p.1 h15]
      exact setRate_get ..
    · have hne : bucketKey p.1 p.2 ≠ bucketKey q.1 q.2 := fun he => hql <| by
        obtain ⟨e1, e2⟩ := bucketKey_inj (hb p hp) (hb q List.mem_cons_self) he
        rw [← Prod.ext e1 e2]; exact hpl
      refine (ih hpl hbl hnl (markRate s q.1 q.2)).trans ?_
      rw [h1.rateMin, h1.rateOf (h3 _ hne)]

/-- The ClassesShareTheArbiters clause of MARK. -/
theorem mark_halves {s : State} {a : ArbiterId}
    (hhot : ∃ c, c < 15 ∧ (s.arb (arbNum a)).queue.any (fun r => r.cls == c) = true ∧ level s (s.arb (arbNum a)) c = 7)
    (hdue : ∀ g, (s.arb (arbNum a)).mark = some g → g + 256 ≤ (s.arb (arbNum a)).grants) (hb : ∀ p ∈ (s.arb (arbNum a)).recent, p.2 < 16) :
    ∃ t, exec (.mark a) s = .next t ∧ ClsOnly s t ∧ (t.arb (arbNum a)).mark = some (s.arb (arbNum a)).grants ∧
      ∀ p ∈ (s.arb (arbNum a)).recent, p.2 ≠ 15 → level s (s.arb (arbNum a)) p.2 ≤ 2 →
        tget none t.cls.rates (bucketKey p.1 p.2) = some (max (rateMin s p.2) (rateOf s p.1 p.2 / 2)) := by
  let x := s.arb (arbNum a)
  let hit := (x.recent.filter (fun p => decide (level s x p.2 ≤ 2))).eraseDups
  have hh : (List.range 15).any (fun c => x.queue.any (fun r => r.cls == c) && level s x c == 7) = true := by
    obtain ⟨c, hc, h1, h2⟩ := hhot
    exact List.any_eq_true.2 ⟨c, List.mem_range.2 hc, Bool.and_eq_true_iff.2 ⟨h1, beq_iff_eq.2 h2⟩⟩
  have he : exec (.mark a) s = .next ((markAll s hit).setArb (arbNum a) { x with mark := some x.grants }) := by
    show execMark a s = _
    unfold execMark
    dsimp only
    cases hmk : (s.arb (arbNum a)).mark with
    | none => rw [hh, if_neg (by simp)]; rfl
    | some g =>
      dsimp only
      rw [hh, if_neg (by simpa using hdue g hmk)]; rfl
  refine ⟨_, he, (markAll_keeps s hit).1.trans (setArb_cls ..), ?_, fun p hp h15 hl => ?_⟩
  · rw [arb_setArb_same]
  · have hmem : p ∈ hit := List.mem_eraseDups.2 (List.mem_filter.2 ⟨hp, decide_eq_true hl⟩)
    have hbh : ∀ q ∈ hit, q.2 < 16 := fun q hq => hb q (List.mem_filter.1 (List.mem_eraseDups.1 hq)).1
    exact markAll_rate hmem hbh (nodup_eraseDups _) h15 s

theorem rateRecovery_raises (s : State) (m : MasterId) {c : ClassId} (h : c.val ≠ 15) : ∃ t, exec (.rateRecovery m c) s = .next t ∧ ClsOnly s t ∧
    tget none t.cls.rates (bucketKey (masterNum m) c) = some (min (rateMax s c) (rateOf s (masterNum m) c + ceilDiv (rateMax s c) 8)) :=
  ⟨_, congrArg Host.Outcome.next (if_neg h), by unfold ClsOnly; rfl, setRate_get s _ _⟩

theorem latencyWindow_forgets {s : State} {a : ArbiterId} {c : ClassId} (hq : (s.arb (arbNum a)).queue.any (fun r => r.cls == c.val) = false)
    (hw : tget 0 (s.arb (arbNum a)).seen c + 1024 ≤ (s.arb (arbNum a)).slots) : ∃ t, exec (.latencyWindowEmpty a c) s = .next t ∧
      ClsOnly s t ∧ tget [] (t.arb (arbNum a)).waits c = [] ∧ (t.arb (arbNum a)).queue = (s.arb (arbNum a)).queue := by
  have hc : ¬ ((s.arb (arbNum a)).queue.any (fun r => r.cls == c.val) = true ∨ (s.arb (arbNum a)).slots < tget 0 (s.arb (arbNum a)).seen c + 1024) := by
    rw [hq]; simp only [Bool.false_eq_true, false_or]; omega
  refine ⟨_, congrArg Host.Outcome.next (if_neg hc), setArb_cls .., ?_, ?_⟩
  · rw [arb_setArb_same]; exact tget_tset_same [] (s.arb (arbNum a)).waits c.val []
  · rw [arb_setArb_same]

theorem classSample_counts {s : State} (hr : s.clk.run = true) (hd : ∀ u, s.cls.sampleAt = some u → u + 100 ≤ s.clk.tick) (hs : s.cls.sampled < 100) :
    ∃ t, exec .classSample s = .next t ∧ ClsOnly s t ∧ t.cls.sampled = s.cls.sampled + 1 ∧
      ∀ c, c < 15 → tget 0 t.cls.misses c = tget 0 s.cls.misses c + if s.cls.arbs.any (fun p => inMiss s p.2 c) then 1 else 0 := by
  let misses := (List.range 15).foldl (fun t c => if s.cls.arbs.any (fun p => inMiss s p.2 c) then tset 0 t c (tget 0 t c + 1) else t) s.cls.misses
  have he : exec .classSample s = .next { s with cls := { s.cls with misses := misses, sampled := s.cls.sampled + 1, sampleAt := some s.clk.tick } } := by
    show execClassSample s = _
    unfold execClassSample
    dsimp only
    cases hat : s.cls.sampleAt with
    | none => rw [if_neg (by simp [hr]; omega)]
    | some u =>
      dsimp only
      have := hd u hat
      rw [if_neg (by simp [hr]; omega)]
  refine ⟨_, he, by unfold ClsOnly; rfl, rfl, fun c hc => ?_⟩
  have hk := tget_foldl_key (d := 0) (key := id) (k := c) (f := fun t c => if s.cls.arbs.any (fun p => inMiss s p.2 c) then tset 0 t c (tget 0 t c + 1) else t)
    (g := fun c v => v + if s.cls.arbs.any (fun p => inMiss s p.2 c) then 1 else 0) (fun t b => ?_) (List.range 15) (by simpa using List.nodup_range) s.cls.misses
  · have hf : (List.range 15).find? (fun a => id a == c) = some c := by
      have hm : c ∈ List.range 15 := List.mem_range.2 hc
      cases hf : (List.range 15).find? (fun a => id a == c) with
      | none => exact absurd (List.find?_eq_none.1 hf c hm) (by simp)
      | some d =>
        have hd : (id d == c) = true := List.find?_some (p := fun a => id a == c) hf
        rw [show d = c from beq_iff_eq.1 hd]
    rw [hf] at hk
    exact hk
  · dsimp only [id]
    by_cases hb : s.cls.arbs.any (fun p => inMiss s p.2 b) = true
    · rw [if_pos hb, if_pos hb]
      split
      · next h => rw [← h]; exact tget_tset_same ..
      · next h => exact tget_tset_other _ _ _ (Ne.symm h)
    · rw [if_neg hb, if_neg hb]
      simp

/-- What the end of an epoch for other classes leaves of a class. -/
structure SameClass (s t : State) (c : Nat) : Prop where
  reg : t.reg (rCreg c) = s.reg (rCreg c)
  misses : tget 0 t.cls.misses c = tget 0 s.cls.misses c
  bad : tget 0 t.cls.bad c = tget 0 s.cls.bad c
  good : tget 0 t.cls.good c = tget 0 s.cls.good c

theorem SameClass.trans {a b d : State} {c : Nat} (h : SameClass a b c) (k : SameClass b d c) : SameClass a d c :=
  ⟨k.reg.trans h.reg, k.misses.trans h.misses, k.bad.trans h.bad, k.good.trans h.good⟩

/-- What the end of an epoch says of a class (R373). -/
def EpochEnds (s t : State) (c : Nat) : Prop :=
  let n := tget 0 s.cls.misses c
  let floor := s.regField (rCreg c) 17 9
  t.regBit (rCreg c) 21 = decide (25 < n) ∧ classDerate t c =
    if floor = 256 then 256
    else if 25 < n ∧ tget 0 s.cls.bad c = 3 then max floor (classDerate s c - 16)
    else if n = 0 ∧ tget 0 s.cls.good c = 7 then min 256 (classDerate s c + 16)
    else classDerate s c

theorem EpochEnds.of_same {s u v t : State} {c : Nat} (h : EpochEnds u v c) (hs : SameClass s u c) (ht : t.reg (rCreg c) = v.reg (rCreg c)) :
    EpochEnds s t c := by
  obtain ⟨h1, h2⟩ := h
  have hd : classDerate u c = classDerate s c := regField_of_reg hs.reg 8 0
  rw [hs.misses] at h1
  rw [hs.misses, hs.bad, hs.good, hd, regField_of_reg hs.reg] at h2
  exact ⟨(regBit_of_reg ht 21).trans h1, (regField_of_reg ht 8 0).trans h2⟩

/-- The epochs' counts of a class, and the derate they lead to. -/
def badRun (s : State) (c : Nat) : Nat := if decide (25 < tget 0 s.cls.misses c) then tget 0 s.cls.bad c + 1 else 0
def goodRun (s : State) (c : Nat) : Nat := if tget 0 s.cls.misses c = 0 then tget 0 s.cls.good c + 1 else 0
def newDerate (s : State) (c : Nat) : Nat :=
  if s.regField (rCreg c) 17 9 = 256 then 256
  else if badRun s c = 4 then max (s.regField (rCreg c) 17 9) (s.regField (rCreg c) 8 0 - 16)
  else if goodRun s c = 8 then min 256 (s.regField (rCreg c) 8 0 + 16) else s.regField (rCreg c) 8 0

/-- The register of a class at the end of an epoch. -/
def epochReg (s : State) (c : Nat) : State :=
  ((s.setField (rCreg c) 8 0 (newDerate s c)).setField (rCreg c) 20 18 (tget 0 s.cls.top c)).setField (rCreg c) 21 21
    (if decide (25 < tget 0 s.cls.misses c) then 1 else 0)

/-- The count of missing epochs. -/
def epochMiss (missing : Bool) (u : State) (c : Nat) : State :=
  if missing then u.setField (rCmiss c) 31 0 (satAdd 0xFFFFFFFF (u.regField (rCmiss c) 31 0) 1) else u

/-- The counts of a class kept. -/
def setRuns (u : State) (c b g : Nat) : State :=
  { u with cls := { u.cls with bad := tset 0 u.cls.bad c b, good := tset 0 u.cls.good c g } }

theorem epochMiss_spec (b : Bool) (u : State) (c : Nat) : (∃ r, epochMiss b u c = { u with regs := r }) ∧
    ∀ off, off ≠ rCmiss c → (epochMiss b u c).reg off = u.reg off := by
  unfold epochMiss
  split
  · exact ⟨⟨_, rfl⟩, fun off h => reg_setField_other _ _ _ _ h⟩
  · exact ⟨⟨_, rfl⟩, fun _ _ => rfl⟩

theorem epochClass_eq (s : State) (c : Nat) : epochClass s c = setRuns (epochMiss (decide (25 < tget 0 s.cls.misses c)) (epochReg s c) c) c
    (if badRun s c = 4 then 0 else badRun s c) (if goodRun s c = 8 then 0 else goodRun s c) := rfl

theorem rCreg_apart {c d : Nat} (h : c ≠ d) : rCreg c ≠ rCreg d ∧ ∀ e, rCreg c ≠ rCmiss e :=
  ⟨by unfold rCreg; omega, fun e => by unfold rCreg rCmiss; omega⟩

theorem setField_only (s : State) (off hi lo v : Nat) : ∃ r, s.setField off hi lo v = { s with regs := r } := ⟨_, rfl⟩

theorem epochReg_only (s : State) (c : Nat) : ∃ r, epochReg s c = { s with regs := r } := by
  unfold epochReg
  obtain ⟨r1, h1⟩ := setField_only s (rCreg c) 8 0 (newDerate s c)
  rw [h1]
  obtain ⟨r2, h2⟩ := setField_only { s with regs := r1 } (rCreg c) 20 18 (tget 0 s.cls.top c)
  rw [h2]
  exact setField_only { s with regs := r2 } ..

/-- The state at the end of a class's epoch, but for its registers. -/
theorem epochClass_spec (s : State) (c : Nat) : ∃ b g, epochClass s c = { s with regs := (epochClass s c).regs, cls := { s.cls with
      bad := tset 0 s.cls.bad c b, good := tset 0 s.cls.good c g } } ∧
    ∀ off, off ≠ rCmiss c → (epochClass s c).reg off = (epochReg s c).reg off := by
  obtain ⟨r, hr⟩ := epochReg_only s c
  obtain ⟨⟨r', hr'⟩, h⟩ := epochMiss_spec (decide (25 < tget 0 s.cls.misses c)) (epochReg s c) c
  rw [epochClass_eq]
  generalize (if badRun s c = 4 then 0 else badRun s c) = b
  generalize (if goodRun s c = 8 then 0 else goodRun s c) = g
  generalize epochMiss (decide (25 < tget 0 s.cls.misses c)) (epochReg s c) c = v at *
  have hv : v = { s with regs := r' } := by rw [hr', hr]
  refine ⟨b, g, ?_, fun off ho => (h off ho)⟩
  rw [hv]
  rfl

theorem epochReg_other (s : State) {c off : Nat} (h : off ≠ rCreg c) : (epochReg s c).reg off = s.reg off :=
  (reg_setField_other _ _ _ _ h).trans ((reg_setField_other _ _ _ _ h).trans (reg_setField_other _ _ _ _ h))

theorem epochClass_other (s : State) {c d : Nat} (h : c ≠ d) : SameClass s (epochClass s d) c := by
  obtain ⟨b, g, he, hr⟩ := epochClass_spec s d
  have hreg := (hr _ ((rCreg_apart h).2 d)).trans (epochReg_other s (rCreg_apart h).1)
  generalize epochClass s d = t at *
  refine ⟨hreg, ?_, ?_, ?_⟩
  · rw [he]
  · rw [he]; exact tget_tset_other _ _ _ h
  · rw [he]; exact tget_tset_other _ _ _ h

theorem epochClass_only (s : State) (c : Nat) : epochClass s c = { s with cls := (epochClass s c).cls, regs := (epochClass s c).regs } := by
  obtain ⟨b, g, he, -⟩ := epochClass_spec s c
  generalize epochClass s c = t at *
  rw [he]

theorem newDerate_lt (s : State) (c : Nat) : newDerate s c < 2 ^ 9 := by
  have h1 : s.regField (rCreg c) 17 9 < 2 ^ 9 := regField_lt ..
  have h2 : s.regField (rCreg c) 8 0 < 2 ^ 9 := regField_lt ..
  unfold newDerate
  split
  · decide
  · split
    · omega
    · split <;> omega

theorem epochReg_bit (s : State) (c : Nat) : (epochReg s c).regBit (rCreg c) 21 = decide (25 < tget 0 s.cls.misses c) :=
  regBit_setBit _ _ (by decide) _

theorem epochReg_derate (s : State) (c : Nat) : (epochReg s c).regField (rCreg c) 8 0 = newDerate s c :=
  (regField_setField_apart _ _ _ (by decide) (by decide) (by decide)).trans ((regField_setField_apart _ _ _ (by decide) (by decide) (by decide)).trans
    ((regField_setField _ _ _ (by decide) (by decide)).trans (Nat.mod_eq_of_lt (newDerate_lt s c))))

theorem newDerate_eq (s : State) (c : Nat) : newDerate s c =
    if s.regField (rCreg c) 17 9 = 256 then 256
    else if 25 < tget 0 s.cls.misses c ∧ tget 0 s.cls.bad c = 3 then max (s.regField (rCreg c) 17 9) (classDerate s c - 16)
    else if tget 0 s.cls.misses c = 0 ∧ tget 0 s.cls.good c = 7 then min 256 (classDerate s c + 16)
    else classDerate s c := by
  have h4 : badRun s c = 4 ↔ 25 < tget 0 s.cls.misses c ∧ tget 0 s.cls.bad c = 3 := by
    unfold badRun
    simp only [decide_eq_true_eq]
    split <;> omega
  have h8 : goodRun s c = 8 ↔ tget 0 s.cls.misses c = 0 ∧ tget 0 s.cls.good c = 7 := by
    unfold goodRun; split <;> omega
  unfold newDerate classDerate
  simp only [h4, h8]

theorem epochClass_ends (s : State) (c : Nat) : EpochEnds s (epochClass s c) c := by
  obtain ⟨b, g, -, hr⟩ := epochClass_spec s c
  have hr := hr (rCreg c) (by unfold rCreg rCmiss; omega)
  exact ⟨(regBit_of_reg hr 21).trans (epochReg_bit s c), (regField_of_reg hr 8 0).trans ((epochReg_derate s c).trans (newDerate_eq s c))⟩

theorem epochs_same {l : List Nat} {c : Nat} (h : c ∉ l) (s : State) : SameClass s (l.foldl epochClass s) c := by
  induction l generalizing s with
  | nil => exact ⟨rfl, rfl, rfl, rfl⟩
  | cons d l ih =>
    obtain ⟨h1, h2⟩ := not_or.1 (fun k => h (List.mem_cons.2 k))
    exact (epochClass_other s h1).trans (ih h2 _)

theorem epochs_only (l : List Nat) (s : State) : l.foldl epochClass s = { s with cls := (l.foldl epochClass s).cls, regs := (l.foldl epochClass s).regs } := by
  induction l generalizing s with
  | nil => rfl
  | cons d l ih =>
    rw [List.foldl_cons, ih, epochClass_only s d]

theorem epochs_end {l : List Nat} {c : Nat} (hn : l.Nodup) (hc : c ∈ l) (s : State) : EpochEnds s (l.foldl epochClass s) c := by
  obtain ⟨l1, l2, rfl⟩ := List.append_of_mem hc
  obtain ⟨-, hn2, hd⟩ := List.nodup_append.1 hn
  have h1 : c ∉ l1 := fun k => hd c k c List.mem_cons_self rfl
  have h2 : c ∉ l2 := (List.nodup_cons.1 hn2).1
  rw [List.foldl_append, List.foldl_cons]
  exact (epochClass_ends (l1.foldl epochClass s) c).of_same (epochs_same h1 s) (epochs_same h2 _).reg

theorem execEpochEnd_eq {s : State} (h : 100 ≤ s.cls.sampled) {u : State} (hu : (List.range 15).foldl epochClass s = u) :
    exec .epochEnd s = .next { u with cls := { u.cls with misses := [], sampled := 0, top := [] } } := by
  subst hu
  exact congrArg Host.Outcome.next (if_neg (Nat.not_lt.2 h))

/-- The ClassesShareTheArbiters clause of EPOCH_END. -/
theorem epochEnd_judges {s : State} (h : 100 ≤ s.cls.sampled) : ∃ t, exec .epochEnd s = .next t ∧ t = { s with cls := t.cls, regs := t.regs } ∧
    t.cls.sampled = 0 ∧ t.cls.misses = [] ∧ ∀ c, c < 15 → EpochEnds s t c := by
  have hends : ∀ c, c < 15 → EpochEnds s ((List.range 15).foldl epochClass s) c := fun c hc => epochs_end List.nodup_range (List.mem_range.2 hc) s
  have honly := epochs_only (List.range 15) s
  generalize hu : (List.range 15).foldl epochClass s = u at *
  refine ⟨_, execEpochEnd_eq h hu, ?_, rfl, rfl, hends⟩
  rw [honly]

/-- Settles O36. -/
theorem classesShareTheArbiters : Obligations.ClassesShareTheArbiters := by
  unfold Obligations.ClassesShareTheArbiters
  intro s
  dsimp only
  refine ⟨fun a cr m r hm hr => ?_, fun a hh hd hb => mark_halves hh hd hb, fun m c hc => rateRecovery_raises s m hc,
    fun a c hq hw => latencyWindow_forgets hq hw, fun hr hd hs => classSample_counts hr hd hs, fun hs => epochEnd_judges hs⟩
  have hg := arbiter_grants hm hr
  dsimp only at hg
  obtain ⟨h1, h2, h3, h4, h5, h6⟩ := hg
  refine ⟨⟨_, rfl, h1, h2, h3, h4, h5, h6⟩, fun hm2 hrot hq => ?_, fun v hv => ?_⟩
  · rw [if_neg (by omega), pickClass_top (fun h0 => hrot ⟨hm2, h0⟩) hq] at hr
    exact pickReq_class hr
  · have he : exec (.arbiterGrant a cr [v]) s = .next (arbArrive (arbNum a) (arbSlot s (arbNum a) (fun m => nbit cr m)) v) := rfl
    rw [arbArrive_joins _ _ v hv] at he
    refine ⟨_, he, ClsOnly.trans h1 (setArb_cls ..), ?_⟩
    rw [arb_setArb_same, h2, h4]

end Sys2Proof.Machine
end

section
/-! SUPPORT. Overdue groups, joins that time out and split barriers (R114, R123, R140). -/
namespace Sys2Proof.Machine

/-! ## Joins -/

/-- Threads listed once each are changed once. -/
theorem thr_modThrs_nodup (gr : Group) {ts : List Nat} (hn : ts.Nodup) (f : Nat → Thread → Thread) (u : Nat) :
    thr (modThrs gr ts f) u = if u ∈ ts then f u (thr gr u) else thr gr u := by
  induction ts generalizing gr with
  | nil => rfl
  | cons t ts ih =>
    obtain ⟨ht, hts⟩ := List.nodup_cons.1 hn
    have h : modThrs gr (t :: ts) f = modThrs (modThr gr t (f t)) ts f := rfl
    rw [h, ih _ hts, thr_modThr]
    by_cases hu : u = t
    · subst hu
      rw [if_neg ht, if_pos rfl, if_pos List.mem_cons_self]
    · simp [hu]

theorem liveThreads_nodup (gr : Group) : (liveThreads gr).Nodup := List.Nodup.filter _ (by decide)

theorem mem_liveThreads {gr : Group} {u : Nat} (hu : u < 32) (h : (thr gr u).live = true) : u ∈ liveThreads gr :=
  List.mem_filter.2 ⟨by simpa [allThreads] using hu, h⟩

theorem modThrs_joins (gr : Group) (ts : List Nat) (f : Nat → Thread → Thread) : (modThrs gr ts f).joins = gr.joins := by
  induction ts generalizing gr with
  | nil => rfl
  | cons t ts ih => exact ih (modThr gr t (f t))

theorem joinMark_joins (gr : Group) : (joinMark gr).joins = gr.joins := by
  unfold joinMark
  split
  · rfl
  · exact modThrs_joins ..

theorem joinStack_length (gr : Group) : (joinStack gr).length = gr.joins.length := by simp [joinStack]

theorem joinPop_joins (gr : Group) (d : Nat) : (joinPop gr d).joins = ((joinStack gr).filter (fun e => e.1 != d)).map (·.2) := modThrs_joins ..

theorem joinPop_le (gr : Group) (d : Nat) : (joinPop gr d).joins.length ≤ gr.joins.length := by
  rw [joinPop_joins, List.length_map, ← joinStack_length]
  exact List.length_filter_le ..

theorem joinPop_lt {gr : Group} {d : Nat} (h : d < gr.joins.length) : (joinPop gr d).joins.length < gr.joins.length := by
  rw [joinPop_joins, List.length_map, ← joinStack_length]
  have hl : d < gr.joins.reverse.length := by simpa using h
  have hm : (d, gr.joins.reverse[d]) ∈ joinStack gr := by
    unfold joinStack
    rw [List.mem_reverse, List.mem_map]
    exact ⟨(gr.joins.reverse[d], d), List.mem_zipIdx_iff_getElem?.2 (List.getElem?_eq_getElem hl), rfl⟩
  exact List.length_filter_lt_length_iff_exists.2 ⟨_, hm, by simp⟩

theorem joinSettle_le (n : Nat) (gr : Group) : (joinSettle n gr).joins.length ≤ gr.joins.length := by
  induction n generalizing gr with
  | zero => exact Nat.le_refl _
  | succ n ih =>
    rw [joinSettle]
    split
    · exact (ih _).trans ((joinPop_le ..).trans (Nat.le_of_eq (congrArg _ (joinMark_joins gr))))
    · exact Nat.le_of_eq (congrArg _ (joinMark_joins gr))

theorem normGroup_le (gr : Group) : (normGroup gr).joins.length ≤ gr.joins.length :=
  joinSettle_le 9 { gr with sets := gr.sets.flatMap (splitSet gr) }

/-- Without joins, a group that settles keeps its threads. -/
theorem joinSettle_none (n : Nat) {gr : Group} (h : gr.joins = []) : joinSettle n gr = gr := by
  cases n with
  | zero => rfl
  | succ n =>
    have hs : joinStack gr = [] := by unfold joinStack; rw [h]; rfl
    have hm : joinMark gr = gr := by unfold joinMark; rw [hs]
    rw [joinSettle]
    rw [hm, hs]
    rfl

theorem normGroup_none {gr : Group} (h : gr.joins = []) : (normGroup gr).joins = [] ∧ ∀ u, thr (normGroup gr) u = thr gr u := by
  have hs : joinSettle 9 { gr with sets := gr.sets.flatMap (splitSet gr) } = { gr with sets := gr.sets.flatMap (splitSet gr) } := joinSettle_none 9 h
  unfold normGroup
  dsimp only
  rw [hs]
  exact ⟨h, fun _ => rfl⟩

theorem joinLeft_goes {t : Thread} {d : Nat} (h : atJoin d t.block = true) : (joinLeft d t).block = .no := by
  unfold atJoin at h
  unfold joinLeft
  split at h
  · next n e he => rw [if_pos (beq_iff_eq.1 h)]
  · exact absurd h nofun

/-- The GroupsWaitAndSplit clause of JOIN_TIMEOUT. -/
theorem joinTimeout_pops {s : State} {c : CoreId} {g : Fin 16} {th : Fin 32} {n d : Nat} (hb : (thrOf s c g th).block = .join n d) (hn : 1024 ≤ n) :
    ∃ t, exec (.joinTimeout c g th) s = .next t ∧
      t = { s with cores := t.cores } ∧ (∀ d, d ≠ c.val → t.core d = s.core d) ∧
      (d < (grpOf s c g).joins.length → (grpOf t c g).joins.length < (grpOf s c g).joins.length) ∧
      (∀ j, (grpOf s c g).joins = [j] → d = 0 → (grpOf t c g).joins = [] ∧
        ∀ u, u < 32 → (thrOf s c g u).live = true → atJoin 0 (thrOf s c g u).block = true → (thrOf t c g u).block = .no) := by
  have he : exec (.joinTimeout c g th) s = .next (s.modGrp c g (fun gr => normGroup (joinPop gr d))) := by
    show execJoinTimeout c g th s = _
    unfold execJoinTimeout
    have hb : (thr (grp (s.core c) g) th).block = .join n d := hb
    rw [hb]
    exact congrArg Host.Outcome.next (if_pos hn)
  have hg : grpOf (s.modGrp c g (fun gr => normGroup (joinPop gr d))) c g = normGroup (joinPop (grpOf s c g) d) := by
    rw [grpOf_modGrp, if_pos rfl]
  obtain ⟨h1, h2⟩ := modGrp_onlyCore s c g (fun gr => normGroup (joinPop gr d))
  refine ⟨_, he, h1, h2, fun hd => ?_, fun j hj h0 => ?_⟩
  · rw [hg]
    exact (normGroup_le _).trans_lt (joinPop_lt hd)
  · subst h0
    have hp : (joinPop (grpOf s c g) 0).joins = [] := by
      rw [joinPop_joins, joinStack, hj]; rfl
    obtain ⟨k1, k2⟩ := normGroup_none hp
    rw [hg]
    refine ⟨k1, fun u hu hl ha => ?_⟩
    rw [thrOf, hg, k2, joinPop, thr_modThrs_nodup _ (liveThreads_nodup _), if_pos (mem_liveThreads hu hl)]
    exact joinLeft_goes ha

/-! ## Split barriers (R123, R140) -/

theorem stopTask_judged {k : Task} {tick : Nat} (hf : k.fault = none) (hj : k.judged tick = true) (st : Stop) (r : FaultRec) :
    stopTask tick k st r = { k with fault := some r, stop := some st, stopAt := tick } := by
  unfold stopTask; rw [hf]; exact if_pos hj

theorem raiseFault_first {s : State} {c : Nat} {r : FaultRec} (hr : r.cause ≠ cPOISONED) (h : replayFirst s c = true) : raiseFault s c r = s := by
  unfold raiseFault; rw [if_neg hr, if_pos h]

theorem raiseFault_stops {s : State} {c : Nat} {r : FaultRec} {k : Task} (hr : r.cause ≠ cPOISONED) (h : replayFirst s c = false)
    (hk : coreTask s c = some k) (hf : k.fault = none) (hj : k.judged s.clk.tick = true) :
    coreTask (raiseFault s c r) c = some { k with fault := some r, stop := some ⟨stFAULTED, r.cause⟩, stopAt := s.clk.tick } := by
  unfold raiseFault
  rw [if_neg hr, if_neg (by rw [h]; decide), coreTask_modCoreTask _ hk, stopTask_judged hf hj]

theorem raiseFault_mem (s : State) (c : Nat) {r : FaultRec} (hr : r.cause ≠ cPOISONED) : (raiseFault s c r).mem = s.mem := by
  obtain ⟨ts, h⟩ := raiseFault_tasks s c hr
  rw [h]

/-- The group and the threads that a split barrier is judged over. -/
def splitScope (s : State) (c : Nat) : BarScope → Nat × List (Nat × Nat)
  | .group h => (1, (liveThreads (grp (s.core c) h)).map (fun u => (h.val, u)))
  | .task => (2, coreLive (s.core c))

/-- The record of a split barrier names no thread. -/
def splitRec (s : State) (c : Nat) (ts : List (Nat × Nat)) : FaultRec :=
  { threadRec s c (match ts with | [] => 0 | p :: _ => p.1) 0xFF 0 3 ⟨cBARRIER_SPLIT, 0, 0⟩ with thread := 0xFF }

theorem barrierSplit_raises {s : State} {c : CoreId} {scope : BarScope} (hj : coreJudged s c = true)
    (hs : splitCond s c (splitScope s c scope).1 (splitScope s c scope).2 = true) :
    ∃ r, exec (.barrierSplit c scope) s = .next (raiseFault s c r) ∧ r.cause = cBARRIER_SPLIT ∧ r.thread = 0xFF := by
  cases scope with
  | group h => exact ⟨_, congrArg Host.Outcome.next (if_pos ⟨hj, hs⟩), rfl, rfl⟩
  | task => exact ⟨_, congrArg Host.Outcome.next (if_pos ⟨hj, hs⟩), rfl, rfl⟩

/-- Settles O40. -/
theorem groupsWaitAndSplit : Obligations.GroupsWaitAndSplit := by
  unfold Obligations.GroupsWaitAndSplit
  intro s c g
  refine ⟨fun h1 h2 => ?_, fun th n d hb hn => joinTimeout_pops hb hn, fun scope k hj hk hf hs => ?_⟩
  · obtain ⟨k1, k2⟩ := modGrp_onlyCore s c g (fun gr => { gr with overdue := true })
    refine ⟨_, congrArg Host.Outcome.next (if_pos ⟨h1, h2⟩), ?_, fun h hne => ?_, k1, k2⟩
    · exact (grpOf_modGrp ..).trans (if_pos rfl)
    · exact (grpOf_modGrp ..).trans (if_neg hne)
  · have hs : splitCond s c (splitScope s c scope).1 (splitScope s c scope).2 = true := by
      cases scope <;> exact hs
    obtain ⟨r, he, hc, hthr⟩ := barrierSplit_raises hj hs
    have hne : r.cause ≠ cPOISONED := by rw [hc]; decide
    have hjk : k.judged s.clk.tick = true := by
      unfold coreJudged at hj
      rw [hk] at hj
      exact (Bool.and_eq_true_iff.1 hj).2
    refine ⟨fun hr => he.trans (congrArg _ (raiseFault_first hne hr)), fun hr => ?_⟩
    exact ⟨_, _, r, he, raiseFault_mem s c hne, raiseFault_stops hne hr hk hf hjk, by rw [hc], rfl, rfl, hc, hthr⟩

end Sys2Proof.Machine
end

section
/-! SUPPORT. Bundles: parity errors, tests and the repair ladder (R39 to R46). -/
namespace Sys2Proof.Machine

/-! ## What repairs of bundles touch -/

/-- Nothing but the vertical state, the lists of repairs, registers, the log, interrupt messages and what is sent differs; of the
bundles at most one, and no repair waits or pauses otherwise than before. -/
structure Repairs (s t : State) (k : Nat) : Prop where
  only : t = { s with
    vert := t.vert, regs := t.regs, ras := t.ras, msix := t.msix, out := t.out
    ecc := { s.ecc with repairs := t.ecc.repairs, held := t.ecc.held } }
  other : ∀ j, j ≠ k → t.bundle j = s.bundle j
  queue : t.vert.queue = s.vert.queue
  pausing : t.vert.pausing = s.vert.pausing

theorem Repairs.rfl {s : State} {k : Nat} : Repairs s s k := ⟨Eq.refl _, fun _ _ => Eq.refl _, Eq.refl _, Eq.refl _⟩

theorem Repairs.trans {a b c : State} {k : Nat} (h : Repairs a b k) (g : Repairs b c k) : Repairs a c k :=
  ⟨by rw [g.only, h.only], fun j hj => (g.other j hj).trans (h.other j hj), g.queue.trans h.queue, g.pausing.trans h.pausing⟩

theorem Repairs.still {s t : State} {k : Nat} (h : Repairs s t k) : Still s t := by
  rw [h.only]; exact ⟨⟨Eq.refl _, Eq.refl _, Eq.refl _, Eq.refl _⟩, Eq.refl _⟩

/-- What leaves every bundle, the queue and the pause is a repair of any bundle. -/
theorem LogsOnly.repairs {s t : State} (h : LogsOnly s t) (k : Nat) : Repairs s t k ∧ t.bundle k = s.bundle k := by
  unfold LogsOnly at h
  rw [h]
  exact ⟨⟨Eq.refl _, fun _ _ => Eq.refl _, Eq.refl _, Eq.refl _⟩, Eq.refl _⟩

theorem bundle_modBundle_same (s : State) (k : Nat) (f : Bundle → Bundle) : (s.modBundle k f).bundle k = f (s.bundle k) := tget_tset_same ..
theorem bundle_modBundle_other (s : State) {k j : Nat} (f : Bundle → Bundle) (h : j ≠ k) : (s.modBundle k f).bundle j = s.bundle j :=
  tget_tset_other _ _ _ h

theorem modBundle_repairs (s : State) (k : Nat) (f : Bundle → Bundle) : Repairs s (s.modBundle k f) k :=
  ⟨rfl, fun _ h => bundle_modBundle_other s f h, rfl, rfl⟩

/-- Nothing but registers differs. -/
def RegsOnly (s t : State) : Prop := t = { s with regs := t.regs }

theorem RegsOnly.rfl {s : State} : RegsOnly s s := Eq.refl _
theorem RegsOnly.trans {a b c : State} (h : RegsOnly a b) (k : RegsOnly b c) : RegsOnly a c := by unfold RegsOnly at *; rw [k, h]
theorem RegsOnly.logsOnly {s t : State} (h : RegsOnly s t) : LogsOnly s t := by unfold RegsOnly at h; unfold LogsOnly; rw [h]
theorem RegsOnly.ras {s t : State} (h : RegsOnly s t) : t.ras = s.ras := by unfold RegsOnly at h; rw [h]
theorem RegsOnly.ecc {s t : State} (h : RegsOnly s t) : t.ecc = s.ecc := by unfold RegsOnly at h; rw [h]
theorem RegsOnly.vert {s t : State} (h : RegsOnly s t) : t.vert = s.vert := by unfold RegsOnly at h; rw [h]
theorem setField_regsOnly (s : State) (o hi lo v : Nat) : RegsOnly s (s.setField o hi lo v) := Eq.refl _

/-- A refresh of a tower's summary writes its three registers. -/
theorem refreshTower_regsOnly (s : State) (t : Nat) : RegsOnly s (refreshTower s t) :=
  (setField_regsOnly ..).trans ((setField_regsOnly ..).trans ((setField_regsOnly ..).trans ((setField_regsOnly ..).trans
    ((setField_regsOnly ..).trans ((setField_regsOnly ..).trans (setField_regsOnly ..))))))

theorem refreshTower_logsOnly (s : State) (t : Nat) : LogsOnly s (refreshTower s t) := (refreshTower_regsOnly s t).logsOnly

theorem refreshTower_reg (s : State) (t : Nat) {off : Nat} (h : off ≠ twrBase t ∧ off ≠ twrBase t + 4 ∧ off ≠ twrBase t + 8) :
    (refreshTower s t).reg off = s.reg off := by
  obtain ⟨h0, h4, h8⟩ := h
  unfold refreshTower
  dsimp only
  rw [reg_setField_other _ _ _ _ h8, reg_setField_other _ _ _ _ h8, reg_setField_other _ _ _ _ h4, reg_setField_other _ _ _ _ h4,
    reg_setField_other _ _ _ _ h0, reg_setField_other _ _ _ _ h0, reg_setField_other _ _ _ _ h0]

theorem addRepair_spec (s : State) (r : Nat × Nat × Nat) (k : Nat) : Repairs s (addRepair s r) k ∧ (addRepair s r).bundle k = s.bundle k ∧
    (addRepair s r).ras = s.ras ∧ (∀ off, off ≠ rWstat → (addRepair s r).reg off = s.reg off) ∧ Recorded s (addRepair s r) r := by
  unfold addRepair Recorded
  split
  · exact ⟨⟨rfl, fun _ _ => rfl, rfl, rfl⟩, rfl, rfl, fun _ _ => rfl, rfl⟩
  · exact ⟨⟨rfl, fun _ _ => rfl, rfl, rfl⟩, rfl, rfl, fun _ h => reg_setField_other _ _ _ _ h, rfl⟩

theorem beginBankRetire_repairs (s : State) (tb k : Nat) : Repairs s (beginBankRetire s tb) k ∧ (beginBankRetire s tb).bundle k = s.bundle k := by
  unfold beginBankRetire
  split
  · exact ⟨.rfl, rfl⟩
  · obtain ⟨h1, h2⟩ := (refreshTower_logsOnly { s with vert := { s.vert with retiring := s.vert.retiring ++ [(tb, false)] } } (tb / 512)).repairs k
    have h0 : Repairs s { s with vert := { s.vert with retiring := s.vert.retiring ++ [(tb, false)] } } k := ⟨rfl, fun _ _ => rfl, rfl, rfl⟩
    exact ⟨h0.trans h1, h2⟩

theorem groupRetire_repairs (s : State) (j k : Nat) (training : Bool) :
    Repairs s (groupRetire s j training) k ∧ (groupRetire s j training).bundle k = s.bundle k := by
  unfold groupRetire
  dsimp only
  split
  · exact ⟨.rfl, rfl⟩
  · let u : State := { s with vert := { s.vert with out := insNat (groupKey (keyBank j) (keyLayer j) (keyGroup j)) s.vert.out } }
    have h0 : Repairs s u k := ⟨rfl, fun _ _ => rfl, rfl, rfl⟩
    have hl : ∀ e, LogsOnly u (rasLogT (refreshTower u (keyTower j)) e training) := fun e => (refreshTower_logsOnly ..).trans (rasLogT_logsOnly ..)
    obtain ⟨h1, h2⟩ := (hl (logEv 0x0105 (unitOf 6 (keyBank j)) ((refreshTower u (keyTower j)).reg (twrBase (keyTower j) + 8)).toNat)).repairs k
    generalize hv : rasLogT (refreshTower u (keyTower j)) (logEv 0x0105 (unitOf 6 (keyBank j)) ((refreshTower u (keyTower j)).reg (twrBase (keyTower j) + 8)).toNat) training = v at *
    have hb := beginBankRetire_repairs v (keyBank j) k
    show Repairs s (if groupOut v (keyBank j) (keyLayer j) (1 - keyGroup j) then beginBankRetire v (keyBank j) else v) k ∧
      (if groupOut v (keyBank j) (keyLayer j) (1 - keyGroup j) then beginBankRetire v (keyBank j) else v).bundle k = s.bundle k
    split
    · exact ⟨h0.trans (h1.trans hb.1), hb.2.trans h2⟩
    · exact ⟨h0.trans h1, h2⟩

/-! ## The ladder (R40, R45) -/

theorem ladderStep_keeps (b : Bundle) (lane : Nat) : (ladderStep b lane).1.found = b.found ∧ (ladderStep b lane).1.testing = b.testing := by
  unfold ladderStep
  dsimp only
  repeat' split
  all_goals exact ⟨rfl, rfl⟩

/-- One lane of the ladder. -/
def ladderLane (k : Nat) (training : Bool) (s : State) (lane : Nat) : State :=
  let (b, ev) := ladderStep (s.bundle k) lane
  let was := (s.bundle k).failed.contains lane
  let s := s.modBundle k (fun _ => b)
  let s := if was then s else addRepair s (4, k, lane)
  match ev with
  | none => s
  | some c =>
    let s := logBundle (refreshTower s (keyTower k)) c k training
    if c = 0x0104 then groupRetire s k training else s

theorem applyLadder_eq (s : State) (k : Nat) (training : Bool) : applyLadder s k training =
    (s.bundle k).found.foldl (ladderLane k training) (refreshTower (s.modBundle k (fun b => { b with found := [] })) (keyTower k)) := rfl

theorem logBundle_logsOnly (s : State) (code k : Nat) (training : Bool) : LogsOnly s (logBundle s code k training) := rasLogT_logsOnly ..

theorem ladderLane_keeps (k : Nat) (training : Bool) (s : State) (lane : Nat) : Repairs s (ladderLane k training s lane) k ∧
    ((ladderLane k training s lane).bundle k).found = (s.bundle k).found ∧ ((ladderLane k training s lane).bundle k).testing = (s.bundle k).testing := by
  obtain ⟨hf, ht⟩ := ladderStep_keeps (s.bundle k) lane
  let u := s.modBundle k (fun _ => (ladderStep (s.bundle k) lane).1)
  have hu : Repairs s u k := modBundle_repairs ..
  have hub : u.bundle k = (ladderStep (s.bundle k) lane).1 := bundle_modBundle_same ..
  obtain ⟨v, hv⟩ : ∃ v, v = if (s.bundle k).failed.contains lane then u else addRepair u (4, k, lane) := ⟨_, rfl⟩
  have hvr : Repairs s v k ∧ v.bundle k = u.bundle k := by
    obtain ⟨h1, h2, -⟩ := addRepair_spec u (4, k, lane) k
    rw [hv]
    split
    · exact ⟨hu, rfl⟩
    · exact ⟨hu.trans h1, h2⟩
  have he : ladderLane k training s lane = match (ladderStep (s.bundle k) lane).2 with
      | none => v
      | some c => if c = 0x0104 then groupRetire (logBundle (refreshTower v (keyTower k)) c k training) k training
        else logBundle (refreshTower v (keyTower k)) c k training := by
    rw [hv]; rfl
  have key : Repairs s (ladderLane k training s lane) k ∧ (ladderLane k training s lane).bundle k = u.bundle k := by
    rw [he]
    split
    · exact hvr
    · next c _ =>
      obtain ⟨h1, h2⟩ := ((refreshTower_logsOnly v (keyTower k)).trans (logBundle_logsOnly _ c k training)).repairs k
      split
      · obtain ⟨h3, h4⟩ := groupRetire_repairs (logBundle (refreshTower v (keyTower k)) c k training) k k training
        exact ⟨hvr.1.trans (h1.trans h3), h4.trans (h2.trans hvr.2)⟩
      · exact ⟨hvr.1.trans h1, h2.trans hvr.2⟩
  refine ⟨key.1, ?_, ?_⟩
  · rw [key.2, hub]; exact hf
  · rw [key.2, hub]; exact ht

theorem ladder_keeps (k : Nat) (training : Bool) (l : List Nat) (s : State) : Repairs s (l.foldl (ladderLane k training) s) k ∧
    ((l.foldl (ladderLane k training) s).bundle k).found = (s.bundle k).found ∧
    ((l.foldl (ladderLane k training) s).bundle k).testing = (s.bundle k).testing := by
  induction l generalizing s with
  | nil => exact ⟨.rfl, rfl, rfl⟩
  | cons x l ih =>
    obtain ⟨h1, h2, h3⟩ := ladderLane_keeps k training s x
    obtain ⟨k1, k2, k3⟩ := ih (ladderLane k training s x)
    exact ⟨h1.trans k1, k2.trans h2, k3.trans h3⟩

theorem applyLadder_keeps (s : State) (k : Nat) (training : Bool) : Repairs s (applyLadder s k training) k ∧
    ((applyLadder s k training).bundle k).found = [] ∧ ((applyLadder s k training).bundle k).testing = (s.bundle k).testing := by
  rw [applyLadder_eq]
  let u := s.modBundle k (fun b => { b with found := [] })
  have hu : Repairs s u k := modBundle_repairs ..
  have hub : u.bundle k = { s.bundle k with found := [] } := bundle_modBundle_same ..
  obtain ⟨h1, h2⟩ := (refreshTower_logsOnly u (keyTower k)).repairs k
  obtain ⟨h3, h4, h5⟩ := ladder_keeps k training (s.bundle k).found (refreshTower u (keyTower k))
  refine ⟨hu.trans (h1.trans h3), h4.trans ?_, h5.trans ?_⟩
  · rw [h2, hub]
  · rw [h2, hub]

/-- The first failed data lane of a bundle takes spare lane 32. -/
theorem ladderStep_first {b : Bundle} {lane : Nat} (hl : lane < 32) (hb : b = { Bundle.fresh with errs := b.errs, hist := b.hist }) :
    ladderStep b lane = ({ b with failed := [lane], s32 := lane }, some 0x0101) := by
  have hf : b.failed = [] ∧ b.retired = false ∧ b.half = false ∧ b.s32 = 0x3F ∧ b.s33 = 0x3F := by rw [hb]; exact ⟨rfl, rfl, rfl, rfl, rfl⟩
  obtain ⟨h1, h2, h3, h4, h5⟩ := hf
  have hlen : ([lane].filter (fun x => decide (x < 35))).length = 1 := by
    rw [List.filter_cons_of_pos (by simp; omega)]; rfl
  have k1 : ¬ 35 ≤ lane := by omega
  have k2 : lane ≠ 32 ∧ lane ≠ 33 ∧ lane ≠ 63 := by omega
  obtain ⟨k2, k3, k4⟩ := k2
  unfold ladderStep
  simp only [h1, h2, h3, h4, h5, insNat, List.contains_nil, Bool.false_eq_true, or_self, if_false, k1, hlen, k2, k3, k4]
  simp [Ne.symm k2]

theorem logBundle_logged (s : State) {code : Nat} (k : Nat) (h : code < 2 ^ 16) : Logged s (logBundle s code k false) code :=
  rasLog_logged s (logEv code (unitOf 5 k) (bstat s k)) h

theorem rLogHead_apart (t : Nat) : rLogHead ≠ twrBase t ∧ rLogHead ≠ twrBase t + 4 ∧ rLogHead ≠ twrBase t + 8 := by
  unfold rLogHead twrBase; omega

theorem rWstat_apart (t : Nat) : rWstat ≠ twrBase t ∧ rWstat ≠ twrBase t + 4 ∧ rWstat ≠ twrBase t + 8 := by
  unfold rWstat twrBase; omega

theorem Recorded.of_same {s u t : State} {r : Nat × Nat × Nat} (h : Recorded u t r) (hecc : u.ecc = s.ecc) (hw : u.reg rWstat = s.reg rWstat) : Recorded s t r := by
  have hf : flashOpen u = flashOpen s := regBit_of_reg hw 3
  unfold Recorded at *
  rwa [hf, hecc] at h

theorem Recorded.of_ecc {s u t : State} {r : Nat × Nat × Nat} (h : Recorded s u r) (hecc : t.ecc = u.ecc) : Recorded s t r := by
  unfold Recorded at *
  rwa [hecc]

theorem LogsOnly.ecc {s t : State} (h : LogsOnly s t) : t.ecc = s.ecc := by unfold LogsOnly at h; rw [h]

/-- What one lane does whose first failure the ladder answers with a spare. -/
theorem ladderLane_first {v : State} {k lane : Nat} {b0 b1 : Bundle} (hv : v.bundle k = b0) (hstep : ladderStep b0 lane = (b1, some 0x0101))
    (hfail : b0.failed = []) : ladderLane k false v lane =
      logBundle (refreshTower (addRepair (v.modBundle k (fun _ => b1)) (4, k, lane)) (keyTower k)) 0x0101 k false := by
  unfold ladderLane
  rw [hv, hstep, hfail]
  exact if_neg (by decide)

/-- What a repair of one lane leaves of the bundle and the log. -/
theorem firstRepair_spec {s v : State} {k lane : Nat} {b1 : Bundle} (hras : v.ras = s.ras) (hecc : v.ecc = s.ecc)
    (hhead : v.reg rLogHead = s.reg rLogHead) (hwin : v.reg rWstat = s.reg rWstat) :
    let t := logBundle (refreshTower (addRepair (v.modBundle k (fun _ => b1)) (4, k, lane)) (keyTower k)) 0x0101 k false
    t.bundle k = b1 ∧ Logged s t 0x0101 ∧ Recorded s t (4, k, lane) := by
  intro t
  obtain ⟨-, h2, h3, h4, h5⟩ := addRepair_spec (v.modBundle k (fun _ => b1)) (4, k, lane) k
  generalize hw : addRepair (v.modBundle k (fun _ => b1)) (4, k, lane) = w at h2 h3 h4 h5
  have ht : t = logBundle (refreshTower w (keyTower k)) 0x0101 k false := by rw [← hw]
  have hwb : w.bundle k = b1 := h2.trans (bundle_modBundle_same ..)
  have hr := refreshTower_regsOnly w (keyTower k)
  have hh := refreshTower_reg w (keyTower k) (rLogHead_apart (keyTower k))
  generalize refreshTower w (keyTower k) = x at hr hh ht
  have hlogs : LogsOnly w t := by rw [ht]; exact hr.logsOnly.trans (logBundle_logsOnly ..)
  have hl : Logged x t 0x0101 := by rw [ht]; exact logBundle_logged x k (by decide)
  refine ⟨(hlogs.repairs k).2.trans hwb, hl.of_same ?_ ?_, (h5.of_ecc hlogs.ecc).of_same hecc hwin⟩
  · exact hr.ras.trans (h3.trans hras)
  · exact hh.trans ((h4 _ (by decide)).trans hhead)

/-- The first failed data lane is repaired with spare lane 32, recorded and logged. -/
theorem applyLadder_first {s : State} {k lane : Nat} (hl : lane < 32)
    (hb : s.bundle k = { Bundle.fresh with found := [lane], errs := (s.bundle k).errs, hist := (s.bundle k).hist }) :
    ((applyLadder s k false).bundle k).s32 = lane ∧ ((applyLadder s k false).bundle k).failed = [lane] ∧
      ((applyLadder s k false).bundle k).half = false ∧ Logged s (applyLadder s k false) 0x0101 ∧ Recorded s (applyLadder s k false) (4, k, lane) := by
  have hfound : (s.bundle k).found = [lane] := by rw [hb]
  have hhalf : (s.bundle k).half = false := by rw [hb]; rfl
  have hfail : (s.bundle k).failed = [] := by rw [hb]; rfl
  have hstep := ladderStep_first hl (congrArg (fun b : Bundle => { b with found := [] }) hb)
  obtain ⟨u, hu⟩ : ∃ u, u = s.modBundle k (fun b => { b with found := [] }) := ⟨_, rfl⟩
  have hub : u.bundle k = { s.bundle k with found := [] } := by rw [hu]; exact bundle_modBundle_same ..
  have hur : u.ras = s.ras ∧ u.ecc = s.ecc ∧ ∀ off, u.reg off = s.reg off := by rw [hu]; exact ⟨rfl, rfl, fun _ => rfl⟩
  obtain ⟨hras, hecc, hreg⟩ := hur
  have hladder : applyLadder s k false = ladderLane k false (refreshTower u (keyTower k)) lane := by rw [applyLadder_eq, hfound, ← hu]; rfl
  have hv := refreshTower_regsOnly u (keyTower k)
  have hvr := fun {off} => refreshTower_reg u (keyTower k) (off := off)
  rw [hladder]
  generalize refreshTower u (keyTower k) = v at hv hvr
  have hvb : v.bundle k = { s.bundle k with found := [] } := by rw [State.bundle, hv.vert]; exact hub
  obtain ⟨hfin, hlog, hrec⟩ := firstRepair_spec (k := k) (lane := lane) (b1 := { s.bundle k with found := [], failed := [lane], s32 := lane })
    (hv.ras.trans hras) (hv.ecc.trans hecc)
    ((hvr (rLogHead_apart _)).trans (hreg _)) ((hvr (rWstat_apart _)).trans (hreg _))
  rw [ladderLane_first hvb hstep hfail]
  rw [hfin]
  exact ⟨rfl, rfl, hhalf, hlog, hrec⟩

/-! ## Faults in service (R39, R43, R45) -/

section
variable {s : State} {tw : TowerId} {l : Fin 2} {n : Fin 12288}

/-- The BundlesAreTestedAndRepaired clause of BUNDLE_PARITY_ERROR. -/
theorem parityError_counts (hp : ∀ p, s.vert.pausing = some p → ¬ (keyBank p = keyBank (bundleKey tw l n) ∧ keyGroup p = keyGroup (bundleKey tw l n))) :
    let k := bundleKey tw l n
    let b := s.bundle k
    let recent := fun d => (b.hist.filter (fun u => decide (s.clk.tick < u + d))).length
    ∃ t, exec (.bundleParityError tw l n) s = .next t ∧ (Still s t ∧ ∀ j, j ≠ k → t.bundle j = s.bundle j) ∧
      (1 ≤ recent ticksPerMs ∨ 15 ≤ recent ticksPerSecond → (t.bundle k).testing = true) ∧
      (recent ticksPerMs = 0 → recent ticksPerSecond < 15 → (t.bundle k).testing = b.testing) ∧
      (t.bundle k).hist.length = recent ticksPerSecond + 1 ∧ (t.bundle k).failed = b.failed := by
  intro k b recent
  let h := b.hist.filter (fun t => decide (s.clk.tick < t + ticksPerSecond)) ++ [s.clk.tick]
  let near := (h.filter (fun t => decide (s.clk.tick < t + ticksPerMs))).length
  have he : exec (.bundleParityError tw l n) s = .next (s.modBundle k (fun b => { b with
      hist := h, testing := b.testing || (decide (2 ≤ near) || decide (16 ≤ h.length)) })) := by
    show execBundleParityError tw l n s = _
    unfold execBundleParityError
    dsimp only
    cases hpa : s.vert.pausing with
    | none => rfl
    | some p =>
      have hno : (keyBank p == keyBank (bundleKey tw l n) && keyGroup p == keyGroup (bundleKey tw l n)) = false := by
        have := hp p hpa
        simpa using this
      dsimp only
      rw [hno]
      rfl
  have hlen : h.length = recent ticksPerSecond + 1 := by simp [h, recent]
  have hnear : near = recent ticksPerMs + 1 := by
    have h1 : ∀ u, (decide (s.clk.tick < u + ticksPerMs) && decide (s.clk.tick < u + ticksPerSecond)) = decide (s.clk.tick < u + ticksPerMs) := fun u => by
      have : ticksPerMs ≤ ticksPerSecond := by decide
      by_cases hu : s.clk.tick < u + ticksPerMs
      · rw [decide_eq_true hu, decide_eq_true (by omega)]; rfl
      · rw [decide_eq_false hu]; rfl
    have h2 : decide (s.clk.tick < s.clk.tick + ticksPerMs) = true := decide_eq_true (Nat.lt_add_of_pos_right (by decide))
    show (h.filter _).length = _
    simp only [h, List.filter_append, List.filter_filter, h1, List.filter_cons, h2, if_true, List.filter_nil, List.length_append]
    rfl
  have hbt := bundle_modBundle_same s k (fun b => { b with hist := h, testing := b.testing || (decide (2 ≤ near) || decide (16 ≤ h.length)) })
  have hr := modBundle_repairs s k (fun b => { b with hist := h, testing := b.testing || (decide (2 ≤ near) || decide (16 ≤ h.length)) })
  refine ⟨_, he, ⟨hr.still, hr.other⟩, ?_⟩
  rw [hbt]
  refine ⟨fun hc => ?_, fun h0 h15 => ?_, hlen, rfl⟩
  · have : decide (2 ≤ near) || decide (16 ≤ h.length) := by
      rw [Bool.or_eq_true, decide_eq_true_eq, decide_eq_true_eq, hnear, hlen]; omega
    rw [this, Bool.or_true]
  · have : (decide (2 ≤ near) || decide (16 ≤ h.length)) = false := by
      rw [Bool.or_eq_false_iff, decide_eq_false_iff_not, decide_eq_false_iff_not, hnear, hlen]; omega
    rw [this, Bool.or_false]

/-- The lanes that a test has found, added once each. -/
theorem mem_foundLanes (lanes : List (Fin 39)) (init : List Nat) :
    (∀ x ∈ lanes, x.val ∈ lanes.foldl (fun l x => if l.contains x.val then l else l ++ [x.val]) init) ∧
    ∀ y ∈ init, y ∈ lanes.foldl (fun (l : List Nat) x => if l.contains x.val then l else l ++ [x.val]) init := by
  induction lanes generalizing init with
  | nil => exact ⟨fun x hx => absurd hx List.not_mem_nil, fun y hy => hy⟩
  | cons a l ih =>
    have ha : a.val ∈ (if init.contains a.val then init else init ++ [a.val]) ∧ ∀ y ∈ init, y ∈ (if init.contains a.val then init else init ++ [a.val]) := by
      split
      · next h => exact ⟨List.contains_iff_mem.1 h, fun y hy => hy⟩
      · exact ⟨List.mem_append_right _ (List.mem_singleton_self _), fun y hy => List.mem_append_left _ hy⟩
    obtain ⟨h1, h2⟩ := ih (if init.contains a.val then init else init ++ [a.val])
    refine ⟨fun x hx => ?_, fun y hy => h2 y (ha.2 y hy)⟩
    rcases List.mem_cons.1 hx with rfl | hx
    · exact h2 _ ha.1
    · exact h1 x hx

/-- A bundle whose test has found lanes. -/
def withFound (b : Bundle) (lanes : List (Fin 39)) : Bundle :=
  { b with testing := false, hist := [], found := lanes.foldl (fun l x => if l.contains x.val then l else l ++ [x.val]) b.found }

theorem testComplete_found {lanes : List (Fin 39)} (hl : lanes ≠ []) (h : (s.bundle (bundleKey tw l n)).testing = true ∨ s.vert.pausing = some (bundleKey tw l n)) :
    let k := bundleKey tw l n
    let u := s.modBundle k (fun b => withFound b lanes)
    exec (.bundleTestComplete tw l n lanes) s = .next (if s.vert.pausing = some k then applyLadder u k false
      else if (refreshTower u tw).vert.queue.contains k then refreshTower u tw
        else { refreshTower u tw with vert := { (refreshTower u tw).vert with queue := (refreshTower u tw).vert.queue ++ [k] } }) := by
  intro k u
  refine congrArg Host.Outcome.next ((if_neg fun hc => ?_).trans (if_neg hl))
  obtain ⟨h1, h2⟩ := hc
  rcases h with h | h
  · rw [h] at h1; exact absurd h1 (by decide)
  · exact h2 h

/-- A bundle joins the queue of repairs unless it waits there already. -/
theorem enqueued_spec {v : State} {k : Nat} (hs : Still s v) (ho : ∀ j, j ≠ k → v.bundle j = s.bundle j) :
    let t := if v.vert.queue.contains k then v else { v with vert := { v.vert with queue := v.vert.queue ++ [k] } }
    (Still s t ∧ ∀ j, j ≠ k → t.bundle j = s.bundle j) ∧ k ∈ t.vert.queue ∧ t.bundle k = v.bundle k := by
  intro t
  by_cases hq : v.vert.queue.contains k = true
  · have ht : t = v := if_pos hq
    rw [ht]
    exact ⟨⟨hs, ho⟩, List.contains_iff_mem.1 hq, rfl⟩
  · have ht : t = { v with vert := { v.vert with queue := v.vert.queue ++ [k] } } := if_neg hq
    rw [ht]
    exact ⟨⟨hs, ho⟩, List.mem_append_right _ (List.mem_singleton_self _), rfl⟩

/-- The BundlesAreTestedAndRepaired clause of a test that waits for its pause. -/
theorem testComplete_waits (hb : (s.bundle (bundleKey tw l n)).testing = true) {lanes : List (Fin 39)} (hl : lanes ≠ [])
    (hp : s.vert.pausing ≠ some (bundleKey tw l n)) :
    let k := bundleKey tw l n
    ∃ t, exec (.bundleTestComplete tw l n lanes) s = .next t ∧ (Still s t ∧ ∀ j, j ≠ k → t.bundle j = s.bundle j) ∧
      k ∈ t.vert.queue ∧ (∀ x ∈ lanes, x.val ∈ (t.bundle k).found) ∧ (t.bundle k).testing = false := by
  intro k
  let u := s.modBundle k (fun b => withFound b lanes)
  have hu : Repairs s u k := modBundle_repairs ..
  have hub : u.bundle k = withFound (s.bundle k) lanes := bundle_modBundle_same ..
  obtain ⟨h1, h2⟩ := (refreshTower_logsOnly u tw).repairs k
  have he := testComplete_found (s := s) hl (.inl hb)
  dsimp only at he
  rw [if_neg hp] at he
  have hbun : (refreshTower u tw).bundle k = withFound (s.bundle k) lanes := h2.trans hub
  have hfnd : ∀ x ∈ lanes, x.val ∈ (withFound (s.bundle k) lanes).found := (mem_foundLanes lanes (s.bundle k).found).1
  have hall := hu.trans h1
  obtain ⟨hq1, hq2, hq3⟩ := enqueued_spec (k := k) hall.still hall.other
  exact ⟨_, he, hq1, hq2, by rw [hq3, hbun]; exact hfnd, by rw [hq3, hbun]; rfl⟩

/-- The BundlesAreTestedAndRepaired clause of a test in its own pause. -/
theorem testComplete_repairs {lanes : List (Fin 39)} (hl : lanes ≠ []) (hp : s.vert.pausing = some (bundleKey tw l n)) :
    let k := bundleKey tw l n
    ∃ t, exec (.bundleTestComplete tw l n lanes) s = .next t ∧ (Still s t ∧ ∀ j, j ≠ k → t.bundle j = s.bundle j) ∧
      (t.bundle k).found = [] ∧ (t.bundle k).testing = false := by
  intro k
  have he := testComplete_found (s := s) hl (.inr hp)
  dsimp only at he
  rw [if_pos hp] at he
  have hu := modBundle_repairs s k (fun b => withFound b lanes)
  obtain ⟨h1, h2, h3⟩ := applyLadder_keeps (s.modBundle k (fun b => withFound b lanes)) k false
  have hall := hu.trans h1
  refine ⟨_, he, ⟨hall.still, hall.other⟩, h2, h3.trans ?_⟩
  rw [bundle_modBundle_same]; rfl

/-- The BundlesAreTestedAndRepaired clause of REPAIR_PAUSE_START. -/
theorem repairPause_starts {k : Nat} {q : List Nat} (hq : s.vert.queue = k :: q) (hf : pauseFree s = true) :
    ∃ t, exec .repairPauseStart s = .next t ∧ (Still s t ∧ ∀ j, j ≠ k → t.bundle j = s.bundle j) ∧
      t.vert.pausing = some k ∧ t.vert.queue = q ∧ (t.bundle k).found = [] ∧
      ∀ lane, lane < 32 → s.bundle k = { Bundle.fresh with found := [lane], errs := (s.bundle k).errs, hist := (s.bundle k).hist } →
        (t.bundle k).s32 = lane ∧ (t.bundle k).failed = [lane] ∧ (t.bundle k).half = false ∧ Logged s t 0x0101 ∧ Recorded s t (4, k, lane) := by
  let u : State := { s with vert := { s.vert with queue := q, pausing := some k } }
  have he : exec .repairPauseStart s = .next (applyLadder u k false) := by
    show execRepairPauseStart s = _
    unfold execRepairPauseStart
    rw [hq]
    exact congrArg Host.Outcome.next (if_neg (by rw [hf]; decide))
  have hb : ∀ j, u.bundle j = s.bundle j := fun _ => rfl
  have hu : Still s u := ⟨⟨rfl, rfl, rfl, rfl⟩, rfl⟩
  obtain ⟨h1, h2, h3⟩ := applyLadder_keeps u k false
  refine ⟨_, he, ⟨hu.trans h1.still, fun j hj => (h1.other j hj).trans (hb j)⟩, h1.pausing, h1.queue, h2, fun lane hlt hbun => ?_⟩
  obtain ⟨k1, k2, k3, k4, k5⟩ := applyLadder_first (s := u) (k := k) hlt hbun
  exact ⟨k1, k2, k3, k4.of_same rfl rfl, k5.of_same rfl rfl⟩

end

/-- Settles O30. -/
theorem bundlesAreTestedAndRepaired : Obligations.BundlesAreTestedAndRepaired := by
  unfold Obligations.BundlesAreTestedAndRepaired
  intro s tw l n
  refine ⟨fun hp => parityError_counts hp, ?_, fun hb => ⟨?_, fun lanes hl hp => testComplete_waits hb hl hp⟩,
    fun lanes hl hp => testComplete_repairs hl hp, fun q hq hf => repairPause_starts hq hf, fun p hp => ?_⟩
  · have hr := modBundle_repairs s (bundleKey tw l n) (fun b => { b with testing := true })
    exact ⟨_, rfl, ⟨hr.still, hr.other⟩, bundle_modBundle_same ..⟩
  · have hr := modBundle_repairs s (bundleKey tw l n) (fun b => { b with testing := false, errs := satAdd 0xFFF b.errs b.hist.length, hist := [] })
    refine ⟨_, congrArg Host.Outcome.next ((if_neg fun hc => ?_).trans (if_pos rfl)), ⟨hr.still, hr.other⟩, bundle_modBundle_same ..⟩
    have hc := hc.1
    rw [hb] at hc
    exact absurd hc (by decide)
  · have he : exec .repairPauseEnd s = .next { s with vert := { s.vert with pausing := none, lastEnd := some s.clk.tick } } := by
      show execRepairPauseEnd s = _
      unfold execRepairPauseEnd
      rw [hp]
    exact ⟨_, he, ⟨⟨⟨rfl, rfl, rfl, rfl⟩, rfl⟩, fun _ _ => rfl⟩, rfl, rfl, rfl⟩

end Sys2Proof.Machine
end

section
/-! SUPPORT. Spare rows and columns (R311 to R316). -/
namespace Sys2Proof.Machine

/-- A repair that is due has been taken into the lists of its array: nothing is stored or logged yet. -/
structure Taken (s v : State) (r : Nat × Nat × Nat) : Prop where
  calm : Calm s v
  llc : v.llc = { s.llc with scrubs := v.llc.scrubs }
  owed : r ∉ v.ecc.owed
  repairs : v.ecc.repairs = s.ecc.repairs
  held : v.ecc.held = s.ecc.held
  ras : v.ras = s.ras
  reg : ∀ off, off = rLogHead ∨ off = rWstat → v.reg off = s.reg off

theorem not_mem_owed (l : List (Nat × Nat × Nat)) (r : Nat × Nat × Nat) : r ∉ l.filter (· != r) := fun h => by
  simpa using (List.mem_filter.1 h).2

theorem dropOwed_taken (s : State) (r : Nat × Nat × Nat) (key : Nat) (gone : Find → Bool) : Taken s (dropOwed s r key gone) r :=
  ⟨⟨rfl, rfl, rfl, rfl⟩, rfl, not_mem_owed s.ecc.owed r, rfl, rfl, rfl, fun _ _ => rfl⟩

theorem repairMade_taken (s : State) (r : Nat × Nat × Nat) (key : Nat) (gone : Find → Bool) : Taken s (repairMade s r key gone) r :=
  ⟨⟨rfl, rfl, rfl, rfl⟩, rfl, not_mem_owed s.ecc.owed r, rfl, rfl, rfl, fun _ _ => rfl⟩

/-- Spares counted and registers refreshed keep a repair taken. -/
theorem Taken.of_regs {s v w : State} {r : Nat × Nat × Nat} (h : Taken s v r) (k : RegsOnly v w)
    (hr : ∀ off, off = rLogHead ∨ off = rWstat → w.reg off = v.reg off) : Taken s w r := by
  have hk : w = { v with regs := w.regs } := k
  obtain ⟨h1, h2, h3, h4, h5, h6, h7⟩ := h
  refine ⟨?_, ?_, ?_, k.ecc ▸ h4, k.ecc ▸ h5, k.ras.trans h6, fun off ho => (hr off ho).trans (h7 off ho)⟩
  · rw [hk]; exact h1
  · rw [hk]; exact h2
  · rw [k.ecc]; exact h3

theorem refreshSpares_spec (s : State) (h : Nat) : RegsOnly s (refreshSpares s h) ∧ ∀ off, off ≠ rUspr h → (refreshSpares s h).reg off = s.reg off := by
  unfold refreshSpares
  dsimp only
  refine ⟨(setField_regsOnly ..).trans ((setField_regsOnly ..).trans (setField_regsOnly ..)), fun off ho => ?_⟩
  rw [reg_setField_other _ _ _ _ ho, reg_setField_other _ _ _ _ ho, reg_setField_other _ _ _ _ ho]

theorem refreshHbmSpares_spec (s : State) (k : Nat) : RegsOnly s (refreshHbmSpares s k) ∧
    (∀ off, off ≠ rUspr (4 + k) → (refreshHbmSpares s k).reg off = s.reg off) ∧
    (refreshHbmSpares s k).regField (rUspr (4 + k)) 13 0 = hbmRowsFree s k := by
  have hlt : hbmRowsFree s k < 2 ^ 14 := lt_of_le_of_lt (Nat.sub_le ..) (by decide)
  unfold refreshHbmSpares
  dsimp only
  refine ⟨(setField_regsOnly ..).trans (setField_regsOnly ..), fun off ho => ?_, ?_⟩
  · rw [reg_setField_other _ _ _ _ ho, reg_setField_other _ _ _ _ ho]
  · exact (regField_setField_apart _ _ _ (by decide) (by decide) (by decide)).trans
      ((regField_setField _ _ _ (by decide) (by decide)).trans (Nat.mod_eq_of_lt hlt))

theorem rUspr_apart (u : Nat) : ∀ off, off = rLogHead ∨ off = rWstat → off ≠ rUspr u := by
  unfold rLogHead rWstat rUspr; omega

theorem rUspr_log (u : Nat) : ¬ (rUspr u = rLogHead ∨ rUspr u = rLogStat ∨ rUspr u = rAlert) ∧ rUspr u ≠ rWstat := by
  unfold rLogHead rLogStat rAlert rWstat rUspr; omega

/-- What a repair that is recorded and logged leaves. -/
structure Finished (s v w t : State) (r : Nat × Nat × Nat) (code : Nat) : Prop where
  still : Calm s t ∧ t.llc = { s.llc with scrubs := t.llc.scrubs }
  owed : r ∉ t.ecc.owed
  recorded : Recorded s t r
  logged : Logged s t code
  ecc : t.ecc = { v.ecc with repairs := t.ecc.repairs, held := t.ecc.held }
  spares : ∀ u, t.reg (rUspr u) = w.reg (rUspr u)
  clk : t.clk = v.clk

theorem Taken.finish {s v w : State} {r : Nat × Nat × Nat} (h : Taken s v r) (hw : RegsOnly (addRepair v r) w)
    (hwr : w.reg rLogHead = (addRepair v r).reg rLogHead) {e : LogEv} {code : Nat} (hc : e.code = code) (hlt : code < 2 ^ 16) :
    Finished s v w (rasLog w e) r code := by
  obtain ⟨h1, h2, h3, h4, h5, h6, h7⟩ := h
  obtain ⟨ha, -, hras, hareg, hrec⟩ := addRepair_spec v r 0
  have hao := ha.only
  have hwe : w.ecc = (addRepair v r).ecc := hw.ecc
  have hwras : w.ras = (addRepair v r).ras := hw.ras
  unfold RegsOnly at hw
  generalize hu : addRepair v r = u at *
  have hl := rasLog_logs w e
  have hlog := rasLog_logged w e (hc ▸ hlt)
  rw [hc] at hlog
  generalize ht : rasLog w e = t at *
  have hlo := hl.only
  unfold LogsOnly at hlo
  have hecc : t.ecc = u.ecc := hl.only.ecc.trans hwe
  have huecc : u.ecc = { v.ecc with repairs := u.ecc.repairs, held := u.ecc.held } := by rw [hao]
  have hf : flashOpen v = flashOpen s := regBit_of_reg (h7 _ (.inr rfl)) 3
  refine ⟨⟨?_, ?_⟩, ?_, ?_, ?_, ?_, fun n => ?_, ?_⟩
  · rw [hlo, hw, hao]; exact h1
  · rw [hlo, hw, hao]; exact h2
  · rw [hecc, huecc]; exact h3
  · unfold Recorded at *
    rw [hf, h4, h5] at hrec
    rw [hecc]; exact hrec
  · exact hlog.of_same (hwras.trans (hras.trans h6)) (hwr.trans ((hareg _ (by decide)).trans (h7 _ (.inl rfl))))
  · rw [hecc]; exact huecc
  · exact hl.reg _ (rUspr_log n).1
  · rw [hlo, hw, hao]

/-- A pause that is over at once changes no more than the spacing of pauses. -/
theorem Finished.endPause {s v w t : State} {r : Nat × Nat × Nat} {code : Nat} (h : Finished s v w t r code) : Finished s v w (endPause t) r code :=
  ⟨h.still, h.owed, h.recorded, h.logged, h.ecc, h.spares, h.clk⟩

/-! ## Rows and columns of a tower bank (R311, R312) -/

theorem towerBank_lt (half : HalfId) (bank : Fin 256) : towerBank half bank < 2048 := by
  have := half.isLt; have := bank.isLt; unfold towerBank; omega

theorem rowRepair_bank (half : HalfId) (bank : Fin 256) (mat row : Nat) :
    rowRepair (towerBank half bank) mat row = (1, towerBank half bank, mat * 1024 + row) := if_pos (towerBank_lt half bank)

/-- A spare that a bank's counter of spares counts. -/
def countSpare (u : State) (rows cols : Tab Nat) : State := { u with ecc := { u.ecc with rows := rows, cols := cols } }

theorem Taken.countSpare {s v : State} {r : Nat × Nat × Nat} (h : Taken s v r) (rows cols : Tab Nat) : Taken s (countSpare v rows cols) r :=
  ⟨h.calm, h.llc, h.owed, h.repairs, h.held, h.ras, h.reg⟩

/-- What an entry of the log leaves of a repair that was taken. -/
theorem Taken.logged {s u : State} {r : Nat × Nat × Nat} (h : Taken s u r) (hv : u.vert = s.vert) {e : LogEv} (he : e.code = 0x0407) :
    (Calm s (rasLog u e) ∧ (rasLog u e).llc = { s.llc with scrubs := (rasLog u e).llc.scrubs }) ∧
      Logged s (rasLog u e) 0x0407 ∧ (rasLog u e).vert = s.vert := by
  have hl := rasLog_logsOnly u e
  have hlog := rasLog_logged u e (by rw [he]; decide)
  rw [he] at hlog
  generalize rasLog u e = t at hl hlog
  unfold LogsOnly at hl
  refine ⟨?_, hlog.of_same h.ras (h.reg _ (.inl rfl)), ?_⟩
  · rw [hl]; exact ⟨h.calm, h.llc⟩
  · rw [hl]; exact hv

/-- What is left of a bank without a free spare. -/
theorem sparesExhausted_spec {s u : State} {r : Nat × Nat × Nat} (h : Taken s u r) (hv : u.vert = s.vert)
    (hb : ∀ tb, bankErrors u tb = bankErrors s tb) (half tb : Nat) :
    (tb ∉ s.llc.retired → (Calm s (sparesExhausted u half tb true) ∧
        (sparesExhausted u half tb true).llc = { s.llc with scrubs := (sparesExhausted u half tb true).llc.scrubs }) ∧
      ∃ w, (tb, w) ∈ (sparesExhausted u half tb true).vert.retiring) ∧
    (bankErrors s tb ≤ 64 → (Calm s (sparesExhausted u half tb false) ∧
        (sparesExhausted u half tb false).llc = { s.llc with scrubs := (sparesExhausted u half tb false).llc.scrubs }) ∧
      Logged s (sparesExhausted u half tb false) 0x0407 ∧ (sparesExhausted u half tb false).vert = s.vert) := by
  constructor
  · intro hret
    have he : sparesExhausted u half tb true = beginBankRetire u tb := by unfold sparesExhausted; exact if_pos (.inl rfl)
    have hretu : tb ∉ u.llc.retired := by rw [h.llc]; exact hret
    rw [he, beginBankRetire]
    split
    · next hc =>
      refine ⟨⟨h.calm, h.llc⟩, ?_⟩
      obtain ⟨p, hp, hpe⟩ := List.any_eq_true.1 (hc.resolve_right fun k => hretu (List.contains_iff_mem.1 k))
      exact ⟨p.2, by rw [← beq_iff_eq.1 hpe]; exact hp⟩
    · have hr := refreshTower_regsOnly { u with vert := { u.vert with retiring := u.vert.retiring ++ [(tb, false)] } } (tb / 512)
      generalize refreshTower { u with vert := { u.vert with retiring := u.vert.retiring ++ [(tb, false)] } } (tb / 512) = t at *
      have hrv := hr.vert
      unfold RegsOnly at hr
      refine ⟨?_, false, ?_⟩
      · rw [hr]; exact ⟨h.calm, h.llc⟩
      · rw [hrv]; exact List.mem_append_right _ (List.mem_singleton_self _)
  · intro hle
    have he : sparesExhausted u half tb false = rasLog u (logEv 0x0407 (unitOf 6 tb) (u.reg (rUspr half)).toNat) :=
      by unfold sparesExhausted; exact if_neg (by rw [hb]; simp; omega)
    obtain ⟨e, hcode, hevent⟩ : ∃ e : LogEv, e.code = 0x0407 ∧ e = logEv 0x0407 (unitOf 6 tb) (u.reg (rUspr half)).toNat := ⟨_, rfl, rfl⟩
    rw [he, ← hevent]
    exact h.logged hv hcode

section
variable {s : State} {half : HalfId} {bank : Fin 256}

/-- The SparesReplaceRowsAndColumns clauses of a repair of a tower bank, by its way of counting. -/
theorem spared_finishes {r : Nat × Nat × Nat} {mine : Find → Bool} {rows cols : Tab Nat} {code : Nat} (hlt : code < 2 ^ 16) :
    let v := countSpare (repairMade s r (towerBank half bank) mine) rows cols
    let t := fun e => endPause (rasLog (refreshSpares (addRepair v r) half) e)
    ∀ e : LogEv, e.code = code → (Calm s (t e) ∧ (t e).llc = { s.llc with scrubs := (t e).llc.scrubs }) ∧ r ∉ (t e).ecc.owed ∧ Recorded s (t e) r ∧
      Logged s (t e) code ∧ (t e).ecc.rows = rows ∧ (t e).ecc.cols = cols ∧ (t e).vert.lastEnd = some s.clk.tick := by
  intro v t e he
  have hv : Taken s v r := (repairMade_taken s r (towerBank half bank) mine).countSpare rows cols
  obtain ⟨hr, hreg⟩ := refreshSpares_spec (addRepair v r) half
  have hf := hv.finish hr (hreg _ (rUspr_apart half _ (.inl rfl))) he hlt
  have hrows : (rasLog (refreshSpares (addRepair v r) half) e).ecc.rows = rows ∧ (rasLog (refreshSpares (addRepair v r) half) e).ecc.cols = cols := by
    rw [hf.ecc]; exact ⟨rfl, rfl⟩
  have hclk : (rasLog (refreshSpares (addRepair v r) half) e).clk = s.clk := hf.clk.trans rfl
  have hend := hf.endPause
  refine ⟨hend.still, hend.owed, hend.recorded, hend.logged, hrows.1, hrows.2, ?_⟩
  show some (rasLog (refreshSpares (addRepair v r) half) e).clk.tick = some s.clk.tick
  rw [hclk]

/-- One more spare row, or column, of a bank in use. -/
def addRow (u : State) (tb : Nat) : State := { u with ecc := { u.ecc with rows := tset 0 u.ecc.rows tb (tget 0 u.ecc.rows tb + 1) } }
def addCol (u : State) (tb : Nat) : State := { u with ecc := { u.ecc with cols := tset 0 u.ecc.cols tb (tget 0 u.ecc.cols tb + 1) } }

/-- What ROW_SPARED and COL_SPARED do with a repair of a bank: by whether it is due, a spare is free and a pause may start. -/
def bankRepair (s : State) (half : HalfId) (tb : Nat) (r : Nat × Nat × Nat) (mine : Find → Bool) (free : Nat) (count : State → Nat → State) (code : Nat) : State :=
  if !s.ecc.owed.contains r then s
  else if free = 0 then sparesExhausted (dropOwed s r tb mine) half tb ((findsOf s tb).any (fun f => mine f && f.unc))
  else if !pauseFree s then s
  else endPause (rasLog (refreshSpares (addRepair (count (repairMade s r tb mine) tb) r) half) (logEv code (unitOf 6 tb)
    ((refreshSpares (addRepair (count (repairMade s r tb mine) tb) r) half).reg (rUspr half)).toNat))

theorem bankRepair_spec {r : Nat × Nat × Nat} {mine : Find → Bool} {free : Nat} {count : State → Nat → State} {rows cols : Tab Nat} {code : Nat} (hlt : code < 2 ^ 16)
    (hc : count (repairMade s r (towerBank half bank) mine) (towerBank half bank) = countSpare (repairMade s r (towerBank half bank) mine) rows cols) :
    let tb := towerBank half bank
    let t := bankRepair s half tb r mine free count code
    let still := Calm s t ∧ t.llc = { s.llc with scrubs := t.llc.scrubs }
    (r ∉ s.ecc.owed → t = s) ∧
    (r ∈ s.ecc.owed → free ≠ 0 → pauseFree s = true → still ∧ r ∉ t.ecc.owed ∧ Recorded s t r ∧ Logged s t code ∧
      t.ecc.rows = rows ∧ t.ecc.cols = cols ∧ t.vert.lastEnd = some s.clk.tick) ∧
    (r ∈ s.ecc.owed → free = 0 →
      ((findsOf s tb).any (fun x => mine x && x.unc) = true → tb ∉ s.llc.retired → still ∧ ∃ w, (tb, w) ∈ t.vert.retiring) ∧
      ((findsOf s tb).any (fun x => mine x && x.unc) = false → bankErrors s tb ≤ 64 → still ∧ Logged s t 0x0407 ∧ t.vert = s.vert)) := by
  intro tb t still
  refine ⟨fun h => if_pos ?_, fun h hf hp => ?_, fun h hf => ?_⟩
  · have : s.ecc.owed.contains r = false := Bool.eq_false_iff.2 fun k => h (List.contains_iff_mem.1 k)
    rw [this]; rfl
  · have ht : t = _ := (if_neg (by rw [List.contains_iff_mem.2 h]; decide)).trans ((if_neg hf).trans (if_neg (by rw [hp]; decide)))
    show (Calm s t ∧ t.llc = { s.llc with scrubs := t.llc.scrubs }) ∧ _
    rw [ht, hc]
    exact spared_finishes (s := s) (half := half) (bank := bank) (mine := mine) (rows := rows) (cols := cols) hlt _ rfl
  · have ht : t = _ := (if_neg (by rw [List.contains_iff_mem.2 h]; decide)).trans (if_pos hf)
    obtain ⟨k1, k2⟩ := sparesExhausted_spec (dropOwed_taken s r tb mine) rfl (fun _ => rfl) half tb
    show ((findsOf s tb).any (fun x => mine x && x.unc) = true → tb ∉ s.llc.retired → (Calm s t ∧ t.llc = { s.llc with scrubs := t.llc.scrubs }) ∧ _) ∧
      ((findsOf s tb).any (fun x => mine x && x.unc) = false → bankErrors s tb ≤ 64 → (Calm s t ∧ t.llc = { s.llc with scrubs := t.llc.scrubs }) ∧ _)
    rw [ht]
    refine ⟨fun hb hr => ?_, fun hb hle => ?_⟩
    · rw [hb]; exact k1 hr
    · rw [hb]; exact k2 hle

theorem execRowSpared_eq (s : State) (half : HalfId) (bank : Fin 256) (mat : Fin 16) (row : Fin 1024) :
    exec (.rowSpared half bank ⟨mat, row⟩ false) s = .next (bankRepair s half (towerBank half bank) (1, towerBank half bank, mat.val * 1024 + row.val)
      (fun f => f.mat == mat.val && f.row == row.val) (rowsFree s (towerBank half bank)) addRow 0x0404) := by
  rw [← rowRepair_bank]
  have hre : ∀ tb, retestRow s tb mat row false = s := fun _ => if_pos rfl
  have he : exec (.rowSpared half bank ⟨mat, row⟩ false) s = .next (bankRepair (retestRow s (towerBank half bank) mat row false) half
      (towerBank half bank) (rowRepair (towerBank half bank) mat row) (fun f => f.mat == mat.val && f.row == row.val)
      (rowsFree (retestRow s (towerBank half bank) mat row false) (towerBank half bank)) addRow 0x0404) := rfl
  rw [he, hre]

theorem execColSpared_eq (s : State) (half : HalfId) (bank : Fin 256) (mat : Fin 16) (bit : Fin 576) :
    exec (.colSpared half bank mat bit) s = .next (bankRepair s half (towerBank half bank) (2, towerBank half bank, mat.val * 576 + bit.val)
      (fun f => f.mat == mat.val && f.bit == bit.val) (colsFree s (towerBank half bank)) addCol 0x0405) := rfl

end

/-! ## Rows of a stack (R313, R315) -/

/-- One more spare row of a stack in use. -/
def addHbmRow (u : State) (k : Nat) : State := { u with ecc := { u.ecc with hbmRows := tset 0 u.ecc.hbmRows k (tget 0 u.ecc.hbmRows k + 1) } }

/-- The stack's summary follows, and the spacing of its repairs starts. -/
def hbmSummed (w : State) (k : Nat) : State := { refreshHbmSpares w k with ecc := { w.ecc with lastHbm := some w.clk.tick } }

theorem hbmRowsFree_add (u : State) (k : Nat) : hbmRowsFree (addHbmRow u k) k = hbmRowsFree u k - 1 := by
  have hg : tget 0 (addHbmRow u k).ecc.hbmRows k = tget 0 u.ecc.hbmRows k + 1 := tget_tset_same 0 u.ecc.hbmRows k (tget 0 u.ecc.hbmRows k + 1)
  unfold hbmRowsFree
  rw [hg]; omega

/-- A spare row of a stack counted, and its summary refreshed. -/
def hbmSpared (s : State) (k key : Nat) (r : Nat × Nat × Nat) (mine : Find → Bool) : State := hbmSummed (addHbmRow (repairMade s r key mine) k) k

theorem Taken.addHbmRow {s v : State} {r : Nat × Nat × Nat} (h : Taken s v r) (k : Nat) : Taken s (addHbmRow v k) r :=
  ⟨h.calm, h.llc, h.owed, h.repairs, h.held, h.ras, h.reg⟩

theorem hbmSummed_eq (w : State) (k : Nat) :
    hbmSummed w k = { refreshHbmSpares w k with ecc := { w.ecc with lastHbm := some w.clk.tick } } := rfl

theorem reg_withEcc (u : State) (e : Ecc) (off : Nat) : ({ u with ecc := e } : State).reg off = u.reg off := rfl

theorem hbmSummed_reg (w : State) (k off : Nat) : (hbmSummed w k).reg off = (refreshHbmSpares w k).reg off := by
  rw [hbmSummed_eq]; exact reg_withEcc (refreshHbmSpares w k) _ off

theorem hbmSummed_spares (w : State) (k : Nat) : (hbmSummed w k).regField (rUspr (4 + k)) 13 0 = hbmRowsFree w k := by
  exact (regField_of_reg (hbmSummed_reg w k _) 13 0).trans (refreshHbmSpares_spec w k).2.2

theorem Taken.hbmSummed {s v : State} {r : Nat × Nat × Nat} (h : Taken s v r) (k : Nat) : Taken s (hbmSummed v k) r := by
  obtain ⟨h1, h2, h3⟩ := refreshHbmSpares_spec v k
  have ht := h.of_regs h1 fun off ho => h2 off (rUspr_apart (4 + k) off ho)
  have hs := hbmSummed_eq v k
  have hsr := hbmSummed_reg v k
  generalize refreshHbmSpares v k = u at *
  generalize Machine.hbmSummed v k = x at *
  obtain ⟨c1, c2, c3, c4⟩ := ht.calm
  refine ⟨?_, ?_, ?_, ?_, ?_, ?_, fun off ho => (hsr off).trans (ht.reg off ho)⟩
  · rw [hs]; exact ⟨c1, c2, c3, c4⟩
  · rw [hs]; exact ht.llc
  · rw [hs]; exact h.owed
  · rw [hs]; exact h.repairs
  · rw [hs]; exact h.held
  · rw [hs]; exact ht.ras

theorem hbmSpared_spec (s : State) (k key : Nat) (r : Nat × Nat × Nat) (mine : Find → Bool) : Taken s (hbmSpared s k key r mine) r ∧
    (hbmSpared s k key r mine).regField (rUspr (4 + k)) 13 0 = hbmRowsFree s k - 1 ∧ (hbmSpared s k key r mine).ecc.lastHbm = some s.clk.tick := by
  have hfree : hbmRowsFree (repairMade s r key mine) k = hbmRowsFree s k := rfl
  have h3 := hbmSummed_spares (addHbmRow (repairMade s r key mine) k) k
  have ht : Taken s (hbmSpared s k key r mine) r := ((repairMade_taken s r key mine).addHbmRow k).hbmSummed k
  refine ⟨ht, h3.trans ((hbmRowsFree_add _ k).trans (by rw [hfree])), ?_⟩
  rw [hbmSpared, hbmSummed_eq]
  rfl

section
variable {s : State} {k : Fin 8} {addr : Nat}

theorem hbm_due (hw : ∀ u, s.ecc.lastHbm = some u → u + 1000000 ≤ s.clk.tick) (hm : procDown s 4 = false) (hr : (3, k.val, addr / 4096) ∈ s.ecc.owed) :
    exec (.hbmRowSpared k addr) s = .next
      (if hbmRowsFree s k = 0 then rasLog (dropOwed s (3, k.val, addr / 4096) (2048 + k.val) (fun f => f.row == addr / 4096))
        { logEv 0x0408 (unitOf 8 (4 + k.val)) (s.reg (rUspr (4 + k.val))).toNat with addr := addr / 4096 * 4096 }
      else rasLog (addRepair (hbmSpared s k (2048 + k.val) (3, k.val, addr / 4096) (fun f => f.row == addr / 4096)) (3, k.val, addr / 4096))
        { logEv 0x0406 (unitOf 8 (4 + k.val)) ((addRepair (hbmSpared s k (2048 + k.val) (3, k.val, addr / 4096) (fun f => f.row == addr / 4096))
          (3, k.val, addr / 4096)).reg (rUspr (4 + k.val))).toNat with addr := addr / 4096 * 4096 }) := by
  have hrep : rowRepair (2048 + k.val) 0 (addr / 4096) = (3, k.val, addr / 4096) := by
    unfold rowRepair; rw [if_neg (by omega), Nat.add_sub_cancel_left]
  show execHbmRowSpared k addr s = _
  unfold execHbmRowSpared
  dsimp only
  rw [hrep, if_neg]
  · rfl
  · rw [hm, List.contains_iff_mem.2 hr]
    cases hl : s.ecc.lastHbm with
    | none => simp
    | some u =>
      have := hw u hl
      simp; omega

end

/-- Settles O29. -/
theorem sparesReplaceRowsAndColumns : Obligations.SparesReplaceRowsAndColumns := by
  unfold Obligations.SparesReplaceRowsAndColumns
  intro s half bank
  refine ⟨fun mat row => ?_, fun mat bit => ?_, fun k addr hw hm hr => ⟨fun hf => ?_, fun hf => ?_⟩⟩
  · have he := execRowSpared_eq s half bank mat row
    obtain ⟨h1, h2, h3⟩ := bankRepair_spec (s := s) (half := half) (bank := bank) (r := (1, towerBank half bank, mat.val * 1024 + row.val))
      (mine := fun f => f.mat == mat.val && f.row == row.val) (free := rowsFree s (towerBank half bank))
      (count := addRow) (rows := tset 0 s.ecc.rows (towerBank half bank) (tget 0 s.ecc.rows (towerBank half bank) + 1)) (cols := s.ecc.cols)
      (code := 0x0404) (by decide) rfl
    refine ⟨fun h => he.trans (congrArg _ (h1 h)), fun h hf hp => ?_, fun h hf => ⟨fun hb hr => ⟨_, he, (h3 h hf).1 hb hr⟩,
      fun hb hle => ⟨_, he, (h3 h hf).2 hb hle⟩⟩⟩
    obtain ⟨k1, k2, k3, k4, k5, -, k7⟩ := h2 h hf hp
    exact ⟨_, he, k1, k2, k3, k4, by rw [k5]; exact tget_tset_same .., k7⟩
  · have he := execColSpared_eq s half bank mat bit
    obtain ⟨h1, h2, h3⟩ := bankRepair_spec (s := s) (half := half) (bank := bank) (r := (2, towerBank half bank, mat.val * 576 + bit.val))
      (mine := fun f => f.mat == mat.val && f.bit == bit.val) (free := colsFree s (towerBank half bank)) (count := addCol)
      (rows := s.ecc.rows) (cols := tset 0 s.ecc.cols (towerBank half bank) (tget 0 s.ecc.cols (towerBank half bank) + 1)) (code := 0x0405) (by decide) rfl
    refine ⟨fun h => he.trans (congrArg _ (h1 h)), fun h hf hp => ?_, fun h hf => ⟨fun hb hr => ⟨_, he, (h3 h hf).1 hb hr⟩,
      fun hb hle => ⟨_, he, (h3 h hf).2 hb hle⟩⟩⟩
    obtain ⟨k1, k2, k3, k4, -, k6, k7⟩ := h2 h hf hp
    exact ⟨_, he, k1, k2, k3, k4, by rw [k6]; exact tget_tset_same .., k7⟩
  · have he := hbm_due hw hm hr
    rw [if_neg hf] at he
    obtain ⟨h1, h2, h3⟩ := hbmSpared_spec s k (2048 + k.val) (3, k.val, addr / 4096) (fun f => f.row == addr / 4096)
    generalize hbmSpared s k (2048 + k.val) (3, k.val, addr / 4096) (fun f => f.row == addr / 4096) = v at *
    have hfin := h1.finish (w := addRepair v (3, k.val, addr / 4096)) .rfl rfl (e := { logEv 0x0406 (unitOf 8 (4 + k.val)) ((addRepair v (3, k.val, addr / 4096)).reg (rUspr (4 + k.val))).toNat with
      addr := addr / 4096 * 4096 }) (code := 0x0406) rfl (by decide)
    refine ⟨_, he, hfin.still, hfin.owed, hfin.recorded, hfin.logged, (regField_of_reg ((hfin.spares (4 + k.val)).trans
      ((addRepair_spec v (3, k.val, addr / 4096) 0).2.2.2.1 _ (rUspr_log _).2)) 13 0).trans h2, ?_⟩
    rw [hfin.ecc]; exact h3
  · have he := hbm_due hw hm hr
    rw [if_pos hf] at he
    have h1 := dropOwed_taken s (3, k.val, addr / 4096) (2048 + k.val) (fun f => f.row == addr / 4096)
    have hl := rasLog_logsOnly (dropOwed s (3, k.val, addr / 4096) (2048 + k.val) (fun f => f.row == addr / 4096))
      { logEv 0x0408 (unitOf 8 (4 + k.val)) (s.reg (rUspr (4 + k.val))).toNat with addr := addr / 4096 * 4096 }
    have hlog := rasLog_logged (dropOwed s (3, k.val, addr / 4096) (2048 + k.val) (fun f => f.row == addr / 4096))
      { logEv 0x0408 (unitOf 8 (4 + k.val)) (s.reg (rUspr (4 + k.val))).toNat with addr := addr / 4096 * 4096 } (by decide : 0x0408 < 2 ^ 16)
    have hrows : (dropOwed s (3, k.val, addr / 4096) (2048 + k.val) (fun f => f.row == addr / 4096)).ecc.hbmRows = s.ecc.hbmRows := rfl
    generalize dropOwed s (3, k.val, addr / 4096) (2048 + k.val) (fun f => f.row == addr / 4096) = u at *
    have hecc := hl.ecc
    refine ⟨_, he, ?_, by rw [hecc]; exact h1.owed, hlog.of_same h1.ras (h1.reg _ (.inl rfl)), by rw [hecc]; exact h1.repairs,
      by rw [hecc]; exact h1.held, by rw [hecc]; exact hrows⟩
    unfold LogsOnly at hl
    rw [hl]
    exact ⟨h1.calm, h1.llc⟩

end Sys2Proof.Machine
end

section
/-! SUPPORT. What a module reset, a loss of the input and bring-up leave (R360, R387, R496, R502, R535, R536). -/
namespace Sys2Proof.Machine

/-- A relation that every step of a fold keeps, its whole run keeps. -/
theorem foldl_rel {α : Type} {R : State → State → Prop} (hr : ∀ s, R s s) (ht : ∀ {a b c}, R a b → R b c → R a c) {f : State → α → State}
    (hf : ∀ s a, R s (f s a)) (l : List α) (s : State) : R s (l.foldl f s) := by
  induction l generalizing s with
  | nil => exact hr s
  | cons a l ih => exact ht (hf s a) (ih _)

theorem regsOnly_foldl {α : Type} {f : State → α → State} (hf : ∀ s a, RegsOnly s (f s a)) (l : List α) (s : State) : RegsOnly s (l.foldl f s) :=
  foldl_rel (fun _ => .rfl) .trans hf l s

theorem refreshClcore_regsOnly (s : State) (cl : Nat) : RegsOnly s (refreshClcore s cl) :=
  (setField_regsOnly ..).trans ((setField_regsOnly ..).trans ((setField_regsOnly ..).trans ((setField_regsOnly ..).trans (setField_regsOnly ..))))

theorem refreshHbmSpares_regsOnly (s : State) (k : Nat) : RegsOnly s (refreshHbmSpares s k) := (setField_regsOnly ..).trans (setField_regsOnly ..)

theorem refreshAllSpares_regsOnly (s : State) : RegsOnly s (refreshAllSpares s) :=
  (regsOnly_foldl (fun s h => (refreshSpares_spec s h).1) _ _).trans (regsOnly_foldl refreshHbmSpares_regsOnly _ _)

theorem refreshHstat_regsOnly (s : State) : RegsOnly s (refreshHstat s) :=
  regsOnly_foldl (fun s h => (setField_regsOnly s (rHstat h) _ _ _).trans (setField_regsOnly ..)) _ _

/-! ## Fuses and flash -/

/-- A core after an event: idle but for what fuses and flash hold, so without a group and without a task. -/
theorem flashCores_empty (s : State) (c : Nat) :
    (tget Core.idle (flashCores s) c).groups = [] ∧ (tget Core.idle (flashCores s) c).task = none := by
  unfold flashCores
  suffices h : ∀ (l : Tab Core) (t : Tab Core), (tget Core.idle t c).groups = [] ∧ (tget Core.idle t c).task = none →
      (tget Core.idle (l.foldl (fun t p => tset Core.idle t p.1 (flashCore (inFlash s 6 p.1) (inFlash s 7 p.1) p.2)) t) c).groups = [] ∧
      (tget Core.idle (l.foldl (fun t p => tset Core.idle t p.1 (flashCore (inFlash s 6 p.1) (inFlash s 7 p.1) p.2)) t) c).task = none from
    h s.cores [] ⟨rfl, rfl⟩
  intro l
  induction l with
  | nil => exact fun t h => h
  | cons p l ih =>
    intro t h
    refine ih _ ?_
    by_cases hc : c = p.1
    · rw [hc, tget_tset_same]; exact ⟨rfl, rfl⟩
    · rw [tget_tset_other _ _ _ hc]; exact h

/-- What a module reset and a loss of power leave: memory, poison and tasks empty, every core without work; the repairs, the log flash,
the images and licences, and what the pins say stay (R9, R496). -/
structure Wiped (s t : State) : Prop where
  mem : t.mem = []
  poison : t.poison = []
  tasks : t.tasks = []
  cores : ∀ c, (t.core c).groups = [] ∧ (t.core c).task = none
  repairs : t.ecc.repairs = s.ecc.repairs
  flash : t.ras.flash = s.ras.flash
  pending : t.pending = s.pending
  slots : t.fw.slots = s.fw.slots
  lics : t.fw.lics = s.fw.lics

theorem Wiped.regs {s t u : State} (h : Wiped s t) (k : RegsOnly t u) : Wiped s u := by
  unfold RegsOnly at k
  rw [k]
  exact ⟨h.mem, h.poison, h.tasks, h.cores, h.repairs, h.flash, h.pending, h.slots, h.lics⟩

theorem Wiped.powered {s t : State} (h : Wiped s t) (m : Md) (p : Pwr) : Wiped s { t with md := m, pwr := p } :=
  ⟨h.mem, h.poison, h.tasks, h.cores, h.repairs, h.flash, h.pending, h.slots, h.lics⟩

theorem afterReset_spec (s : State) (e : Nat) : Wiped s (afterReset s e) ∧
    (afterReset s e).md = { State.reset.md with straps := s.md.straps, perst := s.md.perst, input := s.md.input } ∧
    (afterReset s e).clk = State.reset.clk := by
  obtain ⟨u, hu, hm, hc, he⟩ : ∃ u, Wiped s u ∧ u.md = { State.reset.md with straps := s.md.straps, perst := s.md.perst, input := s.md.input } ∧
      u.clk = State.reset.clk ∧ afterReset s e = (List.range 7).foldl (fun s p => s.setField (rPstat p) 3 3 (s.proc p).slot) u :=
    by
      refine ⟨_, ?_, ?_, ?_, rfl⟩
      · exact ⟨rfl, rfl, rfl, flashCores_empty s, rfl, rfl, rfl, rfl, rfl⟩
      · rfl
      · rfl
  have h : RegsOnly u ((List.range 7).foldl (fun s p => s.setField (rPstat p) 3 3 (s.proc p).slot) u) :=
    regsOnly_foldl (fun s p => setField_regsOnly ..) _ _
  rw [← he] at h
  refine ⟨hu.regs h, ?_, ?_⟩
  · rw [← hm, h]
  · rw [← hc, h]

/-! ## Bring-up -/

/-- What bring-up changes once its counter runs: registers, the log, what is sent and the logical IDs. -/
structure Boots (s t : State) : Prop where
  only : t = { s with regs := t.regs, ras := t.ras, msix := t.msix, out := t.out, lmap := t.lmap }
  flash : t.ras.flash = s.ras.flash

theorem Boots.trans {a b c : State} (h : Boots a b) (k : Boots b c) : Boots a c := ⟨by rw [k.only, h.only], k.flash.trans h.flash⟩
theorem Boots.rfl {s : State} : Boots s s := ⟨Eq.refl _, Eq.refl _⟩
theorem RegsOnly.boots {s t : State} (h : RegsOnly s t) : Boots s t := by unfold RegsOnly at h; rw [h]; exact ⟨Eq.refl _, Eq.refl _⟩
theorem setField_boots (s : State) (o hi lo v : Nat) : Boots s (s.setField o hi lo v) := (setField_regsOnly ..).boots

theorem assignIds_boots (s : State) (cl : Nat) : Boots s (assignIds s cl) := by
  obtain ⟨g, hg⟩ : ∃ g : Nat → Option Nat, assignIds s cl = refreshClcore ((List.range 8).foldl (fun s i => s.setPhys (8 * cl + i) (g i)) s) cl :=
    ⟨fun i => (((List.range 9).map (9 * cl + ·)).filter (fun c => c % 9 != (s.cluster cl).mfgSlot && (s.core c).svc != 2))[i]?, rfl⟩
  have h : (List.range 8).foldl (fun s i => s.setPhys (8 * cl + i) (g i)) s =
      { s with lmap := ((List.range 8).foldl (fun s i => s.setPhys (8 * cl + i) (g i)) s).lmap } :=
    foldl_rel (R := fun s t => t = { s with lmap := t.lmap }) (fun _ => rfl) (fun h k => by rw [k, h]) (fun _ _ => rfl) _ _
  have hr := refreshClcore_regsOnly ((List.range 8).foldl (fun s i => s.setPhys (8 * cl + i) (g i)) s) cl
  rw [← hg, RegsOnly, h] at hr
  rw [hr]
  exact ⟨rfl, rfl⟩

/-- An entry of a severity below 2 is not persisted. -/
theorem rasLog_flash (s : State) (e : LogEv) (h : e.sev < 2) : (rasLog s e).ras.flash = s.ras.flash := by
  have hp : (decide (2 ≤ e.sev) && flashOpen s) = false := by rw [decide_eq_false (by omega)]; rfl
  unfold rasLog rasLogT
  dsimp only
  rw [hp]
  simp only [Bool.false_eq_true, if_false, if_neg (by omega : ¬ 2 ≤ e.sev)]
  split <;> rfl

theorem trainHost_spec (s : State) (t : HostTrain) : Boots s (trainHost s t) ∧
    (trainHost s t).regField rHlink 1 0 = t.mode.val ∧ (trainHost s t).regField rHlink 4 2 = t.rate.val ∧
    (trainHost s t).regField rHlink 9 5 = 2 ^ t.width.val % 32 := by
  obtain ⟨u, hu⟩ : ∃ u, u = (((s.setField rHlink 1 0 t.mode).setField rHlink 4 2 t.rate).setField rHlink 9 5 (2 ^ t.width.val)).setField rHlink 11 11
      (if t.below then 1 else 0) := ⟨_, rfl⟩
  have hb : RegsOnly s u := by rw [hu]; exact (setField_regsOnly ..).trans ((setField_regsOnly ..).trans ((setField_regsOnly ..).trans (setField_regsOnly ..)))
  have hm : u.regField rHlink 1 0 = t.mode.val := by
    rw [hu, regField_setField_apart _ _ _ (by decide) (by decide) (by decide), regField_setField_apart _ _ _ (by decide) (by decide) (by decide),
      regField_setField_apart _ _ _ (by decide) (by decide) (by decide), regField_setField _ _ _ (by decide) (by decide)]
    exact Nat.mod_eq_of_lt (by omega)
  have hr : u.regField rHlink 4 2 = t.rate.val := by
    rw [hu, regField_setField_apart _ _ _ (by decide) (by decide) (by decide), regField_setField_apart _ _ _ (by decide) (by decide) (by decide),
      regField_setField _ _ _ (by decide) (by decide)]
    exact Nat.mod_eq_of_lt (by omega)
  have hw : u.regField rHlink 9 5 = 2 ^ t.width.val % 32 := by
    rw [hu, regField_setField_apart _ _ _ (by decide) (by decide) (by decide), regField_setField _ _ _ (by decide) (by decide)]; rfl
  have he : trainHost s t = if t.below then sendMsix (rasLog u (logEv 0x0601 (unitOf 10 0) (u.reg rHlink).toNat)) 0 else u := by rw [hu]; rfl
  rw [he]
  split
  · generalize hev : logEv 0x0601 (unitOf 10 0) (u.reg rHlink).toNat = ev
    have hsev : ev.sev < 2 := by rw [← hev]; show severity 0x0601 < 2; decide
    have hl := rasLog_logsOnly u ev
    obtain ⟨m, o, hx⟩ := sendMsix_eq (rasLog u ev) 0
    have hreg : (sendMsix (rasLog u ev) 0).reg rHlink = u.reg rHlink := by
      rw [reg_sendMsix, reg_rasLog_other _ _ (by decide) (by decide) (by decide)]
    have hf := rasLog_flash u ev hsev
    refine ⟨?_, (regField_of_reg hreg ..).trans hm, (regField_of_reg hreg ..).trans hr, (regField_of_reg hreg ..).trans hw⟩
    · refine ⟨?_, ?_⟩
      · rw [hx, hl, hb]
      · rw [hx]; exact hf.trans (congrArg Ras.flash hb.ras)
  · exact ⟨hb.boots, hm, hr, hw⟩

/-- A module whose counter starts: the identity of its pins, and itself the only member it knows. -/
def woken (s : State) : State := { s with
  modId := s.md.straps, clk := ⟨0, true⟩
  md := { s.md with perst := false, booting := true }
  lup := { s.lup with members := [s.md.straps], routes := tset (0, 0xF) s.lup.routes s.md.straps (0, 0) } }

theorem boots_foldl {α : Type} {f : State → α → State} (hf : ∀ s a, Boots s (f s a)) (l : List α) (s : State) : Boots s (l.foldl f s) :=
  foldl_rel (R := Boots) (fun _ => .rfl) (fun h k => Boots.trans h k) hf l s

/-- The module knows its identity: MOD_ID, its member bit, and the route that is its own. -/
def named (s : State) : State :=
  let s := { s with modId := s.md.straps, clk := ⟨0, true⟩, md := { s.md with perst := false, booting := true } }
  let s := (s.setReg 0x02010100 (BitVec.ofNat 32 (s.md.straps + (if s.md.straps = 0 then 64 else 0) + 128 + 256)))
  let s := s.setField (if s.md.straps < 32 then 0x02010104 else 0x02010108) (s.md.straps % 32) (s.md.straps % 32) 1
  { s with lup := { s.lup with members := [s.md.straps], routes := tset (0, 0xF) s.lup.routes s.md.straps (0, 0) } }

/-- Links of the second licence class stay down without it. -/
def unlicensed (s : State) : State := if nbit (licFeatures s) 2 then s else [5, 6, 7, 8].foldl (fun s l => s.setField (rLstat l) 2 0 4) s

/-- The ceiling is the licensed tier. -/
def setTier (s : State) : State := (s.setField oPwrLim 23 12 (tierOf s)).setField oPwrLim 11 0 (tierOf s)

theorem bringUp_eq (s : State) (t : HostTrain) : bringUp s t = trainHost (refreshAllSpares (refreshHstat ((List.range 2).foldl refreshTower
    (setTier ((List.range 64).foldl assignIds (unlicensed (named s))))))) t := rfl

theorem named_boots (s : State) : Boots (woken s) (named s) := ⟨rfl, rfl⟩

theorem unlicensed_boots (s : State) : Boots s (unlicensed s) := by
  unfold unlicensed
  split
  · exact .rfl
  · exact boots_foldl (fun _ _ => setField_boots ..) _ _

theorem setTier_boots (s : State) : Boots s (setTier s) := (setField_boots ..).trans (setField_boots ..)

theorem bringUp_spec (s : State) (t : HostTrain) : Boots (woken s) (bringUp s t) ∧ (bringUp s t).regField rHlink 1 0 = t.mode.val ∧
    (bringUp s t).regField rHlink 4 2 = t.rate.val ∧ (bringUp s t).regField rHlink 9 5 = 2 ^ t.width.val % 32 := by
  have h := (named_boots s).trans ((unlicensed_boots _).trans ((boots_foldl assignIds_boots (List.range 64) _).trans ((setTier_boots _).trans
    ((regsOnly_foldl refreshTower_regsOnly (List.range 2) _).trans ((refreshHstat_regsOnly _).trans (refreshAllSpares_regsOnly _))).boots)))
  rw [bringUp_eq]
  generalize refreshAllSpares _ = u at h
  obtain ⟨h1, h2, h3, h4⟩ := trainHost_spec u t
  exact ⟨h.trans h1, h2, h3, h4⟩

/-! ## O34 -/

theorem Wiped.boots {s t u : State} (h : Wiped s t) (k : Boots (woken t) u) : Wiped s u := by
  have hf := k.flash
  rw [k.only]
  exact ⟨h.mem, h.poison, h.tasks, h.cores, h.repairs, hf.trans h.flash, h.pending, h.slots, h.lics⟩

theorem darken_spec (s : State) : Wiped s (darken s) ∧ (darken s).md.input = false ∧ (darken s).pwr.pwrOk = false := by
  obtain ⟨h, -, -⟩ := afterReset_spec s evCold
  unfold darken
  generalize afterReset s evCold = z at h
  exact ⟨h.powered _ _, rfl, rfl⟩

theorem coldStart_spec (s : State) (cause : Nat) (tr : HostTrain) :
    let t := coldStart s cause tr
    Wiped s t ∧ t.md.input = true ∧ t.md.off = false ∧ t.md.cause = cause ∧ (s.md.perst = true → t.md.perst = true ∧ t.clk.run = false) ∧
    (s.md.perst = false → t.clk = ⟨0, true⟩ ∧ t.modId = s.md.straps ∧ t.md.booting = true) := by
  obtain ⟨h, hmd, hclk⟩ := afterReset_spec s evCold
  unfold coldStart
  dsimp only
  generalize afterReset s evCold = y at h hmd hclk
  obtain ⟨z, hz⟩ : ∃ z : State, z = { y with md := { y.md with input := true, off := false, kind := 0, cause := cause, perst := s.md.perst } } := ⟨_, rfl⟩
  have hw : Wiped s z := by rw [hz]; exact h.powered _ _
  have hstraps : z.md.straps = s.md.straps := by rw [hz]; show y.md.straps = _; rw [hmd]
  rw [← hz]
  cases hp : s.md.perst
  · obtain ⟨hb, -⟩ := bringUp_spec z tr
    rw [if_neg Bool.false_ne_true]
    generalize bringUp z tr = t at hb
    refine ⟨hw.boots hb, ?_⟩
    rw [hb.only]
    refine ⟨?_, ?_, ?_, fun h => absurd h (by decide), fun _ => ⟨rfl, hstraps, rfl⟩⟩ <;> rw [hz] <;> rfl
  · rw [if_pos rfl]
    refine ⟨hw, ?_⟩
    rw [hz]
    refine ⟨rfl, rfl, rfl, fun _ => ⟨hp, ?_⟩, fun h => absurd h (by decide)⟩
    show y.clk.run = false
    rw [hclk]
    rfl

/-- Settles O34: every event leaves what `afterReset` keeps; bring-up on top of it touches registers, the log and the links. -/
theorem inputPowerComesAndGoes : Obligations.InputPowerComesAndGoes := by
  unfold Obligations.InputPowerComesAndGoes
  intro s
  dsimp only
  have kept : ∀ {t : State}, Wiped s t → t.mem = [] ∧ t.poison = [] ∧ t.tasks = [] ∧ (∀ c, (t.core c).groups = [] ∧ (t.core c).task = none) ∧
      t.ecc.repairs = s.ecc.repairs ∧ t.ras.flash = s.ras.flash ∧ t.pending = s.pending ∧ t.fw.slots = s.fw.slots :=
    fun h => ⟨h.mem, h.poison, h.tasks, h.cores, h.repairs, h.flash, h.pending, h.slots⟩
  refine ⟨fun hin c hc => ?_, fun hin tr p hp => ?_⟩
  · obtain ⟨h1, h2, h3⟩ := darken_spec s
    refine ⟨darken s, ?_, kept h1, h2, h3⟩
    simp only [List.mem_cons, List.not_mem_nil, or_false] at hc
    rcases hc with rfl | rfl <;> exact congrArg Host.Outcome.next (if_pos hin)
  · have hx : exec p.1 s = .next (coldStart s p.2 tr) := by
      simp only [List.mem_cons, List.not_mem_nil, or_false] at hp
      rcases hp with rfl | rfl | rfl <;> exact congrArg Host.Outcome.next (if_neg (by simp [hin]))
    obtain ⟨hw, hin', hoff, hcause, h1, h0⟩ := coldStart_spec s p.2 tr
    exact ⟨_, hx, kept hw, hin', hoff, hcause, h1, h0⟩

end Sys2Proof.Machine
end

section
/-! SUPPORT. What the functions of the model leave of a state's root: the queue of waiting commands, the clock, the module's identity and
mode, and the canonical form of memory. A predicate that asks of a state no more than that is kept by every function that writes
only elsewhere. -/
namespace Sys2Proof.Machine

/-- A predicate that a state keeps when nothing changes but memory, in canonical form, and what lies outside the root. -/
structure Rooted (I : State → Prop) : Prop where
  write : ∀ {u : State} {m : List Host.Cell} {fresh out regs poison cores clusters lmap llc ecc vert pwr therm adm host ras msix fw cls lup pmc contexts
      tasks}, (Memory.wf u.mem = true → Memory.wf m = true) → I u → I ⟨u.pending, u.clk, fresh, out, u.modId, regs, m, poison, u.towersDown, cores, clusters,
    lmap, llc, ecc, vert, pwr, therm, adm, u.md, host, ras, msix, fw, cls, lup, pmc, u.programs, contexts, tasks⟩

/-- Such a predicate keeps when memory does. -/
theorem Rooted.rest {I : State → Prop} (hI : Rooted I) {u : State} {fresh out regs poison cores clusters lmap llc ecc vert pwr therm adm host ras msix fw
      cls lup pmc contexts tasks} (h : I u) : I ⟨u.pending, u.clk, fresh, out, u.modId, regs, u.mem, poison, u.towersDown, cores, clusters,
    lmap, llc, ecc, vert, pwr, therm, adm, u.md, host, ras, msix, fw, cls, lup, pmc, u.programs, contexts, tasks⟩ :=
  hI.write id h

/-- A predicate that asks no more than the queue and the canonical form of memory. -/
structure Placed (I : State → Prop) : Prop where
  write : ∀ {u : State} {m : List Host.Cell} {clk fresh out modId regs poison towersDown cores clusters lmap llc ecc vert pwr therm adm md host ras msix fw
      cls lup pmc programs contexts tasks}, (Memory.wf u.mem = true → Memory.wf m = true) → I u → I ⟨u.pending, clk, fresh, out, modId, regs, m, poison,
    towersDown, cores, clusters, lmap, llc, ecc, vert, pwr, therm, adm, md, host, ras, msix, fw, cls, lup, pmc, programs, contexts, tasks⟩

theorem Placed.rest {I : State → Prop} (hI : Placed I) {u : State} {clk fresh out modId regs poison towersDown cores clusters lmap llc ecc vert pwr therm adm
      md host ras msix fw cls lup pmc programs contexts tasks} (h : I u) : I ⟨u.pending, clk, fresh, out, modId, regs, u.mem, poison,
    towersDown, cores, clusters, lmap, llc, ecc, vert, pwr, therm, adm, md, host, ras, msix, fw, cls, lup, pmc, programs, contexts, tasks⟩ :=
  hI.write id h

theorem Placed.rooted {I : State → Prop} (hI : Placed I) : Rooted I := ⟨fun hm h => hI.write hm h⟩

theorem ite_rooted {I : State → Prop} {c : Prop} [Decidable c] {a b : State} (ha : I a) (hb : I b) : I (if c then a else b) := by
  split
  · exact ha
  · exact hb

/-- Both ways on from a state that has the predicate. -/
theorem ite_via {I : State → Prop} {c : Prop} [Decidable c] {u a b : State} (ha : I u → I a) (hb : I u → I b) (h : I u) : I (if c then a else b) :=
  ite_rooted (ha h) (hb h)

theorem foldl_rooted {I : State → Prop} {α : Type} {f : State → α → State} {l : List α} {s : State} (hf : ∀ s a, I s → I (f s a)) (h : I s) :
    I (l.foldl f s) := by
  induction l generalizing s with
  | nil => exact h
  | cons a l ih => exact ih (hf s a h)

/-- A fold that carries something beside the state. -/
theorem foldl_fst_rooted {I : State → Prop} {α β : Type} {f : State × β → α → State × β} {l : List α} {p : State × β}
    (hf : ∀ p a, I p.1 → I (f p a).1) (h : I p.1) : I (l.foldl f p).1 := by
  induction l generalizing p with
  | nil => exact h
  | cons a l ih => exact ih (hf p a h)

/-- Writes in a row keep the canonical form. -/
theorem writeEach_wf (ws : List (Nat × List Nat)) {m : List Host.Cell} (h : Memory.wf m = true) :
    Memory.wf (ws.foldl (fun m w => writeBytes m (addrLow w.1) w.2) m) = true := by
  induction ws generalizing m with
  | nil => exact h
  | cons w ws ih => exact ih (writeBytes_wf h _ _)

theorem copyCells_wf {f : Host.Cell → Nat} (l : List Host.Cell) {m : List Host.Cell} (h : Memory.wf m = true) :
    Memory.wf (l.foldl (fun m p => memSet m (f p) p.2) m) = true := by
  induction l generalizing m with
  | nil => exact h
  | cons p l ih => exact ih (memSet_wf h _ _)

/-- Every state that a command answers has the predicate. -/
def Leads (I : State → Prop) (o : Outcome) : Prop := ∀ t, o = .next t → I t

theorem Leads.next {I : State → Prop} {t : State} (h : I t) : Leads I (.next t) := fun _ he => by cases he; exact h
theorem Leads.fault {I : State → Prop} {f : Fault} : Leads I (.fault f) := fun _ he => nomatch he
theorem Leads.refused {I : State → Prop} {r : Refusal} : Leads I (.refused r) := fun _ he => nomatch he
theorem Leads.ite {I : State → Prop} {c : Prop} [Decidable c] {a b : Outcome} (ha : Leads I a) (hb : Leads I b) : Leads I (if c then a else b) := by
  split
  · exact ha
  · exact hb

end Sys2Proof.Machine
end

section
/-! SUPPORT. Every function of the model that leaves the root of a state alone keeps every rooted predicate: one lemma a function, in the order of
the model, each by what the function calls. -/
namespace Sys2Proof.Machine

section
variable {I : State → Prop} (hI : Rooted I)
include hI

/-! ### RegTable -/

theorem State.setReg_rooted {s : State} {off : Nat} {v : Word} (hs : I s) : I (State.setReg s off v) :=
  hI.rest hs

theorem State.setField_rooted {s : State} {off hi lo v : Nat} (hs : I s) : I (State.setField s off hi lo v) :=
  State.setReg_rooted hI hs

/-! ### Count -/

theorem State.setCount_rooted {s : State} {pair v : Nat} (hs : I s) : I (State.setCount s pair v) :=
  hI.rest hs

theorem bump_rooted {s : State} {pair n : Nat} (hs : I s) : I (bump s pair n) :=
  ite_rooted hs (State.setCount_rooted hI hs)

theorem countSel_rooted {s : State} {block i code n : Nat} {d : Dims} {m : Nat} (hs : I s) : I (countSel s block i code n d m) :=
  ite_rooted hs (ite_via (fun h1 => hI.rest h1) (fun h1 => h1) (State.setCount_rooted hI hs))

theorem countEvent_rooted {s : State} {block i code n : Nat} {d : Dims} (hs : I s) : I (countEvent s block i code n d) :=
  ite_rooted hs (foldl_rooted (fun _ _ h1 => countSel_rooted hI h1) hs)

theorem countCore_rooted {s : State} {c code n : Nat} {addr : Option Nat} (hs : I s) : I (countCore s c code n addr) :=
  countEvent_rooted hI hs

theorem countUnit_rooted {s : State} {block i c code n : Nat} {addr : Option Nat} (hs : I s) : I (countUnit s block i c code n addr) :=
  countEvent_rooted hI hs

theorem countFixed_rooted {s : State} {c id n : Nat} (hs : I s) : I (countFixed s c id n) :=
  ite_rooted (bump_rooted hI hs) hs

theorem takeOcc_rooted {s : State} {o : PmcOcc} (hs : I s) : I (takeOcc s o) :=
  ite_rooted (ite_rooted (bump_rooted hI (bump_rooted hI hs)) hs) (ite_rooted (countEvent_rooted hI hs) hs)

theorem takeOccs_rooted {s : State} {l : List PmcOcc} (hs : I s) : I (takeOccs s l) :=
  foldl_rooted (fun _ _ h1 => takeOcc_rooted hI h1) hs

/-! ### Ops -/

theorem State.setCore_rooted {s : State} {c : Nat} {k : Core} (hs : I s) : I (State.setCore s c k) :=
  hI.rest hs

theorem State.modCore_rooted {s : State} {c : Nat} {f : Core → Core} (hs : I s) : I (State.modCore s c f) :=
  State.setCore_rooted hI hs

theorem State.modGrp_rooted {s : State} {c g : Nat} {f : Group → Group} (hs : I s) : I (State.modGrp s c g f) :=
  State.modCore_rooted hI hs

theorem State.modThread_rooted {s : State} {c g t : Nat} {f : Thread → Thread} (hs : I s) : I (State.modThread s c g t f) :=
  State.modGrp_rooted hI hs

theorem State.setTask_rooted {s : State} {i : Nat} {t : Option Task} (hs : I s) : I (State.setTask s i t) :=
  hI.rest hs

theorem State.modTask_rooted {s : State} {i : Nat} {f : Task → Task} (hs : I s) : I (State.modTask s i f) := by
  unfold State.modTask
  split
  · exact hs
  · exact State.setTask_rooted hI hs

theorem State.modCoreTask_rooted {s : State} {c : Nat} {f : Task → Task} (hs : I s) : I (State.modCoreTask s c f) := by
  unfold State.modCoreTask
  split
  · exact hs
  · exact State.modTask_rooted hI hs

theorem tickCompute_rooted {s : State} {c n : Nat} (hs : I s) : I (tickCompute s c n) :=
  State.modCore_rooted hI (countFixed_rooted hI hs)

theorem addMeters_rooted {s : State} {c a : Nat} {x : Cost} (hs : I s) : I (addMeters s c a x) := by
  unfold addMeters
  exact State.modCore_rooted hI (countCore_rooted hI (countCore_rooted hI (countCore_rooted hI hs)))

theorem addTaskCounter_rooted {s : State} {c k n : Nat} (hs : I s) : I (addTaskCounter s c k n) :=
  ite_rooted hs (State.modCore_rooted hI hs)

theorem rankFault_rooted {s : State} {c : Nat} {r : FaultRec} (hs : I s) : I (rankFault s c r) := by
  unfold rankFault
  split
  · exact hs
  · exact ite_rooted hs (ite_rooted (State.modCoreTask_rooted hI hs) (State.modCore_rooted hI hs))

theorem raiseFault_rooted {s : State} {c : Nat} {r : FaultRec} (hs : I s) : I (raiseFault s c r) :=
  ite_rooted (rankFault_rooted hI hs) (ite_rooted hs (State.modCoreTask_rooted hI hs))

theorem settleBarriers_rooted {s : State} {c : Nat} (hs : I s) : I (settleBarriers s c) := by
  unfold settleBarriers
  refine ite_rooted (State.setCore_rooted hI hs) ?_
  split
  · exact State.setCore_rooted hI hs
  · refine ite_rooted (State.setCore_rooted hI (State.setCore_rooted hI hs)) ?_
    refine ite_rooted (State.setCore_rooted hI hs) ?_
    split
    · exact raiseFault_rooted hI (State.setCore_rooted hI hs)
    · exact State.setCore_rooted hI (State.setCore_rooted hI hs)

theorem wakeTickets_rooted {s : State} {c : Nat} (hs : I s) : I (wakeTickets s c) :=
  settleBarriers_rooted hI (State.setCore_rooted hI hs)

theorem countFurther_rooted {s : State} {c n : Nat} (hs : I s) : I (countFurther s c n) :=
  State.modCoreTask_rooted hI hs

theorem faultSet_rooted {s : State} {i : Ctx} {source : Nat} {l : List (Nat × Cause)} (hs : I s) : I (faultSet s i source l) := by
  unfold faultSet
  split
  · exact hs
  · exact ite_via (fun h1 => h1) (fun h1 => countFurther_rooted hI h1) (raiseFault_rooted hI hs)

theorem advance_rooted {s : State} {i : Ctx} {ts : List Nat} {pc : Nat} (hs : I s) : I (advance s i ts pc) :=
  State.modGrp_rooted hI hs

theorem counted_rooted {s : State} {i : Ctx} (hs : I s) : I (counted s i) :=
  countFixed_rooted hI (countFixed_rooted hI (tickCompute_rooted hI (State.setCore_rooted hI hs)))

/-! ### Ras -/

theorem State.emit_rooted {s : State} {o : Out} (hs : I s) : I (State.emit s o) :=
  hI.rest hs

theorem sendMsix_rooted {s : State} {v : Nat} (hs : I s) : I (sendMsix s v) :=
  ite_rooted hs (ite_rooted (State.emit_rooted hI hs) (hI.rest hs))

theorem rasLogT_rooted {s : State} {e : LogEv} {training : Bool} (hs : I s) : I (rasLogT s e training) :=
  ite_via (fun h2 => sendMsix_rooted hI (State.setReg_rooted hI h2)) (fun h2 => h2) (State.setReg_rooted hI (ite_via (fun h1 =>
      State.setField_rooted hI h1) (fun h1 => h1) (hI.rest hs)))

theorem rasLog_rooted {s : State} {e : LogEv} (hs : I s) : I (rasLog s e) :=
  rasLogT_rooted hI hs

theorem addRepair_rooted {s : State} {r : Nat × Nat × Nat} (hs : I s) : I (addRepair s r) :=
  ite_rooted (hI.rest hs) (State.setField_rooted hI (hI.rest hs))

theorem noteCe_rooted {s : State} {u addr : Nat} (hs : I s) : I (noteCe s u addr) :=
  ite_rooted (hI.rest (State.setField_rooted hI hs)) (rasLog_rooted hI (hI.rest (State.setField_rooted hI hs)))

theorem countUe_rooted {s : State} {u addr code source : Nat} (hs : I s) : I (countUe s u addr code source) :=
  rasLog_rooted hI (State.setField_rooted hI hs)

theorem countConsumed_rooted {s : State} {u addr : Nat} (hs : I s) : I (countConsumed s u addr) :=
  rasLog_rooted hI (State.setField_rooted hI hs)

theorem accessViolation_rooted {s : State} {iface off value : Nat} (hs : I s) : I (accessViolation s iface off value) :=
  rasLog_rooted hI hs

/-! ### Units -/

theorem State.modCluster_rooted {s : State} {c : Nat} {f : Cluster → Cluster} (hs : I s) : I (State.modCluster s c f) :=
  hI.rest hs

theorem State.setPhys_rooted {s : State} {l : Nat} {p : Option Nat} (hs : I s) : I (State.setPhys s l p) :=
  hI.rest hs

theorem refreshClcore_rooted {s : State} {cl : Nat} (hs : I s) : I (refreshClcore s cl) :=
  State.setField_rooted hI (State.setField_rooted hI (State.setField_rooted hI (State.setField_rooted hI (State.setField_rooted hI hs))))

theorem leaveDispatch_rooted {s : State} {c : Nat} (hs : I s) : I (leaveDispatch s c) := by
  unfold leaveDispatch
  refine refreshClcore_rooted hI ?_
  split
  · exact State.setPhys_rooted hI (State.modCore_rooted hI hs)
  · exact State.modCore_rooted hI hs

theorem stopCore_rooted {s : State} {c code : Nat} (hs : I s) : I (stopCore s c code) :=
  ite_rooted (State.modCore_rooted hI (State.modCoreTask_rooted hI hs)) hs

theorem coreFault_rooted {s : State} {c code : Nat} (hs : I s) : I (coreFault s c code) :=
  stopCore_rooted hI (rasLog_rooted hI (leaveDispatch_rooted hI (State.modCore_rooted hI hs)))

/-! ### Floor -/

theorem refreshCommit_rooted {s : State} {c : Nat} (hs : I s) : I (refreshCommit s c) :=
  State.setField_rooted hI hs

theorem refreshProfile_rooted {s : State} (hs : I s) : I (refreshProfile s) :=
  hI.rest (foldl_rooted (fun _ _ h1 => State.setField_rooted hI h1) (State.setField_rooted hI hs))

theorem setFabric_rooted {s : State} {d f : Nat} (hs : I s) : I (setFabric s d f) :=
  hI.rest hs

theorem holdFabric_rooted {s : State} {c f : Nat} (hs : I s) : I (holdFabric s c f) :=
  foldl_rooted (fun _ _ h1 => ite_rooted h1 (setFabric_rooted hI h1)) hs

theorem settleFabric_rooted {s : State} (hs : I s) : I (settleFabric s) :=
  foldl_rooted (fun _ _ h1 => setFabric_rooted hI h1) hs

theorem refreshFloor_rooted {s : State} {c : Nat} (hs : I s) : I (refreshFloor s c) :=
  State.setField_rooted hI (State.setField_rooted hI (State.setField_rooted hI (holdFabric_rooted hI hs)))

theorem requestSetpoint_rooted {s : State} {c mv : Nat} (hs : I s) : I (requestSetpoint s c mv) :=
  ite_via (fun h1 => h1) (fun h1 => refreshFloor_rooted hI (State.setField_rooted hI (hI.rest h1))) (ite_rooted hs (rasLog_rooted hI hs))

theorem settle_rooted {s : State} {c : Nat} (hs : I s) : I (settle s c) :=
  refreshFloor_rooted hI (State.setField_rooted hI (State.setField_rooted hI hs))

theorem holdCommit_rooted {s : State} {c : Nat} (hs : I s) : I (holdCommit s c) := by
  unfold holdCommit
  refine ite_rooted (refreshFloor_rooted hI hs) ?_
  split
  · exact requestSetpoint_rooted hI (refreshFloor_rooted hI hs)
  · refine foldl_rooted (fun _ _ h1 => ?_) (refreshFloor_rooted hI hs)
    dsimp only
    split
    · exact ite_rooted (stopCore_rooted hI h1) h1
    · exact h1

theorem retireCluster_rooted {s : State} {c code : Nat} (hs : I s) : I (retireCluster s c code) :=
  ite_rooted hs (rasLog_rooted hI (foldl_rooted (fun _ _ h1 => stopCore_rooted hI h1) (State.setField_rooted hI (refreshClcore_rooted hI
      (refreshFloor_rooted hI (hI.rest (State.modCluster_rooted hI hs)))))))

theorem refreshCeiling_rooted {s : State} (hs : I s) : I (refreshCeiling s) :=
  State.setField_rooted hI (ite_via (fun h1 => hI.rest h1) (fun h1 => h1) (ite_rooted (hI.rest hs) hs))

theorem requestInrush_rooted {s : State} {c : Nat} (hs : I s) : I (requestInrush s c) :=
  ite_rooted hs (hI.rest hs)

theorem holdCover_rooted {s : State} (hs : I s) : I (holdCover s) :=
  foldl_rooted (fun _ _ h1 => ite_rooted h1 (requestSetpoint_rooted hI h1)) hs

theorem resumeAt_rooted {s : State} {c v : Nat} (hs : I s) : I (resumeAt s c v) :=
  refreshFloor_rooted hI (hI.rest hs)

theorem adoptPlan_rooted {s : State} {p : List (List Nat)} (hs : I s) : I (adoptPlan s p) :=
  holdCover_rooted hI (foldl_rooted (fun _ _ h1 => ite_rooted h1 (ite_rooted (requestInrush_rooted hI (resumeAt_rooted hI h1))
      (requestSetpoint_rooted hI h1))) (hI.rest hs))

theorem pwrEvent_rooted {s : State} {n : Nat} (hs : I s) : I (pwrEvent s n) :=
  ite_via (fun h1 => sendMsix_rooted hI h1) (fun h1 => h1) (State.setField_rooted hI hs)

/-! ### Operands -/

omit hI in
theorem coreRow_rooted {r : State} {own : Bool} {w : Word64} (hs : I r) : Leads I (coreRow own w r) :=
  Leads.ite (Leads.next hs) Leads.fault

/-! ### Home -/

theorem hstatOf_rooted {s : State} {h : Nat} (hs : I s) : I (hstatOf s h) :=
  State.setField_rooted hI (State.setField_rooted hI hs)

theorem refreshHstat_rooted {s : State} (hs : I s) : I (refreshHstat s) :=
  foldl_rooted (fun _ _ h1 => hstatOf_rooted hI h1) hs

/-! ### Bundle -/

theorem State.modBundle_rooted {s : State} {k : Nat} {f : Bundle → Bundle} (hs : I s) : I (State.modBundle s k f) :=
  hI.rest hs

theorem refreshTower_rooted {s : State} {t : Nat} (hs : I s) : I (refreshTower s t) :=
  State.setField_rooted hI (State.setField_rooted hI (State.setField_rooted hI (State.setField_rooted hI (State.setField_rooted hI
      (State.setField_rooted hI (State.setField_rooted hI hs))))))

theorem beginBankRetire_rooted {s : State} {tb : Nat} (hs : I s) : I (beginBankRetire s tb) :=
  ite_rooted hs (refreshTower_rooted hI (hI.rest hs))

/-! ### Issue -/

theorem icFetch_rooted {s : State} {i : Ctx} (hs : I s) : I (icFetch s i) := by
  unfold icFetch
  split
  · exact hs
  · exact ite_via (fun h1 => h1) (fun h1 => State.modCore_rooted hI h1) (ite_rooted hs (countCore_rooted hI hs))

theorem slotted_rooted {s : State} {i : Ctx} (hs : I s) : I (slotted s i) :=
  counted_rooted hI (icFetch_rooted hI hs)

theorem arrayCheck_rooted {s : State} {c : Nat} {pc : Nat} {e : ArrayErr} (hs : I s) : I (arrayCheck s c pc e) := by
  unfold arrayCheck
  split
  · exact hs
  · exact hs
  · split
    · exact hs
    · exact ite_rooted (noteCe_rooted hI (State.modCore_rooted hI hs)) hs
  · exact ite_rooted (noteCe_rooted hI (State.modCore_rooted hI hs)) hs
  · exact noteCe_rooted hI hs
  · exact noteCe_rooted hI hs
  · exact countUe_rooted hI (hI.rest hs)

theorem issue_rooted {s : State} {x : Site} {w : Word64} {regs preds : List Nat} {legal : Bool} {body : State → Ctx → State} (hb : ∀ s i, I s → I
    (body s i)) (hs : I s) : I (issue s x w regs preds legal body) := by
  unfold issue
  split
  · exact hs
  · refine ite_rooted (coreFault_rooted hI hs) ?_
    refine ite_rooted (faultSet_rooted hI (counted_rooted hI (arrayCheck_rooted hI hs))) ?_
    split
    · exact faultSet_rooted hI (countConsumed_rooted hI (counted_rooted hI (arrayCheck_rooted hI hs)))
    · exact ite_via (fun h1 => faultSet_rooted hI h1) (fun h1 => hb _ _ h1) (slotted_rooted hI (arrayCheck_rooted hI hs))

/-! ### Arith -/

theorem perThread_rooted {s : State} {f : Group → Ctx → Nat → TRes Eff} {i : Ctx} (hs : I s) : I (perThread f s i) :=
  faultSet_rooted hI (advance_rooted hI (addTaskCounter_rooted hI (State.modGrp_rooted hI hs)))

theorem execIalu_rooted {s : State} {x : Site} {op : Option IaluOp} {w : Word64} (hs : I s) : Leads I (execIalu x op w s) :=
  coreRow_rooted (issue_rooted hI (fun _ _ h1 => perThread_rooted hI h1) hs)

theorem execIalui_rooted {s : State} {x : Site} {op : Option IaluOp} {signed : Bool} {w : Word64} (hs : I s) : Leads I (execIalui x op signed w s)
    :=
  coreRow_rooted (issue_rooted hI (fun _ _ h1 => perThread_rooted hI h1) hs)

theorem execIdiv_rooted {s : State} {x : Site} {op : Option IdivOp} {w : Word64} (hs : I s) : Leads I (execIdiv x op w s) :=
  coreRow_rooted (issue_rooted hI (fun _ _ h1 => perThread_rooted hI h1) hs)

theorem execFalu_rooted {s : State} {x : Site} {op : Option FaluOp} {w : Word64} (hs : I s) : Leads I (execFalu x op w s) :=
  coreRow_rooted (issue_rooted hI (fun _ _ h1 => perThread_rooted hI h1) hs)

theorem execFalui_rooted {s : State} {x : Site} {op : Option FaluOp} {w : Word64} (hs : I s) : Leads I (execFalui x op w s) :=
  coreRow_rooted (issue_rooted hI (fun _ _ h1 => perThread_rooted hI (ite_rooted (hI.rest h1) h1)) hs)

theorem execFspec_rooted {s : State} {x : Site} {op : Option FspecOp} {w : Word64} (hs : I s) : Leads I (execFspec x op w s) :=
  coreRow_rooted (issue_rooted hI (fun _ _ h1 => perThread_rooted hI h1) hs)

theorem execCmp_rooted {s : State} {x : Site} {op : Option CmpOp} {w : Word64} (hs : I s) : Leads I (execCmp x op w s) :=
  coreRow_rooted (issue_rooted hI (fun _ _ h1 => perThread_rooted hI h1) hs)

theorem execCmpi_rooted {s : State} {x : Site} {op : Option CmpOp} {signed : Bool} {w : Word64} (hs : I s) : Leads I (execCmpi x op signed w s) :=
  coreRow_rooted (issue_rooted hI (fun _ _ h1 => perThread_rooted hI h1) hs)

theorem execCvt_rooted {s : State} {x : Site} {listed : Bool} {w : Word64} (hs : I s) : Leads I (execCvt x listed w s) :=
  coreRow_rooted (issue_rooted hI (fun _ _ h1 => perThread_rooted hI h1) hs)

theorem execMxq_rooted {s : State} {x : Site} {listed : Bool} {w : Word64} (hs : I s) : Leads I (execMxq x listed w s) :=
  coreRow_rooted (issue_rooted hI (fun _ _ h1 => faultSet_rooted hI (advance_rooted hI (ite_via (fun h2 => h2) (fun h2 => State.modGrp_rooted hI
      h2) (addTaskCounter_rooted hI h1)))) hs)

theorem execPred_rooted {s : State} {x : Site} {op : Option PredOp} {w : Word64} (hs : I s) : Leads I (execPred x op w s) :=
  coreRow_rooted (issue_rooted hI (fun _ _ h1 => perThread_rooted hI h1) hs)

theorem execXlane_rooted {s : State} {x : Site} {op : Option XlaneOp} {w : Word64} (hs : I s) : Leads I (execXlane x op w s) :=
  coreRow_rooted (issue_rooted hI (fun _ _ h1 => perThread_rooted hI h1) hs)

theorem execMove_rooted {s : State} {x : Site} {op : Option MoveOp} {w : Word64} (hs : I s) : Leads I (execMove x op w s) :=
  coreRow_rooted (issue_rooted hI (fun _ _ h1 => perThread_rooted hI h1) hs)

theorem execMoviMov_rooted {s : State} {x : Site} {w : Word64} (hs : I s) : Leads I (execMoviMov x w s) :=
  coreRow_rooted (issue_rooted hI (fun _ _ h1 => perThread_rooted hI h1) hs)

theorem execMoviMovh_rooted {s : State} {x : Site} {w : Word64} (hs : I s) : Leads I (execMoviMovh x w s) :=
  coreRow_rooted (issue_rooted hI (fun _ _ h1 => perThread_rooted hI h1) hs)

theorem srkeyBody_rooted {s : State} {hi fromReg : Bool} {w : Word64} {i : Ctx} (hs : I s) : I (srkeyBody hi fromReg w s i) := by
  unfold srkeyBody
  refine faultSet_rooted hI ?_
  refine advance_rooted hI ?_
  split
  · exact hs
  · exact ite_rooted hs (State.modGrp_rooted hI hs)

theorem execSrkeyLoI_rooted {s : State} {x : Site} {w : Word64} (hs : I s) : Leads I (execSrkeyLoI x w s) :=
  coreRow_rooted (issue_rooted hI (fun _ _ h1 => srkeyBody_rooted hI h1) hs)

theorem execSrkeyHiI_rooted {s : State} {x : Site} {w : Word64} (hs : I s) : Leads I (execSrkeyHiI x w s) :=
  coreRow_rooted (issue_rooted hI (fun _ _ h1 => srkeyBody_rooted hI h1) hs)

theorem execSrkeyLoG_rooted {s : State} {x : Site} {w : Word64} (hs : I s) : Leads I (execSrkeyLoG x w s) :=
  coreRow_rooted (issue_rooted hI (fun _ _ h1 => srkeyBody_rooted hI h1) hs)

theorem execSrkeyHiG_rooted {s : State} {x : Site} {w : Word64} (hs : I s) : Leads I (execSrkeyHiG x w s) :=
  coreRow_rooted (issue_rooted hI (fun _ _ h1 => srkeyBody_rooted hI h1) hs)

/-! ### LupMsg -/

theorem State.modLink_rooted {s : State} {l : Nat} {f : LLink → LLink} (hs : I s) : I (State.modLink s l f) :=
  hI.rest hs

theorem pumpLoop_rooted {l : Nat} {ms : List LMsg} {blocked : List Nat} {s : State} (hs : I s) : I (pumpLoop l ms blocked s) := by
  induction ms generalizing blocked s with
  | nil => exact hs
  | cons m ms ih =>
    unfold pumpLoop
    dsimp only
    split
    · exact ih hs
    · exact ih (State.emit_rooted hI (State.modLink_rooted hI hs))

theorem pumpLink_rooted {s : State} {l : Nat} (hs : I s) : I (pumpLink s l) :=
  pumpLoop_rooted hI hs

theorem sendMsg_rooted {s : State} {m : LMsg} (hs : I s) : I (sendMsg s m) :=
  ite_rooted hs (pumpLink_rooted hI (State.modLink_rooted hI hs))

theorem takeTag_rooted {s : State} {dst : Nat} (hs : I s) : I (takeTag s dst).2 :=
  hI.rest hs

theorem sendRequest_rooted {s : State} {m : LMsg} (hs : I s) : I (sendRequest s m) :=
  ite_rooted (sendMsg_rooted hI hs) (hI.rest hs)

theorem drainPort_rooted {s : State} {dst : Nat} (hs : I s) : I (drainPort s dst) := by
  unfold drainPort
  split
  · exact hs
  · exact ite_rooted hs (sendMsg_rooted hI (hI.rest hs))

theorem sendRemote_rooted {s : State} {label c g t a : Nat} {k : ReqKind} {pay : Option (Nat × LPay)} (hs : I s) : I (sendRemote s label c g t a k
    pay) :=
  sendRequest_rooted hI (hI.rest (takeTag_rooted hI hs))

/-! ### Control -/

theorem State.setBytes_rooted {s : State} {a : Nat} {bs : List Nat} (hs : I s) : I (s.setBytes a bs) :=
  hI.write (fun hm => writeBytes_wf hm _ _) hs

theorem takeLock_rooted {s : State} {glob : Bool} {a held c g t pdst : Nat} {lost : Bool} (hs : I s) : I (takeLock s glob a held c g t pdst lost)
    := by
  unfold takeLock
  exact State.modCore_rooted hI (ite_rooted hs (State.setBytes_rooted hI hs))

theorem releaseLocal_rooted {s : State} {c off : Nat} {lost : Bool} (hs : I s) : I (releaseLocal s c off lost) := by
  unfold releaseLocal
  split
  · exact State.setBytes_rooted hI (takeLock_rooted hI hs)
  · exact State.setBytes_rooted hI hs

theorem sendReq_rooted {s : State} {c g t a : Nat} {k : ReqKind} (hs : I s) : I (sendReq s c g t a k) :=
  hI.rest hs

theorem sendHome_rooted {s : State} {c g t a : Nat} {k : ReqKind} (hs : I s) : I (sendHome s c g t a k) :=
  ite_rooted (sendReq_rooted hI hs) (sendRemote_rooted hI hs)

theorem dropHeld_rooted {s : State} {c g t : Nat} {h : Held} (hs : I s) : I (dropHeld s c g t h) :=
  State.modCore_rooted hI hs

theorem releaseHeld_rooted {s : State} {c g t : Nat} (hs : I s) : I (releaseHeld s c g t) :=
  foldl_rooted (fun _ _ h1 => ite_via (fun h2 => sendHome_rooted hI h2) (fun h2 => releaseLocal_rooted hI h2) (addTaskCounter_rooted hI
      (dropHeld_rooted hI h1))) hs

theorem execBra_rooted {s : State} {x : Site} {w : Word64} (hs : I s) : Leads I (execBra x w s) :=
  coreRow_rooted (issue_rooted hI (fun _ _ h1 => ite_rooted (faultSet_rooted hI (advance_rooted hI h1)) (State.modGrp_rooted hI
      (countCore_rooted hI h1))) hs)

theorem execBrx_rooted {s : State} {x : Site} {w : Word64} (hs : I s) : Leads I (execBrx x w s) :=
  coreRow_rooted (issue_rooted hI (fun _ _ h1 => faultSet_rooted hI (State.modGrp_rooted hI (countCore_rooted hI h1))) hs)

theorem execNop_rooted {s : State} {x : Site} {w : Word64} (hs : I s) : Leads I (execNop x w s) :=
  coreRow_rooted (issue_rooted hI (fun _ _ h1 => advance_rooted hI h1) hs)

theorem execExit_rooted {s : State} {x : Site} {w : Word64} (hs : I s) : Leads I (execExit x w s) :=
  coreRow_rooted (issue_rooted hI (fun _ _ h1 => settleBarriers_rooted hI (State.modGrp_rooted hI (State.modGrp_rooted hI (foldl_rooted (fun _ _
      h2 => releaseHeld_rooted hI h2) h1)))) hs)

theorem arrive_rooted {s : State} {b : Block} {i : Ctx} {fs : List (Nat × Cause)} (hs : I s) : I (arrive b s i fs) :=
  faultSet_rooted hI (settleBarriers_rooted hI (advance_rooted hI (State.modGrp_rooted hI hs)))

theorem execBarG_rooted {s : State} {x : Site} {w : Word64} (hs : I s) : Leads I (execBarG x w s) :=
  coreRow_rooted (issue_rooted hI (fun _ _ h1 => arrive_rooted hI h1) hs)

theorem execBarT_rooted {s : State} {x : Site} {w : Word64} (hs : I s) : Leads I (execBarT x w s) :=
  coreRow_rooted (issue_rooted hI (fun _ _ h1 => arrive_rooted hI h1) hs)

theorem execWait_rooted {s : State} {x : Site} {w : Word64} (hs : I s) : Leads I (execWait x w s) :=
  coreRow_rooted (issue_rooted hI (fun _ _ h1 => faultSet_rooted hI (settleBarriers_rooted hI (advance_rooted hI (ite_rooted
      (State.modGrp_rooted hI h1) h1)))) hs)

theorem execPmcRead_rooted {s : State} {x : Site} {w : Word64} (hs : I s) : Leads I (execPmcRead x w s) :=
  coreRow_rooted (issue_rooted hI (fun _ _ h1 => faultSet_rooted hI (advance_rooted hI (ite_rooted (State.modGrp_rooted hI h1) h1))) hs)

theorem execGroupOverdue_rooted {s : State} {core : CoreId} {group : Fin 16} (hs : I s) : Leads I (execGroupOverdue core group s) :=
  Leads.next (ite_rooted (State.modGrp_rooted hI hs) hs)

theorem execJoinTimeout_rooted {s : State} {core : CoreId} {group : Fin 16} {thread : Fin 32} (hs : I s) : Leads I (execJoinTimeout core group
    thread s) := by
  unfold execJoinTimeout
  refine Leads.next ?_
  split
  · exact ite_rooted (State.modGrp_rooted hI hs) hs
  · exact hs

theorem execBarrierSplit_rooted {s : State} {core : CoreId} {scope : BarScope} (hs : I s) : Leads I (execBarrierSplit core scope s) :=
  Leads.next (ite_rooted (raiseFault_rooted hI hs) hs)

/-! ### Mem -/

theorem storeBytes_rooted {s : State} {a : Nat} {bs : List Nat} (hs : I s) : I (storeBytes s a bs) :=
  hI.write (fun hm => writeBytes_wf hm _ _) hs

theorem countPoisonedAt_rooted {s : State} {c : Nat} {fs : List (Nat × Cause)} (hs : I s) : I (countPoisonedAt s c fs) :=
  foldl_rooted (fun _ _ h1 => ite_rooted (countConsumed_rooted hI h1) h1) hs

theorem countPoisoned_rooted {s : State} {unit : Nat} {fs : List (Nat × Cause)} (hs : I s) : I (countPoisoned s unit fs) :=
  foldl_rooted (fun _ _ h1 => ite_rooted (countConsumed_rooted hI h1) h1) hs

theorem voidFill_rooted {s : State} {c : Nat} {hit : Nat → Bool} (hs : I s) : I (voidFill s c hit) :=
  hI.rest hs

theorem storeL1_rooted {s : State} {c a : Nat} {bs : List Nat} (hs : I s) : I (storeL1 s c a bs) :=
  voidFill_rooted hI (State.setCore_rooted hI hs)

theorem dropL1_rooted {s : State} {c line : Nat} (hs : I s) : I (dropL1 s c line) :=
  voidFill_rooted hI (State.setCore_rooted hI hs)

theorem flushL1_rooted {s : State} {c : Nat} (hs : I s) : I (flushL1 s c) :=
  voidFill_rooted hI (State.setCore_rooted hI hs)

theorem meterLine_rooted {s : State} {c a n : Nat} (hs : I s) : I (meterLine s c a n) :=
  addMeters_rooted hI hs

theorem meterSource_rooted {s : State} {c a n : Nat} (hs : I s) : I (meterSource s c a n) :=
  ite_rooted hs (addMeters_rooted hI hs)

theorem memDone_rooted {s : State} {c g t req : Nat} (hs : I s) : I (memDone s c g t req) :=
  State.modThread_rooted hI hs

theorem addWrite_rooted {s : State} {c g t : Nat} (hs : I s) : I (addWrite s c g t) :=
  State.modCore_rooted hI (State.modThread_rooted hI hs)

theorem loadLocal_rooted {s : State} {signed : Bool} {w : Word64} {i : Ctx} (hs : I s) : I (loadLocal signed w s i) :=
  countPoisoned_rooted hI (perThread_rooted hI hs)

theorem execLdstLLd_rooted {s : State} {x : Site} {w : Word64} (hs : I s) : Leads I (execLdstLLd x w s) :=
  coreRow_rooted (issue_rooted hI (fun _ _ h1 => loadLocal_rooted hI h1) hs)

theorem execLdstLLdS_rooted {s : State} {x : Site} {w : Word64} (hs : I s) : Leads I (execLdstLLdS x w s) :=
  coreRow_rooted (issue_rooted hI (fun _ _ h1 => loadLocal_rooted hI h1) hs)

theorem execLdstLSt_rooted {s : State} {x : Site} {w : Word64} (hs : I s) : Leads I (execLdstLSt x w s) :=
  coreRow_rooted (issue_rooted hI (fun _ _ h1 => faultSet_rooted hI (advance_rooted hI (foldl_rooted (fun _ _ h2 => storeBytes_rooted hI h2)
      h1))) hs)

theorem loadPlace_rooted {s : State} {signed : Bool} {w : Word64} {i : Ctx} {t : Nat} {p : Place} (hs : I s) : I (loadPlace signed w i s t p) := by
  unfold loadPlace
  split
  · exact State.modGrp_rooted hI hs
  · split
    · exact State.modGrp_rooted hI (State.setCore_rooted hI hs)
    · exact State.modGrp_rooted hI (sendHome_rooted hI (meterLine_rooted hI hs))

theorem countL1_rooted {s : State} {c : Nat} {ls : List (Nat × Bool)} (hs : I s) : I (countL1 s c ls) :=
  foldl_rooted (fun _ _ h1 => countCore_rooted hI h1) hs

theorem loadGlobal_rooted {s : State} {signed : Bool} {w : Word64} {i : Ctx} (hs : I s) : I (loadGlobal signed w s i) :=
  faultSet_rooted hI (countPoisonedAt_rooted hI (advance_rooted hI (foldl_rooted (fun _ _ h1 => loadPlace_rooted hI h1) (countL1_rooted hI hs))))

theorem execLdstGLd_rooted {s : State} {x : Site} {w : Word64} (hs : I s) : Leads I (execLdstGLd x w s) :=
  coreRow_rooted (issue_rooted hI (fun _ _ h1 => loadGlobal_rooted hI h1) hs)

theorem execLdstGLdS_rooted {s : State} {x : Site} {w : Word64} (hs : I s) : Leads I (execLdstGLdS x w s) :=
  coreRow_rooted (issue_rooted hI (fun _ _ h1 => loadGlobal_rooted hI h1) hs)

theorem storePlace_rooted {s : State} {i : Ctx} {t : Nat} {p : Place} {bs : List Nat} (hs : I s) : I (storePlace i s t p bs) := by
  unfold storePlace
  split
  · exact storeBytes_rooted hI hs
  · exact addWrite_rooted hI (sendHome_rooted hI (meterSource_rooted hI (meterLine_rooted hI (storeL1_rooted hI hs))))

theorem execLdstGSt_rooted {s : State} {x : Site} {w : Word64} (hs : I s) : Leads I (execLdstGSt x w s) :=
  coreRow_rooted (issue_rooted hI (fun _ _ h1 => faultSet_rooted hI (advance_rooted hI (foldl_rooted (fun _ _ h2 => storePlace_rooted hI h2)
      h1))) hs)

theorem atomPlace_rooted {s : State} {op : Nat} {w : Word64} {i : Ctx} {t : Nat} {p : Place} {args : Nat × Nat} (hs : I s) : I (atomPlace op w i s
    t p args) := by
  unfold atomPlace
  split
  · exact State.modGrp_rooted hI (State.setBytes_rooted hI hs)
  · dsimp only
    split
    · exact State.modGrp_rooted hI (State.modCore_rooted hI (dropL1_rooted hI hs))
    · exact State.modGrp_rooted hI (sendHome_rooted hI (meterLine_rooted hI (dropL1_rooted hI hs)))

theorem atomBody_rooted {s : State} {op : Nat} {w : Word64} {i : Ctx} (hs : I s) : I (atomBody op w s i) :=
  faultSet_rooted hI (countPoisonedAt_rooted hI (advance_rooted hI (foldl_rooted (fun _ _ h1 => atomPlace_rooted hI h1) hs)))

theorem atomRow_rooted {s : State} {op : Nat} {x : Site} {w : Word64} (hs : I s) : Leads I (atomRow op x w s) :=
  coreRow_rooted (issue_rooted hI (fun _ _ h1 => atomBody_rooted hI h1) hs)

theorem execAtomAdd_rooted {s : State} {x : Site} {w : Word64} (hs : I s) : Leads I (execAtomAdd x w s) :=
  atomRow_rooted hI hs

theorem execAtomFadd_rooted {s : State} {x : Site} {w : Word64} (hs : I s) : Leads I (execAtomFadd x w s) :=
  atomRow_rooted hI hs

theorem execAtomMinS_rooted {s : State} {x : Site} {w : Word64} (hs : I s) : Leads I (execAtomMinS x w s) :=
  atomRow_rooted hI hs

theorem execAtomMinU_rooted {s : State} {x : Site} {w : Word64} (hs : I s) : Leads I (execAtomMinU x w s) :=
  atomRow_rooted hI hs

theorem execAtomMaxS_rooted {s : State} {x : Site} {w : Word64} (hs : I s) : Leads I (execAtomMaxS x w s) :=
  atomRow_rooted hI hs

theorem execAtomMaxU_rooted {s : State} {x : Site} {w : Word64} (hs : I s) : Leads I (execAtomMaxU x w s) :=
  atomRow_rooted hI hs

theorem execAtomAnd_rooted {s : State} {x : Site} {w : Word64} (hs : I s) : Leads I (execAtomAnd x w s) :=
  atomRow_rooted hI hs

theorem execAtomOr_rooted {s : State} {x : Site} {w : Word64} (hs : I s) : Leads I (execAtomOr x w s) :=
  atomRow_rooted hI hs

theorem execAtomXor_rooted {s : State} {x : Site} {w : Word64} (hs : I s) : Leads I (execAtomXor x w s) :=
  atomRow_rooted hI hs

theorem execAtomExch_rooted {s : State} {x : Site} {w : Word64} (hs : I s) : Leads I (execAtomExch x w s) :=
  atomRow_rooted hI hs

theorem execAtomCas_rooted {s : State} {x : Site} {w : Word64} (hs : I s) : Leads I (execAtomCas x w s) :=
  atomRow_rooted hI hs

theorem acquire_rooted {s : State} {w : Word64} {i : Ctx} {t : Nat} {l : LockAt} (hs : I s) : I (acquire w i s t l) := by
  unfold acquire
  split
  · exact ite_rooted (State.modThread_rooted hI hs) (takeLock_rooted hI hs)
  · exact sendHome_rooted hI (State.modThread_rooted hI (meterLine_rooted hI hs))

theorem acqBody_rooted {s : State} {glob : Bool} {w : Word64} {i : Ctx} (hs : I s) : I (acqBody glob w s i) :=
  faultSet_rooted hI (countPoisonedAt_rooted hI (settleBarriers_rooted hI (State.modGrp_rooted hI (foldl_rooted (fun _ _ h1 => acquire_rooted hI
      h1) (advance_rooted hI hs)))))

theorem release_rooted {s : State} {i : Ctx} {t : Nat} {l : LockAt} (hs : I s) : I (release i s t l) := by
  unfold release
  split
  · exact releaseLocal_rooted hI (dropHeld_rooted hI hs)
  · exact State.modGrp_rooted hI (sendHome_rooted hI (meterLine_rooted hI (dropHeld_rooted hI hs)))

theorem relBody_rooted {s : State} {glob : Bool} {w : Word64} {i : Ctx} (hs : I s) : I (relBody glob w s i) :=
  faultSet_rooted hI (countPoisonedAt_rooted hI (settleBarriers_rooted hI (State.modGrp_rooted hI (foldl_rooted (fun _ _ h1 => release_rooted hI
      h1) (advance_rooted hI hs)))))

theorem execLockAcqL_rooted {s : State} {x : Site} {w : Word64} (hs : I s) : Leads I (execLockAcqL x w s) :=
  coreRow_rooted (issue_rooted hI (fun _ _ h1 => acqBody_rooted hI h1) hs)

theorem execLockAcqG_rooted {s : State} {x : Site} {w : Word64} (hs : I s) : Leads I (execLockAcqG x w s) :=
  coreRow_rooted (issue_rooted hI (fun _ _ h1 => acqBody_rooted hI h1) hs)

theorem execLockRelL_rooted {s : State} {x : Site} {w : Word64} (hs : I s) : Leads I (execLockRelL x w s) :=
  coreRow_rooted (issue_rooted hI (fun _ _ h1 => relBody_rooted hI h1) hs)

theorem execLockRelG_rooted {s : State} {x : Site} {w : Word64} (hs : I s) : Leads I (execLockRelG x w s) :=
  coreRow_rooted (issue_rooted hI (fun _ _ h1 => relBody_rooted hI h1) hs)

theorem execLockWake_rooted {s : State} {core : CoreId} {addr : Nat} (hs : I s) : Leads I (execLockWake core addr s) := by
  unfold execLockWake
  refine Leads.next ?_
  split
  · exact hs
  · exact ite_via (fun h1 => settleBarriers_rooted hI (takeLock_rooted hI h1)) (fun h1 => h1) (hI.rest hs)

theorem execLockRetry_rooted {s : State} {core : CoreId} {addr : Nat} (hs : I s) : Leads I (execLockRetry core addr s) := by
  unfold execLockRetry
  refine Leads.next ?_
  split
  · exact hs
  · exact sendHome_rooted hI (hI.rest hs)

theorem fenceBody_rooted {s : State} {wait_ inval : Bool} {i : Ctx} (hs : I s) : I (fenceBody wait_ inval s i) :=
  settleBarriers_rooted hI (advance_rooted hI (ite_via (fun h1 => flushL1_rooted hI h1) (fun h1 => h1) (State.modGrp_rooted hI hs)))

theorem execFenceW_rooted {s : State} {x : Site} {w : Word64} (hs : I s) : Leads I (execFenceW x w s) :=
  coreRow_rooted (issue_rooted hI (fun _ _ h1 => fenceBody_rooted hI h1) hs)

theorem execFenceA_rooted {s : State} {x : Site} {w : Word64} (hs : I s) : Leads I (execFenceA x w s) :=
  coreRow_rooted (issue_rooted hI (fun _ _ h1 => fenceBody_rooted hI h1) hs)

theorem execFenceAw_rooted {s : State} {x : Site} {w : Word64} (hs : I s) : Leads I (execFenceAw x w s) :=
  coreRow_rooted (issue_rooted hI (fun _ _ h1 => fenceBody_rooted hI h1) hs)

theorem deliver_rooted {s : State} {c : Nat} {r : Resp} (hs : I s) : I (deliver s c r) :=
  ite_rooted (State.modCore_rooted hI hs) (ite_rooted (raiseFault_rooted hI (countConsumed_rooted hI (State.modGrp_rooted hI (State.modCore_rooted
      hI hs)))) (settleBarriers_rooted hI (ite_via (fun h1 => h1) (fun h1 => State.setCore_rooted hI h1) (State.modGrp_rooted hI
      (State.modGrp_rooted hI (State.modGrp_rooted hI (State.modCore_rooted hI hs)))))))

theorem execLoadResponse_rooted {s : State} {core : CoreId} (hs : I s) : Leads I (execLoadResponse core s) := by
  unfold execLoadResponse
  refine Leads.next ?_
  split
  · exact hs
  · exact deliver_rooted hI hs

theorem fenceDone_rooted {s : State} {c g t : Nat} (hs : I s) : I (fenceDone s c g t) := by
  unfold fenceDone
  split
  · exact ite_rooted (settleBarriers_rooted hI (ite_via (fun h1 => flushL1_rooted hI h1) (fun h1 => h1) (State.modGrp_rooted hI hs))) hs
  · exact hs

theorem execWriteAck_rooted {s : State} {core : CoreId} (hs : I s) : Leads I (execWriteAck core s) := by
  unfold execWriteAck
  refine Leads.next ?_
  split
  · exact hs
  · exact ite_via (fun h2 => raiseFault_rooted hI (countConsumed_rooted hI h2)) (fun h2 => h2) (ite_via (fun h1 => addTaskCounter_rooted hI h1)
        (fun h1 => h1) (fenceDone_rooted hI (State.modThread_rooted hI (State.modCore_rooted hI hs))))

/-! ### Stored -/

theorem modLine_rooted {s : State} {l : Nat} {f : Line → Line} (hs : I s) : I (modLine s l f) :=
  hI.rest hs

theorem logCe_rooted {s : State} {u addr : Nat} (hs : I s) : I (logCe s u addr) :=
  hI.rest (noteCe_rooted hI hs)

theorem noteFind_rooted {s : State} {key : Nat} {f : Find} {run : Option ScrubRun} (hs : I s) : I (noteFind s key f run) := by
  unfold noteFind
  split
  · exact hI.rest (hI.rest hs)
  · exact ite_via (fun h1 => h1) (fun h1 => hI.rest h1) (hI.rest hs)

theorem poisonBytes_rooted {s : State} {a n : Nat} (hs : I s) : I (poisonBytes s a n) :=
  hI.write (fun hm => clearBytes_wf hm _ _) hs

theorem poisonSram_rooted {s : State} {a n : Nat} (hs : I s) : I (poisonSram s a n) :=
  poisonBytes_rooted hI (modLine_rooted hI hs)

theorem poisonHbm_rooted {s : State} {x : Nat} (hs : I s) : I (poisonHbm s x) := by
  unfold poisonHbm
  split
  · exact poisonBytes_rooted hI hs
  · exact ite_rooted hs (modLine_rooted hI hs)

theorem sramFlaw_rooted {s : State} {source : Nat} {run : Option ScrubRun} {a n : Nat} {e : Flaw} (hs : I s) : I (sramFlaw source run a n s e) := by
  unfold sramFlaw
  split
  · exact hs
  · exact ite_rooted hs (ite_rooted (noteCe_rooted hI hs) (countUe_rooted hI (poisonSram_rooted hI hs)))
  · split
    · exact hs
    · exact ite_via (fun h1 => countUe_rooted hI (poisonSram_rooted hI h1)) (fun h1 => hI.rest (logCe_rooted hI h1)) (noteFind_rooted hI hs)

theorem sramRead_rooted {s : State} {a n : Nat} {e : EccRes} {source : Nat} (hs : I s) : I (sramRead s a n e source) :=
  foldl_rooted (fun _ _ h1 => sramFlaw_rooted hI h1) hs

theorem hbmFlaw_rooted {s : State} {source : Nat} {run : Option ScrubRun} {a n : Nat} {e : Flaw} (hs : I s) : I (hbmFlaw source run a n s e) := by
  unfold hbmFlaw
  split
  · exact noteCe_rooted hI hs
  · exact hs
  · split
    · exact hs
    · exact ite_via (fun h1 => countUe_rooted hI (poisonHbm_rooted hI h1)) (fun h1 => hI.rest (noteCe_rooted hI h1)) (noteFind_rooted hI hs)

theorem hbmRead_rooted {s : State} {a n : Nat} {e : EccRes} (hs : I s) : I (hbmRead s a n e) :=
  foldl_rooted (fun _ _ h1 => hbmFlaw_rooted hI h1) hs

theorem storeFlaw_rooted {s : State} {c lo n : Nat} {e : Flaw} (hs : I s) : I (storeFlaw c lo n s e) := by
  unfold storeFlaw
  split
  · exact ite_rooted hs (ite_rooted (countUe_rooted hI (poisonBytes_rooted hI hs)) (noteCe_rooted hI hs))
  · exact ite_rooted hs (noteCe_rooted hI hs)
  · exact hs

theorem findErrs_rooted {s : State} {c : Nat} {errs : List (Nat × Flaw)} (hs : I s) : I (findErrs c s errs) :=
  foldl_rooted (fun _ _ h1 => ite_rooted (storeFlaw_rooted hI h1) (ite_rooted h1 (ite_rooted (sramFlaw_rooted hI h1) (hbmFlaw_rooted hI h1)))) hs

theorem mergeWord_rooted {s : State} {ecc : EccRes} {w o n : Nat} (hs : I s) : I (mergeWord ecc s w o n) := by
  refine ite_rooted (hI.rest hs) (ite_rooted (hI.rest hs) (hI.rest ?_))
  refine iteInduction (motive := fun p : State × List MergeEntry => I p.1) (fun _ => hs) (fun _ => ?_)
  split
  · exact hs
  · exact sramRead_rooted hI hs

theorem mergeClose_rooted {s : State} {line : Nat} (hs : I s) : I (mergeClose s line) :=
  hI.rest hs

theorem mergeCover_rooted {s : State} {w : Nat} (hs : I s) : I (mergeCover s w) :=
  hI.rest hs

theorem readWord_rooted {s : State} {a n : Nat} {e : EccRes} {source : Nat} (hs : I s) : I (readWord s a n e source) :=
  mergeClose_rooted hI (sramRead_rooted hI hs)

theorem cancelRewrites_rooted {s : State} {a n : Nat} (hs : I s) : I (cancelRewrites s a n) :=
  hI.rest hs

theorem touchLine_rooted {s : State} {a n : Nat} (hs : I s) : I (touchLine s a n) :=
  modLine_rooted hI (cancelRewrites_rooted hI hs)

theorem leaveLine_rooted {s : State} {ecc : EccRes} {line : Nat} (hs : I s) : I (leaveLine ecc s line) := by
  unfold leaveLine
  split
  · exact hs
  · exact refreshHstat_rooted hI (hI.rest (ite_via (fun h1 => foldl_rooted (fun _ _ h2 => ite_rooted (poisonBytes_rooted hI h2) h2)
        (cancelRewrites_rooted hI h1)) (fun h1 => foldl_rooted (fun _ _ h3 => poisonBytes_rooted hI h3) (foldl_rooted (fun _ _ h4 =>
        storeBytes_rooted hI h4) h1)) (readWord_rooted hI hs)))

theorem makeRoom_rooted {ecc : EccRes} {s : State} {m : Home} {t : State} (hs : I s) (ht : makeRoom ecc s m = some t) : I t := by
  unfold makeRoom at ht
  dsimp only at ht
  split at ht
  · cases ht; exact hs
  · split at ht
    · cases ht
    · cases ht; exact hI.rest (leaveLine_rooted hI hs)

theorem placeLine_rooted {s : State} {m : Home} {line : Nat} (hs : I s) : I (placeLine s m line) :=
  refreshHstat_rooted hI (hI.rest (countEvent_rooted hI hs))

theorem applyRed_rooted {e : RedEntry} {n i : Nat} {acc : State × Bool × Bool} (hs : I acc.1) : I (applyRed e n i acc).1 := by
  induction n generalizing i acc with
  | zero => exact hs
  | succ n ih =>
    obtain ⟨s, p, w⟩ := acc
    unfold applyRed
    dsimp only
    split
    · exact ih hs
    · exact ih (State.setBytes_rooted hI hs)

theorem askHost_rooted {s : State} {line : Nat} (hs : I s) : I (askHost s line) :=
  ite_rooted hs (ite_via (fun h1 => h1) (fun h1 => State.emit_rooted hI h1) (hI.rest hs))

theorem giveBack_rooted {s : State} {line : Nat} (hs : I s) : I (giveBack s line) :=
  ite_rooted (hI.rest hs) hs

theorem doneHost_rooted {s : State} {line : Nat} (hs : I s) : I (doneHost s line) :=
  giveBack_rooted hI (hI.rest hs)

theorem redAnswer_rooted {s : State} {parent : Nat} {poison window : Bool} (hs : I s) : I (redAnswer s parent poison window) := by
  unfold redAnswer
  split
  · exact hs
  · refine ite_rooted ?_ (hI.rest hs)
    split
    · exact State.modCore_rooted hI (hI.rest hs)
    · exact sendMsg_rooted hI (hI.rest hs)

theorem entryEffect_rooted {s : State} {e : RedEntry} (hs : I s) : I (entryEffect s e) :=
  redAnswer_rooted hI (giveBack_rooted hI (touchLine_rooted hI (applyRed_rooted hI (mergeClose_rooted hI (hI.rest hs)))))

theorem drainHbm_rooted {s : State} {line : Nat} (hs : I s) : I (drainHbm s line) :=
  foldl_rooted (fun _ _ h1 => entryEffect_rooted hI h1) hs

theorem installLine_rooted {s : State} {line : Nat} (hs : I s) : I (installLine s line) := by
  unfold installLine
  split
  · exact hs
  · split
    · exact hs
    · split
      · exact placeLine_rooted hI (makeRoom_rooted hI hs ‹_›)
      · split
        · exact hs
        · split
          · exact placeLine_rooted hI (makeRoom_rooted hI (drainHbm_rooted hI hs) ‹_›)
          · exact hs

theorem putBytes_rooted {s : State} {ecc : EccRes} {a : Nat} {bs : List Nat} (hs : I s) : I (putBytes ecc s a bs) :=
  touchLine_rooted hI (foldl_rooted (fun _ _ h1 => ite_rooted (mergeCover_rooted hI h1) (mergeWord_rooted hI h1)) (storeBytes_rooted hI hs))

theorem putLine_rooted {s : State} {ecc : EccRes} {alloc : Bool} {p : Nat × List Nat} (hs : I s) : I (putLine ecc alloc s p) :=
  putBytes_rooted hI (ite_via (fun h1 => h1) (fun h1 => installLine_rooted hI h1) (drainHbm_rooted hI hs))

theorem putSource_rooted {s : State} {a : Nat} {bs : List Nat} (hs : I s) : I (putSource s a bs) := by
  unfold putSource
  split
  · exact hs
  · exact foldl_rooted (fun _ _ h1 => putLine_rooted hI h1) hs

theorem applyEntry_rooted {s : State} {e : RedEntry} (hs : I s) : I (applyEntry s e) := by
  unfold applyEntry
  refine ite_via (fun h1 => h1) (fun h1 => foldl_rooted (fun _ _ h2 => ite_rooted h2 (putSource_rooted hI h2)) h1) ?_
  refine entryEffect_rooted hI ?_
  split
  · exact ite_rooted (meterSource_rooted hI hs) hs
  · exact hs

theorem drainLine_rooted {s : State} {line : Nat} (hs : I s) : I (drainLine s line) :=
  foldl_rooted (fun _ _ h1 => applyEntry_rooted hI h1) hs

theorem homeWriteBy_rooted {s : State} {ecc : EccRes} {alloc : Bool} {a : Nat} {bs : List Nat} (hs : I s) : I (homeWriteBy ecc alloc s a bs) :=
  foldl_rooted (fun _ _ h1 => putSource_rooted hI (putLine_rooted hI (drainLine_rooted hI h1))) hs

theorem homeWrite_rooted {s : State} {a : Nat} {bs : List Nat} (hs : I s) : I (homeWrite s a bs) :=
  homeWriteBy_rooted hI hs

theorem homeUpdate_rooted {s : State} {a : Nat} {bs : List Nat} (hs : I s) : I (homeUpdate s a bs) :=
  putSource_rooted hI (touchLine_rooted hI (State.setBytes_rooted hI (ite_rooted hs (installLine_rooted hI hs))))

theorem homePoisoned_rooted {s : State} {a n : Nat} (hs : I s) : I (homePoisoned s a n) := by
  unfold homePoisoned
  dsimp only
  split
  · exact touchLine_rooted hI (poisonBytes_rooted hI (mergeClose_rooted hI (ite_via (fun h1 => h1) (fun h1 => installLine_rooted hI h1)
        (drainLine_rooted hI hs))))
  · exact touchLine_rooted hI (poisonBytes_rooted hI (mergeClose_rooted hI (ite_via (fun h3 => h3) (fun h3 => installLine_rooted hI h3)
        (drainHbm_rooted hI (touchLine_rooted hI (poisonBytes_rooted hI (mergeClose_rooted hI (ite_via (fun h2 => h2) (fun h2 => installLine_rooted
        hI h2) (drainLine_rooted hI hs)))))))))

theorem taskWrite_rooted {s : State} {c a : Nat} {bs : List Nat} (hs : I s) : I (taskWrite s c a bs) :=
  homeWrite_rooted hI (meterSource_rooted hI hs)

theorem writeLock_rooted {s : State} {a v : Nat} (hs : I s) : I (writeLock s a v) :=
  homeUpdate_rooted hI hs

theorem evictLine_rooted {s : State} {line : Nat} (hs : I s) : I (evictLine s line) :=
  leaveLine_rooted hI (drainLine_rooted hI hs)

/-! ### Queue -/

theorem State.setQf_rooted {s : State} {q o n v : Nat} (hs : I s) : I (s.setQf q o n v) :=
  hI.write (fun hm => writeBytes_wf hm _ _) hs

theorem useQueue_rooted {s : State} {q : Nat} (hs : I s) : I (useQueue s q) :=
  hI.rest hs

theorem spillEntry_rooted {s : State} {e : Entry} (hs : I s) : I (spillEntry s e) := by
  unfold spillEntry
  split
  · exact State.setQf_rooted hI (State.setQf_rooted hI hs)
  · exact State.setQf_rooted hI (hI.write (fun hm => writeBytes_wf hm _ _) hs)

theorem hostPut_rooted {s : State} {a : Nat} {bs : List Nat} (hs : I s) : I (hostPut s a bs) :=
  ite_rooted (sendMsg_rooted hI (takeTag_rooted hI hs)) (State.emit_rooted hI hs)

theorem queueMsix_rooted {s : State} {v : Nat} (hs : I s) : I (queueMsix s v) :=
  ite_rooted (sendMsg_rooted hI (takeTag_rooted hI hs)) (sendMsix_rooted hI hs)

theorem ringEntry_rooted {s : State} {e : Entry} {spilled : Bool} (hs : I s) : I (ringEntry s e spilled) :=
  ite_via (fun h2 => h2) (fun h2 => queueMsix_rooted hI h2) (State.setQf_rooted hI (ite_via (fun h1 => State.setQf_rooted hI h1) (fun h1 => h1)
      (ite_rooted (hostPut_rooted hI hs) (homeWrite_rooted hI hs))))

theorem postEntry_rooted {s : State} {e : Entry} {stall : Bool} (hs : I s) : I (postEntry s e stall) :=
  ite_via (fun h1 => hI.rest h1) (fun h1 => ite_via (fun h2 => spillEntry_rooted hI h2) (fun h2 => ringEntry_rooted hI h2) h1) (useQueue_rooted hI
      hs)

theorem drainSpill_rooted {q n : Nat} {s : State} (hs : I s) : I (drainSpill q n s) := by
  induction n generalizing s with
  | zero => exact hs
  | succ n ih =>
    unfold drainSpill
    split
    · exact hs
    · split
      · exact hs
      · exact ih (ringEntry_rooted hI (State.setQf_rooted hI (hI.rest hs)))

theorem badDoorbell_rooted {s : State} {q word : Nat} (hs : I s) : I (badDoorbell s q word) :=
  rasLog_rooted hI hs

theorem rejectDoorbell_rooted {s : State} {q word code : Nat} (hs : I s) : I (rejectDoorbell s q word code) :=
  badDoorbell_rooted hI (ite_rooted (State.setQf_rooted hI (State.setQf_rooted hI hs)) hs)

theorem askDescriptor_rooted {s : State} {q i : Nat} (hs : I s) : I (askDescriptor s q i) :=
  ite_rooted hs (ite_rooted (sendRequest_rooted hI (hI.rest (takeTag_rooted hI hs))) (State.emit_rooted hI hs))

theorem dropDoorbell_rooted {s : State} {q : Nat} (hs : I s) : I (dropDoorbell s q) :=
  rasLog_rooted hI hs

theorem takeHead_rooted {s : State} {w : Nat} (hs : I s) : I (takeHead s w) :=
  ite_via (fun h1 => badDoorbell_rooted hI h1) (fun h1 => ite_via (fun h2 => rejectDoorbell_rooted hI h2) (fun h2 => ite_via (fun h3 =>
      rejectDoorbell_rooted hI h3) (fun h3 => drainSpill_rooted hI (State.setQf_rooted hI h3)) h2) h1) (useQueue_rooted hI hs)

theorem ringCq_rooted {s : State} {w : Nat} (hs : I s) : I (ringCq s w) :=
  ite_rooted (takeHead_rooted hI hs) (dropDoorbell_rooted hI hs)

theorem execCompletionHeadDoorbell_rooted {s : State} {word : Word64} (hs : I s) : Leads I (execCompletionHeadDoorbell word s) :=
  Leads.next (ringCq_rooted hI hs)

theorem execDescriptorReadComplete_rooted {s : State} {bytes : List Byte} {poison : Bool} (hs : I s) : Leads I (execDescriptorReadComplete bytes
    poison s) := by
  unfold execDescriptorReadComplete
  refine Leads.next ?_
  split
  · exact hs
  · split
    · exact hs
    · exact hI.rest hs

theorem execDescriptorReadTimeout_rooted {s : State} (hs : I s) : Leads I (execDescriptorReadTimeout s) := by
  unfold execDescriptorReadTimeout
  refine Leads.next ?_
  split
  · exact hs
  · split
    · exact hs
    · exact hI.rest hs

theorem execCompletionStallTimeout_rooted {s : State} {queue : Fin 1048576} (hs : I s) : Leads I (execCompletionStallTimeout queue s) := by
  unfold execCompletionStallTimeout
  refine Leads.next ?_
  split
  · exact hs
  · exact spillEntry_rooted hI (hI.rest hs)

theorem execSpillMove_rooted {s : State} (hs : I s) : Leads I (execSpillMove s) :=
  Leads.next (foldl_rooted (fun _ _ h1 => postEntry_rooted hI h1) (hI.rest (foldl_rooted (fun _ _ h2 => drainSpill_rooted hI h2) hs)))

/-! ### Scrub -/

theorem modRun_rooted {s : State} {task : Bool} {id : Nat} {f : ScrubRun → ScrubRun} (hs : I s) : I (modRun s task id f) :=
  hI.rest hs

theorem scrubSend_rooted {s : State} {task : Bool} {id a : Nat} {hbm : Bool} (hs : I s) : I (scrubSend s task id a hbm) :=
  hI.rest hs

theorem scrubBegin_rooted {s : State} {task : Bool} {id : Nat} {r : ScrubReq} (hs : I s) : I (scrubBegin s task id r) :=
  scrubSend_rooted hI (hI.rest hs)

theorem stopRun_rooted {s : State} {task : Bool} {id : Nat} (hs : I s) : I (stopRun s task id) :=
  modRun_rooted hI (hI.rest hs)

theorem stopUnbacked_rooted {s : State} (hs : I s) : I (stopUnbacked s) :=
  foldl_rooted (fun _ _ h1 => stopRun_rooted hI h1) hs

theorem scrubRead_rooted {s : State} {run : ScrubRun} {line : Nat} {hbm : Bool} {e : EccRes} (hs : I s) : I (scrubRead s run line hbm e).1 :=
  ite_via (fun h1 => h1) (fun h1 => mergeClose_rooted hI h1)
    (foldl_fst_rooted (fun _ _ h1 => ite_rooted (hbmFlaw_rooted hI h1) (sramFlaw_rooted hI h1)) hs)

theorem scrubServe_rooted {s : State} {a : Nat} {task : Bool} {id : Nat} {hbm : Bool} {e : EccRes} (hs : I s) : I (scrubServe s a task id hbm e) :=
    by
  unfold scrubServe
  split
  · exact hs
  · exact ite_via (fun h1 => scrubSend_rooted hI h1) (fun h1 => ite_via (fun h2 => h2) (fun h2 => scrubSend_rooted hI h2) h1) (modRun_rooted hI
        (doneHost_rooted hI (scrubRead_rooted hI hs)))

theorem endRun_rooted {s : State} {task : Bool} {id : Nat} {r : ScrubReq} (hs : I s) : I (endRun s task id r).1 := by
  unfold endRun
  dsimp only
  split
  · exact stopRun_rooted hI hs
  · exact hI.rest (stopRun_rooted hI hs)

theorem dropOwed_rooted {s : State} {r : Nat × Nat × Nat} {key : Nat} {gone : Find → Bool} (hs : I s) : I (dropOwed s r key gone) :=
  hI.rest hs

theorem repairMade_rooted {s : State} {r : Nat × Nat × Nat} {key : Nat} {gone : Find → Bool} (hs : I s) : I (repairMade s r key gone) :=
  hI.rest (dropOwed_rooted hI hs)

theorem putSummary_rooted {s : State} {t : Task} {a : Nat} {b : List Nat} {ecc : EccRes} (hs : I s) : I (putSummary s t a b ecc) :=
  ite_rooted hs (ite_rooted (homeWrite_rooted hI (ite_rooted hs (hbmRead_rooted hI hs))) (sendMsg_rooted hI (takeTag_rooted hI hs)))

theorem scrubLaunch_rooted {s : State} {id : Nat} {t : Task} (hs : I s) : I (scrubLaunch s id t) :=
  ite_rooted (scrubBegin_rooted hI hs) hs

theorem scrubTask_rooted {s : State} {id : Nat} {t : Task} {ecc : EccRes} (hs : I s) : I (scrubTask s id t ecc) := by
  unfold scrubTask
  refine ite_rooted hs ?_
  split
  · exact putSummary_rooted hI (endRun_rooted hI hs)
  · exact putSummary_rooted hI hs

/-! ### Llc -/

theorem respond_rooted {s : State} {r : Req} {f : Resp → Resp} (hs : I s) : I (respond s r f) :=
  State.modCore_rooted hI hs

theorem serveLoad_rooted {s : State} {r : Req} {n : Nat} {signed uni alloc : Bool} {dst : Nat} (hs : I s) : I (serveLoad s r n signed uni alloc
    dst) := by
  unfold serveLoad
  exact respond_rooted hI hs

theorem serveAtom_rooted {s : State} {r : Req} {op n : Nat} {uni : Bool} {dst operand cmp : Nat} (hs : I s) : I (serveAtom s r op n uni dst operand
    cmp) :=
  ite_rooted (respond_rooted hI hs) (respond_rooted hI (State.modCore_rooted hI (State.modCore_rooted hI (homeUpdate_rooted hI (meterSource_rooted
      hI hs)))))

theorem serveAcq_rooted {s : State} {r : Req} {pdst : Nat} (hs : I s) : I (serveAcq s r pdst) :=
  ite_rooted (respond_rooted hI hs) (ite_rooted (hI.rest (writeLock_rooted hI (meterSource_rooted hI hs))) (ite_rooted (hI.rest hs) (hI.rest hs)))

theorem passLock_rooted {s : State} {a : Nat} {lost : Bool} (hs : I s) : I (passLock s a lost).1 := by
  unfold passLock
  split
  · split
    · exact hI.rest (hI.rest (writeLock_rooted hI hs))
    · exact sendMsg_rooted hI (hI.rest (writeLock_rooted hI hs))
  · exact writeLock_rooted hI hs

theorem pinAnswer_rooted {s : State} {parent : Nat} {granted : Bool} (hs : I s) : I (pinAnswer s parent granted) := by
  unfold pinAnswer
  split
  · exact hs
  · exact ite_rooted (State.modCore_rooted hI (hI.rest hs)) (hI.rest hs)

theorem servePin_rooted {s : State} {a : Nat} {unpin : Bool} {cls : Nat} {d : Dims} (hs : I s) : I (servePin s a unpin cls d).1 := by
  unfold servePin
  split
  · split
    · exact refreshHstat_rooted hI (modLine_rooted hI hs)
    · split
      · exact hs
      · split
        · exact countEvent_rooted hI (refreshHstat_rooted hI (modLine_rooted hI hs))
        · exact countEvent_rooted hI hs
  · exact hs

theorem notOwner_rooted {s : State} {r : Req} (hs : I s) : I (notOwner s r) :=
  ite_rooted hs (raiseFault_rooted hI (State.modGrp_rooted hI hs))

theorem serveRel_rooted {s : State} {r : Req} {lost : Bool} (hs : I s) : I (serveRel s r lost) :=
  ite_rooted (respond_rooted hI hs) (ite_rooted (notOwner_rooted hI hs) (settleBarriers_rooted hI (memDone_rooted hI (passLock_rooted hI
      (ite_rooted hs (meterSource_rooted hI hs))))))

theorem countEntry_rooted {s : State} {r : Req} (hs : I s) : I (countEntry s r) := by
  unfold countEntry
  split
  · exact hs
  · exact countEvent_rooted hI hs

theorem serveReq_rooted {s : State} {r : Req} {ecc : EccRes} (hs : I s) : I (serveReq s r ecc) := by
  unfold serveReq
  split
  · exact serveLoad_rooted hI (readWord_rooted hI (hI.rest hs))
  · exact State.modCore_rooted hI (homeWriteBy_rooted hI (hI.rest hs))
  · exact serveAtom_rooted hI (readWord_rooted hI (hI.rest hs))
  · exact serveAcq_rooted hI (readWord_rooted hI (hI.rest hs))
  · exact serveRel_rooted hI (readWord_rooted hI (hI.rest hs))
  · exact hI.rest (countEntry_rooted hI (hI.rest hs))
  · exact pinAnswer_rooted hI (servePin_rooted hI (hI.rest hs))
  · exact hI.rest hs
  · exact hI.rest hs
  · exact hI.rest hs
  · exact hI.rest hs
  · exact scrubServe_rooted hI (hI.rest hs)

theorem servePoison_rooted {s : State} {r : Req} (hs : I s) : I (servePoison s r) := by
  unfold servePoison
  split
  · exact State.modCore_rooted hI (hI.rest hs)
  · exact redAnswer_rooted hI (hI.rest hs)
  · exact pinAnswer_rooted hI (hI.rest hs)
  · exact respond_rooted hI (hI.rest hs)

theorem execLlcFillComplete_rooted {s : State} {line : Nat} {ecc victim : EccRes} (hs : I s) : Leads I (execLlcFillComplete line ecc victim s) := by
  unfold execLlcFillComplete
  refine Leads.next ?_
  refine ite_rooted hs ?_
  split
  · exact hs
  · split
    · exact hs
    · exact placeLine_rooted hI (hbmRead_rooted hI (makeRoom_rooted hI hs ‹_›))

theorem execLlcAccess_rooted {s : State} {half : HalfId} {ecc : EccRes} (hs : I s) : Leads I (execLlcAccess half ecc s) := by
  unfold execLlcAccess
  refine Leads.next ?_
  split
  · exact hs
  · refine ite_rooted (ite_rooted (serveReq_rooted hI hs) (askHost_rooted hI hs)) ?_
    refine ite_rooted (servePoison_rooted hI hs) ?_
    refine ite_rooted (serveReq_rooted hI hs) ?_
    split
    · exact serveReq_rooted hI hs
    · exact ite_via (fun h1 => addMeters_rooted hI h1) (fun h1 => h1) (hI.rest hs)

theorem execReductionEntryApplied_rooted {s : State} {half : HalfId} {read : BankRead} (hs : I s) : Leads I (execReductionEntryApplied half read s)
    := by
  unfold execReductionEntryApplied
  refine Leads.next ?_
  split
  · exact hs
  · exact applyEntry_rooted hI (readWord_rooted hI hs)

theorem execMergeEntryTimeout_rooted {s : State} {half : HalfId} {group : Fin 32} {ecc : EccRes} (hs : I s) : Leads I (execMergeEntryTimeout half
    group ecc s) := by
  unfold execMergeEntryTimeout
  refine Leads.next ?_
  split
  · exact hs
  · exact hI.rest (sramRead_rooted hI hs)

theorem execCorrectedRewrite_rooted {s : State} {addr : Nat} (hs : I s) : Leads I (execCorrectedRewrite addr s) :=
  Leads.next (hI.rest hs)

theorem execResidentRebuild_rooted {s : State} {addr : Nat} (hs : I s) : Leads I (execResidentRebuild addr s) := by
  unfold execResidentRebuild
  refine Leads.next ?_
  dsimp only
  split
  · exact hs
  · exact ite_rooted hs (ite_rooted (askHost_rooted hI hs) (doneHost_rooted hI (ite_rooted hs (storeBytes_rooted hI hs))))

theorem refreshSpares_rooted {s : State} {h : Nat} (hs : I s) : I (refreshSpares s h) :=
  State.setField_rooted hI (State.setField_rooted hI (State.setField_rooted hI hs))

theorem refreshHbmSpares_rooted {s : State} {k : Nat} (hs : I s) : I (refreshHbmSpares s k) :=
  State.setField_rooted hI (State.setField_rooted hI hs)

theorem refreshAllSpares_rooted {s : State} (hs : I s) : I (refreshAllSpares s) :=
  foldl_rooted (fun _ _ h1 => refreshHbmSpares_rooted hI h1) (foldl_rooted (fun _ _ h2 => refreshSpares_rooted hI h2) hs)

theorem sparesExhausted_rooted {s : State} {h tb : Nat} {uncorrectable : Bool} (hs : I s) : I (sparesExhausted s h tb uncorrectable) :=
  ite_rooted (beginBankRetire_rooted hI hs) (rasLog_rooted hI hs)

theorem endPause_rooted {s : State} (hs : I s) : I (endPause s) :=
  hI.rest hs

theorem retestRow_rooted {s : State} {tb mat row : Nat} {pass : Bool} (hs : I s) : I (retestRow s tb mat row pass) :=
  ite_rooted hs (hI.rest hs)

theorem execRowSpared_rooted {s : State} {half : HalfId} {bank : Fin 256} {row : MatRow} {pass : Bool} (hs : I s) : Leads I (execRowSpared half
    bank row pass s) :=
  Leads.next (ite_rooted (retestRow_rooted hI hs) (ite_rooted (sparesExhausted_rooted hI (dropOwed_rooted hI (retestRow_rooted hI hs))) (ite_rooted
      (retestRow_rooted hI hs) (endPause_rooted hI (rasLog_rooted hI (refreshSpares_rooted hI (addRepair_rooted hI (hI.rest (repairMade_rooted hI
      (retestRow_rooted hI hs))))))))))

theorem execColSpared_rooted {s : State} {half : HalfId} {bank : Fin 256} {mat : Fin 16} {bit : Fin 576} (hs : I s) : Leads I (execColSpared half
    bank mat bit s) :=
  Leads.next (ite_rooted hs (ite_rooted (sparesExhausted_rooted hI (dropOwed_rooted hI hs)) (ite_rooted hs (endPause_rooted hI (rasLog_rooted hI
      (refreshSpares_rooted hI (addRepair_rooted hI (hI.rest (repairMade_rooted hI hs)))))))))

theorem execHbmRowSpared_rooted {s : State} {stack : Fin 8} {addr : Nat} (hs : I s) : Leads I (execHbmRowSpared stack addr s) :=
  Leads.next (ite_rooted hs (ite_rooted (rasLog_rooted hI (dropOwed_rooted hI hs)) (rasLog_rooted hI (addRepair_rooted hI (hI.rest
      (refreshHbmSpares_rooted hI (hI.rest (repairMade_rooted hI hs))))))))

/-! ### Vert -/

theorem logBundle_rooted {s : State} {code k : Nat} {training : Bool} (hs : I s) : I (logBundle s code k training) :=
  rasLogT_rooted hI hs

theorem groupRetire_rooted {s : State} {k : Nat} {training : Bool} (hs : I s) : I (groupRetire s k training) :=
  ite_rooted hs (ite_via (fun h1 => beginBankRetire_rooted hI h1) (fun h1 => h1) (rasLogT_rooted hI (refreshTower_rooted hI (hI.rest hs))))

theorem applyLadder_rooted {s : State} {k : Nat} {training : Bool} (hs : I s) : I (applyLadder s k training) := by
  unfold applyLadder
  dsimp only
  refine foldl_rooted (fun _ _ h1 => ?_) (refreshTower_rooted hI (State.modBundle_rooted hI hs))
  split
  · exact ite_via (fun h2 => h2) (fun h2 => addRepair_rooted hI h2) (State.modBundle_rooted hI h1)
  · exact ite_via (fun h4 => groupRetire_rooted hI h4) (fun h4 => h4) (logBundle_rooted hI (refreshTower_rooted hI (ite_via (fun h3 => h3) (fun h3
        => addRepair_rooted hI h3) (State.modBundle_rooted hI h1))))

theorem execBundleParityError_rooted {s : State} {tower : TowerId} {layer : Fin 2} {bundle : Fin 12288} (hs : I s) : Leads I (execBundleParityError
    tower layer bundle s) :=
  Leads.next (State.modBundle_rooted hI hs)

theorem execControlCopyDisagree_rooted {s : State} {tower : TowerId} {layer : Fin 2} {bundle : Fin 12288} (hs : I s) : Leads I
    (execControlCopyDisagree tower layer bundle s) :=
  Leads.next (State.modBundle_rooted hI hs)

theorem execBundleTestComplete_rooted {s : State} {tower : TowerId} {layer : Fin 2} {bundle : Fin 12288} {lanes : List (Fin 39)} (hs : I s) : Leads
    I (execBundleTestComplete tower layer bundle lanes s) :=
  Leads.next (ite_rooted hs (ite_rooted (State.modBundle_rooted hI hs) (ite_via (fun h1 => applyLadder_rooted hI h1) (fun h1 => ite_via (fun h2 =>
      h2) (fun h2 => hI.rest h2) (refreshTower_rooted hI h1)) (State.modBundle_rooted hI hs))))

theorem execRepairPauseStart_rooted {s : State} (hs : I s) : Leads I (execRepairPauseStart s) := by
  unfold execRepairPauseStart
  refine Leads.next ?_
  split
  · exact hs
  · exact ite_rooted hs (applyLadder_rooted hI (hI.rest hs))

theorem execRepairPauseEnd_rooted {s : State} (hs : I s) : Leads I (execRepairPauseEnd s) := by
  unfold execRepairPauseEnd
  refine Leads.next ?_
  split
  · exact hs
  · exact hI.rest hs

theorem mapWay_rooted {s : State} {tb way : Nat} {t : State} (hs : I s) (ht : mapWay s tb way = some t) : I t := by
  obtain ⟨hb, -, rfl⟩ := Option.map_eq_some_iff.1 ht
  exact hI.rest hs

theorem rebuildLine_rooted {s : State} {a : Nat} (hs : I s) : I (rebuildLine s a) := by
  unfold rebuildLine
  dsimp only
  split
  · exact poisonBytes_rooted hI (mergeClose_rooted hI hs)
  · refine foldl_rooted (fun _ _ h1 => ?_) (mergeClose_rooted hI hs)
    split
    · exact storeBytes_rooted hI h1
    · exact poisonBytes_rooted hI h1

theorem relocateWay_rooted {s : State} {tb way : Nat} {t : State} (hs : I s) (ht : relocateWay s tb way = some t) : I t := by
  obtain ⟨u, hu, rfl⟩ := Option.map_eq_some_iff.1 ht
  exact foldl_rooted (fun _ _ h1 => rebuildLine_rooted hI h1) (mapWay_rooted hI hs hu)

theorem trimHalf_rooted {s : State} {h : Nat} (hs : I s) : I (trimHalf s h) := by
  unfold trimHalf
  refine ite_rooted ?_ hs
  refine foldl_rooted (fun _ _ h1 => ?_) (hI.rest hs)
  split
  · exact h1
  · exact ite_rooted (evictLine_rooted hI h1) h1

theorem execVbankRetired_rooted {s : State} {tower : TowerId} {bank : Fin 512} (hs : I s) : Leads I (execVbankRetired tower bank s) :=
  Leads.next (ite_rooted hs (rasLog_rooted hI (refreshSpares_rooted hI (refreshTower_rooted hI (addRepair_rooted hI (hI.rest hs))))))

theorem trainTower_rooted {s : State} {t : Nat} {lanes : List (TowerId × Fin 2 × Fin 12288 × Fin 39)} (hs : I s) : I (trainTower s t lanes) :=
  refreshTower_rooted hI (foldl_rooted (fun _ _ h1 => applyLadder_rooted hI h1) (hI.rest (foldl_rooted (fun _ _ h2 => State.modBundle_rooted hI h2)
      hs)))

theorem execRecalibration_rooted {s : State} {tower : TowerId} {cause : Fin 3} {regions : List (Fin 48 × Fin 16 × Nat × Fin 256)} (hs : I s) :
    Leads I (execRecalibration tower cause regions s) :=
  Leads.next (ite_rooted hs (ite_via (fun h4 => h4) (fun h4 => foldl_rooted (fun _ _ h5 => rasLog_rooted hI (hI.rest h5)) h4) (foldl_rooted (fun _
      _ h1 => ite_rooted h1 (holdCommit_rooted hI (State.setField_rooted hI h1))) (foldl_rooted (fun _ _ h2 => ite_rooted h2 (rasLog_rooted hI
      (State.setField_rooted hI h2))) (hI.rest (State.setField_rooted hI (State.setField_rooted hI (foldl_rooted (fun _ _ h3 => hI.rest h3)
      hs))))))))

theorem execMarginNarrowApply_rooted {s : State} {tower : TowerId} {region : Fin 48} (hs : I s) : Leads I (execMarginNarrowApply tower region s) :=
    by
  unfold execMarginNarrowApply
  refine Leads.next ?_
  dsimp only
  split
  · exact hs
  · exact hI.rest hs

/-! ### Admission -/

theorem refreshAdmission_rooted {s : State} (hs : I s) : I (refreshAdmission s) :=
  holdCover_rooted hI (refreshProfile_rooted hI (foldl_rooted (fun _ _ h1 => refreshCommit_rooted hI h1) hs))

theorem bumpInflight_rooted {s : State} {q cls : Nat} {up : Bool} (hs : I s) : I (bumpInflight s q cls up) :=
  State.setField_rooted hI (State.setField_rooted hI (State.setQf_rooted hI hs))

theorem reserve_rooted {s : State} {plan : List Nat} {end_ : Nat} (hs : I s) : I (reserve s plan end_) :=
  hI.rest hs

theorem acceptTask_rooted {s : State} {q idx : Nat} {v1 : Bool} {d : Desc} {plan floors : List Nat} {bound : Nat} (hs : I s) : I (acceptTask s q
    idx v1 d plan floors bound) :=
  refreshAdmission_rooted hI (bumpInflight_rooted hI (reserve_rooted hI (foldl_rooted (fun _ _ h1 => requestInrush_rooted hI h1) (hI.rest
      (State.setTask_rooted hI hs)))))

theorem refuseTask_rooted {s : State} {q idx tag code elapsed : Nat} {stall : Bool} (hs : I s) : I (refuseTask s q idx tag code elapsed stall) :=
  postEntry_rooted hI (State.setField_rooted hI hs)

/-! ### Desc -/

theorem singleBody_rooted {kind size : Nat} {check : State → Ctx → Nat → List Nat → Option Cause} {put : State → Ctx → Origin → List Nat → Bool →
    State} {w : Word64} {s : State} {i : Ctx} (hp : ∀ s i o d ls, I s → I (put s i o d ls)) (hs : I s) : I (singleBody kind size check put w s i)
    := by
  unfold singleBody
  split
  · exact advance_rooted hI (State.modGrp_rooted hI hs)
  · dsimp only
    split
    · exact faultSet_rooted hI (countPoisoned_rooted hI (advance_rooted hI hs))
    · split
      · exact faultSet_rooted hI (countPoisoned_rooted hI (advance_rooted hI hs))
      · exact advance_rooted hI (State.modGrp_rooted hI (hp _ _ _ _ _ (State.modCore_rooted hI hs)))

theorem singleIssue_rooted {cls kind size : Nat} {full : Core → Bool} {check : State → Ctx → Nat → List Nat → Option Cause} {put : State → Ctx →
    Origin → List Nat → Bool → State} {x : Site} {w : Word64} {s : State} (hp : ∀ s i o d ls, I s → I (put s i o d ls)) (hs : I s) : Leads I
    (singleIssue cls kind size full check put x w s) :=
  coreRow_rooted (ite_rooted hs (issue_rooted hI (fun _ _ h1 => singleBody_rooted hI (fun _ _ _ _ _ h2 => hp _ _ _ _ _ h2) h1) hs))

theorem engineFault_rooted {s : State} {c kind unit : Nat} {o : Origin} {x : Cause} (hs : I s) : I (engineFault s c kind unit o x) :=
  raiseFault_rooted hI (ite_rooted (countConsumed_rooted hI hs) hs)

theorem redLocal_rooted {oper etype base n : Nat} {data : List Nat} {acc : State × Bool × Bool} (hs : I acc.1) :
    I (redLocal oper etype base n data acc).1 := by
  induction n generalizing base data acc with
  | zero => exact hs
  | succ n ih =>
    obtain ⟨s, p, v⟩ := acc
    unfold redLocal
    dsimp only
    split
    · exact ih hs
    · exact ih (State.setBytes_rooted hI hs)

theorem redSend_rooted {s : State} {i : Ctx} {t a : Nat} {r : RedDo} (hs : I s) : I (redSend i s t a r) :=
  ite_rooted (State.modThread_rooted hI hs) (State.modCore_rooted hI (State.modThread_rooted hI (addWrite_rooted hI (foldl_rooted (fun _ _ h1 =>
      sendHome_rooted hI (meterLine_rooted hI h1)) (hI.rest hs)))))

theorem execReduce_rooted {s : State} {x : Site} {w : Word64} (hs : I s) : Leads I (execReduce x w s) := by
  unfold execReduce
  refine coreRow_rooted ?_
  refine ite_rooted hs ?_
  refine issue_rooted hI (fun v i h1 => ?_) hs
  refine faultSet_rooted hI ?_
  refine countPoisoned_rooted hI ?_
  refine advance_rooted hI ?_
  refine foldl_rooted (fun u p h2 => ?_) h1
  obtain ⟨t, r⟩ := p
  dsimp only
  split
  · rename_i off _
    have hr := redLocal_rooted hI (oper := r.oper) (etype := r.etype) (base := lsAddr i.c + off) (n := r.data.length / elemSize r.oper) (data :=
        r.data)
      (acc := (u, false, false)) h2
    exact ite_via (fun h4 => raiseFault_rooted hI (countConsumed_rooted hI h4)) (fun h4 => h4)
      (ite_via (fun h3 => addTaskCounter_rooted hI h3) (fun h3 => h3) hr)
  · exact redSend_rooted hI h2

theorem pinSend_rooted {s : State} {unpin : Bool} {w : Word64} {i : Ctx} {t n : Nat} {p : Place} (hs : I s) : I (pinSend unpin w i s t n p) := by
  unfold pinSend
  split
  · exact State.modGrp_rooted hI hs
  · exact ite_rooted (State.modGrp_rooted hI hs) (State.modGrp_rooted hI (foldl_rooted (fun _ _ h1 => sendHome_rooted hI h1) (hI.rest hs)))

theorem pinRow_rooted {s : State} {op : Nat} {x : Site} {w : Word64} (hs : I s) : Leads I (pinRow op x w s) :=
  coreRow_rooted (issue_rooted hI (fun _ _ h1 => faultSet_rooted hI (countPoisoned_rooted hI (advance_rooted hI (foldl_rooted (fun _ _ h2 =>
      pinSend_rooted hI h2) h1)))) hs)

theorem execPin_rooted {s : State} {x : Site} {w : Word64} (hs : I s) : Leads I (execPin x w s) :=
  pinRow_rooted hI hs

theorem execUnpin_rooted {s : State} {x : Site} {w : Word64} (hs : I s) : Leads I (execUnpin x w s) :=
  pinRow_rooted hI hs

/-! ### Grid -/

theorem mmaPut_rooted {s : State} {i : Ctx} {o : Origin} {b : List Nat} {ls : Bool} (hs : I s) : I (mmaPut s i o b ls) := by
  unfold mmaPut
  exact State.modCore_rooted hI hs

theorem execMma_rooted {s : State} {x : Site} {w : Word64} (hs : I s) : Leads I (execMma x w s) :=
  singleIssue_rooted hI (fun _ _ _ _ _ h1 => mmaPut_rooted hI h1) hs

theorem setAcc_rooted {s : State} {c : Nat} {acc : Nat} {x : AccSet} (hs : I s) : I (setAcc s c acc x) :=
  State.modCore_rooted hI hs

theorem modMma_rooted {s : State} {c seq : Nat} {f : MmaOp → MmaOp} (hs : I s) : I (modMma s c seq f) :=
  State.modCore_rooted hI hs

theorem endMma_rooted {s : State} {c seq : Nat} (hs : I s) : I (endMma s c seq) :=
  wakeTickets_rooted hI (State.modCore_rooted hI hs)

theorem poisonMma_rooted {s : State} {core : CoreId} {o : MmaOp} {a : Nat} (hs : I s) : I (poisonMma s core o a) :=
  engineFault_rooted hI (State.modCore_rooted hI hs)

theorem beginTile_rooted {s : State} {core : CoreId} {d : MmaD} (hs : I s) : I (beginTile s core d) :=
  ite_via (fun h1 => addTaskCounter_rooted hI h1) (fun h1 => h1) (hI.rest (setAcc_rooted hI hs))

theorem execMmaStart_rooted {s : State} {core : CoreId} (hs : I s) : Leads I (execMmaStart core s) := by
  unfold execMmaStart
  refine Leads.next ?_
  dsimp only
  split
  · exact hs
  · refine ite_rooted hs ?_
    split
    · exact poisonMma_rooted hI hs
    · exact State.modCore_rooted hI (modMma_rooted hI (ite_via (fun h1 => h1) (fun h1 => beginTile_rooted hI h1) (countCore_rooted hI hs)))

theorem execMmaLastProduct_rooted {s : State} {read : CoreRead} (hs : I s) : Leads I (execMmaLastProduct read s) := by
  unfold execMmaLastProduct
  refine Leads.next ?_
  dsimp only
  split
  · exact hs
  · refine ite_rooted hs ?_
    split
    · exact poisonMma_rooted hI (findErrs_rooted hI hs)
    · exact ite_via (fun h3 => modMma_rooted hI h3) (fun h3 => endMma_rooted hI h3) (ite_via (fun h2 => addTaskCounter_rooted hI h2) (fun h2 => h2)
          (countFixed_rooted hI (setAcc_rooted hI (ite_via (fun h1 => beginTile_rooted hI h1) (fun h1 => h1) (findErrs_rooted hI hs)))))

theorem execDrainStart_rooted {s : State} {core : CoreId} {fault : Option GridFault} (hs : I s) : Leads I (execDrainStart core fault s) := by
  unfold execDrainStart
  dsimp only
  refine Leads.next ?_
  split
  · exact hs
  · refine ite_rooted hs ?_
    split
    · exact modMma_rooted hI hs
    · exact coreFault_rooted hI hs
    · exact coreFault_rooted hI hs

theorem storeLocal_rooted {s : State} {c : Nat} {ws : List (Nat × List Nat)} (hs : I s) : I (storeLocal s c ws) :=
  foldl_rooted (fun _ _ h1 => storeBytes_rooted hI h1) hs

theorem execDrainComplete_rooted {s : State} {core : CoreId} {mismatch : Bool} (hs : I s) : Leads I (execDrainComplete core mismatch s) := by
  unfold execDrainComplete
  dsimp only
  refine Leads.next ?_
  split
  · exact hs
  · exact ite_rooted hs (ite_rooted (coreFault_rooted hI hs) (endMma_rooted hI (setAcc_rooted hI (addTaskCounter_rooted hI (storeLocal_rooted hI
        hs)))))

theorem partWrite_rooted {put : State → Nat → List Nat → State} {s : State} {ws : List (Nat × List Nat)} (hp : ∀ s a bs, I s → I (put s a bs)) (hs
    : I s) : I (partWrite put s ws) :=
  hI.rest (foldl_rooted (fun _ _ h1 => hp _ _ _ h1) hs)

theorem cancelDrains_rooted {s : State} {c : Nat} (hs : I s) : I (cancelDrains s c) :=
  foldl_rooted (fun _ _ h1 => partWrite_rooted hI (fun _ _ _ h2 => storeBytes_rooted hI h2) h1) hs

theorem setRun_rooted {s : State} {u : LoadUnit} {r : GridRun} (hs : I s) : I (setRun s u r) := by
  unfold setRun
  split
  · exact State.modCore_rooted hI hs
  · exact State.modCluster_rooted hI hs

theorem countWake_rooted {s : State} {u : LoadUnit} (hs : I s) : I (countWake s u) := by
  unfold countWake
  split
  · exact countCore_rooted hI hs
  · exact hs

theorem execLoadNotice_rooted {s : State} {unit : LoadUnit} (hs : I s) : Leads I (execLoadNotice unit s) :=
  Leads.next (ite_rooted (State.modCluster_rooted hI (countWake_rooted hI (countEvent_rooted hI (setRun_rooted hI hs)))) hs)

theorem execLoadNoticeAck_rooted {s : State} {unit : LoadUnit} (hs : I s) : Leads I (execLoadNoticeAck unit s) :=
  Leads.next (ite_rooted (setRun_rooted hI hs) hs)

theorem execPreRaiseReturn_rooted {s : State} {cluster : ClusterId} (hs : I s) : Leads I (execPreRaiseReturn cluster s) :=
  Leads.next (ite_rooted hs (State.modCluster_rooted hI hs))

theorem execBurstEnd_rooted {s : State} {unit : LoadUnit} (hs : I s) : Leads I (execBurstEnd unit s) :=
  Leads.next (ite_rooted (setRun_rooted hI hs) hs)

theorem execGridStop_rooted {s : State} {unit : LoadUnit} (hs : I s) : Leads I (execGridStop unit s) :=
  Leads.next (ite_rooted (setRun_rooted hI hs) hs)

/-! ### Xfer -/

theorem xferPut_rooted {s : State} {i : Ctx} {o : Origin} {b : List Nat} {_ls : Bool} (hs : I s) : I (xferPut s i o b _ls) :=
  State.modCore_rooted hI hs

theorem execXfer_rooted {s : State} {x : Site} {w : Word64} (hs : I s) : Leads I (execXfer x w s) :=
  singleIssue_rooted hI (fun _ _ _ _ _ h1 => xferPut_rooted hI h1) hs

theorem xferMeter_rooted {s : State} {c : Nat} {d : XferD} (hs : I s) : I (xferMeter s c d) := by
  refine foldl_rooted (fun s p h1 => ?_) (foldl_fst_rooted (fun _ _ h1 => addMeters_rooted hI h1) hs)
  obtain ⟨a, n⟩ := p
  exact ite_via (fun h2 => h2) (fun h2 => ite_via (fun h3 => h3) (fun h3 => hI.rest h3) (addMeters_rooted hI h2)) h1

theorem modXfer_rooted {s : State} {c seq : Nat} {f : XferOp → XferOp} (hs : I s) : I (modXfer s c seq f) :=
  State.modCore_rooted hI hs

theorem dropXfer_rooted {s : State} {c seq : Nat} (hs : I s) : I (dropXfer s c seq) :=
  State.modCore_rooted hI hs

theorem xferSend_rooted {s : State} {c seq : Nat} (hs : I s) : I (xferSend s c seq) := by
  unfold xferSend
  split
  · exact hs
  · exact foldl_rooted (fun _ _ h1 => modXfer_rooted hI (sendRemote_rooted hI h1)) hs

theorem execXferStart_rooted {s : State} {core : CoreId} (hs : I s) : Leads I (execXferStart core s) := by
  unfold execXferStart
  refine Leads.next ?_
  dsimp only
  split
  · exact hs
  · refine ite_rooted hs ?_
    split
    · exact engineFault_rooted hI (dropXfer_rooted hI hs)
    · exact ite_via (fun h4 => xferSend_rooted hI h4) (fun h4 => h4) (ite_via (fun h3 => addTaskCounter_rooted hI h3) (fun h3 => h3) (ite_via (fun
          h2 => h2) (fun h2 => addTaskCounter_rooted hI (countCore_rooted hI h2)) (ite_via (fun h1 => h1) (fun h1 => xferMeter_rooted hI h1)
          (modXfer_rooted hI hs))))

theorem storeUnits_rooted {s : State} {ws : List (Nat × List Nat)} (hs : I s) : I (storeUnits s ws) :=
  hI.write (fun hm => writeEach_wf ws hm) hs

theorem xferLoad_rooted {s : State} {c : Nat} {d : XferD} {o : XferOp} (hs : I s) : I (xferLoad s c d o) :=
  storeUnits_rooted hI hs

theorem storeUnit_rooted {s : State} {c : Nat} {alloc : Bool} {a : Nat} {b : List Nat} (hs : I s) : I (storeUnit c alloc s a b) := by
  unfold storeUnit
  split
  · exact storeBytes_rooted hI hs
  · exact ite_via (fun h1 => homeWriteBy_rooted hI (meterSource_rooted hI h1)) (fun h1 => h1) (dropL1_rooted hI (dropL1_rooted hI hs))

theorem xferStore_rooted {s : State} {c : Nat} {d : XferD} (hs : I s) : I (xferStore s c d) := by
  unfold xferStore
  split
  · split
    · exact storeUnits_rooted hI (hI.rest hs)
    · exact hI.rest hs
  · exact foldl_rooted (fun _ _ h1 => storeUnit_rooted hI h1) (hI.rest hs)

theorem commitTile_rooted {s : State} {c tile : Nat} (hs : I s) : I (commitTile s c tile) := by
  unfold commitTile
  split
  · exact hs
  · exact ite_rooted (State.modCoreTask_rooted hI hs) (homeUpdate_rooted hI (meterSource_rooted hI (drainLine_rooted hI (State.modCoreTask_rooted
        hI hs))))

theorem execXferComplete_rooted {s : State} {read : CoreRead} {seq : Nat} (hs : I s) : Leads I (execXferComplete read seq s) := by
  unfold execXferComplete
  refine Leads.next ?_
  dsimp only
  split
  · exact hs
  · refine ite_rooted hs ?_
    split
    · exact engineFault_rooted hI (dropXfer_rooted hI (findErrs_rooted hI hs))
    · exact wakeTickets_rooted hI (dropXfer_rooted hI (ite_via (fun h2 => commitTile_rooted hI h2) (fun h2 => h2) (ite_via (fun h1 =>
          xferStore_rooted hI h1) (fun h1 => xferLoad_rooted hI h1) (countCore_rooted hI (findErrs_rooted hI hs)))))

theorem cancelXfer_rooted {s : State} {c : Nat} {o : XferOp} (hs : I s) : I (cancelXfer c s o) :=
  ite_rooted hs (ite_rooted (ite_rooted hs (partWrite_rooted hI (fun _ _ _ h1 => storeUnit_rooted hI h1) hs)) (ite_rooted (partWrite_rooted hI (fun
      _ _ _ h2 => storeUnits_rooted hI h2) hs) hs))

theorem cancelOps_rooted {s : State} {c : Nat} (hs : I s) : I (cancelOps s c) :=
  foldl_rooted (fun _ _ h1 => cancelXfer_rooted hI h1) (cancelDrains_rooted hI hs)

/-! ### Attn -/

theorem attnPut_rooted {s : State} {i : Ctx} {o : Origin} {b : List Nat} {_ls : Bool} (hs : I s) : I (attnPut s i o b _ls) :=
  addMeters_rooted hI (State.modCore_rooted hI hs)

theorem attnIssue_rooted {s : State} {x : Site} {w : Word64} (hs : I s) : Leads I (attnIssue x w s) :=
  singleIssue_rooted hI (fun _ _ _ _ _ h1 => attnPut_rooted hI h1) hs

theorem execAttend_rooted {s : State} {x : Site} {w : Word64} (hs : I s) : Leads I (execAttend x w s) :=
  attnIssue_rooted hI hs

theorem execAppend_rooted {s : State} {x : Site} {w : Word64} (hs : I s) : Leads I (execAppend x w s) :=
  attnIssue_rooted hI hs

theorem modAttn_rooted {s : State} {c seq : Nat} {f : AttnOp → AttnOp} (hs : I s) : I (modAttn s c seq f) :=
  State.modCore_rooted hI hs

theorem dropAttn_rooted {s : State} {c seq : Nat} (hs : I s) : I (dropAttn s c seq) :=
  State.modCore_rooted hI hs

theorem attnFetch_rooted {s : State} {c : Nat} {o : AttnOp} {a n : Nat} (hs : I s) : I (attnFetch s c o a n) :=
  foldl_rooted (fun _ _ h1 => modAttn_rooted hI (sendRemote_rooted hI h1)) hs

theorem attnFill_rooted {s : State} {c a n : Nat} (hs : I s) : I (attnFill s c a n) :=
  ite_rooted hs (foldl_rooted (fun _ _ h1 => hI.rest h1) hs)

theorem attnWrite_rooted {s : State} {c : Nat} {o : AttnOp} {a : Nat} {bs : List Nat} (hs : I s) : I (attnWrite s c o a bs) := by
  unfold attnWrite
  split
  · exact storeBytes_rooted hI hs
  · exact ite_rooted (taskWrite_rooted hI hs) (foldl_rooted (fun _ _ h1 => modAttn_rooted hI (sendRemote_rooted hI h1)) hs)

theorem endAttn_rooted {s : State} {c : Nat} {o : AttnOp} {x : Cause} (hs : I s) : I (endAttn s c o x) :=
  engineFault_rooted hI (dropAttn_rooted hI hs)

theorem attnStall_rooted {s : State} {c : Nat} {o : AttnOp} {p : PageNeed} (hs : I s) : I (attnStall s c o p) := by
  unfold attnStall
  split
  · exact attnFetch_rooted hI hs
  · exact endAttn_rooted hI hs
  · exact hs

theorem pageFill_rooted {s : State} {c : Nat} {o : AttnOp} {a : Nat} (hs : I s) : I (pageFill s c o a) :=
  foldl_rooted (fun _ _ h1 => attnFill_rooted hI h1) hs

theorem attendSlots_rooted {c n : Nat} {o : AttnOp} {s : State} (hs : I s) : I (attendSlots c n o s) := by
  induction n generalizing o s with
  | zero => exact modAttn_rooted hI hs
  | succ n ih =>
    unfold attendSlots
    split
    · exact modAttn_rooted hI hs
    · split
      · dsimp only
        split
        · exact ih (countUnit_rooted hI (pageFill_rooted hI hs))
        · exact attnStall_rooted hI (modAttn_rooted hI hs)
      · exact attnStall_rooted hI (modAttn_rooted hI hs)

theorem attendBegin_rooted {s : State} {c : Nat} {o : AttnOp} (hs : I s) : I (attendBegin s c o).1 := by
  unfold attendBegin
  split
  · exact hs
  · dsimp only
    split
    · split
      · exact countUnit_rooted hI hs
      · exact hs
    · split
      · exact foldl_rooted (fun _ _ h1 => attnFill_rooted hI h1) hs
      · exact hs

theorem appendBegin_rooted {s : State} {c : Nat} {o : AttnOp} (hs : I s) : I (appendBegin s c o) := by
  unfold appendBegin
  refine ite_rooted (attnFetch_rooted hI hs) ?_
  refine ite_rooted hs ?_
  split
  · exact endAttn_rooted hI hs
  · refine ite_rooted (endAttn_rooted hI hs) ?_
    split
    · exact engineFault_rooted hI (dropAttn_rooted hI hs)
    · exact attnWrite_rooted hI (modAttn_rooted hI (ite_rooted (attnWrite_rooted hI hs) hs))

theorem execAttnQuantum_rooted {read : ClusterRead} {s : State} (hs : I s) : Leads I (execAttnQuantum read s) := by
  unfold execAttnQuantum
  refine Leads.next ?_
  dsimp only
  split
  · exact hs
  · rename_i c o _
    have h1 : I (findErrs c ((if (s.cluster read.cluster).attnTurn = c % 9 then s else countEvent s 1 read.cluster 0x43 1 ⟨none, none, none, none,
        none⟩).modCluster
        read.cluster (fun k => { k with attnTurn := c % 9, attnRun := .running })) read.errs) :=
      findErrs_rooted hI (State.modCluster_rooted hI (ite_rooted hs (countEvent_rooted hI hs)))
    refine ite_rooted (appendBegin_rooted hI h1) ?_
    split
    · exact engineFault_rooted hI (dropAttn_rooted hI h1)
    · refine ite_rooted (attendSlots_rooted hI h1) ?_
      have h2 := attendBegin_rooted hI h1 (c := c) (o := o)
      split
      · rename_i heq
        rw [heq] at h2
        exact attendSlots_rooted hI h2
      · rename_i heq
        rw [heq] at h2
        exact attnStall_rooted hI (modAttn_rooted hI h2)

theorem execAttendComplete_rooted {s : State} {core : CoreId} {mismatch : Bool} (hs : I s) : Leads I (execAttendComplete core mismatch s) := by
  unfold execAttendComplete
  refine Leads.next ?_
  split
  · exact hs
  · exact ite_rooted hs (ite_rooted (coreFault_rooted hI hs) (wakeTickets_rooted hI (dropAttn_rooted hI (foldl_rooted (fun _ _ h1 => ite_via (fun
        h3 => storeBytes_rooted hI h3) (fun h3 => h3) (ite_via (fun h2 => storeBytes_rooted hI h2) (fun h2 => h2) (storeBytes_rooted hI h1))) hs))))

theorem appendData_rooted {s : State} {c : Nat} {o : AttnOp} (hs : I s) : I (appendData s c o) :=
  foldl_rooted (fun _ _ h1 => foldl_rooted (fun _ _ h2 => attnWrite_rooted hI (ite_rooted h2 (attnWrite_rooted hI h2))) h1) (modAttn_rooted hI hs)

theorem appendHeader_rooted {s : State} {c : Nat} {o : AttnOp} (hs : I s) : I (appendHeader s c o) :=
  attnWrite_rooted hI hs

theorem execAppendWriteAck_rooted {s : State} {core : CoreId} {mismatch : Bool} (hs : I s) : Leads I (execAppendWriteAck core mismatch s) := by
  unfold execAppendWriteAck
  refine Leads.next ?_
  split
  · exact hs
  · refine ite_rooted hs ?_
    refine ite_rooted ?_ ?_
    · refine ite_rooted (coreFault_rooted hI hs) ?_
      split
      · exact engineFault_rooted hI (dropAttn_rooted hI hs)
      · exact appendData_rooted hI (modAttn_rooted hI hs)
    · refine ite_rooted ?_ (ite_rooted (appendHeader_rooted hI (modAttn_rooted hI hs)) (wakeTickets_rooted hI (dropAttn_rooted hI hs)))
      dsimp only
      split
      · exact hI.rest (attnWrite_rooted hI (modAttn_rooted hI hs))
      · exact attnStall_rooted hI hs

theorem execAttnEngineFault_rooted {s : State} {cluster : ClusterId} {fault : GridFault} (hs : I s) : Leads I (execAttnEngineFault cluster fault s)
    :=
  Leads.next (foldl_rooted (fun _ _ h1 => ite_rooted h1 (stopCore_rooted hI h1)) (State.modCluster_rooted hI hs))

/-! ### FwBase -/

theorem setPstate_rooted {s : State} {p v : Nat} (hs : I s) : I (setPstate s p v) :=
  State.setField_rooted hI hs

theorem State.modProc_rooted {s : State} {p : Nat} {f : Proc → Proc} (hs : I s) : I (State.modProc s p f) :=
  hI.rest hs

theorem newNumber_rooted {s : State} {used : List Nat} (hs : I s) : I (newNumber s used).2 :=
  hI.rest hs

theorem setPayload_rooted {s : State} {n : Nat} {b : List Nat} (hs : I s) : I (setPayload s n b) :=
  hI.rest hs

theorem finish_rooted {s : State} {c : Call} {status detail : Nat} {answer : List Nat} (hs : I s) : I (finish s c status detail answer) := by
  unfold finish
  dsimp only
  split
  · exact ite_via (fun h1 => sendMsix_rooted hI h1) (fun h1 => h1) (State.setField_rooted hI (State.setField_rooted hI (State.setField_rooted hI
        (setPayload_rooted hI (hI.rest hs)))))
  · exact sendMsg_rooted hI (ite_via (fun h2 => sendMsix_rooted hI h2) (fun h2 => h2) (State.setField_rooted hI (State.setField_rooted hI
        (State.setField_rooted hI (setPayload_rooted hI (hI.rest hs))))))

theorem finishOk_rooted {s : State} {c : Call} {answer : List Nat} (hs : I s) : I (finishOk s c answer) :=
  finish_rooted hI hs

theorem keepCall_rooted {s : State} {c : Call} (hs : I s) : I (keepCall s c) :=
  hI.rest hs

theorem startJob_rooted {s : State} {c : Call} {proc arg : Nat} {o : Option Nat} {t : State} (hs : I s) (ht : startJob s c proc arg = (o, t)) : I t
    := by
  unfold startJob at ht
  split at ht
  · cases ht; exact finish_rooted hI hs
  · cases ht; exact finish_rooted hI (hI.rest (newNumber_rooted hI hs (used := s.fw.jobs.map (·.id))))

theorem endJob_rooted {s : State} {id status detail : Nat} {answer : List Nat} (hs : I s) : I (endJob s id status detail answer) :=
  hI.rest hs

theorem endSession_rooted {s : State} {n : Nat} (hs : I s) : I (endSession s n) :=
  ite_via (fun h1 => State.setReg_rooted hI h1) (fun h1 => h1) (State.setReg_rooted hI (State.setField_rooted hI (hI.rest hs)))

theorem measure_rooted {s : State} {kind proc slot : Nat} {version : List Nat} {svn : Nat} {digest : List Nat} {boot : Bool} (hs : I s) : I
    (measure s kind proc slot version svn digest boot) :=
  hI.rest hs

theorem measureImage_rooted {s : State} {kind p sl : Nat} (hs : I s) : I (measureImage s kind p sl) :=
  measure_rooted hI hs

theorem saveDump_rooted {s : State} {p cause detail stack : Nat} (hs : I s) : I (saveDump s p cause detail stack) := by
  unfold saveDump
  split
  · exact State.modProc_rooted hI hs
  · exact State.setField_rooted hI (State.setField_rooted hI (hI.rest (State.modProc_rooted hI hs)))

theorem clearDump_rooted {s : State} {p : Nat} (hs : I s) : I (clearDump s p) :=
  State.setField_rooted hI (State.setField_rooted hI (State.modProc_rooted hI hs))

theorem countRestart_rooted {s : State} {p : Nat} (hs : I s) : I (countRestart s p) :=
  State.setField_rooted hI hs

theorem stopScrubJob_rooted {s : State} {j : Job} (hs : I s) : I (stopScrubJob s j) :=
  hI.rest (endRun_rooted hI hs)

theorem abortJobs_rooted {s : State} {p : Nat} (hs : I s) : I (abortJobs s p) :=
  hI.rest (foldl_rooted (fun _ _ h1 => stopScrubJob_rooted hI h1) hs)

theorem stopScrubs_rooted {s : State} (hs : I s) : I (stopScrubs s) :=
  foldl_rooted (fun _ _ h1 => stopRun_rooted hI h1) (foldl_rooted (fun _ _ h2 => stopScrubJob_rooted hI h2) hs)

theorem dropErase_rooted {s : State} {p : Nat} (hs : I s) : I (dropErase s p) :=
  ite_rooted hs (foldl_rooted (fun _ _ h1 => ite_rooted (State.modProc_rooted hI h1) h1) hs)

theorem restartProc_rooted {s : State} {p sl : Nat} (hs : I s) : I (restartProc s p sl) :=
  State.setField_rooted hI (setPstate_rooted hI (dropErase_rooted hI (abortJobs_rooted hI (countRestart_rooted hI hs))))

theorem failAct_rooted {s : State} {p : Nat} (hs : I s) : I (failAct s p) := by
  unfold failAct
  split
  · exact hs
  · exact ite_rooted hs (endJob_rooted hI (State.modProc_rooted hI (hI.rest hs)))

theorem countedRestart_rooted {s : State} {p cause detail stack : Nat} (hs : I s) : I (countedRestart s p cause detail stack) :=
  ite_via (fun h1 => rasLog_rooted hI h1) (fun h1 => rasLog_rooted hI (setPstate_rooted hI h1)) (restartProc_rooted hI (failAct_rooted hI
      (saveDump_rooted hI (State.setField_rooted hI (State.modProc_rooted hI hs)))))

/-! ### Task -/

theorem zeroFill_rooted {s : State} {a n : Nat} (hs : I s) : I (zeroFill s a n) :=
  hI.write (fun hm => clearBytes_wf hm _ _) hs

theorem zeroLocal_rooted {s : State} {c : Nat} (hs : I s) : I (zeroLocal s c) :=
  zeroFill_rooted hI hs

theorem recordBases_rooted {s : State} {c : Nat} (hs : I s) : I (recordBases s c) :=
  State.modCore_rooted hI hs

theorem launchRank_rooted {s : State} {id : Nat} {t : Task} {p : Program} {rank : Nat} (hs : I s) : I (launchRank s id t p rank) := by
  unfold launchRank
  split
  · exact hs
  · exact recordBases_rooted hI (State.modCore_rooted hI (ite_rooted (zeroLocal_rooted hI hs) hs))

theorem execTaskDispatch_rooted {s : State} {task : Nat} (hs : I s) : Leads I (execTaskDispatch task s) := by
  unfold execTaskDispatch
  refine Leads.next ?_
  split
  · exact hs
  · split
    · exact hs
    · exact ite_rooted hs (State.modTask_rooted hI (scrubLaunch_rooted hI (foldl_rooted (fun _ _ h1 => launchRank_rooted hI h1) hs)))

theorem overrun_rooted {s : State} {c n : Nat} (hs : I s) : I (overrun s c n) :=
  ite_rooted hs (State.modCoreTask_rooted hI hs)

theorem execMeterExceeded_rooted {s : State} {core : CoreId} {elapsed : Nat} (hs : I s) : Leads I (execMeterExceeded core elapsed s) := by
  unfold execMeterExceeded
  refine Leads.next ?_
  refine ite_rooted hs ?_
  dsimp only
  split
  · exact tickCompute_rooted hI hs
  · split
    · exact tickCompute_rooted hI hs
    · exact overrun_rooted hI (tickCompute_rooted hI hs)

theorem execSegmentLimitExceeded_rooted {s : State} {core : CoreId} {elapsed : Nat} (hs : I s) : Leads I (execSegmentLimitExceeded core elapsed s)
    := by
  unfold execSegmentLimitExceeded
  refine Leads.next ?_
  refine ite_rooted hs ?_
  dsimp only
  split
  · exact tickCompute_rooted hI hs
  · split
    · exact tickCompute_rooted hI hs
    · exact overrun_rooted hI (tickCompute_rooted hI hs)

theorem dropWaits_rooted {s : State} {c : Nat} (hs : I s) : I (dropWaits s c) :=
  foldl_rooted (fun _ _ h1 => sendHome_rooted hI h1) (hI.rest hs)

theorem releaseAll_rooted {s : State} {c : Nat} (hs : I s) : I (releaseAll s c) :=
  foldl_rooted (fun _ _ h1 => foldl_rooted (fun _ _ h2 => releaseHeld_rooted hI h2) h1) (State.modCore_rooted hI hs)

theorem freeCore_rooted {s : State} {l : Nat} (hs : I s) : I (freeCore s l) :=
  ite_rooted hs (hI.rest hs)

theorem boundary_rooted {s : State} {c id : Nat} {errs : List (Nat × Flaw)} {ecc : EccRes} (hs : I s) : I (boundary s c id errs ecc) := by
  unfold boundary
  dsimp only
  split
  · refine freeCore_rooted hI ?_
    refine State.modCore_rooted hI ?_
    refine State.modTask_rooted hI ?_
    refine releaseAll_rooted hI ?_
    refine dropWaits_rooted hI ?_
    refine cancelOps_rooted hI ?_
    refine findErrs_rooted hI ?_
    split
    · exact scrubTask_rooted hI hs
    · exact hs
  · refine State.modCore_rooted hI ?_
    refine State.modTask_rooted hI ?_
    refine releaseAll_rooted hI ?_
    refine dropWaits_rooted hI ?_
    refine cancelOps_rooted hI ?_
    refine findErrs_rooted hI ?_
    split
    · exact scrubTask_rooted hI hs
    · exact hs

theorem execTaskBoundary_rooted {s : State} {core : CoreId} {errs : List (Nat × Flaw)} {ecc : EccRes} (hs : I s) : Leads I (execTaskBoundary core
    errs ecc s) := by
  unfold execTaskBoundary
  refine Leads.next ?_
  dsimp only
  split
  · exact hs
  · exact ite_rooted hs (refreshAdmission_rooted hI (boundary_rooted hI hs))

theorem writeProgress_rooted {s : State} {t : Task} (hs : I s) : I (writeProgress s t) :=
  ite_rooted hs (homeWrite_rooted hI hs)

theorem finishTask_rooted {s : State} {id : Nat} {t : Task} {stall : Bool} (hs : I s) : I (finishTask s id t stall) :=
  refreshAdmission_rooted hI (bumpInflight_rooted hI (State.setTask_rooted hI (postEntry_rooted hI (foldl_rooted (fun _ _ h1 => bump_rooted hI h1)
      (writeProgress_rooted hI hs)))))

theorem curtailCheck_rooted {s : State} (hs : I s) : I (curtailCheck s) :=
  ite_rooted (pwrEvent_rooted hI (State.setField_rooted hI hs)) hs

theorem execTaskEnd_rooted {s : State} {task : Nat} {stall : Bool} (hs : I s) : Leads I (execTaskEnd task stall s) := by
  unfold execTaskEnd
  refine Leads.next ?_
  split
  · exact hs
  · exact ite_rooted hs (curtailCheck_rooted hI (finishTask_rooted hI hs))

theorem execRerun_rooted {s : State} {task : Nat} (hs : I s) : Leads I (execRerun task s) := by
  unfold execRerun
  refine Leads.next ?_
  split
  · exact hs
  · refine ite_rooted hs ?_
    split
    · exact hs
    · split
      · exact State.modTask_rooted hI hs
      · exact refreshAdmission_rooted hI (reserve_rooted hI (foldl_rooted (fun _ _ h1 => requestInrush_rooted hI h1) (State.modTask_rooted hI hs)))

/-! ### Recover -/

theorem execCoreFault_rooted {s : State} {core : CoreId} (hs : I s) : Leads I (execCoreFault core s) :=
  Leads.next (ite_rooted hs (coreFault_rooted hI hs))

theorem hostRank_rooted {s : State} {cl src : Nat} (hs : I s) : I (hostRank s cl src) :=
  State.setField_rooted hI (State.setField_rooted hI (State.modCluster_rooted hI hs))

theorem targetOf_rooted {s : State} {t : Task} {rank c code l : Nat} {u : State} (hs : I s) (ht : targetOf s t rank c code = some (l, u)) : I u :=
    by
  unfold targetOf at ht
  dsimp only at ht
  split at ht
  · cases ht; exact hs
  · split at ht
    · rename_i heq
      cases ht
      split at heq
      · cases heq
      · split at heq
        · split at heq
          · cases heq; exact hs
          · cases heq
        · obtain ⟨v, -, hv⟩ := Option.map_eq_some_iff.1 heq
          cases hv; exact State.setPhys_rooted hI hs
    · obtain ⟨v, -, hv⟩ := Option.map_eq_some_iff.1 ht
      cases hv; exact hostRank_rooted hI hs

theorem loseTask_rooted {s : State} {id rank reason code : Nat} (hs : I s) : I (loseTask s id rank reason code) := by
  unfold loseTask
  split
  · exact hs
  · exact rasLog_rooted hI (State.modTask_rooted hI hs)

theorem moveRank_rooted {s : State} {id : Nat} {c : Nat} (hs : I s) : I (moveRank id s c) := by
  unfold moveRank
  split
  · exact hs
  · refine ite_rooted hs ?_
    dsimp only
    split
    · exact loseTask_rooted hI hs
    · exact State.modCore_rooted hI (State.modTask_rooted hI (targetOf_rooted hI hs ‹_›))

theorem execReplayEvent_rooted {s : State} {task : Nat} {lost : List Nat} (hs : I s) : Leads I (execReplayEvent task lost s) := by
  unfold execReplayEvent
  refine Leads.next ?_
  split
  · exact hs
  · refine ite_rooted hs ?_
    dsimp only
    split
    · exact loseTask_rooted hI (foldl_rooted (fun _ _ h1 => ite_rooted (rasLog_rooted hI (State.modCore_rooted hI h1)) h1) hs)
    · refine refreshAdmission_rooted hI ?_
      refine foldl_rooted (fun _ _ h2 => ?_) (foldl_rooted (fun _ _ h3 => moveRank_rooted hI h3) (foldl_rooted (fun _ _ h4 => ite_rooted
          (rasLog_rooted hI (State.modCore_rooted hI h4)) h4) hs))
      refine ite_rooted ?_ h2
      split
      · exact State.modCore_rooted hI h2
      · exact h2

theorem breakLock_rooted {s : State} {c : Nat} {m : Nat × Nat × Nat} (hs : I s) : I (breakLock s c m) :=
  ite_rooted (rasLog_rooted hI (hI.rest (sendRemote_rooted hI hs))) (rasLog_rooted hI (passLock_rooted hI hs))

theorem execFenceComplete_rooted {s : State} {core : CoreId} (hs : I s) : Leads I (execFenceComplete core s) := by
  unfold execFenceComplete
  refine Leads.next ?_
  dsimp only
  split
  · exact hs
  · split
    · refine ite_rooted hs ?_
      split
      · exact hs
      · exact State.modCore_rooted hI (ite_via (fun h2 => zeroLocal_rooted hI h2) (fun h2 => h2) (State.modCore_rooted hI (foldl_rooted (fun _ _ h1
            => breakLock_rooted hI h1) (hI.rest (cancelOps_rooted hI hs)))))
    · exact hs

theorem execRestoreComplete_rooted {s : State} {core : CoreId} (hs : I s) : Leads I (execRestoreComplete core s) := by
  unfold execRestoreComplete
  refine Leads.next ?_
  dsimp only
  split
  · exact hs
  · exact ite_rooted hs (rasLog_rooted hI (recordBases_rooted hI (State.modCore_rooted hI (State.modTask_rooted hI hs))))

theorem execCheckpointWriteComplete_rooted {s : State} {core : CoreId} (hs : I s) : Leads I (execCheckpointWriteComplete core s) := by
  unfold execCheckpointWriteComplete
  refine Leads.next ?_
  dsimp only
  split
  · exact hs
  · exact ite_rooted hs (State.setCore_rooted hI hs)

theorem execReservationMove_rooted {task rank : Nat} {s : State} (hs : I s) : Leads I (execReservationMove task rank s) := by
  unfold execReservationMove
  refine Leads.next ?_
  split
  · exact hs
  · refine ite_rooted hs ?_
    dsimp only
    split
    · rename_i heq
      split at heq
      · cases heq
      · obtain ⟨p, -, rfl⟩ := Option.map_eq_some_iff.1 heq
        exact refreshClcore_rooted hI (State.setPhys_rooted hI hs)
    · split
      · exact refreshAdmission_rooted hI (loseTask_rooted hI hs)
      · exact refreshAdmission_rooted hI (freeCore_rooted hI (State.modTask_rooted hI (hostRank_rooted hI hs)))

theorem returnCore_rooted {s : State} {c : Nat} (hs : I s) : I (returnCore s c) :=
  refreshClcore_rooted hI (State.modCore_rooted hI hs)

theorem retireCore_rooted {s : State} {c : Nat} (hs : I s) : I (retireCore s c) := by
  unfold retireCore
  refine rasLog_rooted hI ?_
  refine refreshClcore_rooted hI ?_
  split
  · exact State.setPhys_rooted hI (State.modCore_rooted hI hs)
  · exact State.modCore_rooted hI hs

theorem execGridSelfTestComplete_rooted {s : State} {core : CoreId} {rows cols : List (Fin 65)} {other : Bool} (hs : I s) : Leads I
    (execGridSelfTestComplete core rows cols other s) :=
  Leads.next (ite_rooted hs (ite_rooted (returnCore_rooted hI hs) (ite_rooted (retireCore_rooted hI hs) (State.modCore_rooted hI hs))))

theorem execGridSpared_rooted {s : State} {core : CoreId} (hs : I s) : Leads I (execGridSpared core s) := by
  unfold execGridSpared
  refine Leads.next ?_
  dsimp only
  split
  · exact hs
  · refine ite_rooted hs ?_
    refine rasLog_rooted hI ?_
    refine returnCore_rooted hI ?_
    split
    · refine addRepair_rooted hI ?_
      split
      · exact addRepair_rooted hI (State.modCore_rooted hI hs)
      · exact State.modCore_rooted hI hs
    · split
      · exact addRepair_rooted hI (State.modCore_rooted hI hs)
      · exact State.modCore_rooted hI hs

theorem execAttnSelfTestComplete_rooted {s : State} {cluster : ClusterId} {pass : Bool} (hs : I s) : Leads I (execAttnSelfTestComplete cluster pass
    s) :=
  Leads.next (ite_rooted hs (ite_rooted (rasLog_rooted hI (State.modCluster_rooted hI hs)) (rasLog_rooted hI (retireCluster_rooted hI hs))))

theorem execClusterReset_rooted {s : State} {cluster : ClusterId} (hs : I s) : Leads I (execClusterReset cluster s) :=
  Leads.next (ite_rooted hs (State.modCluster_rooted hI (foldl_rooted (fun _ _ h1 => State.modCore_rooted hI (zeroLocal_rooted hI h1)) hs)))

theorem execClusterResetComplete_rooted {s : State} {cluster : ClusterId} (hs : I s) : Leads I (execClusterResetComplete cluster s) :=
  Leads.next (ite_rooted hs (State.setField_rooted hI (State.setField_rooted hI (hI.rest (State.modCluster_rooted hI hs)))))

/-! ### Retire -/

theorem retireDie_rooted {s : State} {d : Nat} (hs : I s) : I (retireDie s d) :=
  refreshAdmission_rooted hI (foldl_rooted (fun _ _ h1 => loseTask_rooted hI h1) (rasLog_rooted hI (foldl_rooted (fun _ _ h2 =>
      retireCluster_rooted hI h2) (hI.rest hs))))

theorem retireTower_rooted {s : State} {t : Nat} (hs : I s) : I (retireTower s t) :=
  ite_rooted hs (refreshAdmission_rooted hI (foldl_rooted (fun _ _ h1 => loseTask_rooted hI h1) (rasLog_rooted hI (foldl_rooted (fun _ _ h2 =>
      retireCluster_rooted hI h2) (hI.rest hs)))))

theorem retireClusters_rooted {s : State} {t : Nat} (hs : I s) : I (retireClusters s t) :=
  refreshAdmission_rooted hI (foldl_rooted (fun _ _ h1 => retireCluster_rooted hI h1) hs)

theorem repinLine_rooted {s : State} {p : Nat × Line} (hs : I s) : I (repinLine s p) := by
  unfold repinLine
  split
  · exact ite_rooted (hI.rest hs) (State.setField_rooted hI hs)
  · exact hs

theorem execBankWritebackComplete_rooted {s : State} {tower : TowerId} {bank : Fin 512} (hs : I s) : Leads I (execBankWritebackComplete tower bank
    s) := by
  unfold execBankWritebackComplete
  refine Leads.next ?_
  refine ite_rooted hs ?_
  refine refreshTower_rooted hI ?_
  refine refreshHstat_rooted hI ?_
  refine trimHalf_rooted hI ?_
  refine hI.rest ?_
  refine foldl_rooted (fun _ _ h1 => repinLine_rooted hI h1) ?_
  refine foldl_rooted (fun _ _ h2 => ?_) (hI.rest (foldl_rooted (fun _ _ h3 => evictLine_rooted hI h3) hs))
  split
  · exact relocateWay_rooted hI h2 ‹_›
  · exact retireClusters_rooted hI h2

/-! ### Reset -/

theorem resetRegs_rooted {s : State} {e : Nat} {hit : Nat → Bool} (hs : I s) : I (resetRegs s e hit) :=
  hI.rest hs

theorem clearCounts_rooted {s : State} {tw : Nat} {io cls : Bool} (hs : I s) : I (clearCounts s tw io cls) :=
  hI.rest hs

theorem purgeCore_rooted {s : State} {c : Nat} (hs : I s) : I (purgeCore s c) := by
  unfold purgeCore
  exact State.modCore_rooted hI (hI.rest hs)

theorem endTaskNow_rooted {s : State} {id : Nat} (hs : I s) : I (endTaskNow s id) := by
  unfold endTaskNow
  dsimp only
  split
  · exact hs
  · split
    · exact foldl_rooted (fun _ _ h1 => boundary_rooted hI (purgeCore_rooted hI h1)) (ite_rooted hs (State.modTask_rooted hI hs))
    · exact foldl_rooted (fun _ _ h2 => freeCore_rooted hI h2) (curtailCheck_rooted hI (finishTask_rooted hI (foldl_rooted (fun _ _ h3 =>
          boundary_rooted hI (purgeCore_rooted hI h3)) (ite_rooted hs (State.modTask_rooted hI hs)))))

theorem endTower_rooted {s : State} {tw : Nat} (hs : I s) : I (endTower s tw) :=
  foldl_rooted (fun _ _ h1 => endTaskNow_rooted hI h1) hs

theorem writeBackTower_rooted {s : State} {tw : Nat} (hs : I s) : I (writeBackTower s tw) :=
  hI.rest (foldl_rooted (fun _ _ h1 => leaveLine_rooted hI h1) (foldl_rooted (fun _ _ h2 => serveReq_rooted hI h2) (foldl_rooted (fun _ _ h3 =>
      applyEntry_rooted hI h3) hs)))

theorem clearDomains_rooted {s : State} {hit : Option Nat → Bool} (hs : I s) : I (clearDomains s hit) :=
  hI.rest hs

theorem clearSamples_rooted {s : State} {hit : Option Nat → Bool} (hs : I s) : I (clearSamples s hit) :=
  hI.rest hs

theorem fillTower_rooted {s : State} {tw : Nat} {clean : Bool} (hs : I s) : I (fillTower s tw clean) :=
  ite_via (fun h1 => zeroFill_rooted hI (zeroFill_rooted hI h1)) (fun h1 => h1) (hI.rest hs)

theorem reloadGranule_rooted {s : State} {g : Nat} (hs : I s) : I (reloadGranule s g) := by
  unfold reloadGranule
  split
  · exact hs
  · exact hI.write (fun hm => copyCells_wf _ hm) (zeroFill_rooted hI hs)

theorem publish_rooted {s : State} {plan : List (List Nat)} {cs : List Nat} (hs : I s) : I (publish s plan cs) :=
  refreshAdmission_rooted hI (foldl_rooted (fun _ _ h1 => settle_rooted hI h1) (foldl_rooted (fun _ _ h2 => refreshFloor_rooted hI h2)
      (adoptPlan_rooted hI hs)))

theorem enterLight_rooted {s : State} {c : Nat} (hs : I s) : I (enterLight s c) :=
  ite_rooted hs (stopScrubs_rooted hI (hI.rest (State.modCluster_rooted hI (foldl_rooted (fun _ _ h1 => State.modCore_rooted hI h1) hs))))

theorem curtailClusters_rooted {s : State} (hs : I s) : I (curtailClusters s) := by
  unfold curtailClusters
  refine foldl_rooted (fun _ _ h1 => ?_) hs
  refine ite_rooted (enterLight_rooted hI h1) ?_
  refine ite_rooted h1 ?_
  split
  · exact requestSetpoint_rooted hI h1
  · exact h1

theorem assignIds_rooted {s : State} {cl : Nat} (hs : I s) : I (assignIds s cl) :=
  refreshClcore_rooted hI (foldl_rooted (fun _ _ h1 => State.setPhys_rooted hI h1) hs)

theorem trainHost_rooted {s : State} {t : HostTrain} (hs : I s) : I (trainHost s t) :=
  ite_via (fun h1 => sendMsix_rooted hI (rasLog_rooted hI h1)) (fun h1 => h1) (State.setField_rooted hI (State.setField_rooted hI
      (State.setField_rooted hI (State.setField_rooted hI hs))))

theorem burnFloors_rooted {s : State} (hs : I s) : I (burnFloors s) :=
  ite_rooted (ite_rooted (State.setField_rooted hI hs) hs) (foldl_rooted (fun _ _ h1 => ite_rooted (State.modProc_rooted hI h1) h1) hs)

theorem commitRepairs_rooted {s : State} (hs : I s) : I (commitRepairs s) :=
  hI.rest hs

theorem execD3hot_rooted {s : State} {enter : Bool} (hs : I s) : Leads I (execD3hot enter s) :=
  Leads.next (hI.rest hs)

theorem idleLinks_rooted {s : State} (hs : I s) : I (idleLinks s) :=
  foldl_rooted (fun _ _ h1 => ite_rooted h1 (ite_via (fun h2 => h2) (fun h2 => rasLog_rooted hI h2) (State.setField_rooted hI
      (State.setField_rooted hI (State.setField_rooted hI h1))))) hs

/-! ### Therm -/

theorem State.modDie_rooted {s : State} {d : Nat} {f : DieTherm → DieTherm} (hs : I s) : I (State.modDie s d f) :=
  hI.rest hs

theorem oweCal_rooted {s : State} {d : Nat} (hs : I s) : I (oweCal s d) := by
  unfold oweCal
  split
  · exact hs
  · exact hI.rest hs

theorem throttleDie_rooted {s : State} {d : Nat} (hs : I s) : I (throttleDie s d) :=
  ite_rooted hs (foldl_rooted (fun _ _ h1 => ite_rooted (enterLight_rooted hI h1) (ite_rooted h1 (requestSetpoint_rooted hI h1))) hs)

theorem setBand_rooted {s : State} {d b : Nat} (hs : I s) : I (setBand s d b) :=
  ite_via (fun h1 => rasLog_rooted hI (throttleDie_rooted hI h1)) (fun h1 => h1) (State.modDie_rooted hI (State.setField_rooted hI (oweCal_rooted
      hI (State.setField_rooted hI hs))))

theorem enterSuspect_rooted {s : State} {d : Nat} (hs : I s) : I (enterSuspect s d) :=
  ite_rooted hs (rasLog_rooted hI (State.modDie_rooted hI (State.setField_rooted hI hs)))

theorem judgeBlind_rooted {s : State} {d : Nat} (hs : I s) : I (judgeBlind s d) :=
  ite_via (fun h1 => rasLog_rooted hI (State.modDie_rooted hI h1)) (fun h1 => h1) (State.setField_rooted hI hs)

theorem planDie_rooted {s : State} {d : Nat} (hs : I s) : I (planDie s d) :=
  ite_rooted hs (foldl_rooted (fun _ _ h1 => holdCommit_rooted hI (State.setField_rooted hI h1)) hs)

theorem judgeBand_rooted {s : State} {d : Nat} (hs : I s) : I (judgeBand s d) :=
  ite_rooted (State.modDie_rooted hI (setBand_rooted hI hs)) (ite_via (fun h1 => ite_via (fun h2 => h2) (fun h2 => setBand_rooted hI h2) h1) (fun
      h1 => ite_via (fun h4 => State.modDie_rooted hI h4) (fun h4 => State.modDie_rooted hI h4) (ite_via (fun h3 => State.modDie_rooted hI h3) (fun
      h3 => h3) h1)) (State.modDie_rooted hI hs))

theorem judgeUnder_rooted {s : State} {d estValid : Nat} (hs : I s) : I (judgeUnder s d estValid) :=
  State.modDie_rooted hI hs

theorem guardCluster_rooted {s : State} {c speed : Nat} (hs : I s) : I (guardCluster s c speed) :=
  ite_rooted hs (ite_rooted (ite_rooted (retireCluster_rooted hI (rasLog_rooted hI hs)) (rasLog_rooted hI (State.setField_rooted hI
      (State.setField_rooted hI (hI.rest (countEvent_rooted hI hs)))))) (ite_rooted hs (ite_rooted (ite_rooted hs (State.setField_rooted hI hs))
      (ite_rooted (State.setField_rooted hI (hI.rest hs)) hs))))

theorem refreshWindow_rooted {s : State} (hs : I s) : I (refreshWindow s) :=
  State.setField_rooted hI hs

theorem judgeDie_rooted {s : State} {est : Nat → Nat} {estValid : Nat → Nat} {d : Nat} (hs : I s) : I (judgeDie est estValid s d) :=
  ite_rooted hs (judgeBand_rooted hI (planDie_rooted hI (State.setField_rooted hI (ite_via (fun h1 => ite_via (fun h2 => enterSuspect_rooted hI h2)
      (fun h2 => h2) (judgeUnder_rooted hI h1)) (fun h1 => judgeBlind_rooted hI h1) (State.setField_rooted hI hs)))))

theorem takeSamples_rooted {s : State} {samples : List (Fin 528 × Fin 512 × Fin 512)} (hs : I s) : I (takeSamples s samples) :=
  hI.rest hs

theorem execSensorFailed_rooted {s : State} {monitor : Fin 528} (hs : I s) : Leads I (execSensorFailed monitor s) :=
  Leads.next (ite_rooted hs (rasLog_rooted hI (hI.rest hs)))

theorem execSensorSuspect_rooted {s : State} {tower : TowerId} (hs : I s) : Leads I (execSensorSuspect tower s) := by
  unfold execSensorSuspect
  refine Leads.next ?_
  split
  · exact hs
  · exact ite_rooted hs (judgeBand_rooted hI (planDie_rooted hI (State.setField_rooted hI (enterSuspect_rooted hI hs))))

theorem execBandRiseDelayed_rooted {s : State} {die : DieId} (hs : I s) : Leads I (execBandRiseDelayed die s) := by
  unfold execBandRiseDelayed
  refine Leads.next ?_
  split
  · exact hs
  · exact ite_rooted hs (ite_via (fun h1 => setBand_rooted hI h1) (fun h1 => h1) (State.modDie_rooted hI hs))

theorem execBandFall_rooted {s : State} {die : DieId} (hs : I s) : Leads I (execBandFall die s) := by
  unfold execBandFall
  refine Leads.next ?_
  dsimp only
  split
  · exact hs
  · exact ite_rooted hs (setBand_rooted hI hs)

theorem execSetpointSettled_rooted {s : State} {cluster : ClusterId} (hs : I s) : Leads I (execSetpointSettled cluster s) :=
  Leads.next (ite_rooted (settle_rooted hI hs) hs)

/-! ### Power -/

theorem logDom_rooted {s : State} {code d : Nat} (hs : I s) : I (logDom s code d) :=
  rasLog_rooted hI hs

theorem execPathCheck_rooted {s : State} {domain : Fin 78} {drop expected : Nat} (hs : I s) : Leads I (execPathCheck domain drop expected s) :=
  Leads.next (foldl_rooted (fun _ _ h1 => hI.rest h1) hs)

theorem execSenseRouteFailure_rooted {s : State} {domain : Fin 78} {route : Fin 2} (hs : I s) : Leads I (execSenseRouteFailure domain route s) :=
  Leads.next (ite_rooted hs (ite_via (fun h1 => h1) (fun h1 => logDom_rooted hI (pwrEvent_rooted hI (ite_via (fun h2 => holdCommit_rooted hI h2)
      (fun h2 => h2) h1))) (hI.rest hs)))

theorem shed_rooted {n : Nat} {s : State} (hs : I s) : I (shed n s) := by
  induction n generalizing s with
  | zero => exact hs
  | succ n ih =>
    unfold shed
    split
    · exact hs
    · split
      · exact hs
      · exact ih (State.modTask_rooted hI hs)

theorem doubleFault_rooted {s : State} {plan : List (List Nat)} (hs : I s) : I (doubleFault s plan) :=
  ite_via (fun h1 => h1) (fun h1 => refreshAdmission_rooted hI (adoptPlan_rooted hI (refreshAdmission_rooted hI (shed_rooted hI h1))))
      (refreshCeiling_rooted hI hs)

theorem pwrReturns_rooted {s : State} (hs : I s) : I (pwrReturns s) :=
  ite_rooted hs (refreshAdmission_rooted hI (shed_rooted hI hs))

theorem execConverterFailed_rooted {s : State} {unit : Fin 4} {plan : List (List Nat)} (hs : I s) : Leads I (execConverterFailed unit plan s) :=
  Leads.next (ite_rooted hs (ite_via (fun h1 => h1) (fun h1 => doubleFault_rooted hI (hI.rest h1)) (rasLog_rooted hI (pwrEvent_rooted hI
      (State.setField_rooted hI hs)))))

theorem execInrushGrant_rooted {s : State} {tower : TowerId} (hs : I s) : Leads I (execInrushGrant tower s) := by
  unfold execInrushGrant
  refine Leads.next ?_
  split
  · exact ite_rooted hs (hI.rest hs)
  · exact hs

theorem execClusterReady_rooted {s : State} {cluster : ClusterId} (hs : I s) : Leads I (execClusterReady cluster s) := by
  unfold execClusterReady
  refine Leads.next ?_
  split
  · exact hs
  · exact ite_rooted hs (ite_via (fun h1 => enterLight_rooted hI h1) (fun h1 => h1) (settle_rooted hI (holdCommit_rooted hI (hI.rest hs))))

theorem execLightIdleEntry_rooted {s : State} {cluster : ClusterId} (hs : I s) : Leads I (execLightIdleEntry cluster s) :=
  Leads.next (enterLight_rooted hI hs)

theorem execTargetEffective_rooted {s : State} {plan : List (List Nat)} (hs : I s) : Leads I (execTargetEffective plan s) := by
  unfold execTargetEffective
  refine Leads.next ?_
  split
  · exact hs
  · exact ite_rooted hs (ite_via (fun h1 => h1) (fun h1 => adoptPlan_rooted hI h1) (pwrEvent_rooted hI (refreshCeiling_rooted hI
        (State.setField_rooted hI (hI.rest hs)))))

theorem withdrawGrants_rooted {s : State} (hs : I s) : I (withdrawGrants s) :=
  hI.rest hs

theorem reaskInrush_rooted {s : State} (hs : I s) : I (reaskInrush s) :=
  foldl_rooted (fun _ _ h1 => ite_rooted h1 (requestInrush_rooted hI h1)) hs

theorem execCurtailEnter_rooted {s : State} {plan : List (List Nat)} (hs : I s) : Leads I (execCurtailEnter plan s) :=
  Leads.next (ite_rooted (hI.rest hs) (curtailCheck_rooted hI (ite_via (fun h2 => curtailClusters_rooted hI (reaskInrush_rooted hI
      (withdrawGrants_rooted hI h2))) (fun h2 => h2) (ite_via (fun h1 => h1) (fun h1 => adoptPlan_rooted hI h1) (pwrEvent_rooted hI
      (refreshCeiling_rooted hI (State.setField_rooted hI (hI.rest hs))))))))

theorem execCurtailExit_rooted {s : State} {plan : List (List Nat)} (hs : I s) : Leads I (execCurtailExit plan s) :=
  Leads.next (ite_rooted (hI.rest hs) (ite_via (fun h1 => h1) (fun h1 => adoptPlan_rooted hI h1) (pwrEvent_rooted hI (refreshCeiling_rooted hI
      (State.setField_rooted hI (State.setField_rooted hI (hI.rest hs)))))))

theorem idleTower_rooted {s : State} {st t : Nat} (hs : I s) : I (idleTower s st t) :=
  ite_rooted (clearCounts_rooted hI (fillTower_rooted hI (writeBackTower_rooted hI hs))) (zeroFill_rooted hI (clearCounts_rooted hI
      (fillTower_rooted hI hs)))

theorem execPowerStateEntry_rooted {s : State} (hs : I s) : Leads I (execPowerStateEntry s) := by
  unfold execPowerStateEntry
  refine Leads.next ?_
  split
  · exact hs
  · rename_i st _ _
    have hjob : ∀ u, I u → I (match stateJob u st with
        | some j => endJob u j mOK 0 []
        | none => u) := fun u hu => by
      split
      · exact endJob_rooted hI hu
      · exact hu
    exact ite_rooted hs (hjob _ (refreshAdmission_rooted hI (foldl_rooted (fun _ _ h1 => refreshFloor_rooted hI h1) (hI.rest (resetRegs_rooted hI
      (clearDomains_rooted hI (foldl_rooted (fun _ _ h2 => idleTower_rooted hI h2) (stopScrubs_rooted hI (hI.rest hs)))))))))

/-! ### Class -/

theorem State.setArb_rooted {s : State} {a : Nat} {x : Arb} (hs : I s) : I (State.setArb s a x) :=
  hI.rest hs

theorem gainTokens_rooted {s : State} {m c h : Nat} (hs : I s) : I (gainTokens s m c h) :=
  hI.rest hs

theorem takeToken_rooted {s : State} {m c i : Nat} {t : State} (hs : I s) (ht : takeToken s m c i = some t) : I t := by
  unfold takeToken at ht
  dsimp only at ht
  split at ht
  · cases ht; exact hs
  · split at ht
    · cases ht; exact gainTokens_rooted hI hs
    · split at ht
      · cases ht
      · cases ht; exact hI.rest hs

theorem arbArrive_rooted {s : State} {a : Nat} {r : Arrival} (hs : I s) : I (arbArrive a s r) := by
  unfold arbArrive
  split
  · exact State.setArb_rooted hI hs
  · refine ite_rooted (State.setArb_rooted hI hs) ?_
    split
    · exact State.setArb_rooted hI (takeToken_rooted hI hs ‹_›)
    · exact gainTokens_rooted hI hs

theorem arbSlot_rooted {s : State} {a : Nat} {credit : Nat → Bool} (hs : I s) : I (arbSlot s a credit) :=
  State.setArb_rooted hI (hI.rest hs)

theorem execArbiterGrant_rooted {s : State} {arbiter : ArbiterId} {credits : Fin 16} {arrivals : List Arrival} (hs : I s) : Leads I
    (execArbiterGrant arbiter credits arrivals s) :=
  Leads.next (foldl_rooted (fun _ _ h1 => arbArrive_rooted hI h1) (arbSlot_rooted hI hs))

theorem execLatencyWindowEmpty_rooted {s : State} {arbiter : ArbiterId} {cls : ClassId} (hs : I s) : Leads I (execLatencyWindowEmpty arbiter cls s)
    :=
  Leads.next (ite_rooted hs (State.setArb_rooted hI hs))

theorem markRate_rooted {s : State} {m c : Nat} (hs : I s) : I (markRate s m c) :=
  ite_rooted hs (hI.rest hs)

theorem execMark_rooted {s : State} {arbiter : ArbiterId} (hs : I s) : Leads I (execMark arbiter s) :=
  Leads.next (ite_rooted hs (State.setArb_rooted hI (foldl_rooted (fun _ _ h1 => markRate_rooted hI h1) hs)))

theorem execRateRecovery_rooted {s : State} {master : MasterId} {cls : ClassId} (hs : I s) : Leads I (execRateRecovery master cls s) :=
  Leads.next (ite_rooted hs (hI.rest hs))

theorem execClassSample_rooted {s : State} (hs : I s) : Leads I (execClassSample s) :=
  Leads.next (ite_rooted hs (hI.rest hs))

theorem epochClass_rooted {s : State} {c : Nat} (hs : I s) : I (epochClass s c) :=
  hI.rest (ite_via (fun h1 => State.setField_rooted hI h1) (fun h1 => h1) (State.setField_rooted hI (State.setField_rooted hI
      (State.setField_rooted hI hs))))

theorem execEpochEnd_rooted {s : State} (hs : I s) : Leads I (execEpochEnd s) :=
  Leads.next (ite_rooted hs (hI.rest (foldl_rooted (fun _ _ h1 => epochClass_rooted hI h1) hs)))

/-! ### FwProg -/

theorem argCheck_rooted {s : State} {c : Call} {bad : Option Nat} {k : State → State} (hk : ∀ s, I s → I (k s)) (hs : I s) : I (argCheck s c bad k)
    := by
  unfold argCheck
  split
  · exact finish_rooted hI hs
  · exact hk _ hs

theorem consumeImage_rooted {s : State} {a n : Nat} (hs : I s) : I (consumeImage s a n) := by
  unfold consumeImage
  dsimp only
  split
  · exact hs
  · exact countConsumed_rooted hI hs

theorem setInvalid_rooted {s : State} {x : Nat} (hs : I s) : I (setInvalid s x) := by
  unfold setInvalid
  split
  · exact hs
  · exact hI.rest hs

theorem putContext_rooted {s : State} {c : Call} (hs : I s) : I (putContext s c) :=
  finishOk_rooted hI (hI.rest hs)

theorem cmdLoadContext_rooted {s : State} {c : Call} (hs : I s) : I (cmdLoadContext s c) := by
  unfold cmdLoadContext
  refine ite_rooted (ite_rooted hs (putContext_rooted hI hs)) ?_
  refine argCheck_rooted hI (fun _ h1 => ?_) hs
  split
  · exact finish_rooted hI h1
  · exact ite_rooted (keepCall_rooted hI (setInvalid_rooted hI h1)) (putContext_rooted hI h1)

theorem cmdUnloadContext_rooted {s : State} {c : Call} (hs : I s) : I (cmdUnloadContext s c) :=
  ite_via (fun h1 => ite_rooted hs h1) (fun h1 => ite_rooted (finish_rooted hI hs) (ite_rooted (finish_rooted hI hs) (ite_rooted (keepCall_rooted
      hI (setInvalid_rooted hI hs)) h1))) (finishOk_rooted hI (hI.rest hs))

theorem setSource_rooted {s : State} {reload : Bool} {p : Nat × Nat} (hs : I s) : I (setSource reload s p) :=
  ite_via (fun h1 => reloadGranule_rooted hI h1) (fun h1 => h1) (hI.rest hs)

theorem cmdLoadGranules_rooted {s : State} {c : Call} (hs : I s) : I (cmdLoadGranules s c) := by
  unfold cmdLoadGranules
  exact argCheck_rooted hI (fun _ h1 => ite_rooted (finish_rooted hI h1) (finishOk_rooted hI (foldl_rooted (fun _ _ h2 => setSource_rooted hI h2)
      h1))) hs

theorem putQ_rooted {s : State} {q o : Nat} {b : List Nat} (hs : I s) : I (putQ s q o b) :=
  hI.write (fun hm => writeBytes_wf hm _ _) hs

theorem freshIndices_rooted {s : State} {q : Nat} (hs : I s) : I (freshIndices s q) :=
  putQ_rooted hI hs

theorem cmdQueueCreate_rooted {s : State} {c : Call} (hs : I s) : I (cmdQueueCreate s c) :=
  argCheck_rooted hI (fun _ h1 => ite_rooted (finish_rooted hI h1) (finishOk_rooted hI (freshIndices_rooted hI (State.setQf_rooted hI (putQ_rooted
      hI h1))))) hs

theorem dropSpilled_rooted {s : State} {q : Nat} (hs : I s) : I (dropSpilled s q).2 :=
  State.setQf_rooted hI (hI.rest hs)

theorem putRings_rooted {s : State} {q : Nat} {r : List Nat} (hs : I s) : I (putRings s q r) :=
  freshIndices_rooted hI (putQ_rooted hI (putQ_rooted hI hs))

theorem cmdQueueModify_rooted {s : State} {c : Call} (hs : I s) : I (cmdQueueModify s c) :=
  ite_rooted (ite_rooted hs (finishOk_rooted hI (putRings_rooted hI hs))) (argCheck_rooted hI (fun _ h1 => ite_rooted (finish_rooted hI h1)
      (ite_via (fun h2 => finishOk_rooted hI h2) (fun h2 => ite_via (fun h3 => keepCall_rooted hI h3) (fun h3 => finishOk_rooted hI
      (putRings_rooted hI h3)) h2) (putQ_rooted hI h1))) hs)

theorem queueArg_rooted {s : State} {c : Call} {k : Nat → State} (hk : ∀ q, I (k q)) (hs : I s) : I (queueArg s c k) :=
  ite_rooted (finish_rooted hI hs) (ite_rooted (finish_rooted hI hs) (hk _))

theorem cmdQueueReset_rooted {s : State} {c : Call} (hs : I s) : I (cmdQueueReset s c) :=
  ite_rooted (ite_rooted hs (finishOk_rooted hI (freshIndices_rooted hI (State.setQf_rooted hI (State.setQf_rooted hI (State.setQf_rooted hI
      (dropSpilled_rooted hI hs))))))) (queueArg_rooted hI (fun _ => ite_rooted (keepCall_rooted hI hs) (finishOk_rooted hI (freshIndices_rooted hI
      (State.setQf_rooted hI (State.setQf_rooted hI (State.setQf_rooted hI (dropSpilled_rooted hI hs))))))) hs)

theorem cmdQueueDelete_rooted {s : State} {c : Call} (hs : I s) : I (cmdQueueDelete s c) :=
  ite_rooted (ite_rooted hs (finishOk_rooted hI (State.setQf_rooted hI (dropSpilled_rooted hI hs)))) (queueArg_rooted hI (fun _ => ite_rooted
      (keepCall_rooted hI hs) (finishOk_rooted hI (State.setQf_rooted hI (dropSpilled_rooted hI hs)))) hs)

theorem cmdQueueQuery_rooted {s : State} {c : Call} (hs : I s) : I (cmdQueueQuery s c) :=
  ite_rooted (finish_rooted hI hs) (finishOk_rooted hI hs)

/-! ### FwSys -/

theorem cmdIdentify_rooted {s : State} {c : Call} (hs : I s) : I (cmdIdentify s c) :=
  finishOk_rooted hI hs

theorem cmdGetVersion_rooted {s : State} {c : Call} (hs : I s) : I (cmdGetVersion s c) :=
  finishOk_rooted hI hs

theorem cmdOpen_rooted {s : State} {c : Call} (hs : I s) : I (cmdOpen s c) := by
  unfold cmdOpen
  dsimp only
  exact argCheck_rooted hI (fun _ h1 => ite_rooted (finish_rooted hI (State.setField_rooted hI (hI.rest (endSession_rooted hI h1))))
      (finishOk_rooted hI
      (State.setReg_rooted hI (State.setField_rooted hI (hI.rest (newNumber_rooted hI (endSession_rooted hI h1))))))) hs

theorem cmdClose_rooted {s : State} {c : Call} (hs : I s) : I (cmdClose s c) :=
  finishOk_rooted hI (endSession_rooted hI hs)

theorem cmdJobStatus_rooted {s : State} {c : Call} (hs : I s) : I (cmdJobStatus s c) := by
  unfold cmdJobStatus
  split
  · exact finish_rooted hI hs
  · exact finishOk_rooted hI (ite_rooted (hI.rest hs) hs)

theorem cmdLock_rooted {s : State} {c : Call} (hs : I s) : I (cmdLock s c) :=
  argCheck_rooted hI (fun _ h1 => ite_rooted (finish_rooted hI h1) (finishOk_rooted hI (State.setReg_rooted hI h1))) hs

theorem cmdUnlock_rooted {s : State} {c : Call} (hs : I s) : I (cmdUnlock s c) :=
  argCheck_rooted hI (fun _ h1 => ite_rooted (finish_rooted hI h1) (finishOk_rooted hI (State.setReg_rooted hI h1))) hs

theorem cmdScrub_rooted {s : State} {c : Call} (hs : I s) : I (cmdScrub s c) := by
  unfold cmdScrub
  refine argCheck_rooted hI (fun _ h1 => ?_) hs
  split
  · exact startJob_rooted hI h1 ‹_›
  · exact ite_rooted (scrubBegin_rooted hI (startJob_rooted hI h1 ‹_›)) (endJob_rooted hI (startJob_rooted hI h1 ‹_›))

theorem cmdPowerTarget_rooted {s : State} {c : Call} (hs : I s) : I (cmdPowerTarget s c) := by
  unfold cmdPowerTarget
  exact argCheck_rooted hI (fun _ h1 => finishOk_rooted hI (adoptPlan_rooted hI (ite_via (fun h2 => pwrEvent_rooted hI h2) (fun h2 => h2)
      (State.setField_rooted hI (hI.rest h1))))) hs

theorem cmdPowerQuery_rooted {s : State} {c : Call} (hs : I s) : I (cmdPowerQuery s c) :=
  finishOk_rooted hI hs

theorem installLicence_rooted {s : State} {l : List Nat} (hs : I s) : I (installLicence s l) :=
  measure_rooted hI (ite_via (fun h1 => foldl_rooted (fun _ _ h2 => ite_rooted (State.setField_rooted hI h2) h2) h1) (fun h1 => h1)
      (refreshCeiling_rooted hI (State.setField_rooted hI (hI.rest hs))))

theorem cmdLicenceInstall_rooted {s : State} {c : Call} (hs : I s) : I (cmdLicenceInstall s c) := by
  unfold cmdLicenceInstall
  dsimp only
  refine argCheck_rooted hI (fun _ h1 => ?_) hs
  refine ite_rooted (finishOk_rooted hI (hI.rest h1)) ?_
  split
  · exact finish_rooted hI (hI.rest (hI.rest h1))
  · exact finishOk_rooted hI (ite_via (fun h2 => h2) (fun h2 => installLicence_rooted hI h2) (hI.rest (hI.rest h1)))

theorem cmdLicenceList_rooted {s : State} {c : Call} (hs : I s) : I (cmdLicenceList s c) :=
  finishOk_rooted hI hs

theorem buildReport_rooted {s : State} {nonce : List Nat} (hs : I s) : I (buildReport s nonce).1 :=
  hI.rest hs

theorem cmdAttest_rooted {s : State} {c : Call} (hs : I s) : I (cmdAttest s c) := by
  unfold cmdAttest
  have hr := buildReport_rooted hI hs (nonce := c.req.take 64)
  refine ite_rooted (ite_rooted (finish_rooted hI (hI.rest hr)) (finishOk_rooted hI (hI.rest hr))) ?_
  split
  · exact finish_rooted hI hs
  · exact ite_rooted (finish_rooted hI hs) (finishOk_rooted hI hs)

theorem cmdDumpRead_rooted {s : State} {c : Call} (hs : I s) : I (cmdDumpRead s c) := by
  unfold cmdDumpRead
  exact argCheck_rooted hI (fun _ h1 => finishOk_rooted hI h1) hs

theorem cmdDumpClear_rooted {s : State} {c : Call} (hs : I s) : I (cmdDumpClear s c) :=
  argCheck_rooted hI (fun _ h1 => finishOk_rooted hI (clearDump_rooted hI h1)) hs

theorem cmdProcRestart_rooted {s : State} {c : Call} (hs : I s) : I (cmdProcRestart s c) :=
  ite_rooted (ite_rooted (finish_rooted hI hs) (ite_rooted (finishOk_rooted hI hs) hs)) (argCheck_rooted hI (fun _ h1 => ite_rooted (finish_rooted
      hI h1) (keepCall_rooted hI (restartProc_rooted hI (State.setField_rooted hI (State.modProc_rooted hI (ite_rooted (saveDump_rooted hI h1)
      h1)))))) hs)

theorem cmdUpdateBegin_rooted {s : State} {c : Call} (hs : I s) : I (cmdUpdateBegin s c) := by
  unfold cmdUpdateBegin
  refine argCheck_rooted hI (fun _ h1 => ?_) hs
  refine ite_rooted (finish_rooted hI h1) ?_
  refine ite_rooted (finish_rooted hI h1) ?_
  split
  · exact startJob_rooted hI h1 ‹_›
  · exact hI.rest (State.modProc_rooted hI (startJob_rooted hI h1 ‹_›))

theorem writeSlot_rooted {s : State} {p sl off : Nat} {b : List Nat} (hs : I s) : I (writeSlot s p sl off b) :=
  hI.rest hs

theorem cmdUpdateWrite_rooted {s : State} {c : Call} (hs : I s) : I (cmdUpdateWrite s c) := by
  unfold cmdUpdateWrite
  refine argCheck_rooted hI (fun _ h1 => ?_) hs
  split
  · exact finish_rooted hI h1
  · exact ite_rooted (finish_rooted hI h1) (ite_rooted (finish_rooted hI h1) (finishOk_rooted hI (State.modProc_rooted hI (writeSlot_rooted hI
        h1))))

theorem cmdUpdateVerify_rooted {s : State} {c : Call} (hs : I s) : I (cmdUpdateVerify s c) := by
  unfold cmdUpdateVerify
  refine argCheck_rooted hI (fun _ h1 => ?_) hs
  refine ite_rooted (finish_rooted hI h1) ?_
  split
  · exact finish_rooted hI h1
  · exact ite_rooted (finish_rooted hI h1) (finishOk_rooted hI (State.modProc_rooted hI h1))

theorem cmdUpdateActivate_rooted {s : State} {c : Call} (hs : I s) : I (cmdUpdateActivate s c) := by
  unfold cmdUpdateActivate
  refine argCheck_rooted hI (fun _ h1 => ?_) hs
  refine ite_rooted (finish_rooted hI h1) ?_
  split
  · exact startJob_rooted hI h1 ‹_›
  · exact hI.rest (restartProc_rooted hI (State.modProc_rooted hI (startJob_rooted hI h1 ‹_›)))

theorem cmdUpdateAbort_rooted {s : State} {c : Call} (hs : I s) : I (cmdUpdateAbort s c) :=
  argCheck_rooted hI (fun _ h1 => ite_rooted (finish_rooted hI h1) (finishOk_rooted hI (State.modProc_rooted hI h1))) hs

/-! ### Mbx -/

omit hI in
theorem passRun_rooted {p : Pass} {c : Call} {f : State → State} (hf : ∀ s, I s → I (f s)) (hs : I p.s) : I (passRun p c f).s := hf _ hs

/-! ### FwEvent -/

theorem holdProc_rooted {s : State} {p : Nat} (hs : I s) : I (holdProc s p) :=
  rasLog_rooted hI (ite_via (fun h1 => hI.rest h1) (fun h1 => h1) (setPstate_rooted hI hs))

theorem chooseSlot_rooted {s : State} {p : Nat} {pass other : Bool} {t : State} (hs : I s) (ht : chooseSlot s p pass other = some t) : I t := by
  unfold chooseSlot at ht
  dsimp only at ht
  split at ht
  · cases ht; exact hs
  · split at ht
    · cases ht
    · cases ht; exact rasLog_rooted hI (State.setField_rooted hI (saveDump_rooted hI hs))

theorem measureFuses_rooted {s : State} (hs : I s) : I (measureFuses s) :=
  measure_rooted hI hs

theorem commitSlot_rooted {s : State} {p : Nat} (hs : I s) : I (commitSlot s p) :=
  State.modProc_rooted hI hs

theorem execSelfCheckPassed_rooted {s : State} {proc : ProcId} (hs : I s) : Leads I (execSelfCheckPassed proc s) := by
  unfold execSelfCheckPassed
  refine Leads.next ?_
  split
  · exact hs
  · exact ite_rooted hs (endJob_rooted hI (ite_via (fun h1 => commitSlot_rooted hI h1) (fun h1 => State.setField_rooted hI (State.setField_rooted
        hI h1)) (setPstate_rooted hI (hI.rest hs))))

theorem commitWaiting_rooted {s : State} (hs : I s) : I (commitWaiting s) :=
  foldl_rooted (fun _ _ h1 => ite_rooted (State.setField_rooted hI (commitSlot_rooted hI h1)) h1) hs

theorem writeHeld_rooted {s : State} (hs : I s) : I (writeHeld s) :=
  hI.rest hs

theorem execWriteWindowOpen_rooted {s : State} {resource : Fin 4} (hs : I s) : Leads I (execWriteWindowOpen resource s) :=
  Leads.next (ite_rooted hs (ite_via (fun h1 => commitWaiting_rooted hI h1) (fun h1 => ite_via (fun h2 => ite_via (fun h3 => burnFloors_rooted hI
      h3) (fun h3 => h3) h2) (fun h2 => ite_via (fun h4 => writeHeld_rooted hI h4) (fun h4 => h4) h2) h1) (State.setField_rooted hI hs)))

theorem failJob_rooted {s : State} {j : Job} {detail : Nat} (hs : I s) : I (failJob s j detail) :=
  ite_rooted (endJob_rooted hI (saveDump_rooted hI (State.modProc_rooted hI (hI.rest hs)))) (ite_rooted (endJob_rooted hI (saveDump_rooted hI
      (endRun_rooted hI hs))) hs)

theorem execJobEnd_rooted {s : State} {job : Word} {failed : Bool} {detail : Word} (hs : I s) : Leads I (execJobEnd job failed detail s) := by
  unfold execJobEnd
  refine Leads.next ?_
  split
  · exact hs
  · exact ite_rooted hs (ite_rooted (failJob_rooted hI hs) (ite_rooted (endJob_rooted hI (State.modProc_rooted hI (hI.rest hs))) (ite_rooted
        (ite_rooted hs (endJob_rooted hI (endRun_rooted hI hs))) hs)))

theorem execJobExpiry_rooted {s : State} {job : Word} (hs : I s) : Leads I (execJobExpiry job s) := by
  unfold execJobExpiry
  refine Leads.next ?_
  split
  · exact hs
  · split
    · exact hs
    · exact ite_rooted hs (hI.rest hs)

/-! ### LupLink -/

theorem lupLog_rooted {s : State} {code sev l : Nat} (hs : I s) : I (lupLog s code sev l) :=
  rasLog_rooted hI hs

theorem reachStep_rooted {s : State} {m : Nat} (hs : I s) : I (reachStep s m) :=
  ite_via (fun h1 => lupLog_rooted hI h1) (fun h1 => h1) (State.setField_rooted hI hs)

theorem refreshReach_rooted {s : State} (hs : I s) : I (refreshReach s) :=
  foldl_rooted (fun _ _ h1 => reachStep_rooted hI h1) hs

theorem reroute_rooted {s : State} {l : Nat} (hs : I s) : I (reroute s l) :=
  foldl_rooted (fun _ _ h1 => sendMsg_rooted hI h1) (State.modLink_rooted hI hs)

theorem newEpoch_rooted {s : State} {routes : Tab (Nat × Nat)} (hs : I s) : I (newEpoch s routes) :=
  foldl_rooted (fun _ _ h1 => reroute_rooted hI h1) (refreshReach_rooted hI (lupLog_rooted hI (State.setField_rooted hI (State.setField_rooted hI
      (hI.rest hs)))))

theorem setMembers_rooted {s : State} {ms : List Nat} (hs : I s) : I (setMembers s ms) :=
  State.setField_rooted hI (State.setField_rooted hI (hI.rest hs))

theorem sendOn_rooted {s : State} {l : Nat} {m : LMsg} (hs : I s) : I (sendOn s l m) :=
  pumpLink_rooted hI (State.modLink_rooted hI hs)

theorem flood_rooted {s : State} {module link but : Nat} (hs : I s) : I (flood s module link but) :=
  foldl_rooted (fun _ _ h1 => sendOn_rooted hI (takeTag_rooted hI h1)) hs

theorem failTo_rooted {s : State} {key : Nat} (hs : I s) : I (failTo s key) :=
  ite_rooted hs (ite_via (fun h1 => newEpoch_rooted hI h1) (fun h1 => h1) (hI.rest hs))

theorem tablesReady_rooted {s : State} (hs : I s) : I (tablesReady s) :=
  foldl_rooted (fun _ _ h1 => failTo_rooted hI h1) (State.setField_rooted hI (hI.rest hs))

theorem dropFromRoutes_rooted {s : State} {l : Nat} (hs : I s) : I (dropFromRoutes s l) :=
  failTo_rooted hI (flood_rooted hI hs)

theorem lowerLink_rooted {s : State} {l st sev : Nat} (hs : I s) : I (lowerLink s l st sev) :=
  ite_via (fun h1 => ite_via (fun h2 => dropFromRoutes_rooted hI h2) (fun h2 => h2) (lupLog_rooted hI h1)) (fun h1 => h1) (State.modLink_rooted hI
      (State.setField_rooted hI (State.setField_rooted hI (State.setField_rooted hI hs))))

theorem quarantine_rooted {s : State} {l : Nat} (hs : I s) : I (quarantine s l) :=
  ite_rooted hs (dropFromRoutes_rooted hI (rasLog_rooted hI (State.setField_rooted hI hs)))

theorem retrainLink_rooted {s : State} {l : Nat} (hs : I s) : I (retrainLink s l) :=
  ite_rooted hs (State.modLink_rooted hI (State.setField_rooted hI (lowerLink_rooted hI hs)))

theorem disableLink_rooted {s : State} {l v : Nat} (hs : I s) : I (disableLink s l v) :=
  ite_via (fun h1 => h1) (fun h1 => ite_via (fun h2 => lowerLink_rooted hI h2) (fun h2 => ite_via (fun h3 => State.setField_rooted hI h3) (fun h3
      => h3) h2) h1) (State.setField_rooted hI hs)

theorem execLinkTraining_rooted {s : State} {link : Fin 8} {peer : Fin 64} {fa : Bool} {lanes : Fin 16} {slow : Bool} (hs : I s) : Leads I
    (execLinkTraining link peer fa lanes slow s) :=
  Leads.next (ite_rooted hs (ite_rooted (State.setField_rooted hI hs) (ite_rooted (lupLog_rooted hI (State.setField_rooted hI hs))
      (State.modLink_rooted hI (State.setField_rooted hI (State.setReg_rooted hI hs))))))

theorem execLupinLinkUp_rooted {s : State} {link : Fin 8} {present : List (Fin 64)} {tables : List (Fin 64 × List (Fin 64 × Fin 9 × Fin 16))} (hs :
    I s) : Leads I (execLupinLinkUp link present tables s) :=
  Leads.next (ite_rooted hs (ite_rooted (pumpLink_rooted hI (lupLog_rooted hI (State.setField_rooted hI hs))) (foldl_rooted (fun _ _ h1 =>
      sendMsg_rooted hI (takeTag_rooted hI h1)) (setMembers_rooted hI (newEpoch_rooted hI (foldl_rooted (fun _ _ h2 => lupLog_rooted hI h2)
      (pumpLink_rooted hI (lupLog_rooted hI (State.setField_rooted hI hs)))))))))

theorem execLupinLaneLost_rooted {s : State} {link : Fin 8} {lane : Fin 4} (hs : I s) : Leads I (execLupinLaneLost link lane s) :=
  Leads.next (ite_rooted hs (ite_rooted (lupLog_rooted hI (State.setField_rooted hI hs)) (lowerLink_rooted hI hs)))

theorem execLupinLinkDown_rooted {s : State} {link : Fin 8} {absent : Bool} (hs : I s) : Leads I (execLupinLinkDown link absent s) :=
  Leads.next (ite_rooted (lowerLink_rooted hI hs) hs)

theorem takeNotice_rooted {s : State} {l module link : Nat} (hs : I s) : I (takeNotice s l module link) :=
  ite_rooted hs (failTo_rooted hI (flood_rooted hI hs))

theorem execLinkdownNotice_rooted {s : State} {link : Fin 8} {module : Fin 64} {failed : Fin 9} (hs : I s) : Leads I (execLinkdownNotice link
    module failed s) :=
  Leads.next (ite_rooted (takeNotice_rooted hI hs) hs)

theorem storeFailover_rooted {s : State} {key : Nat} {t : List (Nat × Nat × Nat)} (hs : I s) : I (storeFailover s key t) :=
  hI.rest hs

theorem execFailoverTables_rooted {s : State} {tables : List (Fin 1024 × Fin 64 × List (Fin 64 × Fin 9 × Fin 16))} (hs : I s) : Leads I
    (execFailoverTables tables s) :=
  Leads.next (ite_rooted hs (tablesReady_rooted hI (foldl_rooted (fun _ _ h1 => sendMsg_rooted hI (takeTag_rooted hI h1)) (foldl_rooted (fun _ _ h2
      => ite_rooted (storeFailover_rooted hI h2) (sendMsg_rooted hI (takeTag_rooted hI h2))) hs))))

/-! ### Pmc -/

theorem writeCounter_rooted {s : State} {p v : Nat} (hs : I s) : I (writeCounter s p v) :=
  ite_via (fun h1 => State.modCore_rooted hI h1) (fun h1 => h1) (State.setCount_rooted hI hs)

theorem writeCounterHalf_rooted {s : State} {off v : Nat} (hs : I s) : I (writeCounterHalf s off v) := by
  unfold writeCounterHalf
  split
  · exact hs
  · exact ite_rooted hs (ite_rooted (hI.rest hs) (writeCounter_rooted hI (hI.rest hs)))

theorem readLo_rooted {s : State} {iface p : Nat} (hs : I s) : I (readLo s iface p) :=
  hI.rest hs

theorem execPmcCounterHiWrite_rooted {s : State} {off : Nat} {value : Word} (hs : I s) : Leads I (execPmcCounterHiWrite off value s) :=
  Leads.next (ite_rooted (writeCounterHalf_rooted hI hs) hs)

theorem execPmcCounterLoWrite_rooted {s : State} {off : Nat} {value : Word} (hs : I s) : Leads I (execPmcCounterLoWrite off value s) :=
  Leads.next (ite_rooted (writeCounterHalf_rooted hI hs) hs)

theorem execPmcCounterLoRead_rooted {s : State} {iface : Iface} {off : Nat} {occs : List PmcOcc} (hs : I s) : Leads I (execPmcCounterLoRead iface
    off occs s) := by
  unfold execPmcCounterLoRead
  refine Leads.next ?_
  split
  · exact State.emit_rooted hI (takeOccs_rooted hI hs)
  · exact State.emit_rooted hI (readLo_rooted hI (takeOccs_rooted hI hs))

theorem execFreeze_rooted {s : State} {on : Bool} {occs : List PmcOcc} (hs : I s) : Leads I (execFreeze on occs s) :=
  Leads.next (State.setField_rooted hI (takeOccs_rooted hI hs))

theorem writeRingcfg_rooted {s : State} {iface v : Nat} (hs : I s) : I (writeRingcfg s iface v) :=
  ite_rooted (accessViolation_rooted hI hs) (hI.rest (State.setField_rooted hI (State.setField_rooted hI (State.setField_rooted hI hs))))

theorem execPmcRingcfgWrite_rooted {s : State} {iface : Iface} {value : Word} (hs : I s) : Leads I (execPmcRingcfgWrite iface value s) :=
  Leads.next (writeRingcfg_rooted hI hs)

theorem putRec_rooted {s : State} {len : Nat} {bytes : Nat → List Nat} (hs : I s) : I (putRec s len bytes) :=
  State.setField_rooted hI (hI.rest (homeWrite_rooted hI (ite_rooted hs (hI.rest (homeWrite_rooted hI hs)))))

theorem noLost_rooted {s : State} (hs : I s) : I (noLost s) :=
  hI.rest hs

theorem writeRec_rooted {s : State} {len : Nat} {bytes : Nat → List Nat} (hs : I s) : I (writeRec s len bytes) :=
  ite_rooted (hI.rest (State.setField_rooted hI hs)) (putRec_rooted hI (ite_rooted hs (noLost_rooted hI (putRec_rooted hI hs))))

theorem execDumpInterval_rooted {s : State} {occs : List PmcOcc} {late : List (Fin 4 × Nat)} (hs : I s) : Leads I (execDumpInterval occs late s) :=
  Leads.next (ite_rooted (takeOccs_rooted hI hs) (ite_via (fun h2 => sendMsix_rooted hI h2) (fun h2 => h2) (foldl_rooted (fun _ _ h1 =>
      writeRec_rooted hI h1) (State.setField_rooted hI (takeOccs_rooted hI hs)))))

theorem execCounterWrap_rooted {s : State} {core : CoreId} {m : Fin 8} {group : Fin 16} {pc : Option Word} {skid : Fin 9} {spaced : Bool} (hs : I
    s) : Leads I (execCounterWrap core m group pc skid spaced s) :=
  Leads.next (ite_rooted hs (ite_rooted (State.setField_rooted hI (ite_rooted (hI.rest hs) (State.setCount_rooted hI hs))) (ite_via (fun h1 =>
      sendMsix_rooted hI h1) (fun h1 => h1) (writeRec_rooted hI (ite_rooted (hI.rest hs) (State.setCount_rooted hI hs))))))

theorem portWindow_rooted {s : State} {w q d : Nat} (hs : I s) : I (portWindow w q d s) :=
  hI.rest (State.setField_rooted hI hs)

theorem execBandwidthWindowEnd_rooted {s : State} {occs : List PmcOcc} (hs : I s) : Leads I (execBandwidthWindowEnd occs s) :=
  Leads.next (ite_via (fun h1 => h1) (fun h1 => hI.rest (foldl_rooted (fun _ _ h2 => portWindow_rooted hI (portWindow_rooted hI h2)) h1))
      (takeOccs_rooted hI hs))

/-! ### Regs -/

theorem latchTick_rooted {s : State} {iface : Nat} (hs : I s) : I (latchTick s iface) :=
  hI.rest hs

theorem latchProfile_rooted {s : State} {iface : Nat} (hs : I s) : I (latchProfile s iface) :=
  hI.rest hs

theorem latchRates_rooted {s : State} {iface : Nat} {v : Option (Nat × Nat × Nat)} (hs : I s) : I (latchRates s iface v) :=
  hI.rest hs

theorem bar0Read_rooted {s : State} {iface off : Nat} (hs : I s) : I (bar0Read s iface off).2 := by
  unfold bar0Read
  dsimp only
  split
  · exact latchRates_rooted hI hs
  · exact latchRates_rooted hI hs
  · split
    · exact latchTick_rooted hI hs
    · split
      · exact latchProfile_rooted hI hs
      · split
        · exact ite_rooted (readLo_rooted hI hs) hs
        · exact hs

theorem execAdmTickLoRead_rooted {s : State} {iface : Iface} (hs : I s) : Leads I (execAdmTickLoRead iface s) := by
  unfold execAdmTickLoRead
  dsimp only
  exact Leads.next (State.emit_rooted hI (bar0Read_rooted hI hs))

theorem execPwrPtickLoRead_rooted {s : State} {iface : Iface} (hs : I s) : Leads I (execPwrPtickLoRead iface s) := by
  unfold execPwrPtickLoRead
  dsimp only
  exact Leads.next (State.emit_rooted hI (bar0Read_rooted hI hs))

theorem plainWrite_rooted {s : State} {iface off v : Nat} (hs : I s) : I (plainWrite s iface off v) := by
  unfold plainWrite
  split
  · exact hs
  · exact ite_via (fun h1 => accessViolation_rooted hI h1) (fun h1 => h1) (State.setReg_rooted hI hs)

theorem checkedWrite_rooted {s : State} {iface off v : Nat} {ok : Bool} {after : State → State} (ha : ∀ s, I s → I (after s)) (hs : I s) : I
    (checkedWrite s iface off v ok after) :=
  ite_rooted (ha _ (plainWrite_rooted hI hs)) (accessViolation_rooted hI hs)

theorem flushRange_rooted {s : State} {a n : Nat} (hs : I s) : I (flushRange s a n) :=
  hI.rest (foldl_rooted (fun _ _ h1 => leaveLine_rooted hI h1) (foldl_rooted (fun _ _ h2 => applyEntry_rooted hI h2) hs))

theorem freeRange_rooted {s : State} {a n : Nat} (hs : I s) : I (freeRange s a n) :=
  hI.write (fun hm => writeBytes_wf hm _ _) hs

theorem writeRescfg_rooted {s : State} {iface v : Nat} (hs : I s) : I (writeRescfg s iface v) :=
  ite_rooted (hI.rest (State.setField_rooted hI hs)) (accessViolation_rooted hI hs)

theorem execLlcRescfgWrite_rooted {s : State} {iface : Iface} {value : Word} (hs : I s) : Leads I (execLlcRescfgWrite iface value s) :=
  Leads.next (writeRescfg_rooted hI hs)

theorem resizeHalf_rooted {s : State} {h new : Nat} (hs : I s) : I (resizeHalf s h new) := by
  unfold resizeHalf
  refine trimHalf_rooted hI ?_
  refine foldl_rooted (fun _ _ h1 => ?_) (hI.rest (ite_via (fun h3 => h3) (fun h3 => zeroFill_rooted hI h3) (State.setField_rooted hI hs)))
  refine foldl_rooted (fun u w h2 => ?_) h1
  cases hm : mapWay u _ w with
  | none => exact h2
  | some v => exact mapWay_rooted hI h2 hm

theorem judgeContexts_rooted {s : State} (hs : I s) : I (judgeContexts s) :=
  hI.rest hs

theorem execRescfgApplied_rooted {s : State} (hs : I s) : Leads I (execRescfgApplied s) := by
  unfold execRescfgApplied
  refine Leads.next ?_
  split
  · exact hs
  · exact refreshHstat_rooted hI (stopUnbacked_rooted hI (judgeContexts_rooted hI (hI.rest (State.setField_rooted hI (foldl_rooted (fun _ _ h1 =>
        resizeHalf_rooted hI h1) hs)))))

theorem writePlace_rooted {s : State} {iface off v : Nat} (hs : I s) : I (writePlace s iface off v) :=
  ite_rooted (accessViolation_rooted hI hs) (freeRange_rooted hI (freeRange_rooted hI (State.setReg_rooted hI (State.setReg_rooted hI
      (flushRange_rooted hI (flushRange_rooted hI hs))))))

theorem execLlcPlaceWrite_rooted {s : State} {iface : Iface} {e : Fin 16} {attr : Bool} {value : Word} (hs : I s) : Leads I (execLlcPlaceWrite
    iface e attr value s) :=
  Leads.next (writePlace_rooted hI hs)

theorem writeRegionRng_rooted {s : State} {iface e v : Nat} (hs : I s) : I (writeRegionRng s iface e v) :=
  ite_rooted (accessViolation_rooted hI hs) (hI.rest hs)

theorem writeRegionAttr_rooted {s : State} {iface e v : Nat} (hs : I s) : I (writeRegionAttr s iface e v) :=
  ite_rooted (accessViolation_rooted hI hs) (State.setField_rooted hI (hI.rest hs))

theorem execEccRgnRngWrite_rooted {s : State} {iface : Iface} {e : Fin 64} {value : Word} (hs : I s) : Leads I (execEccRgnRngWrite iface e value s)
    :=
  Leads.next (writeRegionRng_rooted hI hs)

theorem execEccRgnAttrWrite_rooted {s : State} {iface : Iface} {e : Fin 64} {value : Word} (hs : I s) : Leads I (execEccRgnAttrWrite iface e value
    s) :=
  Leads.next (writeRegionAttr_rooted hI hs)

theorem execRegionApplied_rooted {s : State} {bad : List Nat} (hs : I s) : Leads I (execRegionApplied bad s) := by
  unfold execRegionApplied
  refine Leads.next ?_
  split
  · exact hs
  · exact rasLog_rooted hI (foldl_rooted (fun _ _ h1 => ite_rooted h1 (ite_rooted (countUe_rooted hI (poisonSram_rooted hI h1)) (countUe_rooted hI
        (poisonHbm_rooted hI h1)))) (hI.rest (State.setReg_rooted hI (State.setReg_rooted hI hs))))

theorem writeCclr_rooted {s : State} {v : Nat} (hs : I s) : I (writeCclr s v) :=
  foldl_rooted (fun _ _ h1 => ite_rooted (State.setReg_rooted hI (State.setReg_rooted hI h1)) h1) hs

theorem execEccCclrWrite_rooted {s : State} {value : Word} (hs : I s) : Leads I (execEccCclrWrite value s) :=
  Leads.next (writeCclr_rooted hI hs)

theorem writeClmask_rooted {s : State} {iface c : Nat} {hi : Bool} {v : Nat} (hs : I s) : I (writeClmask s iface c hi v) :=
  checkedWrite_rooted hI (fun _ h1 => refreshAdmission_rooted hI h1) hs

theorem execAdmClmaskWrite_rooted {s : State} {iface : Iface} {cls : ClassId} {hi : Bool} {value : Word} (hs : I s) : Leads I (execAdmClmaskWrite
    iface cls hi value s) :=
  Leads.next (writeClmask_rooted hI hs)

theorem writeCcfg_rooted {s : State} {iface c v : Nat} (hs : I s) : I (writeCcfg s iface c v) :=
  checkedWrite_rooted hI (fun _ h1 => refreshAdmission_rooted hI h1) hs

theorem execAdmCcfgWrite_rooted {s : State} {iface : Iface} {cls : ClassId} {value : Word} (hs : I s) : Leads I (execAdmCcfgWrite iface cls value
    s) :=
  Leads.next (writeCcfg_rooted hI hs)

theorem showCover_rooted {s : State} {hi : Bool} (hs : I s) : I (showCover s hi) :=
  foldl_rooted (fun _ _ h1 => State.setField_rooted hI h1) hs

theorem writeCover_rooted {s : State} {iface : Nat} {hi : Bool} {v : Nat} (hs : I s) : I (writeCover s iface hi v) := by
  unfold writeCover
  exact checkedWrite_rooted hI (fun _ h1 => refreshAdmission_rooted hI (showCover_rooted hI h1)) hs

theorem execAdmCoverWrite_rooted {s : State} {iface : Iface} {hi : Bool} {value : Word} (hs : I s) : Leads I (execAdmCoverWrite iface hi value s)
    := by
  unfold execAdmCoverWrite
  exact Leads.next (writeCover_rooted hI hs)

theorem writeClassReg_rooted {s : State} {iface off v : Nat} (hs : I s) : I (writeClassReg s iface off v) :=
  ite_rooted hs (checkedWrite_rooted hI (fun _ h1 => h1) hs)

theorem biasEnd_rooted {s : State} {result : Nat} (hs : I s) : I (biasEnd s result) :=
  State.setField_rooted hI (State.setField_rooted hI hs)

theorem biasStart_rooted {s : State} {toHost : Bool} {count : Nat} (hs : I s) : I (biasStart s toHost count) :=
  ite_rooted (biasEnd_rooted hI hs) (ite_rooted (biasEnd_rooted hI hs) (ite_rooted (biasEnd_rooted hI hs) (hI.rest (State.setField_rooted hI
      (ite_rooted (flushRange_rooted hI hs) hs)))))

theorem execBiasToHost_rooted {s : State} {count : Fin 262144} (hs : I s) : Leads I (execBiasToHost count s) :=
  Leads.next (biasStart_rooted hI hs)

theorem execBiasToDevice_rooted {s : State} {count : Fin 262144} (hs : I s) : Leads I (execBiasToDevice count s) :=
  Leads.next (biasStart_rooted hI hs)

theorem execBiasCommandComplete_rooted {s : State} (hs : I s) : Leads I (execBiasCommandComplete s) := by
  unfold execBiasCommandComplete
  refine Leads.next ?_
  split
  · exact hs
  · exact biasEnd_rooted hI (State.setField_rooted hI (hI.rest hs))

theorem writeLctl_rooted {s : State} {iface l v : Nat} (hs : I s) : I (writeLctl s iface l v) :=
  ite_via (fun h1 => retrainLink_rooted hI h1) (fun h1 => h1) (ite_rooted (accessViolation_rooted hI hs) (ite_rooted hs (disableLink_rooted hI hs)))

theorem execRetrain_rooted {s : State} {iface : Iface} {link : Fin 8} (hs : I s) : Leads I (execRetrain iface link s) :=
  Leads.next (writeLctl_rooted hI hs)

theorem execLinkDisable_rooted {s : State} {iface : Iface} {link : Fin 8} {on : Bool} (hs : I s) : Leads I (execLinkDisable iface link on s) :=
  Leads.next (writeLctl_rooted hI hs)

theorem writePayload_rooted {s : State} {iface n off : Nat} {b : List Nat} (hs : I s) : I (writePayload s iface n off b) :=
  ite_rooted (accessViolation_rooted hI hs) (setPayload_rooted hI hs)

theorem writeDstat_rooted {s : State} {v : Nat} (hs : I s) : I (writeDstat s v) :=
  foldl_rooted (fun _ _ h1 => ite_rooted (clearDump_rooted hI h1) h1) hs

theorem execMbxDstatClear_rooted {s : State} {value : Word} (hs : I s) : Leads I (execMbxDstatClear value s) :=
  Leads.next (writeDstat_rooted hI hs)

theorem sendPending_rooted {s : State} {v : Nat} (hs : I s) : I (sendPending s v) :=
  ite_rooted (hI.rest hs) hs

theorem writeMsix_rooted {s : State} {o v : Nat} (hs : I s) : I (writeMsix s o v) :=
  ite_rooted (hI.rest hs) (ite_rooted (hI.rest hs) (ite_rooted (hI.rest hs) (ite_rooted (hI.rest hs) (sendPending_rooted hI (hI.rest hs)))))

theorem execMsixUnmask_rooted {s : State} {vector : Fin 2048} (hs : I s) : Leads I (execMsixUnmask vector s) :=
  Leads.next (sendPending_rooted hI (hI.rest hs))

theorem afterWrite_rooted {s : State} {off : Nat} (hs : I s) : I (afterWrite s off) :=
  ite_rooted (refreshProfile_rooted hI hs) (ite_rooted (curtailCheck_rooted hI (refreshCeiling_rooted hI hs)) (ite_rooted (refreshWindow_rooted hI
      hs) (ite_rooted (State.setField_rooted hI hs) hs)))

/-! ### LupServe -/

theorem homeRead_rooted {s : State} {lo n : Nat} {e : EccRes} (hs : I s) : I (homeRead s lo n e).1 :=
  ite_via (fun h1 => readWord_rooted hI h1) (fun h1 => hbmRead_rooted hI h1) (drainLine_rooted hI hs)

theorem storeRead_rooted {s : State} {c lo n : Nat} {e : EccRes} (hs : I s) : I (storeRead s c lo n e).1 := by
  unfold storeRead
  dsimp only
  split
  · exact hI.rest (foldl_rooted (fun _ _ h1 => storeFlaw_rooted hI h1) hs)
  · exact foldl_rooted (fun _ _ h2 => storeFlaw_rooted hI h2) hs

theorem reply_rooted {s : State} {m : LMsg} {typ status : Nat} {pay : LPay} (hs : I s) : I (reply s m typ status pay) :=
  sendMsg_rooted hI hs

theorem serveRd_rooted {s : State} {m : LMsg} {e : EccRes} (hs : I s) : I (serveRd s m e) := by
  unfold serveRd
  refine ite_rooted (reply_rooted hI hs) ?_
  refine reply_rooted hI ?_
  split
  · exact storeRead_rooted hI hs
  · exact homeRead_rooted hI hs

theorem serveWr_rooted {s : State} {m : LMsg} {bs : List Nat} (hs : I s) : I (serveWr s m bs) := by
  unfold serveWr
  dsimp only
  split
  · exact hs
  · exact reply_rooted hI (rasLog_rooted hI hs)
  · exact ite_rooted (reply_rooted hI hs) (reply_rooted hI (storeBytes_rooted hI hs))
  · exact ite_rooted (reply_rooted hI hs) (reply_rooted hI (homeWrite_rooted hI hs))

theorem serveAtomMsg_rooted {s : State} {m : LMsg} {op v cmp : Nat} {e : EccRes} (hs : I s) : I (serveAtomMsg s m op v cmp e) :=
  ite_rooted (reply_rooted hI hs) (ite_via (fun h1 => reply_rooted hI h1) (fun h1 => reply_rooted hI (homeUpdate_rooted hI h1)) (homeRead_rooted hI
      hs))

theorem serveLockMsg_rooted {s : State} {m : LMsg} {acq lost : Bool} {c g t : Nat} {e : EccRes} (hs : I s) : I (serveLockMsg s m acq lost c g t e)
    :=
  ite_rooted (reply_rooted hI hs) (ite_via (fun h1 => reply_rooted hI h1) (fun h1 => ite_rooted (ite_rooted (reply_rooted hI h1) (reply_rooted hI
      (passLock_rooted hI h1))) (ite_via (fun h2 => reply_rooted hI (writeLock_rooted hI h2)) (fun h2 => ite_via (fun h3 => hI.rest h3) (fun h3 =>
      reply_rooted hI h3) h2) h1)) (homeRead_rooted hI hs))

theorem servePinMsg_rooted {s : State} {m : LMsg} {unpin : Bool} {len : Nat} (hs : I s) : I (servePinMsg s m unpin len) :=
  ite_rooted (reply_rooted hI hs) (reply_rooted hI (foldl_fst_rooted (fun _ _ h1 => servePin_rooted hI (ite_rooted h1 (installLine_rooted hI h1)))
      hs))

theorem serveRed_rooted {s : State} {m : LMsg} {oper etype : Nat} {bs : List Nat} (hs : I s) : I (serveRed s m oper etype bs) :=
  ite_rooted (reply_rooted hI hs) (hI.rest hs)

theorem serveMsg_rooted {s : State} {m : LMsg} {e : EccRes} (hs : I s) : I (serveMsg s m e) := by
  unfold serveMsg
  split
  · exact serveRd_rooted hI hs
  · exact serveWr_rooted hI hs
  · exact serveAtomMsg_rooted hI hs
  · exact serveLockMsg_rooted hI hs
  · exact servePinMsg_rooted hI hs
  · exact serveRed_rooted hI hs
  · exact hs

theorem ingress_rooted {s : State} {l : Nat} {m : LMsg} {e : EccRes} (hs : I s) : I (ingress s l m e) :=
  ite_rooted (serveMsg_rooted hI hs) (ite_rooted (giveBack_rooted hI (serveMsg_rooted hI hs)) (ite_via (fun h1 => h1) (fun h1 => State.emit_rooted
      hI h1) (hI.rest hs)))

theorem serveHeld_rooted {line : Nat} {own : Bool} {e : EccRes} {ws : List BiasWait} {s : State} (hs : I s) : I (serveHeld line own e ws s) := by
  induction ws generalizing s with
  | nil => exact giveBack_rooted hI hs
  | cons w ws ih =>
    unfold serveHeld
    split
    · exact ih hs
    · split
      · exact ih hs
      · split
        · exact State.emit_rooted hI (hI.rest hs)
        · exact ih (serveMsg_rooted hI (hI.rest hs))

theorem engineAnswer_rooted {s : State} {r : Req} {kind seq : Nat} {line : Option (List Nat)} (hs : I s) : I (engineAnswer s r kind seq line) :=
  ite_rooted (ite_via (fun h1 => xferSend_rooted hI h1) (fun h1 => h1) (modXfer_rooted hI hs)) (modAttn_rooted hI hs)

theorem engineEnds_rooted {s : State} {r : Req} {kind seq cause : Nat} {write : Bool} (hs : I s) : I (engineEnds s r kind seq cause write) := by
  unfold engineEnds
  refine ite_rooted hs ?_
  refine ite_rooted ?_ ?_
  · split
    · exact hs
    · exact engineFault_rooted hI (dropXfer_rooted hI hs)
  · split
    · exact hs
    · exact engineFault_rooted hI (dropAttn_rooted hI hs)

theorem threadEnds_rooted {s : State} {r : Req} {cause : Nat} {write : Bool} (hs : I s) : I (threadEnds s r cause write) :=
  ite_via (fun h1 => h1) (fun h1 => raiseFault_rooted hI (ite_via (fun h2 => countConsumed_rooted hI h2) (fun h2 => h2) h1)) (State.modGrp_rooted
      hI hs)

theorem writeEnds_rooted {s : State} {r : Req} {red : Bool} {cause : Nat} (hs : I s) : I (writeEnds s r red cause) :=
  ite_via (fun h1 => h1) (fun h1 => raiseFault_rooted hI h1) (fenceDone_rooted hI (State.modThread_rooted hI (State.modCore_rooted hI hs)))

theorem answerFault_rooted {s : State} {r : Req} {cause status : Nat} (hs : I s) : I (answerFault s r cause status) := by
  unfold answerFault
  split
  · exact threadEnds_rooted hI hs
  · exact threadEnds_rooted hI hs
  · exact threadEnds_rooted hI hs
  · exact threadEnds_rooted hI hs
  · exact ite_rooted (State.modCore_rooted hI hs) (writeEnds_rooted hI hs)
  · exact ite_rooted (redAnswer_rooted hI hs) (writeEnds_rooted hI (hI.rest hs))
  · exact threadEnds_rooted hI (hI.rest hs)
  · exact engineEnds_rooted hI hs
  · exact engineEnds_rooted hI hs
  · exact ite_rooted (State.emit_rooted hI (countConsumed_rooted hI hs)) (State.emit_rooted hI hs)
  · exact State.emit_rooted hI hs
  · exact hs

theorem answerOk_rooted {s : State} {r : Req} {nofill : Bool} {m : LMsg} (hs : I s) : I (answerOk s r nofill m) := by
  unfold answerOk
  dsimp only
  split
  · exact respond_rooted hI hs
  · exact State.modCore_rooted hI hs
  · exact respond_rooted hI (State.modCore_rooted hI (State.modCore_rooted hI hs))
  · exact ite_rooted (ite_rooted (hI.rest hs) (sendHome_rooted hI hs)) (ite_rooted hs (hI.rest hs))
  · exact ite_rooted (notOwner_rooted hI hs) (settleBarriers_rooted hI (memDone_rooted hI hs))
  · exact redAnswer_rooted hI hs
  · exact pinAnswer_rooted hI hs
  · exact engineAnswer_rooted hI hs
  · exact engineAnswer_rooted hI hs
  · exact State.emit_rooted hI hs
  · exact hs
  · exact hs

theorem takeAnswer_rooted {s : State} {m : LMsg} (hs : I s) : I (takeAnswer s m) := by
  unfold takeAnswer
  split
  · exact drainPort_rooted hI (ite_via (fun h1 => answerOk_rooted hI h1) (fun h1 => answerFault_rooted hI h1) (hI.rest hs))
  · exact hs

theorem takeDescriptor_rooted {s : State} {m : LMsg} (hs : I s) : I (takeDescriptor s m) := by
  unfold takeDescriptor
  split
  · exact hs
  · exact hI.rest (hI.rest hs)

/-! ### Host -/

theorem hostErr_rooted {s : State} (hs : I s) : I (hostErr s) :=
  rasLog_rooted hI hs

theorem hostInReset_rooted {s : State} (hs : I s) : I (hostInReset s) :=
  rasLog_rooted hI hs

theorem hostReserved_rooted {s : State} (hs : I s) : I (hostReserved s) :=
  rasLog_rooted hI hs

theorem abortRead_rooted {s : State} (hs : I s) : I (abortRead s) :=
  hostErr_rooted hI (State.emit_rooted hI hs)

theorem hostAnswer_rooted {p : State × List Nat × Bool} {unit addr : Nat} (hs : I p.1) : I (hostAnswer p unit addr) :=
  State.emit_rooted hI (ite_rooted (countConsumed_rooted hI hs) hs)

theorem bar2Read_rooted {s : State} {off n : Nat} {e : EccRes} (hs : I s) : I (bar2Read s off n e) := by
  unfold bar2Read
  refine ite_rooted (ite_rooted (abortRead_rooted hI hs) (sendRemote_rooted hI hs)) ?_
  split
  · exact abortRead_rooted hI hs
  · exact ite_rooted (State.emit_rooted hI hs) (hostAnswer_rooted hI (storeRead_rooted hI hs))
  · exact ite_rooted (State.emit_rooted hI hs) (ite_rooted (hostInReset_rooted hI (State.emit_rooted hI hs)) (hostAnswer_rooted hI (homeRead_rooted
        hI hs)))

theorem execBar2Read_rooted {s : State} {off : Fin 1073741824} {n : Nat} {ecc : EccRes} (hs : I s) : Leads I (execBar2Read off n ecc s) :=
  Leads.ite Leads.fault (Leads.next (ite_rooted (bar2Read_rooted hI hs) hs))

theorem homePoison_rooted {s : State} {lo n : Nat} (hs : I s) : I (homePoison s lo n) :=
  countUe_rooted hI (homePoisoned_rooted hI hs)

theorem bar2Write_rooted {s : State} {off : Nat} {b : List Nat} {poison : Bool} (hs : I s) : I (bar2Write s off b poison) := by
  unfold bar2Write
  refine ite_rooted ?_ ?_
  · split
    · exact hostErr_rooted hI hs
    · exact hostReserved_rooted hI hs
    · exact ite_rooted (hostErr_rooted hI hs) (foldl_rooted (fun _ _ h1 => sendRemote_rooted hI h1) hs)
  · split
    · exact hostErr_rooted hI hs
    · exact hostReserved_rooted hI hs
    · exact ite_rooted (hostErr_rooted hI hs) (ite_rooted (countUe_rooted hI (poisonBytes_rooted hI hs)) (storeBytes_rooted hI hs))
    · exact ite_rooted (hostErr_rooted hI hs) (ite_rooted (hostInReset_rooted hI hs) (ite_rooted (homePoison_rooted hI hs) (homeWrite_rooted hI
          hs)))

theorem execBar2Write_rooted {s : State} {off : Fin 1073741824} {data : List Byte} {poison : Bool} (hs : I s) : Leads I (execBar2Write off data
    poison s) :=
  Leads.ite Leads.fault (Leads.next (ite_rooted (bar2Write_rooted hI hs) hs))

theorem cxlRead_rooted {s : State} {addr n : Nat} {e : EccRes} (hs : I s) : I (cxlRead s addr n e) := by
  unfold cxlRead
  refine ite_rooted (State.emit_rooted hI hs) ?_
  split
  · exact hostErr_rooted hI (State.emit_rooted hI hs)
  · exact ite_rooted (State.emit_rooted hI hs) (ite_rooted (hostInReset_rooted hI (State.emit_rooted hI hs)) (hostAnswer_rooted hI (homeRead_rooted
        hI hs)))

theorem execCxlMemRead_rooted {s : State} {addr n : Nat} {ecc : EccRes} (hs : I s) : Leads I (execCxlMemRead addr n ecc s) :=
  Leads.ite Leads.fault (Leads.next (ite_rooted (cxlRead_rooted hI hs) hs))

theorem cxlWrite_rooted {s : State} {addr : Nat} {b : List Nat} {poison : Bool} (hs : I s) : I (cxlWrite s addr b poison) := by
  unfold cxlWrite
  refine ite_rooted hs ?_
  split
  · exact hostErr_rooted hI hs
  · exact ite_rooted (hostErr_rooted hI hs) (ite_rooted (hostInReset_rooted hI hs) (ite_rooted (homePoison_rooted hI hs) (homeWrite_rooted hI hs)))

theorem execCxlMemWrite_rooted {s : State} {addr : Nat} {data : List Byte} {poison : Bool} (hs : I s) : Leads I (execCxlMemWrite addr data poison
    s) :=
  Leads.ite Leads.fault (Leads.next (ite_rooted (cxlWrite_rooted hI hs) hs))

theorem execHdmDecoderCommit_rooted {s : State} {decoder_ : Fin 2} {base size : Nat} {lock : Bool} (hs : I s) : Leads I (execHdmDecoderCommit
    decoder_ base size lock s) :=
  Leads.next (ite_rooted hs (hI.rest hs))

theorem execHostRequestError_rooted {s : State} {kind : HostErr} (hs : I s) : Leads I (execHostRequestError kind s) := by
  unfold execHostRequestError
  refine Leads.next ?_
  refine ite_rooted hs ?_
  split
  · exact hostErr_rooted hI (ite_rooted hs (State.emit_rooted hI hs))
  · exact hostErr_rooted hI (ite_rooted hs (State.emit_rooted hI hs))
  · exact hostErr_rooted hI hs
  · exact hostErr_rooted hI hs
  · exact hostErr_rooted hI hs

theorem execConfigRequest_rooted {s : State} {req : CfgReq} {retry : Bool} (hs : I s) : Leads I (execConfigRequest req retry s) := by
  unfold execConfigRequest
  refine Leads.next ?_
  refine ite_rooted hs ?_
  refine ite_rooted (State.emit_rooted hI hs) ?_
  refine State.emit_rooted hI ?_
  split
  · exact hs
  · exact foldl_rooted (fun _ _ h1 => sendPending_rooted hI h1) (hI.rest hs)
  · exact ite_rooted (hI.rest hs) hs

theorem execViral_rooted {s : State} (hs : I s) : Leads I (execViral s) :=
  Leads.next (ite_rooted hs (sendMsix_rooted hI (State.setField_rooted hI hs)))

theorem execHostSnoop_rooted {s : State} {line : Nat} (hs : I s) : Leads I (execHostSnoop line s) := by
  unfold execHostSnoop
  refine Leads.next ?_
  refine ite_rooted hs ?_
  dsimp only
  split
  · exact State.emit_rooted hI (drainLine_rooted hI (hI.rest hs))
  · exact State.emit_rooted hI (State.emit_rooted hI (drainLine_rooted hI (hI.rest hs)))

theorem execCxlCacheResponse_rooted {s : State} {line : Nat} {data : List Byte} {ecc : EccRes} (hs : I s) : Leads I (execCxlCacheResponse line data
    ecc s) := by
  unfold execCxlCacheResponse
  refine Leads.ite Leads.fault ?_
  refine Leads.next ?_
  split
  · exact hostErr_rooted hI hs
  · exact serveHeld_rooted hI (hI.rest (ite_rooted hs (homeWrite_rooted hI hs)))

/-! ### LupRx -/

theorem answerFrame_rooted {s : State} {l : Nat} {nak : Bool} (hs : I s) : I (answerFrame s l nak) :=
  State.emit_rooted hI (State.modLink_rooted hI hs)

theorem execFrameReceived_rooted {s : State} {link : Fin 8} {fseq ack : Fin 4096} {hold good : Bool} {flits : List (Fin 4 × Fin 21)} {crClass : Fin
    4} {crCount : Fin 1024} (hs : I s) : Leads I (execFrameReceived link fseq ack hold good flits crClass crCount s) :=
  Leads.next (ite_rooted hs (ite_rooted (ite_rooted hs (answerFrame_rooted hI (State.modLink_rooted hI hs))) (ite_rooted hs (pumpLink_rooted hI
      (answerFrame_rooted hI (State.setField_rooted hI (State.modLink_rooted hI hs)))))))

theorem countRetry_rooted {s : State} {l : Nat} (hs : I s) : I (countRetry s l) :=
  ite_via (fun h1 => lupLog_rooted hI h1) (fun h1 => h1) (State.modLink_rooted hI (State.setField_rooted hI hs))

theorem execNak_rooted {s : State} {link : Fin 8} {ack : Fin 4096} (hs : I s) : Leads I (execNak link ack s) :=
  Leads.next (ite_rooted hs (ite_via (fun h1 => lowerLink_rooted hI h1) (fun h1 => foldl_rooted (fun _ _ h2 => State.emit_rooted hI
      (countRetry_rooted hI h2)) h1) (State.modLink_rooted hI hs)))

theorem nack_rooted {s : State} {m : LMsg} {reason : Nat} (hs : I s) : I (nack s m reason) :=
  ite_rooted hs (sendMsg_rooted hI hs)

theorem dropMalformed_rooted {s : State} {l : Nat} {m : LMsg} {reason : Nat} (hs : I s) : I (dropMalformed s l m reason) :=
  ite_via (fun h2 => quarantine_rooted hI h2) (fun h2 => h2) (nack_rooted hI (State.modLink_rooted hI (ite_via (fun h1 => h1) (fun h1 =>
      rasLog_rooted hI h1) (State.setField_rooted hI hs))))

theorem recordTag_rooted {s : State} {m : LMsg} (hs : I s) : I (recordTag s m) :=
  hI.rest hs

theorem arriveMsg_rooted {link : Fin 8} {m : LMsg} {typ : Nat} {flaw : Fin 8} {s : State} {f : State → Nat → State} (hf : ∀ s l, I s → I (f s l))
    (hs : I s) : Leads I (arriveMsg link m typ flaw s f) := by
  unfold arriveMsg
  refine Leads.ite Leads.fault ?_
  refine Leads.next ?_
  refine ite_rooted hs ?_
  split
  · exact dropMalformed_rooted hI hs
  · exact ite_rooted (sendOn_rooted hI hs) (ite_rooted (hf _ _ hs) (ite_rooted hs (hf _ _ (recordTag_rooted hI hs))))

theorem execRd_rooted {s : State} {link : Fin 8} {msg : LMsg} {flaw : Fin 8} {ecc : EccRes} (hs : I s) : Leads I (execRd link msg flaw ecc s) :=
  arriveMsg_rooted hI (fun _ _ h1 => ingress_rooted hI h1) hs

theorem execWr_rooted {s : State} {link : Fin 8} {msg : LMsg} {flaw : Fin 8} (hs : I s) : Leads I (execWr link msg flaw s) :=
  arriveMsg_rooted hI (fun _ _ h1 => ingress_rooted hI h1) hs

theorem execAtom_rooted {s : State} {link : Fin 8} {msg : LMsg} {flaw : Fin 8} {ecc : EccRes} (hs : I s) : Leads I (execAtom link msg flaw ecc s) :=
  arriveMsg_rooted hI (fun _ _ h1 => ingress_rooted hI h1) hs

theorem execLupinLock_rooted {s : State} {link : Fin 8} {msg : LMsg} {flaw : Fin 8} {ecc : EccRes} (hs : I s) : Leads I (execLupinLock link msg
    flaw ecc s) :=
  arriveMsg_rooted hI (fun _ _ h1 => ingress_rooted hI h1) hs

theorem execLupinPin_rooted {s : State} {link : Fin 8} {msg : LMsg} {flaw : Fin 8} (hs : I s) : Leads I (execLupinPin link msg flaw s) :=
  arriveMsg_rooted hI (fun _ _ h1 => ingress_rooted hI h1) hs

theorem execRed_rooted {s : State} {link : Fin 8} {msg : LMsg} {flaw : Fin 8} (hs : I s) : Leads I (execRed link msg flaw s) :=
  arriveMsg_rooted hI (fun _ _ h1 => ingress_rooted hI h1) hs

theorem execRdresp_rooted {s : State} {link : Fin 8} {msg : LMsg} {flaw : Fin 8} (hs : I s) : Leads I (execRdresp link msg flaw s) :=
  arriveMsg_rooted hI (fun _ _ h1 => ite_rooted (takeDescriptor_rooted hI h1) (takeAnswer_rooted hI h1)) hs

theorem execAck_rooted {s : State} {link : Fin 8} {msg : LMsg} {flaw : Fin 8} (hs : I s) : Leads I (execAck link msg flaw s) :=
  arriveMsg_rooted hI (fun _ _ h1 => takeAnswer_rooted hI h1) hs

theorem execAtomresp_rooted {s : State} {link : Fin 8} {msg : LMsg} {flaw : Fin 8} (hs : I s) : Leads I (execAtomresp link msg flaw s) :=
  arriveMsg_rooted hI (fun _ _ h1 => takeAnswer_rooted hI h1) hs

theorem execNack_rooted {s : State} {link : Fin 8} {msg : LMsg} {flaw : Fin 8} (hs : I s) : Leads I (execNack link msg flaw s) :=
  arriveMsg_rooted hI (fun _ _ h1 => ite_rooted (takeDescriptor_rooted hI h1) (takeAnswer_rooted hI h1)) hs

theorem execRemoteTimeout_rooted {s : State} {module : Fin 64} {tag : Fin 65536} (hs : I s) : Leads I (execRemoteTimeout module tag s) := by
  unfold execRemoteTimeout
  refine Leads.next ?_
  split
  · exact hs
  · refine ite_rooted hs ?_
    split
    · exact abortRead_rooted hI (drainPort_rooted hI (hI.rest hs))
    · exact hostErr_rooted hI (drainPort_rooted hI (hI.rest hs))
    · exact stopCore_rooted hI (drainPort_rooted hI (hI.rest hs))

theorem execHostrd_rooted {s : State} {link : Fin 8} {msg : LMsg} {flaw : Fin 8} {data : List Byte} (hs : I s) : Leads I (execHostrd link msg flaw
    data s) :=
  arriveMsg_rooted hI (fun _ _ h1 => ite_via (fun h2 => reply_rooted hI h2) (fun h2 => reply_rooted hI h2) (State.emit_rooted hI h1)) hs

theorem execHostwr_rooted {s : State} {link : Fin 8} {msg : LMsg} {flaw : Fin 8} (hs : I s) : Leads I (execHostwr link msg flaw s) := by
  unfold execHostwr
  refine arriveMsg_rooted hI (fun _ _ h1 => ?_) hs
  split
  · exact State.emit_rooted hI h1
  · exact h1

theorem execLupinMsix_rooted {s : State} {link : Fin 8} {msg : LMsg} {flaw : Fin 8} (hs : I s) : Leads I (execLupinMsix link msg flaw s) := by
  unfold execLupinMsix
  refine arriveMsg_rooted hI (fun _ _ h1 => ?_) hs
  split
  · exact sendMsix_rooted hI h1
  · exact h1

/-! ### Side -/

theorem execLinkSidebandRequest_rooted {s : State} {link : Fin 8} (hs : I s) : Leads I (execLinkSidebandRequest link s) :=
  Leads.next (ite_rooted (State.emit_rooted hI hs) hs)

end

end Sys2Proof.Machine
end

section
/-! SUPPORT. The functions that change the clock, the mode, the identity or the programs keep every placed predicate. -/
namespace Sys2Proof.Machine

section
variable {I : State → Prop} (hI : Placed I)
include hI

/-! ### Queue -/

theorem takeDoorbell_rooted {s : State} {word : Nat} (hs : I s) : I (takeDoorbell s word) := by
  unfold takeDoorbell
  refine ite_rooted (badDoorbell_rooted hI.rooted (useQueue_rooted hI.rooted hs)) ?_
  split
  · exact ite_via (fun h1 => hI.rest h1) (fun h1 => foldl_rooted (fun _ _ h2 => askDescriptor_rooted hI.rooted (hI.rest h2)) (State.setQf_rooted
        hI.rooted (State.setQf_rooted hI.rooted h1))) (useQueue_rooted hI.rooted hs)
  · exact rejectDoorbell_rooted hI.rooted (useQueue_rooted hI.rooted hs)

theorem ringSq_rooted {s : State} {w : Nat} (hs : I s) : I (ringSq s w) :=
  ite_rooted (dropDoorbell_rooted hI.rooted hs) (ite_rooted (hI.rest hs) (takeDoorbell_rooted hI hs))

theorem execDoorbell_rooted {s : State} {word : Word64} (hs : I s) : Leads I (execDoorbell word s) :=
  Leads.next (ringSq_rooted hI hs)

/-! ### Admission -/

theorem pumpBacklog_rooted {n : Nat} {s : State} (hs : I s) : I (pumpBacklog n s) := by
  induction n generalizing s with
  | zero => exact hs
  | succ n ih =>
    unfold pumpBacklog
    split
    · exact hs
    · dsimp only
      split
      · exact ih (hI.rest (takeDoorbell_rooted hI (hI.rest hs)))
      · exact hs

theorem execAdmissionDecision_rooted {s : State} {stall : Bool} (hs : I s) : Leads I (execAdmissionDecision stall s) := by
  unfold execAdmissionDecision
  refine Leads.next ?_
  split
  · exact hs
  · split
    · exact hs
    · refine pumpBacklog_rooted hI ?_
      split
      · exact refuseTask_rooted hI.rooted (State.setQf_rooted hI.rooted (hI.rest hs))
      · exact acceptTask_rooted hI.rooted (State.setQf_rooted hI.rooted (hI.rest hs))

/-! ### Reset -/

theorem startRun_rooted {s : State} {r : RunReset} {kind cause : Nat} (hs : I s) : I (startRun s r kind cause) :=
  refreshAdmission_rooted hI.rooted (foldl_rooted (fun _ _ h1 => refreshTower_rooted hI.rooted h1) (foldl_rooted (fun _ _ h2 => refreshFloor_rooted
      hI.rooted h2) (hI.rest (clearSamples_rooted hI.rooted (clearDomains_rooted hI.rooted (foldl_rooted (fun _ _ h3 => clearCounts_rooted
      hI.rooted (fillTower_rooted hI.rooted h3)) (ite_via (fun h6 => resetRegs_rooted hI.rooted h6) (fun h6 => foldl_rooted (fun _ _ h7 =>
      resetRegs_rooted hI.rooted h7) h6) (hI.rest (foldl_rooted (fun _ _ h4 => writeBackTower_rooted hI.rooted h4) (foldl_rooted (fun _ _ h5 =>
      endTower_rooted hI.rooted h5) (stopScrubs_rooted hI.rooted hs)))))))))))

theorem computeReset_rooted {s : State} {clean : Bool} {job : Option Nat} {t : State} (hs : I s) (ht : computeReset s clean job = some t) : I t :=
    by
  unfold computeReset at ht
  dsimp only at ht
  split at ht
  · cases ht
  · split at ht
    · cases ht; exact hI.rest hs
    · cases ht; exact startRun_rooted hI hs

/-- A compute reset that conflicts changes nothing. -/
theorem computeReset_getD_rooted {s : State} {clean : Bool} {job : Option Nat} (hs : I s) : I ((computeReset s clean job).getD s) := by
  cases hc : computeReset s clean job with
  | none => exact hs
  | some t => exact computeReset_rooted hI hs hc

theorem towerReset_rooted {s : State} {tw : Nat} {clean : Bool} {job : Option Nat} {t : State} (hs : I s) (ht : towerReset s tw clean job = some t)
    : I t := by
  unfold towerReset at ht
  split at ht
  · cases ht
  · cases ht; exact startRun_rooted hI hs

/-- A tower reset that conflicts changes nothing. -/
theorem towerReset_getD_rooted {s : State} {tw : Nat} {clean : Bool} {job : Option Nat} (hs : I s) : I ((towerReset s tw clean job).getD s) := by
  cases hc : towerReset s tw clean job with
  | none => exact hs
  | some t => exact towerReset_rooted hI hs hc

theorem setReady_rooted {s : State} (hs : I s) : I (setReady s) :=
  hI.rest (State.setField_rooted hI.rooted (State.setField_rooted hI.rooted hs))

theorem execTowerReady_rooted {s : State} {tower : TowerId} {train : Training} {suspect : Bool} (hs : I s) : Leads I (execTowerReady tower train
    suspect s) := by
  unfold execTowerReady
  refine Leads.next ?_
  split
  · exact hs
  · refine ite_rooted hs ?_
    refine ite_rooted (hI.rest (ite_via (fun h1 => foldl_rooted (fun _ _ h2 => reloadGranule_rooted hI.rooted h2) h1) (fun h1 => h1)
        (State.setField_rooted hI.rooted (trainTower_rooted hI.rooted hs)))) ?_
    refine ite_rooted ?_ ?_
    · split
      · exact endJob_rooted hI.rooted (ite_via (fun h7 => setReady_rooted hI h7) (fun h7 => h7) (ite_via (fun h6 => curtailClusters_rooted
            hI.rooted h6) (fun h6 => h6) (publish_rooted hI.rooted (ite_via (fun h5 => hI.rest h5) (fun h5 => h5) (hI.rest (ite_via (fun h3 =>
            foldl_rooted (fun _ _ h4 => reloadGranule_rooted hI.rooted h4) h3) (fun h3 => h3) (State.setField_rooted hI.rooted (trainTower_rooted
            hI.rooted hs))))))))
      · exact ite_via (fun h12 => setReady_rooted hI h12) (fun h12 => h12) (ite_via (fun h11 => curtailClusters_rooted hI.rooted h11) (fun h11 =>
            h11) (publish_rooted hI.rooted (ite_via (fun h10 => hI.rest h10) (fun h10 => h10) (hI.rest (ite_via (fun h8 => foldl_rooted (fun _ _ h9
            => reloadGranule_rooted hI.rooted h9) h8) (fun h8 => h8) (State.setField_rooted hI.rooted (trainTower_rooted hI.rooted hs)))))))
    · split
      · split
        · exact endJob_rooted hI.rooted (ite_via (fun h17 => setReady_rooted hI h17) (fun h17 => h17) (ite_via (fun h16 => curtailClusters_rooted
              hI.rooted h16) (fun h16 => h16) (publish_rooted hI.rooted (ite_via (fun h15 => hI.rest h15) (fun h15 => h15) (hI.rest (ite_via (fun
              h13 => foldl_rooted (fun _ _ h14 => reloadGranule_rooted hI.rooted h14) h13) (fun h13 => h13) (State.setField_rooted hI.rooted
              (trainTower_rooted hI.rooted hs))))))))
        · exact ite_via (fun h22 => setReady_rooted hI h22) (fun h22 => h22) (ite_via (fun h21 => curtailClusters_rooted hI.rooted h21) (fun h21 =>
              h21) (publish_rooted hI.rooted (ite_via (fun h20 => hI.rest h20) (fun h20 => h20) (hI.rest (ite_via (fun h18 => foldl_rooted (fun _ _
              h19 => reloadGranule_rooted hI.rooted h19) h18) (fun h18 => h18) (State.setField_rooted hI.rooted (trainTower_rooted hI.rooted
              hs)))))))
      · refine startRun_rooted hI ?_
        refine hI.rest ?_
        split
        · exact endJob_rooted hI.rooted (ite_via (fun h27 => setReady_rooted hI h27) (fun h27 => h27) (ite_via (fun h26 => curtailClusters_rooted
              hI.rooted h26) (fun h26 => h26) (publish_rooted hI.rooted (ite_via (fun h25 => hI.rest h25) (fun h25 => h25) (hI.rest (ite_via (fun
              h23 => foldl_rooted (fun _ _ h24 => reloadGranule_rooted hI.rooted h24) h23) (fun h23 => h23) (State.setField_rooted hI.rooted
              (trainTower_rooted hI.rooted hs))))))))
        · exact ite_via (fun h32 => setReady_rooted hI h32) (fun h32 => h32) (ite_via (fun h31 => curtailClusters_rooted hI.rooted h31) (fun h31 =>
              h31) (publish_rooted hI.rooted (ite_via (fun h30 => hI.rest h30) (fun h30 => h30) (hI.rest (ite_via (fun h28 => foldl_rooted (fun _ _
              h29 => reloadGranule_rooted hI.rooted h29) h28) (fun h28 => h28) (State.setField_rooted hI.rooted (trainTower_rooted hI.rooted
              hs)))))))

theorem afterReset_rooted {s : State} {e : Nat} (hs : I s) : I (afterReset s e) :=
  foldl_rooted (fun _ _ h1 => State.setField_rooted hI.rooted h1) (hI.write (fun _ => rfl) hs)

theorem bringUp_rooted {s : State} {t : HostTrain} (hs : I s) : I (bringUp s t) :=
  trainHost_rooted hI.rooted (refreshAllSpares_rooted hI.rooted (refreshHstat_rooted hI.rooted (foldl_rooted (fun _ _ h1 => refreshTower_rooted
      hI.rooted h1) (State.setField_rooted hI.rooted (State.setField_rooted hI.rooted (foldl_rooted (fun _ _ h2 => assignIds_rooted hI.rooted h2)
      (ite_via (fun h3 => h3) (fun h3 => foldl_rooted (fun _ _ h4 => State.setField_rooted hI.rooted h4) h3) (hI.rest (State.setField_rooted
      hI.rooted (State.setReg_rooted hI.rooted (hI.rest hs)))))))))))

theorem moduleReset_rooted {s : State} {cause : Nat} (hs : I s) : I (moduleReset s cause) :=
  hI.rest (afterReset_rooted hI hs)

theorem resetAndBoot_rooted {s : State} {cause : Nat} {t : HostTrain} (hs : I s) : I (resetAndBoot s cause t) :=
  bringUp_rooted hI (moduleReset_rooted hI hs)

theorem execPerstAssert_rooted {s : State} (hs : I s) : Leads I (execPerstAssert s) :=
  Leads.next (ite_rooted hs (ite_rooted (hI.rest hs) (hI.rest (moduleReset_rooted hI hs))))

theorem execPerstDeassert_rooted {s : State} {modId : Fin 64} {train : HostTrain} (hs : I s) : Leads I (execPerstDeassert modId train s) :=
  Leads.next (ite_rooted hs (ite_rooted (hI.rest hs) (bringUp_rooted hI (hI.rest hs))))

theorem execReady_rooted {s : State} {boot : BringUp} (hs : I s) : Leads I (execReady boot s) :=
  Leads.next (ite_rooted hs (setReady_rooted hI (burnFloors_rooted hI.rooted (publish_rooted hI.rooted (ite_via (fun h2 => refreshCeiling_rooted
      hI.rooted (State.setField_rooted hI.rooted h2)) (fun h2 => h2) (hI.rest (State.setField_rooted hI.rooted (State.setField_rooted hI.rooted
      (commitRepairs_rooted hI.rooted (foldl_rooted (fun _ _ h1 => trainTower_rooted hI.rooted h1) hs))))))))))

theorem execHotReset_rooted {s : State} {linkDisable : Bool} {train : HostTrain} (hs : I s) : Leads I (execHotReset linkDisable train s) :=
  Leads.next (ite_rooted hs (resetAndBoot_rooted hI hs))

theorem execCxlReset_rooted {memClear : Bool} {s : State} (hs : I s) : Leads I (execCxlReset memClear s) :=
  Leads.next (ite_rooted hs (computeReset_getD_rooted hI hs))

theorem darken_rooted {s : State} (hs : I s) : I (darken s) :=
  hI.rest (afterReset_rooted hI hs)

theorem coldStart_rooted {s : State} {cause : Nat} {t : HostTrain} (hs : I s) : I (coldStart s cause t) :=
  ite_via (fun h1 => h1) (fun h1 => bringUp_rooted hI h1) (hI.rest (afterReset_rooted hI hs))

theorem execPowerApplied_rooted {s : State} {train : HostTrain} (hs : I s) : Leads I (execPowerApplied train s) :=
  Leads.next (ite_rooted hs (coldStart_rooted hI hs))

theorem execInputOvervoltage_rooted {s : State} (hs : I s) : Leads I (execInputOvervoltage s) :=
  Leads.next (ite_rooted (darken_rooted hI hs) hs)

theorem execOvervoltageRestart_rooted {s : State} {train : HostTrain} (hs : I s) : Leads I (execOvervoltageRestart train s) :=
  Leads.next (ite_rooted hs (coldStart_rooted hI hs))

theorem execUndervoltageLockout_rooted {s : State} (hs : I s) : Leads I (execUndervoltageLockout s) :=
  Leads.next (ite_rooted (darken_rooted hI hs) hs)

theorem execUndervoltageRestart_rooted {s : State} {train : HostTrain} (hs : I s) : Leads I (execUndervoltageRestart train s) :=
  Leads.next (ite_rooted hs (coldStart_rooted hI hs))

theorem shutdown_rooted {s : State} (hs : I s) : I (shutdown s) :=
  ite_rooted hs (refreshAdmission_rooted hI.rooted (foldl_rooted (fun _ _ h1 => refreshFloor_rooted hI.rooted h1) (State.setReg_rooted hI.rooted
    (idleLinks_rooted hI.rooted (State.setField_rooted hI.rooted (State.setField_rooted hI.rooted (hI.write (fun _ => rfl) hs)))))))

/-! ### Therm -/

theorem execMonitorSample_rooted {s : State} {mons : List (Fin 512 × Fin 512 × Fin 512)} {ioMons : List (Fin 16 × Fin 512 × Fin 512)} {amps : List
    (Fin 64 × Fin 4096)} {input : Fin 4096} {vin : Fin 256} (hs : I s) : Leads I (execMonitorSample mons ioMons amps input vin s) := by
  unfold execMonitorSample
  refine Leads.next ?_
  refine ite_rooted hs ?_
  refine ite_via (fun h4 => shutdown_rooted hI h4) (fun h4 => h4) ?_
  refine refreshWindow_rooted hI.rooted ?_
  refine settleFabric_rooted hI.rooted ?_
  refine foldl_rooted (fun _ _ h1 => ?_) (foldl_rooted (fun _ _ h2 => State.setField_rooted hI.rooted (State.setField_rooted hI.rooted
      (State.setField_rooted hI.rooted h2))) (foldl_rooted (fun _ _ h3 => judgeDie_rooted hI.rooted h3) (State.setField_rooted hI.rooted
      (State.setField_rooted hI.rooted (takeSamples_rooted hI.rooted hs)))))
  split
  · exact h1
  · exact guardCluster_rooted hI.rooted h1

/-! ### Power -/

theorem loseDomain_rooted {s : State} {d code : Nat} (hs : I s) : I (loseDomain s d code) :=
  ite_rooted (retireCluster_rooted hI.rooted hs) (ite_rooted (retireDie_rooted hI.rooted hs) (ite_rooted (retireTower_rooted hI.rooted hs)
      (shutdown_rooted hI hs)))

theorem execIvrPhaseFailed_rooted {s : State} {domain : Fin 78} {phase : Fin 16} (hs : I s) : Leads I (execIvrPhaseFailed domain phase s) :=
  Leads.next (ite_rooted hs (ite_via (fun h1 => ite_via (fun h2 => logDom_rooted hI.rooted h2) (fun h2 => ite_via (fun h3 => logDom_rooted
      hI.rooted (holdCommit_rooted hI.rooted h3)) (fun h3 => logDom_rooted hI.rooted (refreshAdmission_rooted hI.rooted (retireCluster_rooted
      hI.rooted h3))) h2) h1) (fun h1 => ite_via (fun h4 => ite_via (fun h5 => loseDomain_rooted hI h5) (fun h5 => h5) h4) (fun h4 => ite_via (fun
      h6 => shutdown_rooted hI h6) (fun h6 => h6) h4) (logDom_rooted hI.rooted h1)) (pwrEvent_rooted hI.rooted (addRepair_rooted hI.rooted (hI.rest
      hs)))))

theorem applyPath_rooted {s : State} {d j : Nat} (hs : I s) : I (applyPath s d j) :=
  ite_via (fun h1 => logDom_rooted hI.rooted h1) (fun h1 => ite_via (fun h2 => logDom_rooted hI.rooted (ite_via (fun h3 => holdCommit_rooted
      hI.rooted h3) (fun h3 => h3) h2)) (fun h2 => logDom_rooted hI.rooted (refreshAdmission_rooted hI.rooted (loseDomain_rooted hI h2))) h1)
      (pwrEvent_rooted hI.rooted (hI.rest hs))

theorem execPathStateChange_rooted {s : State} {domain : Fin 78} (hs : I s) : Leads I (execPathStateChange domain s) :=
  Leads.next (ite_rooted (applyPath_rooted hI hs) hs)

theorem execDomainOvercurrent_rooted {s : State} {domain : Fin 78} (hs : I s) : Leads I (execDomainOvercurrent domain s) :=
  Leads.next (ite_rooted hs (logDom_rooted hI.rooted (refreshAdmission_rooted hI.rooted (hI.rest (loseDomain_rooted hI hs)))))

theorem execVvmFailed_rooted {s : State} {unit : Fin 16} {plan : List (List Nat)} (hs : I s) : Leads I (execVvmFailed unit plan s) :=
  Leads.next (ite_rooted hs (ite_via (fun h1 => ite_via (fun h2 => shutdown_rooted hI h2) (fun h2 => h2) h1) (fun h1 => ite_via (fun h3 => h3) (fun
      h3 => doubleFault_rooted hI.rooted (hI.rest h3)) h1) (rasLog_rooted hI.rooted (pwrEvent_rooted hI.rooted (State.setField_rooted hI.rooted
      hs)))))

theorem startExit_rooted {s : State} {job : Nat} (hs : I s) : I (startExit s job) :=
  hI.rest (foldl_rooted (fun _ _ h1 => ite_via (fun h2 => zeroFill_rooted hI.rooted h2) (fun h2 => h2) (zeroFill_rooted hI.rooted h1))
      (clearSamples_rooted hI.rooted hs))

/-! ### FwProg -/

theorem cmdRegister_rooted {s : State} {c : Call} (hs : I s) : I (cmdRegister s c) := by
  unfold cmdRegister
  dsimp only
  split
  · exact finish_rooted hI.rooted (consumeImage_rooted hI.rooted hs)
  · exact finishOk_rooted hI.rooted (hI.rest (newNumber_rooted hI.rooted hs))

theorem cmdWithdraw_rooted {s : State} {c : Call} (hs : I s) : I (cmdWithdraw s c) := by
  unfold cmdWithdraw
  refine ite_rooted (ite_rooted hs (finishOk_rooted hI.rooted (hI.rest hs))) ?_
  split
  · exact finish_rooted hI.rooted hs
  · exact ite_via (fun h1 => keepCall_rooted hI.rooted h1) (fun h1 => finishOk_rooted hI.rooted (hI.rest h1)) (hI.rest hs)

/-! ### FwSys -/

theorem cmdComputeReset_rooted {s : State} {c : Call} (hs : I s) : I (cmdComputeReset s c) := by
  unfold cmdComputeReset
  refine argCheck_rooted hI.rooted (fun s h1 => ite_rooted (finish_rooted hI.rooted h1) ?_) hs
  split
  · exact startJob_rooted hI.rooted h1 ‹_›
  · exact computeReset_getD_rooted hI (startJob_rooted hI.rooted h1 ‹_›)

theorem cmdTowerReset_rooted {s : State} {c : Call} (hs : I s) : I (cmdTowerReset s c) := by
  unfold cmdTowerReset
  refine argCheck_rooted hI.rooted (fun s h1 => ite_rooted (finish_rooted hI.rooted h1) ?_) hs
  split
  · exact startJob_rooted hI.rooted h1 ‹_›
  · exact towerReset_getD_rooted hI (startJob_rooted hI.rooted h1 ‹_›)

theorem cmdModuleReset_rooted {s : State} {c : Call} (hs : I s) : I (cmdModuleReset s c) :=
  finishOk_rooted hI.rooted (hI.rest hs)

theorem cmdPowerState_rooted {s : State} {c : Call} (hs : I s) : I (cmdPowerState s c) := by
  unfold cmdPowerState
  refine argCheck_rooted hI.rooted (fun _ h1 => ?_) hs
  refine ite_rooted (finish_rooted hI.rooted h1) ?_
  split
  · exact startJob_rooted hI.rooted h1 ‹_›
  · exact ite_rooted (refreshAdmission_rooted hI.rooted (hI.rest (startJob_rooted hI.rooted h1 ‹_›))) (startExit_rooted hI (startJob_rooted
        hI.rooted h1 ‹_›))

/-! ### Mbx -/

theorem runCmd_rooted {s : State} {c : Call} (hs : I s) : I (runCmd s c) := by
  unfold runCmd
  split
  · exact cmdIdentify_rooted hI.rooted hs
  · exact cmdGetVersion_rooted hI.rooted hs
  · exact cmdOpen_rooted hI.rooted hs
  · exact cmdClose_rooted hI.rooted hs
  · exact cmdJobStatus_rooted hI.rooted hs
  · exact cmdLock_rooted hI.rooted hs
  · exact cmdUnlock_rooted hI.rooted hs
  · exact cmdRegister_rooted hI hs
  · exact cmdWithdraw_rooted hI hs
  · exact cmdLoadContext_rooted hI.rooted hs
  · exact cmdUnloadContext_rooted hI.rooted hs
  · exact cmdLoadGranules_rooted hI.rooted hs
  · exact cmdQueueCreate_rooted hI.rooted hs
  · exact cmdQueueModify_rooted hI.rooted hs
  · exact cmdQueueReset_rooted hI.rooted hs
  · exact cmdQueueDelete_rooted hI.rooted hs
  · exact cmdQueueQuery_rooted hI.rooted hs
  · exact cmdScrub_rooted hI.rooted hs
  · exact cmdComputeReset_rooted hI hs
  · exact cmdTowerReset_rooted hI hs
  · exact cmdModuleReset_rooted hI hs
  · exact cmdPowerState_rooted hI hs
  · exact cmdPowerTarget_rooted hI.rooted hs
  · exact cmdPowerQuery_rooted hI.rooted hs
  · exact cmdLicenceInstall_rooted hI.rooted hs
  · exact cmdLicenceList_rooted hI.rooted hs
  · exact cmdAttest_rooted hI.rooted hs
  · exact cmdDumpRead_rooted hI.rooted hs
  · exact cmdDumpClear_rooted hI.rooted hs
  · exact cmdProcRestart_rooted hI.rooted hs
  · exact cmdUpdateBegin_rooted hI.rooted hs
  · exact cmdUpdateWrite_rooted hI.rooted hs
  · exact cmdUpdateVerify_rooted hI.rooted hs
  · exact cmdUpdateActivate_rooted hI.rooted hs
  · exact cmdUpdateAbort_rooted hI.rooted hs
  · exact finish_rooted hI.rooted hs

theorem startCmd_rooted {s : State} {c : Call} (hs : I s) : I (startCmd s c) := by
  unfold startCmd
  split
  · exact finish_rooted hI.rooted hs
  · exact runCmd_rooted hI hs

theorem passCall_rooted {p : Pass} {c : Call} (hs : I p.s) : I (passCall p c).s := by
  have hstart := passRun_rooted (c := c) (fun s (h1 : I s) => startCmd_rooted hI h1 (c := c)) hs
  have hheld : I (finish p.s c mPROC_HELD 0 []) := finish_rooted hI.rooted hs
  unfold passCall
  split
  · exact hs
  · split
    · exact passRun_rooted (fun _ h1 => runCmd_rooted hI h1) hs
    · split
      · split
        · exact hstart
        · exact hheld
      · split
        · exact hstart
        · split
          · exact hs
          · split
            · exact hheld
            · split
              · exact hs
              · exact hstart

theorem passMbx_rooted {p : Pass} {n : Nat} (hs : I p.s) : I (passMbx p n).s := by
  unfold passMbx
  split
  · exact hs
  · exact passCall_rooted hI hs

theorem passAll_rooted (l : List Nat) {p : Pass} (hs : I p.s) : I (l.foldl passMbx p).s := by
  induction l generalizing p with
  | nil => exact hs
  | cons n l ih => exact ih (passMbx_rooted hI hs)

theorem serveCalls_rooted {s : State} (hs : I s) : I (serveCalls s) := passAll_rooted hI _ hs

theorem mbxStart_rooted {s : State} {n : Nat} {irq : Bool} {op len : Nat} {plan : List (List Nat)} {num : Nat} {src : Option (Nat × Nat)} (hs : I
    s) : I (mbxStart s n irq op len plan num src) :=
  ite_rooted (serveCalls_rooted hI (hI.rest (State.setField_rooted hI.rooted (State.setReg_rooted hI.rooted hs)))) (ite_rooted (finish_rooted
      hI.rooted (hI.rest (State.setField_rooted hI.rooted (State.setReg_rooted hI.rooted hs)))) (sendMsg_rooted hI.rooted (hI.rest (takeTag_rooted
      hI.rooted (State.setField_rooted hI.rooted (State.setReg_rooted hI.rooted hs))))))

theorem mbxGo_rooted {s : State} {n : Nat} {irq : Bool} {op : Nat} {req : List Nat} {plan : List (List Nat)} {num : Nat} (hs : I s) : I (mbxGo s n
    irq op req plan num) :=
  ite_rooted hs (ite_rooted (accessViolation_rooted hI.rooted hs) (mbxStart_rooted hI (setPayload_rooted hI.rooted hs)))

theorem execTargetUnreachable_rooted {s : State} {mbx : Fin 16} (hs : I s) : Leads I (execTargetUnreachable mbx s) := by
  unfold execTargetUnreachable
  refine Leads.next ?_
  split
  · exact hs
  · split
    · exact hs
    · exact ite_rooted hs (serveCalls_rooted hI (finish_rooted hI.rooted hs))

theorem execIdentify_rooted {s : State} {mbx : MbxId} {irq : Bool} {req : List Byte} (hs : I s) : Leads I (execIdentify mbx irq req s) :=
  Leads.next (mbxGo_rooted hI hs)

theorem execGetVersion_rooted {s : State} {mbx : MbxId} {irq : Bool} {req : List Byte} (hs : I s) : Leads I (execGetVersion mbx irq req s) :=
  Leads.next (mbxGo_rooted hI hs)

theorem execOpenSession_rooted {s : State} {mbx : MbxId} {irq : Bool} {req : List Byte} (hs : I s) : Leads I (execOpenSession mbx irq req s) :=
  Leads.next (mbxGo_rooted hI hs)

theorem execCloseSession_rooted {s : State} {mbx : MbxId} {irq : Bool} {req : List Byte} (hs : I s) : Leads I (execCloseSession mbx irq req s) :=
  Leads.next (mbxGo_rooted hI hs)

theorem execJobStatus_rooted {s : State} {mbx : MbxId} {irq : Bool} {req : List Byte} {progress : Fin 1001} (hs : I s) : Leads I (execJobStatus mbx
    irq req progress s) :=
  Leads.next (mbxGo_rooted hI hs)

theorem execLock_rooted {s : State} {mbx : MbxId} {irq : Bool} {req : List Byte} (hs : I s) : Leads I (execLock mbx irq req s) :=
  Leads.next (mbxGo_rooted hI hs)

theorem execUnlock_rooted {s : State} {mbx : MbxId} {irq : Bool} {req : List Byte} (hs : I s) : Leads I (execUnlock mbx irq req s) :=
  Leads.next (mbxGo_rooted hI hs)

theorem execRegisterProgram_rooted {s : State} {mbx : MbxId} {irq : Bool} {req : List Byte} (hs : I s) : Leads I (execRegisterProgram mbx irq req
    s) :=
  Leads.next (mbxGo_rooted hI hs)

theorem execWithdrawProgram_rooted {s : State} {mbx : MbxId} {irq : Bool} {req : List Byte} (hs : I s) : Leads I (execWithdrawProgram mbx irq req
    s) :=
  Leads.next (mbxGo_rooted hI hs)

theorem execLoadContext_rooted {s : State} {mbx : MbxId} {irq : Bool} {req : List Byte} (hs : I s) : Leads I (execLoadContext mbx irq req s) :=
  Leads.next (mbxGo_rooted hI hs)

theorem execUnloadContext_rooted {s : State} {mbx : MbxId} {irq : Bool} {req : List Byte} (hs : I s) : Leads I (execUnloadContext mbx irq req s) :=
  Leads.next (mbxGo_rooted hI hs)

theorem execLoadGranules_rooted {s : State} {mbx : MbxId} {irq : Bool} {req : List Byte} (hs : I s) : Leads I (execLoadGranules mbx irq req s) :=
  Leads.next (mbxGo_rooted hI hs)

theorem execQueueCreate_rooted {s : State} {mbx : MbxId} {irq : Bool} {req : List Byte} (hs : I s) : Leads I (execQueueCreate mbx irq req s) :=
  Leads.next (mbxGo_rooted hI hs)

theorem execQueueModify_rooted {s : State} {mbx : MbxId} {irq : Bool} {req : List Byte} (hs : I s) : Leads I (execQueueModify mbx irq req s) :=
  Leads.next (mbxGo_rooted hI hs)

theorem execQueueReset_rooted {s : State} {mbx : MbxId} {irq : Bool} {req : List Byte} (hs : I s) : Leads I (execQueueReset mbx irq req s) :=
  Leads.next (mbxGo_rooted hI hs)

theorem execQueueDelete_rooted {s : State} {mbx : MbxId} {irq : Bool} {req : List Byte} (hs : I s) : Leads I (execQueueDelete mbx irq req s) :=
  Leads.next (mbxGo_rooted hI hs)

theorem execQueueQuery_rooted {s : State} {mbx : MbxId} {irq : Bool} {req : List Byte} (hs : I s) : Leads I (execQueueQuery mbx irq req s) :=
  Leads.next (mbxGo_rooted hI hs)

theorem execScrub_rooted {s : State} {mbx : MbxId} {irq : Bool} {req : List Byte} (hs : I s) : Leads I (execScrub mbx irq req s) :=
  Leads.next (mbxGo_rooted hI hs)

theorem execComputeReset_rooted {s : State} {mbx : MbxId} {irq : Bool} {req : List Byte} (hs : I s) : Leads I (execComputeReset mbx irq req s) :=
  Leads.next (mbxGo_rooted hI hs)

theorem execTowerReset_rooted {s : State} {mbx : MbxId} {irq : Bool} {req : List Byte} (hs : I s) : Leads I (execTowerReset mbx irq req s) :=
  Leads.next (mbxGo_rooted hI hs)

theorem execModuleReset_rooted {s : State} {mbx : MbxId} {irq : Bool} {req : List Byte} (hs : I s) : Leads I (execModuleReset mbx irq req s) :=
  Leads.next (mbxGo_rooted hI hs)

theorem execPowerStateRun_rooted {s : State} {mbx : MbxId} {irq : Bool} {rest : List Byte} (hs : I s) : Leads I (execPowerStateRun mbx irq rest s)
    :=
  Leads.next (mbxGo_rooted hI hs)

theorem execPowerStateDi_rooted {s : State} {mbx : MbxId} {irq : Bool} {rest : List Byte} (hs : I s) : Leads I (execPowerStateDi mbx irq rest s) :=
  Leads.next (mbxGo_rooted hI hs)

theorem execPowerStateSb_rooted {s : State} {mbx : MbxId} {irq : Bool} {rest : List Byte} (hs : I s) : Leads I (execPowerStateSb mbx irq rest s) :=
  Leads.next (mbxGo_rooted hI hs)

theorem execPowerTarget_rooted {s : State} {mbx : MbxId} {irq : Bool} {req : List Byte} {plan : List (List Nat)} (hs : I s) : Leads I
    (execPowerTarget mbx irq req plan s) :=
  Leads.next (mbxGo_rooted hI hs)

theorem execPowerQuery_rooted {s : State} {mbx : MbxId} {irq : Bool} {req : List Byte} (hs : I s) : Leads I (execPowerQuery mbx irq req s) :=
  Leads.next (mbxGo_rooted hI hs)

theorem execLicenceInstall_rooted {s : State} {mbx : MbxId} {irq : Bool} {req : List Byte} (hs : I s) : Leads I (execLicenceInstall mbx irq req s)
    :=
  Leads.next (mbxGo_rooted hI hs)

theorem execLicenceList_rooted {s : State} {mbx : MbxId} {irq : Bool} {req : List Byte} (hs : I s) : Leads I (execLicenceList mbx irq req s) :=
  Leads.next (mbxGo_rooted hI hs)

theorem execAttest_rooted {s : State} {mbx : MbxId} {irq : Bool} {req : List Byte} (hs : I s) : Leads I (execAttest mbx irq req s) :=
  Leads.next (mbxGo_rooted hI hs)

theorem execDumpRead_rooted {s : State} {mbx : MbxId} {irq : Bool} {req : List Byte} (hs : I s) : Leads I (execDumpRead mbx irq req s) :=
  Leads.next (mbxGo_rooted hI hs)

theorem execDumpClear_rooted {s : State} {mbx : MbxId} {irq : Bool} {req : List Byte} (hs : I s) : Leads I (execDumpClear mbx irq req s) :=
  Leads.next (mbxGo_rooted hI hs)

theorem execProcRestart_rooted {s : State} {mbx : MbxId} {irq : Bool} {req : List Byte} (hs : I s) : Leads I (execProcRestart mbx irq req s) :=
  Leads.next (mbxGo_rooted hI hs)

theorem execUpdateBegin_rooted {s : State} {mbx : MbxId} {irq : Bool} {req : List Byte} (hs : I s) : Leads I (execUpdateBegin mbx irq req s) :=
  Leads.next (mbxGo_rooted hI hs)

theorem execUpdateWrite_rooted {s : State} {mbx : MbxId} {irq : Bool} {req : List Byte} (hs : I s) : Leads I (execUpdateWrite mbx irq req s) :=
  Leads.next (mbxGo_rooted hI hs)

theorem execUpdateVerify_rooted {s : State} {mbx : MbxId} {irq : Bool} {req : List Byte} (hs : I s) : Leads I (execUpdateVerify mbx irq req s) :=
  Leads.next (mbxGo_rooted hI hs)

theorem execUpdateActivate_rooted {s : State} {mbx : MbxId} {irq : Bool} {req : List Byte} (hs : I s) : Leads I (execUpdateActivate mbx irq req s)
    :=
  Leads.next (mbxGo_rooted hI hs)

theorem execUpdateAbort_rooted {s : State} {mbx : MbxId} {irq : Bool} {req : List Byte} (hs : I s) : Leads I (execUpdateAbort mbx irq req s) :=
  Leads.next (mbxGo_rooted hI hs)

/-! ### FwEvent -/

theorem execWatchdogTrip_rooted {s : State} {proc : ProcId} {detail : Word64} {stack : Nat} (hs : I s) : Leads I (execWatchdogTrip proc detail
    stack s) :=
  Leads.next (ite_rooted (serveCalls_rooted hI (countedRestart_rooted hI.rooted hs)) hs)

theorem execProcRestartCounted_rooted {s : State} {proc : ProcId} {cause : RestartCause} {detail : Word64} {stack : Nat} (hs : I s) : Leads I
    (execProcRestartCounted proc cause detail stack s) :=
  Leads.next (ite_rooted (serveCalls_rooted hI (countedRestart_rooted hI.rooted hs)) hs)

theorem execProcRunning_rooted {s : State} {proc : ProcId} {pass other key : Bool} (hs : I s) : Leads I (execProcRunning proc pass other key s) :=
    by
  unfold execProcRunning
  refine Leads.next ?_
  refine ite_rooted hs ?_
  refine ite_rooted ?_ ?_
  · refine ite_rooted hs ?_
    split
    · exact serveCalls_rooted hI (holdProc_rooted hI.rooted hs)
    · exact ite_via (fun h1 => serveCalls_rooted hI (holdProc_rooted hI.rooted (measureFuses_rooted hI.rooted h1))) (fun h1 => serveCalls_rooted hI
          (setPstate_rooted hI.rooted (ite_via (fun h2 => measureFuses_rooted hI.rooted h2) (fun h2 => h2) h1))) (measureImage_rooted hI.rooted
          (chooseSlot_rooted hI.rooted hs ‹_›))
  · refine ite_rooted hs ?_
    refine ite_rooted (serveCalls_rooted hI (ite_via (fun h3 => pwrReturns_rooted hI.rooted h3) (fun h3 => h3) (setPstate_rooted hI.rooted (hI.rest
        (measureImage_rooted hI.rooted (State.setField_rooted hI.rooted hs)))))) ?_
    split
    · exact serveCalls_rooted hI (holdProc_rooted hI.rooted hs)
    · exact serveCalls_rooted hI (ite_via (fun h4 => pwrReturns_rooted hI.rooted h4) (fun h4 => h4) (setPstate_rooted hI.rooted (chooseSlot_rooted
          hI.rooted hs ‹_›)))

theorem execActivationFailed_rooted {s : State} {proc : ProcId} (hs : I s) : Leads I (execActivationFailed proc s) :=
  Leads.next (ite_rooted (serveCalls_rooted hI (rasLog_rooted hI.rooted (restartProc_rooted hI.rooted (failAct_rooted hI.rooted (saveDump_rooted
      hI.rooted hs))))) hs)

/-! ### Regs -/

theorem writeMbxCmd_rooted {s : State} {iface n v : Nat} (hs : I s) : I (writeMbxCmd s iface n v) :=
  ite_rooted (accessViolation_rooted hI.rooted hs) (ite_rooted (mbxStart_rooted hI hs) (State.setReg_rooted hI.rooted hs))

theorem regWrite_rooted {s : State} {iface off v : Nat} (hs : I s) : I (regWrite s iface off v) :=
  ite_rooted (writeMsix_rooted hI.rooted hs) (ite_rooted (ite_rooted (writeMbxCmd_rooted hI hs) (ite_rooted (writePayload_rooted hI.rooted hs) hs))
      (ite_rooted (writeDstat_rooted hI.rooted hs) (ite_rooted (writeRescfg_rooted hI.rooted hs) (ite_rooted (writePlace_rooted hI.rooted hs)
      (ite_rooted (ite_rooted (writeRegionRng_rooted hI.rooted hs) (writeRegionAttr_rooted hI.rooted hs)) (ite_rooted (writeCclr_rooted hI.rooted
      hs) (ite_rooted (ite_rooted (writeCcfg_rooted hI.rooted hs) (ite_rooted (writeClmask_rooted hI.rooted hs) (ite_rooted (writeClmask_rooted
      hI.rooted hs) hs))) (ite_rooted (writeCover_rooted hI.rooted hs) (ite_rooted (writeCover_rooted hI.rooted hs) (ite_rooted
      (writeClassReg_rooted hI.rooted hs) (ite_rooted (ite_rooted hs (plainWrite_rooted hI.rooted hs)) (ite_rooted (biasStart_rooted hI.rooted hs)
      (ite_rooted (writeLctl_rooted hI.rooted hs) (ite_rooted (checkedWrite_rooted hI.rooted (fun _ h1 => h1) hs) (ite_rooted (writeRingcfg_rooted
      hI.rooted hs) (ite_rooted (writeCounterHalf_rooted hI.rooted hs) (checkedWrite_rooted hI.rooted (fun _ h2 => afterWrite_rooted hI.rooted h2)
      hs)))))))))))))))))

theorem execRegisterWrite_rooted {s : State} {iface : Iface} {off : Nat} {value : Word} (hs : I s) : Leads I (execRegisterWrite iface off value s)
    :=
  Leads.next (regWrite_rooted hI hs)

/-! ### LupRx -/

theorem execRemoteDoorbell_rooted {s : State} {module : Fin 64} {head : Bool} {word : Word64} (hs : I s) : Leads I (execRemoteDoorbell module head
    word s) :=
  Leads.next (ite_rooted (ite_rooted (ringCq_rooted hI.rooted hs) (ringSq_rooted hI hs)) (ite_rooted (dropDoorbell_rooted hI.rooted hs) (ite_rooted
      (rasLog_rooted hI.rooted hs) (sendRequest_rooted hI.rooted (takeTag_rooted hI.rooted hs)))))

theorem execLupinDoorbell_rooted {s : State} {link : Fin 8} {msg : LMsg} {flaw : Fin 8} (hs : I s) : Leads I (execLupinDoorbell link msg flaw s) :=
  arriveMsg_rooted hI.rooted (fun _ _ h1 => reply_rooted hI.rooted (ite_rooted (ringCq_rooted hI.rooted h1) (ringSq_rooted hI h1))) hs

theorem mgmtGo_rooted {s : State} {m : LMsg} {n op : Nat} {req : List Nat} {plan : List (List Nat)} {num : Nat} (hs : I s) : I (mgmtGo s m n op req
    plan num) :=
  ite_rooted hs (ite_rooted (sendMsg_rooted hI.rooted hs) (ite_rooted (sendMsg_rooted hI.rooted hs) (mbxStart_rooted hI (setPayload_rooted
      hI.rooted hs))))

theorem mgmtAct_rooted {s : State} {l : Nat} {m : LMsg} (hs : I s) : I (mgmtAct s l m) := by
  unfold mgmtAct
  split
  · exact mgmtGo_rooted hI hs
  · exact reply_rooted hI.rooted (setMembers_rooted hI.rooted (newEpoch_rooted hI.rooted (hI.rest hs)))
  · exact reply_rooted hI.rooted (ite_rooted (tablesReady_rooted hI.rooted hs) (storeFailover_rooted hI.rooted hs))
  · exact reply_rooted hI.rooted (takeNotice_rooted hI.rooted hs)
  · exact reply_rooted hI.rooted (bar0Read_rooted hI.rooted hs)
  · exact reply_rooted hI.rooted (regWrite_rooted hI hs)
  · exact hs

theorem execMgmt_rooted {s : State} {link : Fin 8} {msg : LMsg} {flaw : Fin 8} (hs : I s) : Leads I (execMgmt link msg flaw s) :=
  arriveMsg_rooted hI.rooted (fun _ _ h1 => mgmtAct_rooted hI h1) hs

theorem execMgmtresp_rooted {s : State} {link : Fin 8} {msg : LMsg} {flaw : Fin 8} (hs : I s) : Leads I (execMgmtresp link msg flaw s) := by
  unfold execMgmtresp
  refine arriveMsg_rooted hI.rooted (fun _ _ h1 => ?_) hs
  split
  · split
    · exact h1
    · exact serveCalls_rooted hI (finish_rooted hI.rooted h1)
  · exact h1

/-! ### Side -/

theorem mirrorPut_rooted {f o : Nat} {bs : List Nat} {s : State} (hs : I s) : I (mirrorPut f o bs s) := by
  induction f generalizing o bs s with
  | zero => exact hs
  | succ f ih =>
    cases bs with
    | nil => exact hs
    | cons b bs =>
      unfold mirrorPut
      split
      · exact ih (writeMbxCmd_rooted hI hs)
      · split
        · exact ih (writePayload_rooted hI.rooted hs)
        · exact ih hs

theorem mirrorWrite_rooted {s : State} {o : Nat} {b : List Nat} (hs : I s) : I (mirrorWrite s o b) :=
  mirrorPut_rooted hI (hI.rest hs)

theorem mirrorRead_rooted {s : State} {n : Nat} (hs : I s) : I (mirrorRead s n) :=
  State.emit_rooted hI.rooted (hI.rest hs)

theorem execI3cPrivateWrite_rooted {s : State} {off : Fin 65536} {data : List Byte} (hs : I s) : Leads I (execI3cPrivateWrite off data s) :=
  Leads.next (ite_rooted hs (mirrorWrite_rooted hI hs))

theorem execI3cPrivateRead_rooted {s : State} {n : Nat} (hs : I s) : Leads I (execI3cPrivateRead n s) :=
  Leads.next (ite_rooted hs (mirrorRead_rooted hI hs))

theorem execSmbusBlockWrite_rooted {s : State} {off : Fin 65536} {data : List Byte} (hs : I s) : Leads I (execSmbusBlockWrite off data s) :=
  Leads.ite Leads.fault (Leads.next (ite_rooted hs (mirrorWrite_rooted hI hs)))

theorem execSmbusBlockRead_rooted {s : State} (hs : I s) : Leads I (execSmbusBlockRead s) :=
  Leads.next (ite_rooted hs (mirrorRead_rooted hI hs))

theorem takeAddress_rooted {s : State} {addr : Nat} {v33 : Bool} (hs : I s) : I (takeAddress s addr v33) :=
  ite_rooted hs (hI.rest hs)

theorem execEntdaa_rooted {s : State} {addr : Fin 128} {v33 : Bool} (hs : I s) : Leads I (execEntdaa addr v33 s) :=
  Leads.next (ite_rooted hs (takeAddress_rooted hI hs))

theorem execSetdasa_rooted {s : State} {static addr : Fin 128} {v33 : Bool} (hs : I s) : Leads I (execSetdasa static addr v33 s) :=
  Leads.next (ite_rooted hs (takeAddress_rooted hI hs))

theorem execRstdaa_rooted {s : State} (hs : I s) : Leads I (execRstdaa s) :=
  Leads.next (hI.rest hs)

theorem debugUse_rooted {s : State} (hs : I s) : I (debugUse s) :=
  ite_rooted hs (measure_rooted hI.rooted (hI.rest hs))

theorem execJtagInstruction_rooted {s : State} {ins : JtagIns} (hs : I s) : Leads I (execJtagInstruction ins s) := by
  unfold execJtagInstruction
  refine Leads.next ?_
  split
  · exact hs
  · exact hs
  · exact hs
  · exact hs
  · exact ite_rooted (debugUse_rooted hI hs) hs

theorem execUartInput_rooted {s : State} {data : List Byte} (hs : I s) : Leads I (execUartInput data s) :=
  Leads.next (ite_rooted (hI.rest (debugUse_rooted hI hs)) hs)

/-! ### Tick -/

theorem tickOne_rooted {s : State} (hs : I s) : I (tickOne s) := by
  unfold tickOne
  refine ite_rooted hs ?_
  dsimp only
  split
  · exact ite_via (fun h1 => resetAndBoot_rooted hI h1) (fun h1 => serveCalls_rooted hI h1) (hI.rest hs)
  · exact serveCalls_rooted hI (hI.rest hs)

end

end Sys2Proof.Machine
end

section
/-! O3: every step keeps the memory canonical and the queue well formed. -/
namespace Sys2Proof.Machine

/-- Every command keeps every placed predicate, by the lemma of its meaning. -/
theorem exec_rooted {I : State → Prop} (hI : Placed I) {s : State} (hs : I s) (i : Instr) : Leads I (exec i s) := by
  cases i with
  | ialu => exact execIalu_rooted hI.rooted hs
  | ialui => exact execIalui_rooted hI.rooted hs
  | idiv => exact execIdiv_rooted hI.rooted hs
  | falu => exact execFalu_rooted hI.rooted hs
  | falui => exact execFalui_rooted hI.rooted hs
  | fspec => exact execFspec_rooted hI.rooted hs
  | cmp => exact execCmp_rooted hI.rooted hs
  | cmpi => exact execCmpi_rooted hI.rooted hs
  | cvt => exact execCvt_rooted hI.rooted hs
  | mxq => exact execMxq_rooted hI.rooted hs
  | pred => exact execPred_rooted hI.rooted hs
  | xlane => exact execXlane_rooted hI.rooted hs
  | move => exact execMove_rooted hI.rooted hs
  | moviMov => exact execMoviMov_rooted hI.rooted hs
  | moviMovh => exact execMoviMovh_rooted hI.rooted hs
  | srkeyLoI => exact execSrkeyLoI_rooted hI.rooted hs
  | srkeyHiI => exact execSrkeyHiI_rooted hI.rooted hs
  | srkeyLoG => exact execSrkeyLoG_rooted hI.rooted hs
  | srkeyHiG => exact execSrkeyHiG_rooted hI.rooted hs
  | ldstLLd => exact execLdstLLd_rooted hI.rooted hs
  | ldstLLdS => exact execLdstLLdS_rooted hI.rooted hs
  | ldstLSt => exact execLdstLSt_rooted hI.rooted hs
  | ldstGLd => exact execLdstGLd_rooted hI.rooted hs
  | ldstGLdS => exact execLdstGLdS_rooted hI.rooted hs
  | ldstGSt => exact execLdstGSt_rooted hI.rooted hs
  | atomAdd => exact execAtomAdd_rooted hI.rooted hs
  | atomFadd => exact execAtomFadd_rooted hI.rooted hs
  | atomMinS => exact execAtomMinS_rooted hI.rooted hs
  | atomMinU => exact execAtomMinU_rooted hI.rooted hs
  | atomMaxS => exact execAtomMaxS_rooted hI.rooted hs
  | atomMaxU => exact execAtomMaxU_rooted hI.rooted hs
  | atomAnd => exact execAtomAnd_rooted hI.rooted hs
  | atomOr => exact execAtomOr_rooted hI.rooted hs
  | atomXor => exact execAtomXor_rooted hI.rooted hs
  | atomExch => exact execAtomExch_rooted hI.rooted hs
  | atomCas => exact execAtomCas_rooted hI.rooted hs
  | lockAcqL => exact execLockAcqL_rooted hI.rooted hs
  | lockAcqG => exact execLockAcqG_rooted hI.rooted hs
  | lockRelL => exact execLockRelL_rooted hI.rooted hs
  | lockRelG => exact execLockRelG_rooted hI.rooted hs
  | lockWake => exact execLockWake_rooted hI.rooted hs
  | lockRetry => exact execLockRetry_rooted hI.rooted hs
  | fenceW => exact execFenceW_rooted hI.rooted hs
  | fenceA => exact execFenceA_rooted hI.rooted hs
  | fenceAw => exact execFenceAw_rooted hI.rooted hs
  | bra => exact execBra_rooted hI.rooted hs
  | brx => exact execBrx_rooted hI.rooted hs
  | nop => exact execNop_rooted hI.rooted hs
  | exit => exact execExit_rooted hI.rooted hs
  | barG => exact execBarG_rooted hI.rooted hs
  | barT => exact execBarT_rooted hI.rooted hs
  | wait => exact execWait_rooted hI.rooted hs
  | pmcRead => exact execPmcRead_rooted hI.rooted hs
  | mma => exact execMma_rooted hI.rooted hs
  | attend => exact execAttend_rooted hI.rooted hs
  | append => exact execAppend_rooted hI.rooted hs
  | xfer => exact execXfer_rooted hI.rooted hs
  | reduce => exact execReduce_rooted hI.rooted hs
  | pin => exact execPin_rooted hI.rooted hs
  | unpin => exact execUnpin_rooted hI.rooted hs
  | groupOverdue => exact execGroupOverdue_rooted hI.rooted hs
  | joinTimeout => exact execJoinTimeout_rooted hI.rooted hs
  | barrierSplit => exact execBarrierSplit_rooted hI.rooted hs
  | loadResponse => exact execLoadResponse_rooted hI.rooted hs
  | writeAck => exact execWriteAck_rooted hI.rooted hs
  | mmaStart => exact execMmaStart_rooted hI.rooted hs
  | mmaLastProduct => exact execMmaLastProduct_rooted hI.rooted hs
  | drainStart => exact execDrainStart_rooted hI.rooted hs
  | drainComplete => exact execDrainComplete_rooted hI.rooted hs
  | burstEnd => exact execBurstEnd_rooted hI.rooted hs
  | gridStop => exact execGridStop_rooted hI.rooted hs
  | loadNotice => exact execLoadNotice_rooted hI.rooted hs
  | loadNoticeAck => exact execLoadNoticeAck_rooted hI.rooted hs
  | preRaiseReturn => exact execPreRaiseReturn_rooted hI.rooted hs
  | xferStart => exact execXferStart_rooted hI.rooted hs
  | xferComplete => exact execXferComplete_rooted hI.rooted hs
  | attnQuantum => exact execAttnQuantum_rooted hI.rooted hs
  | attendComplete => exact execAttendComplete_rooted hI.rooted hs
  | appendWriteAck => exact execAppendWriteAck_rooted hI.rooted hs
  | attnEngineFault => exact execAttnEngineFault_rooted hI.rooted hs
  | attnSelfTestComplete => exact execAttnSelfTestComplete_rooted hI.rooted hs
  | llcAccess => exact execLlcAccess_rooted hI.rooted hs
  | llcFillComplete => exact execLlcFillComplete_rooted hI.rooted hs
  | reductionEntryApplied => exact execReductionEntryApplied_rooted hI.rooted hs
  | mergeEntryTimeout => exact execMergeEntryTimeout_rooted hI.rooted hs
  | correctedRewrite => exact execCorrectedRewrite_rooted hI.rooted hs
  | residentRebuild => exact execResidentRebuild_rooted hI.rooted hs
  | rowSpared => exact execRowSpared_rooted hI.rooted hs
  | colSpared => exact execColSpared_rooted hI.rooted hs
  | hbmRowSpared => exact execHbmRowSpared_rooted hI.rooted hs
  | bundleParityError => exact execBundleParityError_rooted hI.rooted hs
  | controlCopyDisagree => exact execControlCopyDisagree_rooted hI.rooted hs
  | bundleTestComplete => exact execBundleTestComplete_rooted hI.rooted hs
  | repairPauseStart => exact execRepairPauseStart_rooted hI.rooted hs
  | repairPauseEnd => exact execRepairPauseEnd_rooted hI.rooted hs
  | bankWritebackComplete => exact execBankWritebackComplete_rooted hI.rooted hs
  | vbankRetired => exact execVbankRetired_rooted hI.rooted hs
  | recalibration => exact execRecalibration_rooted hI.rooted hs
  | marginNarrowApply => exact execMarginNarrowApply_rooted hI.rooted hs
  | monitorSample => exact execMonitorSample_rooted hI hs
  | sensorFailed => exact execSensorFailed_rooted hI.rooted hs
  | sensorSuspect => exact execSensorSuspect_rooted hI.rooted hs
  | bandRiseDelayed => exact execBandRiseDelayed_rooted hI.rooted hs
  | bandFall => exact execBandFall_rooted hI.rooted hs
  | setpointSettled => exact execSetpointSettled_rooted hI.rooted hs
  | ivrPhaseFailed => exact execIvrPhaseFailed_rooted hI hs
  | pathCheck => exact execPathCheck_rooted hI.rooted hs
  | pathStateChange => exact execPathStateChange_rooted hI hs
  | senseRouteFailure => exact execSenseRouteFailure_rooted hI.rooted hs
  | converterFailed => exact execConverterFailed_rooted hI.rooted hs
  | vvmFailed => exact execVvmFailed_rooted hI hs
  | domainOvercurrent => exact execDomainOvercurrent_rooted hI hs
  | inputOvervoltage => exact execInputOvervoltage_rooted hI hs
  | overvoltageRestart => exact execOvervoltageRestart_rooted hI hs
  | undervoltageLockout => exact execUndervoltageLockout_rooted hI hs
  | undervoltageRestart => exact execUndervoltageRestart_rooted hI hs
  | powerApplied => exact execPowerApplied_rooted hI hs
  | inrushGrant => exact execInrushGrant_rooted hI.rooted hs
  | clusterReady => exact execClusterReady_rooted hI.rooted hs
  | lightIdleEntry => exact execLightIdleEntry_rooted hI.rooted hs
  | targetEffective => exact execTargetEffective_rooted hI.rooted hs
  | curtailEnter => exact execCurtailEnter_rooted hI.rooted hs
  | curtailExit => exact execCurtailExit_rooted hI.rooted hs
  | powerStateEntry => exact execPowerStateEntry_rooted hI.rooted hs
  | classSample => exact execClassSample_rooted hI.rooted hs
  | epochEnd => exact execEpochEnd_rooted hI.rooted hs
  | arbiterGrant => exact execArbiterGrant_rooted hI.rooted hs
  | mark => exact execMark_rooted hI.rooted hs
  | rateRecovery => exact execRateRecovery_rooted hI.rooted hs
  | latencyWindowEmpty => exact execLatencyWindowEmpty_rooted hI.rooted hs
  | doorbell => exact execDoorbell_rooted hI hs
  | completionHeadDoorbell => exact execCompletionHeadDoorbell_rooted hI.rooted hs
  | remoteDoorbell => exact execRemoteDoorbell_rooted hI hs
  | admissionDecision => exact execAdmissionDecision_rooted hI hs
  | descriptorReadComplete => exact execDescriptorReadComplete_rooted hI.rooted hs
  | descriptorReadTimeout => exact execDescriptorReadTimeout_rooted hI.rooted hs
  | taskDispatch => exact execTaskDispatch_rooted hI.rooted hs
  | taskBoundary => exact execTaskBoundary_rooted hI.rooted hs
  | taskEnd => exact execTaskEnd_rooted hI.rooted hs
  | completionStallTimeout => exact execCompletionStallTimeout_rooted hI.rooted hs
  | spillMove => exact execSpillMove_rooted hI.rooted hs
  | meterExceeded => exact execMeterExceeded_rooted hI.rooted hs
  | segmentLimitExceeded => exact execSegmentLimitExceeded_rooted hI.rooted hs
  | rerun => exact execRerun_rooted hI.rooted hs
  | coreFault => exact execCoreFault_rooted hI.rooted hs
  | replayEvent => exact execReplayEvent_rooted hI.rooted hs
  | fenceComplete => exact execFenceComplete_rooted hI.rooted hs
  | restoreComplete => exact execRestoreComplete_rooted hI.rooted hs
  | checkpointWriteComplete => exact execCheckpointWriteComplete_rooted hI.rooted hs
  | reservationMove => exact execReservationMove_rooted hI.rooted hs
  | gridSelfTestComplete => exact execGridSelfTestComplete_rooted hI.rooted hs
  | gridSpared => exact execGridSpared_rooted hI.rooted hs
  | clusterReset => exact execClusterReset_rooted hI.rooted hs
  | clusterResetComplete => exact execClusterResetComplete_rooted hI.rooted hs
  | watchdogTrip => exact execWatchdogTrip_rooted hI hs
  | procRestartCounted => exact execProcRestartCounted_rooted hI hs
  | procRunning => exact execProcRunning_rooted hI hs
  | selfCheckPassed => exact execSelfCheckPassed_rooted hI.rooted hs
  | activationFailed => exact execActivationFailed_rooted hI hs
  | writeWindowOpen => exact execWriteWindowOpen_rooted hI.rooted hs
  | jobEnd => exact execJobEnd_rooted hI.rooted hs
  | jobExpiry => exact execJobExpiry_rooted hI.rooted hs
  | identify => exact execIdentify_rooted hI hs
  | getVersion => exact execGetVersion_rooted hI hs
  | openSession => exact execOpenSession_rooted hI hs
  | closeSession => exact execCloseSession_rooted hI hs
  | jobStatus => exact execJobStatus_rooted hI hs
  | lock => exact execLock_rooted hI hs
  | unlock => exact execUnlock_rooted hI hs
  | registerProgram => exact execRegisterProgram_rooted hI hs
  | withdrawProgram => exact execWithdrawProgram_rooted hI hs
  | loadContext => exact execLoadContext_rooted hI hs
  | unloadContext => exact execUnloadContext_rooted hI hs
  | loadGranules => exact execLoadGranules_rooted hI hs
  | queueCreate => exact execQueueCreate_rooted hI hs
  | queueModify => exact execQueueModify_rooted hI hs
  | queueReset => exact execQueueReset_rooted hI hs
  | queueDelete => exact execQueueDelete_rooted hI hs
  | queueQuery => exact execQueueQuery_rooted hI hs
  | scrub => exact execScrub_rooted hI hs
  | computeReset => exact execComputeReset_rooted hI hs
  | towerReset => exact execTowerReset_rooted hI hs
  | towerReady => exact execTowerReady_rooted hI hs
  | moduleReset => exact execModuleReset_rooted hI hs
  | powerStateRun => exact execPowerStateRun_rooted hI hs
  | powerStateDi => exact execPowerStateDi_rooted hI hs
  | powerStateSb => exact execPowerStateSb_rooted hI hs
  | powerTarget => exact execPowerTarget_rooted hI hs
  | powerQuery => exact execPowerQuery_rooted hI hs
  | licenceInstall => exact execLicenceInstall_rooted hI hs
  | licenceList => exact execLicenceList_rooted hI hs
  | attest => exact execAttest_rooted hI hs
  | dumpRead => exact execDumpRead_rooted hI hs
  | dumpClear => exact execDumpClear_rooted hI hs
  | procRestart => exact execProcRestart_rooted hI hs
  | updateBegin => exact execUpdateBegin_rooted hI hs
  | updateWrite => exact execUpdateWrite_rooted hI hs
  | updateVerify => exact execUpdateVerify_rooted hI hs
  | updateActivate => exact execUpdateActivate_rooted hI hs
  | updateAbort => exact execUpdateAbort_rooted hI hs
  | targetUnreachable => exact execTargetUnreachable_rooted hI hs
  | registerWrite => exact execRegisterWrite_rooted hI hs
  | admTickLoRead => exact execAdmTickLoRead_rooted hI.rooted hs
  | pwrPtickLoRead => exact execPwrPtickLoRead_rooted hI.rooted hs
  | llcRescfgWrite => exact execLlcRescfgWrite_rooted hI.rooted hs
  | rescfgApplied => exact execRescfgApplied_rooted hI.rooted hs
  | llcPlaceWrite => exact execLlcPlaceWrite_rooted hI.rooted hs
  | eccRgnRngWrite => exact execEccRgnRngWrite_rooted hI.rooted hs
  | eccRgnAttrWrite => exact execEccRgnAttrWrite_rooted hI.rooted hs
  | regionApplied => exact execRegionApplied_rooted hI.rooted hs
  | eccCclrWrite => exact execEccCclrWrite_rooted hI.rooted hs
  | admClmaskWrite => exact execAdmClmaskWrite_rooted hI.rooted hs
  | admCcfgWrite => exact execAdmCcfgWrite_rooted hI.rooted hs
  | admCoverWrite => exact execAdmCoverWrite_rooted hI.rooted hs
  | biasToHost => exact execBiasToHost_rooted hI.rooted hs
  | biasToDevice => exact execBiasToDevice_rooted hI.rooted hs
  | biasCommandComplete => exact execBiasCommandComplete_rooted hI.rooted hs
  | retrain => exact execRetrain_rooted hI.rooted hs
  | linkDisable => exact execLinkDisable_rooted hI.rooted hs
  | mbxDstatClear => exact execMbxDstatClear_rooted hI.rooted hs
  | freeze => exact execFreeze_rooted hI.rooted hs
  | pmcRingcfgWrite => exact execPmcRingcfgWrite_rooted hI.rooted hs
  | pmcCounterHiWrite => exact execPmcCounterHiWrite_rooted hI.rooted hs
  | pmcCounterLoWrite => exact execPmcCounterLoWrite_rooted hI.rooted hs
  | pmcCounterLoRead => exact execPmcCounterLoRead_rooted hI.rooted hs
  | dumpInterval => exact execDumpInterval_rooted hI.rooted hs
  | bandwidthWindowEnd => exact execBandwidthWindowEnd_rooted hI.rooted hs
  | counterWrap => exact execCounterWrap_rooted hI.rooted hs
  | bar2Read => exact execBar2Read_rooted hI.rooted hs
  | bar2Write => exact execBar2Write_rooted hI.rooted hs
  | cxlMemRead => exact execCxlMemRead_rooted hI.rooted hs
  | cxlMemWrite => exact execCxlMemWrite_rooted hI.rooted hs
  | hostRequestError => exact execHostRequestError_rooted hI.rooted hs
  | configRequest => exact execConfigRequest_rooted hI.rooted hs
  | viral => exact execViral_rooted hI.rooted hs
  | msixUnmask => exact execMsixUnmask_rooted hI.rooted hs
  | perstAssert => exact execPerstAssert_rooted hI hs
  | perstDeassert => exact execPerstDeassert_rooted hI hs
  | ready => exact execReady_rooted hI hs
  | hotReset => exact execHotReset_rooted hI hs
  | cxlReset => exact execCxlReset_rooted hI hs
  | d3hot => exact execD3hot_rooted hI.rooted hs
  | frameReceived => exact execFrameReceived_rooted hI.rooted hs
  | nak => exact execNak_rooted hI.rooted hs
  | rd => exact execRd_rooted hI.rooted hs
  | wr => exact execWr_rooted hI.rooted hs
  | atom => exact execAtom_rooted hI.rooted hs
  | lupinLock => exact execLupinLock_rooted hI.rooted hs
  | lupinPin => exact execLupinPin_rooted hI.rooted hs
  | red => exact execRed_rooted hI.rooted hs
  | rdresp => exact execRdresp_rooted hI.rooted hs
  | ack => exact execAck_rooted hI.rooted hs
  | atomresp => exact execAtomresp_rooted hI.rooted hs
  | nack => exact execNack_rooted hI.rooted hs
  | lupinDoorbell => exact execLupinDoorbell_rooted hI hs
  | hostrd => exact execHostrd_rooted hI.rooted hs
  | hostwr => exact execHostwr_rooted hI.rooted hs
  | lupinMsix => exact execLupinMsix_rooted hI.rooted hs
  | mgmt => exact execMgmt_rooted hI hs
  | mgmtresp => exact execMgmtresp_rooted hI hs
  | linkTraining => exact execLinkTraining_rooted hI.rooted hs
  | lupinLinkUp => exact execLupinLinkUp_rooted hI.rooted hs
  | lupinLaneLost => exact execLupinLaneLost_rooted hI.rooted hs
  | lupinLinkDown => exact execLupinLinkDown_rooted hI.rooted hs
  | linkdownNotice => exact execLinkdownNotice_rooted hI.rooted hs
  | failoverTables => exact execFailoverTables_rooted hI.rooted hs
  | remoteTimeout => exact execRemoteTimeout_rooted hI.rooted hs
  | i3cPrivateWrite => exact execI3cPrivateWrite_rooted hI hs
  | i3cPrivateRead => exact execI3cPrivateRead_rooted hI hs
  | smbusBlockWrite => exact execSmbusBlockWrite_rooted hI hs
  | smbusBlockRead => exact execSmbusBlockRead_rooted hI hs
  | entdaa => exact execEntdaa_rooted hI hs
  | rstdaa => exact execRstdaa_rooted hI hs
  | jtagInstruction => exact execJtagInstruction_rooted hI hs
  | uartInput => exact execUartInput_rooted hI hs
  | hostSnoop => exact execHostSnoop_rooted hI.rooted hs
  | cxlCacheResponse => exact execCxlCacheResponse_rooted hI.rooted hs
  | hdmDecoderCommit => exact execHdmDecoderCommit_rooted hI.rooted hs
  | setdasa => exact execSetdasa_rooted hI hs
  | linkSidebandRequest => exact execLinkSidebandRequest_rooted hI.rooted hs

theorem sound_placed : Placed Sound := ⟨fun hm h => ⟨hm h.1, h.2⟩⟩

/-- Settles O3: soundness asks of a state only its queue and the canonical form of memory, and every command keeps what asks no more; the
step itself takes the command off the queue. -/
theorem stepKeepsSound : Obligations.StepKeepsSound := by
  unfold Obligations.StepKeepsSound
  intro s t hs ht
  unfold step at ht
  split at ht
  · cases ht
    exact tickOne_rooted sound_placed hs
  · next c rest hp =>
    obtain ⟨hmem, hq⟩ := hs
    have hrest : Sound { s with pending := rest } := ⟨hmem, fun d hd => hq d (by rw [hp]; exact List.mem_cons_of_mem _ hd)⟩
    exact exec_rooted sound_placed hrest c t ht

end Sys2Proof.Machine
end

section
/-! SUPPORT. Training, the power plan and admission's registers: what of a state they cannot reach. -/
namespace Sys2Proof.Machine

/-- A predicate that looks at nothing but what training, the power plan and the log leave alone. -/
structure Steady (I : State → Prop) : Prop where
  rest : ∀ {u : State} {out regs ecc vert pwr ras msix}, pwr = { u.pwr with
      req := pwr.req, plan := pwr.plan, planAt := pwr.planAt, profAt := pwr.profAt, fabV := pwr.fabV, inrush := pwr.inrush, exitAt := pwr.exitAt
      rise := pwr.rise } →
    I u → I ⟨u.pending, u.clk, u.fresh, out, u.modId, regs, u.mem, u.poison, u.towersDown, u.cores, u.clusters, u.lmap, u.llc, ecc, vert, pwr, u.therm,
      u.adm, u.md, u.host, ras, msix, u.fw, u.cls, u.lup, u.pmc, u.programs, u.contexts, u.tasks⟩

section
variable {I : State → Prop} (hI : Steady I)
include hI

theorem State.setReg_steady {s : State} {off : Nat} {v : Word} (hs : I s) : I (State.setReg s off v) :=
  hI.rest rfl hs

theorem State.setField_steady {s : State} {off hi lo v : Nat} (hs : I s) : I (State.setField s off hi lo v) :=
  State.setReg_steady hI hs

theorem setFabric_steady {s : State} {d f : Nat} (hs : I s) : I (setFabric s d f) :=
  hI.rest rfl hs

theorem holdFabric_steady {s : State} {c f : Nat} (hs : I s) : I (holdFabric s c f) :=
  foldl_rooted (fun _ _ h1 => ite_rooted h1 (setFabric_steady hI h1)) hs

theorem refreshFloor_steady {s : State} {c : Nat} (hs : I s) : I (refreshFloor s c) :=
  State.setField_steady hI (State.setField_steady hI (State.setField_steady hI (holdFabric_steady hI hs)))

theorem settle_steady {s : State} {c : Nat} (hs : I s) : I (settle s c) :=
  refreshFloor_steady hI (State.setField_steady hI (State.setField_steady hI hs))

theorem State.emit_steady {s : State} {o : Out} (hs : I s) : I (State.emit s o) :=
  hI.rest rfl hs

theorem sendMsix_steady {s : State} {v : Nat} (hs : I s) : I (sendMsix s v) :=
  ite_rooted hs (ite_rooted (State.emit_steady hI hs) (hI.rest rfl hs))

theorem rasLogT_steady {s : State} {e : LogEv} {training : Bool} (hs : I s) : I (rasLogT s e training) :=
  ite_via (fun h2 => sendMsix_steady hI (State.setReg_steady hI h2)) (fun h2 => h2) (State.setReg_steady hI (ite_via (fun h1 =>
      State.setField_steady hI h1) (fun h1 => h1) (hI.rest rfl hs)))

theorem rasLog_steady {s : State} {e : LogEv} (hs : I s) : I (rasLog s e) :=
  rasLogT_steady hI hs

theorem requestSetpoint_steady {s : State} {c mv : Nat} (hs : I s) : I (requestSetpoint s c mv) :=
  ite_via (fun h1 => h1) (fun h1 => refreshFloor_steady hI (State.setField_steady hI (hI.rest rfl h1))) (ite_rooted hs (rasLog_steady hI hs))

theorem requestInrush_steady {s : State} {c : Nat} (hs : I s) : I (requestInrush s c) :=
  ite_rooted hs (hI.rest rfl hs)

theorem holdCover_steady {s : State} (hs : I s) : I (holdCover s) :=
  foldl_rooted (fun _ _ h1 => ite_rooted h1 (requestSetpoint_steady hI h1)) hs

theorem resumeAt_steady {s : State} {c v : Nat} (hs : I s) : I (resumeAt s c v) :=
  refreshFloor_steady hI (hI.rest rfl hs)

theorem adoptPlan_steady {s : State} {p : List (List Nat)} (hs : I s) : I (adoptPlan s p) :=
  holdCover_steady hI (foldl_rooted (fun _ _ h1 => ite_rooted h1 (ite_rooted (requestInrush_steady hI (resumeAt_steady hI h1))
      (requestSetpoint_steady hI h1))) (hI.rest rfl hs))

theorem refreshCommit_steady {s : State} {c : Nat} (hs : I s) : I (refreshCommit s c) :=
  State.setField_steady hI hs

theorem refreshProfile_steady {s : State} (hs : I s) : I (refreshProfile s) :=
  hI.rest rfl (foldl_rooted (fun _ _ h1 => State.setField_steady hI h1) (State.setField_steady hI hs))

theorem refreshAdmission_steady {s : State} (hs : I s) : I (refreshAdmission s) :=
  holdCover_steady hI (refreshProfile_steady hI (foldl_rooted (fun _ _ h1 => refreshCommit_steady hI h1) hs))

theorem publish_steady {s : State} {plan : List (List Nat)} {cs : List Nat} (hs : I s) : I (publish s plan cs) :=
  refreshAdmission_steady hI (foldl_rooted (fun _ _ h1 => settle_steady hI h1) (foldl_rooted (fun _ _ h2 => refreshFloor_steady hI h2)
      (adoptPlan_steady hI hs)))

theorem State.modBundle_steady {s : State} {k : Nat} {f : Bundle → Bundle} (hs : I s) : I (State.modBundle s k f) :=
  hI.rest rfl hs

theorem refreshTower_steady {s : State} {t : Nat} (hs : I s) : I (refreshTower s t) :=
  State.setField_steady hI (State.setField_steady hI (State.setField_steady hI (State.setField_steady hI (State.setField_steady hI
      (State.setField_steady hI (State.setField_steady hI hs))))))

theorem addRepair_steady {s : State} {r : Nat × Nat × Nat} (hs : I s) : I (addRepair s r) :=
  ite_rooted (hI.rest rfl hs) (State.setField_steady hI (hI.rest rfl hs))

theorem logBundle_steady {s : State} {code k : Nat} {training : Bool} (hs : I s) : I (logBundle s code k training) :=
  rasLogT_steady hI hs

theorem beginBankRetire_steady {s : State} {tb : Nat} (hs : I s) : I (beginBankRetire s tb) :=
  ite_rooted hs (refreshTower_steady hI (hI.rest rfl hs))

theorem groupRetire_steady {s : State} {k : Nat} {training : Bool} (hs : I s) : I (groupRetire s k training) :=
  ite_rooted hs (ite_via (fun h1 => beginBankRetire_steady hI h1) (fun h1 => h1) (rasLogT_steady hI (refreshTower_steady hI (hI.rest rfl hs))))

theorem applyLadder_steady {s : State} {k : Nat} {training : Bool} (hs : I s) : I (applyLadder s k training) := by
  unfold applyLadder
  dsimp only
  refine foldl_rooted (fun _ _ h1 => ?_) (refreshTower_steady hI (State.modBundle_steady hI hs))
  split
  · exact ite_via (fun h2 => h2) (fun h2 => addRepair_steady hI h2) (State.modBundle_steady hI h1)
  · exact ite_via (fun h4 => groupRetire_steady hI h4) (fun h4 => h4) (logBundle_steady hI (refreshTower_steady hI (ite_via (fun h3 => h3) (fun h3
        => addRepair_steady hI h3) (State.modBundle_steady hI h1))))

theorem trainTower_steady {s : State} {t : Nat} {lanes : List (TowerId × Fin 2 × Fin 12288 × Fin 39)} (hs : I s) : I (trainTower s t lanes) :=
  refreshTower_steady hI (foldl_rooted (fun _ _ h1 => applyLadder_steady hI h1) (hI.rest rfl (foldl_rooted (fun _ _ h2 => State.modBundle_steady hI
      h2) hs)))

theorem commitRepairs_steady {s : State} (hs : I s) : I (commitRepairs s) :=
  hI.rest rfl hs

theorem refreshCeiling_steady {s : State} (hs : I s) : I (refreshCeiling s) :=
  State.setField_steady hI (ite_via (fun h1 => hI.rest rfl h1) (fun h1 => h1) (ite_rooted (hI.rest rfl hs) hs))

theorem pwrEvent_steady {s : State} {n : Nat} (hs : I s) : I (pwrEvent s n) :=
  ite_via (fun h1 => sendMsix_steady hI h1) (fun h1 => h1) (State.setField_steady hI hs)

theorem curtailCheck_steady {s : State} (hs : I s) : I (curtailCheck s) :=
  ite_rooted (pwrEvent_steady hI (State.setField_steady hI hs)) hs

theorem settleFabric_steady {s : State} (hs : I s) : I (settleFabric s) :=
  foldl_rooted (fun _ _ h1 => setFabric_steady hI h1) hs

theorem hstatOf_steady {s : State} {h : Nat} (hs : I s) : I (hstatOf s h) :=
  State.setField_steady hI (State.setField_steady hI hs)

theorem refreshHstat_steady {s : State} (hs : I s) : I (refreshHstat s) :=
  foldl_rooted (fun _ _ h1 => hstatOf_steady hI h1) hs

theorem refreshSpares_steady {s : State} {h : Nat} (hs : I s) : I (refreshSpares s h) :=
  State.setField_steady hI (State.setField_steady hI (State.setField_steady hI hs))

theorem refreshHbmSpares_steady {s : State} {k : Nat} (hs : I s) : I (refreshHbmSpares s k) :=
  State.setField_steady hI (State.setField_steady hI hs)

theorem refreshAllSpares_steady {s : State} (hs : I s) : I (refreshAllSpares s) :=
  foldl_rooted (fun _ _ h1 => refreshHbmSpares_steady hI h1) (foldl_rooted (fun _ _ h2 => refreshSpares_steady hI h2) hs)

theorem refreshClcore_steady {s : State} {cl : Nat} (hs : I s) : I (refreshClcore s cl) :=
  State.setField_steady hI (State.setField_steady hI (State.setField_steady hI (State.setField_steady hI (State.setField_steady hI hs))))

end

/-- Two states that differ in what such a predicate does not look at. -/
def SteadyFrom (s t : State) : Prop := t = { s with
  out := t.out, regs := t.regs, ecc := t.ecc, vert := t.vert, ras := t.ras, msix := t.msix
  pwr := { s.pwr with
    req := t.pwr.req, plan := t.pwr.plan, planAt := t.pwr.planAt, profAt := t.pwr.profAt, fabV := t.pwr.fabV, inrush := t.pwr.inrush
    exitAt := t.pwr.exitAt, rise := t.pwr.rise } }

theorem SteadyFrom.rfl {s : State} : SteadyFrom s s := Eq.refl _

theorem steadyFrom_steady (s : State) : Steady (SteadyFrom s) := ⟨fun {u} {out regs ecc vert pwr ras msix} hp hu => by
  unfold SteadyFrom at hu ⊢
  rw [hp, hu]⟩

/-! ## The steps of a reset (R497, R502) -/

theorem SteadyFrom.calm {s t : State} (h : SteadyFrom s t) : Calm s t := by unfold SteadyFrom at h; rw [h]; exact ⟨Eq.refl _, Eq.refl _, Eq.refl _, Eq.refl _⟩

/-- READY_TICK and the mode of a state whose registers show it ready. -/
def readyMode (s : State) : State := { s with md := { s.md with ready := s.clk.tick, opened := true } }

/-- The registers that show it. -/
def readyShown (s : State) : State := (s.setField rHlink 10 10 1).setField oAdmStat 17 17 1

theorem setReady_eq (s : State) : setReady s = readyMode (readyShown s) := rfl

theorem readyShown_regsOnly (s : State) : RegsOnly s (readyShown s) := (setField_regsOnly ..).trans (setField_regsOnly ..)

theorem readyShown_link (s : State) : (readyShown s).regBit rHlink 10 = true := by
  unfold readyShown
  rw [regBit_setField_other _ _ _ _ _ (by decide), regBit_setField _ _ _ (by decide) (by decide), if_pos (by decide)]
  rfl

theorem readyShown_admission (s : State) : (readyShown s).regBit oAdmStat 17 = true := by
  unfold readyShown
  rw [regBit_setField _ _ _ (by decide) (by decide), if_pos (by decide)]
  rfl

theorem readyMode_of {s u : State} (h : RegsOnly s u) : Calm s (readyMode u) ∧ (readyMode u).md = { s.md with ready := s.clk.tick, opened := true } ∧
    (readyMode u).fw = s.fw ∧ (readyMode u).towersDown = s.towersDown ∧ (readyMode u).clk = s.clk := by
  unfold RegsOnly at h
  unfold readyMode
  rw [h]
  exact ⟨⟨rfl, rfl, rfl, rfl⟩, rfl, rfl, rfl, rfl⟩

theorem readyMode_regBit (s : State) (off i : Nat) : (readyMode s).regBit off i = s.regBit off i := rfl

/-- READY and admission are shown; nothing else differs but READY_TICK and the mode. -/
theorem setReady_spec (s : State) : Calm s (setReady s) ∧ (setReady s).md = { s.md with ready := s.clk.tick, opened := true } ∧
    (setReady s).fw = s.fw ∧ (setReady s).towersDown = s.towersDown ∧ (setReady s).clk = s.clk ∧
    (setReady s).regBit rHlink 10 = true ∧ (setReady s).regBit oAdmStat 17 = true := by
  obtain ⟨h1, h2, h3, h4, h5⟩ := readyMode_of (readyShown_regsOnly s)
  rw [setReady_eq]
  exact ⟨h1, h2, h3, h4, h5, (readyMode_regBit ..).trans (readyShown_link s), (readyMode_regBit ..).trans (readyShown_admission s)⟩

/-- SEC's fuses: nothing differs but the processors' floors and the flag of a burn that waits. -/
theorem burnFloors_only (s : State) : burnFloors s = { s with fw := (burnFloors s).fw, regs := (burnFloors s).regs } := by
  unfold burnFloors
  split
  · split <;> rfl
  · exact foldl_rel (R := fun s t => t = { s with fw := t.fw, regs := t.regs }) (fun _ => rfl) (fun h k => by rw [k, h])
      (fun s p => by dsimp only; split <;> rfl) _ _

/-! ## PERST_N and the hot reset -/

theorem moduleReset_wiped (s : State) (cause : Nat) : Wiped s (moduleReset s cause) ∧
    (moduleReset s cause).md = { State.reset.md with straps := s.md.straps, perst := s.md.perst, input := s.md.input, kind := 1, cause := cause } ∧
    (moduleReset s cause).clk = State.reset.clk := by
  obtain ⟨h, hmd, hclk⟩ := afterReset_spec s evM
  unfold moduleReset
  generalize afterReset s evM = z at h hmd hclk
  exact ⟨h.powered _ z.pwr, by show { z.md with kind := 1, cause := cause } = _; rw [hmd], hclk⟩

/-- How the link trained, and what starts with the counter (R482, R502). -/
theorem bringUp_booted (s : State) (tr : HostTrain) :
    let t := bringUp s tr
    (t.clk = ⟨0, true⟩ ∧ t.md.booting = true ∧ t.md.perst = false ∧ t.modId = t.md.straps ∧ t.regField rHlink 1 0 = tr.mode.val ∧
      t.regField rHlink 4 2 = tr.rate.val ∧ t.regField rHlink 9 5 = 2 ^ tr.width.val % 32 ∧ t.lup.members = [t.modId]) ∧
    t.md = { s.md with perst := false, booting := true } ∧ Calm s { t with cores := s.cores } := by
  obtain ⟨hb, h1, h2, h3⟩ := bringUp_spec s tr
  intro t
  have ht : t = bringUp s tr := rfl
  rw [← ht] at hb h1 h2 h3
  generalize t = u at hb h1 h2 h3
  have hmd : u.md = { s.md with perst := false, booting := true } := by rw [hb.only]; rfl
  refine ⟨⟨?_, ?_, ?_, ?_, h1, h2, h3, ?_⟩, hmd, ?_⟩
  · rw [hb.only]; rfl
  · rw [hmd]
  · rw [hmd]
  · rw [hmd, hb.only]; rfl
  · rw [hb.only]; rfl
  · rw [hb.only]; exact ⟨rfl, rfl, rfl, rfl⟩

section
variable {s : State}

/-- The ResetsTakeTheirSteps clause of PERST_ASSERT. -/
theorem perstAssert_wipes (hp : s.md.perst = false) (hin : s.md.input = true) : ∃ t, exec .perstAssert s = .next t ∧
    (Wiped s t ∧ t.md.kind = 1) ∧ t.md.perst = true ∧ t.md.cause = 1 ∧ t.md.off = false ∧ t.clk.run = false := by
  obtain ⟨h, hmd, hclk⟩ := moduleReset_wiped s 1
  have he : exec .perstAssert s = .next { moduleReset s 1 with md := { (moduleReset s 1).md with perst := true, off := false } } :=
    congrArg Host.Outcome.next ((if_neg (by rw [hp]; decide)).trans (if_neg (by rw [hin]; decide)))
  refine ⟨_, he, ?_⟩
  generalize moduleReset s 1 = z at h hmd hclk
  refine ⟨⟨h.powered _ z.pwr, ?_⟩, rfl, ?_, rfl, ?_⟩
  · show z.md.kind = 1; rw [hmd]
  · show z.md.cause = 1; rw [hmd]
  · show z.clk.run = false; rw [hclk]; rfl

/-- What a module reset whose bring-up begins at once leaves. -/
theorem resetAndBoot_wiped (s : State) (cause : Nat) (tr : HostTrain) : Wiped s (resetAndBoot s cause tr) ∧ (resetAndBoot s cause tr).md.kind = 1 ∧
    (resetAndBoot s cause tr).md.cause = cause := by
  obtain ⟨h, hmd, -⟩ := moduleReset_wiped s cause
  obtain ⟨-, hbmd, -⟩ := bringUp_booted (moduleReset s cause) tr
  have hb := (bringUp_spec (moduleReset s cause) tr).1
  unfold resetAndBoot
  refine ⟨h.boots hb, ?_, ?_⟩
  · rw [hbmd, hmd]
  · rw [hbmd, hmd]

/-! ## READY -/

/-- Both towers trained, and the repairs that fuses can take committed. -/
def towersTrained (boot : BringUp) (s : State) : State := commitRepairs ((List.range 2).foldl (fun s t => trainTower s t boot.lanes) s)

/-- The rings of each die A that fail their check no longer estimate. -/
def judged (boot : BringUp) (s : State) : State :=
  (s.setField 0x00302100 19 19 (if boot.suspect.1 ∧ s.regBit 0x00302100 19 then 1 else 0)).setField 0x00302108 19 19
    (if boot.suspect.2 ∧ s.regBit 0x00302108 19 then 1 else 0)

/-- The module is up and its domains are on. -/
def poweredUp (s : State) : State := { s with
  md := { s.md with booting := false },
  pwr := { s.pwr with dom := s.pwr.dom.filter (fun p => p.2 == 3) } }

/-- CURTAIL_N is sampled. -/
def pinSampled (s : State) : State := if s.pwr.curtailPin then refreshCeiling (s.setField oPwrLim 25 25 1) else s

theorem exec_ready (boot : BringUp) (s : State) : exec (.ready boot) s = .next (if !bootDone s then s
    else setReady (burnFloors (publish (pinSampled (poweredUp (judged boot (towersTrained boot s)))) boot.plan (List.range 64)))) := rfl

section
variable {I : State → Prop} (hI : Steady I)
include hI

theorem trained_steady {boot : BringUp} (h : I s) : I (judged boot (towersTrained boot s)) :=
  State.setField_steady hI (State.setField_steady hI (commitRepairs_steady hI (foldl_rooted (fun _ _ h1 => trainTower_steady hI h1) h)))

theorem published_steady {boot : BringUp} (h : I s) : I (publish (pinSampled s) boot.plan (List.range 64)) :=
  publish_steady hI (ite_rooted (refreshCeiling_steady hI (State.setField_steady hI h)) h)

end

/-- What stands when READY is about to be shown. -/
theorem published_calm {u v w : State} (h1 : SteadyFrom s u) (h2 : SteadyFrom (poweredUp u) v) (h3 : w = { v with fw := w.fw, regs := w.regs }) :
    Calm s w ∧ w.md = { s.md with booting := false } ∧ w.clk = s.clk := by
  unfold SteadyFrom at h1 h2
  rw [h3, h2, h1]
  exact ⟨⟨rfl, rfl, rfl, rfl⟩, rfl, rfl⟩

theorem setReady_ready {w : State} (h : Calm s w ∧ w.md = { s.md with booting := false } ∧ w.clk = s.clk) : Calm s (setReady w) ∧
    (setReady w).md.booting = false ∧ (setReady w).md.opened = true ∧ (setReady w).md.ready = s.clk.tick ∧ (setReady w).regBit rHlink 10 = true ∧
    (setReady w).regBit oAdmStat 17 = true := by
  obtain ⟨⟨c1, c2, c3, c4⟩, hmd, hclk⟩ := h
  obtain ⟨⟨d1, d2, d3, d4⟩, hmd', -, -, -, hlink, hadm⟩ := setReady_spec w
  refine ⟨⟨d1.trans c1, d2.trans c2, d3.trans c3, d4.trans c4⟩, ?_, ?_, ?_, hlink, hadm⟩
  · rw [hmd', hmd]
  · rw [hmd']
  · rw [hmd', hclk]

/-- The ResetsTakeTheirSteps clause of READY. -/
theorem ready_opens (boot : BringUp) (hd : bootDone s = true) : ∃ t, exec (.ready boot) s = .next t ∧ Calm s t ∧ t.md.booting = false ∧
    t.md.opened = true ∧ t.md.ready = s.clk.tick ∧ t.regBit rHlink 10 = true ∧ t.regBit oAdmStat 17 = true := by
  have he := exec_ready boot s
  rw [if_neg (by rw [hd]; decide)] at he
  have h1 := trained_steady (steadyFrom_steady s) (boot := boot) (.rfl : SteadyFrom s s)
  have h2 := published_steady (steadyFrom_steady (poweredUp (judged boot (towersTrained boot s)))) (boot := boot) .rfl
  exact ⟨_, he, setReady_ready (published_calm h1 h2 (burnFloors_only _))⟩

/-! ## The CXL reset (R319, R497) -/

/-- What a step of a reset keeps of the mode and of the towers under reset. -/
def SameMode (s t : State) : Prop := t.md = s.md ∧ t.towersDown = s.towersDown

theorem sameMode_rooted (s : State) : Rooted (SameMode s) := ⟨fun _ h => h⟩

/-- Steps 1 and 2 of a reset: scrubs stop, tasks end, and the towers are written back. -/
def drained (r : RunReset) (s : State) : State := r.towers.foldl writeBackTower (r.towers.foldl endTower (stopScrubs s))

/-- Registers, cores and samples of the towers after step 4. -/
def emptied (r : RunReset) (s : State) : State :=
  let s := if r.both then resetRegs s evC (fun _ => true)
    else r.towers.foldl (fun s tw => resetRegs s evT (fun o => regTower o == some tw || (regTower o).isNone)) s
  let s := r.towers.foldl (fun s tw => clearCounts (fillTower s tw r.clean) tw true r.both) s
  clearSamples (clearDomains s (hitBy r.towers)) (hitBy r.towers)

/-- The towers of a reset go down, which the floors and admission show. -/
def downed (r : RunReset) (s : State) : State :=
  let s := { s with towersDown := r.towers.foldl (fun l t => insNat t l) s.towersDown }
  refreshAdmission ((List.range 2).foldl refreshTower ((List.range 64).foldl refreshFloor s))

theorem startRun_eq (s : State) (r : RunReset) (kind cause : Nat) : startRun s r kind cause =
    downed r (emptied r { drained r s with md := { (drained r s).md with
      resets := (drained r s).md.resets ++ [r], kind := kind, cause := cause, clean := r.clean } }) := rfl

theorem startRun_mode (s : State) (r : RunReset) (kind cause : Nat) :
    (startRun s r kind cause).md = { s.md with resets := s.md.resets ++ [r], kind := kind, cause := cause, clean := r.clean } ∧
    (startRun s r kind cause).towersDown = r.towers.foldl (fun l t => insNat t l) s.towersDown := by
  have h1 : SameMode s (drained r s) := foldl_rooted (fun _ _ h => writeBackTower_rooted (sameMode_rooted s) h)
    (foldl_rooted (fun _ _ h => endTower_rooted (sameMode_rooted s) h) (stopScrubs_rooted (sameMode_rooted s) ⟨rfl, rfl⟩))
  rw [startRun_eq]
  generalize drained r s = u at h1
  generalize hv : ({ u with md := { u.md with resets := u.md.resets ++ [r], kind := kind, cause := cause, clean := r.clean } } : State) = v
  have hR := sameMode_rooted v
  have h2 : SameMode v (emptied r v) := clearSamples_rooted hR (clearDomains_rooted hR (foldl_rooted (fun _ _ h => clearCounts_rooted hR (fillTower_rooted hR h))
    (ite_rooted (resetRegs_rooted hR ⟨rfl, rfl⟩) (foldl_rooted (fun _ _ h => resetRegs_rooted hR h) ⟨rfl, rfl⟩))))
  generalize emptied r v = w at h2
  have hR' := sameMode_rooted { w with towersDown := r.towers.foldl (fun l t => insNat t l) w.towersDown }
  obtain ⟨h3, h4⟩ : SameMode { w with towersDown := r.towers.foldl (fun l t => insNat t l) w.towersDown } (downed r w) :=
    refreshAdmission_rooted hR' (foldl_rooted (fun _ _ h => refreshTower_rooted hR' h) (foldl_rooted (fun _ _ h => refreshFloor_rooted hR' h) ⟨rfl, rfl⟩))
  obtain ⟨m1, d1⟩ := h1
  obtain ⟨m2, d2⟩ := h2
  refine ⟨?_, ?_⟩
  · rw [h3]
    show w.md = _
    rw [m2, ← hv, ← m1]
  · rw [h4]
    show r.towers.foldl (fun l t => insNat t l) w.towersDown = _
    rw [d2, ← hv, ← d1]

/-- The ResetsTakeTheirSteps clause of CXL_RESET. -/
theorem cxlReset_begins (mc : Bool) (hmode : s.regField rHlink 1 0 = 2) (hb : s.md.booting = false) (ho : s.md.opened = true) (hr : s.md.resets = [])
    (hw : s.md.waiting = []) (hbusy : stateBusy s = false) :
    ∃ t, exec (.cxlReset mc) s = .next t ∧ t.md.resets = [⟨[0, 1], true, mc, false, none⟩] ∧ t.md.kind = 2 ∧ t.md.cause = 5 ∧
        t.md.clean = mc ∧ 0 ∈ t.towersDown ∧ 1 ∈ t.towersDown := by
  have hc : computeReset s mc none = some (startRun s ⟨[0, 1], true, mc, false, none⟩ 2 5) := by
    unfold computeReset
    dsimp only
    rw [if_neg (by simp [hr, hw, hbusy]), if_neg (fun h => h hr)]
    rfl
  have he : exec (.cxlReset mc) s = .next ((computeReset s mc none).getD s) := congrArg Host.Outcome.next (if_neg (by simp [hmode, hb, ho]))
  rw [hc] at he
  refine ⟨_, he, ?_⟩
  obtain ⟨h1, h2⟩ := startRun_mode s ⟨[0, 1], true, mc, false, none⟩ 2 5
  rw [Option.getD_some]
  generalize startRun s ⟨[0, 1], true, mc, false, none⟩ 2 5 = t at h1 h2
  rw [h1, h2, hr]
  refine ⟨rfl, rfl, rfl, rfl, ?_, ?_⟩
  · exact (mem_insNat ..).2 (.inr ((mem_insNat ..).2 (.inl rfl)))
  · exact (mem_insNat ..).2 (.inl rfl)

/-! ## TOWER_READY (R497) -/

/-- The tower trained and judged, and its sourced granules copied again after a fill. -/
def towerTrained (tw : TowerId) (train : Training) (sus : Bool) (r : RunReset) (s : State) : State :=
  let s := trainTower s tw train.lanes
  let s := s.setField (0x00302100 + 8 * tw.val) 19 19 (if sus ∧ s.regBit (0x00302100 + 8 * tw.val) 19 then 1 else 0)
  if r.clean then (s.llc.sources.filter (fun p => p.1 / 1024 == tw.val)).foldl (fun s p => reloadGranule s p.1) s else s

/-- The reset's last tower: the towers are up, and their setpoints published. -/
def towersUp (r : RunReset) (train : Training) (ts : List Nat) (rest : List RunReset) (s : State) : State :=
  let s := { s with md := { s.md with resets := rest }, towersDown := s.towersDown.filter (fun t => !ts.contains t) }
  let s := if r.exits then { s with pwr := { s.pwr with state := 0 } } else s
  publish s train.plan ((List.range 64).filter (fun c => ts.contains (c / 32)))

/-- The job of a reset that is over ends. -/
def resetAnswered (job : Option Nat) (s : State) : State :=
  match job with
  | some j => endJob s j mOK 0 []
  | none => s

/-- READY shows again, and the job ends. -/
def resetOver (r : RunReset) (rest : List RunReset) (s : State) : State :=
  let s := if r.exits ∧ s.regBit oPwrLim 25 then curtailClusters s else s
  resetAnswered r.job (if rest = [] ∧ s.pwr.state = 0 then setReady s else s)

/-- A compute reset that waited starts. -/
def nextReset (rest : List RunReset) (s : State) : State :=
  if rest ≠ [] then s
  else match s.md.waiting with
    | [] => s
    | w :: _ => startRun { s with md := { s.md with waiting := [] } } w 2 (runCause w)

/-- What a trained tower brings about in the reset that it belongs to. -/
def towerServed (tw : TowerId) (train : Training) (r : RunReset) (s : State) : State :=
  let r' := { r with towers := r.towers.filter (· != tw.val) }
  let rest := s.md.resets.filter (fun x => !(x.towers.contains tw.val))
  if r'.towers ≠ [] then { s with md := { s.md with resets := rest ++ [r'] } }
  else nextReset rest (resetOver r rest (towersUp r train (if r.both then [0, 1] else [tw.val]) rest s))

theorem exec_towerReady {tw : TowerId} {train : Training} {sus : Bool} {r : RunReset} (hr : s.md.resets = [r]) (hc : r.towers.contains tw.val = true)
    (ht : testsPending s tw = false) :
    exec (.towerReady tw train sus) s = .next (towerServed tw train r (towerTrained tw train sus r s)) := by
  have hf : s.md.resets.find? (fun r => r.towers.contains tw.val) = some r := by rw [hr]; exact List.find?_cons_of_pos hc
  show execTowerReady tw train sus s = _
  unfold execTowerReady
  rw [hf]
  exact congrArg Host.Outcome.next (if_neg (by rw [ht]; decide))

/-- The copies of granules change memory and poison alone. -/
theorem reloadGranule_only (s : State) (g : Nat) : reloadGranule s g = { s with mem := (reloadGranule s g).mem, poison := (reloadGranule s g).poison } := by
  unfold reloadGranule
  split <;> rfl

/-- The tower trained and judged. -/
def trainedJudged (tw : TowerId) (train : Training) (sus : Bool) (s : State) : State :=
  let s := trainTower s tw train.lanes
  s.setField (0x00302100 + 8 * tw.val) 19 19 (if sus ∧ s.regBit (0x00302100 + 8 * tw.val) 19 then 1 else 0)

/-- The sourced granules copied again. -/
def copied (tw : TowerId) (s : State) : State := (s.llc.sources.filter (fun p => p.1 / 1024 == tw.val)).foldl (fun s p => reloadGranule s p.1) s

theorem copied_only (tw : TowerId) (s : State) : copied tw s = { s with mem := (copied tw s).mem, poison := (copied tw s).poison } :=
  foldl_rel (R := fun s t => t = { s with mem := t.mem, poison := t.poison }) (fun _ => rfl) (fun h k => by rw [k, h])
    (fun s p => reloadGranule_only s p.1) _ _

/-- The granules are copied again after a fill. -/
def copiedIf (tw : TowerId) (clean : Bool) (s : State) : State := if clean then copied tw s else s

theorem copiedIf_only (tw : TowerId) (clean : Bool) (s : State) :
    copiedIf tw clean s = { s with mem := (copiedIf tw clean s).mem, poison := (copiedIf tw clean s).poison } := by
  cases clean
  · rfl
  · exact copied_only tw s

theorem copiedIf_none (tw : TowerId) {clean : Bool} (h : clean = false) (s : State) : copiedIf tw clean s = s := by rw [h]; rfl

theorem towerTrained_eq (tw : TowerId) (train : Training) (sus : Bool) (r : RunReset) (s : State) :
    towerTrained tw train sus r s = copiedIf tw r.clean (trainedJudged tw train sus s) := rfl

theorem trainedJudged_from (tw : TowerId) (train : Training) (sus : Bool) (s : State) : SteadyFrom s (trainedJudged tw train sus s) :=
  State.setField_steady (steadyFrom_steady s) (trainTower_steady (steadyFrom_steady s) .rfl)

/-- What training leaves of a tower under reset: memory and poison change only by the copies after a fill. -/
theorem towerTrained_steady (tw : TowerId) (train : Training) (sus : Bool) (r : RunReset) (s : State) :
    ∃ u, SteadyFrom s u ∧ towerTrained tw train sus r s = { u with mem := (towerTrained tw train sus r s).mem, poison := (towerTrained tw train sus r s).poison } ∧
      (r.clean = false → towerTrained tw train sus r s = u) := by
  rw [towerTrained_eq]
  exact ⟨_, trainedJudged_from tw train sus s, copiedIf_only .., fun hc => copiedIf_none tw hc _⟩

/-- The last tower of a reset that nothing follows. -/
theorem resetOver_ready {r : RunReset} {p : State} (hx : r.exits = false) (hp : p.pwr.state = 0) (hw : p.md.waiting = []) :
    nextReset [] (resetOver r [] p) = resetAnswered r.job (setReady p) := by
  have h1 : resetOver r [] p = resetAnswered r.job (setReady p) := by
    unfold resetOver
    dsimp only
    rw [if_neg (c := r.exits = true ∧ p.regBit oPwrLim 25 = true) (by simp [hx]), if_pos ⟨rfl, hp⟩]
  have h2 : (resetAnswered r.job (setReady p)).md.waiting = [] := by
    have h3 : (setReady p).md.waiting = [] := by rw [(setReady_spec p).2.1]; exact hw
    unfold resetAnswered
    split
    · exact h3
    · exact h3
  rw [h1]
  unfold nextReset
  rw [if_neg (fun h => h rfl), h2]

/-- A job that ends changes the jobs alone. -/
theorem resetAnswered_only (job : Option Nat) (s : State) : resetAnswered job s = { s with fw := { s.fw with jobs := (resetAnswered job s).fw.jobs } } := by
  unfold resetAnswered
  split <;> rfl

theorem resetAnswered_jobs {s u : State} (hfw : u.fw = s.fw) (hclk : u.clk = s.clk) (job : Option Nat) :
    ∀ j, job = some j → (resetAnswered job u).fw.jobs = (endJob s j mOK 0 []).fw.jobs := fun j hj => by
  rw [hj]
  show (endJob u j mOK 0 []).fw.jobs = _
  unfold endJob
  rw [hfw, hclk]

section
variable {tw : TowerId} {train : Training} {sus : Bool} {r : RunReset}

/-- The mode once a reset's towers are up. -/
def upMode (s : State) (ts : List Nat) : State := { s with md := { s.md with resets := [] }, towersDown := s.towersDown.filter (fun t => !ts.contains t) }

theorem towersUp_from {ts : List Nat} (hx : r.exits = false) (s : State) : SteadyFrom (upMode s ts) (towersUp r train ts [] s) := by
  have he : towersUp r train ts [] s = publish (upMode s ts) train.plan ((List.range 64).filter (fun c => ts.contains (c / 32))) := by
    unfold towersUp upMode
    dsimp only
    rw [if_neg (by rw [hx]; decide)]
  rw [he]
  exact publish_steady (steadyFrom_steady _) .rfl

/-- What the towers that are up again leave and show. -/
theorem upMode_spec {s p : State} {ts : List Nat} (h : SteadyFrom (upMode s ts) p) : p.pwr.state = s.pwr.state ∧ p.md.waiting = s.md.waiting ∧
    p.md.resets = [] ∧ p.cores = s.cores ∧ p.tasks = s.tasks ∧ p.mem = s.mem ∧ p.towersDown = s.towersDown.filter (fun t => !ts.contains t) ∧
    p.fw = s.fw ∧ p.clk = s.clk := by
  unfold SteadyFrom at h
  rw [h]
  exact ⟨rfl, rfl, rfl, rfl, rfl, rfl, rfl, rfl, rfl⟩

theorem resetAnswered_keeps (job : Option Nat) (s : State) : (resetAnswered job s).towersDown = s.towersDown ∧ (resetAnswered job s).cores = s.cores ∧
    (resetAnswered job s).tasks = s.tasks ∧ (resetAnswered job s).md = s.md ∧ (resetAnswered job s).regs = s.regs ∧ (resetAnswered job s).mem = s.mem := by
  rw [resetAnswered_only]; exact ⟨rfl, rfl, rfl, rfl, rfl, rfl⟩

/-- The ResetsTakeTheirSteps clause of the last tower. -/
theorem towerReady_last (hr : s.md.resets = [r]) (ht : testsPending s tw = false) (htow : r.towers = [tw.val]) (hw : s.md.waiting = [])
    (hx : r.exits = false) (hp : s.pwr.state = 0) : ∃ t, exec (.towerReady tw train sus) s = .next t ∧ t.cores = s.cores ∧
      t.tasks = s.tasks ∧ t.md.resets = [] ∧ t.md.opened = true ∧ t.regBit rHlink 10 = true ∧ t.regBit oAdmStat 17 = true ∧
      (tw.val ∉ t.towersDown) ∧ (r.both = true → 0 ∉ t.towersDown ∧ 1 ∉ t.towersDown) ∧
      (∀ j, r.job = some j → t.fw.jobs = (endJob s j mOK 0 []).fw.jobs) ∧ (r.clean = false → t.mem = s.mem) := by
  have he := exec_towerReady (s := s) (train := train) (sus := sus) hr (by rw [htow]; simp) ht
  obtain ⟨u, hu, hv, hvc⟩ := towerTrained_steady tw train sus r s
  generalize towerTrained tw train sus r s = v at he hv hvc
  have hvs : v.md = s.md ∧ v.cores = s.cores ∧ v.tasks = s.tasks ∧ v.towersDown = s.towersDown ∧ v.fw = s.fw ∧ v.clk = s.clk ∧ v.pwr.state = s.pwr.state := by
    rw [hv, hu]; exact ⟨rfl, rfl, rfl, rfl, rfl, rfl, rfl⟩
  have hvm : r.clean = false → v.mem = s.mem := fun hc => by rw [hvc hc, hu]
  obtain ⟨v1, v2, v3, v4, v5, v6, v7⟩ := hvs
  have hrest : v.md.resets.filter (fun x => !(x.towers.contains tw.val)) = [] := by rw [v1, hr]; simp [htow]
  have hnone : ¬ r.towers.filter (· != tw.val) ≠ [] := by rw [htow]; simp
  generalize hts : (if r.both then [0, 1] else [tw.val]) = ts
  have hps := towersUp_from (r := r) (train := train) (ts := ts) hx v
  have hserved : towerServed tw train r v = nextReset [] (resetOver r [] (towersUp r train ts [] v)) := by
    unfold towerServed
    dsimp only
    rw [if_neg hnone, hrest, hts]
  generalize towersUp r train ts [] v = p at hps hserved
  obtain ⟨q1, q2, p3, q4, q5, p6, q7, q8, q9⟩ := upMode_spec hps
  have p1 := q1.trans (v7.trans hp)
  have p2 := q2.trans ((congrArg Md.waiting v1).trans hw)
  have p4 := q4.trans v2
  have p5 := q5.trans v3
  have p7 : p.towersDown = s.towersDown.filter (fun t => !ts.contains t) := by rw [q7, v4]
  have p8 := q8.trans v5
  have p9 := q9.trans v6
  obtain ⟨⟨d1, -, d3, d4⟩, dmd, dfw, ddown, dclk, dlink, dadm⟩ := setReady_spec p
  refine ⟨_, he.trans (congrArg Host.Outcome.next (hserved.trans (resetOver_ready hx p1 p2))), ?_⟩
  have hjobs := resetAnswered_jobs (dfw.trans p8) (dclk.trans p9) r.job
  have hmem : ∀ x, x ∈ ts → x ∉ s.towersDown.filter (fun t => !ts.contains t) := fun x hx h => by
    simpa [hx] using (List.mem_filter.1 h).2
  generalize setReady p = q at d1 d3 d4 dmd dfw ddown dclk dlink dadm hjobs
  obtain ⟨t1, t2, t3, t4, t5, t6⟩ := resetAnswered_keeps r.job q
  generalize resetAnswered r.job q = t at t1 t2 t3 t4 t5 t6 hjobs
  have hdown : t.towersDown = s.towersDown.filter (fun t => !ts.contains t) := t1.trans (ddown.trans p7)
  have hreg : ∀ off i, t.regBit off i = q.regBit off i := fun off i => by unfold State.regBit State.reg; rw [t5]
  refine ⟨t2.trans (d3.trans p4), t3.trans (d4.trans p5), ?_, ?_, (hreg _ _).trans dlink, (hreg _ _).trans dadm, ?_, ?_, hjobs,
    fun hc => t6.trans (d1.trans (p6.trans (hvm hc)))⟩
  · rw [t4, dmd]; exact p3
  · rw [t4, dmd]
  · rw [hdown]; exact hmem _ (by rw [← hts]; split <;> [(have := tw.isLt; simp; omega); simp])
  · intro hb
    rw [hdown]
    exact ⟨hmem _ (by rw [← hts, if_pos hb]; simp), hmem _ (by rw [← hts, if_pos hb]; simp)⟩

/-- The ResetsTakeTheirSteps clause of the first of two towers. -/
theorem towerReady_first (hr : s.md.resets = [r]) (ht : testsPending s tw = false) (htow : r.towers = [0, 1]) (hc : r.clean = false) :
    ∃ t, exec (.towerReady tw train sus) s = .next t ∧ Still s t ∧ t.md.resets = [{ r with towers := [1 - tw.val] }] ∧ t.towersDown = s.towersDown := by
  have htw : tw.val = 0 ∨ tw.val = 1 := by have := tw.isLt; omega
  have he := exec_towerReady (s := s) (train := train) (sus := sus) hr (by rw [htow]; rcases htw with h | h <;> simp [h]) ht
  obtain ⟨u, hu, -, hvc⟩ := towerTrained_steady tw train sus r s
  rw [hvc hc] at he
  have hus : u.md = s.md := by rw [hu]
  have hrest : u.md.resets.filter (fun x => !(x.towers.contains tw.val)) = [] := by
    rw [hus, hr]; rcases htw with h | h <;> simp [htow, h]
  have hleft : r.towers.filter (· != tw.val) = [1 - tw.val] := by rw [htow]; rcases htw with h | h <;> simp [h]
  have hserved : towerServed tw train r u = { u with md := { u.md with resets := [{ r with towers := [1 - tw.val] }] } } := by
    unfold towerServed
    dsimp only
    rw [hleft, hrest]
    exact if_pos (by simp)
  refine ⟨_, he.trans (congrArg Host.Outcome.next hserved), ?_, rfl, ?_⟩
  · rw [hu]; exact ⟨⟨rfl, rfl, rfl, rfl⟩, rfl⟩
  · show u.towersDown = _; rw [hu]

end

end

/-- Settles O52, step by step: each reset by what its functions leave of the mode, and of what they do not look at. -/
theorem resetsTakeTheirSteps : Obligations.ResetsTakeTheirSteps := by
  unfold Obligations.ResetsTakeTheirSteps
  intro s
  dsimp only
  have wiped : ∀ {t : State}, Wiped s t → t.md.kind = 1 → t.mem = [] ∧ t.poison = [] ∧ t.tasks = [] ∧ (∀ c, (t.core c).groups = [] ∧ (t.core c).task = none) ∧
      t.ecc.repairs = s.ecc.repairs ∧ t.ras.flash = s.ras.flash ∧ t.fw.slots = s.fw.slots ∧ t.fw.lics = s.fw.lics ∧ t.md.kind = 1 :=
    fun h hk => ⟨h.mem, h.poison, h.tasks, h.cores, h.repairs, h.flash, h.slots, h.lics, hk⟩
  refine ⟨fun hp hin => ?_, fun m tr hp hin => ?_, fun ld tr hrun hoff => ?_, fun boot hd _ => ready_opens boot hd,
    fun mc hm hb ho hr hw hs => cxlReset_begins mc hm hb ho hr hw hs, fun tw train sus r hr ht => ⟨fun h1 h2 h3 h4 => ?_, fun h1 h2 => ?_⟩⟩
  · obtain ⟨t, he, ⟨hw, hk⟩, h⟩ := perstAssert_wipes hp hin
    exact ⟨t, he, wiped hw hk, h⟩
  · have he : exec (.perstDeassert m tr) s = .next (bringUp { s with md := { s.md with straps := m.val } } tr) :=
      congrArg Host.Outcome.next ((if_neg (by rw [hp]; decide)).trans (if_neg (by rw [hin]; decide)))
    obtain ⟨hb, hmd, hc⟩ := bringUp_booted { s with md := { s.md with straps := m.val } } tr
    refine ⟨_, he, hc, ?_, hb⟩
    rw [hb.2.2.2.1, hmd]
  · have he : exec (.hotReset ld tr) s = .next (resetAndBoot s (if ld then 3 else 2) tr) :=
      congrArg Host.Outcome.next (if_neg (by simp [hrun, hoff]))
    obtain ⟨hw, hk, hcause⟩ := resetAndBoot_wiped s (if ld then 3 else 2) tr
    exact ⟨_, he, wiped hw hk, (bringUp_booted _ tr).1, hcause⟩
  · exact towerReady_last hr ht h1 h2 h3 h4
  · exact towerReady_first hr ht h1 h2

end Sys2Proof.Machine
end

section
/-! SUPPORT. Clusters' setpoints, light idle and the plan: what of a state they cannot reach, registers among it. -/
namespace Sys2Proof.Machine

/-- The registers that power control and the log keep: none of the ceiling, the events, admission or the host link. -/
def PowerReg (off : Nat) : Prop := 0x00301000 ≤ off ∨ off = oPwrCf ∨ ∃ i, i < 16 ∧ off = oProf i

@[simp] theorem powerReg_rCfloor (c : Nat) : PowerReg (rCfloor c) := .inl (Nat.le_add_right ..)
@[simp] theorem powerReg_rCrate (c : Nat) : PowerReg (rCrate c) := .inl (Nat.le_trans (by decide) (Nat.le_add_right 0x00301004 _))
@[simp] theorem powerReg_oPwrCf : PowerReg oPwrCf := .inr (.inl rfl)
@[simp] theorem powerReg_rLogHead : PowerReg rLogHead := .inl (by decide)
@[simp] theorem powerReg_rLogStat : PowerReg rLogStat := .inl (by decide)
@[simp] theorem powerReg_rAlert : PowerReg rAlert := .inl (by decide)
theorem powerReg_oProf {i : Nat} (h : i < 16) : PowerReg (oProf i) := .inr (.inr ⟨i, h, rfl⟩)

/-- A predicate that does not look at what a setpoint, a commitment and a stop of ranks change. -/
structure Settling (I : State → Prop) : Prop where
  rest : ∀ {u : State} {out cores pwr ras msix tasks}, pwr = { u.pwr with req := pwr.req, fabV := pwr.fabV } → I u →
    I ⟨u.pending, u.clk, u.fresh, out, u.modId, u.regs, u.mem, u.poison, u.towersDown, cores, u.clusters, u.lmap, u.llc, u.ecc, u.vert, pwr, u.therm,
      u.adm, u.md, u.host, ras, msix, u.fw, u.cls, u.lup, u.pmc, u.programs, u.contexts, tasks⟩
  reg : ∀ {u : State} {off : Nat} {v : Word}, PowerReg off → I u → I (u.setReg off v)

/-- A predicate that does not look at what the plan, light idle and curtailment change. -/
structure Planning (I : State → Prop) : Prop where
  rest : ∀ {u : State} {out cores clusters llc pwr ras msix fw}, pwr = { u.pwr with
      req := pwr.req, plan := pwr.plan, planAt := pwr.planAt, profAt := pwr.profAt, fabV := pwr.fabV, inrush := pwr.inrush, exitAt := pwr.exitAt
      rise := pwr.rise, light := pwr.light } →
    I u → I ⟨u.pending, u.clk, u.fresh, out, u.modId, u.regs, u.mem, u.poison, u.towersDown, cores, clusters, u.lmap, llc, u.ecc, u.vert, pwr, u.therm,
      u.adm, u.md, u.host, ras, msix, fw, u.cls, u.lup, u.pmc, u.programs, u.contexts, u.tasks⟩
  reg : ∀ {u : State} {off : Nat} {v : Word}, PowerReg off → I u → I (u.setReg off v)

section
variable {I : State → Prop} (hI : Settling I)
include hI

theorem State.setReg_settling {s : State} {off : Nat} {v : Word} (hp : PowerReg off) (hs : I s) : I (s.setReg off v) := hI.reg hp hs

theorem State.setField_settling {s : State} {off hi lo v : Nat} (hp : PowerReg off) (hs : I s) : I (s.setField off hi lo v) := hI.reg hp hs

theorem setFabric_settling {s : State} {d f : Nat} (hs : I s) : I (setFabric s d f) :=
  hI.rest rfl hs

theorem holdFabric_settling {s : State} {c f : Nat} (hs : I s) : I (holdFabric s c f) :=
  foldl_rooted (fun _ _ h1 => ite_rooted h1 (setFabric_settling hI h1)) hs

theorem refreshFloor_settling {s : State} {c : Nat} (hs : I s) : I (refreshFloor s c) :=
  State.setField_settling hI (by simp) (State.setField_settling hI (by simp) (State.setField_settling hI (by simp) (holdFabric_settling hI hs)))

theorem settle_settling {s : State} {c : Nat} (hs : I s) : I (settle s c) :=
  refreshFloor_settling hI (State.setField_settling hI (by simp) (State.setField_settling hI (by simp) hs))

theorem State.setCore_settling {s : State} {c : Nat} {k : Core} (hs : I s) : I (State.setCore s c k) :=
  hI.rest rfl hs

theorem State.modCore_settling {s : State} {c : Nat} {f : Core → Core} (hs : I s) : I (State.modCore s c f) :=
  State.setCore_settling hI hs

theorem State.setTask_settling {s : State} {i : Nat} {t : Option Task} (hs : I s) : I (State.setTask s i t) :=
  hI.rest rfl hs

theorem State.modTask_settling {s : State} {i : Nat} {f : Task → Task} (hs : I s) : I (State.modTask s i f) := by
  unfold State.modTask
  split
  · exact hs
  · exact State.setTask_settling hI hs

theorem State.modCoreTask_settling {s : State} {c : Nat} {f : Task → Task} (hs : I s) : I (State.modCoreTask s c f) := by
  unfold State.modCoreTask
  split
  · exact hs
  · exact State.modTask_settling hI hs

theorem stopCore_settling {s : State} {c code : Nat} (hs : I s) : I (stopCore s c code) :=
  ite_rooted (State.modCore_settling hI (State.modCoreTask_settling hI hs)) hs

theorem State.emit_settling {s : State} {o : Out} (hs : I s) : I (State.emit s o) :=
  hI.rest rfl hs

theorem sendMsix_settling {s : State} {v : Nat} (hs : I s) : I (sendMsix s v) :=
  ite_rooted hs (ite_rooted (State.emit_settling hI hs) (hI.rest rfl hs))

theorem rasLogT_settling {s : State} {e : LogEv} {training : Bool} (hs : I s) : I (rasLogT s e training) :=
  ite_via (fun h2 => sendMsix_settling hI (State.setReg_settling hI (by simp) h2)) (fun h2 => h2) (State.setReg_settling hI (by simp) (ite_via (fun
      h1 => State.setField_settling hI (by simp) h1) (fun h1 => h1) (hI.rest rfl hs)))

theorem rasLog_settling {s : State} {e : LogEv} (hs : I s) : I (rasLog s e) :=
  rasLogT_settling hI hs

theorem requestSetpoint_settling {s : State} {c mv : Nat} (hs : I s) : I (requestSetpoint s c mv) :=
  ite_via (fun h1 => h1) (fun h1 => refreshFloor_settling hI (State.setField_settling hI (by simp) (hI.rest rfl h1))) (ite_rooted hs
      (rasLog_settling hI hs))

theorem holdCommit_settling {s : State} {c : Nat} (hs : I s) : I (holdCommit s c) := by
  unfold holdCommit
  refine ite_rooted (refreshFloor_settling hI hs) ?_
  split
  · exact requestSetpoint_settling hI (refreshFloor_settling hI hs)
  · refine foldl_rooted (fun _ _ h1 => ?_) (refreshFloor_settling hI hs)
    dsimp only
    split
    · exact ite_rooted (stopCore_settling hI h1) h1
    · exact h1

end

section
variable {I : State → Prop} (hI : Planning I)
include hI

theorem State.setReg_planning {s : State} {off : Nat} {v : Word} (hp : PowerReg off) (hs : I s) : I (s.setReg off v) := hI.reg hp hs

theorem State.setField_planning {s : State} {off hi lo v : Nat} (hp : PowerReg off) (hs : I s) : I (s.setField off hi lo v) := hI.reg hp hs

theorem State.emit_planning {s : State} {o : Out} (hs : I s) : I (State.emit s o) :=
  hI.rest rfl hs

theorem sendMsix_planning {s : State} {v : Nat} (hs : I s) : I (sendMsix s v) :=
  ite_rooted hs (ite_rooted (State.emit_planning hI hs) (hI.rest rfl hs))

theorem rasLogT_planning {s : State} {e : LogEv} {training : Bool} (hs : I s) : I (rasLogT s e training) :=
  ite_via (fun h2 => sendMsix_planning hI (State.setReg_planning hI (by simp) h2)) (fun h2 => h2) (State.setReg_planning hI (by simp) (ite_via (fun
      h1 => State.setField_planning hI (by simp) h1) (fun h1 => h1) (hI.rest rfl hs)))

theorem rasLog_planning {s : State} {e : LogEv} (hs : I s) : I (rasLog s e) :=
  rasLogT_planning hI hs

theorem setFabric_planning {s : State} {d f : Nat} (hs : I s) : I (setFabric s d f) :=
  hI.rest rfl hs

theorem holdFabric_planning {s : State} {c f : Nat} (hs : I s) : I (holdFabric s c f) :=
  foldl_rooted (fun _ _ h1 => ite_rooted h1 (setFabric_planning hI h1)) hs

theorem refreshFloor_planning {s : State} {c : Nat} (hs : I s) : I (refreshFloor s c) :=
  State.setField_planning hI (by simp) (State.setField_planning hI (by simp) (State.setField_planning hI (by simp) (holdFabric_planning hI hs)))

theorem requestSetpoint_planning {s : State} {c mv : Nat} (hs : I s) : I (requestSetpoint s c mv) :=
  ite_via (fun h1 => h1) (fun h1 => refreshFloor_planning hI (State.setField_planning hI (by simp) (hI.rest rfl h1))) (ite_rooted hs
      (rasLog_planning hI hs))

theorem requestInrush_planning {s : State} {c : Nat} (hs : I s) : I (requestInrush s c) :=
  ite_rooted hs (hI.rest rfl hs)

theorem holdCover_planning {s : State} (hs : I s) : I (holdCover s) :=
  foldl_rooted (fun _ _ h1 => ite_rooted h1 (requestSetpoint_planning hI h1)) hs

theorem resumeAt_planning {s : State} {c v : Nat} (hs : I s) : I (resumeAt s c v) :=
  refreshFloor_planning hI (hI.rest rfl hs)

theorem adoptPlan_planning {s : State} {p : List (List Nat)} (hs : I s) : I (adoptPlan s p) :=
  holdCover_planning hI (foldl_rooted (fun _ _ h1 => ite_rooted h1 (ite_rooted (requestInrush_planning hI (resumeAt_planning hI h1))
      (requestSetpoint_planning hI h1))) (hI.rest rfl hs))

theorem State.setCore_planning {s : State} {c : Nat} {k : Core} (hs : I s) : I (State.setCore s c k) :=
  hI.rest rfl hs

theorem State.modCore_planning {s : State} {c : Nat} {f : Core → Core} (hs : I s) : I (State.modCore s c f) :=
  State.setCore_planning hI hs

theorem State.modCluster_planning {s : State} {c : Nat} {f : Cluster → Cluster} (hs : I s) : I (State.modCluster s c f) :=
  hI.rest rfl hs

theorem modRun_planning {s : State} {task : Bool} {id : Nat} {f : ScrubRun → ScrubRun} (hs : I s) : I (modRun s task id f) :=
  hI.rest rfl hs

theorem stopRun_planning {s : State} {task : Bool} {id : Nat} (hs : I s) : I (stopRun s task id) :=
  modRun_planning hI (hI.rest rfl hs)

theorem endRun_planning {s : State} {task : Bool} {id : Nat} {r : ScrubReq} (hs : I s) : I (endRun s task id r).1 := by
  unfold endRun
  dsimp only
  split
  · exact stopRun_planning hI hs
  · exact hI.rest rfl (stopRun_planning hI hs)

theorem stopScrubJob_planning {s : State} {j : Job} (hs : I s) : I (stopScrubJob s j) :=
  hI.rest rfl (endRun_planning hI hs)

theorem stopScrubs_planning {s : State} (hs : I s) : I (stopScrubs s) :=
  foldl_rooted (fun _ _ h1 => stopRun_planning hI h1) (foldl_rooted (fun _ _ h2 => stopScrubJob_planning hI h2) hs)

theorem enterLight_planning {s : State} {c : Nat} (hs : I s) : I (enterLight s c) :=
  ite_rooted hs (stopScrubs_planning hI (hI.rest rfl (State.modCluster_planning hI (foldl_rooted (fun _ _ h1 => State.modCore_planning hI h1) hs))))

theorem curtailClusters_planning {s : State} (hs : I s) : I (curtailClusters s) := by
  unfold curtailClusters
  refine foldl_rooted (fun _ _ h1 => ?_) hs
  refine ite_rooted (enterLight_planning hI h1) ?_
  refine ite_rooted h1 ?_
  split
  · exact requestSetpoint_planning hI h1
  · exact h1

theorem reaskInrush_planning {s : State} (hs : I s) : I (reaskInrush s) :=
  foldl_rooted (fun _ _ h1 => ite_rooted h1 (requestInrush_planning hI h1)) hs

theorem withdrawGrants_planning {s : State} (hs : I s) : I (withdrawGrants s) :=
  hI.rest rfl hs

theorem refreshCommit_planning {s : State} {c : Nat} (hs : I s) : I (refreshCommit s c) :=
  State.setField_planning hI (by simp) hs

theorem refreshProfile_planning {s : State} (hs : I s) : I (refreshProfile s) := by
  have hfold : ∀ (l : List Nat) {u : State} {f : Nat → State → Nat}, (∀ i ∈ l, i < 16) → I u →
      I (l.foldl (fun s i => s.setField (oProf i) 11 0 (f i s)) u) := fun l => by
    induction l with
    | nil => exact fun _ h => h
    | cons a l ih =>
      exact fun hl h => ih (fun i hi => hl i (List.mem_cons_of_mem _ hi)) (State.setField_planning hI (powerReg_oProf (hl a List.mem_cons_self)) h)
  exact hI.rest rfl (hfold _ (fun i hi => List.mem_range.1 hi) (State.setField_planning hI powerReg_oPwrCf hs))

theorem refreshAdmission_planning {s : State} (hs : I s) : I (refreshAdmission s) :=
  holdCover_planning hI (refreshProfile_planning hI (foldl_rooted (fun _ _ h1 => refreshCommit_planning hI h1) hs))

end

end Sys2Proof.Machine
end

section
/-! Clusters' sleep, the ceiling and curtailment (R417, R423 to R426, R499, R500). -/
namespace Sys2Proof.Machine

/-! ## What the plan and a settled setpoint leave -/

/-- What the plan, light idle and curtailment leave. -/
structure PlanKeeps (s t : State) : Prop where
  mem : t.mem = s.mem
  tasks : t.tasks = s.tasks
  pend : t.pwr.pend = s.pwr.pend
  target : t.pwr.target = s.pwr.target
  pin : t.pwr.curtailPin = s.pwr.curtailPin
  reg : ∀ off, ¬ PowerReg off → t.reg off = s.reg off

theorem PlanKeeps.rfl {s : State} : PlanKeeps s s := ⟨Eq.refl _, Eq.refl _, Eq.refl _, Eq.refl _, Eq.refl _, fun _ _ => Eq.refl _⟩

theorem planKeeps_planning (s : State) : Planning (PlanKeeps s) where
  rest := fun hp h => ⟨h.mem, h.tasks, by rw [hp]; exact h.pend, by rw [hp]; exact h.target, by rw [hp]; exact h.pin, h.reg⟩
  reg := fun hp h => ⟨h.mem, h.tasks, h.pend, h.target, h.pin, fun off hoff =>
    (reg_setReg_other _ _ (fun he => hoff (by rw [he]; exact hp))).trans (h.reg off hoff)⟩

theorem not_powerReg {off : Nat} (h : off < 0x00301000) (hcf : off ≠ oPwrCf) (hpf : off < 0x00300040 ∨ 0x00300080 ≤ off) : ¬ PowerReg off := by
  unfold PowerReg oProf
  rintro (h1 | h1 | ⟨i, hi, h1⟩)
  · omega
  · exact hcf h1
  · omega

theorem oPwrLim_apart : ¬ PowerReg oPwrLim := not_powerReg (by decide) (by decide) (by decide)
theorem oPwrEvt_apart : ¬ PowerReg oPwrEvt := not_powerReg (by decide) (by decide) (by decide)

/-- What a commitment that is held leaves. -/
structure HoldKeeps (s t : State) : Prop where
  mem : t.mem = s.mem
  pwr : t.pwr = { s.pwr with req := t.pwr.req, fabV := t.pwr.fabV }
  clusters : t.clusters = s.clusters
  down : t.towersDown = s.towersDown
  reg : ∀ off, ¬ PowerReg off → t.reg off = s.reg off

theorem holdKeeps_settling (s : State) : Settling (HoldKeeps s) where
  rest := fun hp h => ⟨h.mem, by rw [hp, h.pwr], h.clusters, h.down, h.reg⟩
  reg := fun hp h => ⟨h.mem, h.pwr, h.clusters, h.down, fun off hoff =>
    (reg_setReg_other _ _ (fun he => hoff (by rw [he]; exact hp))).trans (h.reg off hoff)⟩

/-- The fabric's setpoints alone. -/
theorem holdFabric_only (s : State) (c f : Nat) : holdFabric s c f = { s with pwr := { s.pwr with fabV := (holdFabric s c f).pwr.fabV } } :=
  foldl_rel (R := fun s t => t = { s with pwr := { s.pwr with fabV := t.pwr.fabV } }) (fun _ => rfl) (fun h k => by rw [k, h])
    (fun s d => by dsimp only; split <;> rfl) _ _

theorem rCrate_ne_rCfloor (c : Nat) : rCfloor c ≠ rCrate c := by unfold rCfloor rCrate; omega

/-- The floor in force is written; the fabric keeps pace with it. -/
theorem refreshFloor_spec (s : State) (c : Nat) :
    refreshFloor s c = { s with regs := (refreshFloor s c).regs, pwr := { s.pwr with fabV := (refreshFloor s c).pwr.fabV } } ∧
    (∀ i, i < 10 ∨ 18 < i ∧ i < 24 → (refreshFloor s c).regBit (rCfloor c) i = s.regBit (rCfloor c) i) ∧
    (∀ i, i < 17 → (refreshFloor s c).regBit (rCrate c) i = s.regBit (rCrate c) i) := by
  obtain ⟨f, v, w, he⟩ : ∃ f v w, refreshFloor s c =
      (((holdFabric s c f).setField (rCfloor c) 18 10 f).setField (rCfloor c) 24 24 v).setField (rCrate c) 25 17 w := ⟨_, _, _, rfl⟩
  have hh := holdFabric_only s c f
  rw [he]
  generalize holdFabric s c f = u at hh
  refine ⟨?_, fun i hi => ?_, fun i hi => ?_⟩
  · have hr : RegsOnly u (((u.setField (rCfloor c) 18 10 f).setField (rCfloor c) 24 24 v).setField (rCrate c) 25 17 w) :=
      (setField_regsOnly ..).trans ((setField_regsOnly ..).trans (setField_regsOnly ..))
    generalize ((u.setField (rCfloor c) 18 10 f).setField (rCfloor c) 24 24 v).setField (rCrate c) 25 17 w = t at hr
    unfold RegsOnly at hr
    rw [hr, hh]
  · rw [regBit_setField_other _ _ _ _ _ (rCrate_ne_rCfloor c), regBit_setField _ _ _ (by decide) (by decide), if_neg (by omega),
      regBit_setField _ _ _ (by decide) (by decide), if_neg (by omega), hh]
    rfl
  · rw [regBit_setField _ _ _ (by decide) (by decide), if_neg (by omega), regBit_setField_other _ _ _ _ _ (rCrate_ne_rCfloor c).symm,
      regBit_setField_other _ _ _ _ _ (rCrate_ne_rCfloor c).symm, hh]
    rfl

theorem refreshFloor_field (s : State) (c : Nat) {hi lo : Nat} (h : hi < 10 ∨ 18 < lo ∧ hi < 24) :
    (refreshFloor s c).regField (rCfloor c) hi lo = s.regField (rCfloor c) hi lo :=
  regField_ext fun i h1 h2 => (refreshFloor_spec s c).2.1 i (by omega)

theorem refreshFloor_rate (s : State) (c : Nat) {hi lo : Nat} (h : hi < 17) :
    (refreshFloor s c).regField (rCrate c) hi lo = s.regField (rCrate c) hi lo :=
  regField_ext fun i h1 h2 => (refreshFloor_spec s c).2.2 i (by omega)

/-- The setpoint in force is set; the floor follows. -/
def settleAt (s : State) (c v : Nat) : State := (s.setField (rCfloor c) 22 22 0).setField (rCfloor c) 9 0 v

theorem settle_eq (s : State) (c : Nat) : settle s c = refreshFloor (settleAt s c (min 920 (reqOf s c + tget 0 s.pwr.guardV c))) c := by
  unfold settle settleAt reqOf
  dsimp only
  rw [setField_pwr]

theorem settleAt_spec (s : State) (c : Nat) {v : Nat} (hv : v < 1024) : RegsOnly s (settleAt s c v) ∧ (settleAt s c v).regBit (rCfloor c) 22 = false ∧
    (settleAt s c v).regField (rCfloor c) 9 0 = v := by
  unfold settleAt
  refine ⟨(setField_regsOnly ..).trans (setField_regsOnly ..), ?_, regField_setField_le _ _ (by decide) (by decide) hv⟩
  rw [regBit_setField_apart _ _ _ (by decide) (by decide) (by decide), regBit_setField _ _ _ (by decide) (by decide), if_pos (by decide)]
  rfl

theorem RegsOnly.fabric {s u t : State} (hr : RegsOnly s u) (h : t = { u with regs := t.regs, pwr := { u.pwr with fabV := t.pwr.fabV } }) :
    t = { s with regs := t.regs, pwr := { s.pwr with fabV := t.pwr.fabV } } := by
  unfold RegsOnly at hr
  rw [h, hr]

theorem settledAt_spec (s : State) (c : Nat) {v : Nat} (hv : v < 1024) :
    refreshFloor (settleAt s c v) c = { s with
      regs := (refreshFloor (settleAt s c v) c).regs, pwr := { s.pwr with fabV := (refreshFloor (settleAt s c v) c).pwr.fabV } } ∧
    (refreshFloor (settleAt s c v) c).regBit (rCfloor c) 22 = false ∧ (refreshFloor (settleAt s c v) c).regField (rCfloor c) 9 0 = v := by
  obtain ⟨hr, hbit, hfield⟩ := settleAt_spec s c hv
  generalize settleAt s c v = u at hr hbit hfield ⊢
  obtain ⟨h1, h2, -⟩ := refreshFloor_spec u c
  rw [refreshFloor_field u c (by omega), h2 22 (by omega)]
  exact ⟨hr.fabric h1, hbit, hfield⟩

/-- The setpoint in force is the requested one with the guard's raise (R71). -/
theorem settle_spec (s : State) (c : Nat) :
    settle s c = { s with regs := (settle s c).regs, pwr := { s.pwr with fabV := (settle s c).pwr.fabV } } ∧
    (settle s c).regBit (rCfloor c) 22 = false ∧ (settle s c).regField (rCfloor c) 9 0 = min 920 (reqOf s c + tget 0 s.pwr.guardV c) := by
  rw [settle_eq]
  exact settledAt_spec s c (Nat.lt_of_le_of_lt (Nat.min_le_left ..) (by decide))

/-! ## A committed rate (R72) -/

/-- A floor refreshed leaves what the plan reads of a cluster. -/
theorem refreshFloor_reads (s : State) (c : Nat) : reqOf (refreshFloor s c) c = reqOf s c ∧ commitOf (refreshFloor s c) c = commitOf s c ∧
    (∀ mv, floorOf (refreshFloor s c) c mv = floorOf s c mv) ∧ clusterRuns (refreshFloor s c) c = clusterRuns s c := by
  obtain ⟨h, -, -⟩ := refreshFloor_spec s c
  have hband : planBand (refreshFloor s c) c = planBand s c := refreshFloor_field s c (by omega)
  have hex : excessOf (refreshFloor s c) c = excessOf s c := refreshFloor_rate s c (by omega)
  have hcommit : commitOf (refreshFloor s c) c = commitOf s c := refreshFloor_rate s c (by omega)
  have hkept : (refreshFloor s c).pwr = { s.pwr with fabV := (refreshFloor s c).pwr.fabV } ∧ (refreshFloor s c).clusters = s.clusters ∧
      (refreshFloor s c).towersDown = s.towersDown := by
    generalize refreshFloor s c = t at h ⊢
    rw [h]
    exact ⟨rfl, rfl, rfl⟩
  obtain ⟨hp, hcl, hd⟩ := hkept
  generalize refreshFloor s c = t at *
  have hregf : ∀ mv, regf t c mv = regf s c mv := fun mv => by
    unfold regf ceilAmps phasesUp pathReduced
    rw [hp]
  refine ⟨?_, hcommit, fun mv => ?_, ?_⟩
  · unfold reqOf; rw [hp]
  · unfold floorOf; rw [hband, hex, hregf]
  · unfold clusterRuns towerInReset State.cluster; rw [hp, hcl, hd]

/-- A cluster that meets its committed rate keeps its request. -/
theorem holdCommit_met {s : State} {c : Nat} (h : commitOf s c ≤ floorOf s c (reqOf s c)) : holdCommit s c = refreshFloor s c := by
  obtain ⟨h1, h2, h3, -⟩ := refreshFloor_reads s c
  unfold holdCommit
  generalize refreshFloor s c = u at h1 h2 h3 ⊢
  have hmeets : commitOf u c ≤ floorOf u c (reqOf u c) := by rw [h1, h2, h3]; exact h
  exact if_pos (.inr (.inr hmeets))

/-- The tasks stay, or some core of the cluster has one. -/
def TasksOrBusy (s : State) (c : Nat) (t : State) : Prop := t.tasks = s.tasks ∨ ∃ i, i < 9 ∧ (t.core (9 * c + i)).task.isSome = true

theorem stopCore_task (s : State) (k code d : Nat) : ((stopCore s k code).core d).task = (s.core d).task := by
  by_cases h : d = k
  · rw [h]
    cases hs : (s.core k).task.isSome
    · unfold stopCore; rw [if_neg (by rw [hs]; decide)]
    · rw [stopCore_core hs]
  · rw [stopCore_core_other _ _ h]

theorem stopCore_busy {s u : State} {c i code : Nat} (hi : i < 9) (h : TasksOrBusy s c u) : TasksOrBusy s c (stopCore u (9 * c + i) code) := by
  cases hs : (u.core (9 * c + i)).task.isSome
  · have : stopCore u (9 * c + i) code = u := if_neg (by rw [hs]; decide)
    rw [this]; exact h
  · exact .inr ⟨i, hi, by rw [stopCore_task]; exact hs⟩

theorem holdCommit_busy (s : State) (c : Nat) : TasksOrBusy s c (holdCommit s c) := by
  have hf : (refreshFloor s c).tasks = s.tasks := refreshFloor_steady (I := fun t => t.tasks = s.tasks) ⟨fun _ h => h⟩ rfl
  have hq : ∀ mv, (requestSetpoint (refreshFloor s c) c mv).tasks = s.tasks := fun mv =>
    requestSetpoint_steady (I := fun t => t.tasks = s.tasks) ⟨fun _ h => h⟩ hf
  have hfold : ∀ (l : List Nat) (u : State) (best : Nat), (∀ i ∈ l, i < 9) → TasksOrBusy s c u → TasksOrBusy s c (l.foldl (fun s i =>
      let k := 9 * c + i
      match coreTask s k with
      | some t => if best < t.floors.getD (s.core k).rank 0 then stopCore s k 0x0502 else s
      | none => s) u) := fun l => by
    induction l with
    | nil => exact fun _ _ _ h => h
    | cons i l ih =>
      refine fun u best hl h => ih _ best (fun j hj => hl j (List.mem_cons_of_mem _ hj)) ?_
      dsimp only
      split
      · split
        · exact stopCore_busy (hl i List.mem_cons_self) h
        · exact h
      · exact h
  unfold holdCommit
  generalize refreshFloor s c = u at hf hq ⊢
  change TasksOrBusy s c (ite _ _ _)
  split
  · exact .inl hf
  · split
    · exact .inl (hq _)
    · exact hfold _ _ _ (fun i hi => List.mem_range.1 hi) (.inl hf)

/-! ## Light idle (R499) -/

/-- Scrubs that have stopped: their reads are withdrawn and their jobs have ended. -/
structure ScrubsOnly (s t : State) : Prop where
  only : t = { s with
    llc := { s.llc with reqs := t.llc.reqs, scrubs := t.llc.scrubs }
    fw := t.fw }
  reqs : s.llc.reqs = [] → t.llc.reqs = []

theorem ScrubsOnly.rfl {s : State} : ScrubsOnly s s := ⟨Eq.refl _, id⟩
theorem ScrubsOnly.trans {a b c : State} (h : ScrubsOnly a b) (k : ScrubsOnly b c) : ScrubsOnly a c :=
  ⟨by rw [k.only, h.only], fun hr => k.reqs (h.reqs hr)⟩

theorem stopRun_scrubsOnly (s : State) (task : Bool) (id : Nat) : ScrubsOnly s (stopRun s task id) :=
  ⟨rfl, fun h => by rw [show (stopRun s task id).llc.reqs = s.llc.reqs.filter (fun r => !r.ofRun task id) from rfl, h]; rfl⟩

theorem endRun_scrubsOnly (s : State) (task : Bool) (id : Nat) (r : ScrubReq) : ScrubsOnly s (endRun s task id r).1 := by
  have h := stopRun_scrubsOnly s task id
  unfold endRun
  dsimp only
  generalize stopRun s task id = u at h ⊢
  split
  · exact h
  · exact h.trans ⟨rfl, fun h => h⟩

theorem stopScrubJob_scrubsOnly (s : State) (j : Job) : ScrubsOnly s (stopScrubJob s j) := by
  have h := endRun_scrubsOnly s false j.id (scrubReqOf j.req)
  unfold stopScrubJob
  generalize endRun s false j.id (scrubReqOf j.req) = p at h ⊢
  exact h.trans ⟨rfl, fun h => h⟩

theorem stopScrubs_scrubsOnly (s : State) : ScrubsOnly s (stopScrubs s) :=
  (foldl_rel (fun _ => .rfl) .trans stopScrubJob_scrubsOnly _ s).trans
    (foldl_rel (fun _ => .rfl) .trans (fun u (r : ScrubRun) => stopRun_scrubsOnly u r.task r.id) _ _)

/-- The same change of a run of cores. -/
theorem core_foldl_modCore (s : State) (b : Nat) (f : Core → Core) (n d : Nat) :
    ((List.range n).foldl (fun s i => s.modCore (b + i) f) s).core d = if b ≤ d ∧ d < b + n then f (s.core d) else s.core d := by
  induction n with
  | zero => rw [if_neg (by omega)]; rfl
  | succ n ih =>
    rw [List.range_succ, List.foldl_append]
    show (State.modCore _ (b + n) f).core d = _
    by_cases hd : d = b + n
    · rw [hd, core_modCore_same, ← hd, ih, if_neg (by omega), if_pos (by omega)]
    · rw [core_modCore_other _ _ hd, ih]
      by_cases hin : b ≤ d ∧ d < b + n
      · rw [if_pos hin, if_pos (by omega)]
      · rw [if_neg hin, if_neg (by omega)]

/-- The cores of a cluster that enters light idle. -/
def litCores (s : State) (c : Nat) : State := (List.range 9).foldl (fun s i => s.modCore (9 * c + i) (fun k => { clearCore k with grid := .stopped })) s

theorem litCores_only (s : State) (c : Nat) : litCores s c = { s with cores := (litCores s c).cores } :=
  foldl_rel (R := fun s t => t = { s with cores := t.cores }) (fun _ => rfl) (fun h k => by rw [k, h]) (fun _ _ => rfl) _ _

/-- A cluster that may sleep loses its register files and sleeps (R499). -/
theorem enterLight_spec {s : State} {c : Nat} (h : canLight s c = true) :
    enterLight s c = { s with
      cores := (enterLight s c).cores
      clusters := (enterLight s c).clusters
      llc := (enterLight s c).llc
      fw := (enterLight s c).fw
      pwr := { s.pwr with light := insNat c s.pwr.light, exitAt := tset 0 s.pwr.exitAt c 0 } } ∧
    (∀ i, i < 9 → (enterLight s c).core (9 * c + i) = { clearCore (s.core (9 * c + i)) with grid := .stopped }) ∧
    ∀ d, d / 9 ≠ c → (enterLight s c).core d = s.core d := by
  have hcore : ∀ d, (litCores s c).core d = _ := core_foldl_modCore s (9 * c) (fun k => { clearCore k with grid := .stopped }) 9
  have honly := litCores_only s c
  have he : enterLight s c = stopScrubs (let u := (litCores s c).modCluster c (fun k => { k with attnRun := .stopped, preRaise := 0 })
      { u with pwr := { u.pwr with light := insNat c u.pwr.light, exitAt := tset 0 u.pwr.exitAt c 0 } }) := if_neg (by rw [h]; decide)
  rw [he]
  generalize litCores s c = u at honly hcore ⊢
  have hs := (stopScrubs_scrubsOnly (let u := u.modCluster c (fun k => { k with attnRun := .stopped, preRaise := 0 })
      { u with pwr := { u.pwr with light := insNat c u.pwr.light, exitAt := tset 0 u.pwr.exitAt c 0 } })).only
  have hcores : ∀ t : State, t = { (let v := u.modCluster c (fun k => { k with attnRun := .stopped, preRaise := 0 })
      { v with pwr := { v.pwr with light := insNat c v.pwr.light, exitAt := tset 0 v.pwr.exitAt c 0 } }) with
        llc := t.llc
        fw := t.fw } → (∀ d, t.core d = u.core d) ∧ t = { s with
      cores := t.cores
      clusters := t.clusters
      llc := t.llc
      fw := t.fw
      pwr := { s.pwr with light := insNat c s.pwr.light, exitAt := tset 0 s.pwr.exitAt c 0 } } := fun t ht => by
    refine ⟨fun d => ?_, ?_⟩
    · rw [ht]; rfl
    · rw [ht, honly]; rfl
  generalize stopScrubs _ = t at hs ⊢
  obtain ⟨hc, ht⟩ := hcores t (by rw [hs])
  refine ⟨ht, fun i hi => ?_, fun d hd => ?_⟩
  · rw [hc, hcore, if_pos (by omega)]
  · rw [hc, hcore, if_neg (by omega)]

/-! ## A cluster's current rises (R417, R427) -/

theorem inrushGrant_spec {s : State} {tw : TowerId} {c : Nat} {cs : List Nat} (hr : tget none s.pwr.ramp tw = none)
    (hi : tget [] s.pwr.inrush tw = c :: cs) (hst : s.pwr.state = 0) (hroom : inrushRoom s c = true) :
    ∃ t, exec (.inrushGrant tw) s = .next t ∧ t = { s with pwr := t.pwr } ∧
      tget none t.pwr.ramp tw = some (c, s.clk.tick) ∧ tget [] t.pwr.inrush tw = cs := by
  have he : exec (.inrushGrant tw) s = execInrushGrant tw s := rfl
  rw [he]
  unfold execInrushGrant
  rw [hr, hi]
  dsimp only
  rw [if_neg (by simp [hst, hroom])]
  refine ⟨_, rfl, rfl, ?_, ?_⟩
  · exact tget_tset_same none s.pwr.ramp tw.val (some (c, s.clk.tick))
  · exact tget_tset_same [] s.pwr.inrush tw.val cs

/-- A ramp that has ended. -/
def rampDone (s : State) (c : Nat) : State := { s with pwr := { s.pwr with
  ramp := tset none s.pwr.ramp (c / 32) none, light := s.pwr.light.filter (· != c), exitAt := tset 0 s.pwr.exitAt c 0 } }

/-- A cluster whose setpoint is in force after its ramp, before curtailment judges it. -/
structure Readied (s : State) (c : Nat) (t : State) : Prop where
  mem : t.mem = s.mem
  ramp : tget none t.pwr.ramp (c / 32) = none
  exitAt : tget 0 t.pwr.exitAt c = 0
  light : t.pwr.light = s.pwr.light.filter (· != c)
  setting : t.regBit (rCfloor c) 22 = false ∧ t.regField (rCfloor c) 9 0 = min 920 (reqOf t c + tget 0 s.pwr.guardV c)
  reg : ∀ off, ¬ PowerReg off → t.reg off = s.reg off
  runs : clusterRuns t c = clusterRuns s c
  clusters : t.clusters = s.clusters
  busy : TasksOrBusy s c t
  met : commitOf s c ≤ floorOf s c (reqOf s c) → Still s t ∧ reqOf t c = reqOf s c

theorem rampDone_met {s : State} {c : Nat} (h : commitOf s c ≤ floorOf s c (reqOf s c)) :
    commitOf (rampDone s c) c ≤ floorOf (rampDone s c) c (reqOf (rampDone s c) c) := h

theorem Readied.of_settled {s u t : State} {c : Nat} (hk : HoldKeeps (rampDone s c) u) (hbusy : TasksOrBusy (rampDone s c) c u)
    (hmet : commitOf s c ≤ floorOf s c (reqOf s c) → u = { rampDone s c with regs := u.regs, pwr := { (rampDone s c).pwr with fabV := u.pwr.fabV } })
    (hset : t = { u with regs := t.regs, pwr := { u.pwr with fabV := t.pwr.fabV } }) (hbit : t.regBit (rCfloor c) 22 = false)
    (hfield : t.regField (rCfloor c) 9 0 = min 920 (reqOf u c + tget 0 u.pwr.guardV c))
    (hsk : ∀ off, ¬ PowerReg off → t.reg off = u.reg off) : Readied s c t := by
  have hp : t.pwr = { (rampDone s c).pwr with req := t.pwr.req, fabV := t.pwr.fabV } := by
    rw [show t.pwr = { u.pwr with fabV := t.pwr.fabV } from by rw [hset], hk.pwr]
  have hreq : t.pwr.req = u.pwr.req := by rw [hset]
  have hcl : t.clusters = s.clusters := (show t.clusters = u.clusters by rw [hset]).trans hk.clusters
  have hdown : t.towersDown = s.towersDown := (show t.towersDown = u.towersDown by rw [hset]).trans hk.down
  refine ⟨(show t.mem = u.mem by rw [hset]).trans hk.mem, ?_, ?_, ?_, ⟨hbit, ?_⟩, fun off hoff => (hsk off hoff).trans (hk.reg off hoff), ?_, hcl,
    ?_, fun h => ?_⟩
  · rw [hp]; exact tget_tset_same none s.pwr.ramp (c / 32) none
  · rw [hp]; exact tget_tset_same 0 s.pwr.exitAt c 0
  · rw [hp]; rfl
  · rw [hfield]; unfold reqOf; rw [hreq, hk.pwr]; rfl
  · unfold clusterRuns towerInReset State.cluster; rw [hp, hcl, hdown]; rfl
  · rcases hbusy with h | ⟨i, hi, h⟩
    · exact .inl ((show t.tasks = u.tasks by rw [hset]).trans h)
    · exact .inr ⟨i, hi, by rw [show t.core (9 * c + i) = u.core (9 * c + i) by rw [hset]; rfl]; exact h⟩
  · have hfloor := hmet h
    refine ⟨?_, ?_⟩
    · rw [hset, hfloor]; exact ⟨⟨rfl, rfl, rfl, rfl⟩, rfl⟩
    · unfold reqOf; rw [hreq, hfloor]; rfl

theorem refreshFloor_of_met {s u : State} {c : Nat} (h : u = refreshFloor s c) : u = { s with regs := u.regs, pwr := { s.pwr with fabV := u.pwr.fabV } } := by
  have hs := (refreshFloor_spec s c).1
  rw [← h] at hs
  exact hs

theorem settle_reg (s : State) (c : Nat) {off : Nat} (h : ¬ PowerReg off) : (settle s c).reg off = s.reg off :=
  (settle_settling (holdKeeps_settling s) (c := c) ⟨rfl, rfl, rfl, rfl, fun _ _ => rfl⟩).reg off h

theorem Readied.of_held {s u : State} {c : Nat} (hk : HoldKeeps (rampDone s c) u) (hbusy : TasksOrBusy (rampDone s c) c u)
    (hmet : commitOf s c ≤ floorOf s c (reqOf s c) → u = { rampDone s c with regs := u.regs, pwr := { (rampDone s c).pwr with fabV := u.pwr.fabV } }) :
    Readied s c (settle u c) := by
  obtain ⟨hset, hbit, hfield⟩ := settle_spec u c
  exact .of_settled hk hbusy hmet hset hbit hfield (fun _ h => settle_reg u c h)

theorem holdCommit_keeps (s : State) (c : Nat) : HoldKeeps s (holdCommit s c) :=
  holdCommit_settling (holdKeeps_settling s) ⟨rfl, rfl, rfl, rfl, fun _ _ => rfl⟩

theorem rampEnded_readied (s : State) (c : Nat) : Readied s c (settle (holdCommit (rampDone s c) c) c) :=
  .of_held (holdCommit_keeps _ c) (holdCommit_busy _ c) fun h => refreshFloor_of_met (holdCommit_met (rampDone_met h))

theorem inCover_of_reg {s t : State} (h : ∀ off, ¬ PowerReg off → t.reg off = s.reg off) (c : Nat) : inCover t c = inCover s c := by
  unfold inCover State.regBit
  rw [h _ ?_]
  split <;> exact not_powerReg (by decide) (by decide) (by decide)

/-- A cluster with work, a reservation or a place in the cover pool does not sleep. -/
theorem Readied.stays {s t : State} {c : Nat} (h : Readied s c t) (hs : inCover s c = true ∨ floorsOn s c (fun _ => true) ≠ []) :
    canLight t c = false := by
  unfold canLight
  rcases hs with hc | hf
  · rw [inCover_of_reg h.reg, hc]; simp
  · rcases h.busy with htasks | ⟨i, hi, hbusy⟩
    · have : (floorsOn t c (fun _ => true)).isEmpty = false := by
        unfold floorsOn at hf ⊢
        rw [htasks, List.isEmpty_eq_false_iff]
        exact hf
      rw [this]; simp
    · have : (List.range 9).all (fun i => (t.core (9 * c + i)).task.isNone && (t.core (9 * c + i)).grid == .stopped) = false := by
        rw [List.all_eq_false]
        exact ⟨i, List.mem_range.2 hi, by rw [Option.isNone_eq_false_iff.2 hbusy]; simp⟩
      rw [this]; simp

/-- An idle cluster sleeps. -/
theorem Readied.sleeps {s t : State} {c : Nat} (h : Readied s c t) (hcov : inCover s c = false) (hf : floorsOn s c (fun _ => true) = [])
    (hmet : commitOf s c ≤ floorOf s c (reqOf s c)) (hruns : clusterRuns s c = true) (hattn : (s.cluster c).attnRun = .stopped)
    (hcores : ∀ i, i < 9 → (s.core (9 * c + i)).task = none ∧ (s.core (9 * c + i)).grid = .stopped) : canLight t c = true := by
  obtain ⟨⟨⟨-, -, hscores, hstasks⟩, -⟩, -⟩ := h.met hmet
  have hfl : floorsOn t c (fun _ => true) = [] := by unfold floorsOn at hf ⊢; rw [hstasks]; exact hf
  have hcl : (t.cluster c).attnRun = .stopped := by unfold State.cluster at hattn ⊢; rw [h.clusters]; exact hattn
  have hli : t.pwr.light.contains c = false := by rw [h.light]; simp
  have hall : (List.range 9).all (fun i => (t.core (9 * c + i)).task.isNone && (t.core (9 * c + i)).grid == .stopped) = true := by
    rw [List.all_eq_true]
    refine fun i hi => ?_
    obtain ⟨h1, h2⟩ := hcores i (List.mem_range.1 hi)
    have : t.core (9 * c + i) = s.core (9 * c + i) := by unfold State.core; rw [hscores]
    rw [this, h1, h2]
    rfl
  unfold canLight
  rw [h.runs, hruns, hli, inCover_of_reg h.reg, hcov, hfl, hall, hcl]
  rfl

/-- What curtailment makes of a cluster whose setpoint is in force. -/
def judgedLight (t : State) (c : Nat) : State := if t.regBit oPwrLim 25 then enterLight t c else t

theorem clusterReady_eq {s : State} {cl : ClusterId} {u : Nat} (hr : tget none s.pwr.ramp (cl.val / 32) = some (cl.val, u))
    (hu : u + grantTicks ≤ s.clk.tick) :
    exec (.clusterReady cl) s = .next (judgedLight (settle (holdCommit (rampDone s cl) cl) cl) cl) := by
  have he : exec (.clusterReady cl) s = execClusterReady cl s := rfl
  rw [he]
  unfold execClusterReady
  rw [hr]
  exact congrArg Host.Outcome.next (if_neg (by omega))

/-- What stands after curtailment's judgement, asleep or not. -/
theorem judgedLight_spec {s t : State} {c : Nat} (h : Readied s c t) :
    (judgedLight t c).mem = s.mem ∧ tget none (judgedLight t c).pwr.ramp (c / 32) = none ∧ tget 0 (judgedLight t c).pwr.exitAt c = 0 ∧
    (judgedLight t c).regBit (rCfloor c) 22 = false ∧
    (judgedLight t c).regField (rCfloor c) 9 0 = min 920 (reqOf (judgedLight t c) c + tget 0 s.pwr.guardV c) := by
  have hkeep : t.mem = s.mem ∧ tget none t.pwr.ramp (c / 32) = none ∧ tget 0 t.pwr.exitAt c = 0 ∧ t.regBit (rCfloor c) 22 = false ∧
      t.regField (rCfloor c) 9 0 = min 920 (reqOf t c + tget 0 s.pwr.guardV c) := ⟨h.mem, h.ramp, h.exitAt, h.setting⟩
  by_cases hb : t.regBit oPwrLim 25 = true
  · cases hc : canLight t c
    · rw [show judgedLight t c = t from (if_pos hb).trans (if_pos (by rw [hc]; rfl))]; exact hkeep
    · obtain ⟨he, -, -⟩ := enterLight_spec hc
      rw [show judgedLight t c = enterLight t c from if_pos hb]
      generalize enterLight t c = v at he ⊢
      have hp : v.pwr = { t.pwr with light := insNat c t.pwr.light, exitAt := tset 0 t.pwr.exitAt c 0 } := by rw [he]
      have hreg : v.regs = t.regs := by rw [he]
      have hbit : ∀ i, v.regBit (rCfloor c) i = t.regBit (rCfloor c) i := fun i => by unfold State.regBit State.reg; rw [hreg]
      have hreq : reqOf v c = reqOf t c := by unfold reqOf; rw [hp]
      refine ⟨(show v.mem = t.mem by rw [he]).trans h.mem, ?_, ?_, (hbit 22).trans h.setting.1, ?_⟩
      · rw [hp]; exact h.ramp
      · rw [hp]; exact tget_tset_same 0 t.pwr.exitAt c 0
      · rw [hreq, ← h.setting.2]; exact regField_ext fun i _ _ => hbit i
  · rw [show judgedLight t c = t from if_neg hb]; exact hkeep

theorem clusterReady_spec {s : State} {cl : ClusterId} {u : Nat} (hr : tget none s.pwr.ramp (cl.val / 32) = some (cl.val, u))
    (hu : u + grantTicks ≤ s.clk.tick) :
    let meets := commitOf s cl ≤ floorOf s cl (reqOf s cl)
    let stays := s.regBit oPwrLim 25 = false ∨ inCover s cl = true ∨ floorsOn s cl (fun _ => true) ≠ []
    ∃ t, exec (.clusterReady cl) s = .next t ∧ t.mem = s.mem ∧ tget none t.pwr.ramp (cl.val / 32) = none ∧
      tget 0 t.pwr.exitAt cl = 0 ∧ t.regBit (rCfloor cl) 22 = false ∧
      t.regField (rCfloor cl) 9 0 = min 920 (reqOf t cl + tget 0 s.pwr.guardV cl) ∧
      (stays → cl.val ∉ t.pwr.light ∧ (meets → Still s t ∧ reqOf t cl = reqOf s cl)) ∧
      (¬ stays → meets → clusterRuns s cl = true → (s.cluster cl).attnRun = .stopped →
        (∀ i, i < 9 → (s.core (9 * cl + i)).task = none ∧ (s.core (9 * cl + i)).grid = .stopped) → cl.val ∈ t.pwr.light) := by
  intro meets stays
  have hR := rampEnded_readied s cl
  refine ⟨_, clusterReady_eq hr hu, ?_⟩
  generalize settle (holdCommit (rampDone s cl) cl) cl = t at hR ⊢
  have hlim : t.regBit oPwrLim 25 = s.regBit oPwrLim 25 := by unfold State.regBit; rw [hR.reg _ oPwrLim_apart]
  obtain ⟨h1, h2, h3, h4, h5⟩ := judgedLight_spec hR
  refine ⟨h1, h2, h3, h4, h5, fun hs => ?_, fun hs hm hruns hattn hcores => ?_⟩
  · have he : judgedLight t cl = t := by
      rcases hs with hb | hs
      · exact if_neg (by rw [hlim, hb]; decide)
      · unfold judgedLight enterLight; rw [hR.stays hs]; simp
    rw [he]
    exact ⟨by rw [hR.light]; simp, hR.met⟩
  · obtain ⟨hb, hc, hf⟩ : s.regBit oPwrLim 25 = true ∧ inCover s cl = false ∧ floorsOn s cl (fun _ => true) = [] := by
      simpa [stays, not_or] using hs
    have hcan := hR.sleeps hc hf hm hruns hattn hcores
    obtain ⟨he, -, -⟩ := enterLight_spec hcan
    rw [show judgedLight t cl = enterLight t cl from if_pos (by rw [hlim, hb])]
    generalize enterLight t cl = v at he ⊢
    rw [he]
    exact (mem_insNat ..).2 (.inl rfl)

theorem lightIdleEntry_spec {s : State} {cl : ClusterId} (h : canLight s cl = true) :
    ∃ t, exec (.lightIdleEntry cl) s = .next t ∧ t.mem = s.mem ∧ t.tasks = s.tasks ∧
      cl.val ∈ t.pwr.light ∧ (∀ i, i < 9 → t.core (9 * cl.val + i) = { clearCore (s.core (9 * cl.val + i)) with grid := .stopped }) ∧
      ∀ c, c / 9 ≠ cl.val → t.core c = s.core c := by
  obtain ⟨he, hin, hout⟩ := enterLight_spec h
  have hx : exec (.lightIdleEntry cl) s = .next (enterLight s cl) := rfl
  refine ⟨_, hx, ?_⟩
  generalize enterLight s cl = v at he hin hout ⊢
  refine ⟨by rw [he], by rw [he], ?_, hin, hout⟩
  rw [he]
  exact (mem_insNat ..).2 (.inl rfl)

/-! ## The ceiling and its events (R423 to R426) -/

theorem staticCeiling_lt (s : State) (tick : Nat) : staticCeiling s tick < 4096 := by
  have ht : tierW s < 4096 := regField_lt s oPwrLim 23 12
  unfold staticCeiling
  dsimp only
  split <;> split <;> omega

/-- The ceiling shown is the ceiling in force (R423). -/
theorem refreshCeiling_spec (s : State) :
    refreshCeiling s = { s with regs := (refreshCeiling s).regs, pwr := { s.pwr with rise := (refreshCeiling s).pwr.rise } } ∧
    (∀ off, off ≠ oPwrLim → (refreshCeiling s).reg off = s.reg off) ∧
    (refreshCeiling s).regField oPwrLim 11 0 = staticCeiling s s.clk.tick ∧
    ∀ i, 12 ≤ i → (refreshCeiling s).regBit oPwrLim i = s.regBit oPwrLim i := by
  obtain ⟨r, he⟩ : ∃ r, refreshCeiling s = ({ s with pwr := { s.pwr with rise := r } } : State).setField oPwrLim 11 0 (staticCeiling s s.clk.tick) := by
    unfold refreshCeiling
    dsimp only
    generalize staticCeiling s s.clk.tick = n
    generalize (s.clk.tick, s.regField oPwrCf 23 12) = x
    split
    · split
      · exact ⟨none, rfl⟩
      · exact ⟨none, rfl⟩
    · split
      · exact ⟨some x, rfl⟩
      · exact ⟨s.pwr.rise, rfl⟩
  have hlt := staticCeiling_lt s s.clk.tick
  rw [he]
  generalize staticCeiling s s.clk.tick = n at hlt ⊢
  refine ⟨rfl, fun off h => reg_setField_other _ _ _ _ h, regField_setField_le _ _ (by decide) (by decide) hlt, fun i hi => ?_⟩
  exact regBit_setField_apart _ _ _ (by decide) (by decide) (.inr (by omega))

/-- An event is set; its message may go out (R428). -/
theorem pwrEvent_spec (s : State) {n : Nat} (hn : n < 8) :
    pwrEvent s n = { s with regs := (pwrEvent s n).regs, msix := (pwrEvent s n).msix, out := (pwrEvent s n).out } ∧
    (∀ off, off ≠ oPwrEvt → (pwrEvent s n).reg off = s.reg off) ∧ (pwrEvent s n).regBit oPwrEvt n = true ∧
    ∀ i, i ≠ n → (pwrEvent s n).regBit oPwrEvt i = s.regBit oPwrEvt i := by
  obtain ⟨m, o, he⟩ : ∃ m o, pwrEvent s n = ({ s with msix := m, out := o } : State).setField oPwrEvt n n 1 := by
    unfold pwrEvent
    dsimp only
    split
    · obtain ⟨m, o, h⟩ := sendMsix_eq (s.setField oPwrEvt n n 1) 2
      exact ⟨m, o, h⟩
    · exact ⟨s.msix, s.out, rfl⟩
  rw [he]
  refine ⟨rfl, fun off h => reg_setField_other _ _ _ _ h, ?_, fun i hi => ?_⟩
  · rw [regBit_setField _ _ _ (Nat.le_refl n) (by omega), if_pos ⟨Nat.le_refl n, Nat.le_refl n⟩, Nat.sub_self]; rfl
  · rw [regBit_setField_apart _ _ _ (Nat.le_refl n) (by omega) (by omega)]; rfl

/-- The event is taken and the plan of the new ceiling adopted (R420). -/
def eventPlanned (s : State) (n : Nat) (plan : List (List Nat)) : State :=
  if procDown (pwrEvent s n) 2 then pwrEvent s n else adoptPlan (pwrEvent s n) plan

/-- What an event with its plan leaves. -/
structure EventPlanned (s : State) (n : Nat) (t : State) : Prop where
  mem : t.mem = s.mem
  tasks : t.tasks = s.tasks
  pend : t.pwr.pend = s.pwr.pend
  target : t.pwr.target = s.pwr.target
  pin : t.pwr.curtailPin = s.pwr.curtailPin
  lim : t.reg oPwrLim = s.reg oPwrLim
  event : t.regBit oPwrEvt n = true

theorem eventPlanned_spec (s : State) {n : Nat} (hn : n < 8) (plan : List (List Nat)) : EventPlanned s n (eventPlanned s n plan) := by
  obtain ⟨he, hreg, hbit, -⟩ := pwrEvent_spec s hn
  have hlim := hreg oPwrLim (by decide)
  have hp : ∀ u : State, PlanKeeps u (adoptPlan u plan) := fun u => adoptPlan_planning (planKeeps_planning u) .rfl
  unfold eventPlanned
  generalize pwrEvent s n = u at he hbit hlim ⊢
  have hu : EventPlanned s n u := ⟨by rw [he], by rw [he], by rw [he], by rw [he], by rw [he], hlim, hbit⟩
  split
  · exact hu
  · have k := hp u
    generalize adoptPlan u plan = t at k ⊢
    refine ⟨k.mem.trans hu.mem, k.tasks.trans hu.tasks, k.pend.trans hu.pend, k.target.trans hu.target, k.pin.trans hu.pin,
      (k.reg _ oPwrLim_apart).trans hu.lim, ?_⟩
    unfold State.regBit at hbit ⊢
    rw [k.reg _ oPwrEvt_apart]
    exact hbit

theorem regBit_of_reg_eq {s t : State} {off : Nat} (h : t.reg off = s.reg off) (i : Nat) : t.regBit off i = s.regBit off i := by
  unfold State.regBit; rw [h]

theorem regField_of_reg_eq {s t : State} {off : Nat} (h : t.reg off = s.reg off) (hi lo : Nat) : t.regField off hi lo = s.regField off hi lo := by
  unfold State.regField; rw [h]

theorem staticCeiling_of {s t : State} (hp : t.pwr = s.pwr) (hctrl : t.reg oPwrCtrl = s.reg oPwrCtrl)
    (hlim : ∀ i, 12 ≤ i → i ≠ 24 → t.regBit oPwrLim i = s.regBit oPwrLim i) (tick : Nat) : staticCeiling t tick = staticCeiling s tick := by
  have ht : tierW t = tierW s := regField_ext fun i h1 h2 => hlim i h1 (by omega)
  have hc : curtailLevel t = curtailLevel s := by unfold curtailLevel; rw [ht, regField_of_reg_eq hctrl]
  unfold staticCeiling
  rw [hp, ht, hc, hlim 25 (by decide) (by decide)]

/-- The pending ceiling becomes the target (R423). -/
theorem targetEffective_spec {s : State} (plan : List (List Nat)) {w u : Nat} (hp : s.pwr.pend = some (w, u)) (hu : u ≤ s.clk.tick) :
    ∃ t, exec (.targetEffective plan) s = .next t ∧ t.mem = s.mem ∧
      t.tasks = s.tasks ∧ t.pwr.pend = none ∧ t.pwr.target = w ∧ t.regBit oPwrLim 24 = false ∧ t.regBit oPwrEvt 0 = true ∧
      t.regField oPwrLim 11 0 = staticCeiling { s with pwr := { s.pwr with pend := none, target := w } } s.clk.tick := by
  have he : exec (.targetEffective plan) s = .next (eventPlanned (refreshCeiling
      (({ s with pwr := { s.pwr with pend := none, target := w } } : State).setField oPwrLim 24 24 0)) 0 plan) := by
    have he : exec (.targetEffective plan) s = execTargetEffective plan s := rfl
    rw [he]
    unfold execTargetEffective
    rw [hp]
    exact congrArg Host.Outcome.next (if_neg (by omega))
  refine ⟨_, he, ?_⟩
  have hv : ∃ v : State, v = ({ s with pwr := { s.pwr with pend := none, target := w } } : State).setField oPwrLim 24 24 0 ∧
      v = { s with regs := v.regs, pwr := { s.pwr with pend := none, target := w } } ∧ v.regBit oPwrLim 24 = false ∧
      staticCeiling v s.clk.tick = staticCeiling { s with pwr := { s.pwr with pend := none, target := w } } s.clk.tick := by
    refine ⟨_, rfl, rfl, ?_, ?_⟩
    · rw [regBit_setField _ _ _ (by decide) (by decide), if_pos (by decide)]; rfl
    · exact staticCeiling_of (setField_pwr ..) (reg_setField_other _ _ _ _ (by decide)) (fun i h1 h2 =>
        regBit_setField_apart _ _ _ (by decide) (by decide) (by omega)) _
  obtain ⟨v, hve, hvs, hv24, hvc⟩ := hv
  rw [← hve]
  obtain ⟨hr, -, hcf, hcb⟩ := refreshCeiling_spec v
  have hclk : v.clk.tick = s.clk.tick := by rw [hvs]
  rw [hclk, hvc] at hcf
  have hb24 := (hcb 24 (by decide)).trans hv24
  generalize refreshCeiling v = x at hr hcf hb24 ⊢
  have k := eventPlanned_spec x (n := 0) (by decide) plan
  generalize eventPlanned x 0 plan = t at k ⊢
  have hxp : x.pwr.pend = none ∧ x.pwr.target = w ∧ x.mem = s.mem ∧ x.tasks = s.tasks := by rw [hr, hvs]; exact ⟨rfl, rfl, rfl, rfl⟩
  obtain ⟨x1, x2, x3, x4⟩ := hxp
  exact ⟨k.mem.trans x3, k.tasks.trans x4, k.pend.trans x1, k.target.trans x2, (regBit_of_reg_eq k.lim 24).trans hb24, k.event,
    (regField_of_reg_eq k.lim 11 0).trans hcf⟩

/-! ## Curtailment (R425) -/

/-- What curtailment's later steps leave of its event. -/
structure Curtailed (s : State) (t : State) : Prop where
  mem : t.mem = s.mem
  tasks : t.tasks = s.tasks
  pin : t.pwr.curtailPin = s.pwr.curtailPin
  lim : t.regBit oPwrLim 25 = s.regBit oPwrLim 25
  event : t.regBit oPwrEvt 1 = s.regBit oPwrEvt 1

theorem Curtailed.trans {a b c : State} (h : Curtailed a b) (k : Curtailed b c) : Curtailed a c :=
  ⟨k.mem.trans h.mem, k.tasks.trans h.tasks, k.pin.trans h.pin, k.lim.trans h.lim, k.event.trans h.event⟩

theorem PlanKeeps.curtailed {s t : State} (h : PlanKeeps s t) : Curtailed s t :=
  ⟨h.mem, h.tasks, h.pin, regBit_of_reg_eq (h.reg _ oPwrLim_apart) 25, regBit_of_reg_eq (h.reg _ oPwrEvt_apart) 1⟩

theorem curtailCheck_curtailed (s : State) : Curtailed s (curtailCheck s) := by
  unfold curtailCheck
  split
  · have hu : Curtailed s (s.setField oPwrLim 26 26 1) :=
      have hr : ∀ v, RegsOnly s v → v.mem = s.mem ∧ v.tasks = s.tasks ∧ v.pwr.curtailPin = s.pwr.curtailPin := fun v h => by
        unfold RegsOnly at h; rw [h]; exact ⟨rfl, rfl, rfl⟩
      have h := hr _ (setField_regsOnly ..)
      ⟨h.1, h.2.1, h.2.2, regBit_setField_apart _ _ _ (by decide) (by decide) (by decide), regBit_setField_other _ _ _ _ _ (by decide)⟩
    refine hu.trans ?_
    generalize s.setField oPwrLim 26 26 1 = v
    obtain ⟨he, hreg, -, hev⟩ := pwrEvent_spec v (n := 2) (by decide)
    have hlim := hreg oPwrLim (by decide)
    have h1 := hev 1 (by decide)
    generalize pwrEvent v 2 = t at he hlim h1 ⊢
    exact ⟨by rw [he], by rw [he], by rw [he], regBit_of_reg_eq hlim 25, h1⟩
  · exact ⟨rfl, rfl, rfl, rfl, rfl⟩

/-- Idle clusters sleep and the others take their curtail setpoint, where the module is on. -/
def curtailSteps (s : State) : State := curtailCheck (if s.pwr.state = 0 then curtailClusters (reaskInrush (withdrawGrants s)) else s)

theorem curtailSteps_curtailed (s : State) : Curtailed s (curtailSteps s) := by
  refine Curtailed.trans ?_ (curtailCheck_curtailed _)
  have hp := planKeeps_planning s
  split
  · exact (curtailClusters_planning hp (reaskInrush_planning hp (withdrawGrants_planning hp .rfl))).curtailed
  · exact ⟨rfl, rfl, rfl, rfl, rfl⟩

/-- The pin's level is recorded. -/
def pinned (s : State) (b : Bool) : State := { s with pwr := { s.pwr with curtailPin := b } }

/-- A state whose registers alone have moved since the pin did. -/
theorem pinned_of {s v : State} {b : Bool} (h : RegsOnly (pinned s b) v) : v.mem = s.mem ∧ v.tasks = s.tasks ∧ v.pwr.curtailPin = b := by
  unfold RegsOnly at h; rw [h]; exact ⟨rfl, rfl, rfl⟩

/-- The ceiling follows the pin, and the event with its plan. -/
theorem ceilingPlanned_spec {s v : State} {b : Bool} (h : RegsOnly (pinned s b) v) {n : Nat} (hn : n < 8) (plan : List (List Nat)) :
    let t := eventPlanned (refreshCeiling v) n plan
    t.mem = s.mem ∧ t.tasks = s.tasks ∧ t.pwr.curtailPin = b ∧ t.regBit oPwrEvt n = true ∧
    ∀ i, 12 ≤ i → t.regBit oPwrLim i = v.regBit oPwrLim i := by
  obtain ⟨v1, v2, v3⟩ := pinned_of h
  obtain ⟨hr, -, -, hcb⟩ := refreshCeiling_spec v
  dsimp only
  generalize refreshCeiling v = x at hr hcb ⊢
  have k := eventPlanned_spec x hn plan
  generalize eventPlanned x n plan = t at k ⊢
  obtain ⟨x1, x2, x3⟩ : x.mem = v.mem ∧ x.tasks = v.tasks ∧ x.pwr.curtailPin = v.pwr.curtailPin := by rw [hr]; exact ⟨rfl, rfl, rfl⟩
  exact ⟨k.mem.trans (x1.trans v1), k.tasks.trans (x2.trans v2), k.pin.trans (x3.trans v3), k.event, fun i hi =>
    (regBit_of_reg_eq k.lim i).trans (hcb i hi)⟩

theorem curtailEnter_spec {s : State} (plan : List (List Nat)) (hrun : s.clk.run = true) (hoff : s.md.off = false) (hlim : s.regBit oPwrLim 25 = false) :
    ∃ t, exec (.curtailEnter plan) s = .next t ∧ t.mem = s.mem ∧ t.tasks = s.tasks ∧ t.pwr.curtailPin = true ∧
      t.regBit oPwrLim 25 = true ∧ t.regBit oPwrEvt 1 = true := by
  have he : exec (.curtailEnter plan) s = .next (curtailSteps (eventPlanned (refreshCeiling ((pinned s true).setField oPwrLim 25 25 1)) 1 plan)) := by
    have he : exec (.curtailEnter plan) s = execCurtailEnter plan s := rfl
    rw [he]
    have hc : ¬(¬ s.clk.run = true ∨ s.md.off = true ∨ s.regBit oPwrLim 25 = true) := by rw [hrun, hoff, hlim]; decide
    exact congrArg Host.Outcome.next (if_neg hc)
  refine ⟨_, he, ?_⟩
  have hb : ((pinned s true).setField oPwrLim 25 25 1).regBit oPwrLim 25 = true := by
    rw [regBit_setField _ _ _ (by decide) (by decide), if_pos (by decide)]; rfl
  obtain ⟨y1, y2, y3, y4, y5⟩ := ceilingPlanned_spec (setField_regsOnly (pinned s true) oPwrLim 25 25 1) (n := 1) (by decide) plan
  have y25 := (y5 25 (by decide)).trans hb
  generalize eventPlanned _ 1 plan = y at y1 y2 y3 y4 y25 ⊢
  have l := curtailSteps_curtailed y
  generalize curtailSteps y = t at l ⊢
  exact ⟨l.mem.trans y1, l.tasks.trans y2, l.pin.trans y3, l.lim.trans y25, l.event.trans y4⟩

theorem curtailExit_spec {s : State} (plan : List (List Nat)) (hlim : s.regBit oPwrLim 25 = true) :
    ∃ t, exec (.curtailExit plan) s = .next t ∧ t.mem = s.mem ∧ t.tasks = s.tasks ∧
      t.pwr.curtailPin = false ∧ t.regBit oPwrLim 25 = false ∧ t.regBit oPwrLim 26 = false ∧ t.regBit oPwrEvt 3 = true := by
  have he : exec (.curtailExit plan) s = .next (eventPlanned (refreshCeiling
      (((pinned s false).setField oPwrLim 25 25 0).setField oPwrLim 26 26 0)) 3 plan) := by
    have he : exec (.curtailExit plan) s = execCurtailExit plan s := rfl
    rw [he]
    have hc : ¬ ¬ s.regBit oPwrLim 25 = true := by rw [hlim]; decide
    exact congrArg Host.Outcome.next (if_neg hc)
  refine ⟨_, he, ?_⟩
  have v4 : (((pinned s false).setField oPwrLim 25 25 0).setField oPwrLim 26 26 0).regBit oPwrLim 25 = false := by
    rw [regBit_setField_apart _ _ _ (by decide) (by decide) (by decide), regBit_setField _ _ _ (by decide) (by decide), if_pos (by decide)]; rfl
  have v5 : (((pinned s false).setField oPwrLim 25 25 0).setField oPwrLim 26 26 0).regBit oPwrLim 26 = false := by
    rw [regBit_setField _ _ _ (by decide) (by decide), if_pos (by decide)]; rfl
  obtain ⟨y1, y2, y3, y4, y5⟩ := ceilingPlanned_spec
    ((setField_regsOnly (pinned s false) oPwrLim 25 25 0).trans (setField_regsOnly _ oPwrLim 26 26 0)) (n := 3) (by decide) plan
  exact ⟨y1, y2, y3, (y5 25 (by decide)).trans v4, (y5 26 (by decide)).trans v5, y4⟩

/-! ## Deep idle and standby (R500, R501) -/

theorem memGet_clearBytes (m : List Host.Cell) (a n x : Nat) : memGet (clearBytes m a n) x = if a ≤ x ∧ x < a + n then 0#8 else memGet m x := by
  unfold memGet clearBytes
  induction m with
  | nil => simp [tget]
  | cons p m ih =>
    obtain ⟨k, v⟩ := p
    by_cases hk : k < a ∨ a + n ≤ k
    · rw [List.filter_cons_of_pos (by simpa using hk), tget, tget, ih]
      by_cases he : k = x
      · rw [if_pos he, if_pos he, if_neg (by omega)]
      · rw [if_neg he, if_neg he]
    · rw [List.filter_cons_of_neg (by simpa using hk), ih, tget]
      by_cases hx : a ≤ x ∧ x < a + n
      · rw [if_pos hx, if_pos hx]
      · rw [if_neg hx, if_neg hx, if_neg (by omega)]

/-- Local stores of a tower that read zero. -/
def LocalZero (m : List Host.Cell) (tw : Nat) : Prop :=
  ∀ x, lsAddr (288 * tw) ≤ x → x < lsAddr (288 * tw) + 288 * 0x100000 → memGet m x = 0

theorem LocalZero.clear {m : List Host.Cell} {tw : Nat} (h : LocalZero m tw) (a n : Nat) : LocalZero (clearBytes m a n) tw := fun x h1 h2 => by
  rw [memGet_clearBytes]
  split
  · rfl
  · exact h x h1 h2

theorem localZero_cleared (m : List Host.Cell) (tw : Nat) : LocalZero (clearBytes m (lsAddr (288 * tw)) (288 * 0x100000)) tw := fun x h1 h2 => by
  rw [memGet_clearBytes, if_pos ⟨h1, h2⟩]; rfl

/-- The state may be entered: deep idle always, standby once the cache holds nothing to write back. -/
def MayIdle (s : State) (st : Nat) : Prop := st = 1 ∨ st = 2 ∧ s.llc.lines = [] ∧ s.llc.reds = [] ∧ s.llc.reqs = []

/-- An empty cache has nothing to write back. -/
theorem writeBackTower_empty {s : State} (h1 : s.llc.lines = []) (h2 : s.llc.reds = []) (h3 : s.llc.reqs = []) (tw : Nat) :
    ∃ l, writeBackTower s tw = { s with llc := l } ∧ l.lines = [] ∧ l.reds = [] ∧ l.reqs = [] := by
  unfold writeBackTower
  simp only [h2, List.filter_nil, List.foldl_nil]
  simp only [h3, List.filter_nil, List.foldl_nil]
  simp only [h1, List.filter_nil, List.foldl_nil]
  exact ⟨_, rfl, rfl, h2, h3⟩

/-- A tower's arrays that a state loses: its local stores read zero, and zeros stay. -/
theorem idleTower_spec {s : State} {st : Nat} (h : MayIdle s st) (tw : Nat) : LocalZero (idleTower s st tw).mem tw ∧
    (∀ tw', LocalZero s.mem tw' → LocalZero (idleTower s st tw).mem tw') ∧ MayIdle (idleTower s st tw) st := by
  rcases h with rfl | ⟨rfl, h1, h2, h3⟩
  · have he : (idleTower s 1 tw).mem = clearBytes s.mem (lsAddr (288 * tw)) (288 * 0x100000) := rfl
    rw [he]
    exact ⟨localZero_cleared _ _, fun _ h => h.clear _ _, .inl rfl⟩
  · obtain ⟨l, hw, l1, l2, l3⟩ := writeBackTower_empty h1 h2 h3 tw
    have he : idleTower s 2 tw = clearCounts (fillTower (writeBackTower s tw) tw true) tw true false := rfl
    rw [he, hw]
    have hm : (clearCounts (fillTower { s with llc := l } tw true) tw true false).mem =
        clearBytes (clearBytes s.mem (lsAddr (288 * tw)) (288 * 0x100000)) (resBase + 2 * tw * gib1) (2 * gib1) := rfl
    have hl : (clearCounts (fillTower { s with llc := l } tw true) tw true false).llc = l := rfl
    generalize clearCounts _ tw true false = t at hm hl ⊢
    rw [hm]
    exact ⟨(localZero_cleared _ _).clear _ _, fun _ h => (h.clear _ _).clear _ _, .inr ⟨rfl, by rw [hl]; exact l1, by rw [hl]; exact l2, by rw [hl]; exact l3⟩⟩

theorem MayIdle.of_scrubs {s t : State} {st : Nat} (h : MayIdle s st) (hs : ScrubsOnly s t) : MayIdle t st := by
  rcases h with h | ⟨h, h1, h2, h3⟩
  · exact .inl h
  · have hl : t.llc.lines = s.llc.lines ∧ t.llc.reds = s.llc.reds := by
      have := hs.only
      generalize t.llc.reqs = a at this
      generalize t.llc.scrubs = b at this
      generalize t.fw = f at this
      rw [this]; exact ⟨rfl, rfl⟩
    exact .inr ⟨h, hl.1.trans h1, hl.2.trans h2, hs.reqs h3⟩

theorem localZero_core {m : List Host.Cell} (h0 : LocalZero m 0) (h1 : LocalZero m 1) {c off : Nat} (hc : c < 576) (ho : off < lsBytes) :
    memGet m (lsAddr c + off) = 0 := by
  unfold lsBytes at ho
  by_cases hlow : c < 288
  · exact h0 _ (by unfold lsAddr; omega) (by unfold lsAddr; omega)
  · exact h1 _ (by unfold lsAddr; omega) (by unfold lsAddr; omega)

/-- The arrays and registers that a state loses. -/
def idled (s : State) (st : Nat) : State :=
  resetRegs (clearDomains ([0, 1].foldl (fun s t => idleTower s st t) s) (fun _ => true)) (if st = 1 then evDI else evSB) (fun _ => true)

theorem idled_localZero {s : State} {st : Nat} (h : MayIdle s st) : LocalZero (idled s st).mem 0 ∧ LocalZero (idled s st).mem 1 := by
  have hm : ∀ u : State, ∀ e : Nat, (resetRegs (clearDomains u (fun _ => true)) e (fun _ => true)).mem = u.mem := fun _ _ => rfl
  unfold idled
  rw [hm]
  obtain ⟨a0, -, am⟩ := idleTower_spec h 0
  obtain ⟨b1, bk, -⟩ := idleTower_spec am 1
  exact ⟨bk 0 a0, b1⟩

theorem idled_entry {s : State} {st : Nat} (h : MayIdle s st) : (idled s st).pwr.entry = s.pwr.entry := by
  have hm : ∀ u : State, ∀ e : Nat, (resetRegs (clearDomains u (fun _ => true)) e (fun _ => true)).pwr.entry = u.pwr.entry := fun _ _ => rfl
  have hf : ∀ {u : State} (tw : Nat), MayIdle u st → (idleTower u st tw).pwr.entry = u.pwr.entry := fun {u} tw h => by
    rcases h with rfl | ⟨rfl, h1, h2, h3⟩
    · rfl
    · obtain ⟨l, hw, l1, l2, l3⟩ := writeBackTower_empty h1 h2 h3 tw
      have he : idleTower u 2 tw = clearCounts (fillTower (writeBackTower u tw) tw true) tw true false := rfl
      rw [he, hw]
      rfl
  unfold idled
  rw [hm]
  exact (hf 1 (idleTower_spec h 0).2.2).trans (hf 0 h)

/-- The state is in force; floors and admission follow. -/
def stateEntered (s : State) (st : Nat) : State := refreshAdmission ((List.range 64).foldl refreshFloor { s with pwr := { s.pwr with state := st } })

/-- A state that has been entered. -/
def Entered (s : State) (st : Nat) (t : State) : Prop := t.pwr.state = st ∧ t.pwr.entry = s.pwr.entry ∧ t.mem = s.mem

theorem entered_steady (s : State) (st : Nat) : Steady (Entered s st) := ⟨fun hp h => by
  obtain ⟨h1, h2, h3⟩ := h
  exact ⟨by rw [hp]; exact h1, by rw [hp]; exact h2, h3⟩⟩

theorem entered_of_state (s : State) (st : Nat) : Entered s st { s with pwr := { s.pwr with state := st } } := ⟨rfl, rfl, rfl⟩

theorem stateEntered_spec (s : State) (st : Nat) : Entered s st (stateEntered s st) :=
  refreshAdmission_steady (entered_steady s st)
    (foldl_rooted (f := refreshFloor) (l := List.range 64) (fun _ _ h1 => refreshFloor_steady (entered_steady s st) h1) (entered_of_state s st))

theorem entering_spec {v t : State} {st : Nat} (hmay : MayIdle v st) (hv : v.pwr.entry = none) (ht : Entered (idled v st) st t) :
    t.pwr.state = st ∧ t.pwr.entry = none ∧ ∀ c off, c < 576 → off < lsBytes → memGet t.mem (lsAddr c + off) = 0 := by
  obtain ⟨hz0, hz1⟩ := idled_localZero hmay
  obtain ⟨e1, e2, e3⟩ := ht
  rw [e3]
  exact ⟨e1, e2.trans ((idled_entry hmay).trans hv), fun c off hc ho => localZero_core hz0 hz1 hc ho⟩

theorem scrubs_entry {s t : State} (h : ScrubsOnly s t) : t.pwr.entry = s.pwr.entry := by rw [h.only]

/-- The entry, after which the job that asked for it may end. -/
theorem powerStateEntry_enters {s : State} {st u : Nat} (hentry : s.pwr.entry = some (st, u)) (htasks : s.tasks = []) :
    ∃ t, exec .powerStateEntry s = .next t ∧ Entered (idled (stopScrubs { s with pwr := { s.pwr with entry := none } }) st) st t := by
  have he : exec .powerStateEntry s = execPowerStateEntry s := rfl
  rw [he]
  unfold execPowerStateEntry
  rw [hentry]
  refine ⟨_, congrArg Host.Outcome.next (if_neg (by rw [htasks]; simp)), ?_⟩
  have h := stateEntered_spec (idled (stopScrubs { s with pwr := { s.pwr with entry := none } }) st) st
  have hjob : ∀ w u, Entered w st u → Entered w st (match stateJob u st with
      | some j => endJob u j mOK 0 []
      | none => u) := fun w u hu => by
    split
    · exact hu
    · exact hu
  exact hjob _ _ h

theorem powerStateEntry_spec {s : State} {st u : Nat} (hentry : s.pwr.entry = some (st, u)) (htasks : s.tasks = []) (hst : MayIdle s st) :
    ∃ t, exec .powerStateEntry s = .next t ∧ t.pwr.state = st ∧ t.pwr.entry = none ∧
      ∀ c off, c < 576 → off < lsBytes → memGet t.mem (lsAddr c + off) = 0 := by
  have hsc := stopScrubs_scrubsOnly { s with pwr := { s.pwr with entry := none } }
  have hmay : MayIdle { s with pwr := { s.pwr with entry := none } } st := hst
  obtain ⟨t, he, ht⟩ := powerStateEntry_enters hentry htasks
  exact ⟨t, he, entering_spec (hmay.of_scrubs hsc) (scrubs_entry hsc) ht⟩

end Sys2Proof.Machine

namespace Sys2Proof
open Machine

/-- Settles O35: clause by clause. -/
theorem clustersSleepAndCurtail : Obligations.ClustersSleepAndCurtail := by
  unfold Obligations.ClustersSleepAndCurtail
  intro s
  exact ⟨fun _ _ _ hr hi hst hroom => inrushGrant_spec hr hi hst hroom, fun _ _ hr hu => clusterReady_spec hr hu,
    fun _ h => lightIdleEntry_spec h, fun plan _ _ hp hu => targetEffective_spec plan hp hu,
    fun plan hrun hoff hlim => curtailEnter_spec plan hrun hoff hlim, fun plan hlim => curtailExit_spec plan hlim,
    fun _ _ hentry htasks hst => powerStateEntry_spec hentry htasks hst⟩

end Sys2Proof
end

section
/-! Converters, phases and paths that fail (R407 to R415). -/
namespace Sys2Proof.Machine

/-! ## What a double fault's plan leaves (R409) -/

/-- PWR_CONV reads a given word. -/
def Conv (r : Word) (s : State) : Prop := s.reg oConv = r

theorem foldl_range_rooted {I : State → Prop} {f : State → Nat → State} {n : Nat} (h : ∀ s a, a < n → I s → I (f s a)) {s : State} (hs : I s) :
    I ((List.range n).foldl f s) := by
  have hl : ∀ (l : List Nat) {s : State}, (∀ a ∈ l, a < n) → I s → I (l.foldl f s) := fun l => by
    induction l with
    | nil => exact fun _ h => h
    | cons a l ih => exact fun hl hs => ih (fun b hb => hl b (List.mem_cons_of_mem _ hb)) (h _ a (hl a List.mem_cons_self) hs)
  exact hl _ (fun a ha => List.mem_range.1 ha) hs

section
variable {r : Word} {s : State}

theorem Conv.pwr (h : Conv r s) (p : Pwr) : Conv r { s with pwr := p } := h

theorem setField_conv {off hi lo v : Nat} (h : oConv ≠ off) (hs : Conv r s) : Conv r (s.setField off hi lo v) :=
  (reg_setField_other s hi lo v h).trans hs

theorem rasLog_conv {e : LogEv} (hs : Conv r s) : Conv r (rasLog s e) := ((rasLog_logs s e).reg oConv (by decide)).trans hs

theorem holdFabric_conv {c f : Nat} (hs : Conv r s) : Conv r (holdFabric s c f) := by
  rw [holdFabric_only]; exact hs.pwr _

theorem rCfloor_ne_oConv {c : Nat} (h : c < 64) : oConv ≠ rCfloor c := by unfold rCfloor oConv; omega
theorem rCrate_ne_oConv {c : Nat} (h : c < 64) : oConv ≠ rCrate c := by unfold rCrate oConv; omega

theorem refreshFloor_conv {c : Nat} (h : c < 64) (hs : Conv r s) : Conv r (refreshFloor s c) :=
  setField_conv (rCrate_ne_oConv h) (setField_conv (rCfloor_ne_oConv h) (setField_conv (rCfloor_ne_oConv h) (holdFabric_conv hs)))

theorem requestSetpoint_conv {c mv : Nat} (h : c < 64) (hs : Conv r s) : Conv r (requestSetpoint s c mv) := by
  have hl : Conv r (if max 520 (min mv 920) = mv then s else rasLog s (logEv 0x0503 (unitOf 3 c) (s.reg (rCfloor c)).toNat)) :=
    ite_rooted hs (rasLog_conv hs)
  exact ite_rooted hl (refreshFloor_conv h (setField_conv (rCfloor_ne_oConv h) (hl.pwr _)))

theorem holdCover_conv (hs : Conv r s) : Conv r (holdCover s) :=
  foldl_range_rooted (I := Conv r) (fun _ _ h h1 => ite_rooted h1 (requestSetpoint_conv h h1)) hs

theorem resumeAt_conv {c v : Nat} (h : c < 64) (hs : Conv r s) : Conv r (resumeAt s c v) := refreshFloor_conv h (hs.pwr _)

theorem requestInrush_conv {c : Nat} (hs : Conv r s) : Conv r (requestInrush s c) := ite_rooted hs (hs.pwr _)

theorem adoptPlan_conv {p : List (List Nat)} (hs : Conv r s) : Conv r (adoptPlan s p) :=
  holdCover_conv (foldl_range_rooted (I := Conv r) (fun _ _ h h1 => ite_rooted h1 (ite_rooted (requestInrush_conv (resumeAt_conv h h1))
    (requestSetpoint_conv h h1))) (hs.pwr _))

theorem refreshProfile_conv (hs : Conv r s) : Conv r (refreshProfile s) := by
  have hi : ∀ i, i < 16 → oConv ≠ oProf i := fun i h => by unfold oProf oConv; omega
  exact Conv.pwr (foldl_range_rooted (I := Conv r) (fun _ i h h1 => setField_conv (hi i h) h1) (setField_conv (by decide) hs)) _

theorem refreshAdmission_conv (hs : Conv r s) : Conv r (refreshAdmission s) :=
  holdCover_conv (refreshProfile_conv (foldl_range_rooted (I := Conv r) (fun _ _ h h1 => setField_conv (rCrate_ne_oConv h) h1) hs))

theorem refreshCeiling_conv (hs : Conv r s) : Conv r (refreshCeiling s) := ((refreshCeiling_spec s).2.1 oConv (by decide)).trans hs

theorem modTask_conv {i : Nat} {f : Task → Task} (hs : Conv r s) : Conv r (s.modTask i f) := by
  unfold State.modTask
  split
  · exact hs
  · exact hs

end

theorem shed_only (n : Nat) (s : State) : shed n s = { s with tasks := (shed n s).tasks } := by
  induction n generalizing s with
  | zero => rfl
  | succ n ih =>
    unfold shed
    split
    · rfl
    · split
      · rfl
      · next id _ =>
        obtain ⟨ts, hm⟩ : ∃ ts, s.modTask id (fun t => { t with
            stop := some ⟨stPARTIAL, 0x81⟩, ended := if t.running then t.ended else List.range t.plan.length }) = { s with tasks := ts } := by
          unfold State.modTask
          split
          · exact ⟨s.tasks, rfl⟩
          · exact ⟨_, rfl⟩
        rw [hm, ih { s with tasks := ts }]

theorem shed_conv {r : Word} {s : State} (n : Nat) (hs : Conv r s) : Conv r (shed n s) := by rw [shed_only]; exact hs

/-- A double fault leaves PWR_CONV and the limits that it set. -/
theorem doubleFault_spec (s : State) (plan : List (List Nat)) :
    (doubleFault s plan).reg oConv = s.reg oConv ∧ (doubleFault s plan).pwr.cap = s.pwr.cap ∧ (doubleFault s plan).pwr.towerA = s.pwr.towerA := by
  have hI : Steady (fun t => t.pwr.cap = s.pwr.cap ∧ t.pwr.towerA = s.pwr.towerA) := ⟨fun hp h => by rw [hp]; exact h⟩
  have hc := refreshCeiling_conv (r := s.reg oConv) (s := s) rfl
  have hp := refreshCeiling_steady hI (s := s) ⟨rfl, rfl⟩
  have hs : ∀ (n : Nat) {u : State}, u.pwr.cap = s.pwr.cap ∧ u.pwr.towerA = s.pwr.towerA →
      (shed n u).pwr.cap = s.pwr.cap ∧ (shed n u).pwr.towerA = s.pwr.towerA := fun n {u} h => by rw [shed_only]; exact h
  unfold doubleFault
  generalize refreshCeiling s = u at hc hp ⊢
  refine ite_rooted (I := fun t => t.reg oConv = s.reg oConv ∧ t.pwr.cap = s.pwr.cap ∧ t.pwr.towerA = s.pwr.towerA) ⟨hc, hp⟩ ⟨?_, ?_⟩
  · exact refreshAdmission_conv (adoptPlan_conv (refreshAdmission_conv (shed_conv _ hc)))
  · exact refreshAdmission_steady hI (adoptPlan_steady hI (refreshAdmission_steady hI (hs _ hp)))

/-! ## Units of a group that are lost -/

/-- One more element of a range fails a test that it passed. -/
theorem length_filter_range_add {p q : Nat → Bool} {i n : Nat} (hi : i < n) (hp : p i = false) (hq : q i = true) (hpq : ∀ j, j ≠ i → q j = p j) :
    ((List.range n).filter q).length = ((List.range n).filter p).length + 1 := by
  have hsame : ∀ m, m ≤ i → (List.range m).filter q = (List.range m).filter p := fun m hm =>
    List.filter_congr fun j hj => hpq j (by have := List.mem_range.1 hj; omega)
  induction n with
  | zero => omega
  | succ n ih =>
    rw [List.range_succ, List.filter_append, List.filter_append, List.length_append, List.length_append]
    by_cases hn : i = n
    · subst hn
      rw [hsame i (Nat.le_refl i)]
      simp [hp, hq]
    · rw [ih (by omega)]
      have : [n].filter q = [n].filter p := List.filter_congr fun j hj => hpq j (by rw [List.mem_singleton] at hj; omega)
      rw [this]; omega

/-- A unit's bit that is cleared counts once more as lost. -/
theorem lostIn_cleared {s t : State} {b lo n : Nat} (hlo : lo ≤ b) (hn : b < lo + n) (hs : s.regBit oConv b = true) (ht : t.regBit oConv b = false)
    (hst : ∀ i, i ≠ b → t.regBit oConv i = s.regBit oConv i) : lostIn t lo n = lostIn s lo n + 1 := by
  obtain ⟨i, rfl⟩ : ∃ i, b = lo + i := ⟨b - lo, by omega⟩
  exact length_filter_range_add (i := i) (by omega) (by rw [hs]; rfl) (by rw [ht]; rfl) fun j hj => by rw [hst _ (by omega)]

/-! ## Converters and tower modules (R407, R409) -/

/-- What the loss of a unit leaves: its bit is clear, an event stands and an entry has entered the log. -/
structure UnitLost (s : State) (b code n : Nat) (t : State) : Prop where
  still : Still s t
  logged : Logged s t code
  lost : t.regBit oConv b = false
  others : ∀ i, i ≠ b → t.regBit oConv i = s.regBit oConv i
  event : t.regBit oPwrEvt n = true
  cap : t.pwr = s.pwr
  off : t.md = s.md

/-- An event is raised and an entry written. -/
theorem eventLogged_spec (s : State) {n : Nat} (hn : n < 8) (e : LogEv) (he : e.code < 2 ^ 16) :
    Logs (pwrEvent s n) (rasLog (pwrEvent s n) e) ∧ Still s (rasLog (pwrEvent s n) e) ∧ Logged s (rasLog (pwrEvent s n) e) e.code ∧
    (rasLog (pwrEvent s n) e).reg oConv = s.reg oConv ∧ (rasLog (pwrEvent s n) e).regBit oPwrEvt n = true ∧
    (rasLog (pwrEvent s n) e).pwr = s.pwr ∧ (rasLog (pwrEvent s n) e).md = s.md := by
  obtain ⟨hp, hreg, hbit, -⟩ := pwrEvent_spec s hn
  have hl := rasLog_logs (pwrEvent s n) e
  have hg := rasLog_logged (pwrEvent s n) e he
  have h0 := hreg rLogHead (by decide)
  have h1 := hreg oConv (by decide)
  generalize pwrEvent s n = u at *
  have hu : u.ras = s.ras ∧ u.pwr = s.pwr ∧ u.md = s.md ∧ Still s u := by rw [hp]; exact ⟨rfl, rfl, rfl, ⟨rfl, rfl, rfl, rfl⟩, rfl⟩
  obtain ⟨u1, u2, u3, u4⟩ := hu
  have hlo := hl.only
  have hlr := hl.reg oConv (by decide)
  have hle := hl.reg oPwrEvt (by decide)
  generalize rasLog u e = t at *
  unfold LogsOnly at hlo
  have ht : t.pwr = u.pwr ∧ t.md = u.md ∧ Still u t := by rw [hlo]; exact ⟨rfl, rfl, ⟨rfl, rfl, rfl, rfl⟩, rfl⟩
  obtain ⟨t1, t2, t3⟩ := ht
  exact ⟨hl, u4.trans t3, hg.of_same u1 h0, hlr.trans h1, (regBit_of_reg_eq hle n).trans hbit, t1.trans u2, t2.trans u3⟩

/-- The unit's bit is cleared, with its event and entry. -/
def unitLost (s : State) (b code : Nat) : State :=
  rasLog (pwrEvent (s.setField oConv b b 0) 4) (logEv code unitModule ((pwrEvent (s.setField oConv b b 0) 4).reg oConv).toNat)

theorem unitLost_spec (s : State) {b code : Nat} (hb : b < 32) (hc : code < 2 ^ 16) : UnitLost s b code 4 (unitLost s b code) := by
  obtain ⟨v, hv, hvr, hvb, hvo⟩ : ∃ v, v = s.setField oConv b b 0 ∧ RegsOnly s v ∧ v.regBit oConv b = false ∧
      (v.reg rLogHead = s.reg rLogHead ∧ ∀ i, i ≠ b → v.regBit oConv i = s.regBit oConv i) :=
    ⟨_, rfl, setField_regsOnly .., by rw [regBit_setField _ _ _ (Nat.le_refl b) hb, if_pos ⟨Nat.le_refl b, Nat.le_refl b⟩, Nat.sub_self]; rfl,
      reg_setField_other _ _ _ _ (by decide), fun i hi => regBit_setField_apart _ _ _ (Nat.le_refl b) hb (by omega)⟩
  unfold unitLost
  rw [← hv]
  obtain ⟨-, h1, h2, h3, h4, h5, h6⟩ := eventLogged_spec v (n := 4) (by decide) (logEv code unitModule ((pwrEvent v 4).reg oConv).toNat) hc
  generalize rasLog (pwrEvent v 4) _ = t at *
  unfold RegsOnly at hvr
  have hs : Still s v ∧ v.ras = s.ras ∧ v.pwr = s.pwr ∧ v.md = s.md := by rw [hvr]; exact ⟨⟨⟨rfl, rfl, rfl, rfl⟩, rfl⟩, rfl, rfl, rfl⟩
  obtain ⟨s1, s2, s3, s4⟩ := hs
  exact ⟨s1.trans h1, h2.of_same s2 hvo.1, (regBit_of_reg_eq h3 b).trans hvb, fun i hi => (regBit_of_reg_eq h3 i).trans (hvo.2 i hi), h4,
    h5.trans s3, h6.trans s4⟩

theorem converterFailed_eq {s : State} {u : Fin 4} (plan : List (List Nat)) (h : s.regBit oConv u = true) :
    exec (.converterFailed u plan) s = .next (if lostIn (unitLost s u 0x0505) 0 4 < 2 then unitLost s u 0x0505
      else doubleFault { unitLost s u 0x0505 with pwr := { (unitLost s u 0x0505).pwr with cap := 1800 } } plan) := by
  have hc : ¬ (!s.regBit oConv u) = true := by rw [h]; decide
  exact congrArg Host.Outcome.next (if_neg hc)

theorem converterFailed_spec {s : State} {u : Fin 4} (plan : List (List Nat)) (h : s.regBit oConv u = true) :
    ∃ t, exec (.converterFailed u plan) s = .next t ∧ t.regBit oConv u = false ∧
      (lostIn s 0 4 = 0 → Still s t ∧ Logged s t 0x0505 ∧ t.regBit oPwrEvt 4 = true) ∧ (1 ≤ lostIn s 0 4 → t.pwr.cap = 1800) := by
  have hu := unitLost_spec s (b := u) (code := 0x0505) (by omega) (by decide)
  rw [converterFailed_eq plan h]
  refine ⟨_, rfl, ?_⟩
  generalize unitLost s u 0x0505 = v at hu ⊢
  have hl : lostIn v 0 4 = lostIn s 0 4 + 1 := lostIn_cleared (b := u) (by omega) (by omega) h hu.lost hu.others
  by_cases h2 : lostIn v 0 4 < 2
  · rw [if_pos h2]
    exact ⟨hu.lost, fun _ => ⟨hu.still, hu.logged, hu.event⟩, fun _ => by omega⟩
  · obtain ⟨h1, hcap, -⟩ := doubleFault_spec { v with pwr := { v.pwr with cap := 1800 } } plan
    rw [if_neg h2]
    exact ⟨(regBit_of_reg_eq h1 u).trans hu.lost, fun _ => by omega, fun _ => hcap⟩

/-! ## What the loss of a domain leaves (R409, R410, R447) -/

/-- The failures on record stay, and a domain that is lost stays so. -/
structure Losing (s t : State) : Prop where
  failed : t.pwr.failed = s.pwr.failed
  path : t.pwr.path = s.pwr.path
  sense : t.pwr.sense = s.pwr.sense
  dom : ∀ d, tget 0 s.pwr.dom d = 3 → tget 0 t.pwr.dom d = 3

theorem Losing.rfl {s : State} : Losing s s := ⟨Eq.refl _, Eq.refl _, Eq.refl _, fun _ h => h⟩
theorem Losing.trans {a b c : State} (h : Losing a b) (k : Losing b c) : Losing a c :=
  ⟨k.failed.trans h.failed, k.path.trans h.path, k.sense.trans h.sense, fun d hd => k.dom d (h.dom d hd)⟩

theorem losing_steady (s : State) : Steady (Losing s) := ⟨fun hp h => ⟨by rw [hp]; exact h.failed, by rw [hp]; exact h.path, by rw [hp]; exact h.sense,
  by rw [hp]; exact h.dom⟩⟩

theorem Losing.of_pwr {s t : State} (h : t.pwr = s.pwr) : Losing s t := by
  refine ⟨by rw [h], by rw [h], by rw [h], fun d hd => by rw [h]; exact hd⟩

theorem rasLog_losing (s : State) (e : LogEv) : Losing s (rasLog s e) := rasLog_steady (losing_steady s) .rfl
theorem refreshAdmission_losing (s : State) : Losing s (refreshAdmission s) := refreshAdmission_steady (losing_steady s) .rfl
theorem refreshFloor_losing (s : State) (c : Nat) : Losing s (refreshFloor s c) := refreshFloor_steady (losing_steady s) .rfl
theorem refreshClcore_losing (s : State) (c : Nat) : Losing s (refreshClcore s c) := refreshClcore_steady (losing_steady s) .rfl
theorem setField_losing (s : State) (off hi lo v : Nat) : Losing s (s.setField off hi lo v) := State.setField_steady (losing_steady s) .rfl

theorem stopCore_losing (s : State) (c code : Nat) : Losing s (stopCore s c code) := by
  obtain ⟨ts, cs, h⟩ := stopCore_eq s c code
  exact .of_pwr (by rw [h])

theorem loseTask_losing (s : State) (id rank reason code : Nat) : Losing s (loseTask s id rank reason code) := by
  unfold loseTask
  split
  · exact .rfl
  · refine .trans ?_ (rasLog_losing _ _)
    unfold State.modTask
    split
    · exact .rfl
    · exact .of_pwr rfl

/-- The clusters that are retired stay so. -/
def Retired (c : Nat) (s : State) : Prop := (s.cluster c).retired = true

theorem retired_steady (c : Nat) : Steady (Retired c) := ⟨fun _ h => h⟩

theorem stopCore_retired {s : State} {c k code : Nat} (h : Retired c s) : Retired c (stopCore s k code) := by
  obtain ⟨ts, cs, he⟩ := stopCore_eq s k code
  rw [he]; exact h

/-- The mark and the switched-off domain of a cluster that retires. -/
def markRetired (s : State) (c : Nat) : State :=
  let s := s.modCluster c (fun k => { k with retired := true, attnTest := 0 })
  { s with pwr := { s.pwr with dom := tset 0 s.pwr.dom c 3, light := s.pwr.light.filter (· != c) } }

theorem markRetired_spec (s : State) (c : Nat) : Losing s (markRetired s c) ∧ Retired c (markRetired s c) := by
  refine ⟨⟨rfl, rfl, rfl, fun d hd => ?_⟩, ?_⟩
  · show tget 0 (tset 0 s.pwr.dom c 3) d = 3
    by_cases h : d = c
    · rw [h]; exact tget_tset_same ..
    · rw [tget_tset_other _ _ _ h]; exact hd
  · show (tget Cluster.fresh (tset Cluster.fresh s.clusters c { s.cluster c with retired := true, attnTest := 0 }) c).retired = true
    rw [tget_tset_same]

theorem retireCluster_spec (s : State) (c code : Nat) : Losing s (retireCluster s c code) ∧ Retired c (retireCluster s c code) := by
  unfold retireCluster
  split
  · next h => exact ⟨.rfl, h⟩
  · have hmark := markRetired_spec s c
    have hst := foldl_rel (R := Losing) (fun _ => .rfl) .trans (f := fun s i => stopCore s (9 * c + i) code) (fun u i => stopCore_losing u _ _) (List.range 9)
    have hret : ∀ u, Retired c u → Retired c ((List.range 9).foldl (fun s i => stopCore s (9 * c + i) code) u) := fun u h =>
      foldl_rooted (fun _ _ h1 => stopCore_retired h1) h
    have hlog : ∀ v e, Losing s v ∧ Retired c v → Losing s (rasLog v e) ∧ Retired c (rasLog v e) := fun v e h =>
      ⟨h.1.trans (rasLog_losing v e), rasLog_steady (retired_steady c) h.2⟩
    have hmid : ∀ u, Losing s u ∧ Retired c u → Losing s ((refreshClcore (refreshFloor u c) c).setField (rClcore c) 20 20 0) ∧
        Retired c ((refreshClcore (refreshFloor u c) c).setField (rClcore c) 20 20 0) := fun u h =>
      ⟨h.1.trans ((refreshFloor_losing u c).trans ((refreshClcore_losing _ c).trans (setField_losing ..))),
        State.setField_steady (retired_steady c) (refreshClcore_steady (retired_steady c) (refreshFloor_steady (retired_steady c) h.2))⟩
    exact hlog _ _ ⟨(hmid _ hmark).1.trans (hst _), hret _ (hmid _ hmark).2⟩

theorem retireCluster_losing (s : State) (c code : Nat) : Losing s (retireCluster s c code) := (retireCluster_spec s c code).1

theorem loseTasks_losing (l : List (Nat × Nat)) (reason code : Nat) (s : State) :
    Losing s (l.foldl (fun s p => loseTask s p.1 p.2 reason code) s) :=
  foldl_rel (fun _ => .rfl) .trans (fun u (p : Nat × Nat) => loseTask_losing u p.1 p.2 reason code) l s

theorem retireClusters_losing (b n code : Nat) (s : State) : Losing s ((List.range n).foldl (fun s i => retireCluster s (b + i) code) s) :=
  foldl_rel (fun _ => .rfl) .trans (fun u i => retireCluster_losing u (b + i) code) _ s

theorem retireDie_losing (s : State) (d : Nat) : Losing s (retireDie s d) := by
  have h0 : Losing s { s with pwr := { s.pwr with dom := tset 0 s.pwr.dom (64 + d) 3 } } := ⟨rfl, rfl, rfl, fun e he => by
    show tget 0 (tset 0 s.pwr.dom (64 + d) 3) e = 3
    by_cases h : e = 64 + d
    · rw [h]; exact tget_tset_same ..
    · rw [tget_tset_other _ _ _ h]; exact he⟩
  exact (h0.trans (retireClusters_losing (16 * d) 16 0x020D _)).trans ((rasLog_losing _ _).trans ((loseTasks_losing _ _ _ _).trans (refreshAdmission_losing _)))

/-- A tower's cache domains are switched off. -/
def darkTower (s : State) (t : Nat) : State :=
  let dom := (List.range 2).foldl (fun m i => tset 0 m (68 + 2 * t + i) 3) s.pwr.dom
  { s with pwr := { s.pwr with dom := dom } }

theorem darkTower_spec (s : State) (t : Nat) : Losing s (darkTower s t) ∧ tget 0 (darkTower s t).pwr.dom (69 + 2 * t) = 3 := by
  have hdom : (darkTower s t).pwr.dom = tset 0 (tset 0 s.pwr.dom (68 + 2 * t) 3) (68 + 2 * t + 1) 3 := rfl
  refine ⟨⟨rfl, rfl, rfl, fun e he => ?_⟩, ?_⟩
  · rw [hdom]
    by_cases h : e = 68 + 2 * t + 1
    · rw [h]; exact tget_tset_same ..
    · rw [tget_tset_other _ _ _ h]
      by_cases h' : e = 68 + 2 * t
      · rw [h']; exact tget_tset_same ..
      · rw [tget_tset_other _ _ _ h']; exact he
  · rw [hdom, show 69 + 2 * t = 68 + 2 * t + 1 by omega]; exact tget_tset_same ..

/-- A tower that retires has lost its cache logic's domain. -/
theorem retireTower_spec (s : State) (t : Nat) : Losing s (retireTower s t) ∧ towerRetired (retireTower s t) t = true := by
  have hall : ∀ u, Losing (darkTower s t) u → Losing s u ∧ towerRetired u t = true := fun u h =>
    ⟨(darkTower_spec s t).1.trans h, by unfold towerRetired; rw [h.dom _ (darkTower_spec s t).2]; rfl⟩
  unfold retireTower
  split
  · next h => exact ⟨.rfl, h⟩
  · exact hall _ ((retireClusters_losing (32 * t) 32 0x020E _).trans ((rasLog_losing _ _).trans ((loseTasks_losing _ _ _ _).trans
      (refreshAdmission_losing _))))

/-! ## The shutdown of R387 -/

/-- The module is off; the failures on record stay, and PWR_CONV. -/
structure Off (s t : State) : Prop where
  off : t.md.off = true
  failed : t.pwr.failed = s.pwr.failed
  path : t.pwr.path = s.pwr.path

theorem off_steady (s : State) : Steady (Off s) := ⟨fun hp h => ⟨h.off, by rw [hp]; exact h.failed, by rw [hp]; exact h.path⟩⟩

theorem idleLinks_steady {I : State → Prop} (hI : Steady I) {s : State} (hs : I s) : I (idleLinks s) :=
  foldl_rooted (fun _ _ h1 => ite_rooted h1 (ite_rooted
    (State.setField_steady hI (State.setField_steady hI (State.setField_steady hI h1)))
    (rasLog_steady hI (State.setField_steady hI (State.setField_steady hI (State.setField_steady hI h1)))))) hs

theorem idleLinks_conv {r : Word} {s : State} (hs : Conv r s) : Conv r (idleLinks s) := by
  have ho : ∀ l, oConv ≠ 0x02010000 + 16 * l := fun l => by unfold oConv; omega
  exact foldl_rooted (I := Conv r) (fun _ l h1 => ite_rooted h1 (ite_rooted
    (setField_conv (ho l) (setField_conv (ho l) (setField_conv (ho l) h1)))
    (rasLog_conv (setField_conv (ho l) (setField_conv (ho l) (setField_conv (ho l) h1)))))) hs

theorem shutdown_off (s : State) : Off s (shutdown s) := by
  unfold shutdown
  split
  · next h => exact ⟨h, rfl, rfl⟩
  · exact refreshAdmission_steady (off_steady s) (foldl_rooted (fun _ _ h1 => refreshFloor_steady (off_steady s) h1)
      (State.setReg_steady (off_steady s) (idleLinks_steady (off_steady s) (State.setField_steady (off_steady s) (State.setField_steady (off_steady s)
        ⟨rfl, rfl, rfl⟩)))))

theorem setReg_conv {r : Word} {s : State} {off : Nat} {v : Word} (h : oConv ≠ off) (hs : Conv r s) : Conv r (s.setReg off v) :=
  (reg_setReg_other s v h).trans hs

theorem shutdown_conv {r : Word} {s : State} (hs : Conv r s) : Conv r (shutdown s) := by
  unfold shutdown
  split
  · exact hs
  · exact refreshAdmission_conv (foldl_range_rooted (I := Conv r) (fun _ _ h h1 => refreshFloor_conv h h1)
      (setReg_conv (by decide) (idleLinks_conv (setField_conv (by decide) (setField_conv (by decide) hs)))))

/-! ## The loss of a domain -/

/-- What the loss of a domain leaves and takes. -/
structure DomainLost (s : State) (d : Nat) (t : State) : Prop where
  failed : t.pwr.failed = s.pwr.failed
  path : t.pwr.path = s.pwr.path
  cluster : d < 64 → Retired d t
  tower : 68 ≤ d → d < 72 → towerRetired t ((d - 68) / 2) = true
  off : 72 ≤ d → t.md.off = true

theorem domainLost_steady (s : State) (d : Nat) : Steady (DomainLost s d) := ⟨fun hp h => ⟨by rw [hp]; exact h.failed, by rw [hp]; exact h.path,
  h.cluster, by unfold towerRetired; rw [hp]; exact h.tower, h.off⟩⟩

theorem loseDomain_lost (s : State) (d code : Nat) : DomainLost s d (loseDomain s d code) := by
  unfold loseDomain
  split
  · obtain ⟨h1, h2⟩ := retireCluster_spec s d code
    exact ⟨h1.failed, h1.path, fun _ => h2, fun _ _ => by omega, fun _ => by omega⟩
  · split
    · have h := retireDie_losing s (d - 64)
      exact ⟨h.failed, h.path, fun _ => by omega, fun _ _ => by omega, fun _ => by omega⟩
    · split
      · obtain ⟨h1, h2⟩ := retireTower_spec s ((d - 68) / 2)
        exact ⟨h1.failed, h1.path, fun _ => by omega, fun _ _ => h2, fun _ => by omega⟩
      · have h := shutdown_off s
        exact ⟨h.failed, h.path, fun _ => by omega, fun _ _ => by omega, fun _ => h.off⟩

theorem logDom_steady {I : State → Prop} (hI : Steady I) {s : State} {code d : Nat} (hs : I s) : I (logDom s code d) := rasLog_steady hI hs

theorem switchedOff_dom (s : State) (d : Nat) : tget 0 ({ s with pwr := { s.pwr with dom := tset 0 s.pwr.dom d 4 } } : State).pwr.dom d = 4 :=
  tget_tset_same 0 s.pwr.dom d 4

theorem domainOvercurrent_spec {s : State} {dom : Fin 78} (h3 : tget 0 s.pwr.dom dom ≠ 3) (h4 : tget 0 s.pwr.dom dom ≠ 4) :
    ∃ t, exec (.domainOvercurrent dom) s = .next t ∧ tget 0 t.pwr.dom dom = 4 ∧
      (dom.val < 64 → (t.cluster dom).retired = true) ∧ (72 ≤ dom.val → t.md.off = true) := by
  have he : exec (.domainOvercurrent dom) s = execDomainOvercurrent dom s := rfl
  have hl := loseDomain_lost s dom 0x0504
  rw [he]
  unfold execDomainOvercurrent
  refine ⟨_, congrArg Host.Outcome.next (if_neg (not_or.2 ⟨h3, h4⟩)), ?_⟩
  have hI : Steady (fun t => tget 0 t.pwr.dom dom = 4 ∧ (dom.val < 64 → Retired dom t) ∧ (72 ≤ dom.val → t.md.off = true)) :=
    ⟨fun hp h => ⟨by rw [hp]; exact h.1, h.2⟩⟩
  exact logDom_steady hI (refreshAdmission_steady hI ⟨switchedOff_dom _ _, hl.cluster, hl.off⟩)

/-! ## Tower modules and the I/O's (R407, R409) -/

theorem vvmFailed_eq {s : State} {u : Fin 16} (plan : List (List Nat)) (h : s.regBit oConv (4 + u.val) = true) :
    exec (.vvmFailed u plan) s = .next (
      let v := unitLost s (4 + u.val) 0x0506
      if 14 ≤ u.val then (if 2 ≤ lostIn v 18 2 then shutdown v else v)
      else if lostIn v (4 + 7 * (u.val / 7)) 7 < 2 then v
      else doubleFault { v with pwr := { v.pwr with towerA := tset 1200 v.pwr.towerA (u.val / 7) 1000 } } plan) := by
  have hc : ¬ (!s.regBit oConv (4 + u.val)) = true := by rw [h]; decide
  exact congrArg Host.Outcome.next (if_neg hc)

theorem vvmFailed_spec {s : State} {u : Fin 16} (plan : List (List Nat)) (h : s.regBit oConv (4 + u.val) = true) :
    ∃ t, exec (.vvmFailed u plan) s = .next t ∧ t.regBit oConv (4 + u.val) = false ∧
      (u.val < 14 → (lostIn s (4 + 7 * (u.val / 7)) 7 = 0 → Still s t ∧ Logged s t 0x0506) ∧
        (1 ≤ lostIn s (4 + 7 * (u.val / 7)) 7 → towerLimit t (u.val / 7) = 1000)) ∧
      (14 ≤ u.val → 1 ≤ lostIn s 18 2 → t.md.off = true) := by
  have hu := unitLost_spec s (b := 4 + u.val) (code := 0x0506) (by omega) (by decide)
  rw [vvmFailed_eq plan h]
  refine ⟨_, rfl, ?_⟩
  generalize unitLost s (4 + u.val) 0x0506 = v at hu ⊢
  dsimp only
  have hlt := u.isLt
  by_cases h14 : 14 ≤ u.val
  · have hl : lostIn v 18 2 = lostIn s 18 2 + 1 := lostIn_cleared (b := 4 + u.val) (by omega) (by omega) h hu.lost hu.others
    rw [if_pos h14]
    refine ⟨?_, fun _ => by omega, fun _ h1 => ?_⟩
    · split
      · exact (regBit_of_reg_eq (shutdown_conv (r := v.reg oConv) rfl) _).trans hu.lost
      · exact hu.lost
    · rw [if_pos (by omega)]; exact (shutdown_off v).off
  · have hl : lostIn v (4 + 7 * (u.val / 7)) 7 = lostIn s (4 + 7 * (u.val / 7)) 7 + 1 :=
      lostIn_cleared (b := 4 + u.val) (by omega) (by omega) h hu.lost hu.others
    rw [if_neg h14]
    by_cases h2 : lostIn v (4 + 7 * (u.val / 7)) 7 < 2
    · rw [if_pos h2]
      exact ⟨hu.lost, fun _ => ⟨fun _ => ⟨hu.still, hu.logged⟩, fun _ => by omega⟩, fun _ => by omega⟩
    · obtain ⟨h1, -, ha⟩ := doubleFault_spec { v with pwr := { v.pwr with towerA := tset 1200 v.pwr.towerA (u.val / 7) 1000 } } plan
      rw [if_neg h2]
      refine ⟨(regBit_of_reg_eq h1 _).trans hu.lost, fun _ => ⟨fun _ => by omega, fun _ => ?_⟩, fun _ => by omega⟩
      unfold towerLimit
      rw [ha]
      exact tget_tset_same 1200 v.pwr.towerA (u.val / 7) 1000

/-! ## Phases (R410) -/

theorem nbit_add (m : Nat) {b : Nat} (h : nbit m b = false) : nbit (m + 2 ^ b) b = true := by
  unfold nbit at *
  rw [Nat.shiftRight_eq_div_pow] at *
  rw [Nat.add_div_right _ (Nat.two_pow_pos b)]
  simp only [beq_eq_false_iff_ne, beq_iff_eq] at h ⊢
  omega

/-- A phase on record. -/
def phaseLost (s : State) (d ph : Nat) : State := { s with pwr := { s.pwr with failed := tset 0 s.pwr.failed d (tget 0 s.pwr.failed d + 2 ^ ph) } }

/-- The phase's record and event. -/
def phaseRecorded (s : State) (d ph : Nat) : State := pwrEvent (addRepair (phaseLost s d ph) (8, d, ph)) 5

theorem phaseLost_bit {s : State} {d ph : Nat} (h : nbit (tget 0 s.pwr.failed d) ph = false) : nbit (tget 0 (phaseLost s d ph).pwr.failed d) ph = true := by
  have he : (phaseLost s d ph).pwr.failed = tset 0 s.pwr.failed d (tget 0 s.pwr.failed d + 2 ^ ph) := rfl
  rw [he, tget_tset_same]
  exact nbit_add _ h

/-- The record and the event of a phase with an entry that follows. -/
theorem phaseRecorded_logged (s : State) (d ph code : Nat) (hc : code < 2 ^ 16) :
    let t := logDom (phaseRecorded s d ph) code d
    Still s t ∧ Recorded s t (8, d, ph) ∧ Logged s t code ∧ t.regBit oPwrEvt 5 = true := by
  obtain ⟨-, -, hras, hreg, hrec⟩ := addRepair_spec (phaseLost s d ph) (8, d, ph) 0
  have hstill : ∀ u : State, Repairs (phaseLost s d ph) u 0 → Still s u := fun u h => by rw [h.only]; exact ⟨⟨rfl, rfl, rfl, rfl⟩, rfl⟩
  have h0 := hstill _ (addRepair_spec (phaseLost s d ph) (8, d, ph) 0).1
  have hhead := hreg rLogHead (by decide)
  unfold phaseRecorded logDom
  generalize addRepair (phaseLost s d ph) (8, d, ph) = u at *
  have hs : (phaseLost s d ph).ras = s.ras ∧ (phaseLost s d ph).ecc = s.ecc ∧ (phaseLost s d ph).regs = s.regs := ⟨rfl, rfl, rfl⟩
  generalize phaseLost s d ph = s1 at *
  obtain ⟨a1, a2, a3⟩ := hs
  have hr : ∀ off, s1.reg off = s.reg off := fun off => by unfold State.reg; rw [a3]
  obtain ⟨hl, k1, k2, -, k4, -, -⟩ := eventLogged_spec u (n := 5) (by decide) (logEv code (unitOf 7 d) (dstat (pwrEvent u 5) d)) hc
  have hecc : (pwrEvent u 5).ecc = u.ecc := by rw [(pwrEvent_spec u (n := 5) (by decide)).1]
  generalize pwrEvent u 5 = v at *
  dsimp only
  generalize rasLog v _ = t at *
  exact ⟨h0.trans k1, (hrec.of_same a2 (hr _)).of_ecc (hl.only.ecc.trans hecc), k2.of_same (hras.trans a1) (hhead.trans (hr _)), k4⟩

theorem phaseRecorded_failed (s : State) (d ph : Nat) : (phaseRecorded s d ph).pwr.failed = (phaseLost s d ph).pwr.failed := by
  have hI : ∀ x, Steady (fun t => t.pwr.failed = x) := fun x => ⟨fun hp h => by rw [hp]; exact h⟩
  exact pwrEvent_steady (hI _) (addRepair_steady (hI _) rfl)

theorem phasesUp_of_failed {s t : State} (h : t.pwr.failed = s.pwr.failed) (d : Nat) : phasesUp t d = phasesUp s d := by unfold phasesUp; rw [h]

theorem failedPhases_of_failed {s t : State} (h : t.pwr.failed = s.pwr.failed) (d : Nat) : failedPhases t d = failedPhases s d := by
  unfold failedPhases; rw [h]

theorem logDom_failed (s : State) (code d : Nat) : (logDom s code d).pwr.failed = s.pwr.failed :=
  logDom_steady (I := fun t => t.pwr.failed = s.pwr.failed) ⟨fun hp h => by rw [hp]; exact h⟩ rfl

theorem holdCommit_failed (s : State) (c : Nat) : (holdCommit s c).pwr.failed = s.pwr.failed := by rw [(holdCommit_keeps s c).pwr]

/-- What a cluster's phase loss leads to. -/
def clusterPhase (s : State) (d : Nat) : State :=
  if 5 ≤ phasesUp s d then logDom s 0x0507 d
  else if phasesUp s d = 4 then logDom (holdCommit s d) 0x0508 d
  else logDom (refreshAdmission (retireCluster s d 0x0509)) 0x0509 d

theorem clusterPhase_spec (s : State) (d : Nat) : (clusterPhase s d).pwr.failed = s.pwr.failed ∧
    (5 ≤ phasesUp s d → clusterPhase s d = logDom s 0x0507 d) ∧ (phasesUp s d ≤ 3 → Retired d (clusterPhase s d)) := by
  unfold clusterPhase
  by_cases h5 : 5 ≤ phasesUp s d
  · rw [if_pos h5]
    exact ⟨logDom_failed .., fun _ => rfl, fun _ => by omega⟩
  · rw [if_neg h5]
    by_cases h4 : phasesUp s d = 4
    · rw [if_pos h4]
      exact ⟨(logDom_failed ..).trans (holdCommit_failed s d), fun _ => by omega, fun _ => by omega⟩
    · rw [if_neg h4]
      obtain ⟨k1, k2⟩ := retireCluster_spec s d 0x0509
      exact ⟨(logDom_failed ..).trans ((refreshAdmission_losing _).failed.trans k1.failed), fun _ => by omega,
        fun _ => logDom_steady (retired_steady d) (refreshAdmission_steady (retired_steady d) k2)⟩

/-- What another domain's phase loss leads to. -/
def domainPhase (s : State) (d : Nat) : State :=
  if d < 72 then (if phasesUp s d < domNeeded d then loseDomain s d 0x0507 else s)
  else if 2 ≤ failedPhases s d then shutdown s else s

theorem domainPhase_spec (s : State) (d : Nat) : (domainPhase s d).pwr.failed = s.pwr.failed ∧
    (72 ≤ d → 2 ≤ failedPhases s d → (domainPhase s d).md.off = true) := by
  unfold domainPhase
  split
  · refine ⟨?_, fun _ => by omega⟩
    split
    · exact (loseDomain_lost ..).failed
    · rfl
  · split
    · exact ⟨(shutdown_off s).failed, fun _ _ => (shutdown_off s).off⟩
    · next h => exact ⟨rfl, fun _ h2 => absurd h2 h⟩

theorem ivrPhaseFailed_eq {s : State} {dom : Fin 78} {ph : Fin 16} (h : nbit (tget 0 s.pwr.failed dom) ph = false)
    (hd : 75 ≤ dom.val ∨ ph.val < domPhases dom) : exec (.ivrPhaseFailed dom ph) s = .next (
      if dom.val < 64 then clusterPhase (phaseRecorded s dom ph) dom else domainPhase (logDom (phaseRecorded s dom ph) 0x0507 dom) dom) := by
  have hc : ¬ (nbit (tget 0 s.pwr.failed dom) ph = true ∨ (dom.val < 75 ∧ domPhases dom ≤ ph.val)) := by
    rw [h]; rintro (h | h)
    · exact absurd h (by decide)
    · omega
  exact congrArg Host.Outcome.next (if_neg hc)

theorem ivrPhaseFailed_spec {s : State} {dom : Fin 78} {ph : Fin 16} (h : nbit (tget 0 s.pwr.failed dom) ph = false)
    (hd : 75 ≤ dom.val ∨ ph.val < domPhases dom) :
    ∃ t, exec (.ivrPhaseFailed dom ph) s = .next t ∧ nbit (tget 0 t.pwr.failed dom) ph = true ∧
      (dom.val < 64 → 5 ≤ phasesUp t dom → Still s t ∧ Recorded s t (8, dom.val, ph.val) ∧ Logged s t 0x0507 ∧ t.regBit oPwrEvt 5 = true) ∧
      (dom.val < 64 → phasesUp t dom ≤ 3 → (t.cluster dom).retired = true) ∧
      (72 ≤ dom.val → 2 ≤ failedPhases t dom → t.md.off = true) := by
  have hfail := phaseRecorded_failed s dom ph
  have hlog := phaseRecorded_logged s dom ph 0x0507 (by decide)
  have hbit := phaseLost_bit h
  rw [← hfail] at hbit
  refine ⟨_, ivrPhaseFailed_eq h hd, ?_⟩
  generalize phaseRecorded s dom ph = u at hlog hbit ⊢
  by_cases h64 : dom.val < 64
  · rw [if_pos h64]
    obtain ⟨k1, k2, k3⟩ := clusterPhase_spec u dom
    have hp := phasesUp_of_failed k1 dom
    refine ⟨by rw [k1]; exact hbit, fun _ h5 => ?_, fun _ h3 => k3 (by omega), fun _ => by omega⟩
    rw [k2 (by omega)]
    exact hlog
  · rw [if_neg h64]
    obtain ⟨k1, k2⟩ := domainPhase_spec (logDom u 0x0507 dom) dom
    exact ⟨by rw [k1, logDom_failed]; exact hbit, fun _ => by omega, fun _ => by omega,
      fun h72 h2 => k2 h72 (by rw [← failedPhases_of_failed k1]; exact h2)⟩

/-! ## Paths and sense routes (R413 to R415) -/

/-- The timer of one threshold: started, kept or cleared. -/
def pathTimer (s : State) (drop exp k j : Nat) : Nat :=
  if overPath drop exp j then (if tget 0 s.pwr.newPath k = 0 then s.clk.tick + 1 else tget 0 s.pwr.newPath k) else 0

/-- One threshold is timed. -/
def timePath (d drop exp : Nat) (s : State) (j : Nat) : State :=
  { s with pwr := { s.pwr with newPath := tset 0 s.pwr.newPath (4 * d + j) (pathTimer s drop exp (4 * d + j) j) } }

theorem timePath_spec {d drop exp j : Nat} {s u : State} (hu : u = timePath d drop exp s j) (k : Nat) : tget 0 u.pwr.newPath k =
    if k = 4 * d + j then pathTimer s drop exp (4 * d + j) j else tget 0 s.pwr.newPath k := by
  have he : (timePath d drop exp s j).pwr.newPath = tset 0 s.pwr.newPath (4 * d + j) (pathTimer s drop exp (4 * d + j) j) := rfl
  rw [hu, he]
  split
  · next h => rw [h, tget_tset_same]
  · next h => rw [tget_tset_other _ _ _ h]

theorem pathTimer_of_same {s t : State} {drop exp k : Nat} (j : Nat) (hc : t.clk = s.clk) (h : tget 0 t.pwr.newPath k = tget 0 s.pwr.newPath k) :
    pathTimer t drop exp k j = pathTimer s drop exp k j := by unfold pathTimer; rw [hc, h]

theorem timePath_only {d drop exp j : Nat} {s u : State} (hu : u = timePath d drop exp s j) :
    u.clk = s.clk ∧ Still s u ∧ u.regs = s.regs ∧ u.pwr.path = s.pwr.path := by
  rw [hu]; exact ⟨rfl, ⟨⟨rfl, rfl, rfl, rfl⟩, rfl⟩, rfl, rfl⟩

theorem pathCheck_spec (s : State) (dom : Fin 78) (drop exp : Nat) :
    ∃ t, exec (.pathCheck dom drop exp) s = .next t ∧ Still s t ∧ t.regs = s.regs ∧ t.pwr.path = s.pwr.path ∧
      ∀ j ∈ [1, 2, 3], tget 0 t.pwr.newPath (4 * dom.val + j) = pathTimer s drop exp (4 * dom.val + j) j := by
  have he : exec (.pathCheck dom drop exp) s = .next (timePath dom drop exp (timePath dom drop exp (timePath dom drop exp s 1) 2) 3) := rfl
  obtain ⟨u1, h1⟩ : ∃ u, u = timePath dom drop exp s 1 := ⟨_, rfl⟩
  obtain ⟨u2, h2⟩ : ∃ u, u = timePath dom drop exp u1 2 := ⟨_, rfl⟩
  obtain ⟨u3, h3⟩ : ∃ u, u = timePath dom drop exp u2 3 := ⟨_, rfl⟩
  have k1 := timePath_spec h1
  have k2 := timePath_spec h2
  have k3 := timePath_spec h3
  obtain ⟨c1, a1, b1, e1⟩ := timePath_only h1
  obtain ⟨c2, a2, b2, e2⟩ := timePath_only h2
  obtain ⟨-, a3, b3, e3⟩ := timePath_only h3
  rw [he, ← h1, ← h2, ← h3]
  refine ⟨u3, rfl, a1.trans (a2.trans a3), b3.trans (b2.trans b1), e3.trans (e2.trans e1), fun j hj => ?_⟩
  have hcases : j = 1 ∨ j = 2 ∨ j = 3 := by simpa using hj
  rcases hcases with rfl | rfl | rfl
  · rw [k3, if_neg (by omega), k2, if_neg (by omega), k1, if_pos rfl]
  · rw [k3, if_neg (by omega), k2, if_pos rfl]
    exact pathTimer_of_same 2 c1 (by rw [k1, if_neg (by omega)])
  · rw [k3, if_pos rfl]
    exact pathTimer_of_same 3 (c2.trans c1) (by rw [k2, if_neg (by omega), k1, if_neg (by omega)])

/-- The state of a path and its event. -/
def pathMarked (s : State) (d j : Nat) : State := pwrEvent { s with pwr := { s.pwr with path := tset 0 s.pwr.path d j } } 6

theorem pathMarked_path (s : State) (d j : Nat) : tget 0 (pathMarked s d j).pwr.path d = j := by
  have h : (pathMarked s d j).pwr = { s.pwr with path := tset 0 s.pwr.path d j } := by
    unfold pathMarked; rw [(pwrEvent_spec _ (n := 6) (by decide)).1]
  rw [h]
  exact tget_tset_same 0 s.pwr.path d j

theorem logDom_path (s : State) (code d : Nat) : (logDom s code d).pwr.path = s.pwr.path :=
  logDom_steady (I := fun t => t.pwr.path = s.pwr.path) ⟨fun hp h => by rw [hp]; exact h⟩ rfl

theorem holdCommit_path (s : State) (c : Nat) : (holdCommit s c).pwr.path = s.pwr.path := by rw [(holdCommit_keeps s c).pwr]

theorem applyPath_eq (s : State) (d j : Nat) : applyPath s d j =
    if j = 1 then logDom (pathMarked s d j) 0x050A d
    else if j = 2 then logDom (if d < 64 then holdCommit (pathMarked s d j) d else pathMarked s d j) 0x050B d
    else logDom (refreshAdmission (loseDomain (pathMarked s d j) d 0x050C)) 0x050C d := rfl

theorem applyPath_path (s : State) (d j : Nat) : tget 0 (applyPath s d j).pwr.path d = j := by
  have h := pathMarked_path s d j
  rw [applyPath_eq]
  generalize pathMarked s d j = u at h ⊢
  split
  · rw [logDom_path]; exact h
  · split
    · rw [logDom_path]
      split
      · rw [holdCommit_path]; exact h
      · exact h
    · rw [logDom_path, (refreshAdmission_losing _).path, (loseDomain_lost ..).path]; exact h

theorem applyPath_first (s : State) (d : Nat) : Still s (applyPath s d 1) ∧ Logged s (applyPath s d 1) 0x050A ∧ (applyPath s d 1).regBit oPwrEvt 6 = true := by
  have he : applyPath s d 1 = logDom (pathMarked s d 1) 0x050A d := by rw [applyPath_eq, if_pos rfl]
  rw [he]
  unfold logDom pathMarked
  have hu : ∀ p, Still s { s with pwr := p } ∧ ({ s with pwr := p } : State).ras = s.ras ∧ ({ s with pwr := p } : State).reg rLogHead = s.reg rLogHead :=
    fun p => ⟨⟨⟨rfl, rfl, rfl, rfl⟩, rfl⟩, rfl, rfl⟩
  have h := hu { s.pwr with path := tset 0 s.pwr.path d 1 }
  generalize ({ s with pwr := { s.pwr with path := tset 0 s.pwr.path d 1 } } : State) = u at h ⊢
  obtain ⟨h1, h2, h3⟩ := h
  obtain ⟨-, k1, k2, -, k4, -, -⟩ := eventLogged_spec u (n := 6) (by decide) (logEv 0x050A (unitOf 7 d) (dstat (pwrEvent u 6) d)) (show 0x050A < 2 ^ 16 by decide)
  exact ⟨h1.trans k1, k2.of_same h2 h3, k4⟩

theorem applyPath_third (s : State) (d : Nat) : DomainLost (pathMarked s d 3) d (applyPath s d 3) := by
  rw [applyPath_eq, if_neg (by decide), if_neg (by decide)]
  exact logDom_steady (domainLost_steady _ d) (refreshAdmission_steady (domainLost_steady _ d) (loseDomain_lost ..))

/-- A threshold that has been exceeded for 100 µs. -/
abbrev PathHeld (s : State) (d j : Nat) : Prop := tget 0 s.pwr.newPath (4 * d + j) ≠ 0 ∧ tget 0 s.pwr.newPath (4 * d + j) + 9999 ≤ s.clk.tick

theorem pathStateChange_eq {s : State} {dom : Fin 78} {j : Nat} (h1 : 1 ≤ j) (h3 : j ≤ 3) (hj : PathHeld s dom j)
    (hmax : ∀ i, j < i → i ≤ 3 → ¬ PathHeld s dom i) (hlt : tget 0 s.pwr.path dom < j) :
    exec (.pathStateChange dom) s = .next (applyPath s dom j) := by
  have he : exec (.pathStateChange dom) s = execPathStateChange dom s := rfl
  have hworst : (if decide (PathHeld s dom 3) = true then 3 else if decide (PathHeld s dom 2) = true then 2
      else if decide (PathHeld s dom 1) = true then 1 else 0) = j := by
    have hcases : j = 1 ∨ j = 2 ∨ j = 3 := by omega
    rcases hcases with rfl | rfl | rfl
    · rw [if_neg (by simpa using hmax 3 (by decide) (by decide)), if_neg (by simpa using hmax 2 (by decide) (by decide)), if_pos (by simpa using hj)]
    · rw [if_neg (by simpa using hmax 3 (by decide) (by decide)), if_pos (by simpa using hj)]
    · rw [if_pos (by simpa using hj)]
  rw [he]
  unfold execPathStateChange
  unfold PathHeld at hworst
  dsimp only
  rw [hworst, if_pos hlt]

theorem pathStateChange_spec {s : State} {dom : Fin 78} {j : Nat} (h1 : 1 ≤ j) (h3 : j ≤ 3) (hj : PathHeld s dom j)
    (hmax : ∀ i, j < i → i ≤ 3 → ¬ PathHeld s dom i) (hlt : tget 0 s.pwr.path dom < j) :
    ∃ t, exec (.pathStateChange dom) s = .next t ∧ tget 0 t.pwr.path dom = j ∧
      (j = 1 → Still s t ∧ Logged s t 0x050A ∧ t.regBit oPwrEvt 6 = true) ∧
      (j = 3 → (dom.val < 64 → (t.cluster dom).retired = true) ∧ (68 ≤ dom.val → dom.val < 72 → towerRetired t ((dom.val - 68) / 2) = true) ∧
        (72 ≤ dom.val → t.md.off = true)) := by
  refine ⟨_, pathStateChange_eq h1 h3 hj hmax hlt, applyPath_path .., fun h => ?_, fun h => ?_⟩
  · subst h; exact applyPath_first ..
  · subst h
    have k := applyPath_third s dom
    exact ⟨k.cluster, k.tower, k.off⟩

/-- A sense route on record. -/
def routeLost (s : State) (d r : Nat) : State := { s with pwr := { s.pwr with sense := tset 0 s.pwr.sense d (tget 0 s.pwr.sense d + 2 ^ r) } }

theorem routeLost_sense (s : State) (d r : Nat) : tget 0 (routeLost s d r).pwr.sense d = tget 0 s.pwr.sense d + 2 ^ r :=
  tget_tset_same 0 s.pwr.sense d _

theorem senseRouteFailure_eq {s : State} {dom : Fin 78} {r : Fin 2} (h : nbit (tget 0 s.pwr.sense dom) r = false) :
    exec (.senseRouteFailure dom r) s = .next (
      if pathReduced s dom = true ∨ ¬ pathReduced (routeLost s dom r) dom = true then routeLost s dom r
      else logDom (pwrEvent (if dom.val < 64 then holdCommit (routeLost s dom r) dom else routeLost s dom r) 6) 0x050B dom) :=
  congrArg Host.Outcome.next (if_neg (by rw [h]; decide))

theorem eventLogged_keeps (s : State) {n : Nat} (hn : n < 8) {code : Nat} (d : Nat) (hc : code < 2 ^ 16) :
    (logDom (pwrEvent s n) code d).pwr = s.pwr ∧ (logDom (pwrEvent s n) code d).mem = s.mem := by
  obtain ⟨-, h1, -, -, -, h2, -⟩ := eventLogged_spec s hn (logEv code (unitOf 7 d) (dstat (pwrEvent s n) d)) hc
  exact ⟨h2, h1.1.1⟩

theorem senseRouteFailure_spec {s : State} {dom : Fin 78} {r : Fin 2} (h : nbit (tget 0 s.pwr.sense dom) r = false) :
    ∃ t, exec (.senseRouteFailure dom r) s = .next t ∧ t.mem = s.mem ∧ tget 0 t.pwr.sense dom = tget 0 s.pwr.sense dom + 2 ^ r.val ∧
      (64 ≤ dom.val → pathReduced s dom = false → pathReduced t dom = true → Still s t ∧ Logged s t 0x050B) := by
  have hsense := routeLost_sense s dom r
  have hu : Still s (routeLost s dom r) ∧ (routeLost s dom r).ras = s.ras ∧ (routeLost s dom r).reg rLogHead = s.reg rLogHead :=
    ⟨⟨⟨rfl, rfl, rfl, rfl⟩, rfl⟩, rfl, rfl⟩
  refine ⟨_, senseRouteFailure_eq h, ?_⟩
  generalize routeLost s dom r = u at hsense hu ⊢
  obtain ⟨h1, h2, h3⟩ := hu
  by_cases hr : pathReduced s dom = true ∨ ¬ pathReduced u dom = true
  · rw [if_pos hr]
    refine ⟨h1.1.1, hsense, fun _ hs hp => ?_⟩
    rcases hr with hr | hr
    · rw [hs] at hr; exact absurd hr (by decide)
    · exact absurd hp hr
  · rw [if_neg hr]
    by_cases h64 : dom.val < 64
    · rw [if_pos h64]
      have hk := holdCommit_keeps u dom
      generalize holdCommit u dom = v at hk ⊢
      obtain ⟨k1, k2⟩ := eventLogged_keeps v (n := 6) (by decide) (code := 0x050B) dom (by decide)
      refine ⟨k2.trans (hk.mem.trans h1.1.1), ?_, fun _ => by omega⟩
      rw [k1, hk.pwr]
      exact hsense
    · rw [if_neg h64]
      obtain ⟨-, k1, k2, -, -, k5, -⟩ := eventLogged_spec u (n := 6) (by decide) (logEv 0x050B (unitOf 7 dom) (dstat (pwrEvent u 6) dom)) (show 0x050B < 2 ^ 16 by decide)
      refine ⟨(h1.trans k1).1.1, ?_, fun _ _ _ => ⟨h1.trans k1, k2.of_same h2 h3⟩⟩
      rw [show (logDom (pwrEvent u 6) 0x050B dom).pwr = u.pwr from k5]
      exact hsense

end Sys2Proof.Machine

namespace Sys2Proof
open Machine

/-- Settles O33: clause by clause. -/
theorem convertersFailInSteps : Obligations.ConvertersFailInSteps := by
  unfold Obligations.ConvertersFailInSteps
  intro s dom
  exact ⟨fun _ h hd => ivrPhaseFailed_spec h hd, fun drop exp => pathCheck_spec s dom drop exp,
    fun _ h1 h3 hj hmax hlt => pathStateChange_spec h1 h3 hj hmax hlt, fun _ h => senseRouteFailure_spec h,
    fun _ plan h => converterFailed_spec plan h, fun _ plan h => vvmFailed_spec plan h, fun h3 h4 => domainOvercurrent_spec h3 h4⟩

end Sys2Proof
end

section
/-! Temperatures, bands and the floor guard (R55, R64, R65, R70 to R73, R433 to R446). -/
namespace Sys2Proof.Machine

/-! ## What a sample leaves -/

/-- Registers apart from the clusters', the cores' and the log's: the thermal ones and the input's power among them. -/
def Thm (off : Nat) : Prop := off = oPwrCf ∨ 0x00301200 ≤ off ∧ off < 0x02000000

theorem thm_ne_rCfloor {off c : Nat} (h : Thm off) (hc : c < 64) : off ≠ rCfloor c := by unfold Thm oPwrCf at h; unfold rCfloor; omega
theorem thm_ne_rCrate {off c : Nat} (h : Thm off) (hc : c < 64) : off ≠ rCrate c := by unfold Thm oPwrCf at h; unfold rCrate; omega
theorem thm_ne_rClcore {off c : Nat} (h : Thm off) (hc : c < 64) : off ≠ rClcore c := by unfold Thm oPwrCf at h; unfold rClcore; omega
theorem thm_ne_log {off : Nat} (h : Thm off) : ¬ (off = rLogHead ∨ off = rLogStat ∨ off = rAlert) := by
  unfold Thm oPwrCf at h; unfold rLogHead rLogStat rAlert; omega

def ThmKept (s t : State) : Prop := ∀ off, Thm off → t.reg off = s.reg off

theorem ThmKept.rfl {s : State} : ThmKept s s := fun _ _ => Eq.refl _
theorem ThmKept.trans {a b c : State} (h : ThmKept a b) (k : ThmKept b c) : ThmKept a c := fun off ho => (k off ho).trans (h off ho)

/-- A task apart from its stop and its fault record. -/
def bare (k : Task) : Task := { k with stop := none, fault := none }

/-- What judging a sample leaves apart from registers: memory, the samples, the clock, the mode, and of tasks all but a stop. -/
structure Quiet (s t : State) : Prop where
  mem : t.mem = s.mem
  clk : t.clk = s.clk
  md : t.md = s.md
  mon : t.therm.mon = s.therm.mon
  failed : t.therm.failed = s.therm.failed
  state : t.pwr.state = s.pwr.state
  tasks : ∀ id, (t.task id).map bare = (s.task id).map bare
  dom : ∀ d, 64 ≤ d → tget 0 t.pwr.dom d = tget 0 s.pwr.dom d

theorem Quiet.rfl {s : State} : Quiet s s := ⟨Eq.refl _, Eq.refl _, Eq.refl _, Eq.refl _, Eq.refl _, Eq.refl _, fun _ => Eq.refl _, fun _ _ => Eq.refl _⟩
theorem Quiet.trans {a b c : State} (h : Quiet a b) (k : Quiet b c) : Quiet a c :=
  ⟨k.mem.trans h.mem, k.clk.trans h.clk, k.md.trans h.md, k.mon.trans h.mon, k.failed.trans h.failed, k.state.trans h.state,
    fun id => (k.tasks id).trans (h.tasks id), fun d hd => (k.dom d hd).trans (h.dom d hd)⟩

theorem quiet_steady (s : State) : Steady (Quiet s) := ⟨fun hp h => ⟨h.mem, h.clk, h.md, h.mon, h.failed, by rw [hp]; exact h.state, h.tasks,
  by rw [hp]; exact h.dom⟩⟩

/-- What judging a sample leaves. -/
def Sampled (s t : State) : Prop := Quiet s t ∧ ThmKept s t

theorem Sampled.rfl {s : State} : Sampled s s := ⟨.rfl, .rfl⟩
theorem Sampled.trans {a b c : State} (h : Sampled a b) (k : Sampled b c) : Sampled a c := ⟨h.1.trans k.1, h.2.trans k.2⟩

theorem setField_thmKept (s : State) {o : Nat} (hi lo v : Nat) (h : ∀ off, Thm off → off ≠ o) : ThmKept s (s.setField o hi lo v) :=
  fun off ho => reg_setField_other s hi lo v (h off ho)

theorem setField_sampled (s : State) {o : Nat} (hi lo v : Nat) (h : ∀ off, Thm off → off ≠ o) : Sampled s (s.setField o hi lo v) :=
  ⟨State.setField_steady (quiet_steady s) .rfl, setField_thmKept s hi lo v h⟩

theorem rasLog_sampled (s : State) (e : LogEv) : Sampled s (rasLog s e) :=
  ⟨rasLog_steady (quiet_steady s) .rfl, fun off ho => (rasLog_logs s e).reg off (thm_ne_log ho)⟩

theorem holdFabric_thmKept (s : State) (c f : Nat) : ThmKept s (holdFabric s c f) := by rw [holdFabric_only]; exact fun _ _ => rfl

theorem refreshFloor_sampled (s : State) {c : Nat} (hc : c < 64) : Sampled s (refreshFloor s c) :=
  ⟨refreshFloor_steady (quiet_steady s) .rfl,
    (holdFabric_thmKept s c _).trans ((setField_thmKept _ _ _ _ fun _ h => thm_ne_rCfloor h hc).trans
      ((setField_thmKept _ _ _ _ fun _ h => thm_ne_rCfloor h hc).trans (setField_thmKept _ _ _ _ fun _ h => thm_ne_rCrate h hc)))⟩

theorem requestSetpoint_sampled (s : State) {c : Nat} (mv : Nat) (hc : c < 64) : Sampled s (requestSetpoint s c mv) := by
  have hlog : Sampled s (if max 520 (min mv 920) = mv then s else rasLog s (logEv 0x0503 (unitOf 3 c) (s.reg (rCfloor c)).toNat)) :=
    ite_rooted .rfl (rasLog_sampled s _)
  have hset : ∀ u v, Sampled u (({ u with pwr := { u.pwr with req := v } } : State)) := fun u v =>
    ⟨⟨rfl, rfl, rfl, rfl, rfl, rfl, fun _ => rfl, fun _ _ => rfl⟩, fun _ _ => rfl⟩
  exact ite_rooted hlog (hlog.trans ((hset _ _).trans ((setField_sampled _ _ _ _ fun _ h => thm_ne_rCfloor h hc).trans (refreshFloor_sampled _ hc))))

/-- What holding a commitment is made of. -/
theorem holdCommit_rel {R : State → State → Prop} (hr : ∀ s, R s s) (ht : ∀ {a b c}, R a b → R b c → R a c) {c : Nat}
    (hfloor : ∀ s, R s (refreshFloor s c)) (hreq : ∀ s v, v ∈ steps → R s (requestSetpoint s c v)) (hstop : ∀ s k code, R s (stopCore s k code))
    (s : State) : R s (holdCommit s c) := by
  have hfold : ∀ (l : List Nat) (u : State) (best : Nat), R u (l.foldl (fun s i =>
      let k := 9 * c + i
      match coreTask s k with
      | some t => if best < t.floors.getD (s.core k).rank 0 then stopCore s k 0x0502 else s
      | none => s) u) := fun l u best => foldl_rel hr ht (fun s i => by
    dsimp only
    split
    · split
      · exact hstop ..
      · exact hr s
    · exact hr s) l u
  have h0 := hfloor s
  unfold holdCommit
  generalize refreshFloor s c = u at h0 ⊢
  change R s (ite _ _ _)
  split
  · exact h0
  · split
    · next v hv => exact ht h0 (hreq _ _ (List.mem_of_find?_eq_some hv))
    · exact ht h0 (hfold _ _ _)

theorem bare_giveWay (tick : Nat) (t : Task) : bare (giveWay tick t) = bare t := by
  unfold giveWay
  split
  · rfl
  · split <;> rfl

theorem stopCore_sampled (s : State) (c code : Nat) : Sampled s (stopCore s c code) := by
  have hts : ∀ ts : Tab (Option Task), (∀ j, (tget none ts j).map bare = (s.task j).map bare) → Sampled s { s with tasks := ts } := fun ts h =>
    ⟨⟨rfl, rfl, rfl, rfl, rfl, rfl, h, fun _ _ => rfl⟩, fun _ _ => rfl⟩
  have hm : ∀ id, Sampled s (s.modTask id (giveWay s.clk.tick)) := fun id => by
    unfold State.modTask
    split
    · exact .rfl
    · next t ht =>
      refine hts _ fun j => ?_
      by_cases h : j = id
      · rw [h, tget_tset_same, ht]
        exact congrArg some (bare_giveWay ..)
      · rw [tget_tset_other _ _ _ h]; rfl
  have hc : Sampled s (s.modCoreTask c (giveWay s.clk.tick)) := by
    unfold State.modCoreTask
    split
    · exact .rfl
    · exact hm _
  unfold stopCore
  split
  · generalize s.modCoreTask c (giveWay s.clk.tick) = u at hc ⊢
    exact hc.trans ⟨⟨rfl, rfl, rfl, rfl, rfl, rfl, fun _ => rfl, fun _ _ => rfl⟩, fun _ _ => rfl⟩
  · exact .rfl

theorem holdCommit_sampled (s : State) {c : Nat} (hc : c < 64) : Sampled s (holdCommit s c) :=
  holdCommit_rel (fun _ => .rfl) .trans (fun u => refreshFloor_sampled u hc) (fun u v _ => requestSetpoint_sampled u v hc)
    (fun u k code => stopCore_sampled u k code) s

theorem enterLight_sampled (s : State) (c : Nat) : Sampled s (enterLight s c) := by
  cases h : canLight s c
  · unfold enterLight; rw [h]; exact .rfl
  · have he := (enterLight_spec h).1
    generalize enterLight s c = t at he ⊢
    rw [he]
    exact ⟨⟨rfl, rfl, rfl, rfl, rfl, rfl, fun _ => rfl, fun _ _ => rfl⟩, fun _ _ => rfl⟩

theorem foldl_range_rel {R : State → State → Prop} (hr : ∀ s, R s s) (ht : ∀ {a b c}, R a b → R b c → R a c) {f : State → Nat → State} {n : Nat}
    (hf : ∀ s a, a < n → R s (f s a)) (s : State) : R s ((List.range n).foldl f s) :=
  foldl_range_rooted (I := R s) (fun u a ha h => ht h (hf u a ha)) (hr s)

theorem markRetired_sampled (s : State) {c : Nat} (hc : c < 64) : Sampled s (markRetired s c) := by
  refine ⟨⟨rfl, rfl, rfl, rfl, rfl, rfl, fun _ => rfl, fun d hd => ?_⟩, fun _ _ => rfl⟩
  show tget 0 (tset 0 s.pwr.dom c 3) d = tget 0 s.pwr.dom d
  exact tget_tset_other _ _ _ (by omega)

theorem refreshClcore_thmKept (s : State) {c : Nat} (hc : c < 64) : ThmKept s (refreshClcore s c) := by
  have h : ∀ off, Thm off → off ≠ rClcore c := fun _ h => thm_ne_rClcore h hc
  exact (setField_thmKept _ _ _ _ h).trans ((setField_thmKept _ _ _ _ h).trans ((setField_thmKept _ _ _ _ h).trans
    ((setField_thmKept _ _ _ _ h).trans (setField_thmKept _ _ _ _ h))))

theorem retireCluster_sampled (s : State) {c : Nat} (code : Nat) (hc : c < 64) : Sampled s (retireCluster s c code) := by
  have hmid : ∀ u, Sampled u ((refreshClcore (refreshFloor u c) c).setField (rClcore c) 20 20 0) := fun u =>
    (refreshFloor_sampled u hc).trans ⟨State.setField_steady (quiet_steady _) (refreshClcore_steady (quiet_steady _) .rfl),
      (refreshClcore_thmKept _ hc).trans (setField_thmKept _ _ _ _ fun _ h => thm_ne_rClcore h hc)⟩
  have hst : ∀ u, Sampled u ((List.range 9).foldl (fun s i => stopCore s (9 * c + i) code) u) :=
    foldl_rel (fun _ => .rfl) .trans (fun u i => stopCore_sampled u _ _) (List.range 9)
  unfold retireCluster
  split
  · exact .rfl
  · exact ((markRetired_sampled s hc).trans ((hmid _).trans (hst _))).trans (rasLog_sampled _ _)

/-! ## The steps of a die's judgement -/

/-- What judging leaves: as `Sampled`, but the dies' registers keep their governing temperature and BLIND alone, where `P` holds, and their
SUSPECT marks. -/
structure Judged (P : Nat → Prop) (s t : State) : Prop where
  quiet : Quiet s t
  reg : ∀ off, Thm off → (∀ d, d < 7 → off ≠ oDstat d) → t.reg off = s.reg off
  gov : ∀ d, d < 7 → P d → govOf t d = govOf s d ∧ t.regBit (oDstat d) 20 = s.regBit (oDstat d) 20
  susp : ∀ d, d < 7 → suspect s d = true → suspect t d = true

section
variable {P : Nat → Prop}

theorem Judged.rfl {s : State} : Judged P s s := ⟨.rfl, fun _ _ _ => Eq.refl _, fun _ _ _ => ⟨Eq.refl _, Eq.refl _⟩, fun _ _ h => h⟩
theorem Judged.trans {a b c : State} (h : Judged P a b) (k : Judged P b c) : Judged P a c :=
  ⟨h.quiet.trans k.quiet, fun off h1 h2 => (k.reg off h1 h2).trans (h.reg off h1 h2),
    fun d hd hp => ⟨(k.gov d hd hp).1.trans (h.gov d hd hp).1, (k.gov d hd hp).2.trans (h.gov d hd hp).2⟩, fun d hd hs => k.susp d hd (h.susp d hd hs)⟩

theorem Judged.of_imp {Q : Nat → Prop} {s t : State} (h : Judged Q s t) (hp : ∀ d, P d → Q d) : Judged P s t :=
  ⟨h.quiet, h.reg, fun d hd hpd => h.gov d hd (hp d hpd), h.susp⟩

theorem thm_oDstat {d : Nat} (h : d < 7) : Thm (oDstat d) := by unfold Thm oDstat oPwrCf; omega

theorem Sampled.judged {s t : State} (h : Sampled s t) : Judged P s t := by
  have hr : ∀ d, d < 7 → t.reg (oDstat d) = s.reg (oDstat d) := fun d hd => h.2 _ (thm_oDstat hd)
  exact ⟨h.1, fun off ho _ => h.2 off ho, fun d hd _ => ⟨regField_of_reg_eq (hr d hd) 8 0, regBit_of_reg_eq (hr d hd) 20⟩,
    fun d hd hs => (regBit_of_reg_eq (hr d hd) 19).trans hs⟩

theorem oDstat_inj {d e : Nat} (h : d ≠ e) : oDstat d ≠ oDstat e := by unfold oDstat; omega

/-- A field of a die's register other than its governing temperature, BLIND and SUSPECT. -/
theorem setField_judged (s : State) {d hi lo v : Nat} (h7 : d < 7) (hlh : lo ≤ hi) (h32 : hi < 32) (hlo : 8 < lo) (hap : hi < 19 ∨ 20 < lo) :
    Judged P s (s.setField (oDstat d) hi lo v) := by
  have hb : ∀ j i, (j ≠ d ∨ i < lo ∨ hi < i) → (s.setField (oDstat d) hi lo v).regBit (oDstat j) i = s.regBit (oDstat j) i := fun j i h => by
    by_cases hj : j = d
    · rw [hj]; exact regBit_setField_apart _ _ _ hlh h32 (by omega)
    · exact regBit_setField_other _ _ _ _ _ (oDstat_inj hj)
  refine ⟨State.setField_steady (quiet_steady s) .rfl, fun off _ h2 => ?_, fun j _ _ => ⟨regField_ext fun i h1 h2 => hb j i (by omega), hb j 20 (by omega)⟩,
    fun j _ hs => (hb j 19 (by omega)).trans hs⟩
  exact reg_setField_other _ _ _ _ (h2 d h7)

/-- The marks and timers of dies alone. -/
theorem modDie_sampled (s : State) (d : Nat) (f : DieTherm → DieTherm) : Sampled s (s.modDie d f) :=
  ⟨⟨rfl, rfl, rfl, rfl, rfl, rfl, fun _ => rfl, fun _ _ => rfl⟩, fun _ _ => rfl⟩

theorem oweCal_sampled (s : State) (d : Nat) : Sampled s (oweCal s d) := by
  unfold oweCal
  split
  · exact .rfl
  · exact ⟨⟨rfl, rfl, rfl, rfl, rfl, rfl, fun _ => rfl, fun _ _ => rfl⟩, fun _ _ => rfl⟩

theorem throttleDie_sampled (s : State) (d : Nat) : Sampled s (throttleDie s d) := by
  unfold throttleDie
  split
  · exact .rfl
  · exact foldl_range_rel (fun _ => .rfl) .trans (fun u i hi => ite_rooted (enterLight_sampled u _)
      (ite_rooted .rfl (requestSetpoint_sampled u 550 (by omega)))) s

/-- The band and its throttling, before throttling begins. -/
def bandSet (s : State) (d b : Nat) : State :=
  let s := oweCal (s.setField (oDstat d) 11 9 b) d
  let s := s.setField (oDstat d) 21 21 (if b = 4 then 1 else 0)
  s.modDie d (fun x => { x with gap := max b (planBandOf s d), coolAt := none, coolMax := 0 })

theorem setBand_eq (s : State) (d b : Nat) : setBand s d b =
    if b = 4 ∧ ¬ (oweCal (s.setField (oDstat d) 11 9 b) d).regBit (oDstat d) 21 then
      rasLog (throttleDie (bandSet s d b) d) (logEv 0x0510 (unitOf 2 d) ((bandSet s d b).reg (oDstat d)).toNat)
    else bandSet s d b := rfl

theorem bandSet_judged (s : State) {d : Nat} (b : Nat) (hd : d < 7) : Judged P s (bandSet s d b) := by
  unfold bandSet
  exact (setField_judged s (hi := 11) (lo := 9) hd (by decide) (by decide) (by decide) (.inl (by decide))).trans ((oweCal_sampled _ d).judged.trans
    ((setField_judged _ (hi := 21) (lo := 21) hd (by decide) (by decide) (by decide) (.inr (by decide))).trans (modDie_sampled _ d _).judged))

theorem setBand_judged (s : State) {d : Nat} (b : Nat) (hd : d < 7) : Judged P s (setBand s d b) := by
  have h := bandSet_judged (P := P) s b hd
  rw [setBand_eq]
  exact ite_rooted (h.trans ((throttleDie_sampled _ d).trans (rasLog_sampled _ _)).judged) h

theorem enterSuspect_judged (s : State) {d : Nat} (hd : d < 7) : Judged P s (enterSuspect s d) := by
  have hb : ∀ j i, (j ≠ d ∨ i ≠ 19) → (s.setField (oDstat d) 19 19 1).regBit (oDstat j) i = s.regBit (oDstat j) i := fun j i h => by
    by_cases hj : j = d
    · rw [hj]; exact regBit_setField_apart _ _ _ (by decide) (by decide) (by omega)
    · exact regBit_setField_other _ _ _ _ _ (oDstat_inj hj)
  have hs : Judged P s (s.setField (oDstat d) 19 19 1) := by
    refine ⟨State.setField_steady (quiet_steady s) .rfl, fun off _ h2 => reg_setField_other _ _ _ _ (h2 d hd),
      fun j _ _ => ⟨regField_ext fun i h1 h2 => hb j i (by omega), hb j 20 (by omega)⟩, fun j _ h => ?_⟩
    by_cases hj : j = d
    · unfold suspect
      rw [hj, regBit_setField _ _ _ (by decide) (by decide), if_pos (by decide)]; rfl
    · exact (hb j 19 (.inl hj)).trans h
  unfold enterSuspect
  exact ite_rooted .rfl (hs.trans ((modDie_sampled _ d _).trans (rasLog_sampled _ _)).judged)

theorem judgeBand_judged (s : State) {d : Nat} (hd : d < 7) : Judged P s (judgeBand s d) := by
  unfold judgeBand
  refine ite_rooted ((setBand_judged s _ hd).trans (modDie_sampled _ d _).judged) ?_
  have hm := modDie_sampled s d (fun x => { x with gap := max x.gap (planBandOf s d) })
  generalize s.modDie d (fun x => { x with gap := max x.gap (planBandOf s d) }) = u at hm ⊢
  refine ite_rooted (ite_rooted hm.judged (hm.judged.trans (setBand_judged u _ hd))) ?_
  have hn : Sampled s (if bandOf (govOf s d) ≤ bandIn u d then u.modDie d (fun x => { x with delayAt := none }) else u) :=
    ite_rooted (hm.trans (modDie_sampled ..)) hm
  exact ite_rooted (hn.trans (modDie_sampled ..)).judged (hn.trans (modDie_sampled ..)).judged

theorem planDie_sampled (s : State) (d : Nat) : Sampled s (planDie s d) := by
  unfold planDie
  split
  · exact .rfl
  · exact foldl_range_rel (fun _ => .rfl) .trans (fun u i hi => (setField_sampled u _ _ _ fun _ h => thm_ne_rCfloor h (by omega)).trans
      (holdCommit_sampled _ (by omega))) s

end

/-! ## Readings -/

theorem Quiet.valid {s t : State} (h : Quiet s t) (m : Nat) : monValid t m = monValid s m := by unfold monValid; rw [h.mon, h.failed, h.clk]

theorem Quiet.readings {s t : State} (h : Quiet s t) (d : Nat) : dieReadings t d = dieReadings s d := by
  unfold dieReadings
  rw [h.mon]
  exact List.filterMap_congr fun p _ => by rw [h.valid]

theorem Quiet.hottest {s t : State} (h : Quiet s t) (d : Nat) : hottest t d = hottest s d := by unfold Machine.hottest; rw [h.readings]

theorem Quiet.blind {s t : State} (h : Quiet s t) (d : Nat) : blindNow t d = blindNow s d := by unfold blindNow; rw [h.readings]

theorem Quiet.powered {s t : State} (h : Quiet s t) (d : Nat) : diePowered t d = diePowered s d := by
  have ht : ∀ tw, towerRetired t tw = towerRetired s tw := fun tw => by unfold towerRetired; rw [h.dom _ (by omega)]
  unfold diePowered
  rw [h.md, h.state]
  cases dieTower d with
  | none => rfl
  | some tw => dsimp only; rw [ht]

/-- Every sample lies below 100 °C. -/
def Cool (s : State) : Prop := ∀ p ∈ s.therm.mon, ∀ x, p.2 = some x → x.temp < 280

theorem Quiet.cool {s t : State} (h : Quiet s t) (hc : Cool s) : Cool t := by unfold Cool; rw [h.mon]; exact hc

theorem foldl_max_lt {l : List Nat} {a b : Nat} (ha : a < b) (h : ∀ x ∈ l, x < b) : l.foldl max a < b := by
  induction l generalizing a with
  | nil => exact ha
  | cons x l ih => exact ih (by have := h x List.mem_cons_self; omega) fun y hy => h y (List.mem_cons_of_mem _ hy)

theorem le_foldl_max (l : List Nat) (a : Nat) : a ≤ l.foldl max a ∧ ∀ x ∈ l, x ≤ l.foldl max a := by
  induction l generalizing a with
  | nil => exact ⟨Nat.le_refl a, fun _ h => by cases h⟩
  | cons y l ih =>
    obtain ⟨h1, h2⟩ := ih (max a y)
    have h3 : max a y ≤ (y :: l).foldl max a := h1
    refine ⟨by omega, fun x hx => ?_⟩
    rcases List.mem_cons.1 hx with rfl | hx
    · omega
    · exact h2 x hx

theorem hottest_cool {s : State} (h : Cool s) (d : Nat) : hottest s d < 280 := by
  refine foldl_max_lt (by decide) fun x hx => ?_
  obtain ⟨p, hp, hpx⟩ := List.mem_filterMap.1 hx
  split at hpx
  · obtain ⟨y, hy, rfl⟩ := Option.map_eq_some_iff.1 hpx
    exact h p hp y hy
  · cases hpx

theorem govSeen_cool {s : State} (h : Cool s) (d : Nat) {est : Nat} (he : est < 280) : govSeen s d est < 288 := by
  have := hottest_cool h d
  unfold govSeen
  split <;> omega

theorem govNow_cool {s : State} (h : Cool s) (d : Nat) {est : Nat → Nat} (he : ∀ e, isDieA e = true → est (e / 2) < 280) : govNow s d est < 308 := by
  have hseen : ∀ e, govSeen s e (est (e / 2)) < 288 := fun e => by
    cases ha : isDieA e
    · have := hottest_cool h e
      unfold govSeen
      rw [ha, if_neg (by simp)]
      omega
    · exact govSeen_cool h e (he e ha)
  unfold govNow
  split
  · have : (((List.range 7).filter (fun e => e != d && !blindNow s e && diePowered s e && (d == 6 || dieTower e == dieTower d))).map
        (fun e => govSeen s e (est (e / 2)))).foldl max 0 < 288 :=
      foldl_max_lt (by decide) fun x hx => by
        obtain ⟨e, -, rfl⟩ := List.mem_map.1 hx
        exact hseen e
    omega
  · have := hseen d; omega

/-! ## The judgement of a die -/

/-- The rings of a die: SUSPECT for a die A with few, BLIND for another. -/
def ringsJudged (ev : Nat → Nat) (s : State) (d : Nat) : State :=
  if isDieA d then
    (let s := judgeUnder s d (ev (d / 2))
     if (dieReadings s d).length < 16 then enterSuspect s d else s)
  else judgeBlind s d

theorem judgeDie_eq (e ev : Nat → Nat) (s : State) (d : Nat) : judgeDie e ev s d =
    if ¬ diePowered s d then s
    else
      let s := ringsJudged ev (s.setField (oDstat d) 18 12 (dieReadings s d).length) d
      let s := s.setField (oDstat d) 8 0 (min 511 (govNow s d e))
      judgeBand (planDie s d) d := rfl

theorem judgeBlind_spec (s : State) {d : Nat} (hd : d < 7) : Judged (· ≠ d) s (judgeBlind s d) ∧ (judgeBlind s d).regBit (oDstat d) 20 = blindNow s d := by
  have hb : ∀ v j i, (j ≠ d ∨ i ≠ 20) → (s.setField (oDstat d) 20 20 v).regBit (oDstat j) i = s.regBit (oDstat j) i := fun v j i h => by
    by_cases hj : j = d
    · rw [hj]; exact regBit_setField_apart _ _ _ (by decide) (by decide) (by omega)
    · exact regBit_setField_other _ _ _ _ _ (oDstat_inj hj)
  have hs : ∀ v, Judged (· ≠ d) s (s.setField (oDstat d) 20 20 v) := fun v =>
    ⟨State.setField_steady (quiet_steady s) .rfl, fun off _ h2 => reg_setField_other _ _ _ _ (h2 d hd),
      fun j _ hj => ⟨regField_ext fun i h1 h2 => hb v j i (by omega), hb v j 20 (.inl hj)⟩, fun j _ h => (hb v j 19 (by omega)).trans h⟩
  have hbit : (s.setField (oDstat d) 20 20 (if blindNow s d then 1 else 0)).regBit (oDstat d) 20 = blindNow s d := by
    rw [regBit_setField _ _ _ (by decide) (by decide), if_pos (by decide)]
    cases blindNow s d <;> rfl
  have hj := hs (if blindNow s d then 1 else 0)
  have hlog : ∀ u : State, ∀ e, Sampled u (rasLog (u.modDie d (fun x => { x with delayAt := some u.clk.tick })) e) := fun u e =>
    (modDie_sampled ..).trans (rasLog_sampled ..)
  unfold judgeBlind
  dsimp only
  generalize s.setField (oDstat d) 20 20 (if blindNow s d then 1 else 0) = u at hbit hj ⊢
  split
  · exact ⟨hj.trans (hlog u _).judged, (regBit_of_reg_eq ((hlog u _).2 _ (thm_oDstat hd)) 20).trans hbit⟩
  · exact ⟨hj, hbit⟩

theorem ringsJudged_spec (ev : Nat → Nat) (s : State) {d : Nat} (hd : d < 7) : Judged (· ≠ d) s (ringsJudged ev s d) ∧
    (isDieA d = false → (ringsJudged ev s d).regBit (oDstat d) 20 = blindNow s d) := by
  unfold ringsJudged
  split
  · next ha =>
    have hu : Judged (· ≠ d) s (judgeUnder s d (ev (d / 2))) := (modDie_sampled s d _).judged
    exact ⟨ite_rooted (hu.trans (enterSuspect_judged _ hd)) hu, fun h => by rw [h] at ha; exact absurd ha (by decide)⟩
  · exact ⟨(judgeBlind_spec s hd).1, fun _ => (judgeBlind_spec s hd).2⟩

/-- What the judgement of a die leaves and shows. -/
structure DieJudged (e : Nat → Nat) (d : Nat) (s t : State) : Prop where
  judged : Judged (· ≠ d) s t
  gov : diePowered s d = true → ∃ u, Quiet s u ∧ govOf t d = min 511 (govNow u d e)
  blind : diePowered s d = true → isDieA d = false → t.regBit (oDstat d) 20 = blindNow s d

/-- The governing temperature shown. -/
theorem setGov_spec (s : State) {d v : Nat} (hd : d < 7) (hv : v < 512) : Judged (· ≠ d) s (s.setField (oDstat d) 8 0 v) ∧
    govOf (s.setField (oDstat d) 8 0 v) d = v ∧ (s.setField (oDstat d) 8 0 v).regBit (oDstat d) 20 = s.regBit (oDstat d) 20 := by
  have hb : ∀ j i, (j ≠ d ∨ 8 < i) → (s.setField (oDstat d) 8 0 v).regBit (oDstat j) i = s.regBit (oDstat j) i := fun j i h => by
    by_cases hj : j = d
    · rw [hj]; exact regBit_setField_apart _ _ _ (by decide) (by decide) (by omega)
    · exact regBit_setField_other _ _ _ _ _ (oDstat_inj hj)
  refine ⟨⟨State.setField_steady (quiet_steady s) .rfl, fun off _ h2 => reg_setField_other _ _ _ _ (h2 d hd),
      fun j _ hj => ⟨regField_ext fun i h1 h2 => hb j i (.inl hj), hb j 20 (.inl hj)⟩, fun j _ h => (hb j 19 (by omega)).trans h⟩,
    regField_setField_le _ _ (by decide) (by decide) hv, hb d 20 (by omega)⟩

theorem judgeDie_spec (e ev : Nat → Nat) (s : State) {d : Nat} (hd : d < 7) : DieJudged e d s (judgeDie e ev s d) := by
  rw [judgeDie_eq]
  cases hp : diePowered s d
  · rw [if_pos (by decide)]
    exact ⟨.rfl, fun h => absurd (hp.symm.trans h) (by decide), fun h => absurd (hp.symm.trans h) (by decide)⟩
  · rw [if_neg (by decide)]
    have h0 : Judged (· ≠ d) s (s.setField (oDstat d) 18 12 (dieReadings s d).length) :=
      setField_judged s (hi := 18) (lo := 12) hd (by decide) (by decide) (by decide) (.inl (by decide))
    dsimp only
    generalize s.setField (oDstat d) 18 12 (dieReadings s d).length = u0 at h0 ⊢
    obtain ⟨h1, hb1⟩ := ringsJudged_spec ev u0 hd
    generalize ringsJudged ev u0 d = u1 at h1 hb1 ⊢
    obtain ⟨h2, hg2, hb2⟩ := setGov_spec u1 (v := min 511 (govNow u1 d e)) hd (by omega)
    generalize u1.setField (oDstat d) 8 0 (min 511 (govNow u1 d e)) = u2 at h2 hg2 hb2 ⊢
    have h3 : Judged (fun _ => True) u2 (judgeBand (planDie u2 d) d) := (planDie_sampled u2 d).judged.trans (judgeBand_judged _ hd)
    generalize judgeBand (planDie u2 d) d = t at h3 ⊢
    have h01 := h0.trans h1
    exact ⟨(h01.trans h2).trans (h3.of_imp fun _ _ => trivial), fun _ => ⟨u1, h01.quiet, (h3.gov d hd trivial).1.trans hg2⟩,
      fun _ ha => ((h3.gov d hd trivial).2.trans hb2).trans ((hb1 ha).trans (h0.quiet.blind d))⟩

/-- What the judgement of some dies leaves and shows. -/
structure DiesJudged (e : Nat → Nat) (l : List Nat) (s t : State) : Prop where
  judged : Judged (· ∉ l) s t
  gov : ∀ d ∈ l, diePowered s d = true → ∃ u, Quiet s u ∧ govOf t d = min 511 (govNow u d e)
  blind : ∀ d ∈ l, diePowered s d = true → isDieA d = false → t.regBit (oDstat d) 20 = blindNow s d

theorem judgeDies_spec (e ev : Nat → Nat) (l : List Nat) (hl : ∀ d ∈ l, d < 7) (hn : l.Nodup) (s : State) :
    DiesJudged e l s (l.foldl (judgeDie e ev) s) := by
  induction l generalizing s with
  | nil => exact ⟨.rfl, fun _ h => absurd h List.not_mem_nil, fun _ h => absurd h List.not_mem_nil⟩
  | cons d l ih =>
    obtain ⟨hdl, hnl⟩ := List.nodup_cons.1 hn
    have hd := hl d List.mem_cons_self
    have h1 := judgeDie_spec e ev s hd
    rw [List.foldl_cons]
    have h2 := ih (fun x hx => hl x (List.mem_cons_of_mem _ hx)) hnl (judgeDie e ev s d)
    generalize judgeDie e ev s d = u at h1 h2 ⊢
    generalize l.foldl (judgeDie e ev) u = t at h2 ⊢
    obtain ⟨hg, hb⟩ := h2.judged.gov d hd hdl
    refine ⟨(h1.judged.of_imp fun x hx he => hx (by rw [he]; exact List.mem_cons_self)).trans
        (h2.judged.of_imp fun x hx he => hx (List.mem_cons_of_mem _ he)), fun x hx hp => ?_, fun x hx hp ha => ?_⟩
    · rcases List.mem_cons.1 hx with rfl | hx
      · obtain ⟨w, hw, hgw⟩ := h1.gov hp
        exact ⟨w, hw, hg.trans hgw⟩
      · obtain ⟨w, hw, hgw⟩ := h2.gov x hx (by rw [h1.judged.quiet.powered]; exact hp)
        exact ⟨w, h1.judged.quiet.trans hw, hgw⟩
    · rcases List.mem_cons.1 hx with rfl | hx
      · exact hb.trans (h1.blind hp ha)
      · exact (h2.blind x hx (by rw [h1.judged.quiet.powered]; exact hp) ha).trans (h1.judged.quiet.blind x)

/-! ## The floor guard and the fabric -/

theorem guardRaise_sampled (s : State) (g : Tab Nat) : Sampled s { s with pwr := { s.pwr with guardV := g } } :=
  ⟨⟨rfl, rfl, rfl, rfl, rfl, rfl, fun _ => rfl, fun _ _ => rfl⟩, fun _ _ => rfl⟩

theorem countEvent_sampled (s : State) (b i code n : Nat) (d : Dims) : Sampled s (countEvent s b i code n d) := by
  obtain ⟨p, h⟩ := countEvent_pmc s b i code n d
  rw [h]
  exact ⟨⟨rfl, rfl, rfl, rfl, rfl, rfl, fun _ => rfl, fun _ _ => rfl⟩, fun _ _ => rfl⟩

theorem guardCluster_sampled (s : State) {c : Nat} (speed : Nat) (hc : c < 64) : Sampled s (guardCluster s c speed) := by
  have hf : ∀ (u : State) hi lo v, Sampled u (u.setField (rCfloor c) hi lo v) := fun u hi lo v => setField_sampled u hi lo v fun _ h => thm_ne_rCfloor h hc
  unfold guardCluster
  refine ite_rooted .rfl (ite_rooted (ite_rooted ?_ ?_) (ite_rooted .rfl (ite_rooted (ite_rooted .rfl (hf ..)) (ite_rooted ?_ .rfl))))
  · exact (rasLog_sampled _ _).trans (retireCluster_sampled _ _ hc)
  · exact ((countEvent_sampled ..).trans (guardRaise_sampled ..)).trans (((hf ..).trans (hf ..)).trans (rasLog_sampled _ _))
  · exact (guardRaise_sampled ..).trans (hf ..)

theorem setFabric_sampled (s : State) (d f : Nat) : Sampled s (setFabric s d f) :=
  ⟨⟨rfl, rfl, rfl, rfl, rfl, rfl, fun _ => rfl, fun _ _ => rfl⟩, fun _ _ => rfl⟩

theorem settleFabric_sampled (s : State) : Sampled s (settleFabric s) := foldl_rel (fun _ => .rfl) .trans (fun u d => setFabric_sampled u d _) _ s

/-- The highest floor that a fabric domain must keep pace with. -/
def fabNeed (s : State) (d : Nat) : Nat := (fabClusters d).foldl (fun m c => max m (floorReg s c)) 0

theorem le_fabNeed (s : State) {d c : Nat} (h : c ∈ fabClusters d) : floorReg s c ≤ fabNeed s d := by
  have h1 := (le_foldl_max ((fabClusters d).map (floorReg s)) 0).2 _ (List.mem_map_of_mem h)
  rwa [List.foldl_map] at h1

/-- A domain's setpoint meets a floor, or stands at its limit. -/
def FabMeets (s : State) (d f : Nat) : Prop := f ≤ fabFloor s d (fabSetpoint s d) ∨ fabSetpoint s d = 920

theorem setFabric_meets (s : State) (d f : Nat) : FabMeets (setFabric s d f) d f ∧
    ∀ d' f', d' ≠ d → FabMeets s d' f' → FabMeets (setFabric s d f) d' f' := by
  have hv : fabSetpoint (setFabric s d f) d = (steps.find? (fun v => f ≤ fabFloor s d v)).getD 920 := tget_tset_same 550 s.pwr.fabV d _
  have ho : ∀ d', d' ≠ d → fabSetpoint (setFabric s d f) d' = fabSetpoint s d' := fun d' h => tget_tset_other 550 s.pwr.fabV _ h
  have hfl : ∀ d' mv, fabFloor (setFabric s d f) d' mv = fabFloor s d' mv := fun _ _ => rfl
  refine ⟨?_, fun d' f' h hm => ?_⟩
  · unfold FabMeets
    rw [hfl, hv]
    cases hx : steps.find? (fun v => f ≤ fabFloor s d v) with
    | none => exact .inr rfl
    | some v => exact .inl (by simpa using List.find?_some hx)
  · unfold FabMeets at *
    rw [hfl, ho d' h]
    exact hm

theorem fabNeed_setFabric (s : State) (d f d' : Nat) : fabNeed (setFabric s d f) d' = fabNeed s d' := rfl

theorem settleFabrics_meets (l : List Nat) (hn : l.Nodup) (s : State) :
    (∀ d ∈ l, FabMeets (l.foldl (fun s d => setFabric s d (fabNeed s d)) s) d (fabNeed s d)) ∧
    (∀ d f, d ∉ l → FabMeets s d f → FabMeets (l.foldl (fun s d => setFabric s d (fabNeed s d)) s) d f) ∧
    (∀ c, floorReg (l.foldl (fun s d => setFabric s d (fabNeed s d)) s) c = floorReg s c) := by
  induction l generalizing s with
  | nil => exact ⟨fun _ h => absurd h List.not_mem_nil, fun _ _ _ h => h, fun _ => rfl⟩
  | cons d l ih =>
    obtain ⟨hdl, hnl⟩ := List.nodup_cons.1 hn
    obtain ⟨h1, h2, h3⟩ := ih hnl (setFabric s d (fabNeed s d))
    obtain ⟨k1, k2⟩ := setFabric_meets s d (fabNeed s d)
    rw [List.foldl_cons]
    refine ⟨fun x hx => ?_, fun x f hx hm => ?_, fun c => (h3 c).trans rfl⟩
    · rcases List.mem_cons.1 hx with rfl | hx
      · exact h2 x _ hdl k1
      · exact h1 x hx
    · have hxd : x ≠ d := fun h => hx (by rw [h]; exact List.mem_cons_self)
      exact h2 x f (fun h => hx (List.mem_cons_of_mem _ h)) (k2 x f hxd hm)

/-- The fabric keeps pace with the floors (R55). -/
theorem settleFabric_paces (s : State) {d c : Nat} (hd : d ∈ fabDomains) (hc : c ∈ fabClusters d) :
    FabMeets (settleFabric s) d (floorReg (settleFabric s) c) := by
  obtain ⟨h1, -, h3⟩ := settleFabrics_meets fabDomains (by decide) s
  have hm : FabMeets (settleFabric s) d (fabNeed s d) := h1 d hd
  have hf : floorReg (settleFabric s) c = floorReg s c := h3 c
  rw [hf]
  rcases hm with hm | hm
  · exact .inl (Nat.le_trans (le_fabNeed s hc) hm)
  · exact .inr hm

/-! ## The samples -/

theorem mem_tset_self {V : Type} [DecidableEq V] {d v : V} (t : Tab V) (k : Nat) (h : v ≠ d) : (k, v) ∈ tset d t k v := by
  unfold tset
  dsimp only
  rw [if_neg h]
  exact mem_tins.2 (.inl rfl)

theorem mem_tset_of_ne {V : Type} [DecidableEq V] {d v : V} {t : Tab V} {k : Nat} {p : Nat × V} (h : p.1 ≠ k) (hp : p ∈ t) : p ∈ tset d t k v := by
  have hf : p ∈ t.filter (fun p => decide (p.1 ≠ k)) := List.mem_filter.2 ⟨hp, by simpa using h⟩
  unfold tset
  dsimp only
  split
  · exact hf
  · exact mem_tins.2 (.inr hf)

/-- A monitor's sample at a tick. -/
def sampleAt (tick : Nat) (p : Fin 528 × Fin 512 × Fin 512) : Sample := ⟨p.2.1.val, p.2.2.val, tick⟩

/-- The samples held after some more. -/
def heldSamples (tick : Nat) (l : List (Fin 528 × Fin 512 × Fin 512)) (mon : Tab (Option Sample)) : Tab (Option Sample) :=
  l.foldl (fun t p => tset none t p.1.val (some (sampleAt tick p))) mon

theorem mem_heldSamples {tick : Nat} {l : List (Fin 528 × Fin 512 × Fin 512)} {mon : Tab (Option Sample)} {q : Nat × Option Sample}
    (h : q ∈ heldSamples tick l mon) : q ∈ mon ∨ ∃ p ∈ l, q = (p.1.val, some (sampleAt tick p)) := by
  induction l generalizing mon with
  | nil => exact .inl h
  | cons a l ih =>
    rcases ih h with h | ⟨p, hp, he⟩
    · rcases mem_tset h with h | h
      · exact .inl h
      · exact .inr ⟨a, List.mem_cons_self, h⟩
    · exact .inr ⟨p, List.mem_cons_of_mem _ hp, he⟩

theorem heldSamples_other {tick : Nat} {l : List (Fin 528 × Fin 512 × Fin 512)} {k : Nat} (hk : ∀ p ∈ l, p.1.val ≠ k) (mon : Tab (Option Sample)) :
    tget none (heldSamples tick l mon) k = tget none mon k ∧ ∀ v, (k, v) ∈ mon → (k, v) ∈ heldSamples tick l mon := by
  induction l generalizing mon with
  | nil => exact ⟨rfl, fun _ h => h⟩
  | cons a l ih =>
    have ha := (hk a List.mem_cons_self).symm
    obtain ⟨h1, h2⟩ := ih (fun p hp => hk p (List.mem_cons_of_mem _ hp)) (tset none mon a.1.val (some (sampleAt tick a)))
    exact ⟨h1.trans (tget_tset_other _ _ _ ha), fun v hv => h2 v (mem_tset_of_ne ha hv)⟩

/-- The sample of each of some distinct monitors is held. -/
theorem heldSamples_of_mem {tick : Nat} {l : List (Fin 528 × Fin 512 × Fin 512)} (hn : (l.map (fun p => p.1)).Nodup)
    {p : Fin 528 × Fin 512 × Fin 512} (hp : p ∈ l) (mon : Tab (Option Sample)) :
    tget none (heldSamples tick l mon) p.1.val = some (sampleAt tick p) ∧ (p.1.val, some (sampleAt tick p)) ∈ heldSamples tick l mon := by
  induction l generalizing mon with
  | nil => cases hp
  | cons a l ih =>
    obtain ⟨hal, hnl⟩ := List.nodup_cons.1 hn
    rcases List.mem_cons.1 hp with rfl | hp
    · have hne : ∀ q ∈ l, q.1.val ≠ p.1.val := fun q hq he => hal (List.mem_map.2 ⟨q, hq, Fin.ext he⟩)
      obtain ⟨h1, h2⟩ := heldSamples_other (tick := tick) hne (tset none mon p.1.val (some (sampleAt tick p)))
      exact ⟨h1.trans (tget_tset_same ..), h2 _ (mem_tset_self _ _ (by simp))⟩
    · exact ih hnl hp _

theorem takeSamples_mon (s : State) (samples : List (Fin 528 × Fin 512 × Fin 512)) :
    (takeSamples s samples).therm.mon = heldSamples s.clk.tick (samples.filter (fun p => monLive s p.1)) s.therm.mon := rfl

section
variable {s : State} {samples : List (Fin 528 × Fin 512 × Fin 512)}

theorem takeSamples_held (hn : (samples.map (fun p => p.1)).Nodup) {p : Fin 528 × Fin 512 × Fin 512} (hp : p ∈ samples) (hl : monLive s p.1 = true) :
    tget none (takeSamples s samples).therm.mon p.1.val = some (sampleAt s.clk.tick p) ∧
    (p.1.val, some (sampleAt s.clk.tick p)) ∈ (takeSamples s samples).therm.mon := by
  rw [takeSamples_mon]
  exact heldSamples_of_mem (hn.sublist (List.filter_sublist.map _)) (List.mem_filter.2 ⟨hp, hl⟩) _

theorem takeSamples_cool (hs : ∀ p ∈ samples, p.2.2.val < 280) (hm : Cool s) : Cool (takeSamples s samples) := by
  unfold Cool
  rw [takeSamples_mon]
  intro q hq x hx
  rcases mem_heldSamples hq with h | ⟨p, hp, rfl⟩
  · exact hm q h x hx
  · cases hx
    exact hs p (List.mem_filter.1 hp).1

/-- The samples of the I/O die that count. -/
def ioSamples (s : State) (samples : List (Fin 528 × Fin 512 × Fin 512)) : List (Fin 528 × Fin 512 × Fin 512) :=
  samples.filter (fun p => monDie p.1 == 6 && !s.therm.failed.contains p.1.val)

theorem monLive_io (s : State) {m : Nat} (h : monDie m = 6) : monLive s m = true := by
  have hc : monCluster m = none := by
    unfold monDie at h
    unfold monCluster
    split at h
    · omega
    · rw [if_neg (by omega)]
  unfold monLive
  rw [h, hc]
  rfl

theorem ioSample_reading (hn : (samples.map (fun p => p.1)).Nodup) {p : Fin 528 × Fin 512 × Fin 512} (hp : p ∈ ioSamples s samples) :
    (p.1.val, some (sampleAt s.clk.tick p)) ∈ (takeSamples s samples).therm.mon ∧ monDie p.1.val = 6 ∧ monValid (takeSamples s samples) p.1.val = true := by
  obtain ⟨hps, hq⟩ := List.mem_filter.1 hp
  obtain ⟨hd, hf⟩ := Bool.and_eq_true_iff.1 hq
  have hd' : monDie p.1.val = 6 := by simpa using hd
  obtain ⟨h1, h2⟩ := takeSamples_held hn hps (monLive_io s hd')
  refine ⟨h2, hd', ?_⟩
  unfold monValid
  rw [h1]
  have hfail : (takeSamples s samples).therm.failed = s.therm.failed := rfl
  rw [hfail, hf]
  exact decide_eq_true (show s.clk.tick ≤ s.clk.tick + 10000 by omega)

/-- Readings of a die whose keys are distinct. -/
theorem length_readings_ge {u : State} {d : Nat} {ks : List Nat} (hn : ks.Nodup)
    (h : ∀ k ∈ ks, ∃ x : Sample, (k, some x) ∈ u.therm.mon ∧ monDie k = d ∧ monValid u k = true) : ks.length ≤ (dieReadings u d).length := by
  have hkeys : ks ⊆ (u.therm.mon.filter (fun p => decide (monDie p.1 = d) && monValid u p.1 && p.2.isSome)).map (·.1) := fun k hk => by
    obtain ⟨x, hx, hd, hv⟩ := h k hk
    exact List.mem_map.2 ⟨_, List.mem_filter.2 ⟨hx, by simp [hd, hv]⟩, rfl⟩
  have hlen : ∀ l : List (Nat × Option Sample), (l.filter (fun p => decide (monDie p.1 = d) && monValid u p.1 && p.2.isSome)).length =
      (l.filterMap (fun p => if monDie p.1 = d ∧ monValid u p.1 = true then p.2.map (·.temp) else none)).length := fun l => by
    induction l with
    | nil => rfl
    | cons p l ih =>
      obtain ⟨k, v⟩ := p
      by_cases hc : monDie k = d ∧ monValid u k = true
      · cases v with
        | none => simp [hc.1, hc.2, ih]
        | some x => simp [hc.1, hc.2, ih]
      · rw [List.filterMap_cons_none (by simp only [if_neg hc]), List.filter_cons_of_neg, ih]
        simpa using fun h1 h2 => absurd ⟨h1, h2⟩ hc
  have := (hn.subperm hkeys).length_le
  rw [List.length_map, hlen] at this
  exact this

theorem readings_io (hn : (samples.map (fun p => p.1)).Nodup) : (ioSamples s samples).length ≤ (dieReadings (takeSamples s samples) 6).length := by
  have hk : ((ioSamples s samples).map (fun p => p.1.val)).Nodup := by
    have h := (hn.sublist ((List.filter_sublist (p := fun p => monDie p.1 == 6 && !s.therm.failed.contains p.1.val) (l := samples)).map _)).map Fin.val_injective
    rwa [List.map_map] at h
  have h := length_readings_ge (u := takeSamples s samples) (d := 6) hk fun k hk => by
    obtain ⟨p, hp, rfl⟩ := List.mem_map.1 hk
    exact ⟨_, ioSample_reading hn hp⟩
  rwa [List.length_map] at h

theorem hottest_io (hn : (samples.map (fun p => p.1)).Nodup) {p : Fin 528 × Fin 512 × Fin 512} (hp : p ∈ ioSamples s samples) :
    p.2.2.val ≤ hottest (takeSamples s samples) 6 := by
  obtain ⟨h1, h2, h3⟩ := ioSample_reading hn hp
  exact (le_foldl_max _ 0).2 _ (List.mem_filterMap.2 ⟨_, h1, by simp [h2, h3, sampleAt]⟩)

end

/-! ## MONITOR_SAMPLE -/

/-- The input's power and voltage are shown. -/
def inputShown (input vin : Nat) (s : State) : State := (s.setField oPwrCf 23 12 input).setField oPwrCf 31 24 vin

/-- The estimate of a tower is shown. -/
def estShown (e : Nat → Nat) (s : State) (t : Nat) : State :=
  let s := s.setField (oEst t) 8 0 (min 511 (e t))
  let s := s.setField (oEst t) 17 9 (hottest s (2 * t))
  s.setField (oEst t) 26 18 (min 511 (cmpInput s (2 * t) (e t)))

/-- The guard judges every cluster that has samples. -/
def guarded (live : List (Fin 528 × Fin 512 × Fin 512)) (s : State) : State :=
  (List.range 64).foldl (fun s c =>
    match (live.filter (fun p => monCluster p.1 == some c)).map (fun p => p.2.1.val) with
    | [] => s
    | v :: vs => guardCluster s c (vs.foldl min v)) s

/-- The comparator of R438 trips. -/
def tooHot (e : Nat → Nat) (s : State) : Bool := (List.range 7).any (fun d => diePowered s d && decide (310 ≤ cmpInput s d (e (d / 2))))

/-- What the judged samples lead to, before the comparator. -/
def sampleJudged (e ev : Nat → Nat) (input vin : Nat) (live : List (Fin 528 × Fin 512 × Fin 512)) (s : State) : State :=
  refreshWindow (settleFabric (guarded live ((List.range 2).foldl (estShown e) ([0, 1, 2, 3, 4, 5, 6].foldl (judgeDie e ev) (inputShown input vin s)))))

/-- The module shuts down where a die is too hot. -/
def compared (e : Nat → Nat) (s : State) : State := if tooHot e s then shutdown s else s

section
variable {s : State}

theorem monitorSample_eq (mons : List (Fin 512 × Fin 512 × Fin 512)) (ioMons : List (Fin 16 × Fin 512 × Fin 512))
    (amps : List (Fin 64 × Fin 4096)) (input : Fin 4096) (vin : Fin 256) (hrun : s.clk.run = true) :
    exec (.monitorSample mons ioMons amps input vin) s = .next (compared (estimate (takeSamples s (allSamples mons ioMons)) (ampsOf amps))
      (sampleJudged (estimate (takeSamples s (allSamples mons ioMons)) (ampsOf amps)) (estimateSeen (takeSamples s (allSamples mons ioMons)) (ampsOf amps))
        input vin ((allSamples mons ioMons).filter (fun p => monLive s p.1)) (takeSamples s (allSamples mons ioMons)))) := by
  have he : exec (.monitorSample mons ioMons amps input vin) s = execMonitorSample mons ioMons amps input vin s := rfl
  have hc : ¬ (!s.clk.run) = true := by rw [hrun]; decide
  rw [he]
  exact congrArg Host.Outcome.next (if_neg hc)

/-- Registers but some, and what else a sample leaves. -/
def KeptBut (P : Nat → Prop) (s t : State) : Prop := Quiet s t ∧ ∀ off, Thm off → ¬ P off → t.reg off = s.reg off

theorem KeptBut.trans {P : Nat → Prop} {a b c : State} (h : KeptBut P a b) (k : KeptBut P b c) : KeptBut P a c :=
  ⟨h.1.trans k.1, fun off h1 h2 => (k.2 off h1 h2).trans (h.2 off h1 h2)⟩

theorem setField_keptBut {P : Nat → Prop} (s : State) {o : Nat} (hi lo v : Nat) (h : P o) : KeptBut P s (s.setField o hi lo v) :=
  ⟨State.setField_steady (quiet_steady s) .rfl, fun off _ h2 => reg_setField_other _ _ _ _ (fun he => h2 (by rw [he]; exact h))⟩

theorem Sampled.keptBut {P : Nat → Prop} {t : State} (h : Sampled s t) : KeptBut P s t := ⟨h.1, fun off h1 _ => h.2 off h1⟩

theorem inputShown_spec (s : State) {input vin : Nat} (hi : input < 4096) (hv : vin < 256) : KeptBut (· = oPwrCf) s (inputShown input vin s) ∧
    (inputShown input vin s).regField oPwrCf 23 12 = input ∧ (inputShown input vin s).regField oPwrCf 31 24 = vin := by
  unfold inputShown
  have hf : ∀ (u : State) hi lo v, KeptBut (· = oPwrCf) u (u.setField oPwrCf hi lo v) := fun u hi lo v => setField_keptBut u hi lo v rfl
  refine ⟨(hf ..).trans (hf ..), ?_, regField_setField_le _ _ (by decide) (by decide) hv⟩
  rw [regField_setField_apart _ _ _ (by decide) (by decide) (.inl (by decide))]
  exact regField_setField_le _ _ (by decide) (by decide) hi

theorem estShown_spec (e : Nat → Nat) (s : State) (t : Nat) : KeptBut (· = oEst t) s (estShown e s t) ∧
    (estShown e s t).regField (oEst t) 8 0 = min 511 (e t) := by
  unfold estShown
  have hf : ∀ (u : State) hi lo v, KeptBut (· = oEst t) u (u.setField (oEst t) hi lo v) := fun u hi lo v => setField_keptBut u hi lo v rfl
  refine ⟨(hf ..).trans ((hf ..).trans (hf ..)), ?_⟩
  rw [regField_setField_apart _ _ _ (by decide) (by decide) (.inl (by decide)), regField_setField_apart _ _ _ (by decide) (by decide) (.inl (by decide))]
  exact regField_setField_le _ _ (by decide) (by decide) (by omega)

/-- Both towers' estimates are shown. -/
theorem estsShown_spec (e : Nat → Nat) (s : State) : KeptBut (fun off => off = oEst 0 ∨ off = oEst 1) s ((List.range 2).foldl (estShown e) s) ∧
    ∀ t, t < 2 → ((List.range 2).foldl (estShown e) s).regField (oEst t) 8 0 = min 511 (e t) := by
  have he : (List.range 2).foldl (estShown e) s = estShown e (estShown e s 0) 1 := by rw [show List.range 2 = [0, 1] from rfl, List.foldl_cons, List.foldl_cons, List.foldl_nil]
  obtain ⟨h0, f0⟩ := estShown_spec e s 0
  obtain ⟨h1, f1⟩ := estShown_spec e (estShown e s 0) 1
  rw [he]
  generalize estShown e s 0 = u at h0 f0 h1 f1 ⊢
  generalize estShown e u 1 = t at h1 f1 ⊢
  refine ⟨⟨h0.1.trans h1.1, fun off hx hn => (h1.2 off hx fun h => hn (.inr h)).trans (h0.2 off hx fun h => hn (.inl h))⟩, fun tw htw => ?_⟩
  have hcases : tw = 0 ∨ tw = 1 := by omega
  rcases hcases with rfl | rfl
  · exact (regField_of_reg_eq (h1.2 _ (by unfold Thm oEst; omega) (by decide)) 8 0).trans f0
  · exact f1

theorem guarded_sampled (live : List (Fin 528 × Fin 512 × Fin 512)) (s : State) : Sampled s (guarded live s) :=
  foldl_range_rel (fun _ => .rfl) .trans (fun u c hc => by
    split
    · exact .rfl
    · exact guardCluster_sampled u _ hc) s

theorem refreshWindow_keptBut (s : State) : KeptBut (· = rWstat) s (refreshWindow s) := setField_keptBut _ _ _ _ rfl

theorem refreshWindow_meets {d f : Nat} (hd : d ∈ fabDomains) (h : FabMeets s d f) : FabMeets (refreshWindow s) d f := by
  have hp : (refreshWindow s).pwr = s.pwr := setField_pwr ..
  have hlt : ∀ x ∈ fabDomains, fabDie x < 7 := by decide
  have hb : dieBand (refreshWindow s) (fabDie d) = dieBand s (fabDie d) := by
    have := hlt d hd
    unfold dieBand
    rw [regField_of_reg_eq (s := s) (t := refreshWindow s) (reg_setField_other _ _ _ _ (by unfold rWstat; omega))]
  unfold FabMeets fabFloor fabSetpoint at *
  rw [hp, hb]
  exact h

/-- What the judged samples show, before the comparator. -/
structure SampleShown (e : Nat → Nat) (input vin : Nat) (s t : State) : Prop where
  quiet : Quiet s t
  cf : t.regField oPwrCf 23 12 = input ∧ t.regField oPwrCf 31 24 = vin
  est : ∀ tw, tw < 2 → t.regField (oEst tw) 8 0 = min 511 (e tw)
  gov : ∀ d, d < 7 → diePowered s d = true → ∃ u, Quiet s u ∧ govOf t d = min 511 (govNow u d e)
  blind : ∀ d, d < 7 → diePowered s d = true → isDieA d = false → t.regBit (oDstat d) 20 = blindNow s d
  fabric : ∀ d ∈ fabDomains, ∀ c ∈ fabClusters d, FabMeets t d (floorReg t c)

theorem floorReg_refreshWindow (s : State) {c : Nat} (hc : c < 64) : floorReg (refreshWindow s) c = floorReg s c :=
  regField_of_reg_eq (reg_setField_other _ _ _ _ (by unfold rWstat rCfloor; omega)) 18 10

theorem fabClusters_lt {d c : Nat} (hd : d ∈ fabDomains) (hc : c ∈ fabClusters d) : c < 64 := by
  have h : ∀ d ∈ fabDomains, ∀ c ∈ fabClusters d, c < 64 := by decide
  exact h d hd c hc

/-- Where a die's register stands once its judgement is shown: no later step of a sample writes it. -/
theorem sampleJudged_shown (e ev : Nat → Nat) {input vin : Nat} (hi : input < 4096) (hv : vin < 256) (live : List (Fin 528 × Fin 512 × Fin 512))
    (s : State) : SampleShown e input vin s (sampleJudged e ev input vin live s) := by
  unfold sampleJudged
  obtain ⟨k1, f1, f2⟩ := inputShown_spec s hi hv
  generalize inputShown input vin s = u1 at k1 f1 f2 ⊢
  have k2 := judgeDies_spec e ev [0, 1, 2, 3, 4, 5, 6] (by decide) (by decide) u1
  generalize [0, 1, 2, 3, 4, 5, 6].foldl (judgeDie e ev) u1 = u2 at k2 ⊢
  obtain ⟨k3, f3⟩ := estsShown_spec e u2
  generalize (List.range 2).foldl (estShown e) u2 = u3 at k3 f3 ⊢
  have k4 := (guarded_sampled live u3).trans (settleFabric_sampled _)
  have hfab := fun {d c} hd hc => settleFabric_paces (guarded live u3) (d := d) (c := c) hd hc
  generalize settleFabric (guarded live u3) = u5 at k4 hfab ⊢
  have k5 := refreshWindow_keptBut u5
  have hw := fun {d f} hd h => refreshWindow_meets (s := u5) (d := d) (f := f) hd h
  have hwf := fun {c} hc => floorReg_refreshWindow u5 (c := c) hc
  generalize refreshWindow u5 = t at k5 hw hwf ⊢
  have hlate : ∀ off, Thm off → off ≠ rWstat → t.reg off = u3.reg off := fun off h1 h2 => (k5.2 off h1 h2).trans (k4.2 off h1)
  have hdie : ∀ d, d < 7 → t.reg (oDstat d) = u2.reg (oDstat d) := fun d hd =>
    (hlate _ (thm_oDstat hd) (by unfold oDstat rWstat; omega)).trans (k3.2 _ (thm_oDstat hd) (by unfold oDstat oEst; omega))
  have hcf : t.reg oPwrCf = u1.reg oPwrCf := ((hlate _ (.inl rfl) (by decide)).trans (k3.2 _ (.inl rfl) (by decide))).trans
    (k2.judged.reg _ (.inl rfl) fun d hd => by unfold oPwrCf oDstat; omega)
  have hmem : ∀ d, d < 7 → d ∈ [0, 1, 2, 3, 4, 5, 6] := by decide
  refine ⟨((k1.1.trans k2.judged.quiet).trans k3.1).trans (k4.1.trans k5.1), ⟨(regField_of_reg_eq hcf 23 12).trans f1, (regField_of_reg_eq hcf 31 24).trans f2⟩,
    fun tw htw => (regField_of_reg_eq (hlate _ (by unfold Thm oEst oPwrCf; omega) (by unfold oEst rWstat; omega)) 8 0).trans (f3 tw htw),
    fun d hd hp => ?_, fun d hd hp ha => ?_, fun d hd c hc => ?_⟩
  · obtain ⟨u, hu, hg⟩ := k2.gov d (hmem d hd) (by rw [k1.1.powered]; exact hp)
    exact ⟨u, k1.1.trans hu, (regField_of_reg_eq (hdie d hd) 8 0).trans hg⟩
  · exact ((regBit_of_reg_eq (hdie d hd) 20).trans (k2.blind d (hmem d hd) (by rw [k1.1.powered]; exact hp) ha)).trans (k1.1.blind d)
  · rw [hwf (fabClusters_lt hd hc)]
    exact hw hd (hfab hd hc)

/-- A cool module does not trip the comparator. -/
theorem SampleShown.cool {e : Nat → Nat} {input vin : Nat} {t : State} (h : SampleShown e input vin s t) (hc : Cool s) (h0 : e 0 < 280) (h1 : e 1 < 280) :
    tooHot e t = false := by
  have he : ∀ d, isDieA d = true → e (d / 2) < 280 := fun d ha => by
    have hd : d = 0 ∨ d = 2 := by simpa [isDieA] using ha
    rcases hd with rfl | rfl
    · exact h0
    · exact h1
  have hct := h.quiet.cool hc
  unfold tooHot
  rw [List.any_eq_false]
  intro d hd
  have hd7 := List.mem_range.1 hd
  have hhot := hottest_cool hct d
  cases hp : diePowered t d
  · simp
  · have hin : cmpInput t d (e (d / 2)) < 310 := by
      unfold cmpInput
      split
      · next ha => have := he d ha; omega
      · split
        · obtain ⟨u, hu, hg⟩ := h.gov d hd7 (by rw [← h.quiet.powered]; exact hp)
          have := govNow_cool (hu.cool hc) d he
          omega
        · omega
    simp only [Bool.true_and, decide_eq_true_eq]
    omega

theorem powered_io (s : State) : diePowered s 6 = true := rfl

theorem blindNow_io {u : State} (h : 4 ≤ (dieReadings u 6).length) : blindNow u 6 = false := by
  unfold blindNow
  have hm : minRings 6 = 4 := rfl
  rw [hm]
  simp only [Bool.and_eq_false_iff, decide_eq_false_iff_not]
  omega

/-- A module whose I/O die is too hot trips it. -/
theorem SampleShown.hot {e : Nat → Nat} {input vin : Nat} {t : State} (h : SampleShown e input vin s t) (hr : 4 ≤ (dieReadings s 6).length)
    (hh : 310 ≤ hottest s 6) : tooHot e t = true := by
  unfold tooHot
  rw [List.any_eq_true]
  refine ⟨6, by decide, ?_⟩
  have hb : blindNow t 6 = false := (h.quiet.blind 6).trans (blindNow_io hr)
  have hin : cmpInput t 6 (e (6 / 2)) = hottest s 6 := by
    unfold cmpInput
    rw [hb, h.quiet.hottest]
    rfl
  rw [powered_io, hin]
  simpa using hh

/-- The I/O die governs by its hottest reading. -/
theorem SampleShown.io {e : Nat → Nat} {input vin : Nat} {t : State} (h : SampleShown e input vin s t) (hr : 4 ≤ (dieReadings s 6).length) (hc : Cool s) :
    t.regField (oDstat 6) 8 0 = hottest t 6 ∧ t.regBit (oDstat 6) 20 = false := by
  obtain ⟨u, hu, hg⟩ := h.gov 6 (by decide) (powered_io s)
  have hnow : govNow u 6 e = hottest s 6 := by
    unfold govNow govSeen
    rw [(hu.blind 6).trans (blindNow_io hr), hu.hottest]
    rfl
  have := hottest_cool hc 6
  refine ⟨?_, (h.blind 6 (by decide) (powered_io s) rfl).trans (blindNow_io hr)⟩
  rw [h.quiet.hottest]
  exact hg.trans (by rw [hnow]; omega)

end

/-- What a shutdown leaves of a module that was on. -/
def ShutDown (t : State) : Prop := t.md.off = true ∧ t.tasks = [] ∧ t.mem = [] ∧ t.pwr.pwrOk = false

theorem shutDown_steady : Steady ShutDown := ⟨fun hp h => by
  obtain ⟨h1, h2, h3, h4⟩ := h
  exact ⟨h1, h2, h3, by rw [hp]; exact h4⟩⟩

theorem shutdown_shutDown {s : State} (h : s.md.off = false) : ShutDown (shutdown s) := by
  unfold shutdown
  rw [if_neg (by rw [h]; decide)]
  exact refreshAdmission_steady shutDown_steady (foldl_rooted (fun _ _ h1 => refreshFloor_steady shutDown_steady h1)
    (State.setReg_steady shutDown_steady (idleLinks_steady shutDown_steady (State.setField_steady shutDown_steady (State.setField_steady shutDown_steady
      ⟨rfl, rfl, rfl, rfl⟩)))))

section
variable {s : State} (mons : List (Fin 512 × Fin 512 × Fin 512)) (ioMons : List (Fin 16 × Fin 512 × Fin 512)) (amps : List (Fin 64 × Fin 4096))
  (input : Fin 4096) (vin : Fin 256)

theorem takeSamples_quiet (s : State) (samples : List (Fin 528 × Fin 512 × Fin 512)) :
    (takeSamples s samples).md = s.md ∧ (takeSamples s samples).mem = s.mem ∧ ∀ id, (takeSamples s samples).task id = s.task id := ⟨rfl, rfl, fun _ => rfl⟩

/-- The TemperaturesAndBandsAreJudged clause of a cool sample. -/
theorem monitorSample_cool (hrun : s.clk.run = true) (hn : ((allSamples mons ioMons).map (fun p => p.1)).Nodup)
    (hs : ∀ p ∈ allSamples mons ioMons, p.2.2.val < 280) (hm : Cool s) (h0 : estimate (takeSamples s (allSamples mons ioMons)) (ampsOf amps) 0 < 280)
    (h1 : estimate (takeSamples s (allSamples mons ioMons)) (ampsOf amps) 1 < 280) :
    ∃ t, exec (.monitorSample mons ioMons amps input vin) s = .next t ∧ t.mem = s.mem ∧ (∀ id, (t.task id).map bare = (s.task id).map bare) ∧
      (∀ tw : TowerId, t.regField (oEst tw) 8 0 = estimate (takeSamples s (allSamples mons ioMons)) (ampsOf amps) tw) ∧
      (∀ d ∈ fabDomains, ∀ c ∈ fabClusters d, FabMeets t d (floorReg t c)) ∧
      (∀ p ∈ allSamples mons ioMons, monLive s p.1 = true → tget none t.therm.mon p.1 = some ⟨p.2.1.val, p.2.2.val, s.clk.tick⟩) ∧
      t.regField oPwrCf 23 12 = input.val ∧ t.regField oPwrCf 31 24 = vin.val ∧
      (4 ≤ (ioSamples s (allSamples mons ioMons)).length → t.regField (oDstat 6) 8 0 = hottest t 6 ∧ t.regBit (oDstat 6) 20 = false) := by
  have hheld := fun {p} => takeSamples_held (s := s) (samples := allSamples mons ioMons) hn (p := p)
  have hcool := takeSamples_cool (s := s) hs hm
  have hio := readings_io (s := s) hn
  obtain ⟨-, hmem, htask⟩ := takeSamples_quiet s (allSamples mons ioMons)
  refine ⟨_, monitorSample_eq mons ioMons amps input vin hrun, ?_⟩
  generalize takeSamples s (allSamples mons ioMons) = u at h0 h1 hheld hcool hio hmem htask ⊢
  have k := sampleJudged_shown (estimate u (ampsOf amps)) (estimateSeen u (ampsOf amps)) input.isLt vin.isLt
    ((allSamples mons ioMons).filter (fun p => monLive s p.1)) u
  generalize estimate u (ampsOf amps) = e at h0 h1 k ⊢
  generalize sampleJudged e (estimateSeen u (ampsOf amps)) input vin _ u = t at k ⊢
  have hcmp : compared e t = t := if_neg (by rw [k.cool hcool h0 h1]; decide)
  rw [hcmp]
  refine ⟨k.quiet.mem.trans hmem, fun id => by rw [k.quiet.tasks, htask], fun tw => ?_, k.fabric, fun p hp hl => by rw [k.quiet.mon]; exact (hheld hp hl).1,
    k.cf.1, k.cf.2, fun h4 => k.io (by omega) hcool⟩
  have htw : tw.val = 0 ∨ tw.val = 1 := by have := tw.isLt; omega
  rw [k.est tw tw.isLt]
  rcases htw with h | h <;> rw [h] <;> omega

/-- The TemperaturesAndBandsAreJudged clause of a sample that is too hot. -/
theorem monitorSample_hot (hrun : s.clk.run = true) (hn : ((allSamples mons ioMons).map (fun p => p.1)).Nodup)
    (h4 : 4 ≤ (ioSamples s (allSamples mons ioMons)).length) (hoff : s.md.off = false)
    (hhot : ∃ p ∈ ioSamples s (allSamples mons ioMons), 310 ≤ p.2.2.val) :
    ∃ t, exec (.monitorSample mons ioMons amps input vin) s = .next t ∧ ShutDown t := by
  have hio := readings_io (s := s) hn
  have hh : 310 ≤ hottest (takeSamples s (allSamples mons ioMons)) 6 := by
    obtain ⟨p, hp, h⟩ := hhot
    have := hottest_io (s := s) hn hp
    omega
  obtain ⟨hmd, -, -⟩ := takeSamples_quiet s (allSamples mons ioMons)
  refine ⟨_, monitorSample_eq mons ioMons amps input vin hrun, ?_⟩
  generalize takeSamples s (allSamples mons ioMons) = u at hio hh hmd ⊢
  have k := sampleJudged_shown (estimate u (ampsOf amps)) (estimateSeen u (ampsOf amps)) input.isLt vin.isLt
    ((allSamples mons ioMons).filter (fun p => monLive s p.1)) u
  generalize estimate u (ampsOf amps) = e at k ⊢
  generalize sampleJudged e (estimateSeen u (ampsOf amps)) input vin _ u = t at k ⊢
  have hcmp : compared e t = shutdown t := if_pos (k.hot (by omega) hh)
  rw [hcmp]
  exact shutdown_shutDown (by rw [k.quiet.md, hmd]; exact hoff)

end

/-! ## SENSOR_FAILED -/

theorem sensorFailed_spec {s : State} {m : Fin 528} (h : m.val ∉ s.therm.failed) :
    ∃ t, exec (.sensorFailed m) s = .next t ∧ Still s t ∧ Logged s t 0x050D ∧ ∀ n, n ∈ t.therm.failed ↔ n = m.val ∨ n ∈ s.therm.failed := by
  have hu : ∃ u : State, u = { s with therm := { s.therm with failed := insNat m s.therm.failed } } := ⟨_, rfl⟩
  obtain ⟨u, hu⟩ := hu
  have he : exec (.sensorFailed m) s = .next (rasLog u (logEv 0x050D (unitOf 2 (monDie m)) (u.reg (oDstat (monDie m))).toNat)) := by
    rw [hu]
    exact congrArg Host.Outcome.next (if_neg (by simpa using h))
  have hl := rasLog_logged u (logEv 0x050D (unitOf 2 (monDie m)) (u.reg (oDstat (monDie m))).toNat) (show 0x050D < 2 ^ 16 by decide)
  have ho := rasLog_logsOnly u (logEv 0x050D (unitOf 2 (monDie m)) (u.reg (oDstat (monDie m))).toNat)
  refine ⟨_, he, ?_⟩
  generalize rasLog u _ = t at hl ho ⊢
  have hs : Still s u ∧ u.ras = s.ras ∧ u.regs = s.regs ∧ u.therm.failed = insNat m s.therm.failed := by rw [hu]; exact ⟨⟨⟨rfl, rfl, rfl, rfl⟩, rfl⟩, rfl, rfl, rfl⟩
  obtain ⟨s1, s2, s3, s4⟩ := hs
  refine ⟨s1.trans ho.still, hl.of_same s2 (by unfold State.reg; rw [s3]), fun n => ?_⟩
  have ht : t.therm = u.therm := by unfold LogsOnly at ho; rw [ho]
  rw [ht, s4]
  exact mem_insNat ..

/-! ## The fall of a band, and its rise (R439, R440) -/

theorem bandSet_band (s : State) (d : Nat) {b : Nat} (hb : b < 5) : bandIn (bandSet s d b) d = b ∧
    ((bandSet s d b).regBit (oDstat d) 21 = decide (b = 4)) ∧ Still s (bandSet s d b) := by
  have h1 : ∀ u : State, Still u (oweCal u d) ∧ (oweCal u d).regs = u.regs := fun u => by
    unfold oweCal
    split
    · exact ⟨⟨⟨rfl, rfl, rfl, rfl⟩, rfl⟩, rfl⟩
    · exact ⟨⟨⟨rfl, rfl, rfl, rfl⟩, rfl⟩, rfl⟩
  have h2 : ∀ (u : State) f, Still u (u.modDie d f) ∧ (u.modDie d f).regs = u.regs := fun u f => ⟨⟨⟨rfl, rfl, rfl, rfl⟩, rfl⟩, rfl⟩
  have h3 : ∀ u v : State, v.regs = u.regs → ∀ off, v.reg off = u.reg off := fun u v h off => by unfold State.reg; rw [h]
  unfold bandSet
  dsimp only
  obtain ⟨k1, r1⟩ := h1 (s.setField (oDstat d) 11 9 b)
  have hband : bandIn (s.setField (oDstat d) 11 9 b) d = b := regField_setField_le _ _ (by decide) (by decide) (by omega)
  have hst : Still s (s.setField (oDstat d) 11 9 b) := (setField_regsOnly s (oDstat d) 11 9 b).logsOnly.still
  generalize s.setField (oDstat d) 11 9 b = u1 at k1 r1 hband hst ⊢
  generalize oweCal u1 d = u2 at k1 r1 ⊢
  have hband3 : bandIn (u2.setField (oDstat d) 21 21 (if b = 4 then 1 else 0)) d = b := by
    unfold bandIn
    rw [regField_setField_apart _ _ _ (by decide) (by decide) (.inl (by decide)), regField_of_reg_eq (h3 u1 u2 r1 _)]
    exact hband
  have hbit3 : (u2.setField (oDstat d) 21 21 (if b = 4 then 1 else 0)).regBit (oDstat d) 21 = decide (b = 4) := by
    rw [regBit_setField _ _ _ (by decide) (by decide), if_pos (by decide)]
    by_cases h : b = 4
    · rw [if_pos h, decide_eq_true h]; rfl
    · rw [if_neg h, decide_eq_false h]; rfl
  have hst3 := (setField_regsOnly u2 (oDstat d) 21 21 (if b = 4 then 1 else 0)).logsOnly.still
  generalize u2.setField (oDstat d) 21 21 (if b = 4 then 1 else 0) = u3 at hband3 hbit3 hst3 ⊢
  obtain ⟨k4, r4⟩ := h2 u3 (fun x => { x with gap := max b (planBandOf u3 d), coolAt := none, coolMax := 0 })
  generalize u3.modDie d _ = t at k4 r4 ⊢
  exact ⟨(regField_of_reg_eq (h3 u3 t r4 _) 11 9).trans hband3, (regBit_of_reg_eq (h3 u3 t r4 _) 21).trans hbit3, (hst.trans k1).trans (hst3.trans k4)⟩

/-- What a band in force leaves and shows. -/
theorem setBand_spec (s : State) {d b : Nat} (hd : d < 7) (hb : b < 5) : (setBand s d b).mem = s.mem ∧ bandIn (setBand s d b) d = b ∧
    (setBand s d b).regBit (oDstat d) 21 = decide (b = 4) ∧ (b < 4 → setBand s d b = bandSet s d b ∧ Still s (setBand s d b)) := by
  obtain ⟨h1, h2, h3⟩ := bandSet_band s d hb
  rw [setBand_eq]
  generalize bandSet s d b = u at h1 h2 h3 ⊢
  by_cases hc : b = 4 ∧ ¬ (oweCal (s.setField (oDstat d) 11 9 b) d).regBit (oDstat d) 21 = true
  · rw [if_pos hc]
    have k := (throttleDie_sampled u d).trans (rasLog_sampled _ (logEv 0x0510 (unitOf 2 d) (u.reg (oDstat d)).toNat))
    have hr := k.2 _ (thm_oDstat hd)
    exact ⟨k.1.mem.trans h3.1.1, (regField_of_reg_eq hr 11 9).trans h1, (regBit_of_reg_eq hr 21).trans h2, fun h => by omega⟩
  · rw [if_neg hc]
    exact ⟨h3.1.1, h1, h2, fun _ => ⟨rfl, h3⟩⟩

theorem bandOf_lt (g : Nat) : bandOf g < 5 := by unfold bandOf; split <;> [omega; split <;> [omega; split <;> [omega; split <;> omega]]]

theorem bandRiseDelayed_spec {s : State} {d : DieId} {u : Nat} (hd : (s.die d).delayAt = some u) (hu : u + ticksPerMs ≤ s.clk.tick)
    (hlt : bandIn s d < bandOf (govOf s d)) :
    ∃ t, exec (.bandRiseDelayed d) s = .next t ∧ t.mem = s.mem ∧ bandIn t d = bandOf (govOf s d) ∧
      (bandOf (govOf s d) < 4 → Still s t) ∧ (bandOf (govOf s d) = 4 → t.regBit (oDstat d) 21 = true) := by
  have hv : ∃ v, v = s.modDie d (fun x => { x with delayAt := none }) ∧ Still s v ∧ v.regs = s.regs := ⟨_, rfl, ⟨⟨rfl, rfl, rfl, rfl⟩, rfl⟩, rfl⟩
  obtain ⟨v, hve, hvs, hvr⟩ := hv
  have hr : v.reg (oDstat d) = s.reg (oDstat d) := by unfold State.reg; rw [hvr]
  have hg : govOf v d = govOf s d := regField_of_reg_eq hr 8 0
  have hin : bandIn v d = bandIn s d := regField_of_reg_eq hr 11 9
  have he : exec (.bandRiseDelayed d) s = .next (setBand v d (bandOf (govOf v d))) := by
    have he : exec (.bandRiseDelayed d) s = execBandRiseDelayed d s := rfl
    rw [he]
    unfold execBandRiseDelayed
    rw [hd]
    refine congrArg Host.Outcome.next ((if_neg (by omega)).trans ?_)
    rw [← hve]
    exact if_pos (by rw [hin, hg]; exact hlt)
  obtain ⟨k1, k2, k3, k4⟩ := setBand_spec v d.isLt (bandOf_lt (govOf v d))
  rw [hg] at k1 k2 k3 k4 he
  exact ⟨_, he, k1.trans hvs.1.1, k2, fun h => hvs.trans (k4 h).2, fun h => by rw [k3, decide_eq_true h]⟩

theorem bandFall_spec {s : State} {d : DieId} {u b : Nat} (hd : (s.die d).coolAt = some u) (hu : u + 10 * ticksPerMs ≤ s.clk.tick) (hb : b < 5)
    (hc : (s.die d).coolMax + 4 ≤ bandHigh b) (hlow : ∀ x, x < b → bandHigh x < (s.die d).coolMax + 4) :
    ∃ t, exec (.bandFall d) s = .next t ∧ t.mem = s.mem ∧ bandIn t d = b ∧ (b < 4 → Still s t ∧ t.regBit (oDstat d) 21 = false) := by
  have hf : (List.range 5).find? (fun b => decide ((s.die d).coolMax + 4 ≤ bandHigh b)) = some b := by
    refine List.find?_range_eq_some.2 ⟨decide_eq_true hc, List.mem_range.2 hb, fun x hx => ?_⟩
    have := hlow x hx
    simp only [Bool.not_eq_true', decide_eq_false_iff_not]
    omega
  have he : exec (.bandFall d) s = .next (setBand s d b) := by
    have he : exec (.bandFall d) s = execBandFall d s := rfl
    rw [he]
    unfold execBandFall
    dsimp only
    rw [hd]
    refine congrArg Host.Outcome.next ((if_neg (by omega)).trans ?_)
    rw [hf]
    rfl
  obtain ⟨k1, k2, k3, k4⟩ := setBand_spec s d.isLt hb
  exact ⟨_, he, k1, k2, fun h => ⟨(k4 h).2, by rw [k3, decide_eq_false (by omega)]⟩⟩

/-! ## SENSOR_SUSPECT (R437) -/

/-- Neither the cache halves, the log nor the dies' marks change. -/
structure Unlogged (s t : State) : Prop where
  llc : t.llc = s.llc
  ras : t.ras = s.ras
  therm : t.therm = s.therm

theorem Unlogged.rfl {s : State} : Unlogged s s := ⟨Eq.refl _, Eq.refl _, Eq.refl _⟩
theorem Unlogged.trans {a b c : State} (h : Unlogged a b) (k : Unlogged b c) : Unlogged a c :=
  ⟨k.llc.trans h.llc, k.ras.trans h.ras, k.therm.trans h.therm⟩

theorem setField_unlogged (s : State) (off hi lo v : Nat) : Unlogged s (s.setField off hi lo v) := ⟨rfl, rfl, rfl⟩

theorem refreshFloor_unlogged (s : State) (c : Nat) : Unlogged s (refreshFloor s c) := by
  have h := (refreshFloor_spec s c).1
  generalize refreshFloor s c = t at h ⊢
  rw [h]; exact ⟨rfl, rfl, rfl⟩

theorem mem_steps {v : Nat} (h : v ∈ steps) : 550 ≤ v ∧ v ≤ 920 := by
  obtain ⟨i, hi, rfl⟩ := List.mem_map.1 h
  have := List.mem_range.1 hi
  omega

theorem requestSetpoint_unlogged (s : State) (c : Nat) {v : Nat} (hv : v ∈ steps) : Unlogged s (requestSetpoint s c v) := by
  obtain ⟨h1, h2⟩ := mem_steps hv
  unfold requestSetpoint
  dsimp only
  rw [if_pos (by omega : max 520 (min v 920) = v)]
  split
  · exact .rfl
  · have h : Unlogged s { s with pwr := { s.pwr with req := tset 0 s.pwr.req c (max 520 (min v 920) - max 520 (min v 920) % 5) } } := ⟨rfl, rfl, rfl⟩
    exact h.trans ((setField_unlogged ..).trans (refreshFloor_unlogged ..))

theorem stopCore_unlogged (s : State) (c code : Nat) : Unlogged s (stopCore s c code) := by
  obtain ⟨ts, cs, h⟩ := stopCore_eq s c code
  rw [h]; exact ⟨rfl, rfl, rfl⟩

theorem holdCommit_unlogged (s : State) (c : Nat) : Unlogged s (holdCommit s c) :=
  holdCommit_rel (R := Unlogged) (fun _ => .rfl) .trans (fun v => refreshFloor_unlogged v c) (fun v _ hv => requestSetpoint_unlogged v c hv)
    stopCore_unlogged s

theorem planDie_unlogged (s : State) (d : Nat) : Unlogged s (planDie s d) := by
  unfold planDie
  split
  · exact .rfl
  · exact foldl_range_rel (R := Unlogged) (fun _ => .rfl) .trans (fun u i _ => (setField_unlogged ..).trans (holdCommit_unlogged ..)) s

/-- The dies' marks alone. -/
def ThermOnly (s t : State) : Prop := t = { s with therm := t.therm }

theorem ThermOnly.rfl {s : State} : ThermOnly s s := Eq.refl s

theorem modDie_thermOnly {s u : State} (h : ThermOnly s u) (d : Nat) (f : DieTherm → DieTherm) : ThermOnly s (u.modDie d f) := by
  unfold ThermOnly at *
  unfold State.modDie
  rw [h]

/-- A band that waits, of a die that has been judged before, changes the die's marks alone. -/
theorem judgeBand_waits {s : State} {d : Nat} (hs : (s.die d).seen = true) (hd : (s.die d).delayAt.isSome = true) : ThermOnly s (judgeBand s d) := by
  have h0 : ThermOnly s (s.modDie d (fun x => { x with gap := max x.gap (planBandOf s d) })) := modDie_thermOnly .rfl d _
  unfold judgeBand
  dsimp only
  rw [if_neg (by rw [hs]; decide)]
  generalize s.modDie d (fun x => { x with gap := max x.gap (planBandOf s d) }) = u at h0 ⊢
  rw [if_pos hd]
  have h1 : ThermOnly s (if bandOf (govOf s d) ≤ bandIn u d then u.modDie d (fun x => { x with delayAt := none }) else u) :=
    ite_rooted (modDie_thermOnly h0 d _) h0
  exact ite_rooted h0 (ite_rooted (modDie_thermOnly h1 d _) (modDie_thermOnly h1 d _))

theorem die_modDie (s : State) (d : Nat) (f : DieTherm → DieTherm) : (s.modDie d f).die d = f (s.die d) := tget_tset_same ..
theorem die_setField (s : State) (off hi lo v d : Nat) : (s.setField off hi lo v).die d = s.die d := rfl

/-- The rise of a SUSPECT die's band waits. -/
def riseDelayed (s : State) (d : Nat) : State := s.modDie d (fun x => { x with delayAt := some s.clk.tick })

theorem riseDelayed_spec (s : State) (d : Nat) : (∀ off, (riseDelayed s d).reg off = s.reg off) ∧ (riseDelayed s d).llc = s.llc ∧
    (riseDelayed s d).ras = s.ras ∧ ((riseDelayed s d).die d).seen = (s.die d).seen ∧ ((riseDelayed s d).die d).delayAt.isSome = true := by
  refine ⟨fun _ => rfl, rfl, rfl, ?_, ?_⟩
  · unfold riseDelayed; rw [die_modDie]
  · unfold riseDelayed; rw [die_modDie]; rfl

/-- A die that turns SUSPECT: its mark and entry, with its band's rise delayed. -/
theorem enterSuspect_spec {s : State} {d : Nat} (hd : d < 7) (h : suspect s d = false) : suspect (enterSuspect s d) d = true ∧
    ((enterSuspect s d).die d).seen = (s.die d).seen ∧ ((enterSuspect s d).die d).delayAt.isSome = true ∧ (enterSuspect s d).llc = s.llc ∧
    Logged s (enterSuspect s d) 0x050E := by
  have he : enterSuspect s d = rasLog (riseDelayed (s.setField (oDstat d) 19 19 1) d) (logEv 0x050E (unitOf 2 d)
      ((riseDelayed (s.setField (oDstat d) 19 19 1) d).reg (oDstat d)).toNat) := if_neg (by rw [h]; decide)
  obtain ⟨r1, r2, r3, r4, r5⟩ := riseDelayed_spec (s.setField (oDstat d) 19 19 1) d
  have hbit : (s.setField (oDstat d) 19 19 1).regBit (oDstat d) 19 = true := by
    rw [regBit_setField _ _ _ (by decide) (by decide), if_pos (by decide)]; rfl
  have hhead : (s.setField (oDstat d) 19 19 1).reg rLogHead = s.reg rLogHead := reg_setField_other _ _ _ _ (by unfold rLogHead oDstat; omega)
  have hdie := die_setField s (oDstat d) 19 19 1 d
  have hst := setField_unlogged s (oDstat d) 19 19 1
  rw [he]
  generalize s.setField (oDstat d) 19 19 1 = u at *
  generalize riseDelayed u d = v at *
  have hl := rasLog_logs v (logEv 0x050E (unitOf 2 d) (v.reg (oDstat d)).toNat)
  have hg := rasLog_logged v (logEv 0x050E (unitOf 2 d) (v.reg (oDstat d)).toNat) (show 0x050E < 2 ^ 16 by decide)
  generalize rasLog v _ = t at hl hg ⊢
  have ho := hl.only
  unfold LogsOnly at ho
  have ht : t.therm = v.therm ∧ t.llc = v.llc := by rw [ho]; exact ⟨rfl, rfl⟩
  have htd : t.die d = v.die d := by unfold State.die; rw [ht.1]
  refine ⟨((regBit_of_reg_eq (hl.reg _ (thm_ne_log (thm_oDstat hd))) 19).trans (regBit_of_reg_eq (r1 _) 19)).trans hbit, ?_, ?_, ht.2.trans (r2.trans hst.llc),
    hg.of_same (r3.trans hst.ras) ((r1 _).trans hhead)⟩
  · rw [htd, r4, hdie]
  · rw [htd, r5]

theorem Unlogged.logged {s u t : State} {code : Nat} (h : Logged s u code) (k : Unlogged u t) : Logged s t code := by
  unfold Logged at *
  rw [k.ras]
  exact h

theorem ThermOnly.keeps {s t : State} (h : ThermOnly s t) : t.llc = s.llc ∧ t.ras = s.ras := by
  unfold ThermOnly at h; rw [h]; constructor <;> rfl

theorem sensorSuspect_spec {s : State} {tw : TowerId} {u : Nat} (hu : (s.die (2 * tw.val)).underAt = some u) (htick : u + 5 * ticksPerMs ≤ s.clk.tick)
    (hs : suspect s (2 * tw.val) = false) :
    ∃ t, exec (.sensorSuspect tw) s = .next t ∧ t.mem = s.mem ∧ suspect t (2 * tw.val) = true ∧
      t.regField (oDstat (2 * tw.val)) 8 0 = min 511 (max (s.regField (oEst tw) 8 0 + 8) (hottest s (2 * tw.val))) ∧
      ((s.die (2 * tw.val)).seen = true → t.llc = s.llc ∧ Logged s t 0x050E) := by
  have htw := tw.isLt
  have hd : 2 * tw.val < 7 := by omega
  have hA : isDieA (2 * tw.val) = true := by
    have : tw.val = 0 ∨ tw.val = 1 := by omega
    rcases this with h | h <;> rw [h] <;> rfl
  have he : exec (.sensorSuspect tw) s = .next (
      let v := enterSuspect s (2 * tw.val)
      judgeBand (planDie (v.setField (oDstat (2 * tw.val)) 8 0 (min 511 (govSeen v (2 * tw.val) (v.regField (oEst tw) 8 0)))) (2 * tw.val)) (2 * tw.val)) := by
    have he : exec (.sensorSuspect tw) s = execSensorSuspect tw s := rfl
    rw [he]
    unfold execSensorSuspect
    rw [hu]
    exact congrArg Host.Outcome.next (if_neg (not_or.2 ⟨by omega, by rw [hs]; decide⟩))
  obtain ⟨e1, e2, e3, e4, e5⟩ := enterSuspect_spec hd hs
  have ej := enterSuspect_judged (P := fun _ => True) s hd
  refine ⟨_, he, ?_⟩
  dsimp only
  generalize enterSuspect s (2 * tw.val) = v at *
  have hest : v.regField (oEst tw) 8 0 = s.regField (oEst tw) 8 0 :=
    regField_of_reg_eq (ej.reg _ (by unfold Thm oEst; omega) fun d hd => by unfold oEst oDstat; omega) 8 0
  have hgov : govSeen v (2 * tw.val) (v.regField (oEst tw) 8 0) = max (s.regField (oEst tw) 8 0 + 8) (hottest s (2 * tw.val)) := by
    unfold govSeen
    rw [if_pos ⟨hA, e1⟩, hest, ej.quiet.hottest]
  rw [hgov]
  obtain ⟨g1, g2, -⟩ := setGov_spec v (v := min 511 (max (s.regField (oEst tw) 8 0 + 8) (hottest s (2 * tw.val)))) hd (by omega)
  have gd := die_setField v (oDstat (2 * tw.val)) 8 0 (min 511 (max (s.regField (oEst tw) 8 0 + 8) (hottest s (2 * tw.val)))) (2 * tw.val)
  have gu := setField_unlogged v (oDstat (2 * tw.val)) 8 0 (min 511 (max (s.regField (oEst tw) 8 0 + 8) (hottest s (2 * tw.val))))
  generalize v.setField (oDstat (2 * tw.val)) 8 0 _ = w at *
  have pj := planDie_sampled w (2 * tw.val)
  have pu := planDie_unlogged w (2 * tw.val)
  generalize planDie w (2 * tw.val) = x at *
  have bj := judgeBand_judged (P := fun _ => True) x hd
  have bw := judgeBand_waits (s := x) (d := 2 * tw.val)
  generalize judgeBand x (2 * tw.val) = t at *
  have hxj : Judged (fun _ => True) w t := pj.judged.trans bj
  have hxd : x.die (2 * tw.val) = v.die (2 * tw.val) := by rw [← gd]; unfold State.die; rw [pu.therm]
  refine ⟨hxj.quiet.mem.trans (g1.quiet.mem.trans ej.quiet.mem), hxj.susp _ hd (g1.susp _ hd e1), (hxj.gov _ hd trivial).1.trans g2, fun hseen => ?_⟩
  obtain ⟨b1, b2⟩ := (bw (by rw [hxd, e2]; exact hseen) (by rw [hxd]; exact e3)).keeps
  refine ⟨b1.trans (pu.llc.trans (gu.llc.trans e4)), ?_⟩
  have k := Unlogged.logged e5 (gu.trans pu)
  unfold Logged at k ⊢
  rw [b2]
  exact k

/-! ## SETPOINT_SETTLED (R71) -/

theorem baseFloor_le (mv : Nat) : baseFloor mv ≤ 24000 := by
  unfold baseFloor
  split
  · omega
  · have hx : min mv 920 ≤ 920 := Nat.min_le_right ..
    generalize min mv 920 = x at hx
    simp only [interp]
    split_ifs <;> omega

/-- A floor has nine bits. -/
theorem floorOf_lt (s : State) (c mv : Nat) : floorOf s c mv < 512 := by
  have hr : regf s c mv ≤ 256 := Nat.min_le_left ..
  have hb := baseFloor_le mv
  have h : baseFloor mv * (100 - derate (planBand s c)) * (256 - excessOf s c) * regf s c mv ≤ 24000 * 100 * 256 * 256 :=
    Nat.mul_le_mul (Nat.mul_le_mul (Nat.mul_le_mul hb (Nat.sub_le ..)) (Nat.sub_le ..)) hr
  unfold floorOf floorAt
  omega

/-- Without a setpoint to come, the floor shown is the requested setpoint's. -/
theorem refreshFloor_floor {s : State} {c : Nat} (h : s.regBit (rCfloor c) 22 = false) :
    floorReg (refreshFloor s c) c = if clusterRuns s c then floorOf s c (reqOf s c) else 0 := by
  have he : ∃ v w, refreshFloor s c = (((holdFabric s c (if clusterRuns s c then floorOf s c (reqOf s c) else 0)).setField (rCfloor c) 18 10
      (if clusterRuns s c then floorOf s c (reqOf s c) else 0)).setField (rCfloor c) 24 24 v).setField (rCrate c) 25 17 w := by
    unfold refreshFloor
    dsimp only
    rw [if_neg (by rw [h]; exact fun k => absurd k.1 (by decide))]
    exact ⟨_, _, rfl⟩
  obtain ⟨v, w, he⟩ := he
  have hf : (if clusterRuns s c then floorOf s c (reqOf s c) else 0) < 512 := by
    split
    · exact floorOf_lt ..
    · decide
  rw [he]
  generalize (if clusterRuns s c then floorOf s c (reqOf s c) else 0) = f at hf ⊢
  unfold floorReg
  rw [regField_setField_other _ _ _ _ _ _ (show rCfloor c ≠ rCrate c by unfold rCfloor rCrate; omega),
    regField_setField_apart _ _ _ (by decide) (by decide) (by decide)]
  exact regField_setField_le _ _ (by decide) (by decide) hf

/-- The setpoint in force leaves what the plan reads of a cluster. -/
theorem settleAt_reads (s : State) (c v : Nat) : reqOf (settleAt s c v) c = reqOf s c ∧ (∀ mv, floorOf (settleAt s c v) c mv = floorOf s c mv) ∧
    clusterRuns (settleAt s c v) c = clusterRuns s c := by
  have hrate : rCrate c ≠ rCfloor c := by unfold rCfloor rCrate; omega
  have hex : excessOf (settleAt s c v) c = excessOf s c := by
    unfold excessOf settleAt
    rw [regField_setField_other _ _ _ _ _ _ hrate, regField_setField_other _ _ _ _ _ _ hrate]
  have hband : planBand (settleAt s c v) c = planBand s c := by
    unfold planBand settleAt
    rw [regField_setField_apart _ _ _ (by decide) (by decide) (by decide), regField_setField_apart _ _ _ (by decide) (by decide) (by decide)]
  have hr : RegsOnly s (settleAt s c v) := (setField_regsOnly ..).trans (setField_regsOnly ..)
  generalize settleAt s c v = t at *
  unfold RegsOnly at hr
  have hp : t.pwr = s.pwr ∧ t.clusters = s.clusters ∧ t.towersDown = s.towersDown := by rw [hr]; exact ⟨rfl, rfl, rfl⟩
  obtain ⟨hp, hcl, hd⟩ := hp
  refine ⟨?_, fun mv => ?_, ?_⟩
  · unfold reqOf; rw [hp]
  · unfold floorOf regf ceilAmps phasesUp pathReduced; rw [hband, hex, hp]
  · unfold clusterRuns towerInReset State.cluster; rw [hp, hcl, hd]

theorem settle_floor (s : State) (c : Nat) : floorReg (settle s c) c = if clusterRuns s c then floorOf s c (reqOf s c) else 0 := by
  have h0 : (settleAt s c (min 920 (reqOf s c + tget 0 s.pwr.guardV c))).regBit (rCfloor c) 22 = false :=
    (settleAt_spec s c (Nat.lt_of_le_of_lt (Nat.min_le_left ..) (by decide))).2.1
  obtain ⟨h1, h2, h3⟩ := settleAt_reads s c (min 920 (reqOf s c + tget 0 s.pwr.guardV c))
  rw [settle_eq, refreshFloor_floor h0, h1, h2, h3]

theorem fabricPlanned_still {s t : State} {x} (h : t = { s with regs := t.regs, pwr := { s.pwr with fabV := x } }) : Still s t := by
  rw [h]
  exact ⟨⟨rfl, rfl, rfl, rfl⟩, rfl⟩

theorem setpointSettled_spec {s : State} {cl : ClusterId} (h : s.regBit (rCfloor cl) 22 = true) : ∃ t, exec (.setpointSettled cl) s = .next t ∧ Still s t ∧
    t.regBit (rCfloor cl) 22 = false ∧ t.regField (rCfloor cl) 9 0 = min 920 (reqOf s cl + tget 0 s.pwr.guardV cl) ∧
    floorReg t cl = if clusterRuns s cl then floorOf s cl (reqOf s cl) else 0 := by
  have he : exec (.setpointSettled cl) s = .next (settle s cl) := congrArg Host.Outcome.next (if_pos h)
  obtain ⟨honly, hbit, hfield⟩ := settle_spec s cl
  exact ⟨_, he, fabricPlanned_still honly, hbit, hfield, settle_floor s cl⟩

/-- Settles O32, clause by clause: a sample's judgement is a chain of steps that each keep the judged state's invariant, whose last ones
show the input's power and voltage. -/
theorem temperaturesAndBandsAreJudged : Obligations.TemperaturesAndBandsAreJudged := by
  intro s
  refine ⟨fun mons ioMons amps input vin => ?_, fun m hm => sensorFailed_spec hm, fun tw u hu ht hs => sensorSuspect_spec hu ht hs,
    fun d u hd hu hlt => bandRiseDelayed_spec hd hu hlt, fun d u b hd hu hb hc hlow => bandFall_spec hd hu hb hc hlow, fun cl h => setpointSettled_spec h⟩
  intro samples hrun hn cmd est io
  exact ⟨fun hs hm h0 h1 => monitorSample_cool mons ioMons amps input vin hrun hn hs hm h0 h1,
    fun h4 hoff hhot => monitorSample_hot mons ioMons amps input vin hrun hn h4 hoff hhot⟩

end Sys2Proof.Machine
end

section
/-! Proof of DoorbellsAreTakenOrRejected (R335, R341, R346 to R349, R358): the bytes of a queue's context read back what was written to
them, and a doorbell writes only those it names. -/
namespace Sys2Proof.Machine

/-! ## Bytes of a queue's context -/

theorem natLe_lt (n v : Nat) : ∀ b ∈ natLe n v, b < 256 := by
  induction n generalizing v with
  | zero => exact fun b hb => absurd hb List.not_mem_nil
  | succ n ih =>
    intro b hb
    obtain rfl | hb := List.mem_cons.1 hb
    · omega
    · exact ih _ b hb

theorem readBytes_writeBytes (m : List Host.Cell) (a : Nat) {bs : List Nat} (h : ∀ b ∈ bs, b < 256) : readBytes (writeBytes m a bs) a bs.length = bs := by
  refine List.ext_getElem (by simp [readBytes]) fun i h1 h2 => ?_
  simp only [readBytes, List.getElem_map, List.getElem_range]
  rw [memGet_writeBytes m a bs h2, BitVec.toNat_ofNat]
  exact Nat.mod_eq_of_lt (h _ (List.getElem_mem h2))

theorem qf_setQf (s : State) (q o : Nat) {n v : Nat} (h : v < 256 ^ n) : (s.setQf q o n v).qf q o n = v := by
  have hb := readBytes_writeBytes s.mem (ctxAddr q + o) (natLe_lt n v)
  rw [natLe_length] at hb
  unfold State.qf State.setQf
  rw [hb, leNat_natLe h]

theorem qf_congr {s t : State} {q o n : Nat} (h : ∀ b, ctxAddr q + o ≤ b → b < ctxAddr q + o + n → memGet t.mem b = memGet s.mem b) : t.qf q o n = s.qf q o n := by
  unfold State.qf
  rw [readBytes_congr h]

theorem qf_of_mem {s t : State} (h : t.mem = s.mem) (q o n : Nat) : t.qf q o n = s.qf q o n := by
  unfold State.qf
  rw [h]

theorem setQf_frame (s : State) (q o n v : Nat) : MemFrame s (s.setQf q o n v) [(ctxAddr q + o, n)] := fun b hb =>
  memGet_writeBytes_other _ _ _ (by rw [natLe_length]; exact hb _ (List.mem_singleton.2 rfl))

theorem qf_setQf_other (s : State) (q v : Nat) {o n o' n' : Nat} (h : o' + n' ≤ o ∨ o + n ≤ o') : (s.setQf q o n v).qf q o' n' = s.qf q o' n' :=
  qf_congr fun b h1 h2 => setQf_frame s q o n v b fun p hp => by
    obtain rfl := List.mem_singleton.1 hp
    dsimp only
    omega

theorem MemFrame.of_eq {s t : State} {rs : List (Nat × Nat)} (h : t.mem = s.mem) : MemFrame s t rs := fun b _ => by rw [h]

theorem MemFrame.trans {s t u : State} {r1 r2 : List (Nat × Nat)} (h : MemFrame s t r1) (k : MemFrame t u r2) : MemFrame s u (r1 ++ r2) := fun b hb =>
  (k b fun p hp => hb p (List.mem_append_right _ hp)).trans (h b fun p hp => hb p (List.mem_append_left _ hp))

/-! ## Rejected doorbells -/

theorem badDoorbell_spec (s : State) (q word : Nat) : LogsOnly s (badDoorbell s q word) ∧ Logged s (badDoorbell s q word) 0x0604 :=
  ⟨rasLog_logsOnly .., rasLog_logged _ _ (show 0x0604 < 2 ^ 16 by decide)⟩

theorem dropDoorbell_spec (s : State) (q : Nat) : Still s (dropDoorbell s q) ∧ Logged s (dropDoorbell s q) 0x0606 :=
  ⟨(rasLog_logsOnly ..).still, rasLog_logged _ _ (show 0x0606 < 2 ^ 16 by decide)⟩

theorem LogsOnly.adm {s t : State} (h : LogsOnly s t) : t.adm = s.adm := by unfold LogsOnly at h; rw [h]

theorem useQueue_still (s : State) (q : Nat) : Still s (useQueue s q) := ⟨⟨rfl, rfl, rfl, rfl⟩, rfl⟩

theorem useQueue_qf (s : State) (q k o n : Nat) : (useQueue s q).qf k o n = s.qf k o n := rfl

theorem useQueue_logged {s t : State} {q code : Nat} (h : Logged (useQueue s q) t code) : Logged s t code := h.of_same rfl rfl

/-- A doorbell to a queue that is not ENABLED is logged. -/
theorem badDoorbell_used (s : State) (q word : Nat) : Still s (badDoorbell (useQueue s q) q word) ∧ Logged s (badDoorbell (useQueue s q) q word) 0x0604 := by
  obtain ⟨h1, h2⟩ := badDoorbell_spec (useQueue s q) q word
  exact ⟨(useQueue_still s q).trans h1.still, useQueue_logged h2⟩

/-- What a rejected doorbell of an ENABLED queue does (R347). -/
structure Rejects (s t : State) (q code : Nat) : Prop where
  state : qState t q = 2
  adm : t.adm = (useQueue s q).adm
  code : t.qf q 26 1 = code
  frame : MemFrame s t [(ctxAddr q + 19, 1), (ctxAddr q + 26, 1)]
  logged : Logged s t 0x0604

theorem rejectDoorbell_rejects {s : State} {q word code : Nat} (h : qState s q = 1) (hc : code < 256) : Rejects s (rejectDoorbell (useQueue s q) q word code) q code := by
  have he : rejectDoorbell (useQueue s q) q word code = badDoorbell (((useQueue s q).setQf q 19 1 2).setQf q 26 1 code) q word :=
    congrArg (badDoorbell · q word) (if_pos h)
  obtain ⟨h1, h2⟩ := badDoorbell_spec (((useQueue s q).setQf q 19 1 2).setQf q 26 1 code) q word
  have hs : (((useQueue s q).setQf q 19 1 2).setQf q 26 1 code).qf q 19 1 = 2 := by
    rw [qf_setQf_other _ _ _ (by decide)]; exact qf_setQf _ _ _ (by decide)
  have hcode : (((useQueue s q).setQf q 19 1 2).setQf q 26 1 code).qf q 26 1 = code := qf_setQf _ _ _ (by omega)
  have hf : MemFrame s (((useQueue s q).setQf q 19 1 2).setQf q 26 1 code) [(ctxAddr q + 19, 1), (ctxAddr q + 26, 1)] :=
    (setQf_frame (useQueue s q) q 19 1 2).trans (setQf_frame _ q 26 1 code)
  have hadm : (((useQueue s q).setQf q 19 1 2).setQf q 26 1 code).adm = (useQueue s q).adm := rfl
  have hlog : ∀ t, Logged (((useQueue s q).setQf q 19 1 2).setQf q 26 1 code) t 0x0604 → Logged s t 0x0604 := fun t h => h.of_same rfl rfl
  rw [he]
  generalize ((useQueue s q).setQf q 19 1 2).setQf q 26 1 code = u at *
  exact ⟨(qf_of_mem h1.mem ..).trans hs, h1.adm.trans hadm, (qf_of_mem h1.mem ..).trans hcode, hf.trans (.of_eq (rs := []) h1.mem), hlog _ h2⟩

/-! ## Doorbells taken -/

/-- Nothing but the state of the links, what waits there for an answer, and what is sent differs. -/
def AsksOnly (s t : State) : Prop := t = { s with lup := t.lup, out := t.out }

theorem LinksOnly.asksOnly {s t : State} (h : LinksOnly s t) : AsksOnly s t := by
  unfold LinksOnly at h
  unfold AsksOnly
  rw [h]

theorem AsksOnly.trans {a b c : State} (h : AsksOnly a b) (k : AsksOnly b c) : AsksOnly a c := by
  unfold AsksOnly at *; rw [k, h]

theorem askDescriptor_asksOnly (s : State) (q i : Nat) : AsksOnly s (askDescriptor s q i) := by
  have hsend : ∀ v m, AsksOnly s v → AsksOnly s (sendRequest v m) := fun v m h => h.trans (sendRequest_linksOnly v m).asksOnly
  unfold askDescriptor
  dsimp only
  split
  · unfold AsksOnly; rfl
  · split
    · exact hsend _ _ (by unfold AsksOnly; rfl)
    · unfold AsksOnly; rfl

/-- Descriptors join the undecided ones; besides, only what is asked of the host changes. -/
def Queued (s t : State) (us : List Undec) : Prop :=
  t = { s with lup := t.lup, out := t.out, adm := { s.adm with und := s.adm.und ++ us } }

theorem queueOne_queued (s : State) (q i : Nat) (u : Undec) : Queued s (askDescriptor { s with adm := { s.adm with und := s.adm.und ++ [u] } } q i) [u] := by
  have h := askDescriptor_asksOnly { s with adm := { s.adm with und := s.adm.und ++ [u] } } q i
  generalize askDescriptor { s with adm := { s.adm with und := s.adm.und ++ [u] } } q i = t at h ⊢
  exact h

theorem queueAll_queued (q : Nat) (at_ : Nat → Nat) (l : List Nat) (s : State) : Queued s
    (l.foldl (fun s j => let i := at_ j; askDescriptor { s with adm := { s.adm with und := s.adm.und ++ [⟨q, i, none⟩] } } q i) s)
    (l.map (fun j => ⟨q, at_ j, none⟩)) := by
  induction l generalizing s with
  | nil => unfold Queued; rw [List.map_nil, List.append_nil]; rfl
  | cons j l ih =>
    have h1 := queueOne_queued s q (at_ j) ⟨q, at_ j, none⟩
    have h2 := ih (askDescriptor { s with adm := { s.adm with und := s.adm.und ++ [⟨q, at_ j, none⟩] } } q (at_ j))
    rw [List.foldl_cons, List.map_cons]
    dsimp only at h2 ⊢
    generalize askDescriptor { s with adm := { s.adm with und := s.adm.und ++ [⟨q, at_ j, none⟩] } } q (at_ j) = v at h1 h2 ⊢
    generalize List.foldl _ v l = t at h2 ⊢
    unfold Queued at *
    rw [h2, h1]
    simp

/-- What a good doorbell with room does: the tail moves, the generation advances, and its descriptors wait (R346, R348). -/
structure Takes (s t : State) (q tail size step : Nat) : Prop where
  tail : qTail t q = tail
  gen : t.qf q 27 1 = (s.qf q 27 1 + 1) % 256
  frame : MemFrame s t [(ctxAddr q + 32, 4), (ctxAddr q + 27, 1)]
  tasks : t.tasks = s.tasks
  cached : t.adm.cached = (useQueue s q).adm.cached
  und : t.adm.und = s.adm.und ++ (List.range step).map (fun j => ⟨q, (qTail s q + j) % size, none⟩)

theorem Takes.of_queued {s u t : State} {q tail size step : Nat} (hs : u = ((useQueue s q).setQf q 32 4 tail).setQf q 27 1 ((s.qf q 27 1 + 1) % 256))
    (ht : tail < 2 ^ 32) (h : Queued u t ((List.range step).map (fun j => ⟨q, (qTail s q + j) % size, none⟩))) : Takes s t q tail size step := by
  have hm : t.mem = u.mem := by unfold Queued at h; rw [h]
  have ha : t.adm = { u.adm with und := u.adm.und ++ (List.range step).map (fun j => ⟨q, (qTail s q + j) % size, none⟩) } := by
    unfold Queued at h; rw [h]
  have hk : t.tasks = u.tasks := by unfold Queued at h; rw [h]
  have htail : u.qf q 32 4 = tail := by
    rw [hs, qf_setQf_other _ _ _ (by decide)]; exact qf_setQf _ _ _ (by omega)
  have hgen : u.qf q 27 1 = (s.qf q 27 1 + 1) % 256 := by rw [hs]; exact qf_setQf _ _ _ (by omega)
  have hf : MemFrame s u [(ctxAddr q + 32, 4), (ctxAddr q + 27, 1)] := by
    rw [hs]; exact (setQf_frame (useQueue s q) q 32 4 tail).trans (setQf_frame _ q 27 1 _)
  have hrest : u.tasks = s.tasks ∧ u.adm = (useQueue s q).adm := by rw [hs]; exact ⟨rfl, rfl⟩
  obtain ⟨ht1, ht2⟩ := hrest
  refine ⟨(qf_of_mem hm ..).trans htail, (qf_of_mem hm ..).trans hgen, hf.trans (.of_eq (rs := []) hm), hk.trans ht1, ?_, ?_⟩
  · rw [ha, ht2]
  · rw [ha, ht2]; rfl

section
variable {s : State} {w : Nat}

/-- Whether the step of a doorbell has room (R348). -/
def stepOf (s : State) (w : Nat) : Nat :=
  (nbits w 43 24 + qSqSize s (nbits w 19 0) - qTail s (nbits w 19 0)) % qSqSize s (nbits w 19 0)

theorem takeDoorbell_off (h : qState s (nbits w 19 0) ≠ 1) : takeDoorbell s w = badDoorbell (useQueue s (nbits w 19 0)) (nbits w 19 0) w := if_pos h

theorem takeDoorbell_bad (h : qState s (nbits w 19 0) = 1) {k : Nat} (hk : doorbellError s (nbits w 19 0) w = k + 1) :
    takeDoorbell s w = rejectDoorbell (useQueue s (nbits w 19 0)) (nbits w 19 0) w (k + 1) := by
  have hk' : doorbellError (useQueue s (nbits w 19 0)) (nbits w 19 0) w = k + 1 := hk
  refine (if_neg (fun hn => hn h)).trans ?_
  rw [hk']
  rfl

theorem takeDoorbell_good (h : qState s (nbits w 19 0) = 1) (h0 : doorbellError s (nbits w 19 0) w = 0) :
    takeDoorbell s w = if 64 < s.adm.und.length + stepOf s w then
        { useQueue s (nbits w 19 0) with adm := { (useQueue s (nbits w 19 0)).adm with backlog := s.adm.backlog ++ [w] } }
      else (List.range (stepOf s w)).foldl (fun u j =>
          let i := (qTail s (nbits w 19 0) + j) % qSqSize s (nbits w 19 0)
          askDescriptor { u with adm := { u.adm with und := u.adm.und ++ [⟨nbits w 19 0, i, none⟩] } } (nbits w 19 0) i)
        (((useQueue s (nbits w 19 0)).setQf (nbits w 19 0) 32 4 (nbits w 43 24)).setQf (nbits w 19 0) 27 1 ((s.qf (nbits w 19 0) 27 1 + 1) % 256)) := by
  have h0' : doorbellError (useQueue s (nbits w 19 0)) (nbits w 19 0) w = 0 := h0
  refine (if_neg (fun hn => hn h)).trans ?_
  rw [h0']
  rfl

theorem doorbellError_lt (s : State) (q w : Nat) : doorbellError s q w < 4 := by
  unfold doorbellError
  dsimp only
  split_ifs <;> decide

theorem takeDoorbell_takes (h : qState s (nbits w 19 0) = 1) (h0 : doorbellError s (nbits w 19 0) w = 0) (hr : s.adm.und.length + stepOf s w ≤ 64) :
    Takes s (takeDoorbell s w) (nbits w 19 0) (nbits w 43 24) (qSqSize s (nbits w 19 0)) (stepOf s w) := by
  rw [takeDoorbell_good h h0, if_neg (by omega)]
  exact .of_queued rfl (Nat.lt_trans (nbits_lt w 43 24) (by decide)) (queueAll_queued ..)

theorem takeDoorbell_waits (h : qState s (nbits w 19 0) = 1) (h0 : doorbellError s (nbits w 19 0) w = 0) (hb : s.adm.backlog = [])
    (hr : 64 < s.adm.und.length + stepOf s w) :
    Still s (takeDoorbell s w) ∧ (takeDoorbell s w).adm.backlog = [w] ∧ (takeDoorbell s w).adm.und = s.adm.und := by
  rw [takeDoorbell_good h h0, if_pos hr, hb]
  exact ⟨⟨⟨rfl, rfl, rfl, rfl⟩, rfl⟩, rfl, rfl⟩

theorem takeDoorbell_rejects (h : qState s (nbits w 19 0) = 1) (h0 : doorbellError s (nbits w 19 0) w ≠ 0) :
    Rejects s (takeDoorbell s w) (nbits w 19 0) (doorbellError s (nbits w 19 0) w) := by
  obtain ⟨k, hk⟩ := Nat.exists_eq_succ_of_ne_zero h0
  have hlt := doorbellError_lt s (nbits w 19 0) w
  rw [takeDoorbell_bad h hk, hk]
  exact rejectDoorbell_rejects h (by omega)

/-- A good completion head is set, where no entry of the queue waits in the spill area (R358). -/
theorem takeHead_takes (h : qState s (nbits w 19 0) = 1) (h1 : nbits w 43 24 < qCqSize s (nbits w 19 0)) (h2 : nbits w 23 20 = 0) (h3 : nbits w 55 44 = 0)
    (h4 : nbits w 63 56 = 0)
    (h5 : (nbits w 43 24 + qCqSize s (nbits w 19 0) - qCqHead s (nbits w 19 0)) % qCqSize s (nbits w 19 0) ≤
      (qCqTail s (nbits w 19 0) + qCqSize s (nbits w 19 0) - qCqHead s (nbits w 19 0)) % qCqSize s (nbits w 19 0))
    (h6 : s.adm.spill.find? (fun p => p.2.queue == nbits w 19 0) = none) :
    takeHead s w = (useQueue s (nbits w 19 0)).setQf (nbits w 19 0) 40 4 (nbits w 43 24) := by
  have hdrain : ∀ n, drainSpill (nbits w 19 0) n ((useQueue s (nbits w 19 0)).setQf (nbits w 19 0) 40 4 (nbits w 43 24)) =
      (useQueue s (nbits w 19 0)).setQf (nbits w 19 0) 40 4 (nbits w 43 24) := by
    intro n
    have h6' : ((useQueue s (nbits w 19 0)).setQf (nbits w 19 0) 40 4 (nbits w 43 24)).adm.spill.find? (fun p => p.2.queue == nbits w 19 0) = none := h6
    cases n with
    | zero => rfl
    | succ n => unfold drainSpill; rw [h6']
  refine (if_neg (fun hn => hn h)).trans ((if_neg ?_).trans ((if_neg ?_).trans (hdrain _)))
  · exact not_or.2 ⟨by omega, not_or.2 ⟨fun hn => hn h2, fun hn => hn h3⟩⟩
  · exact not_or.2 ⟨fun hn => hn h4, Nat.not_lt.2 h5⟩

end

/-- A doorbell of this module's own window is the doorbell. -/
theorem exec_doorbells {s : State} {word : Word64} {m : Fin 64} (hm : m.val = s.modId) :
    ∀ c ∈ [Instr.doorbell word, .remoteDoorbell m false word], exec c s = .next (ringSq s word.toNat) := by
  intro c hc
  obtain rfl | hc := List.mem_cons.1 hc
  · rfl
  · obtain rfl := List.mem_singleton.1 hc
    exact congrArg Host.Outcome.next (if_pos hm)

theorem exec_headDoorbells {s : State} {word : Word64} {m : Fin 64} (hm : m.val = s.modId) :
    ∀ c ∈ [Instr.completionHeadDoorbell word, .remoteDoorbell m true word], exec c s = .next (ringCq s word.toNat) := by
  intro c hc
  obtain rfl | hc := List.mem_cons.1 hc
  · rfl
  · obtain rfl := List.mem_singleton.1 hc
    exact congrArg Host.Outcome.next (if_pos hm)

theorem ringSq_open {s : State} {w : Nat} (h : admOpen s = true) (hb : s.adm.backlog = []) : ringSq s w = takeDoorbell s w :=
  (if_neg (by rw [h]; decide)).trans (if_neg (fun hn => hn hb))

theorem ringCq_open {s : State} {w : Nat} (h : admOpen s = true) : ringCq s w = takeHead s w := if_pos h

/-- Settles O37: one doorbell at a time, by the state of its queue and its error code. -/
theorem doorbellsAreTakenOrRejected : Obligations.DoorbellsAreTakenOrRejected := by
  intro s word m w q tail size step at_ hm
  refine ⟨fun c hc => ⟨fun hclosed => ?_, fun hopen hb => ?_⟩, ?_⟩
  · refine ⟨_, exec_doorbells hm c hc, ?_⟩
    rw [show ringSq s word.toNat = dropDoorbell s (nbits word.toNat 19 0) from if_pos (by rw [hclosed]; rfl)]
    exact dropDoorbell_spec ..
  · have he := exec_doorbells hm c hc
    rw [ringSq_open hopen hb] at he
    refine ⟨fun h => ⟨_, he, ?_⟩, fun h h0 => ⟨_, he, ?_⟩, fun h h0 hr => ⟨_, he, ?_⟩, fun h h0 hr => ⟨_, he, takeDoorbell_waits h h0 hb hr⟩⟩
    · rw [takeDoorbell_off h]
      exact badDoorbell_used ..
    · obtain ⟨r1, r2, r3, r4, r5⟩ := takeDoorbell_rejects h h0
      exact ⟨r1, r2, r3, r4, r5⟩
    · obtain ⟨r1, r2, r3, r4, r5, r6⟩ := takeDoorbell_takes h h0 hr
      exact ⟨r1, r2, r3, r4, r5, r6⟩
  · intro head qs c hc hopen
    have he := exec_headDoorbells hm c hc
    rw [ringCq_open hopen] at he
    refine ⟨fun h h1 h2 h3 h4 h5 h6 => ?_, fun h => ⟨_, he, ?_⟩⟩
    · rw [takeHead_takes h h1 h2 h3 h4 h5 h6] at he
      exact ⟨_, he, qf_setQf _ _ _ (Nat.lt_trans (nbits_lt word.toNat 43 24) (by decide)), setQf_frame (useQueue s q) q 40 4 _, rfl⟩
    · rw [show takeHead s word.toNat = badDoorbell (useQueue s q) q word.toNat from if_pos h]
      exact badDoorbell_used ..

end Sys2Proof.Machine
end

section
/-! SUPPORT. Writes at a home, line by line: what they leave alone, and the bytes that they put (R235, R237, R243, R251, R306). -/
namespace Sys2Proof.Machine

/-! ## What a write at a home changes -/

/-- Memory, poison, lines with their fills, merge entries and rewrites, counters and free choices differ, and of registers the status
of the LLC halves. -/
structure HomeOnly (s t : State) : Prop where
  only : t = { s with
    fresh := t.fresh
    regs := t.regs
    mem := t.mem
    poison := t.poison
    llc := { s.llc with lines := t.llc.lines, fills := t.llc.fills, merges := t.llc.merges, rewrites := t.llc.rewrites }
    pmc := { s.pmc with cnt := t.pmc.cnt } }
  reg : ∀ off, (∀ h, h < 4 → off ≠ rHstat h) → t.reg off = s.reg off

theorem HomeOnly.rfl {s : State} : HomeOnly s s := ⟨Eq.refl _, fun _ _ => Eq.refl _⟩

theorem HomeOnly.trans {a b c : State} (h : HomeOnly a b) (k : HomeOnly b c) : HomeOnly a c :=
  ⟨by rw [k.only, h.only], fun off ho => (k.reg off ho).trans (h.reg off ho)⟩

section
variable {s t : State} (h : HomeOnly s t)
include h
theorem HomeOnly.cores : t.cores = s.cores := by rw [h.only]
theorem HomeOnly.tasks : t.tasks = s.tasks := by rw [h.only]
theorem HomeOnly.ras : t.ras = s.ras := by rw [h.only]
theorem HomeOnly.md : t.md = s.md := by rw [h.only]
theorem HomeOnly.clk : t.clk = s.clk := by rw [h.only]
theorem HomeOnly.host : t.host = s.host := by rw [h.only]
theorem HomeOnly.out : t.out = s.out := by rw [h.only]
theorem HomeOnly.lup : t.lup = s.lup := by rw [h.only]
theorem HomeOnly.modId : t.modId = s.modId := by rw [h.only]
theorem HomeOnly.sources : t.llc.sources = s.llc.sources := by rw [h.only]
theorem HomeOnly.reds : t.llc.reds = s.llc.reds := by rw [h.only]
theorem HomeOnly.seq : t.pmc.seq = s.pmc.seq := by rw [h.only]
theorem HomeOnly.lost : t.pmc.lost = s.pmc.lost := by rw [h.only]
theorem HomeOnly.wraps : t.pmc.wraps = s.pmc.wraps := by rw [h.only]
end

theorem homeOnly_llc {s t : State} {lines : Tab Line} {fills rewrites : List Nat} {merges : List MergeEntry} {mem : List Host.Cell} {poison : List Nat} {fresh : Nat}
    (h : t = { s with
      fresh := fresh
      mem := mem
      poison := poison
      llc := { s.llc with lines := lines, fills := fills, merges := merges, rewrites := rewrites } }) : HomeOnly s t := by
  rw [h]
  exact ⟨rfl, fun _ _ => rfl⟩

theorem refreshHstat_homeOnly (s : State) : HomeOnly s (refreshHstat s) :=
  foldl_range_rooted (I := HomeOnly s) (fun u h hh k => k.trans (by
    have hr : ∀ off, (∀ h, h < 4 → off ≠ rHstat h) → (hstatOf u h).reg off = u.reg off := fun off ho =>
      (reg_setField_other _ _ _ _ (ho h hh)).trans (reg_setField_other _ _ _ _ (ho h hh))
    have ho : RegsOnly u (hstatOf u h) := (setField_regsOnly ..).trans (setField_regsOnly ..)
    generalize hstatOf u h = t at hr ho ⊢
    refine ⟨?_, hr⟩
    unfold RegsOnly at ho
    rw [ho])) .rfl

theorem countSel_cnt {block : Nat} (hb : block ≠ 0) (s : State) (i code n : Nat) (d : Dims) (m : Nat) :
    ∃ c, countSel s block i code n d m = { s with pmc := { s.pmc with cnt := c } } := by
  unfold countSel
  dsimp only
  split
  · exact ⟨_, rfl⟩
  · rw [if_neg (fun h => hb h.1)]
    exact ⟨_, rfl⟩

/-- An event of a unit other than a core changes the counters alone. -/
theorem countEvent_cnt {block : Nat} (hb : block ≠ 0) (s : State) (i code n : Nat) (d : Dims) :
    ∃ c, countEvent s block i code n d = { s with pmc := { s.pmc with cnt := c } } := by
  unfold countEvent
  split
  · exact ⟨_, rfl⟩
  · have key : ∀ (ms : List Nat) (u : State), ∃ c, ms.foldl (fun u m => countSel u block i code n d m) u = { u with pmc := { u.pmc with cnt := c } } := by
      intro ms
      induction ms with
      | nil => exact fun u => ⟨u.pmc.cnt, rfl⟩
      | cons m ms ih =>
        intro u
        obtain ⟨c, hc⟩ := countSel_cnt hb u i code n d m
        obtain ⟨c', hc'⟩ := ih (countSel u block i code n d m)
        exact ⟨c', hc'.trans (by rw [hc])⟩
    exact key _ s

theorem countEvent_homeOnly {block : Nat} (hb : block ≠ 0) (s : State) (i code n : Nat) (d : Dims) : HomeOnly s (countEvent s block i code n d) := by
  obtain ⟨c, h⟩ := countEvent_cnt hb s i code n d
  rw [h]
  exact ⟨rfl, fun _ _ => rfl⟩

theorem mergeClose_homeOnly (s : State) (line : Nat) : HomeOnly s (mergeClose s line) := homeOnly_llc rfl
theorem cancelRewrites_homeOnly (s : State) (a n : Nat) : HomeOnly s (cancelRewrites s a n) := homeOnly_llc rfl
theorem modLine_homeOnly (s : State) (l : Nat) (f : Line → Line) : HomeOnly s (modLine s l f) := homeOnly_llc rfl
theorem touchLine_homeOnly (s : State) (a n : Nat) : HomeOnly s (touchLine s a n) := (cancelRewrites_homeOnly ..).trans (modLine_homeOnly ..)
theorem poisonBytes_homeOnly (s : State) (a n : Nat) : HomeOnly s (poisonBytes s a n) := homeOnly_llc rfl
theorem storeBytes_homeOnly (s : State) (a : Nat) (bs : List Nat) : HomeOnly s (storeBytes s a bs) := homeOnly_llc rfl
theorem setBytes_homeOnly (s : State) (a : Nat) (bs : List Nat) : HomeOnly s (s.setBytes a bs) := homeOnly_llc rfl
theorem mergeCover_homeOnly (s : State) (w : Nat) : HomeOnly s (mergeCover s w) := homeOnly_llc rfl

theorem leaveLine_homeOnly (s : State) (l : Nat) : HomeOnly s (leaveLine [] s l) := by
  have hdirty : ∀ u, HomeOnly s u → HomeOnly s ([0, 64].foldl (fun s o =>
      if isPoisoned s.poison (128 * l + o) 64 then poisonBytes s (128 * l + o) 64 else s) (cancelRewrites u (128 * l) 128)) := fun u h =>
    foldl_rooted (I := HomeOnly s) (fun v o k => ite_rooted (k.trans (poisonBytes_homeOnly ..)) k) (h.trans (cancelRewrites_homeOnly ..))
  have hclean : ∀ (k : Line) u, HomeOnly s u → HomeOnly s (k.under.foldl (fun s a => poisonBytes s a 64)
      (k.saved.foldl (fun s (w, bs) => storeBytes s (16 * w) bs) u)) := fun k u h =>
    foldl_rooted (I := HomeOnly s) (fun v o k => k.trans (poisonBytes_homeOnly ..))
      (foldl_rooted (I := HomeOnly s) (fun v p k => k.trans (storeBytes_homeOnly ..)) h)
  have hgone : ∀ u, HomeOnly s u → HomeOnly s (refreshHstat { u with llc := { u.llc with lines := u.llc.lines.filter (fun p => p.1 != l) } }) := fun u h =>
    h.trans (HomeOnly.trans (homeOnly_llc (lines := u.llc.lines.filter (fun p => p.1 != l)) rfl) (refreshHstat_homeOnly _))
  have hread : HomeOnly s (readWord s (128 * l) 128 [] 0) := mergeClose_homeOnly ..
  unfold leaveLine
  split
  · exact .rfl
  · exact hgone _ (ite_rooted (hdirty _ hread) (hclean _ _ hread))

theorem makeRoom_homeOnly {s t : State} {m : Home} (h : makeRoom [] s m = some t) : HomeOnly s t := by
  unfold makeRoom at h
  dsimp only at h
  split at h
  · cases h; exact .rfl
  · split at h
    · cases h
    · cases h
      exact (leaveLine_homeOnly ..).trans (homeOnly_llc rfl)

theorem placeLine_homeOnly (s : State) (m : Home) (l : Nat) : HomeOnly s (placeLine s m l) := by
  have h : ∀ u fills lines, HomeOnly s u → HomeOnly s (refreshHstat { u with llc := { u.llc with fills := fills, lines := lines } }) := fun u fills lines h =>
    h.trans (HomeOnly.trans (homeOnly_llc (lines := lines) (fills := fills) rfl) (refreshHstat_homeOnly _))
  exact h _ _ _ (countEvent_homeOnly (by decide) ..)

/-- A line fetched for a write, where no entry is queued. -/
theorem installLine_homeOnly {s : State} (hr : s.llc.reds = []) (l : Nat) : HomeOnly s (installLine s l) := by
  have hdrain : ∀ k, drainHbm s k = s := fun k => drainHbm_of_none (by simp [hr])
  unfold installLine
  split
  · exact .rfl
  · split
    · exact .rfl
    · split
      next t ht => exact (makeRoom_homeOnly ht).trans (placeLine_homeOnly ..)
      · split
        · exact .rfl
        · rw [hdrain]
          split
          next t ht => exact (makeRoom_homeOnly ht).trans (placeLine_homeOnly ..)
          · exact .rfl

theorem mergeWord_homeOnly (s : State) (w o n : Nat) : HomeOnly s (mergeWord [] s w o n) := by
  unfold mergeWord
  dsimp only
  split
  · exact homeOnly_llc rfl
  · split
    · exact homeOnly_llc rfl
    · split
      · exact homeOnly_llc rfl
      · split <;> exact homeOnly_llc rfl

theorem putBytes_homeOnly (s : State) (a : Nat) (bs : List Nat) : HomeOnly s (putBytes [] s a bs) :=
  (foldl_rooted (I := HomeOnly s) (fun _ _ k => ite_rooted (k.trans (mergeCover_homeOnly ..)) (k.trans (mergeWord_homeOnly ..))) (storeBytes_homeOnly ..)).trans
    (touchLine_homeOnly ..)

/-! ## Lines without older copies stay so -/

/-- No line keeps an older copy of its bytes, and no reduction entry is queued. -/
def Alone (s : State) : Prop := NoOldCopies s ∧ s.llc.reds = []

/-- Poison stays, and every line is one of before or keeps no older copy. -/
def NoCopies (s t : State) : Prop := t.poison = s.poison ∧ ∀ p ∈ t.llc.lines, p ∈ s.llc.lines ∨ (p.2.saved = [] ∧ p.2.under = [])

theorem NoCopies.rfl {s : State} : NoCopies s s := ⟨Eq.refl _, fun _ h => .inl h⟩
theorem NoCopies.trans {a b c : State} (h : NoCopies a b) (k : NoCopies b c) : NoCopies a c :=
  ⟨k.1.trans h.1, fun p hp => (k.2 p hp).elim (h.2 p) .inr⟩
theorem NoCopies.noOldCopies {s t : State} (h : NoCopies s t) (hs : NoOldCopies s) : NoOldCopies t :=
  ⟨h.1.trans hs.1, fun p hp => (h.2 p hp).elim (hs.2 p) id⟩

theorem refreshHstat_noCopies (s : State) : NoCopies s (refreshHstat s) := by
  have h := refreshHstat_regsOnly s
  generalize refreshHstat s = t at h ⊢
  unfold RegsOnly at h
  have hk : t.poison = s.poison ∧ t.llc = s.llc := by rw [h]; exact ⟨rfl, rfl⟩
  exact ⟨hk.1, fun p hp => .inl (by rw [← hk.2]; exact hp)⟩

theorem noCopies_lines {s u : State} {fills : List Nat} {lines : Tab Line} (h1 : u.poison = s.poison)
    (h2 : ∀ p ∈ lines, p ∈ s.llc.lines ∨ (p.2.saved = [] ∧ p.2.under = [])) : NoCopies s { u with llc := { u.llc with fills := fills, lines := lines } } :=
  ⟨h1, h2⟩

theorem NoOldCopies.leaveLine_noCopies {s : State} (h : NoOldCopies s) (l : Nat) : NoCopies s (leaveLine [] s l) := by
  obtain ⟨hp, hl⟩ := h
  have hgone : ∀ u : State, u.poison = s.poison → u.llc.lines = s.llc.lines →
      NoCopies s (refreshHstat { u with llc := { u.llc with lines := u.llc.lines.filter (fun p => p.1 != l) } }) := fun u h1 h2 =>
    (noCopies_lines h1 fun _ hp => .inl (h2 ▸ (List.mem_filter.1 hp).1)).trans (refreshHstat_noCopies _)
  unfold leaveLine
  split
  · exact .rfl
  next k hk =>
    have hat : lineAt (readWord s (128 * l) 128 [] 0) l = some k := hk
    have hclean : k.saved = [] ∧ k.under = [] := by
      obtain ⟨p, hfind, rfl⟩ := Option.map_eq_some_iff.1 hk
      exact hl p (List.mem_of_find?_eq_some hfind)
    dsimp only
    rw [hat, Option.getD_some, hclean.1, hclean.2]
    split
    · have hnone : ∀ a, isPoisoned (cancelRewrites (readWord s (128 * l) 128 [] 0) (128 * l) 128).poison a 64 = false := by
        intro a; show isPoisoned s.poison a 64 = false; rw [hp]; rfl
      simp only [List.foldl_cons, List.foldl_nil, hnone, Bool.false_eq_true, if_false]
      exact hgone _ rfl rfl
    · exact hgone _ rfl rfl

theorem NoOldCopies.makeRoom_noCopies {s t : State} {m : Home} (h : NoOldCopies s) (ht : makeRoom [] s m = some t) : NoCopies s t := by
  unfold makeRoom at ht
  dsimp only at ht
  split at ht
  · cases ht; exact .rfl
  · split at ht
    · cases ht
    · cases ht; exact h.leaveLine_noCopies _

theorem placeLine_noCopies (s : State) (m : Home) (l : Nat) : NoCopies s (placeLine s m l) := by
  have h : ∀ (u : State) (pin : Option Nat) (fills : List Nat), u.poison = s.poison → u.llc.lines = s.llc.lines → NoCopies s (refreshHstat { u with llc := { u.llc with
      fills := fills, lines := tins l { Line.fresh with pin := pin, byPlace := pin.isSome } (u.llc.lines.filter (fun p => p.1 != l)) } }) :=
    fun u pin fills h1 h2 => (noCopies_lines h1 fun p hp => (mem_tins.1 hp).elim (fun h => .inr (by rw [h]; exact ⟨rfl, rfl⟩))
      (fun h => .inl (h2 ▸ (List.mem_filter.1 h).1))).trans (refreshHstat_noCopies _)
  have hc := fun n d => countEvent_cnt (block := 2) (by decide) s m.half 0x84 n d
  refine h _ _ _ ?_ ?_
  · obtain ⟨c, hc⟩ := hc _ _; rw [hc]
  · obtain ⟨c, hc⟩ := hc _ _; rw [hc]

theorem Alone.installLine_noCopies {s : State} (h : Alone s) (l : Nat) : NoCopies s (installLine s l) := by
  obtain ⟨h, hr⟩ := h
  have hdrain : ∀ k, drainHbm s k = s := fun k => drainHbm_of_none (by simp [hr])
  unfold installLine
  split
  · exact .rfl
  · split
    · exact .rfl
    · split
      next t ht => exact (h.makeRoom_noCopies ht).trans (placeLine_noCopies ..)
      · split
        · exact .rfl
        · rw [hdrain]
          split
          next t ht => exact (h.makeRoom_noCopies ht).trans (placeLine_noCopies ..)
          · exact .rfl

theorem Alone.installLine {s : State} (h : Alone s) (l : Nat) : Alone (installLine s l) :=
  ⟨(h.installLine_noCopies l).noOldCopies h.1, (installLine_homeOnly h.2 l).reds.trans h.2⟩

/-! ## What bytes put in a line change of the lines -/

/-- A line that has been written. -/
def writtenLine (l : Line) : Line := { l with dirty := true, saved := [], under := [] }

/-- Poison shrinks, and of the lines one at most is marked as written. -/
def LineWritten (s t : State) (l : Nat) : Prop :=
  (∀ w ∈ t.poison, w ∈ s.poison) ∧ t.llc.lines = s.llc.lines.map (fun p => if p.1 = l then (p.1, writtenLine p.2) else p)

theorem mergeWord_lines (s : State) (w o n : Nat) : (mergeWord [] s w o n).llc.lines = s.llc.lines ∧ ∀ x ∈ (mergeWord [] s w o n).poison, x ∈ s.poison := by
  unfold mergeWord
  dsimp only
  split
  · exact ⟨rfl, fun x hx => (List.mem_filter.1 hx).1⟩
  · split
    · exact ⟨rfl, fun _ h => h⟩
    · split
      · exact ⟨rfl, fun _ h => h⟩
      · split <;> exact ⟨rfl, fun _ h => h⟩

theorem putBytes_lineWritten (s : State) (a : Nat) (bs : List Nat) : LineWritten s (putBytes [] s a bs) (lineOf a) := by
  have h : ∀ u, u.llc.lines = s.llc.lines ∧ (∀ x ∈ u.poison, x ∈ s.poison) → LineWritten s (touchLine u a bs.length) (lineOf a) := fun u ⟨h1, h2⟩ =>
    ⟨h2, by rw [← h1]; rfl⟩
  refine h _ (foldl_rooted (I := fun u : State => u.llc.lines = s.llc.lines ∧ ∀ x ∈ u.poison, x ∈ s.poison) (fun u w k => ite_rooted
    (I := fun u : State => u.llc.lines = s.llc.lines ∧ ∀ x ∈ u.poison, x ∈ s.poison) k ?_) ⟨rfl, fun x hx => (List.mem_filter.1 hx).1⟩)
  obtain ⟨m1, m2⟩ := mergeWord_lines u w (max a (16 * w) - 16 * w) (min (a + bs.length) (16 * w + 16) - max a (16 * w))
  exact ⟨m1.trans k.1, fun x hx => k.2 x (m2 x hx)⟩

theorem LineWritten.lineAt_isSome {s t : State} {l : Nat} (h : LineWritten s t l) (k : Nat) : (lineAt t k).isSome = (lineAt s k).isSome := by
  have hk : ∀ p : Nat × Line, (if p.1 = l then (p.1, writtenLine p.2) else p).1 = p.1 := fun p => by split <;> rfl
  have hc : ((fun p : Nat × Line => p.1 == k) ∘ fun p => if p.1 = l then (p.1, writtenLine p.2) else p) = fun p => p.1 == k := by
    funext p
    rw [Function.comp_apply, hk]
  unfold lineAt
  rw [h.2, Option.isSome_map, Option.isSome_map, List.find?_map, hc, Option.isSome_map]

theorem LineWritten.linePresent {s t : State} {l : Nat} (h : LineWritten s t l) (x : Nat) : linePresent t x = linePresent s x := by
  unfold Machine.linePresent
  rw [h.lineAt_isSome]

theorem LineWritten.noOldCopies {s t : State} {l : Nat} (h : LineWritten s t l) (hs : NoOldCopies s) : NoOldCopies t := by
  refine ⟨List.eq_nil_iff_forall_not_mem.2 fun w hw => ?_, fun p hp => ?_⟩
  · have := h.1 w hw
    rw [hs.1] at this
    exact List.not_mem_nil this
  · rw [h.2] at hp
    obtain ⟨q, hq, rfl⟩ := List.mem_map.1 hp
    split
    · exact ⟨rfl, rfl⟩
    · exact hs.2 q hq

/-! ## Writes over several lines -/

theorem addrLow_of_lt {a : Nat} (h : a < 2 ^ 48) : addrLow a = a := Nat.mod_eq_of_lt h

/-- Bytes that a write may change without moving a line whose copies differ, none of them with a source. -/
structure CanWrite (s : State) (a n : Nat) : Prop where
  low : a + n ≤ 2 ^ 48
  own : ∀ x, a ≤ x → x < a + n → sourceAt s x = none
  alone : WritesAlone s a n

theorem sourceAt_congr {s t : State} (h : t.llc.sources = s.llc.sources) (a : Nat) : sourceAt t a = sourceAt s a := by
  unfold sourceAt; rw [h]

theorem putSource_none {s : State} {a : Nat} (h : sourceAt s a = none) (bs : List Nat) : putSource s a bs = s := by
  unfold putSource; rw [h]

theorem WritesAlone.quiet {s : State} {a n x : Nat} (h : WritesAlone s a n) (h1 : a ≤ x) (h2 : x < a + n) : ∀ e ∈ s.llc.reds, lineOf e.addr ≠ lineOf x := by
  rcases h with h | ⟨-, hr, -⟩
  · exact (h x h1 h2).2
  · simp [hr]

theorem LineWritten.alone {s t : State} {l a n : Nat} (h : LineWritten s t l) (hr : t.llc.reds = s.llc.reds) (hs : WritesAlone s a n) : WritesAlone t a n := by
  rcases hs with hs | ⟨h1, h2, h3⟩
  · exact .inl fun x h1 h2 => ⟨(h.linePresent x).trans (hs x h1 h2).1, by rw [hr]; exact (hs x h1 h2).2⟩
  · obtain ⟨k1, k2⟩ := h.noOldCopies ⟨h1, h3⟩
    exact .inr ⟨k1, hr.trans h2, k2⟩

/-- One write within one line. -/
structure PutRun (s t : State) (a n : Nat) (p : Nat × List Nat) : Prop where
  only : HomeOnly s t
  can : CanWrite t a n
  mem : t.mem = writeBytes s.mem p.1 p.2

theorem CanWrite.install {s : State} {a n x : Nat} (h : CanWrite s a n) (h1 : a ≤ x) (h2 : x < a + n) :
    HomeOnly s (if linePresent s x ∨ (!true ∧ n = 128) then s else installLine s (lineOf x)) ∧
      WritesAlone (if linePresent s x ∨ (!true ∧ n = 128) then s else installLine s (lineOf x)) a n ∧
      (if linePresent s x ∨ (!true ∧ n = 128) then s else installLine s (lineOf x)).mem = s.mem := by
  split
  · exact ⟨.rfl, h.alone, rfl⟩
  next hp =>
    rcases h.alone with ha | ⟨h1', h2', h3'⟩
    · exact absurd (.inl (ha x h1 h2).1) hp
    · have hal : Alone s := ⟨⟨h1', h3'⟩, h2'⟩
      obtain ⟨⟨k1, k2⟩, k3⟩ := hal.installLine (lineOf x)
      exact ⟨installLine_homeOnly h2' _, .inr ⟨k1, k3, k2⟩, NoOldCopies.installLine_mem ⟨h1', h3'⟩ h2' _⟩

theorem putBytes_putRun {s u : State} {a n : Nat} {p : Nat × List Nat} (h : CanWrite s a n) (ho : HomeOnly s u) (ha : WritesAlone u a n) (hm : u.mem = s.mem)
    (hlow : p.1 < 2 ^ 48) : PutRun s (putBytes [] u p.1 p.2) a n p := by
  have hput := putBytes_homeOnly u p.1 p.2
  have hw := putBytes_lineWritten u p.1 p.2
  have hmem := putBytes_nil_mem u p.1 p.2
  generalize putBytes [] u p.1 p.2 = t at *
  refine ⟨ho.trans hput, ⟨h.low, fun x h1 h2 => ?_, hw.alone hput.reds ha⟩, ?_⟩
  · rw [sourceAt_congr (ho.trans hput).sources]; exact h.own x h1 h2
  · rw [hmem, hm, addrLow_of_lt hlow]

theorem CanWrite.putRun {s : State} {a n : Nat} {p : Nat × List Nat} (h : CanWrite s a n) (h1 : a ≤ p.1) (h2 : p.1 < a + n) :
    PutRun s (putSource (putLine [] true (drainLine s (lineOf p.1)) p) p.1 p.2) a n p := by
  have hq := h.alone.quiet h1 h2
  obtain ⟨i1, i2, i3⟩ := h.install h1 h2
  have hlow : p.1 < 2 ^ 48 := Nat.lt_of_lt_of_le h2 h.low
  have hline : putLine [] true s p = putBytes [] (if linePresent s p.1 ∨ (!true ∧ n = 128) then s else installLine s (lineOf p.1)) p.1 p.2 := by
    unfold putLine
    rw [drainHbm_of_none hq]
    simp
  rw [drainLine_of_none hq, hline]
  generalize (if linePresent s p.1 ∨ (!true ∧ n = 128) then s else installLine s (lineOf p.1)) = u at i1 i2 i3 ⊢
  have hr := putBytes_putRun (p := p) h i1 i2 i3 hlow
  rw [putSource_none (hr.can.own p.1 h1 h2)]
  exact hr

/-- The bytes of a run stand at their places in the whole. -/
structure Piece (a : Nat) (bs : List Nat) (p : Nat × List Nat) : Prop where
  from_ : a ≤ p.1
  upto : p.1 < a + bs.length
  byte : ∀ i (h : i < p.2.length), ∃ h' : p.1 - a + i < bs.length, p.2[i] = bs[p.1 - a + i]

theorem lineRuns_piece {a : Nat} {bs : List Nat} (hne : bs ≠ []) : ∀ p ∈ lineRuns a bs, Piece a bs p := by
  have hlen : 0 < bs.length := List.length_pos_iff.2 hne
  intro p hp
  obtain ⟨j, hj, rfl⟩ := List.mem_map.1 hp
  have hj := List.mem_range.1 hj
  refine ⟨Nat.le_max_left .., by dsimp only; omega, fun i hi => ?_⟩
  dsimp only at hi ⊢
  simp only [List.length_take, List.length_drop] at hi
  refine ⟨by omega, ?_⟩
  rw [List.getElem_take, List.getElem_drop]

theorem lineRuns_cover {a b : Nat} {bs : List Nat} (h1 : a ≤ b) (h2 : b < a + bs.length) : ∃ p ∈ lineRuns a bs, p.1 ≤ b ∧ b < p.1 + p.2.length := by
  refine ⟨_, List.mem_map.2 ⟨b / 128 - a / 128, List.mem_range.2 ?_, rfl⟩, ?_, ?_⟩
  · omega
  · dsimp only; omega
  · simp only [List.length_take, List.length_drop]
    omega

/-- A byte of the whole stands at its place. -/
def ByteSet (a : Nat) (bs : List Nat) (t : State) (b : Nat) : Prop := ∃ h : b - a < bs.length, a ≤ b ∧ memGet t.mem b = BitVec.ofNat 8 bs[b - a]

theorem PutRun.byte {s t : State} {a n b : Nat} {bs : List Nat} {p : Nat × List Nat} (h : PutRun s t a n p) (hp : Piece a bs p) :
    (p.1 ≤ b ∧ b < p.1 + p.2.length → ByteSet a bs t b) ∧ (¬ (p.1 ≤ b ∧ b < p.1 + p.2.length) → memGet t.mem b = memGet s.mem b) := by
  refine ⟨fun ⟨h1, h2⟩ => ?_, fun hb => ?_⟩
  · have hb := memGet_writeBytes s.mem p.1 p.2 (i := b - p.1) (by omega)
    obtain ⟨hi, hbyte⟩ := hp.byte (b - p.1) (by omega)
    have hfrom := hp.from_
    have hidx : p.1 - a + (b - p.1) = b - a := by omega
    refine ⟨by omega, by omega, ?_⟩
    rw [Nat.add_sub_cancel' h1, hbyte] at hb
    rw [h.mem, hb]
    simp only [hidx]
  · rw [h.mem]
    exact memGet_writeBytes_other _ _ _ (by omega)

theorem CanWrite.putRuns {a : Nat} {bs : List Nat} (l : List (Nat × List Nat)) (hl : ∀ p ∈ l, Piece a bs p) {s : State} (h : CanWrite s a bs.length) :
    HomeOnly s (l.foldl (fun s p => putSource (putLine [] true (drainLine s (lineOf p.1)) p) p.1 p.2) s) ∧ ∀ b,
      ((ByteSet a bs s b ∨ ∃ p ∈ l, p.1 ≤ b ∧ b < p.1 + p.2.length) →
        ByteSet a bs (l.foldl (fun s p => putSource (putLine [] true (drainLine s (lineOf p.1)) p) p.1 p.2) s) b) ∧
      ((∀ p ∈ l, ¬ (p.1 ≤ b ∧ b < p.1 + p.2.length)) →
        memGet (l.foldl (fun s p => putSource (putLine [] true (drainLine s (lineOf p.1)) p) p.1 p.2) s).mem b = memGet s.mem b) := by
  induction l generalizing s with
  | nil => exact ⟨.rfl, fun b => ⟨fun hb => hb.elim id fun ⟨_, hp, _⟩ => absurd hp List.not_mem_nil, fun _ => rfl⟩⟩
  | cons p l ih =>
    have hp := hl p (List.mem_cons_self ..)
    have hr := h.putRun hp.from_ hp.upto
    rw [List.foldl_cons]
    generalize putSource (putLine [] true (drainLine s (lineOf p.1)) p) p.1 p.2 = u at hr ⊢
    obtain ⟨k1, k2⟩ := ih (fun q hq => hl q (List.mem_cons_of_mem _ hq)) hr.can
    refine ⟨hr.only.trans k1, fun b => ⟨fun hb => (k2 b).1 ?_, fun hb => ((k2 b).2 fun q hq => hb q (List.mem_cons_of_mem _ hq)).trans
      ((hr.byte hp).2 (hb p (List.mem_cons_self ..)))⟩⟩
    by_cases hin : p.1 ≤ b ∧ b < p.1 + p.2.length
    · exact .inl ((hr.byte hp).1 hin)
    · rcases hb with ⟨h1, h2, h3⟩ | ⟨q, hq, hqb⟩
      · exact .inl ⟨h1, h2, ((hr.byte hp).2 hin).trans h3⟩
      · rcases List.mem_cons.1 hq with rfl | hq
        · exact absurd hqb hin
        · exact .inr ⟨q, hq, hqb⟩

/-- A write at a home puts its bytes and changes no other. -/
theorem CanWrite.homeWrite {s : State} {a : Nat} {bs : List Nat} (h : CanWrite s a bs.length) (hne : bs ≠ []) :
    HomeOnly s (homeWrite s a bs) ∧ MemHolds (homeWrite s a bs) a bs ∧ MemFrame s (homeWrite s a bs) [(a, bs.length)] := by
  have hlen : 0 < bs.length := List.length_pos_iff.2 hne
  have hlow := h.low
  obtain ⟨k1, k2⟩ := h.putRuns (lineRuns a bs) (lineRuns_piece hne)
  unfold Machine.homeWrite homeWriteBy
  rw [addrLow_of_lt (by omega)]
  generalize (lineRuns a bs).foldl _ s = t at k1 k2 ⊢
  refine ⟨k1, fun j hj => ?_, fun b hb => (k2 b).2 fun p hp hin => ?_⟩
  · obtain ⟨h1, h2, h3⟩ := (k2 (a + j)).1 (.inr (lineRuns_cover (by omega) (by omega)))
    rw [h3, List.getD_eq_getElem _ _ hj]
    simp only [Nat.add_sub_cancel_left]
  · have hb := hb _ (List.mem_singleton.2 rfl)
    have hp := lineRuns_piece hne p hp
    obtain ⟨hi, -⟩ := hp.byte (b - p.1) (by omega)
    have := hp.from_
    dsimp only at hb
    omega

end Sys2Proof.Machine
end
